-- ==== Sys2Proof/Word.lean ====
section
/-! DEFINITION. The word types of the module and the plainest arithmetic on them. -/

namespace Sys2Proof

/-- A register or descriptor word: every register is 32 bits wide (R3). -/
abbrev W32 := BitVec 32
/-- A 64-bit quantity: host addresses, short stamps, counters of two words (R8, R31). -/
abbrev W64 := BitVec 64
/-- A queue word is 32 bytes (R115); little-endian, word 0x00 in bits 31:0. -/
abbrev QWord := BitVec 256
abbrev Byte := BitVec 8

/-- A sparse map: key and value pairs, keys strictly rising, no value equal to the default (Machine/Map.lean). -/
abbrev SMap (α : Type) := List (Nat × α)

/-- One of the two halves of a carrier's set (R53, R54). -/
inductive Half where
  | ul | dl
  deriving DecidableEq, Repr

end Sys2Proof
end

