-- ==== Sys2Proof/Syntax.lean ====
section
/-! DEFINITION. The commands of the module: one constructor of `Instr` for each row of the table of operations and
events, with the operands a command carries from outside. -/

namespace Sys2Proof

/-- A descriptor as its block accepts it (R88): the submission ring it came from, the header, and bytes 0x10 to 0x3F
as twelve words. -/
structure Desc where
  ring : Nat
  /-- TYPE: block in bits 15:8, type in bits 7:0 (R89) -/
  type : Nat
  tag : W32
  /-- FLAGS: bit 0 IRQ, bit 1 FENCE, bits 15:8 the block's (R90) -/
  flags : Nat
  immediate : Bool
  /-- CARRIER, 16 bits -/
  carrier : Nat
  /-- slot stamp (R52) -/
  slot : W32
  body : List W32
  deriving DecidableEq, Repr

/-- What the module keeps of a descriptor to complete it (R92). -/
structure DRef where
  ring : Nat
  tag : W32
  irq : Bool := false
  clamped : Bool := false
  deriving DecidableEq, Repr

/-- Sources of queue words (R116). -/
inductive Producer where
  | leaf (n : Nat)
  | dma (ch : Nat)
  | stream (carrier group : Nat)
  | engine (e : Nat)
  | slotGrid
  | host (ring : Nat) (tag : W32)
  | stitch (b : Nat)
  | signature (sig seq : Nat)
  | other (n : Nat)
  deriving DecidableEq, Repr

/-- Readers of queues (R121, R122). -/
inductive Consumer where
  | leaf (n : Nat)
  | dma (ch : Nat)
  | engine (e : Nat)
  | stream (carrier : Nat)
  | stitch (b : Nat)
  | other (n : Nat)
  deriving DecidableEq, Repr

/-- A stitch frame as R336 lays it out; its LENGTH is the number of payload words, its CRC is not part of it. -/
structure StfFrame where
  /-- TYPE: 0 IDLE, 1 DATA, 2 CONTROL -/
  type : Nat
  /-- CLASS: 0 request, 1 response, 2 notify -/
  cls : Nat
  nak : Bool := false
  seq : Nat := 0
  ack : Nat := 0
  hops : Nat := 16
  dst : Nat := 0
  op : Nat := 0
  src : Nat := 0
  /-- credits returned, in 32-byte units -/
  crReq : Nat := 0
  crRsp : Nat := 0
  crNtf : Nat := 0
  arg : W64 := 0
  arg2 : W32 := 0
  payload : List QWord := []
  deriving DecidableEq, Repr

/-- A field of a function's configuration space that the manual gives a value (R81, R83, R84, R102) or a command (R83, R104). -/
inductive CfgField where
  | vendorId | deviceId | revisionId | classCode | subsystem
  | bar (i : Nat)
  | msixTableSize | msixEnable | busMasterEnable
  | totalVfs | firstVfOffset | vfStride | numVfs | vfEnable
  deriving DecidableEq, Repr

/-- What a host read addresses: an offset of BAR0 or BAR2 with the width in bytes, or configuration space. -/
inductive HostAccess where
  | bar0 (addr width : Nat)
  | bar2 (offset width : Nat)
  | config (field : CfgField)
  deriving DecidableEq, Repr

/-- A host read: the function that reads and what it addresses. -/
structure HostRead where
  fn : Nat
  what : HostAccess
  deriving DecidableEq, Repr

/-- What a MOVE meets: the bytes its host side holds, and how many bursts its engine serves now, 0 for all that are left (R208). -/
structure MoveRun where
  host : List Byte
  served : Nat := 0
  deriving DecidableEq, Repr

/-- The commands. -/
inductive Instr where
  /-- REGISTER_WRITE (R4): A host write to a BAR0 register that has no row of its own, applied by its access code after clamping. -/
  | registerWrite (fn addr width : Nat) (value : W64)
  /-- LOW_HALF_READ (R8): A read of the low half of a 64-bit counter latches its high half. -/
  | lowHalfRead (read : HostRead)
  /-- TIME_TRIPLE_READ (R49): A read of word +0x0 of a time triple latches its other two words. -/
  | timeTripleRead (addr : Nat)
  /-- SETUP_LOCK (R5): Host software writes 1 to GLB_SETUP_LOCK, which locks every RWL field. -/
  | setupLock (value : W32)
  /-- CLAMP_COUNT_CLEAR (R105): A write of CLEAR to a CLAMP_COUNT register sets its COUNT to 0. -/
  | clampCountClear (addr : Nat) (value : W32)
  /-- TCLK_TICK (R29): Each TCLK tick advances the raw counter and recomputes corrected time. -/
  | tclkTick
  /-- SLEW_DONE (R34): A slew reaches 0, SLEWING clears and SLEW_DONE is set. -/
  | slewDone
  /-- TB_RATE_COMMIT (R32): A write to TB_RATE_HI commits the rate, re-basing the offset at the next tick. -/
  | tbRateCommit (value : W32)
  /-- ADJUSTMENT (R33): A write to TB_ADJ_HI commits an adjustment that is slewed or treated as a step. -/
  | adjustment (value : W32)
  /-- TIME_SET (R36): A write to TB_SET_SEC_HI commits an absolute time, decided as a step. -/
  | timeSet (value : W32)
  /-- SOURCE_CHANGE (R39): A write to TB_CTRL.SOURCE hands rate and offset control between host and stitch loop at the next tick. -/
  | sourceChange (value : W32)
  /-- REF_SELECT (R40): A write of TB_REF_CTRL.REF_SEL moves the PLL to another reference with phase build-out within 10 ms. -/
  | refSelect (value : W32)
  /-- REF_LOST (R40): The selected external reference is lost, the PLL holds its frequency and REF_LOST is set. -/
  | refLost
  /-- REF_RETURN (R40): A lost reference returns and the PLL relocks, restoring REF_PRESENT and then TIME_LOCKED. -/
  | refReturn (locked : Bool)
  /-- PPS_IN (R43): A rising edge on PPS_IN is stamped in TB_PPS_IN and PPS_IN is set. -/
  | ppsIn
  /-- PPS_OUT (R43): Corrected time plus the offset crosses a whole second and PPS_OUT rises. -/
  | ppsOut
  /-- PPS_OUT_END (R43): The PPS_OUT high time of WIDTH milliseconds ends and the pin falls. -/
  | ppsOutEnd
  /-- HOLDOVER_CLEAR (R48): Host software clears TB_STATUS.HOLDOVER, which also clears SLEEP_OVF and admits arms again. -/
  | holdoverClear
  /-- BOUNDARY_FIRE (R53): A carrier or reference boundary becomes due and fires in its TCLK tick, in the stated order. -/
  | boundaryFire
  /-- SLOT_EXPIRY (R78): A slot reaches its expiry boundary, open operations are aborted and EXPIRED advances. -/
  | slotExpiry (carrier : Nat) (half : Half)
  /-- MOULD_WRITE (R64): The MOULD_WRITE descriptor writes up to 32 bytes into one mould page. -/
  | mouldWrite (d : Desc)
  /-- MOULD_LOAD (R65): The MOULD_LOAD descriptor fetches whole pages from host memory for one half. -/
  | mouldLoad (d : Desc)
  /-- MOULD_LOAD_DATA (R65): The fetched data of a MOULD_LOAD arrives and is written to the mould, or the descriptor ends BAD. -/
  | mouldLoadData (ring : Nat) (tag : W32) (ok : Bool) (data : List W32)
  /-- MOULD_COPY_DONE (R56): The copy of the armed content into the new mould bank finishes and waiting mould writes apply. -/
  | mouldCopyDone (carrier : Nat) (half : Half)
  /-- ARM (R68): The ARM descriptor is resolved once, arming the mould for a slot or completing REFUSED or DISABLED. -/
  | arm (d : Desc)
  /-- SLOT_ABORT (R77): The SLOT_ABORT descriptor ends every operation of a carrier, half and slot. -/
  | slotAbort (d : Desc)
  /-- CARRIER_DISABLE (R76): A CARRIER_CTRL DISABLE disables a carrier at each half's next boundary. -/
  | carrierDisable (d : Desc)
  /-- CARRIER_ENABLE (R74): A CARRIER_CTRL ENABLE returns a disabled carrier to STOPPED. -/
  | carrierEnable (d : Desc)
  /-- GRID_ORIGIN_SET (R50): A write to SLT_GRID_SEC_HI commits the reference grid origin when no carrier is live. -/
  | gridOriginSet (value : W32)
  /-- DOORBELL (R95): A doorbell write sets the new HOST_IDX of a host ring. -/
  | doorbell (fn offset width : Nat) (value : W64)
  /-- FETCH_BATCH (R98): The fetch scheduler issues the read of one batch of a submission ring. -/
  | fetchBatch
  /-- BATCH_LANDS (R87): A fetched batch arrives, DEV_IDX is written back and the descriptors wait for delivery. -/
  | batchLands (ring : Nat) (ok : Bool) (descs : List (List W32))
  /-- DESCRIPTOR_DELIVERY (R91): A fetched descriptor is delivered to the block its type names, after any FENCE wait. -/
  | descriptorDelivery (ring block : Nat)
  /-- NOP (R89): The NOP descriptor completes OK when accepted. -/
  | nop (d : Desc)
  /-- MODERATION_TIMER (R103): MOD_TIME_US passes since the oldest unsignalled entry and the ring's vector is asserted. -/
  | moderationTimer (ring : Nat)
  /-- RCTX_SELECT (R106): A write to HP_RCTX_SEL loads a ring context into the window. -/
  | rctxSelect (value : W32)
  /-- RING_COMMIT (R106): A COMMIT applies the staged ring context by the ENABLE transition. -/
  | ringCommit (value : W32)
  /-- RING_COMMIT_DONE (R106): A ring commit ends, BUSY clears and the window reloads from the stored context. -/
  | ringCommitDone
  /-- FLR (R110): A function-level reset of a function begins, disabling its rings and dropping its host writes. -/
  | flr (fn : Nat)
  /-- FLR_TIMEOUT (R110): Operations still open 90 ms after a function-level reset began are aborted. -/
  | flrTimeout (fn : Nat)
  /-- FLR_DONE (R110): No operation of the function remains open and HP_FLR_BUSY clears its bit. -/
  | flrDone (fn : Nat)
  /-- LINK_DOWN (R112): Loss of the PCIe data link acts as a function-level reset of the PF and sets LINK_DOWN. -/
  | linkDown
  /-- PERST (R112): PERST_N is asserted, acting as an FLR of the PF and clearing every ring's ENABLE. -/
  | perst
  /-- MSIX_UNMASK (R104): An MSI-X entry is unmasked and a pending message is sent with its stamp. -/
  | msixUnmask (vector : Nat) (byFunction : Bool)
  /-- BUS_MASTER_ENABLE (R104): A function's Bus Master Enable becomes 1 and its waiting host writes proceed. -/
  | busMasterEnable (fn : Nat)
  /-- VF_ENABLE (R83): A write of VF Enable or NumVFs creates or removes virtual functions. -/
  | vfEnable (enable : Bool) (numVfs : Nat)
  /-- QUEUE_DISABLE (R126): A QUEUE_CTRL DISABLE disables a queue under R23. -/
  | queueDisable (d : Desc)
  /-- QUEUE_ENABLE (R127): A QUEUE_CTRL ENABLE enables a queue after its drain and the region check. -/
  | queueEnable (d : Desc)
  /-- QUEUE_FLUSH (R124): A QUEUE_CTRL FLUSH discards every visible and open item of a queue. -/
  | queueFlush (d : Desc)
  /-- QUEUE_WRITE (R128): The QUEUE_WRITE descriptor fetches words from host memory for one item. -/
  | queueWrite (d : Desc)
  /-- QUEUE_WRITE_DATA (R128): The fetched words of a QUEUE_WRITE arrive and are written and committed as one item. -/
  | queueWriteData (ring : Nat) (tag : W32) (ok : Bool) (words : List QWord)
  /-- START_OF_ITEM (R116): A producer opens an item with priority and ITEM_TAG, rewinding any open item first. -/
  | startOfItem (qid : Nat) (prod : Producer) (prio : Nat) (tag : BitVec 16)
  /-- QUEUE_WORD (R118): A producer writes a queue word, allocated under the reserve and FULL_POLICY. -/
  | queueWord (qid : Nat) (prod : Producer) (word : QWord)
  /-- ITEM_COMMIT (R120): A producer commits its open item. -/
  | itemCommit (qid : Nat) (prod : Producer)
  /-- ITEM_VISIBLE (R120): A committed item becomes visible, its commit returns and the commit notice is sent. -/
  | itemVisible (qid : Nat) (prod : Producer) (ok : Bool)
  /-- ITEM_REWIND (R116): A producer rewinds its open item and its words are freed. -/
  | itemRewind (qid : Nat) (prod : Producer) (asked : Bool)
  /-- ITEM_READ (R121): A consumer reads one whole visible item in priority order, or stalls on an empty queue. -/
  | itemRead (qid : Nat) (cons : Consumer)
  /-- IDLE_NOTICE (R123): A quiet spell lasts IDLE_TICKS × 64 ns and the idle-tail notice is sent. -/
  | idleNotice (qid : Nat)
  /-- QCTX_SELECT (R136): A write to QMG_QCTX_SEL loads a queue context into the window. -/
  | qctxSelect (value : W32)
  /-- QCTX_COMMIT (R136): A COMMIT applies the staged queue context by the ENABLE transition. -/
  | qctxCommit (value : W32)
  /-- QCTX_COMMIT_DONE (R136): A queue commit ends, BUSY clears and the window reloads. -/
  | qctxCommitDone
  /-- ARBITER_GRANT (R131): An arbiter grants one burst to the highest-ranked pending requester. -/
  | arbiterGrant (arbiter cycles : Nat) (arrived : List (Nat × Nat))
  /-- RANK_WRITE (R132): A write to SPN_RANK_i changes a requester's rank at the next arbitration. -/
  | rankWrite (requester : Nat) (value : W32)
  /-- GRANT_HOLD (R133): A write of GRANT_HOLD stops or resumes new grants of an arbiter. -/
  | grantHold (arbiter : Nat) (value : W32)
  /-- WAITMAX_CLEAR (R137): A write of CLEAR resets an arbiter's recorded longest wait. -/
  | waitmaxClear (arbiter : Nat) (value : W32)
  /-- TASK_DEFINE (R155): The TASK_DEFINE descriptor defines a task record and clears its run-time fields. -/
  | taskDefine (d : Desc)
  /-- TASK_ARM (R156): The TASK_ARM descriptor arms a task for a slot. -/
  | taskArm (d : Desc)
  /-- EVENT_SET (R157): The EVENT_SET descriptor sets flags of a task record. -/
  | eventSet (d : Desc)
  /-- TASK_CANCEL (R151): The TASK_CANCEL descriptor cancels a task, voiding its sequence number. -/
  | taskCancel (d : Desc)
  /-- SIG_DEFINE (R157): The SIG_DEFINE descriptor defines a signature's output and sequence start. -/
  | sigDefine (d : Desc)
  /-- FLAG_SET (R142): A flag set reaches its event port and updates the record's PENDING or LATCH. -/
  | flagSet (task : Nat) (flags : W32)
  /-- TASK_DEADLINE (R149): A WAITING task's deadline passes and it becomes READY with TIMEOUT. -/
  | taskDeadline (task : Nat)
  /-- DISPATCH (R144): The dispatcher gives a ready task to the oldest waiting FETCH of its class. -/
  | dispatch
  /-- DISPATCH_CREDIT (R145): The dispatcher gains 64 credits every 175 SCLK cycles. -/
  | dispatchCredit
  /-- SIGNATURE_PUBLISH (R154): A signature publishes its NEXT entry, committing the held item and setting OUT_FLAG. -/
  | signaturePublish
  /-- VNOP (R187): Vector no operation. -/
  | vnop (leaf : Nat) (last : Bool)
  /-- VADD (R187): Saturating vector addition. -/
  | vadd (leaf : Nat) (last : Bool) (vd va vb : Nat)
  /-- VSUB (R187): Saturating vector subtraction. -/
  | vsub (leaf : Nat) (last : Bool) (vd va vb : Nat)
  /-- VNEG (R187): Saturating vector negation. -/
  | vneg (leaf : Nat) (last : Bool) (vd va : Nat)
  /-- VSHL (R187): Saturating vector left shift. -/
  | vshl (leaf : Nat) (last : Bool) (vd va vx : Nat)
  /-- VSHR (R187): Truncating vector right shift. -/
  | vshr (leaf : Nat) (last : Bool) (vd va vx : Nat)
  /-- VCONJ (R187): Vector complex conjugate. -/
  | vconj (leaf : Nat) (last : Bool) (vd va : Nat)
  /-- VMOV (R187): Vector move. -/
  | vmov (leaf : Nat) (last : Bool) (vd va : Nat)
  /-- VAND (R187): Bitwise AND of two V registers. -/
  | vand (leaf : Nat) (last : Bool) (vd va vb : Nat)
  /-- VOR (R187): Bitwise OR of two V registers. -/
  | vor (leaf : Nat) (last : Bool) (vd va vb : Nat)
  /-- VXOR (R187): Bitwise XOR of two V registers. -/
  | vxor (leaf : Nat) (last : Bool) (vd va vb : Nat)
  /-- VMULJ (R187): Multiplication of a V register by j. -/
  | vmulj (leaf : Nat) (last : Bool) (vd va : Nat)
  /-- VBCAST (R187): Broadcast of one lane of a V register. -/
  | vbcast (leaf : Nat) (last : Bool) (vd va vx : Nat)
  /-- MUL_ADD (R187): MAC of a × b added to an accumulator. -/
  | mulAdd (leaf : Nat) (last : Bool) (vd va vb vx : Nat)
  /-- MUL_SUB (R187): MAC of a × b subtracted from an accumulator. -/
  | mulSub (leaf : Nat) (last : Bool) (vd va vb vx : Nat)
  /-- MUL_SET (R187): Accumulator set to a × b. -/
  | mulSet (leaf : Nat) (last : Bool) (vd va vb vx : Nat)
  /-- MUL_NEG (R187): Accumulator set to −(a × b). -/
  | mulNeg (leaf : Nat) (last : Bool) (vd va vb vx : Nat)
  /-- MULC_ADD (R187): MAC of a × conj(b) added to an accumulator. -/
  | mulcAdd (leaf : Nat) (last : Bool) (vd va vb vx : Nat)
  /-- MULC_SUB (R187): MAC of a × conj(b) subtracted from an accumulator. -/
  | mulcSub (leaf : Nat) (last : Bool) (vd va vb vx : Nat)
  /-- MULC_SET (R187): Accumulator set to a × conj(b). -/
  | mulcSet (leaf : Nat) (last : Bool) (vd va vb vx : Nat)
  /-- MULC_NEG (R187): Accumulator set to −(a × conj(b)). -/
  | mulcNeg (leaf : Nat) (last : Bool) (vd va vb vx : Nat)
  /-- MULR_ADD (R187): MAC of a × re(b) added to an accumulator. -/
  | mulrAdd (leaf : Nat) (last : Bool) (vd va vb vx : Nat)
  /-- MULR_SUB (R187): MAC of a × re(b) subtracted from an accumulator. -/
  | mulrSub (leaf : Nat) (last : Bool) (vd va vb vx : Nat)
  /-- MULR_SET (R187): Accumulator set to a × re(b). -/
  | mulrSet (leaf : Nat) (last : Bool) (vd va vb vx : Nat)
  /-- MULR_NEG (R187): Accumulator set to −(a × re(b)). -/
  | mulrNeg (leaf : Nat) (last : Bool) (vd va vb vx : Nat)
  /-- ACLR (R187): Clear an accumulator. -/
  | aclr (leaf : Nat) (last : Bool) (vd : Nat)
  /-- SAC (R177): Store an accumulator into a V register with shift and saturation. -/
  | sac (leaf : Nat) (last : Bool) (vd va vx : Nat)
  /-- AADD (R187): Add a sign-extended V register into an accumulator. -/
  | aadd (leaf : Nat) (last : Bool) (vd va : Nat)
  /-- AMOV (R187): Copy one accumulator to another. -/
  | amov (leaf : Nat) (last : Bool) (vd va : Nat)
  /-- ASUM (R187): Sum the 8 lanes of an accumulator into lane 0. -/
  | asum (leaf : Nat) (last : Bool) (vd va : Nat)
  /-- REP_SCALAR (R196): S-slot rep repeats the next bundle G-register count times. -/
  | repScalar (leaf : Nat) (last : Bool) (ga : Nat)
  /-- ADD (R188): Scalar addition. -/
  | add (leaf : Nat) (last : Bool) (gd ga gb : Nat)
  /-- SUB (R188): Scalar subtraction. -/
  | sub (leaf : Nat) (last : Bool) (gd ga gb : Nat)
  /-- AND (R188): Scalar AND. -/
  | and (leaf : Nat) (last : Bool) (gd ga gb : Nat)
  /-- OR (R188): Scalar OR. -/
  | or (leaf : Nat) (last : Bool) (gd ga gb : Nat)
  /-- XOR (R188): Scalar XOR. -/
  | xor (leaf : Nat) (last : Bool) (gd ga gb : Nat)
  /-- SHL (R188): Scalar left shift. -/
  | shl (leaf : Nat) (last : Bool) (gd ga gb : Nat)
  /-- SRA (R188): Scalar arithmetic right shift. -/
  | sra (leaf : Nat) (last : Bool) (gd ga gb : Nat)
  /-- CNOP (R190): Control no operation. -/
  | cnop (leaf : Nat) (last : Bool)
  /-- ADDI (R190): Add a sign-extended immediate. -/
  | addi (leaf : Nat) (last : Bool) (rd ra imm : Nat)
  /-- MOV (R190): Copy one register code to another. -/
  | mov (leaf : Nat) (last : Bool) (rd ra : Nat)
  /-- MULG (R190): Scalar multiplication modulo 2^32. -/
  | mulg (leaf : Nat) (last : Bool) (rd ra rb : Nat)
  /-- SHR (R190): Logical right shift. -/
  | shr (leaf : Nat) (last : Bool) (rd ra rb : Nat)
  /-- SLT (R190): Signed set-less-than. -/
  | slt (leaf : Nat) (last : Bool) (rd ra rb : Nat)
  /-- SLTU (R190): Unsigned set-less-than. -/
  | sltu (leaf : Nat) (last : Bool) (rd ra rb : Nat)
  /-- MIN (R190): Signed minimum. -/
  | min (leaf : Nat) (last : Bool) (rd ra rb : Nat)
  /-- MAX (R190): Signed maximum. -/
  | max (leaf : Nat) (last : Bool) (rd ra rb : Nat)
  /-- BR (R190): Unconditional branch. -/
  | br (leaf : Nat) (last : Bool) (imm : Nat)
  /-- BEQZ (R190): Branch if a G register is zero. -/
  | beqz (leaf : Nat) (last : Bool) (ra imm : Nat)
  /-- BNEZ (R190): Branch if a G register is not zero. -/
  | bnez (leaf : Nat) (last : Bool) (ra imm : Nat)
  /-- BLTZ (R190): Branch if a G register is negative. -/
  | bltz (leaf : Nat) (last : Bool) (ra imm : Nat)
  /-- BGEZ (R190): Branch if a G register is not negative. -/
  | bgez (leaf : Nat) (last : Bool) (ra imm : Nat)
  /-- JAL (R190): Jump and link. -/
  | jal (leaf : Nat) (last : Bool) (rd imm : Nat)
  /-- JR (R190): Jump to a bundle named by a register. -/
  | jr (leaf : Nat) (last : Bool) (ra : Nat)
  /-- BABT (R204): Branch if the abort notice is set. -/
  | babt (leaf : Nat) (last : Bool) (imm : Nat)
  /-- REP (R196): Control rep repeats the next bundle an immediate count of times. -/
  | rep (leaf : Nat) (last : Bool) (count : Nat)
  /-- FETCH (R201): The leaf releases any held task and asks the Gatherer for a task of a class. -/
  | fetch (leaf : Nat) (last : Bool) (imm : Nat)
  /-- QPOP (R201): The leaf asks a queue for one item, stalling until it arrives. -/
  | qpop (leaf : Nat) (last : Bool) (rd ra imm : Nat)
  /-- QPOP_COMPLETE (R201): A qpop ends with an item, DISABLED, ABORTED, BAD or REFUSED. -/
  | qpopComplete (leaf : Nat)
  /-- QPUSH (R199): The leaf sends a queue word of its item, stalling when its buffer or the queue is full. -/
  | qpush (leaf : Nat) (last : Bool) (ra rb imm : Nat)
  /-- QCOMMIT (R199): The leaf commits its open item on a queue. -/
  | qcommit (leaf : Nat) (last : Bool) (rd ra : Nat)
  /-- QCOMMIT_STATUS (R199): The commit status returned by the Queue Manager lands in G(RD). -/
  | qcommitStatus (leaf : Nat)
  /-- QREWIND (R199): The leaf rewinds its open item on a queue. -/
  | qrewind (leaf : Nat) (last : Bool) (ra : Nat)
  /-- SIGNAL (R200): The leaf posts a flag set to a Gatherer task record. -/
  | signal (leaf : Nat) (last : Bool) (ra rb : Nat)
  /-- RELEASE (R201): The leaf releases its task, optionally handing over its open item. -/
  | release (leaf : Nat) (last : Bool) (rd imm : Nat)
  /-- STATW (R190): Write 1 to clear LSTAT bits and LAOV_IDX.VALID. -/
  | statw (leaf : Nat) (last : Bool) (imm : Nat)
  /-- STATR (R190): Read LSTAT or LAOV_IDX into a G register. -/
  | statr (leaf : Nat) (last : Bool) (rd imm : Nat)
  /-- HALT (R203): The halt operation halts the leaf. -/
  | halt (leaf : Nat) (last : Bool)
  /-- MOVI (R191): Set a register to a 32-bit immediate. -/
  | movi (leaf : Nat) (last : Bool) (rd : Nat) (value : W32)
  /-- ADDW (R191): Add a 32-bit immediate to a register. -/
  | addw (leaf : Nat) (last : Bool) (rd : Nat) (value : W32)
  /-- LD (R192): Load a V register and update the pointer. -/
  | ld (leaf : Nat) (last : Bool) (x : Bool) (w pn reg : Nat)
  /-- ST (R192): Store a V register and update the pointer. -/
  | st (leaf : Nat) (last : Bool) (x : Bool) (w pn reg : Nat)
  /-- LDK (R192): Load a V register without updating the pointer. -/
  | ldk (leaf : Nat) (last : Bool) (x : Bool) (w pn reg : Nat)
  /-- LD_WIDE (R194): Wide-slot load of a V register with offset and optional update. -/
  | ldWide (leaf : Nat) (last : Bool) (x : Bool) (w pn reg : Nat) (u : Bool) (sh off : Nat)
  /-- ST_WIDE (R194): Wide-slot store of a V register with offset and optional update. -/
  | stWide (leaf : Nat) (last : Bool) (x : Bool) (w pn reg : Nat) (u : Bool) (sh off : Nat)
  /-- LDG (R194): Wide-slot 4-byte load into a G register. -/
  | ldg (leaf : Nat) (last : Bool) (x : Bool) (w pn reg : Nat) (u : Bool) (sh off : Nat)
  /-- STG (R194): Wide-slot 4-byte store from a G register. -/
  | stg (leaf : Nat) (last : Bool) (x : Bool) (w pn reg : Nat) (u : Bool) (sh off : Nat)
  /-- STA (R194): Wide-slot store from an accumulator with shift and saturation. -/
  | sta (leaf : Nat) (last : Bool) (x : Bool) (w pn reg : Nat) (u : Bool) (sh off : Nat)
  /-- HALT_REQUEST (R203): Host software writes QUI_DBG_CTRL.HALT to request a halt. -/
  | haltRequest (leaf : Nat)
  /-- DEBUG_HALT (R203): A halt takes effect at a bundle boundary, withdrawing blocking operations. -/
  | debugHalt (leaf : Nat) (dispatched : Bool)
  /-- RESUME (R203): Host software resumes a halted leaf, re-issuing a withdrawn bundle. -/
  | resume (leaf : Nat)
  /-- DEBUG_STEP (R203): Host software steps a halted leaf by one bundle. -/
  | debugStep (leaf : Nat)
  /-- DBG_REG_WRITE (R207): A write of QUI_DBG_REG_DATA sets a register of a halted leaf. -/
  | dbgRegWrite (leaf : Nat) (value : W32)
  /-- LEAF_RESET (R171): A QUI_LEAF_CTRL bit holds a leaf in reset, clearing its registers and task. -/
  | leafReset (quire : Nat) (value : W32)
  /-- LEAF_RESET_RELEASE (R182): Clearing a QUI_LEAF_CTRL bit starts the leaf at bundle 0. -/
  | leafResetRelease (quire : Nat) (value : W32)
  /-- QUIRE_EXTERNAL_ACCESS (R165): An external access reaches a leaf memory through the quire's Spine port. -/
  | quireExternalAccess (addr : Nat) (write : Bool) (data : List Byte) (bytes : Nat)
  /-- DMA_RUN (R211): The DMA_RUN descriptor adds a program to a channel's pending list. -/
  | dmaRun (d : Desc)
  /-- RUN_ITEM_READ (R212): A QUEUE channel reads a run item and accepts its program. -/
  | runItemRead (ch : Nat)
  /-- PROGRAM_START (R210): A channel starts its next pending program. -/
  | programStart (ch : Nat)
  /-- END (R213): The END instruction ends a program, with status item and DONE flag for queue-fed programs. -/
  | endProgram (ch : Nat) (inst : List W32)
  /-- MOVE (R214): The MOVE instruction copies LEN bytes with cursors and circular regions. -/
  | dmaMove (ch : Nat) (inst : List W32) (run : MoveRun)
  /-- LOOP (R217): The LOOP instruction repeats a run of instructions. -/
  | dmaLoop (ch : Nat) (inst : List W32)
  /-- WAIT_QUEUE (R218): A WAIT of kind QUEUE reads and discards one item. -/
  | waitQueue (ch : Nat) (inst : List W32)
  /-- WAIT_TIME (R218): A WAIT of kind TIME waits for a point of corrected time. -/
  | waitTime (ch : Nat) (inst : List W32)
  /-- WAIT_CONDITION_MET (R218): A WAIT's condition holds and the program continues. -/
  | waitConditionMet (ch : Nat)
  /-- WAIT_DEADLINE (R219): A WAIT's deadline passes and it ends timed out. -/
  | waitDeadline (ch : Nat)
  /-- SIGNAL_FLAGS (R220): A SIGNAL of kind FLAGS sets Gatherer flags after its writes are acknowledged. -/
  | signalFlags (ch : Nat) (inst : List W32)
  /-- SIGNAL_ITEM (R220): A SIGNAL of kind ITEM commits one word to a queue. -/
  | signalItem (ch : Nat) (inst : List W32)
  /-- DMA_BUS_ERROR (R221): A bus error ends the program BAD and records the failing addresses. -/
  | dmaBusError (ch : Nat) (inst : List W32) (host : List Byte)
  /-- DMA_ABORT (R222): The DMA_ABORT descriptor aborts every program of a channel with the tag. -/
  | dmaAbort (d : Desc)
  /-- DMA_DISABLE (R223): A DMA_CTRL DISABLE disables a channel under R23. -/
  | dmaDisable (d : Desc)
  /-- DMA_ENABLE (R223): A DMA_CTRL ENABLE enables a channel and clears PQ_STOPPED. -/
  | dmaEnable (d : Desc)
  /-- JOB_ITEM_READ (R237): An engine reads a job item from its job queues by rank and round-robin. -/
  | jobItemRead (engine : Nat)
  /-- SPA_JOB (R230): The SPA_JOB descriptor submits a Spatial engine job. -/
  | spaJob (d : Desc)
  /-- ESTW (R232): An ESTW job starts on a tile and computes weights per PRB group. -/
  | estw
  /-- COMBINE (R234): A COMBINE job starts and applies uplink weights, with reports. -/
  | combine
  /-- PRECODE (R234): A PRECODE job starts and applies downlink weights. -/
  | precode
  /-- SPA_JOB_END (R231): A Spatial job ends, committing its result item, completion and DONE flag. -/
  | spaJobEnd (job : Nat)
  /-- SPA_ABORT (R242): The SPA_ABORT descriptor aborts every job with the tag. -/
  | spaAbort (d : Desc)
  /-- SPA_DISABLE (R242): An SPA_CTRL DISABLE takes a group or the engine out of service. -/
  | spaDisable (d : Desc)
  /-- SPA_ENABLE (R242): An SPA_CTRL ENABLE returns a group or the engine to service. -/
  | spaEnable (d : Desc)
  /-- COD_JOB (R248): The COD_JOB descriptor submits a Coding engine job. -/
  | codJob (d : Desc)
  /-- LDPC_DEC (R252): An LDPC_DEC job decodes its code blocks with HARQ combining. -/
  | ldpcDec (group : Nat)
  /-- LDPC_ENC (R256): An LDPC_ENC job encodes and rate-matches a transport block. -/
  | ldpcEnc (group : Nat)
  /-- TURBO_DEC (R252): A TURBO_DEC job decodes an LTE transport block. -/
  | turboDec (group : Nat)
  /-- TURBO_ENC (R256): A TURBO_ENC job encodes an LTE transport block. -/
  | turboEnc (group : Nat)
  /-- POLAR_DEC (R256): A POLAR_DEC job list-decodes a polar payload. -/
  | polarDec (group : Nat)
  /-- POLAR_ENC (R256): A POLAR_ENC job encodes a polar payload. -/
  | polarEnc (group : Nat)
  /-- CODE_BLOCK_START (R259): A free unit takes the next code block of the highest-ranked waiting job. -/
  | codeBlockStart (group kind : Nat)
  /-- COD_JOB_END (R250): A Coding job ends, writing its result record, item, completion and DONE flag. -/
  | codJobEnd (job : Nat)
  /-- COD_ABORT (R263): The COD_ABORT descriptor aborts every job with the tag. -/
  | codAbort (d : Desc)
  /-- COD_DISABLE (R263): A COD_CTRL DISABLE takes a group or the engine out of service. -/
  | codDisable (d : Desc)
  /-- COD_ENABLE (R263): A COD_CTRL ENABLE returns a group or the engine to service. -/
  | codEnable (d : Desc)
  /-- HARQ_REGION_WRITE (R247): A write to COD_HARQ_BASE or COD_HARQ_SIZE, discarded while a carrier is live. -/
  | harqRegionWrite (size : Bool) (value : W32)
  /-- RX_SYMBOL (R271): The last sample of a symbol's window arrives and the receive FFT runs. -/
  | rxSymbol (carrier ant sym : Nat) (slot : W32)
  /-- RX_GAP_DEADLINE (R271): A receive symbol's gap deadline passes and it is processed with missing samples as 0. -/
  | rxGapDeadline (carrier ant sym : Nat) (slot : W32)
  /-- TX_DECISION (R272): A transmit symbol's decision time arrives and it is decided on or silent. -/
  | txDecision (carrier ant sym : Nat) (slot : W32)
  /-- QUAL_SLOT_CHECK (R275): The mask checker evaluates one DL slot in QUALIFY as pass or fail. -/
  | qualSlotCheck (carrier : Nat) (slot : W32)
  /-- SPC_TXQ (R277): The SPC_TXQ descriptor sends a transmit path back into QUALIFY. -/
  | spcTxq (d : Desc)
  /-- PEAK (R281): A correlation peak refines, preempts or starts a detector context, or is missed. `power` and `rho` are the values
  that the manual leaves open at that lag. -/
  | peak (det : Nat) (time : Int) (power rho : Nat)
  /-- VALIDATION_DECISION (R282): A VALIDATING context decides FALSE or VALID. `rhoV` is the value of a ρ_v that the manual leaves open. -/
  | validationDecision (det ctx rhoV : Nat)
  /-- BURST_DONE (R282): A RECEIVING context sends its last sample, reports DONE and becomes FREE. -/
  | burstDone (det ctx : Nat)
  /-- OCCASION (R285): A PRACH occasion's samples are complete and its detections are reported. `found` is the share of a lag where the
  manual leaves it open. -/
  | occasion (det : Nat) (slot : W32) (found : Nat)
  /-- SPC_JOB (R288): The SPC_JOB descriptor submits a transform job. -/
  | spcJob (d : Desc)
  /-- FFT (R288): An FFT job starts its transforms. -/
  | fft
  /-- IFFT (R288): An IFFT job starts its transforms. -/
  | ifft
  /-- SPC_JOB_END (R288): A transform job ends and completes. -/
  | spcJobEnd (job : Nat)
  /-- SPC_ABORT (R289): The SPC_ABORT descriptor aborts every job with the tag. -/
  | spcAbort (d : Desc)
  /-- SPC_DISABLE (R289): An SPC_CTRL DISABLE takes a group or the engine out of service. -/
  | spcDisable (d : Desc)
  /-- SPC_ENABLE (R289): An SPC_CTRL ENABLE returns a group or the engine to service. -/
  | spcEnable (d : Desc)
  /-- PORT_ENABLE (R292): A write to FH_PORT_CFG_p enables or disables a fronthaul port after its checks. -/
  | portEnable (port : Nat) (value : W32)
  /-- PORT_UP (R292): All lanes of a port are up and the PCS aligns, so the port is up. -/
  | portUp (port : Nat)
  /-- FRAME_RECEIVE (R294): A received frame is stamped, classified and routed. -/
  | frameReceive (port : Nat) (data : List Byte)
  /-- TX_ITEM_ASSIGN (R300): The head item of DATA_QID is assigned to a slot or discarded. -/
  | txItemAssign (carrier : Nat) (half : Half)
  /-- FRAME_SEND (R301): A port sends the ready frame whose window closes first. -/
  | frameSend (port : Nat)
  /-- TX_WINDOW_CLOSE (R300): A transmit window closes and TX_MISS counts streams not sent whole. -/
  | txWindowClose (carrier : Nat) (half : Half) (slot : W32) (sym : Nat)
  /-- SYMBOL_GROUP_COMMIT (R303): A symbol group completes or its last window closes, and its item is committed. -/
  | symbolGroupCommit (carrier : Nat) (half : Half) (slot : W32) (last : Nat)
  /-- CPLANE_AUTO_SEND (R306): An AUTO C-plane message is sent at its send time. -/
  | cplaneAutoSend (carrier : Nat) (half : Half) (slot : W32) (stream : Nat)
  /-- CPLANE_QUEUE_SEND (R306): A C-plane item from CP_QID is sent at its send time. -/
  | cplaneQueueSend (carrier : Nat) (half : Half)
  /-- FH_SEND (R311): The FH_SEND descriptor sends a host frame on a port. -/
  | fhSend (d : Desc) (data : List Byte)
  /-- FH_RXBUF (R311): The FH_RXBUF descriptor posts a host receive buffer. -/
  | fhRxbuf (d : Desc)
  /-- TRAINING_FRAME (R318): A valid training frame is received and the lane enters TRAIN. -/
  | trainingFrame (lane : Nat)
  /-- PARTNER_WAIT_EXPIRY (R319): 500 ms pass in SEND without a valid frame and the lane enters SILENT_WAIT. -/
  | partnerWaitExpiry (lane : Nat)
  /-- BACKOFF_EXPIRY (R319): The SILENT_WAIT backoff expires and the lane retries in SEND. -/
  | backoffExpiry (lane : Nat)
  /-- COEFFICIENT_REQUEST (R321): The partner's coefficient request is answered updated, at limit or not supported. -/
  | coefficientRequest (lane preset : Nat) (tap : Fin 4) (up : Bool)
  /-- RECEIVERS_READY (R318): Both receivers report ready and the lane enters READY, then UP for ETH mode. -/
  | receiversReady (lane : Nat)
  /-- PARTNER_LOST (R320): Signal or frame lock is absent for 2 ms in TRAIN and the lane restarts. -/
  | partnerLost (lane : Nat)
  /-- TRAIN_LIMIT_EXPIRY (R320): LN_TRAIN_LIMIT expires in TRAIN and TRAIN_FAIL is recorded. -/
  | trainLimitExpiry (lane : Nat)
  /-- CDR_LOCK (R318): The CDR locks in ADAPT and the lane enters UP. -/
  | cdrLock (lane : Nat)
  /-- ADAPT_TIMEOUT (R318): 500 ms pass in ADAPT without signal and the lane enters SILENT_WAIT. -/
  | adaptTimeout (lane : Nat)
  /-- LOCK_LOSS (R323): A READY or UP lane loses lock for 1 µs and returns to SEND. -/
  | lockLoss (lane : Nat)
  /-- RETRAIN (R324): LN_CMD.RETRAIN sends an UP or READY lane to SEND. -/
  | retrain (lane : Nat) (value : W32)
  /-- LOOPBACK_WRITE (R329): A write of LN_CFG.LOOPBACK sets or ends a stitch-lane loopback. -/
  | loopbackWrite (lane : Nat) (value : W32)
  /-- TEST_ENABLE (R326): A write of LN_TEST_CFG.EN starts or ends a test lane. -/
  | testEnable (lane : Nat) (value : W32)
  /-- TX_TAPS_WRITE (R321): A write of LN_TX_TAPS sets the transmit taps or is discarded. -/
  | txTapsWrite (lane : Nat) (value : W32)
  /-- QREF_SELECT (R316): A write of LN_QUAD_CFG.REF_SEL switches a quad's reference. -/
  | qrefSelect (quad : Nat) (value : W32)
  /-- QREF_LOST (R316): SYNCE_IN is lost while selected and the quad holds its frequency. -/
  | qrefLost (quad : Nat)
  /-- INJ_ONE (R328): A write of INJ_ONE injects one bit error. -/
  | injOne (lane : Nat) (value : W32)
  /-- PERIODIC_INJECTION (R328): The injection period elapses and one error is injected. -/
  | periodicInjection (lane : Nat)
  /-- PRBS_SYNC (R327): The checker sees 64 error-free bits and synchronises. -/
  | prbsSync (lane : Nat)
  /-- PRBS_SYNC_LOSS (R327): More than 16 of 64 bits are in error and the checker loses sync. -/
  | prbsSyncLoss (lane bits errors : Nat)
  /-- RECALIBRATION (R324): The scheduler recalibrates the receiver offsets of a quad's UP lanes. -/
  | recalibration (quad : Nat) (ends : Bool)
  /-- FE_SLIP (R329): The far-end elastic buffer repeats or drops 64 symbols. -/
  | feSlip (lane : Nat)
  /-- LANE_ADMIT (R335): A READY stitch lane with an agreeing index pair is admitted to its link. -/
  | laneAdmit (port index : Nat)
  /-- STITCH_FRAME_RECEIVE (R336): A stitch frame is received, checked, acknowledged and delivered or forwarded. -/
  | stitchFrameReceive (port lane : Nat) (frame : StfFrame) (ok : Bool)
  /-- REPLAY_TIMEOUT (R339): 4 µs pass without ACK progress and the sender resends. -/
  | replayTimeout (port : Nat)
  /-- LANE_DROP (R340): A lane that lost lock is dropped from its link at the next frame boundary. -/
  | laneDrop (port : Nat)
  /-- STF_BIND (R342): The STF_BIND descriptor binds a local queue to a remote queue or to events. -/
  | stfBind (d : Desc)
  /-- BIND_ITEM_SEND (R343): A QUEUE binding reads one item and sends it as QITEM frames. -/
  | bindItemSend (bind : Nat)
  /-- BIND_EVENT_SEND (R344): An EVENT binding reads one word and sends it as an EVENT. -/
  | bindEventSend (bind : Nat)
  /-- TSYNC_EXCHANGE (R345): Once per millisecond a link end exchanges TSYNC frames and the loop steers time. -/
  | tsyncExchange (port : Nat) (t1 t2 t3 t4 : Int)
  /-- STF_BCAST_FREEZE (R348): An STF_BCAST FREEZE floods a freeze broadcast. -/
  | stfBcastFreeze (d : Desc)
  /-- STF_BCAST_TRIGGER (R348): An STF_BCAST TRIGGER floods a trigger broadcast. -/
  | stfBcastTrigger (d : Desc)
  /-- BROADCAST_TIME (R347): Corrected time reaches a broadcast's T and the module freezes or fires the line. -/
  | broadcastTime
  /-- HELLO (R349): Each link sends HELLO every 1 ms. -/
  | hello (port : Nat)
  /-- ELECT_SETTLE (R350): 20 ms pass without an ELECT change and the group root is settled. -/
  | electSettle
  /-- MAP_FLOOD (R350): 20 ms after the last JOIN the root floods MAP. -/
  | mapFlood
  /-- REGISTER (R349): Each group root multicasts REGISTER every 10 ms. -/
  | register
  /-- SYSTEM_ROOT_CHOICE (R351): 100 ms pass with no lower GROUP heard and the system root is chosen. -/
  | systemRootChoice
  /-- SYSMAP (R351): The system root sends SYSMAP on a change or once per second. -/
  | sysmap
  /-- GATEWAY_SILENT (R351): A gateway silent for 100 ms is removed from the system map. -/
  | gatewaySilent (group : Nat)
  /-- COMMON (R353): Corrected time reaches T_cc and the module sets COMMON. -/
  | common
  /-- STF_MIGRATE (R355): The STF_MIGRATE descriptor starts moving a carrier to another module. -/
  | stfMigrate (d : Desc) (remoteOk : Bool)
  /-- MIGRATION_SWITCH (R357): The switch slot's deckle window opens and the migration switches or defers. -/
  | migrationSwitch (carrier : Nat)
  /-- VAT_ARM (R372): A CAP_VAT_CTRL ARM arms the named Vat halves. -/
  | vatArm (d : Desc)
  /-- VAT_TRIGGER (R372): A CAP_VAT_CTRL TRIGGER triggers the named halves. -/
  | vatTrigger (d : Desc)
  /-- VAT_STOP (R372): A CAP_VAT_CTRL STOP ends the capture of the named halves. -/
  | vatStop (d : Desc)
  /-- CAPTURE_RECORD (R367): A capture point offers a record, which is matched, stored or dropped. -/
  | captureRecord (half grant : Nat)
  /-- GAP_RECORD (R375): Space returns after losses and one GAP record is written. -/
  | gapRecord (half : Nat)
  /-- TRIG_PIN_EDGE (R373): An edge on an input TRIG pin fires its line. -/
  | trigPinEdge (line : Nat) (rising : Bool)
  /-- TRIG_PULSE_END (R373): An output trigger pulse of WIDTH × 100 ns ends. -/
  | trigPulseEnd (line : Nat)
  /-- SPILL_FRAME (R377): A spill frame reaches MTU bytes, or DONE comes, and is sent. -/
  | spillFrame (half : Nat)
  /-- SPILL_IDLE (R377): 10 µs pass without ready ring data and a short spill frame is sent. -/
  | spillIdle (half : Nat)
  /-- SPILL_PORT_ENABLE (R376): A write to CAP_SPILL_CFG_k enables or disables a spill port. -/
  | spillPortEnable (port : Nat) (value : W32)
  /-- CAP_HOSTBUF (R378): The CAP_HOSTBUF descriptor posts a host spill buffer. -/
  | capHostbuf (d : Desc)
  /-- HOSTBUF_CLOSE (R378): A host spill buffer is full, idle for 1 ms, or closed at DONE, and completes. -/
  | hostbufClose (half : Nat) (idle : Bool)
  /-- CAP_PRESS_START (R381): The CAP_PRESS_START descriptor starts a Press channel at an anchor. -/
  | capPressStart (d : Desc)
  /-- PRESS_RECORD (R382): A pattern record's time arrives and its frame is sent or injected. -/
  | pressRecord (chan : Nat)
  /-- CAP_PRESS_STOP (R384): The CAP_PRESS_STOP descriptor stops a Press channel. -/
  | capPressStop (d : Desc)
  /-- MEM_FILL (R398): The MEM_FILL descriptor starts filling a region with a pattern. -/
  | memFill (d : Desc)
  /-- FILL_DONE (R398): Every word of a fill has been written and MEM_FILL completes. -/
  | fillDone (ring : Nat) (tag : W32)
  /-- CHANNEL_ACCESS (R392): A channel controller serves a read or write with ECC correction or error marking. -/
  | channelAccess (addr : Nat) (write : Bool) (data : List Byte) (bytes requester : Nat)
  /-- BAR4_ACCESS (R399): A host access through BAR4 reaches module memory at the window base. -/
  | bar4Access (offset : Nat) (write : Bool) (data : List Byte) (bytes : Nat)
  /-- PATROL_SCRUB (R395): The patrol scrub reads the next word of a channel. -/
  | patrolScrub (chan : Nat)
  /-- CHANNEL_RETRAIN (R396): A channel is retrained, holding it for up to 3 µs. -/
  | channelRetrain (chan : Nat) (ends : Option Bool)
  /-- RETRAIN_RETRY (R396): 1 s after a failed retraining it is tried again. -/
  | retrainRetry (chan : Nat)
  /-- MR4_READ (R394): Every 16 ms a controller reads MR4 and sets the refresh interval. -/
  | mr4Read (chan temp : Nat)
  /-- BANK_REFRESH (R394): A bank's refresh interval elapses and the bank is refreshed. -/
  | bankRefresh (chan bank : Nat)
  /-- ECC_INJECT (R400): A write to MEM_INJ_CMD corrupts symbols of the addressed word. -/
  | eccInject (value : W32)
  /-- UE_ADDR_REARM (R400): Clearing MEM_UE_ADDR.VALID rearms the uncorrectable address latch. -/
  | ueAddrRearm (value : W32)
  /-- MEM_INIT_DONE (R393): Training and zero fill end and GLB_STATUS.MEM_READY becomes 1. -/
  | memInitDone
  /-- REQUEST_NAP (R401): A write of REQ NAP to PWR_CL_CTRL_d requests Nap of a cluster. -/
  | requestNap (cluster : Nat) (value : W32)
  /-- REQUEST_DOZE (R401): A write of REQ DOZE to PWR_CL_CTRL_d requests Doze of a cluster. -/
  | requestDoze (cluster : Nat) (value : W32)
  /-- REQUEST_RUN (R415): A write of REQ RUN to PWR_CL_CTRL_d wakes a cluster. -/
  | requestRun (cluster : Nat) (value : W32)
  /-- AUTO_NAP (R401): A cluster idle for NAP_IDLE enters Nap by itself. -/
  | autoNap (cluster : Nat)
  /-- HANDSHAKE_ANSWER (R403): A unit answers the entry handshake, aborting the entry or setting the clamps. -/
  | handshakeAnswer (hib : Bool) (cluster unit : Nat)
  /-- HANDSHAKE_DELAY_LIMIT (R403): A unit still delaying at its limit counts as REFUSE. -/
  | handshakeDelayLimit (hib : Bool) (cluster unit : Nat)
  /-- DOZE_ENTRY_DONE (R409): The power switches open and the cluster is in Doze. -/
  | dozeEntryDone (cluster : Nat)
  /-- EXIT_DONE (R410): A Doze exit ends with isolation released and PRESENT 1. -/
  | exitDone (cluster : Nat)
  /-- NAP_WAKE (R407): A request, dispatch or job wakes a napping cluster. -/
  | napWake (cluster : Nat)
  /-- HIBERNATE_ENTER (R411): A write of PWR_HIB_CTRL.ENTER requests Hibernate. -/
  | hibernateEnter (value : W32)
  /-- HIBERNATE_WAKE (R414): An enabled wake source ends Hibernate and the exit sequence runs. -/
  | hibernateWake (source count : Nat)
  /-- HIB_TIMER (R413): The always-on counter reaches PWR_HIB_TIMER. -/
  | hibTimer
  /-- GET_INFO (R421): Serham returns identity, version, slot states and boot count. -/
  | getInfo (transport seq : Nat)
  /-- READ_SENSORS (R421): Serham returns every sensor from the latest sample. -/
  | readSensors (transport seq : Nat)
  /-- GET_LOG (R421): Serham returns up to 7 log entries. -/
  | getLog (transport seq : Nat) (first : W32) (count : Nat)
  /-- UPDATE_BEGIN (R430): Serham opens an update session for a slot. -/
  | updateBegin (transport seq slot length : Nat)
  /-- UPDATE_DATA (R430): Serham stores image data in the slot's flash. -/
  | updateData (transport seq offset : Nat) (data : List Byte)
  /-- UPDATE_COMMIT (R430): Serham verifies the slot's image and marks it VALID or EMPTY. -/
  | updateCommit (transport seq : Nat) (genuine : Bool) (version : W32) (svn : Nat)
  /-- UPDATE_ACTIVATE (R430): Serham marks a VALID slot TRIAL. -/
  | updateActivate (transport seq slot : Nat)
  /-- UPDATE_CONFIRM (R429): Serham makes the running TRIAL slot ACTIVE and raises the fused SVN. -/
  | updateConfirm (transport seq : Nat)
  /-- UPDATE_ABORT (R421): Serham closes the session and empties the slot. -/
  | updateAbort (transport seq : Nat)
  /-- WRITE_RECORD (R422): Serham writes a flash record whole. -/
  | writeRecord (transport seq record : Nat) (body : List Byte)
  /-- FREEZE (R432): The FREEZE message freezes the module, or broadcasts a freeze. -/
  | freeze (transport seq : Nat) (bcast : Bool) (leadUs : Nat)
  /-- READOUT (R435): Serham returns frozen state from a named space without side effects. -/
  | readout (transport seq space : Nat) (addr : Nat) (sub bytes : Nat)
  /-- POWER_DOZE (R421): The POWER message with OP DOZE requests Doze of a cluster. -/
  | powerDoze (transport seq cluster : Nat) (save : Bool) (banks : Nat)
  /-- POWER_HIBERNATE (R421): The POWER message with OP HIBERNATE requests Hibernate. -/
  | powerHibernate (transport seq : Nat)
  /-- POWER_WAKE (R421): The POWER message with OP WAKE wakes a cluster or the module. -/
  | powerWake (transport seq : Nat) (cluster : Option Nat)
  /-- SENSOR_SAMPLE (R423): Every millisecond Serham samples every sensor and applies the thermal thresholds. -/
  | sensorSample (junction : List Int) (lid vin iin power : Int) (rails : List (Int × Int))
  /-- THROTTLE_STEP (R424): Every 10 ms under a throttle condition one more clock cycle in 8 is removed. -/
  | throttleStep
  /-- THROTTLE_RESTORE (R424): Every 100 ms after the condition clears one removed cycle is restored. -/
  | throttleRestore
  /-- THERMAL_SHUTDOWN (R424): A junction at 115 °C for 1 s, or at 125 °C, turns off the converters. -/
  | thermalShutdown
  /-- ALERT_RELEASE (R424): A condition clear for 1 s returns ALERT_N or THERM_N high. -/
  | alertRelease (therm : Bool)
  /-- LOG_COMPACTION (R425): The MRAM ring is half full and compaction to flash starts. -/
  | logCompaction
  /-- COMPACTION_DONE (R425): Compaction has moved the oldest entries to flash. -/
  | compactionDone
  /-- SESSION_TIMEOUT (R430): An update session idle for 60 s closes as UPDATE_ABORT does. -/
  | sessionTimeout
  /-- MAINT_START (R397): A waiting maintenance activity starts when the activity it waited for ends. -/
  | maintStart
  /-- FREEZE_N_FALL (R432): FREEZE_N falls while PIN_IN_EN is 1 and the module freezes. -/
  | freezeNFall
  /-- POWER_ON (R439): VIN and PWR_EN start the power-on sequence. -/
  | powerOn
  /-- COLD_RESET (R437): RESET_N low resets the whole module. -/
  | coldReset
  /-- WARM_RESET (R441): WRST_N falls, memory enters self-refresh and domains are held in reset. -/
  | warmReset
  /-- WARM_RESET_RELEASE (R441): WRST_N rises, the image is verified and the dies are released. -/
  | warmResetRelease
  /-- CORE_READY (R439): On-chip memories are zero-filled and GLB_STATUS.CORE_READY becomes 1. -/
  | coreReady
  /-- PWR_EN_FALL (R451): PWR_EN falls and the rails turn off in reverse order. -/
  | pwrEnFall
  /-- VIN_UNDERVOLTAGE (R448): VIN below 5.5 V for 20 µs stops the converters. -/
  | vinUndervoltage
  /-- VIN_OVERVOLTAGE (R448): VIN above 62.0 V stops the converters until it falls below 60.5 V. -/
  | vinOvervoltage
  /-- RAIL_FAULT (R451): A rail out of regulation for 100 µs after PGOOD turns off the converters. -/
  | railFault
  /-- REFERENCE_DETECTION (R40): SYNCE_IN or TREF_IN appears or disappears at its input and its PRESENT bit follows, whatever REF_SEL selects. -/
  | referenceDetection (input : Nat) (present : Bool)
  /-- QREF_RETURN (R316): SYNCE_IN returns to a quad that selects it, and QREF_LOST clears as QREF_LOCK returns. -/
  | qrefReturn (quad : Nat)
  /-- PCS_ALIGNMENT_LOST (R292): A port's PCS, or CPRI framing, loses alignment while its lanes stay UP, and the port goes down. -/
  | pcsAlignmentLost (port : Nat)
  /-- DATA_LINK_UP (R112): The PCIe data link comes up after training, HP_EVENT.LINK_DOWN becomes deliverable and PE_WAKE_N is released. -/
  | dataLinkUp
  /-- LINK_SPEED_CHANGE (R113): The PCIe link changes rate or width, and HP_EVENT.SPEED_CHANGE is set. -/
  | linkSpeedChange (speed width : Nat) (flit : Bool)
  /-- UNKNOWN_OPCODE (R420): A Serham message with an unknown OPCODE is answered REFUSED with no payload. -/
  | unknownOpcode (transport seq opcode : Nat)
  /-- ARP_AND_ICMP_ECHO (R419): An ARP request or ICMP echo on the management Ethernet is answered by Serham. -/
  | arpAndIcmpEcho (icmp : Bool) (data : List Byte)
  /-- OVERVOLTAGE_RESTART (R448): VIN falls below 60.5 V after an overvoltage stop and the converters restart as at power-on. -/
  | overvoltageRestart
  deriving DecidableEq, Repr

end Sys2Proof
end

