-- ==== Sys2Proof/WellFormed.lean ====
section
/-! DEFINITION. Well-formed commands: every operand lies in the range its field or its unit has, and a descriptor row's TYPE
is the one of its row. A command outside these ranges has a meaning too (the operand names nothing, or is taken modulo its
field); no such command comes from the module's surroundings. -/

namespace Sys2Proof

/-- An operand within its range. -/
def below (x n : Nat) : Bool := decide (x < n)

/-- The widths a host access to BAR0 or BAR2 can have on the bus. -/
def busWidth (w : Nat) : Bool := w == 1 || w == 2 || w == 4 || w == 8

/-- A descriptor's header fields and body have their widths (R88). (DESIGN CHOICE, log entry 89) -/
def Desc.wf (d : Desc) : Bool :=
  below d.ring 65536 && below d.type 65536 && below d.flags 65536 && below d.carrier 65536 && d.body.length == 12

/-- A well-formed descriptor whose TYPE is `t` (R89). -/
def descOf (d : Desc) (t : Nat) : Bool := d.wf && d.type == t

/-- Well-formedness of a command. (DESIGN CHOICE, log entry 89) -/
def Instr.wf (i : Instr) : Bool :=
  match i with
  | .registerWrite fn _ width _ => below fn 64 && busWidth width
  | .lowHalfRead read => below read.fn 64
  | .timeTripleRead _ => true
  | .setupLock _ => true
  | .clampCountClear _ _ => true
  | .tclkTick => true
  | .slewDone => true
  | .tbRateCommit _ => true
  | .adjustment _ => true
  | .timeSet _ => true
  | .sourceChange _ => true
  | .refSelect _ => true
  | .refLost => true
  | .refReturn _ => true
  | .ppsIn => true
  | .ppsOut => true
  | .ppsOutEnd => true
  | .holdoverClear => true
  | .boundaryFire => true
  | .slotExpiry carrier _ => below carrier 512
  | .mouldWrite d => descOf d 0x300
  | .mouldLoad d => descOf d 0x301
  | .mouldLoadData ring _ _ _ => below ring 65536
  | .mouldCopyDone carrier _ => below carrier 512
  | .arm d => descOf d 0x302
  | .slotAbort d => descOf d 0x303
  | .carrierDisable d => descOf d 0x304
  | .carrierEnable d => descOf d 0x304
  | .gridOriginSet _ => true
  | .doorbell fn offset width _ => below fn 64 && below offset 524288 && busWidth width
  | .fetchBatch => true
  | .batchLands ring _ descs => below ring 65536 && descs.all (fun d => d.length == 16)
  | .descriptorDelivery ring block => below ring 65536 && below block 256
  | .nop d => descOf d 0x000
  | .moderationTimer ring => below ring 65536
  | .rctxSelect _ => true
  | .ringCommit _ => true
  | .ringCommitDone => true
  | .flr fn => below fn 64
  | .flrTimeout fn => below fn 64
  | .flrDone fn => below fn 64
  | .linkDown => true
  | .perst => true
  | .msixUnmask vector _ => below vector 2048
  | .busMasterEnable fn => below fn 64
  | .vfEnable _ numVfs => below numVfs 65536
  | .queueDisable d => descOf d 0x100
  | .queueEnable d => descOf d 0x100
  | .queueFlush d => descOf d 0x100
  | .queueWrite d => descOf d 0x101
  | .queueWriteData ring _ _ _ => below ring 65536
  | .startOfItem qid _ prio _ => below qid 65536 && below prio 8
  | .queueWord qid _ _ => below qid 65536
  | .itemCommit qid _ => below qid 65536
  | .itemVisible qid _ _ => below qid 65536
  | .itemRewind qid _ _ => below qid 65536
  | .itemRead qid _ => below qid 65536
  | .idleNotice qid => below qid 65536
  | .qctxSelect _ => true
  | .qctxCommit _ => true
  | .qctxCommitDone => true
  | .arbiterGrant arbiter _ _ => below arbiter 49
  | .rankWrite requester _ => below requester 145
  | .grantHold arbiter _ => below arbiter 49
  | .waitmaxClear arbiter _ => below arbiter 49
  | .taskDefine d => descOf d 0x200
  | .taskArm d => descOf d 0x201
  | .eventSet d => descOf d 0x202
  | .taskCancel d => descOf d 0x203
  | .sigDefine d => descOf d 0x204
  | .flagSet task _ => below task 131072
  | .taskDeadline task => below task 131072
  | .dispatch => true
  | .dispatchCredit => true
  | .signaturePublish => true
  | .vnop leaf _ => below leaf 192
  | .vadd leaf _ vd va vb => below leaf 192 && below vd 16 && below va 16 && below vb 16
  | .vsub leaf _ vd va vb => below leaf 192 && below vd 16 && below va 16 && below vb 16
  | .vneg leaf _ vd va => below leaf 192 && below vd 16 && below va 16
  | .vshl leaf _ vd va vx => below leaf 192 && below vd 16 && below va 16 && below vx 32
  | .vshr leaf _ vd va vx => below leaf 192 && below vd 16 && below va 16 && below vx 32
  | .vconj leaf _ vd va => below leaf 192 && below vd 16 && below va 16
  | .vmov leaf _ vd va => below leaf 192 && below vd 16 && below va 16
  | .vand leaf _ vd va vb => below leaf 192 && below vd 16 && below va 16 && below vb 16
  | .vor leaf _ vd va vb => below leaf 192 && below vd 16 && below va 16 && below vb 16
  | .vxor leaf _ vd va vb => below leaf 192 && below vd 16 && below va 16 && below vb 16
  | .vmulj leaf _ vd va => below leaf 192 && below vd 16 && below va 16
  | .vbcast leaf _ vd va vx => below leaf 192 && below vd 16 && below va 16 && below vx 32
  | .mulAdd leaf _ vd va vb vx => below leaf 192 && below vd 16 && below va 16 && below vb 16 && below vx 32
  | .mulSub leaf _ vd va vb vx => below leaf 192 && below vd 16 && below va 16 && below vb 16 && below vx 32
  | .mulSet leaf _ vd va vb vx => below leaf 192 && below vd 16 && below va 16 && below vb 16 && below vx 32
  | .mulNeg leaf _ vd va vb vx => below leaf 192 && below vd 16 && below va 16 && below vb 16 && below vx 32
  | .mulcAdd leaf _ vd va vb vx => below leaf 192 && below vd 16 && below va 16 && below vb 16 && below vx 32
  | .mulcSub leaf _ vd va vb vx => below leaf 192 && below vd 16 && below va 16 && below vb 16 && below vx 32
  | .mulcSet leaf _ vd va vb vx => below leaf 192 && below vd 16 && below va 16 && below vb 16 && below vx 32
  | .mulcNeg leaf _ vd va vb vx => below leaf 192 && below vd 16 && below va 16 && below vb 16 && below vx 32
  | .mulrAdd leaf _ vd va vb vx => below leaf 192 && below vd 16 && below va 16 && below vb 16 && below vx 32
  | .mulrSub leaf _ vd va vb vx => below leaf 192 && below vd 16 && below va 16 && below vb 16 && below vx 32
  | .mulrSet leaf _ vd va vb vx => below leaf 192 && below vd 16 && below va 16 && below vb 16 && below vx 32
  | .mulrNeg leaf _ vd va vb vx => below leaf 192 && below vd 16 && below va 16 && below vb 16 && below vx 32
  | .aclr leaf _ vd => below leaf 192 && below vd 16
  | .sac leaf _ vd va vx => below leaf 192 && below vd 16 && below va 16 && below vx 32
  | .aadd leaf _ vd va => below leaf 192 && below vd 16 && below va 16
  | .amov leaf _ vd va => below leaf 192 && below vd 16 && below va 16
  | .asum leaf _ vd va => below leaf 192 && below vd 16 && below va 16
  | .repScalar leaf _ ga => below leaf 192 && below ga 32
  | .add leaf _ gd ga gb => below leaf 192 && below gd 32 && below ga 32 && below gb 32
  | .sub leaf _ gd ga gb => below leaf 192 && below gd 32 && below ga 32 && below gb 32
  | .and leaf _ gd ga gb => below leaf 192 && below gd 32 && below ga 32 && below gb 32
  | .or leaf _ gd ga gb => below leaf 192 && below gd 32 && below ga 32 && below gb 32
  | .xor leaf _ gd ga gb => below leaf 192 && below gd 32 && below ga 32 && below gb 32
  | .shl leaf _ gd ga gb => below leaf 192 && below gd 32 && below ga 32 && below gb 32
  | .sra leaf _ gd ga gb => below leaf 192 && below gd 32 && below ga 32 && below gb 32
  | .cnop leaf _ => below leaf 192
  | .addi leaf _ rd ra imm => below leaf 192 && below rd 64 && below ra 64 && below imm 16384
  | .mov leaf _ rd ra => below leaf 192 && below rd 64 && below ra 64
  | .mulg leaf _ rd ra rb => below leaf 192 && below rd 64 && below ra 64 && below rb 64
  | .shr leaf _ rd ra rb => below leaf 192 && below rd 64 && below ra 64 && below rb 64
  | .slt leaf _ rd ra rb => below leaf 192 && below rd 64 && below ra 64 && below rb 64
  | .sltu leaf _ rd ra rb => below leaf 192 && below rd 64 && below ra 64 && below rb 64
  | .min leaf _ rd ra rb => below leaf 192 && below rd 64 && below ra 64 && below rb 64
  | .max leaf _ rd ra rb => below leaf 192 && below rd 64 && below ra 64 && below rb 64
  | .br leaf _ imm => below leaf 192 && below imm 16384
  | .beqz leaf _ ra imm => below leaf 192 && below ra 64 && below imm 16384
  | .bnez leaf _ ra imm => below leaf 192 && below ra 64 && below imm 16384
  | .bltz leaf _ ra imm => below leaf 192 && below ra 64 && below imm 16384
  | .bgez leaf _ ra imm => below leaf 192 && below ra 64 && below imm 16384
  | .jal leaf _ rd imm => below leaf 192 && below rd 64 && below imm 16384
  | .jr leaf _ ra => below leaf 192 && below ra 64
  | .babt leaf _ imm => below leaf 192 && below imm 16384
  | .rep leaf _ count => below leaf 192 && below count 65536
  | .fetch leaf _ imm => below leaf 192 && below imm 16384
  | .qpop leaf _ rd ra imm => below leaf 192 && below rd 64 && below ra 64 && below imm 16384
  | .qpopComplete leaf => below leaf 192
  | .qpush leaf _ ra rb imm => below leaf 192 && below ra 64 && below rb 64 && below imm 16384
  | .qcommit leaf _ rd ra => below leaf 192 && below rd 64 && below ra 64
  | .qcommitStatus leaf => below leaf 192
  | .qrewind leaf _ ra => below leaf 192 && below ra 64
  | .signal leaf _ ra rb => below leaf 192 && below ra 64 && below rb 64
  | .release leaf _ rd imm => below leaf 192 && below rd 64 && below imm 16384
  | .statw leaf _ imm => below leaf 192 && below imm 16384
  | .statr leaf _ rd imm => below leaf 192 && below rd 64 && below imm 16384
  | .halt leaf _ => below leaf 192
  | .movi leaf _ rd _ => below leaf 192 && below rd 64
  | .addw leaf _ rd _ => below leaf 192 && below rd 64
  | .ld leaf _ _ w pn reg => below leaf 192 && below w 4 && below pn 8 && below reg 16
  | .st leaf _ _ w pn reg => below leaf 192 && below w 4 && below pn 8 && below reg 16
  | .ldk leaf _ _ w pn reg => below leaf 192 && below w 4 && below pn 8 && below reg 16
  | .ldWide leaf _ _ w pn reg _ sh off => below leaf 192 && below w 4 && below pn 8 && below reg 32 && below sh 32 && below off 2048
  | .stWide leaf _ _ w pn reg _ sh off => below leaf 192 && below w 4 && below pn 8 && below reg 32 && below sh 32 && below off 2048
  | .ldg leaf _ _ w pn reg _ sh off => below leaf 192 && below w 4 && below pn 8 && below reg 32 && below sh 32 && below off 2048
  | .stg leaf _ _ w pn reg _ sh off => below leaf 192 && below w 4 && below pn 8 && below reg 32 && below sh 32 && below off 2048
  | .sta leaf _ _ w pn reg _ sh off => below leaf 192 && below w 4 && below pn 8 && below reg 32 && below sh 32 && below off 2048
  | .haltRequest leaf => below leaf 192
  | .debugHalt leaf _ => below leaf 192
  | .resume leaf => below leaf 192
  | .debugStep leaf => below leaf 192
  | .dbgRegWrite leaf _ => below leaf 192
  | .leafReset quire _ => below quire 24
  | .leafResetRelease quire _ => below quire 24
  | .quireExternalAccess _ _ _ _ => true
  | .dmaRun d => descOf d 0x400
  | .runItemRead ch => below ch 1024
  | .programStart ch => below ch 1024
  | .endProgram ch _ => below ch 1024
  | .dmaMove ch _ _ => below ch 1024
  | .dmaLoop ch _ => below ch 1024
  | .waitQueue ch _ => below ch 1024
  | .waitTime ch _ => below ch 1024
  | .waitConditionMet ch => below ch 1024
  | .waitDeadline ch => below ch 1024
  | .signalFlags ch _ => below ch 1024
  | .signalItem ch _ => below ch 1024
  | .dmaBusError ch _ _ => below ch 1024
  | .dmaAbort d => descOf d 0x402
  | .dmaDisable d => descOf d 0x401
  | .dmaEnable d => descOf d 0x401
  | .jobItemRead engine => below engine 3
  | .spaJob d => descOf d 0x500
  | .estw => true
  | .combine => true
  | .precode => true
  | .spaJobEnd _ => true
  | .spaAbort d => descOf d 0x501
  | .spaDisable d => descOf d 0x502
  | .spaEnable d => descOf d 0x502
  | .codJob d => descOf d 0x600
  | .ldpcDec group => below group 4
  | .ldpcEnc group => below group 4
  | .turboDec group => below group 4
  | .turboEnc group => below group 4
  | .polarDec group => below group 4
  | .polarEnc group => below group 4
  | .codeBlockStart group kind => below group 4 && below kind 7
  | .codJobEnd _ => true
  | .codAbort d => descOf d 0x601
  | .codDisable d => descOf d 0x602
  | .codEnable d => descOf d 0x602
  | .harqRegionWrite _ _ => true
  | .rxSymbol carrier _ sym _ => below carrier 512 && below sym 14
  | .rxGapDeadline carrier _ sym _ => below carrier 512 && below sym 14
  | .txDecision carrier _ sym _ => below carrier 512 && below sym 14
  | .qualSlotCheck carrier _ => below carrier 512
  | .spcTxq d => descOf d 0x703
  | .peak det _ _ _ => below det 512
  | .validationDecision det _ _ => below det 512
  | .burstDone det _ => below det 512
  | .occasion det _ _ => below det 512
  | .spcJob d => descOf d 0x700
  | .fft => true
  | .ifft => true
  | .spcJobEnd _ => true
  | .spcAbort d => descOf d 0x701
  | .spcDisable d => descOf d 0x702
  | .spcEnable d => descOf d 0x702
  | .portEnable port _ => below port 96
  | .portUp port => below port 96
  | .frameReceive port _ => below port 96
  | .txItemAssign carrier _ => below carrier 512
  | .frameSend port => below port 96
  | .txWindowClose carrier _ _ sym => below carrier 512 && below sym 14
  | .symbolGroupCommit carrier _ _ last => below carrier 512 && below last 14
  | .cplaneAutoSend carrier _ _ _ => below carrier 512
  | .cplaneQueueSend carrier _ => below carrier 512
  | .fhSend d _ => descOf d 0x800
  | .fhRxbuf d => descOf d 0x801
  | .trainingFrame lane => below lane 96
  | .partnerWaitExpiry lane => below lane 96
  | .backoffExpiry lane => below lane 96
  | .coefficientRequest lane preset _ _ => below lane 96 && below preset 16
  | .receiversReady lane => below lane 96
  | .partnerLost lane => below lane 96
  | .trainLimitExpiry lane => below lane 96
  | .cdrLock lane => below lane 96
  | .adaptTimeout lane => below lane 96
  | .lockLoss lane => below lane 96
  | .retrain lane _ => below lane 96
  | .loopbackWrite lane _ => below lane 96
  | .testEnable lane _ => below lane 96
  | .txTapsWrite lane _ => below lane 96
  | .qrefSelect quad _ => below quad 24
  | .qrefLost quad => below quad 24
  | .injOne lane _ => below lane 96
  | .periodicInjection lane => below lane 96
  | .prbsSync lane => below lane 96
  | .prbsSyncLoss lane _ _ => below lane 96
  | .recalibration quad _ => below quad 24
  | .feSlip lane => below lane 96
  | .laneAdmit port _ => below port 12
  | .stitchFrameReceive port lane _ _ => below port 12 && below lane 96
  | .replayTimeout port => below port 13
  | .laneDrop port => below port 12
  | .stfBind d => descOf d 0x900
  | .bindItemSend bind => below bind 4096
  | .bindEventSend bind => below bind 4096
  | .tsyncExchange port _ _ _ _ => below port 12
  | .stfBcastFreeze d => descOf d 0x902
  | .stfBcastTrigger d => descOf d 0x902
  | .broadcastTime => true
  | .hello port => below port 12
  | .electSettle => true
  | .mapFlood => true
  | .register => true
  | .systemRootChoice => true
  | .sysmap => true
  | .gatewaySilent group => below group 512
  | .common => true
  | .stfMigrate d _ => descOf d 0x901
  | .migrationSwitch carrier => below carrier 512
  | .vatArm d => descOf d 0xA00
  | .vatTrigger d => descOf d 0xA00
  | .vatStop d => descOf d 0xA00
  | .captureRecord half _ => decide (half < 2)
  | .gapRecord half => below half 2
  | .trigPinEdge line _ => below line 4
  | .trigPulseEnd line => below line 4
  | .spillFrame half => below half 2
  | .spillIdle half => below half 2
  | .spillPortEnable port _ => below port 24
  | .capHostbuf d => descOf d 0xA01
  | .hostbufClose half _ => below half 2
  | .capPressStart d => descOf d 0xA02
  | .pressRecord chan => below chan 16
  | .capPressStop d => descOf d 0xA03
  | .memFill d => descOf d 0xB00
  | .fillDone ring _ => below ring 65536
  | .channelAccess _ _ _ _ requester => below requester 145
  | .bar4Access _ _ _ _ => true
  | .patrolScrub chan => below chan 16
  | .channelRetrain chan _ => below chan 16
  | .retrainRetry chan => below chan 16
  | .mr4Read chan _ => below chan 16
  | .bankRefresh chan _ => below chan 16
  | .eccInject _ => true
  | .ueAddrRearm _ => true
  | .memInitDone => true
  | .requestNap cluster _ => below cluster 72
  | .requestDoze cluster _ => below cluster 72
  | .requestRun cluster _ => below cluster 72
  | .autoNap cluster => below cluster 72
  | .handshakeAnswer _ cluster unit => below cluster 72 && below unit 9
  | .handshakeDelayLimit _ cluster unit => below cluster 72 && below unit 9
  | .dozeEntryDone cluster => below cluster 72
  | .exitDone cluster => below cluster 72
  | .napWake cluster => below cluster 72
  | .hibernateEnter _ => true
  | .hibernateWake _ _ => true
  | .hibTimer => true
  | .getInfo transport seq => below transport 4 && below seq 256
  | .readSensors transport seq => below transport 4 && below seq 256
  | .getLog transport seq _ count => below transport 4 && below seq 256 && below count 65536
  | .updateBegin transport seq _ _ => below transport 4 && below seq 256
  | .updateData transport seq _ _ => below transport 4 && below seq 256
  | .updateCommit transport seq _ _ _ => below transport 4 && below seq 256
  | .updateActivate transport seq _ => below transport 4 && below seq 256
  | .updateConfirm transport seq => below transport 4 && below seq 256
  | .updateAbort transport seq => below transport 4 && below seq 256
  | .writeRecord transport seq _ _ => below transport 4 && below seq 256
  | .freeze transport seq _ _ => below transport 4 && below seq 256
  | .readout transport seq _ _ _ _ => below transport 4 && below seq 256
  | .powerDoze transport seq cluster _ _ => below transport 4 && below seq 256 && below cluster 256
  | .powerHibernate transport seq => below transport 4 && below seq 256
  | .powerWake transport seq _ => below transport 4 && below seq 256
  | .sensorSample _ _ _ _ _ _ => true
  | .throttleStep => true
  | .throttleRestore => true
  | .thermalShutdown => true
  | .alertRelease _ => true
  | .logCompaction => true
  | .compactionDone => true
  | .sessionTimeout => true
  | .maintStart => true
  | .freezeNFall => true
  | .powerOn => true
  | .coldReset => true
  | .warmReset => true
  | .warmResetRelease => true
  | .coreReady => true
  | .pwrEnFall => true
  | .vinUndervoltage => true
  | .vinOvervoltage => true
  | .railFault => true
  | .referenceDetection _ _ => true
  | .qrefReturn quad => below quad 24
  | .pcsAlignmentLost port => below port 96
  | .dataLinkUp => true
  | .linkSpeedChange _ _ _ => true
  | .unknownOpcode transport seq _ => below transport 4 && below seq 256
  | .arpAndIcmpEcho _ _ => true
  | .overvoltageRestart => true

end Sys2Proof
end

