-- ==== Sys2Proof/Decode.lean ====
section
/-! DEFINITION. The block takes typed commands: no row of the table of operations and events has a word of bits, so no word
spells a command. (The encodings of leaf bundles, which the module itself fetches from IM, are in Machine/Bundle.lean.) -/

namespace Sys2Proof

/-- The command a table word spells: none, for no row gives bits. (DESIGN CHOICE, log entry 3) -/
def decodeTableWord (_nbits _w : Nat) : Option Instr := none

end Sys2Proof
end

