-- ==== Sys2Proof/Config.lean ====
section
/-! DEFINITION. The free values: what the manual leaves open although the module goes on. No value of these constants
can be evaluated or proved; a statement about a result that holds one holds for every value. -/

namespace Sys2Proof.Config

/-- A value the manual leaves open, drawn afresh: the argument is the counter `State.freeCtr` at the draw.
(DESIGN CHOICE, log entry 12) -/
opaque free : Nat → BitVec 256

/-- A block of bytes the manual leaves open: draw number, then byte offset. (DESIGN CHOICE, log entry 12) -/
opaque freeByte : Nat → Nat → BitVec 8

/-- A number the manual leaves open and bounds itself at the place of use: draw number. (DESIGN CHOICE, log entry 12) -/
opaque freeNat : Nat → Nat

/-- A modulation-compressed PRB as 24 parts, where an auxiliary frame's section is to be carried in INT16: the manual performs no such
expansion (R302, R305). Arguments: width and the PRB's bytes. (DESIGN CHOICE, log entry 17) -/
opaque modExpand : Nat → List (BitVec 8) → List Int

/-- Bits an LDPC code adds to a code block (R256), whose base graphs the manual leaves to TS 38.212: BG2, lifting size, the block's
bits, position of the bit in the code word. (DESIGN CHOICE, log entry 13) -/
opaque ldpcParity : Bool → Nat → List Bool → Nat → Bool
/-- The two parameters of the turbo interleaver of a size (R245), whose table the manual leaves to TS 36.212.
(DESIGN CHOICE, log entry 13) -/
opaque qpp : Nat → Nat × Nat
/-- Hard decisions of an LDPC or turbo decoder after a number of iterations (R252): KIND, BG2, lifting size, soft values, iterations,
bit. (DESIGN CHOICE, log entry 13) -/
opaque decoderBit : Nat → Bool → Nat → List Int → Nat → Nat → Bool
/-- The syndrome is 0 after a number of iterations (R252): KIND, BG2, lifting size, soft values, iterations.
(DESIGN CHOICE, log entry 13) -/
opaque syndromeZero : Nat → Bool → Nat → List Int → Nat → Bool
/-- The polar sequence of a mother code, least reliable position first (R245), and the pattern of the input interleaver, whose tables
the manual leaves to TS 38.212. (DESIGN CHOICE, log entry 13) -/
opaque polarOrder : Nat → List Nat
/-- (DESIGN CHOICE, log entry 13) -/
opaque polarIl : List Nat
/-- Bits of the paths a polar decoder ends with (R256): positions that carry bits, soft values, path, bit.
(DESIGN CHOICE, log entry 13) -/
opaque polarPath : List Nat → List Int → Nat → Nat → Bool

/-- The rounding of a transform whose order of operations the manual does not state (R266): inverse, samples, bin, imaginary part; in
units of 2^-64 and bounded at its use. (DESIGN CHOICE, log entry 14) -/
opaque fftRounding : Bool → List (Int × Int) → Nat → Bool → Int
/-- What a decimator whose filter the manual does not state makes of the pass band of its last samples (R279), in units of 2^-16:
DECIM_LOG2 and those samples. (DESIGN CHOICE, log entry 98) -/
opaque decimated : Nat → List (Int × Int) → Int × Int
/-- What it lets through of the stop band, bounded at its use: DECIM_LOG2, the last samples, imaginary part.
(DESIGN CHOICE, log entry 98) -/
opaque decimLeak : Nat → List (Int × Int) → Bool → Int
/-- The rounding of a correlation (R266, R280): the samples that share its blocks, the reference, imaginary part; bounded at its use.
(DESIGN CHOICE, log entry 14) -/
opaque corrRounding : List (Int × Int) → List (Int × Int) → Bool → Int
/-- What a sum of squares of these values loses by truncation (R266), bounded at its use. (DESIGN CHOICE, log entry 14) -/
opaque truncation : List (Int × Int) → Nat → Nat

/-- The module's serial number, which HELLO carries (R337): fixed at manufacture. (DESIGN CHOICE, log entry 17) -/
opaque serial : BitVec 64

/-- The vendor ID that the PCI-SIG assigned to the maker (R81); the manual does not print it. (DESIGN CHOICE, log entry 17) -/
opaque vendorId : BitVec 16

end Sys2Proof.Config
end

