-- ==== Sys2Proof/Machine/Map.lean ====
section
/-! DEFINITION. Sparse maps in canonical form: the one container of registers, memory bytes and contexts.
A map lists (key, value) pairs with keys strictly rising and lists no value equal to what an unlisted key reads as. -/

namespace Sys2Proof.Machine

/-- The value at key `k`; `d k` where `k` is not listed. -/
def mapGet {α : Type} (d : Nat → α) (m : SMap α) (k : Nat) : α :=
  match m with
  | [] => d k
  | (j, v) :: r => if j = k then v else mapGet d r k

/-- Puts the pair in its place, whatever the value is. -/
def mapInsert {α : Type} (m : SMap α) (k : Nat) (v : α) : SMap α :=
  match m with
  | [] => [(k, v)]
  | (j, w) :: r => if k < j then (k, v) :: (j, w) :: r else if j = k then (k, v) :: r else (j, w) :: mapInsert r k v

/-- Takes key `k` out of the list, so that it reads as the default again. -/
def mapErase {α : Type} (m : SMap α) (k : Nat) : SMap α :=
  match m with
  | [] => []
  | (j, w) :: r => if j = k then r else (j, w) :: mapErase r k

/-- Writes `v` at key `k`, keeping the canonical form: a value equal to the default is not listed. -/
def mapSet {α : Type} [DecidableEq α] (d : Nat → α) (m : SMap α) (k : Nat) (v : α) : SMap α :=
  if v = d k then mapErase m k else mapInsert m k v

/-- The first key of the list is above `lo`, and the keys rise strictly. -/
def mapSortedFrom {α : Type} (lo : Option Nat) (m : SMap α) : Bool :=
  match m with
  | [] => true
  | (j, _) :: r => (match lo with | none => true | some l => decide (l < j)) && mapSortedFrom (some j) r

/-- The canonical form. -/
def mapWf {α : Type} [DecidableEq α] (d : Nat → α) (m : SMap α) : Bool :=
  mapSortedFrom none m && m.all (fun p => decide (p.2 ≠ d p.1))

/-- The keys that are listed. -/
def mapKeys {α : Type} (m : SMap α) : List Nat := m.map Prod.fst

/-- Applies `f` to every listed value, keeping the canonical form. -/
def mapMapSet {α : Type} [DecidableEq α] (d : Nat → α) (f : Nat → α → α) (m : SMap α) : SMap α :=
  match m with
  | [] => []
  | (j, v) :: r => if f j v = d j then mapMapSet d f r else (j, f j v) :: mapMapSet d f r

/-- `min n (2^w - 1)`: the saturating counters of the manual. -/
def satTo (mx n : Nat) : Nat := if mx < n then mx else n

/-- Bits `hi` to `lo` of a word, as a number. -/
def bitsOf {w : Nat} (x : BitVec w) (hi lo : Nat) : Nat := x.toNat / 2 ^ lo % 2 ^ (hi + 1 - lo)

/-- One bit of a word. -/
def bitOf {w : Nat} (x : BitVec w) (i : Nat) : Bool := x.getLsbD i

/-- `x` with bits `hi` to `lo` replaced by the low bits of `v`. -/
def setBitsOf {w : Nat} (x : BitVec w) (hi lo v : Nat) : BitVec w :=
  BitVec.ofNat w (x.toNat - bitsOf x hi lo * 2 ^ lo + v % 2 ^ (hi + 1 - lo) * 2 ^ lo)

/-- The number whose two's complement in `w` bits is `n`. -/
def signedOf (w n : Nat) : Int := if n % 2 ^ w < 2 ^ (w - 1) then (n % 2 ^ w : Nat) else ((n % 2 ^ w : Nat) : Int) - (2 ^ w : Nat)

/-- The two's complement of `i` in `w` bits. -/
def unsignedOf (w : Nat) (i : Int) : Nat := (i % (2 ^ w : Nat)).toNat

/-- 1 for true: a bit as a number. -/
def b2n (b : Bool) : Nat := if b then 1 else 0

/-- Little-endian bytes of a number, `n` of them. -/
def bytesOfNat (n v : Nat) : List Byte :=
  match n with
  | 0 => []
  | k + 1 => BitVec.ofNat 8 (v % 256) :: bytesOfNat k (v / 256)

/-- The number little-endian bytes spell. -/
def natOfBytes (l : List Byte) : Nat :=
  match l with
  | [] => 0
  | b :: r => b.toNat + 256 * natOfBytes r

/-- 32-bit word `i` of a queue word. -/
def qwWord (q : QWord) (i : Nat) : W32 := q.extractLsb' (32 * i) 32

/-- A queue word from its eight 32-bit words, word 0 in the low bits; missing words are 0. -/
def qwOfWords (l : List W32) : QWord :=
  match l with
  | [] => 0#256
  | w :: r => w.setWidth 256 ||| (qwOfWords r <<< 32)

end Sys2Proof.Machine
end

