-- ==== Sys2Proof/Machine/Formats.lean ====
section
/-! DEFINITION. Sample formats: INT16 complex samples (R169), the block floating point layout (R304), and packed bits
(R251). -/

namespace Sys2Proof.Machine

/-- A complex sample: real and imaginary part. -/
abbrev Cplx := Int × Int

def cplxMul (a b : Cplx) : Cplx := (a.1 * b.1 - a.2 * b.2, a.1 * b.2 + a.2 * b.1)
def cplxConj (a : Cplx) : Cplx := (a.1, -a.2)
def cplxAdd (a b : Cplx) : Cplx := (a.1 + b.1, a.2 + b.2)
def cplxSum (l : List Cplx) : Cplx := l.foldl cplxAdd (0, 0)
def abs2 (a : Cplx) : Nat := (a.1 * a.1 + a.2 * a.2).toNat

/-- Bits of bytes, most significant bit of each byte first. -/
def bitsMsb (l : List Byte) : List Bool := l.flatMap (fun b => (List.range 8).map (fun i => b.getLsbD (7 - i)))

/-- The number a list of bits spells, most significant first. -/
def natOfBits (l : List Bool) : Nat := l.foldl (fun n b => 2 * n + b2n b) 0

/-- The low `n` bits of a number, most significant first. -/
def bitsOfNat (n v : Nat) : List Bool := (List.range n).map (fun i => v.testBit (n - 1 - i))

/-- Packs bits into bytes, the first bit highest; a last partial byte is padded with 0 (R251). -/
def packBits (l : List Bool) : List Byte :=
  (List.range ((l.length + 7) / 8)).map (fun i =>
    let c := (l.drop (8 * i)).take 8
    BitVec.ofNat 8 (natOfBits (c ++ List.replicate (8 - c.length) false)))

/-- floor(x ÷ 2^e). -/
def floorShift (x : Int) (e : Nat) : Int := x / ((2 ^ e : Nat) : Int)

/-- Saturation of a part to `w` bits, with whether it saturated. -/
def satPart (w : Nat) (x : Int) : Int × Bool :=
  let hi : Int := ((2 ^ (w - 1) : Nat) : Int) - 1
  let lo : Int := -((2 ^ (w - 1) : Nat) : Int)
  if hi < x then (hi, true) else if x < lo then (lo, true) else (x, false)

def saturated (c : Cplx × Nat) : Nat := c.2

/-- Both parts of a sample saturated to 16 bits, with the number of parts that saturated. -/
def satCplx (c : Cplx) : Cplx × Nat :=
  let r := satPart 16 c.1
  let i := satPart 16 c.2
  ((r.1, i.1), b2n r.2 + b2n i.2)

/-- INT16 complex (R169): real part in the low half. -/
def int16Bytes (c : Cplx) : List Byte := bytesOfNat 2 (unsignedOf 16 c.1) ++ bytesOfNat 2 (unsignedOf 16 c.2)
def int16Of (l : List Byte) : Cplx := (signedOf 16 (natOfBytes (l.take 2)), signedOf 16 (natOfBytes ((l.drop 2).take 2)))

/-- Cuts a list into runs of `k`; a last shorter run stays. -/
def chunks {α : Type} (fuel k : Nat) (l : List α) : List (List α) :=
  match fuel with
  | 0 => []
  | f + 1 => if l.isEmpty then [] else l.take k :: chunks f k (l.drop k)

def samplesOfInt16 (l : List Byte) : List Cplx := (chunks l.length 4 l).map int16Of

/-- Width of a format's mantissas: 0 INT16, 1 BFP9, 2 BFP12, 3 BFP14 (R228). -/
def fmtWidth (fmt : Nat) : Nat := if fmt = 1 then 9 else if fmt = 2 then 12 else if fmt = 3 then 14 else 16

/-- Bytes of `prbs` PRBs of one antenna and one symbol in a format. -/
def blockBytes (fmt prbs : Nat) : Nat := if fmt = 0 then 48 * prbs else (3 * fmtWidth fmt + 1) * prbs

/-- The mantissas of a PRB: 24 values of `w` bits, most significant bit first (R304). -/
def mantissas (w : Nat) (l : List Byte) : List Int :=
  (chunks 24 w (bitsMsb l)).map (fun b => signedOf w (natOfBits b))

/-- Pairs of parts as samples. -/
def pairUp (l : List Int) : List Cplx :=
  match l with
  | a :: b :: r => (a, b) :: pairUp r
  | _ => []

/-- A BFP PRB as samples: x = m × 2^e, saturated to 16 bits (R304, R305). -/
def bfpDecode (w : Nat) (l : List Byte) : List Cplx :=
  let e := (l.headD 0).toNat % 16
  pairUp ((mantissas w (l.drop 1)).map (fun m => (satPart 16 (m * ((2 ^ e : Nat) : Int))).1))

/-- The least exponent from 0 to 15 under which every part fits, or 15 (R305). -/
def bfpExponent (w : Nat) (l : List Int) : Nat :=
  ((List.range 15).find? (fun e => l.all (fun x => !(satPart w (floorShift x e)).2))).getD 15

/-- A PRB of samples as a BFP block. -/
def bfpEncode (w : Nat) (l : List Cplx) : List Byte :=
  let parts := l.flatMap (fun c => [c.1, c.2])
  let e := bfpExponent w parts
  BitVec.ofNat 8 e :: packBits (parts.flatMap (fun x => bitsOfNat w (unsignedOf w (satPart w (floorShift x e)).1)))

/-- A block of samples in a format. -/
def blockDecode (fmt : Nat) (l : List Byte) : List Cplx :=
  if fmt = 0 then samplesOfInt16 l else (chunks l.length (3 * fmtWidth fmt + 1) l).flatMap (bfpDecode (fmtWidth fmt))

def blockEncode (fmt : Nat) (l : List Cplx) : List Byte :=
  if fmt = 0 then l.flatMap int16Bytes else (chunks l.length 12 l).flatMap (bfpEncode (fmtWidth fmt))

/-- Bytes as queue words, the last one padded with zeros (R268). -/
def qwordsOfBytes (l : List Byte) : List QWord :=
  (chunks l.length 32 l).map (fun c => BitVec.ofNat 256 (natOfBytes c))

/-- The bytes of queue words. -/
def bytesOfQWords (l : List QWord) : List Byte := l.flatMap (fun w => bytesOfNat 32 w.toNat)

end Sys2Proof.Machine
end

