-- ==== Sys2Proof/Machine/Estw.lean ====
section
/-! DEFINITION. The arithmetic of an ESTW (R232, R234): binary floating-point numbers with a 24-bit significand, every operation
truncating, and the weights, exponents and SINRs of a group. Sums run from the lowest index up and each operation is rounded, in
the order in which the pseudo-code of R232 names them. -/

namespace Sys2Proof.Machine

/-- The number m × 2^e. -/
structure Flt where
  m : Int
  e : Int
  deriving DecidableEq, Repr

/-- Truncated to a 24-bit significand, toward zero (R234). -/
def Flt.norm (m e : Int) : Flt :=
  let k := m.natAbs.log2 + 1 - 24
  if m = 0 then ⟨0, 0⟩ else ⟨m.tdiv ((2 ^ k : Nat) : Int), e + k⟩

def Flt.zero : Flt := ⟨0, 0⟩
def Flt.ofInt (x : Int) : Flt := Flt.norm x 0
def Flt.neg (a : Flt) : Flt := ⟨-a.m, a.e⟩
def Flt.mul (a b : Flt) : Flt := Flt.norm (a.m * b.m) (a.e + b.e)
def Flt.add (a b : Flt) : Flt :=
  let e := min a.e b.e
  Flt.norm (a.m * ((2 ^ (a.e - e).toNat : Nat) : Int) + b.m * ((2 ^ (b.e - e).toNat : Nat) : Int)) e
def Flt.sub (a b : Flt) : Flt := a.add b.neg
/-- The quotient; callers divide by no zero. -/
def Flt.div (a b : Flt) : Flt := Flt.norm ((a.m * ((2 ^ 72 : Nat) : Int)).tdiv b.m) (a.e - b.e - 72)
def Flt.le (a b : Flt) : Bool :=
  let e := min a.e b.e
  decide (a.m * ((2 ^ (a.e - e).toNat : Nat) : Int) ≤ b.m * ((2 ^ (b.e - e).toNat : Nat) : Int))
def Flt.max (a b : Flt) : Flt := if a.le b then b else a

/-- Halves the range in which the greatest value that `ok` accepts lies; `ok` accepts `lo`. -/
def searchDown (ok : Int → Bool) (fuel : Nat) (lo hi : Int) : Int :=
  match fuel with
  | 0 => lo
  | f + 1 =>
    let m := (lo + hi + 1) / 2
    if ok m then searchDown ok f m hi else searchDown ok f lo (m - 1)

/-- The square root of a number that is not negative. -/
def Flt.sqrt (a : Flt) : Flt :=
  let odd := a.e % 2
  let m := a.m * ((2 ^ (48 + odd.toNat) : Nat) : Int)
  Flt.norm (searchDown (fun r => decide (r * r ≤ m)) 38 0 ((2 ^ 37 : Nat) : Int)) ((a.e - odd) / 2 - 24)

/-- floor = 2^31 × 10^(−v ÷ 2560), truncated (R232). -/
def noiseFloor (v : Nat) : Flt :=
  let below := fun (m : Nat) (e : Int) => decide (m ^ 2560 * 10 ^ v ≤ 2 ^ ((31 - e).toNat * 2560))
  let e := searchDown (fun e => below (2 ^ 23) e) 8 (-120) 8
  ⟨searchDown (fun m => below m.toNat e) 24 ((2 ^ 23 : Nat) : Int) ((2 ^ 24 - 1 : Nat) : Int), e⟩

/-- A complex number. -/
structure CFlt where
  re : Flt
  im : Flt
  deriving DecidableEq, Repr

def CFlt.zero : CFlt := ⟨Flt.zero, Flt.zero⟩
def CFlt.ofCplx (c : Cplx) : CFlt := ⟨Flt.ofInt c.1, Flt.ofInt c.2⟩
def CFlt.conj (a : CFlt) : CFlt := ⟨a.re, a.im.neg⟩
def CFlt.add (a b : CFlt) : CFlt := ⟨a.re.add b.re, a.im.add b.im⟩
def CFlt.sub (a b : CFlt) : CFlt := ⟨a.re.sub b.re, a.im.sub b.im⟩
def CFlt.mul (a b : CFlt) : CFlt := ⟨(a.re.mul b.re).sub (a.im.mul b.im), (a.re.mul b.im).add (a.im.mul b.re)⟩
def CFlt.scale (f : Flt) (a : CFlt) : CFlt := ⟨f.mul a.re, f.mul a.im⟩
def CFlt.divBy (a : CFlt) (f : Flt) : CFlt := ⟨a.re.div f, a.im.div f⟩
def CFlt.abs2 (a : CFlt) : Flt := (a.re.mul a.re).add (a.im.mul a.im)

def fltSum (l : List Flt) : Flt := l.foldl Flt.add Flt.zero
def cfltSum (l : List CFlt) : CFlt := l.foldl CFlt.add CFlt.zero
/-- The mean of a list that is not empty. -/
def fltMean (l : List Flt) : Flt := (fltSum l).div (Flt.ofInt l.length)
def cfltMean (l : List CFlt) : CFlt := (cfltSum l).divBy (Flt.ofInt l.length)

/-- Entry `i`, `j` of a matrix by rows. -/
def entry (a : List (List CFlt)) (i j : Nat) : CFlt := (a.getD i []).getD j CFlt.zero

/-- What an ESTW reads and what its page says (R232): the estimates of symbol s, layer l and antenna n in a row of K. -/
structure EstIn where
  nAnt : Nat
  nLay : Nat
  nSym : Nat
  k : Nat
  /-- TAP_t for t below TAPS, in units of 2^-14 -/
  taps : List Int
  floor : Flt
  rows : List (List Cplx)

def EstIn.row (x : EstIn) (s n l : Nat) : List Cplx := x.rows.getD ((s * x.nLay + l) * x.nAnt + n) []

/-- Smoothing (R232): e of one symbol, antenna and layer at k. -/
def EstIn.smooth (x : EstIn) (row : List Cplx) (k : Nat) : CFlt :=
  cfltSum ((List.range x.taps.length).map (fun t =>
    CFlt.scale (Flt.norm (x.taps.getD t 0) (-14)) (CFlt.ofCplx (row.getD (min (k + t - (x.taps.length - 1) / 2) (x.k - 1)) (0, 0)))))

/-- Column `j` of the Cholesky factor of `g`, by rows, given the columns before it; the number of pivots at or below the floor. -/
def cholColumn (g : List (List CFlt)) (n : Nat) (floor : Flt) (cols : List (List CFlt)) (j : Nat) : List CFlt × Bool :=
  let dot := fun (i : Nat) => cfltSum (cols.map (fun c => (c.getD i CFlt.zero).mul (c.getD j CFlt.zero).conj))
  let p := ((entry g j j).sub (dot j)).re
  let low := p.le floor
  let d := (if low then floor else p).sqrt
  ((List.range n).map (fun i => if i < j then CFlt.zero else if i = j then ⟨d, Flt.zero⟩ else ((entry g i j).sub (dot i)).divBy d), low)

/-- The Cholesky factor by columns, and the singular pivots (R232). -/
def cholesky (g : List (List CFlt)) (n : Nat) (floor : Flt) : List (List CFlt) × Nat :=
  (List.range n).foldl (fun a j =>
    let c := cholColumn g n floor a.1 j
    (a.1 ++ [c.1], a.2 + b2n c.2)) ([], 0)

/-- Forward substitution: C y = b, C by columns. -/
def forwardSub (c : List (List CFlt)) (b : List CFlt) : List CFlt :=
  (List.range b.length).foldl (fun y i =>
    let sum := cfltSum ((List.range i).map (fun k => (entry c k i).mul (y.getD k CFlt.zero)))
    y ++ [((b.getD i CFlt.zero).sub sum).divBy (entry c i i).re]) []

/-- Back substitution: C^H x = y. -/
def backSub (c : List (List CFlt)) (y : List CFlt) : List CFlt :=
  let n := y.length
  (List.range n).foldl (fun x d =>
    let i := n - 1 - d
    let sum := cfltSum ((List.range x.length).map (fun q => (entry c i (i + 1 + q)).conj.mul (x.getD q CFlt.zero)))
    ((y.getD i CFlt.zero).sub sum).divBy (entry c i i).re :: x) []

/-- What R232 computes for a group: sigma2, the weights by layer, then antenna, the SINRs, and the singular pivots. -/
structure EstOut where
  sigma2 : Flt
  /-- a column of P that is zero cannot be scaled: no value is stated -/
  rows : List (Option (List CFlt))
  /-- none where 1 ÷ 0 leaves none stated -/
  sinrs : List (Option Flt)
  singular : Nat

/-- The weights of the group whose estimates are those at `ks` (R232). -/
def EstIn.group (x : EstIn) (dl : Bool) (ks : List Nat) : EstOut :=
  let es := fun (s n l : Nat) => ks.map (fun k => x.smooth (x.row s n l) k)
  let syms := List.range x.nSym
  let lays := List.range x.nLay
  let ants := List.range x.nAnt
  let h := ants.map (fun n => lays.map (fun l => cfltMean (syms.flatMap (fun s => es s n l))))
  let err := syms.flatMap (fun s => ants.flatMap (fun n => lays.flatMap (fun l =>
    ((ks.map (fun k => CFlt.ofCplx ((x.row s n l).getD k (0, 0)))).zip (es s n l)).map (fun p => (p.1.sub p.2).abs2))))
  let sigma2 := (fltMean err).max x.floor
  let g := lays.map (fun i => lays.map (fun j =>
    let d := cfltSum (ants.map (fun n => (entry h n i).conj.mul (entry h n j)))
    if i = j then d.add ⟨sigma2, Flt.zero⟩ else d))
  let c := cholesky g x.nLay x.floor
  let solve := fun (b : List CFlt) => backSub c.1 (forwardSub c.1 b)
  let cols := ants.map (fun n => solve (lays.map (fun l => (entry h n l).conj)))
  let w := lays.map (fun l => cols.map (fun col => col.getD l CFlt.zero))
  let inv := lays.map (fun l => ((solve (lays.map (fun i => if i = l then ⟨Flt.ofInt 1, Flt.zero⟩ else CFlt.zero))).getD l CFlt.zero).re)
  let unit := (Flt.ofInt 1).div (Flt.ofInt x.nLay)
  let column := fun (r : List CFlt) =>
    let p := r.map CFlt.conj
    let norm := fltSum (p.map CFlt.abs2)
    if norm.m = 0 then none else some (p.map (CFlt.scale (unit.div norm).sqrt))
  { sigma2 := sigma2, singular := c.2,
    rows := w.map (fun r => if dl then column r else some r),
    sinrs := inv.map (fun v => let d := sigma2.mul v; if d.m = 0 then none else some (((Flt.ofInt 1).div d).sub (Flt.ofInt 1))) }

/-- The mantissa of a part under exponent K: the value is m × 2^(−15 − K) (R234). -/
def mantissaOf (k : Int) (a : Flt) : Int :=
  let e := a.e + 15 + k
  if e < 0 then a.m.tdiv ((2 ^ (-e).toNat : Nat) : Int) else a.m * ((2 ^ e.toNat : Nat) : Int)

def mantissasFit (k : Int) (r : List CFlt) : Bool :=
  r.all (fun c => !(satPart 16 (mantissaOf k c.re)).2 && !(satPart 16 (mantissaOf k c.im)).2)

/-- K_l: the least value from −8 to 23 for which every mantissa fits in 16 bits, or −8 (R234). -/
def rowExponent (r : List CFlt) : Int :=
  (((List.range 32).map (fun i => ((i : Nat) : Int) - 8)).find? (fun k => mantissasFit k r)).getD (-8)

/-- A row or column as its exponent, its mantissas, and how many of them saturated (R234). (DESIGN CHOICE, log entry 14) -/
def rowMantissas (r : List CFlt) : Int × List Cplx × Nat :=
  let k := rowExponent r
  let ms := r.map (fun c => satCplx (mantissaOf k c.re, mantissaOf k c.im))
  (k, ms.map Prod.fst, (ms.filter (fun m => m.2 != 0)).length)

/-- IEEE binary32 of a positive number within its range (R233). -/
def Flt.binary32 (a : Flt) : Nat :=
  let k := 23 - a.m.natAbs.log2
  let m := a.m.natAbs * 2 ^ k
  (a.e - k + 23 + 127).toNat % 256 * 2 ^ 23 + m % 2 ^ 23

end Sys2Proof.Machine
end

