-- ==== Sys2Proof/Machine/RegMap.lean ====
section
/-! DEFINITION. The setup registers of BAR0 (R12): every register table of the manual, with each field's place,
access code (R4), reset value and clamp (R9). Fields the manual shows as reserved are not listed: they read 0 (R7).
A clamp `⟨a, b, c⟩` reads: a value from a to b is taken as c. Clamps that depend on more than the field's own value
are in Machine/Bar0.lean. -/

namespace Sys2Proof.Machine

/-- The blocks of BAR0 (R12). -/
inductive Block where
  | glb | hp | qmg | spn | gth | qui | dma | spa | cod | spc | fh | ln | stf | tb | cap | mem | pwr | col | slt
  deriving DecidableEq, Repr

/-- The access codes (R4). -/
inductive Access where
  | ro | rw | wo | w1c | w1s | rwl
  deriving DecidableEq, Repr

structure ClampRange where
  lo : Nat
  hi : Nat
  taken : Nat
  deriving DecidableEq, Repr

structure RegField where
  hi : Nat
  lo : Nat
  acc : Access
  reset : Nat
  clamp : List ClampRange
  deriving DecidableEq, Repr

/-- The registers by their names in the manual. The per-half counters of a fronthaul port, which R313 names within
its table, are named FH_HALF_…; the words of a time triple (R49) carry _SEC_LO and _SEC_HI. -/
inductive RegId where
  | GLB_ID | GLB_SETUP_LOCK | GLB_STATUS | GLB_CLAMP_COUNT | GLB_SCRATCH | TB_TIME | TB_TIME_SEC_LO | TB_TIME_SEC_HI
  | TB_OFFSET | TB_OFFSET_SEC_LO | TB_OFFSET_SEC_HI | TB_PPS_IN | TB_PPS_IN_SEC_LO | TB_PPS_IN_SEC_HI | TB_IRQ_STAMP
  | TB_IRQ_STAMP_SEC_LO | TB_IRQ_STAMP_SEC_HI | TB_REF_CTRL | TB_CTRL | TB_STATUS | TB_EVENT | TB_EVENT_EN
  | TB_EVENT_VEC | TB_RAW_LO | TB_RAW_HI | TB_RATE_LO | TB_RATE_HI | TB_ADJ_LO | TB_ADJ_HI | TB_SET_NS
  | TB_SET_SEC_LO | TB_SET_SEC_HI | TB_STEP_LIMIT | TB_SLEW_MAX | TB_SLEW_REMAIN | TB_REFUSED_LO | TB_REFUSED_HI
  | TB_HOLDOVER_UNC | TB_PPS_OUT_CTRL | TB_PPS_OUT_OFFSET | TB_CLAMP_COUNT | SLT_GRID_NS | SLT_GRID_SEC_LO
  | SLT_GRID_SEC_HI | SLT_MODULE_DECKLE | SLT_REF_FRAME | SLT_MODULE_GEN | SLT_EVENT | SLT_EVENT_EN | SLT_EVENT_VEC
  | SLT_PUSH_DROP | SLT_CLAMP_COUNT | SLT_CSTATE | SLT_CSLOT | SLT_CGEN_UL | SLT_CGEN_DL | SLT_CMOULD | SLT_CCOUNT
  | SLT_CEXPIRED | HP_LINK_STATUS | HP_EVENT | HP_EVENT_EN | HP_EVENT_VEC | HP_FLR_BUSY_LO | HP_FLR_BUSY_HI
  | HP_RCTX_SEL | HP_RCTX_CMD | HP_RCTX_CFG0 | HP_RCTX_BASE_LO | HP_RCTX_BASE_HI | HP_RCTX_WB_LO | HP_RCTX_WB_HI
  | HP_RCTX_CFG1 | HP_RCTX_CFG2 | HP_RCTX_IDX | HP_RCTX_STATE | HP_RCTX_CLAMP | HP_CLAMP_COUNT | HP_DROP_COUNT
  | QMG_QCTX_SEL | QMG_QCTX_CMD | QMG_QCTX_CFG0 | QMG_QCTX_BASE_LO | QMG_QCTX_BASE_HI | QMG_QCTX_CFG1 | QMG_QCTX_IDLE
  | QMG_QCTX_NOTICE | QMG_QCTX_COMMIT | QMG_QCTX_BIND | QMG_QCTX_WORDS | QMG_QCTX_ITEMS | QMG_QCTX_COUNTS
  | QMG_QCTX_STATE | QMG_CLAMP_COUNT | SPN_CLAMP_COUNT | SPN_RANK | SPN_PRESENT | SPN_ARB_CTRL | SPN_ARB_STATUS
  | SPN_ARB_WAITMAX | GTH_EVENT | GTH_EVENT_EN | GTH_EVENT_VEC | GTH_HOLD_USED | GTH_DISPATCH_LO | GTH_DISPATCH_HI
  | GTH_TIMEOUTS | GTH_VOIDS | GTH_STRAYS | GTH_PUB_FAILS | GTH_TASK_SEL | GTH_TASK_STATE | GTH_TASK_PENDING
  | GTH_TASK_LATCH | GTH_TASK_SLOT | GTH_TASK_SEQ | GTH_SIG_SEL | GTH_SIG_NEXT | GTH_SIG_ALLOC | GTH_SIG_HELD
  | GTH_CLAMP_COUNT | GTH_CLASS_READY | GTH_CLASS_FETCH | GTH_CLASS_DISP | QUI_LEAF_CTRL | QUI_LEAF_STATE
  | QUI_EXT_REJECT | QUI_CLAMP_COUNT | QUI_LSTAT | QUI_LAOV_IDX | QUI_PC | QUI_STALL | QUI_DBG_CTRL | QUI_DBG_STATUS
  | QUI_DBG_BKPT | QUI_DBG_REG_SEL | QUI_DBG_REG_DATA | DMA_EVENT | DMA_EVENT_EN | DMA_EVENT_VEC | DMA_CLAMP_COUNT
  | DMA_CH_CFG | DMA_CH_STATE | DMA_CH_BADADDR_LO | DMA_CH_BADADDR_HI | DMA_CH_BADDATA_LO | DMA_CH_BADDATA_HI
  | DMA_CH_COUNT | SPA_STATUS | SPA_EVENT | SPA_EVENT_EN | SPA_EVENT_VEC | SPA_HOST_RANK | SPA_JOBS_LO | SPA_JOBS_HI
  | SPA_SAT_COUNT | SPA_SINGULAR | SPA_NOWGT | SPA_WBUF_SEL | SPA_WBUF_STATE | SPA_WBUF_SLOT | SPA_CLAMP_COUNT
  | SPA_JQ | SPA_TILE_BUSY_LO | SPA_TILE_BUSY_HI | SPA_TILE_STALL | SPA_TILE_JOB | COD_STATUS | COD_EVENT
  | COD_EVENT_EN | COD_EVENT_VEC | COD_HOST_RANK | COD_JOBS_LO | COD_JOBS_HI | COD_TB_FAIL | COD_SOFT_LOST
  | COD_CQ_DROP | COD_HARQ_BASE | COD_HARQ_SIZE | COD_LLR_TAB_LO | COD_LLR_TAB_HI | COD_CLAMP_COUNT | COD_JQ
  | COD_GRP_BUSY_LO | COD_GRP_BUSY_HI | COD_GRP_STALL | COD_GRP_QUEUED | SPC_STATUS | SPC_EVENT | SPC_EVENT_EN
  | SPC_EVENT_VEC | SPC_HOST_RANK | SPC_JOBS_LO | SPC_JOBS_HI | SPC_SAT_COUNT | SPC_TX_UNDERRUN | SPC_TX_LATE
  | SPC_RX_GAP | SPC_DET_MISSED | SPC_DET_FALSE | SPC_DET_PREEMPT | SPC_DET_SEL | SPC_DET_STATE | SPC_CLAMP_COUNT
  | SPC_JQ | SPC_GRP_BUSY_LO | SPC_GRP_BUSY_HI | SPC_GRP_STALL | SPC_TXP_STATE | SPC_TXP_MARGIN | FH_EVENT
  | FH_EVENT_EN | FH_EVENT_VEC | FH_STF_ETYPE | FH_HOST_DROP | FH_CLAMP_COUNT | FH_PORT_CFG | FH_PORT_MAC_LO
  | FH_PORT_MAC_HI | FH_PORT_RXDLY | FH_PORT_TXDLY | FH_PORT_STATUS | FH_PORT_RXFR_LO | FH_PORT_RXFR_HI
  | FH_PORT_TXFR_LO | FH_PORT_TXFR_HI | FH_PORT_DROP0 | FH_PORT_DROP1 | FH_PORT_FEC_CORR | FH_PORT_FEC_UNCORR
  | FH_HALF_ON_TIME | FH_HALF_EARLY | FH_HALF_LATE | FH_HALF_SEQ_ERR | FH_HALF_MISSING | FH_HALF_TX_MISS
  | FH_HALF_TX_LATE | FH_HALF_CP_LATE | LN_CFG | LN_STATUS | LN_EVENT | LN_EVENT_EN | LN_TX_TAPS | LN_RX_EQ
  | LN_RX_SNR | LN_CMD | LN_TEST_CFG | LN_INJ | LN_PRBS_ERR_LO | LN_PRBS_ERR_HI | LN_PRBS_BITS_LO | LN_PRBS_BITS_HI
  | LN_PRBS_STAT | LN_LB_ERR | LN_COUNT | LN_QUAD_CFG | LN_QUAD_STATUS | LN_EVENT_VEC | LN_EVENT_SUM | LN_TRAIN_LIMIT
  | LN_RECAL_MIN | LN_CLAMP_COUNT | STF_STATUS | STF_ID | STF_EVENT | STF_EVENT_EN | STF_EVENT_VEC | STF_CTRL
  | STF_ROOT | STF_MAP_GEN | STF_ETH_GROUP_LO | STF_ETH_GROUP_HI | STF_FREEZE_LEAD | STF_TICK_TOL | STF_ETH_RTO
  | STF_TIME_OFFSET | STF_TICK_SLIP | STF_UNREACHABLE | STF_MIRROR_DISCARD | STF_MAP_SEL | STF_MAP_ENTRY
  | STF_SMAP_SEL | STF_SMAP_ENTRY | STF_CLAMP_COUNT | STF_PORT_CFG | STF_PORT_STATUS | STF_PORT_DELAY
  | STF_PORT_RETRY | STF_BIND_STATE | STF_BIND_SENT | STF_BIND_DROP | CAP_EVENT | CAP_EVENT_EN | CAP_EVENT_VEC
  | CAP_VAT_BW | CAP_SPILL_ETYPE | CAP_PRESS_LEAD | CAP_SPILL_DST_LO | CAP_SPILL_DST_HI | CAP_TRIG_CFG
  | CAP_TRIG_STAMP_LO | CAP_TRIG_STAMP_HI | CAP_CLAMP_COUNT | CAP_VAT_CFG | CAP_VAT_BASE_LO | CAP_VAT_BASE_HI
  | CAP_VAT_PRE | CAP_VAT_POST | CAP_VAT_STATUS | CAP_VAT_WPTR_LO | CAP_VAT_WPTR_HI | CAP_VAT_OLDEST_LO
  | CAP_VAT_OLDEST_HI | CAP_VAT_TRIG_LO | CAP_VAT_TRIG_HI | CAP_VAT_DROP | CAP_SPILL_CFG | CAP_SPILL_STATUS
  | CAP_SPILL_FRAMES_LO | CAP_SPILL_FRAMES_HI | CAP_PRESS_STATE | CAP_PRESS_SENT_LO | CAP_PRESS_SENT_HI
  | CAP_PRESS_LATE | CAP_PRESS_SKIP | MEM_STATUS | MEM_CFG | MEM_EVENT | MEM_EVENT_EN | MEM_EVENT_VEC | MEM_WIN_BASE
  | MEM_UE_ADDR_LO | MEM_UE_ADDR_HI | MEM_INJ_LO | MEM_INJ_HI | MEM_INJ_CMD | MEM_CLAMP_COUNT | MEM_CH_STATUS
  | MEM_CH_CE | MEM_CH_UE | MEM_CH_SCRUB | MEM_CH_TRAIN | PWR_STATUS | PWR_EVENT | PWR_EVENT_EN | PWR_EVENT_VEC
  | PWR_HIB_CTRL | PWR_HIB_TIMER_LO | PWR_HIB_TIMER_HI | PWR_HIB_CAUSE | PWR_CLAMP_COUNT | PWR_CL_CTRL
  | PWR_CL_STATUS | PWR_CL_COUNT | COL_STATUS | COL_MB_CTRL | COL_EVENT | COL_EVENT_EN | COL_EVENT_VEC
  | COL_FREEZE_CFG | COL_THERM_CFG | COL_MAINT_STATUS | COL_CLAMP_COUNT | COL_MB_REQ | COL_MB_RSP | GLB_RESET_CAUSE
  | TB_IRQ_STAMP_COUNT
  deriving DecidableEq, Repr

structure RegDef where
  id : RegId
  /-- address in BAR0 of the instance with every index 0 -/
  base : Nat
  /-- (number of instances, stride), outermost first -/
  dims : List (Nat × Nat)
  fields : List RegField
  deriving DecidableEq, Repr

/-- Base addresses of the blocks (R12). -/
def blockBase : Block → Nat
  | .glb => 0x00000000
  | .hp => 0x00100000
  | .qmg => 0x00200000
  | .spn => 0x00400000
  | .gth => 0x00500000
  | .qui => 0x00600000
  | .dma => 0x00800000
  | .spa => 0x00900000
  | .cod => 0x00A00000
  | .spc => 0x00B00000
  | .fh => 0x00C00000
  | .ln => 0x00D00000
  | .stf => 0x00E00000
  | .tb => 0x00F00000
  | .cap => 0x01000000
  | .mem => 0x01100000
  | .pwr => 0x01200000
  | .col => 0x01300000
  | .slt => 0x01400000

/-- The block whose range holds a BAR0 address; none from 0x0150_0000 upward (R12, R13). -/
def blockOf (a : Nat) : Option Block :=
  if a < 0x00100000 then some .glb
  else if a < 0x00200000 then some .hp
  else if a < 0x00400000 then some .qmg
  else if a < 0x00500000 then some .spn
  else if a < 0x00600000 then some .gth
  else if a < 0x00800000 then some .qui
  else if a < 0x00900000 then some .dma
  else if a < 0x00A00000 then some .spa
  else if a < 0x00B00000 then some .cod
  else if a < 0x00C00000 then some .spc
  else if a < 0x00D00000 then some .fh
  else if a < 0x00E00000 then some .ln
  else if a < 0x00F00000 then some .stf
  else if a < 0x01000000 then some .tb
  else if a < 0x01100000 then some .cap
  else if a < 0x01200000 then some .mem
  else if a < 0x01300000 then some .pwr
  else if a < 0x01400000 then some .col
  else if a < 0x01500000 then some .slt
  else none

/-- Registers of block GLB, part 0. -/
def regsGlb0 : List RegDef := [
  ⟨.GLB_ID, 0x00000000, [], [⟨31, 16, .ro, 38422, []⟩, ⟨15, 8, .ro, 176, []⟩]⟩,
  ⟨.GLB_SETUP_LOCK, 0x00000004, [], [⟨0, 0, .w1s, 0, []⟩]⟩,
  ⟨.GLB_STATUS, 0x00000008, [], [⟨5, 5, .ro, 0, []⟩, ⟨4, 4, .ro, 0, []⟩, ⟨3, 3, .ro, 0, []⟩, ⟨2, 2, .ro, 0, []⟩, ⟨1, 1, .ro, 0, []⟩, ⟨0, 0, .ro, 0, []⟩]⟩,
  ⟨.GLB_CLAMP_COUNT, 0x0000000C, [], [⟨31, 31, .wo, 0, []⟩, ⟨15, 0, .ro, 0, []⟩]⟩,
  ⟨.GLB_SCRATCH, 0x00000010, [], [⟨31, 0, .rw, 0, []⟩]⟩,
  ⟨.GLB_RESET_CAUSE, 0x00000014, [], [⟨5, 5, .ro, 0, []⟩, ⟨4, 4, .ro, 0, []⟩, ⟨3, 0, .ro, 0, []⟩]⟩]

def regsGlb : List RegDef := regsGlb0

/-- Registers of block HP, part 0. -/
def regsHp0 : List RegDef := [
  ⟨.HP_LINK_STATUS, 0x00100000, [], [⟨15, 15, .ro, 0, []⟩, ⟨14, 14, .ro, 0, []⟩, ⟨12, 8, .ro, 0, []⟩, ⟨3, 0, .ro, 0, []⟩]⟩,
  ⟨.HP_EVENT, 0x00100008, [], [⟨3, 3, .w1c, 0, []⟩, ⟨2, 2, .w1c, 0, []⟩, ⟨1, 1, .w1c, 0, []⟩, ⟨0, 0, .w1c, 0, []⟩]⟩,
  ⟨.HP_EVENT_EN, 0x0010000C, [], [⟨3, 3, .rw, 0, []⟩, ⟨2, 2, .rw, 0, []⟩, ⟨1, 1, .rw, 0, []⟩, ⟨0, 0, .rw, 0, []⟩]⟩,
  ⟨.HP_EVENT_VEC, 0x00100010, [], [⟨10, 0, .rw, 0, []⟩]⟩,
  ⟨.HP_FLR_BUSY_LO, 0x00100018, [], [⟨31, 0, .ro, 0, []⟩]⟩,
  ⟨.HP_FLR_BUSY_HI, 0x0010001C, [], [⟨31, 0, .ro, 0, []⟩]⟩,
  ⟨.HP_RCTX_SEL, 0x00100030, [], [⟨15, 0, .rw, 0, []⟩]⟩,
  ⟨.HP_RCTX_CMD, 0x00100034, [], [⟨31, 31, .ro, 0, []⟩, ⟨0, 0, .wo, 0, []⟩]⟩,
  ⟨.HP_RCTX_CFG0, 0x00100040, [], [⟨31, 31, .rw, 0, []⟩, ⟨30, 30, .rw, 0, []⟩, ⟨29, 24, .rw, 0, []⟩, ⟨23, 19, .rw, 6, [⟨0, 5, 6⟩, ⟨17, 31, 16⟩]⟩, ⟨18, 12, .rw, 16, [⟨0, 0, 1⟩, ⟨65, 127, 64⟩]⟩, ⟨11, 7, .rw, 0, []⟩, ⟨6, 6, .rw, 0, []⟩]⟩,
  ⟨.HP_RCTX_BASE_LO, 0x00100044, [], [⟨31, 12, .rw, 0, []⟩]⟩,
  ⟨.HP_RCTX_BASE_HI, 0x00100048, [], [⟨31, 0, .rw, 0, []⟩]⟩,
  ⟨.HP_RCTX_WB_LO, 0x0010004C, [], [⟨31, 3, .rw, 0, []⟩]⟩,
  ⟨.HP_RCTX_WB_HI, 0x00100050, [], [⟨31, 0, .rw, 0, []⟩]⟩,
  ⟨.HP_RCTX_CFG1, 0x00100054, [], [⟨31, 16, .rw, 0, []⟩, ⟨15, 8, .rw, 1, [⟨0, 0, 1⟩]⟩]⟩,
  ⟨.HP_RCTX_CFG2, 0x00100058, [], [⟨9, 0, .rw, 0, []⟩]⟩,
  ⟨.HP_RCTX_IDX, 0x0010005C, [], [⟨31, 16, .ro, 0, []⟩, ⟨15, 0, .ro, 0, []⟩]⟩,
  ⟨.HP_RCTX_STATE, 0x00100060, [], [⟨31, 31, .ro, 0, []⟩, ⟨30, 30, .ro, 1, []⟩, ⟨15, 0, .ro, 0, []⟩]⟩,
  ⟨.HP_RCTX_CLAMP, 0x00100064, [], [⟨31, 31, .wo, 0, []⟩, ⟨15, 0, .ro, 0, []⟩]⟩,
  ⟨.HP_CLAMP_COUNT, 0x001000C0, [], [⟨31, 31, .wo, 0, []⟩, ⟨15, 0, .ro, 0, []⟩]⟩,
  ⟨.HP_DROP_COUNT, 0x001000C4, [], [⟨31, 0, .ro, 0, []⟩]⟩]

def regsHp : List RegDef := regsHp0

/-- Registers of block QMG, part 0. -/
def regsQmg0 : List RegDef := [
  ⟨.QMG_QCTX_SEL, 0x00200000, [], [⟨15, 0, .rw, 0, []⟩]⟩,
  ⟨.QMG_QCTX_CMD, 0x00200004, [], [⟨31, 31, .ro, 0, []⟩, ⟨0, 0, .wo, 0, []⟩]⟩,
  ⟨.QMG_QCTX_CFG0, 0x00200010, [], [⟨31, 31, .rw, 0, []⟩, ⟨30, 29, .rw, 0, []⟩, ⟨28, 28, .rw, 0, []⟩, ⟨27, 23, .rw, 4, []⟩, ⟨22, 19, .rw, 0, []⟩]⟩,
  ⟨.QMG_QCTX_BASE_LO, 0x00200014, [], [⟨31, 0, .rw, 0, []⟩]⟩,
  ⟨.QMG_QCTX_BASE_HI, 0x00200018, [], [⟨1, 0, .rw, 0, []⟩]⟩,
  ⟨.QMG_QCTX_CFG1, 0x0020001C, [], [⟨31, 29, .rw, 0, []⟩, ⟨28, 16, .rw, 1, [⟨0, 0, 1⟩]⟩, ⟨15, 0, .rw, 0, []⟩]⟩,
  ⟨.QMG_QCTX_IDLE, 0x00200020, [], [⟨19, 0, .rw, 0, []⟩]⟩,
  ⟨.QMG_QCTX_NOTICE, 0x00200024, [], [⟨31, 31, .rw, 0, []⟩, ⟨21, 17, .rw, 0, []⟩, ⟨16, 0, .rw, 0, []⟩]⟩,
  ⟨.QMG_QCTX_COMMIT, 0x00200028, [], [⟨31, 31, .rw, 0, []⟩, ⟨21, 17, .rw, 0, []⟩, ⟨16, 0, .rw, 0, []⟩]⟩,
  ⟨.QMG_QCTX_BIND, 0x0020002C, [], [⟨31, 31, .rw, 0, []⟩, ⟨17, 16, .rw, 3, [⟨0, 0, 3⟩]⟩, ⟨15, 0, .rw, 0, []⟩]⟩,
  ⟨.QMG_QCTX_WORDS, 0x00200030, [], [⟨31, 0, .ro, 0, []⟩]⟩,
  ⟨.QMG_QCTX_ITEMS, 0x00200034, [], [⟨31, 0, .ro, 0, []⟩]⟩,
  ⟨.QMG_QCTX_COUNTS, 0x00200038, [], [⟨31, 24, .ro, 0, []⟩, ⟨23, 16, .ro, 0, []⟩, ⟨15, 8, .ro, 0, []⟩, ⟨7, 0, .ro, 0, []⟩]⟩,
  ⟨.QMG_QCTX_STATE, 0x0020003C, [], [⟨31, 31, .ro, 0, []⟩, ⟨30, 30, .ro, 0, []⟩, ⟨15, 8, .ro, 0, []⟩, ⟨7, 0, .ro, 0, []⟩]⟩,
  ⟨.QMG_CLAMP_COUNT, 0x002000C0, [], [⟨31, 31, .wo, 0, []⟩, ⟨15, 0, .ro, 0, []⟩]⟩]

def regsQmg : List RegDef := regsQmg0

/-- Registers of block SPN, part 0. -/
def regsSpn0 : List RegDef := [
  ⟨.SPN_CLAMP_COUNT, 0x004000C0, [], [⟨31, 31, .wo, 0, []⟩, ⟨15, 0, .ro, 0, []⟩]⟩,
  ⟨.SPN_RANK, 0x00400100, [(145, 0x4)], [⟨2, 0, .rw, 0, []⟩]⟩,
  ⟨.SPN_PRESENT, 0x00400800, [(5, 0x4)], [⟨31, 0, .ro, 0, []⟩]⟩,
  ⟨.SPN_ARB_CTRL, 0x00401000, [(49, 0x10)], [⟨0, 0, .rw, 0, []⟩]⟩,
  ⟨.SPN_ARB_STATUS, 0x00401004, [(49, 0x10)], [⟨31, 31, .ro, 0, []⟩, ⟨6, 0, .ro, 0, []⟩]⟩,
  ⟨.SPN_ARB_WAITMAX, 0x00401008, [(49, 0x10)], [⟨31, 31, .wo, 0, []⟩, ⟨26, 24, .ro, 0, []⟩, ⟨23, 0, .ro, 0, []⟩]⟩]

def regsSpn : List RegDef := regsSpn0

/-- Registers of block GTH, part 0. -/
def regsGth0 : List RegDef := [
  ⟨.GTH_EVENT, 0x00500008, [], [⟨3, 3, .w1c, 0, []⟩, ⟨2, 2, .w1c, 0, []⟩, ⟨1, 1, .w1c, 0, []⟩, ⟨0, 0, .w1c, 0, []⟩]⟩,
  ⟨.GTH_EVENT_EN, 0x0050000C, [], [⟨3, 3, .rw, 0, []⟩, ⟨2, 2, .rw, 0, []⟩, ⟨1, 1, .rw, 0, []⟩, ⟨0, 0, .rw, 0, []⟩]⟩,
  ⟨.GTH_EVENT_VEC, 0x00500010, [], [⟨10, 0, .rw, 0, []⟩]⟩,
  ⟨.GTH_HOLD_USED, 0x00500014, [], [⟨15, 0, .ro, 0, []⟩]⟩,
  ⟨.GTH_DISPATCH_LO, 0x00500020, [], [⟨31, 0, .ro, 0, []⟩]⟩,
  ⟨.GTH_DISPATCH_HI, 0x00500024, [], [⟨31, 0, .ro, 0, []⟩]⟩,
  ⟨.GTH_TIMEOUTS, 0x00500028, [], [⟨31, 0, .ro, 0, []⟩]⟩,
  ⟨.GTH_VOIDS, 0x0050002C, [], [⟨31, 0, .ro, 0, []⟩]⟩,
  ⟨.GTH_STRAYS, 0x00500030, [], [⟨31, 0, .ro, 0, []⟩]⟩,
  ⟨.GTH_PUB_FAILS, 0x00500034, [], [⟨31, 0, .ro, 0, []⟩]⟩,
  ⟨.GTH_TASK_SEL, 0x00500040, [], [⟨16, 0, .rw, 0, []⟩]⟩,
  ⟨.GTH_TASK_STATE, 0x00500044, [], [⟨27, 27, .ro, 0, []⟩, ⟨26, 24, .ro, 0, []⟩, ⟨23, 18, .ro, 0, []⟩, ⟨17, 16, .ro, 0, []⟩, ⟨15, 0, .ro, 0, []⟩]⟩,
  ⟨.GTH_TASK_PENDING, 0x00500048, [], [⟨31, 0, .ro, 0, []⟩]⟩,
  ⟨.GTH_TASK_LATCH, 0x0050004C, [], [⟨31, 0, .ro, 0, []⟩]⟩,
  ⟨.GTH_TASK_SLOT, 0x00500050, [], [⟨31, 0, .ro, 0, []⟩]⟩,
  ⟨.GTH_TASK_SEQ, 0x00500054, [], [⟨31, 0, .ro, 0, []⟩]⟩,
  ⟨.GTH_SIG_SEL, 0x00500060, [], [⟨13, 0, .rw, 0, []⟩]⟩,
  ⟨.GTH_SIG_NEXT, 0x00500064, [], [⟨31, 0, .ro, 0, []⟩]⟩,
  ⟨.GTH_SIG_ALLOC, 0x00500068, [], [⟨31, 0, .ro, 0, []⟩]⟩,
  ⟨.GTH_SIG_HELD, 0x0050006C, [], [⟨31, 0, .ro, 0, []⟩]⟩]

/-- Registers of block GTH, part 1. -/
def regsGth1 : List RegDef := [
  ⟨.GTH_CLAMP_COUNT, 0x005000C0, [], [⟨31, 31, .wo, 0, []⟩, ⟨15, 0, .ro, 0, []⟩]⟩,
  ⟨.GTH_CLASS_READY, 0x00501000, [(64, 0x10)], [⟨17, 0, .ro, 0, []⟩]⟩,
  ⟨.GTH_CLASS_FETCH, 0x00501004, [(64, 0x10)], [⟨7, 0, .ro, 0, []⟩]⟩,
  ⟨.GTH_CLASS_DISP, 0x00501008, [(64, 0x10)], [⟨31, 0, .ro, 0, []⟩]⟩]

def regsGth : List RegDef := regsGth0 ++ regsGth1

/-- Registers of block QUI, part 0. -/
def regsQui0 : List RegDef := [
  ⟨.QUI_LEAF_CTRL, 0x00600000, [(24, 0x10000)], [⟨7, 0, .rw, 255, []⟩]⟩,
  ⟨.QUI_LEAF_STATE, 0x00600004, [(24, 0x10000)], [⟨31, 0, .ro, 0, []⟩]⟩,
  ⟨.QUI_EXT_REJECT, 0x00600008, [(24, 0x10000)], [⟨31, 0, .ro, 0, []⟩]⟩,
  ⟨.QUI_CLAMP_COUNT, 0x006000C0, [(24, 0x10000)], [⟨31, 31, .wo, 0, []⟩, ⟨15, 0, .ro, 0, []⟩]⟩,
  ⟨.QUI_LSTAT, 0x00600100, [(24, 0x10000), (8, 0x20)], [⟨31, 0, .ro, 0, []⟩]⟩,
  ⟨.QUI_LAOV_IDX, 0x00600104, [(24, 0x10000), (8, 0x20)], [⟨31, 0, .ro, 0, []⟩]⟩,
  ⟨.QUI_PC, 0x00600108, [(24, 0x10000), (8, 0x20)], [⟨12, 0, .ro, 0, []⟩]⟩,
  ⟨.QUI_STALL, 0x0060010C, [(24, 0x10000), (8, 0x20)], [⟨31, 0, .ro, 0, []⟩]⟩,
  ⟨.QUI_DBG_CTRL, 0x00608000, [(24, 0x10000), (8, 0x1000)], [⟨2, 2, .wo, 0, []⟩, ⟨1, 1, .wo, 0, []⟩, ⟨0, 0, .wo, 0, []⟩]⟩,
  ⟨.QUI_DBG_STATUS, 0x00608004, [(24, 0x10000), (8, 0x1000)], [⟨11, 11, .ro, 0, []⟩, ⟨10, 8, .ro, 0, []⟩, ⟨4, 4, .ro, 0, []⟩, ⟨3, 1, .ro, 0, []⟩, ⟨0, 0, .ro, 0, []⟩]⟩,
  ⟨.QUI_DBG_BKPT, 0x00608010, [(24, 0x10000), (8, 0x1000), (4, 0x4)], [⟨31, 31, .rw, 0, []⟩, ⟨12, 0, .rw, 0, []⟩]⟩,
  ⟨.QUI_DBG_REG_SEL, 0x00608020, [(24, 0x10000), (8, 0x1000)], [⟨14, 8, .rw, 0, [⟨87, 127, 86⟩]⟩, ⟨4, 0, .rw, 0, []⟩]⟩,
  ⟨.QUI_DBG_REG_DATA, 0x00608024, [(24, 0x10000), (8, 0x1000)], [⟨31, 0, .rw, 0, []⟩]⟩]

def regsQui : List RegDef := regsQui0

/-- Registers of block DMA, part 0. -/
def regsDma0 : List RegDef := [
  ⟨.DMA_EVENT, 0x00800008, [], [⟨3, 3, .w1c, 0, []⟩, ⟨2, 2, .w1c, 0, []⟩, ⟨1, 1, .w1c, 0, []⟩, ⟨0, 0, .w1c, 0, []⟩]⟩,
  ⟨.DMA_EVENT_EN, 0x0080000C, [], [⟨3, 3, .rw, 0, []⟩, ⟨2, 2, .rw, 0, []⟩, ⟨1, 1, .rw, 0, []⟩, ⟨0, 0, .rw, 0, []⟩]⟩,
  ⟨.DMA_EVENT_VEC, 0x00800010, [], [⟨10, 0, .rw, 0, []⟩]⟩,
  ⟨.DMA_CLAMP_COUNT, 0x008000C0, [], [⟨31, 31, .wo, 0, []⟩, ⟨15, 0, .ro, 0, []⟩]⟩,
  ⟨.DMA_CH_CFG, 0x00810000, [(1024, 0x20)], [⟨31, 31, .rw, 0, []⟩, ⟨29, 24, .rw, 0, []⟩, ⟨15, 0, .rw, 0, []⟩]⟩,
  ⟨.DMA_CH_STATE, 0x00810004, [(1024, 0x20)], [⟨27, 16, .ro, 0, []⟩, ⟨13, 13, .ro, 0, []⟩, ⟨12, 8, .ro, 0, []⟩, ⟨2, 0, .ro, 0, []⟩]⟩,
  ⟨.DMA_CH_BADADDR_LO, 0x00810008, [(1024, 0x20)], [⟨31, 0, .ro, 0, []⟩]⟩,
  ⟨.DMA_CH_BADADDR_HI, 0x0081000C, [(1024, 0x20)], [⟨31, 0, .ro, 0, []⟩]⟩,
  ⟨.DMA_CH_BADDATA_LO, 0x00810010, [(1024, 0x20)], [⟨31, 0, .ro, 0, []⟩]⟩,
  ⟨.DMA_CH_BADDATA_HI, 0x00810014, [(1024, 0x20)], [⟨31, 0, .ro, 0, []⟩]⟩,
  ⟨.DMA_CH_COUNT, 0x00810018, [(1024, 0x20)], [⟨31, 16, .ro, 0, []⟩, ⟨15, 0, .ro, 0, []⟩]⟩]

def regsDma : List RegDef := regsDma0

/-- Registers of block SPA, part 0. -/
def regsSpa0 : List RegDef := [
  ⟨.SPA_STATUS, 0x00900000, [], [⟨22, 16, .ro, 0, []⟩, ⟨15, 12, .ro, 0, []⟩, ⟨8, 8, .ro, 0, []⟩, ⟨3, 3, .ro, 1, []⟩, ⟨2, 0, .ro, 7, []⟩]⟩,
  ⟨.SPA_EVENT, 0x00900008, [], [⟨3, 3, .w1c, 0, []⟩, ⟨2, 2, .w1c, 0, []⟩, ⟨1, 1, .w1c, 0, []⟩, ⟨0, 0, .w1c, 0, []⟩]⟩,
  ⟨.SPA_EVENT_EN, 0x0090000C, [], [⟨3, 3, .rw, 0, []⟩, ⟨2, 2, .rw, 0, []⟩, ⟨1, 1, .rw, 0, []⟩, ⟨0, 0, .rw, 0, []⟩]⟩,
  ⟨.SPA_EVENT_VEC, 0x00900010, [], [⟨10, 0, .rw, 0, []⟩]⟩,
  ⟨.SPA_HOST_RANK, 0x00900014, [], [⟨2, 0, .rw, 4, []⟩]⟩,
  ⟨.SPA_JOBS_LO, 0x00900020, [], [⟨31, 0, .ro, 0, []⟩]⟩,
  ⟨.SPA_JOBS_HI, 0x00900024, [], [⟨31, 0, .ro, 0, []⟩]⟩,
  ⟨.SPA_SAT_COUNT, 0x00900028, [], [⟨31, 0, .ro, 0, []⟩]⟩,
  ⟨.SPA_SINGULAR, 0x0090002C, [], [⟨31, 0, .ro, 0, []⟩]⟩,
  ⟨.SPA_NOWGT, 0x00900030, [], [⟨31, 0, .ro, 0, []⟩]⟩,
  ⟨.SPA_WBUF_SEL, 0x00900040, [], [⟨10, 9, .rw, 1, [⟨0, 0, 1⟩, ⟨3, 3, 1⟩]⟩, ⟨8, 0, .rw, 0, []⟩]⟩,
  ⟨.SPA_WBUF_STATE, 0x00900044, [], [⟨7, 0, .ro, 0, []⟩]⟩,
  ⟨.SPA_WBUF_SLOT, 0x00900048, [(4, 0x4)], [⟨31, 0, .ro, 0, []⟩]⟩,
  ⟨.SPA_CLAMP_COUNT, 0x009000C0, [], [⟨31, 31, .wo, 0, []⟩, ⟨15, 0, .ro, 0, []⟩]⟩,
  ⟨.SPA_JQ, 0x00900100, [(8, 0x4)], [⟨31, 31, .rw, 0, []⟩, ⟨18, 16, .rw, 4, []⟩, ⟨15, 0, .rw, 0, []⟩]⟩,
  ⟨.SPA_TILE_BUSY_LO, 0x00900200, [(12, 0x10)], [⟨31, 0, .ro, 0, []⟩]⟩,
  ⟨.SPA_TILE_BUSY_HI, 0x00900204, [(12, 0x10)], [⟨31, 0, .ro, 0, []⟩]⟩,
  ⟨.SPA_TILE_STALL, 0x00900208, [(12, 0x10)], [⟨31, 0, .ro, 0, []⟩]⟩,
  ⟨.SPA_TILE_JOB, 0x0090020C, [(12, 0x10)], [⟨19, 18, .ro, 0, []⟩, ⟨17, 16, .ro, 0, []⟩, ⟨15, 0, .ro, 65535, []⟩]⟩]

def regsSpa : List RegDef := regsSpa0

/-- Registers of block COD, part 0. -/
def regsCod0 : List RegDef := [
  ⟨.COD_STATUS, 0x00A00000, [], [⟨23, 16, .ro, 0, []⟩, ⟨8, 8, .ro, 0, []⟩, ⟨4, 4, .ro, 1, []⟩, ⟨3, 0, .ro, 15, []⟩]⟩,
  ⟨.COD_EVENT, 0x00A00008, [], [⟨4, 4, .w1c, 0, []⟩, ⟨3, 3, .w1c, 0, []⟩, ⟨2, 2, .w1c, 0, []⟩, ⟨1, 1, .w1c, 0, []⟩, ⟨0, 0, .w1c, 0, []⟩]⟩,
  ⟨.COD_EVENT_EN, 0x00A0000C, [], [⟨4, 4, .rw, 0, []⟩, ⟨3, 3, .rw, 0, []⟩, ⟨2, 2, .rw, 0, []⟩, ⟨1, 1, .rw, 0, []⟩, ⟨0, 0, .rw, 0, []⟩]⟩,
  ⟨.COD_EVENT_VEC, 0x00A00010, [], [⟨10, 0, .rw, 0, []⟩]⟩,
  ⟨.COD_HOST_RANK, 0x00A00014, [], [⟨2, 0, .rw, 4, []⟩]⟩,
  ⟨.COD_JOBS_LO, 0x00A00020, [], [⟨31, 0, .ro, 0, []⟩]⟩,
  ⟨.COD_JOBS_HI, 0x00A00024, [], [⟨31, 0, .ro, 0, []⟩]⟩,
  ⟨.COD_TB_FAIL, 0x00A00028, [], [⟨31, 0, .ro, 0, []⟩]⟩,
  ⟨.COD_SOFT_LOST, 0x00A0002C, [], [⟨31, 0, .ro, 0, []⟩]⟩,
  ⟨.COD_CQ_DROP, 0x00A00030, [], [⟨31, 0, .ro, 0, []⟩]⟩,
  ⟨.COD_HARQ_BASE, 0x00A00040, [], [⟨8, 0, .rw, 0, []⟩]⟩,
  ⟨.COD_HARQ_SIZE, 0x00A00044, [], [⟨6, 0, .rw, 0, [⟨97, 127, 96⟩]⟩]⟩,
  ⟨.COD_LLR_TAB_LO, 0x00A00048, [], [⟨31, 24, .rwl, 8, []⟩, ⟨23, 16, .rwl, 4, []⟩, ⟨15, 8, .rwl, 2, []⟩, ⟨7, 0, .ro, 0, []⟩]⟩,
  ⟨.COD_LLR_TAB_HI, 0x00A0004C, [], [⟨31, 24, .rwl, 112, []⟩, ⟨23, 16, .rwl, 64, []⟩, ⟨15, 8, .rwl, 32, []⟩, ⟨7, 0, .rwl, 16, []⟩]⟩,
  ⟨.COD_CLAMP_COUNT, 0x00A000C0, [], [⟨31, 31, .wo, 0, []⟩, ⟨15, 0, .ro, 0, []⟩]⟩,
  ⟨.COD_JQ, 0x00A00100, [(8, 0x4)], [⟨31, 31, .rw, 0, []⟩, ⟨18, 16, .rw, 4, []⟩, ⟨15, 0, .rw, 0, []⟩]⟩,
  ⟨.COD_GRP_BUSY_LO, 0x00A00200, [(4, 0x10)], [⟨31, 0, .ro, 0, []⟩]⟩,
  ⟨.COD_GRP_BUSY_HI, 0x00A00204, [(4, 0x10)], [⟨31, 0, .ro, 0, []⟩]⟩,
  ⟨.COD_GRP_STALL, 0x00A00208, [(4, 0x10)], [⟨31, 0, .ro, 0, []⟩]⟩,
  ⟨.COD_GRP_QUEUED, 0x00A0020C, [(4, 0x10)], [⟨15, 0, .ro, 0, []⟩]⟩]

def regsCod : List RegDef := regsCod0

/-- Registers of block SPC, part 0. -/
def regsSpc0 : List RegDef := [
  ⟨.SPC_STATUS, 0x00B00000, [], [⟨22, 16, .ro, 0, []⟩, ⟨8, 8, .ro, 0, []⟩, ⟨5, 5, .ro, 1, []⟩, ⟨4, 0, .ro, 31, []⟩]⟩,
  ⟨.SPC_EVENT, 0x00B00008, [], [⟨7, 7, .w1c, 0, []⟩, ⟨6, 6, .w1c, 0, []⟩, ⟨5, 5, .w1c, 0, []⟩, ⟨4, 4, .w1c, 0, []⟩, ⟨3, 3, .w1c, 0, []⟩, ⟨2, 2, .w1c, 0, []⟩, ⟨1, 1, .w1c, 0, []⟩, ⟨0, 0, .w1c, 0, []⟩]⟩,
  ⟨.SPC_EVENT_EN, 0x00B0000C, [], [⟨7, 7, .rw, 0, []⟩, ⟨6, 6, .rw, 0, []⟩, ⟨5, 5, .rw, 0, []⟩, ⟨4, 4, .rw, 0, []⟩, ⟨3, 3, .rw, 0, []⟩, ⟨2, 2, .rw, 0, []⟩, ⟨1, 1, .rw, 0, []⟩, ⟨0, 0, .rw, 0, []⟩]⟩,
  ⟨.SPC_EVENT_VEC, 0x00B00010, [], [⟨10, 0, .rw, 0, []⟩]⟩,
  ⟨.SPC_HOST_RANK, 0x00B00014, [], [⟨2, 0, .rw, 4, []⟩]⟩,
  ⟨.SPC_JOBS_LO, 0x00B00020, [], [⟨31, 0, .ro, 0, []⟩]⟩,
  ⟨.SPC_JOBS_HI, 0x00B00024, [], [⟨31, 0, .ro, 0, []⟩]⟩,
  ⟨.SPC_SAT_COUNT, 0x00B00028, [], [⟨31, 0, .ro, 0, []⟩]⟩,
  ⟨.SPC_TX_UNDERRUN, 0x00B0002C, [], [⟨31, 0, .ro, 0, []⟩]⟩,
  ⟨.SPC_TX_LATE, 0x00B00030, [], [⟨31, 0, .ro, 0, []⟩]⟩,
  ⟨.SPC_RX_GAP, 0x00B00034, [], [⟨31, 0, .ro, 0, []⟩]⟩,
  ⟨.SPC_DET_MISSED, 0x00B00038, [], [⟨31, 0, .ro, 0, []⟩]⟩,
  ⟨.SPC_DET_FALSE, 0x00B0003C, [], [⟨31, 0, .ro, 0, []⟩]⟩,
  ⟨.SPC_DET_PREEMPT, 0x00B00040, [], [⟨31, 0, .ro, 0, []⟩]⟩,
  ⟨.SPC_DET_SEL, 0x00B00050, [], [⟨8, 0, .rw, 0, []⟩]⟩,
  ⟨.SPC_DET_STATE, 0x00B00054, [], [⟨21, 13, .ro, 0, []⟩, ⟨12, 12, .ro, 0, []⟩, ⟨5, 4, .ro, 0, []⟩, ⟨3, 2, .ro, 0, []⟩, ⟨1, 0, .ro, 0, []⟩]⟩,
  ⟨.SPC_CLAMP_COUNT, 0x00B000C0, [], [⟨31, 31, .wo, 0, []⟩, ⟨15, 0, .ro, 0, []⟩]⟩,
  ⟨.SPC_JQ, 0x00B00100, [(8, 0x4)], [⟨31, 31, .rw, 0, []⟩, ⟨18, 16, .rw, 4, []⟩, ⟨15, 0, .rw, 0, []⟩]⟩,
  ⟨.SPC_GRP_BUSY_LO, 0x00B00200, [(5, 0x10)], [⟨31, 0, .ro, 0, []⟩]⟩,
  ⟨.SPC_GRP_BUSY_HI, 0x00B00204, [(5, 0x10)], [⟨31, 0, .ro, 0, []⟩]⟩]

/-- Registers of block SPC, part 1. -/
def regsSpc1 : List RegDef := [
  ⟨.SPC_GRP_STALL, 0x00B00208, [(5, 0x10)], [⟨31, 0, .ro, 0, []⟩]⟩,
  ⟨.SPC_TXP_STATE, 0x00B01000, [(512, 0x8)], [⟨31, 24, .ro, 0, []⟩, ⟨23, 16, .ro, 0, []⟩, ⟨1, 0, .ro, 0, []⟩]⟩,
  ⟨.SPC_TXP_MARGIN, 0x00B01004, [(512, 0x8)], [⟨31, 16, .ro, 0, []⟩]⟩]

def regsSpc : List RegDef := regsSpc0 ++ regsSpc1

/-- Registers of block FH, part 0. -/
def regsFh0 : List RegDef := [
  ⟨.FH_EVENT, 0x00C00008, [], [⟨5, 5, .w1c, 0, []⟩, ⟨4, 4, .w1c, 0, []⟩, ⟨3, 3, .w1c, 0, []⟩, ⟨2, 2, .w1c, 0, []⟩, ⟨1, 1, .w1c, 0, []⟩, ⟨0, 0, .w1c, 0, []⟩]⟩,
  ⟨.FH_EVENT_EN, 0x00C0000C, [], [⟨5, 5, .rw, 0, []⟩, ⟨4, 4, .rw, 0, []⟩, ⟨3, 3, .rw, 0, []⟩, ⟨2, 2, .rw, 0, []⟩, ⟨1, 1, .rw, 0, []⟩, ⟨0, 0, .rw, 0, []⟩]⟩,
  ⟨.FH_EVENT_VEC, 0x00C00010, [], [⟨10, 0, .rw, 0, []⟩]⟩,
  ⟨.FH_STF_ETYPE, 0x00C00014, [], [⟨15, 0, .rwl, 34997, []⟩]⟩,
  ⟨.FH_HOST_DROP, 0x00C00018, [], [⟨31, 0, .ro, 0, []⟩]⟩,
  ⟨.FH_CLAMP_COUNT, 0x00C000C0, [], [⟨31, 31, .wo, 0, []⟩, ⟨15, 0, .ro, 0, []⟩]⟩,
  ⟨.FH_PORT_CFG, 0x00C10000, [(96, 0x40)], [⟨31, 31, .rw, 0, []⟩, ⟨27, 24, .rw, 0, []⟩, ⟨23, 23, .rw, 0, []⟩, ⟨22, 22, .rw, 0, []⟩, ⟨21, 21, .rw, 0, []⟩, ⟨13, 0, .rw, 1518, [⟨0, 63, 64⟩, ⟨9729, 16383, 9728⟩]⟩]⟩,
  ⟨.FH_PORT_MAC_LO, 0x00C10004, [(96, 0x40)], [⟨31, 0, .rw, 0, []⟩]⟩,
  ⟨.FH_PORT_MAC_HI, 0x00C10008, [(96, 0x40)], [⟨15, 0, .rw, 0, []⟩]⟩,
  ⟨.FH_PORT_RXDLY, 0x00C1000C, [(96, 0x40)], [⟨31, 0, .rw, 0, []⟩]⟩,
  ⟨.FH_PORT_TXDLY, 0x00C10010, [(96, 0x40)], [⟨31, 0, .rw, 0, []⟩]⟩,
  ⟨.FH_PORT_STATUS, 0x00C10014, [(96, 0x40)], [⟨31, 31, .ro, 0, []⟩, ⟨30, 30, .ro, 0, []⟩, ⟨7, 7, .ro, 0, []⟩, ⟨6, 0, .ro, 0, []⟩]⟩,
  ⟨.FH_PORT_RXFR_LO, 0x00C10018, [(96, 0x40)], [⟨31, 0, .ro, 0, []⟩]⟩,
  ⟨.FH_PORT_RXFR_HI, 0x00C1001C, [(96, 0x40)], [⟨31, 0, .ro, 0, []⟩]⟩,
  ⟨.FH_PORT_TXFR_LO, 0x00C10020, [(96, 0x40)], [⟨31, 0, .ro, 0, []⟩]⟩,
  ⟨.FH_PORT_TXFR_HI, 0x00C10024, [(96, 0x40)], [⟨31, 0, .ro, 0, []⟩]⟩,
  ⟨.FH_PORT_DROP0, 0x00C10028, [(96, 0x40)], [⟨31, 16, .ro, 0, []⟩, ⟨15, 0, .ro, 0, []⟩]⟩,
  ⟨.FH_PORT_DROP1, 0x00C1002C, [(96, 0x40)], [⟨31, 16, .ro, 0, []⟩, ⟨15, 0, .ro, 0, []⟩]⟩,
  ⟨.FH_PORT_FEC_CORR, 0x00C10030, [(96, 0x40)], [⟨31, 0, .ro, 0, []⟩]⟩,
  ⟨.FH_PORT_FEC_UNCORR, 0x00C10034, [(96, 0x40)], [⟨31, 0, .ro, 0, []⟩]⟩]

/-- Registers of block FH, part 1. -/
def regsFh1 : List RegDef := [
  ⟨.FH_HALF_ON_TIME, 0x00C40000, [(512, 0x40), (2, 0x20)], [⟨31, 0, .ro, 0, []⟩]⟩,
  ⟨.FH_HALF_EARLY, 0x00C40004, [(512, 0x40), (2, 0x20)], [⟨31, 0, .ro, 0, []⟩]⟩,
  ⟨.FH_HALF_LATE, 0x00C40008, [(512, 0x40), (2, 0x20)], [⟨31, 0, .ro, 0, []⟩]⟩,
  ⟨.FH_HALF_SEQ_ERR, 0x00C4000C, [(512, 0x40), (2, 0x20)], [⟨31, 0, .ro, 0, []⟩]⟩,
  ⟨.FH_HALF_MISSING, 0x00C40010, [(512, 0x40), (2, 0x20)], [⟨31, 0, .ro, 0, []⟩]⟩,
  ⟨.FH_HALF_TX_MISS, 0x00C40014, [(512, 0x40), (2, 0x20)], [⟨31, 0, .ro, 0, []⟩]⟩,
  ⟨.FH_HALF_TX_LATE, 0x00C40018, [(512, 0x40), (2, 0x20)], [⟨31, 0, .ro, 0, []⟩]⟩,
  ⟨.FH_HALF_CP_LATE, 0x00C4001C, [(512, 0x40), (2, 0x20)], [⟨31, 0, .ro, 0, []⟩]⟩]

def regsFh : List RegDef := regsFh0 ++ regsFh1

/-- Registers of block LN, part 0. -/
def regsLn0 : List RegDef := [
  ⟨.LN_CFG, 0x00D00000, [(96, 0x1000)], [⟨31, 31, .rw, 0, []⟩, ⟨27, 24, .rw, 0, [⟨5, 15, 0⟩]⟩, ⟨23, 23, .rw, 0, []⟩, ⟨22, 22, .rw, 0, []⟩]⟩,
  ⟨.LN_STATUS, 0x00D00004, [(96, 0x1000)], [⟨31, 31, .ro, 0, []⟩, ⟨30, 30, .ro, 0, []⟩, ⟨29, 29, .ro, 0, []⟩, ⟨28, 28, .ro, 0, []⟩, ⟨27, 24, .ro, 0, []⟩, ⟨23, 22, .ro, 0, []⟩, ⟨21, 19, .ro, 0, []⟩, ⟨18, 15, .ro, 1, []⟩]⟩,
  ⟨.LN_EVENT, 0x00D00008, [(96, 0x1000)], [⟨8, 8, .w1c, 0, []⟩, ⟨7, 7, .w1c, 0, []⟩, ⟨6, 6, .w1c, 0, []⟩, ⟨5, 5, .w1c, 0, []⟩, ⟨4, 4, .w1c, 0, []⟩, ⟨3, 3, .w1c, 0, []⟩, ⟨2, 2, .w1c, 0, []⟩, ⟨1, 1, .w1c, 0, []⟩, ⟨0, 0, .w1c, 0, []⟩]⟩,
  ⟨.LN_EVENT_EN, 0x00D0000C, [(96, 0x1000)], [⟨8, 8, .rw, 0, []⟩, ⟨7, 7, .rw, 0, []⟩, ⟨6, 6, .rw, 0, []⟩, ⟨5, 5, .rw, 0, []⟩, ⟨4, 4, .rw, 0, []⟩, ⟨3, 3, .rw, 0, []⟩, ⟨2, 2, .rw, 0, []⟩, ⟨1, 1, .rw, 0, []⟩, ⟨0, 0, .rw, 0, []⟩]⟩,
  ⟨.LN_TX_TAPS, 0x00D00010, [(96, 0x1000)], [⟨31, 25, .ro, 64, []⟩, ⟨24, 20, .rw, 0, [⟨17, 31, 16⟩]⟩, ⟨19, 15, .rw, 0, [⟨25, 31, 24⟩]⟩, ⟨14, 11, .rw, 0, [⟨13, 15, 12⟩]⟩, ⟨10, 8, .rw, 0, [⟨7, 7, 6⟩]⟩]⟩,
  ⟨.LN_RX_EQ, 0x00D00014, [(96, 0x1000)], [⟨4, 0, .ro, 0, []⟩]⟩,
  ⟨.LN_RX_SNR, 0x00D00018, [(96, 0x1000)], [⟨15, 0, .ro, 0, []⟩]⟩,
  ⟨.LN_CMD, 0x00D0001C, [(96, 0x1000)], [⟨0, 0, .wo, 0, []⟩]⟩,
  ⟨.LN_TEST_CFG, 0x00D00020, [(96, 0x1000)], [⟨31, 31, .rw, 0, []⟩, ⟨30, 30, .rw, 0, []⟩, ⟨29, 29, .rw, 0, []⟩, ⟨28, 28, .rw, 0, []⟩, ⟨27, 24, .rw, 5, [⟨8, 15, 5⟩]⟩, ⟨23, 21, .rw, 2, [⟨0, 0, 2⟩]⟩]⟩,
  ⟨.LN_INJ, 0x00D00024, [(96, 0x1000)], [⟨31, 31, .wo, 0, []⟩, ⟨4, 0, .rw, 0, [⟨1, 9, 10⟩]⟩]⟩,
  ⟨.LN_PRBS_ERR_LO, 0x00D00028, [(96, 0x1000)], [⟨31, 0, .ro, 0, []⟩]⟩,
  ⟨.LN_PRBS_ERR_HI, 0x00D0002C, [(96, 0x1000)], [⟨31, 0, .ro, 0, []⟩]⟩,
  ⟨.LN_PRBS_BITS_LO, 0x00D00030, [(96, 0x1000)], [⟨31, 0, .ro, 0, []⟩]⟩,
  ⟨.LN_PRBS_BITS_HI, 0x00D00034, [(96, 0x1000)], [⟨31, 0, .ro, 0, []⟩]⟩,
  ⟨.LN_PRBS_STAT, 0x00D00038, [(96, 0x1000)], [⟨31, 31, .ro, 0, []⟩, ⟨30, 30, .ro, 0, []⟩, ⟨15, 0, .ro, 0, []⟩]⟩,
  ⟨.LN_LB_ERR, 0x00D0003C, [(96, 0x1000)], [⟨31, 16, .ro, 0, []⟩, ⟨15, 0, .ro, 0, []⟩]⟩,
  ⟨.LN_COUNT, 0x00D00040, [(96, 0x1000)], [⟨31, 24, .ro, 0, []⟩, ⟨23, 16, .ro, 0, []⟩, ⟨15, 8, .ro, 0, []⟩, ⟨7, 0, .ro, 0, []⟩]⟩,
  ⟨.LN_QUAD_CFG, 0x00D00400, [(24, 0x4000)], [⟨0, 0, .rw, 0, []⟩]⟩,
  ⟨.LN_QUAD_STATUS, 0x00D00404, [(24, 0x4000)], [⟨2, 2, .ro, 0, []⟩, ⟨1, 1, .ro, 0, []⟩, ⟨0, 0, .ro, 0, []⟩]⟩,
  ⟨.LN_EVENT_VEC, 0x00D00800, [], [⟨10, 0, .rw, 0, []⟩]⟩]

/-- Registers of block LN, part 1. -/
def regsLn1 : List RegDef := [
  ⟨.LN_EVENT_SUM, 0x00D00804, [(3, 0x4)], [⟨31, 0, .ro, 0, []⟩]⟩,
  ⟨.LN_TRAIN_LIMIT, 0x00D00810, [], [⟨13, 0, .rw, 3000, [⟨0, 99, 100⟩, ⟨10001, 16383, 10000⟩]⟩]⟩,
  ⟨.LN_RECAL_MIN, 0x00D00814, [], [⟨10, 0, .rw, 10, [⟨1441, 2047, 1440⟩]⟩]⟩,
  ⟨.LN_CLAMP_COUNT, 0x00D008C0, [], [⟨31, 31, .wo, 0, []⟩, ⟨15, 0, .ro, 0, []⟩]⟩]

def regsLn : List RegDef := regsLn0 ++ regsLn1

/-- Registers of block STF, part 0. -/
def regsStf0 : List RegDef := [
  ⟨.STF_STATUS, 0x00E00000, [], [⟨31, 31, .ro, 0, []⟩, ⟨30, 30, .ro, 0, []⟩, ⟨29, 29, .ro, 0, []⟩, ⟨28, 28, .ro, 0, []⟩, ⟨27, 26, .ro, 0, []⟩, ⟨25, 22, .ro, 0, []⟩]⟩,
  ⟨.STF_ID, 0x00E00004, [], [⟨31, 31, .rw, 0, []⟩, ⟨17, 9, .rw, 0, []⟩, ⟨8, 0, .rw, 0, []⟩]⟩,
  ⟨.STF_EVENT, 0x00E00008, [], [⟨11, 11, .w1c, 0, []⟩, ⟨10, 10, .w1c, 0, []⟩, ⟨9, 9, .w1c, 0, []⟩, ⟨8, 8, .w1c, 0, []⟩, ⟨7, 7, .w1c, 0, []⟩, ⟨6, 6, .w1c, 0, []⟩, ⟨5, 5, .w1c, 0, []⟩, ⟨4, 4, .w1c, 0, []⟩, ⟨3, 3, .w1c, 0, []⟩, ⟨2, 2, .w1c, 0, []⟩, ⟨1, 1, .w1c, 0, []⟩, ⟨0, 0, .w1c, 0, []⟩]⟩,
  ⟨.STF_EVENT_EN, 0x00E0000C, [], [⟨11, 11, .rw, 0, []⟩, ⟨10, 10, .rw, 0, []⟩, ⟨9, 9, .rw, 0, []⟩, ⟨8, 8, .rw, 0, []⟩, ⟨7, 7, .rw, 0, []⟩, ⟨6, 6, .rw, 0, []⟩, ⟨5, 5, .rw, 0, []⟩, ⟨4, 4, .rw, 0, []⟩, ⟨3, 3, .rw, 0, []⟩, ⟨2, 2, .rw, 0, []⟩, ⟨1, 1, .rw, 0, []⟩, ⟨0, 0, .rw, 0, []⟩]⟩,
  ⟨.STF_EVENT_VEC, 0x00E00010, [], [⟨10, 0, .rw, 0, []⟩]⟩,
  ⟨.STF_CTRL, 0x00E00014, [], [⟨31, 31, .rw, 0, []⟩, ⟨30, 30, .rw, 0, []⟩, ⟨29, 23, .rw, 0, [⟨96, 127, 95⟩]⟩]⟩,
  ⟨.STF_ROOT, 0x00E00018, [], [⟨31, 23, .ro, 0, []⟩, ⟨22, 18, .ro, 0, []⟩, ⟨17, 0, .ro, 0, []⟩]⟩,
  ⟨.STF_MAP_GEN, 0x00E0001C, [], [⟨31, 16, .ro, 0, []⟩, ⟨15, 0, .ro, 0, []⟩]⟩,
  ⟨.STF_ETH_GROUP_LO, 0x00E00020, [], [⟨31, 0, .rwl, 34997, []⟩]⟩,
  ⟨.STF_ETH_GROUP_HI, 0x00E00024, [], [⟨15, 0, .rwl, 768, []⟩]⟩,
  ⟨.STF_FREEZE_LEAD, 0x00E00028, [], [⟨16, 0, .rw, 500, [⟨0, 19, 20⟩, ⟨100001, 131071, 100000⟩]⟩]⟩,
  ⟨.STF_TICK_TOL, 0x00E0002C, [], [⟨7, 0, .rw, 10, [⟨0, 0, 1⟩]⟩]⟩,
  ⟨.STF_ETH_RTO, 0x00E00030, [], [⟨9, 0, .rw, 100, [⟨0, 9, 10⟩]⟩]⟩,
  ⟨.STF_TIME_OFFSET, 0x00E00034, [], [⟨31, 0, .ro, 0, []⟩]⟩,
  ⟨.STF_TICK_SLIP, 0x00E00038, [], [⟨31, 0, .ro, 0, []⟩]⟩,
  ⟨.STF_UNREACHABLE, 0x00E0003C, [], [⟨31, 0, .ro, 0, []⟩]⟩,
  ⟨.STF_MIRROR_DISCARD, 0x00E00040, [], [⟨31, 0, .ro, 0, []⟩]⟩,
  ⟨.STF_MAP_SEL, 0x00E00044, [], [⟨8, 0, .rw, 0, []⟩]⟩,
  ⟨.STF_MAP_ENTRY, 0x00E00048, [], [⟨31, 31, .ro, 0, []⟩, ⟨30, 30, .ro, 0, []⟩, ⟨29, 25, .ro, 0, []⟩, ⟨24, 21, .ro, 15, []⟩]⟩,
  ⟨.STF_SMAP_SEL, 0x00E0004C, [], [⟨8, 0, .rw, 0, []⟩]⟩]

/-- Registers of block STF, part 1. -/
def regsStf1 : List RegDef := [
  ⟨.STF_SMAP_ENTRY, 0x00E00050, [], [⟨31, 31, .ro, 0, []⟩, ⟨30, 30, .ro, 0, []⟩, ⟨8, 0, .ro, 0, []⟩]⟩,
  ⟨.STF_CLAMP_COUNT, 0x00E000C0, [], [⟨31, 31, .wo, 0, []⟩, ⟨15, 0, .ro, 0, []⟩]⟩,
  ⟨.STF_PORT_CFG, 0x00E01000, [(12, 0x40)], [⟨31, 31, .rw, 0, []⟩, ⟨27, 26, .rw, 0, []⟩, ⟨25, 25, .rw, 0, []⟩, ⟨6, 0, .rw, 0, [⟨96, 127, 88⟩]⟩]⟩,
  ⟨.STF_PORT_STATUS, 0x00E01004, [(12, 0x40)], [⟨31, 31, .ro, 0, []⟩, ⟨30, 30, .ro, 0, []⟩, ⟨29, 29, .ro, 0, []⟩, ⟨25, 18, .ro, 0, []⟩, ⟨17, 0, .ro, 0, []⟩]⟩,
  ⟨.STF_PORT_DELAY, 0x00E01008, [(12, 0x40)], [⟨31, 0, .ro, 0, []⟩]⟩,
  ⟨.STF_PORT_RETRY, 0x00E0100C, [(12, 0x40)], [⟨31, 16, .ro, 0, []⟩, ⟨15, 0, .ro, 0, []⟩]⟩,
  ⟨.STF_BIND_STATE, 0x00E10000, [(4096, 0x10)], [⟨31, 30, .ro, 0, []⟩, ⟨29, 29, .ro, 0, []⟩, ⟨15, 0, .ro, 0, []⟩]⟩,
  ⟨.STF_BIND_SENT, 0x00E10004, [(4096, 0x10)], [⟨31, 0, .ro, 0, []⟩]⟩,
  ⟨.STF_BIND_DROP, 0x00E10008, [(4096, 0x10)], [⟨31, 0, .ro, 0, []⟩]⟩]

def regsStf : List RegDef := regsStf0 ++ regsStf1

/-- Registers of block TB, part 0. -/
def regsTb0 : List RegDef := [
  ⟨.TB_TIME, 0x00F00030, [], [⟨31, 0, .ro, 0, []⟩]⟩,
  ⟨.TB_TIME_SEC_LO, 0x00F00034, [], [⟨31, 0, .ro, 0, []⟩]⟩,
  ⟨.TB_TIME_SEC_HI, 0x00F00038, [], [⟨31, 16, .ro, 0, []⟩, ⟨15, 0, .ro, 0, []⟩]⟩,
  ⟨.TB_OFFSET, 0x00F00050, [], [⟨31, 0, .ro, 0, []⟩]⟩,
  ⟨.TB_OFFSET_SEC_LO, 0x00F00054, [], [⟨31, 0, .ro, 0, []⟩]⟩,
  ⟨.TB_OFFSET_SEC_HI, 0x00F00058, [], [⟨31, 16, .ro, 0, []⟩, ⟨15, 0, .ro, 0, []⟩]⟩,
  ⟨.TB_PPS_IN, 0x00F000B0, [], [⟨31, 0, .ro, 0, []⟩]⟩,
  ⟨.TB_PPS_IN_SEC_LO, 0x00F000B4, [], [⟨31, 0, .ro, 0, []⟩]⟩,
  ⟨.TB_PPS_IN_SEC_HI, 0x00F000B8, [], [⟨31, 16, .ro, 0, []⟩, ⟨15, 0, .ro, 0, []⟩]⟩,
  ⟨.TB_IRQ_STAMP, 0x00F01000, [(2048, 0x10)], [⟨31, 0, .ro, 0, []⟩]⟩,
  ⟨.TB_IRQ_STAMP_SEC_LO, 0x00F01004, [(2048, 0x10)], [⟨31, 0, .ro, 0, []⟩]⟩,
  ⟨.TB_IRQ_STAMP_SEC_HI, 0x00F01008, [(2048, 0x10)], [⟨31, 16, .ro, 0, []⟩, ⟨15, 0, .ro, 0, []⟩]⟩,
  ⟨.TB_REF_CTRL, 0x00F00000, [], [⟨15, 15, .rw, 0, []⟩, ⟨14, 8, .rw, 0, [⟨96, 127, 95⟩]⟩, ⟨1, 0, .rwl, 0, [⟨3, 3, 0⟩]⟩]⟩,
  ⟨.TB_CTRL, 0x00F00004, [], [⟨8, 8, .rw, 0, []⟩, ⟨0, 0, .rw, 0, []⟩]⟩,
  ⟨.TB_STATUS, 0x00F00008, [], [⟨7, 7, .ro, 0, []⟩, ⟨6, 6, .ro, 0, []⟩, ⟨5, 5, .ro, 0, []⟩, ⟨4, 4, .ro, 0, []⟩, ⟨3, 3, .ro, 0, []⟩, ⟨2, 2, .w1c, 0, []⟩, ⟨1, 1, .ro, 1, []⟩, ⟨0, 0, .ro, 0, []⟩]⟩,
  ⟨.TB_EVENT, 0x00F0000C, [], [⟨6, 6, .w1c, 0, []⟩, ⟨5, 5, .w1c, 0, []⟩, ⟨4, 4, .w1c, 0, []⟩, ⟨3, 3, .w1c, 0, []⟩, ⟨2, 2, .w1c, 0, []⟩, ⟨1, 1, .w1c, 0, []⟩, ⟨0, 0, .w1c, 0, []⟩]⟩,
  ⟨.TB_EVENT_EN, 0x00F00010, [], [⟨6, 6, .rw, 0, []⟩, ⟨5, 5, .rw, 0, []⟩, ⟨4, 4, .rw, 0, []⟩, ⟨3, 3, .rw, 0, []⟩, ⟨2, 2, .rw, 0, []⟩, ⟨1, 1, .rw, 0, []⟩, ⟨0, 0, .rw, 0, []⟩]⟩,
  ⟨.TB_EVENT_VEC, 0x00F00014, [], [⟨10, 0, .rw, 0, []⟩]⟩,
  ⟨.TB_RAW_LO, 0x00F00020, [], [⟨31, 0, .ro, 0, []⟩]⟩,
  ⟨.TB_RAW_HI, 0x00F00024, [], [⟨31, 0, .ro, 0, []⟩]⟩]

/-- Registers of block TB, part 1. -/
def regsTb1 : List RegDef := [
  ⟨.TB_RATE_LO, 0x00F00040, [], [⟨31, 0, .rw, 0, []⟩]⟩,
  ⟨.TB_RATE_HI, 0x00F00044, [], [⟨15, 0, .rw, 256, []⟩]⟩,
  ⟨.TB_ADJ_LO, 0x00F00060, [], [⟨31, 0, .wo, 0, []⟩]⟩,
  ⟨.TB_ADJ_HI, 0x00F00064, [], [⟨31, 0, .wo, 0, []⟩]⟩,
  ⟨.TB_SET_NS, 0x00F00068, [], [⟨31, 0, .wo, 0, [⟨1000000000, 4294967295, 999999999⟩]⟩]⟩,
  ⟨.TB_SET_SEC_LO, 0x00F0006C, [], [⟨31, 0, .wo, 0, []⟩]⟩,
  ⟨.TB_SET_SEC_HI, 0x00F00070, [], [⟨15, 0, .wo, 0, []⟩]⟩,
  ⟨.TB_STEP_LIMIT, 0x00F00074, [], [⟨9, 0, .rw, 50, [⟨1001, 1023, 1000⟩]⟩]⟩,
  ⟨.TB_SLEW_MAX, 0x00F00078, [], [⟨6, 0, .rw, 10, [⟨0, 0, 1⟩, ⟨101, 127, 100⟩]⟩]⟩,
  ⟨.TB_SLEW_REMAIN, 0x00F0007C, [], [⟨31, 0, .ro, 0, []⟩]⟩,
  ⟨.TB_REFUSED_LO, 0x00F00080, [], [⟨31, 0, .ro, 0, []⟩]⟩,
  ⟨.TB_REFUSED_HI, 0x00F00084, [], [⟨31, 0, .ro, 0, []⟩]⟩,
  ⟨.TB_HOLDOVER_UNC, 0x00F00090, [], [⟨31, 0, .ro, 0, []⟩]⟩,
  ⟨.TB_PPS_OUT_CTRL, 0x00F000A0, [], [⟨31, 31, .rw, 0, []⟩, ⟨8, 0, .rw, 100, [⟨0, 0, 1⟩, ⟨501, 511, 500⟩]⟩]⟩,
  ⟨.TB_PPS_OUT_OFFSET, 0x00F000A4, [], [⟨31, 0, .rw, 0, [⟨1000001, 2147483647, 1000000⟩, ⟨2147483648, 4293967295, 4293967296⟩]⟩]⟩,
  ⟨.TB_CLAMP_COUNT, 0x00F000C0, [], [⟨31, 31, .wo, 0, []⟩, ⟨15, 0, .ro, 0, []⟩]⟩,
  ⟨.TB_IRQ_STAMP_COUNT, 0x00F0100C, [(2048, 0x10)], [⟨15, 0, .ro, 0, []⟩]⟩]

def regsTb : List RegDef := regsTb0 ++ regsTb1

/-- Registers of block CAP, part 0. -/
def regsCap0 : List RegDef := [
  ⟨.CAP_EVENT, 0x01000008, [], [⟨7, 7, .w1c, 0, []⟩, ⟨6, 6, .w1c, 0, []⟩, ⟨5, 5, .w1c, 0, []⟩, ⟨4, 4, .w1c, 0, []⟩, ⟨3, 3, .w1c, 0, []⟩, ⟨2, 2, .w1c, 0, []⟩, ⟨1, 1, .w1c, 0, []⟩, ⟨0, 0, .w1c, 0, []⟩]⟩,
  ⟨.CAP_EVENT_EN, 0x0100000C, [], [⟨7, 7, .rw, 0, []⟩, ⟨6, 6, .rw, 0, []⟩, ⟨5, 5, .rw, 0, []⟩, ⟨4, 4, .rw, 0, []⟩, ⟨3, 3, .rw, 0, []⟩, ⟨2, 2, .rw, 0, []⟩, ⟨1, 1, .rw, 0, []⟩, ⟨0, 0, .rw, 0, []⟩]⟩,
  ⟨.CAP_EVENT_VEC, 0x01000010, [], [⟨10, 0, .rw, 0, []⟩]⟩,
  ⟨.CAP_VAT_BW, 0x01000014, [], [⟨12, 0, .rw, 6000, [⟨6001, 8191, 6000⟩]⟩]⟩,
  ⟨.CAP_SPILL_ETYPE, 0x01000018, [], [⟨15, 0, .rwl, 34998, []⟩]⟩,
  ⟨.CAP_PRESS_LEAD, 0x01000024, [], [⟨9, 0, .rw, 20, [⟨0, 4, 5⟩, ⟨1001, 1023, 1000⟩]⟩]⟩,
  ⟨.CAP_SPILL_DST_LO, 0x0100001C, [], [⟨31, 0, .rw, 4294967295, []⟩]⟩,
  ⟨.CAP_SPILL_DST_HI, 0x01000020, [], [⟨15, 0, .rw, 65535, []⟩]⟩,
  ⟨.CAP_TRIG_CFG, 0x01000030, [(4, 0x4)], [⟨31, 31, .rw, 0, []⟩, ⟨30, 30, .rw, 0, []⟩, ⟨29, 22, .rw, 10, [⟨0, 0, 1⟩]⟩, ⟨4, 4, .rw, 0, []⟩, ⟨3, 3, .rw, 0, []⟩, ⟨2, 2, .rw, 0, []⟩, ⟨1, 1, .rw, 0, []⟩, ⟨0, 0, .rw, 0, []⟩]⟩,
  ⟨.CAP_TRIG_STAMP_LO, 0x01000040, [(4, 0x8)], [⟨31, 0, .ro, 0, []⟩]⟩,
  ⟨.CAP_TRIG_STAMP_HI, 0x01000044, [(4, 0x8)], [⟨31, 0, .ro, 0, []⟩]⟩,
  ⟨.CAP_CLAMP_COUNT, 0x010000C0, [], [⟨31, 31, .wo, 0, []⟩, ⟨15, 0, .ro, 0, []⟩]⟩,
  ⟨.CAP_VAT_CFG, 0x01000100, [(2, 0x40)], [⟨31, 30, .rw, 0, [⟨3, 3, 0⟩]⟩, ⟨29, 28, .rw, 0, [⟨3, 3, 0⟩]⟩, ⟨27, 22, .rw, 30, [⟨0, 19, 20⟩, ⟨39, 63, 38⟩]⟩]⟩,
  ⟨.CAP_VAT_BASE_LO, 0x01000104, [(2, 0x40)], [⟨31, 0, .rw, 0, []⟩]⟩,
  ⟨.CAP_VAT_BASE_HI, 0x01000108, [(2, 0x40)], [⟨6, 0, .rw, 0, []⟩]⟩,
  ⟨.CAP_VAT_PRE, 0x0100010C, [(2, 0x40)], [⟨18, 0, .rw, 0, []⟩]⟩,
  ⟨.CAP_VAT_POST, 0x01000110, [(2, 0x40)], [⟨18, 0, .rw, 0, []⟩]⟩,
  ⟨.CAP_VAT_STATUS, 0x01000114, [(2, 0x40)], [⟨31, 31, .ro, 0, []⟩, ⟨30, 30, .ro, 0, []⟩, ⟨2, 0, .ro, 0, []⟩]⟩,
  ⟨.CAP_VAT_WPTR_LO, 0x01000118, [(2, 0x40)], [⟨31, 0, .ro, 0, []⟩]⟩,
  ⟨.CAP_VAT_WPTR_HI, 0x0100011C, [(2, 0x40)], [⟨5, 0, .ro, 0, []⟩]⟩]

/-- Registers of block CAP, part 1. -/
def regsCap1 : List RegDef := [
  ⟨.CAP_VAT_OLDEST_LO, 0x01000120, [(2, 0x40)], [⟨31, 0, .ro, 0, []⟩]⟩,
  ⟨.CAP_VAT_OLDEST_HI, 0x01000124, [(2, 0x40)], [⟨5, 0, .ro, 0, []⟩]⟩,
  ⟨.CAP_VAT_TRIG_LO, 0x01000128, [(2, 0x40)], [⟨31, 0, .ro, 0, []⟩]⟩,
  ⟨.CAP_VAT_TRIG_HI, 0x0100012C, [(2, 0x40)], [⟨5, 0, .ro, 0, []⟩]⟩,
  ⟨.CAP_VAT_DROP, 0x01000130, [(2, 0x40)], [⟨31, 0, .ro, 0, []⟩]⟩,
  ⟨.CAP_SPILL_CFG, 0x01000200, [(24, 0x10)], [⟨31, 31, .rw, 0, []⟩, ⟨30, 29, .rw, 2, [⟨0, 0, 2⟩, ⟨3, 3, 2⟩]⟩, ⟨28, 28, .rw, 0, []⟩, ⟨13, 0, .rw, 9728, [⟨0, 63, 64⟩, ⟨9729, 16383, 9728⟩]⟩]⟩,
  ⟨.CAP_SPILL_STATUS, 0x01000204, [(24, 0x10)], [⟨31, 31, .ro, 0, []⟩, ⟨7, 7, .ro, 0, []⟩, ⟨6, 0, .ro, 0, []⟩]⟩,
  ⟨.CAP_SPILL_FRAMES_LO, 0x01000208, [(24, 0x10)], [⟨31, 0, .ro, 0, []⟩]⟩,
  ⟨.CAP_SPILL_FRAMES_HI, 0x0100020C, [(24, 0x10)], [⟨31, 0, .ro, 0, []⟩]⟩,
  ⟨.CAP_PRESS_STATE, 0x01000400, [(16, 0x20)], [⟨31, 8, .ro, 0, []⟩, ⟨1, 0, .ro, 0, []⟩]⟩,
  ⟨.CAP_PRESS_SENT_LO, 0x01000404, [(16, 0x20)], [⟨31, 0, .ro, 0, []⟩]⟩,
  ⟨.CAP_PRESS_SENT_HI, 0x01000408, [(16, 0x20)], [⟨31, 0, .ro, 0, []⟩]⟩,
  ⟨.CAP_PRESS_LATE, 0x0100040C, [(16, 0x20)], [⟨31, 0, .ro, 0, []⟩]⟩,
  ⟨.CAP_PRESS_SKIP, 0x01000410, [(16, 0x20)], [⟨31, 0, .ro, 0, []⟩]⟩]

def regsCap : List RegDef := regsCap0 ++ regsCap1

/-- Registers of block MEM, part 0. -/
def regsMem0 : List RegDef := [
  ⟨.MEM_STATUS, 0x01100000, [], [⟨31, 31, .ro, 0, []⟩, ⟨30, 30, .ro, 0, []⟩, ⟨17, 16, .ro, 0, []⟩, ⟨15, 0, .ro, 0, []⟩]⟩,
  ⟨.MEM_CFG, 0x01100004, [], [⟨31, 30, .rwl, 0, [⟨3, 3, 0⟩]⟩, ⟨23, 16, .rw, 24, [⟨169, 255, 168⟩]⟩, ⟨15, 8, .rw, 30, []⟩, ⟨7, 4, .rw, 6, []⟩]⟩,
  ⟨.MEM_EVENT, 0x01100008, [], [⟨3, 3, .w1c, 0, []⟩, ⟨2, 2, .w1c, 0, []⟩, ⟨1, 1, .w1c, 0, []⟩, ⟨0, 0, .w1c, 0, []⟩]⟩,
  ⟨.MEM_EVENT_EN, 0x0110000C, [], [⟨3, 3, .rw, 0, []⟩, ⟨2, 2, .rw, 0, []⟩, ⟨1, 1, .rw, 0, []⟩, ⟨0, 0, .rw, 0, []⟩]⟩,
  ⟨.MEM_EVENT_VEC, 0x01100010, [], [⟨10, 0, .rw, 0, []⟩]⟩,
  ⟨.MEM_WIN_BASE, 0x01100014, [], [⟨18, 0, .rw, 0, [⟨520193, 524287, 520192⟩]⟩]⟩,
  ⟨.MEM_UE_ADDR_LO, 0x01100020, [], [⟨31, 0, .ro, 0, []⟩]⟩,
  ⟨.MEM_UE_ADDR_HI, 0x01100024, [], [⟨31, 31, .w1c, 0, []⟩, ⟨6, 0, .ro, 0, []⟩]⟩,
  ⟨.MEM_INJ_LO, 0x01100028, [], [⟨31, 0, .rw, 0, []⟩]⟩,
  ⟨.MEM_INJ_HI, 0x0110002C, [], [⟨6, 0, .rw, 0, []⟩]⟩,
  ⟨.MEM_INJ_CMD, 0x01100030, [], [⟨1, 0, .wo, 0, [⟨3, 3, 2⟩]⟩]⟩,
  ⟨.MEM_CLAMP_COUNT, 0x011000C0, [], [⟨31, 31, .wo, 0, []⟩, ⟨15, 0, .ro, 0, []⟩]⟩,
  ⟨.MEM_CH_STATUS, 0x01101000, [(16, 0x20)], [⟨31, 31, .ro, 0, []⟩, ⟨30, 30, .ro, 0, []⟩, ⟨29, 29, .ro, 0, []⟩, ⟨28, 28, .ro, 0, []⟩, ⟨27, 27, .ro, 0, []⟩, ⟨2, 0, .ro, 0, []⟩]⟩,
  ⟨.MEM_CH_CE, 0x01101004, [(16, 0x20)], [⟨31, 0, .ro, 0, []⟩]⟩,
  ⟨.MEM_CH_UE, 0x01101008, [(16, 0x20)], [⟨31, 0, .ro, 0, []⟩]⟩,
  ⟨.MEM_CH_SCRUB, 0x0110100C, [(16, 0x20)], [⟨28, 0, .ro, 0, []⟩]⟩,
  ⟨.MEM_CH_TRAIN, 0x01101010, [(16, 0x20)], [⟨31, 16, .ro, 0, []⟩, ⟨15, 0, .ro, 0, []⟩]⟩]

def regsMem : List RegDef := regsMem0

/-- Registers of block PWR, part 0. -/
def regsPwr0 : List RegDef := [
  ⟨.PWR_STATUS, 0x01200000, [], [⟨2, 2, .ro, 0, []⟩, ⟨1, 0, .ro, 0, []⟩]⟩,
  ⟨.PWR_EVENT, 0x01200008, [], [⟨3, 3, .w1c, 0, []⟩, ⟨2, 2, .w1c, 0, []⟩, ⟨1, 1, .w1c, 0, []⟩, ⟨0, 0, .w1c, 0, []⟩]⟩,
  ⟨.PWR_EVENT_EN, 0x0120000C, [], [⟨3, 3, .rw, 0, []⟩, ⟨2, 2, .rw, 0, []⟩, ⟨1, 1, .rw, 0, []⟩, ⟨0, 0, .rw, 0, []⟩]⟩,
  ⟨.PWR_EVENT_VEC, 0x01200010, [], [⟨10, 0, .rw, 0, []⟩]⟩,
  ⟨.PWR_HIB_CTRL, 0x01200014, [], [⟨31, 31, .wo, 0, []⟩, ⟨3, 3, .rw, 0, []⟩, ⟨2, 2, .rw, 0, []⟩, ⟨1, 1, .rw, 1, []⟩, ⟨0, 0, .rw, 0, []⟩]⟩,
  ⟨.PWR_HIB_TIMER_LO, 0x01200018, [], [⟨31, 0, .rw, 0, []⟩]⟩,
  ⟨.PWR_HIB_TIMER_HI, 0x0120001C, [], [⟨15, 0, .rw, 0, []⟩]⟩,
  ⟨.PWR_HIB_CAUSE, 0x01200020, [], [⟨15, 8, .ro, 0, []⟩, ⟨3, 0, .ro, 0, []⟩]⟩,
  ⟨.PWR_CLAMP_COUNT, 0x012000C0, [], [⟨31, 31, .wo, 0, []⟩, ⟨15, 0, .ro, 0, []⟩]⟩,
  ⟨.PWR_CL_CTRL, 0x01201000, [(72, 0x10)], [⟨31, 30, .rw, 0, [⟨3, 3, 0⟩]⟩, ⟨29, 29, .rw, 0, []⟩, ⟨28, 28, .rw, 0, []⟩, ⟨27, 24, .rw, 0, []⟩, ⟨7, 0, .rw, 16, [⟨0, 0, 1⟩]⟩]⟩,
  ⟨.PWR_CL_STATUS, 0x01201004, [(72, 0x10)], [⟨31, 29, .ro, 0, []⟩, ⟨28, 27, .ro, 0, []⟩, ⟨7, 0, .ro, 0, []⟩]⟩,
  ⟨.PWR_CL_COUNT, 0x01201008, [(72, 0x10)], [⟨31, 16, .ro, 0, []⟩, ⟨15, 8, .ro, 0, []⟩, ⟨7, 0, .ro, 0, []⟩]⟩]

def regsPwr : List RegDef := regsPwr0

/-- Registers of block COL, part 0. -/
def regsCol0 : List RegDef := [
  ⟨.COL_STATUS, 0x01300000, [], [⟨7, 7, .ro, 0, []⟩, ⟨6, 6, .ro, 0, []⟩, ⟨5, 5, .ro, 0, []⟩, ⟨4, 4, .ro, 0, []⟩, ⟨3, 3, .ro, 0, []⟩, ⟨0, 0, .ro, 0, []⟩]⟩,
  ⟨.COL_MB_CTRL, 0x01300004, [], [⟨1, 1, .w1c, 0, []⟩, ⟨0, 0, .w1s, 0, []⟩]⟩,
  ⟨.COL_EVENT, 0x01300008, [], [⟨2, 2, .w1c, 0, []⟩, ⟨1, 1, .w1c, 0, []⟩, ⟨0, 0, .w1c, 0, []⟩]⟩,
  ⟨.COL_EVENT_EN, 0x0130000C, [], [⟨2, 2, .rw, 0, []⟩, ⟨1, 1, .rw, 0, []⟩, ⟨0, 0, .rw, 0, []⟩]⟩,
  ⟨.COL_EVENT_VEC, 0x01300010, [], [⟨10, 0, .rw, 0, []⟩]⟩,
  ⟨.COL_FREEZE_CFG, 0x01300014, [], [⟨2, 2, .rw, 0, []⟩, ⟨1, 1, .rw, 0, []⟩, ⟨0, 0, .rw, 0, []⟩]⟩,
  ⟨.COL_THERM_CFG, 0x01300018, [], [⟨31, 23, .rwl, 292, [⟨0, 99, 100⟩, ⟨293, 511, 292⟩]⟩, ⟨15, 8, .rwl, 105, [⟨0, 84, 85⟩, ⟨111, 255, 110⟩]⟩, ⟨7, 0, .rwl, 100, []⟩]⟩,
  ⟨.COL_MAINT_STATUS, 0x0130001C, [], [⟨20, 16, .ro, 0, []⟩, ⟨4, 0, .ro, 0, []⟩]⟩,
  ⟨.COL_CLAMP_COUNT, 0x013000C0, [], [⟨31, 31, .wo, 0, []⟩, ⟨15, 0, .ro, 0, []⟩]⟩,
  ⟨.COL_MB_REQ, 0x01300100, [(64, 0x4)], [⟨31, 0, .rw, 0, []⟩]⟩,
  ⟨.COL_MB_RSP, 0x01300200, [(64, 0x4)], [⟨31, 0, .ro, 0, []⟩]⟩]

def regsCol : List RegDef := regsCol0

/-- Registers of block SLT, part 0. -/
def regsSlt0 : List RegDef := [
  ⟨.SLT_GRID_NS, 0x01400000, [], [⟨31, 0, .rw, 0, [⟨1000000000, 4294967295, 999999999⟩]⟩]⟩,
  ⟨.SLT_GRID_SEC_LO, 0x01400004, [], [⟨31, 0, .rw, 0, []⟩]⟩,
  ⟨.SLT_GRID_SEC_HI, 0x01400008, [], [⟨15, 0, .rw, 0, []⟩]⟩,
  ⟨.SLT_MODULE_DECKLE, 0x0140000C, [], [⟨6, 0, .rw, 6, [⟨0, 1, 2⟩, ⟨101, 127, 100⟩]⟩]⟩,
  ⟨.SLT_REF_FRAME, 0x01400010, [], [⟨31, 0, .ro, 0, []⟩]⟩,
  ⟨.SLT_MODULE_GEN, 0x01400014, [], [⟨31, 0, .ro, 0, []⟩]⟩,
  ⟨.SLT_EVENT, 0x01400018, [], [⟨2, 2, .w1c, 0, []⟩, ⟨1, 1, .w1c, 0, []⟩, ⟨0, 0, .w1c, 0, []⟩]⟩,
  ⟨.SLT_EVENT_EN, 0x0140001C, [], [⟨2, 2, .rw, 0, []⟩, ⟨1, 1, .rw, 0, []⟩, ⟨0, 0, .rw, 0, []⟩]⟩,
  ⟨.SLT_EVENT_VEC, 0x01400020, [], [⟨10, 0, .rw, 0, []⟩]⟩,
  ⟨.SLT_PUSH_DROP, 0x01400024, [], [⟨31, 0, .ro, 0, []⟩]⟩,
  ⟨.SLT_CLAMP_COUNT, 0x014000C0, [], [⟨31, 31, .wo, 0, []⟩, ⟨15, 0, .ro, 0, []⟩]⟩,
  ⟨.SLT_CSTATE, 0x01410000, [(512, 0x20)], [⟨7, 7, .ro, 0, []⟩, ⟨6, 6, .ro, 0, []⟩, ⟨5, 5, .ro, 0, []⟩, ⟨2, 0, .ro, 0, []⟩]⟩,
  ⟨.SLT_CSLOT, 0x01410004, [(512, 0x20)], [⟨31, 0, .ro, 0, []⟩]⟩,
  ⟨.SLT_CGEN_UL, 0x01410008, [(512, 0x20)], [⟨31, 0, .ro, 0, []⟩]⟩,
  ⟨.SLT_CGEN_DL, 0x0141000C, [(512, 0x20)], [⟨31, 0, .ro, 0, []⟩]⟩,
  ⟨.SLT_CMOULD, 0x01410010, [(512, 0x20)], [⟨31, 16, .ro, 1, []⟩, ⟨15, 0, .ro, 1, []⟩]⟩,
  ⟨.SLT_CCOUNT, 0x01410014, [(512, 0x20)], [⟨31, 16, .ro, 0, []⟩, ⟨15, 0, .ro, 0, []⟩]⟩,
  ⟨.SLT_CEXPIRED, 0x01410018, [(512, 0x20)], [⟨31, 0, .ro, 0, []⟩]⟩]

def regsSlt : List RegDef := regsSlt0

/-- The registers of a block. -/
def blockRegs : Block → List RegDef
  | .glb => regsGlb
  | .hp => regsHp
  | .qmg => regsQmg
  | .spn => regsSpn
  | .gth => regsGth
  | .qui => regsQui
  | .dma => regsDma
  | .spa => regsSpa
  | .cod => regsCod
  | .spc => regsSpc
  | .fh => regsFh
  | .ln => regsLn
  | .stf => regsStf
  | .tb => regsTb
  | .cap => regsCap
  | .mem => regsMem
  | .pwr => regsPwr
  | .col => regsCol
  | .slt => regsSlt

/-! Addresses, by name and indices. -/

namespace Reg

abbrev GLB_ID : Nat := 0x00000000
abbrev GLB_SETUP_LOCK : Nat := 0x00000004
abbrev GLB_STATUS : Nat := 0x00000008
abbrev GLB_CLAMP_COUNT : Nat := 0x0000000C
abbrev GLB_SCRATCH : Nat := 0x00000010
abbrev TB_TIME : Nat := 0x00F00030
abbrev TB_TIME_SEC_LO : Nat := 0x00F00034
abbrev TB_TIME_SEC_HI : Nat := 0x00F00038
abbrev TB_OFFSET : Nat := 0x00F00050
abbrev TB_OFFSET_SEC_LO : Nat := 0x00F00054
abbrev TB_OFFSET_SEC_HI : Nat := 0x00F00058
abbrev TB_PPS_IN : Nat := 0x00F000B0
abbrev TB_PPS_IN_SEC_LO : Nat := 0x00F000B4
abbrev TB_PPS_IN_SEC_HI : Nat := 0x00F000B8
def TB_IRQ_STAMP (v : Nat) : Nat := 0x00F01000 + v * 0x10
def TB_IRQ_STAMP_SEC_LO (v : Nat) : Nat := 0x00F01004 + v * 0x10
def TB_IRQ_STAMP_SEC_HI (v : Nat) : Nat := 0x00F01008 + v * 0x10
abbrev TB_REF_CTRL : Nat := 0x00F00000
abbrev TB_CTRL : Nat := 0x00F00004
abbrev TB_STATUS : Nat := 0x00F00008
abbrev TB_EVENT : Nat := 0x00F0000C
abbrev TB_EVENT_EN : Nat := 0x00F00010
abbrev TB_EVENT_VEC : Nat := 0x00F00014
abbrev TB_RAW_LO : Nat := 0x00F00020
abbrev TB_RAW_HI : Nat := 0x00F00024
abbrev TB_RATE_LO : Nat := 0x00F00040
abbrev TB_RATE_HI : Nat := 0x00F00044
abbrev TB_ADJ_LO : Nat := 0x00F00060
abbrev TB_ADJ_HI : Nat := 0x00F00064
abbrev TB_SET_NS : Nat := 0x00F00068
abbrev TB_SET_SEC_LO : Nat := 0x00F0006C
abbrev TB_SET_SEC_HI : Nat := 0x00F00070
abbrev TB_STEP_LIMIT : Nat := 0x00F00074
abbrev TB_SLEW_MAX : Nat := 0x00F00078
abbrev TB_SLEW_REMAIN : Nat := 0x00F0007C
abbrev TB_REFUSED_LO : Nat := 0x00F00080
abbrev TB_REFUSED_HI : Nat := 0x00F00084
abbrev TB_HOLDOVER_UNC : Nat := 0x00F00090
abbrev TB_PPS_OUT_CTRL : Nat := 0x00F000A0
abbrev TB_PPS_OUT_OFFSET : Nat := 0x00F000A4
abbrev TB_CLAMP_COUNT : Nat := 0x00F000C0
abbrev SLT_GRID_NS : Nat := 0x01400000
abbrev SLT_GRID_SEC_LO : Nat := 0x01400004
abbrev SLT_GRID_SEC_HI : Nat := 0x01400008
abbrev SLT_MODULE_DECKLE : Nat := 0x0140000C
abbrev SLT_REF_FRAME : Nat := 0x01400010
abbrev SLT_MODULE_GEN : Nat := 0x01400014
abbrev SLT_EVENT : Nat := 0x01400018
abbrev SLT_EVENT_EN : Nat := 0x0140001C
abbrev SLT_EVENT_VEC : Nat := 0x01400020
abbrev SLT_PUSH_DROP : Nat := 0x01400024
abbrev SLT_CLAMP_COUNT : Nat := 0x014000C0
def SLT_CSTATE (c : Nat) : Nat := 0x01410000 + c * 0x20
def SLT_CSLOT (c : Nat) : Nat := 0x01410004 + c * 0x20
def SLT_CGEN_UL (c : Nat) : Nat := 0x01410008 + c * 0x20
def SLT_CGEN_DL (c : Nat) : Nat := 0x0141000C + c * 0x20
def SLT_CMOULD (c : Nat) : Nat := 0x01410010 + c * 0x20
def SLT_CCOUNT (c : Nat) : Nat := 0x01410014 + c * 0x20
def SLT_CEXPIRED (c : Nat) : Nat := 0x01410018 + c * 0x20
abbrev HP_LINK_STATUS : Nat := 0x00100000
abbrev HP_EVENT : Nat := 0x00100008
abbrev HP_EVENT_EN : Nat := 0x0010000C
abbrev HP_EVENT_VEC : Nat := 0x00100010
abbrev HP_FLR_BUSY_LO : Nat := 0x00100018
abbrev HP_FLR_BUSY_HI : Nat := 0x0010001C
abbrev HP_RCTX_SEL : Nat := 0x00100030
abbrev HP_RCTX_CMD : Nat := 0x00100034
abbrev HP_RCTX_CFG0 : Nat := 0x00100040
abbrev HP_RCTX_BASE_LO : Nat := 0x00100044
abbrev HP_RCTX_BASE_HI : Nat := 0x00100048
abbrev HP_RCTX_WB_LO : Nat := 0x0010004C
abbrev HP_RCTX_WB_HI : Nat := 0x00100050
abbrev HP_RCTX_CFG1 : Nat := 0x00100054
abbrev HP_RCTX_CFG2 : Nat := 0x00100058
abbrev HP_RCTX_IDX : Nat := 0x0010005C
abbrev HP_RCTX_STATE : Nat := 0x00100060
abbrev HP_RCTX_CLAMP : Nat := 0x00100064
abbrev HP_CLAMP_COUNT : Nat := 0x001000C0
abbrev HP_DROP_COUNT : Nat := 0x001000C4
abbrev QMG_QCTX_SEL : Nat := 0x00200000
abbrev QMG_QCTX_CMD : Nat := 0x00200004
abbrev QMG_QCTX_CFG0 : Nat := 0x00200010
abbrev QMG_QCTX_BASE_LO : Nat := 0x00200014
abbrev QMG_QCTX_BASE_HI : Nat := 0x00200018
abbrev QMG_QCTX_CFG1 : Nat := 0x0020001C
abbrev QMG_QCTX_IDLE : Nat := 0x00200020
abbrev QMG_QCTX_NOTICE : Nat := 0x00200024
abbrev QMG_QCTX_COMMIT : Nat := 0x00200028
abbrev QMG_QCTX_BIND : Nat := 0x0020002C
abbrev QMG_QCTX_WORDS : Nat := 0x00200030
abbrev QMG_QCTX_ITEMS : Nat := 0x00200034
abbrev QMG_QCTX_COUNTS : Nat := 0x00200038
abbrev QMG_QCTX_STATE : Nat := 0x0020003C
abbrev QMG_CLAMP_COUNT : Nat := 0x002000C0
abbrev SPN_CLAMP_COUNT : Nat := 0x004000C0
def SPN_RANK (i : Nat) : Nat := 0x00400100 + i * 0x4
def SPN_PRESENT (k : Nat) : Nat := 0x00400800 + k * 0x4
def SPN_ARB_CTRL (a : Nat) : Nat := 0x00401000 + a * 0x10
def SPN_ARB_STATUS (a : Nat) : Nat := 0x00401004 + a * 0x10
def SPN_ARB_WAITMAX (a : Nat) : Nat := 0x00401008 + a * 0x10
abbrev GTH_EVENT : Nat := 0x00500008
abbrev GTH_EVENT_EN : Nat := 0x0050000C
abbrev GTH_EVENT_VEC : Nat := 0x00500010
abbrev GTH_HOLD_USED : Nat := 0x00500014
abbrev GTH_DISPATCH_LO : Nat := 0x00500020
abbrev GTH_DISPATCH_HI : Nat := 0x00500024
abbrev GTH_TIMEOUTS : Nat := 0x00500028
abbrev GTH_VOIDS : Nat := 0x0050002C
abbrev GTH_STRAYS : Nat := 0x00500030
abbrev GTH_PUB_FAILS : Nat := 0x00500034
abbrev GTH_TASK_SEL : Nat := 0x00500040
abbrev GTH_TASK_STATE : Nat := 0x00500044
abbrev GTH_TASK_PENDING : Nat := 0x00500048
abbrev GTH_TASK_LATCH : Nat := 0x0050004C
abbrev GTH_TASK_SLOT : Nat := 0x00500050
abbrev GTH_TASK_SEQ : Nat := 0x00500054
abbrev GTH_SIG_SEL : Nat := 0x00500060
abbrev GTH_SIG_NEXT : Nat := 0x00500064
abbrev GTH_SIG_ALLOC : Nat := 0x00500068
abbrev GTH_SIG_HELD : Nat := 0x0050006C
abbrev GTH_CLAMP_COUNT : Nat := 0x005000C0
def GTH_CLASS_READY (c : Nat) : Nat := 0x00501000 + c * 0x10
def GTH_CLASS_FETCH (c : Nat) : Nat := 0x00501004 + c * 0x10
def GTH_CLASS_DISP (c : Nat) : Nat := 0x00501008 + c * 0x10
def QUI_LEAF_CTRL (q : Nat) : Nat := 0x00600000 + q * 0x10000
def QUI_LEAF_STATE (q : Nat) : Nat := 0x00600004 + q * 0x10000
def QUI_EXT_REJECT (q : Nat) : Nat := 0x00600008 + q * 0x10000
def QUI_CLAMP_COUNT (q : Nat) : Nat := 0x006000C0 + q * 0x10000
def QUI_LSTAT (q l : Nat) : Nat := 0x00600100 + q * 0x10000 + l * 0x20
def QUI_LAOV_IDX (q l : Nat) : Nat := 0x00600104 + q * 0x10000 + l * 0x20
def QUI_PC (q l : Nat) : Nat := 0x00600108 + q * 0x10000 + l * 0x20
def QUI_STALL (q l : Nat) : Nat := 0x0060010C + q * 0x10000 + l * 0x20
def QUI_DBG_CTRL (q l : Nat) : Nat := 0x00608000 + q * 0x10000 + l * 0x1000
def QUI_DBG_STATUS (q l : Nat) : Nat := 0x00608004 + q * 0x10000 + l * 0x1000
def QUI_DBG_BKPT (q l k : Nat) : Nat := 0x00608010 + q * 0x10000 + l * 0x1000 + k * 0x4
def QUI_DBG_REG_SEL (q l : Nat) : Nat := 0x00608020 + q * 0x10000 + l * 0x1000
def QUI_DBG_REG_DATA (q l : Nat) : Nat := 0x00608024 + q * 0x10000 + l * 0x1000
abbrev DMA_EVENT : Nat := 0x00800008
abbrev DMA_EVENT_EN : Nat := 0x0080000C
abbrev DMA_EVENT_VEC : Nat := 0x00800010
abbrev DMA_CLAMP_COUNT : Nat := 0x008000C0
def DMA_CH_CFG (c : Nat) : Nat := 0x00810000 + c * 0x20
def DMA_CH_STATE (c : Nat) : Nat := 0x00810004 + c * 0x20
def DMA_CH_BADADDR_LO (c : Nat) : Nat := 0x00810008 + c * 0x20
def DMA_CH_BADADDR_HI (c : Nat) : Nat := 0x0081000C + c * 0x20
def DMA_CH_BADDATA_LO (c : Nat) : Nat := 0x00810010 + c * 0x20
def DMA_CH_BADDATA_HI (c : Nat) : Nat := 0x00810014 + c * 0x20
def DMA_CH_COUNT (c : Nat) : Nat := 0x00810018 + c * 0x20
abbrev SPA_STATUS : Nat := 0x00900000
abbrev SPA_EVENT : Nat := 0x00900008
abbrev SPA_EVENT_EN : Nat := 0x0090000C
abbrev SPA_EVENT_VEC : Nat := 0x00900010
abbrev SPA_HOST_RANK : Nat := 0x00900014
abbrev SPA_JOBS_LO : Nat := 0x00900020
abbrev SPA_JOBS_HI : Nat := 0x00900024
abbrev SPA_SAT_COUNT : Nat := 0x00900028
abbrev SPA_SINGULAR : Nat := 0x0090002C
abbrev SPA_NOWGT : Nat := 0x00900030
abbrev SPA_WBUF_SEL : Nat := 0x00900040
abbrev SPA_WBUF_STATE : Nat := 0x00900044
def SPA_WBUF_SLOT (w : Nat) : Nat := 0x00900048 + w * 0x4
abbrev SPA_CLAMP_COUNT : Nat := 0x009000C0
def SPA_JQ (k : Nat) : Nat := 0x00900100 + k * 0x4
def SPA_TILE_BUSY_LO (t : Nat) : Nat := 0x00900200 + t * 0x10
def SPA_TILE_BUSY_HI (t : Nat) : Nat := 0x00900204 + t * 0x10
def SPA_TILE_STALL (t : Nat) : Nat := 0x00900208 + t * 0x10
def SPA_TILE_JOB (t : Nat) : Nat := 0x0090020C + t * 0x10
abbrev COD_STATUS : Nat := 0x00A00000
abbrev COD_EVENT : Nat := 0x00A00008
abbrev COD_EVENT_EN : Nat := 0x00A0000C
abbrev COD_EVENT_VEC : Nat := 0x00A00010
abbrev COD_HOST_RANK : Nat := 0x00A00014
abbrev COD_JOBS_LO : Nat := 0x00A00020
abbrev COD_JOBS_HI : Nat := 0x00A00024
abbrev COD_TB_FAIL : Nat := 0x00A00028
abbrev COD_SOFT_LOST : Nat := 0x00A0002C
abbrev COD_CQ_DROP : Nat := 0x00A00030
abbrev COD_HARQ_BASE : Nat := 0x00A00040
abbrev COD_HARQ_SIZE : Nat := 0x00A00044
abbrev COD_LLR_TAB_LO : Nat := 0x00A00048
abbrev COD_LLR_TAB_HI : Nat := 0x00A0004C
abbrev COD_CLAMP_COUNT : Nat := 0x00A000C0
def COD_JQ (k : Nat) : Nat := 0x00A00100 + k * 0x4
def COD_GRP_BUSY_LO (g : Nat) : Nat := 0x00A00200 + g * 0x10
def COD_GRP_BUSY_HI (g : Nat) : Nat := 0x00A00204 + g * 0x10
def COD_GRP_STALL (g : Nat) : Nat := 0x00A00208 + g * 0x10
def COD_GRP_QUEUED (g : Nat) : Nat := 0x00A0020C + g * 0x10
abbrev SPC_STATUS : Nat := 0x00B00000
abbrev SPC_EVENT : Nat := 0x00B00008
abbrev SPC_EVENT_EN : Nat := 0x00B0000C
abbrev SPC_EVENT_VEC : Nat := 0x00B00010
abbrev SPC_HOST_RANK : Nat := 0x00B00014
abbrev SPC_JOBS_LO : Nat := 0x00B00020
abbrev SPC_JOBS_HI : Nat := 0x00B00024
abbrev SPC_SAT_COUNT : Nat := 0x00B00028
abbrev SPC_TX_UNDERRUN : Nat := 0x00B0002C
abbrev SPC_TX_LATE : Nat := 0x00B00030
abbrev SPC_RX_GAP : Nat := 0x00B00034
abbrev SPC_DET_MISSED : Nat := 0x00B00038
abbrev SPC_DET_FALSE : Nat := 0x00B0003C
abbrev SPC_DET_PREEMPT : Nat := 0x00B00040
abbrev SPC_DET_SEL : Nat := 0x00B00050
abbrev SPC_DET_STATE : Nat := 0x00B00054
abbrev SPC_CLAMP_COUNT : Nat := 0x00B000C0
def SPC_JQ (k : Nat) : Nat := 0x00B00100 + k * 0x4
def SPC_GRP_BUSY_LO (g : Nat) : Nat := 0x00B00200 + g * 0x10
def SPC_GRP_BUSY_HI (g : Nat) : Nat := 0x00B00204 + g * 0x10
def SPC_GRP_STALL (g : Nat) : Nat := 0x00B00208 + g * 0x10
def SPC_TXP_STATE (c : Nat) : Nat := 0x00B01000 + c * 0x8
def SPC_TXP_MARGIN (c : Nat) : Nat := 0x00B01004 + c * 0x8
abbrev FH_EVENT : Nat := 0x00C00008
abbrev FH_EVENT_EN : Nat := 0x00C0000C
abbrev FH_EVENT_VEC : Nat := 0x00C00010
abbrev FH_STF_ETYPE : Nat := 0x00C00014
abbrev FH_HOST_DROP : Nat := 0x00C00018
abbrev FH_CLAMP_COUNT : Nat := 0x00C000C0
def FH_PORT_CFG (p : Nat) : Nat := 0x00C10000 + p * 0x40
def FH_PORT_MAC_LO (p : Nat) : Nat := 0x00C10004 + p * 0x40
def FH_PORT_MAC_HI (p : Nat) : Nat := 0x00C10008 + p * 0x40
def FH_PORT_RXDLY (p : Nat) : Nat := 0x00C1000C + p * 0x40
def FH_PORT_TXDLY (p : Nat) : Nat := 0x00C10010 + p * 0x40
def FH_PORT_STATUS (p : Nat) : Nat := 0x00C10014 + p * 0x40
def FH_PORT_RXFR_LO (p : Nat) : Nat := 0x00C10018 + p * 0x40
def FH_PORT_RXFR_HI (p : Nat) : Nat := 0x00C1001C + p * 0x40
def FH_PORT_TXFR_LO (p : Nat) : Nat := 0x00C10020 + p * 0x40
def FH_PORT_TXFR_HI (p : Nat) : Nat := 0x00C10024 + p * 0x40
def FH_PORT_DROP0 (p : Nat) : Nat := 0x00C10028 + p * 0x40
def FH_PORT_DROP1 (p : Nat) : Nat := 0x00C1002C + p * 0x40
def FH_PORT_FEC_CORR (p : Nat) : Nat := 0x00C10030 + p * 0x40
def FH_PORT_FEC_UNCORR (p : Nat) : Nat := 0x00C10034 + p * 0x40
def FH_HALF_ON_TIME (c h : Nat) : Nat := 0x00C40000 + c * 0x40 + h * 0x20
def FH_HALF_EARLY (c h : Nat) : Nat := 0x00C40004 + c * 0x40 + h * 0x20
def FH_HALF_LATE (c h : Nat) : Nat := 0x00C40008 + c * 0x40 + h * 0x20
def FH_HALF_SEQ_ERR (c h : Nat) : Nat := 0x00C4000C + c * 0x40 + h * 0x20
def FH_HALF_MISSING (c h : Nat) : Nat := 0x00C40010 + c * 0x40 + h * 0x20
def FH_HALF_TX_MISS (c h : Nat) : Nat := 0x00C40014 + c * 0x40 + h * 0x20
def FH_HALF_TX_LATE (c h : Nat) : Nat := 0x00C40018 + c * 0x40 + h * 0x20
def FH_HALF_CP_LATE (c h : Nat) : Nat := 0x00C4001C + c * 0x40 + h * 0x20
def LN_CFG (n : Nat) : Nat := 0x00D00000 + n * 0x1000
def LN_STATUS (n : Nat) : Nat := 0x00D00004 + n * 0x1000
def LN_EVENT (n : Nat) : Nat := 0x00D00008 + n * 0x1000
def LN_EVENT_EN (n : Nat) : Nat := 0x00D0000C + n * 0x1000
def LN_TX_TAPS (n : Nat) : Nat := 0x00D00010 + n * 0x1000
def LN_RX_EQ (n : Nat) : Nat := 0x00D00014 + n * 0x1000
def LN_RX_SNR (n : Nat) : Nat := 0x00D00018 + n * 0x1000
def LN_CMD (n : Nat) : Nat := 0x00D0001C + n * 0x1000
def LN_TEST_CFG (n : Nat) : Nat := 0x00D00020 + n * 0x1000
def LN_INJ (n : Nat) : Nat := 0x00D00024 + n * 0x1000
def LN_PRBS_ERR_LO (n : Nat) : Nat := 0x00D00028 + n * 0x1000
def LN_PRBS_ERR_HI (n : Nat) : Nat := 0x00D0002C + n * 0x1000
def LN_PRBS_BITS_LO (n : Nat) : Nat := 0x00D00030 + n * 0x1000
def LN_PRBS_BITS_HI (n : Nat) : Nat := 0x00D00034 + n * 0x1000
def LN_PRBS_STAT (n : Nat) : Nat := 0x00D00038 + n * 0x1000
def LN_LB_ERR (n : Nat) : Nat := 0x00D0003C + n * 0x1000
def LN_COUNT (n : Nat) : Nat := 0x00D00040 + n * 0x1000
def LN_QUAD_CFG (q : Nat) : Nat := 0x00D00400 + q * 0x4000
def LN_QUAD_STATUS (q : Nat) : Nat := 0x00D00404 + q * 0x4000
abbrev LN_EVENT_VEC : Nat := 0x00D00800
def LN_EVENT_SUM (k : Nat) : Nat := 0x00D00804 + k * 0x4
abbrev LN_TRAIN_LIMIT : Nat := 0x00D00810
abbrev LN_RECAL_MIN : Nat := 0x00D00814
abbrev LN_CLAMP_COUNT : Nat := 0x00D008C0
abbrev STF_STATUS : Nat := 0x00E00000
abbrev STF_ID : Nat := 0x00E00004
abbrev STF_EVENT : Nat := 0x00E00008
abbrev STF_EVENT_EN : Nat := 0x00E0000C
abbrev STF_EVENT_VEC : Nat := 0x00E00010
abbrev STF_CTRL : Nat := 0x00E00014
abbrev STF_ROOT : Nat := 0x00E00018
abbrev STF_MAP_GEN : Nat := 0x00E0001C
abbrev STF_ETH_GROUP_LO : Nat := 0x00E00020
abbrev STF_ETH_GROUP_HI : Nat := 0x00E00024
abbrev STF_FREEZE_LEAD : Nat := 0x00E00028
abbrev STF_TICK_TOL : Nat := 0x00E0002C
abbrev STF_ETH_RTO : Nat := 0x00E00030
abbrev STF_TIME_OFFSET : Nat := 0x00E00034
abbrev STF_TICK_SLIP : Nat := 0x00E00038
abbrev STF_UNREACHABLE : Nat := 0x00E0003C
abbrev STF_MIRROR_DISCARD : Nat := 0x00E00040
abbrev STF_MAP_SEL : Nat := 0x00E00044
abbrev STF_MAP_ENTRY : Nat := 0x00E00048
abbrev STF_SMAP_SEL : Nat := 0x00E0004C
abbrev STF_SMAP_ENTRY : Nat := 0x00E00050
abbrev STF_CLAMP_COUNT : Nat := 0x00E000C0
def STF_PORT_CFG (k : Nat) : Nat := 0x00E01000 + k * 0x40
def STF_PORT_STATUS (k : Nat) : Nat := 0x00E01004 + k * 0x40
def STF_PORT_DELAY (k : Nat) : Nat := 0x00E01008 + k * 0x40
def STF_PORT_RETRY (k : Nat) : Nat := 0x00E0100C + k * 0x40
def STF_BIND_STATE (b : Nat) : Nat := 0x00E10000 + b * 0x10
def STF_BIND_SENT (b : Nat) : Nat := 0x00E10004 + b * 0x10
def STF_BIND_DROP (b : Nat) : Nat := 0x00E10008 + b * 0x10
abbrev CAP_EVENT : Nat := 0x01000008
abbrev CAP_EVENT_EN : Nat := 0x0100000C
abbrev CAP_EVENT_VEC : Nat := 0x01000010
abbrev CAP_VAT_BW : Nat := 0x01000014
abbrev CAP_SPILL_ETYPE : Nat := 0x01000018
abbrev CAP_PRESS_LEAD : Nat := 0x01000024
abbrev CAP_SPILL_DST_LO : Nat := 0x0100001C
abbrev CAP_SPILL_DST_HI : Nat := 0x01000020
def CAP_TRIG_CFG (n : Nat) : Nat := 0x01000030 + n * 0x4
def CAP_TRIG_STAMP_LO (n : Nat) : Nat := 0x01000040 + n * 0x8
def CAP_TRIG_STAMP_HI (n : Nat) : Nat := 0x01000044 + n * 0x8
abbrev CAP_CLAMP_COUNT : Nat := 0x010000C0
def CAP_VAT_CFG (h : Nat) : Nat := 0x01000100 + h * 0x40
def CAP_VAT_BASE_LO (h : Nat) : Nat := 0x01000104 + h * 0x40
def CAP_VAT_BASE_HI (h : Nat) : Nat := 0x01000108 + h * 0x40
def CAP_VAT_PRE (h : Nat) : Nat := 0x0100010C + h * 0x40
def CAP_VAT_POST (h : Nat) : Nat := 0x01000110 + h * 0x40
def CAP_VAT_STATUS (h : Nat) : Nat := 0x01000114 + h * 0x40
def CAP_VAT_WPTR_LO (h : Nat) : Nat := 0x01000118 + h * 0x40
def CAP_VAT_WPTR_HI (h : Nat) : Nat := 0x0100011C + h * 0x40
def CAP_VAT_OLDEST_LO (h : Nat) : Nat := 0x01000120 + h * 0x40
def CAP_VAT_OLDEST_HI (h : Nat) : Nat := 0x01000124 + h * 0x40
def CAP_VAT_TRIG_LO (h : Nat) : Nat := 0x01000128 + h * 0x40
def CAP_VAT_TRIG_HI (h : Nat) : Nat := 0x0100012C + h * 0x40
def CAP_VAT_DROP (h : Nat) : Nat := 0x01000130 + h * 0x40
def CAP_SPILL_CFG (k : Nat) : Nat := 0x01000200 + k * 0x10
def CAP_SPILL_STATUS (k : Nat) : Nat := 0x01000204 + k * 0x10
def CAP_SPILL_FRAMES_LO (k : Nat) : Nat := 0x01000208 + k * 0x10
def CAP_SPILL_FRAMES_HI (k : Nat) : Nat := 0x0100020C + k * 0x10
def CAP_PRESS_STATE (c : Nat) : Nat := 0x01000400 + c * 0x20
def CAP_PRESS_SENT_LO (c : Nat) : Nat := 0x01000404 + c * 0x20
def CAP_PRESS_SENT_HI (c : Nat) : Nat := 0x01000408 + c * 0x20
def CAP_PRESS_LATE (c : Nat) : Nat := 0x0100040C + c * 0x20
def CAP_PRESS_SKIP (c : Nat) : Nat := 0x01000410 + c * 0x20
abbrev MEM_STATUS : Nat := 0x01100000
abbrev MEM_CFG : Nat := 0x01100004
abbrev MEM_EVENT : Nat := 0x01100008
abbrev MEM_EVENT_EN : Nat := 0x0110000C
abbrev MEM_EVENT_VEC : Nat := 0x01100010
abbrev MEM_WIN_BASE : Nat := 0x01100014
abbrev MEM_UE_ADDR_LO : Nat := 0x01100020
abbrev MEM_UE_ADDR_HI : Nat := 0x01100024
abbrev MEM_INJ_LO : Nat := 0x01100028
abbrev MEM_INJ_HI : Nat := 0x0110002C
abbrev MEM_INJ_CMD : Nat := 0x01100030
abbrev MEM_CLAMP_COUNT : Nat := 0x011000C0
def MEM_CH_STATUS (c : Nat) : Nat := 0x01101000 + c * 0x20
def MEM_CH_CE (c : Nat) : Nat := 0x01101004 + c * 0x20
def MEM_CH_UE (c : Nat) : Nat := 0x01101008 + c * 0x20
def MEM_CH_SCRUB (c : Nat) : Nat := 0x0110100C + c * 0x20
def MEM_CH_TRAIN (c : Nat) : Nat := 0x01101010 + c * 0x20
abbrev PWR_STATUS : Nat := 0x01200000
abbrev PWR_EVENT : Nat := 0x01200008
abbrev PWR_EVENT_EN : Nat := 0x0120000C
abbrev PWR_EVENT_VEC : Nat := 0x01200010
abbrev PWR_HIB_CTRL : Nat := 0x01200014
abbrev PWR_HIB_TIMER_LO : Nat := 0x01200018
abbrev PWR_HIB_TIMER_HI : Nat := 0x0120001C
abbrev PWR_HIB_CAUSE : Nat := 0x01200020
abbrev PWR_CLAMP_COUNT : Nat := 0x012000C0
def PWR_CL_CTRL (d : Nat) : Nat := 0x01201000 + d * 0x10
def PWR_CL_STATUS (d : Nat) : Nat := 0x01201004 + d * 0x10
def PWR_CL_COUNT (d : Nat) : Nat := 0x01201008 + d * 0x10
abbrev COL_STATUS : Nat := 0x01300000
abbrev COL_MB_CTRL : Nat := 0x01300004
abbrev COL_EVENT : Nat := 0x01300008
abbrev COL_EVENT_EN : Nat := 0x0130000C
abbrev COL_EVENT_VEC : Nat := 0x01300010
abbrev COL_FREEZE_CFG : Nat := 0x01300014
abbrev COL_THERM_CFG : Nat := 0x01300018
abbrev COL_MAINT_STATUS : Nat := 0x0130001C
abbrev COL_CLAMP_COUNT : Nat := 0x013000C0
def COL_MB_REQ (i : Nat) : Nat := 0x01300100 + i * 0x4
def COL_MB_RSP (i : Nat) : Nat := 0x01300200 + i * 0x4
abbrev GLB_RESET_CAUSE : Nat := 0x00000014
def TB_IRQ_STAMP_COUNT (v : Nat) : Nat := 0x00F0100C + v * 0x10

end Reg

end Sys2Proof.Machine
end

