-- ==== Sys2Proof/Machine/State.lean ====
section
/-! DEFINITION. The state of the module, as plain data: every register, memory, queue, buffer, counter, mode and pin the
manual gives it, and the queue of commands that wait. The setup registers that hold configuration, event bits and counters
are in `regs`; a register that only reports other state is computed when it is read (Machine/Bar0.lean). -/

namespace Sys2Proof.Machine

/-- Why the module stops with a fault. No rule of the manual stops the module in a way a command could meet: every
command has an effect or none, so no meaning raises one. The one constructor keeps the type inhabited; it is raised nowhere (safe). -/
inductive Fault where
  | none_
  deriving DecidableEq, Repr

/-- Why a command has no meaning in the model. -/
inductive Refusal where
  /-- raised by Machine/Dispatch.lean for a command whose meaning is not written yet; safe -/
  | notModelled (mnemonic : String)
  deriving DecidableEq, Repr

/-! ## What leaves the module -/

/-- One write of the Host Port to host memory (R82, R94); `kind` as a FLR_DROP log entry codes it (R427):
0 data, 1 write-back, 2 completion entry, 3 MSI-X. -/
structure HostWrite where
  fn : Nat
  kind : Nat
  qid : Nat
  tag : W32
  addr : W64
  data : List Byte
  vector : Nat
  deriving DecidableEq, Repr

/-- What the module sends across its pins and links. The model's own record: nothing in the module reads it.
(DESIGN CHOICE, log entry 90) -/
inductive Out where
  /-- a write TLP to host memory -/
  | hostWrite (w : HostWrite)
  /-- an MSI-X message of a module vector (R104) -/
  | msix (vector : Nat)
  /-- a read request to host memory (R98, R65, R128, R214) -/
  | hostRead (fn : Nat) (addr : W64) (bytes : Nat)
  /-- a frame sent on a fronthaul port, FCS included (R301, R306, R311) -/
  | frame (port : Nat) (data : List Byte)
  /-- a stitch frame sent on a stitch port, with the lane of the port, by index, that carries each of its 32-byte units (R336) -/
  | stitch (port : Nat) (f : StfFrame) (lanes : List Nat)
  /-- a spill frame sent on spill port `k` (R377) -/
  | spill (k : Nat) (data : List Byte)
  /-- an answer of Serham on a transport (R419, R420) -/
  | serham (transport : Nat) (data : List Byte)
  /-- samples of one container sent in a basic frame of a CPRI port, from payload bit `pos` (R309) -/
  | cpri (port pos : Nat) (data : List Byte)
  /-- the bit, or at PAM4 rates the symbol, that error injection sends in place of the pattern's (R328) -/
  | testError (lane level : Nat)
  /-- a training request or answer sent to a lane's partner (R321) -/
  | laneCtl (lane : Nat) (code : Nat)
  deriving DecidableEq, Repr

/-! ## Global and reset state (Architecture of the module; Bring-up and reset) -/

structure GlbState where
  /-- GLB_STATUS.CORE_READY (R15, R439) -/
  coreReady : Bool := false
  /-- GLB_STATUS.MEM_READY (R15, R393) -/
  memReady : Bool := false
  /-- GLB_STATUS.FROZEN (R434) -/
  frozen : Bool := false
  /-- GLB_RESET_CAUSE.CAUSE as the latest reset left it (R440) -/
  resetCause : Nat := 1
  /-- the latched high words of 64-bit counters and time triples (R8, R49), by the address of the latched word -/
  latch : SMap W32 := []
  deriving DecidableEq, Repr

/-! ## Timebase -/

/-- Times below are whole numbers of the unit u = 2^-40 ns × 10^-6, in which every rate, slew part and
adjustment is exact (R30, R34). -/
structure TbState where
  /-- the raw counter (R29) -/
  raw : BitVec 64 := 0
  /-- the offset, in u (R30) -/
  offsetU : Int := 0
  /-- the rate in force, ns per tick × 2^40 (R32) -/
  rate : Nat := 0x10000000000
  /-- a committed rate that waits for the next tick (R32) -/
  pendingRate : Option Nat := none
  /-- TB_CTRL.SOURCE in force: true STITCH (R39) -/
  stitchSource : Bool := false
  /-- the adjustment not yet applied, in u (R33, R34) -/
  remainU : Int := 0
  /-- SLEW part of the last ticks below 2^-40 ns is carried in the unit u itself. TB_REFUSED, 2^-16 ns (R35) -/
  refused : Int := 0
  /-- TB_STATUS.HOLDOVER (R47, R48) -/
  holdover : Bool := false
  /-- TB_STATUS.SLEEP_OVF (R47) -/
  sleepOvf : Bool := false
  /-- TB_STATUS.SYNCE_LOS (R41) -/
  synceLos : Bool := false
  /-- SYNCE_IN and TREF_IN detected at their inputs (R40, R462) -/
  synceInPresent : Bool := false
  trefInPresent : Bool := false
  /-- TB_STATUS.REF_PRESENT and TIME_LOCKED (R40) -/
  refPresent : Bool := true
  timeLocked : Bool := false
  /-- the reference the PLL runs on, which REF_SEL names within 10 ms (R40) -/
  refInUse : Nat := 0
  /-- a whole second was crossed in the latest tick and PPS_OUT has not risen for it (R43) -/
  ppsDue : Bool := false
  /-- level of the PPS_OUT pin (R43) -/
  ppsOut : Bool := false
  deriving DecidableEq, Repr

/-! ## Slot grid -/

/-- The words of a half (R53: pages × 32 words, word index = page × 32 + word) or of the carrier page; unlisted words are 0. -/
abbrev SetWords := SMap W32

/-- An arm whose completion is still to come (R66). -/
structure ArmRef where
  ref : DRef
  /-- it resolved late and no later arm superseded it (R68) -/
  late : Bool
  deriving DecidableEq, Repr

/-- The armed bank of a half (R54, R68). -/
structure ArmedSet where
  /-- target slot, as a slot number counted from the grid origin without wrapping -/
  slot : Int
  /-- the generation it couches -/
  gen : Nat
  words : SetWords
  start : Bool := false
  stop : Bool := false
  /-- the arm that couches: LATE where set -/
  late : Bool := false
  /-- arms that complete at this half's couch; the last one is the arm that couches, earlier ones are superseded -/
  refs : List ArmRef := []
  deriving DecidableEq, Repr

/-- The latch of one live slot of a half (R58): the felt words with which the slot is processed for its whole life. -/
structure SlotLatch where
  slot : Int
  words : SetWords
  gen : Nat
  aborted : Bool := false
  deriving DecidableEq, Repr

structure HalfState where
  mould : SetWords := []
  /-- mould generation (R55) -/
  gen : Nat := 1
  armed : Option ArmedSet := none
  felt : SetWords := []
  feltGen : Nat := 0
  /-- the copy of the armed content into the new mould bank runs (R56), and the writes that wait for it -/
  copying : Bool := false
  waitingWrites : List (Nat × W32) := []
  /-- the half couches at its boundaries: it was started and not yet stopped -/
  running : Bool := false
  /-- the next boundary of the half, as a slot number -/
  nextSlot : Int := 0
  /-- the slot whose boundary fired last since the carrier's last start, its stop slot included (R67, R141) -/
  curSlot : Option Int := none
  /-- slots of the half that have begun and not expired (R77, R78) -/
  live : List SlotLatch := []
  /-- a DISABLE waits for the half's next boundary (R76) -/
  disableNext : Bool := false
  deriving DecidableEq, Repr

/-- Carrier states with the codes of SLT_CSTATE_c (R74, R79). -/
inductive CarrierMode where
  | stopped | starting | running | draining | disabled
  deriving DecidableEq, Repr

structure Carrier where
  mode : CarrierMode := .stopped
  /-- DRAINING after a disable rather than after a stop (R74) -/
  disabling : Bool := false
  /-- a CARRIER_CTRL ENABLE waits for the drain's end (R24) -/
  enablePending : Bool := false
  /-- carrier page: mould, as the START arm captured it, and felt (R60) -/
  pageMould : SetWords := []
  pageArmed : SetWords := []
  pageFelt : SetWords := []
  ul : HalfState := {}
  dl : HalfState := {}
  deriving DecidableEq, Repr

/-- A MOULD_LOAD whose data is being fetched (R65). -/
structure MouldLoad where
  ref : DRef
  carrier : Nat
  /-- 0 carrier page, 1 UL, 2 DL; the module set is carrier 0xFFFF with half 1 -/
  half : Nat
  page : Nat
  pages : Nat
  addr : W64
  deriving DecidableEq, Repr

structure SltState where
  /-- one context per carrier 0 to 511 -/
  carriers : SMap Carrier := []
  /-- the module set: one half (R72) -/
  modSet : HalfState := {}
  /-- the module set felt before its last couch: frames whose first byte came before it are captured under it (R363) -/
  modBefore : SetWords := []
  /-- when that couch was, in 2^-16 ns -/
  modCouch : Int := 0
  loads : List MouldLoad := []
  /-- the committed grid origin, in ns (R50, R79) -/
  originNs : Int := 0
  /-- the reference frame whose boundary fires next (R50, R53) -/
  nextFrame : Int := 1
  deriving DecidableEq, Repr

/-! ## Host Port -/

/-- A stored ring context with the ring's running state (R86, R99, R103, R106). -/
structure Ring where
  enable : Bool := false
  /-- DIR: true for a completion ring -/
  completion : Bool := false
  owner : Nat := 0
  log2Size : Nat := 6
  batch : Nat := 16
  vec : Nat := 0
  irqEn : Bool := false
  base : W64 := 0
  wb : W64 := 0
  cq : Nat := 0
  modCount : Nat := 1
  modTime : Nat := 0
  hostIdx : Nat := 0
  devIdx : Nat := 0
  /-- the slot after the last one whose fetch was issued: DEV_IDX follows it as batches land (R98) -/
  fetchIdx : Nat := 0
  /-- OPEN of a submission ring, RESERVED of a completion ring -/
  openCount : Nat := 0
  /-- PHASE of the next entry -/
  phase : Bool := true
  clampCount : Nat := 0
  /-- entries written since the ring's last interrupt (R103) -/
  unsignalled : Nat := 0
  /-- a function-level reset disables this completion ring once RESERVED is 0 (R110) -/
  disableAtZero : Bool := false
  /-- a commit enabled this submission ring while it drained (R24) -/
  enablePending : Bool := false
  /-- CQ and owner with which the ring was enabled last: those of the descriptors it has fetched (R99) -/
  openCq : Nat := 0
  openOwner : Nat := 0
  deriving DecidableEq, Repr

/-- A batch whose read is in flight (R98). -/
structure Batch where
  ring : Nat
  slot : Nat
  count : Nat
  deriving DecidableEq, Repr

/-- A fetched descriptor that is not yet delivered (R91). -/
structure Fetched where
  /-- place of the descriptor in its ring's fetch order -/
  seq : Nat
  desc : Desc
  deriving DecidableEq, Repr

structure MsixEntry where
  addr : W64 := 0
  data : W32 := 0
  /-- vector control: mask bit, 1 after reset as PCIe states -/
  masked : Bool := true
  deriving DecidableEq, Repr

/-- The configuration state of one PCIe function that the manual's rules read. -/
structure PcieFn where
  msixEnable : Bool := false
  busMaster : Bool := false
  /-- in function-level reset (R110) -/
  flr : Bool := false
  /-- host writes that wait for Bus Master Enable (R104) -/
  waiting : List HostWrite := []
  deriving DecidableEq, Repr

structure HpState where
  rings : SMap Ring := []
  fns : SMap PcieFn := []
  msix : SMap MsixEntry := []
  /-- pending bits of the PBAs, by module vector (R104) -/
  pba : List Nat := []
  vfEnable : Bool := false
  numVfs : Nat := 0
  inFlight : List Batch := []
  fetched : List Fetched := []
  nextSeq : Nat := 0
  /-- QID after which the fetch scheduler's round-robin goes on (R98) -/
  rrLast : Nat := 65535
  /-- a ring context commit is in progress (R106) -/
  busy : Bool := false
  dlUp : Bool := false
  flit : Bool := false
  width : Nat := 0
  speed : Nat := 0
  /-- LINK_DOWN was set while the link could not deliver it (R112) -/
  linkDownHeld : Bool := false
  /-- Subsystem Vendor ID and Subsystem ID (R81, R422) -/
  subsys : W32 := 0
  deriving DecidableEq, Repr

/-! ## Queue Manager and Spine -/

structure QItem where
  prio : Nat
  tag : BitVec 16
  words : List QWord
  /-- place in commit order -/
  seq : Nat := 0
  deriving DecidableEq, Repr

/-- What an open item is doing (R116, R120, R154). -/
inductive OpenPhase where
  | writing | committed | held
  deriving DecidableEq, Repr

structure OpenItem where
  prod : Producer
  item : QItem
  phase : OpenPhase := .writing
  deriving DecidableEq, Repr

/-- A producer whose item was ended under it: its later words are discarded until its next start-of-item, and its
commit returns the status (R117 to R119, R124, R126); `flush` counts those words in FLUSH_WORDS. -/
structure DropMark where
  prod : Producer
  status : Nat
  flush : Bool := false
  deriving DecidableEq, Repr

/-- What a producer sends to a queue (R116 to R120). -/
inductive PortOp where
  | start (prio : Nat) (tag : BitVec 16)
  | word (w : QWord)
  | commit
  deriving DecidableEq, Repr

/-- A message of a producer that waits: its queue has no room, or an earlier message of the producer waits (R118). -/
structure PortMsg where
  qid : Nat
  prod : Producer
  op : PortOp
  deriving DecidableEq, Repr

/-- A queue context (R114, R136) with the queue's content. -/
structure Queue where
  enable : Bool := false
  /-- 0 NONE, 1 HOST, 2 MODULE, 3 ONCHIP -/
  kind : Nat := 0
  stall : Bool := false
  log2Words : Nat := 4
  bank : Nat := 0
  base : Nat := 0
  resScale : Nat := 0
  itemMax : Nat := 1
  reserve7 : Nat := 0
  idleTicks : Nat := 0
  noticeEn : Bool := false
  noticeFlag : Nat := 0
  noticeTask : Nat := 0
  commitEn : Bool := false
  commitFlag : Nat := 0
  commitTask : Nat := 0
  bindEn : Bool := false
  bindHalf : Nat := 3
  bindCarrier : Nat := 0
  /-- visible items, in commit order -/
  visible : List QItem := []
  /-- open items, in the order of their start-of-item words -/
  opens : List OpenItem := []
  drops : List DropMark := []
  /-- stalled consumers, in the order in which they stalled (R122) -/
  stalled : List Consumer := []
  /-- consumers whose stall ended without an item, with the status they receive (R122, R126) -/
  released : List (Consumer × Nat) := []
  /-- items that stalled consumers have been given and not yet taken up (R122) -/
  served : List (Consumer × QItem) := []
  nextSeq : Nat := 0
  flushWords : Nat := 0
  dropItems : Nat := 0
  evict : Nat := 0
  notices : Nat := 0
  spellNotified : Bool := false
  /-- raw counter at the last commit or completed read: a quiet spell runs from it while an item is visible (R123) -/
  spellStart : Option Nat := none
  /-- an enable waits for the drain's end (R24), with the descriptors that asked for it -/
  enablePending : Bool := false
  enableRefs : List DRef := []
  deriving DecidableEq, Repr

/-- A QUEUE_WRITE whose words are being fetched, or that waits for room in a STALL queue (R128). -/
structure QWrite where
  ref : DRef
  qid : Nat
  prio : Nat
  tag : BitVec 16
  length : Nat
  addr : W64
  /-- the fetched words, once they are here and wait for room -/
  words : List QWord := []
  fetched : Bool := false
  /-- its start-of-item word was accepted -/
  opened : Bool := false
  deriving DecidableEq, Repr

structure QmState where
  queues : SMap Queue := []
  busy : Bool := false
  writes : List QWrite := []
  /-- messages of other producers that wait for room, oldest first (R118) -/
  ports : List PortMsg := []
  /-- what the latest ITEM_READ command delivered, with its status; the model's own record -/
  lastRead : Option (Nat × Consumer × Nat × Option QItem) := none
  /-- what the latest commit of a producer outside the module's own engines returned; the model's own record -/
  lastCommit : Option (Nat × Producer × Nat) := none
  deriving DecidableEq, Repr

structure Burst where
  requester : Nat
  /-- SCLK cycles waited so far -/
  waited : Nat
  deriving DecidableEq, Repr

/-- One of the 49 arbiters (R131). -/
structure Arbiter where
  bursts : List Burst := []
  /-- bursts that found the buffer full and wait at their requesters' ports, in the order in which they came (R131) -/
  ports : List Burst := []
  inFlight : Option Nat := none
  /-- the requester served last, by rank: where round-robin goes on (R131, R133) -/
  lastServed : SMap Nat := []
  deriving DecidableEq, Repr

structure SpnState where
  arbiters : SMap Arbiter := []
  /-- requesters whose PRESENT is low (R134) -/
  absent : List Nat := List.range 145
  /-- requesters whose PRESENT falls once their bursts in flight have ended (R134) -/
  leaving : List Nat := []
  deriving DecidableEq, Repr

/-! ## Gatherer -/

/-- Task states with the codes of R139. -/
inductive TaskMode where
  | undef | idle | waiting | ready | running | cancelledRunning
  deriving DecidableEq, Repr

/-- A task record (R138). -/
structure Task where
  mode : TaskMode := .undef
  waitMask : W32 := 0
  armMask : W32 := 0
  /-- MODE: true ANY -/
  any : Bool := false
  latchEn : Bool := false
  cls : Nat := 0
  rank : Nat := 0
  /-- 0 to 511, or 0xFFFF for an unbound task -/
  carrier : Nat := 0
  /-- HALF as defined: 1 UL, 2 DL; 0 before a definition and for an unbound task -/
  half : Nat := 0
  sigEn : Bool := false
  sig : Nat := 0
  dlUs : Nat := 0
  arg0 : W32 := 0
  arg1 : W32 := 0
  arg2 : W32 := 0
  pending : W32 := 0
  latch : W32 := 0
  slot : W32 := 0
  /-- the slot number the slot tag stands for -/
  slotNum : Int := 0
  seq : Nat := 0
  timeout : Bool := false
  /-- corrected time of the wait deadline, in u (R149) -/
  deadlineU : Int := 0
  /-- order in which tasks became READY (R144) -/
  readyOrder : Nat := 0
  /-- PENDING in the cycle the task became READY (R147) -/
  readyPending : W32 := 0
  /-- the leaf that runs the task -/
  leaf : Nat := 0
  deriving DecidableEq, Repr

/-- The end of a sequence number (R152). -/
structure SigEntry where
  seq : Nat
  void : Bool
  /-- a held item waits for publication -/
  held : Bool := false
  /-- the entry occupies the pool of held releases (R154) -/
  pooled : Bool := false
  deriving DecidableEq, Repr

structure Signature where
  outqEn : Bool := false
  outQid : Nat := 0
  outEn : Bool := false
  outFlag : Nat := 0
  outTask : Nat := 0
  next : Nat := 0
  alloc : Nat := 0
  entries : List SigEntry := []
  deriving DecidableEq, Repr

/-- A FETCH that waits (R144). -/
structure FetchWait where
  cls : Nat
  leaf : Nat
  deriving DecidableEq, Repr

/-- A RELEASE that waits for the pool (R154). -/
structure ReleaseWait where
  leaf : Nat
  task : Nat
  handover : Bool
  deriving DecidableEq, Repr

/-- The sources of flag sets (R142). Flag sets of one source arrive in the order they were sent (R130, R200). Which units the manual
counts as one source it does not say: here the Queue Manager, the three engines together, the Stitch ports together, the slot grid
and the signatures are one source each, a leaf and a DMA channel each its own. (DESIGN CHOICE, log entry 111) -/
inductive FlagSource where
  | leaf (n : Nat)
  | dma (ch : Nat)
  | queue
  | slotGrid
  | engine
  | signature
  | stitch
  deriving DecidableEq, Repr

/-- A flag set on its way to a task record: a mask of flags. -/
structure FlagNotify where
  src : FlagSource
  task : Nat
  mask : W32
  deriving DecidableEq, Repr

structure GthState where
  tasks : SMap Task := []
  sigs : SMap Signature := []
  fetches : List FetchWait := []
  credits : Nat := 8
  lastClass : Nat := 63
  readyCount : Nat := 0
  /-- signatures whose NEXT entry has ended, in the order in which it became publishable (R154) -/
  publish : List Nat := []
  waitingReleases : List ReleaseWait := []
  deriving DecidableEq, Repr

/-! ## Leaves -/

/-- The V operations (R187). -/
inductive VOp where
  | nop | add | sub | neg | shl | shr | conj | mov | and | or | xor | mulj | bcast
  | mac (form : Nat) (upd : Nat)
  | aclr | sac | aadd | amov | asum
  deriving DecidableEq, Repr

/-- The S operations (R188). -/
inductive SOp where
  | nop | rep | add | sub | and | or | xor | shl | sra
  deriving DecidableEq, Repr

/-- The control operations (R190). -/
inductive COp where
  | nop | addi | mov | mulg | shr | slt | sltu | min | max | br | beqz | bnez | bltz | bgez | jal | jr | babt | rep
  | fetch | qpop | qpush | qcommit | qrewind | signal | release | statw | statr | halt
  deriving DecidableEq, Repr

/-- An operation in a slot of a bundle (R183), with its fields as the slot holds them. -/
inductive LeafOp where
  | v (op : VOp) (vd va vb vx : Nat)
  | s (op : SOp) (gd ga gb : Nat)
  | c (op : COp) (rd ra rb imm : Nat)
  | imm (add : Bool) (rd : Nat) (value : W32)
  | mem (x : Bool) (mop w pn reg : Nat)
  | wide (x : Bool) (mop w pn reg : Nat) (u : Bool) (sh off : Nat)
  deriving DecidableEq, Repr

/-- Why a leaf does not issue (R182, R201). (DEDUCED, log entry 92) -/
inductive LeafWait where
  | none
  | fetch (cls : Nat)
  | qpop (qid rd pn : Nat)
  | release (rd : Nat) (handover : Bool)
  /-- a fetch that first releases the task held (R201) -/
  | releaseThenFetch (cls : Nat)
  /-- a qpush to a full STALL queue (R118, R199) -/
  | qpush
  /-- a bundle that needs the register of a qcommit whose status has not come back (R199) -/
  | status
  deriving DecidableEq, Repr

/-- What a leaf sends to the Queue Manager; a word that finds no room stays with the leaf (R199). -/
inductive LinkMsg where
  | word (qid : Nat) (start : Option (Nat × BitVec 16)) (w : QWord)
  | commit (qid rd : Nat)
  deriving DecidableEq, Repr

/-- A result whose latency runs: what its register held before, and the result (R181, R197). -/
structure Recent where
  /-- issue cycle of the producing bundle -/
  issued : Nat
  latency : Nat
  /-- 0–63 register codes, 64–79 V, 80–83 A (R206) -/
  reg : Nat
  old : Nat
  new : Nat
  deriving DecidableEq, Repr

/-- Stored bytes whose latency runs: where they lie, by Spine address, and what was there before (R181, R197). -/
structure StoreNote where
  issued : Nat
  latency : Nat
  addr : Nat
  old : List Byte
  deriving DecidableEq, Repr

/-- A commit whose status has not landed in its G register (R199). -/
structure CommitWait where
  qid : Nat
  rd : Nat
  status : Option Nat
  deriving DecidableEq, Repr

/-- The external accesses that wait for a port of a leaf's memory, and the cycles for which the first of them has waited (R162). -/
structure ExtPort where
  count : Nat := 0
  age : Nat := 0
  deriving DecidableEq, Repr

structure Leaf where
  /-- G, P, B, L and M registers by register code (R189) -/
  gp : SMap W32 := []
  v : SMap (BitVec 256) := []
  a : SMap (BitVec 640) := []
  lstat : W32 := 0
  laovIdx : W32 := 0
  pc : Nat := 0
  /-- ordinary issue cycles so far, the time against which latencies run (R185) -/
  cyc : Nat := 0
  recent : List Recent := []
  stores : List StoreNote := []
  /-- interlock and freeze cycles, QUI_STALL (R181, R182) -/
  stall : Nat := 0
  /-- external accesses that wait for XM port B (R162) -/
  ext : ExtPort := {}
  /-- external accesses that wait for the YM port (R162) -/
  extY : ExtPort := {}
  /-- the Y slot has used XM port B or the YM port in the issue cycle that runs (R162) -/
  portUsed : Bool := false
  /-- the operations of the bundle that is being put together, or that blocks -/
  staged : List LeafOp := []
  /-- a REP bundle has issued: the next bundle repeats this many times (R196) -/
  rep : Option Nat := none
  wait : LeafWait := .none
  /-- the task held (R199) -/
  task : Option Nat := none
  abortNotice : Bool := false
  /-- an abort notice that waits for the last iteration of a REP (R198, R204) -/
  abortDue : Bool := false
  buffer : List LinkMsg := []
  commits : List CommitWait := []
  haltReq : Bool := false
  halted : Bool := false
  cause : Nat := 0
  withdrawn : Nat := 0
  heldDispatch : Option Nat := none
  /-- STEP issued the bundle that now runs: the leaf halts when it completes (R203) -/
  stepping : Bool := false
  /-- the next bundle was issued by RESUME or STEP: no breakpoint matches it (R203) -/
  skipBreak : Bool := false
  deriving DecidableEq, Repr

structure QuiState where
  /-- leaf n = 8 × quire + leaf (R159); QUI_LEAF_CTRL says which are held in reset -/
  leaves : SMap Leaf := []
  /-- the leaf of the quire that each quire-store bank served last, by 16 × quire + bank (R163) -/
  banks : SMap Nat := []
  /-- the leaf of each quire whose qpush word the quire's Spine port took last (R199) -/
  portTurn : SMap Nat := []
  deriving DecidableEq, Repr

/-! ## DMA programs -/

/-- Where a program came from (R210): a DMA_RUN, or a run item with its status queue and DONE flag (R212). -/
inductive DmaOrigin where
  | host (ref : DRef)
  | item (doneEn : Bool) (doneFlag doneTask doneQid : Nat)
  deriving DecidableEq, Repr

/-- The WAIT a program stands in (R218): the queue, or the corrected time in u; and its deadline in u (R219). -/
structure DmaWait where
  qid : Option Nat
  timeU : Int
  deadlineU : Int
  deriving DecidableEq, Repr

/-- A MOVE whose bursts its engine serves (R208, R214 to R216). -/
structure DmaMove where
  src : Nat
  sw : Nat
  dst : Nat
  dw : Nat
  /-- what the host side holds, by byte of the transfer -/
  host : List Byte
  /-- offset and length of the bursts still to come, in order -/
  parts : List (Nat × Nat)
  /-- the cursors the MOVE leaves -/
  srcCur : W64
  dstCur : W64
  /-- what a unit of a circular MOVE has read and its next burst writes (R208, R216) -/
  unit : List Byte := []
  deriving DecidableEq, Repr

/-- An accepted program (R210 to R220). -/
structure DmaProg where
  origin : DmaOrigin
  tag : W32
  prog : W64
  /-- 0 to 511, or 0xFFFF for an unbound program -/
  carrier : Nat
  half : Half
  /-- slot number in the half; of the reference frame for an unbound program -/
  slotNum : Int
  clamped : Bool := false
  started : Bool := false
  index : Nat := 0
  srcCur : W64 := 0
  dstCur : W64 := 0
  /-- counters 0 and 1; none while unloaded (R217) -/
  loop0 : Option Nat := none
  loop1 : Option Nat := none
  /-- the status so far, by R27 -/
  status : Nat := 0
  /-- the latest WAIT timed out (R219) -/
  timedOut : Bool := false
  wait : Option DmaWait := none
  /-- the MOVE under way (R208) -/
  move : Option DmaMove := none
  /-- the instruction the program stands at and those fetched ahead of it, none where the fetch ended with a bus error (R213) -/
  fetched : List (Option (List W32)) := []
  deriving DecidableEq, Repr

structure DmaChan where
  enable : Bool := false
  pqStopped : Bool := false
  /-- an ENABLE waits for the drain's end, with the descriptors that asked for it (R24) -/
  enablePending : Bool := false
  enableRefs : List DRef := []
  /-- the pending list, the running program first (R210) -/
  list : List DmaProg := []
  deriving DecidableEq, Repr

/-- On whose behalf a write may reach host memory: the function, the QID and TAG a log of a dropped write names (R110). -/
structure OnBehalf where
  fn : Nat := 0
  qid : Nat := 0
  tag : W32 := 0xFFFFFFFF#32
  deriving DecidableEq, Repr

/-- A program that has ended while writes of it wait for Bus Master Enable: its end is told behind them (R94, R224). -/
structure EndedProg where
  ch : Nat
  prog : DmaProg
  /-- in whose name it wrote -/
  behalf : OnBehalf
  status : Nat
  specific : Nat
  deriving DecidableEq, Repr

structure DmaState where
  chans : SMap DmaChan := []
  /-- ends that wait for host writes, oldest first (R94, R224) -/
  ended : List EndedProg := []
  /-- by engine, the channel (0 to 15) whose burst it served last (R208) -/
  turn : SMap Nat := []
  deriving DecidableEq, Repr

/-! ## Module memory -/

/-- A fill under way (R398). -/
structure Fill where
  ref : DRef
  addr : Nat
  words : Nat
  pattern : W64
  /-- by channel, the lowest offset the fill has not reached -/
  reached : SMap Nat := []
  deriving DecidableEq, Repr

/-- The activities the maintenance scheduler keeps apart (R397, R431). -/
inductive Activity where
  | retrain (c : Nat)
  | scrub (c : Nat)
  | recal (q : Nat)
  | prbs (q : Nat)
  | spill (k : Nat)
  | laneRetrain (k lane : Nat)
  | flashWrite
  | compaction
  deriving DecidableEq, Repr

structure MemChan where
  trained : Bool := false
  selfRefresh : Bool := false
  /-- TEMP code (R394) -/
  temp : Nat := 0
  /-- the latest retraining failed and is to be tried again (R396) -/
  retryDue : Bool := false
  deriving DecidableEq, Repr

structure MemState where
  /-- the map in force (R389) -/
  mapActive : Nat := 0
  /-- the zero fill of a cold reset runs (R393) -/
  initBusy : Bool := false
  /-- symbols in error of a stored word, by the word's place in the devices (R390, R400) -/
  marks : SMap Nat := []
  chans : SMap MemChan := []
  fills : List Fill := []
  /-- maintenance activities that run and that wait, in the order they were requested (R397) -/
  running : List Activity := []
  waiting : List Activity := []
  /-- the completion of the last BAR4 read carried poisoned data, EP set (R392) -/
  poisoned : Bool := false
  deriving DecidableEq, Repr

/-! ## Power states -/

/-- States of a cluster with the codes of PWR_CL_STATUS_d (R418). -/
inductive PwrMode where
  | run | nap | doze | entering | exiting
  deriving DecidableEq, Repr

structure Cluster where
  mode : PwrMode := .run
  /-- an entry goes to Doze rather than to Nap -/
  toDoze : Bool := false
  /-- units that have accepted the entry under way (R403) -/
  accepted : List Nat := []
  /-- isolation clamps are set (R406) -/
  isolated : Bool := false
  /-- retention as the entry took it from PWR_CL_CTRL_d (R408) -/
  retSave : Bool := false
  retBanks : Nat := 0
  /-- a wake met the entry (R415) -/
  wakeSeen : Bool := false
  /-- a request written during a transition, 1 NAP, 2 DOZE; it applies when that transition ends (R415) -/
  request : Option Nat := none
  last : Nat := 0
  refuser : Nat := 0
  deriving DecidableEq, Repr

structure PwrState where
  clusters : SMap Cluster := []
  /-- a Hibernate handshake is in progress, with the blocks that have accepted (R403, R405) -/
  hibBusy : Bool := false
  hibAccepted : List Nat := []
  /-- the module is in Hibernate (R411) -/
  asleep : Bool := false
  /-- wake sources that fired during the entry (R415) -/
  wakeSeen : Nat := 0
  lastHib : Nat := 0
  hibRefuser : Nat := 0
  hibWake : Nat := 0
  /-- PE_WAKE_N is asserted after a Hibernate exit (R414) -/
  peWake : Bool := false
  deriving DecidableEq, Repr

/-! ## Engines: Spatial, Coding, Spectral -/

inductive JobOrigin where
  /-- a job descriptor -/
  | host (ref : DRef)
  /-- an item of job queue `k` (R230) -/
  | queue (k : Nat)
  deriving DecidableEq, Repr

/-- What a Coding job has come to so far (R252, R254, R257). -/
structure CodProgress where
  /-- code blocks, those taken by a unit, and those that have ended -/
  blocks : Nat := 1
  begun : Nat := 0
  ended : Nat := 0
  /-- the stored soft bits are combined (R252) -/
  combine : Bool := false
  /-- the buffer's header was written as TORN (R254) -/
  torn : Bool := false
  storedRvs : Nat := 0
  copied : Bool := false
  hqShort : Bool := false
  softLost : Bool := false
  cbFail : Nat := 0
  iterSum : Nat := 0
  iterPeak : Nat := 0
  metric : W32 := 0
  tbOk : Bool := false
  /-- the decoded bits of the blocks that have ended, packed, in the order in which they ended: (r, bytes) -/
  bits : List (Nat × List Byte) := []
  deriving DecidableEq, Repr

/-- An accepted job of an engine (R230, R248, R288). -/
structure EngJob where
  /-- order of acceptance -/
  seq : Nat
  origin : JobOrigin
  /-- KIND of the record -/
  kind : Nat
  carrier : Nat
  half : Half
  slotNum : Int
  slot : W32
  tag : W32
  /-- the record's sixteen words, as clamped -/
  words : List W32
  clamped : Bool
  running : Bool := false
  /-- tile, group of units or group of pipelines -/
  place : Nat := 0
  /-- the job's own status and those of its commits so far, by R27 -/
  status : Nat := 0
  specific : Nat := 0
  /-- the job has done all its work and only ends -/
  finished : Bool := false
  cod : CodProgress := {}
  deriving DecidableEq, Repr

structure Engine where
  enable : Bool := true
  /-- groups that a CTRL descriptor took out of service -/
  groupsOff : List Nat := []
  enablePending : Bool := false
  enableRefs : List DRef := []
  jobs : List EngJob := []
  nextSeq : Nat := 0
  /-- by rank, the source served last (R237) -/
  lastSource : SMap Nat := []
  deriving DecidableEq, Repr

/-- State of a weight buffer with the codes of SPA_WBUF_STATE (R236, R243). -/
structure WBuf where
  /-- 0 EMPTY, 1 VALID, 2 WRITING, 3 INVALID -/
  state : Nat := 0
  slot : W32 := 0
  deriving DecidableEq, Repr

structure SpaState where
  /-- by carrier × 8 + half × 4 + buffer, with half 0 UL and 1 DL -/
  wbufs : SMap WBuf := []
  deriving DecidableEq, Repr

/-- Samples a receive stream holds: antenna, slot, first sample, count and the samples themselves (R268, R271). -/
structure RxPart where
  ant : Nat
  slot : W32
  offset : Nat
  count : Nat
  samples : List (Int × Int) := []
  deriving DecidableEq, Repr

/-- A symbol of a stream: slot, antenna, symbol. -/
structure SymRef where
  slot : W32
  ant : Nat
  sym : Nat
  deriving DecidableEq, Repr

/-- A carrier's receive and transmit streams (R271, R272). -/
structure Streams where
  parts : List RxPart := []
  /-- receive symbols that have been processed, of slots not yet expired -/
  rxDone : List SymRef := []
  /-- transmit items taken from the queue, by tag, oldest first -/
  txItems : List (Nat × List QWord) := []
  /-- decided transmit symbols of live slots, with whether each is on -/
  txDone : List (SymRef × Bool) := []
  /-- symbols that were decided without their item, at most one of each antenna and symbol number -/
  txMissing : List SymRef := []
  /-- by antenna, the start of the last on symbol's useful part, which a ramp extends (R273) -/
  tails : SMap (List (Int × Int)) := []
  deriving DecidableEq, Repr

/-- The transmit path of a carrier (R274, R290). -/
structure TxPath where
  /-- 0 OFF, 1 QUALIFY, 2 SERVICE, 3 FAILED -/
  state : Nat := 0
  passRun : Nat := 0
  slotsRun : Nat := 0
  margin : BitVec 16 := 0
  /-- the smallest margin of this QUALIFY with its antenna and segment; none before the first slot -/
  worst : Option (Int × Nat × Nat) := none
  /-- descriptors that wait for the next DL boundary (R277) -/
  requests : List DRef := []
  /-- the slot evaluated last -/
  checked : Option W32 := none
  /-- the taps read at FIR_ADDR when QUALIFY began (R275) -/
  taps : List Int := []
  /-- by antenna, the last samples that went into the FIR -/
  history : SMap (List (Int × Int)) := []
  /-- filtered samples that the mask checker has still to analyse: slot, antenna, samples -/
  filtered : List (W32 × Nat × List (Int × Int)) := []
  deriving DecidableEq, Repr

/-- A context of a detector (R281). -/
structure DetCtx where
  /-- 0 FREE, 1 VALIDATING, 2 RECEIVING -/
  mode : Nat := 0
  /-- decimated sample of the peak, counted from the air boundary of slot 0 -/
  t0 : Int := 0
  /-- P0 as a fraction: numerator and denominator -/
  p0 : Nat × Nat := (0, 1)
  /-- P0 in 1/256 dB relative to full scale -/
  power : Int := 0
  rho : Nat := 0
  rhoV : Nat := 0
  seq : Nat := 0
  /-- samples already sent -/
  sent : Nat := 0
  /-- the record with which the detection began -/
  record : List W32 := []
  /-- N_FFT with which the detection began: samples are counted at its rate -/
  fft : Nat := 2048
  deriving DecidableEq, Repr

/-- Samples a detector holds: the first one, counted from the air boundary of slot 0 at the rate of N_FFT, and whether some of them
stand for missing ones. -/
structure DetPart where
  /-- SOURCE, and ANT or IN_QID -/
  source : Nat × Nat
  start : Int
  fft : Nat
  gap : Bool
  samples : List (Int × Int)
  deriving DecidableEq, Repr

structure Detector where
  claimed : Option Nat := none
  record : List W32 := []
  ctx0 : DetCtx := {}
  ctx1 : DetCtx := {}
  nextSeq : Nat := 0
  /-- samples held, oldest first -/
  parts : List DetPart := []
  /-- sets of bins held, oldest first (SOURCE 2) -/
  sets : List (List (Int × Int)) := []
  /-- samples received of a correlation block that is not full yet (R287) -/
  corr : Nat := 0
  /-- time of the peak evaluated last -/
  lastPeak : Option Int := none
  /-- first sample and end of the occasions taken last, at most two, newest first (R285) -/
  occs : List (Int × Int) := []
  deriving DecidableEq, Repr

structure SpcState where
  streams : SMap Streams := []
  paths : SMap TxPath := []
  dets : SMap Detector := []
  /-- by pipeline, the size of its last transform; 0: none yet (R267) -/
  sizes : SMap Nat := []
  deriving DecidableEq, Repr

/-! ## Lanes -/

/-- Lane states with the codes of R318. -/
inductive LnMode where
  | off | send | train | silentWait | ready | up | adapt | loopback | test
  deriving DecidableEq, Repr

/-- What serves a lane (R314). -/
inductive LnOwner where
  | none
  | port (p : Nat)
  | spill (k : Nat)
  | stitch (k : Nat)
  | test
  deriving DecidableEq, Repr

structure Lane where
  mode : LnMode := .off
  owner : LnOwner := .none
  /-- rate code in force (R315); 0 in OFF -/
  rate : Nat := 0
  /-- the lane adapts instead of training since its last entry to SEND (R317) -/
  adapts : Bool := false
  /-- next backoff, s (R319) -/
  backoff : Nat := 1
  noPartner : Bool := false
  sigDet : Bool := false
  cdrLock : Bool := false
  /-- a RETRAIN waits for the end of spill (R324) -/
  retrainPending : Bool := false
  /-- magnitudes of c(-3), c(-2), c(-1) and c(+1) in force (R321) -/
  cm3 : Nat := 0
  cm2 : Nat := 0
  cm1 : Nat := 0
  cp1 : Nat := 0
  /-- loopback code in force, or waiting for READY (R329) -/
  loop : Nat := 0
  /-- PRBS checker synchronised, and waiting for a recalibration (R327, R324) -/
  sync : Bool := false
  prbsPending : Bool := false
  /-- the generator's register at its last periodic error; 0: none yet (R328) -/
  gen : Nat := 0
  deriving DecidableEq, Repr

structure LnState where
  lanes : SMap Lane := []
  /-- quads whose selected reference is absent (R316) -/
  qrefLost : List Nat := []
  deriving DecidableEq, Repr

/-! ## Fronthaul ports -/

structure FhPort where
  /-- the port is up: all its lanes are up and the PCS is aligned (R292) -/
  up : Bool := false
  fault : Option Nat := none
  cpriSync : Bool := false
  /-- receive time, in 2^-16 ns, of the last basic frame of a CPRI port: an RE aligns its own frames to it (R309) -/
  radio16 : Int := 0
  /-- when the frame in progress ends, in 2^-16 ns -/
  busy16 : Int := 0
  deriving DecidableEq, Repr

/-- What a receiving half holds of one slot (R302, R303): the PRBs received, as symbol × 2^20 + stream × 2^10 + PRB, the
stamp of the last frame written in 2^-16 ns by the last symbol of its group, and the groups committed. -/
structure RxSlot where
  slot : Int
  got : List Nat := []
  stamps : SMap Int := []
  done : List Nat := []
  deriving DecidableEq, Repr

/-- An item that a transmitting half has assigned to a slot (R300). -/
structure TxHead where
  slot : Int
  sym : Nat
  stream : Nat
  data : List Byte
  nextPrb : Nat := 0
  deriving DecidableEq, Repr

/-- A place in a half's stream of samples: the sample's number from slot 0 on, at the transform length in force there (R58). -/
structure TdPos where
  fft : Nat
  at' : Int
  deriving DecidableEq, Repr

/-- Time-domain samples to send (R307): from sample `start` of the carrier's grid on, counted at transform length `fft`; a ZERO item
has no data. -/
structure TdPart where
  stream : Nat
  fft : Nat
  start : Int
  count : Nat
  data : List Byte
  deriving DecidableEq, Repr

/-- What the packet engine keeps of one half of a carrier. -/
structure FhHalf where
  rx : List RxSlot := []
  head : Option TxHead := none
  /-- symbols and streams sent whole: slot, symbol, stream; and symbols whose window has closed (R300) -/
  whole : List (Int × Nat × Nat) := []
  closed : List (Int × Nat) := []
  /-- AUTO C-plane messages sent: slot, stream (R306); the head item of CP_QID -/
  cpSent : List (Int × Nat) := []
  cpHead : Option QItem := none
  /-- last ecpriSeqid received by key, and next to send by stream (R299, R306) -/
  seqIn : SMap (Option Nat) := []
  seqOut : SMap Nat := []
  td : List TdPart := []
  /-- by stream: next sample to send, and next orderInfo expected (R308) -/
  tdPos : SMap (Option TdPos) := []
  orderIn : SMap (Option Nat) := []
  /-- by stream: the first half of a 1.92 MHz sample, which two basic frames carry, with the sample's number (R309) -/
  cpriHalf : SMap (Option (Int × List Bool)) := []
  deriving DecidableEq, Repr

/-- A posted host receive buffer (R311). -/
structure RxBuf where
  ref : DRef
  fn : Nat
  len : Nat
  addr : W64
  deriving DecidableEq, Repr

/-- A host frame that waits for its port (R301, R311). -/
structure HostFrame where
  ref : DRef
  port : Nat
  data : List Byte
  deriving DecidableEq, Repr

structure FhState where
  ports : SMap FhPort := []
  /-- by carrier × 2 + half (0 UL, 1 DL) -/
  halves : SMap FhHalf := []
  bufs : List RxBuf := []
  hostTx : List HostFrame := []
  /-- stitch frames that wait at a gateway port, oldest first (R341) -/
  stitchTx : List (Nat × List Byte) := []
  /-- the second of the raw counter and the host-path frames that have passed in it, received and sent (R311) -/
  hostIn : Nat × Nat := (0, 0)
  hostOut : Nat × Nat := (0, 0)
  deriving DecidableEq, Repr

/-! ## Stitch fabric -/

/-- One end of a link or of a gateway pair (R338, R339). -/
structure LinkEnd where
  /-- SEQ of the next frame sent, and of the next frame expected -/
  nextSeq : Nat := 0
  expect : Nat := 0
  /-- a frame after ACK failed its check -/
  nak : Bool := false
  /-- frames not yet acknowledged, oldest first -/
  held : List StfFrame := []
  /-- frames that wait for credit or for the link, oldest first -/
  waiting : List StfFrame := []
  /-- credits left for requests, responses and notifies, in 32-byte units -/
  credReq : Nat := 2048
  credRsp : Nat := 2048
  credNtf : Nat := 512
  /-- resends in a row without progress -/
  resends : Nat := 0
  /-- a gateway pair that eight resends have taken down (R339, R341) -/
  down : Bool := false
  deriving DecidableEq, Repr

/-- A peer as its HELLOs tell it (R349, R352). -/
structure Peer where
  id : Nat
  serial : W64
  hellos : Nat := 1
  mapped : Bool := false
  duplicate : Bool := false
  deriving DecidableEq, Repr

structure StfPort where
  link : LinkEnd := {}
  /-- lanes admitted, by index in the port, and those that have lost lock and are still to be dropped (R335, R340) -/
  active : List Nat := []
  dropping : List Nat := []
  reversed : Bool := false
  foreign : Bool := false
  peer : Option Peer := none
  /-- the index pair of LANE_ADD frames received: own index, partner's index -/
  pairs : List (Nat × Nat) := []
  deriving DecidableEq, Repr

/-- A binding (R342). -/
structure Binding where
  /-- 0 OFF, 1 QUEUE, 2 EVENT -/
  kind : Nat := 0
  src : Nat := 0
  dst : Nat := 0
  dstQid : Nat := 0
  /-- items that await their QRESULT -/
  inFlight : Nat := 0
  /-- the words of an EVENT item already read and not yet sent -/
  words : List QWord := []
  draining : Bool := false
  deriving DecidableEq, Repr

/-- A broadcast that waits for its time (R347): FREEZE, or TRIGGER of a line; T in 2^-16 ns. -/
structure Broadcast where
  trigger : Bool
  line : Nat
  t : Int
  /-- short stamp of T as broadcast -/
  stamp : W64
  origin : Nat
  seq : Nat
  deriving DecidableEq, Repr

/-- A broadcast that has been heard of (R347). -/
structure Heard where
  trigger : Bool
  origin : Nat
  seq : Nat
  t : Int
  deriving DecidableEq, Repr

/-- A region of a migration to this module (R356, R358). -/
structure MigTarget where
  carrier : Nat
  start : Nat
  len : Nat
  unitLog2 : Nat
  deriving DecidableEq, Repr

/-- A member of the group map: parent in the tree, serial number, hops, first port (R350, R352). -/
structure Member where
  parent : Nat
  serial : W64 := 0
  hops : Nat := 0
  port : Nat := 15
  deriving DecidableEq, Repr

/-- A group of the system map (R351). -/
structure GroupEntry where
  root : Nat
  locked : Bool
  mac : Nat
  deriving DecidableEq, Repr

/-- A region of a migration (R356): the copy has passed its first `copied` bytes. -/
structure MigRegion where
  src : Nat
  dst : Nat
  len : Nat
  unitLog2 : Nat
  copied : Nat := 0
  /-- acknowledged bytes -/
  acked : Nat := 0
  deriving DecidableEq, Repr

structure Migration where
  ref : DRef
  carrier : Nat
  dst : Nat
  dstCarrier : Nat
  /-- S; none while IMMEDIATE waits for the regions -/
  slot : Option Int
  deferred : Nat := 0
  maxDefer : Nat
  regions : List MigRegion
  /-- the switch is armed and the completion is still to come -/
  switched : Bool := false
  /-- the descriptor has completed; mirroring goes on until the carrier leaves DRAINING (R358) -/
  completed : Bool := false
  deriving DecidableEq, Repr

structure StfState where
  ports : SMap StfPort := []
  /-- ends of the gateway pairs, by the other gateway's MAC address (R341) -/
  gateways : SMap LinkEnd := []
  bindings : SMap Binding := []
  common : Bool := false
  timeLock : Bool := false
  dupId : Bool := false
  /-- an isolated module has been given a new ID while EN was 0 (R352) -/
  newId : Bool := false
  split : Bool := false
  /-- the group map: its root, generation, members by MEMBER -/
  root : Option Nat := none
  mapGen : Nat := 0
  members : SMap (Option Member) := []
  mapped : Bool := false
  /-- frames of the map of `mapGen` have arrived from the present root -/
  mapBegun : Bool := false
  /-- election: best candidate, plus 512 where it is not eligible, and the port it came from; none: this module itself or unknown -/
  best : Option Nat := none
  bestPort : Option Nat := none
  /-- hops still allowed to the best candidate when it arrived -/
  bestHops : Nat := 0
  settled : Bool := false
  /-- peers by port of each member that has joined this root (R350) -/
  joins : SMap (List (Option Nat)) := []
  /-- their serial numbers (R352) -/
  serials : SMap W64 := []
  /-- REGISTERs heard, by GROUP; the system map and its generation -/
  heard : SMap (Option GroupEntry) := []
  sysMap : SMap (Option GroupEntry) := []
  sysGen : Nat := 0
  sysRoot : Option Nat := none
  registered : Bool := false
  /-- T_cc as COMMON carried it, in 2^-16 ns, with whether the origin was taken (R353) -/
  tcc : Option (Int × Bool) := none
  commonSent : Bool := false
  /-- map generation for which COMMON was passed on last (R349) -/
  commonGen : Nat := 0
  /-- consecutive offsets within 2 ns, and above 4 ns (R345) -/
  goodRun : Nat := 0
  badRun : Nat := 0
  /-- broadcasts that wait for their time, and those heard of (R347); the sequence of the next FREEZE and TRIGGER -/
  pending : List Broadcast := []
  seen : List Heard := []
  bcastSeq : Nat := 0
  trigSeq : Nat := 0
  migrations : List Migration := []
  /-- writes of this module to listed regions that are still to be sent: destination module, source address, destination
  address, bytes (R356) -/
  mirror : List (Nat × Nat × Nat × Nat) := []
  /-- regions of migrations to this module, and their owned units: start of the region, unit counted from there (R358) -/
  incoming : List MigTarget := []
  owned : List (Nat × Nat) := []
  deriving DecidableEq, Repr

/-! ## Capture and replay -/

/-- States of a Vat half with the codes of R370. -/
inductive VatMode where
  | idle | armed | triggered | spilling | stream | done
  deriving DecidableEq, Repr

/-- A posted host spill buffer (R378), with the bytes written to it. -/
structure SpillBuf where
  ref : DRef
  fn : Nat
  len : Nat
  addr : W64
  /-- record bytes moved into the buffer, and the offset of the first record that starts in it -/
  fill : Nat := 0
  first : Option Nat := none
  deriving DecidableEq, Repr

/-- What a capture point offers to the Vat (R362, R366): SOURCE, the flags the point knows, stamp in 2^-16 ns, slot stamp, carrier or
0xFFFF, AUX, item priority, the payload whole, whether the first byte came before the module set's last couch (R363), and when the
record reached the Vat. -/
structure CapRec where
  kind : Nat
  index : Nat
  type : Nat
  bad : Bool := false
  window : Bool := false
  replayed : Bool := false
  beforeCouch : Bool := false
  prio : Nat := 0
  time : Int
  slot : W32 := 0
  carrier : Nat := 0xFFFF
  aux : Nat := 0
  payload : List Byte
  came : Int := 0
  deriving DecidableEq, Repr

/-- The last TRIGGER record of a half: when it was written, lines, cause, and SOURCE and SEQ of the matching record. -/
structure TrigSeen where
  time : Int
  lines : Nat
  cause : Nat
  source : Nat
  seq : Nat
  deriving DecidableEq, Repr

/-- Positions are bytes written since ARM; a ring offset is a position modulo the ring size. -/
structure VatHalf where
  mode : VatMode := .idle
  /-- capture number -/
  number : Nat := 0
  /-- next SEQ by SOURCE (R367) -/
  seqs : SMap Nat := []
  wpos : Nat := 0
  oldest : Nat := 0
  trig : Nat := 0
  /-- start and length of the records kept, oldest first -/
  recs : List (Nat × Nat) := []
  stored : Nat := 0
  storedBytes : Nat := 0
  /-- a run of losses that no GAP record covers yet: records, bytes, short stamp of the first -/
  gap : Option (Nat × Nat × W64) := none
  /-- position up to which the ring has been spilled, and FRAME_SEQ of the next frame or buffer -/
  spilled : Nat := 0
  frameSeq : Nat := 0
  /-- spill port that sent last -/
  lastPort : Nat := 23
  waitHost : Bool := false
  bufs : List SpillBuf := []
  /-- a trigger line with FREEZE_DONE fired while this half is triggered: the freeze waits for DONE (R373) -/
  freezeLine : Option Nat := none
  /-- the staging memory (R375): module addresses and the bytes that go there, oldest first -/
  staged : List (Nat × List Byte) := []
  trigSeen : Option TrigSeen := none
  deriving DecidableEq, Repr

/-- States of a Press channel with the codes of CAP_PRESS_STATE. -/
inductive PressMode where
  | idle | wait | run
  deriving DecidableEq, Repr

structure PressChan where
  mode : PressMode := .idle
  ref : Option DRef := none
  /-- carrier of the anchor; none: the reference grid -/
  carrier : Option Nat := none
  /-- start anchor in 2^-16 ns, with the slot or frame number it stands for; none while the channel waits for its line -/
  anchor : Option (Int × Int) := none
  line : Option Nat := none
  rewrite : Bool := false
  timeFirst : Bool := false
  buffer : Bool := false
  loops : Nat := 0
  addr : Nat := 0
  length : Nat := 0
  period : Nat := 1
  iter : Nat := 0
  pos : Nat := 0
  /-- TIME of the pattern's first FRAME record, in 2^-16 ns -/
  first : Option Int := none
  /-- running ecpriSeqid by key (R383) -/
  keys : SMap (Option Nat) := []
  late : Nat := 0
  shifted : Bool := false
  deriving DecidableEq, Repr

/-- A frame of the Press in the output queue of its port (R382): channel, its time in 2^-16 ns, the bytes. -/
structure PressOut where
  port : Nat
  chan : Nat
  due : Int
  data : List Byte
  deriving DecidableEq, Repr

structure CapState where
  halves : SMap VatHalf := []
  press : SMap PressChan := []
  /-- records that capture points offer, in the order in which they came (R362) -/
  offers : List CapRec := []
  /-- CAP_VAT_CTRL STOP descriptors that wait for records on their way to the rings (R372): bytes left of each half -/
  stops : List (DRef × Nat × Nat) := []
  /-- the token bucket of R375, in 10^-5 bytes, and the raw time at which it held that -/
  tokens : Nat := 2 ^ 20 * 100000
  tokenRaw : Nat := 0
  outq : List PressOut := []
  /-- lines whose output pulse is high (R373) -/
  pulses : List Nat := []
  /-- CAP_SPILL_STATUS: spill ports that are up, and the lane whose loss took one down -/
  spillUp : List Nat := []
  spillFault : SMap (Option Nat) := []
  deriving DecidableEq, Repr

/-! ## Colophon, sensors, reset -/

/-- An entry of the colophon log (R426). -/
structure LogEntry where
  type : Nat
  sev : Nat
  boot : Nat
  seq : Nat
  time : W64
  data : BitVec 128
  deriving DecidableEq, Repr

/-- States of an image slot (R428). -/
inductive SlotMode where
  | empty | valid | trial | active
  deriving DecidableEq, Repr

/-- An image slot: its state, the header's version and SVN, whether key and signature verify, and the data stored. -/
structure ImageSlot where
  mode : SlotMode := .empty
  version : W32 := 0
  svn : Nat := 0
  genuine : Bool := false
  data : List (Nat × List Byte) := []
  deriving DecidableEq, Repr

/-- An update session (R430): transport, slot, image length. -/
structure Session where
  transport : Nat
  slot : Nat
  length : Nat
  deriving DecidableEq, Repr

/-- One sample of every sensor (R423), each value in its sensor's resolution. -/
structure Sensors where
  /-- junctions, 0.0625 °C -/
  junction : List Int := []
  lid : Int := 0
  /-- 10 mV, 10 mA, 0.1 W -/
  vin : Int := 0
  iin : Int := 0
  power : Int := 0
  /-- rails: 1 mV and 10 mA -/
  rails : List (Int × Int) := []
  /-- TEMP code by channel -/
  dram : List Nat := []
  deriving DecidableEq, Repr

/-- A POWER message whose transition has not ended (R421): OP 1 DOZE, 2 HIBERNATE, 3 WAKE; the cluster, or none for the module. -/
structure PowerReply where
  transport : Nat
  seq : Nat
  op : Nat
  cluster : Option Nat
  deriving DecidableEq, Repr

structure ColState where
  /-- the MRAM ring, oldest first (R425) -/
  mram : List LogEntry := []
  /-- the flash log area, oldest first -/
  flashLog : List LogEntry := []
  nextSeq : Nat := 1
  /-- entries overwritten since the last LOST entry -/
  lost : Nat := 0
  bootCount : Nat := 0
  /-- flash records by number, bodies only; an unlisted one is absent (R422) -/
  records : SMap (List Byte) := []
  slotA : ImageSlot := { mode := .active, genuine := true }
  slotB : ImageSlot := {}
  fusedSvn : Nat := 0
  /-- the running slot, 0 A or 1 B -/
  running : Nat := 0
  /-- the TRIAL slot has been booted once (R428) -/
  trialBooted : Bool := false
  /-- the network record as the latest power-on or cold reset read it (R422) -/
  net : List Byte := []
  /-- POWER messages that wait for the end of their transition -/
  replies : List PowerReply := []
  /-- messages that wait for a flash write: transport, SEQ, opcode (R397, R419) -/
  stalled : List (Nat × Nat × Nat) := []
  recovery : Bool := false
  serhamUp : Bool := false
  session : Option Session := none
  sensors : Sensors := {}
  /-- cycles in 8 removed from LCLK and ACLK, 0 to 4 (R424) -/
  throttle : Nat := 0
  /-- conditions of R424 as the latest sample left them: warn, throttle wanted, critical -/
  warn : Bool := false
  hot : Bool := false
  critical : Bool := false
  /-- ALERT_N and THERM_N low, as they are until Serham sets them (R424, R456) -/
  alertLow : Bool := true
  thermLow : Bool := true
  /-- the raw counter at the freeze instant, and the freeze's cause and line (R427, R433) -/
  frozenRaw : BitVec 64 := 0
  freezeCause : Nat := 0
  freezeLine : Nat := 0
  /-- FREEZE_N driven low (R433) -/
  freezeLow : Bool := false
  deriving DecidableEq, Repr

/-- Why the converters are off (R424, R448, R451). -/
inductive PowerMode where
  | on | off | thermal | undervoltage | overvoltage | railFault
  deriving DecidableEq, Repr

/-- Supplies and reset pins (R437 to R444, R448, R451). -/
structure RstState where
  power : PowerMode := .on
  /-- WRST_N is low -/
  warmHeld : Bool := false
  /-- the next power-on or cold reset finds a thermal shutdown that the always-on domain remembers (R444) -/
  thermalSeen : Bool := false
  /-- GLB_RESET_CAUSE.FROZE and PIN -/
  froze : Bool := false
  pin : Bool := false
  /-- the next memory start zero-fills: power-on or cold reset, not warm reset or Hibernate exit (R393) -/
  coldMem : Bool := true
  deriving DecidableEq, Repr

/-! ## The module -/

structure State where
  /-- commands that wait, first in first out -/
  pending : List Instr := []
  /-- setup registers, by BAR0 address; an unlisted one reads its reset value (Machine/RegMap.lean) -/
  regs : SMap W32 := []
  /-- every addressed memory of the module, by Spine address (R209); an unlisted byte reads 0 (R167, R393) -/
  mem : List Host.Cell := []
  glb : GlbState := {}
  tb : TbState := {}
  slt : SltState := {}
  hp : HpState := {}
  qm : QmState := {}
  spn : SpnState := {}
  gth : GthState := {}
  qui : QuiState := {}
  /-- flag sets on their way to the Gatherer, oldest first (R129, R142) -/
  notifies : List FlagNotify := []
  /-- everything the module has sent to the outside, latest first; the model's own record -/
  out : List Out := []
  /-- whether the latest external access succeeded, and the bytes it read; the model's own record -/
  bus : Bool × List Byte := (true, [])
  /-- what the latest host read returned; the model's own record -/
  hostRead : List W32 := []
  /-- counter of the free values drawn so far; the model's own field, no fact of the manual rests on it -/
  freeCtr : Nat := 0
  col : ColState := {}
  dma : DmaState := {}
  mm : MemState := {}
  pwr : PwrState := {}
  /-- engines 0 Spatial, 1 Coding, 2 Spectral -/
  engines : SMap Engine := []
  spa : SpaState := {}
  spc : SpcState := {}
  ln : LnState := {}
  fh : FhState := {}
  stf : StfState := {}
  cap : CapState := {}
  rst : RstState := {}
  deriving DecidableEq, Repr

/-- The module right after cold reset: every field at the value its declaration gives, no command waiting (R437, R438).
(DESIGN CHOICE, log entries 2, 23) -/
def State.reset : State := {}

end Sys2Proof.Machine
end

