-- ==== Sys2Proof/Machine/Ops.lean ====
section
/-! DEFINITION. The named operations every meaning is built from: registers, memory, time, events, vectors, host writes,
completions, the log and free values. The block has no exception entry; raising an event bit and its vector (`raise`) is
what stands in its place. -/

namespace Sys2Proof.Machine

/-- What a command answers. -/
abbrev Res := Host.Outcome State Fault Refusal

/-! ## When commands act -/

/-- The functional clocks run: the module has power, its dies are released, and it neither sleeps nor is frozen or held in a
warm reset (R411, R428, R433, R441). (DEDUCED, log entry 7) -/
def State.clocked (s : State) : Bool :=
  s.rst.power == .on && s.col.serhamUp && !s.rst.warmHeld && !s.pwr.asleep && !s.glb.frozen

/-- TCLK runs through a warm reset too (R442). (DEDUCED, log entry 7) -/
def State.tclkRuns (s : State) : Bool :=
  s.rst.power == .on && !s.pwr.asleep && !s.glb.frozen
    && (s.col.serhamUp || s.rst.warmHeld || (s.col.recovery && s.glb.resetCause == 2))

/-- What a command does while the functional clocks run; otherwise nothing happens. (DEDUCED, log entry 7) -/
def State.whenClocked (s : State) (f : State → Res) : Res := if s.clocked then f s else .next s

/-! ## Setup registers -/

/-- Default rank of requester `i` (R131). -/
def defaultRank (i : Nat) : Nat :=
  if i < 24 then 4 else if i < 88 then 3 else if i < 100 then 5 else if i < 136 then 7 else if i < 138 then 3
  else if i < 143 then 6 else if i = 143 then 2 else 1

/-- The indices an offset stands for under a register's dimensions; none where it hits no instance. -/
def dimsOf (dims : List (Nat × Nat)) (off : Nat) : Option (List Nat) :=
  match dims with
  | [] => if off = 0 then some [] else none
  | (n, st) :: r => if off / st < n then (dimsOf r (off % st)).map (off / st :: ·) else none

/-- The register at an address among `l`, with its indices. -/
def findIn (l : List RegDef) (a : Nat) : Option (RegDef × List Nat) :=
  match l with
  | [] => none
  | d :: r => if a < d.base then findIn r a else
      match dimsOf d.dims (a - d.base) with
      | some ix => some (d, ix)
      | none => findIn r a

/-- The register at a BAR0 address, with its indices; none where no chapter defines one (R13). -/
def findReg (a : Nat) : Option (RegDef × List Nat) :=
  match blockOf a with
  | some b => findIn (blockRegs b) a
  | none => none

/-- The reset value of a register from its table. -/
def tableReset (fs : List RegField) : Nat := fs.foldl (fun v f => v + f.reset * 2 ^ f.lo) 0

/-- The reset value of the register at an address; 0 where none is. SPN_RANK resets to the default ranks (R131), and
CAP_SPILL_CFG_k.HALF to 1 for k from 12 (R376). -/
def regReset (a : Nat) : W32 :=
  match findReg a with
  | none => 0
  | some (d, ix) => match d.id with
    | .SPN_RANK => BitVec.ofNat 32 (defaultRank (ix.getD 0 0))
    | .CAP_SPILL_CFG => BitVec.ofNat 32 (tableReset d.fields) ||| (if 12 ≤ ix.getD 0 0 then 0x10000000#32 else 0#32)
    | _ => BitVec.ofNat 32 (tableReset d.fields)

/-- The stored word of the register at an address. -/
def State.rd (s : State) (a : Nat) : W32 := mapGet regReset s.regs a

/-- Stores a register's word. -/
def State.wr (s : State) (a : Nat) (v : W32) : State := { s with regs := mapSet regReset s.regs a v }

/-- A field of a stored register, as a number. -/
def State.fld (s : State) (a hi lo : Nat) : Nat := bitsOf (s.rd a) hi lo

/-- One bit of a stored register. -/
def State.bit (s : State) (a i : Nat) : Bool := bitOf (s.rd a) i

def State.setFld (s : State) (a hi lo v : Nat) : State := s.wr a (setBitsOf (s.rd a) hi lo v)

def State.setBit (s : State) (a i : Nat) (b : Bool) : State := s.setFld a i i (b2n b)

/-- Advances a saturating counter field by `n`. -/
def State.bumpFld (s : State) (a hi lo n : Nat) : State :=
  s.setFld a hi lo (satTo (2 ^ (hi + 1 - lo) - 1) (s.fld a hi lo + n))

/-- Advances a saturating 32-bit counter by 1. -/
def State.bump (s : State) (a : Nat) : State := s.bumpFld a 31 0 1

/-- Advances a 64-bit counter of two adjacent registers (R8) by `n`. -/
def State.bump64 (s : State) (lo n : Nat) : State :=
  let v := (s.rd lo).toNat + (s.rd (lo + 4)).toNat * 2 ^ 32 + n
  (s.wr lo (BitVec.ofNat 32 v)).wr (lo + 4) (BitVec.ofNat 32 (v / 2 ^ 32))

/-- Address of a block's CLAMP_COUNT; the quires have one each and the lanes share lane 0's (R12, R105).
(DEDUCED, log entry 25) -/
def clampReg (b : Block) (a : Nat) : Nat :=
  match b with
  | .glb => Reg.GLB_CLAMP_COUNT
  | .qui => Reg.QUI_CLAMP_COUNT ((a - 0x00600000) / 0x10000)
  | .ln => Reg.LN_CLAMP_COUNT
  | b => blockBase b + 0xC0

/-- Advances the CLAMP_COUNT at a register address; saturates at 65,535 (R105). (DEDUCED, log entry 25) -/
def State.clampAt (s : State) (cc : Nat) : State := s.bumpFld cc 15 0 1

/-- Advances the CLAMP_COUNT of the block that holds address `a`; of GLB where none does (R13). -/
def State.clampFor (s : State) (a : Nat) : State :=
  match blockOf a with
  | some b => s.clampAt (clampReg b a)
  | none => s.clampAt Reg.GLB_CLAMP_COUNT

/-- Advances a CLAMP_COUNT where `c` holds. -/
def State.clampIf (s : State) (c : Bool) (cc : Nat) : State := if c then s.clampAt cc else s

/-! ## Memory -/

/-- An unlisted byte reads 0: zero fill ends before anything may read (R167, R393). -/
def memDefault : Nat → Byte := fun _ => 0

/-- The byte at a Spine address. -/
def State.byte (s : State) (a : Nat) : Byte := mapGet memDefault s.mem a

def State.setByte (s : State) (a : Nat) (b : Byte) : State := { s with mem := mapSet memDefault s.mem a b }

/-- `n` bytes from address `a`. -/
def State.bytes (s : State) (a n : Nat) : List Byte := (List.range n).map (fun i => s.byte (a + i))

/-- Writes bytes from address `a` upward. -/
def State.setBytes (s : State) (a : Nat) (l : List Byte) : State :=
  match l with
  | [] => s
  | b :: r => (s.setByte a b).setBytes (a + 1) r

/-- The little-endian number in `n` bytes from address `a` (R3). -/
def State.readNat (s : State) (a n : Nat) : Nat := natOfBytes (s.bytes a n)

def State.writeNat (s : State) (a n v : Nat) : State := s.setBytes a (bytesOfNat n v)

/-- The 32-bit word at address `a`. -/
def State.word (s : State) (a : Nat) : W32 := BitVec.ofNat 32 (s.readNat a 4)

/-- The memory keeps its canonical form. -/
abbrev Memory.wf (m : List Host.Cell) : Bool := mapWf memDefault m

/-! ## Free values -/

/-- The value of the next free draw. (DESIGN CHOICE, log entry 12) -/
def State.freeVal (s : State) : BitVec 256 := Config.free s.freeCtr

/-- The next free draw, bounded below `n`. (DESIGN CHOICE, log entry 12) -/
def State.freeBelow (s : State) (n : Nat) : Nat := Config.freeNat s.freeCtr % n
/-- A number of cycles the manual leaves open. -/
def State.freeStall (s : State) : Nat := Config.freeNat s.freeCtr

/-- `n` bytes of the next free draw. (DESIGN CHOICE, log entry 12) -/
def State.freeBytes (s : State) (n : Nat) : List Byte := (List.range n).map (Config.freeByte s.freeCtr)

/-- Uses up one draw. (DESIGN CHOICE, log entries 11, 12) -/
def State.drawn (s : State) : State := { s with freeCtr := s.freeCtr + 1 }

/-! ## Leaves -/

/-- Leaf `n` of the module, 8 × quire + leaf (R159). -/
def State.leaf (s : State) (n : Nat) : Leaf := mapGet (fun _ => {}) s.qui.leaves n
def State.setLeaf (s : State) (n : Nat) (l : Leaf) : State :=
  if n < 192 then { s with qui.leaves := mapSet (fun _ => {}) s.qui.leaves n l } else s

/-! ## Time -/

/-- u units in one nanosecond. (DESIGN CHOICE, log entry 9) -/
def uPerNs : Int := 2 ^ 40 * 1000000
/-- u units in 2^-16 ns. (DESIGN CHOICE, log entry 9) -/
def uPer16 : Int := 2 ^ 24 * 1000000

/-- Corrected time in u: offset + raw × rate (R30). (DESIGN CHOICE, log entry 9) -/
def TbState.timeU (t : TbState) : Int := t.offsetU + (t.raw.toNat * t.rate : Nat) * 1000000

/-- Corrected time in 2^-16 ns. -/
def TbState.time16 (t : TbState) : Int := t.timeU / uPer16

/-- Corrected time in whole ns. -/
def TbState.timeNs (t : TbState) : Int := t.timeU / uPerNs

/-- SEC, NS and FRAC of a time or offset in 2^-16 ns (R30): SEC signed, NS from 0 to 999,999,999. -/
def secOf (t16 : Int) : Int := t16 / (1000000000 * 65536)
def nsOf (t16 : Int) : Nat := (t16 / 65536 % 1000000000).toNat
def fracOf (t16 : Int) : Nat := (t16 % 65536).toNat

/-- The short stamp (R31) of a time in 2^-16 ns. -/
def shortStampOf (t16 : Int) : W64 :=
  BitVec.ofNat 64 (unsignedOf 16 (secOf t16) * 2 ^ 48 + nsOf t16 * 2 ^ 16 + fracOf t16)

def State.stampNow (s : State) : W64 := shortStampOf s.tb.time16

/-- Writes the three words of a time triple (R49) into its registers. -/
def State.wrTriple (s : State) (a : Nat) (t16 : Int) : State :=
  ((s.wr a (BitVec.ofNat 32 (nsOf t16))).wr (a + 4) (BitVec.ofNat 32 (unsignedOf 32 (secOf t16)))).wr (a + 8)
    (BitVec.ofNat 32 (unsignedOf 16 (secOf t16 / 2 ^ 32) * 2 ^ 16 + fracOf t16))

/-! ## The colophon log -/

/-- Entries of the MRAM ring and of the flash area (R425). -/
def mramSize : Nat := 16384
def flashLogSize : Nat := 524288

/-- Appends one entry to the MRAM ring. A full ring overwrites its oldest entry, and the next entry written after an
overwrite is a LOST entry with the number overwritten (R425, R427). -/
def ColState.append (c : ColState) (time : W64) (type sev : Nat) (data : BitVec 128) : ColState :=
  let put := fun (c : ColState) (ty sv : Nat) (d : BitVec 128) =>
    let e : LogEntry := ⟨ty, sv, c.bootCount % 65536, c.nextSeq, time, d⟩
    if c.mram.length < mramSize then { c with mram := c.mram ++ [e], nextSeq := c.nextSeq + 1 }
    else { c with mram := c.mram.drop 1 ++ [e], nextSeq := c.nextSeq + 1, lost := c.lost + 1 }
  let c := if c.lost = 0 then c else put { c with lost := 0 } 0x08 1 (BitVec.ofNat 128 c.lost)
  put c type sev data

def State.log (s : State) (type sev : Nat) (data : BitVec 128) : State :=
  { s with col := s.col.append s.stampNow type sev data }

/-! ## Host writes, vectors and events -/

def State.fnOf (s : State) (f : Nat) : PcieFn := mapGet (fun _ => {}) s.hp.fns f
def State.setFn (s : State) (f : Nat) (p : PcieFn) : State :=
  if f < 64 then { s with hp.fns := mapSet (fun _ => {}) s.hp.fns f p } else s

/-- Function `f` exists: the PF, or a VF within NumVFs while VF Enable is 1 (R83). -/
def State.fnExists (s : State) (f : Nat) : Bool := f = 0 || (s.hp.vfEnable && decide (f ≤ s.hp.numVfs))

/-- (PRESUMED, log entry 39) -/
def State.msixOf (s : State) (v : Nat) : MsixEntry := mapGet (fun _ => {}) s.hp.msix v
def State.setMsix (s : State) (v : Nat) (e : MsixEntry) : State :=
  if v < 2048 then { s with hp.msix := mapSet (fun _ => {}) s.hp.msix v e } else s

/-- (DESIGN CHOICE, log entries 8, 11) -/
def State.emit (s : State) (o : Out) : State := { s with out := o :: s.out }

/-- The DATA of an FLR_DROP log entry, packed in the order R427 lists the fields. -/
def flrDropData (w : HostWrite) : BitVec 128 :=
  BitVec.ofNat 128 (w.fn + w.kind * 2 ^ 6 + w.qid * 2 ^ 8 + w.tag.toNat * 2 ^ 24 + w.addr.toNat * 2 ^ 56)

/-- The interrupt stamp of a vector latches now and its COUNT advances (R46). (DESIGN CHOICE, log entry 109) -/
def State.irqStamp (s : State) (v : Nat) : State :=
  let s := s.wrTriple (Reg.TB_IRQ_STAMP v) s.tb.time16
  s.setFld (Reg.TB_IRQ_STAMP_COUNT v) 15 0 ((s.fld (Reg.TB_IRQ_STAMP_COUNT v) 15 0 + 1) % 65536)

/-- Sends an MSI-X message: the stamp latches and the message leaves (R46, R104). (PRESUMED, log entry 39) -/
def State.sendMsix (s : State) (v : Nat) : State := (s.irqStamp v).emit (.msix v)

/-- Drops a host write of a function in reset: counted, and logged by Serham; HP_EVENT.DROP is set by the caller's
`raise` (R110). -/
def State.dropWrite (s : State) (w : HostWrite) : State :=
  (s.bump Reg.HP_DROP_COUNT).log 0x04 1 (flrDropData w)

/-- Delivers an assertion of module vector `v`, on behalf of ring `q` where one asserts it (R104): dropped where its function
is in reset, discarded and counted where the function does not exist, pending where it is masked, waiting where Bus Master
Enable is 0, else sent. A virtual function that a reset of the PF took along is in reset until it is ready (R111). -/
def State.deliverVector (s : State) (q v : Nat) : State :=
  let f := v / 32
  let fn := s.fnOf f
  let w : HostWrite := ⟨f, 3, q, 0xFFFFFFFF#32, (s.msixOf v).addr, [], v⟩
  if fn.flr then s.dropWrite w
  else if !s.fnExists f then s.bump Reg.HP_DROP_COUNT
  else if !fn.msixEnable || (s.msixOf v).masked then
    if s.hp.pba.contains v then s else { s with hp.pba := s.hp.pba ++ [v] }
  else if !fn.busMaster then s.setFn f { fn with waiting := fn.waiting ++ [w] }
  else s.sendMsix v

/-- HP_EVENT.DROP is set by every dropped write; its own vector follows where it rises with its enable (R110, R468). -/
def State.dropEvent (s : State) : State :=
  let rises := !s.bit Reg.HP_EVENT 3 && s.bit Reg.HP_EVENT_EN 3
  let s := s.setBit Reg.HP_EVENT 3 true
  if rises then s.deliverVector 0 (s.fld Reg.HP_EVENT_VEC 10 0) else s

/-- Ring `q` asserts module vector `v`. A message dropped because its function is in reset is a dropped host write (R104, R110). -/
def State.assertFor (s : State) (q v : Nat) : State :=
  if (s.fnOf (v / 32)).flr then (s.deliverVector q v).dropEvent else s.deliverVector q v

/-- A block asserts module vector `v`. -/
def State.assertVector (s : State) (v : Nat) : State := s.assertFor 0 v

/-- The vector register of the block with event register `ev`: the lanes share one (R468, R332). -/
def vecRegOf (ev : Nat) : Nat := if blockOf ev = some .ln then Reg.LN_EVENT_VEC else ev + 8

/-- The block of event register `ev` asserts its module vector, once for all bits that rise together (R468). A frozen or
sleeping Host Port sends no vector (R411, R433). -/
def State.assertBlock (s : State) (ev : Nat) : State :=
  if s.glb.frozen || s.pwr.asleep then s else s.assertVector (s.fld (vecRegOf ev) 10 0)

/-- Sets event bits and asserts the module vector when some bit and its enable both become 1 (R468). The enable register
stands at the event register + 4 in every block. -/
def State.raiseMask (s : State) (ev : Nat) (mask : W32) : State :=
  let old := s.rd ev
  let s' := s.wr ev (old ||| mask)
  if (mask &&& ~~~old) &&& s.rd (ev + 4) == 0 then s' else s'.assertBlock ev

/-- Sets event bit `b` (R468). -/
def State.raise (s : State) (ev b : Nat) : State := s.raiseMask ev (BitVec.ofNat 32 (2 ^ b))

/-- A write to host memory on behalf of a function: dropped while the function is in reset, held while Bus Master Enable
is 0, else sent (R82, R104, R110). (DEDUCED, log entry 40) -/
def State.hostWrite (s : State) (w : HostWrite) : State :=
  let fn := s.fnOf w.fn
  if fn.flr then (s.dropWrite w).dropEvent
  else if !fn.busMaster then s.setFn w.fn { fn with waiting := fn.waiting ++ [w] }
  else s.emit (.hostWrite w)

/-! ## Rings and completions -/

def State.ring (s : State) (q : Nat) : Ring := mapGet (fun _ => {}) s.hp.rings q
def State.setRing (s : State) (q : Nat) (r : Ring) : State :=
  if q < 65536 then { s with hp.rings := mapSet (fun _ => {}) s.hp.rings q r } else s

def Ring.size (r : Ring) : Nat := 2 ^ r.log2Size

/-- Entries pending in a ring (R86). -/
def Ring.pendingCount (r : Ring) : Nat :=
  if r.completion then (r.devIdx + r.size - r.hostIdx % r.size) % r.size else (r.hostIdx + r.size - r.devIdx % r.size) % r.size

/-- Free credit of a completion ring (R99). -/
def Ring.credit (r : Ring) : Nat := r.size - 1 - r.pendingCount - r.openCount

/-- DRAINING (R108, R113): disabled, with OPEN not 0. -/
def Ring.draining (r : Ring) : Bool := !r.enable && r.openCount != 0

/-- A ring as an enable leaves it (R106). (DEDUCED, log entry 35) -/
def Ring.started (r : Ring) : Ring :=
  { r with enable := true, hostIdx := 0, devIdx := 0, fetchIdx := 0, openCount := 0, phase := true, unsignalled := 0,
           disableAtZero := false, enablePending := false, openCq := r.cq, openOwner := r.owner }

/-- One descriptor of a submission ring has completed; an enable that waited for the drain takes effect with the last, without a
second look at its CQ (R24, R108). (DEDUCED, log entry 35) -/
def Ring.closeOne (r : Ring) : Ring :=
  let r := { r with openCount := r.openCount - 1 }
  if r.enablePending && r.openCount == 0 then r.started else r

/-- Asserts a completion ring's vector, where IRQ_EN is 1, and restarts its moderation (R103). -/
def State.signalRing (s : State) (cq : Nat) : State :=
  let r := s.ring cq
  if r.irqEn then (s.setRing cq { r with unsignalled := 0 }).assertFor cq (r.owner * 32 + r.vec) else s

/-- The first 8 bytes of a completion entry after the tag (R92). -/
def completionWord (specific status : Nat) (abortLate clamped phase : Bool) : Nat :=
  status % 256 + b2n phase * 2 ^ 8 + b2n clamped * 2 ^ 9 + b2n abortLate * 2 ^ 10 + specific % 65536 * 2 ^ 16

/-- Writes one entry to completion ring `cq` on behalf of a function and moderates its interrupt (R92 to R94, R103). -/
def State.postEntry (s : State) (cq fn : Nat) (tag : W32) (irq : Bool) (specific status : Nat) (abortLate clamped : Bool)
    (time : W64) : State :=
  let r := s.ring cq
  let data := bytesOfNat 4 tag.toNat ++ bytesOfNat 4 (completionWord specific status abortLate clamped r.phase)
    ++ bytesOfNat 8 time.toNat
  let dev := (r.devIdx + 1) % r.size
  let r' : Ring := { r with devIdx := dev, phase := if dev = 0 then !r.phase else r.phase,
                            openCount := r.openCount - 1, unsignalled := r.unsignalled + 1 }
  let r' := if r'.disableAtZero && r'.openCount == 0 then { r' with enable := false, disableAtZero := false } else r'
  let r' := if r'.completion && r'.enablePending && r'.openCount == 0 then r'.started else r'
  let s := (s.hostWrite ⟨fn, 2, cq, tag, r.base + BitVec.ofNat 64 (r.devIdx * 16), data, 0⟩).setRing cq r'
  if r'.irqEn && (irq || decide (r'.modCount ≤ r'.unsignalled)) then s.signalRing cq else s

/-- A completion that carries everything: status, type-specific field, ABORT_LATE and the instant it reports. It goes to the
completion ring whose RESERVED counts the descriptor (R99). (DEDUCED, log entry 35) -/
def State.completeAt (s : State) (d : DRef) (status specific : Nat) (abortLate : Bool) (time : W64) : State :=
  let r := s.ring d.ring
  let s := s.setRing d.ring (r.closeOne)
  s.postEntry r.openCq r.openOwner d.tag d.irq specific status abortLate d.clamped time

/-- Posts the one completion of a descriptor now (R92). -/
def State.complete (s : State) (d : DRef) (status specific : Nat) : State := s.completeAt d status specific false s.stampNow

/-- Completes each of a list of descriptors with one status. -/
def State.completeAll (s : State) (l : List DRef) (status : Nat) : State := l.foldl (fun s d => s.complete d status 0) s

/-! Status codes (R26). -/
abbrev stOK : Nat := 0
abbrev stLATE : Nat := 1
abbrev stDISABLED : Nat := 2
abbrev stABORTED : Nat := 3
abbrev stBAD : Nat := 4
abbrev stFLUSHED : Nat := 5
abbrev stTIMEOUT : Nat := 6
abbrev stREFUSED : Nat := 7

/-- The rank of a status in the order of R27: the lowest rank is reported. -/
def statusRank (st : Nat) : Nat :=
  if st = stBAD then 0 else if st = stABORTED then 1 else if st = stDISABLED then 2 else if st = stFLUSHED then 3
  else if st = stTIMEOUT then 4 else if st = stREFUSED then 5 else if st = stLATE then 6 else if st = stOK then 1000 else st

/-- Of two statuses of one cycle, the one R27 reports. -/
def worseStatus (a b : Nat) : Nat := if statusRank a ≤ statusRank b then a else b

end Sys2Proof.Machine

/-! ## Descriptors -/

namespace Sys2Proof

/-- The word of a descriptor at offset `o` from 0x10 on. -/
def Desc.w (d : Desc) (o : Nat) : W32 := d.body.getD ((o - 0x10) / 4) 0
/-- The 64-bit value at offset `o`. -/
def Desc.w64 (d : Desc) (o : Nat) : W64 := BitVec.ofNat 64 ((d.w o).toNat + (d.w (o + 4)).toNat * 2 ^ 32)
/-- Bits `hi` to `lo` of the word at offset `o`. -/
def Desc.fld (d : Desc) (o hi lo : Nat) : Nat := Machine.bitsOf (d.w o) hi lo

/-- What the module keeps to complete the descriptor. -/
def Desc.ref (d : Desc) (clamped : Bool) : DRef := { ring := d.ring, tag := d.tag, irq := d.flags.testBit 0, clamped := clamped }

end Sys2Proof

namespace Sys2Proof.Machine

/-- The function on whose behalf a descriptor's host accesses run (R110). -/
def State.descFn (s : State) (d : Desc) : Nat := (s.ring d.ring).openOwner

/-- Advances the CLAMP_COUNT of a ring (R105). -/
def State.clampRing (s : State) (q : Nat) : State :=
  s.setRing q { s.ring q with clampCount := satTo 65535 ((s.ring q).clampCount + 1) }

/-- Counts a clamped descriptor at its ring and at the accepting block, once each (R105). -/
def State.clampDesc (s : State) (d : Desc) (clamped : Bool) (cc : Nat) : State :=
  if clamped then (s.clampRing d.ring).clampAt cc else s

/-- A CARRIER field from 512 to 65,534 is taken as its low 9 bits (R63, R88). -/
def carrierField (c : Nat) : Nat := if 512 ≤ c ∧ c < 65535 then c % 512 else c
def carrierClamped (c : Nat) : Bool := decide (512 ≤ c ∧ c < 65535)

end Sys2Proof.Machine
end

