-- ==== Sys2Proof/Machine/Regs.lean ====
section
/-! DEFINITION. Writing a setup register by its access codes, clamps and locks (R4, R5, R7, R9), and the gates every
host access of BAR0 passes (R15, R110, R434). -/

namespace Sys2Proof.Machine

/-- The value of a field after its clamps; true where the value was clamped (R9). -/
def clampVal (l : List ClampRange) (v : Nat) : Nat × Bool :=
  match l with
  | [] => (v, false)
  | r :: t => if r.lo ≤ v ∧ v ≤ r.hi then (r.taken, true) else clampVal t v

/-- One field of a register write: old word, written word and the setup lock in; new word and clamped out (R4). -/
def writeField (lock : Bool) (f : RegField) (old wr : W32) : W32 × Bool :=
  let v := bitsOf wr f.hi f.lo
  match f.acc with
  | .ro => (old, false)
  | .rw | .wo => (setBitsOf old f.hi f.lo (clampVal f.clamp v).1, (clampVal f.clamp v).2)
  | .w1c => (setBitsOf old f.hi f.lo (bitsOf (old &&& ~~~wr) f.hi f.lo), false)
  | .w1s => (setBitsOf old f.hi f.lo (bitsOf (old ||| wr) f.hi f.lo), false)
  | .rwl => if lock then (old, true) else (setBitsOf old f.hi f.lo (clampVal f.clamp v).1, (clampVal f.clamp v).2)

/-- A whole register write: each field by its code; reserved fields are ignored and count no clamp (R7). -/
def writeFieldsOf (lock : Bool) (l : List RegField) (old wr : W32) : W32 × Bool :=
  match l with
  | [] => (old, false)
  | f :: r =>
    let p := writeField lock f old wr
    let q := writeFieldsOf lock r p.1 wr
    (q.1, p.2 || q.2)

/-- GLB_SETUP_LOCK.LOCK (R5). -/
def State.setupLocked (s : State) : Bool := s.bit Reg.GLB_SETUP_LOCK 0

/-- The _EVENT_EN registers (R468). -/
def isEventEn : RegId → Bool
  | .TB_EVENT_EN | .SLT_EVENT_EN | .HP_EVENT_EN | .GTH_EVENT_EN | .DMA_EVENT_EN | .SPA_EVENT_EN | .COD_EVENT_EN
  | .SPC_EVENT_EN | .FH_EVENT_EN | .LN_EVENT_EN | .STF_EVENT_EN | .CAP_EVENT_EN | .MEM_EVENT_EN | .PWR_EVENT_EN
  | .COL_EVENT_EN => true
  | _ => false

/-- The registers whose bit 31, CLEAR, sets the rest to 0 (R105, R137). -/
def isCleared : RegId → Bool
  | .GLB_CLAMP_COUNT | .TB_CLAMP_COUNT | .SLT_CLAMP_COUNT | .HP_CLAMP_COUNT | .QMG_CLAMP_COUNT | .SPN_CLAMP_COUNT
  | .GTH_CLAMP_COUNT | .QUI_CLAMP_COUNT | .DMA_CLAMP_COUNT | .SPA_CLAMP_COUNT | .COD_CLAMP_COUNT | .SPC_CLAMP_COUNT
  | .FH_CLAMP_COUNT | .LN_CLAMP_COUNT | .STF_CLAMP_COUNT | .CAP_CLAMP_COUNT | .MEM_CLAMP_COUNT | .PWR_CLAMP_COUNT
  | .COL_CLAMP_COUNT | .SPN_ARB_WAITMAX => true
  | _ => false

/-- A register write without effects beyond the register: fields, one clamp at most (R9), the vector of an enable that
meets its event bit (R468), and the CLEAR bits. -/
def State.writeFields (s : State) (d : RegDef) (a : Nat) (v : W32) : State :=
  if isCleared d.id then (if bitOf v 31 then s.wr a 0 else s)
  else
    let old := s.rd a
    let p := writeFieldsOf s.setupLocked d.fields old v
    let s := (s.wr a p.1)
    let s := if p.2 then s.clampFor a else s
    if isEventEn d.id && (p.1 &&& ~~~old) &&& s.rd (a - 4) != 0 then s.assertBlock (a - 4) else s

/-- A write of the register at `a` by its table alone; an address outside every register is discarded and counted (R13). -/
def State.writeTable (s : State) (a : Nat) (v : W32) : State :=
  match findReg a with
  | some (d, _) => s.writeFields d a v
  | none => s.clampFor a

/-- True where the table says the written value is clamped. -/
def State.tableClamps (s : State) (a : Nat) (v : W32) : Bool :=
  match findReg a with
  | some (d, _) => (writeFieldsOf s.setupLocked d.fields (s.rd a) v).2
  | none => true

/-- A write whose clamp depends on other state: `v'` is what is written for `v`; one clamp counts at most (R9). -/
def State.writeContext (s : State) (a : Nat) (v v' : W32) : State :=
  if v' != v && !s.tableClamps a v' then (s.writeTable a v').clampFor a else s.writeTable a v'

def State.cluster (s : State) (d : Nat) : Cluster := mapGet (fun _ => {}) s.pwr.clusters d
def State.setCluster (s : State) (d : Nat) (x : Cluster) : State :=
  if d < 72 then { s with pwr.clusters := mapSet (fun _ => {}) s.pwr.clusters d x } else s

/-- A request, a dispatch or a job wakes a napping cluster, or meets its entry into Nap (R407, R415). -/
def State.wakeCluster (s : State) (d : Nat) : State :=
  let c := s.cluster d
  if c.mode = .nap then s.setCluster d { c with mode := .run }
  else if c.mode = .entering ∧ !c.toDoze then s.setCluster d { c with wakeSeen := true } else s

/-- The cluster whose power a setup register shares: a quire, a quad's lanes, a group's counters, a stitch port's (R408).
(DEDUCED, log entry 78) -/
def regCluster (a : Nat) : Option Nat :=
  match findReg a with
  | none => none
  | some (d, ix) =>
    let i := ix.getD 0 0
    match d.id with
    | .QUI_LEAF_CTRL | .QUI_LEAF_STATE | .QUI_EXT_REJECT | .QUI_CLAMP_COUNT | .QUI_LSTAT | .QUI_LAOV_IDX | .QUI_PC | .QUI_STALL
    | .QUI_DBG_CTRL | .QUI_DBG_STATUS | .QUI_DBG_BKPT | .QUI_DBG_REG_SEL | .QUI_DBG_REG_DATA => some i
    | .COD_GRP_BUSY_LO | .COD_GRP_BUSY_HI | .COD_GRP_STALL => some (24 + i)
    | .SPA_TILE_BUSY_LO | .SPA_TILE_BUSY_HI | .SPA_TILE_STALL => some (28 + i / 4)
    | .SPC_GRP_BUSY_LO | .SPC_GRP_BUSY_HI | .SPC_GRP_STALL => some (31 + i)
    | .LN_CFG | .LN_STATUS | .LN_EVENT | .LN_EVENT_EN | .LN_TX_TAPS | .LN_RX_EQ | .LN_RX_SNR | .LN_CMD | .LN_TEST_CFG | .LN_INJ
    | .LN_PRBS_ERR_LO | .LN_PRBS_ERR_HI | .LN_PRBS_BITS_LO | .LN_PRBS_BITS_HI | .LN_PRBS_STAT | .LN_LB_ERR | .LN_COUNT =>
      some (36 + i / 4)
    | .LN_QUAD_CFG | .LN_QUAD_STATUS => some (36 + i)
    | .STF_PORT_RETRY => some (60 + i)
    | _ => none

/-- The register lies behind isolation clamps: it reads 0 and a write does not reach it (R406). (DEDUCED, log entry 78) -/
def State.regIsolated (s : State) (a : Nat) : Bool :=
  match regCluster a with | some d => (s.cluster d).isolated | none => false

/-- BAR0 write gate: in function-level reset of the PF the access is discarded (R110); while the module is frozen only the
Colophon answers, and a discarded PWR write is counted (R112, R416, R434); before CORE_READY every write but GLB_SCRATCH's counts at GLB (R15).
No access reaches a module without power, in warm reset or in Hibernate (R411, R441, R451), nor a register behind isolation
clamps (R406). -/
def State.hostWriteTo (s : State) (a : Nat) (f : State → State) : State :=
  if (s.fnOf 0).flr || s.pwr.asleep || s.rst.warmHeld || s.rst.power != .on then s
  else if s.glb.frozen && blockOf a != some .col then
    (if blockOf a = some .pwr then s.clampAt Reg.PWR_CLAMP_COUNT else s)
  else if !s.glb.coreReady && a != Reg.GLB_SCRATCH then s.clampAt Reg.GLB_CLAMP_COUNT
  else if s.regIsolated a then s
  else f s

end Sys2Proof.Machine
end

