-- ==== Sys2Proof/Machine/Operands.lean ====
section
/-! DEFINITION. Operands of a leaf: register codes, lanes, accumulator parts, pointers and leaf addresses (Leaf cores). -/

namespace Sys2Proof.Machine

/-! ## Lanes and parts -/

/-- Real and imaginary part of lane `k` of a V register (R169). -/
def vRe (v : BitVec 256) (k : Nat) : Int := signedOf 16 (bitsOf v (32 * k + 15) (32 * k))
def vIm (v : BitVec 256) (k : Nat) : Int := signedOf 16 (bitsOf v (32 * k + 31) (32 * k + 16))

/-- A V register from its lanes, lane 0 first. -/
def vOfLanes (l : List (Int × Int)) : BitVec 256 :=
  match l with
  | [] => 0
  | (r, i) :: t => BitVec.ofNat 256 (unsignedOf 16 r + unsignedOf 16 i * 2 ^ 16) ||| (vOfLanes t <<< 32)

def lanesOfV (v : BitVec 256) : List (Int × Int) := (List.range 8).map (fun k => (vRe v k, vIm v k))

/-- Real and imaginary part of lane `k` of an accumulator (R170, R206). -/
def aRe (a : BitVec 640) (k : Nat) : Int := signedOf 40 (bitsOf a (80 * k + 39) (80 * k))
def aIm (a : BitVec 640) (k : Nat) : Int := signedOf 40 (bitsOf a (80 * k + 79) (80 * k + 40))

def aOfLanes (l : List (Int × Int)) : BitVec 640 :=
  match l with
  | [] => 0
  | (r, i) :: t => BitVec.ofNat 640 (unsignedOf 40 r + unsignedOf 40 i * 2 ^ 40) ||| (aOfLanes t <<< 80)

def lanesOfA (a : BitVec 640) : List (Int × Int) := (List.range 8).map (fun k => (aRe a k, aIm a k))

/-- Lane `j` of a list of lanes. -/
def laneAt (l : List (Int × Int)) (j : Nat) : Int × Int := l.getD j (0, 0)

/-! ## Registers of a leaf -/

/-- A G, P, B, L or M register by its code (R189). -/
def Leaf.gpr (l : Leaf) (c : Nat) : W32 := mapGet (fun _ => 0) l.gp (c % 64)
def Leaf.g (l : Leaf) (i : Nat) : W32 := l.gpr (i % 32)
def Leaf.p (l : Leaf) (i : Nat) : W32 := l.gpr (32 + i % 8)
def Leaf.b (l : Leaf) (i : Nat) : W32 := l.gpr (40 + i % 8)
def Leaf.len (l : Leaf) (i : Nat) : W32 := l.gpr (48 + i % 8)
def Leaf.m (l : Leaf) (i : Nat) : W32 := l.gpr (56 + i % 8)
def Leaf.vreg (l : Leaf) (i : Nat) : BitVec 256 := mapGet (fun _ => 0) l.v (i % 16)
def Leaf.acc (l : Leaf) (i : Nat) : BitVec 640 := mapGet (fun _ => 0) l.a (i % 4)

def Leaf.setGpr (l : Leaf) (c : Nat) (x : W32) : Leaf := { l with gp := mapSet (fun _ => 0) l.gp (c % 64) x }
def Leaf.setV (l : Leaf) (i : Nat) (x : BitVec 256) : Leaf := { l with v := mapSet (fun _ => 0) l.v (i % 16) x }
def Leaf.setA (l : Leaf) (i : Nat) (x : BitVec 640) : Leaf := { l with a := mapSet (fun _ => 0) l.a (i % 4) x }

/-- The value of register `r` (0–63 codes, 64–79 V, 80–83 A) as a number. -/
def Leaf.regNat (l : Leaf) (r : Nat) : Nat :=
  if r < 64 then (l.gpr r).toNat else if r < 80 then (l.vreg (r - 64)).toNat else (l.acc (r - 80)).toNat

/-- A result has landed for a consumer that needs it `lat` cycles after its issue. (DEDUCED, log entry 48) -/
def Recent.landed (x : Recent) (now lat : Nat) : Bool := decide (x.issued + max x.latency lat ≤ now)

/-- Of results on their way to one register, the one that lands last, the later one of a bundle sequence where two land together;
`b` stands for what the register held before. (DEDUCED, log entry 48) -/
def lastLanded (lat : Nat) (b : Nat) (l : List Recent) : Nat :=
  (l.foldl (fun (b : Nat × Nat) x => if b.1 ≤ x.issued + max x.latency lat then (x.issued + max x.latency lat, x.new) else b) (0, b)).2

/-- What register `r` holds in the current issue cycle for an operand that reads it (R197): of the results that have landed, the
one that landed last. `lat` is the latency the consumer itself adds (R181, the An rows). (DEDUCED, log entry 48) -/
def Leaf.heldNat (l : Leaf) (r lat : Nat) : Nat :=
  match l.recent.filter (·.reg == r) with
  | [] => l.regNat r
  | x :: t => lastLanded lat x.old ((x :: t).filter (·.landed l.cyc lat))

/-- An operand read: interlocked outside a REP, as held within one (R181, R197). -/
def Leaf.readNat (l : Leaf) (rep : Bool) (r lat : Nat) : Nat := if rep then l.heldNat r lat else l.regNat r

def Leaf.rdGpr (l : Leaf) (rep : Bool) (c : Nat) : W32 := BitVec.ofNat 32 (l.readNat rep (c % 64) 0)
def Leaf.rdV (l : Leaf) (rep : Bool) (i : Nat) : BitVec 256 := BitVec.ofNat 256 (l.readNat rep (64 + i % 16) 0)
/-- An accumulator as a further MAC, aclr or aadd reads it: after 1 cycle. -/
def Leaf.rdAcc (l : Leaf) (rep : Bool) (i : Nat) : BitVec 640 := BitVec.ofNat 640 (l.readNat rep (80 + i % 4) 1)
/-- An accumulator as amov, asum, sac or sta reads it: after 4 cycles. -/
def Leaf.rdAccSrc (l : Leaf) (rep : Bool) (i : Nat) : BitVec 640 := BitVec.ofNat 640 (l.readNat rep (80 + i % 4) 4)

/-- Notes what a register held before a result of the given latency (R181). Of two results of one bundle the later slot's remains
(R184): it takes the earlier one's place. -/
def Leaf.note (l : Leaf) (r latency new : Nat) : Leaf :=
  let same := fun (x : Recent) => x.reg == r && x.issued == l.cyc
  let old := match l.recent.find? same with | some x => x.old | none => l.regNat r
  { l with recent := l.recent.filter (!same ·) ++ [⟨l.cyc, latency, r, old, new⟩] }

/-- Writes of results, with their latencies. -/
def Leaf.resGpr (l : Leaf) (c : Nat) (x : W32) (latency : Nat) : Leaf := (l.note (c % 64) latency x.toNat).setGpr c x
def Leaf.resV (l : Leaf) (i : Nat) (x : BitVec 256) (latency : Nat) : Leaf := (l.note (64 + i % 16) latency x.toNat).setV i x
def Leaf.resA (l : Leaf) (i : Nat) (x : BitVec 640) : Leaf := (l.note (80 + i % 4) 1 x.toNat).setA i x

/-- Sets register `r` from a number. -/
def Leaf.setReg (l : Leaf) (r v : Nat) : Leaf :=
  if r < 64 then l.setGpr r (BitVec.ofNat 32 v) else if r < 80 then l.setV (r - 64) (BitVec.ofNat 256 v) else l.setA (r - 80) (BitVec.ofNat 640 v)

/-- What the registers hold once every result of a REP has landed: of two results of one register the one that lands last
(R197). (DEDUCED, log entry 48) -/
def Leaf.settleNotes (l : Leaf) : Leaf :=
  ((l.recent.map (·.reg)).eraseDups).foldl (fun l r =>
    l.setReg r (lastLanded 0 (l.regNat r) (l.recent.filter (·.reg == r)))) l

/-! ## The ports of XM and YM (R162) -/

/-- `k` cycles in which the leaf leaves the port free: one access that waits is served in each. -/
def ExtPort.idle (p : ExtPort) (k : Nat) : ExtPort := if k = 0 then p else ⟨p.count - k, 0⟩

/-- A cycle in which the Y slot needs the port, and for how many cycles the leaf stalls: an access that has waited 7 cycles takes the
port in the 8th, and the leaf's access comes behind it. -/
def ExtPort.busy (p : ExtPort) : ExtPort × Nat :=
  if p.count = 0 then (p, 0)
  else if p.age < 7 then ({ p with age := p.age + 1 }, 0)
  else (⟨p.count - 1, if p.count = 1 then 0 else 1⟩, 1)

/-- Cycles in which the Y slot makes no access: both ports are free. -/
def Leaf.idlePorts (l : Leaf) (k : Nat) : Leaf := { l with ext := l.ext.idle k, extY := l.extY.idle k }

/-- Stall cycles (R181, R182). -/
def Leaf.countStall (l : Leaf) (k : Nat) : Leaf := { l with stall := satTo 0xFFFFFFFF (l.stall + k) }

/-- Freeze cycles for a quire-store bank: nothing issues, nothing in flight advances, and QUI_STALL counts them (R181, R185). -/
def Leaf.freeze (l : Leaf) (k : Nat) : Leaf := (l.idlePorts k).countStall k

/-- The Y slot accesses XM (`xm`) or YM: the access issues at once, or one cycle later where an external access takes the port. The
other port is free meanwhile (R162). -/
def Leaf.servePort (l : Leaf) (xm : Bool) : Leaf :=
  if xm then { l with ext := l.ext.busy.1, extY := l.extY.idle (1 + l.ext.busy.2), portUsed := true }.countStall l.ext.busy.2
  else { l with extY := l.extY.busy.1, ext := l.ext.idle (1 + l.extY.busy.2), portUsed := true }.countStall l.extY.busy.2

/-! ## Addresses -/

/-- Pn after an update by `step`, with exact arithmetic (R172). -/
def stepPointer (p b len : W32) (step : Int) : W32 :=
  if len = 0 then BitVec.ofNat 32 (unsignedOf 32 (p.toNat + step))
  else BitVec.ofNat 32 (unsignedOf 32 (b.toNat + (p.toNat + step - b.toNat) % (len.toNat : Int)))

/-- Mn as a signed step. -/
def stepOf (m : W32) : Int := signedOf 32 m.toNat

/-- The access of a slot at a leaf address: the Spine address of its first byte, where the slot reaches it, and whether
low address bits were ignored (R160, R161, R166). `x` is the X slot, which reaches XM only. -/
def leafAccess (leaf : Nat) (x : Bool) (addr bytes : Nat) : Option Nat × Bool :=
  let a := addr / bytes * bytes
  let win := 0x10000000000 + leaf / 8 * 0x1000000
  let priv := win + leaf % 8 * 0x40000
  (if a < 0x20000 then some (priv + a)
   else if x then none
   else if a < 0x30000 then some (priv + a)
   else if 0x200000 ≤ a ∧ a < 0x400000 then some (win + a)
   else none, a != addr)

/-- Bytes of an access by its W code (R192). -/
def widthOf (w : Nat) : Nat := if w % 4 = 0 then 4 else if w % 4 = 1 then 8 else if w % 4 = 2 then 16 else 32

/-- Result latency of a load from an address, and of stored bytes to a load of them (R181). -/
def loadLatency (addr : Nat) : Nat := if 0x200000 ≤ addr then 6 else 3
def storeLatency (addr : Nat) : Nat := if 0x200000 ≤ addr then 4 else 2

/-- Bank of a quire-store address (R163). -/
def bankOf (addr : Nat) : Nat := addr / 32 % 16

/-- Turns a leaf waits at a bank (R163): the Spine port is served first where it has an access pending and was not served the cycle
before, else the leaves in turn; `spine` accesses of the Spine port and `ahead` leaves wait before this one. -/
def bankTurns (fuel : Nat) (spineLast : Bool) (spine ahead : Nat) : Nat :=
  match fuel with
  | 0 => 0
  | f + 1 =>
    if spine != 0 && !spineLast then bankTurns f true (spine - 1) ahead + 1
    else match ahead with
      | 0 => 0
      | a + 1 => bankTurns f false spine a + 1

/-- How many of the 8 leaves come before `n` in the round after the one served last, of those in `l` (R163). -/
def leavesAhead (last n : Nat) (l : List Nat) : Nat :=
  let dist := fun (i : Nat) => (i + 8 - last % 8 - 1) % 8
  (l.filter (fun i => decide (dist i < dist n))).length

end Sys2Proof.Machine
end

