-- ==== Sys2Proof/Machine/Flags.lean ====
section
/-! DEFINITION. The status of a leaf: LSTAT, LAOV_IDX, saturation and accumulator overflow (R175 to R180). -/

namespace Sys2Proof.Machine

/-- Sets a sticky LSTAT bit: 0–3 AOV, 4 SAT, 5 MISALIGN, 6 ADDR (R180). -/
def Leaf.setStat (l : Leaf) (i : Nat) (b : Bool) : Leaf :=
  if b then { l with lstat := l.lstat ||| BitVec.ofNat 32 (2 ^ i) } else l

/-- Saturation to 16 bits (R177, R178). -/
def sat16 (i : Int) : Int := max (-32768) (min 32767 i)
def satPair (p : Int × Int) : Int × Int := (sat16 p.1, sat16 p.2)
/-- Some part of the lanes saturates. -/
def anySat (l : List (Int × Int)) : Bool := l.any (fun p => sat16 p.1 != p.1 || sat16 p.2 != p.2)

/-- An exact accumulator part lies outside 40 bits (R175). -/
def over40 (i : Int) : Bool := decide (i < -(2 ^ 39) ∨ 2 ^ 39 ≤ i)

/-- The first overflowing part, lowest lane first and real before imaginary: lane × 2 + part (R176). -/
def firstOver (k : Nat) (l : List (Int × Int)) : Option Nat :=
  match l with
  | [] => none
  | (r, i) :: t => if over40 r then some (2 * k) else if over40 i then some (2 * k + 1) else firstOver (k + 1) t

/-- LAOV_IDX's fields (R180). -/
def laovWord (rep : Bool) (acc lanePart iter : Nat) : W32 :=
  BitVec.ofNat 32 (2 ^ 31 + b2n rep * 2 ^ 30 + acc % 4 * 2 ^ 26 + lanePart / 2 % 8 * 2 ^ 23 + lanePart % 2 * 2 ^ 22
    + (if rep then iter % 65536 else 0))

/-- Records the overflows of an update of accumulator `n` whose exact parts are `l` (R175, R176). -/
def Leaf.noteOver (l : Leaf) (rep : Bool) (iter n : Nat) (parts : List (Int × Int)) : Leaf :=
  match firstOver 0 parts with
  | none => l
  | some lp =>
    let l := l.setStat (n % 4) true
    if bitOf l.laovIdx 31 then l else { l with laovIdx := laovWord rep (n % 4) lp iter }

/-- statw and W1C access (R179, R190): bits 6:0 clear LSTAT, bit 7 clears LAOV_IDX.VALID. -/
def Leaf.clearStat (l : Leaf) (mask : Nat) : Leaf :=
  { l with lstat := l.lstat &&& ~~~(BitVec.ofNat 32 (mask % 128)),
           laovIdx := if mask.testBit 7 then l.laovIdx &&& 0x7FFFFFFF#32 else l.laovIdx }

/-- A FETCH that delivers a task clears the whole status (R179). -/
def Leaf.freshStat (l : Leaf) : Leaf := l.clearStat 0xFF

end Sys2Proof.Machine
end

