-- ==== Sys2Proof/Machine/LeafData.lean ====
section
/-! DEFINITION. The datapath of a leaf: V, S and control operations without links, loads and stores (R172 to R194). -/

namespace Sys2Proof.Machine

/-- QUI_LEAF_CTRL holds the leaf in reset (R182). -/
def State.leafInReset (s : State) (n : Nat) : Bool := s.bit (Reg.QUI_LEAF_CTRL (n / 8)) (n % 8)

/-! ## Vector operations -/

/-- Product of a lane by its form: 0 mul, 1 mulc, 2 mulr (R173). -/
def product (form : Nat) (a b : Int × Int) : Int × Int :=
  if form = 0 then (a.1 * b.1 - a.2 * b.2, a.1 * b.2 + a.2 * b.1)
  else if form = 1 then (a.1 * b.1 + a.2 * b.2, a.2 * b.1 - a.1 * b.2)
  else (a.1 * b.1, a.2 * b.1)

/-- The pre-shift, floor(p ÷ 2^PSH) per part (R174). -/
def preShift (psh : Nat) (p : Int × Int) : Int × Int := (p.1 / 2 ^ psh, p.2 / 2 ^ psh)

/-- The accumulator update: 0 add, 1 sub, 2 set, 3 neg (R175). -/
def updateAcc (upd : Nat) (a p : Int × Int) : Int × Int :=
  if upd = 0 then (a.1 + p.1, a.2 + p.2) else if upd = 1 then (a.1 - p.1, a.2 - p.2)
  else if upd = 2 then p else (-p.1, -p.2)

/-- Exact lanes of a MAC (R173 to R175, R187). -/
def macLanes (form upd psh : Nat) (acc va vb : List (Int × Int)) (bc : Bool) (lane : Nat) : List (Int × Int) :=
  (List.range 8).map (fun k =>
    let b := if bc then laneAt vb lane else laneAt vb k
    updateAcc upd (laneAt acc k) (preShift psh (product form (laneAt va k) b)))

/-- The conversion of an accumulator by R177, before saturation. -/
def storeLanes (s : Nat) (acc : List (Int × Int)) : List (Int × Int) := acc.map (preShift (min s 24))

/-- The result of an exact vector operation: saturated parts into V, SAT where one saturated (R178). -/
def Leaf.vecRes (l : Leaf) (vd : Nat) (lanes : List (Int × Int)) : Leaf :=
  (l.resV vd (vOfLanes (lanes.map satPair)) 2).setStat 4 (anySat lanes)

/-- The result of an exact accumulator update: parts modulo 2^40, overflow recorded (R175, R176). -/
def Leaf.accRes (l : Leaf) (rep : Bool) (iter n : Nat) (lanes : List (Int × Int)) : Leaf :=
  (l.resA n (aOfLanes lanes)).noteOver rep iter n lanes

def zipLanes (f : Int × Int → Int × Int → Int × Int) (a b : BitVec 256) : List (Int × Int) :=
  (List.range 8).map (fun k => f (laneAt (lanesOfV a) k) (laneAt (lanesOfV b) k))

/-- One V operation (R187): operands from `l0`, the leaf before the bundle; results into `l`. -/
def vexec (l0 l : Leaf) (rep : Bool) (iter : Nat) (op : VOp) (vd va vb vx : Nat) : Leaf :=
  let a := l0.rdV rep va
  let b := l0.rdV rep vb
  match op with
  | .nop => l
  | .add => l.vecRes vd (zipLanes (fun x y => (x.1 + y.1, x.2 + y.2)) a b)
  | .sub => l.vecRes vd (zipLanes (fun x y => (x.1 - y.1, x.2 - y.2)) a b)
  | .neg => l.vecRes vd ((lanesOfV a).map (fun x => (-x.1, -x.2)))
  | .shl => l.vecRes vd ((lanesOfV a).map (fun x => (x.1 * 2 ^ (vx % 32), x.2 * 2 ^ (vx % 32))))
  | .shr => l.resV vd (vOfLanes ((lanesOfV a).map (preShift (vx % 32)))) 2
  | .conj => l.vecRes vd ((lanesOfV a).map (fun x => (x.1, -x.2)))
  | .mov => l.resV vd a 2
  | .and => l.resV vd (a &&& b) 2
  | .or => l.resV vd (a ||| b) 2
  | .xor => l.resV vd (a ^^^ b) 2
  | .mulj => l.vecRes vd ((lanesOfV a).map (fun x => (-x.2, x.1)))
  | .bcast => l.resV vd (vOfLanes (List.replicate 8 (laneAt (lanesOfV a) (vx / 2 % 8)))) 2
  | .mac form upd =>
    l.accRes rep iter (vd % 4)
      (macLanes form upd (vd / 4 % 4) (lanesOfA (l0.rdAcc rep (vd % 4))) (lanesOfV a) (lanesOfV b) (vx.testBit 4) (vx / 2 % 8))
  | .aclr => l.resA (vd % 4) 0
  | .sac =>
    let lanes := storeLanes vx (lanesOfA (l0.rdAccSrc rep (va % 4)))
    l.vecRes vd lanes
  | .aadd =>
    l.accRes rep iter (vd % 4)
      ((List.range 8).map (fun k => updateAcc 0 (laneAt (lanesOfA (l0.rdAcc rep (vd % 4))) k) (laneAt (lanesOfV a) k)))
  | .amov => l.resA (vd % 4) (l0.rdAccSrc rep (va % 4))
  | .asum =>
    let lanes := lanesOfA (l0.rdAccSrc rep (va % 4))
    let sum := lanes.foldl (fun (x y : Int × Int) => (x.1 + y.1, x.2 + y.2)) (0, 0)
    l.accRes rep iter (vd % 4) (sum :: List.replicate 7 (0, 0))

/-! ## Scalar and control operations -/

/-- One S operation but REP (R188). -/
def sexec (l0 l : Leaf) (rep : Bool) (op : SOp) (gd ga gb : Nat) : Leaf :=
  let a := l0.rdGpr rep (ga % 32)
  let b := l0.rdGpr rep (gb % 32)
  let put := fun x => l.resGpr (gd % 32) x 1
  match op with
  | .nop | .rep => l
  | .add => put (a + b)
  | .sub => put (a - b)
  | .and => put (a &&& b)
  | .or => put (a ||| b)
  | .xor => put (a ^^^ b)
  | .shl => put (a <<< (b.toNat % 32))
  | .sra => put (a.sshiftRight (b.toNat % 32))

/-- IMM[13:0], sign-extended (R190). -/
def immSigned (imm : Nat) : Int := signedOf 14 imm

/-- One control operation that is neither a branch nor a link (R190). -/
def cexec (l0 l : Leaf) (op : COp) (rd ra rb imm : Nat) : Leaf :=
  let a := l0.gpr ra
  let b := l0.gpr rb
  let put := fun (x : W32) => l.resGpr rd x 1
  match op with
  | .addi => put (BitVec.ofNat 32 (unsignedOf 32 (a.toNat + immSigned imm)))
  | .mov => put a
  | .mulg => l.resGpr rd (a * b) 2
  | .shr => put (a >>> (b.toNat % 32))
  | .slt => put (BitVec.ofNat 32 (b2n (a.slt b)))
  | .sltu => put (BitVec.ofNat 32 (b2n (a.ult b)))
  | .min => put (if a.slt b then a else b)
  | .max => put (if a.slt b then b else a)
  | .statw => l.clearStat (imm % 256)
  | .statr => l.resGpr (rd % 32) (if imm.testBit 0 then l0.laovIdx else l0.lstat) 1
  | _ => l

/-- Where a branch goes; none where it is not taken or the operation is no branch (R190, R195). -/
def branchTarget (l0 : Leaf) (op : COp) (ra imm : Nat) : Option Nat :=
  let g := l0.g ra
  let t := imm % 8192
  match op with
  | .br | .jal => some t
  | .beqz => if g = 0 then some t else none
  | .bnez => if g = 0 then none else some t
  | .bltz => if g.msb then some t else none
  | .bgez => if g.msb then none else some t
  | .jr => some (g.toNat % 8192)
  | .babt => if l0.abortNotice then some t else none
  | _ => none

/-! ## Memory operations -/

/-- Stored bytes have reached a load of them (R181). -/
def StoreNote.landed (x : StoreNote) (now : Nat) : Bool := decide (x.issued + x.latency ≤ now)
def StoreNote.covers (x : StoreNote) (a : Nat) : Bool := decide (x.addr ≤ a ∧ a < x.addr + x.old.length)

/-- The byte at `a` as a load of leaf `n` finds it: within a REP, bytes stored too recently still read as before (R181, R197). -/
def State.heldByte (s : State) (n : Nat) (rep : Bool) (a : Nat) : Byte :=
  if rep then
    match (s.leaf n).stores.find? (fun x => x.covers a && !x.landed (s.leaf n).cyc) with
    | some x => x.old.getD (a - x.addr) 0
    | none => s.byte a
  else s.byte a

/-- A load of `bytes` bytes: the value, MISALIGN and ADDR (R161, R193). Bytes past the width read as 0. -/
def State.leafLoad (s : State) (n : Nat) (rep x : Bool) (addr bytes : Nat) : Nat × Bool × Bool :=
  match leafAccess n x addr bytes with
  | (some a, mis) => (natOfBytes ((List.range bytes).map (fun i => s.heldByte n rep (a + i))), mis, false)
  | (none, mis) => (0, mis, true)

/-- A store of `bytes` bytes (R161, R164, R193), with what the bytes were for the loads they have still to reach (R181). -/
def State.leafStore (s : State) (n : Nat) (x : Bool) (addr bytes v : Nat) : State × Bool × Bool :=
  match leafAccess n x addr bytes with
  | (some a, mis) =>
    let l := s.leaf n
    ((s.writeNat a bytes v).setLeaf n { l with stores := l.stores ++ [⟨l.cyc, storeLatency addr, a, s.bytes a bytes⟩] }, mis, false)
  | (none, mis) => (s, mis, true)

/-- The leaf may make an access in this cycle: it is neither in reset nor halted nor blocked. -/
def State.leafRuns (s : State) (n : Nat) : Bool := !s.leafInReset n && !(s.leaf n).halted && (s.leaf n).wait == .none

/-- The cycles for which an access of the Y slot freezes its leaf (R162, R163). At a quire-store bank the other accesses of the
cycle are open: a free value says which of the leaves that run, and how many accesses of the Spine port, wait at the bank; the
bank's arbitration follows from them; the first round of a bank after reset begins with leaf 0. (DESIGN CHOICE, log entry 105) -/
def State.portWait (s : State) (n : Nat) (x : Bool) (addr : Nat) : State :=
  let l := s.leaf n
  if x then s
  else if 0x200000 ≤ addr ∧ addr < 0x400000 then
    let v := s.freeVal
    let others := (List.range 8).filter (fun i => v.getLsbD i && i != n % 8 && s.leafRuns (n / 8 * 8 + i))
    let key := n / 8 * 16 + bankOf addr
    let last := mapGet (fun _ => 7) s.qui.banks key
    let k := bankTurns 16 (v.getLsbD 8) (min 8 (bitsOf v 12 9)) (leavesAhead last (n % 8) others)
    { s.drawn with qui.banks := mapSet (fun _ => 7) s.qui.banks key (n % 8) }.setLeaf n (l.freeze k)
  else if addr < 0x30000 then s.setLeaf n (l.servePort (decide (addr < 0x20000)))
  else s

/-- The pointer update of a memory operation, from the value at issue (R172, R184). -/
def Leaf.bumpPointer (l0 l : Leaf) (rep : Bool) (pn : Nat) : Leaf :=
  l.resGpr (32 + pn % 8)
    (stepPointer (l0.rdGpr rep (32 + pn % 8)) (l0.rdGpr rep (40 + pn % 8)) (l0.rdGpr rep (48 + pn % 8))
      (stepOf (l0.rdGpr rep (56 + pn % 8)))) 1

/-- A memory slot of format P (R192): MOP 0 none, 1 ld, 2 st, 3 ldk. -/
def State.memExec (s0 s : State) (l0 : Leaf) (n : Nat) (rep x : Bool) (mop w pn reg : Nat) : State :=
  let bytes := widthOf w
  let addr := (l0.rdGpr rep (32 + pn % 8)).toNat
  if mop = 1 ∨ mop = 3 then
    let r := s0.leafLoad n rep x addr bytes
    let l := ((s.leaf n).resV reg (BitVec.ofNat 256 r.1) (loadLatency addr)).setStat 5 r.2.1 |>.setStat 6 r.2.2
    (s.setLeaf n (if mop = 1 then Leaf.bumpPointer l0 l rep pn else l)).portWait n x addr
  else if mop = 2 then
    let r := s.leafStore n x addr bytes (l0.rdV rep reg).toNat
    let l := ((r.1.leaf n).setStat 5 r.2.1).setStat 6 r.2.2
    (r.1.setLeaf n (Leaf.bumpPointer l0 l rep pn)).portWait n x addr
  else s

/-- The address of a wide slot: PN itself where OFF is 0, else PN stepped by OFF without write-back (R194). -/
def wideAddr (l0 : Leaf) (rep : Bool) (pn off : Nat) : Nat :=
  if off % 2048 = 0 then (l0.rdGpr rep (32 + pn % 8)).toNat
  else (stepPointer (l0.rdGpr rep (32 + pn % 8)) (l0.rdGpr rep (40 + pn % 8)) (l0.rdGpr rep (48 + pn % 8)) (signedOf 11 off)).toNat

/-- A wide slot of format M (R194): MOP 1 ld, 2 st, 3 ldg, 4 stg, 5 sta. -/
def State.wideExec (s0 s : State) (l0 : Leaf) (n : Nat) (rep x : Bool) (mop w pn reg : Nat) (u : Bool) (sh off : Nat) : State :=
  let addr := wideAddr l0 rep pn off
  let done := fun (s : State) (l : Leaf) (r : Bool × Bool) =>
    let l := (l.setStat 5 r.1).setStat 6 r.2
    (s.setLeaf n (if u then Leaf.bumpPointer l0 l rep pn else l)).portWait n x addr
  if mop = 1 then
    let r := s0.leafLoad n rep x addr (widthOf w)
    done s ((s.leaf n).resV reg (BitVec.ofNat 256 r.1) (loadLatency addr)) r.2
  else if mop = 2 then
    let r := s.leafStore n x addr (widthOf w) (l0.rdV rep reg).toNat
    done r.1 (r.1.leaf n) r.2
  else if mop = 3 then
    let r := s0.leafLoad n rep x addr 4
    done s ((s.leaf n).resGpr (reg % 32) (BitVec.ofNat 32 r.1) (loadLatency addr)) r.2
  else if mop = 4 then
    let r := s.leafStore n x addr 4 (l0.rdGpr rep (reg % 32)).toNat
    done r.1 (r.1.leaf n) r.2
  else if mop = 5 then
    let lanes := storeLanes sh (lanesOfA (l0.rdAccSrc rep (reg % 4)))
    let r := s.leafStore n x addr 32 (vOfLanes (lanes.map satPair)).toNat
    done r.1 ((r.1.leaf n).setStat 4 (anySat lanes)) r.2
  else s

/-! ## One bundle's data operations -/

/-- Runs one operation of a bundle but a branch or a link: operands from the leaf and memory before the bundle. -/
def State.dataOp (s0 : State) (n : Nat) (rep : Bool) (iter : Nat) (op : LeafOp) (s : State) : State :=
  let l0 := s0.leaf n
  let l := s.leaf n
  match op with
  | .v o vd va vb vx => s.setLeaf n (vexec l0 l rep iter o vd va vb vx)
  | .s o gd ga gb => s.setLeaf n (sexec l0 l rep o gd ga gb)
  | .c o rd ra rb imm => s.setLeaf n (cexec l0 l o rd ra rb imm)
  | .imm add rd value => s.setLeaf n (l.resGpr rd (if add then l0.rdGpr rep rd + value else value) 1)
  | .mem x mop w pn reg => State.memExec s0 s l0 n rep x mop w pn reg
  | .wide x mop w pn reg u sh off => State.wideExec s0 s l0 n rep x mop w pn reg u sh off

/-- The order in which the slots of one bundle take effect: V, S or control, Y, X (R184). -/
def slotRank : LeafOp → Nat
  | .v _ _ _ _ _ => 0
  | .s _ _ _ _ | .c _ _ _ _ _ | .imm _ _ _ => 1
  | .mem x _ _ _ _ | .wide x _ _ _ _ _ _ _ => if x then 3 else 2

/-- A statw: its clears come first, so that a bit the same bundle sets reads 1 afterwards (R179). -/
def isStatw : LeafOp → Bool
  | .c .statw _ _ _ _ => true
  | _ => false

/-- The operations of a bundle in the order of their effect. -/
def inSlotOrder (ops : List LeafOp) : List LeafOp :=
  ops.filter isStatw ++ ops.filter (slotRank · == 0) ++ ops.filter (fun o => slotRank o == 1 && !isStatw o) ++ ops.filter (slotRank · == 2) ++ ops.filter (slotRank · == 3)

/-- Runs the data operations of a bundle once (R184). -/
def State.dataOps (s : State) (n : Nat) (rep : Bool) (iter : Nat) (ops : List LeafOp) : State :=
  (inSlotOrder ops).foldl (fun t op => State.dataOp s n rep iter op t) s

/-- Results and stored bytes that have landed for every consumer are forgotten, a register's results together (R185).
(DEDUCED, log entry 48) -/
def Leaf.forget (l : Leaf) : Leaf :=
  { l with recent := l.recent.filter (fun x => l.recent.any (fun y => y.reg == x.reg && !y.landed l.cyc 4)),
           stores := l.stores.filter (fun x => !x.landed l.cyc) }

/-- Ordinary cycles in which nothing issues: results in flight advance (R185), and the ports are free. -/
def Leaf.pass (l : Leaf) (k : Nat) : Leaf := { l.idlePorts k with cyc := l.cyc + k }.forget

/-- One ordinary issue cycle has passed (R185). -/
def Leaf.tick (l : Leaf) : Leaf :=
  { (if l.portUsed then l else l.idlePorts 1) with cyc := l.cyc + 1, portUsed := false }.forget

/-- An interlock up to cycle `c`: stall cycles, in which results in flight advance (R181, R185). -/
def Leaf.waitTo (l : Leaf) (c : Nat) : Leaf := (l.pass (c - l.cyc)).countStall (c - l.cyc)

/-- A result of latency 1 waits until it lands behind every earlier write of its registers (R185). (DEDUCED, log entry 48) -/
def Leaf.awaitWrites (l : Leaf) (regs : List Nat) : Leaf :=
  l.waitTo ((l.recent.filter (fun x => regs.contains x.reg)).foldl (fun c x => max c (x.issued + x.latency - 1)) l.cyc)

/-- The registers of a pointer (R172): its address, and where it is stepped its region, and its step register. -/
def pointerRegs (pn : Nat) (region step : Bool) : List (Nat × Nat) :=
  [(32 + pn % 8, 0)] ++ (if region then [(40 + pn % 8, 0), (48 + pn % 8, 0)] else []) ++ (if step then [(56 + pn % 8, 0)] else [])

/-- The registers an operation reads, with what the reading adds to a result's latency (R181). -/
def opReads : LeafOp → List (Nat × Nat)
  | .v o vd va vb _ =>
    let v := fun i => (64 + i % 16, 0)
    match o with
    | .nop | .aclr => []
    | .add | .sub | .and | .or | .xor => [v va, v vb]
    | .neg | .shl | .shr | .conj | .mov | .mulj | .bcast => [v va]
    | .mac _ upd => [v va, v vb] ++ (if upd ≤ 1 then [(80 + vd % 4, 1)] else [])
    | .sac | .amov | .asum => [(80 + va % 4, 4)]
    | .aadd => [v va, (80 + vd % 4, 1)]
  | .s o _ ga gb => match o with | .nop => [] | .rep => [(ga % 32, 0)] | _ => [(ga % 32, 0), (gb % 32, 0)]
  | .c o _ ra rb imm => match o with
    | .addi | .mov => [(ra % 64, 0)]
    | .mulg | .shr | .slt | .sltu | .min | .max => [(ra % 64, 0), (rb % 64, 0)]
    | .beqz | .bnez | .bltz | .bgez | .jr | .qcommit | .qrewind => [(ra % 32, 0)]
    | .qpop => (ra % 32, 0) :: pointerRegs imm true true
    | .qpush => [(ra % 32, 0), (rb % 32, 0), (64 + imm % 16, 0)]
    | .signal => [(ra % 32, 0), (rb % 32, 0)]
    | _ => []
  | .imm add rd _ => if add then [(rd % 64, 0)] else []
  | .mem _ mop _ pn reg =>
    if mop = 0 then [] else pointerRegs pn (mop != 3) (mop != 3) ++ (if mop = 2 then [(64 + reg % 16, 0)] else [])
  | .wide _ mop _ pn reg u _ off =>
    if mop = 0 ∨ 5 < mop then [] else pointerRegs pn (u || off % 2048 != 0) u
      ++ (if mop = 2 then [(64 + reg % 16, 0)] else if mop = 4 then [(reg % 32, 0)] else if mop = 5 then [(80 + reg % 4, 4)] else [])

/-- The G registers an operation writes. -/
def gWrites : LeafOp → List Nat
  | .v _ _ _ _ _ | .mem _ _ _ _ _ => []
  | .s o gd _ _ => match o with | .nop | .rep => [] | _ => [gd % 32]
  | .c o rd _ _ _ => match o with
    | .addi | .mov | .mulg | .shr | .slt | .sltu | .min | .max => [rd % 64]
    | .jal | .statr | .qcommit | .release => [rd % 32]
    | .qpop => [rd % 32, (rd + 1) % 32]
    | .fetch => (List.range 8).map (24 + ·)
    | _ => []
  | .imm _ rd _ => [rd % 64]
  | .wide _ mop _ _ reg _ _ _ => if mop = 3 then [reg % 32] else []

/-- The bundle reads or writes a register that the status of a qcommit has still to reach (R185, R199). (DEDUCED, log entry 92) -/
def Leaf.needsStatus (l : Leaf) (ops : List LeafOp) : Bool :=
  l.commits.any (fun c => ops.any (fun o => (opReads o).any (·.1 == c.rd) || (gWrites o).contains c.rd))

/-- The registers an operation writes when it issues, with the results' latencies (R181). -/
def opWrites (l : Leaf) : LeafOp → List (Nat × Nat)
  | .v o vd _ _ _ => match o with
    | .nop => []
    | .mac _ _ | .aclr | .aadd | .amov | .asum => [(80 + vd % 4, 1)]
    | _ => [(64 + vd % 16, 2)]
  | .s o gd _ _ => match o with | .nop | .rep => [] | _ => [(gd % 32, 1)]
  | .c o rd _ _ _ => match o with
    | .addi | .mov | .shr | .slt | .sltu | .min | .max => [(rd % 64, 1)]
    | .mulg => [(rd % 64, 2)]
    | .jal | .statr => [(rd % 32, 1)]
    | _ => []
  | .imm _ rd _ => [(rd % 64, 1)]
  | .mem _ mop _ pn reg =>
    (if mop = 1 ∨ mop = 3 then [(64 + reg % 16, loadLatency (l.p pn).toNat)] else []) ++ (if mop = 1 ∨ mop = 2 then [(32 + pn % 8, 1)] else [])
  | .wide _ mop _ pn reg u _ off =>
    let lat := loadLatency (wideAddr l false pn off)
    (if mop = 1 then [(64 + reg % 16, lat)] else if mop = 3 then [(reg % 32, lat)] else [])
      ++ (if u && decide (1 ≤ mop ∧ mop ≤ 5) then [(32 + pn % 8, 1)] else [])

/-- The bytes an operation loads: Spine address and length. -/
def opLoads (l : Leaf) (n : Nat) : LeafOp → Option (Nat × Nat)
  | .mem x mop w pn _ =>
    if mop = 1 ∨ mop = 3 then (leafAccess n x (l.p pn).toNat (widthOf w)).1.map (·, widthOf w) else none
  | .wide x mop w pn _ _ _ off =>
    let k := if mop = 3 then 4 else widthOf w
    if mop = 1 ∨ mop = 3 then (leafAccess n x (wideAddr l false pn off) k).1.map (·, k) else none
  | _ => none

/-- Two stretches of bytes share one. -/
def meets (a n b k : Nat) : Bool := decide (a < b + k ∧ b < a + n)

/-- The first cycle in which a bundle may issue (R181, R185): every register it reads and every byte it loads is available, and no
result of it lands before an earlier one of its register. (DEDUCED, log entry 48) -/
def Leaf.readyCycle (l : Leaf) (n : Nat) (ops : List LeafOp) : Nat :=
  let c := (ops.flatMap opReads).foldl (fun c r =>
    (l.recent.filter (fun x => x.reg == r.1)).foldl (fun c x => max c (x.issued + max x.latency r.2)) c) l.cyc
  let c := (ops.flatMap (opWrites l)).foldl (fun c r =>
    (l.recent.filter (fun x => x.reg == r.1)).foldl (fun c x => max c (x.issued + x.latency - r.2)) c) c
  (ops.filterMap (opLoads l n)).foldl (fun c r =>
    (l.stores.filter (fun x => meets x.addr x.old.length r.1 r.2)).foldl (fun c x => max c (x.issued + x.latency)) c) c

/-- The interlock: the leaf waits, counting stall cycles, until the bundle may issue (R181, R185). (DEDUCED, log entry 48) -/
def Leaf.interlock (l : Leaf) (n : Nat) (ops : List LeafOp) : Leaf :=
  l.waitTo (l.readyCycle n ops)

/-- The cycles for which a blocking operation stood: their number is open. Results in flight advance meanwhile, save in a wait for
room, whose cycles are freeze cycles (R185, R201); neither are cycles that QUI_STALL counts (R182).
(DESIGN CHOICE, log entry 105) -/
def State.blockedFor (s : State) (n : Nat) (freeze : Bool) : State :=
  let k := Config.freeNat s.freeCtr
  s.drawn.setLeaf n (if freeze then (s.leaf n).idlePorts k else (s.leaf n).pass k)

/-- The interlock cycles for which a bundle stood until the status of a qcommit came: their number is open, and QUI_STALL counts
them (R181, R199). (DESIGN CHOICE, log entry 105) -/
def State.stalledFor (s : State) (n : Nat) : State :=
  s.drawn.setLeaf n ((s.leaf n).waitTo ((s.leaf n).cyc + Config.freeNat s.freeCtr))

/-- A STEP ends with its bundle (R203): the leaf halts, and a halt request is met with it. -/
def Leaf.stepDone (l : Leaf) : Leaf :=
  { l with stepping := false, halted := true, haltReq := false, cause := 4, withdrawn := 0, recent := [], stores := [], ext := {}, extY := {} }

/-- Steps the leaf behind a bundle whose issue cycles have passed: the program counter, a STEP's halt, and behind a REP the abort
notice that waited for it (R198, R204). -/
def Leaf.advance (l : Leaf) (pc : Nat) (rep : Option Nat) : Leaf :=
  let l := { l with pc := pc % 8192, rep := rep, skipBreak := false }
  if rep.isSome then l
  else
    let l := { l with abortNotice := l.abortNotice || l.abortDue, abortDue := false }
    if l.stepping then l.stepDone else l

/-- A blocking operation completes: the V slot of its bundle issues, and the leaf goes on behind the bundle (R202). -/
def State.finishBlocked (s : State) (n : Nat) : State :=
  let l := s.leaf n
  let ops := l.staged.filter (slotRank · == 0)
  let s := (s.setLeaf n { l with wait := .none, staged := [] }).dataOps n false 0 ops
  s.setLeaf n ((s.leaf n).tick.advance ((s.leaf n).pc + 1) none)

end Sys2Proof.Machine
end

