-- ==== Sys2Proof/Machine/MemMap.lean ====
section
/-! DEFINITION. Where module memory lies in the DDR5 channels, and the ECC of its stored words (R386 to R392). -/

namespace Sys2Proof.Machine

/-! ## Address maps -/

/-- Size of module memory, 512 GiB (R386). -/
def memSize : Nat := 2 ^ 39

/-- Channel and offset of a module-memory address under a map: 0 GLOBAL, 1 DIE, 2 LINEAR (R388). -/
def locate (map a : Nat) : Nat × Nat :=
  if map = 0 then ((a / 2 ^ 8 % 16) ^^^ (a / 2 ^ 12 % 16), a / 2 ^ 12 % 2 ^ 27 * 2 ^ 8 + a % 2 ^ 8)
  else if map = 1 then (8 * (a / 2 ^ 38 % 2) + ((a / 2 ^ 8 % 8) ^^^ (a / 2 ^ 12 % 8)), a / 2 ^ 11 % 2 ^ 27 * 2 ^ 8 + a % 2 ^ 8)
  else (a / 2 ^ 35 % 16, a % 2 ^ 35)

/-- Where a module-memory byte lies in the devices: 2^35 × channel + offset. It stays there when the map changes (R389). -/
def devicePlace (map a : Nat) : Nat := let l := locate map a; l.1 * 2 ^ 35 + l.2

/-- The module-memory address of a device place under a map: what `devicePlace` takes there (R388). -/
def addressOf (map p : Nat) : Nat :=
  let c := p / 2 ^ 35
  let o := p % 2 ^ 35
  if map = 0 then o / 2 ^ 8 * 2 ^ 12 + (c ^^^ (o / 2 ^ 8 % 16)) * 2 ^ 8 + o % 2 ^ 8
  else if map = 1 then c / 8 * 2 ^ 38 + o / 2 ^ 8 * 2 ^ 11 + ((c % 8) ^^^ (o / 2 ^ 9 % 8)) * 2 ^ 8 + o % 2 ^ 8
  else p

/-! ## ECC -/

/-- Symbols in error of the stored word at device place `p` (R390). -/
def State.errorMarks (s : State) (p : Nat) : Nat := mapGet (fun _ => 0) s.mm.marks (p / 64)
def State.setMarks (s : State) (p n : Nat) : State := { s with mm.marks := mapSet (fun _ => 0) s.mm.marks (p / 64) n }

/-- A corrected read (R391): the corrected word is written back, MEM_CH_CE_c advances, and CE is set at each multiple of
2^CE_LOG2. -/
def State.corrected (s : State) (c p : Nat) : State :=
  let s := (s.setMarks p 0).bump (Reg.MEM_CH_CE c)
  if (s.rd (Reg.MEM_CH_CE c)).toNat % 2 ^ s.fld Reg.MEM_CFG 7 4 = 0 then s.raise Reg.MEM_EVENT 1 else s

/-- An uncorrectable read (R392): counted, reported, its address latched where the latch is free, and logged. -/
def State.uncorrectable (s : State) (requester c o a : Nat) : State :=
  let s := (s.bump (Reg.MEM_CH_UE c)).raise Reg.MEM_EVENT 0
  let s := if s.bit Reg.MEM_UE_ADDR_HI 31 then s else
    let w := a / 64 * 64
    (s.wr Reg.MEM_UE_ADDR_LO (BitVec.ofNat 32 w)).wr Reg.MEM_UE_ADDR_HI (BitVec.ofNat 32 (2 ^ 31 + w / 2 ^ 32))
  s.log 0x05 2 (BitVec.ofNat 128 (c + o * 2 ^ 8 + requester * 2 ^ 48))

/-- The controller reads a stored word for a requester: false where it is uncorrectable (R390 to R392). -/
def State.checkWord (s : State) (requester a : Nat) : State × Bool :=
  let l := locate s.mm.mapActive a
  let p := devicePlace s.mm.mapActive a
  let n := s.errorMarks p
  if n = 0 then (s, true)
  else if n = 1 then (s.corrected l.1 p, true)
  else (s.uncorrectable requester l.1 l.2 a, false)

end Sys2Proof.Machine
end

