-- ==== Sys2Proof/Machine/Pages.lean ====
section
/-! DEFINITION. The pages of a carrier's set and of the module set (R59): where each page's fields lie and how a write
clamps them. A bit outside every field is reserved and stored as 0 (R7, R88). -/

namespace Sys2Proof.Machine

/-- A field of a page: word index in the page, bits, clamps. -/
structure PageField where
  word : Nat
  hi : Nat
  lo : Nat
  clamp : List ClampRange := []
  deriving DecidableEq, Repr

/-- The pages (R59). -/
inductive PageSel where
  | carrier
  | half (h : Half) (n : Nat)
  | modSet (n : Nat)
  deriving DecidableEq, Repr

/-- The carrier page, bytes 0x00 to 0x13 (R60). -/
def carrierPageFields : List PageField := [
  ⟨0, 9, 9, []⟩, ⟨0, 8, 8, []⟩, ⟨0, 4, 2, [⟨5, 7, 4⟩]⟩, ⟨0, 1, 0, [⟨3, 3, 0⟩]⟩,
  ⟨1, 31, 0, [⟨10000000, 4294967295, 9999999⟩]⟩,
  ⟨2, 15, 14, [⟨3, 3, 2⟩]⟩, ⟨2, 13, 7, [⟨1, 1, 2⟩, ⟨101, 127, 100⟩]⟩, ⟨2, 3, 0, [⟨5, 15, 4⟩]⟩,
  ⟨3, 31, 16, []⟩, ⟨3, 15, 0, []⟩, ⟨4, 1, 1, []⟩, ⟨4, 0, 0, []⟩]

/-- The slot page U0 or D0 (R61). -/
def slotPageFields : List PageField := [
  ⟨0, 13, 0, []⟩,
  ⟨1, 31, 31, []⟩, ⟨1, 21, 17, []⟩, ⟨1, 16, 0, []⟩, ⟨2, 31, 31, []⟩, ⟨2, 21, 17, []⟩, ⟨2, 16, 0, []⟩,
  ⟨3, 31, 31, []⟩, ⟨3, 21, 17, []⟩, ⟨3, 16, 0, []⟩, ⟨4, 31, 31, []⟩, ⟨4, 21, 17, []⟩, ⟨4, 16, 0, []⟩,
  ⟨5, 31, 0, []⟩]

/-- Bytes 0x14 to 0x2F of the carrier page (R296). -/
def fhCarrierFields : List PageField := [
  ⟨5, 31, 31, []⟩, ⟨5, 30, 29, [⟨3, 3, 0⟩]⟩, ⟨5, 6, 0, [⟨96, 127, 95⟩]⟩, ⟨6, 31, 0, []⟩,
  ⟨7, 31, 16, []⟩, ⟨7, 15, 15, []⟩, ⟨7, 14, 12, []⟩, ⟨7, 11, 0, []⟩,
  ⟨8, 31, 0, [⟨1000001, 4294967295, 1000000⟩]⟩, ⟨9, 31, 0, [⟨1000001, 4294967295, 1000000⟩]⟩,
  ⟨10, 31, 19, [⟨5760, 8191, 5759⟩]⟩, ⟨10, 18, 14, [⟨0, 7, 8⟩, ⟨17, 31, 16⟩]⟩,
  ⟨11, 31, 20, [⟨0, 63, 64⟩, ⟨2049, 4095, 2048⟩]⟩]

/-- The flow page U1 or D1 (R297). -/
def flowPageFields : List PageField := [
  ⟨0, 31, 16, []⟩, ⟨0, 15, 12, [⟨11, 15, 10⟩]⟩, ⟨0, 11, 5, [⟨0, 0, 1⟩, ⟨65, 127, 64⟩]⟩,
  ⟨1, 31, 29, [⟨5, 7, 0⟩]⟩, ⟨1, 28, 25, []⟩, ⟨1, 24, 24, []⟩, ⟨1, 23, 23, []⟩, ⟨1, 22, 15, [⟨0, 0, 128⟩]⟩,
  ⟨1, 14, 11, []⟩, ⟨1, 10, 2, [⟨0, 0, 1⟩, ⟨276, 511, 275⟩]⟩,
  ⟨2, 31, 0, []⟩, ⟨3, 31, 0, []⟩,
  ⟨4, 31, 31, []⟩, ⟨4, 30, 29, [⟨3, 3, 2⟩]⟩, ⟨4, 28, 19, [⟨1001, 1023, 1000⟩]⟩, ⟨4, 11, 0, []⟩,
  ⟨5, 31, 0, []⟩, ⟨6, 31, 0, []⟩, ⟨7, 31, 0, []⟩, ⟨8, 31, 27, [⟨0, 11, 12⟩, ⟨31, 31, 30⟩]⟩, ⟨8, 13, 0, []⟩,
  ⟨9, 31, 16, []⟩, ⟨9, 2, 0, []⟩]

/-- The fields U3 and D3 share in word 0 and F0_KHZ (R269, R270). -/
def streamPageFields : List PageField := [
  ⟨0, 31, 31, []⟩, ⟨0, 30, 27, [⟨8, 15, 5⟩]⟩, ⟨0, 26, 20, [⟨0, 0, 1⟩, ⟨65, 127, 64⟩]⟩, ⟨0, 19, 11, [⟨0, 0, 1⟩]⟩,
  ⟨0, 10, 9, []⟩, ⟨0, 8, 5, [⟨13, 15, 12⟩]⟩, ⟨0, 4, 4, []⟩, ⟨0, 3, 3, []⟩, ⟨1, 31, 0, []⟩,
  ⟨3, 31, 0, [⟨52600001, 4294967295, 52600000⟩]⟩, ⟨4, 31, 0, []⟩, ⟨5, 31, 0, []⟩]

/-- Page U3 (R269). -/
def rxPageFields : List PageField := streamPageFields ++ [
  ⟨2, 31, 29, []⟩, ⟨2, 20, 10, []⟩, ⟨2, 9, 0, [⟨0, 9, 10⟩, ⟨1001, 1023, 1000⟩]⟩,
  ⟨6, 31, 23, []⟩, ⟨6, 22, 13, [⟨513, 1023, 512⟩]⟩]

/-- Page D3 (R270). -/
def txPageFields : List PageField := streamPageFields ++ [
  ⟨0, 2, 2, []⟩, ⟨2, 31, 21, [⟨2001, 2047, 2000⟩]⟩, ⟨2, 20, 11, [⟨0, 9, 10⟩, ⟨1001, 1023, 1000⟩]⟩,
  ⟨6, 31, 24, [⟨0, 0, 1⟩]⟩, ⟨6, 23, 16, []⟩, ⟨6, 15, 8, [⟨0, 0, 1⟩, ⟨129, 255, 128⟩]⟩, ⟨7, 31, 16, []⟩]
  ++ (List.range 16).map (fun i => ⟨16 + i, 31, 0, []⟩)

/-- Page U4 or D4 (R228); words 4 to 27 hold two taps each. -/
def spatialPageFields : List PageField := [
  ⟨0, 31, 25, [⟨0, 0, 1⟩, ⟨65, 127, 64⟩]⟩, ⟨0, 24, 20, [⟨0, 0, 1⟩, ⟨25, 31, 24⟩]⟩, ⟨0, 19, 17, [⟨5, 7, 4⟩]⟩,
  ⟨0, 16, 15, []⟩, ⟨0, 14, 13, []⟩, ⟨0, 12, 8, [⟨25, 31, 24⟩]⟩, ⟨0, 7, 5, [⟨4, 7, 3⟩]⟩, ⟨0, 4, 3, []⟩,
  ⟨1, 31, 26, [⟨0, 0, 1⟩, ⟨49, 63, 48⟩]⟩, ⟨1, 15, 0, []⟩, ⟨2, 31, 0, []⟩, ⟨3, 31, 0, []⟩]
  ++ (List.range 24).map (fun i => ⟨4 + i, 31, 0, []⟩)

/-- Page U5 (R229). -/
def uePageFields : List PageField := [⟨0, 31, 0, []⟩, ⟨1, 31, 0, []⟩, ⟨2, 31, 23, [⟨257, 511, 256⟩]⟩]

/-- Page U6 or D6 (R246). -/
def codingPageFields : List PageField := [
  ⟨0, 31, 16, []⟩, ⟨0, 15, 11, [⟨0, 15, 16⟩, ⟨25, 31, 24⟩]⟩, ⟨0, 10, 6, [⟨0, 0, 8⟩]⟩, ⟨0, 5, 5, []⟩, ⟨0, 4, 4, []⟩,
  ⟨1, 16, 0, []⟩, ⟨2, 14, 0, []⟩]

/-- Module set pages 0 to 3: eight routing rules each (R295). -/
def routePageFields : List PageField := (List.range 8).flatMap (fun r => [
  ⟨4 * r, 31, 31, []⟩, ⟨4 * r, 30, 30, []⟩, ⟨4 * r, 13, 7, [⟨96, 127, 95⟩]⟩, ⟨4 * r, 6, 0, [⟨96, 127, 95⟩]⟩,
  ⟨4 * r + 1, 31, 0, []⟩, ⟨4 * r + 2, 24, 16, []⟩, ⟨4 * r + 2, 15, 12, []⟩, ⟨4 * r + 2, 11, 8, [⟨10, 15, 9⟩]⟩,
  ⟨4 * r + 2, 7, 4, []⟩, ⟨4 * r + 2, 3, 0, [⟨7, 15, 6⟩]⟩])

/-- Module set page 4 (R363). -/
def capEnableFields : List PageField := (List.range 6).map (fun i => ⟨i, 31, 0, []⟩) ++ [
  ⟨6, 27, 16, []⟩, ⟨6, 11, 0, []⟩, ⟨7, 31, 16, []⟩, ⟨7, 7, 0, []⟩, ⟨8, 31, 30, [⟨2, 3, 0⟩]⟩, ⟨8, 15, 0, [⟨1, 63, 64⟩]⟩,
  ⟨9, 0, 0, []⟩]

/-- Module set pages 5 and 6: eight match rules each (R364). -/
def capRuleFields : List PageField := (List.range 8).flatMap (fun r => [
  ⟨4 * r, 31, 31, []⟩, ⟨4 * r, 30, 29, []⟩, ⟨4 * r, 28, 27, []⟩, ⟨4 * r, 26, 24, [⟨5, 7, 0⟩]⟩,
  ⟨4 * r, 23, 17, [⟨96, 127, 95⟩]⟩, ⟨4 * r, 16, 10, []⟩, ⟨4 * r, 9, 8, []⟩, ⟨4 * r, 6, 0, []⟩,
  ⟨4 * r + 1, 31, 0, []⟩, ⟨4 * r + 2, 31, 0, []⟩, ⟨4 * r + 3, 31, 31, []⟩, ⟨4 * r + 3, 24, 16, []⟩,
  ⟨4 * r + 3, 15, 0, [⟨1, 63, 64⟩]⟩])

/-- Module set page 7 (R365). -/
def capTapFields : List PageField :=
  (List.range 16).flatMap (fun t => [⟨t, 31, 31, []⟩, ⟨t, 15, 0, []⟩])
  ++ (List.range 8).flatMap (fun t => [⟨16 + 2 * t, 31, 31, []⟩, ⟨16 + 2 * t, 30, 30, []⟩, ⟨16 + 2 * t, 8, 0, []⟩,
    ⟨17 + 2 * t, 13, 8, []⟩, ⟨17 + 2 * t, 6, 0, [⟨0, 0, 1⟩]⟩])

/-- The fields of a page (R59). U2, D2, D5, U7 and D7 are reserved in every byte (R229, R246, R297). -/
def pageFields : PageSel → List PageField
  | .carrier => carrierPageFields ++ fhCarrierFields
  | .half h n =>
    if n = 0 then slotPageFields else if n = 1 then flowPageFields
    else if n = 3 then (if h = .ul then rxPageFields else txPageFields)
    else if n = 4 then spatialPageFields else if n = 5 ∧ h = .ul then uePageFields
    else if n = 6 then codingPageFields else []
  | .modSet n => if n < 4 then routePageFields else if n = 4 then capEnableFields else if n < 7 then capRuleFields else capTapFields

/-- One word of a page write through the fields of that word: the stored word, and whether a field was clamped. -/
def clampPageWord (fs : List PageField) (word : Nat) (v : W32) : W32 × Bool :=
  fs.foldl (fun (acc : W32 × Bool) f =>
    if f.word = word then
      let c := f.clamp.find? (fun r => decide (r.lo ≤ bitsOf v f.hi f.lo ∧ bitsOf v f.hi f.lo ≤ r.hi))
      match c with
      | some r => (setBitsOf acc.1 f.hi f.lo r.taken, true)
      | none => (setBitsOf acc.1 f.hi f.lo (bitsOf v f.hi f.lo), acc.2)
    else acc) (0, false)

/-- The clamps of word 0 of the carrier page that span fields: μ is 0 for LTE and NB-IoT, and extended CP is normal unless
μ is 2 (R60). -/
def clampCarrierWord0 (v : W32) : W32 × Bool :=
  let mu := bitsOf v 4 2
  let v1 := if bitsOf v 1 0 != 0 then setBitsOf v 4 2 0 else v
  let v2 := if bitOf v1 8 && bitsOf v1 4 2 != 2 then setBitsOf v1 8 8 0 else v1
  (v2, (bitsOf v 1 0 != 0 && mu != 0) || v2 != v1)

/-- A word of a set. -/
def setWord (w : SetWords) (page word : Nat) : W32 := mapGet (fun _ => 0) w (page * 32 + word)
/-- Bits of a word of a set. -/
def setFld (w : SetWords) (page word hi lo : Nat) : Nat := bitsOf (setWord w page word) hi lo
/-- The 64-bit value of two words of a set. -/
def setWord64 (w : SetWords) (page word : Nat) : Nat := (setWord w page word).toNat + (setWord w page (word + 1)).toNat * 2 ^ 32

/-! ## Clamps that span fields -/

/-- Puts a value in a field of a page being written. -/
def putFld (p : Nat → W32) (word hi lo v : Nat) : Nat → W32 :=
  fun w => if w = word then setBitsOf (p w) hi lo v else p w

/-- The field is at most `mx`. -/
def capFld (p : Nat → W32) (word hi lo mx : Nat) : Nat → W32 :=
  if mx < bitsOf (p word) hi lo then putFld p word hi lo mx else p

/-- The field is at least `mn`. -/
def floorFld (p : Nat → W32) (word hi lo mn : Nat) : Nat → W32 :=
  if bitsOf (p word) hi lo < mn then putFld p word hi lo mn else p

/-- N_FFT by FFT_SIZE (R269). -/
def fftSizeOf (c : Nat) : Nat := if c = 6 then 1536 else if c = 7 then 3072 else 128 * 2 ^ min c 5

/-- U1 or D1 (R297). `ext`: 12 symbols a slot; `ulTx`: the UL half of an RU, which the carrier transmits. -/
def crossFlow (ext ulTx : Bool) (p : Nat → W32) : Nat → W32 :=
  let meth := bitsOf (p 1) 31 29
  let p := if meth = 0 then putFld p 1 28 25 0 else p
  let p := if meth = 4 then putFld (putFld p 1 24 24 1) 1 23 23 1 else p
  let p := if bitsOf (p 1) 24 24 = 0 then putFld p 1 23 23 0 else p
  let p := if signedOf 32 (p 3).toNat < signedOf 32 (p 2).toNat then putFld p 3 31 0 (p 2).toNat else p
  let p := if ulTx ∧ bitsOf (p 4) 30 29 = 1 then putFld p 4 30 29 2 else p
  let p := putFld p 6 (min 31 (max 12 (bitsOf (p 8) 31 27) - 1)) 0 0
  let p := putFld p 8 (if ext then 11 else 13) (if ext then 11 else 13) 1
  p

/-- U3 or D3 (R269, R270). FFT_OFFSET is held to the carrier's longest CP, and where it is used to the symbol's own. -/
def crossStream (dl lte ext : Bool) (mu : Nat) (p : Nat → W32) : Nat → W32 :=
  let fft := fftSizeOf (bitsOf (p 0) 30 27)
  let p := capFld p 0 19 11 (min 275 (fft / 12))
  if dl then
    let p := putFld p 4 7 0 0
    floorFld p 6 23 16 (bitsOf (p 6) 31 24)
  else
    let p := if lte then p else putFld p 0 4 4 0
    let p := putFld p 4 5 0 0
    let p := capFld p 2 20 10 (fft * (if ext then 512 else 144 + 16 * 2 ^ mu) / 2048)
    capFld p 6 22 13 (512 - bitsOf (p 6) 31 23)

/-- The clamps of a page that span its fields or read the carrier page in the mould. -/
def crossClamp (sel : PageSel) (cpage : SetWords) (p : Nat → W32) : Nat → W32 :=
  let cp := fun hi lo => bitsOf (mapGet (fun _ => 0) cpage 0) hi lo
  match sel with
  | .carrier => putFld p 0 31 0 (clampCarrierWord0 (p 0)).1.toNat
  | .half h n =>
    if n = 1 then
      crossFlow (cp 8 8 = 1 && cp 4 2 = 2) (h = .ul && bitOf (mapGet (fun _ => 0) cpage 5) 31) p
    else if n = 3 then crossStream (h = .dl) (cp 1 0 = 1) (cp 8 8 = 1 && cp 4 2 = 2) (cp 4 2) p
    else if n = 4 then capFld (putFld p 2 21 0 0) 0 24 20 (max 1 (bitsOf (p 0) 31 25))
    else if n = 5 ∧ h = .ul then putFld p 0 2 0 0
    else p
  | .modSet n =>
    if n < 4 then (List.range 8).foldl (fun p r => floorFld p (4 * r) 6 0 (bitsOf (p (4 * r)) 13 7)) p
    else if n = 5 ∨ n = 6 then (List.range 8).foldl (fun p r => floorFld p (4 * r) 16 10 (bitsOf (p (4 * r)) 23 17)) p
    else if n = 7 then (List.range 8).foldl (fun p t => capFld p (17 + 2 * t) 6 0 (64 - bitsOf (p (17 + 2 * t)) 13 8)) p
    else p

end Sys2Proof.Machine
end

