-- ==== Sys2Proof/Machine/Staging.lean ====
section
/-! DEFINITION. The capture points (R362, R363, R365): which of them are enabled, and the record each offers to the Vat. What becomes of
the offers is in Machine/Capture.lean. -/

namespace Sys2Proof.Machine

/-- The carrier, slot stamp and R299 result that a frame's record names (R366). -/
structure FrameFlow where
  carrier : Nat := 0xFFFF
  slot : W32 := 0
  window : Bool := false
  deriving DecidableEq, Repr

/-- Spectral tap `i` takes items of a direction (false: received), carrier and antenna (R365). -/
def spcTapTakes (w : SetWords) (i : Nat) (tx : Bool) (carrier ant : Nat) : Bool :=
  let b := 16 + 2 * i
  let first := setFld w 7 (b + 1) 13 8
  bitOf (setWord w 4 7) i && bitOf (setWord w 7 b) 30 == tx && setFld w 7 b 8 0 == carrier
    && decide (first ≤ ant ∧ ant < first + max 1 (setFld w 7 (b + 1) 6 0))

/-- Queue Manager tap `t` takes the items of a queue (R365). -/
def qmTapTakes (w : SetWords) (t qid : Nat) : Bool := bitOf (setWord w 4 7) (16 + t) && setFld w 7 t 15 0 == qid

/-- The frame and stitch points that page 4 enables (R363); a tap's own test goes before its offer. -/
def pointEnabled (w : SetWords) (kind index : Nat) : Bool :=
  if kind = 1 then bitOf (setWord w 4 (index / 32)) (index % 32)
  else if kind = 2 then bitOf (setWord w 4 (3 + index / 32)) (index % 32)
  else if kind = 3 then bitOf (setWord w 4 6) index
  else if kind = 4 then bitOf (setWord w 4 6) (16 + index)
  else true

/-- The module set felt when the first byte of a frame or item, stamped `time`, reached its capture point (R363).
(DEDUCED, log entry 72) -/
def State.capWords (s : State) (time : Int) : SetWords := if time < s.slt.modCouch then s.slt.modBefore else s.slt.modSet.felt

/-- A capture point offers a record where it is enabled; a spectral tap's record is stamped with its item's air time, so what it goes by
is the time now. -/
def State.offer (s : State) (c : CapRec) : State :=
  let first := if c.kind = 6 then s.tb.time16 else c.time
  if pointEnabled (s.capWords first) c.kind c.index then
    { s with cap.offers := s.cap.offers ++ [{ c with beforeCouch := decide (first < s.slt.modCouch), came := s.tb.time16 }] }
  else s

/-- The record of a frame on a port (R362, R366, R368): kind 1 received, 2 transmitted. -/
def State.offerFrame (s : State) (kind p : Nat) (data : List Byte) (time : Int) (bad replayed : Bool) (f : FrameFlow) : State :=
  s.offer { kind := kind, index := p, type := 1, bad := bad, window := f.window, replayed := replayed, time := time, slot := f.slot,
            carrier := f.carrier, aux := min 65535 data.length, payload := data }

/-- The taps on a queue copy an item that becomes visible (R362, R365). -/
def State.tapItem (s : State) (qid : Nat) (i : QItem) : State :=
  (List.range 16).foldl (fun s t => if qmTapTakes (s.capWords s.tb.time16) t qid then
    s.offer { kind := 5, index := t, type := 3, prio := i.prio, time := s.tb.time16, aux := i.tag.toNat, payload := bytesOfQWords i.words }
    else s) s

/-- The spectral taps copy a time-domain item (R362, R365, R368): `time` is the air time of its first sample. -/
def State.tapSamples (s : State) (tx : Bool) (carrier ant : Nat) (slot : W32) (time : Int) (words : List QWord) : State :=
  (List.range 8).foldl (fun s i => if spcTapTakes (s.capWords s.tb.time16) i tx carrier ant then
    s.offer { kind := 6, index := i, type := 4, time := time, slot := slot, carrier := carrier, payload := bytesOfQWords words }
    else s) s

/-! ## Accessors -/

def State.chanP (s : State) (c : Nat) : PressChan := mapGet (fun _ => {}) s.cap.press c
def State.setChanP (s : State) (c : Nat) (x : PressChan) : State :=
  if c < 16 then { s with cap.press := mapSet (fun _ => {}) s.cap.press c x } else s

def State.vat (s : State) (h : Nat) : VatHalf := mapGet (fun _ => {}) s.cap.halves h
def State.setVat (s : State) (h : Nat) (x : VatHalf) : State :=
  if h < 2 then { s with cap.halves := mapSet (fun _ => {}) s.cap.halves h x } else s

end Sys2Proof.Machine
end

