-- ==== Sys2Proof/Machine/Queue.lean ====
section
/-! DEFINITION. The Queue Manager (Queues, Spine and arbitration): items, allocation, priority reads, idle-tail notices,
flush, disable, the queue descriptors and the context window. -/

namespace Sys2Proof.Machine

def State.queue (s : State) (q : Nat) : Queue := mapGet (fun _ => {}) s.qm.queues q
def State.setQueue (s : State) (q : Nat) (c : Queue) : State :=
  if q < 65536 then { s with qm.queues := mapSet (fun _ => {}) s.qm.queues q c } else s

/-- A queue that holds words: ONCHIP or MODULE (R114). -/
def Queue.storable (q : Queue) : Bool := q.kind == 2 || q.kind == 3
def Queue.size (q : Queue) : Nat := 2 ^ q.log2Words
/-- (DEDUCED, log entry 44) -/
def Queue.usedWords (q : Queue) : Nat :=
  (q.visible.map (·.words.length)).sum + (q.opens.map (·.item.words.length)).sum
/-- (DEDUCED, log entry 44) -/
def Queue.freeWords (q : Queue) : Nat := q.size - q.usedWords

/-- The priority-7 reserve (R118). -/
def Queue.reserve (q : Queue) : Nat := min (q.reserve7 * 4 ^ q.resScale) (q.size / 2)

/-- DRAINING: disabled, with items open or visible (R126). -/
def Queue.draining (q : Queue) : Bool := !q.enable && (!q.opens.isEmpty || !q.visible.isEmpty)

def Queue.dropMark (q : Queue) (p : Producer) : Option DropMark := q.drops.find? (·.prod == p)
/-- The item of a producer that it can still write to, commit or rewind; one that it committed is no longer it (R116). -/
def OpenItem.openFor (o : OpenItem) (p : Producer) : Bool := o.prod == p && o.phase != .committed
/-- The item of a producer that is committed and not yet visible (R120). -/
def OpenItem.sentBy (o : OpenItem) (p : Producer) : Bool := o.prod == p && o.phase == .committed
def Queue.openOf (q : Queue) (p : Producer) : Option OpenItem := q.opens.find? (·.openFor p)
def Queue.closeItem (q : Queue) (p : Producer) : Queue := { q with opens := q.opens.filter (!·.openFor p) }
/-- The first item of a producer that is on its way to being visible, and the queue without it. -/
def Queue.sentOf (q : Queue) (p : Producer) : Option OpenItem := q.opens.find? (·.sentBy p)
def Queue.closeSent (q : Queue) (p : Producer) : Queue := { q with opens := q.opens.eraseP (·.sentBy p) }
/-- (DEDUCED, log entry 43) -/
def Queue.unmark (q : Queue) (p : Producer) : Queue := { q with drops := q.drops.filter (·.prod != p) }
def Queue.mark (q : Queue) (p : Producer) (st : Nat) (flush : Bool) : Queue :=
  { q.unmark p with drops := (q.unmark p).drops ++ [⟨p, st, flush⟩] }
def Queue.countDrop (q : Queue) : Queue := { q with dropItems := satTo 255 (q.dropItems + 1) }

/-- Rewinds a producer's open item against its will (R116 to R118): its later words are discarded and its commit returns
the status. -/
def Queue.rewindFor (q : Queue) (p : Producer) (st : Nat) : Queue := ((q.closeItem p).mark p st false).countDrop

/-- Producers that act as DROP whatever FULL_POLICY says (R118, R212, R220). -/
def producerDrops : Producer → Bool
  | .stream _ _ | .slotGrid | .engine _ | .stitch _ | .dma _ => true
  | _ => false

def Queue.dropsFor (q : Queue) (p : Producer) : Bool := !q.stall || producerDrops p

/-- At most 64 open items (R116). -/
def maxOpen : Nat := 64

/-- A start-of-item word (R116, R126); false where the producer has to wait. -/
def Queue.start (q : Queue) (p : Producer) (prio : Nat) (tag : BitVec 16) : Queue × Bool :=
  let q := if (q.openOf p).isSome then (q.closeItem p).countDrop else q
  let q := q.unmark p
  if !q.enable then (q.mark p stDISABLED false, true)
  else if maxOpen ≤ q.opens.length then
    if q.dropsFor p then ((q.mark p stREFUSED false).countDrop, true) else (q, false)
  else ({ q with opens := q.opens ++ [⟨p, ⟨prio % 8, tag, [], 0⟩, .writing⟩] }, true)

/-- Allocates one word to the producer's open item. -/
def Queue.addWord (q : Queue) (p : Producer) (w : QWord) : Queue :=
  { q with opens := q.opens.map (fun (o : OpenItem) =>
      if o.openFor p then { o with item := { o.item with words := o.item.words ++ [w] } } else o) }

/-- A word is available to an item of the priority (R118). -/
def Queue.hasRoom (q : Queue) (prio : Nat) : Bool :=
  if prio = 7 then decide (0 < q.freeWords) else decide (q.reserve < q.freeWords)

/-- R119: every word is held by open items, none of them committed, and none is visible. -/
def Queue.stuck (q : Queue) : Bool :=
  q.freeWords == 0 && q.visible.isEmpty && q.opens.all (·.phase != .committed)

/-- R119: the open item that started last is rewound, of those that hold a word. (DEDUCED, log entry 92) -/
def Queue.evictLast (q : Queue) : Queue :=
  match (q.opens.filter (!·.item.words.isEmpty)).getLast? with
  | none => q
  | some o => { ((q.closeItem o.prod).mark o.prod stREFUSED false) with evict := satTo 255 (q.evict + 1) }

/-- A queue word of a producer (R117 to R119, R124); false where the producer has to wait for a free word.
(DEDUCED, log entry 43) -/
def Queue.word (q : Queue) (memReady : Bool) (p : Producer) (w : QWord) : Queue × Bool :=
  match q.dropMark p, q.openOf p with
  | some m, _ => (if m.flush then { q with flushWords := satTo 255 (q.flushWords + 1) } else q, true)
  | none, none => (q, true)
  | none, some o =>
    if q.itemMax ≤ o.item.words.length then (q.rewindFor p stREFUSED, true)
    else if q.kind == 2 && !memReady then (q.rewindFor p stBAD, true)
    else if q.hasRoom o.item.prio then (q.addWord p w, true)
    else if q.dropsFor p then (q.rewindFor p stREFUSED, true)
    else if q.stuck then
      let q := q.evictLast
      match q.openOf p with
      | none => (q, true)
      | some o => if q.hasRoom o.item.prio then (q.addWord p w, true) else (q, false)
    else (q, false)

/-- A commit (R120, R124, R126): the status returned at once, or none while the item is on its way to being visible. An
item without a word does not exist (R116) and is returned REFUSED. The commit ends a quiet spell (R123).
(DEDUCED, log entry 43) -/
def Queue.commit (q : Queue) (p : Producer) (raw : Nat) : Queue × Option Nat :=
  match q.dropMark p, q.openOf p with
  | some m, _ => (q.unmark p, some m.status)
  | none, none => (q, some stREFUSED)
  | none, some o =>
    if o.item.words.isEmpty then (q.closeItem p, some stREFUSED)
    else ({ q with nextSeq := q.nextSeq + 1, spellStart := some raw, spellNotified := false,
                   opens := q.opens.map (fun (x : OpenItem) =>
                     if x.openFor p then { x with phase := .committed, item := { x.item with seq := q.nextSeq } } else x) }, none)

/-- A committed item becomes visible, or ends with a bus error of module memory (R120): the status its commit returns,
and whether the commit notice is due. -/
def Queue.becomeVisible (q : Queue) (p : Producer) (ok : Bool) : Queue × Option (Nat × Bool) :=
  match q.sentOf p with
  | some o =>
    if ok then ({ q.closeSent p with visible := q.visible ++ [o.item] }, some (stOK, q.commitEn))
    else ((q.closeSent p).countDrop, some (stBAD, false))
  | none => (q, none)

/-- The item a read takes: the highest priority, then the earliest commit (R121). -/
def bestItem (l : List QItem) : Option QItem :=
  l.foldl (fun b i => match b with
    | none => some i
    | some j => if j.prio < i.prio || (j.prio == i.prio && i.seq < j.seq) then some i else b) none

/-- Takes the best visible item out of the queue (R121). -/
def Queue.take (q : Queue) (raw : Nat) : Option (QItem × Queue) :=
  match bestItem q.visible with
  | none => none
  | some i =>
    let v := q.visible.filter (fun j => j.seq != i.seq || j.prio != i.prio)
    some (i, { q with visible := v, spellStart := some raw, spellNotified := false })

/-- The place of a consumer among those that stalled; the end of the line for one that has not. -/
def stallPos (l : List Consumer) (c : Consumer) : Nat :=
  match l with
  | [] => 0
  | x :: r => if x == c then 0 else stallPos r c + 1

/-- What a read comes to (R121, R122, R126). -/
inductive ReadResult where
  | item (i : QItem)
  | ended (status : Nat)
  | stalls
  deriving DecidableEq, Repr

/-- Stalled consumers take visible items, one each, in the order in which they stalled (R122). -/
def Queue.serve (q : Queue) (raw : Nat) : Queue :=
  q.stalled.foldl (fun q c =>
    match q.take raw with
    | some (i, q') => { q' with stalled := q'.stalled.filter (· != c), served := q'.served ++ [(c, i)] }
    | none => q) q

/-- A read by a consumer: a stalled one takes up the item it was given or the status its stall ended with; else an item is taken
when one is left after those owed to the consumers that stalled before it. -/
def Queue.read (q : Queue) (c : Consumer) (raw : Nat) : Queue × ReadResult :=
  if !q.storable then (q, .ended stREFUSED)
  else match q.served.find? (·.1 == c), q.released.find? (·.1 == c) with
  | some i, _ => ({ q with served := q.served.filter (·.1 != c) }, .item i.2)
  | none, some r => ({ q with released := q.released.filter (·.1 != c) }, .ended r.2)
  | none, none =>
    if stallPos q.stalled c < q.visible.length then
      match q.take raw with
      | some (i, q') => ({ q' with stalled := q'.stalled.filter (· != c) }, .item i)
      | none => (q, .stalls)
    else if !q.enable then ({ q with stalled := q.stalled.filter (· != c) }, .ended stDISABLED)
    else (if q.stalled.contains c then q else { q with stalled := q.stalled ++ [c] }, .stalls)

/-- A stall of the consumer has ended, and the consumer has not taken up the item or the status it was given. -/
def Queue.hasGiven (q : Queue) (c : Consumer) : Bool := q.served.any (·.1 == c) || q.released.any (·.1 == c)

/-- A consumer that is reset leaves the queue: its stall, and what it was given. -/
def Queue.forgetConsumer (q : Queue) (c : Consumer) : Queue :=
  { q with stalled := q.stalled.filter (· != c), served := q.served.filter (·.1 != c), released := q.released.filter (·.1 != c) }

/-- Ends every stall on the queue with a status (R122, R126). -/
def Queue.releaseAll (q : Queue) (st : Nat) : Queue :=
  { q with released := q.released ++ q.stalled.map (·, st), stalled := [] }

/-- A flush (R124): the number of items discarded comes with it. (DEDUCED, log entry 43) -/
def Queue.flush (q : Queue) : Queue × Nat :=
  let q' := (q.opens.filter (·.phase != .committed)).foldl (fun q o => q.mark o.prod stFLUSHED (o.phase == .writing)) q
  ({ q' with visible := [], opens := [], spellStart := none, spellNotified := false }, q.visible.length + q.opens.length)

/-- A disable (R126). -/
def Queue.disable (q : Queue) : Queue :=
  let q := { q with enable := false }
  if q.visible.isEmpty then q.releaseAll stDISABLED else q

/-- Emptied, with its counters cleared, as an enable leaves it. A producer whose item was ended before still learns so (R124, R126). -/
def Queue.enabled (q : Queue) : Queue :=
  { q with enable := true, visible := [], opens := [], stalled := [], flushWords := 0, dropItems := 0, evict := 0,
           notices := 0, spellNotified := false, spellStart := none, enablePending := false, enableRefs := [] }

/-- Words of one Queue Manager bank (R115). -/
def bankWords : Nat := 49152

/-- The check of R115 for an ONCHIP queue; MODULE regions are not checked. (DEDUCED, log entry 44) -/
def State.regionFails (s : State) (qid : Nat) (q : Queue) : Bool :=
  q.kind == 3 &&
    (decide (bankWords < q.base + q.size) ||
      s.qm.queues.any (fun (p : Nat × Queue) => p.1 != qid && p.2.kind == 3 && p.2.bank == q.bank && (p.2.enable || p.2.draining) &&
        decide (p.2.base < q.base + q.size) && decide (q.base < p.2.base + p.2.size)))

/-- Puts a queue back; at the end of a drain its stalls end DISABLED, and a pending enable takes effect (R24, R126). -/
def State.putQueue (s : State) (qid : Nat) (q : Queue) : State :=
  let q := if !q.enable && q.visible.isEmpty && !q.stalled.isEmpty then q.releaseAll stDISABLED else q
  if q.enablePending && !q.enable && !q.draining then
    if s.regionFails qid q then
      ((s.setQueue qid { q with enablePending := false, enableRefs := [] }).clampAt Reg.QMG_CLAMP_COUNT).completeAll
        q.enableRefs stREFUSED
    else (s.setQueue qid q.enabled).completeAll q.enableRefs stOK
  else s.setQueue qid q

/-- A flag set leaves for the Gatherer (R129). -/
def State.sendFlags (s : State) (src : FlagSource) (task : Nat) (mask : W32) : State :=
  { s with notifies := s.notifies ++ [⟨src, task, mask⟩] }
def State.notify (s : State) (src : FlagSource) (task flag : Nat) : State := s.sendFlags src task (BitVec.ofNat 32 (2 ^ flag))

/-- The words of an item of a MODULE queue reach module memory (R120, R392): false where one ends with a bus error. Where the
words lie in the queue's region is not stated, so whether they meet a stored error there is free.
(DESIGN CHOICE, log entry 103) -/
def State.itemWritten (s : State) (qid : Nat) : State × Bool :=
  let q := s.queue qid
  let hits := if q.kind = 2 then
      (s.mm.marks.map (fun m => addressOf s.mm.mapActive (64 * m.1))).filter (fun a => decide (q.base * 32 ≤ a ∧ a < (q.base + q.size) * 32))
    else []
  if hits.isEmpty then (s, true)
  else match s.freeBelow (hits.length + 1) with
  | 0 => (s.drawn, true)
  | i + 1 => s.drawn.checkWord 140 (hits.getD i 0)

/-- A committed item becomes visible, its commit notice is sent, and a stalled consumer is served; the status its commit
returns (R120, R122, R362). -/
def State.makeVisible (s : State) (qid : Nat) (p : Producer) (ok : Bool) : State × Option Nat :=
  match (s.queue qid).becomeVisible p ok with
  | (q, some (st, note)) =>
    let s := match q.visible.getLast? with
      | some i => if st = stOK then s.tapItem qid i else s
      | none => s
    let s := s.putQueue qid (q.serve s.tb.raw.toNat)
    (if note then s.notify .queue q.commitTask q.commitFlag else s, some st)
  | (_, none) => (s, none)

/-- Writes words one after another; those left when the producer has to wait. -/
def State.putWords (s : State) (qid : Nat) (p : Producer) (l : List QWord) : State × List QWord :=
  match l with
  | [] => (s, [])
  | w :: r =>
    let x := (s.queue qid).word s.glb.memReady p w
    if x.2 then (s.putQueue qid x.1).putWords qid p r else (s.setQueue qid x.1, w :: r)

/-- The commit of a producer (R120): a status returned at once, else ITEM_VISIBLE returns it. -/
def State.commitItem (s : State) (qid : Nat) (p : Producer) : State × Option Nat :=
  if !(s.queue qid).storable then (s, some stREFUSED)
  else let x := (s.queue qid).commit p s.tb.raw.toNat; (s.putQueue qid x.1, x.2)

/-- A commit whose item becomes visible with it, or meets a bus error of module memory: the status it returns (R120). -/
def State.commitNow (s : State) (qid : Nat) (p : Producer) : State × Nat :=
  let x := s.commitItem qid p
  match x.2 with
  | some st => (x.1, st)
  | none =>
    let k := x.1.itemWritten qid
    let v := k.1.makeVisible qid p k.2
    (v.1, v.2.getD stOK)

/-! ## Queue writes that wait -/

/-- Carries one fetched QUEUE_WRITE as far as the queue lets it: the state, what is left of it, and its status once it
has ended (R128). -/
def State.advanceWrite (s : State) (w : QWrite) : State × QWrite × Option Nat :=
  let p := Producer.host w.ref.ring w.ref.tag
  if !(s.queue w.qid).storable then (s, w, some stREFUSED)
  else
    let x := if w.opened then (s.queue w.qid, true) else (s.queue w.qid).start p w.prio w.tag
    let s := s.putQueue w.qid x.1
    if !x.2 then (s, w, none)
    else
      let y := s.putWords w.qid p w.words
      match y.2 with
      | [] =>
        let c := y.1.commitNow w.qid p
        (c.1, w, some c.2)
      | l => (y.1, { w with words := l, opened := true }, none)

/-- Goes through the waiting QUEUE_WRITEs, oldest first: a write goes on when its words are here and no earlier write of its
ring waits (R91, R128). -/
def State.runWrites (s : State) (done : List QWrite) (l : List QWrite) : State :=
  match l with
  | [] => { s with qm.writes := done }
  | w :: r =>
    if w.fetched && done.all (·.ref.ring != w.ref.ring) then
      let x := s.advanceWrite w
      match x.2.2 with
      | some st => (x.1.complete w.ref st 0).runWrites done r
      | none => x.1.runWrites (done ++ [x.2.1]) r
    else s.runWrites (done ++ [w]) r

/-- Hands a commit's status to the first waiting qcommit of a leaf on that queue (R199). -/
def giveStatus (qid st : Nat) (l : List CommitWait) : List CommitWait :=
  match l with
  | [] => []
  | c :: r => if c.qid == qid && c.status.isNone then { c with status := some st } :: r else c :: giveStatus qid st r

/-- Sends what a leaf's buffer holds, oldest first, until the Queue Manager makes it wait (R199). A start-of-item word that finds
no room opens nothing (R118). -/
def State.drainBuffer (s : State) (n : Nat) (l : List LinkMsg) : State × List LinkMsg :=
  match l with
  | [] => (s, [])
  | .commit qid rd :: r =>
    let x := s.commitItem qid (.leaf n)
    let f := x.1.leaf n
    (x.1.setLeaf n { f with commits := f.commits ++ [⟨qid, rd, x.2⟩] }).drainBuffer n r
  | .word qid start w :: r =>
    if !(s.queue qid).storable then s.drainBuffer n r
    else
      let x := match start with
        | some p => (s.queue qid).start (.leaf n) p.1 p.2
        | none => (s.queue qid, true)
      if x.2 then
        let y := (s.putQueue qid x.1).putWords qid (.leaf n) [w]
        if y.2.isEmpty then y.1.drainBuffer n r
        else (if start.isSome then y.1.setQueue qid ((y.1.queue qid).closeItem (.leaf n)) else y.1, .word qid start w :: r)
      else (s.setQueue qid x.1, .word qid start w :: r)

/-- The quire's Spine port has served leaf `n` (R199). -/
def State.portServed (s : State) (n : Nat) : State :=
  { s with qui.portTurn := mapSet (fun _ => 7) s.qui.portTurn (n / 8) (n % 8) }

/-- A leaf's words and commits go out; a qpush that waited for room completes with its word (R199, R202). `fresh`: the qpush issues
now and has not waited. (DEDUCED, log entry 92) -/
def State.drainLeaf (s : State) (n : Nat) (fresh : Bool) : State :=
  if (s.leaf n).buffer.isEmpty then s
  else
    let x := s.drainBuffer n (s.leaf n).buffer
    let s := x.1.setLeaf n { x.1.leaf n with buffer := x.2 }
    let s := if x.2.isEmpty then s.portServed n else s
    if x.2.isEmpty && (s.leaf n).wait == .qpush then (if fresh then s else s.blockedFor n true).finishBlocked n else s

/-- Hands a commit's status to the producer (R120). (DESIGN CHOICE, log entry 11) -/
def State.noteCommit (s : State) (qid : Nat) (p : Producer) (st : Option Nat) : State :=
  match st with
  | some c =>
    let s := { s with qm.lastCommit := some (qid, p, c) }
    match p with
    | .leaf n => s.setLeaf n { s.leaf n with commits := giveStatus qid c (s.leaf n).commits }
    | _ => s
  | none => s

/-- One message of a producer takes its effect; false where the producer has to wait (R116 to R120, R126). A QID of kind NONE or
HOST opens nothing, and the commit returns REFUSED (R114). -/
def State.portOp (s : State) (m : PortMsg) : State × Bool :=
  match m.op with
  | .start prio tag =>
    if (s.queue m.qid).storable then
      let x := (s.queue m.qid).start m.prod prio tag
      (s.putQueue m.qid x.1, x.2)
    else (s, true)
  | .word w =>
    let x := s.putWords m.qid m.prod [w]
    (x.1, x.2.isEmpty)
  | .commit =>
    let x := s.commitItem m.qid m.prod
    (x.1.noteCommit m.qid m.prod x.2, true)

/-- Goes through the waiting messages, oldest first; one behind an earlier message of its producer waits. -/
def State.runPorts (s : State) (done : List PortMsg) (l : List PortMsg) : State :=
  match l with
  | [] => { s with qm.ports := done }
  | m :: r =>
    if done.any (fun x => x.qid == m.qid && x.prod == m.prod) then s.runPorts (done ++ [m]) r
    else
      let x := s.portOp m
      x.1.runPorts (if x.2 then done else done ++ [m]) r

/-- The leaves of a quire in the order in which its Spine port serves them next: round-robin (R199). The first round after reset
begins with leaf 0. (DESIGN CHOICE, log entry 104) -/
def State.portOrder (s : State) (q : Nat) : List Nat :=
  (List.range 8).map (fun i => 8 * q + (mapGet (fun _ => 7) s.qui.portTurn q + 1 + i) % 8)

/-- Producers that waited for room go on. The order among them, which the manual does not give: QUEUE_WRITEs, other producers in the
order in which they began to wait, then the quires by number, each serving its leaves' words round-robin; a leaf that waits has one
word to send (R118, R128, R199). (DESIGN CHOICE, log entry 104) -/
def State.retryOnce (s : State) : State :=
  let s := s.runWrites [] s.qm.writes
  let s := s.runPorts [] s.qm.ports
  ((mapKeys s.qui.leaves).map (· / 8)).eraseDups.foldl (fun s q => (s.portOrder q).foldl (fun s n => s.drainLeaf n false) s) s

/-- How much waits for room. -/
def State.waitingCount (s : State) : Nat := s.qm.writes.length + s.qm.ports.length + (s.qui.leaves.map (·.2.buffer.length)).sum

/-- Producers that waited go on, once more for each message that waits, since what one frees another may take (R118). -/
def State.retryWrites (s : State) : State := (List.range (s.waitingCount + 1)).foldl (fun s _ => s.retryOnce) s

/-- A producer of the module's own commits a whole item: start, words, commit, visible; the status its commit returns
(R116 to R120). Only producers that act as DROP use it, so nothing waits. (DESIGN CHOICE, log entry 24) -/
def State.pushItem (s : State) (qid : Nat) (p : Producer) (prio : Nat) (tag : BitVec 16) (words : List QWord) : State × Nat :=
  if !(s.queue qid).storable then (s, stREFUSED)
  else
    let s := s.putQueue qid ((s.queue qid).start p prio tag).1
    let x := (s.putWords qid p words).1.commitNow qid p
    (x.1.retryWrites, x.2)

/-- A queue bound to the fabric has no other consumer (R342): one that has nothing of it due already is refused.
(DESIGN CHOICE, log entry 118) -/
def State.boundElsewhere (s : State) (qid : Nat) (c : Consumer) : Bool :=
  let q := s.queue qid
  s.stf.bindings.any (fun b => b.2.kind != 0 && b.2.src == qid && c != .stitch b.1)
    && !(q.served.any (·.1 == c)) && !(q.released.any (·.1 == c))

/-- A consumer's read with what it frees for waiting writers. -/
def State.readQueue (s : State) (qid : Nat) (c : Consumer) : State × ReadResult :=
  if s.boundElsewhere qid c then (s, .ended stREFUSED)
  else
    let x := (s.queue qid).read c s.tb.raw.toNat
    ((s.putQueue qid x.1).retryWrites, x.2)

/-! ## Queue commands -/

/-- A message of a producer reaches the Queue Manager, behind those of the producer that wait (R118). -/
def State.sendPort (s : State) (m : PortMsg) : State :=
  if s.qm.ports.any (fun x => x.qid == m.qid && x.prod == m.prod) then { s with qm.ports := s.qm.ports ++ [m] }
  else
    let x := s.portOp m
    (if x.2 then x.1 else { x.1 with qm.ports := x.1.qm.ports ++ [m] }).retryWrites

/-- START_OF_ITEM (R116, R126). -/
def execStartOfItem (qid : Nat) (prod : Producer) (prio : Nat) (tag : BitVec 16) (s : State) : Res := s.whenClocked fun s =>
  .next (s.sendPort ⟨qid, prod, .start prio tag⟩)

/-- QUEUE_WORD (R117 to R119). -/
def execQueueWord (qid : Nat) (prod : Producer) (word : QWord) (s : State) : Res := s.whenClocked fun s => .next (s.sendPort ⟨qid, prod, .word word⟩)

/-- ITEM_COMMIT (R120, R124, R126). -/
def execItemCommit (qid : Nat) (prod : Producer) (s : State) : Res := s.whenClocked fun s => .next (s.sendPort ⟨qid, prod, .commit⟩)

/-- ITEM_VISIBLE (R120). A bus error can end only a MODULE queue's item. -/
def execItemVisible (qid : Nat) (prod : Producer) (ok : Bool) (s : State) : Res := s.whenClocked fun s =>
  let x := s.makeVisible qid prod (ok || (s.queue qid).kind != 2)
  .next (x.1.retryWrites.noteCommit qid prod x.2)

/-- ITEM_REWIND (R116, R117): counted in DROP_ITEMS unless the producer itself asked for it; what the producer still waited to write
goes too. -/
def State.rewindItem (s : State) (qid : Nat) (p : Producer) (asked : Bool) : State :=
  let s := { s with qm.ports := s.qm.ports.filter (fun m => m.qid != qid || m.prod != p) }
  let q := s.queue qid
  match q.openOf p with
  | some o =>
    if o.phase == .writing then
      let q' := q.closeItem p
      (s.putQueue qid (if asked then q' else q'.countDrop)).retryWrites
    else s
  | none => s.setQueue qid (q.unmark p)

def execItemRewind (qid : Nat) (prod : Producer) (asked : Bool) (s : State) : Res := s.whenClocked fun s => .next (s.rewindItem qid prod asked)

/-- ITEM_READ (R121, R122). -/
def execItemRead (qid : Nat) (cons : Consumer) (s : State) : Res := s.whenClocked fun s =>
  let x := s.readQueue qid cons
  .next { x.1 with qm.lastRead := match x.2 with
    | .item i => some (qid, cons, stOK, some i)
    | .ended st => some (qid, cons, st, none)
    | .stalls => none }

/-- The idle-tail notice is due (R123): at the 64 ns tick, by the raw counter. -/
def Queue.noticeDue (q : Queue) (raw : Nat) : Bool :=
  match q.spellStart with
  | none => false
  | some t => q.idleTicks != 0 && q.noticeEn && !q.spellNotified && !q.visible.isEmpty &&
      decide (t + q.idleTicks * 64 ≤ raw / 64 * 64)

/-- IDLE_NOTICE (R123). -/
def execIdleNotice (qid : Nat) (s : State) : Res := s.whenClocked fun s =>
  let q := s.queue qid
  if q.noticeDue s.tb.raw.toNat then
    .next ((s.setQueue qid { q with spellNotified := true, notices := satTo 255 (q.notices + 1) }).notify .queue q.noticeTask q.noticeFlag)
  else .next s

/-! ## Queue descriptors -/

/-- The QID of a QUEUE_CTRL descriptor (R127). -/
def queueCtrl (s : State) (d : Desc) (f : Nat → Queue → State) : State :=
  let qid := d.fld 0x10 15 0
  let q := s.queue qid
  if q.storable then f qid q else s.complete (d.ref false) stREFUSED 0

/-- QUEUE_CTRL DISABLE (R126, R127). A second disable has no further effect (R24). -/
def State.queueDisable (s : State) (d : Desc) : State :=
  queueCtrl s d fun qid q =>
    ((s.putQueue qid (if q.enable then q.disable else q)).retryWrites).complete (d.ref false) stOK 0

def execQueueDisable (d : Desc) (s : State) : Res := s.whenClocked fun s => .next (s.queueDisable d)

/-- QUEUE_CTRL ENABLE (R115, R127): completes when the enable takes effect. -/
def State.queueEnable (s : State) (d : Desc) : State :=
  queueCtrl s d fun qid q =>
    if q.enable then s.complete (d.ref false) stOK 0
    else (s.putQueue qid { q with enablePending := true, enableRefs := q.enableRefs ++ [d.ref false] }).retryWrites

def execQueueEnable (d : Desc) (s : State) : Res := s.whenClocked fun s => .next (s.queueEnable d)

/-- The producers whose items are committed and not yet visible, in the order of their starts. -/
def Queue.sent (q : Queue) : List Producer := (q.opens.filter (·.phase == .committed)).map (·.prod)

/-- What a flush meets between commit and visibility: an item of an ONCHIP queue that was committed is visible before the flush
(R125), the commit of a MODULE queue's item returns FLUSHED (R124). -/
def State.settleSent (s : State) (qid : Nat) : State :=
  let q := s.queue qid
  q.sent.foldl (fun s p =>
    if q.kind = 2 then s.noteCommit qid p (some stFLUSHED)
    else let x := s.makeVisible qid p true; x.1.noteCommit qid p x.2) s

/-- QUEUE_CTRL FLUSH (R124, R125, R127). -/
def State.queueFlush (s : State) (d : Desc) : State :=
  queueCtrl s d fun qid _ =>
    let s := s.settleSent qid
    let x := (s.queue qid).flush
    ((s.putQueue qid x.1).retryWrites).complete (d.ref false) stOK (satTo 65535 x.2)

def execQueueFlush (d : Desc) (s : State) : Res := s.whenClocked fun s => .next (s.queueFlush d)

/-- QUEUE_CTRL with OP 0 (R127). -/
def State.queueNop (s : State) (d : Desc) : State := queueCtrl s d fun _ _ => s.complete (d.ref false) stOK 0

/-- QUEUE_WRITE (R128): LENGTH and ADDR are clamped, and the fetch of the words is issued. -/
def State.queueWrite (s : State) (d : Desc) : State :=
  let qid := d.fld 0x10 15 0
  let q := s.queue qid
  let len := d.fld 0x14 12 0
  let n := if len = 0 then 1 else if q.itemMax < len then q.itemMax else len
  let addr := d.w64 0x18
  let clamped := n != len || addr.toNat % 32 != 0
  let a := BitVec.ofNat 64 (addr.toNat / 32 * 32)
  let s := s.clampDesc d clamped Reg.QMG_CLAMP_COUNT
  if !q.storable then s.complete (d.ref clamped) stREFUSED 0
  else
    let w : QWrite := { ref := d.ref clamped, qid := qid, prio := d.fld 0x14 15 13, tag := BitVec.ofNat 16 (d.fld 0x10 31 16),
                        length := n, addr := a }
    { s with qm.writes := s.qm.writes ++ [w] }.emit (.hostRead (s.descFn d) a (n * 32))

def execQueueWrite (d : Desc) (s : State) : Res := s.whenClocked fun s => .next (s.queueWrite d)

/-- Marks the oldest unfetched write of the ring and tag as fetched; none where there is no such write. -/
def markFetched (ring : Nat) (tag : W32) (words : List QWord) (l : List QWrite) : Option (List QWrite) :=
  match l with
  | [] => none
  | w :: r =>
    if w.ref.ring == ring && w.ref.tag == tag && !w.fetched then
      some ({ w with fetched := true, words := (List.range w.length).map (fun i => words.getD i 0) } :: r)
    else (markFetched ring tag words r).map (w :: ·)

/-- The write a failed fetch ends, and the others. -/
def takeUnfetched (ring : Nat) (tag : W32) (l : List QWrite) : Option (QWrite × List QWrite) :=
  match l with
  | [] => none
  | w :: r =>
    if w.ref.ring == ring && w.ref.tag == tag && !w.fetched then some (w, r)
    else (takeUnfetched ring tag r).map (fun p => (p.1, w :: p.2))

/-- QUEUE_WRITE_DATA (R128): the words are here, or the fetch failed and the descriptor ends BAD. -/
def State.queueWriteData (s : State) (ring : Nat) (tag : W32) (ok : Bool) (words : List QWord) : State :=
  if ok then
    match markFetched ring tag words s.qm.writes with
    | some l => { s with qm.writes := l }.retryWrites
    | none => s
  else
    match takeUnfetched ring tag s.qm.writes with
    | some (w, l) => ({ s with qm.writes := l }.complete w.ref stBAD 0).retryWrites
    | none => s

/-- (DESIGN CHOICE, log entry 8) -/
def execQueueWriteData (ring : Nat) (tag : W32) (ok : Bool) (words : List QWord) (s : State) : Res := s.whenClocked fun s =>
  .next (s.queueWriteData ring tag ok words)

/-! ## The context window -/

/-- Window words W0 to W7 of a context (R136). -/
def Queue.w0 (q : Queue) : Nat := b2n q.enable * 2 ^ 31 + q.kind * 2 ^ 29 + b2n q.stall * 2 ^ 28 + q.log2Words * 2 ^ 23 + q.bank * 2 ^ 19
def Queue.w3 (q : Queue) : Nat := q.resScale * 2 ^ 29 + q.itemMax * 2 ^ 16 + q.reserve7
def Queue.w5 (q : Queue) : Nat := b2n q.noticeEn * 2 ^ 31 + q.noticeFlag * 2 ^ 17 + q.noticeTask
def Queue.w6 (q : Queue) : Nat := b2n q.commitEn * 2 ^ 31 + q.commitFlag * 2 ^ 17 + q.commitTask
def Queue.w7 (q : Queue) : Nat := b2n q.bindEn * 2 ^ 31 + q.bindHalf * 2 ^ 16 + q.bindCarrier

def Queue.w10 (q : Queue) : Nat :=
  satTo 255 q.flushWords * 2 ^ 24 + satTo 255 q.dropItems * 2 ^ 16 + satTo 255 q.evict * 2 ^ 8 + satTo 255 q.notices
def Queue.w11 (q : Queue) : Nat := b2n q.draining * 2 ^ 31 + b2n q.spellNotified * 2 ^ 30 + min 255 q.opens.length * 2 ^ 8 + satTo 255 q.stalled.length

/-- Loads W0 to W11 of the window from the selected context (R136). (DEDUCED, log entry 38) -/
def State.loadQctx (s : State) : State :=
  let q := s.queue (s.fld Reg.QMG_QCTX_SEL 15 0)
  let put := fun (s : State) (a v : Nat) => s.wr a (BitVec.ofNat 32 v)
  put (put (put (put (put (put (put (put (put (put (put (put s Reg.QMG_QCTX_CFG0 q.w0) Reg.QMG_QCTX_BASE_LO q.base)
    Reg.QMG_QCTX_BASE_HI (q.base / 2 ^ 32)) Reg.QMG_QCTX_CFG1 q.w3) Reg.QMG_QCTX_IDLE q.idleTicks)
    Reg.QMG_QCTX_NOTICE q.w5) Reg.QMG_QCTX_COMMIT q.w6) Reg.QMG_QCTX_BIND q.w7) Reg.QMG_QCTX_WORDS q.usedWords)
    Reg.QMG_QCTX_ITEMS q.visible.length) Reg.QMG_QCTX_COUNTS q.w10) Reg.QMG_QCTX_STATE q.w11

/-- A write to the window, the selector or the command register while BUSY is discarded and counted. -/
def State.qctxGate (s : State) (f : State → State) : State :=
  if s.qm.busy then s.clampAt Reg.QMG_CLAMP_COUNT else f s

/-- A write of QMG_QCTX_SEL (R136). -/
def State.qctxSelect (s : State) (v : W32) : State :=
  s.qctxGate fun s => (s.wr Reg.QMG_QCTX_SEL (BitVec.ofNat 32 (bitsOf v 15 0))).loadQctx

def execQctxSelect (value : W32) (s : State) : Res := .next (s.hostWriteTo Reg.QMG_QCTX_SEL (·.qctxSelect value))

/-- The staged words as a context over the stored one, with every clamp that spans fields applied (R136), the reserve's by the size
that is in force; true where a clamp was. -/
def State.stagedQueue (s : State) (old : Queue) : Queue × Bool :=
  let f := fun a hi lo => s.fld a hi lo
  let kind := f Reg.QMG_QCTX_CFG0 30 29
  let l0 := f Reg.QMG_QCTX_CFG0 27 23
  let log2 := if kind = 2 then max 10 (min 30 l0) else if kind = 3 then max 4 (min 15 l0) else l0
  let b0 := f Reg.QMG_QCTX_BASE_LO 31 0 + f Reg.QMG_QCTX_BASE_HI 1 0 * 2 ^ 32
  let base := b0 / 2 ^ log2 * 2 ^ log2
  let i0 := f Reg.QMG_QCTX_CFG1 28 16
  let item := if i0 = 0 then 1 else min i0 (min 4096 (2 ^ log2 / 4))
  let r0 := f Reg.QMG_QCTX_CFG1 15 0
  let sc := f Reg.QMG_QCTX_CFG1 31 29
  let half := (if old.enable || old.draining then old.size else 2 ^ log2) / 2
  let res := if half < r0 * 4 ^ sc then half / 4 ^ sc else r0
  let h0 := f Reg.QMG_QCTX_BIND 17 16
  ({ old with
      enable := f Reg.QMG_QCTX_CFG0 31 31 = 1, kind := kind, stall := f Reg.QMG_QCTX_CFG0 28 28 = 1, log2Words := log2,
      bank := f Reg.QMG_QCTX_CFG0 22 19, base := base, resScale := sc, itemMax := item, reserve7 := res,
      idleTicks := f Reg.QMG_QCTX_IDLE 19 0,
      noticeEn := f Reg.QMG_QCTX_NOTICE 31 31 = 1, noticeFlag := f Reg.QMG_QCTX_NOTICE 21 17, noticeTask := f Reg.QMG_QCTX_NOTICE 16 0,
      commitEn := f Reg.QMG_QCTX_COMMIT 31 31 = 1, commitFlag := f Reg.QMG_QCTX_COMMIT 21 17, commitTask := f Reg.QMG_QCTX_COMMIT 16 0,
      bindEn := f Reg.QMG_QCTX_BIND 31 31 = 1, bindHalf := if h0 = 0 then 3 else h0,
      bindCarrier := f Reg.QMG_QCTX_BIND 15 0 % 512 },
   log2 != l0 || base != b0 || item != i0 || res != r0 || h0 == 0 || decide (511 < f Reg.QMG_QCTX_BIND 15 0))

/-- What a commit to an enabled or draining queue may change: FULL_POLICY, the reserve and W4 to W7. -/
def Queue.withSoft (old new : Queue) : Queue :=
  { old with stall := new.stall, reserve7 := new.reserve7, resScale := new.resScale,
             idleTicks := new.idleTicks, noticeEn := new.noticeEn, noticeFlag := new.noticeFlag, noticeTask := new.noticeTask,
             commitEn := new.commitEn, commitFlag := new.commitFlag, commitTask := new.commitTask,
             bindEn := new.bindEn, bindHalf := new.bindHalf, bindCarrier := new.bindCarrier }

/-- A staged change to a field that stays as it is. -/
def Queue.hardDiffers (old new : Queue) : Bool :=
  old.kind != new.kind || old.log2Words != new.log2Words || old.bank != new.bank || old.base != new.base || old.itemMax != new.itemMax

/-- Applies the staged context by the ENABLE transition (R136). -/
def State.applyQctx (s : State) : State :=
  let qid := s.fld Reg.QMG_QCTX_SEL 15 0
  let old := s.queue qid
  let st := s.stagedQueue old
  let new := st.1
  let cc := Reg.QMG_CLAMP_COUNT
  if old.kind != new.kind && (s.ring qid).enable then s.clampAt cc
  else if old.enable then
    if new.enable then (s.putQueue qid (old.withSoft new)).clampIf (st.2 || old.hardDiffers new) cc
    else s.putQueue qid old.disable
  else if old.draining then
    let q := old.withSoft new
    (s.putQueue qid (if new.enable then { q with enablePending := true } else q)).clampIf (st.2 || old.hardDiffers new) cc
  else if new.enable then
    if s.regionFails qid new then (s.setQueue qid { new with enable := false }).clampAt cc
    else (s.setQueue qid new.enabled).clampIf st.2 cc
  else (s.setQueue qid new).clampIf st.2 cc

/-- A write of QMG_QCTX_CMD (R136): COMMIT applies W0 to W7 and BUSY reads 1 until the commit ends. -/
def State.qctxCommit (s : State) (v : W32) : State :=
  s.qctxGate fun s => if bitOf v 0 then { s.applyQctx.retryWrites with qm.busy := true } else s

def execQctxCommit (value : W32) (s : State) : Res := .next (s.hostWriteTo Reg.QMG_QCTX_CMD (·.qctxCommit value))

/-- QCTX_COMMIT_DONE (R136): BUSY clears and the window reloads. (DESIGN CHOICE, log entry 4) -/
def execQctxCommitDone (s : State) : Res := s.whenClocked fun s =>
  if s.qm.busy then .next { s with qm.busy := false }.loadQctx else .next s

/-- BIND names the carrier and half (R136). -/
def Queue.bindsTo (q : Queue) (carrier : Nat) (h : Half) : Bool :=
  q.bindEn && q.bindCarrier == carrier && (q.bindHalf == 3 || q.bindHalf == (match h with | .ul => 1 | .dl => 2))

/-- The queue a leaf's qpush is stalled on. -/
def Leaf.pushingTo (l : Leaf) : Option Nat :=
  match l.wait, l.buffer with
  | .qpush, .word qid _ _ :: _ => some qid
  | _, _ => none

/-- A stalled qpush is withdrawn, its item rewound, and the leaf goes on (R204). (DEDUCED, log entry 92) -/
def State.withdrawPush (s : State) (n qid : Nat) : State :=
  ((s.setLeaf n { s.leaf n with buffer := [] }).rewindItem qid (.leaf n) true).blockedFor n true |>.finishBlocked n

/-- A consumer stands stalled on a queue bound to the carrier and half, or a leaf in a qpush on one. -/
def State.stallsOn (s : State) (carrier : Nat) (h : Half) : Bool :=
  s.qm.queues.any (fun p => p.2.bindsTo carrier h && !p.2.stalled.isEmpty)
    || s.qui.leaves.any (fun p => match p.2.pushingTo with | some q => (s.queue q).bindsTo carrier h | none => false)

/-- A slot abort releases the consumers stalled on queues bound to the carrier and half, and withdraws each qpush stalled on one
(R77, R122, R204). (DEDUCED, log entry 92) -/
def State.abortStalls (s : State) (carrier : Nat) (h : Half) : State :=
  let end_ := fun (q : Queue) => if q.bindsTo carrier h then q.releaseAll stABORTED else q
  let s := { s with qm.queues := mapMapSet (fun _ => {}) (fun _ q => end_ q) s.qm.queues }
  (mapKeys s.qui.leaves).foldl (fun s n => match (s.leaf n).pushingTo with
    | some q => if (s.queue q).bindsTo carrier h then s.withdrawPush n q else s
    | none => s) s

end Sys2Proof.Machine
end

