-- ==== Sys2Proof/Machine/Timebase.lean ====
section
/-! DEFINITION. The timebase (Timebase): raw counter, corrected time, rate commits, adjustments, steps, references, PPS
and holdover. -/

namespace Sys2Proof.Machine

/-! ## The tick -/

/-- The slew part of one tick (R34): TB_SLEW_MAX × 10^-6 ns toward the remaining adjustment, the last one only what
remains. (DESIGN CHOICE, log entry 9) -/
def slewPart (ppm : Nat) (remain : Int) : Int :=
  let p : Int := (ppm : Int) * 2 ^ 40
  if remain < 0 then max (-p) remain else min p remain

/-- One TCLK tick (R29, R32, R34, R39): the raw counter advances; a committed rate re-bases the offset so that corrected
time goes on without a jump and holds from the next tick; then the slew part is applied. (DESIGN CHOICE, log entries 9, 109) -/
def TbState.tick (t : TbState) (ppm : Nat) (source : Bool) (ppsOffsetNs : Int) : TbState :=
  let raw := t.raw + 1
  let t1 : TbState := { t with raw := raw }
  let t2 : TbState := match t.pendingRate with
    | none => t1
    | some r => { t1 with offsetU := t1.offsetU + (raw.toNat : Int) * ((t.rate : Int) - r) * 1000000, rate := r, pendingRate := none }
  let part := slewPart ppm t2.remainU
  let t3 : TbState := { t2 with offsetU := t2.offsetU + part, remainU := t2.remainU - part, stitchSource := source }
  let sec := fun (x : TbState) => (x.timeU + ppsOffsetNs * uPerNs) / (1000000000 * uPerNs)
  { t3 with ppsDue := t3.ppsDue || decide (sec t < sec t3) }

/-- TB_PPS_OUT_OFFSET as a signed number of ns. -/
def State.ppsOffset (s : State) : Int := signedOf 32 (s.rd Reg.TB_PPS_OUT_OFFSET).toNat

/-- TB_SLEW_MAX.PPM. -/
def State.slewPpm (s : State) : Nat := s.fld Reg.TB_SLEW_MAX 6 0

/-- TCLK_TICK. A slew that reaches 0 in the tick ends it (R34). -/
def State.tclkTick (s : State) : State :=
  let slewing := s.tb.remainU != 0
  let s := { s with tb := s.tb.tick s.slewPpm (s.bit Reg.TB_CTRL 0) s.ppsOffset }
  if slewing && s.tb.remainU == 0 then s.raise Reg.TB_EVENT 2 else s

def execTclkTick (s : State) : Res := .next (if s.tclkRuns then s.tclkTick else s)

/-- SLEW_DONE (R34): the tick that brings a slew to 0, where what remains is at most one tick's part; not due otherwise. -/
def State.slewDone (s : State) : State :=
  if s.tb.remainU != 0 && s.tb.remainU == slewPart s.slewPpm s.tb.remainU then s.tclkTick else s

def execSlewDone (s : State) : Res := .next (if s.tclkRuns then s.slewDone else s)

/-! ## Rate, adjustment and step -/

/-- The legal range of TB_RATE, ±200 ppm (R32). -/
def rateMin : Nat := 0x00FFF2E48E8B
def rateMax : Nat := 0x01000D1B7175
def clampRate (r : Nat) : Nat := if r < rateMin then rateMin else if rateMax < r then rateMax else r

/-- Commits a rate for the next tick (R32). -/
def State.commitRate (s : State) (r : Nat) : State :=
  let s := { s with tb.pendingRate := some (clampRate r) }
  (s.wr Reg.TB_RATE_LO (BitVec.ofNat 32 (clampRate r))).wr Reg.TB_RATE_HI (BitVec.ofNat 32 (clampRate r / 2 ^ 32))

/-- A write of TB_RATE_HI (R32, R39). -/
def State.writeRateHi (s : State) (v : W32) : State :=
  if s.tb.stitchSource then s.clampAt Reg.TB_CLAMP_COUNT
  else
    let r := (s.rd Reg.TB_RATE_LO).toNat + bitsOf v 15 0 * 2 ^ 32
    (s.commitRate r).clampIf (clampRate r != r) Reg.TB_CLAMP_COUNT

def execTbRateCommit (value : W32) (s : State) : Res := .next (s.hostWriteTo Reg.TB_RATE_HI (·.writeRateHi value))

/-- A carrier counts as stopped when it is STOPPED, or DISABLED and no longer draining (R76); CarrierMode.disabled is
reached only when the drain has ended. -/
def Carrier.isStopped (c : Carrier) : Bool := c.mode == .stopped || c.mode == .disabled

/-- A start is armed in some half (R35): the carrier is then STARTING (R74). -/
def State.allStopped (s : State) : Bool := s.slt.carriers.all (fun p => p.2.isStopped)

/-- Saturation to the signed 64-bit range of TB_REFUSED (R35). -/
def satSigned64 (i : Int) : Int := max (-(2 ^ 63)) (min (2 ^ 63 - 1) i)

/-- A reference frame lasts 10 ms (R50). -/
def frameNs : Int := 10000000

/-- The reference grid resumes at the first frame boundary that follows corrected time (R53). -/
def State.resumeGrid (s : State) : State :=
  { s with slt.nextFrame := (s.tb.timeU - s.slt.originNs * uPerNs) / (frameNs * uPerNs) + 1 }

/-- A step of `d`, in u (R35): applied in one tick where permitted, else refused with its amount recorded. After a step
the reference grid resumes at the first frame boundary that follows the new time (R53), and PPS_OUT at the first whole
second that follows (R43). (DESIGN CHOICE, log entry 109) -/
def State.applyStep (s : State) (d : Int) : State :=
  if s.bit Reg.TB_CTRL 8 && s.allStopped then
    let s := { s with tb := { s.tb with offsetU := s.tb.offsetU + d, remainU := 0, ppsDue := false } }
    s.resumeGrid.raise Reg.TB_EVENT 1
  else
    let a := satSigned64 (d / uPer16)
    let n := unsignedOf 64 a
    let s := { s with tb.refused := a }
    ((s.wr Reg.TB_REFUSED_LO (BitVec.ofNat 32 n)).wr Reg.TB_REFUSED_HI (BitVec.ofNat 32 (n / 2 ^ 32))).raise Reg.TB_EVENT 0

/-- TB_STEP_LIMIT in u. -/
def State.stepLimitU (s : State) : Int := (s.fld Reg.TB_STEP_LIMIT 9 0 : Int) * uPerNs

/-- An adjustment of `adj` units of 2^-16 ns (R33): slewed, ending a slew where the sum is 0, or handled as a step. -/
def State.adjust (s : State) (adj : Int) : State :=
  let sum := s.tb.remainU + adj * uPer16
  if (sum.natAbs : Int) ≤ s.stepLimitU then
    let ends := s.tb.remainU != 0 && sum == 0
    let s := { s with tb.remainU := sum }
    if ends then s.raise Reg.TB_EVENT 2 else s
  else s.applyStep (adj * uPer16)

/-- A write of TB_ADJ_HI (R33, R39). -/
def State.writeAdjHi (s : State) (v : W32) : State :=
  if s.tb.stitchSource then s.clampAt Reg.TB_CLAMP_COUNT
  else (s.wr Reg.TB_ADJ_HI v).adjust (signedOf 64 ((s.rd Reg.TB_ADJ_LO).toNat + v.toNat * 2 ^ 32))

def execAdjustment (value : W32) (s : State) : Res := .next (s.hostWriteTo Reg.TB_ADJ_HI (·.writeAdjHi value))

/-- A write of TB_SET_SEC_HI commits an absolute time, a step whatever its size (R36). -/
def State.writeSetSecHi (s : State) (v : W32) : State :=
  if s.tb.stitchSource then s.clampAt Reg.TB_CLAMP_COUNT
  else
    let s := s.wr Reg.TB_SET_SEC_HI (BitVec.ofNat 32 (bitsOf v 15 0))
    let sec : Nat := (s.rd Reg.TB_SET_SEC_LO).toNat + bitsOf v 15 0 * 2 ^ 32
    let t : Int := ((sec * 1000000000 + (s.rd Reg.TB_SET_NS).toNat : Nat) : Int) * uPerNs
    s.applyStep (t - s.tb.timeU)

def execTimeSet (value : W32) (s : State) : Res := .next (s.hostWriteTo Reg.TB_SET_SEC_HI (·.writeSetSecHi value))

/-- A host write of another word of TB_RATE, TB_ADJ or TB_SET: discarded and counted while SOURCE is STITCH (R39). -/
def State.writeTbStaged (s : State) (a : Nat) (v : W32) : State :=
  if s.tb.stitchSource then s.clampAt Reg.TB_CLAMP_COUNT else s.writeTable a v

/-- SOURCE_CHANGE: a write of TB_CTRL; SOURCE governs from the next tick (R39). -/
def execSourceChange (value : W32) (s : State) : Res := .next (s.hostWriteTo Reg.TB_CTRL (·.writeTable Reg.TB_CTRL value))

/-! ## References -/

/-- The external reference `r` is detected at its input; the TCXO always is (R40). -/
def TbState.present (t : TbState) (r : Nat) : Bool := if r = 1 then t.synceInPresent else if r = 2 then t.trefInPresent else true

/-- The PLL runs on the selected reference, and is locked to it where it is external and present (R40). -/
def TbState.selectRef (t : TbState) (r : Nat) : TbState :=
  { t with refInUse := r, refPresent := t.present r, timeLocked := r != 0 && t.present r }

/-- A write of TB_REF_CTRL (R40, R41): the register, then the reference in use; phase build-out loses no tick.
(DESIGN CHOICE, log entry 109) -/
def State.writeRefCtrl (s : State) (v : W32) : State :=
  let s := s.writeTable Reg.TB_REF_CTRL v
  let r := s.fld Reg.TB_REF_CTRL 1 0
  if r = s.tb.refInUse then s else { s with tb := s.tb.selectRef r }

/-- Sets a TB event bit. The PLL and its detection run on through a warm reset, which holds TB_EVENT at its reset value
(R40, R442). -/
def State.tbEvent (s : State) (b : Nat) : State := if s.clocked then s.raise Reg.TB_EVENT b else s

/-- REF_LOST (R40): the selected external reference is gone; the PLL holds its frequency and ticks go on. -/
def State.refLost (s : State) : State :=
  if s.tb.refInUse = 0 ∨ s.tb.refPresent = false then s
  else
    let t := { s.tb with refPresent := false, timeLocked := false }
    let t := if s.tb.refInUse = 1 then { t with synceInPresent := false } else { t with trefInPresent := false }
    { s with tb := t }.tbEvent 3

def execRefLost (s : State) : Res := .next (if s.tclkRuns then s.refLost else s)

/-- REF_RETURN (R40): first REF_PRESENT, then, once the PLL has relocked, TIME_LOCKED. -/
def State.refReturn (s : State) (locked : Bool) : State :=
  if s.tb.refInUse = 0 then s
  else
    let t := { s.tb with refPresent := true, timeLocked := s.tb.timeLocked || locked }
    { s with tb := if s.tb.refInUse = 1 then { t with synceInPresent := true } else { t with trefInPresent := true } }

def execRefReturn (locked : Bool) (s : State) : Res := .next (if s.tclkRuns then s.refReturn locked else s)

/-- REFERENCE_DETECTION (R40, R462): an input appears or disappears and its PRESENT bit follows. The selected
reference's own loss and return are REF_LOST and REF_RETURN. -/
def State.referenceDetection (s : State) (input : Nat) (present : Bool) : State :=
  if input = 1 then { s with tb.synceInPresent := present }
  else if input = 2 then { s with tb.trefInPresent := present }
  else s

def execReferenceDetection (input : Nat) (present : Bool) (s : State) : Res :=
  let s1 := s.referenceDetection input present
  if !s.tclkRuns then .next s
  else if input = 0 ∨ input ≠ s.tb.refInUse then .next s1
  else if present then .next (s1.refReturn false) else .next s.refLost

/-! ## PPS and holdover -/

/-- PPS_IN (R43): the rising edge is stamped with corrected time. -/
def execPpsIn (s : State) : Res := s.whenClocked fun s => .next ((s.wrTriple Reg.TB_PPS_IN s.tb.time16).raise Reg.TB_EVENT 5)

/-- PPS_OUT (R43): corrected time plus the offset has crossed a whole second; with EN the pin rises.
(DESIGN CHOICE, log entry 109) -/
def execPpsOut (s : State) : Res := s.whenClocked fun s =>
  if s.tb.ppsDue then .next { s with tb.ppsDue := false, tb.ppsOut := s.tb.ppsOut || s.bit Reg.TB_PPS_OUT_CTRL 31 }
  else .next s

/-- PPS_OUT_END (R43): WIDTH milliseconds have passed and the pin falls. -/
def execPpsOutEnd (s : State) : Res := s.whenClocked fun s => .next { s with tb.ppsOut := false }

/-- HOLDOVER_CLEAR (R47, R48): a write of 1 to TB_STATUS.HOLDOVER clears it and SLEEP_OVF. -/
def State.clearHoldover (s : State) : State := { s with tb.holdover := false, tb.sleepOvf := false }

def execHoldoverClear (s : State) : Res := .next (s.hostWriteTo Reg.TB_STATUS (·.clearHoldover))

/-- The named lane of SYNCE_OUT lost lock (R41): the output is held low, SYNCE_LOS and its event are set. -/
def State.synceLos (s : State) : State := { s with tb.synceLos := true }.raise Reg.TB_EVENT 4

end Sys2Proof.Machine
end

