-- ==== Sys2Proof/Machine/SlotGrid.lean ====
section
/-! DEFINITION. The slot grid (Slot grid and couching): grids and stamps, mould writes, arms, carrier control. Couches,
expiries and slot aborts, which reach into every engine, are in Machine/Boundary.lean. -/

namespace Sys2Proof.Machine

/-! ## Grids and stamps -/

/-- Slot length in ns and slots per frame of numerology μ (R51). -/
def slotLenNs (mu : Nat) : Nat := 1000000 / 2 ^ mu
def slotsPerFrame (mu : Nat) : Nat := 10 * 2 ^ mu
/-- The period of the slot index, P (R52). -/
def slotPeriod (spf : Nat) : Nat := 2 ^ 24 * spf

/-- The slot index of a slot number. -/
def indexOf (spf : Nat) (n : Int) : Nat := (n % (slotPeriod spf : Nat)).toNat

/-- The slot stamp of a slot number (R52). -/
def stampOf (spf : Nat) (n : Int) : W32 :=
  let i := indexOf spf n
  BitVec.ofNat 32 (i / spf * 2 ^ 8 + i % spf)

/-- The frame count a stamp names: EPOCH × 1,024 + FRAME. -/
def stampFrame (st : W32) : Nat := bitsOf st 31 8
/-- The slot index of a stamp; a SLOT past the frame's end is slot 0 of the next frame (R68). -/
def stampIndex (spf : Nat) (st : W32) : Nat :=
  if spf ≤ bitsOf st 7 0 then ((stampFrame st + 1) * spf) % slotPeriod spf else stampFrame st * spf + bitsOf st 7 0

/-- What the carrier page says (R60), with the default that a 0 selects. -/
structure CarrierCfg where
  rat : Nat
  mu : Nat
  extCp : Bool
  offsetNs : Nat
  expiry : Nat
  deckleUs : Nat
  dlLead : Nat
  pushQidDl : Nat
  pushQidUl : Nat
  pushDl : Bool
  pushUl : Bool
  deriving DecidableEq, Repr

def carrierCfg (w : SetWords) : CarrierCfg :=
  let f := fun i hi lo => setFld w 0 i hi lo
  { rat := f 0 1 0, mu := f 0 4 2, extCp := f 0 8 8 = 1, offsetNs := f 1 31 0, expiry := f 2 15 14,
    deckleUs := if f 2 13 7 = 0 then 6 else f 2 13 7, dlLead := if f 2 3 0 = 0 then 1 else f 2 3 0,
    pushQidDl := f 3 31 16, pushQidUl := f 3 15 0, pushDl := f 4 1 1 = 1, pushUl := f 4 0 0 = 1 }

def CarrierCfg.spf (c : CarrierCfg) : Nat := slotsPerFrame c.mu
def CarrierCfg.len (c : CarrierCfg) : Int := (slotLenNs c.mu : Nat)

/-- The time, in ns, of the air boundary of slot `n` (R50, R51). -/
def CarrierCfg.airNs (c : CarrierCfg) (origin n : Int) : Int := origin + c.offsetNs + n * c.len
/-- The boundary of a half (R54): the DL boundary precedes the air boundary by DL_LEAD slots. -/
def CarrierCfg.boundaryNs (c : CarrierCfg) (origin : Int) (h : Half) (n : Int) : Int :=
  match h with
  | .ul => c.airNs origin n
  | .dl => c.airNs origin n - c.dlLead * c.len

/-- The slot of a half that is current at time `t` (in u), whether or not the half runs. -/
def CarrierCfg.slotAt (c : CarrierCfg) (origin : Int) (h : Half) (tU : Int) : Int :=
  (tU - c.boundaryNs origin h 0 * uPerNs) / (c.len * uPerNs)

/-- The effective deckle window in ns, min(DECKLE_US, L_slot ÷ 2). -/
def CarrierCfg.deckleNs (c : CarrierCfg) : Int := min (c.deckleUs * 1000 : Nat) (slotLenNs c.mu / 2)

def State.carrier (s : State) (c : Nat) : Carrier := mapGet (fun _ => {}) s.slt.carriers c
def State.setCarrier (s : State) (c : Nat) (x : Carrier) : State :=
  if c < 512 then { s with slt.carriers := mapSet (fun _ => {}) s.slt.carriers c x } else s

def Carrier.half (c : Carrier) (h : Half) : HalfState := match h with | .ul => c.ul | .dl => c.dl
def Carrier.setHalf (c : Carrier) (h : Half) (x : HalfState) : Carrier :=
  match h with | .ul => { c with ul := x } | .dl => { c with dl := x }

/-- The page the carrier's boundaries follow: the armed one while it starts, else the felt one (R60). -/
def Carrier.page (c : Carrier) : SetWords := if c.mode == .starting then c.pageArmed else c.pageFelt
def Carrier.cfg (c : Carrier) : CarrierCfg := carrierCfg c.page

/-- Slot `n` of the half has expired: its boundary has fired and it does not live (R78, R141, R231). A slot before the start and
the stop slot, which the half never processes, count as expired. (DEDUCED, log entry 30) -/
def HalfState.expired (y : HalfState) (n : Int) : Bool :=
  match y.curSlot with
  | some k => decide (n ≤ k) && !y.live.any (fun l => l.slot == n)
  | none => false

/-! ## Mould -/

/-- One word into the mould of a half; while the copy runs it waits (R56). -/
def HalfState.write (h : HalfState) (key : Nat) (v : W32) : HalfState :=
  if h.copying then { h with waitingWrites := h.waitingWrites ++ [(key, v)] }
  else { h with mould := mapSet (fun _ => 0) h.mould key v }

/-- The copy ends and the writes that waited apply, in order (R56). -/
def HalfState.finishCopy (h : HalfState) : HalfState :=
  { h with copying := false, waitingWrites := [],
           mould := h.waitingWrites.foldl (fun m (p : Nat × W32) => mapSet (fun _ => 0) m p.1 p.2) h.mould }

/-- Which page a mould write addresses. -/
def pageSel (carrier half page : Nat) : PageSel :=
  if carrier = 0xFFFF then .modSet page else if half = 0 then .carrier else if half = 2 then .half .dl page else .half .ul page

/-- The CLAMP_COUNT of the block that owns a word of a page (R59). -/
def pageOwner (p : PageSel) (word : Nat) : Nat :=
  match p with
  | .carrier => if word < 5 then Reg.SLT_CLAMP_COUNT else Reg.FH_CLAMP_COUNT
  | .half _ n => if n = 0 then Reg.SLT_CLAMP_COUNT else if n < 3 then Reg.FH_CLAMP_COUNT else if n = 3 then Reg.SPC_CLAMP_COUNT
      else if n < 6 then Reg.SPA_CLAMP_COUNT else Reg.COD_CLAMP_COUNT
  | .modSet n => if n < 4 then Reg.FH_CLAMP_COUNT else Reg.CAP_CLAMP_COUNT

/-- Stores one word of a page in the mould, as clamped. -/
def State.storePageWord (s : State) (carrier half page word : Nat) (v : W32) : State :=
  if carrier = 0xFFFF then { s with slt.modSet := s.slt.modSet.write (page * 32 + word) v }
  else
    let c := s.carrier carrier
    if half = 0 then s.setCarrier carrier { c with pageMould := mapSet (fun _ => 0) c.pageMould word v }
    else
      let h : Half := if half = 2 then .dl else .ul
      s.setCarrier carrier (c.setHalf h ((c.half h).write (page * 32 + word) v))

/-- The mould generation of a half, 16 bits, as completions report it; the carrier page reports the UL half's (R66). -/
def State.mouldGen16 (s : State) (carrier half : Nat) : Nat :=
  (if carrier = 0xFFFF then s.slt.modSet.gen else if half = 2 then (s.carrier carrier).dl.gen else (s.carrier carrier).ul.gen) % 65536

/-- The carrier takes no arm and no page write: DISABLED, or DRAINING after a disable (R74, R76). (DEDUCED, log entry 91) -/
def Carrier.refusesWork (c : Carrier) : Bool := c.mode == .disabled || (c.mode == .draining && c.disabling)

def State.carrierRefuses (s : State) (c : Nat) : Bool := c != 0xFFFF && (s.carrier c).refusesWork

/-- MOULD_COPY_DONE (R56). (DESIGN CHOICE, log entry 4) -/
def execMouldCopyDone (carrier : Nat) (half : Half) (s : State) : Res := s.whenClocked fun s =>
  if carrier = 0xFFFF then .next { s with slt.modSet := s.slt.modSet.finishCopy }
  else
    let c := s.carrier carrier
    .next (s.setCarrier carrier (c.setHalf half (c.half half).finishCopy))

/-! ## Arms -/

/-- R68: the slot an arm resolves to from its target's distance to the earliest reachable slot E: (slot, late, clamped). -/
def resolveArm (d period : Nat) (e : Int) : Int × Bool × Bool :=
  if d < 8192 then (e + d, false, false) else if period / 2 ≤ d then (e, true, false) else (e, false, true)

/-- Arms a half for a slot: the mould bank is frozen as the armed bank, the generation advances and the copy begins; an
armed set for the same slot is superseded, its START or STOP stays and its arms complete OK (R55, R56, R68). `ref` is the
arm's completion, where this half posts it. -/
def HalfState.arm (h : HalfState) (slot : Int) (start stop late : Bool) (ref : Option DRef) : HalfState :=
  let h := h.finishCopy
  let old := h.armed
  { h with
      armed := some { slot := slot, gen := h.gen, words := h.mould,
                      start := start || (old.map (·.start)).getD false, stop := stop || (old.map (·.stop)).getD false,
                      late := late,
                      refs := ((old.map (·.refs)).getD []).map (fun a => { a with late := false }) ++ (match ref with | some r => [⟨r, late⟩] | none => []) }
      gen := (h.gen + 1) % 2 ^ 32, copying := true }

/-- The half holds an armed set for another slot (R68). -/
def HalfState.armedElsewhere (h : HalfState) (slot : Int) : Bool :=
  match h.armed with
  | some a => a.slot != slot
  | none => false

/-- E of a carrier for a deciding half at time `t` (R68, R69): the lowest slot whose boundary less the deckle window is
later than `t`. -/
def CarrierCfg.earliest (c : CarrierCfg) (origin : Int) (h : Half) (tU : Int) : Int :=
  (tU - (c.boundaryNs origin h 0 - c.deckleNs) * uPerNs) / (c.len * uPerNs) + 1

/-- An ARM of a carrier (R66 to R70, R75). One that resolves late and is then refused, since a half holds an armed set for
another slot, arms nothing and counts as no late arm. (DEDUCED, log entry 101) -/
def State.armCarrier (s : State) (d : Desc) (cid : Nat) (stop start : Bool) (half : Nat) (clamped : Bool) : State :=
  let c := s.carrier cid
  let cc := Reg.SLT_CLAMP_COUNT
  if s.tb.holdover then (s.clampDesc d clamped cc).complete (d.ref clamped) stREFUSED 0
  else if c.refusesWork then (s.clampDesc d clamped cc).complete (d.ref clamped) stDISABLED 0
  else if (start && c.mode != .stopped) || (stop && c.mode != .running) || (!start && c.mode == .stopped) || c.mode == .draining then
    (s.clampDesc d clamped cc).complete (d.ref clamped) stREFUSED 0
  else
    let cfg := if start then carrierCfg c.pageMould else c.cfg
    let deciding : Half := if half = 1 then .ul else .dl
    let e := cfg.earliest s.slt.originNs deciding s.tb.timeU
    let period := slotPeriod cfg.spf
    let overflow := !d.immediate && decide (cfg.spf ≤ bitsOf d.slot 7 0)
    let dist := if d.immediate then 0 else (stampIndex cfg.spf d.slot + period - indexOf cfg.spf e) % period
    let r := resolveArm dist period e
    let clamped := clamped || overflow || r.2.2
    let s := s.clampDesc d clamped cc
    let slot := r.1
    let useUl := half != 2
    let useDl := half != 1
    if (useUl && c.ul.armedElsewhere slot) || (useDl && c.dl.armedElsewhere slot) then
      s.complete (d.ref clamped) stREFUSED 0
    else
      let ref := some (d.ref clamped)
      let c := if useDl then { c with dl := c.dl.arm slot start stop r.2.1 (if useUl then none else ref) } else c
      let c := if useUl then { c with ul := c.ul.arm slot start stop r.2.1 ref } else c
      let c := if start then { c with mode := .starting, pageArmed := c.pageMould,
                                      ul := { c.ul with curSlot := none }, dl := { c.dl with curSlot := none } } else c
      let s := s.setCarrier cid c
      if r.2.1 then (s.bumpFld (Reg.SLT_CCOUNT cid) 31 16 1).raise Reg.SLT_EVENT 0 else s

/-- An ARM of the module set (R72): slots are frames, and a nonzero SLOT is rounded up to the next frame. -/
def State.armModule (s : State) (d : Desc) (clamped : Bool) : State :=
  let cc := Reg.SLT_CLAMP_COUNT
  if s.tb.holdover then (s.clampDesc d clamped cc).complete (d.ref clamped) stREFUSED 0
  else
    let period := slotPeriod 1
    let deckle : Int := (s.fld Reg.SLT_MODULE_DECKLE 6 0 * 1000 : Nat)
    let e := (s.tb.timeU - (s.slt.originNs - deckle) * uPerNs) / (frameNs * uPerNs) + 1
    let round := !d.immediate && bitsOf d.slot 7 0 != 0
    let target := (stampFrame d.slot + b2n (bitsOf d.slot 7 0 != 0)) % period
    let dist := if d.immediate then 0 else (target + period - indexOf 1 e) % period
    let r := resolveArm dist period e
    let clamped := clamped || round || r.2.2
    let s := s.clampDesc d clamped cc
    if s.slt.modSet.armedElsewhere r.1 then s.complete (d.ref clamped) stREFUSED 0
    else
      let s := { s with slt.modSet := s.slt.modSet.arm r.1 false false r.2.1 (some (d.ref clamped)) }
      if r.2.1 then s.raise Reg.SLT_EVENT 0 else s

/-- ARM (R66): the fields of its word, as clamped, then the carrier's or the module set's arm. -/
def State.arm (s : State) (d : Desc) : State :=
  let cid := carrierField d.carrier
  let cl0 := carrierClamped d.carrier
  let stop := (d.w 0x10).getLsbD 3
  let start := (d.w 0x10).getLsbD 2
  let half := d.fld 0x10 1 0
  if cid = 0xFFFF then s.armModule d (cl0 || stop || start || half != 1)
  else
    let start' := start && !stop
    let half' := if half = 0 ∨ start ∨ stop then 3 else half
    s.armCarrier d cid stop start' half' (cl0 || (start && stop) || half' != half)

def execArm (d : Desc) (s : State) : Res := s.whenClocked fun s => .next (s.arm d)

/-! ## Carrier control and the grid origin -/

/-- A carrier that has nothing left to run or expire leaves DRAINING (R74); a pending enable takes it to STOPPED (R24). -/
def Carrier.settle (c : Carrier) : Carrier :=
  if c.mode == .draining && !c.ul.running && !c.dl.running && !c.ul.disableNext && !c.dl.disableNext
      && c.ul.live.isEmpty && c.dl.live.isEmpty then
    if c.disabling && !c.enablePending then { c with mode := .disabled, disabling := false }
    else { c with mode := .stopped, disabling := false, enablePending := false }
  else c

/-- Discards a half's armed set; its arms complete DISABLED (R76). -/
def State.discardArmed (s : State) (cid : Nat) (h : Half) : State :=
  let c := s.carrier cid
  let refs := match (c.half h).armed with | some a => a.refs.map (·.ref) | none => []
  (s.setCarrier cid (c.setHalf h { c.half h with armed := none })).completeAll refs stDISABLED

/-- CARRIER_CTRL DISABLE (R74, R76). (DEDUCED, log entry 91) -/
def State.carrierDisable (s : State) (cid : Nat) : State :=
  let c := s.carrier cid
  let mark := fun (h : Half) (x : HalfState) =>
    if x.running then { x with disableNext := true }
    else if x.armed.isSome then
      { x with disableNext := true, nextSlot := c.cfg.slotAt s.slt.originNs h s.tb.timeU + 1 }
    else x
  match c.mode with
  | .disabled => s
  | .stopped => s.setCarrier cid { c with mode := .disabled }
  | .draining => s.setCarrier cid { c with disabling := true }
  | .starting =>
    if c.dl.running then s.setCarrier cid { c with disabling := true, dl := mark .dl c.dl, ul := mark .ul c.ul }
    else
      let s := (s.discardArmed cid .dl).discardArmed cid .ul
      s.setCarrier cid { s.carrier cid with mode := .disabled }
  | .running => s.setCarrier cid { c with disabling := true, dl := mark .dl c.dl, ul := mark .ul c.ul }

/-- CARRIER_CTRL ENABLE (R74, R76). -/
def State.carrierEnable (s : State) (cid : Nat) : State :=
  let c := s.carrier cid
  if c.mode == .disabled then s.setCarrier cid { c with mode := .stopped }
  else if c.disabling then s.setCarrier cid { c with enablePending := true }
  else s

/-- A CARRIER_CTRL descriptor with effect `f` on a carrier; it does not act on the module set (R67, R72). -/
def State.carrierCtrl (s : State) (d : Desc) (clamped : Bool) (f : State → Nat → State) : State :=
  let cid := carrierField d.carrier
  let cl := clamped || carrierClamped d.carrier
  let s := s.clampDesc d cl Reg.SLT_CLAMP_COUNT
  (if cid = 0xFFFF then s else f s cid).complete (d.ref cl) stOK 0

def execCarrierEnable (d : Desc) (s : State) : Res := s.whenClocked fun s => .next (s.carrierCtrl d false State.carrierEnable)

/-- A write of SLT_GRID_NS or SLT_GRID_SEC_LO: staged while no carrier is live, else discarded and counted (R50). -/
def State.writeGridStaged (s : State) (a : Nat) (v : W32) : State :=
  if s.allStopped then s.writeTable a v else s.clampAt Reg.SLT_CLAMP_COUNT

/-- GRID_ORIGIN_SET (R50, R79): a write of SLT_GRID_SEC_HI commits the origin. -/
def State.writeGridSecHi (s : State) (v : W32) : State :=
  if s.allStopped then
    let s := s.writeTable Reg.SLT_GRID_SEC_HI v
    let sec : Nat := (s.rd Reg.SLT_GRID_SEC_LO).toNat + s.fld Reg.SLT_GRID_SEC_HI 15 0 * 2 ^ 32
    { s with slt.originNs := ((sec * 1000000000 + (s.rd Reg.SLT_GRID_NS).toNat : Nat) : Int) }.resumeGrid
  else s.clampAt Reg.SLT_CLAMP_COUNT

def execGridOriginSet (value : W32) (s : State) : Res := .next (s.hostWriteTo Reg.SLT_GRID_SEC_HI (·.writeGridSecHi value))

end Sys2Proof.Machine
end

