-- ==== Sys2Proof/Machine/Gatherer.lean ====
section
/-! DEFINITION. The Gatherer (The Gatherer: tasks, events and signatures): task records, flags, dispatch, deadlines,
cancel, signatures. -/

namespace Sys2Proof.Machine

def State.task (s : State) (t : Nat) : Task := mapGet (fun _ => {}) s.gth.tasks t
def State.setTask (s : State) (t : Nat) (x : Task) : State :=
  if t < 131072 then { s with gth.tasks := mapSet (fun _ => {}) s.gth.tasks t x } else s
def State.sig (s : State) (g : Nat) : Signature := mapGet (fun _ => {}) s.gth.sigs g
def State.setSig (s : State) (g : Nat) (x : Signature) : State :=
  if g < 16384 then { s with gth.sigs := mapSet (fun _ => {}) s.gth.sigs g x } else s

/-- Bound to a carrier half (R138). -/
def Task.bound (t : Task) : Bool := t.carrier != 0xFFFF
def Task.boundHalf (t : Task) : Half := if t.half = 2 then .dl else .ul

/-- The current slot of a half (R141): none while the carrier is STOPPED or DISABLED, or before the half's first couch.
(DEDUCED, log entry 30) -/
def State.currentSlot (s : State) (c : Nat) (h : Half) : Option Int :=
  let x := s.carrier c
  match x.mode with
  | .stopped | .disabled => none
  | _ => (x.half h).curSlot

/-- The stamp of the current reference frame, SLOT 0 (R141, SLT_REF_FRAME). -/
def State.refStamp (s : State) : W32 := stampOf 1 (s.slt.nextFrame - 1)

/-! ## Arming and readiness -/

/-- The readiness condition (R142). -/
def Task.isReady (t : Task) : Bool :=
  if t.any then t.pending &&& t.waitMask != 0 else t.pending &&& t.waitMask == t.waitMask

/-- A WAITING task whose condition holds becomes READY (R142, R144). -/
def State.evaluate (s : State) (n : Nat) : State :=
  let t := s.task n
  if t.mode == .waiting && t.isReady then
    { s with gth.readyCount := s.gth.readyCount + 1 }.setTask n
      { t with mode := .ready, readyOrder := s.gth.readyCount, readyPending := t.pending }
  else s

/-- The wait deadline of a task armed now (R149), in u. -/
def State.deadlineOf (s : State) (t : Task) (slotNum : Int) : Int :=
  if t.dlUs != 0 then s.tb.timeU + (t.dlUs * 1000 : Nat) * uPerNs
  else if t.bound then (s.carrier t.carrier).cfg.boundaryNs s.slt.originNs t.boundHalf (slotNum + 2) * uPerNs
  else (s.slt.originNs + (s.slt.nextFrame + 1) * frameNs) * uPerNs

/-- Arms an IDLE task (R140): PENDING, TIMEOUT, slot tag, deadline, sequence number, then readiness. -/
def State.armTask (s : State) (n : Nat) (flags slot : W32) (slotNum : Int) : State :=
  let t := s.task n
  let g := s.sig t.sig
  let t := { t with mode := .waiting, pending := t.latch ||| flags, latch := 0, timeout := false, slot := slot, slotNum := slotNum,
                    deadlineU := s.deadlineOf t slotNum, seq := if t.sigEn then g.alloc else t.seq }
  let s := if t.sigEn then s.setSig t.sig { g with alloc := (g.alloc + 1) % 2 ^ 32 } else s
  (s.setTask n t).evaluate n

def State.stray (s : State) : State := s.bump Reg.GTH_STRAYS

/-- Latches flags outside WAITING, or drops and counts them (R139). -/
def State.latchFlags (s : State) (n : Nat) (flags : W32) : State :=
  let t := s.task n
  if t.latchEn then s.setTask n { t with latch := t.latch ||| flags } else s.stray

/-- A flag set reaches its event port (R139 to R142). A mask of 0 sets nothing. -/
def State.flagSet (s : State) (n : Nat) (flags : W32) : State :=
  let t := s.task n
  if flags = 0 then s
  else match t.mode with
  | .undef | .cancelledRunning => s.stray
  | .waiting => (s.setTask n { t with pending := t.pending ||| flags }).evaluate n
  | .ready | .running => s.latchFlags n flags
  | .idle =>
    if flags &&& t.armMask = 0 then s.latchFlags n flags
    else if t.bound then
      match s.currentSlot t.carrier t.boundHalf with
      | some k => s.armTask n flags (stampOf (s.carrier t.carrier).cfg.spf k) k
      | none => s.latchFlags n flags
    else s.armTask n flags s.refStamp 0

/-- Takes the oldest flag set of this task and mask that no earlier one of its source precedes off its way to the Gatherer
(R130, R200); `seen` are the sources passed so far. None where no such flag set is under way. -/
def takeNotify (n : Nat) (flags : W32) (seen : List FlagSource) (l : List FlagNotify) : Option (List FlagNotify) :=
  match l with
  | [] => none
  | p :: r =>
    if p.task = n ∧ p.mask = flags ∧ !seen.contains p.src then some r
    else (takeNotify n flags (p.src :: seen) r).map (p :: ·)

/-- FLAG_SET (R142, R143): a flag set that a source of R142 has sent arrives. -/
def execFlagSet (task : Nat) (flags : W32) (s : State) : Res := s.whenClocked fun s =>
  match takeNotify task flags [] s.notifies with
  | some l => .next ({ s with notifies := l }.flagSet task flags)
  | none => .next s

/-- The expiry of a bound task's slot is due too: its cancel wins over the deadline of that instant (R149, R153). -/
def State.taskExpires (s : State) (t : Task) : Bool :=
  let cfg := (s.carrier t.carrier).cfg
  t.bound && decide (cfg.boundaryNs s.slt.originNs t.boundHalf (t.slotNum + 2 + cfg.expiry) * uPerNs ≤ s.tb.timeU)
    && ((s.carrier t.carrier).half t.boundHalf).live.any (fun l => l.slot == t.slotNum)

/-- TASK_DEADLINE (R149): a WAITING task whose deadline has passed becomes READY with TIMEOUT = 1. -/
def State.taskDeadline (s : State) (n : Nat) : State :=
  let t := s.task n
  if t.mode == .waiting && decide (t.deadlineU ≤ s.tb.timeU) && !s.taskExpires t then
    let s := { s with gth.readyCount := s.gth.readyCount + 1 }.setTask n
      { t with mode := .ready, timeout := true, readyOrder := s.gth.readyCount, readyPending := t.pending }
    (s.bump Reg.GTH_TIMEOUTS).raise Reg.GTH_EVENT 0
  else s

/-- (DESIGN CHOICE, log entry 4) -/
def execTaskDeadline (task : Nat) (s : State) : Res := s.whenClocked fun s => .next (s.taskDeadline task)

/-! ## Signatures -/

/-- Pool entries in use (R154). -/
def Signature.heldCount (g : Signature) : Nat := (g.entries.filter (·.pooled)).length
def State.heldUsed (s : State) : Nat := (s.gth.sigs.map (fun (p : Nat × Signature) => p.2.heldCount)).sum
def poolSize : Nat := 32768

/-- NEXT's entry of the signature has ended. -/
def Signature.nextEnded (g : Signature) : Bool := g.entries.any (·.seq == g.next)

/-- A sequence number ends (R152, R154); a signature whose NEXT has ended takes its place in the publishing order. -/
def State.endSeq (s : State) (sig : Nat) (e : SigEntry) : State :=
  let g := s.sig sig
  let s := s.setSig sig { g with entries := g.entries ++ [e] }
  if e.seq = g.next then { s with gth.publish := s.gth.publish ++ [sig] } else s

/-- A sequence number is voided (R150, R152). -/
def State.voidSeq (s : State) (t : Task) : State :=
  if t.sigEn then (s.endSeq t.sig { seq := t.seq, void := true }).raise Reg.GTH_EVENT 1 else s

/-- The leaf's open item on the signature's output queue becomes its held item (R154); true where there is one. -/
def State.holdItem (s : State) (g : Signature) (leaf sig seq : Nat) : State × Bool :=
  let q := s.queue g.outQid
  match q.openOf (.leaf leaf) with
  | some o =>
    if g.outqEn && o.phase == .writing then
      (s.setQueue g.outQid { q with opens := q.opens.map (fun (x : OpenItem) =>
        if x.openFor (.leaf leaf) then { x with prod := .signature sig seq, phase := .held } else x) }, true)
    else (s, false)
  | none => (s, false)

/-- The Gatherer can accept the release now: no signature, sequence NEXT, or room in the pool (R151, R154). -/
def State.canAccept (s : State) (t : Task) : Bool :=
  !t.sigEn || t.seq == (s.sig t.sig).next || decide (s.heldUsed < poolSize)

/-- The Gatherer accepts a RELEASE of a RUNNING task (R150, R154): the item, if handed over, is held; the number ends. -/
def State.acceptRelease (s : State) (n leaf : Nat) (handover : Bool) : State :=
  let t := s.task n
  let s := s.setTask n { t with mode := .idle }
  if t.sigEn then
    let g := s.sig t.sig
    let x := if handover then s.holdItem g leaf t.sig t.seq else (s, false)
    x.1.endSeq t.sig { seq := t.seq, void := false, held := x.2, pooled := t.seq != g.next }
  else s

/-- Ends a leaf's release with a status in G(RD): the leaf holds no task any more and goes on (R201, R202). -/
def State.endRelease (s : State) (leaf rd st : Nat) : State :=
  let l := s.leaf leaf
  let s := (s.setLeaf leaf { l with task := none }).blockedFor leaf false
  (s.setLeaf leaf (((s.leaf leaf).awaitWrites [rd % 32]).resGpr (rd % 32) (BitVec.ofNat 32 st) 1)).finishBlocked leaf

/-- A leaf's FETCH reaches the Gatherer (R144). -/
def State.addFetch (s : State) (leaf cls : Nat) : State := { s with gth.fetches := s.gth.fetches ++ [⟨cls, leaf⟩] }

/-- A release that a leaf waits in ends with a status (R201): a release operation lands it in G(RD); the release inside a
fetch discards it and sends the FETCH. -/
def State.releaseDone (s : State) (leaf st : Nat) : State :=
  match (s.leaf leaf).wait with
  | .release rd _ => s.endRelease leaf rd st
  | .releaseThenFetch cls => (s.setLeaf leaf { s.leaf leaf with task := none, wait := .fetch cls }).addFetch leaf cls
  | _ => s

/-- Rewinds the leaf's open item on the signature's output queue, as it asks (R116, R201). -/
def State.rewindOut (s : State) (t : Task) (leaf : Nat) : State :=
  if t.sigEn && (s.sig t.sig).outqEn then s.rewindItem (s.sig t.sig).outQid (.leaf leaf) true else s

/-- The release of a CANCELLED_RUNNING task returns ABORTED and publishes nothing (R150, R201). -/
def State.abortedRelease (s : State) (n leaf : Nat) (handover : Bool) : State :=
  let t := s.task n
  let s := if handover then s.rewindOut t leaf else s
  (s.setTask n { t with mode := .idle }).releaseDone leaf stABORTED

/-- The hand-over of the release that a leaf is blocked in; none where it is blocked in none. -/
def Leaf.releasing (l : Leaf) : Option Bool :=
  match l.wait with
  | .release _ h => some h
  | .releaseThenFetch _ => some false
  | _ => none

/-- A leaf that holds task `n` releases it; its bundle is staged and its wait set (R150, R154, R201). -/
def State.tryRelease (s : State) (leaf n : Nat) (handover : Bool) : State :=
  let t := s.task n
  if t.mode == .running then
    if s.canAccept t then (s.acceptRelease n leaf handover).releaseDone leaf stOK
    else { s with gth.waitingReleases := s.gth.waitingReleases ++ [(⟨leaf, n, handover⟩ : ReleaseWait)] }.raise Reg.GTH_EVENT 2
  else s.abortedRelease n leaf handover

/-- RELEASE_ACCEPT (R154): the waiting releases that can be accepted take their entries, oldest first. -/
def State.acceptWaiting (s : State) (done l : List ReleaseWait) : State :=
  match l with
  | [] => { s with gth.waitingReleases := done }
  | w :: r =>
    let t := s.task w.task
    if t.mode == .running && s.canAccept t then
      ((s.acceptRelease w.task w.leaf w.handover).releaseDone w.leaf stOK).acceptWaiting done r
    else s.acceptWaiting (done ++ [w]) r

def State.releaseAccept (s : State) : State := s.acceptWaiting [] s.gth.waitingReleases

/-- SIGNATURE_PUBLISH (R152, R154): the signature at the head of the order publishes its NEXT entry. -/
def State.signaturePublish (s : State) : State :=
  match s.gth.publish with
  | [] => s
  | sg :: rest =>
    let g := s.sig sg
    match g.entries.find? (·.seq == g.next) with
    | none => { s with gth.publish := rest }
    | some e =>
      let g' := { g with entries := g.entries.filter (·.seq != g.next), next := (g.next + 1) % 2 ^ 32 }
      let s := { s with gth.publish := if g'.nextEnded then rest ++ [sg] else rest }.setSig sg g'
      let s :=
        if e.void then s.bump Reg.GTH_VOIDS
        else
          let p := Producer.signature sg e.seq
          let x : State × Nat :=
            if e.held then
              let c := s.commitNow g.outQid p
              (c.1.retryWrites, c.2)
            else (s, stOK)
          if x.2 = stOK then (if g.outEn then x.1.notify .signature g.outTask g.outFlag else x.1)
          else (x.1.bump Reg.GTH_PUB_FAILS).raise Reg.GTH_EVENT 3
      s.releaseAccept

def execSignaturePublish (s : State) : Res := s.whenClocked fun s => .next s.signaturePublish

/-! ## Waiting pairs -/

/-- The READY task of a class that comes first (R144): rank, then order of readiness, then number.
(DESIGN CHOICE, log entry 24; DEDUCED, log entry 46) -/
def State.firstReady (s : State) (cls : Nat) : Option Nat :=
  s.gth.tasks.foldl (fun best (p : Nat × Task) =>
    if p.2.mode == .ready && p.2.cls == cls then
      match best with
      | none => some p.1
      | some b =>
        let t := s.task b
        if t.rank < p.2.rank || (t.rank == p.2.rank && p.2.readyOrder < t.readyOrder) then some p.1 else some b
    else best) none

/-- The waiting FETCHes that may be served: a quire on its way into Doze takes no task, so that none is cancelled when its clamps are
set (R406). (DEDUCED, log entry 78) -/
def State.servedFetches (s : State) : List FetchWait :=
  s.gth.fetches.filter (fun f => let c := s.cluster (f.leaf / 8); !(c.mode == .entering && c.toDoze))

/-- The class the dispatcher serves next: round-robin over those with a waiting FETCH and a ready task (R145).
(DEDUCED, log entry 46) -/
def State.dispatchClass (s : State) : Option Nat :=
  ((List.range 64).map (fun i => (s.gth.lastClass + 1 + i) % 64)).find? (fun c =>
    s.servedFetches.any (·.cls == c) && (s.firstReady c).isSome)

/-- Credits that no waiting pair of FETCH and READY task can use: at most 8 stay (R145). -/
def State.capCredits (s : State) : State :=
  if s.dispatchClass.isNone then { s with gth.credits := min 8 s.gth.credits } else s

/-- A leaf withdraws its waiting FETCH (R148). -/
def State.withdrawFetch (s : State) (leaf : Nat) : State :=
  { s with gth.fetches := s.gth.fetches.filter (·.leaf != leaf) }.capCredits

/-! ## Cancel -/

/-- Cancels a task (R150, R204): true where it was WAITING, READY or RUNNING. The leaf's notice waits for a REP to end (R198). -/
def State.cancelTask (s : State) (n : Nat) : State × Bool :=
  let t := s.task n
  match t.mode with
  | .waiting | .ready => (((s.setTask n { t with mode := .idle, pending := 0, latch := 0 }).voidSeq t).capCredits, true)
  | .running =>
    let s := (s.setTask n { t with mode := .cancelledRunning }).voidSeq t
    let l := s.leaf t.leaf
    let s := s.setLeaf t.leaf (if l.rep.isSome then { l with abortDue := true } else { l with abortNotice := true })
    match l.releasing with
    | some h =>
      let s := { s with gth.waitingReleases := s.gth.waitingReleases.filter (·.leaf != t.leaf) }
      (s.abortedRelease n t.leaf h, true)
    | none => (s, true)
  | _ => (s, false)

/-- TASK_CANCEL (R151, R157). -/
def State.taskCancel (s : State) (d : Desc) : State :=
  let x := s.cancelTask (d.fld 0x10 16 0)
  x.1.completeAt (d.ref false) stOK 0 (!x.2) x.1.stampNow

def execTaskCancel (d : Desc) (s : State) : Res := s.whenClocked fun s => .next (s.taskCancel d)

/-- The tasks a slot abort cancels: bound to the carrier and half and tagged with the slot (R77, R150). -/
def State.slotTasks (s : State) (c : Nat) (h : Half) (slot : Int) : List Nat :=
  (s.gth.tasks.filter (fun (p : Nat × Task) =>
    p.2.carrier == c && p.2.boundHalf == h && p.2.slotNum == slot &&
      (p.2.mode == .waiting || p.2.mode == .ready || p.2.mode == .running))).map Prod.fst

/-! ## Descriptors -/

/-- TASK_DEFINE (R155, R139). -/
def State.taskDefine (s : State) (d : Desc) : State :=
  let n := d.fld 0x10 16 0
  let c0 := d.fld 0x1C 15 0
  let carrier := carrierField c0
  let h0 := d.fld 0x1C 17 16
  let half := if carrier = 0xFFFF then 0 else if h0 = 0 ∨ h0 = 3 then 1 else h0
  let dl0 := d.fld 0x24 19 0
  let clamped := carrierClamped c0 || (carrier != 0xFFFF && (h0 == 0 || h0 == 3)) || decide (1000000 < dl0)
  let s := s.clampDesc d clamped Reg.GTH_CLAMP_COUNT
  let t := s.task n
  if t.mode == .undef || t.mode == .idle then
    (s.setTask n { mode := .idle, waitMask := d.w 0x14, armMask := d.w 0x18, any := (d.w 0x1C).getLsbD 31,
                   latchEn := (d.w 0x1C).getLsbD 30, rank := d.fld 0x1C 29 27, cls := d.fld 0x1C 26 21, carrier := carrier, half := half,
                   sigEn := (d.w 0x20).getLsbD 31, sig := d.fld 0x20 13 0, dlUs := min dl0 1000000,
                   arg0 := d.w 0x28, arg1 := d.w 0x2C, arg2 := d.w 0x30 }).complete (d.ref clamped) stOK 0
  else s.complete (d.ref clamped) stREFUSED 0

def execTaskDefine (d : Desc) (s : State) : Res := s.whenClocked fun s => .next (s.taskDefine d)

/-- The slot number nearest to `near` with a given slot index. -/
def nearestSlot (period index : Nat) (near : Int) : Int :=
  let d := (index : Int) - near
  let r := d % (period : Nat)
  if (period : Int) / 2 ≤ r then near + r - period else near + r

/-- The time, in 2^-16 ns, nearest to `near` that a short stamp stands for (R31). -/
def expandStamp (near : Int) (w : W64) : Int :=
  let n := w.toNat
  (nearestSlot 65536 (n / 2 ^ 48) (secOf near) * 1000000000 + (n / 2 ^ 16 % 2 ^ 32 : Nat)) * 65536 + (n % 2 ^ 16 : Nat)

/-- The slot of a TASK_ARM has expired (R141): the stop slot, which its half does not process but which stays its current slot, at the
boundary at which it would expire. (DEDUCED, log entry 30) -/
def State.armExpired (s : State) (c : Nat) (h : Half) (n : Int) : Bool :=
  let x := s.carrier c
  let y := x.half h
  if !y.running && y.curSlot == some n && !y.live.any (fun l => l.slot == n) then
    decide (x.cfg.boundaryNs s.slt.originNs h (n + 2 + x.cfg.expiry) * uPerNs ≤ s.tb.timeU)
  else y.expired n

/-- The slot a TASK_ARM of a bound task names: none where it is refused (R141). A SLOT index at or beyond the slots per frame names
the slot with that number counted on from the frame's first, and is no clamp. (DESIGN CHOICE, log entry 117) -/
def State.armSlot (s : State) (d : Desc) (t : Task) : Option Int :=
  let c := s.carrier t.carrier
  let h := t.boundHalf
  let cfg := c.cfg
  let cur := s.currentSlot t.carrier h
  if d.immediate then cur.filter (fun k => !s.armExpired t.carrier h k)
  else
    let near := cur.getD (cfg.slotAt s.slt.originNs h s.tb.timeU)
    let n := nearestSlot (slotPeriod cfg.spf) (stampIndex cfg.spf d.slot) near
    match c.mode, cur with
    | .stopped, _ => none
    | _, some _ => if s.armExpired t.carrier h n then none else some n
    | _, none =>
      match (c.half h).armed with
      | some a => if a.start && decide (a.slot ≤ n) then some n else none
      | none => some n

/-- TASK_ARM (R156, R141). -/
def State.taskArm (s : State) (d : Desc) : State :=
  let n := d.fld 0x10 16 0
  let t := s.task n
  let done := fun (s : State) => s.complete (d.ref false) stOK (if t.sigEn then (s.task n).seq % 65536 else 0)
  if t.mode != .undef && t.bound && (s.carrier t.carrier).refusesWork then s.complete (d.ref false) stDISABLED 0
  else if t.mode != .idle then s.complete (d.ref false) stREFUSED 0
  else if !t.bound then done (s.armTask n (d.w 0x14) s.refStamp 0)
  else match s.armSlot d t with
  | none => s.complete (d.ref false) stREFUSED 0
  | some k => done (s.armTask n (d.w 0x14) (stampOf (s.carrier t.carrier).cfg.spf k) k)

def execTaskArm (d : Desc) (s : State) : Res := s.whenClocked fun s => .next (s.taskArm d)

/-- EVENT_SET (R157). -/
def execEventSet (d : Desc) (s : State) : Res := s.whenClocked fun s =>
  .next ((s.flagSet (d.fld 0x10 16 0) (d.w 0x14)).complete (d.ref false) stOK 0)

/-- SIG_DEFINE (R157): refused while sequence numbers are open. -/
def State.sigDefine (s : State) (d : Desc) : State :=
  let g := d.fld 0x10 13 0
  let old := s.sig g
  if old.alloc != old.next then s.complete (d.ref false) stREFUSED 0
  else
    (s.setSig g { outqEn := (d.w 0x14).getLsbD 31, outQid := d.fld 0x14 15 0, outEn := (d.w 0x18).getLsbD 31,
                  outFlag := d.fld 0x18 21 17, outTask := d.fld 0x18 16 0, next := (d.w 0x1C).toNat,
                  alloc := (d.w 0x1C).toNat }).complete (d.ref false) stOK 0

def execSigDefine (d : Desc) (s : State) : Res := s.whenClocked fun s => .next (s.sigDefine d)

/-! ## Dispatch -/

/-- DISPATCH_CREDIT (R145): 64 more. -/
def execDispatchCredit (s : State) : Res := s.whenClocked fun s => .next { s with gth.credits := s.gth.credits + 64 }.capCredits

/-- The leaf whose FETCH of a class came first (R144). -/
def State.firstFetch (s : State) (cls : Nat) : Option Nat := (s.servedFetches.find? (·.cls == cls)).map (·.leaf)

/-- The dispatch record (R147). -/
def dispatchRecord (n : Nat) (t : Task) : List W32 :=
  [BitVec.ofNat 32 (b2n t.timeout * 2 ^ 31 + b2n t.sigEn * 2 ^ 30 + (if t.bound then t.half else 0) % 4 * 2 ^ 28 + n % 2 ^ 17),
   t.readyPending, t.slot, BitVec.ofNat 32 (t.cls % 64 * 2 ^ 16 + t.carrier % 65536), BitVec.ofNat 32 t.seq, t.arg0, t.arg1, t.arg2]

/-- Puts the record into G24 to G31 (R201). -/
def Leaf.putRecord (l : Leaf) (i : Nat) (r : List W32) : Leaf :=
  match r with
  | [] => l
  | w :: t => (l.resGpr (24 + i) w 1).putRecord (i + 1) t

/-- A leaf's fetch completes with a task (R179, R201). -/
def State.deliverTask (s : State) (leaf n : Nat) : State :=
  let s := s.blockedFor leaf false
  let l := (s.leaf leaf).awaitWrites ((List.range 8).map (24 + ·))
  let l := { (l.putRecord 0 (dispatchRecord n (s.task n))).freshStat with task := some n, abortNotice := false, abortDue := false }
  (s.setLeaf leaf l).finishBlocked leaf

/-- The task a class dispatches becomes RUNNING at the leaf; credits and counters (R139, R145, R158). (DEDUCED, log entry 46) -/
def State.takeTask (s : State) (cls leaf n : Nat) : State :=
  let s := s.setTask n { s.task n with mode := .running, leaf := leaf }
  let s := { s with gth.credits := s.gth.credits - 1, gth.lastClass := cls,
                    gth.fetches := s.gth.fetches.filter (·.leaf != leaf) }
  (s.bump64 Reg.GTH_DISPATCH_LO 1).bump (Reg.GTH_CLASS_DISP cls)

/-- DISPATCH (R144, R145, R147); it wakes a napping quire (R407). -/
def State.dispatch (s : State) : State :=
  if s.gth.credits = 0 then s
  else match s.dispatchClass with
  | none => s.capCredits
  | some c =>
    match s.firstFetch c, s.firstReady c with
    | some f, some n => (((s.wakeCluster (f / 8)).takeTask c f n).deliverTask f n).capCredits
    | _, _ => s

def execDispatch (s : State) : Res := s.whenClocked fun s => .next s.dispatch

end Sys2Proof.Machine
end

