-- ==== Sys2Proof/Machine/HostPort.lean ====
section
/-! DEFINITION. The Host Port (Host port, rings and doorbells): doorbells, fetching, batches, interrupt moderation, MSI-X,
the ring context window. Ring disable, function-level reset and link loss, which reach into every engine, are in
Machine/HostReset.lean; delivery is in Machine/Delivery.lean. -/

namespace Sys2Proof.Machine

/-! ## Doorbells -/

/-- The new HOST_IDX a doorbell sets, and whether INDEX was clamped (R95). (DEDUCED, log entry 41) -/
def Ring.doorbellIndex (r : Ring) (index : Nat) : Nat × Bool :=
  let i := index % r.size
  let c := i != index
  if r.completion && decide ((r.devIdx + r.size - r.hostIdx % r.size) % r.size < (i + r.size - r.hostIdx % r.size) % r.size) then
    (r.devIdx, true)
  else (i, c)

/-- Size of a function's BAR, and whether it is prefetchable (R12, R14, R84). BAR2 holds one 8-byte doorbell for each QID. -/
def barOf (fn bar : Nat) : Option (Nat × Bool) :=
  if bar = 2 then some (65536 * 8, false)
  else if bar = 0 then some (if fn = 0 then 0x4000000 else 0x4000, false)
  else if bar = 4 ∧ fn = 0 then some (2 ^ 32, true)
  else none

/-- The offset lies in the function's BAR. -/
def inBar (fn bar offset : Nat) : Bool := match barOf fn bar with | some b => decide (offset < b.1) | none => false

/-- A write at `offset` of `fn`'s BAR2 (R95, R96): discarded and counted unless it is a 32-bit write to the low word, or a
64-bit write, of the doorbell of an enabled host ring the function owns. (DEDUCED, log entry 41) -/
def State.doorbell (s : State) (fn offset width : Nat) (value : W64) : State :=
  let qid := offset / 8
  let r := s.ring qid
  if (s.fnOf fn).flr || s.glb.frozen || !s.fnExists fn || !inBar fn 2 offset then s
  else if (width != 4 && width != 8) || offset % 8 != 0 || (s.queue qid).kind != 1 || !r.enable || r.owner != fn then
    s.clampAt Reg.HP_CLAMP_COUNT
  else
    let x := r.doorbellIndex (bitsOf value 15 0)
    (s.setRing qid { r with hostIdx := x.1 }).clampIf x.2 Reg.HP_CLAMP_COUNT

def execDoorbell (fn offset width : Nat) (value : W64) (s : State) : Res := s.whenClocked fun s =>
  .next (s.doorbell fn offset width value)

/-! ## Fetching -/

/-- Limits of the fetch scheduler (R98). -/
def maxBatches : Nat := 128
def maxUndelivered : Nat := 8192

/-- Descriptors of a submission ring that are not yet under fetch. -/
def Ring.toFetch (r : Ring) : Nat := (r.hostIdx + r.size - r.fetchIdx % r.size) % r.size

/-- The length of a ring's next batch (R98): the pending count, BATCH, the ring's end and the CQ's credit. -/
def State.batchLength (s : State) (r : Ring) : Nat :=
  min (min r.toFetch r.batch) (min (r.size - r.fetchIdx) (s.ring r.cq).credit)

/-- The ring can be served now: enabled submission ring, descriptors and credit there, function not held (R98, R104, R110). -/
def State.fetchable (s : State) (r : Ring) : Bool :=
  r.enable && !r.completion && (s.fnOf r.owner).busMaster && !(s.fnOf r.owner).flr && decide (0 < s.batchLength r)

def State.undelivered (s : State) : Nat := s.hp.fetched.length + (s.hp.inFlight.map (·.count)).sum

/-- The ring after the one served last, in order of QID, round-robin (R98); the first round after reset starts at QID 0.
(DESIGN CHOICE, log entry 110) -/
def nextInRound (last : Nat) (l : List Nat) : Option Nat :=
  match l.find? (fun q => decide (last < q)) with
  | some q => some q
  | none => l.head?

/-- FETCH_BATCH (R98, R99): the read of one batch is issued. -/
def State.fetchBatch (s : State) : State :=
  let ready := (s.hp.rings.filter (fun p => s.fetchable p.2)).map Prod.fst
  match nextInRound s.hp.rrLast ready with
  | none => s
  | some q =>
    let r := s.ring q
    let n := s.batchLength r
    if maxBatches ≤ s.hp.inFlight.length ∨ maxUndelivered < s.undelivered + n then s
    else
      let c := s.ring r.cq
      let s := s.setRing q { r with fetchIdx := (r.fetchIdx + n) % r.size, openCount := r.openCount + n }
      let s := s.setRing r.cq { c with openCount := c.openCount + n }
      { s with hp.inFlight := s.hp.inFlight ++ [(⟨q, r.fetchIdx, n⟩ : Batch)], hp.rrLast := q }.emit
        (.hostRead r.owner (r.base + BitVec.ofNat 64 (r.fetchIdx * 64)) (n * 64))

/-- (DESIGN CHOICE, log entry 4) -/
def execFetchBatch (s : State) : Res := s.whenClocked fun s => .next s.fetchBatch

/-- A descriptor from its sixteen words (R88). -/
def parseDesc (ring : Nat) (l : List W32) : Desc :=
  let w := fun i => l.getD i 0
  { ring := ring, type := bitsOf (w 0) 15 0, tag := w 1, flags := bitsOf (w 0) 31 16, immediate := bitOf (w 2) 16,
    carrier := bitsOf (w 2) 15 0, slot := w 3, body := (List.range 12).map (fun i => w (i + 4)) }

/-- Takes the oldest batch in flight of a ring. -/
def takeBatch (ring : Nat) (l : List Batch) : Option (Batch × List Batch) :=
  match l with
  | [] => none
  | b :: r => if b.ring == ring then some (b, r) else (takeBatch ring r).map (fun p => (p.1, b :: p.2))

/-- Writes a submission ring's DEV_IDX back (R87). (DEDUCED, log entry 35) -/
def State.writeBack (s : State) (q : Nat) : State :=
  let r := s.ring q
  s.hostWrite ⟨r.openOwner, 1, q, 0xFFFFFFFF#32, r.wb, bytesOfNat 8 r.devIdx, 0⟩

/-- BATCH_LANDS (R87, R101, R108): DEV_IDX passes the batch and is written back; the descriptors wait for delivery. A
failed fetch gives one BAD completion for each slot, a ring disabled meanwhile one DISABLED completion for each
descriptor. -/
def State.batchLands (s : State) (q : Nat) (ok : Bool) (descs : List (List W32)) : State :=
  match takeBatch q s.hp.inFlight with
  | none => s
  | some (b, rest) =>
    let r := s.ring q
    let s := { s with hp.inFlight := rest }.setRing q { r with devIdx := (b.slot + b.count) % r.size }
    let s := s.writeBack q
    if !ok then
      (List.range b.count).foldl (fun s i => s.complete { ring := q, tag := 0xFFFFFFFF#32 } stBAD ((b.slot + i) % r.size)) s
    else
      let ds := (List.range b.count).map (fun i => parseDesc q (descs.getD i []))
      if !r.enable then s.completeAll (ds.map (·.ref false)) stDISABLED
      else { s with hp.fetched := s.hp.fetched ++ ds.mapIdx (fun i d => (⟨s.hp.nextSeq + i, d⟩ : Fetched)), hp.nextSeq := s.hp.nextSeq + b.count }

/-- (DESIGN CHOICE, log entries 4, 8) -/
def execBatchLands (ring : Nat) (ok : Bool) (descs : List (List W32)) (s : State) : Res := s.whenClocked fun s => .next (s.batchLands ring ok descs)

/-! ## Moderation and MSI-X -/

/-- MODERATION_TIMER (R103): MOD_TIME_US has passed since the oldest unsignalled entry. -/
def State.moderationTimer (s : State) (q : Nat) : State :=
  let r := s.ring q
  if r.completion && r.irqEn && r.modTime != 0 && r.unsignalled != 0 then s.signalRing q else s

/-- (DESIGN CHOICE, log entry 5) -/
def execModerationTimer (ring : Nat) (s : State) : Res := s.whenClocked fun s => .next (s.moderationTimer ring)

/-- Sends a vector's pending message once nothing masks it (R104). (PRESUMED, log entry 39) -/
def State.sendPending (s : State) (v : Nat) : State :=
  if s.hp.pba.contains v && (s.fnOf (v / 32)).msixEnable && !(s.msixOf v).masked && !s.glb.frozen then
    { s with hp.pba := s.hp.pba.filter (· != v) }.deliverVector 0 v
  else s

/-- The entry's mask bit is cleared, or the function's MSI-X Enable is set and each of its unmasked entries is released (R104). -/
def State.msixUnmask (s : State) (v : Nat) (byFunction : Bool) : State :=
  let f := v / 32
  if byFunction then
    let s := s.setFn f { s.fnOf f with msixEnable := true }
    (List.range 32).foldl (fun s i => s.sendPending (f * 32 + i)) s
  else (s.setMsix v { s.msixOf v with masked := false }).sendPending v

/-- Configuration requests of a function are answered: it exists, it is not in reset, and the link is there; while the module is
frozen the Colophon answers them (R83, R110, R112). -/
def State.cfgAnswers (s : State) (fn : Nat) : Bool :=
  s.fnExists fn && decide (fn < 64) && !(s.fnOf fn).flr && !s.pwr.asleep && !s.rst.warmHeld && s.rst.power == .on

/-- BAR accesses of a virtual function reach it (R83, R110, R112). -/
def State.vfAnswers (s : State) (fn : Nat) : Bool := s.cfgAnswers fn && !s.glb.frozen

/-- MSIX_UNMASK (R104): the entry's mask bit is cleared, or the function's MSI-X Enable is set and each of its unmasked
entries is released. While the function is in reset its BAR accesses are discarded, and its configuration requests are
answered with a request to retry (R110). -/
def execMsixUnmask (vector : Nat) (byFunction : Bool) (s : State) : Res :=
  .next (if byFunction then (if s.cfgAnswers (vector / 32) then s.msixUnmask vector true else s)
    else if 32 ≤ vector then (if s.vfAnswers (vector / 32) then s.msixUnmask vector false else s)
    else s.hostWriteTo (0x00180000 + 16 * vector + 12) (·.msixUnmask vector false))

/-- Lets a host write that waited go on: a message through the vector's stamp, everything else as it stands.
(DEDUCED, log entry 40) -/
def State.releaseWrite (s : State) (w : HostWrite) : State := if w.kind = 3 then s.sendMsix w.vector else s.emit (.hostWrite w)

/-- BUS_MASTER_ENABLE (R104): the function's waiting host writes proceed, in order. (DEDUCED, log entry 40) -/
def State.busMasterEnable (s : State) (f : Nat) : State :=
  let fn := s.fnOf f
  fn.waiting.foldl State.releaseWrite (s.setFn f { fn with busMaster := true, waiting := [] })

/-- HP_EVENT.LINK_DOWN is delivered once the link is up and the vector is usable: its function exists and is not in reset
(R112). (DEDUCED, log entry 37) -/
def State.deliverLinkDown (s : State) : State :=
  let v := s.fld Reg.HP_EVENT_VEC 10 0
  if s.hp.linkDownHeld && s.hp.dlUp && s.fnExists (v / 32) && !(s.fnOf (v / 32)).flr then
    { s with hp.linkDownHeld := false }.assertVector v
  else s

/-- VF_ENABLE (R83): NumVFs above 63 is taken as 63. The rings, MSI-X tables and Bus Master Enable of a function that ceases
to exist stay as they are. In reset of the PF the configuration write is answered with a request to retry (R110).
(DEDUCED, log entry 99) -/
def execVfEnable (enable : Bool) (numVfs : Nat) (s : State) : Res := s.whenClocked fun s =>
  .next (if (s.fnOf 0).flr then s else { s with hp.vfEnable := enable, hp.numVfs := min numVfs 63 }.deliverLinkDown)

/-! ## The ring context window -/

def Ring.w0 (r : Ring) : Nat :=
  b2n r.enable * 2 ^ 31 + b2n r.completion * 2 ^ 30 + r.owner * 2 ^ 24 + r.log2Size * 2 ^ 19 + r.batch * 2 ^ 12 + r.vec * 2 ^ 7
    + b2n r.irqEn * 2 ^ 6

/-- HP_RCTX_STATE of a ring (R113). -/
def Ring.w8 (r : Ring) : Nat := b2n r.draining * 2 ^ 31 + b2n r.phase * 2 ^ 30 + r.openCount % 65536

/-- Loads W0 to W9 of the window from the selected context (R113). (DEDUCED, log entry 38) -/
def State.loadRctx (s : State) : State :=
  let r := s.ring (s.fld Reg.HP_RCTX_SEL 15 0)
  let put := fun (s : State) (a v : Nat) => s.wr a (BitVec.ofNat 32 v)
  put (put (put (put (put (put (put (put (put (put s Reg.HP_RCTX_CFG0 r.w0) Reg.HP_RCTX_BASE_LO r.base.toNat)
    Reg.HP_RCTX_BASE_HI (r.base.toNat / 2 ^ 32)) Reg.HP_RCTX_WB_LO r.wb.toNat) Reg.HP_RCTX_WB_HI (r.wb.toNat / 2 ^ 32))
    Reg.HP_RCTX_CFG1 (r.cq * 2 ^ 16 + r.modCount * 2 ^ 8)) Reg.HP_RCTX_CFG2 r.modTime)
    Reg.HP_RCTX_IDX (r.hostIdx % 65536 * 2 ^ 16 + r.devIdx % 65536)) Reg.HP_RCTX_STATE r.w8) Reg.HP_RCTX_CLAMP r.clampCount

/-- Writes to the window while BUSY are discarded and counted (R106). -/
def State.rctxGate (s : State) (f : State → State) : State :=
  if s.hp.busy then s.clampAt Reg.HP_CLAMP_COUNT else f s

def State.rctxSelect (s : State) (v : W32) : State :=
  s.rctxGate fun s => (s.wr Reg.HP_RCTX_SEL (BitVec.ofNat 32 (bitsOf v 15 0))).loadRctx

def execRctxSelect (value : W32) (s : State) : Res := .next (s.hostWriteTo Reg.HP_RCTX_SEL (·.rctxSelect value))

/-- RING_COMMIT_DONE (R106): BUSY clears and the window reloads from the stored context. (DESIGN CHOICE, log entry 4) -/
def execRingCommitDone (s : State) : Res := s.whenClocked fun s =>
  if s.hp.busy then .next { s with hp.busy := false }.loadRctx else .next s

/-- The staged words as a context over the stored one. -/
def State.stagedRing (s : State) (old : Ring) : Ring :=
  let f := fun a hi lo => s.fld a hi lo
  { old with
      enable := f Reg.HP_RCTX_CFG0 31 31 = 1, completion := f Reg.HP_RCTX_CFG0 30 30 = 1, owner := f Reg.HP_RCTX_CFG0 29 24,
      log2Size := f Reg.HP_RCTX_CFG0 23 19, batch := f Reg.HP_RCTX_CFG0 18 12, vec := f Reg.HP_RCTX_CFG0 11 7,
      irqEn := f Reg.HP_RCTX_CFG0 6 6 = 1,
      base := BitVec.ofNat 64 ((s.rd Reg.HP_RCTX_BASE_LO).toNat + (s.rd Reg.HP_RCTX_BASE_HI).toNat * 2 ^ 32),
      wb := BitVec.ofNat 64 ((s.rd Reg.HP_RCTX_WB_LO).toNat + (s.rd Reg.HP_RCTX_WB_HI).toNat * 2 ^ 32),
      cq := f Reg.HP_RCTX_CFG1 31 16, modCount := f Reg.HP_RCTX_CFG1 15 8, modTime := f Reg.HP_RCTX_CFG2 9 0 }

/-- What a commit may change while the ring is enabled (R106). -/
def Ring.withSoft (old new : Ring) : Ring :=
  { old with batch := new.batch, vec := new.vec, irqEn := new.irqEn, modCount := new.modCount, modTime := new.modTime }

def Ring.hardDiffers (old new : Ring) : Bool :=
  old.completion != new.completion || old.owner != new.owner || old.log2Size != new.log2Size || old.base != new.base ||
    old.wb != new.wb || old.cq != new.cq

/-- R107: a submission ring's CQ is an enabled completion ring of the same owner. -/
def State.ringEnableOk (s : State) (r : Ring) : Bool :=
  r.completion || ((s.ring r.cq).enable && (s.ring r.cq).completion && (s.ring r.cq).owner == r.owner && (s.queue r.cq).kind == 1)

/-- R109: the completion ring is still the CQ of an enabled submission ring, or entries are still reserved in it. -/
def State.cqInUse (s : State) (q : Nat) : Bool :=
  (s.ring q).openCount != 0 || s.hp.rings.any (fun p => p.2.enable && !p.2.completion && p.2.cq == q)

/-- HP_EVENT.SPEED_CHANGE (R113): the link changed rate or width. -/
def execLinkSpeedChange (speed width : Nat) (flit : Bool) (s : State) : Res :=
  let s1 := { s with hp.speed := speed % 16, hp.width := width % 32, hp.flit := flit }
  .next (if s.rst.power != .on || s.pwr.asleep then s else if s.clocked then s1.raise Reg.HP_EVENT 1 else s1)

end Sys2Proof.Machine
end

