-- ==== Sys2Proof/Machine/SpineMem.lean ====
section
/-! DEFINITION. Accesses over the Spine: the address map (R209), the quire windows (R165, R166), the Press buffer, and what each answers with a bus error. -/

namespace Sys2Proof.Machine

/-! ## Address maps -/

/-- Where the quire windows and the Press buffer lie (R209). -/
def quireBase : Nat := 0x010000000000
def pressBase : Nat := 0x020000000000
def pressSize : Nat := 0x04000000

/-- The memory a Spine address reaches (R166, R209). -/
inductive SpineTarget where
  | module
  | im (leaf : Nat)
  /-- another memory of a quire -/
  | quire (q : Nat)
  | press
  | host (addr : Nat)
  | unmapped
  deriving DecidableEq, Repr

/-- (DEDUCED, log entry 87) -/
def spineTarget (a : Nat) : SpineTarget :=
  if a < memSize then .module
  else if quireBase ≤ a ∧ a < quireBase + 0x18000000 then
    let q := (a - quireBase) / 0x01000000
    let o := a % 0x01000000
    if o < 0x00200000 then (if o % 0x40000 < 0x30000 then .quire q else .im (8 * q + o / 0x40000))
    else if o < 0x00400000 then .quire q else .unmapped
  else if pressBase ≤ a ∧ a < pressBase + pressSize then .press
  else if 2 ^ 63 ≤ a then .host (a - 2 ^ 63)
  else .unmapped

/-- Splits `n` bytes from address `a` into pieces that do not cross a 64-byte boundary; addresses wrap at 2^64. -/
def pieces (fuel a n : Nat) : List (Nat × Nat) :=
  match fuel with
  | 0 => []
  | f + 1 =>
    if n = 0 then [] else
      let k := min n (64 - a % 64)
      (a, k) :: pieces f ((a + k) % 2 ^ 64) (n - k)

def piecesOf (a n : Nat) : List (Nat × Nat) := pieces (n / 64 + 2) (a % 2 ^ 64) n

/-! ## Fills under way -/

/-- Writes one 64-byte word of module memory with a pattern, whole (R398). -/
def State.fillWord (s : State) (pattern : W64) (a : Nat) : State :=
  let p := devicePlace s.mm.mapActive a
  let one := bytesOfNat 8 pattern.toNat
  let s := s.setBytes p (one ++ one ++ one ++ one ++ one ++ one ++ one ++ one)
  { s with mm.marks := mapErase s.mm.marks (p / 64) }

/-- The fill writes every word of channel `c` up to offset `o` that it has not reached (R398). -/
def State.fillThrough (s : State) (f : Fill) (c o : Nat) : State × Fill :=
  let lo := mapGet (fun _ => 0) f.reached c
  let s := (List.range f.words).foldl (fun s i =>
    let a := f.addr + 64 * i
    let l := locate s.mm.mapActive a
    if l.1 = c ∧ lo ≤ l.2 ∧ l.2 ≤ o then s.fillWord f.pattern a else s) s
  (s, { f with reached := mapSet (fun _ => 0) f.reached c (max lo (o + 1)) })

/-- How far each fill has come when a word of its region is accessed is open (R398): a free draw says whether the fill has
reached the word. (DESIGN CHOICE, log entry 19; DEDUCED, log entry 74) -/
def State.meetFills (s : State) (a : Nat) (done l : List Fill) : State :=
  match l with
  | [] => { s with mm.fills := done }
  | f :: r =>
    let o := locate s.mm.mapActive a
    if f.addr ≤ a ∧ a < f.addr + 64 * f.words ∧ mapGet (fun _ => 0) f.reached o.1 ≤ o.2 / 64 * 64 then
      if s.freeBelow 2 = 1 then
        let x := s.drawn.fillThrough f o.1 (o.2 / 64 * 64)
        x.1.meetFills a (done ++ [x.2]) r
      else s.drawn.meetFills a (done ++ [f]) r
    else s.meetFills a (done ++ [f]) r

/-! ## Accesses -/

/-- A leaf is held in reset by QUI_LEAF_CTRL (R171). -/
def State.heldInReset (s : State) (n : Nat) : Bool := s.bit (Reg.QUI_LEAF_CTRL (n / 8)) (n % 8)

/-- The IM of a leaf accepts external accesses (R165). -/
def State.imOpen (s : State) (n : Nat) : Bool := s.heldInReset n || (s.leaf n).halted

/-- A refused IM access (R165). -/
def State.imReject (s : State) (n : Nat) : State := s.bump (Reg.QUI_EXT_REJECT (n / 8))

/-- The target answers with a bus error before any data moves, with what the error leaves (R165, R209, R393, R407). A host
access is made in the name of `fn`; it fails while that function is in reset (R221). -/
def State.refusal (s : State) (fn a : Nat) : Option State :=
  match spineTarget a with
  | .module => if s.glb.memReady then none else some s
  | .quire q => if (s.cluster q).isolated then some s else none
  | .im n => if (s.cluster (n / 8)).isolated then some s else if s.imOpen n then none else some (s.imReject n)
  | .press => none
  | .host _ => if (s.fnOf fn).flr then some s else none
  | .unmapped => some s

/-! ## Regions of a migration -/

/-- A write of this module into a listed region that the copy has passed waits to be mirrored (R356): the 32-byte units it
touches, counted from the region's start. -/
def State.noteMirror (s : State) (a n : Nat) : State :=
  let hits := s.stf.migrations.flatMap (fun m => (m.regions.filter (fun r => decide (r.src ≤ a ∧ a < r.src + r.copied))).map
    (fun r =>
      let o := (a - r.src) / 32 * 32
      (m.dst, r.src + o, r.dst + o, min r.len ((a + n - r.src + 31) / 32 * 32) - o)))
  if hits.isEmpty then s else { s with stf.mirror := s.stf.mirror ++ hits }

def MigTarget.holds (r : MigTarget) (a : Nat) : Bool := decide (r.start ≤ a ∧ a < r.start + r.len)

/-- The unit of 2^UNIT_LOG2 bytes, counted from the region's start, that holds an address. (DESIGN CHOICE, log entry 22) -/
def MigTarget.unit (r : MigTarget) (a : Nat) : Nat × Nat := (r.start, (a - r.start) / 2 ^ r.unitLog2)

/-- On the destination of a migration, a write of the module's own engines makes its units owned (R358). -/
def State.noteOwned (s : State) (a n : Nat) : State :=
  let ends := [a, a + n - 1]
  let units := s.stf.incoming.flatMap (fun r => (ends.filter r.holds).map r.unit)
  let fresh := (units.filter (fun u => !s.stf.owned.contains u)).eraseDups
  if fresh.isEmpty then s else { s with stf.owned := s.stf.owned ++ fresh }

/-- The unit of a migration's region that holds address `a` is owned (R358). -/
def State.unitOwned (s : State) (a : Nat) : Bool := s.stf.incoming.any (fun r => r.holds a && s.stf.owned.contains (r.unit a))

/-- A unit of a region is not owned yet: a Coding job that would combine with a soft buffer there waits (R358). -/
def State.mirrorHeld (s : State) (a : Nat) : Bool := s.stf.incoming.any (·.holds a) && !s.unitOwned a

/-- The 32-byte blocks that `n` bytes at `a` touch: the port of a leaf's memory serves one in a cycle (R162). -/
def blocksOf (a n : Nat) : Nat := (a + n - 1) / 32 + 1 - a / 32

/-- An external access to XM or YM of a running leaf waits for a cycle without a Y-slot access to that memory, at most 8 (R162). -/
def State.noteExternal (s : State) (a bytes : Nat) : State :=
  match spineTarget a with
  | .quire q =>
    let o := a % 0x01000000
    let n := 8 * q + o / 0x40000
    let l := s.leaf n
    if o < 0x00200000 && s.leafRuns n then
      s.setLeaf n (if o % 0x40000 < 0x20000 then { l with ext := { l.ext with count := l.ext.count + blocksOf a bytes } }
        else { l with extY := { l.extY with count := l.extY.count + blocksOf a bytes } })
    else s
  | _ => s

/-- An access to a napping quire's window wakes it (R407). -/
def State.wakeTarget (s : State) (a : Nat) : State := match spineTarget a with | .quire q => s.wakeCluster q | _ => s

/-- Reads one piece, at most 64 bytes within a 64-byte word; none is a bus error. `host` is what host memory holds there;
too few bytes are a failed host read (R221). (DEDUCED, log entry 87) -/
def State.readPiece (s : State) (requester fn a n : Nat) (host : List Byte) : State × Option (List Byte) :=
  match s.refusal fn a with
  | some s => (s, none)
  | none =>
    match spineTarget a with
    | .module =>
      let s := s.meetFills a [] s.mm.fills
      let x := s.checkWord requester a
      (x.1, if x.2 then some (x.1.bytes (devicePlace s.mm.mapActive a) n) else none)
    | .host h =>
      let s := s.emit (.hostRead fn (BitVec.ofNat 64 h) n)
      (s, if host.length < n then none else some (host.take n))
    | _ => ((s.wakeTarget a).noteExternal a n, some (s.bytes a n))

/-- Writes one piece; false is a bus error. A write of less than a whole word of module memory first reads the word, and
is discarded where that read is uncorrectable (R392). (DEDUCED, log entry 87) -/
def State.writePiece (s : State) (requester : Nat) (w : OnBehalf) (a : Nat) (data : List Byte) : State × Bool :=
  match s.refusal w.fn a with
  | some s => (s, false)
  | none =>
    match spineTarget a with
    | .module =>
      let s := ((s.meetFills a [] s.mm.fills).noteMirror a data.length).noteOwned a data.length
      let p := devicePlace s.mm.mapActive a
      if data.length = 64 then ((s.setMarks p 0).setBytes p data, true)
      else
        let x := s.checkWord requester a
        (if x.2 then x.1.setBytes p data else x.1, x.2)
    | .host h => (s.hostWrite ⟨w.fn, 0, w.qid, w.tag, BitVec.ofNat 64 h, data, 0⟩, true)
    | _ => (((s.wakeTarget a).noteExternal a data.length).setBytes a data, true)

/-- Reads the pieces of an access, in order: the bytes, or the address of the first that failed. -/
def State.readPieces (s : State) (requester fn : Nat) (host acc : List Byte) (l : List (Nat × Nat)) :
    State × Except Nat (List Byte) :=
  match l with
  | [] => (s, .ok acc)
  | (a, n) :: r =>
    let x := s.readPiece requester fn a n host
    match x.2 with
    | none => (x.1, .error a)
    | some b => x.1.readPieces requester fn (if 2 ^ 63 ≤ a then host.drop n else host) (acc ++ b) r

/-- Reads `n` bytes from Spine address `a`. -/
def State.readSpine (s : State) (requester fn a n : Nat) (host : List Byte) : State × Except Nat (List Byte) :=
  s.readPieces requester fn host [] (piecesOf a n)

/-- Writes the pieces of an access. Every piece is written where its own word allows it (R392); the address of the first
that failed comes back. (DEDUCED, log entry 87) -/
def State.writePieces (s : State) (requester : Nat) (w : OnBehalf) (data : List Byte) (bad : Option Nat) (l : List (Nat × Nat)) :
    State × Option Nat :=
  match l with
  | [] => (s, bad)
  | (a, n) :: r =>
    let x := s.writePiece requester w a (data.take n)
    x.1.writePieces requester w (data.drop n) (bad <|> (if x.2 then none else some a)) r

/-- Writes bytes from Spine address `a` upward; the address that failed, if one did. -/
def State.writeSpine (s : State) (requester : Nat) (w : OnBehalf) (a : Nat) (data : List Byte) : State × Option Nat :=
  s.writePieces requester w data none (piecesOf a data.length)

/-- A read inside the module whose failure its caller treats as a bus error. Only a DMA channel has a function in whose
name host memory is reached (R209), so a host address is unmapped here. -/
def State.readModule (s : State) (requester a n : Nat) : State × Option (List Byte) :=
  if (piecesOf a n).any (fun p => decide (2 ^ 63 ≤ p.1)) then (s, none)
  else
    let x := s.readSpine requester 0 a n []
    (x.1, match x.2 with | .ok b => some b | .error _ => none)

/-- A write inside the module: true where every byte was written. -/
def State.writeModule (s : State) (requester a : Nat) (data : List Byte) : State × Bool :=
  if (piecesOf a data.length).any (fun p => decide (2 ^ 63 ≤ p.1)) then (s, false)
  else
    let x := s.writeSpine requester {} a data
    (x.1, x.2.isNone)

/-- A read or write by another requester, with the model's record of its answer. (DEDUCED, log entry 87) -/
def State.busAccess (s : State) (requester a : Nat) (write : Bool) (data : List Byte) (n : Nat) : State :=
  if write then
    let x := s.writeModule requester a data
    { x.1 with bus := (x.2, []) }
  else
    let x := s.readModule requester a n
    { x.1 with bus := (x.2.isSome, x.2.getD []) }

/-- QUIRE_EXTERNAL_ACCESS (R162 to R166): an access from the Spine to a quire's window. -/
def execQuireExternalAccess (addr : Nat) (write : Bool) (data : List Byte) (bytes : Nat) (s : State) : Res := s.whenClocked fun s =>
  if quireBase ≤ addr ∧ addr < quireBase + 0x18000000 then .next (s.busAccess 143 addr write data bytes) else .next s

end Sys2Proof.Machine
end

