-- ==== Sys2Proof/Machine/Binding.lean ====
section
/-! DEFINITION. Work bound to a slot: what a DMA program or an engine job names by carrier, half and slot stamp, and what
its acceptance comes to (R141, R211, R231). -/

namespace Sys2Proof.Machine

/-- The outcome of naming a slot. -/
inductive Named where
  | refused
  | disabled
  | slot (n : Int)
  deriving DecidableEq, Repr

/-- The number of the slot a stamp names, near the half's current slot, or near corrected time where there is none. -/
def State.slotOfStamp (s : State) (c : Nat) (h : Half) (stamp : W32) : Int :=
  let cfg := (s.carrier c).cfg
  let near := (s.currentSlot c h).getD (cfg.slotAt s.slt.originNs h s.tb.timeU)
  nearestSlot (slotPeriod cfg.spf) (stampIndex cfg.spf stamp) near

/-- Work for a slot of a carrier half: DISABLED where the carrier is disabled, REFUSED where it is stopped, where the slot
has expired, or where IMMEDIATE names a half without a current slot (R23, R141, R211, R231). -/
def State.nameSlot (s : State) (c : Nat) (h : Half) (immediate : Bool) (stamp : W32) : Named :=
  let x := s.carrier c
  if x.refusesWork then .disabled
  else if x.mode == .stopped then .refused
  else match immediate, s.currentSlot c h with
  | true, none => .refused
  | true, some k => if (x.half h).expired k then .refused else .slot k
  | false, none => .slot (s.slotOfStamp c h stamp)
  | false, some _ =>
    let n := s.slotOfStamp c h stamp
    if (x.half h).expired n then .refused else .slot n

/-- A HALF field: 1 UL, 2 DL; 0 and 3 are taken as 1, a clamp (R211, R230, R248). -/
def halfField (v : Nat) : Half := if v = 2 then .dl else .ul
def halfClamped (v : Nat) : Bool := v != 1 && v != 2

/-- HALF as a number, 1 UL, 2 DL. -/
def halfNum (h : Half) : Nat := match h with | .ul => 1 | .dl => 2

/-- The latch of a live slot of a carrier half (R58). -/
def State.latchOf (s : State) (c : Nat) (h : Half) (n : Int) : Option SlotLatch :=
  ((s.carrier c).half h).live.find? (·.slot == n)

/-- The words with which a slot's work is done: its latch, or the felt set where it has none (R58). -/
def State.slotWords (s : State) (c : Nat) (h : Half) (n : Int) : SetWords :=
  match s.latchOf c h n with
  | some l => l.words
  | none => ((s.carrier c).half h).felt

/-- The boundary of the slot in that half has fired, and it lives. -/
def State.slotFired (s : State) (c : Nat) (h : Half) (n : Int) : Bool := ((s.carrier c).half h).live.any (fun l => l.slot == n)

/-- The stamp of a slot of a carrier. -/
def State.stampOfSlot (s : State) (c : Nat) (n : Int) : W32 := stampOf (s.carrier c).cfg.spf n

/-- A completion entry's first 16 bytes as they stand in status items and result records, PHASE 0 (R92, R212, R231). -/
def statusBytes (tag : W32) (status specific : Nat) (clamped : Bool) (time : W64) : List W32 :=
  [tag, BitVec.ofNat 32 (completionWord specific status false clamped false), time.setWidth 32, (time >>> 32).setWidth 32]

/-- Sets a DONE flag of an engine's job. -/
def State.doneFlag (s : State) (en : Bool) (task flag : Nat) : State := if en then s.notify .engine task flag else s

end Sys2Proof.Machine
end

