-- ==== Sys2Proof/Machine/Jobs.lean ====
section
/-! DEFINITION. What the three engines share: job queues, acceptance, the choice of the next job, job ends, aborts and
control (R230, R231, R237, R241, R242, and their uses in R248 to R263 and R288, R289). Engine 0 is the Spatial engine, 1 the
Coding engine, 2 the Spectral engine. -/

namespace Sys2Proof.Machine

def State.engine (s : State) (e : Nat) : Engine := mapGet (fun _ => {}) s.engines e
def State.setEngine (s : State) (e : Nat) (x : Engine) : State :=
  if e < 3 then { s with engines := mapSet (fun _ => {}) s.engines e x } else s

/-- Groups of an engine, and the accepted jobs it holds at most (R226, R237, R244, R259, R265, R288). -/
def engGroups (e : Nat) : Nat := if e = 0 then 3 else if e = 1 then 4 else 5
def engCap (e : Nat) : Nat := if e = 1 then 128 else 64
/-- Power cluster of a group (R402); its Spine requester is that number + 64. -/
def engCluster (e g : Nat) : Nat := if e = 0 then 28 + g else if e = 1 then 24 + g else 31 + g
def engRequester (e g : Nat) : Nat := engCluster e g + 64
def engJq (e k : Nat) : Nat := if e = 0 then Reg.SPA_JQ k else if e = 1 then Reg.COD_JQ k else Reg.SPC_JQ k
def engHostRank (e : Nat) : Nat := if e = 0 then Reg.SPA_HOST_RANK else if e = 1 then Reg.COD_HOST_RANK else Reg.SPC_HOST_RANK
def engClamp (e : Nat) : Nat := if e = 0 then Reg.SPA_CLAMP_COUNT else if e = 1 then Reg.COD_CLAMP_COUNT else Reg.SPC_CLAMP_COUNT
def engEvent (e : Nat) : Nat := if e = 0 then Reg.SPA_EVENT else if e = 1 then Reg.COD_EVENT else Reg.SPC_EVENT
def engJobs (e : Nat) : Nat := if e = 0 then Reg.SPA_JOBS_LO else if e = 1 then Reg.COD_JOBS_LO else Reg.SPC_JOBS_LO
/-- COMMIT_FAIL in the engine's event register. -/
def engCommitFail (e : Nat) : Nat := if e = 0 then 3 else if e = 1 then 4 else 0
/-- TYPE of the engine's job descriptor. -/
def engJobType (e : Nat) : Nat := 0x0500 + e * 0x100

/-- A group is in service: no CTRL took it out, and its cluster neither sleeps nor goes to sleep, alone or with the module (R134, R242,
R404, R405). -/
def State.groupInService (s : State) (e g : Nat) : Bool :=
  !(s.engine e).groupsOff.contains g && !s.pwr.hibBusy &&
    ((s.cluster (engCluster e g)).mode == .run || (s.cluster (engCluster e g)).mode == .nap)

def EngJob.w (j : EngJob) (k : Nat) : W32 := j.words.getD k 0
def EngJob.fld (j : EngJob) (k hi lo : Nat) : Nat := bitsOf (j.w k) hi lo
def EngJob.w64 (j : EngJob) (k : Nat) : Nat := (j.w k).toNat + (j.w (k + 1)).toNat * 2 ^ 32

/-- Replaces the job of the same place in the order. -/
def State.setJob (s : State) (e : Nat) (j : EngJob) : State :=
  let x := s.engine e
  s.setEngine e { x with jobs := x.jobs.map (fun i => if i.seq == j.seq then j else i) }

def State.jobOf (s : State) (e seq : Nat) : Option EngJob := (s.engine e).jobs.find? (·.seq == seq)

/-- Rank of the source a job came from (R237). -/
def State.jobRank (s : State) (e : Nat) (j : EngJob) : Nat :=
  match j.origin with
  | .host _ => s.fld (engHostRank e) 2 0
  | .queue k => s.fld (engJq e k) 18 16

/-- A commit that did not return OK sets COMMIT_FAIL (R243, R264, R290). (DEDUCED, log entry 51) -/
def State.noteEngCommit (s : State) (e status : Nat) : State := if status = stOK then s else s.raise (engEvent e) (engCommitFail e)

/-! ## Descriptors on their way -/

/-- Types a chapter defines; every other one is taken as NOP (R89). (DEDUCED, log entry 26) -/
def knownTypes : List Nat :=
  [0x0000, 0x0100, 0x0101, 0x0200, 0x0201, 0x0202, 0x0203, 0x0204, 0x0300, 0x0301, 0x0302, 0x0303, 0x0304, 0x0400, 0x0401, 0x0402]
    ++ [0x0500, 0x0501, 0x0502, 0x0600, 0x0601, 0x0602, 0x0700, 0x0701, 0x0702, 0x0703, 0x0800, 0x0801, 0x0900, 0x0901, 0x0902]
    ++ [0x0A00, 0x0A01, 0x0A02, 0x0A03, 0x0B00]

/-- (DEDUCED, log entry 26) -/
def typeOf (d : Desc) : Nat := if knownTypes.contains d.type then d.type else 0

/-- The block that accepts the descriptor: TYPE[15:8] (R89). (DEDUCED, log entry 26) -/
def blockOfDesc (d : Desc) : Nat := typeOf d / 256

/-- A FENCE holds the descriptor while an earlier one of its ring has no committed completion (R90). (DEDUCED, log entry 28) -/
def State.fenceHolds (s : State) (f : Fetched) : Bool :=
  let r := f.desc.ring
  let later := (s.hp.fetched.filter (fun g => g.desc.ring == r && decide (f.seq ≤ g.seq))).length
    + ((s.hp.inFlight.filter (·.ring == r)).map (·.count)).sum
  f.desc.flags.testBit 1 && decide (later < (s.ring r).openCount)

/-! ## Ends -/

/-- KINDs that decode (R248). -/
def codDecodes (kind : Nat) : Bool := kind == 1 || kind == 3 || kind == 5

/-- SPECIFIC of a Coding job (R257). -/
def EngJob.codSpecific (j : EngJob) : Nat :=
  if codDecodes j.kind then b2n j.cod.tbOk * 2 ^ 15 + b2n j.cod.softLost * 2 ^ 14 + b2n j.cod.hqShort * 2 ^ 13 + min 8191 j.cod.cbFail
  else j.cod.blocks

/-- SPECIFIC of a job as far as it has come: what it would carry if it ended now (R231, R257). -/
def EngJob.specSoFar (j : EngJob) (e : Nat) : Nat := if e = 1 then j.codSpecific else j.specific

/-- At the end of a drain a pending enable takes effect and its descriptors complete (R24, R242). -/
def State.settleEngine (s : State) (e : Nat) : State :=
  let x := s.engine e
  if x.enablePending && x.jobs.all (!·.running) then
    (s.setEngine e { x with enable := true, enablePending := false, enableRefs := [] }).completeAll x.enableRefs stOK
  else s

/-- Hands one completion entry of a queue-fed Coding job to its ring, or drops it (R258). -/
def State.cqHandoff (s : State) (cq : Nat) (tag : W32) (status specific : Nat) (clamped : Bool) : State :=
  if cq = 0xFFFF then s
  else
    let r := s.ring cq
    if r.enable && r.completion && decide (0 < r.credit) then
      (s.setRing cq { r with openCount := r.openCount + 1 }).postEntry cq r.owner tag false specific status false clamped s.stampNow
    else (s.bump Reg.COD_CQ_DROP).raise Reg.COD_EVENT 3

/-- The result record of a Coding job (R257). -/
def codRecord (j : EngJob) (status specific : Nat) (time : W64) : List W32 :=
  statusBytes j.tag status specific j.clamped time ++
    [BitVec.ofNat 32 (j.cod.blocks * 2 ^ 16 + j.cod.cbFail % 65536),
     BitVec.ofNat 32 (satTo 65535 j.cod.iterSum * 2 ^ 16 + j.cod.iterPeak % 256 * 2 ^ 8 + b2n j.cod.copied * 8 + b2n j.cod.hqShort * 4
       + b2n j.cod.softLost * 2 + b2n j.cod.tbOk), j.cod.metric, 0]

/-- What a job's end writes for a queue-fed job: where to, and the words (R231, R257). -/
def resultItem (e : Nat) (j : EngJob) (status specific : Nat) (time : W64) : Nat × List W32 :=
  if e = 1 then (j.fld 11 31 16, codRecord j status specific time)
  else (j.fld 10 15 0, statusBytes j.tag status specific j.clamped time)

/-- A Coding job with RES_EN writes its result record first; a bus error there ends it BAD (R250, R392). -/
def State.writeResult (s : State) (e : Nat) (j : EngJob) (status specific : Nat) : State × Nat :=
  if e = 1 && (j.w 13).getLsbD 29 then
    let x := s.writeModule (engRequester 1 j.place) (j.w64 14 / 32 * 32)
      ((codRecord j status specific s.stampNow).flatMap (fun w => bytesOfNat 4 w.toNat))
    (x.1, if x.2 then status else worseStatus status stBAD)
  else (s, status)

/-- A decode that has run ends with TB_OK 0 (R264). (DEDUCED, log entry 51) -/
def State.noteTbFail (s : State) (e : Nat) (j : EngJob) : State :=
  if e = 1 && codDecodes j.kind && j.running && !j.cod.tbOk then (s.bump Reg.COD_TB_FAIL).raise Reg.COD_EVENT 0 else s

/-- A job ends with its status (R231, R250): result record, result item, completion, DONE flag, in that order; a Coding job's completion also carries what the item's commit
returned. (DEDUCED, log entry 51) -/
def State.endJob (s : State) (e : Nat) (j : EngJob) (status specific : Nat) : State :=
  let spec := satTo 65535 specific
  let s := s.setEngine e { s.engine e with jobs := (s.engine e).jobs.filter (·.seq != j.seq) }
  let s := (s.bump64 (engJobs e) 1).noteTbFail e j
  let x := s.writeResult e j status spec
  let s := x.1
  let status := x.2
  let y := match j.origin with
    | .host _ => (s, status)
    | .queue _ =>
      let it := resultItem e j status spec s.stampNow
      if it.1 = 0xFFFF then (s, status) else
        let y := s.pushItem it.1 (.engine e) 7 (j.tag.setWidth 16) [qwOfWords it.2]
        (y.1.noteEngCommit e y.2, worseStatus status y.2)
  let s := match j.origin with
    | .host ref => y.1.complete { ref with clamped := ref.clamped || j.clamped } status spec
    | .queue _ => if e = 1 then y.1.cqHandoff (j.fld 11 15 0) j.tag y.2 spec j.clamped else y.1
  let d := if e = 1 then j.w 12 else j.w 11
  (s.doneFlag (bitOf d 31) (bitsOf d 16 0) (bitsOf d 21 17)).settleEngine e

/-! ## Records and acceptance -/

/-- The record of a job descriptor (R230, R248, R288). -/
def recordOfDesc (d : Desc) : List W32 :=
  [BitVec.ofNat 32 (d.flags / 2 ^ 9 % 2 ^ 7 * 2 ^ 25 + b2n d.immediate * 2 ^ 24 + d.carrier % 65536), d.slot, d.tag, 0]
    ++ (List.range 12).map (fun i => d.body.getD i 0)

/-- The record of a job item: its first two words; a missing second word reads as 0 (R230, R248). -/
def recordOfItem (words : List QWord) : List W32 :=
  (List.range 8).map (qwWord (words.getD 0 0)) ++ (List.range 8).map (qwWord (words.getD 1 0))

/-- A record as its engine takes it: words as clamped, whether a field was clamped, KIND and HALF. -/
structure Taken where
  words : List W32
  clamped : Bool
  kind : Nat
  half : Half
  blocks : Nat := 1

/-- The CARRIER of a record: 512 and above is taken as its low 9 bits (R230). -/
def recordCarrier (w : List W32) : Nat := bitsOf (w.headD 0) 8 0
def recordCarrierClamped (w : List W32) : Bool := bitsOf (w.headD 0) 15 9 != 0

/-- Acceptance (R231, R250, R288): the job joins the accepted jobs, or ends at once. (DESIGN CHOICE, log entry 24) -/
def State.acceptJob (s : State) (e : Nat) (origin : JobOrigin) (t : Taken) : State :=
  let x := s.engine e
  let c := recordCarrier t.words
  let cl := t.clamped || recordCarrierClamped t.words
  let stamp := t.words.getD 1 0
  let imm := (t.words.headD 0).getLsbD 24
  let j : EngJob := { seq := x.nextSeq, origin := origin, kind := t.kind, carrier := c, half := t.half, slotNum := 0, slot := stamp,
                      tag := t.words.getD 2 0, words := t.words, clamped := cl, cod := { blocks := t.blocks } }
  let s := s.setEngine e { x with nextSeq := x.nextSeq + 1 }
  let spec := if e = 1 && (t.kind == 2 || t.kind == 4 || t.kind == 6) then t.blocks else 0
  if !x.enable then s.endJob e j stDISABLED spec
  else match s.nameSlot c t.half imm stamp with
  | .disabled => s.endJob e j stDISABLED spec
  | .refused => s.endJob e j stREFUSED spec
  | .slot n =>
    let j := { j with slotNum := n, slot := s.stampOfSlot c n }
    if t.kind = 0 then s.endJob e j stOK 0
    else s.setEngine e { s.engine e with jobs := (s.engine e).jobs ++ [j] }

/-- A job descriptor reaches its engine; it waits while the engine holds all the jobs it can (R237, R259, R288). -/
def State.jobDesc (s : State) (e : Nat) (d : Desc) (take : List W32 → Taken) : State :=
  if (s.engine e).enable && decide (engCap e ≤ (s.engine e).jobs.length) then s
  else
    let t := take (recordOfDesc d)
    let cl := t.clamped || recordCarrierClamped t.words
    (s.clampDesc d cl (engClamp e)).acceptJob e (.host (d.ref cl)) t

/-! ## Job queues -/

/-- Job queue `k` is a source with a visible item. -/
def State.sourceReady (s : State) (e k : Nat) : Bool :=
  s.bit (engJq e k) 31 && (s.queue (s.fld (engJq e k) 15 0)).storable && !(s.queue (s.fld (engJq e k) 15 0)).visible.isEmpty

/-- Rank and place in the round of a source; source 8 is the descriptor path (R237). -/
def State.sourceRank (s : State) (e k : Nat) : Nat := if k = 8 then s.fld (engHostRank e) 2 0 else s.fld (engJq e k) 18 16

/-- A job descriptor of the engine is the next its ring delivers there, and no FENCE holds it (R90, R91).
(DEDUCED, log entry 27) -/
def State.hostJobWaits (s : State) (e : Nat) : Bool :=
  s.hp.fetched.any (fun f => f.desc.type == engJobType e && !s.fenceHolds f &&
    s.hp.fetched.find? (fun g => g.desc.ring == f.desc.ring && blockOfDesc g.desc == blockOfDesc f.desc) == some f)

/-- Distance of a source from the one served last, going round nine places. -/
def sourceDist (last k : Nat) : Nat := (k + 9 - last % 9 - 1) % 9

/-- The source the engine takes its next item from: the highest rank, round-robin within it (R237). (DEDUCED, log entry 27) -/
def State.nextSource (s : State) (e : Nat) : Option Nat :=
  let ready := (List.range 8).filter (s.sourceReady e) ++ (if s.hostJobWaits e then [8] else [])
  let last := fun r => mapGet (fun _ => 8) (s.engine e).lastSource r
  ready.foldl (fun b k => match b with
    | none => some k
    | some i =>
      let ri := s.sourceRank e i
      let rk := s.sourceRank e k
      if ri < rk || (ri == rk && sourceDist (last rk) k < sourceDist (last ri) i) then some k else b) none

/-- The engine serves a source: the round goes on after it. -/
def State.served (s : State) (e k : Nat) : State :=
  let x := s.engine e
  s.setEngine e { x with lastSource := mapSet (fun _ => 8) x.lastSource (s.sourceRank e k) k }

/-- JOB_ITEM_READ (R237, R259, R288): the engine reads the next job item while it holds fewer jobs than it can. -/
def State.jobItemRead (s : State) (e : Nat) (take : List W32 → Taken) : State :=
  let x := s.engine e
  if x.enable && decide (x.jobs.length < engCap e) then
    match s.nextSource e with
    | none => s
    | some k =>
      if k = 8 then s
      else
        let r := (s.served e k).readQueue (s.fld (engJq e k) 15 0) (.engine (16 * e + k))
        match r.2 with
        | .item i =>
          let t := take (recordOfItem i.words)
          (r.1.clampIf (t.clamped || recordCarrierClamped t.words) (engClamp e)).acceptJob e (.queue k) t
        | _ => r.1
  else s

/-! ## Choice of the next job -/

/-- Of the jobs that may start, the one of highest source rank, the earliest accepted within a rank (R237, R259). -/
def State.nextJob (s : State) (e : Nat) (may : EngJob → Bool) : Option EngJob :=
  ((s.engine e).jobs.filter may).foldl (fun b j => match b with
    | none => some j
    | some i => if s.jobRank e i < s.jobRank e j then some j else b) none

/-- Returns a job of an engine that waits, with DISABLED (R23). -/
def State.returnJob (s : State) (e : Nat) (j : EngJob) : State := s.endJob e j stDISABLED (j.specSoFar e)

/-- Engine jobs that wait and that `hit` names are returned with DISABLED (R23). -/
def State.returnJobs (s : State) (hit : EngJob → Bool) : State :=
  [0, 1, 2].foldl (fun s e => ((s.engine e).jobs.filter (fun j => !j.running && hit j)).foldl (fun s j => s.returnJob e j) s) s

/-! ## Aborts and control -/

/-- Ends every accepted job that `hit` names, ABORTED; `undo` is what the engine does to the state of a running one. -/
def State.abortJobs (s : State) (e : Nat) (hit : EngJob → Bool) (undo : State → EngJob → State) : State :=
  ((s.engine e).jobs.filter hit).foldl (fun s j => (if j.running then undo s j else s).endJob e j (worseStatus stABORTED j.status) (j.specSoFar e)) s

/-- An abort descriptor of an engine (R242, R263, R289). -/
def State.jobAbort (s : State) (e : Nat) (d : Desc) (undo : State → EngJob → State) : State :=
  let hit := fun (j : EngJob) => j.tag == d.w 0x10
  let met := (s.engine e).jobs.any hit
  (s.abortJobs e hit undo).completeAt (d.ref false) stOK 0 (!met) s.stampNow

/-- TARGET of a CTRL descriptor: a group, or the whole engine at `engGroups e`; whether it was clamped (R242, R263, R289). -/
def ctrlTarget (e : Nat) (d : Desc) : Nat × Bool :=
  let t := if e = 0 then d.fld 0x10 1 0 else d.fld 0x10 2 0
  if engGroups e < t then (engGroups e, true) else (t, false)

/-- The whole engine is disabled: waiting jobs end DISABLED, running ones go on (R23, R242). -/
def State.engineDisable (s : State) (e : Nat) : State :=
  let x := s.engine e
  if x.enable then
    (x.jobs.filter (!·.running)).foldl (fun s j => s.returnJob e j) (s.setEngine e { x with enable := false })
  else s

/-- DISABLE of a group or of the engine. -/
def State.ctrlDisable (s : State) (e : Nat) (d : Desc) : State :=
  let t := ctrlTarget e d
  let s := s.clampDesc d t.2 (engClamp e)
  let s := if t.1 = engGroups e then s.engineDisable e
    else s.setEngine e { s.engine e with groupsOff := (s.engine e).groupsOff.filter (· != t.1) ++ [t.1] }
  s.complete (d.ref t.2) stOK 0

/-- ENABLE of a group or of the engine; during a drain it is applied, and completes, at the drain's end (R24, R242). -/
def State.ctrlEnable (s : State) (e : Nat) (d : Desc) : State :=
  let t := ctrlTarget e d
  let s := s.clampDesc d t.2 (engClamp e)
  let x := s.engine e
  if t.1 = engGroups e then
    if x.enable then s.complete (d.ref t.2) stOK 0
    else (s.setEngine e { x with enablePending := true, enableRefs := x.enableRefs ++ [d.ref t.2] }).settleEngine e
  else (s.setEngine e { x with groupsOff := x.groupsOff.filter (· != t.1) }).complete (d.ref t.2) stOK 0

/-- A CTRL descriptor as its OP says; OP 3 is taken as no operation (R242). -/
def State.engineCtrl (s : State) (e : Nat) (d : Desc) : State :=
  match d.fld 0x10 17 16 with
  | 1 => s.ctrlDisable e d
  | 2 => s.ctrlEnable e d
  | op =>
    let cl := op == 3 || (ctrlTarget e d).2
    (s.clampDesc d cl (engClamp e)).complete (d.ref cl) stOK 0

/-- Marks a job as running at a place; its group wakes (R407). -/
def State.runJob (s : State) (e : Nat) (j : EngJob) (place : Nat) : State :=
  (s.wakeCluster (engCluster e (if e = 0 then place / 4 else place))).setJob e { j with running := true, place := place }

/-- A write of an engine's job-queue register: EN is taken as 0 where the QID's queue holds no words (R243, R264, R290). -/
def State.writeJq (s : State) (e k : Nat) (v : W32) : State :=
  s.writeContext (engJq e k) v (if bitOf v 31 && !(s.queue (bitsOf v 15 0)).storable then setBitsOf v 31 31 0 else v)

end Sys2Proof.Machine
end

