-- ==== Sys2Proof/Machine/Spatial.lean ====
section
/-! DEFINITION. The Spatial engine: weights, combining, precoding, reports (R226 to R243). -/

namespace Sys2Proof.Machine

/-! ## Pages -/

/-- Page U4 or D4 (R228). -/
structure SpaPage where
  n : Nat
  l : Nat
  g : Nat
  inFmt : Nat
  outFmt : Nat
  outShift : Nat
  dens : Nat
  nsym : Nat
  taps : List Int
  noise : Nat
  wgtBase : Nat
  deriving DecidableEq, Repr

/-- The page as a latch holds it. -/
def spaPage (w : SetWords) : SpaPage :=
  let f := fun i hi lo => setFld w 4 i hi lo
  { n := max 1 (f 0 31 25), l := max 1 (f 0 24 20), g := 2 ^ f 0 19 17, inFmt := f 0 16 15, outFmt := f 0 14 13,
    outShift := f 0 12 8, dens := (match f 0 7 5 with | 0 => 12 | 1 => 6 | 2 => 4 | _ => 3), nsym := f 0 4 3 + 1,
    taps := (List.range (max 1 (f 1 31 26))).map (fun t => signedOf 16 (f (4 + t / 2) (16 * (t % 2) + 15) (16 * (t % 2)))), noise := f 1 15 0, wgtBase := setWord64 w 4 2 }

/-! ## Records -/

/-- PRBs of a job: range shortened to end at PRB 274 (R227, R230). -/
def prbRange (start count : Nat) : Nat × Nat :=
  let s := if 274 < start then 274 else start
  (s, if count = 0 then 1 else if 275 < s + count then 275 - s else count)

/-- A Spatial job record as the engine takes it (R230). -/
def spaTake (w : List W32) : Taken :=
  let w0 := w.headD 0
  let p := w.getD 8 0
  let r := prbRange (bitsOf p 22 14) (bitsOf p 31 23)
  let p' := setBitsOf (setBitsOf p 31 23 r.2) 22 14 r.1
  let ia := w.getD 4 0
  let oa := w.getD 6 0
  let h := bitsOf w0 27 26
  { words := (((w.set 4 (setBitsOf ia 1 0 0)).set 6 (setBitsOf oa 1 0 0)).set 8 p'),
    clamped := p' != p || bitsOf ia 1 0 != 0 || bitsOf oa 1 0 != 0 || halfClamped h,
    kind := bitsOf w0 31 30, half := halfField h }

def EngJob.wbuf (j : EngJob) : Nat := j.fld 0 29 28
def EngJob.prbStart (j : EngJob) : Nat := j.fld 8 22 14
def EngJob.prbCount (j : EngJob) : Nat := j.fld 8 31 23
/-- Symbols of the job, ascending. -/
def EngJob.symbols (j : EngJob) : List Nat := (List.range 14).filter (fun k => (j.w 8).getLsbD k)
/-- Groups the job's PRB range touches. -/
def EngJob.prbGroups (j : EngJob) (g : Nat) : List Nat :=
  let a := j.prbStart / g
  (List.range ((j.prbStart + j.prbCount - 1) / g + 1 - a)).map (· + a)

/-! ## Weight buffers -/

def wbufKey (c : Nat) (h : Half) (b : Nat) : Nat := c * 8 + (match h with | .ul => 0 | .dl => 4) + b
def State.wbuf (s : State) (k : Nat) : WBuf := mapGet (fun _ => {}) s.spa.wbufs k
def State.setWbuf (s : State) (k : Nat) (x : WBuf) : State :=
  if k < 4096 then { s with spa.wbufs := mapSet (fun _ => {}) s.spa.wbufs k x } else s
def EngJob.wkey (j : EngJob) : Nat := wbufKey j.carrier j.half j.wbuf

/-- The couch that starts a carrier empties the buffers of the half (R236); the SLOT of the last ESTW stays (R243). -/
def State.emptyWbufs (s : State) (c : Nat) (h : Half) : State :=
  (List.range 4).foldl (fun s b => s.setWbuf (wbufKey c h b) { s.wbuf (wbufKey c h b) with state := 0 }) s

/-- A job waits for earlier jobs on its buffer: any of them where it writes, the writers where it reads (R236). -/
def spaFree (l : List EngJob) (j : EngJob) : Bool :=
  l.all (fun i => j.seq ≤ i.seq || i.wkey != j.wkey || (i.kind != 1 && j.kind != 1))

/-- The free tile of lowest number in a group in service (R237). -/
def State.freeTile (s : State) : Option Nat :=
  (List.range 12).find? (fun t => s.groupInService 0 (t / 4) && (s.engine 0).jobs.all (fun j => !j.running || j.place != t))

/-- The job that starts next, with its tile (R237): not running, slot fired, buffer free. -/
def State.spaNext (s : State) : Option (EngJob × Nat) :=
  let may := fun (j : EngJob) => !j.running && s.slotFired j.carrier j.half j.slotNum && spaFree (s.engine 0).jobs j
  match s.freeTile, s.nextJob 0 may with
  | some t, some j => some (j, t)
  | _, _ => none

/-- What the job's slot is processed with (R58, R228). -/
def State.jobLatch (s : State) (j : EngJob) : SetWords :=
  match s.latchOf j.carrier j.half j.slotNum with | some l => l.words | none => ((s.carrier j.carrier).half j.half).felt

/-- Spine requester of the group of a tile. -/
def tileRequester (t : Nat) : Nat := engRequester 0 (t / 4)

/-- Base of group block `j` of a buffer (R233). -/
def groupBlock (p : SpaPage) (b j : Nat) : Nat := p.wgtBase + b * 0x400000 + j * 0x2000

/-- The quotient rounded up. -/
def ceilDiv (a b : Nat) : Nat := (a + b - 1) / b

/-- ACLK cycles with the job on its tile are counted, and among them the cycles in which its operand reads have not arrived, whose
number is open: a free value (R238, R243). (DESIGN CHOICE, log entry 97) -/
def State.tileBusy (s : State) (t cycles : Nat) : State :=
  let stall := s.freeStall
  (s.drawn.bump64 (Reg.SPA_TILE_BUSY_LO t) (cycles + stall)).bumpFld (Reg.SPA_TILE_STALL t) 31 0 stall

/-- The job has done its work; SPA_JOB_END ends it with this status. -/
def State.finishJob (s : State) (e : Nat) (j : EngJob) (status specific : Nat) : State :=
  s.setJob e { j with finished := true, status := worseStatus j.status status, specific := specific }

/-! ## Decibels -/

/-- 10^(v ÷ 2560) is at most num ÷ den. -/
def belowRatio (v : Int) (num den : Nat) : Bool :=
  if 0 ≤ v then decide (10 ^ v.toNat * den ^ 2560 ≤ num ^ 2560) else decide (den ^ 2560 ≤ num ^ 2560 * 10 ^ (-v).toNat)

/-- floor(256 × 10 log10(num ÷ den)), saturated to 16 bits; a ratio of 0 reads −32,768 (R239). (DEDUCED, log entry 94) -/
def ratioDb (num den : Nat) : Int :=
  if belowRatio (-32768) num den then searchDown (fun v => belowRatio v num den) 16 (-32768) 32767 else -32768

/-- 256 × 10 log10(num ÷ den), truncated and saturated to 16 bits. R234 says that the engine truncates; which way it truncates a
negative logarithm is open: the bit `up`. (DEDUCED, log entry 94) -/
def dbBy (up num den : Nat) : Int :=
  let v := ratioDb num den
  let exact := decide (0 ≤ v) || (10 ^ (-v).toNat * num ^ 2560 == den ^ 2560) || !belowRatio (-32768) num den
  if exact then v else v + ((up % 2 : Nat) : Int)

/-- The same with the open bit drawn. (DEDUCED, log entry 94) -/
def State.dbOf (s : State) (num den : Nat) : Int := dbBy (s.freeBelow 2) num den

/-! ## ESTW -/

/-- The estimates an ESTW has read, with what its page says (R232). -/
def estIn (p : SpaPage) (j : EngJob) (data : List Byte) : EstIn :=
  let k := j.prbCount * p.dens
  { nAnt := p.n, nLay := p.l, nSym := p.nsym, k := k, taps := p.taps, floor := noiseFloor p.noise,
    rows := chunks (p.nsym * p.l * p.n) k (samplesOfInt16 data) }

/-- The estimates that lie in a group: those of the job's PRBs that belong to it. -/
def estimatesOf (p : SpaPage) (j : EngJob) (g : Nat) : List Nat :=
  (List.range (j.prbCount * p.dens)).filter (fun k => (j.prbStart + k / p.dens) / p.g == g)

/-- An SINR in 1/256 dB (R233): the logarithm is truncated; which way a negative one is, is a free bit; at or below 0 it reads
−32,768 (R239). (DEDUCED, log entry 94) -/
def State.sinrDb (s : State) (x : Flt) : Int :=
  if x.m ≤ 0 then -32768
  else s.dbOf (x.m.natAbs * 2 ^ x.e.toNat) (2 ^ (-x.e).toNat)

/-- One layer of a group block: its exponent, SINR and mantissas, and how many of these saturated. What 1 ÷ 0 or the scaling of a zero
column would be is not stated: free values. (DESIGN CHOICE, log entry 14) -/
def State.layerBlock (s : State) (p : SpaPage) (row : Option (List CFlt)) (sinr : Option Flt) : State × Int × Int × List Byte × Nat :=
  let m := match row with
    | some r => let x := rowMantissas r; (x.1, x.2.1.flatMap int16Bytes, x.2.2)
    | none => (((s.freeBelow 32 : Nat) : Int) - 8, s.freeBytes (4 * p.n), 0)
  let s := s.drawn
  let v := match sinr with
    | some x => s.sinrDb x
    | none => ((s.freeBelow 65536 : Nat) : Int) - 32768
  (s.drawn, m.1, v, m.2.1, m.2.2)

/-- The layers of a group block, one after another. -/
def State.layerBlocks (s : State) (p : SpaPage) (l : List (Option (List CFlt) × Option Flt)) : State × List (Int × Int × List Byte × Nat) :=
  l.foldl (fun a r => let x := a.1.layerBlock p r.1 r.2; (x.1, a.2 ++ [x.2])) (s, [])

/-- Computes and writes one group block (R232 to R234): its state, whether every write was made, and the singular pivots.
(DESIGN CHOICE, log entry 14) -/
def State.storeGroup (s : State) (req : Nat) (p : SpaPage) (j : EngJob) (x : EstIn) (g : Nat) : State × Bool × Nat :=
  let a := groupBlock p j.wbuf g
  let o := x.group (j.half == .dl) (estimatesOf p j g)
  let y := s.layerBlocks p (o.rows.zip o.sinrs)
  let sing := o.singular + (y.2.map (fun l => l.2.2.2)).sum
  let head := bytesOfNat 4 o.sigma2.binary32 ++ bytesOfNat 4 (g * p.g) ++ bytesOfNat 4 j.slot.toNat ++ bytesOfNat 4 sing
  let w1 := y.1.writeModule req a head
  let w2 := w1.1.writeModule req (a + 0x10) (y.2.map (fun l => BitVec.ofInt 8 l.1))
  let w3 := w2.1.writeModule req (a + 0x28) (y.2.flatMap (fun l => bytesOfNat 2 (unsignedOf 16 l.2.1)))
  let w4 := w3.1.writeModule req (a + 0x58) (List.replicate 0x28 0)
  let w5 := w4.1.writeModule req (a + 0x80) (y.2.flatMap (fun l => l.2.2.1))
  (w5.1, w1.2 && w2.2 && w3.2 && w4.2 && w5.2, sing)

/-- Writes the group blocks of a job until one fails. -/
def State.storeGroups (s : State) (req : Nat) (p : SpaPage) (j : EngJob) (x : EstIn) (sing : Nat) (l : List Nat) : State × Bool × Nat :=
  match l with
  | [] => (s, true, sing)
  | g :: r =>
    let y := s.storeGroup req p j x g
    if y.2.1 then y.1.storeGroups req p j x (sing + y.2.2) r else (y.1, false, sing + y.2.2)

/-- Compute cycles of an ESTW (R238). -/
def estwCycles (p : SpaPage) (j : EngJob) : Nat :=
  ceilDiv (p.n * p.l * (j.prbCount * p.dens) * p.nsym * p.taps.length) 1024
    + (j.prbGroups p.g).length * ceilDiv (2 * p.n * p.l * p.l + p.l * p.l * p.l) 256 + 16

/-- ESTW (R232, R236): the buffer becomes WRITING, the estimates are read and the group blocks written. -/
def State.estw (s : State) : State :=
  match s.spaNext with
  | none => s
  | some (j, t) =>
    if j.kind != 1 then s
    else
      let s := (s.runJob 0 j t).setWbuf j.wkey ⟨2, j.slot⟩
      let j := { j with running := true, place := t }
      let p := spaPage (s.jobLatch j)
      let s := s.tileBusy t (estwCycles p j)
      let x := s.readModule (tileRequester t) (j.w64 4) (p.nsym * p.l * p.n * (j.prbCount * p.dens) * 4)
      match x.2 with
      | none => x.1.finishJob 0 j stBAD 0
      | some d =>
        let y := x.1.storeGroups (tileRequester t) p j (estIn p j d) 0 (j.prbGroups p.g)
        let s := y.1.bumpFld Reg.SPA_SINGULAR 31 0 y.2.2
        let s := if y.2.2 = 0 then s else s.raise Reg.SPA_EVENT 1
        s.finishJob 0 j (if y.2.1 then stOK else stBAD) y.2.2

def execEstw (s : State) : Res := s.whenClocked fun s => .next s.estw

/-! ## Weights in use -/

/-- The weights of one group: K_l and, by layer then antenna, the mantissas (R233, R234). -/
structure GroupWeights where
  ks : List Int
  w : List (List Cplx)
  deriving DecidableEq, Repr

/-- Reads a group block's exponents and mantissas. -/
def State.loadGroup (s : State) (req : Nat) (p : SpaPage) (b g : Nat) : State × Option GroupWeights :=
  let a := groupBlock p b g
  let x := s.readModule req (a + 0x10) p.l
  let y := x.1.readModule req (a + 0x80) (4 * p.l * p.n)
  match x.2, y.2 with
  | some k, some m => (y.1, some ⟨k.map (fun b => signedOf 8 b.toNat), chunks p.l p.n (samplesOfInt16 m)⟩)
  | _, _ => (y.1, none)

/-- Reads the weights of the groups of a job, by group. -/
def State.loadGroups (s : State) (req : Nat) (p : SpaPage) (b : Nat) (acc : List (Nat × GroupWeights)) (l : List Nat) :
    State × Option (List (Nat × GroupWeights)) :=
  match l with
  | [] => (s, some acc)
  | g :: r =>
    let x := s.loadGroup req p b g
    match x.2 with
    | some w => x.1.loadGroups req p b (acc ++ [(g, w)]) r
    | none => (x.1, none)

/-- Reads `n` blocks of `size` bytes that follow one another. -/
def State.readBlocks (s : State) (req a size : Nat) (acc : List (List Byte)) (n : Nat) : State × Option (List (List Byte)) :=
  match n with
  | 0 => (s, some acc)
  | k + 1 =>
    let x := s.readModule req a size
    match x.2 with
    | some b => x.1.readBlocks req (a + size) size (acc ++ [b]) k
    | none => (x.1, none)

/-- One output sample: floor(sum ÷ 2^(15 + K + OUT_SHIFT)) of each part, saturated (R234). -/
def outSample (k : Int) (shift : Nat) (sum : Cplx) : Cplx × Nat :=
  let e := 15 + k + (shift : Int)
  satCplx (if e < 0 then (sum.1 * 2 ^ (-e).toNat, sum.2 * 2 ^ (-e).toNat) else (floorShift sum.1 e.toNat, floorShift sum.2 e.toNat))

/-- COMBINE of one RE and layer (R234): the exact sum of the products of the layer's row with the antenna samples. -/
def combineSample (gw : GroupWeights) (shift l : Nat) (xs : List Cplx) : Cplx × Nat :=
  outSample (gw.ks.getD l 0) shift (cplxSum (((gw.w.getD l []).zip xs).map (fun p => cplxMul p.1 p.2)))

/-- The smallest K of a group. -/
def minK (l : List Int) : Int := l.foldl min (l.headD 0)

/-- PRECODE of one RE and antenna (R234): products are aligned to the smallest K of the group by truncating shifts. The
mantissas of P stand by layer, then antenna (R233). -/
def precodeSample (gw : GroupWeights) (shift n : Nat) (ys : List Cplx) : Cplx × Nat :=
  let k := minK gw.ks
  let term := fun (l : Nat) (y : Cplx) =>
    let m := cplxMul ((gw.w.getD l []).getD n (0, 0)) y
    let d := (gw.ks.getD l 0 - k).toNat
    (floorShift m.1 d, floorShift m.2 d)
  outSample k shift (cplxSum (((List.range ys.length).zip ys).map (fun p => term p.1 p.2)))

/-- One output block: by subcarrier, the sample that `f` forms from the group's weights and the inputs of the symbol. -/
def outBlock (p : SpaPage) (j : EngJob) (ws : List (Nat × GroupWeights)) (ins : List (List Cplx))
    (f : GroupWeights → List Cplx → Cplx × Nat) : List (Cplx × Nat) :=
  (List.range (12 * j.prbCount)).map (fun sc =>
    let g := (j.prbStart + sc / 12) / p.g
    match ws.find? (·.1 == g) with
    | some w => f w.2 (ins.map (fun b => b.getD sc (0, 0)))
    | none => ((0, 0), 0))

/-! ## Output -/

/-- Writes one output block: an item of its own where OUT_Q is 1, else at its place from OUT_ADDR (R235). The status of the
commit, or BAD after a bus error, comes back. -/
def State.putBlock (s : State) (req : Nat) (j : EngJob) (off sym stream : Nat) (data : List Byte) : State × Nat :=
  if (j.w 9).getLsbD 31 then
    let x := s.pushItem (j.fld 9 15 0) (.engine 0) (j.fld 9 30 28) (BitVec.ofNat 16 (sym * 256 + stream)) (qwordsOfBytes data)
    (x.1.noteEngCommit 0 x.2, x.2)
  else
    let x := s.writeModule req (j.w64 6 + off) data
    (x.1, if x.2 then stOK else stBAD)

/-- Blocks written so far: state, status, offset of the next block, and the blocks themselves, by stream. -/
structure OutAcc where
  s : State
  status : Nat
  off : Nat
  blocks : List (Nat × List (Cplx × Nat))

/-- Saturated parts of each block written. -/
def OutAcc.sat (acc : OutAcc) : List (Nat × Nat) := acc.blocks.map (fun b => (b.1, (b.2.map saturated).sum))

/-- Writes the blocks of one symbol, stream after stream; a bus error stops the job. -/
def putStreams (req : Nat) (j : EngJob) (sym : Nat) (enc : List Cplx → List Byte) (acc : OutAcc)
    (l : List (Nat × List (Cplx × Nat))) : OutAcc :=
  l.foldl (fun acc b =>
    if acc.status = stBAD then acc
    else
      let data := enc (b.2.map Prod.fst)
      let x := acc.s.putBlock req j acc.off sym b.1 data
      { s := x.1, status := worseStatus acc.status x.2, off := acc.off + data.length,
        blocks := acc.blocks ++ [b] }) acc

/-! ## Reports -/

/-- An entry of the UE table, as clamped (R229). -/
structure UeEntry where
  id : Nat
  layer : Nat
  layers : Nat
  mod : Nat
  prb : Nat
  prbs : Nat
  clamped : Bool

def ueEntry (nLayer : Nat) (b : List Byte) : UeEntry :=
  let w0 : W32 := BitVec.ofNat 32 (natOfBytes (b.take 4))
  let w1 : W32 := BitVec.ofNat 32 (natOfBytes ((b.drop 4).take 4))
  let lf := min (bitsOf w0 15 11) (nLayer - 1)
  let lc := bitsOf w0 10 6
  let lc' := min (max 1 lc) (nLayer - lf)
  let r := prbRange (bitsOf w1 31 23) (bitsOf w1 22 14)
  let m := bitsOf w0 5 3
  { id := bitsOf w0 31 16, layer := lf, layers := lc', mod := if m = 0 ∨ 5 < m then 1 else m, prb := r.1, prbs := r.2,
    clamped := lf != bitsOf w0 15 11 || lc' != lc || r != (bitsOf w1 31 23, bitsOf w1 22 14) || m == 0 || 5 < m }

/-- Largest coordinate of a constellation on the grid of odd numbers, and the mean energy of its points there, by MOD.
(DEDUCED, log entry 94) -/
def qamSide (m : Nat) : Nat := 2 ^ m - 1
/-- (DEDUCED, log entry 94) -/
def qamEnergy (m : Nat) : Nat := 2 * (4 ^ m - 1) / 3

/-- The odd number nearest to a coordinate, in units of sqrt(P ÷ E), and whether two are equally near. `pn` ÷ `pd` is P ÷ E.
Of the nearest two to 0 both give the same error and energy. (DEDUCED, log entry 94) -/
def nearestOdd (side : Nat) (pn pd : Nat) (x : Int) : Int × Bool :=
  let x2 := x.natAbs * x.natAbs * pd
  let steps := (List.range (side / 2)).map (fun i => 2 * (i + 1))
  let n := (steps.filter (fun t => t * t * pn < x2)).length
  let c : Int := ((2 * n + 1 : Nat) : Int)
  (if x < 0 then -c else c, steps.any (fun t => t * t * pn == x2))

/-- EVM of samples whose |y|² sum to `total`, in 0.01 % (R239), where it is determined: no value where P is 0 or where a sample
lies midway between two points of different energy. With c the nearest point on the grid of odd numbers and r = sqrt(P ÷ E), the square of
EVM is (Σ|y|² − 2 r Σ y·c + r² Σ|c|²) ÷ (r² Σ|c|²). (DEDUCED, log entry 94) -/
def evmOf (m total : Nat) (ys : List Cplx) : Option Nat :=
  let pn := total
  let pd := ys.length * qamEnergy m
  let near := ys.map (fun y => (nearestOdd (qamSide m) pn pd y.1, nearestOdd (qamSide m) pn pd y.2))
  if total = 0 ∨ near.any (fun c => c.1.2 || c.2.2) then none
  else
    let b : Int := ((ys.zip near).map (fun p => p.1.1 * p.2.1.1 + p.1.2 * p.2.2.1)).sum
    let c : Int := (near.map (fun c => c.1.1 * c.1.1 + c.2.1 * c.2.1)).sum
    -- v² r² C ≤ 10⁸ (Σ|y|² − 2 r B + r² C), times pd; r² pd = pn; B is not negative
    let ok := fun (v : Int) =>
      let room : Int := 100000000 * ((total : Int) * pd + pn * c) - v * v * pn * c
      decide (0 ≤ room) && decide (4 * 10000000000000000 * b * b * pn * pd ≤ room * room)
    some (searchDown ok 17 0 65535).toNat

/-- The SINRs that group blocks hold, by group and layer (R233). -/
abbrev Sinrs := List (Nat × List Int)

/-- Reads the SINRs of the groups of a job that reports (R239). -/
def State.loadSinrs (s : State) (req : Nat) (p : SpaPage) (b : Nat) (acc : Sinrs) (l : List Nat) : State × Option Sinrs :=
  match l with
  | [] => (s, some acc)
  | g :: r =>
    let x := s.readModule req (groupBlock p b g + 0x28) (2 * p.l)
    match x.2 with
    | some d => x.1.loadSinrs req p b (acc ++ [(g, (chunks p.l 2 d).map (fun c => signedOf 16 (natOfBytes c)))]) r
    | none => (x.1, none)

/-- 10^(v ÷ 2560), truncated to 192 bits behind the point. (DEDUCED, log entry 94) -/
def linearOf (v : Int) : Nat :=
  (searchDown (fun m => decide (m.toNat ^ 2560 * 10 ^ (-v).toNat ≤ 10 ^ v.toNat * 2 ^ (192 * 2560))) 236 0 ((2 ^ 236 : Nat) : Int)).toNat

/-- SINR of a report (R239): 256 × 10 log10 of the mean of the linear SINRs, truncated; which way a negative logarithm is truncated is
a free bit. (DEDUCED, log entry 94) -/
def State.reportSinr (s : State) (l : List Int) : Int :=
  let sum := (l.map linearOf).sum
  let v := searchDown (fun v => decide (l.length * linearOf v ≤ sum)) 16 (-32768) 32767
  if 0 ≤ v || l.length * linearOf v == sum then v else v + s.freeBelow 2

/-- The report of a UE over its PRBs `lo` to `hi` - 1 (R239, R240). (DEDUCED, log entry 94) -/
def State.reportUe (s : State) (p : SpaPage) (j : EngJob) (u : UeEntry) (lo hi : Nat) (sinrs : Sinrs)
    (blocks : List (Nat × List (Cplx × Nat))) : State × Nat :=
  let outs := (blocks.filter (fun b => decide (u.layer ≤ b.1 ∧ b.1 < u.layer + u.layers))).flatMap
    (fun b => (b.2.drop (12 * (lo - j.prbStart))).take (12 * (hi - lo)))
  let ys := outs.map Prod.fst
  let total := (ys.map (fun y => y.1.natAbs * y.1.natAbs + y.2.natAbs * y.2.natAbs)).sum
  let power := s.dbOf total (ys.length * 2 ^ 31)
  let s := s.drawn
  let sinr := s.reportSinr ((sinrs.filter (fun g => decide (lo / p.g ≤ g.1 ∧ g.1 ≤ (hi - 1) / p.g))).flatMap
    (fun g => (g.2.drop u.layer).take u.layers))
  let s := s.drawn
  let evm := (evmOf u.mod total ys).getD (s.freeBelow 65536)
  let s := s.drawn
  let t := s.stampNow
  let x := s.pushItem (j.fld 10 31 16) (.engine 0) 6 (BitVec.ofNat 16 u.id)
    [qwOfWords [BitVec.ofNat 32 (u.id * 2 ^ 16 + j.carrier), j.slot, BitVec.ofNat 32 (unsignedOf 16 sinr * 2 ^ 16 + evm),
      BitVec.ofNat 32 (unsignedOf 16 power * 2 ^ 16 + j.fld 8 13 0), BitVec.ofNat 32 ys.length,
      BitVec.ofNat 32 (satTo 65535 (outs.map saturated).sum * 2 ^ 16 + u.layer * 2 ^ 11 + u.layers * 2 ^ 6), t.setWidth 32, (t >>> 32).setWidth 32]]
  (x.1.noteEngCommit 0 x.2, x.2)

/-- Reports on every UE whose PRBs meet the job's (R239). -/
def State.reportUes (s : State) (p : SpaPage) (j : EngJob) (status : Nat) (sinrs : Sinrs) (blocks : List (Nat × List (Cplx × Nat)))
    (l : List UeEntry) : State × Nat :=
  l.foldl (fun acc u =>
    let lo := max u.prb j.prbStart
    let hi := min (u.prb + u.prbs) (j.prbStart + j.prbCount)
    if lo < hi then
      let x := acc.1.reportUe p j u lo hi sinrs blocks
      (x.1, worseStatus acc.2 x.2)
    else acc) (s, status)

/-- The reports of a job that has formed its blocks; a bus error on the SINRs ends it BAD (R239). -/
def State.spaReports (s : State) (req : Nat) (p : SpaPage) (j : EngJob) (status : Nat) (blocks : List (Nat × List (Cplx × Nat)))
    (l : List UeEntry) : State × Nat :=
  let x := s.loadSinrs req p j.wbuf [] (j.prbGroups p.g)
  match x.2 with
  | some sinrs => x.1.reportUes p j status sinrs blocks l
  | none => (x.1, stBAD)

/-- Reads the UE table of a job with REPORT_EN, entry by entry; every clamped entry counts (R229). False after a bus error. -/
def State.readUes (s : State) (req : Nat) (nLayer : Nat) (acc : List UeEntry) (a n : Nat) : State × List UeEntry × Bool :=
  match n with
  | 0 => (s, acc, true)
  | k + 1 =>
    let x := s.readModule req a 8
    match x.2 with
    | some b =>
      let u := ueEntry nLayer b
      (x.1.clampIf u.clamped Reg.SPA_CLAMP_COUNT).readUes req nLayer (acc ++ [u]) (a + 8) k
    | none => (x.1, acc, false)

/-! ## COMBINE and PRECODE -/

/-- The symbols of a job, one after another: reads the inputs of a symbol, forms its blocks and writes them. -/
def spaSymbols (req : Nat) (p : SpaPage) (j : EngJob) (ws : List (Nat × GroupWeights)) (nIn inSize : Nat)
    (dec : List Byte → List Cplx) (nOut : Nat) (enc : List Cplx → List Byte) (f : Nat → GroupWeights → List Cplx → Cplx × Nat)
    (acc : OutAcc) (i : Nat) (l : List Nat) : OutAcc :=
  match l with
  | [] => acc
  | sym :: r =>
    if acc.status = stBAD then acc
    else
      let x := acc.s.readBlocks req (j.w64 4 + i * nIn * inSize) inSize [] nIn
      match x.2 with
      | none => { acc with s := x.1, status := stBAD }
      | some ins =>
        let xs := ins.map dec
        let outs := (List.range nOut).map (fun o => (o, outBlock p j ws xs (f o)))
        spaSymbols req p j ws nIn inSize dec nOut enc f (putStreams req j sym enc { acc with s := x.1 } outs) (i + 1) r

/-- Saturated parts are counted (R234, R243). -/
def State.countSat (s : State) (n : Nat) : State :=
  let s := s.bumpFld Reg.SPA_SAT_COUNT 31 0 n
  if n = 0 then s else s.raise Reg.SPA_EVENT 2

/-- Compute cycles of a COMBINE or PRECODE (R238). -/
def applyCycles (p : SpaPage) (j : EngJob) (report : Bool) : Nat :=
  let re := 12 * j.prbCount * j.symbols.length
  ceilDiv (re * p.n * p.l) 1024 + (if report then ceilDiv (re * p.l) 1024 else 0) + 16

/-- The work of a COMBINE or PRECODE on a VALID buffer (R234, R235, R239). -/
def State.applyWeights (s : State) (kind : Nat) (req : Nat) (p : SpaPage) (j : EngJob) (ues : List UeEntry) : State :=
  let w := s.loadGroups req p j.wbuf [] (j.prbGroups p.g)
  match w.2 with
  | none => w.1.finishJob 0 j stBAD 0
  | some ws =>
    let acc0 : OutAcc := ⟨w.1, stOK, 0, []⟩
    let acc := if kind = 2 then
        spaSymbols req p j ws p.n (blockBytes p.inFmt j.prbCount) (blockDecode p.inFmt) p.l (blockEncode 0)
          (fun l gw xs => combineSample gw p.outShift l xs) acc0 0 j.symbols
      else
        spaSymbols req p j ws p.l (blockBytes 0 j.prbCount) (blockDecode 0) p.n (blockEncode p.outFmt)
          (fun n gw ys => precodeSample gw p.outShift n ys) acc0 0 j.symbols
    let n := (acc.sat.map Prod.snd).sum
    let s := acc.s.countSat n
    let report := kind == 2 && (j.w 0).getLsbD 25 && j.fld 10 31 16 != 0xFFFF && acc.status != stBAD
    let r := if report then s.spaReports req p j acc.status acc.blocks ues else (s, acc.status)
    r.1.finishJob 0 j r.2 n

/-- Block status NO_WEIGHTS (R231, R236). -/
abbrev stNOWGT : Nat := 0x80

/-- COMBINE or PRECODE of the job that starts next, where it is of that kind (R229, R230, R234 to R236, R239). A COMBINE with REPORT_EN
reads the UE table as it starts; a job without a symbol ends OK; one on a buffer that is not VALID ends NO_WEIGHTS. -/
def State.spaApply (s : State) (kind : Nat) : State :=
  match s.spaNext with
  | none => s
  | some (j, t) =>
    if j.kind != kind then s
    else
      let s := s.runJob 0 j t
      let valid := (s.wbuf j.wkey).state == 1
      let lw := s.jobLatch j
      let p := spaPage lw
      let req := tileRequester t
      let ueEn := kind == 2 && (j.w 0).getLsbD 25
      let u := if ueEn then s.readUes req p.l [] (setWord64 lw 5 0) (Machine.setFld lw 5 2 31 23) else (s, [], true)
      let j := { j with running := true, place := t, clamped := j.clamped || u.2.1.any (·.clamped) }
      if j.symbols.isEmpty then (u.1.tileBusy t (applyCycles p j ueEn)).finishJob 0 j stOK 0
      else if !u.2.2 then u.1.finishJob 0 j stBAD 0
      else if !valid then u.1.finishJob 0 j stNOWGT 0
      else (u.1.tileBusy t (applyCycles p j ueEn)).applyWeights kind req p j u.2.1

def execCombine (s : State) : Res := s.whenClocked fun s => .next (s.spaApply 2)
def execPrecode (s : State) : Res := s.whenClocked fun s => .next (s.spaApply 3)

/-! ## Job commands -/

/-- SPA_JOB (R230, R231). -/
def execSpaJob (d : Desc) (s : State) : Res := s.whenClocked fun s => .next (s.jobDesc 0 d spaTake)

/-- A buffer's state at the end of its ESTW (R236). -/
def State.closeWbuf (s : State) (j : EngJob) (status : Nat) : State :=
  if j.kind = 1 then
    s.setWbuf j.wkey { s.wbuf j.wkey with state := if status = stOK ∨ status = stTIMEOUT then 1 else 3 }
  else s

/-- A job that ends NO_WEIGHTS is counted (R236). -/
def State.noteNoWeights (s : State) (status : Nat) : State :=
  if status = stNOWGT then (s.bump Reg.SPA_NOWGT).raise Reg.SPA_EVENT 0 else s

/-- SPA_JOB_END (R231, R236). (DESIGN CHOICE, log entry 4) -/
def execSpaJobEnd (job : Nat) (s : State) : Res := s.whenClocked fun s =>
  match s.jobOf 0 job with
  | some j => if j.finished then .next (((s.closeWbuf j j.status).noteNoWeights j.status).endJob 0 j j.status j.specific) else .next s
  | none => .next s

/-- An aborted running ESTW leaves its buffer INVALID; open items do not outlast a command (R241). -/
def spaUndo (s : State) (j : EngJob) : State := s.closeWbuf j stABORTED

def execSpaAbort (d : Desc) (s : State) : Res := s.whenClocked fun s => .next (s.jobAbort 0 d spaUndo)
def execSpaDisable (d : Desc) (s : State) : Res := s.whenClocked fun s => .next (s.ctrlDisable 0 d)
def execSpaEnable (d : Desc) (s : State) : Res := s.whenClocked fun s => .next (s.ctrlEnable 0 d)

/-- SPA_STATUS (R243). -/
def State.spaStatus (s : State) : W32 :=
  let x := s.engine 0
  let run := (x.jobs.filter (·.running)).length
  BitVec.ofNat 32 ((x.jobs.length - run) * 2 ^ 16 + run * 2 ^ 12 + b2n (!x.enable && decide (0 < run)) * 2 ^ 8 + b2n x.enable * 8
    + ((List.range 3).map (fun g => b2n (s.groupInService 0 g) * 2 ^ g)).sum)

/-- SPA_TILE_JOB_t (R243). -/
def State.tileJob (s : State) (t : Nat) : W32 :=
  match (s.engine 0).jobs.find? (fun j => j.running && j.place == t) with
  | some j => BitVec.ofNat 32 (j.kind * 2 ^ 18 + halfNum j.half * 2 ^ 16 + j.carrier)
  | none => 0xFFFF#32

/-- The buffer a SPA_WBUF register shows (R243). -/
def State.selWbuf (s : State) (w : Nat) : WBuf :=
  s.wbuf (wbufKey (s.fld Reg.SPA_WBUF_SEL 8 0) (halfField (s.fld Reg.SPA_WBUF_SEL 10 9)) w)

end Sys2Proof.Machine
end

