-- ==== Sys2Proof/Machine/CodeBits.lean ====
section
/-! DEFINITION. Bits of the Coding engine that no code table decides (R245, R251, R252, R256): segmentation, CRCs, filler
bits, the circular buffer, bit interleaving, scrambling and soft values. The manual names TS 38.212, TS 36.212 and the Gold
sequence for them; what it takes from there stands in log entry 95. -/

namespace Sys2Proof.Machine

/-! ## Segmentation (TS 38.212 5.2.2 and TS 36.212 5.1.2, which R245 names) -/

/-- The 51 lifting sizes. (PRESUMED, log entry 95) -/
def liftingSizes : List Nat :=
  ([2, 3, 5, 7, 9, 11, 13, 15].flatMap (fun a => (List.range 8).map (fun j => a * 2 ^ j))).filter (· ≤ 384)

/-- What segmentation of a transport block gives: CRC bits, code blocks, bits of a code block with CRC, lifting size or
turbo size, and the length of the circular buffer. -/
structure Segs where
  crc : Nat
  c : Nat
  k' : Nat
  z : Nat
  n : Nat
  deriving DecidableEq, Repr

def leastAbove (n : Nat) (l : List Nat) : Nat := l.foldl (fun b x => if n ≤ x ∧ (x < b ∨ b = 0) then x else b) 0

/-- (PRESUMED, log entry 95) -/
def ldpcSegs (bg2 : Bool) (a : Nat) : Segs :=
  let l := if 3824 < a then 24 else 16
  let b := a + l
  let kcb := if bg2 then 3840 else 8448
  let c := if b ≤ kcb then 1 else ceilDiv b (kcb - 24)
  let b' := if c = 1 then b else b + 24 * c
  let k' := b' / c
  let kb := if !bg2 then 22 else if 640 < b then 10 else if 560 < b then 9 else if 192 < b then 8 else 6
  let z := leastAbove (ceilDiv k' kb) liftingSizes
  { crc := l, c := c, k' := k', z := z, n := (if bg2 then 50 else 66) * z }

/-- The 188 sizes of a turbo code block. (PRESUMED, log entry 95) -/
def turboSizes : List Nat :=
  (List.range 60).map (fun i => 40 + 8 * i) ++ (List.range 32).map (fun i => 528 + 16 * i)
    ++ (List.range 32).map (fun i => 1056 + 32 * i) ++ (List.range 64).map (fun i => 2112 + 64 * i)

/-- (PRESUMED, log entry 95) -/
def turboSegs (a : Nat) : Segs :=
  let b := a + 24
  let c := if b ≤ 6144 then 1 else ceilDiv b 6120
  let b' := if c = 1 then b else b + 24 * c
  let k := leastAbove (ceilDiv b' c) turboSizes
  { crc := 24, c := c, k' := k, z := k, n := 3 * (ceilDiv (k + 4) 32 * 32) }

/-- The size below a turbo size, and how many code blocks take it (TS 36.212 5.1.2). -/
def turboSmall (s : Segs) (a : Nat) : Nat × Nat :=
  let b' := if s.c = 1 then a + 24 else a + 24 + 24 * s.c
  let lo := (turboSizes.filter (· < s.k')).foldl max 0
  if s.c = 1 || lo = 0 then (s.k', 0) else (lo, (s.c * s.k' - b') / (s.k' - lo))

/-- Bits of turbo code block `r`. -/
def turboK (s : Segs) (a r : Nat) : Nat := let x := turboSmall s a; if r < x.2 then x.1 else s.k'

/-- Filler bits at the start of a turbo block 0. -/
def turboFill (s : Segs) (a : Nat) : Nat :=
  let x := turboSmall s a
  let b' := if s.c = 1 then a + 24 else a + 24 + 24 * s.c
  x.2 * x.1 + (s.c - x.2) * s.k' - b'

/-- Code blocks of a polar payload: two where the engine segments it (TS 38.212 6.3.1.2, which R245 names). -/
def polarBlocks (a e : Nat) : Nat := if 1013 ≤ a ∨ (360 ≤ a ∧ 1088 ≤ e) then 2 else 1

/-- Remainder of a bit sequence under a CRC polynomial of `len` bits, without its leading term. (PRESUMED, log entry 95) -/
def crcRem (len poly : Nat) (l : List Bool) : Nat :=
  l.foldl (fun r b => let v := 2 * r + b2n b; if 2 ^ len ≤ v then v ^^^ (2 ^ len + poly) else v) 0

def crc24A : List Bool → Nat := crcRem 24 0x864CFB
def crc24B : List Bool → Nat := crcRem 24 0x800063
def crc16 : List Bool → Nat := crcRem 16 0x1021

/-! ## Scrambling (R245) -/

/-- One step of the two registers of the length-31 Gold sequence. (PRESUMED, log entry 95) -/
def goldStep (x : Nat × Nat) : Nat × Nat :=
  let t := fun (v i : Nat) => v.testBit i
  (x.1 / 2 + b2n (Bool.xor (t x.1 3) (t x.1 0)) * 2 ^ 30,
   x.2 / 2 + b2n (Bool.xor (Bool.xor (t x.2 3) (t x.2 2)) (Bool.xor (t x.2 1) (t x.2 0))) * 2 ^ 30)

def goldSkip (n : Nat) (x : Nat × Nat) : Nat × Nat :=
  match n with
  | 0 => x
  | k + 1 => goldSkip k (goldStep x)

def goldTake (n : Nat) (x : Nat × Nat) : List Bool :=
  match n with
  | 0 => []
  | k + 1 => Bool.xor (x.1.testBit 0) (x.2.testBit 0) :: goldTake k (goldStep x)

/-- Bits `off` to `off + n - 1` of the scrambling sequence of c_init, with N_C = 1,600 (R245). -/
def scrBits (init off n : Nat) : List Bool := goldTake n (goldSkip (1600 + off) (1, init))

/-! ## Bit interleaving (R252, R256) -/

/-- The first entries of the rows, then the second ones, and so on `n` times. -/
def transposed {α : Type} (n : Nat) (rows : List (List α)) : List α :=
  match n with
  | 0 => []
  | k + 1 => rows.filterMap List.head? ++ transposed k (rows.map List.tail)

/-- Interleaving by `qm`, and its reverse (TS 38.212 5.4.2.2). (PRESUMED, log entry 95) -/
def interleaved {α : Type} (qm : Nat) (l : List α) : List α := transposed (l.length / qm) (chunks l.length (l.length / qm) l)
def deinterleaved {α : Type} (qm : Nat) (l : List α) : List α := transposed qm (chunks l.length qm l)

/-! ## The circular buffer (R252, R256) -/

/-- A code block as rate matching sees it: bits with CRC and filler, filler bits, lifting size, length of the circular buffer
and where the redundancy version starts. -/
structure CodeBlock where
  turbo : Bool
  k : Nat
  fill : Nat
  z : Nat
  ncb : Nat
  k0 : Nat
  deriving DecidableEq, Repr

/-- What a position of the circular buffer holds: a filler bit, nothing, a bit of the block, or a bit the code adds. -/
inductive Cell where
  | filler | void | sys (i : Nat) | parity
  deriving DecidableEq, Repr

/-- Column permutation of the turbo sub-block interleaver (TS 36.212 5.1.4.1.1). (PRESUMED, log entry 95) -/
def turboColumns : List Nat :=
  [0, 16, 8, 24, 4, 20, 12, 28, 2, 18, 10, 26, 6, 22, 14, 30, 1, 17, 9, 25, 5, 21, 13, 29, 3, 19, 11, 27, 7, 23, 15, 31]

/-- Rows of the sub-block interleaver. -/
def CodeBlock.rows (b : CodeBlock) : Nat := ceilDiv (b.k + 4) 32

/-- Stream and bit at a position of the turbo buffer; none at a dummy position. -/
def CodeBlock.turboAt (b : CodeBlock) (p : Nat) : Option (Nat × Nat) :=
  let r := b.rows
  let kp := 32 * r
  let at' := fun (q : Nat) => q % r * 32 + turboColumns.getD (q / r) 0
  let q := (p - kp) / 2
  let x := if p < kp then (0, at' p) else if (p - kp) % 2 = 0 then (1, at' q) else (2, (turboColumns.getD (q / r) 0 + 32 * (q % r) + 1) % kp)
  let dummy := kp - (b.k + 4)
  if x.2 < dummy then none else some (x.1, x.2 - dummy)

/-- What position `p` holds: an LDPC buffer starts behind the 2Z punctured bits, with filler at the end of the block's bits; a
turbo block's filler stands at its start. (PRESUMED, log entry 95) -/
def CodeBlock.cell (b : CodeBlock) (p : Nat) : Cell :=
  if b.turbo then
    match b.turboAt p with
    | none => .void
    | some (st, i) => if st < 2 ∧ i < b.fill then .filler else if st = 0 ∧ i < b.k then .sys i else .parity
  else
    let q := p + 2 * b.z
    if q < b.k - b.fill then .sys q else if q < b.k then .filler else .parity

def Cell.sent (c : Cell) : Bool := match c with | .sys _ => true | .parity => true | _ => false

/-- The cells in the order of transmission, from k0 around; those that are not sent are passed over. -/
def CodeBlock.around (b : CodeBlock) : List (Nat × Cell) :=
  let l := ((List.range b.ncb).map (fun p => (p, b.cell p))).filter (·.2.sent)
  l.filter (fun x => decide (b.k0 ≤ x.1)) ++ l.filter (fun x => decide (x.1 < b.k0))

/-- The first `n` of a list gone round and round. -/
def takeRound {α : Type} (fuel n : Nat) (l : List α) : List α :=
  match fuel with
  | 0 => []
  | f + 1 => if n ≤ l.length then l.take n else l ++ takeRound f (n - l.length) l

/-- One past the highest position that `e` coded bits reach (R244). -/
def CodeBlock.high (b : CodeBlock) (e : Nat) : Nat := (b.around.take e).foldl (fun h x => max h (x.1 + 1)) 0

/-! ## Encoding (R256) -/

/-- Coded bits of a block from its bits: E bits selected around the buffer. The bits the code adds are `parity`, by position. -/
def CodeBlock.select (b : CodeBlock) (e : Nat) (msg : List Bool) (parity : Nat → Bool) : List Bool :=
  let m := msg.toArray
  takeRound (e + 1) e (b.around.map (fun x => match x.2 with | .sys i => m.getD i false | _ => parity x.1))

/-! ## Soft values (R251, R252) -/

/-- Sums of soft values saturate (R251). -/
def satSoft (x : Int) : Int := if x < -127 then -127 else if 127 < x then 127 else x

/-- Adds a run of entries, the rest of the sums staying. -/
def addSoft (acc l : List Int) : List Int :=
  match acc, l with
  | a :: r, x :: t => satSoft (a + x) :: addSoft r t
  | acc, _ => acc

/-- Adds entries round after round. -/
def addRounds (fuel : Nat) (acc l : List Int) : List Int :=
  match fuel with
  | 0 => acc
  | f + 1 => if l.isEmpty then acc else addRounds f (addSoft acc l) (l.drop acc.length)

/-- Value of an 8-bit LLR (R251). -/
def llrOfByte (b : Byte) : Int := let v := signedOf 8 b.toNat; if v = -128 then -127 else v

/-- Value of a 4-bit code under a table, and the code of a value: the greatest entry at or below its magnitude, and its sign. -/
def llrOfCode (tab : List Nat) (c : Nat) : Int := if c.testBit 3 then -(tab.getD (c % 8) 0 : Int) else (tab.getD (c % 8) 0 : Int)
def codeOfLlr (tab : List Nat) (v : Int) : Nat :=
  b2n (decide (v < 0)) * 8 + ((List.range 8).filter (fun i => decide (tab.getD i 0 ≤ v.natAbs))).foldl max 0

/-- Two codes to a byte, the even one low (R251). -/
def codesOfBytes (l : List Byte) : List Nat := l.flatMap (fun b => [b.toNat % 16, b.toNat / 16])
/-- (PRESUMED, log entry 95) -/
def bytesOfCodes (l : List Nat) : List Byte :=
  match l with
  | a :: c :: r => BitVec.ofNat 8 (a + 16 * c) :: bytesOfCodes r
  | [a] => [BitVec.ofNat 8 a]
  | [] => []

/-- Puts the sums back in the order of positions: filler positions hold +127, positions that hold nothing 0. -/
def CodeBlock.spread (b : CodeBlock) (ps : List Nat) (v : List Int) : List Int :=
  match ps with
  | [] => []
  | p :: r =>
    match b.cell p with
    | .filler => 127 :: b.spread r v
    | .void => 0 :: b.spread r v
    | _ => v.headD 0 :: b.spread r v.tail

/-- Soft values of all positions: the entries of a transmission placed from k0 around, repeats summed, then what the buffer
held added (R252). (PRESUMED, log entry 95) -/
def CodeBlock.soft (b : CodeBlock) (l stored : List Int) : List Int :=
  let ps := b.around.map Prod.fst
  let sums := addRounds l.length (List.replicate ps.length 0) l
  let a := (ps.filter (fun p => decide (b.k0 ≤ p))).length
  let ups := ((List.range b.ncb).zip (stored ++ List.replicate (b.ncb - stored.length) 0)).filter (fun x => (b.cell x.1).sent)
  b.spread (List.range b.ncb) (addSoft (sums.drop a ++ sums.take a) (ups.map Prod.snd))

end Sys2Proof.Machine
end

