-- ==== Sys2Proof/Machine/Polar.lean ====
section
/-! DEFINITION. The polar chain and the turbo encoder of the Coding engine (R245, R249, R256). The manual names TS 38.212 and TS 36.212 for
them; what it takes from there stands in log entry 95. Their tables (the polar sequence, the input interleaver, the turbo
interleaver's parameters) stand in neither: they are free values. -/

namespace Sys2Proof.Machine

/-! ## Turbo encoder (TS 36.212 5.1.3.2) -/

/-- One step of a constituent encoder, registers newest first: the parity bit. (PRESUMED, log entry 95) -/
def rscStep (s : Bool × Bool × Bool) (x : Bool) : (Bool × Bool × Bool) × Bool :=
  let a := Bool.xor x (Bool.xor s.2.1 s.2.2)
  ((a, s.1, s.2.1), Bool.xor a (Bool.xor s.1 s.2.2))

/-- Parity bits of a constituent encoder, then its three tail pairs: bit fed and parity. (PRESUMED, log entry 95) -/
def rscRun (s : Bool × Bool × Bool) (l : List Bool) : List Bool × List (Bool × Bool) :=
  match l with
  | [] =>
    let tail := fun (s : Bool × Bool × Bool) => let x := Bool.xor s.2.1 s.2.2; let r := rscStep s x; (r.1, (x, r.2))
    let a := tail s
    let b := tail a.1
    let c := tail b.1
    ([], [a.2, b.2, c.2])
  | x :: r =>
    let y := rscStep s x
    let z := rscRun y.1 r
    (y.2 :: z.1, z.2)

/-- The three output streams of the turbo encoder, each of K + 4 bits. (PRESUMED, log entry 95) -/
def turboStreams (msg : List Bool) : List (List Bool) :=
  let k := msg.length
  let f := Config.qpp k
  let m := msg.toArray
  let p := rscRun (false, false, false) msg
  let q := rscRun (false, false, false) ((List.range k).map (fun i => m.getD ((f.1 * i + f.2 * i * i) % k) false))
  let x := fun (t : List (Bool × Bool)) i => (t.getD i (false, false)).1
  let z := fun (t : List (Bool × Bool)) i => (t.getD i (false, false)).2
  [msg ++ [x p.2 0, z p.2 1, x q.2 0, z q.2 1], p.1 ++ [z p.2 0, x p.2 2, z q.2 0, x q.2 2],
   q.1 ++ [x p.2 1, z p.2 2, x q.2 1, z q.2 2]]

/-- The bit at position `p` of a code block's circular buffer that the code adds (R256): of an LDPC block a free value, since the base
graphs stand in neither text. (DESIGN CHOICE, log entry 13) -/
def CodeBlock.added (b : CodeBlock) (bg2 : Bool) (msg : List Bool) : Nat → Bool :=
  if b.turbo then
    let d := (turboStreams msg).map List.toArray
    fun p => match b.turboAt p with
      | some (st, i) => (d.getD st #[]).getD i false
      | none => false
  else fun p => Config.ldpcParity bg2 b.z msg (p + 2 * b.z)

/-! ## Polar codes (TS 38.212 5.1, 5.2.1, 5.3.1, 5.4.1) -/

/-- The sub-block interleaver's pattern. (PRESUMED, log entry 95) -/
def polarSub : List Nat :=
  [0, 1, 2, 4, 3, 5, 6, 7, 8, 16, 9, 17, 10, 18, 11, 19, 12, 20, 13, 21, 14, 22, 15, 23, 24, 25, 26, 28, 27, 29, 30, 31]

/-- Where bit `n` of the sub-block interleaver's output comes from, of `len` bits. (PRESUMED, log entry 95) -/
def polarJ (len n : Nat) : Nat := polarSub.getD (32 * n / len) 0 * (len / 32) + n % (len / 32)

/-- A polar code: payload bits with CRC, coded bits, length of the mother code, and the parity-check bits and those of them placed by row
weight. -/
structure PolarCode where
  k : Nat
  e : Nat
  n : Nat
  pc : Nat
  wm : Nat
  deriving DecidableEq, Repr

/-- Punctured, shortened or repeated (TS 38.212 5.4.1.2). (PRESUMED, log entry 95) -/
def PolarCode.punctures (c : PolarCode) : Bool := decide (c.e < c.n ∧ 16 * c.k ≤ 7 * c.e)
def PolarCode.shortens (c : PolarCode) : Bool := decide (c.e < c.n ∧ 7 * c.e < 16 * c.k)

/-- Positions that rate matching freezes (TS 38.212 5.4.1.1). (PRESUMED, log entry 95) -/
def PolarCode.preFrozen (c : PolarCode) : List Nat :=
  if c.punctures then
    (List.range (c.n - c.e)).map (polarJ c.n)
      ++ List.range (if 3 * c.n ≤ 4 * c.e then ceilDiv (3 * c.n - 2 * c.e) 4 else ceilDiv (9 * c.n - 4 * c.e) 16)
  else if c.shortens then (List.range (c.n - c.e)).map (fun i => polarJ c.n (c.e + i))
  else []

/-- The positions that carry bits, least reliable first. (PRESUMED, log entry 95) -/
def PolarCode.info (c : PolarCode) : List Nat :=
  let frozen := c.preFrozen
  let l := (Config.polarOrder c.n).filter (fun i => decide (i < c.n) && !frozen.contains i)
  l.drop (l.length - (c.k + c.pc))

/-- Ones of a number's binary form: a row of the transform has 2 to that power ones. -/
def onesOf (v : Nat) : Nat := ((List.range 16).filter v.testBit).length

/-- The parity-check positions: the least reliable ones, and of the others the one of least row weight that is most reliable.
(PRESUMED, log entry 95) -/
def PolarCode.checks (c : PolarCode) : List Nat :=
  let l := c.info
  let best := (l.drop c.pc).foldl (fun b i => match b with
    | none => some i
    | some j => if onesOf i ≤ onesOf j then some i else some j) (none : Option Nat)
  l.take (c.pc - c.wm) ++ (if c.wm = 0 then [] else best.toList)

/-- The registers of the parity checks, turned by one. -/
def turned (y : List Bool) : List Bool := y.drop 1 ++ y.take 1

/-- The bits before the transform: `msg` at the positions that carry bits, the parity checks between them, 0 elsewhere.
(PRESUMED, log entry 95) -/
def polarPlace (info checks : List Nat) (y : List Bool) (msg : List Bool) (l : List Nat) : List Bool :=
  match l with
  | [] => []
  | i :: r =>
    let y := turned y
    if checks.contains i then y.headD false :: polarPlace info checks y msg r
    else if info.contains i then
      let b := msg.headD false
      b :: polarPlace info checks (Bool.xor (y.headD false) b :: y.drop 1) msg.tail r
    else false :: polarPlace info checks y msg r

/-- The polar transform of 2^m bits. (PRESUMED, log entry 95) -/
def polarTransform (m : Nat) (u : List Bool) : List Bool :=
  match m with
  | 0 => u
  | k + 1 =>
    let a := u.take (2 ^ k)
    let b := u.drop (2 ^ k)
    polarTransform k ((a.zip b).map (fun x => Bool.xor x.1 x.2)) ++ polarTransform k b

/-- The code word of the bits with CRC. -/
def PolarCode.word (c : PolarCode) (msg : List Bool) : List Bool :=
  polarTransform c.n.log2 (polarPlace c.info c.checks (List.replicate 5 false) msg (List.range c.n))

/-- Where each coded bit comes from in the code word, before the interleaving of coded bits. (PRESUMED, log entry 95) -/
def PolarCode.sources (c : PolarCode) : List Nat :=
  (List.range c.e).map (fun k =>
    polarJ c.n (if c.n ≤ c.e then k % c.n else if c.punctures then k + c.n - c.e else k))

/-- Side of the triangle of `e` bits. -/
def triangleSide (e : Nat) : Nat := ((List.range (e + 1)).find? (fun t => decide (e ≤ t * (t + 1) / 2))).getD 0

/-- The order in which coded-bit interleaving sends `e` bits: rows of a triangle filled, its columns read.
(PRESUMED, log entry 95) -/
def triangleOrder (e : Nat) : List Nat :=
  let t := triangleSide e
  (List.range t).flatMap (fun col => ((List.range (t - col)).map (fun row => row * t - row * (row - 1) / 2 + col)).filter (· < e))

/-- What one coded bit after another comes from in the code word. -/
def PolarCode.order (c : PolarCode) (ibil : Bool) : List Nat :=
  let s := c.sources
  if ibil then (triangleOrder c.e).map (fun i => s.getD i 0) else s

/-- Input interleaving of `k` bits: the pattern's entries that fall into the last `k` of 164. (PRESUMED, log entry 95) -/
def inputOrder (iil : Bool) (k : Nat) : List Nat :=
  if iil then (Config.polarIl.filter (fun v => decide (164 - k ≤ v ∧ v < 164))).map (· - (164 - k)) else List.range k

/-- CRC of a polar payload by its length, with the RNTI in the last 16 bits of a CRC of 24 (R249). (PRESUMED, log entry 95) -/
def polarCrcOf (len rnti : Nat) (l : List Bool) : Nat :=
  let p := l ++ List.replicate len false
  if len = 6 then crcRem 6 0x21 p else if len = 11 then crcRem 11 0x621 p else crcRem 24 0xB2B117 p ^^^ rnti

/-- Soft values of the code word from the entries received: punctured bits 0, shortened ones +127, repetitions summed (R251).
(PRESUMED, log entry 95) -/
def PolarCode.soft (c : PolarCode) (order : List Nat) (l : List Int) : List Int :=
  let start := fun i => if c.shortens && ((List.range (c.n - c.e)).any (fun k => polarJ c.n (c.e + k) == i)) then 127 else 0
  (order.zip l).foldl (fun a x => a.set x.1 (satSoft (a.getD x.1 0 + x.2))) ((List.range c.n).map start)

/-- Sum of the magnitudes of the soft values that a code word contradicts (R257). -/
def contradicted (word : List Bool) (soft : List Int) : Nat :=
  ((word.zip soft).map (fun x => if (x.1 && decide (0 < x.2)) || (!x.1 && decide (x.2 < 0)) then x.2.natAbs else 0)).sum

/-- A path of the decoder: its bits with CRC, and its metric. -/
structure PolarPath where
  msg : List Bool
  metric : Nat

/-- The 8 paths the decoder keeps (R256). Which paths survive is not stated beyond that: their bits are free values, and their metrics
follow from them. (DESIGN CHOICE, log entry 13) -/
def PolarCode.paths (c : PolarCode) (soft : List Int) : List PolarPath :=
  (List.range 8).map (fun i =>
    let m := (List.range c.k).map (Config.polarPath c.info soft i)
    ⟨m, contradicted (c.word m) soft⟩)

/-- The path of smallest metric. -/
def bestPath (l : List PolarPath) : Option PolarPath :=
  l.foldl (fun b p => match b with
    | none => some p
    | some q => if p.metric < q.metric then some p else some q) none

/-- Undoes the input interleaving. -/
def uninterleaved (order : List Nat) (l : List Bool) : List Bool :=
  (List.range l.length).map (fun i => match (order.zip l).find? (·.1 == i) with | some x => x.2 | none => false)

end Sys2Proof.Machine
end

