-- ==== Sys2Proof/Machine/Coding.lean ====
section
/-! DEFINITION. The Coding engine (R244 to R264). What 3GPP TS 38.212 and TS 36.212 tabulate and this manual does not
(base graphs, turbo interleavers, polar sequences), and how a decoder iterates, are free values that the chain is computed from.
Segmentation, CRCs, encoding, rate matching, scrambling, soft combining, stopping, buffers, results and scheduling are computed. -/

namespace Sys2Proof.Machine

/-! ## Records -/

def codKindLdpc (k : Nat) : Bool := k == 1 || k == 2
def codKindTurbo (k : Nat) : Bool := k == 3 || k == 4
def codKindPolar (k : Nat) : Bool := k == 5 || k == 6

/-- QM as coded bits (R248). -/
def qmBits (v : Nat) : Nat := match v with | 0 => 1 | 1 => 2 | 2 => 4 | 3 => 6 | 4 => 8 | _ => 10

def segsOf (kind : Nat) (bg2 : Bool) (a : Nat) : Segs := if codKindLdpc kind then ldpcSegs bg2 a else turboSegs a

/-- TBS as taken: at least 24, else the largest value at or below it that is a multiple of 8 and, for LDPC, makes B′ a
multiple of C (R248). -/
def takeTbs (kind : Nat) (bg2 : Bool) (a : Nat) : Nat :=
  if a < 24 then 24
  else
    let top := a / 8 * 8
    let ok := fun (x : Nat) =>
      let s := ldpcSegs bg2 x
      let b' := if s.c = 1 then x + s.crc else x + s.crc + 24 * s.c
      b' % s.c == 0
    if codKindLdpc kind then
      match (List.range 4096).find? (fun i => ok (top - 8 * i)) with
      | some i => max 24 (top - 8 * i)
      | none => top
    else top

/-- CRC length and payload range of a polar CRC field (R249). -/
def polarCrc (v : Nat) : Nat × Nat × Nat := if v = 0 then (6, 12, 19) else if v = 1 then (11, 20, 1706) else (24, 1, 140)

def clampTo (lo hi v : Nat) : Nat := if v < lo then lo else if hi < v then hi else v

/-- Words 0x20 and 0x24 of a job as taken, with its code blocks (R248, R249). -/
def codSizes (kind : Nat) (w8 w9 : W32) : W32 × W32 × Nat :=
  if codKindPolar kind then
    let crc := min 2 (bitsOf w8 31 30)
    let p := polarCrc crc
    let a := clampTo p.2.1 p.2.2 (bitsOf w8 10 0)
    let e := clampTo (a + p.1) 8192 (bitsOf w9 13 0)
    (setBitsOf (setBitsOf w8 31 30 crc) 10 0 a, setBitsOf w9 13 0 e, polarBlocks a e)
  else
    let qm := min 5 (bitsOf w8 25 22)
    let a := takeTbs kind (bitOf w8 30) (bitsOf w8 21 0)
    let s := segsOf kind (bitOf w8 30) a
    let u := (bitsOf w8 29 28 + 1) * qmBits qm
    let g := max (bitsOf w9 21 0 / u * u) (u * s.c)
    (setBitsOf (setBitsOf w8 25 22 qm) 21 0 a, setBitsOf w9 21 0 g, s.c)

/-- A Coding job record as the engine takes it (R248, R249). -/
def codTake (w : List W32) : Taken :=
  let w0 := w.headD 0
  let k := bitsOf w0 31 28
  let kind := if 6 < k then 0 else k
  let h := bitsOf w0 27 26
  let x := codSizes kind (w.getD 8 0) (w.getD 9 0)
  let ra := w.getD 14 0
  let sized := kind != 0 && (x.1 != w.getD 8 0 || x.2.1 != w.getD 9 0)
  { words := if kind = 0 then w else ((w.set 8 x.1).set 9 x.2.1).set 14 (setBitsOf ra 4 0 0),
    clamped := kind != k || halfClamped h || sized || (kind != 0 && bitsOf ra 4 0 != 0),
    kind := kind, half := halfField h, blocks := if kind = 0 then 0 else x.2.2 }

/-! Fields of a job (R248, R249). -/
def EngJob.tbs (j : EngJob) : Nat := if codKindPolar j.kind then j.fld 8 10 0 else j.fld 8 21 0
def EngJob.gBits (j : EngJob) : Nat := if codKindPolar j.kind then j.fld 9 13 0 else j.fld 9 21 0
def EngJob.bg2 (j : EngJob) : Bool := bitOf (j.w 8) 30
def EngJob.rv (j : EngJob) : Nat := j.fld 8 27 26
def EngJob.isNew (j : EngJob) : Bool := (j.w 0).getLsbD 25
def EngJob.hqEn (j : EngJob) : Bool := (j.kind == 1 || j.kind == 3) && (j.w 13).getLsbD 31
def EngJob.segs (j : EngJob) : Segs := segsOf j.kind j.bg2 j.tbs
def EngJob.nlqm (j : EngJob) : Nat := (j.fld 8 29 28 + 1) * qmBits (j.fld 8 25 22)

/-- E_r: the coded bits of code block `r` (TS 38.212 5.4.2.1, TS 36.212 5.1.4.1.2). -/
def EngJob.eBits (j : EngJob) (r : Nat) : Nat :=
  if codKindPolar j.kind then j.gBits / j.cod.blocks
  else
    let g := j.gBits / j.nlqm
    let c := j.cod.blocks
    j.nlqm * (if r + g % c < c then g / c else g / c + 1)

/-- Coded bits before block `r`. -/
def EngJob.eOffset (j : EngJob) (r : Nat) : Nat := ((List.range r).map j.eBits).sum

/-- Bits of code block `r` with its CRCs. -/
def EngJob.blockBits (j : EngJob) (r : Nat) : Nat := if codKindTurbo j.kind then turboK j.segs j.tbs r else j.segs.k'
/-- Filler bits that stand at its start: a turbo job's first block has them there. -/
def EngJob.frontFill (j : EngJob) (r : Nat) : Nat := if codKindTurbo j.kind && r == 0 then turboFill j.segs j.tbs else 0
/-- Bits of the transport block with its CRC that block `r` carries. -/
def EngJob.share (j : EngJob) (r : Nat) : Nat := j.blockBits r - j.frontFill r - (if j.cod.blocks = 1 then 0 else 24)

/-! ## Pages and soft buffers -/

/-- Page U6 or D6 (R246). -/
structure CodPage where
  hqCount : Nat
  bufLog2 : Nat
  iterDef : Nat
  etCrc : Bool
  llr4 : Bool
  offsetMib : Nat
  nref : Nat
  deriving DecidableEq, Repr

def codPage (w : SetWords) : CodPage :=
  let f := fun i hi lo => setFld w 6 i hi lo
  { hqCount := f 0 31 16, bufLog2 := max 16 (f 0 15 11), iterDef := if f 0 10 6 = 0 then 8 else f 0 10 6, etCrc := f 0 5 5 = 1,
    llr4 := f 0 4 4 = 1, offsetMib := f 1 16 0, nref := f 2 14 0 }

/-- Start and length of the HARQ region in bytes (R247). -/
def State.harqBase (s : State) : Nat := s.fld Reg.COD_HARQ_BASE 8 0 * 2 ^ 30
def State.harqSize (s : State) : Nat := s.fld Reg.COD_HARQ_SIZE 6 0 * 2 ^ 30

/-- HQ_OFFSET_MIB and HQ_COUNT clamped against the region (R247): the two words of the page, and whether one was clamped.
(DEDUCED, log entry 34) -/
def State.clampHarq (s : State) (w0 w1 : W32) : W32 × W32 × Bool :=
  let off := bitsOf w1 16 0
  let off' := if s.harqSize ≤ off * 2 ^ 20 then 0 else off
  let room := (s.harqSize - off' * 2 ^ 20) / 2 ^ (clampTo 16 24 (bitsOf w0 15 11))
  let n := min (bitsOf w0 31 16) room
  (setBitsOf w0 31 16 n, setBitsOf w1 16 0 off', off' != off || n != bitsOf w0 31 16)

/-- HQ_ID as taken, none where the half has no buffer (R248). -/
def EngJob.hqId (j : EngJob) (p : CodPage) : Option Nat :=
  if j.hqEn && p.hqCount != 0 then some (j.fld 13 15 0 % p.hqCount) else none

/-- A buffer field of the job was clamped: HQ_ID beyond the half's buffers, or HQ_EN with none (R248). (DEDUCED, log entry 34) -/
def EngJob.hqClamped (j : EngJob) (p : CodPage) : Bool := j.hqEn && decide (p.hqCount ≤ j.fld 13 15 0)

/-- Address of the job's soft buffer (R247). -/
def State.hqAddr (s : State) (j : EngJob) (p : CodPage) : Option Nat :=
  (j.hqId p).map (fun h => s.harqBase + p.offsetMib * 2 ^ 20 + h * 2 ^ p.bufLog2)

def EngJob.ncb (j : EngJob) (p : CodPage) : Nat := if p.nref = 0 then j.segs.n else min j.segs.n p.nref
/-- STRIDE of the code-block slots (R253). -/
def EngJob.stride (j : EngJob) (p : CodPage) : Nat := 64 + ceilDiv (j.ncb p) 128 * 64
/-- The slot of block `r` fits in the buffer (R253). -/
def EngJob.slotFits (j : EngJob) (p : CodPage) (r : Nat) : Bool := decide (64 + (r + 1) * j.stride p ≤ 2 ^ p.bufLog2)

/-- Code block `r` as rate matching sees it (TS 38.212 5.4.2.1, TS 36.212 5.1.4.1.2). (PRESUMED, log entry 95) -/
def EngJob.block (j : EngJob) (p : CodPage) (r : Nat) : CodeBlock :=
  let cap := fun n => if p.nref = 0 then n else min n p.nref
  if codKindTurbo j.kind then
    let k := j.blockBits r
    let rows := ceilDiv (k + 4) 32
    let ncb := cap (96 * rows)
    { turbo := true, k := k, fill := j.frontFill r, z := 0, ncb := ncb, k0 := rows * (2 * ceilDiv ncb (8 * rows) * j.rv + 2) % ncb }
  else
    let sg := j.segs
    let k := (if j.bg2 then 10 else 22) * sg.z
    let ncb := cap sg.n
    let t := if j.bg2 then [0, 13, 25, 43].getD j.rv 0 else [0, 17, 33, 56].getD j.rv 0
    { turbo := false, k := k, fill := k - sg.k', z := sg.z, ncb := ncb, k0 := t * ncb / sg.n * sg.z }

/-- One past the highest position that holds a soft value of this transmission (R244). -/
def EngJob.highNew (j : EngJob) (p : CodPage) (r : Nat) : Nat := (j.block p r).high (j.eBits r)

/-! ## Scheduling (R255, R259) -/

/-- Unit types: 0 LDPC decoder, 1 encoder, 2 turbo decoder, 3 polar unit (R244). -/
def unitOf (kind : Nat) : Nat := if kind = 1 then 0 else if kind = 2 ∨ kind = 4 then 1 else if kind = 3 then 2 else 3
def unitCount (u : Nat) : Nat := if u = 0 then 6 else if u = 1 then 2 else if u = 2 then 2 else 1

/-- Code blocks of a unit type queued in a group. -/
def State.queuedBlocks (s : State) (g u : Nat) : Nat :=
  (((s.engine 1).jobs.filter (fun j => j.place == g && unitOf j.kind == u)).map (fun j => j.cod.blocks - j.cod.begun)).sum

/-- The group a job goes to: in service, the fewest queued blocks of its type, the lowest number on a tie; 4 where no group
is in service (R259). -/
def State.codGroup (s : State) (u : Nat) : Nat :=
  let gs := (List.range 4).filter (s.groupInService 1)
  match gs with
  | [] => 4
  | g :: r => r.foldl (fun b x => if s.queuedBlocks x u < s.queuedBlocks b u then x else b) g

/-- Places the accepted jobs that have no group, or whose group left service before they started (R259, R263).
(DEDUCED, log entry 52) -/
def State.codPlace (s : State) : State :=
  (s.engine 1).jobs.foldl (fun s j =>
    if j.running || (decide (j.place < 4) && s.groupInService 1 j.place) then s
    else s.setJob 1 { j with place := s.codGroup (unitOf j.kind) }) s

/-- A newly accepted job, the last in the list, is placed; its own blocks are in no group yet. (DEDUCED, log entry 52) -/
def State.codPlaceNew (s : State) (before : Nat) : State :=
  let l := (s.engine 1).jobs
  if before < l.length then
    match l.getLast? with
    | some j =>
      let s := s.setJob 1 { j with place := 4 }
      s.setJob 1 { j with place := s.codGroup (unitOf j.kind) }
    | none => s
  else s

def State.codPageOf (s : State) (j : EngJob) : CodPage := codPage (s.jobLatch j)

/-- A job that names a soft buffer waits for every earlier job that names it (R255), and a retransmission for the end of
mirroring where the buffer lies in a unit that is not owned (R358). -/
def State.bufferFree (s : State) (j : EngJob) : Bool :=
  let p := s.codPageOf j
  match j.hqId p with
  | none => true
  | some h => !(!j.isNew && (s.hqAddr j p).any s.mirrorHeld) && (s.engine 1).jobs.all (fun i =>
      decide (j.seq ≤ i.seq) || i.carrier != j.carrier || i.half != j.half || i.hqId (s.codPageOf i) != some h)

/-- A free unit of the type in the group. (DEDUCED, log entry 52) -/
def State.unitFree (s : State) (g u : Nat) : Bool :=
  decide ((((s.engine 1).jobs.filter (fun j => j.place == g && unitOf j.kind == u)).map (fun j => j.cod.begun - j.cod.ended)).sum < unitCount u)

/-! ## A job's first code block -/

/-- Reads the soft buffer's header and decides on combining; a retransmission without a match reports SOFT_LOST (R252,
R254). The HQ clamps of the record count here, where the slot's page is known (R248). -/
def State.openBuffer (s : State) (j : EngJob) : State × EngJob :=
  let p := s.codPageOf j
  let cl := j.hqClamped p
  let s := s.clampIf cl Reg.COD_CLAMP_COUNT
  let j := { j with clamped := j.clamped || cl }
  match s.hqAddr j p with
  | none => (s, j)
  | some a =>
    let x := s.readModule (engRequester 1 j.place) a 64
    match x.2 with
    | none => (x.1, { j with status := worseStatus j.status stBAD, finished := true })
    | some b =>
      let w0 : W32 := BitVec.ofNat 32 (natOfBytes (b.take 4))
      let tbs := natOfBytes ((b.drop 4).take 4) % 2 ^ 22
      let ncb := natOfBytes ((b.drop 12).take 2)
      let ok := bitsOf w0 31 30 == 1 && bitsOf w0 15 0 == j.cod.blocks && tbs == j.tbs && ncb == j.ncb p
      let lost := !j.isNew && !ok
      let s := if lost then (x.1.bump Reg.COD_SOFT_LOST).raise Reg.COD_EVENT 1 else x.1
      (s, { j with cod := { j.cod with combine := !j.isNew && ok, storedRvs := bitsOf w0 19 16, softLost := lost } })

/-- Reads the bits an encode job starts from (R256). -/
def State.openEncode (s : State) (j : EngJob) : State × EngJob :=
  let x := s.readModule (engRequester 1 j.place) (j.w64 4) (ceilDiv j.tbs 8)
  (x.1, match x.2 with
    | some b => { j with cod := { j.cod with bits := [(0, b)] } }
    | none => { j with status := worseStatus j.status stBAD, finished := true })

/-- CODE_BLOCK_START (R259): a free unit of the group takes the next code block of the waiting job of highest rank.
(DEDUCED, log entry 52) -/
def State.codeBlockStart (s : State) (g u : Nat) : State :=
  let s := s.codPlace
  let may := fun (j : EngJob) => j.place == g && unitOf j.kind == u && !j.finished && decide (j.cod.begun < j.cod.blocks)
    && s.slotFired j.carrier j.half j.slotNum && (j.running || (s.groupInService 1 g && s.bufferFree j))
  if g < 4 && s.unitFree g u then
    match s.nextJob 1 may with
    | none => s
    | some j =>
      let x := if j.running then (s, j) else if codDecodes j.kind then s.openBuffer j else s.openEncode j
      (x.1.wakeCluster (engCluster 1 g)).setJob 1 { x.2 with running := true, cod := { x.2.cod with begun := x.2.cod.begun + 1 } }
  else s

def execCodeBlockStart (group kind : Nat) (s : State) : Res := s.whenClocked fun s => .next (s.codeBlockStart group kind)

/-! ## Code blocks -/

/-- The job of a kind in a group whose code block ends next. -/
def State.blockEnding (s : State) (g kind : Nat) : Option EngJob :=
  s.nextJob 1 (fun j => j.place == g && j.kind == kind && !j.finished && decide (j.cod.ended < j.cod.begun))

/-- ACLK cycles of a unit are counted, and among them those in which its input has not arrived, whose number is open: a free value
(R244, R260, R264). (DESIGN CHOICE, log entry 97) -/
def State.unitBusy (s : State) (g cycles : Nat) : State :=
  let stall := s.freeStall
  (s.drawn.bump64 (Reg.COD_GRP_BUSY_LO g) (cycles + stall)).bumpFld (Reg.COD_GRP_STALL g) 31 0 stall

/-- A code block has ended; the job has done its work with its last one, or after a bus error. -/
def State.blockEnded (s : State) (j : EngJob) (bad : Bool) : State :=
  let c := { j.cod with ended := j.cod.ended + 1 }
  s.setJob 1 { j with cod := c, finished := bad || c.ended == c.blocks,
                      status := if bad then worseStatus j.status stBAD else j.status }

/-- COD_LLR_TAB (R251, R264). -/
def State.llrTab (s : State) : List Nat :=
  (bytesOfNat 4 (s.rd Reg.COD_LLR_TAB_LO).toNat ++ bytesOfNat 4 (s.rd Reg.COD_LLR_TAB_HI).toNat).map BitVec.toNat

/-- Reads the soft values of one code block (R251): a byte each, or two to a byte. -/
def State.readLlrs (s : State) (j : EngJob) (llr4 : Bool) (r : Nat) : State × Option (List Int) :=
  let o := j.eOffset r
  let e := j.eBits r
  let x := if llr4 then s.readModule (engRequester 1 j.place) (j.w64 4 + o / 2) (ceilDiv (o + e) 2 - o / 2)
    else s.readModule (engRequester 1 j.place) (j.w64 4 + o) e
  (x.1, x.2.map (fun b => if llr4 then (((codesOfBytes b).drop (o % 2)).take e).map (llrOfCode s.llrTab) else b.map llrOfByte))

/-- The entries of a code block, descrambled and de-interleaved (R252). -/
def EngJob.received (j : EngJob) (r : Nat) (l : List Int) : List Int :=
  let d := if (j.w 13).getLsbD 30 then
      (l.zip (scrBits (j.fld 10 30 0) (j.eOffset r) l.length)).map (fun x => if x.2 then -x.1 else x.1)
    else l
  deinterleaved (qmBits (j.fld 8 25 22)) d

/-- What a decoder answers for one code block: its CRC, and its CRC and syndrome together. -/
structure Decoded where
  bits : List Byte
  iterations : Nat
  crcOk : Bool
  passed : Bool

/-- Bits of the transport block a C = 1 block carries pass its CRC. -/
def tbCrcOk (crc : Nat) (l : List Bool) : Bool := (if crc = 16 then crc16 l else crc24A l) == 0

/-- Bits of a code block after `i` iterations, with its filler. -/
def EngJob.decodedBits (j : EngJob) (r : Nat) (soft : List Int) (i : Nat) : List Bool :=
  let f := j.frontFill r
  List.replicate f false ++ ((List.range (j.blockBits r)).map (Config.decoderBit j.kind j.bg2 j.segs.z soft i)).drop f

/-- The block's own CRC passes: of a block alone, the transport block's. -/
def EngJob.blockCrcOk (j : EngJob) (r : Nat) (l : List Bool) : Bool :=
  if j.cod.blocks = 1 then tbCrcOk j.segs.crc (l.drop (j.frontFill r)) else crc24B l == 0

/-- A decoder runs (R252): iterations until the syndrome is 0 and, with ET_CRC, the CRC of one block of several passes, at most ITER_MAX
of them. What an iteration does to the soft values is a free value of its operands. (DESIGN CHOICE, log entry 13) -/
def EngJob.decodeBlock (j : EngJob) (p : CodPage) (r : Nat) (soft : List Int) : Decoded :=
  let most := if j.fld 9 31 27 = 0 then p.iterDef else j.fld 9 31 27
  let zero := Config.syndromeZero j.kind j.bg2 j.segs.z soft
  let stops := fun i => zero i && (j.cod.blocks == 1 || !p.etCrc || j.kind == 3 || j.blockCrcOk r (j.decodedBits r soft i))
  let n := (((List.range (most - 1)).map (· + 1)).find? stops).getD most
  let l := j.decodedBits r soft n
  ⟨packBits l, n, j.blockCrcOk r l, zero n && j.blockCrcOk r l⟩

/-- Writes a buffer's header (R253). (DEDUCED, log entry 96) -/
def State.writeHeader (s : State) (j : EngJob) (p : CodPage) (a st rvs : Nat) : State × Bool :=
  s.writeModule (engRequester 1 j.place) a (bytesOfNat 4 (st * 2 ^ 30 + rvs * 2 ^ 16 + j.cod.blocks) ++ bytesOfNat 4 j.tbs
    ++ bytesOfNat 4 j.slot.toNat ++ bytesOfNat 4 (j.ncb p) ++ List.replicate 48 0)

/-- RVS as the job found it: nothing where it does not combine (R254). (DEDUCED, log entry 96) -/
def EngJob.foundRvs (j : EngJob) : Nat := if j.cod.combine then j.cod.storedRvs else 0

/-- Writes a code block's slot (R253, R254): PASSED where its CRC passes, with its bits, else SOFT with the codes of `soft`. The
header is TORN before the job's first slot write. (DEDUCED, log entry 96) -/
def State.storeSlot (s : State) (j : EngJob) (p : CodPage) (a r high : Nat) (d : Decoded) (soft : List Int) : State × Bool :=
  let req := engRequester 1 j.place
  let x := if j.cod.torn then (s, true) else s.writeHeader j p a 2 j.foundRvs
  let at' := a + 64 + r * j.stride p
  let st := if d.crcOk then 2 else 1
  let y := x.1.writeModule req at' (bytesOfNat 4 (st * 2 ^ 30 + high) ++ List.replicate 60 0)
  let z := y.1.writeModule req (at' + 64) (if d.crcOk then d.bits else bytesOfCodes ((soft.take high).map (codeOfLlr s.llrTab)))
  (z.1, x.2 && y.2 && z.2)

/-- A decode block's outcome goes into the job's record (R257). -/
def EngJob.tally (j : EngJob) (r : Nat) (d : Decoded) (copied short : Bool) : EngJob :=
  { j with cod := { j.cod with bits := j.cod.bits ++ [(r, d.bits)], iterSum := j.cod.iterSum + d.iterations,
                               iterPeak := max j.cod.iterPeak d.iterations, cbFail := j.cod.cbFail + b2n (!d.passed),
                               copied := j.cod.copied || copied, hqShort := j.cod.hqShort || short } }

/-- The stored slot of a code block: CB_STATE and HIGH; none after a bus error (R253). -/
def State.readSlot (s : State) (req a : Nat) : State × Option (Nat × Nat) :=
  let x := s.readModule req a 4
  (x.1, x.2.map (fun b => let w : W32 := BitVec.ofNat 32 (natOfBytes b); (bitsOf w 31 30, bitsOf w 14 0)))

/-- Cycles of a decoder for one code block (R244). -/
def decodeCycles (j : EngJob) (p : CodPage) (r n high : Nat) : Nat :=
  if j.kind = 1 then n * ceilDiv (2 * j.segs.z + min (j.ncb p) high) 96 + 32
  else 2 * n * (ceilDiv (turboK j.segs j.tbs r) 64 + 16) + 96

/-- Decodes and stores code block `r`; `stored` is what its slot held, up to its HIGH (R252). -/
def State.runDecoder (s : State) (j : EngJob) (p : CodPage) (buf : Option Nat) (r : Nat) (stored : List Int) (short : Bool) : State :=
  let x := s.readLlrs j p.llr4 r
  match x.2 with
  | none => x.1.blockEnded j true
  | some l =>
    let high := max (j.highNew p r) stored.length
    let soft := (j.block p r).soft (j.received r l) stored
    let y := j.decodeBlock p r soft
    let s := x.1.unitBusy j.place (decodeCycles j p r y.iterations high)
    let j := j.tally r y false short
    match buf with
    | none => s.blockEnded j false
    | some a =>
      let z := s.storeSlot j p a r high y soft
      z.1.blockEnded { j with cod := { j.cod with torn := true } } (!z.2)

/-- One code block of a decode job with HARQ combining (R252 to R254). -/
def State.decodeStep (s : State) (g kind : Nat) : State :=
  match s.blockEnding g kind with
  | none => s
  | some j =>
    let p := s.codPageOf j
    let r := j.cod.ended
    let req := engRequester 1 g
    match s.hqAddr j p with
    | none => s.runDecoder j p none r [] false
    | some a =>
      if !j.slotFits p r then (s.raise Reg.COD_EVENT 2).runDecoder j p none r [] true
      else if !j.cod.combine then s.runDecoder j p (some a) r [] false
      else
        let sl := a + 64 + r * j.stride p
        let x := s.readSlot req sl
        match x.2 with
        | none => x.1.blockEnded j true
        | some (st, high) =>
          if st = 2 then
            let y := x.1.readModule req (sl + 64) (ceilDiv (j.blockBits r) 8)
            match y.2 with
            | none => y.1.blockEnded j true
            | some b => y.1.blockEnded (j.tally r ⟨b, 0, true, true⟩ true false) false
          else if st = 1 then
            let y := x.1.readModule req (sl + 64) (ceilDiv high 2)
            match y.2 with
            | none => y.1.blockEnded j true
            | some b => y.1.runDecoder j p (some a) r (((codesOfBytes b).take high).map (llrOfCode y.1.llrTab)) false
          else x.1.runDecoder j p (some a) r [] false

def execLdpcDec (group : Nat) (s : State) : Res := s.whenClocked fun s => .next (s.decodeStep group 1)
def execTurboDec (group : Nat) (s : State) : Res := s.whenClocked fun s => .next (s.decodeStep group 3)

/-- One code block of an encode job (R244, R256); its bits are written at the job's end. -/
def State.encodeStep (s : State) (g kind : Nat) : State :=
  match s.blockEnding g kind with
  | none => s
  | some j =>
    let e := j.eBits j.cod.ended
    let cyc := if kind = 2 then ceilDiv (min e (j.ncb (s.codPageOf j))) 384 + 26 else ceilDiv e 64 + 32
    (s.unitBusy g cyc).blockEnded j false

def execLdpcEnc (group : Nat) (s : State) : Res := s.whenClocked fun s => .next (s.encodeStep group 2)
def execTurboEnc (group : Nat) (s : State) : Res := s.whenClocked fun s => .next (s.encodeStep group 4)

/-- log2 rounded up. -/
def clog2 (n : Nat) : Nat := if n ≤ 1 then 0 else Nat.log2 (n - 1) + 1

/-- log2 of the polar mother-code length (TS 38.212 5.3.1). (PRESUMED, log entry 95) -/
def polarLog (j : EngJob) : Nat :=
  let e := j.eBits 0
  let k := ceilDiv j.tbs j.cod.blocks + (polarCrc (j.fld 8 31 30)).1
  let n1 := if 8 * e ≤ 9 * 2 ^ (clog2 e - 1) ∧ 16 * k < 9 * e then clog2 e - 1 else clog2 e
  max 5 (min (min n1 (clog2 (8 * k))) (if (j.w 8).getLsbD 29 then 10 else 9))

/-- The polar code of one block of a job (TS 38.212 5.3.1, 6.3.1.3.1). (PRESUMED, log entry 95) -/
def EngJob.polarCode (j : EngJob) : PolarCode :=
  let k := ceilDiv j.tbs j.cod.blocks + (polarCrc (j.fld 8 31 30)).1
  let e := j.eBits 0
  let pc := if 18 ≤ k ∧ k ≤ 25 ∧ j.fld 8 31 30 = 0 then 3 else 0
  { k := k, e := e, n := 2 ^ polarLog j, pc := pc, wm := if pc = 3 ∧ 192 < e + 3 - k then 1 else 0 }

/-- Bits of the CRC, RNTI and interleavers of a polar job (R249). -/
def EngJob.crcLen (j : EngJob) : Nat := (polarCrc (j.fld 8 31 30)).1
def EngJob.rnti (j : EngJob) : Nat := j.fld 8 26 11
def EngJob.iil (j : EngJob) : Bool := (j.w 8).getLsbD 28
def EngJob.ibil (j : EngJob) : Bool := (j.w 8).getLsbD 27

/-- The bits of a path in the order of the payload, and whether its CRC passes. -/
def EngJob.polarCheck (j : EngJob) (c : PolarCode) (p : PolarPath) : List Bool × Bool :=
  let l := uninterleaved (inputOrder j.iil c.k) p.msg
  let a := l.take (c.k - j.crcLen)
  (a, natOfBits (l.drop (c.k - j.crcLen)) == polarCrcOf j.crcLen j.rnti a)

/-- What the decoder outputs for one block (R256): of the paths whose CRC passes the one of smallest metric, else the path of smallest
metric: payload bits, outcome of the CRC, metric. -/
def EngJob.polarDecode (j : EngJob) (l : List Int) : List Bool × Bool × Nat :=
  let c := j.polarCode
  let ps := c.paths (c.soft (c.order j.ibil) l)
  match bestPath (ps.filter (fun p => (j.polarCheck c p).2)), bestPath ps with
  | some p, _ => ((j.polarCheck c p).1, true, p.metric)
  | none, some p => ((j.polarCheck c p).1, false, p.metric)
  | none, none => ([], false, 0)

/-- The entries of a polar block, descrambled (R252). -/
def EngJob.descrambled (j : EngJob) (r : Nat) (l : List Int) : List Int :=
  if (j.w 13).getLsbD 30 then
    (l.zip (scrBits (j.fld 10 30 0) (j.eOffset r) l.length)).map (fun x => if x.2 then -x.1 else x.1)
  else l

/-- POLAR_DEC (R249, R256): the metrics of two blocks add up. (DEDUCED, log entry 96) -/
def State.polarDec (s : State) (g : Nat) : State :=
  match s.blockEnding g 5 with
  | none => s
  | some j =>
    let r := j.cod.ended
    let x := s.readLlrs j (s.codPageOf j).llr4 r
    match x.2 with
    | none => x.1.blockEnded j true
    | some l =>
      let n := polarLog j
      let d := j.polarDecode (j.descrambled r l)
      let prev := r == 0 || j.cod.tbOk
      (x.1.unitBusy g (2 ^ n * n / 4 + 128)).blockEnded { j with cod := { j.cod with
        bits := j.cod.bits ++ [(r, packBits d.1)], tbOk := d.2.1 && prev, metric := BitVec.ofNat 32 (j.cod.metric.toNat + d.2.2),
        cbFail := j.cod.cbFail + b2n (!d.2.1) } } false

def execPolarDec (group : Nat) (s : State) : Res := s.whenClocked fun s => .next (s.polarDec group)

/-- POLAR_ENC (R256). -/
def State.polarEnc (s : State) (g : Nat) : State :=
  match s.blockEnding g 6 with
  | none => s
  | some j => (s.unitBusy g (2 ^ polarLog j / 8 + 32)).blockEnded j false

def execPolarEnc (group : Nat) (s : State) : Res := s.whenClocked fun s => .next (s.polarEnc group)

/-! ## Ends -/

/-- The bits a code block gives the transport block: without filler and without the block's own CRC. -/
def EngJob.payload (j : EngJob) (r : Nat) (b : List Byte) : List Bool :=
  ((bitsMsb b).drop (j.frontFill r)).take (j.share r)

/-- The transport block with its CRC. -/
def EngJob.tbBits (j : EngJob) : List Bool := j.cod.bits.flatMap (fun x => j.payload x.1 x.2)

/-- The header after the TB CRC (R254). (DEDUCED, log entry 96) -/
def State.closeBuffer (s : State) (j : EngJob) (ok : Bool) : State × Bool :=
  let p := s.codPageOf j
  match s.hqAddr j p with
  | none => (s, true)
  | some a => s.writeHeader j p a (if ok then 0 else 1) (2 ^ j.rv ||| j.foundRvs)

/-- The payload of a polar decode: its blocks' bits without the 0 before an odd one. -/
def EngJob.polarPayload (j : EngJob) : List Bool :=
  let k := ceilDiv j.tbs j.cod.blocks
  (j.cod.bits.flatMap (fun x => (bitsMsb x.2).take k)).drop (k * j.cod.blocks - j.tbs)

/-- Writes a decode job's outputs: the transport block or payload, and the header (R252, R254). -/
def State.closeDecode (s : State) (j : EngJob) : State × EngJob :=
  let ok := if j.kind = 5 then j.cod.tbOk else tbCrcOk j.segs.crc j.tbBits
  let out := if j.kind = 5 then j.polarPayload else j.tbBits.take j.tbs
  let x := s.writeModule (engRequester 1 j.place) (j.w64 6) (packBits out)
  let y := x.1.closeBuffer j ok
  (y.1, { j with cod := { j.cod with tbOk := ok }, status := if x.2 && y.2 then j.status else worseStatus j.status stBAD })

/-- The bits of code block `r` of an encode job: filler, its share of the transport block with its CRC, and its own CRC (R256). -/
def EngJob.message (j : EngJob) (tb : List Bool) (r : Nat) : List Bool :=
  let b := List.replicate (j.frontFill r) false ++ (tb.drop ((List.range r).map j.share).sum).take (j.share r)
  if j.cod.blocks = 1 then b else b ++ bitsOfNat 24 (crc24B (b ++ List.replicate 24 false))

/-- The payload of a polar job cut into its blocks, an odd one with a 0 before it (TS 38.212 5.2.1). (PRESUMED, log entry 95) -/
def EngJob.polarSegment (j : EngJob) (a : List Bool) (r : Nat) : List Bool :=
  let k := ceilDiv j.tbs j.cod.blocks
  ((List.replicate (k * j.cod.blocks - j.tbs) false ++ a).drop (r * k)).take k

/-- The coded bits of one block of a POLAR_ENC (R249, R256). -/
def EngJob.polarBlock (j : EngJob) (a : List Bool) (r : Nat) : List Bool :=
  let c := j.polarCode
  let b := j.polarSegment a r
  let m := (b ++ bitsOfNat j.crcLen (polarCrcOf j.crcLen j.rnti b)).toArray
  let w := (c.word ((inputOrder j.iil c.k).map (fun i => m.getD i false))).toArray
  (c.order j.ibil).map (fun i => w.getD i false)

/-- The coded bits of one block of an LDPC_ENC or TURBO_ENC (R256). -/
def EngJob.codedBlock (j : EngJob) (p : CodPage) (tb : List Bool) (r : Nat) : List Bool :=
  let b := j.block p r
  let m := j.message tb r
  interleaved (qmBits (j.fld 8 25 22)) (b.select (j.eBits r) m (b.added j.bg2 m))

/-- The bits an encode job writes (R256). -/
def State.encoded (s : State) (j : EngJob) : List Bool :=
  let a := (bitsMsb ((j.cod.bits.headD (0, [])).2)).take j.tbs
  let rs := List.range j.cod.blocks
  let out := if codKindPolar j.kind then (rs.flatMap (j.polarBlock a) ++ List.replicate j.gBits false).take j.gBits
    else
      let tb := a ++ (if j.segs.crc = 16 then bitsOfNat 16 (crc16 (a ++ List.replicate 16 false))
        else bitsOfNat 24 (crc24A (a ++ List.replicate 24 false)))
      rs.flatMap (j.codedBlock (s.codPageOf j) tb)
  if (j.w 13).getLsbD 30 then (out.zip (scrBits (j.fld 10 30 0) 0 out.length)).map (fun y => Bool.xor y.1 y.2) else out

/-- Writes an encode job's output (R256). -/
def State.closeEncode (s : State) (j : EngJob) : State × EngJob :=
  let x := s.writeModule (engRequester 1 j.place) (j.w64 6) (packBits (s.encoded j))
  (x.1, if x.2 then j else { j with status := worseStatus j.status stBAD })

/-- COD_JOB_END (R250). A job that a bus error ended writes no output. (DESIGN CHOICE, log entry 4) -/
def execCodJobEnd (job : Nat) (s : State) : Res := s.whenClocked fun s =>
  match s.jobOf 1 job with
  | some j =>
    if j.finished then
      let x := if j.status = stBAD then (s, j) else if codDecodes j.kind then s.closeDecode j else s.closeEncode j
      .next (x.1.endJob 1 x.2 x.2.status x.2.codSpecific)
    else .next s
  | none => .next s

/-! ## Commands -/

/-- COD_JOB (R248). -/
def execCodJob (d : Desc) (s : State) : Res := s.whenClocked fun s =>
  .next ((s.jobDesc 1 d codTake).codPlaceNew (s.engine 1).jobs.length)

def execCodAbort (d : Desc) (s : State) : Res := s.whenClocked fun s => .next (s.jobAbort 1 d (fun s _ => s))
def execCodDisable (d : Desc) (s : State) : Res := s.whenClocked fun s => .next (s.ctrlDisable 1 d)
def execCodEnable (d : Desc) (s : State) : Res := s.whenClocked fun s => .next (s.ctrlEnable 1 d)

/-- A carrier is neither STOPPED nor DISABLED (R247). -/
def State.anyCarrierLive (s : State) : Bool := s.slt.carriers.any (fun p => !p.2.isStopped)

/-- HARQ_REGION_WRITE (R247, R264): discarded and counted while a carrier is live; SIZE ends at 512 GiB at most. -/
def State.writeHarqRegion (s : State) (size : Bool) (v : W32) : State :=
  if s.anyCarrierLive then s.clampAt Reg.COD_CLAMP_COUNT
  else if size then
    let top := min 96 (512 - s.fld Reg.COD_HARQ_BASE 8 0)
    s.writeContext Reg.COD_HARQ_SIZE v (if top < bitsOf v 6 0 then setBitsOf v 6 0 top else v)
  else s.writeTable Reg.COD_HARQ_BASE v

def execHarqRegionWrite (size : Bool) (value : W32) (s : State) : Res :=
  .next (s.hostWriteTo (if size then Reg.COD_HARQ_SIZE else Reg.COD_HARQ_BASE) (·.writeHarqRegion size value))

/-- Entries of a COD_LLR_TAB word from the low byte up: at most 127, none below the entry before it (R264). -/
def llrTabWord (prev : Nat) (l : List Nat) : List Nat :=
  match l with
  | [] => []
  | x :: r => let y := max prev (min 127 x); y :: llrTabWord y r

/-- A write of COD_LLR_TAB_LO or _HI (R264). -/
def State.writeLlrTab (s : State) (hi : Bool) (v : W32) : State :=
  let b := fun i => bitsOf v (8 * i + 7) (8 * i)
  if hi then
    let l := llrTabWord (s.fld Reg.COD_LLR_TAB_LO 31 24) [b 0, b 1, b 2, b 3]
    s.writeContext Reg.COD_LLR_TAB_HI v (BitVec.ofNat 32 (natOfBytes (l.map (BitVec.ofNat 8))))
  else
    let l := llrTabWord 0 [b 1, b 2, b 3]
    s.writeContext Reg.COD_LLR_TAB_LO v (BitVec.ofNat 32 (natOfBytes ((b 0 :: l).map (BitVec.ofNat 8))))

/-- COD_STATUS (R264). -/
def State.codStatus (s : State) : W32 :=
  let x := s.engine 1
  BitVec.ofNat 32 (x.jobs.length * 2 ^ 16 + b2n (!x.enable && x.jobs.any (·.running)) * 2 ^ 8 + b2n x.enable * 16
    + ((List.range 4).map (fun g => b2n (s.groupInService 1 g) * 2 ^ g)).sum)

/-- COD_GRP_QUEUED_g (R264). -/
def State.codQueued (s : State) (g : Nat) : Nat := satTo 65535 ((List.range 4).map (s.queuedBlocks g)).sum

end Sys2Proof.Machine
end

