-- ==== Sys2Proof/Machine/Transform.lean ====
section
/-! DEFINITION. The transforms of the Spectral engine (R266). A transform is computed exactly on twiddles of 2^-32; what the
truncations of the pipeline add, whose order the manual does not state, is a free value within the bound that a 24-bit significand
allows. -/

namespace Sys2Proof.Machine

/-- Transform sizes by code (R266, R269). -/
def fftSize (code : Nat) : Nat := if code = 6 then 1536 else if code = 7 then 3072 else 128 * 2 ^ (min code 5)

/-- The sizes of R266, ascending. -/
def fftSizes : List Nat := [128, 256, 512, 1024, 1536, 2048, 3072, 4096]

/-- 2π in units of 2^-64, truncated. -/
def twoPi64 : Int := 115904311329233965478

/-- An alternating power series in units of 2^-64: each term is the one before times −x² ÷ ((k + 1)(k + 2)). -/
def alternating (x2 : Int) (fuel k : Nat) (term : Int) : Int :=
  match fuel with
  | 0 => 0
  | f + 1 => term + alternating x2 f (k + 2) (-(term * x2 / 2 ^ 64) / (((k + 1) * (k + 2) : Nat) : Int))

/-- Cosine and sine of `num` ÷ `den` turns, to the nearest 2^-32. -/
def turn (num : Int) (den : Nat) : Cplx :=
  let x := twoPi64 * (num % (den : Int)) / (den : Int)
  let x2 := x * x / 2 ^ 64
  let near := fun (v : Int) => (v + 2 ^ 31) / 2 ^ 32
  (near (alternating x2 30 0 (2 ^ 64)), near (alternating x2 30 1 x))

/-- A sample turned by `num` ÷ `den`, in units of 2^-32. -/
def rotated (c : Cplx) (num : Int) (den : Nat) : Cplx := cplxMul c (turn num den)

/-- Bin `k` of a transform, in units of 2^-32 of its input's: Σ x[n] e^(∓j2πnk/N), with + in the iFFT and no 1/N (R266). `tw` holds the
N-th parts of a turn. -/
def dftBin (inverse : Bool) (tw : Array Cplx) (x : List Cplx) (k : Nat) : Cplx :=
  let w := fun (i : Nat) => let t := tw.getD (i * k % x.length) (0, 0); if inverse then t else cplxConj t
  cplxSum ((x.zip (List.range x.length)).map (fun p => cplxMul p.1 (w p.2)))

def twiddles (n : Nat) : Array Cplx := ((List.range n).map (fun (p : Nat) => turn (p : Int) n)).toArray

/-- The bins `ks` of a transform, exact. -/
def dft (inverse : Bool) (x : List Cplx) (ks : List Nat) : List Cplx :=
  let tw := twiddles x.length
  ks.map (dftBin inverse tw x)

/-- A value of at most `bound` in magnitude. -/
def within (bound : Nat) (v : Int) : Int := max (-(bound : Int)) (min (bound : Int) v)

/-- Twelve stages of a 24-bit significand stay within 2^-16 of the sum of the parts' magnitudes. -/
def roundingBound (x : List Cplx) : Nat := (x.map (fun c => c.1.natAbs + c.2.natAbs)).sum * 2 ^ 16

/-- The bins `ks` of a transform as a pipeline leaves them: the exact ones with a rounding within the bound (R266).
(DESIGN CHOICE, log entry 14) -/
def rounded (inverse : Bool) (x : List Cplx) (ks : List Nat) : List Cplx :=
  let near := fun (k : Nat) (im : Bool) (v : Int) => v + within (roundingBound x) (Config.fftRounding inverse x k im)
  (ks.zip (dft inverse x ks)).map (fun p => (near p.1 false p.2.1, near p.1 true p.2.2))

/-- A sum of the squares of `l` over operations that each truncate to 24 bits: at most 2^-10 of it is lost (R266).
(DESIGN CHOICE, log entry 14) -/
def lessened (l : List Cplx) (sum : Nat) : Nat := sum - min (sum / 1024) (Config.truncation l sum)

/-- The output parts of bins `ks` of samples in units of 2^-32: floor(X ÷ 2^SHIFT), saturated, and how many saturated (R266). -/
def pipeline (inverse : Bool) (shift : Nat) (x : List Cplx) (ks : List Nat) : List Cplx × Nat :=
  let out := (rounded inverse x ks).map (fun c => satCplx (floorShift c.1 (64 + shift), floorShift c.2 (64 + shift)))
  (out.map Prod.fst, (out.map Prod.snd).sum)

/-- Bin `k` of `n` lies at or above 0.8 × the Nyquist frequency of the output of a decimation by 2^`dl` (R279). -/
def inStopBand (dl n k : Nat) : Bool := decide (4 * n ≤ 10 * min k (n - k) * 2 ^ dl)

/-- A decimated sample from the samples up to it (R279): an open function of their pass band, plus what leaks of the stop band, which
60 dB keeps to a thousandth of the sum of its amplitudes. (DESIGN CHOICE, log entry 98) -/
def decimate (dl : Nat) (x : List Cplx) : Cplx :=
  let n := x.length
  let bins := (dft false x (List.range n)).zip (List.range n)
  let stop := ((bins.filter (fun b => inStopBand dl n b.2)).map (fun b => (abs2 b.1).sqrt + 1)).sum
  let low := dft true (bins.map (fun b => if inStopBand dl n b.2 then (0, 0) else b.1)) (List.range n)
  let y := Config.decimated dl low
  let leak := fun (im : Bool) => within (stop / (1000 * n * 2 ^ 16)) (Config.decimLeak dl x im)
  (satCplx (floorShift (y.1 + leak false) 16, floorShift (y.2 + leak true) 16)).1

/-- `m` bins centred on DC, the lowest frequency first. -/
def centredBins (n m : Nat) : List Nat := (List.range m).map (fun i => (i + n - m / 2) % n)

end Sys2Proof.Machine
end

