-- ==== Sys2Proof/Machine/Spectral.lean ====
section
/-! DEFINITION. The Spectral engine: transform jobs, detector buffers and receive streams (R265 to R271, R278, R279, R282, R284,
R287 to R290). -/

namespace Sys2Proof.Machine

/-! ## Transform jobs (R288) -/

def spcTake (w : List W32) : Taken :=
  let w0 := w.headD 0
  let k := bitsOf w0 31 30
  let p := w.getD 8 0
  let size := if 7 < bitsOf p 31 28 then 5 else bitsOf p 31 28
  let count := max 1 (bitsOf p 27 16)
  let shift := min 12 (bitsOf p 15 12)
  let p' := setBitsOf (setBitsOf (setBitsOf p 31 28 size) 27 16 count) 15 12 shift
  let ia := w.getD 4 0
  let oa := w.getD 6 0
  { words := ((w.set 4 (setBitsOf ia 1 0 0)).set 6 (setBitsOf oa 1 0 0)).set 8 p',
    clamped := k == 3 || p' != p || bitsOf ia 1 0 != 0 || bitsOf oa 1 0 != 0,
    kind := if k = 3 then 0 else k, half := .ul }

/-- A group in service with a free pipeline, the lowest first. -/
def State.freePipeline (s : State) : Option Nat :=
  (List.range 5).find? (fun g => s.groupInService 2 g && decide (((s.engine 2).jobs.filter (fun j => j.running && j.place == g)).length < 8))

def State.countSpcSat (s : State) (n : Nat) : State :=
  let s := s.bumpFld Reg.SPC_SAT_COUNT 31 0 n
  if n = 0 then s else s.raise Reg.SPC_EVENT 1

/-- Work on transforms of `n` points runs on a pipeline of group `g` for `cycles`; a change of the pipeline's size costs 16 more (R267).
Which pipeline serves it, and the cycles in which its input is missing, are free values. (DESIGN CHOICE, log entry 97) -/
def State.pipeRun (s : State) (g n cycles : Nat) : State :=
  let s := s.wakeCluster (engCluster 2 g)
  let p := 8 * g + s.freeBelow 8
  let was := mapGet (fun _ => 0) s.spc.sizes p
  let t := s.drawn
  let t := { t with spc.sizes := mapSet (fun _ => 0) t.spc.sizes p n }
  let stall := t.freeStall
  (t.drawn.bump64 (Reg.SPC_GRP_BUSY_LO g) (cycles + if was = 0 ∨ was = n then 0 else 16)).bumpFld (Reg.SPC_GRP_STALL g) 31 0 stall

/-- The same on the pipelines of some group in service: which one is a free value. With no group in service nothing is counted.
(DESIGN CHOICE, log entry 97) -/
def State.pipeWork (s : State) (n cycles : Nat) : State :=
  let gs := (List.range 5).filter (s.groupInService 2)
  if gs.isEmpty then s else s.drawn.pipeRun (gs.getD (s.freeBelow gs.length) 0) n cycles

/-- The order of a job's outputs: with CENTRE from bin −N ÷ 2 upward (R288). -/
def jobBins (centre : Bool) (n : Nat) : List Nat := if centre then centredBins n n else List.range n

/-- Transforms `i` onward of a job, one after the other: each reads its samples, transforms and writes; the saturated parts so far, and
whether every access succeeded (R288). -/
def State.transforms (s : State) (g : Nat) (j : EngJob) (i left sat : Nat) : State × Nat × Bool :=
  match left with
  | 0 => (s, sat, true)
  | f + 1 =>
    let n := fftSize (j.fld 8 31 28)
    let x := s.readModule (engRequester 2 g) (j.w64 4 + 4 * n * i) (4 * n)
    match x.2 with
    | none => (x.1, sat, false)
    | some b =>
      let y := pipeline (j.kind == 2) (j.fld 8 15 12) ((samplesOfInt16 b).map (fun c => rotated c 0 1)) (jobBins (j.fld 8 11 11 == 1) n)
      let z := x.1.writeModule (engRequester 2 g) (j.w64 6 + 4 * n * i) (y.1.flatMap int16Bytes)
      if z.2 then z.1.transforms g j (i + 1) f (sat + y.2) else (z.1, sat + y.2, false)

/-- Starts the next job where it is of the kind (R266, R267, R288). -/
def State.transform (s : State) (kind : Nat) : State :=
  match s.freePipeline, s.nextJob 2 (fun j => !j.running && s.slotFired j.carrier j.half j.slotNum) with
  | some g, some j =>
    if j.kind != kind then s
    else
      let s := s.runJob 2 j g
      let j := { j with running := true, place := g }
      let n := fftSize (j.fld 8 31 28)
      let cnt := j.fld 8 27 16
      let y := (s.pipeRun g n (cnt * (n / 4))).transforms g j 0 cnt 0
      (y.1.countSpcSat y.2.1).finishJob 2 j (if y.2.2 then stOK else stBAD) (satTo 65535 y.2.1)
  | _, _ => s

def execFft (s : State) : Res := s.whenClocked fun s => .next (s.transform 1)
def execIfft (s : State) : Res := s.whenClocked fun s => .next (s.transform 2)

def execSpcJob (d : Desc) (s : State) : Res := s.whenClocked fun s => .next (s.jobDesc 2 d spcTake)

/-- (DESIGN CHOICE, log entry 4) -/
def execSpcJobEnd (job : Nat) (s : State) : Res := s.whenClocked fun s =>
  match s.jobOf 2 job with
  | some j => if j.finished then .next (s.endJob 2 j j.status j.specific) else .next s
  | none => .next s

def execSpcAbort (d : Desc) (s : State) : Res := s.whenClocked fun s => .next (s.jobAbort 2 d (fun s _ => s))
def execSpcDisable (d : Desc) (s : State) : Res := s.whenClocked fun s => .next (s.ctrlDisable 2 d)
def execSpcEnable (d : Desc) (s : State) : Res := s.whenClocked fun s => .next (s.ctrlEnable 2 d)

/-- JOB_ITEM_READ (R237, R259, R288). -/
def execJobItemRead (engine : Nat) (s : State) : Res := s.whenClocked fun s =>
  .next (if engine = 0 then s.jobItemRead 0 spaTake
    else if engine = 1 then (s.jobItemRead 1 codTake).codPlaceNew (s.engine 1).jobs.length
    else if engine = 2 then s.jobItemRead 2 spcTake else s)

/-- SPC_STATUS (R290). -/
def State.spcStatus (s : State) : W32 :=
  let x := s.engine 2
  BitVec.ofNat 32 (x.jobs.length * 2 ^ 16 + b2n (!x.enable && x.jobs.any (·.running)) * 2 ^ 8 + b2n x.enable * 32
    + ((List.range 5).map (fun g => b2n (s.groupInService 2 g) * 2 ^ g)).sum)

/-! ## Pages U3 and D3 -/

/-- The fields U3 and D3 share, and their own (R269, R270). -/
structure SpcPage where
  en : Bool
  fft : Nat
  nAnt : Nat
  nRb : Nat
  fmt : Nat
  inQid : Nat
  outQid : Nat
  deriving DecidableEq, Repr

def spcPage (w : SetWords) : SpcPage :=
  let f := fun i hi lo => setFld w 3 i hi lo
  { en := f 0 31 31 = 1, fft := fftSize (f 0 30 27), nAnt := max 1 (f 0 26 20), nRb := max 1 (f 0 19 11), fmt := f 0 10 9,
    inQid := f 1 31 16, outQid := f 1 15 0 }

/-- Transform length of a half in slot `n` (R58). -/
def State.slotFft (s : State) (c : Nat) (h : Half) (n : Int) : Nat := (spcPage (s.slotWords c h n)).fft

/-! ## Symbols in samples (R268) -/

/-- Symbols of a slot: 14, or 12 with extended CP. -/
def symsPerSlot (c : CarrierCfg) : Nat := if c.extCp then 12 else 14

/-- Symbol `k` of slot `n` is the first of a half millisecond: it has the long prefix. -/
def longCp (c : CarrierCfg) (n : Int) (k : Nat) : Bool :=
  if c.mu = 0 then k == 0 || k == 7 else k == 0 && n % ((2 ^ (c.mu - 1) : Nat) : Int) == 0

/-- Length of the cyclic prefix in samples at f_s. -/
def cpLen (c : CarrierCfg) (fft : Nat) (n : Int) (k : Nat) : Nat :=
  if c.extCp then fft * 512 / 2048 else if longCp c n k then fft * (144 + 16 * 2 ^ c.mu) / 2048 else fft * 144 / 2048

/-- First sample of symbol `k`, counted from the slot's air boundary. -/
def symStart (c : CarrierCfg) (fft : Nat) (n : Int) (k : Nat) : Nat :=
  ((List.range k).map (fun i => cpLen c fft n i + fft)).sum

def symLen (c : CarrierCfg) (fft : Nat) (n : Int) (k : Nat) : Nat := cpLen c fft n k + fft

/-- Samples per second ÷ 1000: f_s in kHz (R268). -/
def fsKhz (c : CarrierCfg) (fft : Nat) : Nat := fft * 15 * 2 ^ c.mu

/-- Samples in one slot. -/
def slotSamples (fft : Nat) : Nat := fft * 15

/-- Air time, in 2^-16 ns, of sample `x` of slot `n`. -/
def State.sampleTime16 (s : State) (c : CarrierCfg) (fft : Nat) (n : Int) (x : Int) : Int :=
  c.airNs s.slt.originNs n * 65536 + x * (65536 * 1000000) / (fsKhz c fft : Nat)

/-- Corrected time has reached sample `x` of slot `n` plus `us` microseconds. -/
def State.pastSample (s : State) (c : CarrierCfg) (fft : Nat) (n : Int) (x : Nat) (us : Int) : Bool :=
  decide (((c.airNs s.slt.originNs n + us * 1000) * (fsKhz c fft : Nat) + (x : Int) * 1000000) * uPerNs ≤ s.tb.timeU * (fsKhz c fft : Nat))

/-- The live latch of a half whose slot a stamp names. -/
def State.liveByStamp (s : State) (c : Nat) (h : Half) (stamp : W32) : Option SlotLatch :=
  ((s.carrier c).half h).live.find? (fun l => s.stampOfSlot c l.slot == stamp)

/-- SYMBOL_MASK of a slot page (R61). -/
def inMask (w : SetWords) (k : Nat) : Bool := bitOf (setWord w 0 0) k

/-- A time-domain item's header word (R268). -/
def tdHeader (flags stream carrier : Nat) (slot : W32) (offset count : Nat) (time16 : Int) (seq : Nat) : QWord :=
  let t := shortStampOf time16
  qwOfWords [BitVec.ofNat 32 (flags * 2 ^ 24 + stream * 2 ^ 16 + carrier), slot, BitVec.ofNat 32 offset, BitVec.ofNat 32 count,
    t.setWidth 32, (t >>> 32).setWidth 32, BitVec.ofNat 32 seq, 0]

/-! ## Detector records and samples (R278, R279) -/

def State.det (s : State) (d : Nat) : Detector := mapGet (fun _ => {}) s.spc.dets d
def State.setDet (s : State) (d : Nat) (x : Detector) : State :=
  if d < 512 then { s with spc.dets := mapSet (fun _ => {}) s.spc.dets d x } else s

def Detector.ctx (x : Detector) (i : Nat) : DetCtx := if i = 0 then x.ctx0 else x.ctx1
def Detector.setCtx (x : Detector) (i : Nat) (c : DetCtx) : Detector := if i = 0 then { x with ctx0 := c } else { x with ctx1 := c }

def recW (r : List W32) (i : Nat) : W32 := r.getD i 0
def recFld (r : List W32) (i hi lo : Nat) : Nat := bitsOf (recW r i) hi lo
def recMode (r : List W32) : Nat := recFld r 0 31 30
def recSource (r : List W32) : Nat := recFld r 0 29 28
/-- Decimation, 2^DECIM_LOG2. -/
def recDecim (r : List W32) : Nat := 2 ^ recFld r 0 21 19
def recRefLen (r : List W32) : Nat := recFld r 4 31 21
def recRef (r : List W32) : Nat := (recW r 2).toNat + (recW r 3).toNat * 2 ^ 32

/-- Where a record takes its samples: SOURCE, and ANT or IN_QID (R279). -/
def recFrom (r : List W32) : Nat × Nat := (recSource r, if recSource r = 0 then recFld r 0 27 22 else recFld r 0 15 0)

/-- The records a detector works by: the one read last and those its detections in progress keep (R278). -/
def Detector.records (x : Detector) : List (List W32) :=
  ((if recMode x.record = 0 then [] else [x.record]) ++ (if x.ctx0.mode = 0 then [] else [x.ctx0.record])
    ++ (if x.ctx1.mode = 0 then [] else [x.ctx1.record]))

/-- A record of the detector takes the samples of a source. -/
def Detector.hears (x : Detector) (source : Nat × Nat) : Bool := x.records.any (fun r => recFrom r == source)

/-- The smallest size of R266 at or above 2 × REF_LEN (R280). -/
def ncorr (refLen : Nat) : Nat := (fftSizes.find? (fun n => decide (2 * refLen ≤ n))).getD 4096

/-- Samples held: enough for the 8,192-sample buffer of a context and for two occasions (R282, R285). -/
def Detector.keep (x : Detector) : Int := ((((x.records.map recDecim).max?.getD 1) * (8192 + 2 * 12 * 4096) : Nat) : Int)

/-- The end of what a detector holds of a source, counted at the rate of `fft`. -/
def Detector.rawEnd (x : Detector) (source : Nat × Nat) (fft : Nat) : Option Int :=
  ((x.parts.filter (·.source == source)).map (fun p => (p.start + (p.samples.length : Int)) * (fft : Int) / (p.fft : Int))).max?

/-- Samples join a detector; those it holds longer than it can need leave it. -/
def Detector.feed (x : Detector) (p : DetPart) : Detector :=
  let y := { x with parts := x.parts ++ [p] }
  { y with parts := y.parts.filter (fun q => q.source != p.source || q.fft != p.fft
      || decide ((y.rawEnd p.source p.fft).getD 0 - x.keep ≤ q.start + (q.samples.length : Int))) }

/-- Samples arrive at a detector: every NCORR − REF_LEN + 1 decimated ones cost a BURST detector 2 × NCORR transform samples (R287). -/
def State.detFeed (s : State) (d : Nat) (p : DetPart) : State :=
  let x := s.det d
  let r := x.record
  if recMode r != 1 || recFrom r != p.source then s.setDet d (x.feed p)
  else
    let n := ncorr (recRefLen r)
    let per := (n - recRefLen r + 1) * recDecim r
    let got := x.corr + p.samples.length
    let blocks := got / per
    let s := s.setDet d { x.feed p with corr := got % per }
    if blocks = 0 then s else s.pipeWork n (blocks * (2 * n) / 4)

/-- A held sample of a record's source with whether it is missing; a missing one is 0. -/
def Detector.rawAt (x : Detector) (r : List W32) (fft : Nat) (m : Int) : Cplx × Bool :=
  match x.parts.find? (fun p => p.source == recFrom r && p.fft == fft && decide (p.start ≤ m ∧ m < p.start + (p.samples.length : Int))) with
  | some p => (p.samples.getD (m - p.start).toNat (0, 0), p.gap)
  | none => ((0, 0), true)

/-- A sample shifted by FSHIFT_HZ, truncated and saturated (R279). (DESIGN CHOICE, log entry 98) -/
def Detector.shiftedAt (x : Detector) (r : List W32) (fsK fft : Nat) (m : Int) : Cplx :=
  let c := rotated (x.rawAt r fft m).1 (signedOf 32 (recW r 1).toNat * m) (fsK * 1000)
  (satCplx (floorShift c.1 32, floorShift c.2 32)).1

/-- Decimated sample `t` with whether it is missing (R279). The decimator's filter works on the samples before it.
(DESIGN CHOICE, log entry 98) -/
def Detector.sampleAt (x : Detector) (r : List W32) (fsK fft : Nat) (t : Int) : Cplx × Bool :=
  let d := recDecim r
  let m := t * (d : Int)
  let at' := fun (k : Int) => x.shiftedAt r fsK fft k
  ((if d = 1 then at' m
    else decimate (recFld r 0 21 19) ((List.range (64 * d)).map (fun (i : Nat) => at' (m + 1 - ((64 * d : Nat) : Int) + (i : Int))))),
   (x.rawAt r fft m).2)

/-- The decimated samples before this one have arrived. -/
def Detector.arrived (x : Detector) (r : List W32) (fft : Nat) : Option Int :=
  (x.rawEnd (recFrom r) fft).map (fun e => (e + (recDecim r : Int) - 1) / (recDecim r : Int))

/-- The largest transform size at or below `n`, at least 128 (R279). -/
def sizeBelow (n : Nat) : Nat := [128, 256, 512, 1024, 1536, 2048, 3072, 4096].foldl (fun b x => if x ≤ n then x else b) 128

/-- FSHIFT_HZ as taken: its magnitude at most f_s ÷ 2. -/
def takeShift (v fsHalf : Nat) : Nat :=
  let x := signedOf 32 v
  if (fsHalf : Int) < x then fsHalf else if x < -(fsHalf : Int) then unsignedOf 32 (-(fsHalf : Int)) else v

/-- A detector record as the engine clamps it (R279). -/
def clampRecord (r : List W32) (nAnt fsHalf : Nat) : List W32 :=
  let w0 := recW r 0
  let mode := if bitsOf w0 31 30 = 3 then 0 else bitsOf w0 31 30
  let src := if bitsOf w0 29 28 = 3 then 0 else if bitsOf w0 29 28 = 2 ∧ mode = 1 then 1 else bitsOf w0 29 28
  let w0 := setBitsOf (setBitsOf (setBitsOf (setBitsOf w0 31 30 mode) 29 28 src) 27 22 (min (bitsOf w0 27 22) (nAnt - 1)))
    21 19 (min 6 (bitsOf w0 21 19))
  let w1 : W32 := BitVec.ofNat 32 (takeShift (recW r 1).toNat fsHalf)
  let refLen := clampTo 16 1536 (recFld r 4 31 21)
  let w4 := setBitsOf (recW r 4) 31 21 refLen
  let val := min 16 (recFld r 5 7 0)
  let w5 := setBitsOf (setBitsOf (recW r 5) 14 8 (min 40 (recFld r 5 14 8))) 7 0 val
  let sep := clampTo 1 1024 (recFld r 6 31 16)
  let w6 := setBitsOf (setBitsOf (recW r 6) 31 16 sep) 15 0 (max sep (recFld r 6 15 0))
  let w7 := setBitsOf (recW r 7) 31 16 (min (recFld r 7 31 16) (8192 - (val + 1) * refLen))
  let w8 : W32 := BitVec.ofNat 32 (min 16777215 (recW r 8).toNat)
  let per := max 1 (recFld r 11 31 24)
  let w11 := setBitsOf (setBitsOf (recW r 11) 31 24 per) 23 16 (recFld r 11 23 16 % per)
  let occ := sizeBelow (recFld r 12 31 19)
  let lra := recFld r 12 10 0
  let lra' := if lra = 571 ∨ lra = 839 ∨ lra = 1151 then lra else 139
  let w12 := setBitsOf (setBitsOf (setBitsOf (recW r 12) 31 19 occ) 18 15 (clampTo 1 12 (recFld r 12 18 15))) 10 0 lra'
  let w13 := setBitsOf (recW r 13) 31 16 (min (recFld r 13 31 16) (occ - lra'))
  [w0, w1, recW r 2, recW r 3, w4, w5, w6, w7, w8, recW r 9, recW r 10, w11, w12, w13, recW r 14, recW r 15]

/-- Where a decimated sample lies that is counted at the rate of `fft`: slot number, offset in the slot, air time in 2^-16 ns. -/
def State.detPlace (s : State) (c : Nat) (r : List W32) (fft : Nat) (t : Int) : Int × Nat × Int :=
  let sps := slotSamples fft / recDecim r
  let n := t / (sps : Int)
  let o := (t % (sps : Int)).toNat
  (n, o, s.sampleTime16 (s.carrier c).cfg fft n ((o * recDecim r : Nat) : Int))

/-- A burst report (R284), and the DONE flag after it. -/
def State.detReport (s : State) (d i outcome : Nat) (x : DetCtx) (c : Nat) (decided : Bool) : State :=
  let r := x.record
  let pl := s.detPlace c r x.fft x.t0
  let qid := recFld r 9 15 0
  let t := shortStampOf pl.2.2
  let pw := unsignedOf 16 (max (-32768) (min 32767 x.power))
  let s := if qid = 0xFFFF then s else
    let y := s.pushItem qid (.engine (64 + d)) 6 (BitVec.ofNat 16 d)
      [qwOfWords [BitVec.ofNat 32 (outcome * 2 ^ 28 + i * 2 ^ 27 + d * 2 ^ 16 + c), s.stampOfSlot c pl.1, BitVec.ofNat 32 pl.2.1,
        BitVec.ofNat 32 (pw * 2 ^ 16 + x.rho % 65536), BitVec.ofNat 32 ((if decided then x.rhoV % 65536 else 0) * 2 ^ 16),
        BitVec.ofNat 32 x.seq, t.setWidth 32, (t >>> 32).setWidth 32]]
    y.1.noteEngCommit 2 y.2
  s.doneFlag (bitOf (recW r 10) 31) (recFld r 10 16 0) (recFld r 10 21 17)

/-- Samples of a burst: PRE before the peak and RX_LEN after it (R282). -/
def DetCtx.total (x : DetCtx) : Nat := recFld x.record 7 31 16 + (recW x.record 8).toNat

/-- The burst has data items: RX_LEN is not 0 and DATA_QID names a queue (R279). -/
def DetCtx.hasData (x : DetCtx) : Bool := (recW x.record 8).toNat != 0 && recFld x.record 9 31 16 != 0xFFFF

/-- Commits one data item of `n` samples of a burst, GAP where some are missing (R268, R282). Its priority, which the manual does not
state, is a free value. (DESIGN CHOICE, log entry 16) -/
def State.burstItem (s : State) (d c : Nat) (x : DetCtx) (n : Nat) : State :=
  let r := x.record
  let t := x.t0 - (recFld r 7 31 16 : Nat) + (x.sent : Nat)
  let pl := s.detPlace c r x.fft t
  let det := s.det d
  let data := (List.range n).map (fun (i : Nat) => det.sampleAt r (fsKhz (s.carrier c).cfg x.fft) x.fft (t + (i : Int)))
  let h := tdHeader (b2n (data.any (·.2))) (recFld r 0 27 22) c (s.stampOfSlot c pl.1) pl.2.1 n pl.2.2 x.seq
  let pr := s.freeBelow 8
  let y := s.drawn.pushItem (recFld r 9 31 16) (.engine (64 + d)) pr (BitVec.ofNat 16 d) (h :: qwordsOfBytes (data.flatMap (fun p => int16Bytes p.1)))
  y.1.noteEngCommit 2 y.2

/-- Commits the full items of a burst up to sample `upto` of it; with `last`, the rest as well (R282). -/
def State.burstItems (s : State) (d c upto : Nat) (last : Bool) (x : DetCtx) (fuel : Nat) : State × DetCtx :=
  match fuel with
  | 0 => (s, x)
  | f + 1 =>
    let left := upto - x.sent
    if 2040 ≤ left then (s.burstItem d c x 2040).burstItems d c upto last { x with sent := x.sent + 2040 } f
    else if last && 0 < left then (s.burstItem d c x left, { x with sent := x.sent + left })
    else (s, x)

/-- A RECEIVING context commits the items that the samples arrived by now fill (R282). -/
def State.advanceBurst (s : State) (d c i : Nat) : State :=
  let x := (s.det d).ctx i
  match (s.det d).arrived x.record x.fft with
  | none => s
  | some e =>
    if x.mode = 2 && x.hasData then
      let upto := min x.total (e - x.t0 + (recFld x.record 7 31 16 : Nat)).toNat
      let y := s.burstItems d c upto false x (upto / 2040 + 1)
      y.1.setDet d ((y.1.det d).setCtx i y.2)
    else s

def State.advanceDet (s : State) (d : Nat) : State :=
  match (s.det d).claimed with
  | some c => (s.advanceBurst d c 0).advanceBurst d c 1
  | none => s

/-! ## Receive streams (R271) -/

def State.stream (s : State) (c : Nat) : Streams := mapGet (fun _ => {}) s.spc.streams c
def State.setStream (s : State) (c : Nat) (x : Streams) : State :=
  if c < 512 then { s with spc.streams := mapSet (fun _ => {}) s.spc.streams c x } else s

/-- Samples common to [a, a + n) and [b, b + m). -/
def overlap (a n b m : Nat) : Nat := min (a + n) (b + m) - max a b

/-- Samples of a part that belong to symbols already processed. -/
def lateSamples (c : CarrierCfg) (fft : Nat) (n : Int) (x : Streams) (p : RxPart) : Nat :=
  ((x.rxDone.filter (fun d => d.slot == p.slot && d.ant == p.ant)).map
    (fun d => overlap p.offset p.count (symStart c fft n d.sym) (symLen c fft n d.sym))).sum

/-- The first `n` samples of a time-domain item: zeros with ZERO, else its data words (R268). -/
def tdSamples (words : List QWord) (n : Nat) : List Cplx :=
  let l := if bitOf (qwWord (words.headD 0) 0) 25 then [] else (samplesOfInt16 (bytesOfQWords (words.drop 1))).take n
  l ++ List.replicate (n - l.length) (0, 0)

/-- Samples of an antenna join the detectors that listen to it, by the record read last or by that of a detection in progress
(R278, R279). -/
def State.antennaFeed (s : State) (c : Nat) (p : DetPart) : State :=
  (mapKeys s.spc.dets).foldl (fun s d => if (s.det d).claimed = some c && (s.det d).hears p.source then s.detFeed d p else s) s

/-- A received time-domain item joins the stream and the detectors that listen to its antenna: excess samples of its slot are lost and
counted; samples of processed symbols and of a slot that has expired are discarded and counted in SPC_RX_GAP (R268, R271). -/
def State.rxItem (s : State) (c : Nat) (words : List QWord) : State :=
  let h := words.headD 0
  let num := s.slotOfStamp c .ul (qwWord h 1)
  let fft := s.slotFft c .ul num
  let off := (qwWord h 2).toNat
  let cnt := (qwWord h 3).toNat
  let room := slotSamples fft - off
  let n := min cnt room
  let p : RxPart := ⟨bitsOf (qwWord h 0) 21 16, qwWord h 1, off, n, tdSamples words n⟩
  let s := s.tapSamples false c p.ant (qwWord h 1) (expandStamp s.tb.time16 (qwWord h 5 ++ qwWord h 4)) words
  let s := s.clampIf (decide (room < cnt)) Reg.SPC_CLAMP_COUNT
  if ((s.carrier c).half .ul).expired num then s.bumpFld Reg.SPC_RX_GAP 31 0 n
  else
    let s := s.bumpFld Reg.SPC_RX_GAP 31 0 (lateSamples (s.carrier c).cfg fft num (s.stream c) p)
    (s.setStream c { s.stream c with parts := (s.stream c).parts ++ [p] }).antennaFeed c
      ⟨(0, p.ant), num * (slotSamples fft : Int) + (off : Int), fft, bitOf (qwWord h 0) 24, p.samples⟩

/-- Reads every visible item of a stream's queue and hands it on. -/
def State.pullItems (s : State) (qid : Nat) (r : Consumer) (f : State → QItem → State) (fuel : Nat) : State :=
  match fuel with
  | 0 => s
  | n + 1 =>
    if (s.queue qid).visible.isEmpty || !(s.queue qid).storable then s
    else
      let x := s.readQueue qid r
      match x.2 with
      | .item i => (f x.1 i).pullItems qid r f n
      | _ => x.1

/-- The stream takes what its IN_QID holds, and the bursts that its samples fill go on. -/
def State.rxPull (s : State) (c : Nat) (p : SpcPage) : State :=
  let s := s.pullItems p.inQid (.stream c) (fun s i => s.rxItem c i.words) (s.queue p.inQid).visible.length
  (mapKeys s.spc.dets).foldl (fun s d => if (s.det d).claimed = some c then s.advanceDet d else s) s

/-- Every sample of a window has arrived. -/
def covered (l : List RxPart) (ant : Nat) (slot : W32) (a n : Nat) : Bool :=
  (List.range n).all (fun i => l.any (fun p => p.ant == ant && p.slot == slot && decide (p.offset ≤ a + i ∧ a + i < p.offset + p.count)))

/-- A sample of a slot; a missing one is 0 (R271). -/
def rxSample (l : List RxPart) (ant : Nat) (slot : W32) (i : Nat) : Cplx :=
  match l.find? (fun p => p.ant == ant && p.slot == slot && decide (p.offset ≤ i ∧ i < p.offset + p.count)) with
  | some p => p.samples.getD (i - p.offset) (0, 0)
  | none => (0, 0)

/-- FFT_OFFSET of a symbol: at most its CP length (R269, R271). -/
def fftOffset (c : CarrierCfg) (w : SetWords) (fft : Nat) (n : Int) (k : Nat) : Nat := min (setFld w 3 2 20 10) (cpLen c fft n k)

/-- First sample of the FFT window of a symbol. -/
def rxWindow (c : CarrierCfg) (w : SetWords) (fft : Nat) (n : Int) (k : Nat) : Nat := symStart c fft n k + fftOffset c w fft n k

/-- RX_WAIT_US and TX_LEAD_US: 10 to 1,000. -/
def waitUs (v : Nat) : Nat := clampTo 10 1000 v

/-- The phase, in turns × f_s ÷ kHz, by which TS 38.211 clause 5.4 turns symbol `k`: F0 × the time from its subframe's start to the end
of its CP; 0 without PHASE_EN. (PRESUMED, log entry 95) -/
def symPhase (on : Bool) (c : CarrierCfg) (w : SetWords) (fft : Nat) (n : Int) (k : Nat) : Nat :=
  if on then (setWord w 3 3).toNat * ((n % ((2 ^ c.mu : Nat) : Int)).toNat * slotSamples fft + symStart c fft n k + cpLen c fft n k) else 0

/-- The samples of a symbol's window with PHASE_EN and HALF_SC applied, in units of 2^-32 (R271): n' counts from the end of the CP.
(PRESUMED, log entry 95) -/
def rxTurned (l : List RxPart) (ant : Nat) (slot : W32) (c : CarrierCfg) (w : SetWords) (fft : Nat) (n : Int) (k : Nat) : List Cplx :=
  let fs := fsKhz c fft
  let ph := symPhase (bitOf (setWord w 3 0) 3) c w fft n k
  let half := bitOf (setWord w 3 0) 4
  (List.range fft).map (fun (i : Nat) =>
    let n' : Int := (i : Int) + (fftOffset c w fft n k : Int) - (cpLen c fft n k : Int)
    rotated (rxSample l ant slot (rxWindow c w fft n k + i)) ((ph * (2 * fft) : Nat) - (if half then n' * (fs : Int) else 0)) (fs * (2 * fft)))

/-- A receive symbol is processed: one item on OUT_QID with the subcarriers kept (R271). -/
def State.rxProcess (s : State) (c ant k : Nat) (slot : W32) (l : SlotLatch) (gap : Bool) : State :=
  let w := l.words
  let p := spcPage w
  let y := pipeline false (Machine.setFld w 3 0 8 5) (rxTurned (s.stream c).parts ant slot (s.carrier c).cfg w p.fft l.slot k) (centredBins p.fft (12 * p.nRb))
  let s := (s.pipeWork p.fft (p.fft / 4)).countSpcSat y.2
  let s := s.setStream c { s.stream c with rxDone := (s.stream c).rxDone ++ [⟨slot, ant, k⟩] }
  let s := if gap then (s.bump Reg.SPC_RX_GAP).raise Reg.SPC_EVENT 3 else s
  let x := s.pushItem p.outQid (.stream c 0) (Machine.setFld w 3 2 31 29) (BitVec.ofNat 16 (b2n gap * 2 ^ 15 + k * 256 + ant))
    (qwordsOfBytes (blockEncode p.fmt y.1))
  x.1.noteEngCommit 2 x.2

/-- A symbol of a live slot that the receive stream has still to process. -/
def State.rxPending (s : State) (c ant k : Nat) (slot : W32) : Option SlotLatch :=
  match s.liveByStamp c .ul slot with
  | none => none
  | some l =>
    let p := spcPage l.words
    if p.en && decide (ant < p.nAnt) && inMask l.words k && decide (k < symsPerSlot (s.carrier c).cfg) && !l.aborted
        && !(s.stream c).rxDone.contains ⟨slot, ant, k⟩ then some l else none

/-- A group in service can take a stream's, a detector's or the mask checker's transforms; without one their work waits, and what it
misses meanwhile shows as the misses of R22 (R289). -/
def State.spcServes (s : State) : Bool := (List.range 5).any (s.groupInService 2)

/-- RX_SYMBOL (R271): due once the last sample of the window is here. -/
def State.rxSymbol (s : State) (c ant k : Nat) (slot : W32) : State :=
  match s.rxPending c ant k slot with
  | none => s
  | some l =>
    let p := spcPage l.words
    let t := s.rxPull c p
    if t.spcServes && covered (t.stream c).parts ant slot (rxWindow (s.carrier c).cfg l.words p.fft l.slot k) p.fft
    then t.rxProcess c ant k slot l false else t

def execRxSymbol (carrier ant sym : Nat) (slot : W32) (s : State) : Res := s.whenClocked fun s => .next (s.rxSymbol carrier ant sym slot)

/-- RX_GAP_DEADLINE (R271): due at the symbol's end over the air + RX_WAIT_US; missing samples are taken as 0. -/
def State.rxGap (s : State) (c ant k : Nat) (slot : W32) : State :=
  match s.rxPending c ant k slot with
  | none => s
  | some l =>
    let p := spcPage l.words
    let cfg := (s.carrier c).cfg
    if s.pastSample cfg p.fft l.slot (symStart cfg p.fft l.slot (k + 1)) (waitUs (Machine.setFld l.words 3 2 9 0)) then
      let t := s.rxPull c p
      let full := covered (t.stream c).parts ant slot (rxWindow cfg l.words p.fft l.slot k) p.fft
      if t.spcServes then t.rxProcess c ant k slot l (!full) else t
    else s

def execRxGapDeadline (carrier ant sym : Nat) (slot : W32) (s : State) : Res := s.whenClocked fun s => .next (s.rxGap carrier ant sym slot)

/-- A slot that has expired leaves the streams' records. -/
def State.streamExpire (s : State) (c : Nat) (h : Half) (slot : W32) : State :=
  let x := s.stream c
  match h with
  | .ul => s.setStream c { x with parts := x.parts.filter (·.slot != slot), rxDone := x.rxDone.filter (·.slot != slot) }
  | .dl =>
    let s := s.setStream c { x with txDone := x.txDone.filter (·.1.slot != slot), txMissing := x.txMissing.filter (·.slot != slot) }
    let p := mapGet (fun _ => {}) s.spc.paths c
    if p.filtered.isEmpty then s
    else { s with spc.paths := mapSet (fun _ => {}) s.spc.paths c { p with filtered := p.filtered.filter (·.1 != slot) } }

end Sys2Proof.Machine
end

