-- ==== Sys2Proof/Machine/SpcTx.lean ====
section
/-! DEFINITION. The transmit streams of the Spectral engine, ramp shaping and transmit qualification (R270, R272 to R277). -/

namespace Sys2Proof.Machine

/-! ## Transmit streams and ramps (R272, R273) -/

def State.path (s : State) (c : Nat) : TxPath := mapGet (fun _ => {}) s.spc.paths c
def State.setPath (s : State) (c : Nat) (x : TxPath) : State :=
  if c < 512 then { s with spc.paths := mapSet (fun _ => {}) s.spc.paths c x } else s

/-- The first element under a key, and the list without it. -/
def takeKey {α : Type} (k : Nat) (l : List (Nat × α)) : Option α × List (Nat × α) :=
  match l with
  | [] => (none, [])
  | p :: r => if p.1 = k then (some p.2, r) else let x := takeKey k r; (x.1, p :: x.2)

/-- ITEM_TAG of a symbol (R272). -/
def SymRef.tag (x : SymRef) : Nat := x.sym * 256 + x.ant

/-- A frequency-domain item becomes visible: one that was for a symbol decided without it is discarded (R272). An item names no slot: of
an item whose tag a decided symbol misses, whether it is that symbol's or the next one's is a free value.
(DESIGN CHOICE, log entry 107) -/
def State.txItem (s : State) (c : Nat) (i : QItem) : State :=
  let x := s.stream c
  let missed := x.txMissing.any (fun m => m.tag == i.tag.toNat)
  let late := missed && s.freeBelow 2 == 0
  let s := if missed then s.drawn else s
  if late then
    (s.setStream c { x with txMissing := x.txMissing.filter (fun m => m.tag != i.tag.toNat) }).bump Reg.SPC_TX_LATE
  else s.setStream c { x with txItems := x.txItems ++ [(i.tag.toNat, i.words)] }

def State.txPull (s : State) (c : Nat) (p : SpcPage) : State :=
  s.pullItems p.inQid (.stream (512 + c)) (fun s i => s.txItem c i) (s.queue p.inQid).visible.length

/-- R in millionths of a sample: RAMP_NS, at most the shortest CP of the carrier (R273); 0 for hard edges. -/
def rampLen (c : CarrierCfg) (w : SetWords) (fft : Nat) : Nat :=
  min (setFld w 3 2 31 21 * fsKhz c fft) ((if c.extCp then fft * 512 / 2048 else fft * 144 / 2048) * 1000000)

/-- Sample `t` of a ramp lies within R. -/
def inRamp (r t : Nat) : Bool := decide (t * 1000000 < r)

/-- Sample `t` of a ramp: the sample times 0.5 × (1 ∓ cos(πt ÷ R)), truncated: + falls, − rises (R273). -/
def ramped (rise : Bool) (r t : Nat) (x : Cplx) : Cplx :=
  let c := (turn ((t * 1000000 : Nat) : Int) (2 * r)).1
  let f := if rise then 2 ^ 32 - c else 2 ^ 32 + c
  (floorShift (x.1 * f) 33, floorShift (x.2 * f) 33)

/-- The symbol before, of the same stream, was decided on. -/
def State.onBefore (s : State) (c ant k : Nat) (slot : W32) (n : Int) : Bool :=
  let prev : SymRef := if k = 0 then ⟨s.stampOfSlot c (n - 1), ant, symsPerSlot (s.carrier c).cfg - 1⟩ else ⟨slot, ant, k - 1⟩
  (s.stream c).txDone.any (fun d => d.1 == prev && d.2)

/-- The useful part of an on symbol: the iFFT of its item's subcarriers about DC, with PHASE_EN (R266, R272).
(PRESUMED, log entry 95) -/
def txUseful (c : CarrierCfg) (w : SetWords) (n : Int) (k : Nat) (words : List QWord) : List Cplx × Nat :=
  let p := spcPage w
  let fs := fsKhz c p.fft
  let ph : Int := symPhase (bitOf (setWord w 3 0) 2) c w p.fft n k
  let x := blockDecode p.fmt ((bytesOfQWords words).take (blockBytes p.fmt p.nRb))
  let put := (x.take (12 * p.nRb)).zip (centredBins p.fft (12 * p.nRb))
  let bins := (List.range p.fft).map (fun b => match put.find? (fun q => q.2 == b) with
    | some q => rotated q.1 (-ph) fs
    | none => (0, 0))
  pipeline true (Machine.setFld w 3 0 8 5) bins (List.range p.fft)

/-- A decided symbol's samples: CP and useful part with a rising ramp on an edge, or zeros with the tail of the symbol before (R273). -/
def txShaped (cp len r : Nat) (on before : Bool) (useful tail : List Cplx) : List Cplx :=
  if on then
    let body := useful.drop (useful.length - cp) ++ useful
    if before then body else (body.zip (List.range len)).map (fun p => if inRamp r p.2 then ramped true r p.2 p.1 else p.1)
  else if before then
    (List.range len).map (fun t => if inRamp r t then ramped false r t (tail.getD t (0, 0)) else (0, 0))
  else List.replicate len (0, 0)

/-- The FIR of QUALIFY over samples after their history: floor(Σ h[t] x[n − t] ÷ 2^15), saturated (R275). -/
def firOut (taps : List Int) (history x : List Cplx) : List Cplx :=
  let all := history ++ x
  (List.range x.length).map (fun i =>
    let sum := cplxSum ((taps.zip (List.range taps.length)).map (fun p =>
      if p.2 ≤ history.length + i then let v := all.getD (history.length + i - p.2) (0, 0); (p.1 * v.1, p.1 * v.2) else (0, 0)))
    (satCplx (floorShift sum.1 15, floorShift sum.2 15)).1)

/-- In QUALIFY an antenna's output passes the FIR, and the mask checker keeps what comes out (R275). -/
def TxPath.filter (x : TxPath) (ant : Nat) (slot : W32) (l : List Cplx) : TxPath × List Cplx :=
  let h := mapGet (fun _ => []) x.history ant
  let y := firOut x.taps h l
  let all := h ++ l
  ({ x with history := mapSet (fun _ => []) x.history ant (all.drop (all.length - 127)), filtered := x.filtered ++ [(slot, ant, y)] }, y)

/-- The time-domain item of a decided symbol (R272, R274): none in OFF; zeros in FAILED and in QUALIFY without QUAL_TX, the FIR's output
with it, the shaped symbol in SERVICE. What is silent is one ZERO item. Its priority and tag are not stated: free values.
(DESIGN CHOICE, log entry 16) -/
def State.txEmit (s : State) (c ant k : Nat) (l : SlotLatch) (slot : W32) (before : Bool) (item : Option (List QWord)) : State :=
  let p := spcPage l.words
  let cfg := (s.carrier c).cfg
  let on := item.isSome
  let n := symLen cfg p.fft l.slot k
  let a := symStart cfg p.fft l.slot k
  let u := match item with
    | some w => txUseful cfg l.words l.slot k w
    | none => ([], 0)
  let s := if on then (s.pipeWork p.fft (p.fft / 4)).countSpcSat u.2 else s
  let x := s.stream c
  let shaped := txShaped (cpLen cfg p.fft l.slot k) n (rampLen cfg l.words p.fft) on before u.1 (mapGet (fun _ => []) x.tails ant)
  let s := s.setStream c { x with tails := mapSet (fun _ => []) x.tails ant (u.1.take (p.fft / 4)) }
  let y := s.path c
  let f := y.filter ant slot shaped
  let s := if y.state = 1 then s.setPath c f.1 else s
  if y.state = 0 then s
  else
    let out := if y.state = 1 then f.2 else shaped
    let tail := before && 0 < rampLen cfg l.words p.fft
    let zero := y.state = 3 || (y.state = 1 && (Machine.setFld l.words 3 0 3 3 = 0 || out.all (· == (0, 0)))) || (y.state = 2 && !on && !tail)
    let h := tdHeader (if zero then 2 else 0) ant c slot a n (s.sampleTime16 cfg p.fft l.slot a) 0
    let data := if zero then [] else qwordsOfBytes (out.flatMap int16Bytes)
    let v := s.freeVal
    let s := s.tapSamples true c ant slot (s.sampleTime16 cfg p.fft l.slot a) (h :: data)
    let z := s.drawn.pushItem p.outQid (.stream c 1) (bitsOf v 18 16) (v.setWidth 16) (h :: data)
    z.1.noteEngCommit 2 z.2

/-- TX_DECISION (R272): due at the symbol's air start − TX_LEAD_US, once per symbol of a live slot. An item that is there may still not
be transformed: whether it is, is a free value, and it is not where no group is in service (R289). A symbol of the mask that a slot abort silences takes its item with it and is no underrun
(R289). (DESIGN CHOICE, log entry 107) -/
def State.txDecision (s : State) (c ant k : Nat) (slot : W32) : State :=
  match s.liveByStamp c .dl slot with
  | none => s
  | some l =>
    let p := spcPage l.words
    let cfg := (s.carrier c).cfg
    let lead : Int := (waitUs (Machine.setFld l.words 3 2 20 11) : Nat)
    if p.en && decide (ant < p.nAnt) && decide (k < symsPerSlot cfg) && (s.stream c).txDone.all (fun d => d.1 != ⟨slot, ant, k⟩)
        && s.pastSample cfg p.fft l.slot (symStart cfg p.fft l.slot k) (-lead) then
      let s := s.txPull c p
      let tag := k * 256 + ant
      let x := s.stream c
      let masked := inMask l.words k
      let got := if masked then takeKey tag x.txItems else (none, x.txItems)
      let ready := s.spcServes && s.freeBelow 2 == 0
      let s := if got.1.isSome then s.drawn else s
      let item := if ready && !l.aborted then got.1 else none
      let under := masked && !l.aborted && item.isNone
      let before := s.onBefore c ant k slot l.slot
      let s := s.setStream c { x with txItems := got.2, txDone := x.txDone ++ [(⟨slot, ant, k⟩, item.isSome)],
                                      txMissing := x.txMissing.filter (fun m => m.tag != tag) ++ (if masked && got.1.isNone then [⟨slot, ant, k⟩] else []) }
      let s := if under then (s.bump Reg.SPC_TX_UNDERRUN).raise Reg.SPC_EVENT 2 else s
      s.txEmit c ant k l slot before item
    else s

def execTxDecision (carrier ant sym : Nat) (slot : W32) (s : State) : Res := s.whenClocked fun s => .next (s.txDecision carrier ant sym slot)

/-! ## Qualification (R274 to R277) -/

def qualSlots (w : SetWords) : Nat := max 1 (setFld w 3 6 31 24)
def qualMax (w : SetWords) : Nat := max (qualSlots w) (setFld w 3 6 23 16)

/-- MASK_s (R270): 0x00 not checked, 0xFF in-channel, else a limit in 0.5 dB. -/
def maskOf (w : SetWords) (i : Nat) : Nat := setFld w 3 (16 + i / 4) (8 * (i % 4) + 7) (8 * (i % 4))

def checkedSegments (w : SetWords) : List Nat := (List.range 64).filter (fun i => maskOf w i != 0 && maskOf w i != 0xFF)
def channelSegments (w : SetWords) : List Nat := (List.range 64).filter (fun i => maskOf w i == 0xFF)

/-- The pages a slot's check goes by: the slot's latch while it lives, else the felt set. -/
def State.qualWords (s : State) (c : Nat) (slot : W32) : SetWords :=
  match s.liveByStamp c .dl slot with | some l => l.words | none => (s.carrier c).dl.felt

/-- Bin powers of consecutive blocks of N_FFT samples, summed (R266, R275). (DESIGN CHOICE, log entry 15) -/
def binPowers (fft : Nat) (l : List Cplx) : List Nat :=
  let blocks := ((chunks l.length fft l).filter (fun b => b.length == fft)).map (fun b => rounded false b (List.range fft))
  (List.range fft).map (fun k => let v := blocks.map (fun b => b.getD k (0, 0)); lessened v (v.map abs2).sum)

/-- Samples of slot `n` of a carrier, all its symbols (R268). (DEDUCED, log entry 121) -/
def symSamples (c : CarrierCfg) (fft : Nat) (n : Int) : Nat := symStart c fft n (symsPerSlot c)

/-- Power of a segment: segment 0 lies lowest, from −f_s ÷ 2 (R275). -/
def segPower (powers : List Nat) (i : Nat) : Nat :=
  let w := powers.length / 64
  ((List.range w).map (fun b => powers.getD ((powers.length / 2 + i * w + b) % powers.length) 0)).sum

/-- ACLR_s − limit in 1/256 dB (R275): no limit is missed where the segment holds no power and the channel does. Where neither does, or
no segment is in-channel, the manual states no value: a free one. (DESIGN CHOICE, log entry 15) -/
def State.aclrMargin (s : State) (w : SetWords) (powers : List Nat) (i : Nat) : Int :=
  let ch := channelSegments w
  let num := (ch.map (segPower powers)).sum
  let den := segPower powers i * ch.length
  if den = 0 then (if num = 0 then signedOf 16 (bitsOf s.freeVal 15 0) else 32767)
  else max (-32768) (ratioDb num den - (maskOf w i * 128 : Nat))

/-- The smaller margin, the first on a tie. -/
def worseMargin (a : Option (Int × Nat × Nat)) (b : Int × Nat × Nat) : Option (Int × Nat × Nat) :=
  match a with
  | some x => if x.1 ≤ b.1 then some x else some b
  | none => some b

/-- QUAL_SLOT_CHECK (R275): due once the filtered samples of the whole slot are there. A slot passes where no checked segment of an
antenna falls below its limit; one with no on symbol counts for nothing. (DESIGN CHOICE, log entry 15) -/
def State.qualSlotCheck (s : State) (c : Nat) (slot : W32) : State :=
  let x := s.path c
  let w := s.qualWords c slot
  let p := spcPage w
  let on := (s.stream c).txDone.any (fun d => d.1.slot == slot && d.2)
  let samples := fun (ant : Nat) => (x.filtered.filter (fun f => f.1 == slot && f.2.1 == ant)).flatMap (·.2.2)
  let len := symSamples (s.carrier c).cfg p.fft (s.slotOfStamp c .dl slot)
  let full := (List.range p.nAnt).all (fun a => (samples a).length == len)
  if s.spcServes && x.state = 1 && on && full && x.checked != some slot then
    let margins := (List.range p.nAnt).flatMap (fun a =>
      let powers := binPowers p.fft (samples a)
      (checkedSegments w).map (fun i => (s.aclrMargin w powers i, a, i)))
    let least := margins.foldl worseMargin none
    let pass := margins.all (fun m => decide (0 ≤ m.1))
    let s := s.drawn.pipeWork p.fft (p.nAnt * (len / p.fft) * (p.fft / 4))
    s.setPath c { x with checked := some slot, slotsRun := satTo 255 (x.slotsRun + 1), passRun := if pass then satTo 255 (x.passRun + 1) else 0,
                         margin := match least with | some m => BitVec.ofNat 16 (unsignedOf 16 m.1) | none => x.margin,
                         worst := margins.foldl worseMargin x.worst, filtered := x.filtered.filter (·.1 != slot) }
  else s

def execQualSlotCheck (carrier : Nat) (slot : W32) (s : State) : Res := s.whenClocked fun s => .next (s.qualSlotCheck carrier slot)

/-- A qualification report (R276). -/
def State.qualReport (s : State) (c outcome : Nat) (w : SetWords) (x : TxPath) (slot : W32) : State :=
  let qid := Machine.setFld w 3 7 31 16
  let s := s.raise Reg.SPC_EVENT (if outcome = 1 then 4 else 5)
  if qid = 0xFFFF then s
  else
    let wm := x.worst.getD (0, 0, 0)
    let t := s.stampNow
    let y := s.pushItem qid (.stream c 1) 6 (BitVec.ofNat 16 c)
      [qwOfWords [BitVec.ofNat 32 (outcome * 2 ^ 24 + c), slot,
        BitVec.ofNat 32 (wm.2.1 * 2 ^ 26 + wm.2.2 * 2 ^ 20 + unsignedOf 16 wm.1), BitVec.ofNat 32 (x.slotsRun * 2 ^ 16 + x.passRun),
        t.setWidth 32, (t >>> 32).setWidth 32]]
    y.1.noteEngCommit 2 y.2

/-- The path at QUALIFY's start. -/
def TxPath.qualify (x : TxPath) : TxPath :=
  { x with state := 1, passRun := 0, slotsRun := 0, worst := none, checked := none, history := [], filtered := [] }

/-- The path enters QUALIFY: the taps are read at FIR_ADDR; where a bus error hides them they are free values (R274, R275).
(DESIGN CHOICE, log entry 15) -/
def State.enterQualify (s : State) (c : Nat) (w : SetWords) : State :=
  let r := s.readModule (engRequester 2 0) (setWord64 w 3 4 / 256 * 256) 256
  let b := r.2.getD (r.1.freeBytes 256)
  let taps := ((chunks 128 2 b).map (fun t => signedOf 16 (natOfBytes t))).take (clampTo 1 128 (Machine.setFld w 3 6 15 8))
  let s := r.1.drawn
  s.setPath c { (s.path c).qualify with taps := taps, requests := [] }

/-- A carrier's transmit streams hold nothing of slots before a start or after a stop (R272). -/
def State.txClear (s : State) (c : Nat) : State :=
  let x := s.stream c
  if x.txItems.isEmpty && x.txMissing.isEmpty then s else s.setStream c { x with txItems := [], txMissing := [] }

/-- A DL boundary of a carrier that goes on: `w` is the felt set, `start` the couch that starts it, `slot` the slot that begins
(R274, R277). (DESIGN CHOICE, log entry 15) -/
def State.pathBoundary (s : State) (c : Nat) (w : SetWords) (start : Bool) (slot : W32) : State :=
  let p := spcPage w
  let x := s.path c
  let reqs := x.requests
  if start then
    let s := s.txClear c
    let fresh : TxPath := { x.qualify with state := 0, requests := [] }
    let s := if !p.en then s.setPath c fresh
      else if Machine.setFld w 3 0 4 4 = 1 then s.enterQualify c w
      else (s.setPath c { fresh with state := 2 }).qualReport c 1 w fresh slot
    s.completeAll reqs stREFUSED
  else if !reqs.isEmpty then
    if p.en && x.state != 0 && (s.carrier c).mode == .running then (s.enterQualify c w).completeAll reqs stOK
    else (s.setPath c { x with requests := [] }).completeAll reqs stREFUSED
  else if x.state = 1 && qualSlots w ≤ x.passRun then (s.setPath c { x with state := 2 }).qualReport c 1 w x (x.checked.getD 0)
  else if x.state = 1 && qualMax w ≤ x.slotsRun then (s.setPath c { x with state := 3 }).qualReport c 2 w x (x.checked.getD 0)
  else s

/-- The DL boundary at which a carrier stops or is disabled (R274, R277). -/
def State.pathOff (s : State) (c st : Nat) : State :=
  let x := s.path c
  ((s.txClear c).setPath c { x with state := 0, requests := [] }).completeAll x.requests st

/-- The carrier has a DL boundary to come: it starts, or runs and its DL half has not stopped. -/
def Carrier.dlGoesOn (c : Carrier) : Bool := c.mode == .starting || (c.mode == .running && c.dl.running)

/-- SPC_TXQ (R277): it waits for the carrier's next DL boundary; a carrier that has none to come is not RUNNING for it.
(DESIGN CHOICE, log entry 15) -/
def State.spcTxq (s : State) (d : Desc) : State :=
  let c := carrierField d.carrier
  let cl := carrierClamped d.carrier
  let s := s.clampDesc d cl Reg.SPC_CLAMP_COUNT
  if c = 0xFFFF then s.complete (d.ref cl) stREFUSED 0
  else if (s.carrier c).refusesWork then s.complete (d.ref cl) stDISABLED 0
  else if !(s.carrier c).dlGoesOn then s.complete (d.ref cl) stREFUSED 0
  else s.setPath c { s.path c with requests := (s.path c).requests ++ [d.ref cl] }

def execSpcTxq (d : Desc) (s : State) : Res := s.whenClocked fun s => .next (s.spcTxq d)

/-- SPC_TXP_STATE_c (R290). -/
def State.txpState (s : State) (c : Nat) : W32 :=
  let x := s.path c
  BitVec.ofNat 32 (x.passRun * 2 ^ 24 + x.slotsRun * 2 ^ 16 + x.state)

end Sys2Proof.Machine
end

