-- ==== Sys2Proof/Machine/Detect.lean ====
section
/-! DEFINITION. The detectors of the Spectral engine (R278 to R287): what they take in, correlation, contexts, occasions. What a
pipeline's truncations take from a sum is a free value within a bound (R266), and powers are compared as fractions. -/

namespace Sys2Proof.Machine

/-! ## What a detector takes in -/

/-- An item of SOURCE 1 joins the detector; samples past the end of their slot are lost and counted (R268, R279). -/
def State.detItem (s : State) (d c qid : Nat) (words : List QWord) : State :=
  let h := words.headD 0
  let num := s.slotOfStamp c .ul (qwWord h 1)
  let fft := s.slotFft c .ul num
  let off := (qwWord h 2).toNat
  let cnt := (qwWord h 3).toNat
  let room := slotSamples fft - off
  let n := min cnt room
  (s.clampIf (decide (room < cnt)) Reg.SPC_CLAMP_COUNT).detFeed d
    ⟨(1, qid), num * (slotSamples fft : Int) + (off : Int), fft, bitOf (qwWord h 0) 24, tdSamples words n⟩

/-- An item of SOURCE 2 is one set of L_RA bins; the last 24 sets are held. (DESIGN CHOICE, log entry 98) -/
def State.detSet (s : State) (d : Nat) (words : List QWord) : State :=
  let x := s.det d
  let sets := x.sets ++ [(samplesOfInt16 (bytesOfQWords words)).take (recFld x.record 12 10 0)]
  s.setDet d { x with sets := sets.drop (sets.length - 24) }

/-- The detector takes what one source holds. -/
def State.pullSource (s : State) (d c : Nat) (source : Nat × Nat) : State :=
  let n := (s.queue source.2).visible.length
  if source.1 = 0 then s.rxPull c (spcPage (s.carrier c).ul.felt)
  else if source.1 = 1 then (s.pullItems source.2 (.engine (64 + d)) (fun s i => s.detItem d c source.2 i.words) n).advanceDet d
  else s.pullItems source.2 (.engine (64 + d)) (fun s i => s.detSet d i.words) n

/-- The detector takes what the sources of its records hold, and its bursts go on (R278). -/
def State.detPull (s : State) (d : Nat) : State :=
  match (s.det d).claimed with
  | none => s
  | some c => (((s.det d).records.map recFrom).eraseDups).foldl (fun s f => s.pullSource d c f) s

/-! ## Correlation (R280) -/

/-- `n` INT16 samples in module memory; none where a bus error hides them. -/
def State.readSamples (s : State) (a n : Nat) : State × Option (List Cplx) :=
  let x := s.readModule (engRequester 2 0) a (4 * n)
  (x.1, x.2.map samplesOfInt16)

/-- Σ|x|². -/
def energy (l : List Cplx) : Nat := lessened l (l.map abs2).sum

/-- How far C(t) may lie from its exact sum: every operation of the overlap-save on a block of `n` full-scale samples keeps 24 bits,
which together stay within 2^-14 of the product of the magnitudes (R266). (DESIGN CHOICE, log entry 14) -/
def corrBound (n : Nat) (ref : List Cplx) : Nat := 4 * n * (ref.map (fun c => c.1.natAbs + c.2.natAbs)).sum

/-- |C(t)|² and Σ|x|² of samples against a reference (R280); `near` are the samples that share their blocks. -/
def correlate (near x ref : List Cplx) : Nat × Nat :=
  let c := cplxSum ((x.zip ref).map (fun p => cplxMul p.1 (cplxConj p.2)))
  let r := fun (im : Bool) => within (corrBound (ncorr ref.length) ref) (Config.corrRounding near ref im)
  let c := (c.1 + r false, c.2 + r true)
  (lessened [c] (abs2 c), energy x)

/-- The decimated samples from `t`. -/
def Detector.window (x : Detector) (r : List W32) (fsK fft : Nat) (t : Int) (n : Nat) : List Cplx :=
  (List.range n).map (fun (i : Nat) => (x.sampleAt r fsK fft (t + (i : Int))).1)

/-- ρ in 2^-16 units, truncated: |C|² ÷ (Σ|x|² × Σ|r|²). -/
def rhoOf (c e refEnergy : Nat) : Nat := c * 65536 / (e * refEnergy)

/-- |C(t)|², which is P(t) × Σ|r|², and Σ|x|² of the lag `t`, which shares a block with the samples within NCORR of it. -/
def Detector.atLag (x : Detector) (r : List W32) (fsK fft : Nat) (ref : List Cplx) (t : Int) : Nat × Nat :=
  let n := ncorr ref.length
  correlate (x.window r fsK fft (t - (n : Int)) (2 * n)) (x.window r fsK fft t ref.length) ref

/-- The lags after `t` that its evaluation waits for: SEP of them, as far as they arrive within the NCORR − REF_LEN + 1 samples it may
take (R280). -/
def lagsAwaited (r : List W32) (n : Nat) : Nat := min (recFld r 6 31 16) (ncorr n - n + 1)

/-- The lags within ±SEP of `t` whose samples have arrived. (DESIGN CHOICE, log entry 98) -/
def Detector.lagsAround (x : Detector) (r : List W32) (fft : Nat) (t : Int) (n : Nat) : List Int :=
  let sep := recFld r 6 31 16
  ((List.range (2 * sep + 1)).map (fun (i : Nat) => t - (sep : Int) + (i : Int))).filter (fun u =>
    !(x.rawAt r fft (u * (recDecim r : Int))).2 && decide (u + (n : Int) ≤ (x.arrived r fft).getD 0))

/-! ## Contexts (R281 to R283) -/

/-- A context becomes FREE with a report (R281 to R283). -/
def State.freeCtx (s : State) (d i outcome : Nat) (decided : Bool) : State :=
  let x := s.det d
  (s.setDet d (x.setCtx i {})).detReport d i outcome (x.ctx i) (x.claimed.getD 0) decided

/-- A peak: time, power as a fraction and in 1/256 dB, ρ in 2^-16 units. -/
structure Peak where
  time : Int
  pw : Nat × Nat
  power : Int
  rho : Nat
  fft : Nat
  deriving DecidableEq, Repr

/-- One power is greater than another. -/
def stronger (a b : Nat × Nat) : Bool := decide (b.1 * a.2 < a.1 * b.2)

/-- A context starts on a peak, VALIDATING (R281). -/
def State.startCtx (s : State) (d i : Nat) (p : Peak) : State :=
  let x := s.det d
  s.setDet d { x.setCtx i { mode := 1, t0 := p.time, p0 := p.pw, power := p.power, rho := p.rho, seq := x.nextSeq, record := x.record, fft := p.fft } with
               nextSeq := (x.nextSeq + 1) % 2 ^ 32 }

/-- The decision of a VALIDATING context (R282). -/
def State.decideCtx (s : State) (d i rhoV : Nat) : State :=
  let x := s.det d
  let c := { x.ctx i with rhoV := min 65535 rhoV }
  if rhoV < recFld c.record 5 31 16 then ((s.setDet d (x.setCtx i c)).bump Reg.SPC_DET_FALSE).freeCtx d i 2 true
  else ((s.setDet d (x.setCtx i { c with mode := 2 })).detReport d i 1 c (x.claimed.getD 0) true).advanceDet d

/-- A context just started decides at once where VAL_SYMS is 0 (R282): the mean over no symbol is a free value.
(DESIGN CHOICE, log entry 98) -/
def State.decideAtOnce (s : State) (d i : Nat) : State :=
  if recFld ((s.det d).ctx i).record 5 7 0 = 0 then
    let v := s.freeBelow 65536
    s.drawn.decideCtx d i v
  else s

/-- Capture margin in 1/256 dB: 6 dB, or MARGIN in 0.5 dB (R279). -/
def detMargin (r : List W32) : Int := if bitOf (recW r 5) 15 then (recFld r 5 14 8 * 128 : Nat) else 1536

/-- A power lies the margin above another: 10 log10(P ÷ P0) ≥ margin. Any power lies above none. -/
def aboveMargin (r : List W32) (p p0 : Nat × Nat) : Bool :=
  if p0.1 * p.2 = 0 then p.1 != 0 else decide (detMargin r ≤ ratioDb (p.1 * p0.2) (p0.1 * p.2))

/-- The context a peak preempts: in whose window it falls above the margin, of the lowest P0, the lower index first (R281). -/
def Detector.preempts (x : Detector) (t : Int) (p : Nat × Nat) : Option Nat :=
  let v := [0, 1].filter (fun i =>
    let c := x.ctx i
    c.mode != 0 && decide (c.t0 + (recFld c.record 6 31 16 : Nat) < t ∧ t ≤ c.t0 + (recFld c.record 6 15 0 : Nat)) && aboveMargin c.record p c.p0)
  match v with
  | [] => none
  | i :: r => some (r.foldl (fun b k => if stronger (x.ctx b).p0 (x.ctx k).p0 then k else b) i)

/-- A peak meets the contexts (R281). -/
def State.applyPeak (s : State) (d : Nat) (p : Peak) : State :=
  let x := s.det d
  let same := [0, 1].find? (fun i => (x.ctx i).mode != 0 && decide ((p.time - (x.ctx i).t0).natAbs ≤ recFld (x.ctx i).record 6 31 16))
  match same with
  | some i =>
    let y := x.ctx i
    if stronger p.pw y.p0 then s.setDet d (x.setCtx i { y with t0 := p.time, p0 := p.pw, power := p.power, rho := p.rho }) else s
  | none => match x.preempts p.time p.pw with
    | some i =>
      let s := (s.bump Reg.SPC_DET_PREEMPT).freeCtx d i 3 ((x.ctx i).mode == 2)
      (s.startCtx d i p).decideAtOnce d i
    | none =>
      match [0, 1].find? (fun i => (x.ctx i).mode == 0) with
      | some i => (s.startCtx d i p).decideAtOnce d i
      | none => (s.bump Reg.SPC_DET_MISSED).raise Reg.SPC_EVENT 6

/-- The peak at decimated sample `t`, if the samples there make one (R280): ρ is at least DET_THRESH, and no lag within ±SEP has more
power. Full scale of one sample is 2^31 (R232). Where Σ|x|² or Σ|r|² is 0 the manual states no ρ: whatever the
command brings as `rho`; `power` is the open bit of the level in 1/256 dB. (DESIGN CHOICE, log entry 98) -/
def Detector.peakAt (x : Detector) (fsK fft : Nat) (ref : List Cplx) (t : Int) (power rho : Nat) : Option Peak :=
  let r := x.record
  let n := ref.length
  if (x.lagsAround r fft t n).contains t then
    let c := x.atLag r fsK fft ref t
    let er := energy ref
    let rho := if c.2 * er = 0 then rho % 65537 else rhoOf c.1 c.2 er
    if recFld r 4 15 0 ≤ rho && (x.lagsAround r fft t n).all (fun u => decide ((x.atLag r fsK fft ref u).1 ≤ c.1)) then
      some { time := t, pw := (c.1, max 1 er), power := dbBy power c.1 (max 1 er * 2 ^ 31), rho := min 65535 rho, fft := fft }
    else none
  else none

/-- Transform length of the slot that holds decimated sample `t`, counted at that length's rate; the felt set's where none does (R58). -/
def State.fftAt (s : State) (c : Nat) (r : List W32) (t : Int) : Nat :=
  let felt := (spcPage (s.carrier c).ul.felt).fft
  ((felt :: fftSizes).find? (fun f => s.slotFft c .ul (t / ((slotSamples f / recDecim r : Nat) : Int)) == f)).getD felt

/-- PEAK (R280, R281): the correlator evaluates the lag at decimated sample `t`, counted from the air boundary of slot 0, once the lags
it waits for have arrived; lags are evaluated in time order. (DESIGN CHOICE, log entry 98) -/
def State.peak (s : State) (d : Nat) (t : Int) (power rho : Nat) : State :=
  if recMode (s.det d).record != 1 || (s.det d).claimed.isNone then s
  else
    let s := s.detPull d
    let x := s.det d
    let c := x.claimed.getD 0
    let n := recRefLen x.record
    let fft := s.fftAt c x.record t
    let y := s.readSamples (recRef x.record) n
    match y.2 with
    | none => y.1
    | some ref =>
      if !s.spcServes || !(x.arrived x.record fft).any (fun e => decide (t + ((lagsAwaited x.record n + n : Nat) : Int) ≤ e)) || x.lastPeak.any (fun l => decide (t ≤ l)) then y.1
      else
        match x.peakAt (fsKhz (s.carrier c).cfg fft) fft ref t power rho with
        | some p => (y.1.setDet d { x with lastPeak := some t }).applyPeak d p
        | none => y.1

def execPeak (det : Nat) (time : Int) (power rho : Nat) (s : State) : Res := s.whenClocked fun s =>
  .next (s.peak det time power rho)

/-- ρ_v in 2^-32 units of validation symbol `v`: the REF_LEN samples from t0 + v × REF_LEN against the reference at lag 0 (R282). Where
Σ|x|² or Σ|r|² is 0 the manual states no value: `open'`. -/
def Detector.rhoV (x : Detector) (c : DetCtx) (fsK : Nat) (ref : List Cplx) (open' v : Nat) : Nat :=
  let l := x.window c.record fsK c.fft (c.t0 + ((v * ref.length : Nat) : Int)) ref.length
  let w := correlate l l ref
  if w.2 * energy ref = 0 then open' else w.1 * 2 ^ 32 / (w.2 * energy ref)

/-- VALIDATION_DECISION (R282): due once the last validation sample has arrived. The symbols' correlation costs REF_LEN transform samples
each (R287). Where the manual states no ρ_v, a reference that a bus error hides included, it is whatever the
command brings as `rhoV`. (DESIGN CHOICE, log entry 98) -/
def State.validationDecision (s : State) (d i rhoV : Nat) : State :=
  let s := s.detPull d
  let x := s.det d
  let c := x.ctx i
  let val := recFld c.record 5 7 0
  let n := recRefLen c.record
  let cfg := (s.carrier (x.claimed.getD 0)).cfg
  if s.spcServes && c.mode = 1 && 0 < val && (x.arrived c.record c.fft).any (fun e => decide (c.t0 + (((val + 1) * n : Nat) : Int) ≤ e)) then
    let y := s.readSamples (recRef c.record) n
    let free := rhoV % (2 ^ 32 + 1)
    let ref := y.2.getD []
    let mean := ((List.range val).map (fun v => x.rhoV c (fsKhz cfg c.fft) ref free (v + 1))).sum / (val * 65536)
    (y.1.pipeWork (ncorr n) (val * n / 4)).decideCtx d i mean
  else s

def execValidationDecision (det ctx rhoV : Nat) (s : State) : Res := s.whenClocked fun s => .next (s.validationDecision det ctx rhoV)

/-- BURST_DONE (R282): due once the last sample has arrived; it is sent, the context reports DONE and becomes FREE. -/
def State.burstDone (s : State) (d i : Nat) : State :=
  let s := s.detPull d
  let x := s.det d
  let y := x.ctx i
  if y.mode = 2 && (x.arrived y.record y.fft).any (fun e => decide (y.t0 + ((recW y.record 8).toNat : Int) ≤ e)) then
    let s := if y.hasData then (s.burstItems d (x.claimed.getD 0) y.total true y (y.total / 2040 + 2)).1 else s
    s.freeCtx d i 4 true
  else s

def execBurstDone (det ctx : Nat) (s : State) : Res := s.whenClocked fun s => .next (s.burstDone det ctx)

/-- Ends the active contexts of a detector that `hit` names, ABORTED (R278, R283). -/
def State.abortDet (s : State) (d : Nat) (hit : DetCtx → Bool) : State :=
  [0, 1].foldl (fun s i => let c := (s.det d).ctx i; if c.mode != 0 && hit c then s.freeCtx d i 5 (c.mode == 2) else s) s

/-- Releases a detector (R278). -/
def State.releaseDet (s : State) (d : Nat) : State := (s.abortDet d (fun _ => true)).setDet d {}

/-! ## Claims (R278, R279) -/

/-- The range of detectors a U3 page claims (R269). -/
def detRange (w : SetWords) : Nat × Nat :=
  let f := setFld w 3 6 31 23
  (f, min (setFld w 3 6 22 13) (512 - f))

/-- The fields of a detector record that a clamp can change: word, high and low bit (R279). -/
def clampedFields : List (Nat × Nat × Nat) :=
  [(0, 31, 30), (0, 29, 28), (0, 27, 22), (0, 21, 19), (1, 31, 0), (4, 31, 21), (5, 14, 8), (5, 7, 0), (6, 31, 16), (6, 15, 0), (7, 31, 16),
   (8, 31, 0), (11, 31, 24), (11, 23, 16), (12, 31, 19), (12, 18, 15), (12, 10, 0), (13, 31, 16)]

/-- Clamps made between a record as read and as taken. -/
def recordClamps (raw r : List W32) : Nat :=
  (clampedFields.filter (fun f => recFld raw f.1 f.2.1 f.2.2 != recFld r f.1 f.2.1 f.2.2)).length

/-- Reads one record at a UL couch; a record that a bus error hides is MODE off; every clamp is counted (R278, R279, R392).
(DESIGN CHOICE, log entry 98) -/
def State.readRecord (s : State) (c d : Nat) (w : SetWords) : State :=
  let p := spcPage w
  let x := s.readModule (engRequester 2 0) (setWord64 w 3 4 / 64 * 64 + 64 * (d - (detRange w).1)) 64
  let raw := match x.2 with
    | some b => (List.range 16).map (fun i => BitVec.ofNat 32 (natOfBytes ((b.drop (4 * i)).take 4)))
    | none => List.replicate 16 0
  let r := clampRecord raw p.nAnt (fsKhz (s.carrier c).cfg p.fft * 500)
  let s := if x.2.isSome then x.1.bumpFld Reg.SPC_CLAMP_COUNT 15 0 (recordClamps raw r) else x.1
  let y := s.det d
  s.setDet d (if y.claimed = some c then { y with record := r, sets := if recFrom r == recFrom y.record then y.sets else [] }
    else { claimed := some c, record := r })

/-- The detectors at a UL couch of a carrier that goes on (R278). -/
def State.detCouch (s : State) (c : Nat) (w : SetWords) : State :=
  let r := detRange w
  let s := (mapKeys s.spc.dets).foldl (fun s d =>
    if (s.det d).claimed = some c && !(r.1 ≤ d && d < r.1 + r.2) then s.releaseDet d else s) s
  (List.range r.2).foldl (fun s i =>
    match (s.det (r.1 + i)).claimed with
    | some o => if o = c then s.readRecord c (r.1 + i) w else s.raise Reg.SPC_EVENT 7
    | none => s.readRecord c (r.1 + i) w) s

/-- The UL boundary at which a carrier leaves RUNNING: its detectors are released (R278). -/
def State.detStop (s : State) (c : Nat) : State :=
  (mapKeys s.spc.dets).foldl (fun s d => if (s.det d).claimed = some c then s.releaseDet d else s) s

/-- A slot abort of a UL slot ends the contexts whose t0 lies in it (R283). -/
def State.detSlotAbort (s : State) (c : Nat) (n : Int) : State :=
  (mapKeys s.spc.dets).foldl (fun s d =>
    if (s.det d).claimed = some c then s.abortDet d (fun x => (s.detPlace c x.record x.fft x.t0).1 == n) else s) s

/-! ## Occasions (R285, R286) -/

/-- A detection: root, lag, PDP value and the fraction of its root's PDP in 2^-16 units. -/
structure Found where
  root : Nat
  lag : Nat
  pdp : Nat
  rho : Nat
  deriving DecidableEq, Repr

/-- Puts a detection in its place: strongest first (R285). -/
def insertFound (x : Found) (l : List Found) : List Found :=
  match l with
  | [] => [x]
  | y :: r => if y.pdp < x.pdp then x :: l else y :: insertFound x r

/-- One detection of an occasion report (R286). Full scale of one sample is 2^31 (R232). -/
def State.detectionWords (s : State) (ncs : Nat) (x : Found) : List W32 :=
  let sh := if ncs = 0 then 0 else x.lag / ncs
  let dl := if ncs = 0 then x.lag else x.lag % ncs
  [BitVec.ofNat 32 (x.root % 4 * 2 ^ 30 + sh % 2 ^ 14 * 2 ^ 16 + dl % 2 ^ 16),
   BitVec.ofNat 32 (unsignedOf 16 (min 32767 (s.dbOf x.pdp (2 ^ 159))) * 2 ^ 16 + x.rho % 65536)]

/-- The bins of an occasion, one list per repetition, in units of 2^-32 (R285): K_OFF to K_OFF + L_RA − 1 of each transformed block, or the
sets of SOURCE 2. -/
def Detector.occasionBins (x : Detector) (fsK fft : Nat) (t : Int) : List (List Cplx) :=
  let r := x.record
  let len := recFld r 12 31 19
  let lra := recFld r 12 10 0
  if recSource r = 2 then (x.sets.take (recFld r 12 18 15)).map (fun b => b.map (fun c => rotated c 0 1))
  else (List.range (recFld r 12 18 15)).map (fun (q : Nat) =>
    rounded false (x.window r fsK fft (t + ((q * len : Nat) : Int)) len) ((List.range lra).map (fun i => recFld r 13 31 16 + i)))

/-- The power-delay profile of one root, in units of 2^-128 (R285). -/
def profile (len : Nat) (bins : List (List Cplx)) (root : List Cplx) : List Nat :=
  let per := bins.map (fun b =>
    let y := (b.zip root).map (fun p => cplxMul p.1 (cplxConj p.2))
    rounded true (y ++ List.replicate (len - y.length) (0, 0)) (List.range len))
  (List.range len).map (fun t => let v := per.map (fun p => p.getD t (0, 0)); lessened v (v.map abs2).sum)

/-- The detections of one root: lags whose share of the profile is at least DET_THRESH and which are the largest within ±SEP lags. Of a
profile that is all 0 the manual states no share: `open'`. (DESIGN CHOICE, log entry 98) -/
def foundIn (q thresh sep open' : Nat) (pdp : List Nat) : List Found :=
  let sum := pdp.sum
  ((pdp.zip (List.range pdp.length)).filterMap (fun v =>
    let share := if sum = 0 then open' else v.1 * 65536 / sum
    let near := (pdp.drop (v.2 - sep)).take (min v.2 sep + sep + 1)
    if thresh ≤ share && near.all (fun u => decide (u ≤ v.1)) then some ⟨q, v.2, v.1, min 65535 share⟩ else none))

/-- The samples of an occasion from `t` are there: REPS blocks, or REPS sets (R285). -/
def Detector.occasionDue (x : Detector) (fft : Nat) (t : Int) : Bool :=
  let r := x.record
  let reps := recFld r 12 18 15
  if recSource r = 2 then decide (reps ≤ x.sets.length)
  else (x.arrived r fft).any (fun e => decide (t + ((reps * recFld r 12 31 19 : Nat) : Int) ≤ e))

/-- An occasion report (R286): only SLOT, OFFSET, the count, SEQ and TIME stand beside the outcome. -/
def State.occasionReport (s : State) (d : Nat) (slot : W32) (place : Int × Nat × Int) (found : List Found) : State :=
  let x := s.det d
  let r := x.record
  let t := shortStampOf place.2.2
  let head := qwOfWords [BitVec.ofNat 32 (6 * 2 ^ 28), slot, BitVec.ofNat 32 (recFld r 11 15 0), BitVec.ofNat 32 found.length, 0,
    BitVec.ofNat 32 x.nextSeq, t.setWidth 32, (t >>> 32).setWidth 32]
  let ws := found.flatMap (s.detectionWords (recFld r 13 15 0))
  let s := s.drawn.setDet d { x with nextSeq := (x.nextSeq + 1) % 2 ^ 32 }
  let qid := recFld r 9 15 0
  let s := if qid = 0xFFFF then s else
    let y := s.pushItem qid (.engine (64 + d)) 6 (BitVec.ofNat 16 d) (head :: (chunks ws.length 8 ws).map qwOfWords)
    y.1.noteEngCommit 2 y.2
  s.doneFlag (bitOf (recW r 10) 31) (recFld r 10 16 0) (recFld r 10 21 17)

/-- Advances SPC_DET_MISSED by `n` with its event. -/
def State.missDets (s : State) (n : Nat) : State := if n = 0 then s else (s.bumpFld Reg.SPC_DET_MISSED 31 0 n).raise Reg.SPC_EVENT 6

/-- OCCASION (R285 to R287): due once the last sample of the slot's occasion has arrived. Occasions take the two contexts in turn; one that
begins before the second last has ended is skipped and counted. A root that a bus error hides finds nothing;
`found` is the share of every lag where the profile is all 0, which the manual leaves open. (DESIGN CHOICE, log entry 98) -/
def State.occasion (s : State) (d : Nat) (slot : W32) (found : Nat) : State :=
  let s := s.detPull d
  let x := s.det d
  let r := x.record
  match x.claimed with
  | none => s
  | some c =>
    let n := s.slotOfStamp c .ul slot
    let cfg := (s.carrier c).cfg
    let fft := s.slotFft c .ul n
    let len := recFld r 12 31 19
    let reps := recFld r 12 18 15
    let lra := recFld r 12 10 0
    let t := n * ((slotSamples fft / recDecim r : Nat) : Int) + (recFld r 11 15 0 : Int)
    if !s.spcServes || recMode r != 2 || (indexOf cfg.spf n) % recFld r 11 31 24 != recFld r 11 23 16 || !x.occasionDue fft t
        || x.occs.any (fun o => decide (t ≤ o.1)) then s
    else if decide (2 ≤ (x.occs.filter (fun o => decide (t < o.2))).length) then s.missDets 1
    else
      let roots := recFld r 12 14 13 + 1
      let bins := x.occasionBins (fsKhz cfg fft) fft t
      let y := s.readSamples (recRef r) (roots * lra)
      let refs := y.2.getD []
      let free := found % 65537
      let all := ((List.range (if y.2.isSome then roots else 0)).flatMap (fun q =>
        foundIn q (recFld r 4 15 0) (recFld r 6 31 16) free (profile len bins ((refs.drop (q * lra)).take lra)))).foldl (fun l f => insertFound f l) []
      let cost := (if recSource r = 2 then 0 else reps * len) + roots * len
      let s := (y.1.pipeWork len (cost / 4)).missDets (all.length - 64)
      let s := s.setDet d { s.det d with occs := ((t, t + ((reps * len : Nat) : Int)) :: x.occs).take 2,
                                         sets := if recSource r = 2 then x.sets.drop reps else x.sets }
      s.occasionReport d slot (s.detPlace c r fft t) (all.take 64)

def execOccasion (det : Nat) (slot : W32) (found : Nat) (s : State) : Res := s.whenClocked fun s => .next (s.occasion det slot found)

/-- SPC_DET_STATE (R290). -/
def State.detState (s : State) : W32 :=
  let x := s.det (s.fld Reg.SPC_DET_SEL 8 0)
  BitVec.ofNat 32 (x.claimed.getD 0 * 2 ^ 13 + b2n x.claimed.isSome * 2 ^ 12 + recMode x.record * 2 ^ 4 + x.ctx1.mode * 4 + x.ctx0.mode)

/-- The parts of a slot abort that fall to the engines (R241, R262, R283, R289). -/
def State.enginesSlotAbort (s : State) (c : Nat) (h : Half) (n : Int) : State :=
  let hit := fun (j : EngJob) => j.carrier == c && j.half == h && j.slotNum == n
  let s := ((s.abortJobs 0 hit spaUndo).abortJobs 1 hit (fun s _ => s)).abortJobs 2 hit (fun s _ => s)
  match h with
  | .ul => s.detSlotAbort c n
  | .dl => s

end Sys2Proof.Machine
end

