-- ==== Sys2Proof/Machine/Dma.lean ====
section
/-! DEFINITION. DMA channels and their programs (R208 to R225). -/

namespace Sys2Proof.Machine

def State.chan (s : State) (c : Nat) : DmaChan := mapGet (fun _ => {}) s.dma.chans c
def State.setChan (s : State) (c : Nat) (x : DmaChan) : State :=
  if c < 1024 then { s with dma.chans := mapSet (fun _ => {}) s.dma.chans c x } else s

/-- Spine requester of a channel's engine (R208). -/
def dmaRequester (c : Nat) : Nat := 24 + c / 16
/-- Function in whose name the channel reaches host memory (R209). -/
def State.chanFn (s : State) (c : Nat) : Nat := s.fld (Reg.DMA_CH_CFG c) 29 24

/-- In whose name a program writes host memory: the channel's function, the QID its descriptor or run item came by, and its
TAG (R110). (DEDUCED, log entry 36) -/
def State.behalf (s : State) (c : Nat) (p : DmaProg) : OnBehalf :=
  ⟨s.chanFn c, match p.origin with | .host r => r.ring | .item _ _ _ _ => s.fld (Reg.DMA_CH_CFG c) 15 0, p.tag⟩

/-- The started program of a channel. -/
def DmaChan.current (x : DmaChan) : Option DmaProg :=
  match x.list with
  | p :: _ => if p.started then some p else none
  | [] => none

/-- DMA_CH_STATE_c.STATE (R210). -/
def DmaChan.stateCode (x : DmaChan) : Nat :=
  match x.enable, x.current with
  | false, none => 0
  | false, some _ => 4
  | true, none => 1
  | true, some p => if p.wait.isSome then 3 else 2

def DmaChan.setHead (x : DmaChan) (p : DmaProg) : DmaChan := { x with list := p :: x.list.drop 1 }
def State.setProg (s : State) (c : Nat) (p : DmaProg) : State := s.setChan c ((s.chan c).setHead p)

/-- Names the two readers a channel is: of its run-item queue, and in a WAIT (R210, R218). -/
def runReader (c : Nat) : Consumer := .dma c
def waitReader (c : Nat) : Consumer := .dma (1024 + c)

/-- A reader leaves the consumers stalled on a queue; an item it was given and has not taken up is consumed. -/
def State.unstall (s : State) (qid : Nat) (r : Consumer) : State :=
  let q := s.queue qid
  s.setQueue qid { q with stalled := q.stalled.filter (· != r), released := q.released.filter (·.1 != r),
                          served := q.served.filter (·.1 != r) }

/-! ## Ends -/

/-- Tells a program's origin its end: a completion, or the status item and then the DONE flag (R211, R212). -/
def State.reportProg (s : State) (c : Nat) (p : DmaProg) (status specific : Nat) : State :=
  match p.origin with
  | .host ref => s.complete { ref with clamped := ref.clamped || p.clamped } status specific
  | .item doneEn doneFlag doneTask doneQid =>
    let s := if doneQid = 0xFFFF then s else
      (s.pushItem doneQid (.dma c) 7 (p.tag.setWidth 16) [qwOfWords (statusBytes p.tag status specific p.clamped s.stampNow)]).1
    if doneEn then s.notify (.dma c) doneTask doneFlag else s

/-- Host writes in the program's name wait for Bus Master Enable. -/
def State.writesWait (s : State) (w : OnBehalf) : Bool :=
  (s.fnOf w.fn).waiting.any (fun x => x.kind == 0 && x.qid == w.qid && x.tag == w.tag)

/-- Tells a started program's end once its host writes have been issued (R94, R224). (DEDUCED, log entry 36) -/
def State.reportEnd (s : State) (c : Nat) (p : DmaProg) (status specific : Nat) : State :=
  let w := s.behalf c p
  if s.writesWait w then { s with dma.ended := s.dma.ended ++ [⟨c, p, w, status, specific⟩] } else s.reportProg c p status specific

/-- The ends that no host write holds any more are told, oldest first (R94). -/
def State.settleEnded (s : State) : State :=
  let go := s.dma.ended.filter (fun e => !s.writesWait e.behalf)
  go.foldl (fun s e => s.reportProg e.ch e.prog e.status e.specific)
    { s with dma.ended := s.dma.ended.filter (fun e => s.writesWait e.behalf) }

/-- Counts a program's end (R225). -/
def State.countProg (s : State) (c status : Nat) : State :=
  let s := s.bumpFld (Reg.DMA_CH_COUNT c) 15 0 1
  if status = stBAD then s.bumpFld (Reg.DMA_CH_COUNT c) 31 16 1 else s

/-- At the end of a drain a pending enable takes effect and its descriptors complete (R24, R210, R223). -/
def State.settleChan (s : State) (c : Nat) : State :=
  let x := s.chan c
  if x.enablePending && x.current.isNone then
    (s.setChan c { x with enable := true, pqStopped := false, enablePending := false, enableRefs := [] }).completeAll x.enableRefs stOK
  else s

/-- The started program of a channel ends (R213, R221, R222). -/
def State.endProg (s : State) (c : Nat) (p : DmaProg) (status specific : Nat) : State :=
  let s := match p.wait with
    | some w => match w.qid with | some q => s.unstall q (waitReader c) | none => s
    | none => s
  let s := s.setChan c { s.chan c with list := (s.chan c).list.drop 1 }
  ((s.countProg c status).reportEnd c p status specific).settleChan c

/-- A bus error ends the program BAD: its addresses are recorded and the event is set (R221). -/
def State.badProg (s : State) (c : Nat) (p : DmaProg) (instr data : Nat) : State :=
  let s := (s.wr (Reg.DMA_CH_BADADDR_LO c) (BitVec.ofNat 32 instr)).wr (Reg.DMA_CH_BADADDR_HI c) (BitVec.ofNat 32 (instr / 2 ^ 32))
  let s := (s.wr (Reg.DMA_CH_BADDATA_LO c) (BitVec.ofNat 32 data)).wr (Reg.DMA_CH_BADDATA_HI c) (BitVec.ofNat 32 (data / 2 ^ 32))
  (s.raise Reg.DMA_EVENT 0).endProg c p stBAD p.index

/-! ## Acceptance -/

/-- Puts an accepted program at the end of the channel's list. -/
def State.addProg (s : State) (c : Nat) (p : DmaProg) : State := s.setChan c { s.chan c with list := (s.chan c).list ++ [p] }

/-- A program is accepted, or refused with a status (R211). An unbound program takes the current reference frame. -/
def State.acceptProg (s : State) (c : Nat) (p : DmaProg) (immediate : Bool) (stamp : W32) : State × Option Nat :=
  let x := s.chan c
  if p.carrier = 0xFFFF then
    if !x.enable then (s, some stDISABLED)
    else if 16 ≤ x.list.length then (s, some stREFUSED)
    else (s.addProg c { p with slotNum := s.slt.nextFrame - 1 }, none)
  else match s.nameSlot p.carrier p.half immediate stamp with
  | .disabled => (s, some stDISABLED)
  | .refused => (s, some (if x.enable then stREFUSED else stDISABLED))
  | .slot n =>
    if !x.enable then (s, some stDISABLED)
    else if 16 ≤ x.list.length then (s, some stREFUSED)
    else (s.addProg c { p with slotNum := n }, none)

/-- A PROG field: bits 4:0 are taken as 0. -/
def progAddr (v : W64) : W64 := v &&& ~~~0x1F#64

/-- DMA_RUN (R211). -/
def State.dmaRun (s : State) (d : Desc) : State :=
  let c := d.fld 0x10 9 0
  let cid := carrierField d.carrier
  let prog := d.w64 0x18
  let cl := carrierClamped d.carrier || (cid != 0xFFFF && halfClamped (d.fld 0x10 31 30)) || progAddr prog != prog
  let s := s.clampDesc d cl Reg.DMA_CLAMP_COUNT
  let p : DmaProg := { origin := .host (d.ref cl), tag := d.tag, prog := progAddr prog, carrier := cid,
                       half := halfField (d.fld 0x10 31 30), slotNum := 0 }
  if s.bit (Reg.DMA_CH_CFG c) 31 && (s.chan c).enable then
    match s.acceptProg c p d.immediate d.slot with
    | (_, some 2) => s.complete (d.ref cl) stDISABLED 0
    | _ => s.complete (d.ref cl) stREFUSED 0
  else match s.acceptProg c p d.immediate d.slot with
  | (s, some st) => s.complete (d.ref cl) st 0
  | (s, none) => s

def execDmaRun (d : Desc) (s : State) : Res := s.whenClocked fun s => .next (s.dmaRun d)

/-- The program a run item describes, with what its acceptance needs besides (R212). -/
def runItemProg (w : QWord) : DmaProg × Bool × W32 :=
  let cf := bitsOf (qwWord w 3) 15 0
  let cid := carrierField cf
  let h := bitsOf (qwWord w 3) 29 28
  let prog : W64 := (qwWord w 1).setWidth 64 <<< 32 ||| (qwWord w 0).setWidth 64
  let cl := carrierClamped cf || (cid != 0xFFFF && halfClamped h) || progAddr prog != prog
  ({ origin := .item (bitOf (qwWord w 5) 31) (bitsOf (qwWord w 5) 21 17) (bitsOf (qwWord w 5) 16 0) (bitsOf (qwWord w 6) 15 0),
     tag := qwWord w 2, prog := progAddr prog, carrier := cid, half := halfField h, slotNum := 0, clamped := cl },
   bitOf (qwWord w 3) 31, qwWord w 4)

/-- A run item: its program is accepted, or its status item and flag tell why not (R212). -/
def State.runItem (s : State) (c : Nat) (w : QWord) : State :=
  let x := runItemProg w
  let s := s.clampIf x.1.clamped Reg.DMA_CLAMP_COUNT
  match s.acceptProg c x.1 x.2.1 x.2.2 with
  | (s, some st) => s.reportProg c x.1 st 0
  | (s, none) => s

/-- What a channel does with the outcome of a read of its run-item queue (R210). -/
def State.runRead (s : State) (c : Nat) (r : ReadResult) : State :=
  match r with
  | .item i => s.runItem c (i.words.headD 0)
  | .stalls => s
  | .ended _ => (s.setChan c { s.chan c with pqStopped := true }).raise Reg.DMA_EVENT 3

/-- RUN_ITEM_READ (R210): a QUEUE channel with room reads its queue; released by a slot abort, it reads again at once. -/
def State.runItemRead (s : State) (c : Nat) : State :=
  let x := s.chan c
  let qid := s.fld (Reg.DMA_CH_CFG c) 15 0
  if s.bit (Reg.DMA_CH_CFG c) 31 && x.enable && !x.pqStopped && decide (x.list.length < 16) then
    let r := s.readQueue qid (runReader c)
    let r := if r.2 = .ended stABORTED then r.1.readQueue qid (runReader c) else r
    r.1.runRead c r.2
  else s

def execRunItemRead (ch : Nat) (s : State) : Res := s.whenClocked fun s => .next (s.runItemRead ch)

/-- PROGRAM_START (R210): the next pending program starts where none runs. -/
def execProgramStart (ch : Nat) (s : State) : Res := s.whenClocked fun s =>
  let x := s.chan ch
  match x.list with
  | p :: _ => if x.enable && !p.started then .next (s.setProg ch { p with started := true }) else .next s
  | [] => .next s

/-! ## Fetch -/

/-- The addresses of instruction `k` and of the one the program stands at. -/
def DmaProg.addrOf (p : DmaProg) (k : Nat) : Nat := (p.prog.toNat + 32 * k) % 2 ^ 64
def DmaProg.pc (p : DmaProg) : Nat := p.addrOf p.index

/-- What the fetch of instruction `k` comes to: its eight words, or a bus error. `inst` is what host memory holds there. -/
def State.fetchAt (s : State) (c : Nat) (p : DmaProg) (k : Nat) (inst : List W32) : State × Option (List W32) :=
  let r := s.readSpine (dmaRequester c) (s.chanFn c) (p.addrOf k) 32 (inst.flatMap (fun w => bytesOfNat 4 w.toNat))
  match r.2 with
  | .error _ => (r.1, none)
  | .ok b => (r.1, some ((List.range 8).map (fun i => BitVec.ofNat 32 (natOfBytes ((b.drop (4 * i)).take 4)))))

/-- Fetches up to `n` more instructions in straight-line order, those in host memory as far as `inst` gives their words (R213). -/
def State.fetchAhead (s : State) (c : Nat) (p : DmaProg) (inst : List W32) (n : Nat) : State × DmaProg :=
  match n with
  | 0 => (s, p)
  | m + 1 =>
    let k := p.index + p.fetched.length
    let host := decide (2 ^ 63 ≤ p.addrOf k)
    if 4096 ≤ k ∨ (host ∧ inst.length < 8) then (s, p)
    else
      let r := s.fetchAt c p k (inst.take 8)
      r.1.fetchAhead c { p with fetched := p.fetched ++ [r.2] } (if host then inst.drop 8 else inst) m

/-- The instruction the program stands at, as it stood when it was fetched; none is a bus error of that fetch. How far ahead, up
to 8, the channel has fetched is open: a free value. `inst` holds the words of the instructions fetched here that lie in host
memory (R213). (DESIGN CHOICE, log entry 106) -/
def State.fetchInstr (s : State) (c : Nat) (p : DmaProg) (inst : List W32) : State × DmaProg × Option (List W32) :=
  if 4096 ≤ p.index then (s, p, some [])
  else
    let host := decide (2 ^ 63 ≤ p.pc)
    let r := s.fetchAt c p p.index (inst.take 8)
    let x := if p.fetched.isEmpty then (r.1, { p with fetched := [r.2] }, if host then inst.drop 8 else inst) else (s, p, inst)
    let y := x.1.drawn.fetchAhead c x.2.1 x.2.2 (x.1.freeBelow 9 + 1 - x.2.1.fetched.length)
    (y.1, y.2, y.2.fetched.headD none)

/-- OP of an instruction; 5 to 15 are taken as END (R213). -/
def instrOp (i : List W32) : Nat := let o := bitsOf (i.headD 0) 31 28; if 4 < o then 0 else o

def instrW (i : List W32) (k : Nat) : W32 := i.getD k 0
def instrW64 (i : List W32) (k : Nat) : Nat := (instrW i k).toNat + (instrW i (k + 1)).toNat * 2 ^ 32

/-- Runs `f` on the instruction the channel has reached, where a program runs and stands in no WAIT and no MOVE and `due` accepts the
instruction. A fetch that failed ends the program BAD (R213, R221). (DEDUCED, log entry 50) -/
def State.atInstr (s : State) (c : Nat) (inst : List W32) (due : List W32 → Bool) (f : State → DmaProg → List W32 → State) : State :=
  match (s.chan c).current with
  | none => s
  | some p =>
    if p.wait.isSome || p.move.isSome then s
    else
      let x := s.fetchInstr c p inst
      match x.2.2 with
      | none => x.1.badProg c p p.pc p.pc
      | some i => if due i then f x.1 x.2.1 i else s

/-- An instruction with a clamped field sets the program's CLAMPED and counts once (R213, R225). (DEDUCED, log entry 50) -/
def State.clampInstr (s : State) (p : DmaProg) (cl : Bool) : State × DmaProg :=
  (s.clampIf cl Reg.DMA_CLAMP_COUNT, { p with clamped := p.clamped || cl })

/-- The program goes on with its next instruction. -/
def State.nextInstr (s : State) (c : Nat) (p : DmaProg) : State := s.setProg c { p with index := p.index + 1, fetched := p.fetched.drop 1 }

/-- END (R213): the program ends with its status and CODE. -/
def State.dmaEnd (s : State) (c : Nat) (p : DmaProg) (i : List W32) : State :=
  let odd := decide (4 < bitsOf (instrW i 0) 31 28)
  let x := s.clampInstr p odd
  x.1.endProg c x.2 p.status (if odd then 0 else bitsOf (instrW i 0) 15 0)

def execEndProgram (ch : Nat) (inst : List W32) (s : State) : Res := s.whenClocked fun s =>
  .next (s.atInstr ch inst (fun i => instrOp i == 0) (fun s p i => s.dmaEnd ch p i))

/-! ## MOVE -/

/-- addr(a, n, w) of R215. -/
def wrapAddr (a n w : Nat) : Nat := if w = 0 then (a + n) % 2 ^ 64 else a / 2 ^ w * 2 ^ w + (a + n) % 2 ^ w

/-- A WRAP field: 0 linear, else 6 to 39. -/
def wrapField (v : Nat) : Nat := if v = 0 then 0 else if v < 6 then 6 else if 39 < v then 39 else v

/-- Where a side of a MOVE starts, and its cursor afterwards (R214, R215). `mode` is 0 ABS, 1 CUR, 2 SET. -/
def moveSide (mode wrap len : Nat) (skip : Int) (addr : Nat) (cur : W64) : Nat × W64 :=
  let start := if mode = 1 then cur.toNat else addr
  let adv : Int := (len : Int) + skip
  let n := (adv % ((2 ^ 64 : Nat) : Int)).toNat
  (start, if mode = 0 then cur else BitVec.ofNat 64 (wrapAddr start n wrap))

/-- Cuts a linear transfer into bursts: at most 256 bytes, none across a 256-byte boundary of its destination (R208).
(DESIGN CHOICE, log entry 49) -/
def bursts (fuel dst off len : Nat) : List (Nat × Nat) :=
  match fuel with
  | 0 => []
  | f + 1 =>
    if len ≤ off then [] else
      let k := min (len - off) (256 - (dst + off) % 256)
      (off, k) :: bursts f dst (off + k) len

/-- Bursts of a circular transfer: units of 64 bytes from the start, the last one shorter (R216), a unit whose destination
crosses a 256-byte boundary in two (R208). (DESIGN CHOICE, log entry 49) -/
def moveUnits (dst dw len : Nat) : List (Nat × Nat) :=
  (List.range ((len + 63) / 64)).flatMap (fun k =>
    let n := min 64 (len - 64 * k)
    let room := 256 - wrapAddr dst (64 * k) dw % 256
    if n ≤ room then [(64 * k, n)] else [(64 * k, room), (64 * k + room, n - room)])

/-- Pieces of `n` bytes from byte `off` of a circular side: they stop at the region's end. -/
def sidePieces (start wrap off n : Nat) : List (Nat × Nat) :=
  let a := wrapAddr start off wrap
  if wrap = 0 then piecesOf a n
  else
    let room := 2 ^ wrap - a % 2 ^ wrap
    if n ≤ room then piecesOf a n else piecesOf a room ++ piecesOf (a / 2 ^ wrap * 2 ^ wrap) (n - room)

/-- The bursts of a transfer in order: move semantics where both sides are linear, descending where the destination overlaps the
source from above, addresses taken mod 2^64; else 64 bytes at a time in ascending order (R216). (DESIGN CHOICE, log entry 49) -/
def moveOrder (src sw dst dw len : Nat) : List (Nat × Nat) :=
  if sw = 0 ∧ dw = 0 then
    let l := bursts (len / 256 + 2) dst 0 len
    let up := (dst + (2 ^ 64 - src % 2 ^ 64)) % 2 ^ 64
    if 0 < up ∧ up < len then l.reverse else l
  else moveUnits dst dw len

/-- A MOVE begins (R214, R215): its bursts become ready. A LEN of 0 moves nothing. -/
def State.beginMove (s : State) (c : Nat) (p : DmaProg) (i : List W32) (host : List Byte) : State :=
  let w0 := instrW i 0
  let sm := bitsOf w0 27 26
  let dm := bitsOf w0 25 24
  let sw := wrapField (bitsOf w0 23 18)
  let dw := wrapField (bitsOf w0 17 12)
  let len := (instrW i 1).toNat
  let x := s.clampInstr p (sm == 3 || dm == 3 || sw != bitsOf w0 23 18 || dw != bitsOf w0 17 12)
  let a := moveSide (min sm 2) sw len (signedOf 32 (instrW i 6).toNat) (instrW64 i 2) p.srcCur
  let b := moveSide (min dm 2) dw len (signedOf 32 (instrW i 7).toNat) (instrW64 i 4) p.dstCur
  if len = 0 then x.1.nextInstr c { x.2 with srcCur := a.2, dstCur := b.2 }
  else x.1.setProg c { x.2 with move := some ⟨a.1, sw, b.1, dw, host, moveOrder a.1 sw b.1 dw len, a.2, b.2, []⟩ }

/-- The program of a channel in a MOVE, and the MOVE. -/
def DmaChan.moving (x : DmaChan) : Option (DmaProg × DmaMove) := x.current.bind (fun p => p.move.map (p, ·))

/-- The channel whose burst an engine serves next: round-robin over its channels with a burst ready (R208). -/
def State.nextBurst (s : State) (e : Nat) : Option Nat :=
  ((List.range 16).map (fun i => 16 * e + (mapGet (fun _ => 15) s.dma.turn e + 1 + i) % 16)).find? (fun c => (s.chan c).moving.isSome)

/-- Behind a burst: the rest of the MOVE, or behind the last one the program goes on with the cursors the MOVE leaves. -/
def State.afterBurst (s : State) (c : Nat) (p : DmaProg) (m : DmaMove) (rest : List (Nat × Nat)) : State :=
  if rest.isEmpty then s.nextInstr c { p with move := none, srcCur := m.srcCur, dstCur := m.dstCur }
  else s.setProg c { p with move := some { m with parts := rest } }

/-- The read of a burst at `off`: its own bytes, or all of the unit that a circular MOVE's burst begins; none for the rest of a unit
that has been read (R216). -/
def DmaMove.readOf (m : DmaMove) (off n : Nat) : Option (Nat × Nat) :=
  if m.sw = 0 ∧ m.dw = 0 then some (off, n)
  else if off % 64 = 0 then some (off, n + (match m.parts with | _ :: (o, k) :: _ => if o % 64 = 0 then 0 else k | _ => 0))
  else none

/-- An engine serves one burst of channel `c`: its bytes are read, then written; a byte of the host side that is lacking is a host
access that failed. The address that failed ends the program BAD (R208, R221). (DESIGN CHOICE, log entry 49) -/
def State.burst (s : State) (c : Nat) : State :=
  match (s.chan c).moving with
  | none => s
  | some (p, m) =>
    let s := { s with dma.turn := mapSet (fun _ => 15) s.dma.turn (c / 16) (c % 16) }
    match m.parts with
    | [] => s.afterBurst c p m []
    | (off, n) :: r =>
      let x := match m.readOf off n with
        | some (o, k) => s.readPieces (dmaRequester c) (s.chanFn c) ((m.host.drop o).take k) [] (sidePieces m.src m.sw o k)
        | none => (s, .ok m.unit)
      match x.2 with
      | .error a => x.1.badProg c p p.pc a
      | .ok b =>
        let y := x.1.writePieces (dmaRequester c) (s.behalf c p) (b.take n) none (sidePieces m.dst m.dw off n)
        match y.2 with
        | some a => y.1.badProg c p p.pc a
        | none => y.1.afterBurst c p { m with unit := b.drop n } r

/-- The engine of channel `c` serves bursts, one channel after another, at most `n` and until the MOVE of `c` has ended (R208). -/
def State.serveBursts (s : State) (c n : Nat) : State :=
  match n with
  | 0 => s
  | m + 1 =>
    match s.nextBurst (c / 16) with
    | none => s
    | some k =>
      let t := s.burst k
      if (t.chan c).moving.isSome then t.serveBursts c m else t

/-- Bursts ready at an engine. -/
def State.burstsLeft (s : State) (e : Nat) : Nat :=
  ((List.range 16).map (fun i => match (s.chan (16 * e + i)).moving with | some x => x.2.parts.length + 1 | none => 0)).sum

/-- MOVE (R208, R214 to R216): the MOVE the program stands at begins, where it has not, and its engine serves `served` bursts, or
with 0 all it takes until the MOVE has ended. (DESIGN CHOICE, log entry 49) -/
def State.dmaMove (s : State) (c : Nat) (inst : List W32) (host : List Byte) (served : Nat) : State :=
  let s := if (s.chan c).moving.isSome then s else s.atInstr c inst (fun i => instrOp i == 1) (fun s p i => s.beginMove c p i host)
  if (s.chan c).moving.isSome then s.serveBursts c (if served = 0 then s.burstsLeft (c / 16) else served) else s

/-- (DESIGN CHOICE, log entry 8) -/
def execDmaMove (ch : Nat) (inst : List W32) (run : MoveRun) (s : State) : Res := s.whenClocked fun s =>
  .next (s.dmaMove ch inst run.host run.served)

/-- DMA_BUS_ERROR (R221): the instruction the channel has reached meets a bus error, in its fetch or in the data of a MOVE; `host` is
what the host side gave before it failed. Not due where nothing fails. -/
def State.dmaBusError (s : State) (c : Nat) (inst : List W32) (host : List Byte) : State :=
  let t := s.dmaMove c inst host 0
  if (t.chan c).current.isSome then s else t

def execDmaBusError (ch : Nat) (inst : List W32) (host : List Byte) (s : State) : Res := s.whenClocked fun s => .next (s.dmaBusError ch inst host)

/-! ## LOOP -/

/-- LOOP (R217); a jump discards what was fetched ahead (R213). -/
def State.dmaLoopStep (s : State) (c : Nat) (p : DmaProg) (i : List W32) : State :=
  let lvl := bitOf (instrW i 0) 16
  let t := bitsOf (instrW i 0) 11 0
  let target := if p.index ≤ t then p.index - 1 else t
  let n := (instrW i 1).toNat
  let count := if n = 0 then 1 else n
  let x := s.clampInstr p (decide (p.index ≤ t) || n == 0)
  let left := (if lvl then p.loop1 else p.loop0).getD (count - 1)
  let set := fun (p : DmaProg) (v : Option Nat) => if lvl then { p with loop1 := v } else { p with loop0 := v }
  if 0 < left then x.1.setProg c { set x.2 (some (left - 1)) with index := target, fetched := [] }
  else x.1.nextInstr c (set x.2 none)

def execDmaLoop (ch : Nat) (inst : List W32) (s : State) : Res := s.whenClocked fun s =>
  .next (s.atInstr ch inst (fun i => instrOp i == 2) (fun s p i => s.dmaLoopStep ch p i))

/-! ## WAIT -/

/-- The boundary of slot `k` after the program's own, in ns: of its half, or the frame's start (R218, R219). -/
def State.progBoundary (s : State) (p : DmaProg) (k : Int) : Int :=
  if p.carrier = 0xFFFF then s.slt.originNs + (p.slotNum + k) * frameNs
  else (s.carrier p.carrier).cfg.boundaryNs s.slt.originNs p.half (p.slotNum + k)

/-- DL_US (R218). -/
def waitLimit (v : Nat) : Nat := if 1000000 < v then 1000000 else v

/-- The deadline of a WAIT that begins now, in u (R219). -/
def State.waitDeadlineU (s : State) (p : DmaProg) (dl : Nat) : Int :=
  if dl = 0 then s.progBoundary p 2 * uPerNs else s.tb.timeU + (dl * 1000 : Nat) * uPerNs

/-- The WAIT ends: its record of a time-out holds until the next WAIT ends, and the program goes on (R219). -/
def State.endWait (s : State) (c : Nat) (p : DmaProg) (timedOut : Bool) (status : Nat) : State :=
  s.nextInstr c { p with wait := none, timedOut := timedOut, status := worseStatus p.status status }

/-- A QUEUE wait reads its queue: an item ends it, a disable under it ends it DISABLED, a slot abort ends the program, and
an empty queue leaves the channel waiting (R218, R222, R223). -/
def State.waitRead (s : State) (c : Nat) (p : DmaProg) (qid : Nat) : State :=
  let r := s.readQueue qid (waitReader c)
  match r.2 with
  | .item _ => r.1.endWait c p false stOK
  | .stalls => r.1.setProg c p
  | .ended st =>
    if st = stDISABLED then r.1.endWait c p false stDISABLED
    else r.1.endProg c { p with wait := none } (worseStatus p.status st) 0

/-- A WAIT that begins after its deadline times out at once, without its condition (R219). (DEDUCED, log entry 93) -/
def State.beginWait (s : State) (c : Nat) (p : DmaProg) (w : DmaWait) (go : State → DmaProg → State) : State :=
  if w.deadlineU < s.tb.timeU then (s.endWait c p true stTIMEOUT).raise Reg.DMA_EVENT 1 else go s { p with wait := some w }

/-- WAIT_QUEUE (R218). -/
def State.waitQueue (s : State) (c : Nat) (p : DmaProg) (i : List W32) : State :=
  let qid := bitsOf (instrW i 0) 15 0
  let dl := bitsOf (instrW i 2) 19 0
  let x := s.clampInstr p (decide (1000000 < dl))
  if !(s.queue qid).storable then x.1.endProg c x.2 (worseStatus p.status stREFUSED) 0
  else x.1.beginWait c x.2 ⟨some qid, 0, s.waitDeadlineU p (waitLimit dl)⟩ (fun s p => s.waitRead c p qid)

def execWaitQueue (ch : Nat) (inst : List W32) (s : State) : Res := s.whenClocked fun s =>
  .next (s.atInstr ch inst (fun i => instrOp i == 3 && !bitOf (instrW i 0) 27) (fun s p i => s.waitQueue ch p i))

/-- WAIT_TIME (R218): a time already past proceeds at once. -/
def State.waitTime (s : State) (c : Nat) (p : DmaProg) (i : List W32) : State :=
  let dl := bitsOf (instrW i 2) 19 0
  let x := s.clampInstr p (decide (1000000 < dl))
  let t := (s.progBoundary p 0 + signedOf 32 (instrW i 1).toNat) * uPerNs
  x.1.beginWait c x.2 ⟨none, t, s.waitDeadlineU p (waitLimit dl)⟩ (fun s p =>
    if t ≤ s.tb.timeU then s.endWait c p false stOK else s.setProg c p)

def execWaitTime (ch : Nat) (inst : List W32) (s : State) : Res := s.whenClocked fun s =>
  .next (s.atInstr ch inst (fun i => instrOp i == 3 && bitOf (instrW i 0) 27) (fun s p i => s.waitTime ch p i))

/-- The WAIT a channel stands in ends without its condition (R219). -/
def State.timeOutWait (s : State) (c : Nat) (p : DmaProg) (w : DmaWait) : State :=
  let s := match w.qid with | some q => s.unstall q (waitReader c) | none => s
  (s.endWait c p true stTIMEOUT).raise Reg.DMA_EVENT 1

/-- The queue has given the channel's WAIT an item, or ended its stall. -/
def State.waitServed (s : State) (c q : Nat) : Bool :=
  (s.queue q).served.any (·.1 == waitReader c) || (s.queue q).released.any (·.1 == waitReader c)

/-- The condition of the WAIT a channel stands in is tried; one that is met only after the deadline does not count (R219).
(DEDUCED, log entry 93) -/
def State.tryWait (s : State) (c : Nat) (p : DmaProg) (w : DmaWait) : State :=
  match w.qid with
  | some q => if decide (w.deadlineU < s.tb.timeU) && !s.waitServed c q then s.timeOutWait c p w else s.waitRead c p q
  | none =>
    if s.tb.timeU < w.timeU then s else if w.deadlineU < w.timeU then s.timeOutWait c p w else s.endWait c p false stOK

/-- WAIT_CONDITION_MET (R218). -/
def State.waitConditionMet (s : State) (c : Nat) : State :=
  match (s.chan c).current with
  | some p => match p.wait with
    | some w => s.tryWait c p w
    | none => s
  | none => s

def execWaitConditionMet (ch : Nat) (s : State) : Res := s.whenClocked fun s => .next (s.waitConditionMet ch)

/-- The program of channel `c` still stands in a WAIT. -/
def State.inWait (s : State) (c : Nat) : Bool :=
  match (s.chan c).current with
  | some p => p.wait.isSome
  | none => false

/-- WAIT_DEADLINE (R219, R224): a condition that is met counts first, save a time that lies after the deadline; else the
WAIT times out. (DEDUCED, log entry 93) -/
def State.waitDeadline (s : State) (c : Nat) : State :=
  match (s.chan c).current with
  | some p => match p.wait with
    | some w =>
      if s.tb.timeU < w.deadlineU then s
      else
        let t := if w.qid.isNone && decide (w.deadlineU < w.timeU) then s else s.tryWait c p w
        if t.inWait c && (t.chan c).current == some p then t.timeOutWait c p w else t
    | none => s
  | none => s

/-- (DESIGN CHOICE, log entry 4) -/
def execWaitDeadline (ch : Nat) (s : State) : Res := s.whenClocked fun s => .next (s.waitDeadline ch)

/-! ## SIGNAL -/

/-- Writes of the running program wait for Bus Master Enable: a SIGNAL acts only once they have gone out (R220).
(DEDUCED, log entry 36) -/
def State.writesHeld (s : State) (c : Nat) : Bool :=
  match (s.chan c).current with
  | none => false
  | some p => s.writesWait (s.behalf c p)

/-- SIGNAL FLAGS (R220): the flags, with TO_FLAG where the latest WAIT timed out; a mask of 0 sets nothing. -/
def State.signalFlags (s : State) (c : Nat) (p : DmaProg) (i : List W32) : State :=
  let w0 := instrW i 0
  let mask := instrW i 1 ||| (if bitOf w0 26 && p.timedOut then BitVec.ofNat 32 (2 ^ bitsOf w0 25 21) else 0)
  let s := if mask = 0 then s else s.sendFlags (.dma c) (bitsOf w0 16 0) mask
  s.nextInstr c p

def execSignalFlags (ch : Nat) (inst : List W32) (s : State) : Res := s.whenClocked fun s =>
  .next (s.atInstr ch inst (fun i => !s.writesHeld ch && instrOp i == 4 && !bitOf (instrW i 0) 27) (fun s p i => s.signalFlags ch p i))

/-- The word of a SIGNAL ITEM (R220). -/
def signalWord (c : Nat) (p : DmaProg) (time : W64) : QWord :=
  qwOfWords [BitVec.ofNat 32 (c + b2n p.timedOut * 2 ^ 16), p.tag, time.setWidth 32, (time >>> 32).setWidth 32]

/-- SIGNAL ITEM (R220). -/
def State.signalItem (s : State) (c : Nat) (p : DmaProg) (i : List W32) : State :=
  let x := s.pushItem (bitsOf (instrW i 0) 15 0) (.dma c) (bitsOf (instrW i 2) 18 16) ((instrW i 2).setWidth 16) [signalWord c p s.stampNow]
  let s := if x.2 = stOK then x.1 else x.1.raise Reg.DMA_EVENT 2
  s.nextInstr c p

def execSignalItem (ch : Nat) (inst : List W32) (s : State) : Res := s.whenClocked fun s =>
  .next (s.atInstr ch inst (fun i => !s.writesHeld ch && instrOp i == 4 && bitOf (instrW i 0) 27) (fun s p i => s.signalItem ch p i))

/-! ## Abort and control -/

/-- A run item that the queue has given the channel's read is accepted before anything else acts on the channel (R224). -/
def State.finishRead (s : State) (c : Nat) : State :=
  if (s.queue (s.fld (Reg.DMA_CH_CFG c) 15 0)).served.any (·.1 == runReader c) then s.runItemRead c else s

/-- Ends every program of a channel that `hit` names, ABORTED (R222). -/
def State.abortProgs (s : State) (c : Nat) (hit : DmaProg → Bool) : State :=
  let s := s.finishRead c
  let x := s.chan c
  let waiting := x.list.filter (fun p => !p.started && hit p)
  let s := s.setChan c { x with list := x.list.filter (fun p => p.started || !hit p) }
  let s := match x.current with
    | some p => if hit p then s.endProg c p stABORTED 0 else s
    | none => s
  waiting.foldl (fun s p => (s.countProg c stABORTED).reportProg c p stABORTED 0) s

/-- DMA programs that wait and that `hit` names are returned with DISABLED (R23). -/
def State.returnProgs (s : State) (hit : DmaProg → Bool) : State :=
  (mapKeys s.dma.chans).foldl (fun s c =>
    let x := s.chan c
    let out := x.list.filter (fun g => !g.started && hit g)
    let s := s.setChan c { x with list := x.list.filter (fun g => g.started || !hit g) }
    out.foldl (fun s g => (s.countProg c stDISABLED).reportProg c g stDISABLED 0) s) s

/-- DMA_ABORT (R222). -/
def State.dmaAbort (s : State) (d : Desc) : State :=
  let c := d.fld 0x10 9 0
  let hit := fun (p : DmaProg) => p.tag == d.w 0x14
  let some' := ((s.finishRead c).chan c).list.any hit
  (s.abortProgs c hit).completeAt (d.ref false) stOK 0 (!some') s.stampNow

def execDmaAbort (d : Desc) (s : State) : Res := s.whenClocked fun s => .next (s.dmaAbort d)

/-- A slot abort acts on every program bound to the carrier, half and slot (R222). -/
def State.dmaSlotAbort (s : State) (carrier : Nat) (h : Half) (slot : Int) : State :=
  (mapKeys s.dma.chans).foldl (fun s c =>
    s.abortProgs c (fun p => p.carrier == carrier && p.half == h && p.slotNum == slot)) s

/-- A DMA_CTRL's OP 1 (R223); a run item its read was given before is read first. A second disable has no further effect (R24). -/
def State.chanDisable (s : State) (c : Nat) : State :=
  let s := s.finishRead c
  let x := s.chan c
  if x.enable then
    let s := (s.unstall (s.fld (Reg.DMA_CH_CFG c) 15 0) (runReader c)).setChan c
      { x with enable := false, list := x.list.filter (·.started) }
    (x.list.filter (!·.started)).foldl (fun s p => (s.countProg c stDISABLED).reportProg c p stDISABLED 0) s
  else s

def execDmaDisable (d : Desc) (s : State) : Res := s.whenClocked fun s => .next ((s.chanDisable (d.fld 0x10 9 0)).complete (d.ref false) stOK 0)

/-- A DMA_CTRL's OP 2 (R223, R24): during a drain it is applied at the drain's end. -/
def State.chanEnable (s : State) (d : Desc) : State :=
  let c := d.fld 0x10 9 0
  let x := s.chan c
  if x.enable then s.complete (d.ref false) stOK 0
  else (s.setChan c { x with enablePending := true, enableRefs := x.enableRefs ++ [d.ref false] }).settleChan c

def execDmaEnable (d : Desc) (s : State) : Res := s.whenClocked fun s => .next (s.chanEnable d)

/-- A DMA_CTRL whose OP is no operation; 3 is a clamp (R223). -/
def State.dmaCtrlNop (s : State) (d : Desc) : State :=
  let cl := d.fld 0x10 17 16 == 3
  (s.clampDesc d cl Reg.DMA_CLAMP_COUNT).complete (d.ref cl) stOK 0

/-- DMA_CTRL as the descriptor's OP says. -/
def State.dmaCtrl (s : State) (d : Desc) : State :=
  match d.fld 0x10 17 16 with
  | 1 => (s.chanDisable (d.fld 0x10 9 0)).complete (d.ref false) stOK 0
  | 2 => s.chanEnable d
  | _ => s.dmaCtrlNop d

/-- A write of DMA_CH_CFG_c: discarded and counted unless the channel is DISABLED (R225). -/
def State.writeChanCfg (s : State) (c : Nat) (v : W32) : State :=
  if (s.chan c).stateCode = 0 then s.writeTable (Reg.DMA_CH_CFG c) v else s.clampAt Reg.DMA_CLAMP_COUNT

end Sys2Proof.Machine
end

