-- ==== Sys2Proof/Machine/Frames.lean ====
section
/-! DEFINITION. Ethernet frames as bytes: network byte order, the FCS, headers, and the IQ compression of R304 and R305. -/

namespace Sys2Proof.Machine

/-- The number big-endian bytes spell. -/
def beNat (l : List Byte) : Nat := l.foldl (fun n b => 256 * n + b.toNat) 0

/-- Big-endian bytes of a number, `n` of them. -/
def beBytes (n v : Nat) : List Byte := (bytesOfNat n v).reverse

/-- `n` bytes from offset `o`, as a big-endian number. -/
def beAt (l : List Byte) (o n : Nat) : Nat := beNat ((l.drop o).take n)

/-! ## CRC-32 -/

/-- One bit of the CRC-32 of IEEE 802.3, in reflected form. -/
def crcBit (c : W32) : W32 := if c.getLsbD 0 then (c >>> 1) ^^^ 0xEDB88320#32 else c >>> 1

def crcByte (c : W32) (b : Byte) : W32 :=
  let c := c ^^^ b.setWidth 32
  crcBit (crcBit (crcBit (crcBit (crcBit (crcBit (crcBit (crcBit c)))))))

/-- CRC-32 with the IEEE 802.3 polynomial. (PRESUMED, log entry 54) -/
def crc32 (l : List Byte) : W32 := ~~~(l.foldl crcByte 0xFFFFFFFF#32)

/-- A frame with its FCS. -/
def withFcs (l : List Byte) : List Byte := l ++ bytesOfNat 4 (crc32 l).toNat

/-- The frame without its FCS; none where the FCS is wrong. -/
def checkFcs (l : List Byte) : Option (List Byte) :=
  let body := l.take (l.length - 4)
  if 4 ≤ l.length ∧ natOfBytes (l.drop (l.length - 4)) = (crc32 body).toNat then some body else none

/-- Zeros up to a length. (PRESUMED, log entry 54) -/
def padTo (n : Nat) (l : List Byte) : List Byte := l ++ List.replicate (n - l.length) 0

/-! ## Ethernet headers -/

/-- An Ethernet frame without FCS: addresses, Ethertype after at most one tag, and where the payload begins. -/
structure EthFrame where
  dst : Nat
  src : Nat
  etype : Nat
  offset : Nat
  payload : List Byte
  deriving DecidableEq, Repr

/-- (PRESUMED, log entry 54) -/
def ethOf (l : List Byte) : EthFrame :=
  let t := beAt l 12 2
  let o := if t = 0x8100 then 18 else 14
  { dst := beAt l 0 6, src := beAt l 6 6, etype := beAt l (o - 2) 2, offset := o, payload := l.drop o }

/-- A group address: the lowest bit of octet 0. -/
def groupAddress (a : Nat) : Bool := a / 2 ^ 40 % 2 == 1

/-- Header of a frame with an optional tag. -/
def ethHeader (dst src : Nat) (tag : Option Nat) (etype : Nat) : List Byte :=
  beBytes 6 dst ++ beBytes 6 src ++ (match tag with | some t => beBytes 2 0x8100 ++ beBytes 2 t | none => []) ++ beBytes 2 etype

/-- A PTP event message that the module stamps (R44): Sync or Delay_Req, over Ethernet, to one of the two addresses. -/
def isPtpEvent (f : EthFrame) : Bool :=
  f.etype == 0x88F7 && (f.dst == 0x011B19000000 || f.dst == 0x0180C200000E) && (beAt f.payload 0 1 % 16 ≤ 1)

/-- Writes originTimestamp, whole nanoseconds, into a PTP message (R44, R310). -/
def stampPtp (l : List Byte) (t16 : Int) : List Byte :=
  let o := (ethOf l).offset + 34
  let ns := (t16 / 65536 % 1000000000).toNat
  let sec := (t16 / 65536 / 1000000000 % 2 ^ 48).toNat
  l.take o ++ beBytes 6 sec ++ beBytes 4 ns ++ l.drop (o + 10)

/-! ## IQ compression -/

/-- A udCompParam byte precedes the PRB in wire format (R304). -/
def hasParam (meth : Nat) : Bool := meth == 1 || meth == 2 || meth == 3

/-- Bytes of one PRB in wire format. -/
def wireBytes (meth w : Nat) : Nat := 3 * w + b2n (hasParam meth)

/-- O-RAN μ-law companding of one part into `w` bits (R305): the magnitude shifted left by compShift and limited to 15 bits, then three
straight pieces, each of half the slope before it, up to a quarter, a half and the whole of the range.
(PRESUMED, log entry 116) -/
def muCompress (w shift : Nat) (x : Int) : Int :=
  let m := min 32767 (x.natAbs * 2 ^ shift)
  let full := 2 ^ (w - 1)
  let y : Nat := if m ≤ 8192 then m * (2 * full) / 32768
    else if m ≤ 16384 then m * full / 32768 + full / 4
    else m * full / 65536 + full / 2
  if x < 0 then -(y : Int) else y

/-- The inverse of the three pieces, and of the shift (R305). (PRESUMED, log entry 116) -/
def muExpand (w shift : Nat) (m : Int) : Int :=
  let y := m.natAbs
  let full := 2 ^ (w - 1)
  let v : Nat := if y ≤ full / 2 then y * 32768 / (2 * full)
    else if y ≤ full / 4 * 3 then (y - full / 4) * 32768 / full
    else (y - full / 2) * 65536 / full
  if m < 0 then -((v / 2 ^ shift : Nat) : Int) else (v / 2 ^ shift : Nat)

/-- One PRB of 24 parts into wire format (R305). -/
def compressPrb (meth w scaler muShift : Nat) (parts : List Int) : List Byte :=
  let pack := fun (l : List Int) => packBits (l.flatMap (fun x => bitsOfNat w (unsignedOf w x)))
  if meth = 1 then
    let e := bfpExponent w parts
    BitVec.ofNat 8 e :: pack (parts.map (fun x => (satPart w (floorShift x e)).1))
  else if meth = 2 then
    BitVec.ofNat 8 scaler :: pack (parts.map (fun x => (satPart w (128 * x / ((scaler * 2 ^ (16 - w) : Nat) : Int))).1))
  else if meth = 3 then BitVec.ofNat 8 muShift :: pack (parts.map (muCompress w muShift))
  else pack parts

/-- One PRB from wire format to 24 parts, saturated to 16 bits (R305). -/
def decompressPrb (meth w : Nat) (l : List Byte) : List Int :=
  let p := (l.headD 0).toNat
  let m := (mantissas w (if hasParam meth then l.drop 1 else l)).take 24
  let x := if meth = 1 then m.map (fun v => v * ((2 ^ (p % 16) : Nat) : Int))
    else if meth = 2 then m.map (fun v => v * ((p * 2 ^ (16 - w) : Nat) : Int) / 128)
    else if meth = 3 then m.map (muExpand w (p % 16))
    else m
  x.map (fun v => (satPart 16 v).1)

/-- 24 parts as INT16 complex, 48 bytes (R169), and back. -/
def int16Prb (l : List Int) : List Byte := l.flatMap (fun x => bytesOfNat 2 (unsignedOf 16 x))
def partsOfInt16 (l : List Byte) : List Int := (chunks l.length 2 l).map (fun b => signedOf 16 (natOfBytes b))

/-! ## Stitch frames as bytes (R336) -/

def stfHeader (f : StfFrame) (crc : Nat) : List Byte :=
  bytesOfNat 4 (f.type % 16 * 2 ^ 28 + f.cls % 4 * 2 ^ 26 + b2n f.nak * 2 ^ 25 + f.seq % 4096 * 2 ^ 12 + f.ack % 4096)
  ++ bytesOfNat 4 (f.payload.length % 16 * 2 ^ 28 + f.hops % 32 * 2 ^ 23 + f.dst % 2 ^ 18)
  ++ bytesOfNat 4 (f.op % 256 * 2 ^ 24 + f.src % 2 ^ 18)
  ++ bytesOfNat 4 (f.crReq % 1024 * 2 ^ 20 + f.crRsp % 1024 * 2 ^ 10 + f.crNtf % 1024)
  ++ bytesOfNat 8 f.arg.toNat ++ bytesOfNat 4 f.arg2.toNat ++ bytesOfNat 4 crc

def stfBody (f : StfFrame) : List Byte := f.payload.flatMap (fun w => bytesOfNat 32 w.toNat)

def stfBytes (f : StfFrame) : List Byte := stfHeader f (crc32 (stfHeader f 0 ++ stfBody f)).toNat ++ stfBody f

end Sys2Proof.Machine
end

