-- ==== Sys2Proof/Machine/Maint.lean ====
section
/-! DEFINITION. The Colophon's maintenance scheduler (R397, R431): which activities never run together, and what waits. -/

namespace Sys2Proof.Machine

/-- The two activities of one row of the exclusion table (R397), in either order; and recalibrations, one quad at a time (R324). -/
def excludes (a b : Activity) : Bool :=
  match a, b with
  | .retrain c, .scrub d | .scrub c, .retrain d => c == d
  | .retrain c, .retrain d => c != d && c / 8 == d / 8
  | .recal p, .prbs q | .prbs p, .recal q => p == q
  | .recal p, .recal q => p != q
  | .spill k, .laneRetrain j _ | .laneRetrain j _, .spill k => j == k
  | .flashWrite, .compaction | .compaction, .flashWrite => true
  | _, _ => false

/-- Nothing that runs, and nothing of its row that waits before it, holds the activity back. -/
def State.activityFree (s : State) (a : Activity) (before : List Activity) : Bool :=
  !(s.mm.running ++ before).any (excludes a)

def State.activityRuns (s : State) (a : Activity) : Bool := s.mm.running.contains a
def State.activityWaits (s : State) (a : Activity) : Bool := s.mm.waiting.contains a

/-- The waiting activities that nothing running holds back: they start before one requested now (R397). (DEDUCED, log entry 83) -/
def State.readyFirst (s : State) : List Activity := s.mm.waiting.filter (fun a => s.activityFree a [])

/-- Requests an activity: it runs at once or waits; true where it runs (R397). (DEDUCED, log entry 83) -/
def State.requestActivity (s : State) (a : Activity) : State × Bool :=
  if s.activityRuns a then (s, true)
  else if s.activityWaits a then (s, false)
  else if s.activityFree a s.readyFirst then ({ s with mm.running := s.mm.running ++ [a] }, true)
  else ({ s with mm.waiting := s.mm.waiting ++ [a] }, false)

/-- An activity ends, or its request is withdrawn. -/
def State.endActivity (s : State) (a : Activity) : State :=
  { s with mm.running := s.mm.running.erase a, mm.waiting := s.mm.waiting.erase a }

/-- The first waiting activity that nothing holds back any more. -/
def State.startable (s : State) (before l : List Activity) : Option Activity :=
  match l with
  | [] => none
  | a :: r => if s.activityFree a before then some a else s.startable (before ++ [a]) r

/-- COL_MAINT_STATUS (R436). -/
def State.maintStatus (s : State) : W32 :=
  let kind := fun (a : Activity) => match a with
    | .scrub _ => 1 | .retrain _ => 2 | .recal _ => 4 | .flashWrite => 8 | .compaction => 16 | _ => 0
  let bit := fun (k : Nat) => if s.mm.running.any (fun a => kind a == k) then k else 0
  BitVec.ofNat 32 (min 31 s.mm.waiting.length * 2 ^ 16 + bit 1 + bit 2 + bit 4 + bit 8 + bit 16)

end Sys2Proof.Machine
end

