-- ==== Sys2Proof/Machine/Route.lean ====
section
/-! DEFINITION. The stitch fabric as the lanes and ports below it see it: identity, links that are up, the group map and its routes
(R333, R335, R338, R341, R350), and what becomes of a migration that has lost every path (R357). -/

namespace Sys2Proof.Machine

/-! ## Ports -/

def State.port (s : State) (p : Nat) : FhPort := mapGet (fun _ => {}) s.fh.ports p
def State.setPort (s : State) (p : Nat) (x : FhPort) : State :=
  if p < 96 then { s with fh.ports := mapSet (fun _ => {}) s.fh.ports p x } else s

def State.portEnabled (s : State) (p : Nat) : Bool := s.bit (Reg.FH_PORT_CFG p) 31
def State.stfPort (s : State) (k : Nat) : StfPort := mapGet (fun _ => {}) s.stf.ports k
def State.setStfPort (s : State) (k : Nat) (x : StfPort) : State :=
  if k < 12 then { s with stf.ports := mapSet (fun _ => {}) s.stf.ports k x } else s

/-- First lane and number of lanes of a stitch port (R334). -/
def State.stfLanes (s : State) (k : Nat) : Nat × Nat := (s.fld (Reg.STF_PORT_CFG k) 6 0, 2 ^ s.fld (Reg.STF_PORT_CFG k) 27 26)

/-- The record of a stitch frame (R362, R368): kind 3 received, 4 transmitted. Which CRC a broken frame carried is free.
(DESIGN CHOICE, log entry 119) -/
def State.offerStitch (s : State) (kind k : Nat) (f : StfFrame) (bad : Bool) : State :=
  let data := if bad then stfHeader f (s.freeVal.setWidth 32).toNat ++ stfBody f else stfBytes f
  (if bad then s.drawn else s).offer
    { kind := kind, index := k, type := 2, bad := bad, time := s.tb.time16, aux := (s.stfPort k).active.length, payload := data }

/-! ## Identity -/

/-- The module's system ID (R333), its GROUP and MEMBER. -/
def State.selfId (s : State) : Nat := s.fld Reg.STF_ID 17 9 * 512 + s.fld Reg.STF_ID 8 0
def State.selfGroup (s : State) : Nat := s.fld Reg.STF_ID 17 9
def State.selfMember (s : State) : Nat := s.fld Reg.STF_ID 8 0

/-- The fabric runs and takes part in discovery: EN, a valid ID, not isolated (R333, R352). (DEDUCED, log entry 71) -/
def State.fabricOn (s : State) : Bool := s.bit Reg.STF_CTRL 31 && s.bit Reg.STF_ID 31 && !s.stf.dupId

/-- The gateway port, where it is in use and up (R341). -/
def State.gatewayPort (s : State) : Option Nat :=
  let p := s.fld Reg.STF_CTRL 29 23
  if s.bit Reg.STF_CTRL 30 && s.portEnabled p && s.bit (Reg.FH_PORT_CFG p) 21 && (s.port p).up then some p else none

/-- The fabric sends HELLO: EN and a valid ID, isolated or not (R333, R352). -/
def State.greets (s : State) : Bool := s.bit Reg.STF_CTRL 31 && s.bit Reg.STF_ID 31

/-- A link is UP with at least one admitted lane (R335). -/
def StfPort.isUp (x : StfPort) : Bool := !x.active.isEmpty

/-- A peer is known after 3 HELLOs (R349). -/
def StfPort.known (x : StfPort) : Option Nat :=
  match x.peer with
  | some p => if 3 ≤ p.hellos ∧ !p.duplicate ∧ !x.foreign then some p.id else none
  | none => none

def State.portsUp (s : State) : List Nat := (List.range 12).filter (fun k => (s.stfPort k).isUp && !(s.stfPort k).foreign)

def State.gatewayEnd (s : State) (mac : Nat) : LinkEnd := mapGet (fun _ => {}) s.stf.gateways mac
def State.setGatewayEnd (s : State) (mac : Nat) (l : LinkEnd) : State :=
  { s with stf.gateways := mapSet (fun _ => {}) s.stf.gateways mac l }

/-- Where a frame goes. -/
inductive StfChan where
  | port (k : Nat)
  | gateway (mac : Nat)
  deriving DecidableEq, Repr

/-! ## Routes (R338, R350, R351) -/

def State.member (s : State) (m : Nat) : Option Member := mapGet (fun _ => none) s.stf.members m

/-- The way up from a member to the root, itself first. -/
def State.wayUp (s : State) (fuel m : Nat) : List Nat :=
  match fuel with
  | 0 => [m]
  | n + 1 =>
    match s.member m with
    | some x => if x.parent = m then [m] else m :: s.wayUp n x.parent
    | none => [m]

/-- The port whose known peer is a member of this group. (DEDUCED, log entry 64) -/
def State.portTo (s : State) (m : Nat) : Option Nat :=
  s.portsUp.find? (fun k => (s.stfPort k).known == some (s.selfGroup * 512 + m))

/-- The next member on the tree route to `m`: down where `m` lies below this module, else up (R338). (DEDUCED, log entry 64) -/
def State.nextMember (s : State) (m : Nat) : Option Nat :=
  let up := s.wayUp 32 m
  match up.idxOf? s.selfMember with
  | some (i + 1) => up[i]?
  | some 0 => none
  | none => (s.member s.selfMember).map (·.parent)

/-- The port towards the parent in the root tree; before a map, towards the best candidate. -/
def State.parentPort (s : State) : Option Nat :=
  if s.stf.root = some s.selfMember then none
  else if s.stf.mapped then (s.member s.selfMember).bind (fun x => s.portTo x.parent)
  else s.stf.bestPort

def State.groupEntry (s : State) (g : Nat) : Option GroupEntry := mapGet (fun _ => none) s.stf.sysMap g

/-- The channel on which a frame for a module leaves; none: unreachable. (DEDUCED, log entry 64) -/
def State.stfRoute (s : State) (dst : Nat) : Option StfChan :=
  if dst / 512 = s.selfGroup then
    match s.member (dst % 512) with
    | none => none
    | some _ => ((s.nextMember (dst % 512)).bind s.portTo).map .port
  else
    match s.groupEntry (dst / 512) with
    | none => none
    | some e => if s.stf.root = some s.selfMember then (if s.gatewayPort.isSome then some (.gateway e.mac) else none)
                else s.parentPort.map .port

def State.reachable (s : State) (dst : Nat) : Bool := dst == s.selfId || (s.stfRoute dst).isSome

/-- The maps hold a module: its member in the own group, its GROUP else (R343). -/
def State.inMap (s : State) (dst : Nat) : Bool :=
  dst == s.selfId || (if dst / 512 = s.selfGroup then (s.member (dst % 512)).isSome else (s.groupEntry (dst / 512)).isSome)

/-- A way to a module is up (R357). -/
def State.hasPath (s : State) (dst : Nat) : Bool :=
  dst == s.selfId || match s.stfRoute dst with
    | some (.gateway m) => !(s.gatewayEnd m).down
    | some (.port _) => true
    | none => false

/-! ## Paths of migrations (R357) -/

/-- The regions of migrations to a carrier of this module are its own from now on (R358). -/
def State.endIncoming (s : State) (dcar : Nat) : State :=
  let l := s.stf.incoming.filter (fun r => r.carrier != dcar)
  { s with stf := { s.stf with incoming := l, owned := s.stf.owned.filter (fun u => l.any (fun r => r.start == u.1)) } }

def State.dropMigration (s : State) (m : Migration) : State :=
  { s with stf.migrations := s.stf.migrations.filter (· != m) }

/-- Migrations whose destination can no longer be reached complete PATH_LOST (R357). -/
def State.migPaths (s : State) : State :=
  s.stf.migrations.foldl (fun s m =>
    if !m.completed && !s.hasPath m.dst then (s.dropMigration m).complete m.ref 0x80 0 else s) s

end Sys2Proof.Machine
end

