-- ==== Sys2Proof/Machine/Lanes.lean ====
section
/-! DEFINITION. Lanes (R314 to R332): owners, training, backoff, equalisation, lock loss, test patterns and loopbacks; with
them what the loss of a lane does to its fronthaul, spill or stitch port (R292, R323). A command that names an elapsed
time is due when it arrives in the state whose timer it names. -/

namespace Sys2Proof.Machine

def State.lane (s : State) (n : Nat) : Lane := mapGet (fun _ => {}) s.ln.lanes n
def State.setLane (s : State) (n : Nat) (l : Lane) : State :=
  if n < 96 then { s with ln.lanes := mapSet (fun _ => {}) s.ln.lanes n l } else s

/-- Codes of R318. -/
def LnMode.code : LnMode → Nat
  | .off => 0 | .send => 1 | .train => 2 | .silentWait => 3 | .ready => 4 | .up => 5 | .adapt => 6 | .loopback => 7 | .test => 8

/-- MODE: 0 OFF, 1 ETH, 2 STITCH (R314). -/
def LnOwner.mode : LnOwner → Nat
  | .none => 0 | .stitch _ => 2 | _ => 1

/-- PAM4 rates (R315). -/
def pam4 (rate : Nat) : Bool := rate == 1 || rate == 2 || rate == 3

/-- The quad of a lane is behind isolation clamps: its transmitters idle and its events are held at 0 (R406). -/
def State.laneIsolated (s : State) (n : Nat) : Bool := (s.cluster (36 + n / 4)).isolated

/-- An event of a lane; none leaves an isolated quad (R406). -/
def State.laneEvent (s : State) (n b : Nat) : State := if s.laneIsolated n then s else s.raise (Reg.LN_EVENT n) b

/-! ## SYNCE_OUT -/

/-- TB_STATUS.SYNCE_LOS follows the named lane while SYNCE_OUT is driven (R41). (DEDUCED, log entry 59) -/
def State.settleSynce (s : State) : State :=
  let los := s.bit Reg.TB_REF_CTRL 15 && (s.lane (s.fld Reg.TB_REF_CTRL 14 8)).mode != .up
  if los && !s.tb.synceLos then s.synceLos else { s with tb.synceLos := los }

/-- Divider of the recovered clock by the lane's rate code, and the frequency of SYNCE_OUT in kHz (R41, R315). -/
def synceDivider (rate : Nat) : Nat :=
  match rate with
  | 1 => 360 | 2 => 340 | 3 => 170 | 4 => 165 | 5 => 198 | 6 => 66 | 7 => 80 | _ => 0
def synceKHz (rate : Nat) : Nat := if rate = 5 ∨ rate = 7 then 122880 else 156250

/-- What SYNCE_OUT carries (R41, R42): the recovered clock of the named lane, divided, as divider and frequency in kHz; none
where the output is held low or not driven. -/
def State.synceOut (s : State) : Option (Nat × Nat) :=
  let l := s.lane (s.fld Reg.TB_REF_CTRL 14 8)
  if s.bit Reg.TB_REF_CTRL 15 && l.mode == .up then some (synceDivider l.rate, synceKHz l.rate) else none

/-! ## Ports that lose a lane -/

/-- A fronthaul port that was up goes down (R292); with the gateway port, paths of migrations may go (R357).
(DEDUCED, log entry 58) -/
def State.portDown (s : State) (p : Nat) (lane : Option Nat) : State :=
  if (s.port p).up then
    let t := (s.setPort p { up := false, fault := lane, cpriSync := false }).raise Reg.FH_EVENT 0
    if s.gatewayPort = some p then t.migPaths else t
  else s

/-- A spill port that was up goes down (R323, R376). -/
def State.spillDown (s : State) (k : Nat) (lane : Option Nat) : State :=
  if s.cap.spillUp.contains k then
    { s with cap.spillUp := s.cap.spillUp.filter (· != k),
             cap.spillFault := mapSet (fun _ => none) s.cap.spillFault k lane }.raise Reg.CAP_EVENT 3
  else s

/-- A lane of a stitch port left READY or UP: it is to be dropped at the next frame boundary (R323, R340). -/
def State.stitchLaneLost (s : State) (k n : Nat) : State :=
  let x := s.stfPort k
  let i := n - (s.stfLanes k).1
  let x := { x with pairs := x.pairs.filter (fun p => p.1 != i) }
  s.setStfPort k (if x.active.contains i && !x.dropping.contains i then { x with dropping := x.dropping ++ [i] } else x)

/-- The owner reacts to a lane that is no longer up (R323). -/
def State.ownerLosesLane (s : State) (n : Nat) : State :=
  match (s.lane n).owner with
  | .port p => s.portDown p (some n)
  | .spill k => s.spillDown k (some n)
  | .stitch k => s.stitchLaneLost k n
  | _ => s

/-! ## Entering states -/

/-- The lane adapts in place of training: TRAIN_OFF, or a CPRI owner (R317). -/
def State.laneAdapts (s : State) (n : Nat) : Bool :=
  s.bit (Reg.LN_CFG n) 31 || match (s.lane n).owner with
    | .port _ => (s.lane n).rate == 5 || (s.lane n).rate == 7
    | _ => false

/-- The lane at a rate: at NRZ rates c(-3) and c(-2) are 0 (R321). -/
def Lane.atRate (l : Lane) (rate : Nat) : Lane :=
  if rate != 0 && !pam4 rate then { l with rate := rate, cm3 := 0, cm2 := 0 } else { l with rate := rate }

/-- LN_TX_TAPS as the coefficients in force (R317, R321). -/
def State.loadTaps (s : State) (n : Nat) (l : Lane) : Lane :=
  let r := Reg.LN_TX_TAPS n
  Lane.atRate { l with cm3 := s.fld r 10 8, cm2 := s.fld r 14 11, cm1 := s.fld r 19 15, cp1 := s.fld r 24 20 } l.rate

/-- A preset's magnitudes (R321). -/
def Lane.preset (l : Lane) (k : Nat) : Lane :=
  if k = 2 then { l with cm3 := 0, cm2 := 0, cm1 := 8, cp1 := 4 }
  else if k = 3 then { l with cm3 := 0, cm2 := if pam4 l.rate then 2 else 0, cm1 := 12, cp1 := 8 }
  else { l with cm3 := 0, cm2 := 0, cm1 := 0, cp1 := 0 }

/-- A lane enters SEND at preset 1, or ADAPT (R317, R318): its receiver adaptation is cleared and its partner wait begins.
(DEDUCED, log entries 58, 60) -/
def State.enterSend (s : State) (n : Nat) : State :=
  let a := s.laneAdapts n
  let l := { s.lane n with mode := if a then .adapt else .send, adapts := a, sigDet := false, cdrLock := false, sync := false,
                           retrainPending := false }
  let s := (s.wr (Reg.LN_RX_EQ n) 0).wr (Reg.LN_RX_SNR n) 0
  (s.setLane n (if a then s.loadTaps n l else l.preset 1)).settleSynce

/-- A loopback begins (R329): code 1 and 2 from any state, 3 and 4 from READY or UP; a lane in a link is lost to it, and
leaves it at once. (DEDUCED, log entry 60) -/
def State.enterLoopback (s : State) (n code : Nat) : State :=
  let l := s.lane n
  let s := match l.owner with
    | .stitch k => s.stitchLaneLost k n
    | _ => s
  let l := { l with mode := .loopback, loop := code }
  (s.setLane n (if code = 1 then l.preset 1 else l)).settleSynce

/-- A PRBS checker of the quad of a lane other than `but` runs or waits. -/
def State.quadChecks (s : State) (q : Nat) (but : Nat) : Bool :=
  (List.range 4).any (fun i => 4 * q + i != but && (s.lane (4 * q + i)).owner == .test && s.bit (Reg.LN_TEST_CFG (4 * q + i)) 28)

/-- Ends a lane test: the lane's checker and its wait end with it (R326). -/
def State.endTest (s : State) (n : Nat) : State :=
  let s := if s.quadChecks (n / 4) n then s else s.endActivity (.prbs (n / 4))
  s.setFld (Reg.LN_TEST_CFG n) 31 31 0

/-- An owner is enabled: the lane enters SEND or ADAPT, or a loopback that was set (R314, R326, R329). -/
def State.ownLane (s : State) (n : Nat) (o : LnOwner) (rate : Nat) : State :=
  let s := if (s.lane n).owner == .test then (s.endTest n).laneEvent n 6 else s
  let code := s.fld (Reg.LN_CFG n) 27 24
  let s := (s.wakeCluster (36 + n / 4)).setLane n { owner := o, rate := rate, loop := if o.mode = 2 then code else 0 }
  if s.laneIsolated n then s
  else if o.mode = 2 && (code == 1 || code == 2) then s.enterLoopback n code else s.enterSend n

/-- The owner is disabled: the lane returns to OFF (R314). -/
def State.disownLane (s : State) (n : Nat) : State :=
  ({ s with mm.waiting := s.mm.waiting.filter (fun a => match a with | .laneRetrain _ m => m != n | _ => true) }.setLane n {}).settleSynce

/-- A port of another kind, or another port, owns one of the lanes (R292, R334, R376). -/
def State.lanesTaken (s : State) (self : LnOwner) (first count : Nat) : Bool :=
  (List.range count).any (fun i =>
    let o := (s.lane (first + i)).owner
    o != .none && o != .test && o != self)

/-! ## Training -/

/-- The lane enters TRAIN (R319). -/
def State.enterTrain (s : State) (n : Nat) : State :=
  s.setLane n { s.lane n with mode := .train, noPartner := false, backoff := 1, sigDet := true, cdrLock := true }

/-- TRAINING_FRAME (R318, R319). -/
def State.trainingFrame (s : State) (n : Nat) : State :=
  let l := s.lane n
  if (l.mode == .send || l.mode == .silentWait) && !l.adapts then s.enterTrain n else s

def execTrainingFrame (lane : Nat) (s : State) : Res := s.whenClocked fun s => .next (s.trainingFrame lane)

/-- The wait for a partner ends without one: SILENT_WAIT (R319). (DEDUCED, log entry 58) -/
def State.silentWait (s : State) (n : Nat) : State :=
  (s.setLane n { s.lane n with mode := .silentWait, noPartner := true, sigDet := false, cdrLock := false }).laneEvent n 2

/-- PARTNER_WAIT_EXPIRY (R319): 500 ms in SEND. (DESIGN CHOICE, log entry 5) -/
def execPartnerWaitExpiry (lane : Nat) (s : State) : Res := s.whenClocked fun s =>
  .next (if (s.lane lane).mode = .send then s.silentWait lane else s)

/-- ADAPT_TIMEOUT (R318): 500 ms in ADAPT without signal. (DESIGN CHOICE, log entry 5) -/
def execAdaptTimeout (lane : Nat) (s : State) : Res := s.whenClocked fun s =>
  .next (if (s.lane lane).mode = .adapt then s.silentWait lane else s)

/-- BACKOFF_EXPIRY (R319): the lane retries; the next backoff doubles up to 8 s. (DEDUCED, log entry 60) -/
def State.backoffExpiry (s : State) (n : Nat) : State :=
  let l := s.lane n
  if l.mode = .silentWait then
    ((s.setLane n { l with backoff := min 8 (2 * l.backoff) }).bumpFld (Reg.LN_COUNT n) 7 0 1).enterSend n
  else s

/-- (DESIGN CHOICE, log entry 5) -/
def execBackoffExpiry (lane : Nat) (s : State) : Res := s.whenClocked fun s => .next (s.backoffExpiry lane)

/-- c(0) (R321). -/
def Lane.c0 (l : Lane) : Nat := 64 - (l.cm3 + l.cm2 + l.cm1 + l.cp1)

/-- Answers to a coefficient request (R321), as the model's record codes them. (DESIGN CHOICE, log entry 61) -/
def ansUpdated : Nat := 1
/-- (DESIGN CHOICE, log entry 61) -/
def ansAtLimit : Nat := 2
/-- (DESIGN CHOICE, log entry 61) -/
def ansNotSupported : Nat := 3

/-- The magnitude of a tap, its range, and the lane with another magnitude: tap 0 c(-3), 1 c(-2), 2 c(-1), 3 c(+1). -/
def Lane.tap (l : Lane) (t : Fin 4) : Nat := match t with | 0 => l.cm3 | 1 => l.cm2 | 2 => l.cm1 | 3 => l.cp1
def tapMax (t : Fin 4) : Nat := match t with | 0 => 6 | 1 => 12 | 2 => 24 | 3 => 16
def Lane.setTap (l : Lane) (t : Fin 4) (v : Nat) : Lane :=
  match t with | 0 => { l with cm3 := v } | 1 => { l with cm2 := v } | 2 => { l with cm1 := v } | 3 => { l with cp1 := v }

/-- A request of the partner: a preset, or one tap up or down by 1 unit (R321). The taps c(-1) and c(+1) are negative, so
an increment lowers their magnitude. (DESIGN CHOICE, log entry 61) -/
def Lane.request (l : Lane) (preset : Nat) (t : Fin 4) (up : Bool) : Lane × Nat :=
  if 0 < preset then (l.preset preset, ansUpdated)
  else if !pam4 l.rate && (t == 0 || t == 1) then (l, ansNotSupported)
  else
    let grows := if t == 0 || t == 1 then up else !up
    let v := l.tap t
    if grows then
      let l' := l.setTap t (v + 1)
      if tapMax t < v + 1 || l'.c0 < 32 then (l, ansAtLimit) else (l', ansUpdated)
    else if v = 0 then (l, ansAtLimit)
    else (l.setTap t (v - 1), ansUpdated)

/-- COEFFICIENT_REQUEST (R321): due while the lane trains with its partner. -/
def State.coefficientRequest (s : State) (n preset : Nat) (t : Fin 4) (up : Bool) : State :=
  if (s.lane n).mode = .train then
    let x := (s.lane n).request preset t up
    (s.setLane n x.1).emit (.laneCtl n x.2)
  else s

def execCoefficientRequest (lane preset : Nat) (tap : Fin 4) (up : Bool) (s : State) : Res := s.whenClocked fun s =>
  .next (s.coefficientRequest lane preset tap up)

/-- What the receiver's adaptation comes to (R322): peaking of 0 to 20 dB and an SNR, free values.
(DESIGN CHOICE, log entry 15) -/
def State.reportRx (s : State) (n : Nat) : State :=
  let s := (s.wr (Reg.LN_RX_EQ n) (BitVec.ofNat 32 (s.freeBelow 21))).drawn
  (s.wr (Reg.LN_RX_SNR n) (BitVec.ofNat 32 (s.freeBelow 65536))).drawn

/-- Lanes of spill port `k`: 8 with SHAPE 800G, else 4, from lane 4k (R376). -/
def State.spillLanes (s : State) (k : Nat) : Nat × Nat := (4 * k, if s.fld (Reg.CAP_SPILL_CFG k) 30 29 = 1 then 8 else 4)

/-- A spill port is up once all its lanes are (R376). -/
def State.settleSpillPort (o : LnOwner) (s : State) : State :=
  match o with
  | .spill k =>
    let l := s.spillLanes k
    if (List.range l.2).all (fun i => (s.lane (l.1 + i)).mode == .up && (s.lane (l.1 + i)).owner == .spill k)
        && !s.cap.spillUp.contains k then
      { s with cap := { s.cap with spillUp := s.cap.spillUp ++ [k], spillFault := mapErase s.cap.spillFault k } }
    else s
  | _ => s

/-- The lane reaches UP (R318). (DEDUCED, log entry 58) -/
def State.laneUp (s : State) (n : Nat) : State :=
  let l := s.lane n
  State.settleSpillPort l.owner ((s.setLane n { l with mode := .up, sigDet := true, cdrLock := true, noPartner := false, backoff := 1 }).laneEvent n 0).settleSynce

/-- The receiver's own requests to its partner's transmitter, as the model's record codes them: a preset, a step of a tap.
(DESIGN CHOICE, log entry 61) -/
def reqPreset (k : Nat) : Nat := 32 + k
/-- (DESIGN CHOICE, log entry 61) -/
def reqStep (t : Fin 4) (up : Bool) : Nat := 36 + 2 * t.val + b2n up

/-- The steps that the receiver requests of one tap: how many raise the SNR enough, and which way, is open (R322).
(DESIGN CHOICE, log entry 15) -/
def State.tapSteps (s : State) (t : Fin 4) : List Nat :=
  let v := s.freeBelow (2 * (tapMax t + 1))
  List.replicate (v / 2) (reqStep t (v % 2 == 1))

/-- The requests of one training (R322): presets 1, 2 and 3, the one of the highest SNR again, then steps of c(-1), c(+1), c(-2) and
c(-3). (DESIGN CHOICE, log entry 15) -/
def State.trainRequests (s : State) : State × List Nat :=
  let best := s.freeBelow 3 + 1
  let keep := if best = 3 then [] else [reqPreset best]
  let a := s.drawn
  let b := a.drawn
  let c := b.drawn
  let d := c.drawn
  (d.drawn, [reqPreset 1, reqPreset 2, reqPreset 3] ++ keep ++ a.tapSteps 2 ++ b.tapSteps 3 ++ c.tapSteps 1 ++ d.tapSteps 0)

/-- The lane sends the requests of a training that has gone through (R322). -/
def State.sendRequests (s : State) (n : Nat) : State :=
  let x := s.trainRequests
  x.2.foldl (fun s r => s.emit (.laneCtl n r)) x.1

/-- The lane sends those it came to before its training ended: how many is open (R322). (DESIGN CHOICE, log entry 15) -/
def State.sendSomeRequests (s : State) (n : Nat) : State :=
  let x := s.trainRequests
  (x.2.take (x.1.freeBelow (x.2.length + 1))).foldl (fun s r => s.emit (.laneCtl n r)) x.1.drawn

/-- LANE_ADD: a READY lane of a stitch port names its index to its partner (R335). (DEDUCED, log entry 63) -/
def State.sendLaneAdd (s : State) (k i : Nat) : State :=
  let f : StfFrame := { type := 2, cls := 2, op := 0x36, src := s.selfId, arg2 := BitVec.ofNat 32 i }
  if s.fabricOn then (s.emit (.stitch k f [i])).offerStitch 4 k f false else s

/-- RECEIVERS_READY (R318, R322, R326, R329, R335): READY, then UP in ETH mode, TEST for a lane test, a waiting loopback or LANE_ADD in
STITCH mode. -/
def State.receiversReady (s : State) (n : Nat) : State :=
  let l := s.lane n
  if l.mode = .train then
    let s := (s.sendRequests n).reportRx n
    let s := s.setLane n { l with mode := .ready }
    match l.owner with
    | .stitch k => if l.loop = 3 ∨ l.loop = 4 then s.enterLoopback n l.loop else s.sendLaneAdd k (n - (s.stfLanes k).1)
    | .test => s.setLane n { l with mode := .test }
    | _ => s.laneUp n
  else s

def execReceiversReady (lane : Nat) (s : State) : Res := s.whenClocked fun s => .next (s.receiversReady lane)

/-- PARTNER_LOST (R320). -/
def State.partnerLost (s : State) (n : Nat) : State :=
  if (s.lane n).mode = .train then (((s.sendSomeRequests n).bumpFld (Reg.LN_COUNT n) 23 16 1).laneEvent n 4).enterSend n else s

def execPartnerLost (lane : Nat) (s : State) : Res := s.whenClocked fun s => .next (s.partnerLost lane)

/-- TRAIN_LIMIT_EXPIRY (R320). -/
def State.trainLimit (s : State) (n : Nat) : State :=
  if (s.lane n).mode = .train then (((s.sendSomeRequests n).bumpFld (Reg.LN_COUNT n) 15 8 1).laneEvent n 3).enterSend n else s

/-- (DESIGN CHOICE, log entry 5) -/
def execTrainLimitExpiry (lane : Nat) (s : State) : Res := s.whenClocked fun s => .next (s.trainLimit lane)

/-- CDR_LOCK (R318). -/
def State.cdrLock (s : State) (n : Nat) : State :=
  if (s.lane n).mode = .adapt then (s.reportRx n).laneUp n else s

/-- (DEDUCED, log entry 58) -/
def execCdrLock (lane : Nat) (s : State) : Res := s.whenClocked fun s => .next (s.cdrLock lane)

/-! ## Lock loss and retraining -/

/-- LOCK_LOSS (R323). -/
def State.lockLoss (s : State) (n : Nat) : State :=
  let m := (s.lane n).mode
  if m = .ready ∨ m = .up then
    (((s.bumpFld (Reg.LN_COUNT n) 31 24 1).laneEvent n 1).ownerLosesLane n).enterSend n
  else s

def execLockLoss (lane : Nat) (s : State) : Res := s.whenClocked fun s => .next (s.lockLoss lane)

/-- A retraining as it starts (R324). -/
def State.retrainNow (s : State) (n : Nat) : State := (s.ownerLosesLane n).enterSend n

/-- RETRAIN (R324): a write of LN_CMD. -/
def State.retrain (s : State) (n : Nat) (v : W32) : State :=
  let l := s.lane n
  if !bitOf v 0 then s
  else if l.mode = .ready ∨ l.mode = .up then
    match l.owner with
    | .spill k =>
      let x := s.requestActivity (.laneRetrain k n)
      if x.2 then (x.1.retrainNow n).endActivity (.laneRetrain k n)
      else x.1.setLane n { l with retrainPending := true }
    | _ => s.retrainNow n
  else s.clampAt Reg.LN_CLAMP_COUNT

def execRetrain (lane : Nat) (value : W32) (s : State) : Res :=
  .next (if lane < 96 then s.hostWriteTo (Reg.LN_CMD lane) (·.retrain lane value) else s)

/-! ## Loopbacks, taps, references -/

/-- LOOPBACK_WRITE (R329, R330): a write of LN_CFG. A code 3 or 4 written in a loopback of another code ends that one, so
that the lane can reach READY. -/
def State.writeLnCfg (s : State) (n : Nat) (v : W32) : State :=
  let l := s.lane n
  let old := s.fld (Reg.LN_CFG n) 27 24
  let v' := if l.owner.mode = 1 then setBitsOf v 27 24 0 else v
  let s := s.writeContext (Reg.LN_CFG n) v v'
  let code := s.fld (Reg.LN_CFG n) 27 24
  let s := if old = 0 && code != 0 then s.wr (Reg.LN_LB_ERR n) 0 else s
  if l.owner.mode != 2 || code == old then s
  else
    let s := s.setLane n { l with loop := code }
    if code = 1 ∨ code = 2 then s.enterLoopback n code
    else if code = 0 then (if l.mode = .loopback then s.enterSend n else s)
    else if l.mode = .ready ∨ l.mode = .up then s.enterLoopback n code
    else if l.mode = .loopback then (if l.loop = 3 ∨ l.loop = 4 then s else s.enterSend n)
    else s

/-- Reduces CM3, CM2, CP1, then CM1 until C0 is 32 (R330). -/
def fitTaps (l : Lane) : Lane :=
  let excess := fun (l : Lane) => (l.cm3 + l.cm2 + l.cm1 + l.cp1) - 32
  let l := { l with cm3 := l.cm3 - excess l }
  let l := { l with cm2 := l.cm2 - excess l }
  let l := { l with cp1 := l.cp1 - excess l }
  { l with cm1 := l.cm1 - excess l }

/-- LN_TX_TAPS from magnitudes. -/
def Lane.tapsWord (l : Lane) : W32 :=
  BitVec.ofNat 32 (l.c0 * 2 ^ 25 + l.cp1 * 2 ^ 20 + l.cm1 * 2 ^ 15 + l.cm2 * 2 ^ 11 + l.cm3 * 2 ^ 8)

/-- TX_TAPS_WRITE (R321, R330). -/
def State.writeTaps (s : State) (n : Nat) (v : W32) : State :=
  let l := s.lane n
  let a := Reg.LN_TX_TAPS n
  if s.bit (Reg.LN_CFG n) 31 || l.mode == .loopback || (l.mode == .test && !s.bit (Reg.LN_TEST_CFG n) 30) then
    let nrz := l.rate != 0 && !pam4 l.rate
    let v' := if nrz then setBitsOf v 14 8 0 else v
    let counted := v' != v || s.tableClamps a v'
    let s := s.writeContext a v v'
    let named := s.loadTaps n l
    let t := fitTaps named
    let s := (s.wr a t.tapsWord).clampIf (!counted && t.tapsWord != named.tapsWord) Reg.LN_CLAMP_COUNT
    if l.mode = .off then s else s.setLane n t
  else s.clampAt Reg.LN_CLAMP_COUNT

def execTxTapsWrite (lane : Nat) (value : W32) (s : State) : Res :=
  .next (if lane < 96 then s.hostWriteTo (Reg.LN_TX_TAPS lane) (·.writeTaps lane value) else s)

/-- A quad loses the reference it selects (R316): it holds its frequency, and each of its lanes sets QREF_LOST.
(DEDUCED, log entry 59) -/
def State.qrefLost (s : State) (q : Nat) : State :=
  if s.ln.qrefLost.contains q then s
  else (List.range 4).foldl (fun s i => s.laneEvent (4 * q + i) 8) { s with ln.qrefLost := s.ln.qrefLost ++ [q] }

/-- QREF_SELECT (R316): a write of LN_QUAD_CFG. (DEDUCED, log entry 59) -/
def State.qrefSelect (s : State) (q : Nat) (v : W32) : State :=
  let s := s.writeTable (Reg.LN_QUAD_CFG q) v
  if s.bit (Reg.LN_QUAD_CFG q) 0 && !s.tb.synceInPresent then s.qrefLost q
  else { s with ln.qrefLost := s.ln.qrefLost.filter (· != q) }

def execQrefSelect (quad : Nat) (value : W32) (s : State) : Res :=
  .next (if quad < 24 then s.hostWriteTo (Reg.LN_QUAD_CFG quad) (·.qrefSelect quad value) else s)

/-- QREF_LOST (R316): due while the quad selects SYNCE_IN. -/
def execQrefLost (quad : Nat) (s : State) : Res := s.whenClocked fun s =>
  .next (if quad < 24 && s.bit (Reg.LN_QUAD_CFG quad) 0 then s.qrefLost quad else s)

/-- QREF_RETURN (R316). -/
def execQrefReturn (quad : Nat) (s : State) : Res := s.whenClocked fun s =>
  .next { s with ln.qrefLost := s.ln.qrefLost.filter (· != quad) }

/-! ## Test patterns -/

/-- CHK_EN goes from 0 to 1: the counters clear (R330). -/
def State.clearPrbs (s : State) (n : Nat) : State :=
  (((s.wr (Reg.LN_PRBS_ERR_LO n) 0).wr (Reg.LN_PRBS_ERR_HI n) 0).wr (Reg.LN_PRBS_BITS_LO n) 0).wr (Reg.LN_PRBS_BITS_HI n) 0

/-- The checker of a test lane runs, or waits for a recalibration (R324). -/
def State.startChecker (s : State) (n : Nat) : State :=
  let x := s.requestActivity (.prbs (n / 4))
  x.1.setLane n { x.1.lane n with sync := false, prbsPending := !x.2 }

/-- CHK_EN goes from 1 to 0, or the test ends. -/
def State.stopChecker (s : State) (n : Nat) : State :=
  let s := if s.quadChecks (n / 4) n then s else s.endActivity (.prbs (n / 4))
  s.setLane n { s.lane n with sync := false, prbsPending := false }

/-- TEST_ENABLE (R326): a write of LN_TEST_CFG. -/
def State.testEnable (s : State) (n : Nat) (v : W32) : State :=
  let l := s.lane n
  let a := Reg.LN_TEST_CFG n
  let old := s.rd a
  let owned := l.owner != .none && l.owner != .test
  let s := s.writeContext a v (if owned && bitOf v 31 then setBitsOf v 31 31 0 else v)
  let en := s.bit a 31
  let chk := s.bit a 28
  let s := if chk && !bitOf old 28 then s.clearPrbs n else s
  if owned then s
  else if en then
    let rate := s.fld a 23 21
    let s :=
      if l.owner = .none then
        let s := s.setLane n { owner := .test, rate := rate }
        if s.bit a 30 then s.enterSend n else s.setLane n { s.loadTaps n (s.lane n) with mode := .test }
      else s.setLane n { l.atRate rate with gen := 0 }
    if chk && !(bitOf old 28 && bitOf old 31) then s.startChecker n
    else if !chk && bitOf old 28 then s.stopChecker n else s
  else if l.owner = .test then (s.stopChecker n).disownLane n
  else s

def execTestEnable (lane : Nat) (value : W32) (s : State) : Res :=
  .next (if lane < 96 then s.hostWriteTo (Reg.LN_TEST_CFG lane) (·.testEnable lane value) else s)

/-- The generator drives the lane (R326, R327). -/
def State.generating (s : State) (n : Nat) : Bool := (s.lane n).mode == .test && s.bit (Reg.LN_TEST_CFG n) 29

/-- Order and feedback taps of a pattern (R327); PRBS13Q and PRBS31Q are PRBS13 and PRBS31, at PAM4 rates two bits to a symbol. The
polynomials are those of ITU-T O.150 and IEEE 802.3. (PRESUMED, log entry 114) -/
def prbsPoly (pattern : Nat) : Nat × List Nat :=
  match pattern with
  | 0 => (7, [7, 6])
  | 1 => (9, [9, 5])
  | 2 | 6 => (13, [13, 12, 2, 1])
  | 3 => (15, [15, 14])
  | 4 => (23, [23, 18])
  | _ => (31, [31, 28])

/-- The next state of a pattern's register, whose newest bit is bit 0. -/
def prbsNext (pattern st : Nat) : Nat :=
  let p := prbsPoly pattern
  (2 * st + ((p.2.map (fun t => st / 2 ^ (t - 1) % 2)).sum) % 2) % 2 ^ p.1

/-- The register after `k` more bits. -/
def prbsRun (pattern k st : Nat) : Nat :=
  match k with
  | 0 => st
  | n + 1 => prbsRun pattern n (prbsNext pattern st)

/-- The PAM4 level of a pair of bits, Gray-coded (R327). -/
def grayLevel (a b : Nat) : Nat := if a = 0 then b else 3 - b

/-- The level sent in place of the newest bit, or of the symbol it ends: that bit is inverted (R328). -/
def errorLevel (rate st : Nat) : Nat := if pam4 rate then grayLevel (st / 2 % 2) (1 - st % 2) else 1 - st % 2

/-- A state that the generator may be in: every one of its cycle but 0; where it stands in the cycle is open.
(DESIGN CHOICE, log entry 115) -/
def State.somePattern (s : State) (n : Nat) : Nat := 1 + s.freeBelow (2 ^ (prbsPoly (s.fld (Reg.LN_TEST_CFG n) 27 24)).1 - 1)

/-- INJ_ONE (R328): a write of LN_INJ. -/
def State.injOne (s : State) (n : Nat) (v : W32) : State :=
  let s := s.writeTable (Reg.LN_INJ n) (setBitsOf v 31 31 0)
  let s := if (s.lane n).gen = 0 then s else s.setLane n { s.lane n with gen := 0 }
  if bitOf v 31 && s.generating n then (s.emit (.testError n (errorLevel (s.lane n).rate (s.somePattern n)))).drawn else s

def execInjOne (lane : Nat) (value : W32) (s : State) : Res :=
  .next (if lane < 96 then s.hostWriteTo (Reg.LN_INJ lane) (·.injOne lane value) else s)

/-- PERIODIC_INJECTION (R328): 2^PERIOD_LOG2 bits after the one before. -/
def State.periodicInjection (s : State) (n : Nat) : State :=
  let log := s.fld (Reg.LN_INJ n) 4 0
  if s.generating n && log != 0 then
    let l := s.lane n
    let st := if l.gen = 0 then s.somePattern n else prbsRun (s.fld (Reg.LN_TEST_CFG n) 27 24) (2 ^ log) l.gen
    ((s.setLane n { l with gen := st }).emit (.testError n (errorLevel l.rate st))).drawn
  else s

def execPeriodicInjection (lane : Nat) (s : State) : Res := s.whenClocked fun s => .next (s.periodicInjection lane)

/-- The checker runs (R324, R327). -/
def State.checking (s : State) (n : Nat) : Bool :=
  (s.lane n).mode == .test && s.bit (Reg.LN_TEST_CFG n) 28 && !(s.lane n).prbsPending

/-- PRBS_SYNC (R327). -/
def execPrbsSync (lane : Nat) (s : State) : Res := s.whenClocked fun s =>
  .next (if s.checking lane then s.setLane lane { s.lane lane with sync := true } else s)

/-- PRBS_SYNC_LOSS (R327): what was compared since the last command that brought the counters up to date comes with it. -/
def State.prbsSyncLoss (s : State) (n bits errors : Nat) : State :=
  if s.checking n && (s.lane n).sync then
    let s := (s.bump64 (Reg.LN_PRBS_BITS_LO n) bits).bump64 (Reg.LN_PRBS_ERR_LO n) (min errors bits)
    let s := s.setLane n { s.lane n with sync := false }
    (s.bumpFld (Reg.LN_PRBS_STAT n) 15 0 1).laneEvent n 5
  else s

def execPrbsSyncLoss (lane bits errors : Nat) (s : State) : Res := s.whenClocked fun s => .next (s.prbsSyncLoss lane bits errors)

/-- The counters of a synchronised checker when they are read: how much the line has carried is open, so they advance by
free draws (R327). (DESIGN CHOICE, log entry 15) -/
def State.settlePrbs (s : State) (n : Nat) : State :=
  if s.checking n && (s.lane n).sync then
    let bits := s.freeBelow (2 ^ 48)
    let errs := s.drawn.freeBelow (bits + 1)
    ((s.drawn.drawn).bump64 (Reg.LN_PRBS_BITS_LO n) bits).bump64 (Reg.LN_PRBS_ERR_LO n) errs
  else s

/-- Test blocks that failed in a loopback, when they are read: what the line did is open (R329). (DESIGN CHOICE, log entry 15) -/
def State.settleBlkErr (s : State) (n : Nat) : State :=
  let l := s.lane n
  if l.mode = .loopback ∧ l.loop ≠ 3 then
    (s.bumpFld (Reg.LN_LB_ERR n) 15 0 (s.freeBelow 65536)).drawn
  else s

/-- A recalibration ends: an elapsed interval of LN_RECAL_MIN starts another (R324). -/
def State.recalibration (s : State) (q : Nat) (ends : Bool) : State :=
  if ends then s.endActivity (.recal q)
  else if s.fld Reg.LN_RECAL_MIN 10 0 = 0 then s
  else (s.requestActivity (.recal q)).1

/-- RECALIBRATION (R324): begins on the quad, one quad at a time, or ends there. -/
def execRecalibration (quad : Nat) (ends : Bool) (s : State) : Res := s.whenClocked fun s =>
  .next (if quad < 24 then s.recalibration quad ends else s)

/-- FE_SLIP (R329): due in far-end loopback. -/
def execFeSlip (lane : Nat) (s : State) : Res := s.whenClocked fun s =>
  .next (if (s.lane lane).mode = .loopback ∧ (s.lane lane).loop = 3 then
    (s.bumpFld (Reg.LN_LB_ERR lane) 31 16 1).laneEvent lane 7 else s)

/-! ## Registers that report lane state -/

/-- LN_STATUS (R330). (DEDUCED, log entry 58) -/
def State.lnStatus (s : State) (n : Nat) : W32 :=
  let l := s.lane n
  BitVec.ofNat 32 (b2n l.sigDet * 2 ^ 31 + b2n l.cdrLock * 2 ^ 30 + b2n l.noPartner * 2 ^ 29 + b2n l.retrainPending * 2 ^ 28
    + l.mode.code * 2 ^ 24 + l.owner.mode * 2 ^ 22 + l.rate * 2 ^ 19 + l.backoff * 2 ^ 15)

/-- LN_TX_TAPS: the trained values in TRAIN, READY and UP, else the register (R330). -/
def State.lnTaps (s : State) (n : Nat) : W32 :=
  let l := s.lane n
  if l.mode = .train ∨ l.mode = .ready ∨ l.mode = .up then l.tapsWord
  else (fitTaps (s.loadTaps n { rate := l.rate })).tapsWord

/-- LN_PRBS_STAT (R330). -/
def State.lnPrbsStat (s : State) (n : Nat) : W32 :=
  let l := s.lane n
  setBitsOf (setBitsOf (s.rd (Reg.LN_PRBS_STAT n)) 31 31 (b2n l.sync)) 30 30 (b2n l.prbsPending)

/-- LN_QUAD_STATUS (R331): a quad is locked to its reference from CORE_READY on while it is present. -/
def State.lnQuadStatus (s : State) (q : Nat) : W32 :=
  let lost := s.ln.qrefLost.contains q
  BitVec.ofNat 32 (b2n (s.activityRuns (.recal q)) * 4 + b2n lost * 2 + b2n (s.glb.coreReady && !lost))

/-- LN_EVENT_SUM_k (R332). -/
def State.lnEventSum (s : State) (k : Nat) : W32 :=
  BitVec.ofNat 32 (((List.range 32).map (fun j =>
    b2n ((s.rd (Reg.LN_EVENT (32 * k + j)) &&& s.rd (Reg.LN_EVENT_EN (32 * k + j))) != 0) * 2 ^ j)).sum)

end Sys2Proof.Machine
end

