-- ==== Sys2Proof/Machine/Fronthaul.lean ====
section
/-! DEFINITION. Fronthaul ports (R291 to R313): port shapes, flow pages, windows, received data and symbol groups, and what
a received frame comes to. Transmission is in Machine/FronthaulTx.lean. -/

namespace Sys2Proof.Machine

/-! ## Port shapes (R291, R292) -/

/-- Lanes of a shape. -/
def shapeLanes (shape : Nat) : Nat := if shape = 1 then 8 else if shape = 2 then 4 else if shape = 3 then 2 else 1

/-- Rate code of a shape's lanes (R315). -/
def shapeRate (shape : Nat) : Nat :=
  if shape ≤ 4 then 2 else if shape = 5 then 3 else if shape = 6 then 4 else if shape = 7 then 6 else if shape = 8 then 7 else 5

/-- MAC rate of an Ethernet shape, Gbit/s. -/
def shapeGbps (shape : Nat) : Nat :=
  if shape = 1 then 800 else if shape = 2 then 400 else if shape = 3 then 200 else if shape = 4 then 100
  else if shape = 5 then 50 else if shape = 6 then 25 else 10

def shapeAllowed (shape p : Nat) : Bool := shape != 0 && shape ≤ 9 && p % shapeLanes shape == 0

def State.portShape (s : State) (p : Nat) : Nat := s.fld (Reg.FH_PORT_CFG p) 27 24
def State.isCpri (s : State) (p : Nat) : Bool := s.portShape p == 8 || s.portShape p == 9
def State.maxFrame (s : State) (p : Nat) : Nat := s.fld (Reg.FH_PORT_CFG p) 13 0
def State.portMac (s : State) (p : Nat) : Nat :=
  (s.rd (Reg.FH_PORT_MAC_LO p)).toNat + s.fld (Reg.FH_PORT_MAC_HI p) 15 0 * 2 ^ 32

/-- A carrier's ROLE, MODE and PORT (R296). -/
def Carrier.ru (c : Carrier) : Bool := bitOf (setWord c.page 0 5) 31
def Carrier.fhMode (c : Carrier) : Nat := if Machine.setFld c.page 0 5 30 29 = 3 then 0 else Machine.setFld c.page 0 5 30 29
def Carrier.port (c : Carrier) : Nat := min 95 (Machine.setFld c.page 0 5 6 0)

/-- A carrier that is STARTING, RUNNING or DRAINING names the port (R292). -/
def State.portNamed (s : State) (p : Nat) : Bool :=
  s.slt.carriers.any (fun c => (c.2.mode == .starting || c.2.mode == .running || c.2.mode == .draining) && c.2.port == p)

/-- Gives a port's lanes to it, or takes them away. -/
def State.ownPortLanes (s : State) (p shape : Nat) : State :=
  (List.range (shapeLanes shape)).foldl (fun s i =>
    if (s.lane (p + i)).owner == .port p then s else s.ownLane (p + i) (.port p) (shapeRate shape)) s
def State.disownPortLanes (s : State) (p : Nat) : State :=
  (List.range 8).foldl (fun s i => if (s.lane (p + i)).owner == .port p then s.disownLane (p + i) else s) s

/-- A write of FH_PORT_CFG_p as the module or Serham applies it (R292). -/
def State.applyPortCfg (s : State) (p : Nat) (v : W32) : State :=
  let shape := bitsOf v 27 24
  let bad := !shapeAllowed shape p || s.lanesTaken (.port p) p (shapeLanes shape)
  let v1 := if shape != 6 then setBitsOf v 23 23 0 else v
  let v' := if bad then setBitsOf v1 31 31 0 else v1
  let was := s.portEnabled p
  let old := s.portShape p
  let s := s.writeContext (Reg.FH_PORT_CFG p) v v'
  if bitOf v' 31 then
    let s := if was && old != shape then (s.portDown p none).disownPortLanes p else s
    s.ownPortLanes p shape
  else if was then (s.portDown p none).disownPortLanes p
  else s

/-- PORT_ENABLE (R292): a write while a live carrier names the port is discarded and counted. -/
def State.writePortCfg (s : State) (p : Nat) (v : W32) : State :=
  if s.portNamed p then s.clampAt Reg.FH_CLAMP_COUNT else s.applyPortCfg p v

def execPortEnable (port : Nat) (value : W32) (s : State) : Res :=
  .next (if port < 96 then s.hostWriteTo (Reg.FH_PORT_CFG port) (·.writePortCfg port value) else s)

/-- PORT_UP (R292): due when every lane of the enabled port is up. A CPRI port reaches HFNSYNC with it (R309).
(DEDUCED, log entry 58) -/
def State.portUp (s : State) (p : Nat) : State :=
  if s.portEnabled p && (List.range (shapeLanes (s.portShape p))).all (fun i => (s.lane (p + i)).mode == .up) then
    s.setPort p { up := true, cpriSync := s.isCpri p }
  else s

/-- PCS_ALIGNMENT_LOST (R292). (DESIGN CHOICE, log entry 5) -/
def execPcsAlignmentLost (port : Nat) (s : State) : Res := s.whenClocked fun s => .next (s.portDown port none)

/-- The FEC codewords of a port that were corrected and those that could not be, when they are read: what the line did is open (R312).
Shapes 1 to 5 have FEC, and 6 unless FEC_OFF (R291). (DESIGN CHOICE, log entry 15) -/
def State.settleFec (s : State) (p : Nat) : State :=
  if (s.port p).up && (decide (s.portShape p ≤ 5) || (s.portShape p == 6 && !s.bit (Reg.FH_PORT_CFG p) 23)) then
    let a := s.freeBelow (2 ^ 32)
    let b := s.drawn.freeBelow (2 ^ 32)
    (s.drawn.drawn.bumpFld (Reg.FH_PORT_FEC_CORR p) 31 0 a).bumpFld (Reg.FH_PORT_FEC_UNCORR p) 31 0 b
  else s

/-- FH_PORT_STATUS (R312). (DEDUCED, log entry 58) -/
def State.fhPortStatus (s : State) (p : Nat) : W32 :=
  let x := s.port p
  BitVec.ofNat 32 (b2n x.up * 2 ^ 31 + b2n x.cpriSync * 2 ^ 30 + b2n x.fault.isSome * 2 ^ 7 + x.fault.getD 0)

/-! ## Flow pages (R297) -/

structure FlowPage where
  eaxcBase : Nat
  stShift : Nat
  nStream : Nat
  meth : Nat
  width : Nat
  staticHdr : Bool
  pass : Bool
  scaler : Nat
  muShift : Nat
  nRb : Nat
  openNs : Int
  closeNs : Int
  refEnd : Bool
  cpMode : Nat
  cpAdvUs : Nat
  sectionId : Nat
  dataQid : Nat
  auxQid : Nat
  buf : Nat
  bufLog2 : Nat
  groupEnd : Nat
  cpQid : Nat
  prio : Nat
  deriving DecidableEq, Repr

/-- The flow page of a half's words: page 1, each field as taken. -/
def flowPage (w : SetWords) : FlowPage :=
  let f := fun i hi lo => Machine.setFld w 1 i hi lo
  let meth := if 5 ≤ f 1 31 29 then 0 else f 1 31 29
  let iq := if meth = 0 ∨ f 1 28 25 = 0 then 16 else f 1 28 25
  let st := f 1 24 24 = 1 ∨ meth = 4
  let op := signedOf 32 (f 2 31 0)
  let log2 := clampTo 12 30 (f 8 31 27)
  { eaxcBase := f 0 31 16, stShift := min 10 (f 0 15 12), nStream := clampTo 1 64 (f 0 11 5), meth := meth, width := iq,
    staticHdr := st, pass := meth = 4 ∨ (st ∧ f 1 23 23 = 1), scaler := if f 1 22 15 = 0 then 128 else f 1 22 15,
    muShift := f 1 14 11, nRb := clampTo 1 275 (f 1 10 2), openNs := op, closeNs := max op (signedOf 32 (f 3 31 0)),
    refEnd := f 4 31 31 = 1, cpMode := min 2 (f 4 30 29), cpAdvUs := min 1000 (f 4 28 19), sectionId := f 4 11 0,
    dataQid := f 5 31 16, auxQid := f 5 15 0, buf := setWord64 w 1 6 / 2 ^ log2 * 2 ^ log2, bufLog2 := log2,
    groupEnd := f 8 13 0, cpQid := f 9 31 16, prio := f 9 2 0 }

/-- Bytes of one PRB in the receive buffer and in transmit items (R302). -/
def FlowPage.prbBytes (p : FlowPage) : Nat := if p.pass then wireBytes p.meth p.width else 48

/-- The transmit key of a stream (R297). (DEDUCED, log entry 55) -/
def FlowPage.key (p : FlowPage) (stream : Nat) : Nat := (p.eaxcBase + stream * 2 ^ p.stShift) % 65536

/-- The half is received: UL by a DU, DL by an RU (R296). -/
def Carrier.receives (c : Carrier) (h : Half) : Bool := match h with | .ul => !c.ru | .dl => c.ru
def Carrier.recvHalf (c : Carrier) : Half := if c.ru then .dl else .ul
def Carrier.sendHalf (c : Carrier) : Half := if c.ru then .ul else .dl

def halfIx (h : Half) : Nat := match h with | .ul => 0 | .dl => 1

def State.fhHalf (s : State) (c : Nat) (h : Half) : FhHalf := mapGet (fun _ => {}) s.fh.halves (2 * c + halfIx h)
def State.setFhHalf (s : State) (c : Nat) (h : Half) (x : FhHalf) : State :=
  if c < 512 then { s with fh.halves := mapSet (fun _ => {}) s.fh.halves (2 * c + halfIx h) x } else s

/-- TD_ADV_NS and TD_DELAY_NS (R296). -/
def Carrier.tdAdvNs (c : Carrier) : Nat := min 1000000 (setWord c.page 0 8).toNat
def Carrier.tdDelayNs (c : Carrier) : Nat := min 1000000 (setWord c.page 0 9).toNat

/-- CP_MODE of a transmitting half: AUTO in a transmitting UL half is QUEUE (R297). -/
def cpModeOf (h : Half) (p : FlowPage) : Nat := if h = .ul ∧ p.cpMode = 1 then 2 else p.cpMode

/-- The packet engine that serves a port, as Spine requester (R131, R291). -/
def fhRequester (p : Nat) : Nat := 100 + p / 4

/-! ## Slots and windows (R298, R299) -/

/-- Start of symbol `k` of slot `n` over the air, in 2^-16 ns; `k` may be one past the last. -/
def State.symEdge16 (s : State) (c : CarrierCfg) (n : Int) (k : Nat) : Int := s.sampleTime16 c 2048 n (symStart c 2048 n k)

/-- The window of a symbol, in 2^-16 ns: it never opens before the half's boundary of the slot. -/
def State.window (s : State) (c : CarrierCfg) (h : Half) (p : FlowPage) (n : Int) (k : Nat) : Int × Int :=
  let ref := s.symEdge16 c n (if p.refEnd then k + 1 else k)
  (max (ref + p.openNs * 65536) (c.boundaryNs s.slt.originNs h n * 65536), ref + p.closeNs * 65536)

/-- The slot a received frame names (R298); none is a FORMAT error. -/
def State.namedSlot (s : State) (c : CarrierCfg) (stamp16 : Int) (frame sub slot sym : Nat) : Option Int :=
  if 9 < sub ∨ 2 ^ c.mu ≤ slot ∨ symsPerSlot c ≤ sym then none
  else
    let near := (stamp16 - c.airNs s.slt.originNs 0 * 65536) / (c.len * 65536)
    let n := nearestSlot (256 * c.spf) (frame * c.spf + sub * 2 ^ c.mu + slot) near
    [n, n + (256 * c.spf : Nat)].find? (fun k => decide (((c.airNs s.slt.originNs k * 65536 - stamp16).natAbs : Int) ≤ 1280000000 * 65536))

/-- The symbol group of a symbol: first and last symbol (R303). -/
def groupOf (p : FlowPage) (syms k : Nat) : Nat × Nat :=
  let isEnd := fun j => p.groupEnd.testBit j || j + 1 == syms
  let last := ((List.range syms).find? (fun j => decide (k ≤ j) && isEnd j)).getD (syms - 1)
  let first := ((List.range k).reverse.find? isEnd).elim 0 (· + 1)
  (first, last)

/-! ## Counters -/

def State.fhCount (s : State) (a n : Nat) : State := s.bumpFld a 31 0 n
def State.countLate (s : State) (c : Nat) (h : Half) (early : Bool) : State :=
  (if early then s.bump (Reg.FH_HALF_EARLY c (halfIx h)) else s.bump (Reg.FH_HALF_LATE c (halfIx h))).raise Reg.FH_EVENT 2
def State.seqErr (s : State) (c : Nat) (h : Half) : State := (s.bump (Reg.FH_HALF_SEQ_ERR c (halfIx h))).raise Reg.FH_EVENT 1
def State.dropFcs (s : State) (p : Nat) : State := s.bumpFld (Reg.FH_PORT_DROP0 p) 31 16 1
def State.dropAddr (s : State) (p : Nat) : State := s.bumpFld (Reg.FH_PORT_DROP0 p) 15 0 1
def State.dropUnknown (s : State) (p : Nat) : State := s.bumpFld (Reg.FH_PORT_DROP1 p) 31 16 1
def State.dropFormat (s : State) (p : Nat) : State := s.bumpFld (Reg.FH_PORT_DROP1 p) 15 0 1

/-- The eight counters of a half clear at its start couch (R313), with all that the packet engine held of it. -/
def State.fhStart (s : State) (c : Nat) (h : Half) : State :=
  let s := (List.range 8).foldl (fun s i => s.wr (Reg.FH_HALF_ON_TIME c (halfIx h) + 4 * i) 0) s
  s.setFhHalf c h {}

/-- The symbols and streams of a slot that have not been sent whole when it expires, and whose window TX_WINDOW_CLOSE has not closed,
can no longer be sent: TX_MISS counts them (R300). (DESIGN CHOICE, log entry 102) -/
def State.fhCloseAll (s : State) (c : Nat) (h : Half) (n : Int) : State :=
  let x := s.carrier c
  match s.latchOf c h n with
  | none => s
  | some l =>
    if x.receives h || x.isStopped || x.fhMode != 0 then s
    else
      let f := s.fhHalf c h
      let left := (List.range (symsPerSlot x.cfg)).filter (fun k => inMask l.words k && !f.closed.contains (n, k))
      let miss := (left.map (fun k => ((List.range (flowPage l.words).nStream).filter (fun i => !f.whole.contains (n, k, i))).length)).sum
      if miss = 0 then s else (s.fhCount (Reg.FH_HALF_TX_MISS c (halfIx h)) miss).raise Reg.FH_EVENT 3

/-- An expired slot leaves the packet engine. -/
def State.fhExpire (s : State) (c : Nat) (h : Half) (n : Int) : State :=
  let x := s.fhHalf c h
  s.setFhHalf c h { x with rx := x.rx.filter (·.slot != n), whole := x.whole.filter (·.1 != n), closed := x.closed.filter (·.1 != n),
                           cpSent := x.cpSent.filter (·.1 != n), head := x.head.filter (·.slot != n) }

/-- The slot a C-plane item names (R306). -/
def State.cpItemSlot (s : State) (c : Nat) (h : Half) (i : QItem) : Int := s.slotOfStamp c h (qwWord (i.words.headD 0) 1)

/-- Queue items that a transmit block has accepted for the slot and not sent: a head block, a held C-plane item, time-domain samples
(R78). -/
def State.fhOpen (s : State) (c : Nat) (h : Half) (n : Int) : Bool :=
  let f := s.fhHalf c h
  f.head.any (·.slot == n) || f.cpHead.any (fun i => s.cpItemSlot c h i == n)
    || f.td.any (fun p => p.start / (slotSamples p.fft : Nat) == n)

/-- The streams whose AUTO message of the slot has not been sent (R306). -/
def State.cpAutoLeft (s : State) (c : Nat) (h : Half) (n : Int) : List Nat :=
  let x := s.carrier c
  match s.latchOf c h n with
  | none => []
  | some l =>
    let p := flowPage l.words
    if x.receives h || x.fhMode != 0 || cpModeOf h p != 1 || !(List.range (symsPerSlot x.cfg)).any (inMask l.words) then []
    else (List.range p.nStream).filter (fun k => !(s.fhHalf c h).cpSent.contains (n, k))

/-- A slot abort discards what is assigned to the slot (R77): the head block, which TX_MISS counts when its window closes, and a
held C-plane item and the AUTO messages not yet sent, which TX_LATE counts. (DESIGN CHOICE, log entry 102) -/
def State.fhSlotAbort (s : State) (c : Nat) (h : Half) (n : Int) : State :=
  let x := s.fhHalf c h
  let autos := s.cpAutoLeft c h n
  let cp := x.cpHead.any (fun i => s.cpItemSlot c h i == n)
  let s := s.setFhHalf c h { x with head := x.head.filter (·.slot != n), cpHead := if cp then none else x.cpHead,
                                    cpSent := x.cpSent ++ autos.map (fun k => (n, k)) }
  s.fhCount (Reg.FH_HALF_TX_LATE c (halfIx h)) (b2n cp + autos.length)

/-! ## The host path (R310, R311) -/

/-- Corrected time at the lane pins for a frame that arrives, or leaves, now (R310). (DEDUCED, log entry 53) -/
def State.rxStamp16 (s : State) (p : Nat) : Int := s.tb.time16 - (s.rd (Reg.FH_PORT_RXDLY p)).toNat
/-- (DEDUCED, log entry 53) -/
def State.txStamp16 (s : State) (p : Nat) : Int := s.tb.time16 + (s.rd (Reg.FH_PORT_TXDLY p)).toNat

/-- Takes the first buffer that fits. -/
def takeBuf (n : Nat) (l : List RxBuf) : Option (RxBuf × List RxBuf) :=
  match l with
  | [] => none
  | b :: r => if n ≤ b.len then some (b, r) else (takeBuf n r).map (fun x => (x.1, b :: x.2))

/-- The frames of the host path that have passed in this second; at most 4 million pass (R311). Seconds of the raw counter are the
measure. (DESIGN CHOICE, log entry 113) -/
def hostRate (raw : W64) (x : Nat × Nat) : Nat := if x.1 = raw.toNat / 10 ^ 9 then x.2 else 0
def hostMax : Nat := 4000000
def hostPassed (raw : W64) (x : Nat × Nat) : Nat × Nat := (raw.toNat / 10 ^ 9, hostRate raw x + 1)

/-- A host-path frame goes into the oldest posted buffer that fits, or is dropped (R311). -/
def State.hostPath (s : State) (p : Nat) (frame : List Byte) (stamp16 : Int) : State :=
  let buf := if hostMax ≤ hostRate s.tb.raw s.fh.hostIn then none else takeBuf (frame.length + 16) s.fh.bufs
  match buf with
  | some (b, r) =>
    let s := { s with fh.hostIn := hostPassed s.tb.raw s.fh.hostIn }
    let hdr := bytesOfNat 4 (frame.length % 65536 * 2 ^ 16 + p % 128) ++ List.replicate 12 0
    let s := { s with fh.bufs := r }.hostWrite ⟨b.fn, 0, b.ref.ring, b.ref.tag, b.addr, hdr ++ frame, 0⟩
    s.completeAt b.ref stOK frame.length false (shortStampOf stamp16)
  | none => (s.bump Reg.FH_HOST_DROP).raise Reg.FH_EVENT 4

/-- FH_RXBUF (R311). -/
def State.fhRxbuf (s : State) (d : Desc) : State :=
  let n := d.fld 0x10 13 0
  let a := d.w64 0x18
  let clamped := decide (n < 80) || a.toNat % 16 != 0
  let s := s.clampDesc d clamped Reg.FH_CLAMP_COUNT
  if 4096 ≤ s.fh.bufs.length then s.complete (d.ref clamped) stREFUSED 0
  else { s with fh.bufs := s.fh.bufs ++ [⟨d.ref clamped, s.descFn d, max 80 n, BitVec.ofNat 64 (a.toNat / 16 * 16)⟩] }

def execFhRxbuf (d : Desc) (s : State) : Res := s.whenClocked fun s => .next (s.fhRxbuf d)

/-! ## Sections (R302, R304, R305) -/

/-- One section of a U-plane frame: start PRB, method and width as sent, PRBs in wire format. (PRESUMED, log entry 54) -/
structure Section where
  start : Nat
  meth : Nat
  width : Nat
  header : List Byte
  prbs : List (List Byte)
  deriving DecidableEq, Repr

/-- Reads the sections of a frame; none where a header field breaks R293 or a section is cut short. (PRESUMED, log entry 54) -/
def sectionsOf (p : FlowPage) (fuel : Nat) (l : List Byte) : Option (List Section) :=
  match fuel with
  | 0 => some []
  | f + 1 =>
    if l.isEmpty then some [] else
    let hl := if p.staticHdr then 4 else 6
    let b := beAt l 0 4
    let u := beAt l 4 1
    let meth := if p.staticHdr then p.meth else u % 16
    let w := if p.staticHdr then p.width else if u / 16 = 0 then 16 else u / 16
    let num := if b % 256 = 0 then p.nRb else b % 256
    let size := wireBytes meth w
    let body := (l.drop hl).take (num * size)
    if l.length < hl ∨ b / 2 ^ 18 % 4 ≠ 0 ∨ (meth ≤ 4 ∧ body.length < num * size) then none
    else if 4 < meth then some [⟨b / 2 ^ 8 % 1024, meth, w, l.take hl, []⟩]
    else (sectionsOf p f (l.drop (hl + num * size))).map
      (⟨b / 2 ^ 8 % 1024, meth, w, l.take hl, chunks num size body⟩ :: ·)

/-- The page cannot handle the section (R305). -/
def Section.unfit (x : Section) (p : FlowPage) : Bool :=
  decide (4 < x.meth) || (x.meth == 4 && !p.pass) || (p.pass && (x.meth != p.meth || x.width != p.width))

/-- A PRB as it is stored (R302). -/
def Section.stored (x : Section) (p : FlowPage) (b : List Byte) : List Byte :=
  if p.pass then b else int16Prb (decompressPrb x.meth x.width b)

/-- Offset of a PRB in the receive buffer (R302). -/
def State.rxOffset (s : State) (c : Nat) (p : FlowPage) (n : Int) (sym stream prb : Nat) : Nat :=
  let cfg := (s.carrier c).cfg
  let b := p.prbBytes
  ((indexOf cfg.spf n * symsPerSlot cfg + sym) * (p.nStream * p.nRb * b) + (stream * p.nRb + prb) * b) % 2 ^ p.bufLog2

/-- Writes bytes into the ring of 2^BUF_LOG2 bytes; true where memory took them all. -/
def State.ringWrite (s : State) (req base log2 off : Nat) (data : List Byte) : State × Bool :=
  let room := 2 ^ log2 - off
  let x := s.writeModule req (base + off) (data.take room)
  if data.length ≤ room then x
  else let y := x.1.writeModule req base (data.drop room); (y.1, x.2 && y.2)

def rxSlotOf (l : List RxSlot) (n : Int) : RxSlot := (l.find? (·.slot == n)).getD { slot := n }
def putRxSlot (l : List RxSlot) (x : RxSlot) : List RxSlot := l.filter (·.slot != x.slot) ++ [x]

/-- The name under which a PRB is remembered as received. -/
def prbName (sym stream prb : Nat) : Nat := sym * 2 ^ 20 + stream * 2 ^ 10 + prb

/-- Writes one PRB of a section; a PRB at or above N_RB is dropped as FORMAT (R302). -/
def State.rxPrb (s : State) (port c : Nat) (h : Half) (p : FlowPage) (n : Int) (sym stream prb : Nat) (b : List Byte) : State :=
  if p.nRb ≤ prb then s.dropFormat port
  else
    let x := s.ringWrite (fhRequester port) p.buf p.bufLog2 (s.rxOffset c p n sym stream prb) b
    if x.2 then
      let f := x.1.fhHalf c h
      let r := rxSlotOf f.rx n
      let k := prbName sym stream prb
      x.1.setFhHalf c h { f with rx := putRxSlot f.rx { r with got := if r.got.contains k then r.got else r.got ++ [k] } }
    else x.1

/-- Writes the sections of an on-time frame (R302, R305). -/
def State.rxSections (s : State) (port c : Nat) (h : Half) (p : FlowPage) (n : Int) (sym stream : Nat) (l : List Section) : State :=
  l.foldl (fun s x =>
    if x.unfit p then s.dropFormat port
    else (x.prbs.mapIdx (fun i b => (x.start + i, x.stored p b))).foldl (fun s q => s.rxPrb port c h p n sym stream q.1 q.2) s) s

/-- The header word of a group item (R303). -/
def groupHeader (missing : Bool) (c : Nat) (h : Half) (slot : W32) (first last count addr : Nat) (t16 : Int) : QWord :=
  let t := shortStampOf t16
  qwOfWords [BitVec.ofNat 32 (b2n missing * 2 ^ 24 + halfNum h * 2 ^ 16 + c), slot, BitVec.ofNat 32 (first * 2 ^ 28 + last * 2 ^ 24),
    BitVec.ofNat 32 count, BitVec.ofNat 32 addr, BitVec.ofNat 32 (addr / 2 ^ 32), t.setWidth 32, (t >>> 32).setWidth 32]

/-- The producer a packet engine stream of a half is (R116). -/
def fhProducer (c : Nat) (h : Half) : Producer := .stream c (2 + halfIx h)

/-- 24 parts. -/
def padParts (l : List Int) : List Int := (List.range 24).map (fun i => l.getD i 0)

/-- An auxiliary frame goes whole to AUX_QID (R302), but for a section that the page cannot handle, method 4 with PASS 0 or a method
above 4 (R305); its item's priority and tag are not stated: free values. (DESIGN CHOICE, log entry 16) -/
def State.auxItem (s : State) (port c : Nat) (h : Half) (p : FlowPage) (n : Int) (sym stream : Nat) (l : List Section) (t16 : Int) : State :=
  if p.auxQid = 0xFFFF then s
  else
    let lost := fun (x : Section) => decide (4 < x.meth) || (x.meth == 4 && !p.pass)
    let s := (l.filter lost).foldl (fun s _ => s.dropFormat port) s
    let hdr := groupHeader false c h (s.stampOfSlot c n) sym sym stream 0 t16
    let parts := fun (x : Section) (b : List Byte) =>
      if x.meth = 4 then (padParts (Config.modExpand x.width b)) else decompressPrb x.meth x.width b
    let body := (l.filter (!lost ·)).flatMap (fun x => x.header ++ x.prbs.flatMap (fun b => int16Prb (parts x b)))
    let v := s.freeVal
    (s.drawn.pushItem p.auxQid (fhProducer c h) (bitsOf v 18 16) (v.setWidth 16)
      (hdr :: qwordsOfBytes (padTo ((body.length + 31) / 32 * 32) body))).1

/-- The stamp of the last frame written to a group (R303). -/
def State.noteStamp (s : State) (c : Nat) (h : Half) (n : Int) (last : Nat) (t16 : Int) : State :=
  let f := s.fhHalf c h
  let r := rxSlotOf f.rx n
  s.setFhHalf c h { f with rx := putRxSlot f.rx { r with stamps := mapSet (fun _ => 0) r.stamps last t16 } }

/-- The slot has been aborted or has expired (R77, R299). -/
def State.slotGone (s : State) (c : Nat) (h : Half) (n : Int) : Bool :=
  match s.latchOf c h n with
  | some l => l.aborted
  | none => ((s.carrier c).half h).expired n

/-- The flow page with which slot `n`'s packets are handled (R58, R297). -/
def State.slotFlow (s : State) (c : Nat) (h : Half) (n : Int) : FlowPage := flowPage (s.slotWords c h n)
/-- What R299 finds of a U-plane frame of a slot and symbol: none on time, true EARLY, false LATE. A slot that has been aborted or has
expired is LATE. -/
def State.windowFate (s : State) (c : Nat) (h : Half) (n : Int) (sym : Nat) (t16 : Int) : Option Bool :=
  let w := s.window (s.carrier c).cfg h (s.slotFlow c h n) n sym
  if s.slotGone c h n then some false else if t16 < w.1 then some true else if w.2 < t16 then some false else none

/-- The slot over the air at a time in 2^-16 ns. -/
def State.airSlotAt (s : State) (c : CarrierCfg) (t16 : Int) : Int := (t16 - c.airNs s.slt.originNs 0 * 65536) / (c.len * 65536)

/-- A received U-plane frame of a carrier (R298, R299, R302). -/
def State.rxUplane (s : State) (port c : Nat) (h : Half) (stream : Nat) (app : List Byte) (t16 : Int) : State :=
  let cfg := (s.carrier c).cfg
  let x := beAt app 2 2
  let sym := x % 64
  match s.namedSlot cfg t16 (beAt app 1 1) (x / 4096) (x / 64 % 64) sym with
  | none => s.dropFormat port
  | some n =>
    let p := flowPage (s.slotWords c h n)
    match sectionsOf p app.length (app.drop 4) with
    | none => s.dropFormat port
    | some l =>
      match s.windowFate c h n sym t16 with
      | some early => s.countLate c h early
      | none =>
        let s := s.bump (Reg.FH_HALF_ON_TIME c (halfIx h))
        if beAt app 0 1 % 16 != 0 || decide (p.nStream ≤ stream) then s.auxItem port c h p n sym stream l t16
        else (s.rxSections port c h p n sym stream l).noteStamp c h n (groupOf p (symsPerSlot cfg) sym).2 t16

/-- The C-plane item header (R306). -/
def cpHeader (len stream : Nat) (slot : W32) (t16 : Int) : QWord :=
  let t := shortStampOf t16
  qwOfWords [BitVec.ofNat 32 (len % 65536 * 2 ^ 16 + stream % 256 * 2 ^ 8), slot, 0, 0, t.setWidth 32, (t >>> 32).setWidth 32, 0, 0]

/-- A received C-plane message goes to CP_QID unless CP_MODE is 0 (R306); its item's priority and tag are free values.
(DESIGN CHOICE, log entry 16) -/
def State.rxCplane (s : State) (port c : Nat) (h : Half) (stream : Nat) (app : List Byte) (t16 : Int) : State :=
  let cfg := (s.carrier c).cfg
  let x := beAt app 2 2
  match s.namedSlot cfg t16 (beAt app 1 1) (x / 4096) (x / 64 % 64) (x % 64) with
  | none => s.dropFormat port
  | some n =>
    let p := flowPage (s.slotWords c h n)
    if s.slotGone c h n then s.countLate c h false
    else if p.cpMode = 0 then s
    else
      let v := s.freeVal
      (s.drawn.pushItem p.cpQid (fhProducer c h) (bitsOf v 18 16) (v.setWidth 16)
        (cpHeader app.length stream (s.stampOfSlot c n) t16 :: qwordsOfBytes (padTo ((app.length + 31) / 32 * 32) app))).1

/-- Compares a frame's ecpriSeqid with the key's last one (R299). (DEDUCED, log entry 55) -/
def State.checkSeq (s : State) (c : Nat) (h : Half) (key seq : Nat) : State :=
  let f := s.fhHalf c h
  let s' := s.setFhHalf c h { f with seqIn := mapSet (fun _ => none) f.seqIn key (some seq) }
  match mapGet (fun _ => none) f.seqIn key with
  | some q => if (q + 1) % 256 = seq then s' else s'.seqErr c h
  | none => s'

/-! ## Time-domain receive (R307 to R309) -/

/-- The sample of a carrier's grid nearest to an air time in 2^-16 ns, counted from slot 0. -/
def State.sampleAt (s : State) (c : CarrierCfg) (fft : Nat) (t16 : Int) : Int :=
  let d : Int := 65536 * 1000000
  (2 * (t16 - c.airNs s.slt.originNs 0 * 65536) * (fsKhz c fft : Nat) + d) / (2 * d)

/-- Air time, in 2^-16 ns, of a sample counted from slot 0. -/
def State.timeOfSample (s : State) (c : CarrierCfg) (fft : Nat) (a : Int) : Int :=
  s.sampleTime16 c fft (a / (slotSamples fft : Nat)) (a % (slotSamples fft : Nat))

/-- Commits time-domain items of received samples (R268, R307): an item ends at a slot's end and at ITEM_MAX, and goes where its
slot's page says; priority and tag are not stated: free values. Samples of a slot that has been aborted or has expired are
dropped and counted LATE (R77, R299). `data` holds 4 bytes per sample. (DESIGN CHOICE, log entry 16; DEDUCED, log entry 57) -/
def State.tdItems (s : State) (c : Nat) (h : Half) (fft stream : Nat) (start : Int) (data : List Byte) (fuel : Nat) : State :=
  match fuel with
  | 0 => s
  | f + 1 =>
    if data.isEmpty then s else
    let cfg := (s.carrier c).cfg
    let sps : Int := (slotSamples fft : Nat)
    let n := start / sps
    let off := (start % sps).toNat
    let qid := (s.slotFlow c h n).dataQid
    let gone := s.slotGone c h n
    let cap := if gone then slotSamples fft else max 1 (8 * ((s.queue qid).itemMax - 1))
    let k := min (min cap (slotSamples fft - off)) (data.length / 4)
    let body := data.take (4 * k)
    let v := s.freeVal
    let hdr := tdHeader 0 stream c (s.stampOfSlot c n) off k (s.timeOfSample cfg fft start) 0
    let s := if gone then s.countLate c h false else (s.drawn.pushItem qid (fhProducer c h) (bitsOf v 18 16) (v.setWidth 16)
      (hdr :: qwordsOfBytes (padTo ((body.length + 31) / 32 * 32) body))).1
    s.tdItems c h fft stream (start + k) (data.drop (4 * k)) f

/-- The reference frame, of those whose number is a multiple of 16, from whose start samples of time `t16` are counted. -/
def State.frame16 (s : State) (t16 : Int) : Int :=
  let f := (t16 - s.slt.originNs * 65536) / (frameNs * 65536)
  f - f % 16

/-- Samples from the start of that frame to a time, to the nearest. -/
def orderOf (rel16 : Int) (khz : Nat) : Int :=
  let d : Int := 65536 * 1000000
  (2 * rel16 * (khz : Int) + d) / (2 * d)

/-- A 1914.3 frame of native time-domain data (R308): `body` follows the subtype octet's header. orderInfo starts again every 16
reference frames, 160 ms. (PRESUMED, log entry 54; DEDUCED, log entry 57) -/
def State.rxRoe (s : State) (c : Nat) (h : Half) (stream order : Nat) (iq : List Byte) (t16 : Int) : State :=
  let cfg := (s.carrier c).cfg
  let air := t16 - ((s.carrier c).tdDelayNs : Nat) * 65536
  let fft := s.slotFft c h (s.airSlotAt cfg air)
  let khz := fsKhz cfg fft
  let count := iq.length / 4
  let f := s.fhHalf c h
  let s := match mapGet (fun _ => none) f.orderIn stream with
    | some e => if e = order then s else s.seqErr c h
    | none => s
  let f := s.fhHalf c h
  let s := s.setFhHalf c h { f with orderIn := mapSet (fun _ => none) f.orderIn stream (some ((order + count) % (khz * 160))) }
  let near := s.frame16 air
  let t := fun (fr : Int) => s.slt.originNs * 65536 + fr * frameNs * 65536 + (order : Int) * (65536 * 1000000) / (khz : Int)
  let dist := fun (fr : Int) => (t fr - air).natAbs
  let best := [near - 16, near + 16].foldl (fun b fr => if dist fr < dist b then fr else b) near
  let data := (chunks count 4 iq).flatMap (fun b => bytesOfNat 2 (beAt b 0 2) ++ bytesOfNat 2 (beAt b 2 2))
  s.tdItems c h fft stream (s.sampleAt cfg fft (t best)) data (count + 1)

/-- Samples per basic frame, f_s ÷ 3.84 MHz; at 1.92 MHz one sample takes two basic frames (R309). -/
def bfSamples (khz : Nat) : Nat := max 1 (khz / 3840)
def bfParts (khz : Nat) : Nat := if khz < 3840 then 2 else 1

/-- Bits of a container: 2 × WIDTH × f_s ÷ 3.84 MHz (R309). -/
def containerBits (w khz : Nat) : Nat := 2 * w * bfSamples khz / bfParts khz

/-- Payload bits of a basic frame (R309). (PRESUMED, log entry 54) -/
def cpriBits (shape : Nat) : Nat := if shape = 8 then 1920 else 5760

/-- Samples of a container as they are kept: I and Q extended with zeros below (R309). -/
def cpriSamples (w : Nat) (bits : List Bool) : List Byte :=
  (chunks bits.length w bits).flatMap (fun q => bytesOfNat 2 (natOfBits q * 2 ^ (16 - w)))

/-- A container of 1.92 MHz: half a sample, which is joined with its other half (R309). (DEDUCED, log entry 57) -/
def State.rxHalfSample (s : State) (c : Nat) (h : Half) (fft stream w : Nat) (air : Int) (bits : List Bool) : State :=
  let j := s.sampleAt (s.carrier c).cfg fft (2 * air - s.timeOfSample (s.carrier c).cfg fft 0)
  let f := s.fhHalf c h
  if j % 2 = 0 then s.setFhHalf c h { f with cpriHalf := mapSet (fun _ => none) f.cpriHalf stream (some (j / 2, bits)) }
  else match mapGet (fun _ => none) f.cpriHalf stream with
    | some (a, first) => if a = j / 2 then s.tdItems c h fft stream a (cpriSamples w (first ++ bits)) 2 else s
    | none => s

/-- A received basic frame of a CPRI port (R307, R309): each container of each receiving carrier, samples extended with zeros.
(DEDUCED, log entry 57) -/
def State.rxCpri (s : State) (port : Nat) (data : List Byte) (t16 : Int) : State :=
  let bits := bitsMsb data
  let s := s.setPort port { s.port port with radio16 := t16 }
  (mapKeys s.slt.carriers).foldl (fun s c =>
    let x := s.carrier c
    let h := x.recvHalf
    if x.mode == .running && x.fhMode == 2 && x.port == port then
      let air := t16 - (x.tdDelayNs : Nat) * 65536
      let p := s.slotFlow c h (s.airSlotAt x.cfg air)
      let fft := s.slotFft c h (s.airSlotAt x.cfg air)
      let khz := fsKhz x.cfg fft
      let w := clampTo 8 16 (Machine.setFld x.page 0 10 18 14)
      let k := containerBits w khz
      let pos := min 5759 (Machine.setFld x.page 0 10 31 19)
      (List.range p.nStream).foldl (fun s n =>
        let b := (bits.drop (pos + n * k)).take k
        if b.length < k then s
        else if bfParts khz = 2 then s.rxHalfSample c h fft n w air b
        else s.tdItems c h fft n (s.sampleAt x.cfg fft air) (cpriSamples w b) (bfSamples khz + 1)) s
    else s) s

/-! ## Classification (R294, R295) -/

/-- Word `i` of routing rule `r`. -/
def State.rule (s : State) (r i : Nat) : W32 := setWord s.slt.modSet.felt (r / 8) (r % 8 * 4 + i)

/-- The carrier and stream the routing rules give a frame (R295). -/
def State.route (s : State) (port proto key : Nat) : Option (Nat × Nat) :=
  let hit := (List.range 32).find? (fun r =>
    let w0 := s.rule r 0
    let first := min 95 (bitsOf w0 13 7)
    bitOf w0 31 && bitsOf w0 30 30 == proto && decide (first ≤ port ∧ port ≤ max first (min 95 (bitsOf w0 6 0)))
      && (BitVec.ofNat 16 key &&& BitVec.ofNat 16 (bitsOf (s.rule r 1) 15 0)) == (BitVec.ofNat 16 (bitsOf (s.rule r 1) 31 16) &&& BitVec.ofNat 16 (bitsOf (s.rule r 1) 15 0)))
  match hit with
  | none => none
  | some r =>
    let w := s.rule r 2
    let c := bitsOf w 24 16 + key / 2 ^ bitsOf w 15 12 % 2 ^ min 9 (bitsOf w 11 8)
    if 511 < c then none else some (c, key / 2 ^ bitsOf w 7 4 % 2 ^ min 6 (bitsOf w 3 0))

/-- What the headers of an eCPRI frame of type 0 or 2 name: message type, direction, the application layer, and the slot nearest to the
stamp. -/
structure EcpriHead where
  type : Nat
  half : Half
  app : List Byte
  slot : Option Int
  sym : Nat
  deriving DecidableEq, Repr

def State.ecpriHead (s : State) (c : Nat) (l : List Byte) (t16 : Int) : EcpriHead :=
  let app := (l.drop 8).take (beAt l 2 2 - 4)
  let y := beAt app 2 2
  ⟨beAt l 1 1, if beAt app 0 1 / 128 = 1 then .dl else .ul, app,
    s.namedSlot (s.carrier c).cfg t16 (beAt app 1 1) (y / 4096) (y / 64 % 64) (y % 64), y % 64⟩

/-- The flow page an eCPRI frame is handled with: its slot's, or the felt one where it names none. -/
def State.ecpriPage (s : State) (c : Nat) (e : EcpriHead) : FlowPage :=
  match e.slot with
  | some n => s.slotFlow c e.half n
  | none => flowPage ((s.carrier c).half e.half).felt

/-- A flow that no enabled stream takes (R294). A U-plane frame whose stream is N_STREAM or above is auxiliary (R302), so only a C-plane
one is unknown. (DEDUCED, log entry 57) -/
def State.ecpriUnknown (s : State) (c stream : Nat) (e : EcpriHead) : Bool :=
  let x := s.carrier c
  x.mode != .running || !x.receives e.half || x.fhMode != 0
    || (e.type != 0 && decide ((s.ecpriPage c e).nStream ≤ stream) && beAt e.app 0 1 % 16 == 0)

/-- A header that R294 drops as FORMAT. -/
def ecpriMalformed (l : List Byte) (e : EcpriHead) : Bool :=
  beAt l 0 1 / 16 != 1 || beAt l 0 1 % 2 != 0 || beAt l 7 1 != 0x80 || decide (l.length < 4 + beAt l 2 2) || decide (beAt l 2 2 < 8)
    || beAt e.app 0 1 / 16 % 8 != 1

/-- A frame of eCPRI type 0 or 2 (R294, case 4). -/
def State.rxEcpri (s : State) (port : Nat) (l : List Byte) (t16 : Int) : State :=
  let key := beAt l 4 2
  match s.route port 0 key with
  | none => s.dropUnknown port
  | some (c, stream) =>
    let e := s.ecpriHead c l t16
    if s.ecpriUnknown c stream e then s.dropUnknown port
    else
    let s := s.checkSeq c e.half key (beAt l 6 1)
    if ecpriMalformed l e then s.dropFormat port
    else
      if e.type = 0 then s.rxUplane port c e.half stream e.app t16 else s.rxCplane port c e.half stream e.app t16

/-- What the record of a received eCPRI frame names (R366): the carrier its flow is routed to, the slot it names, and EARLY or LATE.
(DEDUCED, log entry 72) -/
def State.ecpriFlow (s : State) (port : Nat) (l : List Byte) (t16 : Int) : FrameFlow :=
  match s.route port 0 (beAt l 4 2) with
  | none => {}
  | some (c, stream) =>
    let e := s.ecpriHead c l t16
    let formed := if e.type = 0 then (sectionsOf (s.ecpriPage c e) e.app.length (e.app.drop 4)).isSome else true
    match e.slot with
    | none => { carrier := c }
    | some n =>
      { carrier := c, slot := s.stampOfSlot c n,
        window := !s.ecpriUnknown c stream e && !ecpriMalformed l e && formed
          && (if e.type = 0 then (s.windowFate c e.half n e.sym t16).isSome else s.slotGone c e.half n) }

/-- A flow of 1914.3 that no enabled stream takes (R294), and the page of its slot. -/
def State.roeUnknown (s : State) (c stream : Nat) (t16 : Int) : Bool :=
  let x := s.carrier c
  let p := s.slotFlow c x.recvHalf (s.airSlotAt x.cfg (t16 - (x.tdDelayNs : Nat) * 65536))
  x.mode != .running || x.fhMode != 1 || decide (p.nStream ≤ stream)

/-- A frame of 1914.3 subtype 0x10 (R294, case 4). -/
def State.rx1914 (s : State) (port : Nat) (l : List Byte) (t16 : Int) : State :=
  match s.route port 1 (beAt l 1 1) with
  | none => s.dropUnknown port
  | some (c, stream) =>
    let n := beAt l 2 2
    if s.roeUnknown c stream t16 then s.dropUnknown port
    else if l.length < 8 + n ∨ n % 4 ≠ 0 then s.dropFormat port
    else s.rxRoe c (s.carrier c).recvHalf stream (beAt l 4 4) ((l.drop 8).take n) t16

/-- The same for a 1914.3 frame: the slot over the air at its time. (DEDUCED, log entry 72) -/
def State.roeFlow (s : State) (port : Nat) (l : List Byte) (t16 : Int) : FrameFlow :=
  match s.route port 1 (beAt l 1 1) with
  | none => {}
  | some (c, stream) =>
    let x := s.carrier c
    let n := s.airSlotAt x.cfg (t16 - (x.tdDelayNs : Nat) * 65536)
    let k := beAt l 2 2
    { carrier := c, slot := s.stampOfSlot c n,
      window := !s.roeUnknown c stream t16 && !(decide (l.length < 8 + k) || k % 4 != 0) && s.slotGone c x.recvHalf n }

/-- What the record of a received frame names: nothing for one that no packet engine stream takes. -/
def State.rxFlow (s : State) (p : Nat) (body : List Byte) (t16 : Int) : FrameFlow :=
  let f := ethOf body
  if f.etype = 0xAEFE ∧ (beAt f.payload 1 1 = 0 ∨ beAt f.payload 1 1 = 2) then s.ecpriFlow p f.payload t16
  else if f.etype = 0xFC3D ∧ beAt f.payload 0 1 = 0x10 then s.roeFlow p f.payload t16
  else {}

/-- A frame within its FCS, taken by a packet engine stream or the host path (R294). -/
def State.routeFrame (s : State) (stitch : State → Nat → Nat → List Byte → State) (p : Nat) (body : List Byte) (t16 : Int) : State :=
  let f := ethOf body
  if f.dst != s.portMac p && !groupAddress f.dst then s.dropAddr p
  else if f.etype = s.fld Reg.FH_STF_ETYPE 15 0 ∧ s.bit (Reg.FH_PORT_CFG p) 21 then stitch s p f.src f.payload
  else if f.etype = 0xAEFE ∧ (beAt f.payload 1 1 = 0 ∨ beAt f.payload 1 1 = 2) then s.rxEcpri p f.payload t16
  else if f.etype = 0xFC3D ∧ beAt f.payload 0 1 = 0x10 then s.rx1914 p f.payload t16
  else s.hostPath p body t16

/-- A frame ends with an FCS or length error: it is dropped, and the items its packet had put words into are rewound (R117, R294).
They are the items a whole frame of these bytes would have committed; every other word of the frame is forgotten.
(DEDUCED, log entry 57) -/
def State.brokenFrame (s : State) (p : Nat) (data : List Byte) (t16 : Int) : State :=
  let whole := s.routeFrame (fun s _ _ _ => s) p (data.take (data.length - 4)) t16
  let hit := (mapKeys whole.qm.queues).filter (fun q => decide ((s.queue q).nextSeq < (whole.queue q).nextSeq))
  hit.foldl (fun s q => s.setQueue q (s.queue q).countDrop) (s.dropFcs p)

/-- A received frame, FCS included, is captured, classified and routed; the first case of R294 that applies decides. `stitch` takes a
stitch frame's bytes and the source address (R341); `replayed`: the Press injected it (R380, R382). -/
def State.takeFrame (s : State) (stitch : State → Nat → Nat → List Byte → State) (p : Nat) (data : List Byte) (t16 : Int) (replayed : Bool) : State :=
  let s := s.bump64 (Reg.FH_PORT_RXFR_LO p) 1
  if s.isCpri p then s.rxCpri p data t16
  else
    let body := data.take (data.length - 4)
    let bad := (checkFcs data).isNone || decide (data.length < 64 ∨ s.maxFrame p < data.length)
    let s := s.offerFrame 1 p data t16 bad replayed { s.rxFlow p body t16 with window := !bad && (s.rxFlow p body t16).window }
    if bad then s.brokenFrame p data t16 else s.routeFrame stitch p body t16

/-- A frame from the line: its receive stamp is that of R310. -/
def State.receiveFrame (s : State) (stitch : State → Nat → Nat → List Byte → State) (p : Nat) (data : List Byte) : State :=
  s.takeFrame stitch p data (s.rxStamp16 p) false

/-! ## Symbol groups (R303) -/

/-- Masked symbols of a group. -/
def maskedSyms (w : SetWords) (g : Nat × Nat) : List Nat :=
  (List.range (g.2 + 1)).filter (fun k => decide (g.1 ≤ k) && inMask w k)

/-- SYMBOL_GROUP_COMMIT (R303): due when the last expected PRB is here or the window of the group's last masked symbol has
closed. -/
def State.groupCommit (s : State) (c : Nat) (h : Half) (stamp : W32) (last : Nat) : State :=
  let x := s.carrier c
  match s.liveByStamp c h stamp with
  | none => s
  | some l =>
    let cfg := x.cfg
    let p := flowPage l.words
    let syms := symsPerSlot cfg
    let g := groupOf p syms last
    let ms := maskedSyms l.words g
    let f := s.fhHalf c h
    let r := rxSlotOf f.rx l.slot
    if !x.receives h || x.fhMode != 0 || l.aborted || g.2 != last || syms ≤ last || r.done.contains last then s
    else match ms.getLast? with
    | none => s
    | some m =>
      let want := ms.length * p.nStream * p.nRb
      let have' := (r.got.filter (fun k => ms.contains (k / 2 ^ 20))).length
      let missing := want - have'
      let close := (s.window cfg h p l.slot m).2
      if missing = 0 ∨ close ≤ s.tb.time16 then
        let s := s.setFhHalf c h { f with rx := putRxSlot f.rx { r with done := r.done ++ [last] } }
        let s := s.fhCount (Reg.FH_HALF_MISSING c (halfIx h)) missing
        let t := if missing = 0 then mapGet (fun _ => 0) r.stamps last else close
        let addr := p.buf + s.rxOffset c p l.slot g.1 0 0
        (s.pushItem p.dataQid (fhProducer c h) p.prio (BitVec.ofNat 16 (g.1 * 256 + g.2))
          [groupHeader (missing != 0) c h stamp g.1 g.2 missing addr t]).1
      else s

def execSymbolGroupCommit (carrier : Nat) (half : Half) (slot : W32) (last : Nat) (s : State) : Res := s.whenClocked fun s =>
  .next (s.groupCommit carrier half slot last)

end Sys2Proof.Machine
end

