-- ==== Sys2Proof/Machine/FronthaulTx.lean ====
section
/-! DEFINITION. Fronthaul transmission (R300, R301, R306 to R309, R311): assignment of items to slots, the send order of a
port, C-plane messages, time-domain frames, and host frames. -/

namespace Sys2Proof.Machine

/-! ## Frames -/

/-- The Ethernet header of a carrier's frames (R296). (PRESUMED, log entry 54) -/
def State.carrierHeader (s : State) (c : Nat) (etype : Nat) : List Byte :=
  let x := s.carrier c
  let w := x.page
  let dst := (setWord w 0 6).toNat * 2 ^ 16 + Machine.setFld w 0 7 31 16
  let tag := if Machine.setFld w 0 7 15 15 = 1 then some (Machine.setFld w 0 7 14 12 * 2 ^ 13 + Machine.setFld w 0 7 11 0) else none
  ethHeader dst (s.portMac x.port) tag etype

/-- The eCPRI header of a message (R293, R306): revision 1, no concatenation, a single fragment. (PRESUMED, log entry 54) -/
def ecpriHeader (type key seq size : Nat) : List Byte :=
  beBytes 1 0x10 ++ beBytes 1 type ++ beBytes 2 (size + 4) ++ beBytes 2 key ++ beBytes 1 seq ++ beBytes 1 0x80

/-- Direction, payload version 1, filter 0, frame, subframe, slot and symbol (R298). (PRESUMED, log entry 54) -/
def appHeader (c : CarrierCfg) (h : Half) (n : Int) (sym : Nat) : List Byte :=
  let i := indexOf c.spf n
  let sl := i % c.spf
  beBytes 1 (halfIx h * 128 + 16) ++ beBytes 1 (i / c.spf % 256)
    ++ beBytes 2 (sl / 2 ^ c.mu * 4096 + sl % 2 ^ c.mu * 64 + sym)

/-- Takes the next ecpriSeqid of a stream. (DEDUCED, log entry 55) -/
def State.nextSeqOut (s : State) (c : Nat) (h : Half) (stream : Nat) : State × Nat :=
  let f := s.fhHalf c h
  let q := mapGet (fun _ => 0) f.seqOut stream
  (s.setFhHalf c h { f with seqOut := mapSet (fun _ => 0) f.seqOut stream ((q + 1) % 256) }, q)

/-- The time a frame of `n` bytes, FCS and preamble included, takes on a port, in 2^-16 ns. -/
def State.frameTime16 (s : State) (port n : Nat) : Int := ((n * 8 * 65536 + shapeGbps (s.portShape port) - 1) / shapeGbps (s.portShape port) : Nat)

/-- A frame, FCS included, leaves a port: counted, captured, and in progress for its time on the line (R312, R362, R382). -/
def State.sendRaw (s : State) (port : Nat) (data : List Byte) (replayed : Bool) (f : FrameFlow) : State :=
  let s := (s.bump64 (Reg.FH_PORT_TXFR_LO port) 1).emit (.frame port data)
  let s := s.setPort port { s.port port with busy16 := max s.tb.time16 (s.port port).busy16 + s.frameTime16 port (data.length + 8) }
  s.offerFrame 2 port data (s.txStamp16 port) false replayed f

/-- A frame of the module leaves a port: padded to 64 bytes with its FCS. -/
def State.sendFrame (s : State) (port : Nat) (body : List Byte) (f : FrameFlow) : State := s.sendRaw port (withFcs (padTo 60 body)) false f

/-! ## Assignment (R300) -/

/-- Live slots, earliest first. -/
def insertLatch (x : SlotLatch) (l : List SlotLatch) : List SlotLatch :=
  match l with
  | [] => [x]
  | y :: r => if x.slot < y.slot then x :: y :: r else y :: insertLatch x r
def sortLatches (l : List SlotLatch) : List SlotLatch := l.foldl (fun a x => insertLatch x a) []

/-- The queue a transmitting half reads next, of those its slots' pages name, the earliest slot's first, that has an item to give: each
slot uses the page latched for it (R58). The felt page stands in where no slot lives. -/
def State.txQueue (s : State) (c : Nat) (h : Half) (f : FlowPage → Option Nat) : Option Nat :=
  let y := (s.carrier c).half h
  (((sortLatches y.live).map (·.words) ++ [y.felt]).filterMap (fun w => f (flowPage w))).find? (fun q =>
    (s.queue q).storable && !(s.queue q).visible.isEmpty)

/-- The earliest live slot that reads the queue and whose window for the symbol has not closed. -/
def State.assignSlot (s : State) (c : Nat) (h : Half) (qid sym : Nat) : Option SlotLatch :=
  (sortLatches ((s.carrier c).half h).live).find? (fun l => (flowPage l.words).dataQid == qid &&
    decide (s.tb.time16 ≤ (s.window (s.carrier c).cfg h (flowPage l.words) l.slot sym).2))

/-- Reads the head item of a queue without waiting for one. -/
def State.headItem (s : State) (qid : Nat) (r : Consumer) : State × Option QItem :=
  if (s.queue qid).visible.isEmpty || !(s.queue qid).storable then (s, none)
  else
    let x := s.readQueue qid r
    match x.2 with
    | .item i => (x.1, some i)
    | _ => (x.1, none)

/-- The consumer a packet engine is to a transmitting half's queues. -/
def fhConsumer (c : Nat) (h : Half) : Consumer := .stream (1024 + 2 * c + halfIx h)

/-- A time-domain item joins what is to be sent (R307). -/
def State.tdPush (s : State) (c : Nat) (h : Half) (i : QItem) : State :=
  let w := i.words.headD 0
  let f := s.fhHalf c h
  let zero := bitOf (qwWord w 0) 25
  let n := s.slotOfStamp c h (qwWord w 1)
  let fft := s.slotFft c h n
  let cnt := (qwWord w 3).toNat
  let p : TdPart := { stream := bitsOf (qwWord w 0) 23 16, fft := fft, start := n * (slotSamples fft : Nat) + (qwWord w 2).toNat, count := cnt,
                      data := if zero then [] else (bytesOfQWords (i.words.drop 1)).take (4 * cnt) }
  s.setFhHalf c h { f with td := f.td ++ [p] }

/-- TX_ITEM_ASSIGN (R300): the head item of DATA_QID is assigned to a slot or discarded. -/
def State.txAssign (s : State) (c : Nat) (h : Half) : State :=
  let x := s.carrier c
  let f := s.fhHalf c h
  if x.receives h || x.isStopped || (x.fhMode == 0 && f.head.isSome) then s
  else match s.txQueue c h (fun p => some p.dataQid) with
  | none => s
  | some q =>
    let y := s.headItem q (fhConsumer c h)
    match y.2 with
    | none => y.1
    | some i =>
      let s := y.1
      if x.fhMode != 0 then s.tdPush c h i
      else
        let sym := i.tag.toNat / 256
        let stream := i.tag.toNat % 256
        match s.assignSlot c h q sym with
        | none => s.bump (Reg.FH_HALF_TX_LATE c (halfIx h))
        | some l =>
          if l.aborted then s
          else if !inMask l.words sym || decide (symsPerSlot x.cfg ≤ sym) || decide ((flowPage l.words).nStream ≤ stream) then
            s.clampAt Reg.FH_CLAMP_COUNT
          else
            let hd : TxHead := { slot := l.slot, sym := sym, stream := stream, data := bytesOfQWords i.words }
            s.setFhHalf c h { s.fhHalf c h with head := some hd }

def execTxItemAssign (carrier : Nat) (half : Half) (s : State) : Res := s.whenClocked fun s => .next (s.txAssign carrier half)

/-! ## What is ready (R301) -/

/-- A frame that a port may send: its window close, carrier, half, stream and PRB, and what it is. -/
inductive ReadyKind where
  | uplane
  | cpAuto (l : SlotLatch)
  | cpQueue
  | td (start : TdPos)
  deriving DecidableEq, Repr

structure Ready where
  close : Int
  carrier : Nat
  half : Half
  stream : Nat
  prb : Nat
  kind : ReadyKind
  deriving DecidableEq, Repr

/-- Send time of an AUTO message: the air start of the first masked symbol − CP_ADV_US (R306). -/
def State.cpSendTime (s : State) (c : Nat) (l : SlotLatch) : Option Int :=
  let cfg := (s.carrier c).cfg
  ((List.range (symsPerSlot cfg)).find? (inMask l.words)).map
    (fun k => s.symEdge16 cfg l.slot k - ((flowPage l.words).cpAdvUs * 1000 * 65536 : Nat))

/-- Send time of a C-plane item: SEND_NS from its slot's air boundary (R306). -/
def State.cpItemTime (s : State) (c : Nat) (h : Half) (i : QItem) : Int :=
  ((s.carrier c).cfg.airNs s.slt.originNs (s.cpItemSlot c h i) + signedOf 32 (qwWord (i.words.headD 0) 2).toNat) * 65536

/-- AUTO messages of a half that are due. -/
def State.cpAutoReady (s : State) (c : Nat) (h : Half) : List Ready :=
  ((s.carrier c).half h).live.flatMap (fun l =>
    let p := flowPage l.words
    match s.cpSendTime c l with
    | some t =>
      if cpModeOf h p = 1 ∧ t ≤ s.tb.time16 ∧ !l.aborted then
        ((List.range p.nStream).filter (fun n => !(s.fhHalf c h).cpSent.contains (l.slot, n))).map
          (fun n => ⟨t, c, h, n, 0, .cpAuto l⟩)
      else []
    | none => [])

/-- Samples in one time-domain frame of a half (R308, R309). -/
def State.tdSamples (s : State) (c fft : Nat) : Nat :=
  let x := s.carrier c
  if x.fhMode = 1 then clampTo 64 2048 (Machine.setFld x.page 0 11 31 20) else bfSamples (fsKhz x.cfg fft)

/-- Departure schedule of the sample at `a`: air time − TD_ADV_NS, in 2^-16 ns (R307). -/
def State.tdTime (s : State) (c : Nat) (a : TdPos) : Int :=
  let x := s.carrier c
  s.timeOfSample x.cfg a.fft a.at' - (x.tdAdvNs * 65536 : Nat)

/-- The slot that holds a sample. -/
def TdPos.slot (a : TdPos) : Int := a.at' / (slotSamples a.fft : Nat)

/-- A sample lies before another: by their places in the slots. -/
def TdPos.before (a b : TdPos) : Bool := decide (a.at' * (slotSamples b.fft : Nat) < b.at' * (slotSamples a.fft : Nat))

/-- Where a CPRI stream's basic frames fall among its samples (R309): they begin at the reference frame boundaries, or, in RE role, are
aligned to the received frames. (DEDUCED, log entry 57) -/
def State.cpriPhase (s : State) (c fft : Nat) : Int :=
  let x := s.carrier c
  let base := if s.bit (Reg.FH_PORT_CFG x.port) 22 then (s.port x.port).radio16 else s.slt.originNs * 65536
  (s.tdTime c ⟨fft, 0⟩ - base) * (fsKhz x.cfg fft : Nat) / (65536 * 1000000)

/-- The first sample of the basic frame that holds sample `a`. -/
def State.cpriAlign (s : State) (c : Nat) (a : TdPos) : TdPos :=
  { a with at' := a.at' - (a.at' + s.cpriPhase c a.fft) % (s.tdSamples c a.fft : Nat) }

/-- A place in the samples, at the transform length of its slot (R58): where that has changed, the slot's first sample. -/
def State.tdRebase (s : State) (c : Nat) (h : Half) (a : TdPos) : TdPos :=
  let fft := s.slotFft c h a.slot
  if fft = a.fft then a else ⟨fft, a.slot * (slotSamples fft : Nat)⟩

/-- The sample at which the next frame of a stream begins. A stream's first frame begins with the earliest slot that lives, or with the
first item where none does: so a stream without items misses its frames too (R300). (DEDUCED, log entry 57) -/
def State.tdNext (s : State) (c : Nat) (h : Half) (stream : Nat) : Option TdPos :=
  let f := s.fhHalf c h
  match mapGet (fun _ => none) f.tdPos stream with
  | some a => some (s.tdRebase c h a)
  | none =>
    let first := ((sortLatches ((s.carrier c).half h).live).head?).map (fun l =>
      (⟨s.slotFft c h l.slot, l.slot * (slotSamples (s.slotFft c h l.slot) : Nat)⟩ : TdPos))
    match first.toList ++ (f.td.filter (·.stream == stream)).map (fun p => (⟨p.fft, p.start⟩ : TdPos)) with
    | [] => none
    | a :: r =>
      let m := r.foldl (fun b x => if x.before b then x else b) a
      some (if (s.carrier c).fhMode = 2 then s.cpriAlign c m else m)

/-- The part of a stream's items that holds a sample. -/
def tdPartAt (l : List TdPart) (stream fft : Nat) (a : Int) : Option TdPart :=
  l.find? (fun p => p.stream == stream && p.fft == fft && decide (p.start ≤ a ∧ a < p.start + (p.count : Nat)))

/-- Every sample of a stretch is there. -/
def tdCovered (l : List TdPart) (stream : Nat) (a : TdPos) (n : Nat) : Bool :=
  (List.range n).all (fun i => (tdPartAt l stream a.fft (a.at' + (i : Nat))).isSome)

/-- One sample, 4 bytes; zeros of a ZERO item (R307). -/
def tdSample (l : List TdPart) (stream fft : Nat) (a : Int) : List Byte :=
  match tdPartAt l stream fft a with
  | some p => padTo 4 ((p.data.drop (4 * (a - p.start).toNat)).take 4)
  | none => [0, 0, 0, 0]

/-- The window of a time-domain frame is 20 µs (R300). -/
def tdWindow16 : Int := 20000 * 65536

/-- How long a time-domain frame takes on its port, in 2^-16 ns: an Ethernet frame, or the basic frames of its samples. -/
def State.tdFrame16 (s : State) (c fft : Nat) : Int :=
  let x := s.carrier c
  if x.fhMode = 1 then s.frameTime16 x.port (max 64 ((s.carrierHeader c 0xFC3D).length + 12 + 4 * s.tdSamples c fft))
  else (bfParts (fsKhz x.cfg fft) * 65536000000 / 3840 : Nat)

/-- Time-domain frames of a half that are ready: their schedule has come at the lane pins, and their last bit leaves within 20 µs of it
(R300, R307, R310). -/
def State.tdReady (s : State) (c : Nat) (h : Half) : List Ready :=
  let f := s.fhHalf c h
  let now := s.txStamp16 (s.carrier c).port
  (List.range 64).filterMap (fun n =>
    match s.tdNext c h n with
    | none => none
    | some a =>
      let t := s.tdTime c a
      if n < (s.slotFlow c h a.slot).nStream ∧ t ≤ now ∧ now + s.tdFrame16 c a.fft ≤ t + tdWindow16
          ∧ tdCovered f.td n a (s.tdSamples c a.fft) then
        some ⟨t + tdWindow16, c, h, n, 0, .td a⟩ else none)

/-- Everything of one carrier that its port may send. -/
def State.carrierReady (s : State) (c : Nat) : List Ready :=
  let x := s.carrier c
  let h := x.sendHalf
  let f := s.fhHalf c h
  if x.isStopped then []
  else if x.fhMode != 0 then s.tdReady c h
  else
    let u := match f.head with
      | some d =>
        let p := flowPage (s.slotWords c h d.slot)
        let w := s.window x.cfg h p d.slot d.sym
        if w.1 ≤ s.tb.time16 then [⟨w.2, c, h, d.stream, d.nextPrb, .uplane⟩] else []
      | none => []
    let q := match f.cpHead with
      | some i => let t := s.cpItemTime c h i; if t ≤ s.tb.time16 then [⟨t, c, h, bitsOf (qwWord (i.words.headD 0) 0) 15 8, 0, .cpQueue⟩] else []
      | none => []
    s.cpAutoReady c h ++ q ++ u

/-- Everything a port may send. -/
def State.portReady (s : State) (port : Nat) : List Ready :=
  ((mapKeys s.slt.carriers).filter (fun c => (s.carrier c).port == port)).flatMap s.carrierReady

/-- The order of R301: window close, carrier, stream, PRB. -/
def Ready.before (a b : Ready) : Bool :=
  decide (a.close < b.close) || (a.close == b.close && (decide (a.carrier < b.carrier) || (a.carrier == b.carrier &&
    (decide (a.stream < b.stream) || (a.stream == b.stream && decide (a.prb < b.prb))))))

def earliestReady (l : List Ready) : Option Ready :=
  match l with
  | [] => none
  | a :: r => some (r.foldl (fun b x => if x.before b then x else b) a)

/-! ## Sending (R301, R304 to R309) -/

/-- PRBs of the next frame of a head item: as many as fit in MAX_FRAME, and as the section header can name.
(PRESUMED, log entry 56) -/
def State.prbsThatFit (s : State) (c : Nat) (p : FlowPage) (d : TxHead) : Nat :=
  let x := s.carrier c
  let head := (s.carrierHeader c 0xAEFE).length + 20 + (if p.staticHdr then 0 else 2)
  let fit := min (p.nRb - d.nextPrb) ((s.maxFrame x.port - head) / wireBytes p.meth p.width)
  if fit = p.nRb then fit else min 255 fit

/-- The bytes of PRB `j` of an item in wire format (R304, R305). -/
def wirePrb (p : FlowPage) (data : List Byte) (j : Nat) : List Byte :=
  let b := p.prbBytes
  let raw := padTo b ((data.drop (j * b)).take b)
  if p.pass then raw else compressPrb p.meth p.width p.scaler p.muShift (partsOfInt16 raw)

/-- A U-plane frame of a half's head item; one whose last bit would leave after the close ends its symbol and stream (R300). -/
def State.sendUplane (s : State) (port c : Nat) (h : Half) : State :=
  let f := s.fhHalf c h
  match f.head with
  | none => s
  | some d =>
    let cfg := (s.carrier c).cfg
    let p := flowPage (s.slotWords c h d.slot)
    let n := s.prbsThatFit c p d
    let q := s.nextSeqOut c h d.stream
    let sec := p.sectionId * 2 ^ 20 + d.nextPrb * 2 ^ 8 + (if n = p.nRb then 0 else n)
    let udc := if p.staticHdr then [] else beBytes 1 (p.width % 16 * 16 + p.meth) ++ [0]
    let app := appHeader cfg h d.slot d.sym ++ beBytes 4 sec ++ udc
      ++ (List.range n).flatMap (fun i => wirePrb p d.data (d.nextPrb + i))
    let body := s.carrierHeader c 0xAEFE ++ ecpriHeader 0 (p.key d.stream) q.2 app.length ++ app
    let last := s.txStamp16 port + s.frameTime16 port (max 64 (body.length + 4))
    if n = 0 ∨ (s.window cfg h p d.slot d.sym).2 < last then s.setFhHalf c h { f with head := none }
    else
      let s := q.1
      let f := s.fhHalf c h
      let next := d.nextPrb + n
      let f := if p.nRb ≤ next then { f with head := none, whole := f.whole ++ [(d.slot, d.sym, d.stream)] }
        else { f with head := some { d with nextPrb := next } }
      (s.setFhHalf c h f).sendFrame port body { carrier := c, slot := s.stampOfSlot c d.slot }

/-- A C-plane message leaves; one more than 10 µs late is counted (R306). -/
def State.sendCplane (s : State) (port c : Nat) (h : Half) (n : Int) (p : FlowPage) (stream : Nat) (app : List Byte) (t : Int) : State :=
  let q := s.nextSeqOut c h stream
  let body := s.carrierHeader c 0xAEFE ++ ecpriHeader 2 (p.key stream) q.2 app.length ++ app
  let s := q.1.sendFrame port body { carrier := c, slot := s.stampOfSlot c n }
  if t + 10000 * 65536 < s.tb.time16 then (s.bump (Reg.FH_HALF_CP_LATE c (halfIx h))).raise Reg.FH_EVENT 5 else s

/-- The application layer of an AUTO message: section type 1, one section over all PRBs (R306). -/
def State.autoApp (s : State) (c : Nat) (h : Half) (l : SlotLatch) : List Byte :=
  let cfg := (s.carrier c).cfg
  let p := flowPage l.words
  let ms := (List.range (symsPerSlot cfg)).filter (inMask l.words)
  let first := ms.headD 0
  let last := ms.getLastD 0
  appHeader cfg h l.slot first ++ beBytes 1 1 ++ beBytes 1 1 ++ beBytes 1 (p.width % 16 * 16 + p.meth) ++ [0]
    ++ beBytes 4 (p.sectionId * 2 ^ 20) ++ beBytes 2 (0xFFF * 16 + (last - first + 1)) ++ beBytes 2 0

/-- CPLANE_AUTO_SEND (R306): once per stream and slot, at or after the send time. -/
def State.cpAutoSend (s : State) (c : Nat) (h : Half) (l : SlotLatch) (stream : Nat) (t : Int) : State :=
  let f := s.fhHalf c h
  (s.setFhHalf c h { f with cpSent := f.cpSent ++ [(l.slot, stream)] }).sendCplane (s.carrier c).port c h l.slot (flowPage l.words) stream (s.autoApp c h l) t

/-- The head item of CP_QID is held until its send time (R306). -/
def State.cpPull (s : State) (c : Nat) (h : Half) : State :=
  let x := s.carrier c
  if (s.fhHalf c h).cpHead.isSome || x.receives h || x.isStopped || x.fhMode != 0 then s
  else match s.txQueue c h (fun p => if cpModeOf h p = 2 then some p.cpQid else none) with
  | none => s
  | some q =>
    let y := s.headItem q (fhConsumer c h)
    y.1.setFhHalf c h { y.1.fhHalf c h with cpHead := y.2 }

/-- The half that each carrier sends through the port pulls its C-plane item. -/
def State.pullPort (s : State) (port : Nat) : State :=
  ((mapKeys s.slt.carriers).filter (fun c => (s.carrier c).port == port)).foldl (fun s c => s.cpPull c (s.carrier c).sendHalf) s

/-- CPLANE_AUTO_SEND: the port sends the AUTO message where it is the frame that R301 puts first. -/
def State.cpAutoCommand (s : State) (c : Nat) (h : Half) (stamp : W32) (stream : Nat) : State :=
  let port := (s.carrier c).port
  let s := s.pullPort port
  match earliestReady (s.portReady port) with
  | some r => match r.kind with
    | .cpAuto l => if r.carrier = c ∧ r.half = h ∧ r.stream = stream ∧ s.stampOfSlot c l.slot = stamp ∧ (s.port port).up then
        s.cpAutoSend c h l stream r.close else s
    | _ => s
  | none => s

def execCplaneAutoSend (carrier : Nat) (half : Half) (slot : W32) (stream : Nat) (s : State) : Res := s.whenClocked fun s =>
  .next (s.cpAutoCommand carrier half slot stream)

/-- Sends the held C-plane item (R306); one of a slot that has been aborted or has expired is discarded and counted (R77).
(DESIGN CHOICE, log entry 102) -/
def State.cpQueueSend (s : State) (c : Nat) (h : Half) (i : QItem) : State :=
  let n := s.cpItemSlot c h i
  let p := s.slotFlow c h n
  let w := i.words.headD 0
  let len := bitsOf (qwWord w 0) 31 16
  let room := 32 * (i.words.length - 1)
  let st := bitsOf (qwWord w 0) 15 8
  let clamped := decide (room < len) || decide (p.nStream ≤ st)
  let gone := s.slotGone c h n
  let t := s.cpItemTime c h i
  let s := s.setFhHalf c h { s.fhHalf c h with cpHead := none }
  if gone then s.bump (Reg.FH_HALF_TX_LATE c (halfIx h))
  else (s.clampIf clamped Reg.FH_CLAMP_COUNT).sendCplane (s.carrier c).port c h n p (min st (p.nStream - 1)) ((bytesOfQWords (i.words.drop 1)).take (min len room)) t

/-- CPLANE_QUEUE_SEND (R306): the port sends the held C-plane item, due at its send time or at once if that has passed, where it is the
frame that R301 puts first. -/
def State.cpQueueCommand (s : State) (c : Nat) (h : Half) : State :=
  let port := (s.carrier c).port
  let s := s.pullPort port
  match earliestReady (s.portReady port), (s.fhHalf c h).cpHead with
  | some r, some i => if r.carrier = c ∧ r.half = h ∧ r.kind = .cpQueue ∧ (s.port port).up then s.cpQueueSend c h i else s
  | _, _ => s

def execCplaneQueueSend (carrier : Nat) (half : Half) (s : State) : Res := s.whenClocked fun s => .next (s.cpQueueCommand carrier half)

/-- Drops the samples that have been sent or missed. -/
def State.tdAdvance (s : State) (c : Nat) (h : Half) (stream : Nat) (next : TdPos) : State :=
  let f := s.fhHalf c h
  s.setFhHalf c h { f with tdPos := mapSet (fun _ => none) f.tdPos stream (some next),
                           td := f.td.filter (fun p => p.stream != stream || next.before ⟨p.fft, p.start + (p.count : Nat)⟩) }

/-- A time-domain frame of a stream (R308), or its containers in one or two basic frames (R309). One of a slot that has been aborted is
discarded, and TX_MISS counts it (R77). (DESIGN CHOICE, log entry 102) -/
def State.sendTd (s : State) (port c : Nat) (h : Half) (stream : Nat) (a : TdPos) : State :=
  let x := s.carrier c
  let f := s.fhHalf c h
  let k := s.tdSamples c a.fft
  let smp := (List.range k).map (fun i => tdSample f.td stream a.fft (a.at' + (i : Nat)))
  let p := s.slotFlow c h a.slot
  let gone := s.slotGone c h a.slot
  let s := s.tdAdvance c h stream { a with at' := a.at' + (k : Nat) }
  if gone then (s.fhCount (Reg.FH_HALF_TX_MISS c (halfIx h)) 1).raise Reg.FH_EVENT 3
  else if x.fhMode = 1 then
    let t := s.timeOfSample x.cfg a.fft a.at'
    let order := orderOf (t - (s.slt.originNs + s.frame16 t * frameNs) * 65536) (fsKhz x.cfg a.fft)
    let iq := smp.flatMap (fun b => (b.take 2).reverse ++ (b.drop 2).reverse)
    s.sendFrame port (s.carrierHeader c 0xFC3D ++ beBytes 1 0x10 ++ beBytes 1 (p.key stream % 256) ++ beBytes 2 iq.length
      ++ beBytes 4 (order % 2 ^ 32).toNat ++ iq) { carrier := c, slot := s.stampOfSlot c a.slot }
  else
    let w := clampTo 8 16 (Machine.setFld x.page 0 10 18 14)
    let n := containerBits w (fsKhz x.cfg a.fft)
    let pos := min 5759 (Machine.setFld x.page 0 10 31 19) + stream * n
    if cpriBits (s.portShape port) < pos + n then s.clampAt Reg.FH_CLAMP_COUNT
    else
      let bits := smp.flatMap (fun b => bitsOfNat w (natOfBytes (b.take 2) / 2 ^ (16 - w)) ++ bitsOfNat w (natOfBytes (b.drop 2) / 2 ^ (16 - w)))
      (chunks (bfParts (fsKhz x.cfg a.fft)) n bits).foldl (fun s b => s.emit (.cpri port pos (packBits b))) s

/-- Sends a frame that is ready. -/
def State.sendReady (s : State) (port : Nat) (r : Ready) : State :=
  match r.kind with
  | .uplane => s.sendUplane port r.carrier r.half
  | .cpAuto l => s.cpAutoSend r.carrier r.half l r.stream r.close
  | .cpQueue => match (s.fhHalf r.carrier r.half).cpHead with
    | some i => s.cpQueueSend r.carrier r.half i
    | none => s
  | .td a => s.sendTd port r.carrier r.half r.stream a

/-- A host frame leaves; a PTP event message of a port of 25G and above takes the departure time (R44, R310, R311). -/
def State.sendHost (s : State) (x : HostFrame) : State :=
  let s := { s with fh.hostOut := hostPassed s.tb.raw s.fh.hostOut }
  let t := s.txStamp16 x.port
  let ptp := isPtpEvent (ethOf x.data) && decide (s.portShape x.port ≤ 6)
  let body := if ptp then stampPtp x.data t else x.data
  (s.sendFrame x.port body {}).completeAt x.ref stOK 0 false (shortStampOf t)

/-- A further host frame may leave in this second (R311). -/
def State.hostRoom (s : State) : Bool := decide (hostRate s.tb.raw s.fh.hostOut < hostMax)

/-- Nothing of the fabric or the carriers waits at a port (R301, R341). -/
def State.portQuiet (s : State) (port : Nat) : Bool := (s.portReady port).isEmpty && s.fh.stitchTx.all (·.1 != port)

/-! ## Frames of the Press (R382) -/

/-- A FRAME record of the Press leaves; one more than 10 ns after its time is late. -/
def State.pressLeaves (s : State) (c : Nat) (due : Int) : State :=
  let late := decide (due + 655360 < s.tb.time16)
  let x := s.chanP c
  let s := (s.setChanP c { x with late := x.late + b2n late }).bump64 (Reg.CAP_PRESS_SENT_LO c) 1
  if late then (s.bump (Reg.CAP_PRESS_LATE c)).raise Reg.CAP_EVENT 6 else s

/-- The oldest frame of a port's output queue goes next. -/
def State.sendPress (s : State) (x : PressOut) : State :=
  ({ s with cap.outq := s.cap.outq.erase x }.pressLeaves x.chan x.due).sendRaw x.port x.data true {}

/-- FRAME_SEND (R301, R341, R382): a frame of the Press, the fronthaul frame whose window closes first, else a stitch frame, else a host frame. -/
def State.frameSend (s : State) (port : Nat) : State :=
  if !(s.port port).up then s
  else match s.cap.outq.find? (·.port == port) with
  | some x => s.sendPress x
  | none =>
    let s := s.pullPort port
    match earliestReady (s.portReady port) with
    | some r => s.sendReady port r
    | none => match s.fh.stitchTx.find? (·.1 == port) with
      | some x => { s with fh.stitchTx := s.fh.stitchTx.erase x }.sendFrame port x.2 {}
      | none => match s.fh.hostTx.find? (·.port == port) with
        | some x => if s.hostRoom then { s with fh.hostTx := s.fh.hostTx.erase x }.sendHost x else s
        | none => s

def execFrameSend (port : Nat) (s : State) : Res := s.whenClocked fun s => .next (s.frameSend port)

/-! ## Windows that close (R300) -/

/-- TX_WINDOW_CLOSE: TX_MISS advances for each stream of the symbol that has not been sent whole; for a time-domain half, for
each stream whose frame has missed its schedule. -/
def State.txWindowClose (s : State) (c : Nat) (h : Half) (stamp : W32) (sym : Nat) : State :=
  let x := s.carrier c
  let miss := fun (s : State) (n : Nat) =>
    if n = 0 then s else (s.fhCount (Reg.FH_HALF_TX_MISS c (halfIx h)) n).raise Reg.FH_EVENT 3
  if x.receives h || x.isStopped then s
  else if x.fhMode != 0 then
    (List.range 64).foldl (fun s n =>
      match s.tdNext c h n with
      | some a => if n < (s.slotFlow c h a.slot).nStream ∧ s.tdTime c a + tdWindow16 < s.tb.time16 then
          miss (s.tdAdvance c h n { a with at' := a.at' + (s.tdSamples c a.fft : Nat) }) 1 else s
      | none => s) s
  else match s.liveByStamp c h stamp with
  | none => s
  | some l =>
    let p := flowPage l.words
    let f := s.fhHalf c h
    if !inMask l.words sym || decide (symsPerSlot x.cfg ≤ sym) || f.closed.contains (l.slot, sym)
        || decide (s.tb.time16 < (s.window x.cfg h p l.slot sym).2) then s
    else
      let n := ((List.range p.nStream).filter (fun k => !f.whole.contains (l.slot, sym, k))).length
      let f := { f with closed := f.closed ++ [(l.slot, sym)],
                        head := f.head.filter (fun d => d.slot != l.slot || d.sym != sym) }
      miss (s.setFhHalf c h f) n

def execTxWindowClose (carrier : Nat) (half : Half) (slot : W32) (sym : Nat) (s : State) : Res := s.whenClocked fun s =>
  .next (s.txWindowClose carrier half slot sym)

/-! ## Host frames (R311) -/

/-- FH_SEND: `data` is what host memory holds at ADDR; too few bytes are a failed host read (R221). -/
def State.fhSend (s : State) (d : Desc) (data : List Byte) : State :=
  let port := min 95 (d.fld 0x10 22 16)
  let len := clampTo 60 (s.maxFrame port - 4) (d.fld 0x10 13 0)
  let clamped := port != d.fld 0x10 22 16 || len != d.fld 0x10 13 0
  let s := s.clampDesc d clamped Reg.FH_CLAMP_COUNT
  if !(s.port port).up || !s.portEnabled port || s.isCpri port then s.complete (d.ref clamped) stREFUSED 0
  else
    let s := s.emit (.hostRead (s.descFn d) (d.w64 0x18) len)
    if data.length < len then s.complete (d.ref clamped) stBAD 0
    else
      let x : HostFrame := ⟨d.ref clamped, port, data.take len⟩
      let s := s.pullPort port
      if s.hostRoom && (isPtpEvent (ethOf x.data) || (s.portQuiet port && s.fh.hostTx.all (·.port != port))) then s.sendHost x
      else { s with fh.hostTx := s.fh.hostTx ++ [x] }

def execFhSend (d : Desc) (data : List Byte) (s : State) : Res := s.whenClocked fun s => .next (s.fhSend d data)

end Sys2Proof.Machine
end

