-- ==== Sys2Proof/Machine/Mould.lean ====
section
/-! DEFINITION. Mould writes (Slot grid and couching): MOULD_WRITE and MOULD_LOAD, with the clamps of every page. -/

namespace Sys2Proof.Machine

/-- A page in the mould as a write would find it, with the writes that wait for a copy (R56). (DEDUCED, log entry 33) -/
def State.mouldPage (s : State) (carrier half page : Nat) : Nat → W32 := fun w =>
  if carrier = 0xFFFF then setWord s.slt.modSet.finishCopy.mould page w
  else
    let c := s.carrier carrier
    if half = 0 then mapGet (fun _ => 0) c.pageMould w
    else setWord (c.half (if half = 2 then .dl else .ul)).finishCopy.mould page w

/-- The clamps of a page that reach beyond one word, the HARQ region's among them (R247). -/
def State.crossPage (s : State) (carrier : Nat) (sel : PageSel) (p : Nat → W32) : Nat → W32 :=
  let p := crossClamp sel (s.carrier carrier).pageMould p
  match sel with
  | .half _ 6 =>
    let h := s.clampHarq (p 0) (p 1)
    fun w => if w = 0 then h.1 else if w = 1 then h.2.1 else p w
  | _ => p

/-- Writes words of one page from word `first` on, clamped; the CLAMP_COUNTs of the blocks whose fields were clamped, once each
(R59, R105). A field of another word that no longer agrees with the written ones is brought into agreement, and counts as
clamped too. (DEDUCED, log entry 33) -/
def State.writePage (s : State) (carrier half page first : Nat) (words : List W32) : State × List Nat :=
  let sel := pageSel carrier half page
  let fs := pageFields sel
  let old := s.mouldPage carrier half page
  let wrote := fun w => decide (first ≤ w) && decide (w < first + words.length)
  let single := fun w => clampPageWord fs w (words.getD (w - first) 0)
  let p0 : Nat → W32 := fun w => if wrote w then (single w).1 else old w
  let p := s.crossPage carrier sel p0
  let before := s.crossPage carrier sel old
  let clamped := ((List.range 32).filter (fun w =>
    if wrote w then (single w).2 || p w != p0 w else p w != before w)).map (pageOwner sel)
  ((List.range 32).foldl (fun s w => if wrote w || p w != old w then s.storePageWord carrier half page w (p w) else s) s, clamped.eraseDups)

/-- HALF and PAGE of a mould descriptor as taken, and whether one was clamped (R64). -/
def mouldPlace (d : Desc) : Nat × Nat × Nat × Bool :=
  let cid := carrierField d.carrier
  let h0 := d.fld 0x10 15 14
  let p0 := d.fld 0x10 13 11
  let h := if cid = 0xFFFF ∨ h0 = 3 then 1 else h0
  let p := if h = 0 then 0 else p0
  (cid, h, p, carrierClamped d.carrier || h != h0 || p != p0)

/-- Counts the clamps of a mould descriptor: its ring once, the slot grid where its own fields were clamped, and each block
whose page fields were (R9, R105). (DEDUCED, log entry 33) -/
def State.clampMould (s : State) (ring : Nat) (head : Bool) (owners : List Nat) : State :=
  let s := if head || !owners.isEmpty then s.clampRing ring else s
  let all := if head then Reg.SLT_CLAMP_COUNT :: owners.filter (· != Reg.SLT_CLAMP_COUNT) else owners
  all.foldl State.clampAt s

/-- MOULD_WRITE (R64). -/
def State.mouldWrite (s : State) (d : Desc) : State :=
  let m := mouldPlace d
  let w0 := d.fld 0x10 5 0
  let w := min w0 31
  let l0 := d.fld 0x10 10 6
  let l := min (max 1 (min l0 8)) (32 - w)
  let head := m.2.2.2 || w != w0 || l != l0
  if s.carrierRefuses m.1 then (s.clampDesc d head Reg.SLT_CLAMP_COUNT).complete (d.ref head) stDISABLED 0
  else
    let gen := s.mouldGen16 m.1 m.2.1
    let x := s.writePage m.1 m.2.1 m.2.2.1 w ((List.range l).map (fun i => d.w (0x20 + 4 * i)))
    (x.1.clampMould d.ring head x.2).complete (d.ref (head || !x.2.isEmpty)) stOK gen

def execMouldWrite (d : Desc) (s : State) : Res := s.whenClocked fun s => .next (s.mouldWrite d)

/-- MOULD_LOAD (R65): the pages are fetched from host memory. The carrier page is one page. (DEDUCED, log entry 33) -/
def State.mouldLoad (s : State) (d : Desc) : State :=
  let m := mouldPlace d
  let n0 := d.fld 0x10 10 7
  let n := if m.2.1 = 0 then 1 else min (max 1 n0) (8 - m.2.2.1)
  let a0 := d.w64 0x18
  let a := a0 &&& ~~~0x3F#64
  let head := m.2.2.2 || n != n0 || a != a0
  let s := s.clampDesc d head Reg.SLT_CLAMP_COUNT
  if s.carrierRefuses m.1 then s.complete (d.ref head) stDISABLED 0
  else
    { s with slt.loads := s.slt.loads ++ [({ ref := d.ref head, carrier := m.1, half := m.2.1, page := m.2.2.1, pages := n, addr := a } : MouldLoad)] }.emit
      (.hostRead (s.descFn d) a (n * 128))

def execMouldLoad (d : Desc) (s : State) : Res := s.whenClocked fun s => .next (s.mouldLoad d)

/-- MOULD_LOAD_DATA (R65): all of the data is here and the pages are written, or the fetch failed and the mould is
unchanged. -/
def State.mouldLoadData (s : State) (ring : Nat) (tag : W32) (ok : Bool) (data : List W32) : State :=
  match s.slt.loads.find? (fun l => l.ref.ring == ring && l.ref.tag == tag) with
  | none => s
  | some l =>
    let s := { s with slt.loads := s.slt.loads.erase l }
    if !ok then s.complete l.ref stBAD 0
    else
      let gen := s.mouldGen16 l.carrier l.half
      let x := (List.range l.pages).foldl (fun (x : State × Bool) i =>
        let words := (List.range 32).map (fun w => data.getD (32 * i + w) 0)
        let y := x.1.writePage l.carrier l.half (l.page + i) 0 words
        (y.2.foldl State.clampAt y.1, x.2 || !y.2.isEmpty)) (s, false)
      (if x.2 && !l.ref.clamped then x.1.clampRing ring else x.1).complete { l.ref with clamped := l.ref.clamped || x.2 } stOK gen

/-- (DESIGN CHOICE, log entry 8) -/
def execMouldLoadData (ring : Nat) (tag : W32) (ok : Bool) (data : List W32) (s : State) : Res := s.whenClocked fun s =>
  .next (s.mouldLoadData ring tag ok data)

end Sys2Proof.Machine
end

