-- ==== Sys2Proof/Machine/Messages.lean ====
section
/-! DEFINITION. The frame of Serham's messages (R419 to R421): when one is due on its transport, and the response. -/

namespace Sys2Proof.Machine

/-- Transports of R419. -/
abbrev viaMailbox : Nat := 0
abbrev viaEthernet : Nat := 1
abbrev viaSmbus : Nat := 2
abbrev viaUart : Nat := 3

/-- Block status codes of R421. -/
abbrev stBUSY : Nat := 0x80
abbrev stBAD_SIG : Nat := 0x81
abbrev stROLLBACK : Nat := 0x82
abbrev stNOT_FROZEN : Nat := 0x83
abbrev stSVN_RANGE : Nat := 0x84

/-- Opcodes that recovery answers, and opcodes that exist (R421, R428). -/
def recoveryOps : List Nat := [0x01, 0x03, 0x10, 0x11, 0x12, 0x13, 0x14, 0x15]
def knownOps : List Nat := recoveryOps ++ [0x02, 0x16, 0x20, 0x21, 0x30]

/-- Payload bytes a transport carries at most (R419). -/
def payloadLimit (transport : Nat) : Nat := if transport = viaEthernet then 1400 else 248

/-- IPV4_ADDR of the network record as it was read (R422): the first word of its body; an absent record reads 0. -/
def State.ipv4 (s : State) : Nat := natOfBytes (s.col.net.take 4)

/-- Serham, or the boot ROM in recovery, takes up messages on the transport (R419, R422, R428). -/
def State.serhamAnswers (s : State) (transport op : Nat) : Bool :=
  (s.rst.power == .on || s.rst.power == .railFault) && !s.rst.warmHeld
    && (s.col.serhamUp || (s.col.recovery && (transport == viaSmbus || transport == viaUart) && recoveryOps.contains op))
    && (if transport = viaMailbox then s.rst.power == .on && !s.pwr.asleep && s.bit Reg.COL_MB_CTRL 0
        else if transport = viaEthernet then s.ipv4 != 0
        else decide (transport ≤ viaUart))

/-- Another message is outstanding on the transport: a POWER message that waits for its transition, or one that waits for a
flash write and comes again (R419). -/
def State.outstanding (s : State) (transport seq op : Nat) : Bool :=
  s.col.replies.any (fun r => r.transport == transport)
    || s.col.stalled.any (fun m => m.1 == transport && m.2 != (seq, op))

/-- The message waits for a flash write, or no longer does. -/
def State.holdMsg (s : State) (m : Nat × Nat × Nat) : State :=
  if s.col.stalled.contains m then s else { s with col.stalled := s.col.stalled ++ [m] }
def State.releaseMsg (s : State) (m : Nat × Nat × Nat) : State := { s with col.stalled := s.col.stalled.filter (· != m) }

/-- A message is due: on the mailbox the one that COL_MB_REQ holds while GO is 1 (R419, R436); a second one before the
response is discarded (R419). (DEDUCED, log entry 81) -/
def State.msgDue (s : State) (transport seq op : Nat) : Bool :=
  s.serhamAnswers transport op && decide (seq < 256) && !s.outstanding transport seq op
    && (transport != viaMailbox || (s.fld (Reg.COL_MB_REQ 0) 7 0 == op && s.fld (Reg.COL_MB_REQ 0) 15 8 == seq))

/-- The mailbox request's LENGTH is above the limit (R420). -/
def State.lengthClamped (s : State) (transport : Nat) : Bool :=
  transport == viaMailbox && decide (248 < s.fld (Reg.COL_MB_REQ 0) 31 16)

/-- Writes bytes into COL_MB_RSP from word `i` on. -/
def State.putRsp (s : State) (i : Nat) (l : List W32) : State :=
  match l with
  | [] => s
  | w :: r => if i < 64 then (s.wr (Reg.COL_MB_RSP i) w).putRsp (i + 1) r else s

/-- 32-bit words of a byte list; a last word that is short is filled with zeros. -/
def wordsOfBytes (fuel : Nat) (l : List Byte) : List W32 :=
  match fuel, l with
  | 0, _ => []
  | _, [] => []
  | f + 1, l => BitVec.ofNat 32 (natOfBytes (l.take 4)) :: wordsOfBytes f (l.drop 4)

/-- The response header (R420). -/
def responseHeader (op seq status len : Nat) (clamped : Bool) : List Byte :=
  bytesOfNat 4 (op % 256 + seq % 256 * 2 ^ 8 + len % 65536 * 2 ^ 16) ++ bytesOfNat 4 (status % 256 + b2n clamped * 2 ^ 8)

/-- Serham answers a message (R419, R420): on the mailbox in COL_MB_RSP with DONE set and GO cleared (R436), else on the wire. A
clamped request field counts. (PRESUMED, log entry 80) -/
def State.respond (s : State) (transport seq op status : Nat) (clamped : Bool) (payload : List Byte) : State :=
  let s := s.clampIf clamped Reg.COL_CLAMP_COUNT
  let msg := responseHeader op seq status payload.length clamped ++ payload
  if transport = viaMailbox then
    ((s.putRsp 0 (wordsOfBytes 64 msg)).wr Reg.COL_MB_CTRL 2).raise Reg.COL_EVENT 0
  else s.emit (.serham transport msg)

/-- Answers the POWER messages of which `p` holds. -/
def State.answerPower (s : State) (p : PowerReply → Bool) (status : Nat) : State :=
  let hit := s.col.replies.filter p
  if hit.isEmpty then s
  else hit.foldl (fun s r => s.respond r.transport r.seq 0x30 status false [])
    { s with col.replies := s.col.replies.filter (fun r => !p r) }

/-- A transition of cluster `d` of kind `op` has ended (R421). -/
def State.clusterAnswered (s : State) (d op status : Nat) : State :=
  s.answerPower (fun r => r.op == op && r.cluster == some d) status

end Sys2Proof.Machine
end

