-- ==== Sys2Proof/Machine/Freeze.lean ====
section
/-! DEFINITION. The freeze instant (R432, R433): what every freeze does, whatever started it. -/

namespace Sys2Proof.Machine

/-- A freeze aborts every entry that has not set its clamps; those clusters are back in Run (R416). -/
def Cluster.abortEntry (c : Cluster) : Cluster :=
  if c.mode == .entering && !c.isolated then { c with mode := .run, accepted := [], wakeSeen := false, request := none } else c

/-- The freeze instant (R433): the raw counter is latched, every clock stops, the DRAM enters self-refresh, FREEZE_N is
driven where PIN_OUT_EN is 1, and a FREEZE entry is logged. A freeze after the first is ignored (R432). -/
def State.freezeNow (s : State) (cause line : Nat) : State :=
  if s.glb.frozen then s
  else
    let s := { s with
      glb.frozen := true
      col := { s.col with frozenRaw := s.tb.raw, freezeCause := cause, freezeLine := line,
                          freezeLow := s.bit Reg.COL_FREEZE_CFG 1 }
      pwr := { s.pwr with clusters := mapMapSet (fun _ => {}) (fun _ c => c.abortEntry) s.pwr.clusters,
                          hibBusy := s.pwr.hibBusy && s.pwr.asleep }
      mm.chans := (List.range 16).foldl (fun m c =>
        mapSet (fun _ => {}) m c { mapGet (fun _ => ({} : MemChan)) m c with selfRefresh := true }) s.mm.chans }
    let s := s.answerPower (fun r => match r.cluster with
      | some d => (s.cluster d).mode == .run && r.op == 1
      | none => r.op == 2 && !s.pwr.asleep) stABORTED
    s.log 0x07 1 (BitVec.ofNat 128 (cause + line * 2 ^ 8 + s.tb.raw.toNat * 2 ^ 16))

end Sys2Proof.Machine
end

