-- ==== Sys2Proof/Machine/Stitch.lean ====
section
/-! DEFINITION. The stitch fabric (R333 to R360): links and their frames, remote items and events, time, ticks,
broadcasts, discovery and migration. The layouts of MAP, JOIN and system map entries, which the manual names but does not
lay out, are the model's own. -/

namespace Sys2Proof.Machine

/-! ## Frames from bytes (R336) -/

/-- A frame from its bytes, with whether its CRC holds. A LENGTH the bytes do not hold fails like a CRC. -/
def stfOfBytes (l : List Byte) : StfFrame × Bool :=
  let w := fun i => natOfBytes ((l.drop (4 * i)).take 4)
  let fld := fun i hi lo => w i / 2 ^ lo % 2 ^ (hi + 1 - lo)
  let len := fld 1 31 28
  let f : StfFrame := {
    type := fld 0 31 28, cls := fld 0 27 26, nak := fld 0 25 25 = 1, seq := fld 0 23 12, ack := fld 0 11 0,
    hops := fld 1 27 23, dst := fld 1 17 0, op := fld 2 31 24, src := fld 2 17 0,
    crReq := fld 3 29 20, crRsp := fld 3 19 10, crNtf := fld 3 9 0,
    arg := BitVec.ofNat 64 (w 4 + w 5 * 2 ^ 32), arg2 := BitVec.ofNat 32 (w 6),
    payload := (List.range (min len 8)).map (fun i => BitVec.ofNat 256 (natOfBytes ((l.drop (32 + 32 * i)).take 32))) }
  (f, decide (len ≤ 8 ∧ 32 + 32 * len ≤ l.length) && w 7 == (crc32 (stfHeader f 0 ++ stfBody f)).toNat)

/-- 32-byte units a frame takes (R336, R338). -/
def stfUnits (f : StfFrame) : Nat := 1 + f.payload.length

/-- Frames outside the SEQ of a link: IDLE, and LANE_ADD, which a lane sends before its link is up (R335).
(DEDUCED, log entry 63) -/
def stfUnsequenced (f : StfFrame) : Bool := f.type == 0 || f.op == 0x36 || f.op == 0x34

/-! ## Link ends (R338, R339) -/

def LinkEnd.credit (l : LinkEnd) (cls : Nat) : Nat := if cls = 0 then l.credReq else if cls = 1 then l.credRsp else l.credNtf

def LinkEnd.setCredit (l : LinkEnd) (cls n : Nat) : LinkEnd :=
  if cls = 0 then { l with credReq := n } else if cls = 1 then { l with credRsp := n } else { l with credNtf := n }

/-- ACK and NAK as a frame carries them now. -/
def LinkEnd.stamp (l : LinkEnd) (f : StfFrame) : StfFrame := { f with ack := (l.expect + 4095) % 4096, nak := l.nak }

/-- The oldest waiting frame that `p` names. -/
def takeFrame (p : StfFrame → Bool) (l : List StfFrame) : Option (StfFrame × List StfFrame) :=
  match l with
  | [] => none
  | f :: r => if p f then some (f, r) else (takeFrame p r).map (fun q => (q.1, f :: q.2))

/-- The next waiting frame of a class: the oldest, with MIRROR behind every other request (R356). -/
def takeClass (cls : Nat) (l : List StfFrame) : Option (StfFrame × List StfFrame) :=
  takeFrame (fun f => f.cls == cls && f.op != 0x04) l <|> takeFrame (fun f => f.cls == cls) l

/-- Sends the next frame of a class where its credit and the 1,024 held frames allow it. -/
def LinkEnd.sendClass (l : LinkEnd) (cls : Nat) : Option (LinkEnd × StfFrame) :=
  match takeClass cls l.waiting with
  | none => none
  | some (f, rest) =>
    if l.credit cls < stfUnits f ∨ 1024 ≤ l.held.length then none
    else
      let f := { l.stamp f with seq := l.nextSeq }
      some ({ l.setCredit cls (l.credit cls - stfUnits f) with
                nextSeq := (l.nextSeq + 1) % 4096, held := l.held ++ [f], waiting := rest }, f)

/-- Notify first, then response, then request (R338). -/
def LinkEnd.sendNext (l : LinkEnd) : Option (LinkEnd × StfFrame) := l.sendClass 2 <|> l.sendClass 1 <|> l.sendClass 0

/-- Sends what may go. -/
def LinkEnd.pump (fuel : Nat) (l : LinkEnd) (acc : List StfFrame) : LinkEnd × List StfFrame :=
  match fuel with
  | 0 => (l, acc)
  | n + 1 =>
    match l.sendNext with
    | none => (l, acc)
    | some (l, f) => l.pump n (acc ++ [f])

/-- What the receipt of a frame comes to. -/
structure LinkRx where
  link : LinkEnd
  deliver : Bool := false
  discarded : Bool := false
  resend : Bool := false

def capAdd (mx a b : Nat) : Nat := min mx (a + b)

/-- Credits and acknowledgement of a good frame (R338, R339). -/
def LinkEnd.acknowledge (l : LinkEnd) (f : StfFrame) : LinkEnd :=
  let l := { l with credReq := capAdd 2048 l.credReq f.crReq, credRsp := capAdd 2048 l.credRsp f.crRsp,
                    credNtf := capAdd 512 l.credNtf f.crNtf }
  match l.held.findIdx? (·.seq == f.ack) with
  | some i => { l with held := l.held.drop (i + 1), resends := 0 }
  | none => l

/-- A frame is checked, acknowledged and taken in order (R336, R339). -/
def LinkEnd.receive (l : LinkEnd) (f : StfFrame) (ok : Bool) : LinkRx :=
  if !ok || decide (2 < f.type) || decide (8 < f.payload.length) then { link := { l with nak := true }, discarded := true }
  else
    let l := l.acknowledge f
    let re := f.nak && !l.held.isEmpty
    if f.type = 0 then { link := l, resend := re }
    else if f.seq = l.expect then
      { link := { l with expect := (l.expect + 1) % 4096, nak := false }, deliver := true, resend := re }
    else { link := { l with nak := true }, discarded := true, resend := re }

/-- The IDLE frame that answers: ACK, NAK and the credits of the frame taken. (DEDUCED, log entry 63) -/
def LinkEnd.answer (l : LinkEnd) (src : Nat) (f : Option StfFrame) : StfFrame :=
  let cr := fun c => match f with | some f => if f.cls = c then stfUnits f else 0 | none => 0
  l.stamp { type := 0, cls := 0, src := src, crReq := cr 0, crRsp := cr 1, crNtf := cr 2 }

/-! ## Sending -/

def State.linkEnd (s : State) (c : StfChan) : LinkEnd :=
  match c with | .port k => (s.stfPort k).link | .gateway m => s.gatewayEnd m

def State.setLinkEnd (s : State) (c : StfChan) (l : LinkEnd) : State :=
  match c with | .port k => s.setStfPort k { s.stfPort k with link := l } | .gateway m => s.setGatewayEnd m l

/-- The link of a channel carries frames now. -/
def State.chanUp (s : State) (c : StfChan) : Bool :=
  match c with | .port k => (s.stfPort k).isUp | .gateway m => s.gatewayPort.isSome && !(s.gatewayEnd m).down

/-- What the module may send on a channel: HELLO where it greets; every other frame where it takes part and the link is not foreign
(R333, R335, R352). -/
def State.mayCarry (s : State) (c : StfChan) (f : StfFrame) : Bool :=
  if f.op == 0x30 then s.greets
  else s.fabricOn && match c with | .port k => !(s.stfPort k).foreign | .gateway _ => true

/-- A stitch frame over Ethernet (R341): one of the notify class goes next; another waits while fronthaul frames are ready. -/
def State.sendEth (s : State) (mac : Nat) (f : StfFrame) : State :=
  match s.gatewayPort with
  | some p =>
    let body := ethHeader mac (s.portMac p) none (s.fld Reg.FH_STF_ETYPE 15 0) ++ stfBytes f
    if f.cls = 2 || s.portQuiet p then s.sendFrame p body {} else { s with fh.stitchTx := s.fh.stitchTx ++ [(p, body)] }
  | none => s

/-- The lane that carries each of a frame's 32-byte units: the admitted lanes in turn, the lowest first (R336). -/
def stripe (active : List Nat) (f : StfFrame) : List Nat := (List.range (stfUnits f)).map (fun u => active.getD (u % active.length) 0)

/-- Puts a frame on the line. -/
def State.transmit (s : State) (c : StfChan) (f : StfFrame) : State :=
  match c with
  | .port k => (s.emit (.stitch k f (stripe (s.stfPort k).active f))).offerStitch 4 k f false
  | .gateway m => s.sendEth m f

/-- Sends every waiting frame that may go. -/
def State.pumpChan (s : State) (c : StfChan) : State :=
  if s.chanUp c then
    let l := s.linkEnd c
    let go := l.waiting.filter (s.mayCarry c)
    let x := LinkEnd.pump go.length { l with waiting := go } []
    x.2.foldl (fun s f => s.transmit c f)
      (s.setLinkEnd c { x.1 with waiting := x.1.waiting ++ l.waiting.filter (fun f => !s.mayCarry c f) })
  else s

/-- Sends a frame on a channel: behind what waits there. Nothing goes to a link that is down, or that may not carry it. -/
def State.stfSend (s : State) (c : StfChan) (f : StfFrame) : State :=
  let up := match c with | .port k => (s.stfPort k).isUp | .gateway _ => true
  if up && s.mayCarry c f then
    let l := s.linkEnd c
    (s.setLinkEnd c { l with waiting := l.waiting ++ [f] }).pumpChan c
  else s

/-- Puts the held frames on the line again, those that may go. -/
def State.sendHeld (s : State) (c : StfChan) : State :=
  let l := s.linkEnd c
  (l.held.filter (s.mayCarry c)).foldl (fun s f => s.transmit c (l.stamp f)) s

/-- Every frame not yet acknowledged goes again (R339). -/
def State.resend (s : State) (c : StfChan) : State :=
  let l := s.linkEnd c
  if l.held.any (s.mayCarry c) then
    let s := s.setLinkEnd c { l with resends := l.resends + 1 }
    (match c with | .port k => s.bumpFld (Reg.STF_PORT_RETRY k) 15 0 1 | .gateway _ => s).sendHeld c
  else s

/-- Sends a frame on every link of the group but one. -/
def State.flood (s : State) (but : Option Nat) (f : StfFrame) : State :=
  s.portsUp.foldl (fun s k => if some k = but then s else s.stfSend (.port k) f) s

/-! ## Towards another module -/

/-- A frame or item no map holds (R343, R338). -/
def State.unreachable (s : State) : State := s.bump Reg.STF_UNREACHABLE

/-- Sends a frame of this module towards a destination. -/
def State.stfSendTo (s : State) (f : StfFrame) : State :=
  match s.stfRoute f.dst with
  | some c => s.stfSend c { f with src := s.selfId }
  | none => s.unreachable

/-- Forwards a frame that is not for this module (R338). -/
def State.forward (s : State) (f : StfFrame) : State :=
  if f.hops = 0 then s.unreachable
  else match s.stfRoute f.dst with
    | some c => s.stfSend c { f with hops := f.hops - 1 }
    | none => s.unreachable

/-! ## Remote items and events (R342 to R344) -/

def State.binding (s : State) (b : Nat) : Binding := mapGet (fun _ => {}) s.stf.bindings b
def State.setBinding (s : State) (b : Nat) (x : Binding) : State :=
  if b < 4096 then { s with stf.bindings := mapSet (fun _ => {}) s.stf.bindings b x } else s

/-- A (source module, binding) pair is one producer (R343). -/
def remoteProducer (src b : Nat) : Producer := .stitch (src * 4096 + b)

/-- A drained binding is OFF. (DEDUCED, log entry 69) -/
def Binding.settle (x : Binding) : Binding := if x.draining && x.inFlight == 0 && x.words.isEmpty then {} else x

/-- The commit status of a binding's item came back (R343). -/
def State.bindResult (s : State) (b status : Nat) : State :=
  let x := s.binding b
  let s := s.setBinding b ({ x with inFlight := x.inFlight - 1 } : Binding).settle
  if status = stOK then s else (s.bump (Reg.STF_BIND_DROP b)).raise Reg.STF_EVENT 9

/-- STF_BIND (R342): the fabric becomes the queue's only consumer, so those that wait there end REFUSED. A binding that still drains is
OFF: what it has in flight goes on beside the new one. (DEDUCED, log entry 69) -/
def State.stfBind (s : State) (d : Desc) : State :=
  let kind := if d.fld 0x10 31 30 = 3 then 0 else d.fld 0x10 31 30
  let cl := d.fld 0x10 31 30 = 3
  let b := d.fld 0x10 11 0
  let src := d.fld 0x14 15 0
  let s := s.clampDesc d cl Reg.STF_CLAMP_COUNT
  let x := s.binding b
  let done := fun (s : State) (st : Nat) => s.complete (d.ref cl) st 0
  if !(s.queue src).storable then done s stREFUSED
  else if kind = 0 then
    let q := s.queue x.src
    let s := if x.kind = 0 then s else s.setQueue x.src { q with stalled := q.stalled.filter (· != .stitch b) }
    done (s.setBinding b ({ x with kind := 0, draining := x.kind != 0 || x.draining } : Binding).settle) stOK
  else if x.kind != 0 then done s stREFUSED
  else
    let s := ((s.wr (Reg.STF_BIND_SENT b) 0).wr (Reg.STF_BIND_DROP b) 0).setQueue src ((s.queue src).releaseAll stREFUSED)
    done (s.setBinding b { kind := kind, src := src, dst := d.fld 0x18 17 0, dstQid := d.fld 0x1C 15 0,
                           inFlight := x.inFlight, words := x.words }) stOK

def execStfBind (d : Desc) (s : State) : Res := s.whenClocked fun s => .next (s.stfBind d)

/-- Payloads of at most 8 words; an item has at least one word. -/
def payloads (fuel : Nat) (l : List QWord) : List (List QWord) :=
  match fuel with
  | 0 => []
  | n + 1 => if l.length ≤ 8 then [l] else l.take 8 :: payloads n (l.drop 8)

/-- The QITEM frames of an item (R337, R343). -/
def qitemFrames (b : Nat) (x : Binding) (i : QItem) : List StfFrame :=
  let ps := payloads (i.words.length + 1) i.words
  ps.mapIdx (fun n w =>
    { type := 1, cls := 0, dst := x.dst, op := 0x01, payload := w,
      arg := BitVec.ofNat 64 (x.dstQid + i.prio % 8 * 2 ^ 16 + b * 2 ^ 20 + i.tag.toNat * 2 ^ 32 + b2n (n == 0) * 2 ^ 48
        + b2n (n + 1 == ps.length) * 2 ^ 49) })

/-- BIND_ITEM_SEND (R343): one item of a QUEUE binding. An item whose module the maps do not hold is discarded; one whose module they
hold waits for a way there. (DEDUCED, log entry 69) -/
def State.bindItemSend (s : State) (b : Nat) : State :=
  let x := s.binding b
  if x.kind != 1 || decide (64 ≤ x.inFlight) || !s.fabricOn || (s.inMap x.dst && !s.reachable x.dst) then s
  else
    let r := s.readQueue x.src (.stitch b)
    match r.2 with
    | .item i =>
      let s := r.1
      if !s.inMap x.dst then s.unreachable
      else
        let s := s.bump (Reg.STF_BIND_SENT b)
        if x.dst = s.selfId then
          let y := s.pushItem x.dstQid (remoteProducer s.selfId b) i.prio i.tag i.words
          if y.2 = stOK then y.1 else (y.1.bump (Reg.STF_BIND_DROP b)).raise Reg.STF_EVENT 9
        else
          let s := s.setBinding b { x with inFlight := x.inFlight + 1 }
          (qitemFrames b x i).foldl State.stfSendTo s
    | _ => r.1

def execBindItemSend (bind : Nat) (s : State) : Res := s.whenClocked fun s => .next (s.bindItemSend bind)

/-- One event word (R344). -/
def State.sendEvent (s : State) (w : QWord) : State :=
  let dst := bitsOf (qwWord w 0) 17 0
  let task := bitsOf (qwWord w 1) 16 0
  if dst = s.selfId then s.sendFlags .stitch task (qwWord w 2)
  else s.stfSendTo { type := 1, cls := 2, dst := dst, op := 0x03, arg := BitVec.ofNat 64 task, arg2 := qwWord w 2 }

/-- BIND_EVENT_SEND (R344): the next word of an EVENT binding. An item already read is sent whole (R342). -/
def State.bindEventSend (s : State) (b : Nat) : State :=
  let go := fun (s : State) (x : Binding) =>
    match x.words with
    | [] => s
    | w :: r => ((s.setBinding b ({ x with words := r } : Binding).settle).bump (Reg.STF_BIND_SENT b)).sendEvent w
  let x := s.binding b
  if !s.fabricOn then s
  else if !x.words.isEmpty then go s x
  else if x.kind = 2 then
    let r := s.readQueue x.src (.stitch b)
    match r.2 with
    | .item i => go r.1 { x with words := i.words }
    | _ => r.1
  else s

def execBindEventSend (bind : Nat) (s : State) : Res := s.whenClocked fun s => .next (s.bindEventSend bind)

/-- QITEM_RECEIVE (R343): the frames of an item are written to the queue in order; the last one commits and the status goes
back. -/
def State.rxQitem (s : State) (f : StfFrame) : State :=
  let a := f.arg.toNat
  let q := a % 2 ^ 16
  let b := a / 2 ^ 20 % 4096
  let p := remoteProducer f.src b
  let s := if a.testBit 48 then (s.portOp ⟨q, p, .start (a / 2 ^ 16 % 8) (BitVec.ofNat 16 (a / 2 ^ 32))⟩).1 else s
  let s := (s.putWords q p f.payload).1.retryWrites
  if a.testBit 49 then
    let y := s.commitNow q p
    y.1.retryWrites.stfSendTo { type := 1, cls := 1, dst := f.src, op := 0x02, arg := BitVec.ofNat 64 (b * 2 ^ 20 + y.2 * 2 ^ 32) }
  else s

/-! ## Time (R345) -/

/-- TIME_LOCK falls (R345). -/
def State.timeUnlock (s : State) : State :=
  let s' := { s with stf := { s.stf with timeLock := false, goodRun := 0 } }
  if s.stf.timeLock then s'.raise Reg.STF_EVENT 5 else s'

/-- The loop of a child (R345). The gains of the proportional-integral law are not given: the trimmed rate is free.
(DESIGN CHOICE, log entry 19) -/
def State.steer (s : State) (offset : Int) : State :=
  let s := s.wr Reg.STF_TIME_OFFSET (BitVec.ofNat 32 (unsignedOf 32 offset))
  let a : Int := (offset.natAbs : Nat)
  let good := if a ≤ 131072 then s.stf.goodRun + 1 else 0
  let bad := if 262144 < a then s.stf.badRun + 1 else 0
  let s := { s with stf := { s.stf with goodRun := good, badRun := bad } }
  let s := if 16 ≤ good then { s with stf.timeLock := true } else s
  let s := if 4 ≤ bad then s.timeUnlock else s
  if s.tb.stitchSource then
    let refused := (decide (s.stepLimitU < ((s.tb.remainU - offset * uPer16).natAbs : Int))) && !(s.bit Reg.TB_CTRL 8 && s.allStopped)
    let s := s.adjust (-offset)
    let s := if refused then s.timeUnlock else s
    (s.commitRate (rateMin + s.freeBelow (rateMax - rateMin + 1))).drawn
  else s

/-- A TSYNC frame: sync with t1, or reply with t3 (R337, R345). -/
def tsyncFrame (src : Nat) (reply : Bool) (stamp : W64) : StfFrame :=
  { type := 1, cls := 2, op := 0x10, src := src, arg := stamp, arg2 := BitVec.ofNat 32 (b2n reply) }

/-- A TSYNC frame arrives: a sync is answered with the time at which the answer leaves; the times of a reply reach the loop with
TSYNC_EXCHANGE. (DEDUCED, log entry 65) -/
def State.rxTsync (s : State) (k : Nat) (f : StfFrame) : State :=
  if bitOf f.arg2 0 then s else s.stfSend (.port k) (tsyncFrame s.selfId true s.stampNow)

/-- TSYNC_EXCHANGE (R345): the sync goes out at t1; the delay of the link; on the parent's link also the offset. Times in 2^-16 ns.
(DEDUCED, log entry 65) -/
def State.tsyncExchange (s : State) (k : Nat) (t1 t2 t3 t4 : Int) : State :=
  if decide (12 ≤ k) || !(s.stfPort k).isUp || (s.stfPort k).foreign || !s.fabricOn then s
  else
    let delay := ((t2 - t1) + (t4 - t3)) / 2
    let s := s.stfSend (.port k) (tsyncFrame s.selfId false (shortStampOf t1))
    let s := s.wr (Reg.STF_PORT_DELAY k) (BitVec.ofNat 32 (unsignedOf 32 delay))
    if s.parentPort = some k then s.steer (((t2 - t1) - (t4 - t3)) / 2) else s

def execTsyncExchange (port : Nat) (t1 t2 t3 t4 : Int) (s : State) : Res := s.whenClocked fun s => .next (s.tsyncExchange port t1 t2 t3 t4)

/-! ## Ticks (R346) -/

/-- The time a short stamp names, nearest to now, in 2^-16 ns. -/
def State.timeOfStamp (s : State) (st : W64) : Int :=
  let period : Int := (2 ^ 16 * 1000000000 * 65536 : Nat)
  let t : Int := ((bitsOf st 63 48 * 1000000000 + bitsOf st 47 16) * 65536 + bitsOf st 15 0 : Nat)
  let d := (t - s.tb.time16) % period
  if d < period / 2 then s.tb.time16 + d else s.tb.time16 + d - period

/-- The reference frame boundary of frame `n`, in 2^-16 ns (R50). -/
def State.frameTime (s : State) (n : Int) : Int := (s.slt.originNs + n * frameNs) * 65536

/-- The current reference frame's count, 24 bits. -/
def State.frameCount (s : State) : Nat := ((s.slt.nextFrame - 1) % 2 ^ 24).toNat

/-- Sends a frame to each child in the root tree (R346). -/
def State.floodDown (s : State) (f : StfFrame) : State :=
  s.stf.members.foldl (fun s p => match p.2 with
    | some x => if x.parent = s.selfMember ∧ p.1 ≠ s.selfMember then
        (match s.portTo p.1 with | some k => s.stfSend (.port k) f | none => s) else s
    | none => s) s

/-- TICK_SEND: the group root, at a reference frame boundary (R346). -/
def State.sendTick (s : State) (n : Int) : State :=
  if s.fabricOn && s.stf.root == some s.selfMember && s.stf.mapped then
    s.floodDown { type := 1, cls := 2, op := 0x11, src := s.selfId, arg := shortStampOf (s.frameTime n),
                   arg2 := BitVec.ofNat 32 (n % 2 ^ 24).toNat }
  else s

/-- A TICK arrives from the parent: compared with the module's own frame boundary and forwarded down the tree. The delay
accumulated above the own link is known only on the root's own links; further down it is free. (DESIGN CHOICE, log entry 19) -/
def State.rxTick (s : State) (k : Nat) (f : StfFrame) : State :=
  if s.parentPort != some k then s
  else
    let direct := (s.member s.selfMember).map (·.parent) == s.stf.root
    let acc : Int := (s.rd (Reg.STF_PORT_DELAY k)).toNat + (if direct then 0 else (s.freeBelow (2 ^ 32) : Int))
    let s := if direct then s else s.drawn
    let arrival := s.tb.time16 - acc
    let near := (arrival - s.frameTime 0 + 327680000000) / 655360000000
    let diff := (arrival - s.frameTime near).natAbs
    let s := if s.fld Reg.STF_TICK_TOL 7 0 * 65536 < diff then (s.bump Reg.STF_TICK_SLIP).raise Reg.STF_EVENT 6 else s
    let s := if bitsOf f.arg2 23 0 = s.frameCount then s else s.raise Reg.STF_EVENT 7
    if f.hops = 0 then s else s.floodDown { f with hops := f.hops - 1 }

/-! ## Broadcasts (R347, R348) -/

/-- Sends a frame to every gateway of the system map but the own group's. -/
def State.floodGateways (s : State) (f : StfFrame) : State :=
  if s.gatewayPort.isSome then
    s.stf.sysMap.foldl (fun s p => match p.2 with
      | some e => if p.1 = s.selfGroup then s else s.stfSend (.gateway e.mac) { f with hops := 16 }
      | none => s) s
  else s

/-- Enters a broadcast; the earliest T stands first. -/
def insertBroadcast (b : Broadcast) (l : List Broadcast) : List Broadcast :=
  match l with
  | [] => [b]
  | x :: r => if b.t < x.t then b :: x :: r else x :: insertBroadcast b r

/-- Broadcasts heard of are remembered until 1 s after their time. (DEDUCED, log entry 70) -/
def State.remembered (s : State) : List Heard := s.stf.seen.filter (fun h => decide (s.tb.time16 < h.t + 65536000000000))

def Broadcast.heard (b : Broadcast) : Heard := ⟨b.trigger, b.origin, b.seq, b.t⟩

/-- A broadcast is known now; a FREEZE after its T freezes at once (R347). (DEDUCED, log entry 70) -/
def State.takeBroadcast (s : State) (b : Broadcast) : State :=
  if !b.trigger && decide (b.t < s.tb.time16) then (s.raise Reg.STF_EVENT 11).freezeNow 3 0
  else { s with stf.pending := insertBroadcast b s.stf.pending }

def Broadcast.frame (b : Broadcast) : StfFrame :=
  { type := 1, cls := 2, op := if b.trigger then 0x21 else 0x20, src := b.origin, arg := b.stamp,
    arg2 := BitVec.ofNat 32 (if b.trigger then b.seq * 2 ^ 16 + b.line else b.seq) }

/-- Starts a broadcast: T is corrected time and the lead; it floods the group and the gateways (R347). FREEZE and TRIGGER each count their
own sequence, of 32 and 16 bits. (DEDUCED, log entry 70) -/
def State.startBroadcast (s : State) (trigger : Bool) (line leadUs : Nat) : State × Int :=
  let t := s.tb.time16 + (leadUs * 65536000 : Nat)
  let b : Broadcast := ⟨trigger, line, t, shortStampOf t, s.selfId, if trigger then s.stf.trigSeq else s.stf.bcastSeq⟩
  let s := if trigger then { s with stf.trigSeq := (s.stf.trigSeq + 1) % 65536 }
    else { s with stf.bcastSeq := (s.stf.bcastSeq + 1) % 2 ^ 32 }
  let s := { s with stf.seen := s.remembered ++ [b.heard] }.takeBroadcast b
  ((s.flood none b.frame).floodGateways b.frame, t)

/-- A FREEZE or TRIGGER arrives (R347): duplicates are discarded by origin and sequence. -/
def State.rxBroadcast (s : State) (from_ : Option Nat) (f : StfFrame) : State :=
  let trigger := f.op == 0x21
  let seq := if trigger then bitsOf f.arg2 31 16 else f.arg2.toNat
  if s.remembered.any (fun h => h.trigger == trigger && h.origin == f.src && h.seq == seq) then s
  else
    let b : Broadcast := ⟨trigger, bitsOf f.arg2 1 0, s.timeOfStamp f.arg, f.arg, f.src, seq⟩
    let s := { s with stf.seen := s.remembered ++ [b.heard] }
    let s := if s.glb.frozen then s else s.takeBroadcast b
    let s := if f.hops = 0 then s else s.flood from_ { f with hops := f.hops - 1 }
    if from_.isSome && f.src / 512 == s.selfGroup then s.floodGateways f else s

/-- LEAD_US of STF_BCAST (R348). (DEDUCED, log entry 70) -/
def State.bcastLead (s : State) (v : Nat) : Nat × Bool :=
  if v = 0 then (s.fld Reg.STF_FREEZE_LEAD 16 0, false)
  else if v < 20 then (20, true) else if 100000 < v then (100000, true) else (v, false)

/-- STF_BCAST (R348): OP 1 or 2; its completion carries T. -/
def State.stfBcast (s : State) (d : Desc) (trigger : Bool) : State :=
  let lead := s.bcastLead (d.fld 0x10 16 0)
  let s := s.clampDesc d lead.2 Reg.STF_CLAMP_COUNT
  let x := s.startBroadcast trigger (d.fld 0x10 18 17) lead.1
  x.1.completeAt (d.ref lead.2) stOK 0 false (shortStampOf x.2)

def execStfBcastFreeze (d : Desc) (s : State) : Res := s.whenClocked fun s => .next (s.stfBcast d false)
def execStfBcastTrigger (d : Desc) (s : State) : Res := s.whenClocked fun s => .next (s.stfBcast d true)

/-! ## Neighbours and election (R349, R350, R352) -/

/-- HELLO: sent on a link every 1 ms (R349). A module without a valid ID sends only idle frames (R333). (DEDUCED, log entry 71) -/
def State.hello (s : State) (k : Nat) : State :=
  if 12 ≤ k ∨ !(s.stfPort k).isUp then s
  else if !s.greets then s.transmit (.port k) ((s.stfPort k).link.answer s.selfId none)
  else s.stfSend (.port k) { type := 2, cls := 2, op := 0x30, src := s.selfId, arg := Config.serial,
                             arg2 := BitVec.ofNat 32 (b2n s.stf.mapped + 2 * b2n s.stf.dupId) }

def execHello (port : Nat) (s : State) : Res := s.whenClocked fun s => .next (s.hello port)

/-- The module finds that another one has its ID and is the later of the two: it is isolated (R352). (DEDUCED, log entry 66) -/
def State.isolate (s : State) : State :=
  if s.stf.dupId then s else { s with stf := { s.stf with dupId := true, newId := false } }.raise Reg.STF_EVENT 2

/-- This module is the later one: unmapped beside a mapped one, or with the higher serial number (R352).
(DEDUCED, log entry 66) -/
def State.isLater (s : State) (p : Peer) : Bool :=
  if s.stf.mapped != p.mapped then p.mapped else decide (p.serial.toNat < Config.serial.toNat)

/-- The module's own candidate: its MEMBER where it is eligible (R350). (DEDUCED, log entry 64) -/
def State.ownCandidate (s : State) : Option Nat := if s.gatewayPort.isSome then some s.selfMember else none

/-- A candidate, a MEMBER, with 512 added where it is not eligible, is adopted and flooded again only where it is lower than the best
known (R350). (DEDUCED, log entry 64) -/
def State.considerCandidate (s : State) (m : Nat) (from_ : Option Nat) (hops : Nat) : State :=
  let better := match s.stf.best with | some b => decide (m < b) | none => true
  if better then
    let s := { s with stf := { s.stf with best := some m, bestPort := from_, bestHops := hops, settled := false } }
    if hops = 0 then s
    else s.flood from_ { type := 2, cls := 2, op := 0x31, src := s.selfId, hops := hops - 1, arg2 := BitVec.ofNat 32 m }
  else s

/-- A module that becomes eligible floods ELECT with HOPS 16 (R350). -/
def State.electSelf (s : State) : State :=
  if !s.fabricOn then s
  else match s.ownCandidate with
    | some m => s.considerCandidate m none 17
    | none => s

/-- The way to the best candidate is lost: no parent, so TIME_LOCK falls, and a new election (R354). (DEDUCED, log entry 64) -/
def State.loseRoot (s : State) : State :=
  ({ s with stf := { s.stf with best := none, bestPort := none, bestHops := 0, settled := false, badRun := 0 } }.timeUnlock).electSelf

/-- The best candidate goes to one neighbour. -/
def State.tellBest (s : State) (k : Nat) : State :=
  match s.stf.best with
  | some m => if s.stf.bestHops = 0 then s
    else s.stfSend (.port k) { type := 2, cls := 2, op := 0x31, src := s.selfId, hops := s.stf.bestHops - 1, arg2 := BitVec.ofNat 32 m }
  | none => s

/-- ELECT arrives with its candidate; beyond 16 hops it is not heard. A worse candidate from the neighbour that gave the best one says
that the best one is lost there; one from another neighbour is answered with the better (R350, R354). (DEDUCED, log entry 64) -/
def State.rxElect (s : State) (k : Nat) (f : StfFrame) : State :=
  let m := bitsOf f.arg2 9 0
  if f.hops = 0 then s
  else
    let s := if s.stf.best.isNone then s.electSelf else s
    if s.stf.best.any (fun b => decide (b < m)) then
      (if s.stf.bestPort = some k then s.loseRoot.considerCandidate m (some k) f.hops else s.tellBest k)
    else s.considerCandidate m (some k) f.hops

/-- The peers by port, as JOIN carries them: twelve words, bit 31 set where a peer is known. -/
def State.peerWords (s : State) : List W32 :=
  (List.range 12).map (fun k => match (s.stfPort k).known with | some i => BitVec.ofNat 32 (2 ^ 31 + i) | none => 0)

/-- JOIN: the peers by port, then the sender's serial number. (PRESUMED, log entry 62) -/
def State.joinFrame (s : State) : StfFrame :=
  let w := s.peerWords ++ [Config.serial.setWidth 32, (Config.serial >>> 32).setWidth 32]
  { type := 2, cls := 2, op := 0x32, src := s.selfId, payload := [qwOfWords (w.take 8), qwOfWords (w.drop 8)] }

/-- A member tells the root its peers (R349, R350). -/
def State.sendJoin (s : State) : State :=
  match s.stf.bestPort with
  | some k => if s.stf.settled && s.stf.root != some s.selfMember then s.stfSend (.port k) s.joinFrame else s
  | none => s

/-- A neighbour has become known: it hears the best candidate, and the root hears of the neighbour (R350).
(DEDUCED, log entry 64) -/
def State.greet (s : State) (k : Nat) : State := (s.tellBest k).sendJoin

/-- Another neighbour has the same ID and another serial number, and the first of the two is the later (R352). -/
def State.laterNeighbour (s : State) (k : Nat) (p : Peer) : Bool :=
  (List.range 12).any (fun i => i != k && match (s.stfPort i).peer with
    | some o => o.id == p.id && o.serial != p.serial && (if o.mapped != p.mapped then o.mapped else decide (o.serial.toNat < p.serial.toNat))
    | none => false)

/-- A HELLO arrives. (DEDUCED, log entry 66) -/
def State.rxHello (s : State) (k : Nat) (f : StfFrame) : State :=
  let x := s.stfPort k
  let p : Peer := { id := f.src, serial := f.arg, mapped := bitOf f.arg2 0, duplicate := bitOf f.arg2 1 }
  let p := match x.peer with
    | some o => if o.id = p.id ∧ o.serial = p.serial then { p with hellos := min 3 (o.hellos + 1) } else p
    | none => p
  let p := if s.laterNeighbour k p then { p with duplicate := true } else p
  let foreign := f.src / 512 != s.selfGroup
  let s := s.setStfPort k { x with peer := some p, foreign := foreign }
  let s := if foreign && !x.foreign then s.raise Reg.STF_EVENT 10 else s
  let s := if x.known.isNone && (s.stfPort k).known.isSome then s.greet k else s
  if f.src = s.selfId ∧ p.serial ≠ Config.serial ∧ !p.duplicate ∧ s.isLater p then s.isolate else s

/-- ELECT_SETTLE: 20 ms without a change settle the root, and the members join it (R349, R350). A module that has heard of no eligible
one by then floods its own MEMBER as one that is not eligible: so the group finds its lowest. (DEDUCED, log entry 64) -/
def State.electSettle (s : State) : State :=
  if !s.fabricOn then s
  else match s.stf.best with
    | none => s.considerCandidate (512 + s.selfMember) none 17
    | some m =>
      let root := m % 512
      let changed := s.stf.root != some root
      let s := { s with stf := { s.stf with root := some root, settled := true } }
      let s := if changed then
          { s with stf := { s.stf with mapped := false, mapBegun := false, joins := [], serials := [], goodRun := 0, badRun := 0 } }.timeUnlock.raise
            Reg.STF_EVENT 3
        else s
      s.sendJoin

/-- (DESIGN CHOICE, log entry 5) -/
def execElectSettle (s : State) : Res := s.whenClocked fun s => .next s.electSettle

/-- The serial number under which the root knows a member, and whether the member is mapped (R352). -/
def State.knownSerial (s : State) (m : Nat) : Option (W64 × Bool) :=
  if m = s.selfMember then some (Config.serial, s.stf.mapped)
  else if s.stf.mapped && (s.member m).isSome then (s.member m).map (fun x => (x.serial, true))
  else if (mapKeys s.stf.serials).contains m then some (mapGet (fun _ => 0) s.stf.serials m, false) else none

/-- A JOIN: kept at the root, passed on towards it elsewhere (R350). Of two modules with one ID the root keeps the mapped one, or the one
with the lower serial number; the map tells the other (R352). (PRESUMED, log entry 62) -/
def State.rxJoin (s : State) (f : StfFrame) : State :=
  if s.stf.root = some s.selfMember then
    let m := f.src % 512
    let w := (List.range 14).map (fun i => qwWord (f.payload.getD (i / 8) 0) (i % 8))
    let peers := (w.take 12).map (fun x => if bitOf x 31 then some (bitsOf x 17 0) else none)
    let serial : W64 := BitVec.ofNat 64 ((w.getD 12 0).toNat + (w.getD 13 0).toNat * 2 ^ 32)
    let later := match s.knownSerial m with
      | some k => k.1 != serial && (k.2 || decide (k.1.toNat < serial.toNat))
      | none => false
    if later then s
    else if m = s.selfMember ∧ serial ≠ Config.serial then s.isolate
    else { s with stf := { s.stf with joins := mapSet (fun _ => []) s.stf.joins m peers, serials := mapSet (fun _ => 0) s.stf.serials m serial } }
  else match s.stf.bestPort with
    | some k => if f.hops = 0 then s.unreachable else s.stfSend (.port k) { f with hops := f.hops - 1 }
    | none => s

/-! ## The group map (R350) -/

/-- Peers of a member as the root knows them. -/
def State.peersOf (s : State) (m : Nat) : List Nat :=
  let l := if m = s.selfMember then (List.range 12).map (fun k => (s.stfPort k).known) else mapGet (fun _ => []) s.stf.joins m
  (l.filterMap id).filterMap (fun i => if i / 512 = s.selfGroup then some (i % 512) else none)

/-- One level of the breadth-first search: members found so far with their parents, and the newest of them. -/
def State.bfsLevel (s : State) (found : List (Nat × Nat)) (l : List Nat) : List (Nat × Nat) :=
  l.foldl (fun acc m => (s.peersOf m).foldl (fun acc p => if acc.any (·.1 == p) then acc else acc ++ [(p, m)]) acc) found

/-- The breadth-first tree from the root: pairs (member, parent). (DEDUCED, log entry 64) -/
def State.bfs (s : State) (fuel : Nat) (found : List (Nat × Nat)) (front : List Nat) : List (Nat × Nat) :=
  match fuel with
  | 0 => found
  | n + 1 =>
    let next := s.bfsLevel found front
    if next.length = found.length then found else s.bfs n next ((next.drop found.length).map Prod.fst)

/-- Hops and first port of every member, from this module along the tree. -/
def State.withRoutes (s : State) : State :=
  let mine := s.wayUp 32 s.selfMember
  let hopsTo := fun m =>
    let up := s.wayUp 32 m
    match up.findIdx? (mine.contains ·) with
    | some i => i + (mine.idxOf (up.getD i m))
    | none => 31
  { s with stf.members := s.stf.members.map (fun p => (p.1, p.2.map (fun x =>
      ({ x with hops := min 31 (hopsTo p.1),
                port := if p.1 = s.selfMember then 15 else ((s.nextMember p.1).bind s.portTo).getD 15 } : Member)))) }

/-- Installs map entries; a new generation starts from an empty map and sets MAP_CHANGE. -/
def State.installMap (s : State) (gen : Nat) (l : List (Nat × Nat × W64)) : State :=
  let new := gen != s.stf.mapGen || !s.stf.mapBegun
  let base := if new then [] else s.stf.members
  let ms := l.foldl (fun m p => mapSet (fun _ => none) m p.1 (some ({ parent := p.2.1, serial := p.2.2 } : Member))) base
  let s := { s with stf := { s.stf with mapGen := gen, mapBegun := true, members := ms } }
  let s := { s with stf.mapped := s.stf.mapped || (s.member s.selfMember).isSome }.withRoutes
  if new then s.raise Reg.STF_EVENT 4 else s

/-- An entry of MAP: the member, with bit 31 set, its parent and its serial number; 16 bytes, two to a payload word.
(PRESUMED, log entry 62) -/
def mapEntry (a : Nat × Nat × W64) : List W32 :=
  [BitVec.ofNat 32 (2 ^ 31 + a.1), BitVec.ofNat 32 a.2.1, a.2.2.setWidth 32, (a.2.2 >>> 32).setWidth 32]

def mapEntryWords (l : List (Nat × Nat × W64)) : List QWord :=
  match l with
  | [] => []
  | [a] => [qwOfWords (mapEntry a)]
  | a :: b :: r => qwOfWords (mapEntry a ++ mapEntry b) :: mapEntryWords r

/-- (PRESUMED, log entry 62) -/
def entriesOfWords (l : List QWord) : List (Nat × Nat × W64) :=
  l.flatMap (fun w => [0, 4].filterMap (fun i =>
    if bitOf (qwWord w i) 31 then
      some (bitsOf (qwWord w i) 8 0, bitsOf (qwWord w (i + 1)) 8 0,
        BitVec.ofNat 64 ((qwWord w (i + 2)).toNat + (qwWord w (i + 3)).toNat * 2 ^ 32))
    else none))

/-- The tree of the group with the members' serial numbers (R350, R352). -/
def State.treeEntries (s : State) : List (Nat × Nat × W64) :=
  (s.bfs 512 [(s.selfMember, s.selfMember)] [s.selfMember]).map (fun p =>
    (p.1, p.2, if p.1 = s.selfMember then Config.serial else mapGet (fun _ => 0) s.stf.serials p.1))

/-- COMMON with T_cc and the module's grid origin (R337, R353). -/
def State.commonFrame (s : State) (t : Int) : StfFrame :=
  let o := s.slt.originNs * 65536
  { type := 1, cls := 2, op := 0x22, src := s.selfId, arg := shortStampOf t,
    payload := [BitVec.ofNat 256 (fracOf o + nsOf o * 2 ^ 16 + unsignedOf 48 (secOf o) * 2 ^ 48)] }

/-- After a new map the root tells the group its common couch again, for members that have joined since (R349).
(DEDUCED, log entry 64) -/
def State.repeatCommon (s : State) : State :=
  match s.stf.tcc with
  | some (t, true) => { s with stf.commonGen := s.stf.mapGen }.flood none (s.commonFrame t)
  | _ => s

/-- MAP_FLOOD: 20 ms after the last JOIN the root builds the tree and floods MAP (R349, R350). Bit 16 of ARG2 tells the members that the
group is split (R352). (PRESUMED, log entry 62) -/
def State.mapFlood (s : State) : State :=
  if s.fabricOn && s.stf.settled && s.stf.root == some s.selfMember then
    let l := s.treeEntries
    let gen := (s.stf.mapGen + 1) % 65536
    let s := s.installMap gen l
    ((payloads (l.length + 1) (mapEntryWords l)).foldl (fun s p =>
      s.flood none { type := 2, cls := 2, op := 0x33, src := s.selfId, arg2 := BitVec.ofNat 32 (b2n s.stf.split * 2 ^ 16 + gen), payload := p }) s).repeatCommon
  else s

/-- The root learns that its part of the group is split off, or no longer: its members hear of it (R352). -/
def State.setSplit (s : State) (v : Bool) : State :=
  if s.stf.split = v then s else State.mapFlood { s with stf.split := v }

def execMapFlood (s : State) : Res := s.whenClocked fun s => .next s.mapFlood

/-- A MAP frame from the root's side: installed and passed on. A module whose entry names another serial number is the later of two
with its ID (R352). -/
def State.rxMap (s : State) (k : Nat) (f : StfFrame) : State :=
  if s.stf.bestPort != some k then s
  else
    let s := { s.installMap (bitsOf f.arg2 15 0) (entriesOfWords f.payload) with stf.split := bitOf f.arg2 16 }
    let s := if (s.member s.selfMember).any (fun x => x.serial != Config.serial) then s.isolate else s
    if f.hops = 0 then s else s.flood (some k) { f with hops := f.hops - 1 }

/-! ## The system map (R349, R351) -/

def State.isRoot (s : State) : Bool := s.stf.root == some s.selfMember
def State.isSystemRoot (s : State) : Bool := s.isRoot && s.stf.sysRoot == some s.selfId

/-- The group root is time locked: locked to its reference where it steers itself (R349 step 9). (PRESUMED, log entry 67) -/
def State.rootLocked (s : State) : Bool := s.tb.timeLocked

/-- (PRESUMED, log entry 67) -/
def State.ownEntry (s : State) : GroupEntry :=
  ⟨s.selfMember, s.rootLocked, match s.gatewayPort with | some p => s.portMac p | none => 0⟩

/-- REGISTER: a group root multicasts it every 10 ms (R349, R341). (DEDUCED, log entry 63) -/
def State.register (s : State) : State :=
  if s.fabricOn && s.isRoot && s.gatewayPort.isSome then
    let e := s.ownEntry
    let group := s.fld Reg.STF_ETH_GROUP_HI 15 0 * 2 ^ 32 + (s.rd Reg.STF_ETH_GROUP_LO).toNat
    { s with stf := { s.stf with registered := true, heard := mapSet (fun _ => none) s.stf.heard s.selfGroup (some e) } }.sendEth group
      { type := 2, cls := 2, op := 0x34, src := s.selfId, arg := BitVec.ofNat 64 e.mac, arg2 := BitVec.ofNat 32 (b2n e.locked) }
  else s

def execRegister (s : State) : Res := s.whenClocked fun s => .next s.register

/-- A REGISTER is heard. The system root keeps the root already in its map for a GROUP; a root whose GROUP the map gives to
another one is split off (R352). (DEDUCED, log entry 68) -/
def State.rxRegister (s : State) (f : StfFrame) : State :=
  let g := f.src / 512
  let e : GroupEntry := ⟨f.src % 512, bitOf f.arg2 0, bitsOf f.arg 47 0⟩
  if g = s.selfGroup ∧ f.src ≠ s.selfId then
    match s.groupEntry g with
    | some x => if s.isRoot ∧ x.root ≠ s.selfMember then s.setSplit true else s
    | none => s
  else
    let keep := match s.groupEntry g with | some x => x.root != e.root | none => false
    if keep then s else { s with stf.heard := mapSet (fun _ => none) s.stf.heard g (some e) }

/-- SYSTEM_ROOT_CHOICE: the root with the lowest GROUP heard, after 100 ms without a lower one (R351). (DEDUCED, log entry 68) -/
def State.systemRootChoice (s : State) : State :=
  if s.fabricOn && s.isRoot && s.stf.registered then
    match s.stf.heard with
    | (g, some e) :: _ => { s with stf.sysRoot := some (g * 512 + e.root) }
    | _ => s
  else s

def execSystemRootChoice (s : State) : Res := s.whenClocked fun s => .next s.systemRootChoice

/-- An entry of SYSMAP: GROUP with bit 31 and LOCKED in bit 30, ROOT, and the gateway's MAC address. (PRESUMED, log entry 62) -/
def groupWords (g : Nat) (e : GroupEntry) : List W32 :=
  [BitVec.ofNat 32 (2 ^ 31 + b2n e.locked * 2 ^ 30 + g), BitVec.ofNat 32 e.root, BitVec.ofNat 32 e.mac, BitVec.ofNat 32 (e.mac / 2 ^ 32)]

/-- (PRESUMED, log entry 62) -/
def groupsOfWords (l : List QWord) : List (Nat × GroupEntry) :=
  l.flatMap (fun w => [0, 4].filterMap (fun i =>
    if bitOf (qwWord w i) 31 then
      some (bitsOf (qwWord w i) 8 0,
        ⟨bitsOf (qwWord w (i + 1)) 8 0, bitOf (qwWord w i) 30, (qwWord w (i + 2)).toNat + bitsOf (qwWord w (i + 3)) 15 0 * 2 ^ 32⟩)
    else none))

def sysmapWords (l : List (List W32)) : List QWord :=
  match l with
  | [] => []
  | [a] => [qwOfWords a]
  | a :: b :: r => qwOfWords (a ++ b) :: sysmapWords r

def State.sysmapFrames (s : State) : List StfFrame :=
  let es := s.stf.sysMap.filterMap (fun p => p.2.map (groupWords p.1))
  (payloads (es.length + 1) (sysmapWords es)).map (fun p =>
    { type := 2, cls := 2, op := 0x35, src := s.selfId, arg2 := BitVec.ofNat 32 s.stf.sysGen, payload := p })

/-- Once every root in the map is locked, the system root chooses T_cc, the first frame boundary at least 1 s ahead, and
floods COMMON with its origin (R353). (PRESUMED, log entry 67) -/
def State.chooseCommon (s : State) : State :=
  let es := s.stf.sysMap.filterMap (·.2)
  if s.isSystemRoot && !s.stf.commonSent && !es.isEmpty && es.all (·.locked) then
    let n := (s.tb.time16 + 65536000000000 - s.frameTime 0 + 655359999999) / 655360000000
    let t := s.frameTime n
    let f := s.commonFrame t
    ({ s with stf := { s.stf with commonSent := true, tcc := some (t, true), commonGen := s.stf.mapGen } }.flood none f).floodGateways f
  else s

/-- SYSMAP: the system root builds the map from the REGISTERs and sends it to each gateway and into its group (R351). A new map repeats
the first common couch (R349). -/
def State.sysmap (s : State) : State :=
  if s.fabricOn && s.isSystemRoot then
    let m := mapSet (fun _ => none) s.stf.heard s.selfGroup (some s.ownEntry)
    let new := m != s.stf.sysMap
    let gen := if new then (s.stf.sysGen + 1) % 65536 else s.stf.sysGen
    let s := { s with stf := { s.stf with sysMap := m, sysGen := gen, commonSent := s.stf.commonSent && !new } }
    let s := if new then s.raise Reg.STF_EVENT 4 else s
    let s := s.sysmapFrames.foldl (fun s f => (s.flood none f).floodGateways f) s
    s.chooseCommon
  else s

def execSysmap (s : State) : Res := s.whenClocked fun s => .next s.sysmap

/-- A SYSMAP frame, over Ethernet or from the root's side: installed and flooded (R351). -/
def State.rxSysmap (s : State) (from_ : Option Nat) (f : StfFrame) : State :=
  if from_.isSome && s.stf.bestPort != from_ then s
  else
    let gen := bitsOf f.arg2 15 0
    let new := gen != s.stf.sysGen || s.stf.sysMap.isEmpty
    let base := if new then [] else s.stf.sysMap
    let es := groupsOfWords f.payload
    let m := es.foldl (fun m p => mapSet (fun _ => none) m p.1 (some p.2)) base
    let s := { s with stf := { s.stf with sysMap := m, sysGen := gen, sysRoot := some f.src } }
    let s := match s.groupEntry s.selfGroup with
      | some e => if s.isRoot then s.setSplit (e.root != s.selfMember) else s
      | none => s
    let s := if new then s.raise Reg.STF_EVENT 4 else s
    if f.hops = 0 then s else s.flood from_ { f with hops := f.hops - 1 }

/-- GATEWAY_SILENT: 100 ms without a REGISTER take a group out of the map (R351). (DEDUCED, log entry 68) -/
def State.gatewaySilent (s : State) (g : Nat) : State :=
  if g = s.selfGroup then s else { s with stf.heard := mapErase s.stf.heard g }.sysmap.migPaths

def execGatewaySilent (group : Nat) (s : State) : Res := s.whenClocked fun s => .next (s.gatewaySilent group)

/-! ## The first common couch (R353) -/

/-- The origin of a COMMON frame goes into SLT_GRID_ORIGIN (R50, R353). -/
def State.writeOrigin (s : State) (w : QWord) : State :=
  ((s.wr Reg.SLT_GRID_NS (BitVec.ofNat 32 (bitsOf w 47 16))).wr Reg.SLT_GRID_SEC_LO (BitVec.ofNat 32 (bitsOf w 79 48))).wr Reg.SLT_GRID_SEC_HI
    (BitVec.ofNat 32 (bitsOf w 95 80))

/-- COMMON arrives, once for each group map: a module without a live carrier takes the origin; one with another origin keeps it (R353). -/
def State.rxCommon (s : State) (from_ : Option Nat) (f : StfFrame) : State :=
  let t := s.timeOfStamp f.arg
  let same := (s.stf.tcc.map Prod.fst) == some t
  if same && s.stf.commonGen == s.stf.mapGen then s
  else
    let s := { s with stf.commonGen := s.stf.mapGen }
    let w := f.payload.getD 0 0
    let origin : Int := signedOf 48 (bitsOf w 95 48) * 1000000000 + (bitsOf w 47 16 : Nat)
    let s := if same then s
      else if s.allStopped then
        ({ s with slt.originNs := origin, stf.tcc := some (t, true) }.writeOrigin w).resumeGrid
      else if s.slt.originNs = origin then { s with stf.tcc := some (t, true) }
      else { s with stf.tcc := some (t, false) }.raise Reg.STF_EVENT 7
    let s := if f.hops = 0 then s else s.flood from_ { f with hops := f.hops - 1 }
    if from_.isSome && s.isRoot then s.floodGateways f else s

/-- COMMON: corrected time reaches T_cc (R353). -/
def State.commonTime (s : State) : State :=
  match s.stf.tcc with
  | some (t, true) => if t ≤ s.tb.time16 ∧ !s.stf.common then { s with stf.common := true }.raise Reg.STF_EVENT 8 else s
  | _ => s

def execCommon (s : State) : Res := s.whenClocked fun s => .next s.commonTime

end Sys2Proof.Machine
end

