-- ==== Sys2Proof/Machine/StitchRx.lean ====
section
/-! DEFINITION. The stitch fabric's receiving side and its links' lanes, carrier migration, and the STF registers (R334 to
R341, R352, R355 to R360). -/

namespace Sys2Proof.Machine

/-- Spine requester of the fabric's own accesses: stitch port 0 (R131). -/
def stitchRequester : Nat := 124

/-! ## Migration (R355 to R358) -/

def Carrier.moulds (c : Carrier) : List (Nat × W32) :=
  c.pageMould ++ c.ul.mould.map (fun p => (2 ^ 12 + p.1, p.2)) ++ c.dl.mould.map (fun p => (2 ^ 13 + p.1, p.2))

/-- Groups of `n` and what is left. -/
def grouped {α : Type} (fuel n : Nat) (l : List α) : List (List α) :=
  match fuel with
  | 0 => []
  | f + 1 => if l.isEmpty then [] else l.take n :: grouped f n (l.drop n)

/-- Mould words in payload words, four to one: index with bit 31 set, then value. (PRESUMED, log entry 62) -/
def mouldPayload (l : List (Nat × W32)) : List QWord :=
  (grouped l.length 4 l).map (fun g => qwOfWords (g.flatMap (fun p => [BitVec.ofNat 32 (2 ^ 31 + p.1), p.2])))

/-- (PRESUMED, log entry 62) -/
def mouldOfPayload (l : List QWord) : List (Nat × W32) :=
  l.flatMap (fun w => [0, 2, 4, 6].filterMap (fun i => if bitOf (qwWord w i) 31 then some (bitsOf (qwWord w i) 30 0, qwWord w (i + 1)) else none))

/-- A region in a payload word: start, length and unit on the destination. (PRESUMED, log entry 62) -/
def regionPayload (r : MigRegion) : QWord :=
  qwOfWords [BitVec.ofNat 32 r.dst, BitVec.ofNat 32 (r.dst / 2 ^ 32), BitVec.ofNat 32 r.len, BitVec.ofNat 32 r.unitLog2]

/-- (PRESUMED, log entry 62) -/
def targetOfPayload (dcar : Nat) (w : QWord) : MigTarget :=
  ⟨dcar, (qwWord w 0).toNat + (qwWord w 1).toNat * 2 ^ 32, (qwWord w 2).toNat, bitsOf (qwWord w 3) 4 0⟩

/-- ARG of a MIRROR frame that carries no region's data: bit 63, the kind in bits 33:32 (0 moulds cleared first, 1 mould words,
2 regions) and the destination carrier. (PRESUMED, log entry 62) -/
def mirrorSetup (kind dcar : Nat) : W64 := BitVec.ofNat 64 (2 ^ 63 + kind * 2 ^ 32 + dcar)

/-- The moulds of a carrier as the destination of a migration takes them: a word replaces the one before. (R356) -/
def Carrier.takeMould (c : Carrier) (l : List (Nat × W32)) : Carrier :=
  l.foldl (fun c p =>
    let put := fun (m : SetWords) => mapSet (fun _ => 0) m (p.1 % 2 ^ 12) p.2
    if p.1 < 2 ^ 12 then { c with pageMould := put c.pageMould }
    else if p.1 < 2 ^ 13 then { c with ul := { c.ul with mould := put c.ul.mould } }
    else { c with dl := { c.dl with mould := put c.dl.mould } }) c

/-- A MIRROR frame that sets up a migration arrives (R356, R358). (PRESUMED, log entry 62) -/
def State.takeSetup (s : State) (f : StfFrame) : State :=
  let dcar := bitsOf f.arg 8 0
  let kind := bitsOf f.arg 33 32
  let c := s.carrier dcar
  let bare := { c with pageMould := [], ul := { c.ul with mould := [] }, dl := { c.dl with mould := [] } }
  if kind = 0 then s.setCarrier dcar (bare.takeMould (mouldOfPayload f.payload))
  else if kind = 1 then s.setCarrier dcar (c.takeMould (mouldOfPayload f.payload))
  else { s with stf.incoming := s.stf.incoming ++ f.payload.map (targetOfPayload dcar) }

/-- The carrier page and the moulds of both halves go to the destination carrier's mould, before the regions (R356); the destination
learns the regions and their units (R358). (PRESUMED, log entry 62) -/
def State.sendMoulds (s : State) (dst dcar : Nat) (c : Carrier) (rs : List MigRegion) : State :=
  let frame := fun (kind : Nat) (p : List QWord) =>
    ({ type := 1, cls := 0, dst := dst, op := 0x04, arg := mirrorSetup kind dcar, payload := p } : StfFrame)
  let ws := mouldPayload c.moulds
  let fs := frame 0 (ws.take 8) :: (grouped ws.length 8 (ws.drop 8)).map (frame 1) ++ (grouped rs.length 8 (rs.map regionPayload)).map (frame 2)
  if dst = s.selfId then fs.foldl State.takeSetup s else fs.foldl State.stfSendTo s

/-- Mirrored data on the destination: discarded and counted in an owned unit, else written (R358). -/
def State.takeMirror (s : State) (addr : Nat) (data : List Byte) : State :=
  let own := s.stf.owned
  let step := fun (acc : State × Bool) (p : Nat × List Byte) =>
    if acc.1.unitOwned p.1 then (acc.1, true)
    else
      ({ (acc.1.writeModule stitchRequester p.1 p.2).1 with stf.owned := own }, acc.2)
  let l := (List.range (data.length / 32)).map (fun i => (addr + 32 * i, (data.drop (32 * i)).take 32))
  let r := l.foldl step (s, false)
  if r.2 then r.1.bump Reg.STF_MIRROR_DISCARD else r.1

/-- Sends bytes of source memory with one MIRROR frame. A word that memory cannot give is not sent; the copy then stays
where it is. -/
def State.sendMirror (s : State) (dst src to_ n : Nat) : State × Bool :=
  let x := s.readModule stitchRequester src n
  match x.2 with
  | none => (x.1, false)
  | some b =>
    if dst = s.selfId then (x.1.takeMirror to_ b, true)
    else
      let ws := (List.range (n / 32)).map (fun i => (BitVec.ofNat 256 (natOfBytes ((b.drop (32 * i)).take 32)) : QWord))
      (x.1.stfSendTo { type := 1, cls := 0, dst := dst, op := 0x04, arg := BitVec.ofNat 64 to_, payload := ws }, true)

/-- The writes that wait to be mirrored are sent (R356). -/
def State.flushMirror (s : State) : State :=
  let l := s.stf.mirror
  l.foldl (fun s p => (s.sendMirror p.1 p.2.1 p.2.2.1 p.2.2.2).1) { s with stf.mirror := [] }

/-- A region's copy goes on by one frame. -/
def State.copyOn (s : State) (dst : Nat) (r : MigRegion) : State × MigRegion :=
  let n := min 256 (r.len - r.copied)
  if n = 0 then (s, r)
  else
    let x := s.sendMirror dst (r.src + r.copied) (r.dst + r.copied) n
    if x.2 then (x.1, { r with copied := r.copied + n, acked := if dst = s.selfId then r.copied + n else r.acked }) else (x.1, r)

/-- Every region's copy has ended (R356). -/
def Migration.inStep (m : Migration) : Bool := m.regions.all (fun r => r.acked == r.len)

/-- With IMMEDIATE, S is the first slot whose deciding boundary, less D, comes after every region is in step (R355). -/
def State.settleSlot (s : State) (m : Migration) : Migration :=
  if m.slot.isNone && m.inStep then
    { m with slot := some ((s.carrier m.carrier).cfg.earliest s.slt.originNs .dl s.tb.timeU) }
  else m

def State.copyRegions (s : State) (dst : Nat) (done l : List MigRegion) : State × List MigRegion :=
  match l with
  | [] => (s, done)
  | r :: t => let x := s.copyOn dst r; x.1.copyRegions dst (done ++ [x.2]) t

/-- Copies a whole list within this module, where the destination is the module itself. -/
def State.copyLocal (s : State) (fuel dst : Nat) (l : List MigRegion) : State × List MigRegion :=
  match fuel with
  | 0 => (s, l)
  | n + 1 =>
    let x := s.copyRegions dst [] l
    if x.2 = l then x else x.1.copyLocal n dst x.2

/-- An entry of the migration list (R355), with whether it was clamped. -/
def migEntry (b : List Byte) : MigRegion × Bool :=
  let w := fun i n => natOfBytes ((b.drop i).take n)
  let u := w 0x14 1 % 32
  ({ src := w 0 8, dst := w 8 8, len := w 0x10 4 / 64 * 64, unitLog2 := max 12 (min 24 u) }, u < 12 || decide (24 < u) || w 0x10 4 % 64 != 0)

def State.readList (s : State) (n a : Nat) (acc : List MigRegion) (cl : Bool) : State × Option (List MigRegion × Bool) :=
  match n with
  | 0 => (s, some (acc, cl))
  | k + 1 =>
    let x := s.readModule stitchRequester a 32
    match x.2 with
    | none => (x.1, none)
    | some b => x.1.readList k (a + 32) (acc ++ [(migEntry b).1]) (cl || (migEntry b).2)

/-- STF_MIGRATE (R355, R356). `remoteOk`: the destination module has COMMON and its carrier is STOPPED, as it answers. -/
def State.stfMigrate (s : State) (d : Desc) (remoteOk : Bool) : State :=
  let cid := carrierField d.carrier
  let dst := d.fld 0x10 17 0
  let dcar := d.fld 0x14 8 0
  let count := min 256 (d.fld 0x20 8 0)
  let addr := (d.w64 0x18).toNat / 64 * 64
  let cl := carrierClamped d.carrier || decide (256 < d.fld 0x20 8 0) || (d.w64 0x18).toNat % 64 != 0
  let c := s.carrier cid
  let cfg := c.cfg
  let e := cfg.earliest s.slt.originNs .dl s.tb.timeU
  let period := slotPeriod cfg.spf
  let overflow := !d.immediate && decide (cfg.spf ≤ bitsOf d.slot 7 0)
  let dist := (stampIndex cfg.spf d.slot + period - indexOf cfg.spf e) % period
  let there := if dst = s.selfId then (s.carrier dcar).mode == .stopped else remoteOk
  let refused := !s.stf.common || !s.reachable dst || c.mode != .running || cid == 0xFFFF || !there ||
    (!d.immediate && (dist == 0 || decide (period / 2 ≤ dist)))
  if cid != 0xFFFF && c.refusesWork then (s.clampDesc d (cl || overflow) Reg.STF_CLAMP_COUNT).complete (d.ref (cl || overflow)) stDISABLED 0
  else if refused then (s.clampDesc d (cl || overflow) Reg.STF_CLAMP_COUNT).complete (d.ref (cl || overflow)) stREFUSED 0
  else
    let x := s.readList count addr [] (cl || overflow)
    match x.2 with
    | none => (x.1.clampDesc d (cl || overflow) Reg.STF_CLAMP_COUNT).complete (d.ref (cl || overflow)) stBAD 0
    | some (rs, cl) =>
      let s := (x.1.clampDesc d cl Reg.STF_CLAMP_COUNT).sendMoulds dst dcar c rs
      let y := if dst = s.selfId then s.copyLocal ((rs.map (·.len)).sum / 64 + 1) dst rs else s.copyRegions dst [] rs
      let m : Migration := { ref := d.ref cl, carrier := cid, dst := dst, dstCarrier := dcar,
                             slot := if d.immediate then none else some (e + dist), maxDefer := d.fld 0x20 31 24, regions := y.2 }
      { y.1 with stf.migrations := y.1.stf.migrations ++ [y.1.settleSlot m] }

def execStfMigrate (d : Desc) (remoteOk : Bool) (s : State) : Res := s.whenClocked fun s => .next (s.stfMigrate d remoteOk)

/-- The frame that copied a region's next bytes is acknowledged: the copy goes on (R356). -/
def State.rxMirrorAck (s : State) (f : StfFrame) : State :=
  let a := f.arg.toNat
  let step := fun (acc : State × List Migration) (m : Migration) =>
    if m.dst = f.src then
      let rs := m.regions.map (fun r => if r.acked < r.copied ∧ r.dst + r.acked = a then { r with acked := r.copied } else r)
      let hit := decide (rs ≠ m.regions)
      let x := if hit then acc.1.copyRegions m.dst [] rs else (acc.1, rs)
      (x.1, acc.2 ++ [x.1.settleSlot { m with regions := x.2 }])
    else (acc.1, acc.2 ++ [m])
  let r := s.stf.migrations.foldl step (s, [])
  { r.1 with stf.migrations := r.2 }

/-- Arms both halves of a carrier for a slot, as an ARM of both halves does (R68, R357). -/
def State.armFabric (s : State) (cid : Nat) (slot : Int) (start stop : Bool) : State :=
  let c := s.carrier cid
  let c := { c with ul := c.ul.arm slot start stop false none, dl := c.dl.arm slot start stop false none }
  s.setCarrier cid (if start then { c with mode := .starting, pageArmed := c.pageMould,
                                           ul := { c.ul with curSlot := none }, dl := { c.dl with curSlot := none } } else c)

/-- A carrier that has not started yet gives up its armed START (R357). -/
def State.dropStart (s : State) (cid : Nat) : State :=
  let x := s.carrier cid
  if x.mode = .starting then
    s.setCarrier cid { x with mode := .stopped, ul := { x.ul with armed := none }, dl := { x.dl with armed := none } }
  else s

/-- MIG_SWITCH on the destination: START at S, unless HOLDOVER keeps every carrier from starting (R48). The frame names its carrier in
ARG, which R337 leaves unused; bit 9 takes the START back (R357). (PRESUMED, log entry 62) -/
def State.rxSwitch (s : State) (f : StfFrame) : State :=
  let cid := bitsOf f.arg 8 0
  if bitOf f.arg 9 then s.dropStart cid
  else
  let c := s.carrier cid
  let cfg := carrierCfg c.pageMould
  let e := cfg.earliest s.slt.originNs .dl s.tb.timeU
  let period := slotPeriod cfg.spf
  if c.mode = .stopped ∧ s.tb.holdover = false then
    s.armFabric cid (e + ((stampIndex cfg.spf f.arg2 + period - indexOf cfg.spf e) % period : Nat)) true false
  else s

/-- A migration ends without a switch: its destination keeps its regions as they are, and no job there waits for more (R358).
(PRESUMED, log entry 62) -/
def State.giveUp (s : State) (m : Migration) (status : Nat) : State :=
  let s := s.dropMigration m
  let s := if m.dst = s.selfId then s.endIncoming m.dstCarrier
    else s.stfSendTo { type := 1, cls := 2, dst := m.dst, op := 0x41, arg2 := BitVec.ofNat 32 m.dstCarrier }
  s.complete m.ref status 0

/-- MIGRATION_SWITCH (R357): due when the deckle window of S's deciding half opens. (PRESUMED, log entry 62) -/
def State.migrationSwitch (s : State) (cid : Nat) : State :=
  match s.stf.migrations.find? (fun m => m.carrier == cid && !m.switched && !m.completed) with
  | none => s
  | some m =>
    match m.slot with
    | none => s
    | some n =>
      let c := s.carrier cid
      let put := fun (s : State) (m' : Migration) =>
        { s with stf.migrations := s.stf.migrations.map (fun x => if x = m then m' else x) }
      if s.tb.timeU < (c.cfg.boundaryNs s.slt.originNs .dl n - c.cfg.deckleNs) * uPerNs then s
      else if m.inStep then
        if c.ul.armedElsewhere n || c.dl.armedElsewhere n || c.mode != .running then s.giveUp m stREFUSED
        else
          let st := stampOf c.cfg.spf n
          let s := (put s { m with switched := true }).armFabric cid n false true
          if m.dst = s.selfId then
            (if (s.carrier m.dstCarrier).mode == CarrierMode.stopped && !s.tb.holdover then s.armFabric m.dstCarrier n true false else s)
          else s.stfSendTo { type := 1, cls := 2, dst := m.dst, op := 0x40, arg := BitVec.ofNat 64 m.dstCarrier, arg2 := st }
      else if m.maxDefer ≤ m.deferred then s.giveUp m stREFUSED
      else put s { m with slot := some (n + 1), deferred := m.deferred + 1 }

def execMigrationSwitch (carrier : Nat) (s : State) : Res := s.whenClocked fun s => .next (s.migrationSwitch carrier).flushMirror

/-- The UL couch of the stop slot: the migration completes, OK or LATE (R357). -/
def State.migCouch (s : State) (cid : Nat) (n : Int) (time : W64) : State :=
  match s.stf.migrations.find? (fun m => m.carrier == cid && m.switched && !m.completed && m.slot == some n) with
  | none => s
  | some m =>
    { s with stf.migrations := s.stf.migrations.map (fun x => if x = m then { m with completed := true } else x) }.completeAt m.ref
      (if m.deferred = 0 then stOK else stLATE) 0 false time

/-- A DISABLE of the source before the switch: an armed START of the destination is discarded, on this module or another (R357). -/
def State.migDisable (s : State) (cid : Nat) : State :=
  s.stf.migrations.foldl (fun s m =>
    if m.carrier = cid ∧ !m.completed then
      let s := s.giveUp m stDISABLED
      if !m.switched then s
      else if m.dst = s.selfId then s.dropStart m.dstCarrier
      else s.stfSendTo { type := 1, cls := 2, dst := m.dst, op := 0x40, arg := BitVec.ofNat 64 (2 ^ 9 + m.dstCarrier) }
    else s) s

/-- A link is lost (R354): a module that loses its way to the best candidate elects again, another one tells the root; one that is left
without a parent loses TIME_LOCK. (DEDUCED, log entry 64) -/
def State.linkLost (s : State) (k : Nat) : State :=
  let s := if s.stf.bestPort = some k then s.loseRoot else s.sendJoin
  (if s.parentPort.isNone && s.stf.root != some s.selfMember then s.timeUnlock else s).migPaths

/-- The source carrier left DRAINING: the last writes are mirrored and MIRROR_DONE is sent (R358). -/
def State.migDrained (s : State) (cid : Nat) : State :=
  s.stf.migrations.foldl (fun s m =>
    if m.carrier = cid ∧ m.completed then
      let s := s.flushMirror.dropMigration m
      if m.dst = s.selfId then s.endIncoming m.dstCarrier
      else s.stfSendTo { type := 1, cls := 2, dst := m.dst, op := 0x41, arg2 := BitVec.ofNat 32 m.dstCarrier }
    else s) s

/-! ## Receipt (R336 to R341) -/

/-- What a frame that was accepted does (R337). `from_` is the stitch port, none over Ethernet. -/
def State.stfDeliver (s : State) (from_ : Option Nat) (f : StfFrame) : State :=
  let k := from_.getD 12
  let foreign := match from_ with | some k => (s.stfPort k).foreign | none => false
  let mine := f.dst == s.selfId
  let routed := fun (g : State → State) => if mine then g s else s.forward f
  if f.op = 0x30 then (if from_.isSome && s.bit Reg.STF_CTRL 31 && s.bit Reg.STF_ID 31 then s.rxHello k f else s)
  else if foreign || !s.fabricOn then s
  else if f.op = 0x01 then routed (·.rxQitem f)
  else if f.op = 0x02 then routed (·.bindResult (bitsOf f.arg 31 20) (bitsOf f.arg 39 32))
  else if f.op = 0x03 then routed (fun s => s.sendFlags .stitch (bitsOf f.arg 16 0) f.arg2)
  else if f.op = 0x04 then
    routed (fun s => (if bitOf f.arg 63 then s.takeSetup f else s.takeMirror f.arg.toNat (stfBody f)).stfSendTo { type := 1, cls := 1, dst := f.src, op := 0x05, arg := f.arg })
  else if f.op = 0x05 then routed (·.rxMirrorAck f)
  else if f.op = 0x10 then (match from_ with | some k => s.rxTsync k f | none => s)
  else if f.op = 0x11 then s.rxTick k f
  else if f.op = 0x20 ∨ f.op = 0x21 then s.rxBroadcast from_ f
  else if f.op = 0x22 then s.rxCommon from_ f
  else if f.op = 0x31 then s.rxElect k f
  else if f.op = 0x32 then s.rxJoin f
  else if f.op = 0x33 then (s.rxMap k f).migPaths
  else if f.op = 0x34 then s
  else if f.op = 0x35 then (s.rxSysmap from_ f).migPaths
  else if f.op = 0x40 then routed (·.rxSwitch f)
  else if f.op = 0x41 then routed (·.endIncoming (bitsOf f.arg2 8 0))
  else match from_ with
    | some k => s.bumpFld (Reg.STF_PORT_RETRY k) 31 16 1
    | none => s

/-- The link goes down: its lanes enter SEND at preset 1; what is held waits (R339). -/
def State.stfLinkDown (s : State) (k : Nat) : State :=
  let x := s.stfPort k
  let first := (s.stfLanes k).1
  let s := s.setStfPort k { x with active := [], dropping := [], pairs := [], peer := none, foreign := false,
                                   link := { x.link with resends := 0 } }
  let s := x.active.foldl (fun s i => s.enterSend (first + i)) s
  (s.raise Reg.STF_EVENT 0).linkLost k

/-- The eighth resend of a gateway pair without progress takes the pair down (R339, R341): what is held goes again once the other
gateway is heard. -/
def State.gatewayDown (s : State) (m : Nat) : State :=
  ((s.setGatewayEnd m { s.gatewayEnd m with resends := 0, down := true }).raise Reg.STF_EVENT 0).migPaths

/-- A gateway is heard again. -/
def State.gatewayHeard (s : State) (m : Nat) : State :=
  let l := s.gatewayEnd m
  if l.down then ((s.setGatewayEnd m { l with down := false }).sendHeld (.gateway m)).pumpChan (.gateway m) else s

/-- A resend; the eighth in a row without progress takes the link down (R339). -/
def State.resendOn (s : State) (c : StfChan) : State :=
  let s := s.resend c
  match c with
  | .port k => if 8 ≤ (s.stfPort k).link.resends then s.stfLinkDown k else s
  | .gateway m => if 8 ≤ (s.gatewayEnd m).resends then s.gatewayDown m else s

/-- A frame arrives on a channel. An isolated module answers with nothing but its HELLO (R352). -/
def State.receiveOn (s : State) (c : StfChan) (f : StfFrame) (ok : Bool) : State :=
  let from_ := match c with | .port k => some k | .gateway _ => none
  let r := (s.linkEnd c).receive f ok
  let s := s.setLinkEnd c r.link
  let s := match c with
    | .port k => if r.discarded then s.bumpFld (Reg.STF_PORT_RETRY k) 31 16 1 else s
    | .gateway m => if r.discarded then s else s.gatewayHeard m
  let s := if r.resend then s.resendOn c else s
  let s := if r.deliver then s.stfDeliver from_ f else s
  let s := if (f.type = 0 ∧ !r.discarded) ∨ s.stf.dupId then s
    else s.transmit c ((s.linkEnd c).answer s.selfId (if r.deliver then some f else none))
  (s.pumpChan c).flushMirror

/-- LANE_ADD names the partner's index of a lane (R335); a READY lane answers a pair it did not know with its own.
(PRESUMED, log entry 62) -/
def State.laneAdd (s : State) (k i j : Nat) : State :=
  let x := s.stfPort k
  if i < (s.stfLanes k).2 ∧ j < (s.stfLanes k).2 ∧ !x.active.contains i then
    let l := s.lane ((s.stfLanes k).1 + i)
    let s := s.setStfPort k { x with pairs := x.pairs.filter (fun p => p.1 != i) ++ [(i, j)] }
    if l.mode == .ready && l.owner == .stitch k && !x.pairs.contains (i, j) then s.sendLaneAdd k i else s
  else s

/-- STITCH_FRAME_RECEIVE: a frame on an enabled port, begun on the lane with the given index. -/
def State.stitchFrame (s : State) (k i : Nat) (f : StfFrame) (ok : Bool) : State :=
  if decide (12 ≤ k) || !s.bit (Reg.STF_PORT_CFG k) 31 then s
  else
  let s := s.offerStitch 3 k f (!ok)
  if f.op = 0x36 ∧ f.type = 2 ∧ ok then s.laneAdd k i (bitsOf f.arg2 2 0)
  else if (s.stfPort k).isUp then s.receiveOn (.port k) f ok
  else s

def execStitchFrameReceive (port lane : Nat) (frame : StfFrame) (ok : Bool) (s : State) : Res := s.whenClocked fun s =>
  .next (s.stitchFrame port lane frame ok)

/-- A stitch frame over Ethernet on the gateway port (R341). REGISTER is multicast and stands outside the pairs' SEQ. -/
def State.stitchEth (s : State) (p mac : Nat) (bytes : List Byte) : State :=
  if s.gatewayPort != some p || !s.fabricOn then s
  else
    let x := stfOfBytes bytes
    if x.1.op = 0x34 ∧ x.1.type = 2 then (if x.2 then ((s.rxRegister x.1).chooseCommon).gatewayHeard mac else s)
    else s.receiveOn (.gateway mac) x.1 x.2

/-- REPLAY_TIMEOUT (R339, R341): no progress of ACK for 4 µs on a stitch port, or, with port 12, for STF_ETH_RTO on the
gateway pairs. -/
def State.replayTimeout (s : State) (k : Nat) : State :=
  if k < 12 then (if (s.stfPort k).isUp && !(s.stfPort k).link.held.isEmpty then s.resendOn (.port k) else s)
  else (mapKeys s.stf.gateways).foldl (fun s m => if (s.gatewayEnd m).held.isEmpty then s else s.resendOn (.gateway m)) s

/-- (DESIGN CHOICE, log entry 5) -/
def execReplayTimeout (port : Nat) (s : State) : Res := s.whenClocked fun s => .next (s.replayTimeout port)

/-! ## Lanes of a link (R335, R340) -/

/-- The pair agrees with the order the link uses: the first admitted lane fixes it. -/
def StfPort.agrees (x : StfPort) (w i j : Nat) : Bool :=
  if x.active.isEmpty then j == i || j + i + 1 == w else if x.reversed then j + i + 1 == w else j == i

def insertNat (i : Nat) (l : List Nat) : List Nat :=
  match l with
  | [] => [i]
  | x :: r => if i < x then i :: x :: r else x :: insertNat i r

/-- LANE_ADMIT (R335, R340): a READY lane whose pair agrees joins its link; a drop on the same frame boundary goes first. -/
def State.laneAdmit (s : State) (k i : Nat) : State :=
  let x := s.stfPort k
  let w := (s.stfLanes k).2
  let n := (s.stfLanes k).1 + i
  match x.pairs.find? (·.1 == i) with
  | none => s
  | some p =>
    if decide (12 ≤ k) || (s.lane n).mode != .ready || (s.lane n).owner != .stitch k || !x.dropping.isEmpty || x.active.contains i
        || !x.agrees w i p.2 then s
    else
      let first := x.active.isEmpty
      let s := (s.setStfPort k { x with active := insertNat i x.active, reversed := if first then p.2 != i else x.reversed }).laneUp n
      if first then
        (s.sendHeld (.port k)).pumpChan (.port k)
      else s

def execLaneAdmit (port index : Nat) (s : State) : Res := s.whenClocked fun s => .next (s.laneAdmit port index)

/-- Lanes leave their link; without its last lane the link is lost (R323, R340). -/
def State.dropLanes (s : State) (k : Nat) (l : List Nat) : State :=
  let x := s.stfPort k
  let a := x.active.filter (fun i => !l.contains i)
  let s := s.setStfPort k { x with active := a, dropping := x.dropping.filter (fun i => !l.contains i), peer := if a.isEmpty then none else x.peer }
  let s := s.raise Reg.STF_EVENT 1
  if a.isEmpty then s.linkLost k else s

/-- LANE_DROP (R340): at a frame boundary the lanes that lost lock leave the link. -/
def State.laneDrop (s : State) (k : Nat) : State :=
  let l := (s.stfPort k).dropping
  if l.isEmpty then s else s.dropLanes k l

/-- LOOPBACK_WRITE: a lane in a link that goes into loopback leaves the link at once (R329). -/
def State.loopbackWrite (s : State) (n : Nat) (v : W32) : State :=
  let s := s.writeLnCfg n v
  match (s.lane n).owner with
  | .stitch k =>
    let i := n - (s.stfLanes k).1
    if (s.lane n).mode == .loopback && (s.stfPort k).dropping.contains i then s.dropLanes k [i] else s
  | _ => s

/-- (DEDUCED, log entry 60) -/
def execLoopbackWrite (lane : Nat) (value : W32) (s : State) : Res :=
  .next (if lane < 96 then s.hostWriteTo (Reg.LN_CFG lane) (·.loopbackWrite lane value) else s)

def execLaneDrop (port : Nat) (s : State) : Res := s.whenClocked fun s => .next (s.laneDrop port)

/-! ## Fronthaul ports that carry the fabric -/

/-- PORT_UP (R292): the gateway port makes the module eligible (R350). -/
def execPortUp (port : Nat) (s : State) : Res := s.whenClocked fun s =>
  let s1 := s.portUp port
  .next (if s1.gatewayPort = some port ∧ s.gatewayPort ≠ some port then s1.electSelf else s1)

/-- (DESIGN CHOICE, log entry 8) -/
def execFrameReceive (port : Nat) (data : List Byte) (s : State) : Res := s.whenClocked fun s =>
  .next (if port < 96 && (s.port port).up then s.receiveFrame State.stitchEth port data else s)

/-! ## Registers (R360) -/

/-- The lanes that were READY before the fabric took part send their LANE_ADD (R335). -/
def State.addReadyLanes (s : State) : State :=
  (List.range 12).foldl (fun s k => (List.range (s.stfLanes k).2).foldl (fun s i =>
    let l := s.lane ((s.stfLanes k).1 + i)
    if l.mode == .ready && l.owner == .stitch k then s.sendLaneAdd k i else s) s) s

/-- STF_CTRL: EN needs a valid ID, ETH_EN a port with STITCH_EN. An isolated module that was given a new ID takes part again
once EN is set (R352). (DEDUCED, log entry 71) -/
def State.writeStfCtrl (s : State) (v : W32) : State :=
  let port := min 95 (bitsOf v 29 23)
  let v1 := if s.bit Reg.STF_ID 31 then v else setBitsOf v 31 31 0
  let v2 := if s.bit (Reg.FH_PORT_CFG port) 21 then v1 else setBitsOf v1 30 30 0
  let was := s.fabricOn
  let s := s.writeContext Reg.STF_CTRL v v2
  let s := if s.bit Reg.STF_CTRL 31 && s.stf.dupId && s.stf.newId then { s with stf := { s.stf with dupId := false, newId := false } } else s
  (if was then s else s.addReadyLanes).electSelf

/-- STF_ID: discarded and counted while EN is 1. (DEDUCED, log entry 71) -/
def State.writeStfId (s : State) (v : W32) : State :=
  if s.bit Reg.STF_CTRL 31 then s.clampAt Reg.STF_CLAMP_COUNT
  else
    let old := s.selfId
    let s := s.writeTable Reg.STF_ID v
    if s.stf.dupId && s.selfId != old then { s with stf.newId := true } else s

/-- STF_PORT_CFG_k: a change takes the old lanes out of service and, with EN, puts the new ones into STITCH mode (R334). -/
def State.applyStfPort (s : State) (k : Nat) (v : W32) : State × Bool :=
  let a := Reg.STF_PORT_CFG k
  let lg := bitsOf v 27 26
  let w := 2 ^ lg
  let first0 := if 95 < bitsOf v 6 0 then 88 else bitsOf v 6 0
  let first := first0 / w * w
  let bad := (decide (first < 48 ∧ 48 < first + w)) || s.lanesTaken (.stitch k) first w
  let en := bitOf v 31 && !bad
  let v' : W32 := BitVec.ofNat 32 (b2n en * 2 ^ 31 + lg * 2 ^ 26 + bitsOf v 25 25 * 2 ^ 25 + first)
  let clamped := first != bitsOf v 6 0 || (bitOf v 31 && bad)
  if v' = s.rd a then (s, clamped)
  else
    let x := s.stfPort k
    let old := s.stfLanes k
    let s := if s.bit a 31 then (List.range old.2).foldl (fun s i => s.disownLane (old.1 + i)) (s.setStfPort k {}) else s
    let s := s.wr a v'
    let s := if en then
        (List.range w).foldl (fun s i => s.ownLane (first + i) (.stitch k) (if bitOf v 25 then 3 else 1)) (s.setStfPort k {})
      else s
    (if x.isUp then s.linkLost k else s, clamped)

def State.writeStfPort (s : State) (k : Nat) (v : W32) : State :=
  let x := s.applyStfPort k v
  x.1.clampIf x.2 Reg.STF_CLAMP_COUNT

/-- The highest step of discovery that is complete (R349). -/
def State.stfStep (s : State) : Nat :=
  let es := s.stf.sysMap.filterMap (·.2)
  if s.stf.common then 10
  else if !es.isEmpty && es.all (·.locked) then 9
  else if s.stf.timeLock then 8
  else if !es.isEmpty then 7
  else if s.stf.registered || s.stf.sysRoot.isSome then 6
  else if s.stf.mapped then 5
  else if s.stf.settled then 4
  else if (List.range 12).any (fun k => (s.stfPort k).known.isSome) then 3
  else if (List.range 12).any (fun k => (s.stfPort k).isUp) then 2
  else if (List.range 96).any (fun n => (match (s.lane n).owner with | .stitch _ => true | _ => false)
      && ((s.lane n).mode == .ready || (s.lane n).mode == .up)) then 1
  else 0

/-- STF_STATUS, STF_ROOT, STF_MAP_GEN, STF_MAP_ENTRY, STF_SMAP_ENTRY, STF_PORT_STATUS_k and STF_BIND_STATE_b. -/
def State.stfStatus (s : State) : W32 :=
  let role := if s.stf.dupId then 3 else if s.isSystemRoot then 2 else if s.isRoot then 1 else 0
  BitVec.ofNat 32 (b2n s.stf.common * 2 ^ 31 + b2n s.stf.timeLock * 2 ^ 30 + b2n s.stf.dupId * 2 ^ 29 + b2n s.stf.split * 2 ^ 28
    + role * 2 ^ 26 + s.stfStep * 2 ^ 22)

def State.stfRoot (s : State) : W32 :=
  let r := s.stf.root.getD 0
  let hops := match s.stf.root with | some m => ((s.member m).map (·.hops)).getD 0 | none => 0
  BitVec.ofNat 32 (r * 2 ^ 23 + min 31 hops * 2 ^ 18 + s.stf.sysRoot.getD 0)

def State.stfMapGen (s : State) : W32 := BitVec.ofNat 32 (s.stf.sysGen * 2 ^ 16 + s.stf.mapGen)

def State.stfMapEntry (s : State) : W32 :=
  let m := s.fld Reg.STF_MAP_SEL 8 0
  match s.member m with
  | some x => BitVec.ofNat 32 (2 ^ 31 + b2n (m == s.selfMember) * 2 ^ 30 + x.hops * 2 ^ 25 + x.port * 2 ^ 21)
  | none => BitVec.ofNat 32 (15 * 2 ^ 21)

def State.stfSmapEntry (s : State) : W32 :=
  match s.groupEntry (s.fld Reg.STF_SMAP_SEL 8 0) with
  | some e => BitVec.ofNat 32 (2 ^ 31 + b2n e.locked * 2 ^ 30 + e.root)
  | none => 0

def State.stfPortStatus (s : State) (k : Nat) : W32 :=
  let x := s.stfPort k
  BitVec.ofNat 32 (b2n x.isUp * 2 ^ 31 + b2n x.foreign * 2 ^ 30 + b2n x.reversed * 2 ^ 29
    + (x.active.map (2 ^ ·)).sum * 2 ^ 18 + ((x.peer.map (·.id)).getD 0))

def State.stfBindState (s : State) (b : Nat) : W32 :=
  let x := s.binding b
  BitVec.ofNat 32 (x.kind * 2 ^ 30 + b2n x.draining * 2 ^ 29 + x.src)

end Sys2Proof.Machine
end

