-- ==== Sys2Proof/Machine/Capture.lean ====
section
/-! DEFINITION. The Vat (R361 to R378): capture points and rules, Olj records, the rings, trigger lines and spill. -/

namespace Sys2Proof.Machine

def vatRequester (h : Nat) : Nat := 136 + h

/-- Codes of R370. -/
def VatMode.code : VatMode → Nat
  | .idle => 0 | .armed => 1 | .triggered => 2 | .spilling => 3 | .stream => 4 | .done => 5

/-- A capture is under way. -/
def VatMode.capturing (m : VatMode) : Bool := m != .idle && m != .done

/-! ## Configuration of a half (R385) -/

def State.vatModeCfg (s : State) (h : Nat) : Nat := s.fld (Reg.CAP_VAT_CFG h) 31 30
/-- 0 none, 1 ports, 2 host; none in RING mode. -/
def State.vatSpill (s : State) (h : Nat) : Nat := if s.vatModeCfg h = 0 then 0 else s.fld (Reg.CAP_VAT_CFG h) 29 28
def State.ringLog (s : State) (h : Nat) : Nat := s.fld (Reg.CAP_VAT_CFG h) 27 22
def State.ringBytes (s : State) (h : Nat) : Nat := 2 ^ s.ringLog h
def State.ringBase (s : State) (h : Nat) : Nat :=
  ((s.rd (Reg.CAP_VAT_BASE_LO h)).toNat + s.fld (Reg.CAP_VAT_BASE_HI h) 6 0 * 2 ^ 32) % 2 ^ 39 / s.ringBytes h * s.ringBytes h
def State.preBytes (s : State) (h : Nat) : Nat := s.fld (Reg.CAP_VAT_PRE h) 18 0 * 2 ^ 20
def State.postBytes (s : State) (h : Nat) : Nat := s.fld (Reg.CAP_VAT_POST h) 18 0 * 2 ^ 20

/-- Record bytes that the oldest host buffer holds and that its close will hand over (R378). -/
def VatHalf.bufFill (x : VatHalf) : Nat := match x.bufs with | b :: _ => b.fill | [] => 0

/-- SPILL_PENDING: the ring holds records not yet spilled, or the buffer that took them is still open. -/
def State.spillPending (s : State) (h : Nat) : Bool :=
  s.vatSpill h != 0 && ((s.vat h).mode == .spilling || (s.vat h).mode == .stream || (s.vat h).mode == .done)
    && (decide ((s.vat h).spilled < (s.vat h).wpos) || (s.vat h).bufFill != 0)

/-- A half that takes writes to its configuration and an ARM: IDLE, or DONE with nothing to spill (R372, R385). -/
def State.vatFree (s : State) (h : Nat) : Bool :=
  (s.vat h).mode == .idle || ((s.vat h).mode == .done && !s.spillPending h)

/-! ## Records (R366 to R368) -/

/-- A record's bytes: header, payload, padding to a multiple of 8. (PRESUMED, log entry 73) -/
def oljBytes (source flags type : Nat) (t16 : Int) (seq : Nat) (slot : W32) (carrier aux : Nat) (payload : List Byte) : List Byte :=
  bytesOfNat 4 (type + flags * 2 ^ 8 + source * 2 ^ 16) ++ bytesOfNat 4 payload.length ++ bytesOfNat 4 (nsOf t16)
  ++ bytesOfNat 4 (unsignedOf 32 (secOf t16)) ++ bytesOfNat 4 (unsignedOf 16 (secOf t16 / 2 ^ 32) * 2 ^ 16 + fracOf t16)
  ++ bytesOfNat 4 seq ++ bytesOfNat 4 slot.toNat ++ bytesOfNat 4 (carrier * 2 ^ 16 + aux % 2 ^ 16)
  ++ padTo ((payload.length + 7) / 8 * 8) payload

/-- The next SEQ of a source, used up (R367). (DEDUCED, log entry 72) -/
def VatHalf.nextSeq (x : VatHalf) (source : Nat) : Nat × VatHalf :=
  let n := mapGet (fun _ => 0) x.seqs source
  (n, { x with seqs := mapSet (fun _ => 0) x.seqs source (n + 1) })

/-- The pieces of a span of the ring: it wraps at the ring's end. -/
def ringPieces (base size pos n : Nat) : List (Nat × Nat) :=
  let o := pos % size
  let first := min n (size - o)
  (base + o, first) :: (if n ≤ first then [] else [(base, n - first)])

/-- Bytes in a half's staging memory of 4 MiB (R375). -/
def VatHalf.stagedBytes (x : VatHalf) : Nat := (x.staged.map (fun p => p.2.length)).sum
def stagingBytes : Nat := 2 ^ 22

/-- Up to where the ring has been written: the positions above it are still in staging. Bytes of an earlier capture go first. -/
def VatHalf.written (x : VatHalf) : Nat := x.wpos - min x.wpos x.stagedBytes

/-- Commits record bytes into staging, bound for the ring behind the last record (R374, R375). -/
def State.vatWrite (s : State) (h : Nat) (data : List Byte) : State :=
  let x := s.vat h
  let ps := ringPieces (s.ringBase h) (s.ringBytes h) x.wpos data.length
  let cut := (ps.foldl (fun (acc : List (Nat × List Byte) × List Byte) p =>
    (acc.1 ++ [(p.1, acc.2.take p.2)], acc.2.drop p.2)) ([], data)).1
  s.setVat h { x with wpos := x.wpos + data.length, recs := x.recs ++ [(x.wpos, data.length)], staged := x.staged ++ cut,
                      stored := x.stored + 1, storedBytes := x.storedBytes + data.length }

/-- In ARMED a new record overwrites the oldest whole records as it needs (R370). -/
def VatHalf.makeRoom (size n : Nat) (x : VatHalf) : VatHalf :=
  let keep := x.recs.dropWhile (fun r => decide (r.1 + size < x.wpos + n))
  { x with recs := keep, oldest := match keep with | r :: _ => r.1 | [] => x.wpos }

/-- Bytes kept free for the records the half must still be able to write: GAP and END. (DEDUCED, log entry 72) -/
def reserveBytes : Nat := 104

/-- Staging has room for a record of `n` bytes (R375). -/
def VatHalf.stageRoom (x : VatHalf) (n : Nat) : Bool := decide (x.stagedBytes + n ≤ stagingBytes)

/-- The ring has space for a record of `n` bytes (R370, R375): up to OLDEST in TRIGGERED, up to what is not spilled in
SPILLING and STREAM. -/
def State.ringRoom (s : State) (h n : Nat) : Bool :=
  let x := s.vat h
  match x.mode with
  | .armed => decide (n + reserveBytes ≤ s.ringBytes h)
  | .triggered => decide (x.wpos + n ≤ x.oldest + s.ringBytes h)
  | .spilling | .stream => decide (x.wpos + n ≤ x.spilled + s.ringBytes h)
  | _ => false

/-- A record is lost (R375). -/
def State.loseRecord (s : State) (h bytes : Nat) (t16 : Int) : State :=
  let x := s.vat h
  let g := match x.gap with
    | some (n, b, f) => (n + 1, b + bytes, f)
    | none => (1, bytes, shortStampOf t16)
  (s.setVat h { x with gap := some g }).bump (Reg.CAP_VAT_DROP h)

/-- Puts the bytes of a record behind the last one; in ARMED the oldest records make room for it and for `spare` bytes more. -/
def State.vatPut (s : State) (h spare : Nat) (d : List Byte) : State :=
  (if (s.vat h).mode = .armed then s.setVat h ((s.vat h).makeRoom (s.ringBytes h) (d.length + spare)) else s).vatWrite h d

/-- A kind-0 record of the Vat itself: its SLOT is the reference frame stamp. A CAP_VAT_BW of 0 drops it like every record (R375,
R385). -/
def State.vatRecord (s : State) (h type aux spare : Nat) (payload : List Byte) : State :=
  let q := (s.vat h).nextSeq h
  let s := s.setVat h q.2
  let d := oljBytes h 0 type s.tb.time16 q.1 s.refStamp 0xFFFF aux payload
  if s.fld Reg.CAP_VAT_BW 12 0 = 0 then s.loseRecord h d.length s.tb.time16 else s.vatPut h spare d

/-- A kind-0 record that finds no room: it has taken its SEQ (R367) and is lost (R375). -/
def State.dropKind0 (s : State) (h bytes : Nat) : State := (s.setVat h ((s.vat h).nextSeq h).2).loseRecord h bytes s.tb.time16

/-- The half can take a record of `n` bytes and still write GAP and END. -/
def State.vatRoom (s : State) (h n : Nat) : Bool := s.ringRoom h (n + reserveBytes) && (s.vat h).stageRoom (n + reserveBytes)

/-! ## Spill activity (R324, R376) -/

/-- Spill ports of a half. -/
def spillPorts (h : Nat) : List Nat := (List.range 12).map (fun i => 12 * h + i)

/-- Spill runs on a half: on its ports the maintenance scheduler keeps retraining apart (R397). `vatEvents` sets HOSTBUF_EMPTY. -/
def State.settleSpill (s : State) (h : Nat) : State :=
  let x := s.vat h
  let runs := s.vatSpill h = 1 && (x.mode == .stream || x.mode == .spilling || (x.mode == .done && s.spillPending h))
  let s := (spillPorts h).foldl (fun s k =>
    if runs && s.bit (Reg.CAP_SPILL_CFG k) 31 then (s.requestActivity (.spill k)).1 else s.endActivity (.spill k)) s
  let wait := s.vatSpill h = 2 && (x.mode == .stream || x.mode == .spilling || (x.mode == .done && s.spillPending h)) && x.bufs.isEmpty
  s.setVat h { s.vat h with waitHost := wait }

/-! ## Freeze requests (R432) -/

/-- A freeze from the pin, a trigger line or the FREEZE message: a broadcast with BCAST, else at once. -/
def State.requestFreeze (s : State) (cause line : Nat) (bcast : Bool) (leadUs : Nat) : State :=
  if s.glb.frozen then s
  else if bcast || s.bit Reg.COL_FREEZE_CFG 2 then (s.startBroadcast false 0 leadUs).1
  else s.freezeNow cause line

/-- The lead of a broadcast without one of its own. -/
def State.freezeLead (s : State) : Nat := s.fld Reg.STF_FREEZE_LEAD 16 0

/-! ## States of a half (R370, R371) -/

/-- GAP: one record covers the run of losses, once there is space again (R375). (PRESUMED, log entry 73) -/
def State.writeGap (s : State) (h : Nat) : State :=
  match (s.vat h).gap with
  | some (n, bytes, first) =>
    if (s.vat h).mode.capturing && s.fld Reg.CAP_VAT_BW 12 0 != 0 && s.ringRoom h reserveBytes && (s.vat h).stageRoom reserveBytes then
      let s := s.setVat h { s.vat h with gap := none }
      (s.vatRecord h 0x11 0 48 (bytesOfNat 4 n ++ bytesOfNat 4 0 ++ bytesOfNat 8 bytes ++ bytesOfNat 8 first.toNat)).raise Reg.CAP_EVENT 0
    else s
  | none => s

/-- The half ends its capture: what is lost so far is covered by its GAP, and END is its last record (R370, R375). What ends in ARMED is
spilled from OLDEST. `vatSettle` follows. (PRESUMED, log entry 73) -/
def State.vatDone (s : State) (h : Nat) : State :=
  let s := s.writeGap h
  let x := s.vat h
  let s := s.vatRecord h 0x14 (x.number % 65536) 0 (bytesOfNat 8 x.stored ++ bytesOfNat 8 x.storedBytes)
  let y := s.vat h
  (s.setVat h { y with mode := .done, spilled := if x.mode = .armed then y.oldest else y.spilled }).settleSpill h

/-- Half `h` waits with a freeze for its capture's end (R373 FREEZE_DONE). -/
def State.freezeHeld (s : State) (h : Nat) : Bool := (s.vat h).freezeLine.isSome && (s.vat h).mode.capturing

/-- The freeze that waited for the last triggered half goes once no triggered half captures any more (R373). -/
def State.freezeAtDone (s : State) : State :=
  if s.freezeHeld 0 || s.freezeHeld 1 then s
  else
    match (s.vat 0).freezeLine.or (s.vat 1).freezeLine with
    | some l =>
      let s := [0, 1].foldl (fun (s : State) h => s.setVat h { s.vat h with freezeLine := none }) s
      s.requestFreeze 2 l false s.freezeLead
    | none => s

/-- What one act did to the halves, reported once: TRIGGERED where a half left ARMED, DONE where one became DONE, HOSTBUF_EMPTY
where one begins to wait for buffers (R378, R385); bits that rise together assert once (R468). -/
def State.vatEvents (before s : State) : State :=
  let some_ := fun (p : Nat → Bool) => b2n (p 0 || p 1)
  let left := some_ fun h => (before.vat h).mode == .armed && (s.vat h).mode != .armed
  let done := some_ fun h => (before.vat h).mode != .done && (s.vat h).mode == .done
  let wait := some_ fun h => !(before.vat h).waitHost && (s.vat h).waitHost
  if left + done + wait = 0 then s else s.raiseMask Reg.CAP_EVENT (BitVec.ofNat 32 (2 * left + 4 * done + 2 ^ 7 * wait))

/-- What follows an act on the halves: its events, then a freeze that waited for it. -/
def State.vatSettle (before s : State) : State := (before.vatEvents s).freezeAtDone

/-- POST_MIB has been written after the trigger (R370). The TRIGGER record is 48 bytes. -/
def State.vatPost (s : State) (h : Nat) : State :=
  let x := s.vat h
  if x.mode = .triggered ∧ x.trig + 48 + s.postBytes h ≤ x.wpos then s.vatDone h else s

/-- Takes the last record, `n` bytes and still in staging, back. -/
def VatHalf.takeBack (n : Nat) (x : VatHalf) : VatHalf :=
  let cut := x.staged.foldr (fun p (acc : List (Nat × List Byte) × Nat) =>
    let k := min acc.2 p.2.length
    (if k = p.2.length then acc.1 else (p.1, p.2.take (p.2.length - k)) :: acc.1, acc.2 - k)) ([], n)
  { x with staged := cut.1, wpos := x.wpos - n, recs := x.recs.dropLast, stored := x.stored - 1, storedBytes := x.storedBytes - n }

def trigAux (t : TrigSeen) : Nat := t.lines + t.cause * 2 ^ 4
def trigPayload (t : TrigSeen) : List Byte := bytesOfNat 4 t.source ++ bytesOfNat 4 t.seq ++ bytesOfNat 8 0

/-- The triggers of one cycle make one TRIGGER record (R374): where the half's last record is the TRIGGER of this instant, the two as
one. The cause is the lower of the two. (DESIGN CHOICE, log entry 119) -/
def State.trigMerge (s : State) (h : Nat) (t : TrigSeen) : Option TrigSeen :=
  let x := s.vat h
  match x.trigSeen, x.recs.getLast? with
  | some o, some r =>
    if o.time = t.time ∧ r = (x.wpos - 48, 48) ∧ 48 ≤ x.stagedBytes ∧ x.mode.capturing = true then
      some { o with lines := o.lines ||| t.lines, cause := min o.cause t.cause,
                    source := if o.source = 0 then t.source else o.source, seq := if o.source = 0 then t.seq else o.seq }
    else none
  | _, _ => none

/-- A trigger reaches a half (R370, R371, R374): lines, cause, SOURCE and SEQ of the matching record. `vatSettle` follows.
(PRESUMED, log entry 73) -/
def State.vatTrigger (s : State) (h : Nat) (t : TrigSeen) : State :=
  let x := s.vat h
  if !x.mode.capturing then s
  else match s.trigMerge h t with
  | some m =>
    let back := fun (x : VatHalf) => { VatHalf.takeBack 48 x with seqs := mapSet (fun _ => 0) x.seqs h (mapGet (fun _ => 0) x.seqs h - 1),
                                                                   trigSeen := some m }
    (s.setVat h (back x)).vatRecord h 0x10 (trigAux m) reserveBytes (trigPayload m)
  | none =>
    if x.mode = .armed then
      let s := s.vatRecord h 0x10 (trigAux t) reserveBytes (trigPayload t)
      let y := s.vat h
      let at_ := x.wpos
      let keep := y.recs.dropWhile (fun r => decide (r.1 + s.preBytes h < at_))
      let oldest := match keep with | r :: _ => r.1 | [] => at_
      let mode := if s.vatModeCfg h = 2 then VatMode.spilling else .triggered
      let s := s.setVat h { y with trig := at_, recs := keep, oldest := oldest, spilled := oldest, mode := mode, trigSeen := some t }
      (s.settleSpill h).vatPost h
    else if s.vatRoom h 48 then
      ((s.setVat h { x with trigSeen := some t }).vatRecord h 0x10 (trigAux t) reserveBytes (trigPayload t)).vatPost h
    else if x.mode = .triggered then (s.setVat h ((s.vat h).nextSeq h).2).vatDone h
    else s.dropKind0 h 48

/-- A half that a trigger has reached, or that streams. -/
def VatMode.triggeredOn (m : VatMode) : Bool := m == .triggered || m == .spilling || m == .stream

/-- FREEZE_DONE (R373): the freeze waits for each half that is triggered already, or that the line is about to trigger. -/
def State.holdFreeze (s : State) (line : Nat) (trigger : Bool) : State :=
  [0, 1].foldl (fun (s : State) h =>
    let x := s.vat h
    if x.mode.triggeredOn || (trigger && x.mode == .armed) then s.setVat h { x with freezeLine := some (x.freezeLine.getD line) } else s) s

/-- ARM: the ring starts empty with a START record (R370). (DEDUCED, log entry 72; PRESUMED, log entry 73) -/
def State.vatArm (s : State) (h : Nat) : State :=
  let x := s.vat h
  let number := (x.number + 1) % 65536
  let mode := if s.vatModeCfg h = 1 then VatMode.stream else .armed
  let s := (s.setVat h { mode := mode, number := number, bufs := x.bufs, staged := x.staged, lastPort := 12 * h + 11 }).wr (Reg.CAP_VAT_DROP h) 0
  (s.vatRecord h 0x13 number reserveBytes (bytesOfNat 4 (s.rd Reg.STF_ID).toNat ++ bytesOfNat 4 (s.vatModeCfg h) ++ bytesOfNat 4 (s.ringLog h)
    ++ bytesOfNat 4 (s.fld (Reg.CAP_VAT_PRE h) 18 0))).settleSpill h

/-- CAP_VAT_CTRL's HALVES: 0 is taken as both (R372). -/
def vatHalves (d : Desc) : List Nat × Bool :=
  let v := d.fld 0x10 1 0
  ((if v = 0 then [0, 1] else (if v.testBit 0 then [0] else []) ++ (if v.testBit 1 then [1] else [])), v == 0)

/-! ## Trigger lines (R373) -/

/-- The first anchor of a Press channel's kind at or after time `t` (2^-16 ns): its time and its slot or frame number. -/
def State.firstAnchor (s : State) (carrier : Option Nat) (t : Int) : Int × Int :=
  match carrier with
  | some c =>
    let cfg := (s.carrier c).cfg
    let len := cfg.len * 65536
    let t0 := cfg.airNs s.slt.originNs 0 * 65536
    let n := (t - t0 + len - 1) / len
    (t0 + n * len, n)
  | none =>
    let n := (t - s.frameTime 0 + 655359999999) / 655360000000
    (s.frameTime n, n)

/-- CAP_PRESS_LEAD in 2^-16 ns. -/
def State.pressLead16 (s : State) : Int := (s.fld Reg.CAP_PRESS_LEAD 9 0 * 65536000 : Nat)

/-- Press channels that wait on a line take their anchor when it fires (R381). -/
def State.pressLine (s : State) (n : Nat) : State :=
  { s with cap.press := s.cap.press.map (fun p =>
      if p.2.line = some n ∧ p.2.anchor = none then
        (p.1, { p.2 with anchor := some (s.firstAnchor p.2.carrier (s.tb.time16 + s.pressLead16)) })
      else p) }

/-- What a firing line does beside triggering the halves (R373). -/
def State.lineActs (s : State) (n cause : Nat) : State :=
  let a := Reg.CAP_TRIG_CFG n
  let st := s.stampNow
  let s := (s.wr (Reg.CAP_TRIG_STAMP_LO n) (st.setWidth 32)).wr (Reg.CAP_TRIG_STAMP_HI n) ((st >>> 32).setWidth 32)
  let s := if s.bit a 31 && !s.cap.pulses.contains n then { s with cap.pulses := s.cap.pulses ++ [n] } else s
  let s := if s.bit a 4 && cause != 3 then (s.startBroadcast true n s.freezeLead).1 else s
  let s := s.pressLine n
  if s.bit a 2 then s.requestFreeze 2 n false s.freezeLead else s

/-- Lines fire in one cycle (R373, R374): cause 1 rule, 2 pin, 3 stitch broadcast. Those with VAT trigger both halves, as one; a line
that is not enabled does nothing. (DESIGN CHOICE, log entry 119) -/
def State.fireLines (s : State) (l : List Nat) (cause source seq : Nat) : State :=
  let on := (List.range 4).filter (fun n => l.contains n && s.bit (Reg.CAP_TRIG_CFG n) 0)
  let vat := on.filter (fun n => s.bit (Reg.CAP_TRIG_CFG n) 1)
  let t : TrigSeen := ⟨s.tb.time16, (vat.map (fun n => 2 ^ n)).sum, cause, source, seq⟩
  let s := match on.find? (fun n => s.bit (Reg.CAP_TRIG_CFG n) 3) with
    | some n => s.holdFreeze n (!vat.isEmpty)
    | none => s
  let s := if vat.isEmpty then s else s.vatEvents ([0, 1].foldl (fun s h => s.vatTrigger h t) s)
  (on.foldl (fun s n => s.lineActs n cause) s).freezeAtDone

/-- TRIG_PULSE_END: WIDTH × 100 ns have passed. -/
def execTrigPulseEnd (line : Nat) (s : State) : Res := s.whenClocked fun s => .next { s with cap.pulses := s.cap.pulses.filter (· != line) }

/-! ## Capture (R362 to R365) -/

/-- What the routing says of a record: its half, whether it is captured, the bytes kept (0: all), a line to fire. -/
structure CapChoice where
  half : Nat
  capture : Bool
  snap : Nat := 0
  line : Option Nat := none
  deriving DecidableEq, Repr

/-- One match rule (R364). -/
def ruleMatches (w : SetWords) (r : Nat) (c : CapRec) : Bool :=
  let pg := 5 + r / 8
  let b := 4 * (r % 8)
  let f := fun i hi lo => Machine.setFld w pg (b + i) hi lo
  let off := 4 * f 0 6 0
  let cond := f 0 9 8
  f 0 31 31 = 1 && (f 0 26 24 == 0 || f 0 26 24 == c.kind) && decide (f 0 23 17 ≤ c.index ∧ c.index ≤ f 0 16 10)
    && (cond == 0 || (cond == 1 && c.bad) || (cond == 2 && c.window) || (cond == 3 && (c.bad || c.window)))
    && (if c.payload.length < off + 4 then setWord w pg (b + 2) == 0
        else (BitVec.ofNat 32 (natOfBytes ((c.payload.drop off).take 4)) ^^^ setWord w pg (b + 1)) &&& setWord w pg (b + 2) == 0)
    && (f 3 31 31 == 0 || (c.carrier != 0xFFFF && f 3 24 16 == c.carrier))

/-- The routing of a record, by the module set felt when its first byte came (R363). (DEDUCED, log entry 72) -/
def State.capRoute (s : State) (c : CapRec) : CapChoice :=
  let w := if c.beforeCouch then s.slt.modBefore else s.slt.modSet.felt
  let byRule := fun (h : Nat) =>
    match (List.range 16).find? (fun r => ruleMatches w r c) with
    | some r =>
      let b := 4 * (r % 8)
      let a := Machine.setFld w (5 + r / 8) b 30 29
      { half := h, capture := a == 0 || a == 2, snap := Machine.setFld w (5 + r / 8) (b + 3) 15 0,
             line := if 2 ≤ a then some (Machine.setFld w (5 + r / 8) b 28 27) else none : CapChoice }
    | none => { half := h, capture := Machine.setFld w 4 8 31 30 != 1, snap := Machine.setFld w 4 8 15 0 }
  if c.kind = 1 ∨ c.kind = 2 then byRule (c.index / 48)
  else if c.kind = 3 ∨ c.kind = 4 then byRule ((s.stfLanes c.index).1 / 48)
  else if c.kind = 5 then { half := Machine.setFld w 7 c.index 31 31, capture := true }
  else { half := Machine.setFld w 7 (16 + 2 * c.index) 31 31, capture := true }

def capSource (c : CapRec) : Nat := c.kind * 4096 + c.index % 4096

/-- GAP_RECORD (R375). -/
def execGapRecord (half : Nat) (s : State) : Res := s.whenClocked fun s => .next (s.vatSettle ((s.writeGap half).vatPost half))

/-- Places a record in its half (R366, R367, R370, R375): stored, dropped whole, or the end of a RING capture. Its SEQ follows. -/
def State.placeRecord (s : State) (c : CapRec) (h snap : Nat) : State × Nat :=
  let q := (s.vat h).nextSeq (capSource c)
  let s := s.setVat h q.2
  let p := if snap = 0 then c.payload else c.payload.take snap
  let flags := b2n (decide (p.length < c.payload.length)) + 2 * b2n c.bad + 4 * b2n c.window + 8 * b2n c.replayed
    + (if c.kind = 5 then c.prio % 8 * 2 ^ 5 else 0)
  let d := oljBytes (capSource c) flags c.type c.time q.1 c.slot c.carrier c.aux p
  if (s.vat h).mode = .triggered ∧ !s.ringRoom h (d.length + reserveBytes) then (s.vatDone h, q.1)
  else if s.fld Reg.CAP_VAT_BW 12 0 = 0 || !s.vatRoom h d.length then (s.loseRecord h d.length c.time, q.1)
  else
    let s := (s.writeGap h).vatPost h
    if !(s.vat h).mode.capturing then (s, q.1)
    else if !s.vatRoom h d.length then (s.loseRecord h d.length c.time, q.1)
    else ((s.vatPut h reserveBytes d).vatPost h, q.1)

/-- One offer is matched, and stored or dropped (R362 to R366); the line it fires follows, with the SOURCE and SEQ of the record. -/
def State.takeOffer (s : State) (c : CapRec) : State × Option (Nat × Nat × Nat) :=
  let ch := s.capRoute c
  let x := if ch.capture && (s.vat ch.half).mode.capturing then s.placeRecord c ch.half ch.snap else (s, 0)
  (x.1, ch.line.map (fun n => (n, capSource c, x.2)))

/-- The offers that came in one cycle, the oldest there are: their records first, then the lines they fire, as one (R374). The SOURCE and
SEQ are those of the first record that fires a line. -/
def State.settleCycle (s : State) : State :=
  match s.cap.offers with
  | [] => s
  | c :: _ =>
    let now := s.cap.offers.takeWhile (·.came == c.came)
    let s0 := { s with cap.offers := s.cap.offers.drop now.length }
    let r := now.foldl (fun (acc : State × List (Nat × Nat × Nat)) c =>
      let x := acc.1.takeOffer c
      (x.1, acc.2 ++ x.2.toList)) (s0, [])
    let t := s0.vatSettle r.1
    match r.2 with
    | [] => t
    | f :: _ => t.fireLines (r.2.map (·.1)) 1 f.2.1 f.2.2

/-- Every offer so far reaches the Vat: what triggers, ends, starts or re-routes a capture finds the records before it committed
(R374). -/
def State.settleOffersN (s : State) (fuel : Nat) : State :=
  match fuel with
  | 0 => s
  | k + 1 => if s.cap.offers.isEmpty then s else s.settleCycle.settleOffersN k
def State.settleOffers (s : State) : State := s.settleOffersN s.cap.offers.length

/-! ## From staging to the ring (R375) -/

/-- The token bucket as it stands now: CAP_VAT_BW × 112.64 bytes a microsecond, at most 1 MiB. (DESIGN CHOICE, log entry 119) -/
def State.refill (s : State) : State :=
  let now := s.tb.raw.toNat
  { s with cap.tokens := min (2 ^ 20 * 100000) (s.cap.tokens + (now - s.cap.tokenRaw) * s.fld Reg.CAP_VAT_BW 12 0 * 11264), cap.tokenRaw := now }
def State.tokenBytes (s : State) : Nat := s.cap.tokens / 100000
def State.spend (s : State) (n : Nat) : State := { s with cap.tokens := s.cap.tokens - n * 100000 }

/-- The first `n` bytes of the staging memory, as they go to module memory, and the rest. -/
def takeStaged (n : Nat) (l : List (Nat × List Byte)) : List (Nat × List Byte) × List (Nat × List Byte) :=
  match l with
  | [] => ([], [])
  | p :: r =>
    if n = 0 then ([], p :: r)
    else if p.2.length ≤ n then let q := takeStaged (n - p.2.length) r; (p :: q.1, q.2)
    else ([(p.1, p.2.take n)], (p.1 + n, p.2.drop n) :: r)

/-- STOP descriptors whose records have all reached the rings complete OK (R372). -/
def State.endStops (s : State) (h n : Nat) : State :=
  let l := s.cap.stops.map (fun x => if h = 0 then (x.1, x.2.1 - n, x.2.2) else (x.1, x.2.1, x.2.2 - n))
  let ready := l.filter (fun x => x.2.1 == 0 && x.2.2 == 0)
  ready.foldl (fun s x => s.complete x.1 stOK 0) { s with cap.stops := l.filter (fun x => x.2.1 != 0 || x.2.2 != 0) }

/-- What the Spine grants, and the tokens pay for, goes from staging into the ring. -/
def State.drainStaging (s : State) (h grant : Nat) : State :=
  let s := s.refill
  let x := s.vat h
  let n := min (min grant s.tokenBytes) x.stagedBytes
  let q := takeStaged n x.staged
  let s := (s.setVat h { x with staged := q.2 }).spend n
  (q.1.foldl (fun s p => (s.writeModule (vatRequester h) p.1 p.2).1) s).endStops h n

/-- VAT_ARM (R372): every named half, or none. -/
def State.vatArmDesc (s : State) (d : Desc) : State :=
  let hs := vatHalves d
  let s := s.clampDesc d hs.2 Reg.CAP_CLAMP_COUNT
  let s := s.settleOffers
  if hs.1.all s.vatFree then (s.vatEvents (hs.1.foldl State.vatArm s)).complete (d.ref hs.2) stOK 0
  else s.complete (d.ref hs.2) stREFUSED 0

def execVatArm (d : Desc) (s : State) : Res := s.whenClocked fun s => .next (s.vatArmDesc d)

/-- VAT_TRIGGER (R372, R373): the named halves only; no line fires. -/
def State.vatTriggerDesc (s : State) (d : Desc) : State :=
  let hs := vatHalves d
  let s := s.clampDesc d hs.2 Reg.CAP_CLAMP_COUNT
  let s := s.settleOffers
  let left := (hs.1.map (fun h => if (s.vat h).mode = .armed then 2 ^ h else 0)).sum
  (s.vatSettle (hs.1.foldl (fun s h => s.vatTrigger h ⟨s.tb.time16, 0, 4, 0, 0⟩) s)).complete (d.ref hs.2) stOK left

def execVatTrigger (d : Desc) (s : State) : Res := s.whenClocked fun s => .next (s.vatTriggerDesc d)

/-- VAT_STOP (R370, R372): it completes once every record the named halves captured is in the ring. -/
def State.vatStopDesc (s : State) (d : Desc) : State :=
  let hs := vatHalves d
  let s := s.clampDesc d hs.2 Reg.CAP_CLAMP_COUNT
  let s := s.settleOffers
  let s := s.vatSettle (hs.1.foldl (fun s h => if (s.vat h).mode.capturing then s.vatDone h else s) s)
  let left := fun h => if hs.1.contains h then (s.vat h).stagedBytes else 0
  ({ s with cap.stops := s.cap.stops ++ [(d.ref hs.2, left 0, left 1)] }).endStops 0 0

def execVatStop (d : Desc) (s : State) : Res := s.whenClocked fun s => .next (s.vatStopDesc d)

/-- TRIG_PIN_EDGE: an edge of the configured direction on an input pin (R373). -/
def execTrigPinEdge (line : Nat) (rising : Bool) (s : State) : Res := s.whenClocked fun s =>
  .next (if line < 4 && !s.bit (Reg.CAP_TRIG_CFG line) 31 && s.bit (Reg.CAP_TRIG_CFG line) 30 == !rising then s.settleOffers.fireLines [line] 2 0 0 else s)

/-- BROADCAST_TIME (R347): the earliest pending broadcast has reached its T. (DEDUCED, log entry 70) -/
def State.broadcastTime (s : State) : State :=
  match s.stf.pending with
  | b :: r =>
    if b.t ≤ s.tb.time16 then
      let s := { s with stf.pending := r }
      if b.trigger then s.settleOffers.fireLines [b.line] 3 0 0 else s.freezeNow 3 0
    else s
  | [] => s

def execBroadcastTime (s : State) : Res := s.whenClocked fun s => .next s.broadcastTime

/-! ## Marks (R363) -/

/-- A half's MARK record. -/
def State.vatMarkHalf (s : State) (h : Nat) : State :=
  if !(s.vat h).mode.capturing then s
  else if s.vatRoom h 32 then (s.vatRecord h 0x12 0 reserveBytes []).vatPost h
  else if (s.vat h).mode = .triggered then (s.setVat h ((s.vat h).nextSeq h).2).vatDone h
  else s.dropKind0 h 32

/-- MARK: each half with a capture under way, at a reference frame boundary. (DEDUCED, log entry 72) -/
def State.vatMark (s : State) : State :=
  if bitOf (setWord s.slt.modSet.felt 4 9) 0 then
    let s := s.settleOffers
    s.vatSettle ([0, 1].foldl State.vatMarkHalf s)
  else s

/-! ## Spill (R376 to R378) -/

/-- Bytes of the ring that are ready to be spilled. -/
def State.spillReady (s : State) (h : Nat) : Nat := (s.vat h).written - (s.vat h).spilled

/-- The next `n` bytes of the ring, each paid for with a token (R375), and the offset of the first record that starts among them; the ring
position moves on, and the oldest record kept is the first that is not spilled whole. What an uncorrectable word of the ring reads as is
free. (DESIGN CHOICE, log entry 20) -/
def State.spillTake (s : State) (h n : Nat) : State × List Byte × Option Nat :=
  let x := s.vat h
  let ps := ringPieces (s.ringBase h) (s.ringBytes h) x.spilled n
  let r := ps.foldl (fun (acc : State × List Byte) p =>
    let y := acc.1.readModule (vatRequester h) p.1 p.2
    match y.2 with
    | some b => (y.1, acc.2 ++ b)
    | none => (y.1.drawn, acc.2 ++ y.1.freeBytes p.2)) (s.spend n, [])
  let first := (x.recs.find? (fun q => decide (x.spilled ≤ q.1 ∧ q.1 < x.spilled + n))).map (fun q => q.1 - x.spilled)
  let pos := x.spilled + n
  let y := r.1.vat h
  let keep := y.recs.filter (fun q => decide (pos < q.1 + q.2))
  let oldest := match keep with | q :: _ => q.1 | [] => pos
  (r.1.setVat h { y with spilled := pos, oldest := oldest, recs := keep }, r.2, first)

/-- The spill header (R377); FRAME_SEQ counts on. -/
def spillHeader (h seq : Nat) (first : Option Nat) (used : Nat) : List Byte :=
  bytesOfNat 4 (2 ^ 24 + h * 2 ^ 16) ++ bytesOfNat 4 seq ++ bytesOfNat 4 (first.getD 0xFFFFFFFF) ++ bytesOfNat 4 used
def State.nextFrameSeq (s : State) (h : Nat) : State := s.setVat h { s.vat h with frameSeq := (s.vat h).frameSeq + 1 }

/-- A DONE half has emptied its ring. -/
def State.spillDrained (s : State) (h : Nat) : State :=
  let s := if (s.vat h).mode = .done && !s.spillPending h then s.raise Reg.CAP_EVENT 4 else s
  s.vatEvents (s.settleSpill h)

/-- The next spill port of a half whose link is up, round-robin. -/
def State.nextSpillPort (s : State) (h : Nat) : Option Nat :=
  let up := (spillPorts h).filter (fun k => s.cap.spillUp.contains k && s.bit (Reg.CAP_SPILL_CFG k) 31 && s.activityRuns (.spill k))
  match up.find? (fun k => decide ((s.vat h).lastPort < k)) with
  | some k => some k
  | none => up.head?

/-- Sends one spill frame, short where `short` allows it (R377). -/
def State.spillFrame (s : State) (h : Nat) (short : Bool) : State :=
  let s := s.refill
  let x := s.vat h
  let runs := x.mode == .stream || x.mode == .spilling || x.mode == .done
  match s.nextSpillPort h with
  | none => s
  | some k =>
    let room := s.fld (Reg.CAP_SPILL_CFG k) 13 0 - 34
    let n := min room (s.spillReady h)
    if h < 2 ∧ runs ∧ s.vatSpill h = 1 ∧ 0 < n ∧ n ≤ s.tokenBytes ∧ (n = room ∨ short ∨ (x.mode = .done ∧ x.stagedBytes = 0)) then
      let y := s.spillTake h n
      let dst := (s.rd Reg.CAP_SPILL_DST_LO).toNat + s.fld Reg.CAP_SPILL_DST_HI 15 0 * 2 ^ 32
      let f := withFcs (padTo 60 (ethHeader dst (s.portMac (4 * k)) none (s.fld Reg.CAP_SPILL_ETYPE 15 0)
        ++ spillHeader h x.frameSeq y.2.2 n ++ y.2.1))
      let s := ((y.1.nextFrameSeq h).setVat h { (y.1.nextFrameSeq h).vat h with lastPort := k }).bump64 (Reg.CAP_SPILL_FRAMES_LO k) 1
      (s.emit (.spill k f)).spillDrained h
    else s

def execSpillFrame (half : Nat) (s : State) : Res := s.whenClocked fun s => .next (s.spillFrame half false)

/-- SPILL_IDLE: 10 µs without ready ring data (R377). -/
def execSpillIdle (half : Nat) (s : State) : Res := s.whenClocked fun s => .next (s.spillFrame half true)

/-- SPILL_PORT_ENABLE: a write of CAP_SPILL_CFG_k (R376, R385). -/
def State.writeSpillCfg (s : State) (k : Nat) (v : W32) : State :=
  let a := Reg.CAP_SPILL_CFG k
  let h := k / 12
  if !s.vatFree h then s.clampAt Reg.CAP_CLAMP_COUNT
  else
    let old := s.rd a
    let shape := if bitsOf v 30 29 = 1 ∧ k % 2 = 0 then 1 else 2
    let v1 := setBitsOf (setBitsOf v 30 29 shape) 28 28 h
    let lanes := if shape = 1 then 8 else 4
    let bad := s.lanesTaken (.spill k) (4 * k) lanes
    let v2 := if bad then setBitsOf v1 31 31 0 else v1
    let oldLanes := s.spillLanes k
    let s := s.writeContext a v v2
    let same := bitOf old 31 && s.bit a 31 && decide (oldLanes = s.spillLanes k)
    if same then s
    else
      let s := if bitOf old 31 then (List.range oldLanes.2).foldl (fun s i => s.disownLane (oldLanes.1 + i)) s else s
      let s := { s with cap := { s.cap with spillUp := s.cap.spillUp.filter (· != k), spillFault := mapErase s.cap.spillFault k } }
      if s.bit a 31 then (List.range lanes).foldl (fun s i => s.ownLane (4 * k + i) (.spill k) 2) s else s

def execSpillPortEnable (port : Nat) (value : W32) (s : State) : Res :=
  if port < 24 then .next (s.hostWriteTo (Reg.CAP_SPILL_CFG port) (·.writeSpillCfg port value)) else .next s

/-- Ready ring data goes into the oldest host buffer, behind its header, as far as it has room and tokens pay (R378). -/
def State.hostFill (s : State) (h : Nat) : State :=
  let s := s.refill
  let x := s.vat h
  let runs := x.mode == .stream || x.mode == .spilling || x.mode == .done
  match x.bufs with
  | [] => s
  | b :: r =>
    let n := min (min (b.len - 16 - b.fill) (s.spillReady h)) s.tokenBytes
    if h < 2 ∧ runs ∧ s.vatSpill h = 2 ∧ 0 < n then
      let y := s.spillTake h n
      let b' := { b with fill := b.fill + n, first := b.first.or (y.2.2.map (b.fill + ·)) }
      (y.1.setVat h { y.1.vat h with bufs := b' :: r }).hostWrite ⟨b.fn, 0, b.ref.ring, b.ref.tag, b.addr + BitVec.ofNat 64 (16 + b.fill), y.2.1, 0⟩
    else s

/-- CAP_HOSTBUF (R378). -/
def State.capHostbuf (s : State) (d : Desc) : State :=
  let h := d.fld 0x10 31 31
  let l := d.fld 0x14 31 0
  let len := max 65536 (min (2 ^ 28) l) / 4096 * 4096
  let addr := (d.w64 0x18).toNat / 4096 * 4096
  let cl := len != l || (d.w64 0x18).toNat % 4096 != 0
  let s := s.clampDesc d cl Reg.CAP_CLAMP_COUNT
  let x := s.vat h
  if 1024 ≤ x.bufs.length then s.complete (d.ref cl) stREFUSED 0
  else ((s.setVat h { x with bufs := x.bufs ++ [{ ref := d.ref cl, fn := s.descFn d, len := len, addr := BitVec.ofNat 64 addr }] }).settleSpill h).hostFill h

def execCapHostbuf (d : Desc) (s : State) : Res := s.whenClocked fun s => .next (s.capHostbuf d)

/-- The oldest host buffer closes: its header is written and it completes (R378). -/
def State.closeBuf (s : State) (h : Nat) (b : SpillBuf) : State :=
  let x := s.vat h
  let s := s.hostWrite ⟨b.fn, 0, b.ref.ring, b.ref.tag, b.addr, spillHeader h x.frameSeq b.first b.fill, 0⟩
  let s := (s.setVat h { s.vat h with bufs := x.bufs.drop 1 }).nextFrameSeq h
  (s.complete b.ref stOK (x.frameSeq % 65536)).spillDrained h

/-- HOSTBUF_CLOSE (R378): the oldest buffer is full, 1 ms has passed without ready data (`idle`), or the half is DONE and has spilled all
it holds. The next buffer takes what is left. -/
def State.hostbufClose (s : State) (h : Nat) (idle : Bool) : State :=
  let s := s.hostFill h
  match (s.vat h).bufs with
  | [] => s
  | b :: _ =>
    let done := (s.vat h).mode = .done ∧ (s.vat h).spilled = (s.vat h).wpos
    if h < 2 ∧ 0 < b.fill ∧ (b.fill = b.len - 16 ∨ idle ∨ done) then (s.closeBuf h b).hostFill h
    else s

def execHostbufClose (half : Nat) (idle : Bool) (s : State) : Res := s.whenClocked fun s => .next (s.hostbufClose half idle)

/-! ## CAPTURE_RECORD -/

/-- CAPTURE_RECORD (R362 to R367, R375): the oldest offers are matched, and stored or dropped; then up to `grant` bytes of the half's
staging go to the ring, and from there to a host buffer that waits. (DEDUCED, log entry 72) -/
def State.captureRecord (s : State) (half grant : Nat) : State := (s.settleCycle.drainStaging half grant).hostFill half

def execCaptureRecord (half grant : Nat) (s : State) : Res := s.whenClocked fun s => .next (if half < 2 then s.captureRecord half grant else s)

/-! ## Registers (R385) -/

/-- A write to CAP_VAT_CFG, BASE, PRE or POST of a half: discarded and counted unless the half is free. -/
def State.writeVatReg (s : State) (h a : Nat) (v : W32) : State :=
  if !s.vatFree h then s.clampAt Reg.CAP_CLAMP_COUNT
  else
    let mib := 2 ^ (s.ringLog h - 20)
    let v' : W32 :=
      if a = Reg.CAP_VAT_CFG h then (if bitsOf v 31 30 = 0 ∨ bitsOf v 31 30 = 3 then setBitsOf v 29 28 0 else v)
      else if a = Reg.CAP_VAT_BASE_LO h then BitVec.ofNat 32 (v.toNat / s.ringBytes h * s.ringBytes h)
      else if a = Reg.CAP_VAT_BASE_HI h then
        BitVec.ofNat 32 (bitsOf v 31 7 * 2 ^ 7 + bitsOf v 6 0 * 2 ^ 32 / s.ringBytes h * s.ringBytes h / 2 ^ 32)
      else if a = Reg.CAP_VAT_PRE h then setBitsOf v 18 0 (min (bitsOf v 18 0) mib)
      else setBitsOf v 18 0 (min (bitsOf v 18 0) (mib - s.fld (Reg.CAP_VAT_PRE h) 18 0))
    s.writeContext a v v'

/-- CAP_VAT_STATUS_h. -/
def State.vatStatus (s : State) (h : Nat) : W32 :=
  BitVec.ofNat 32 (b2n (s.spillPending h) * 2 ^ 31 + b2n (s.vat h).waitHost * 2 ^ 30 + (s.vat h).mode.code)

/-- CAP_VAT_WPTR, OLDEST and TRIG: ring offsets. -/
def State.ringOffset (s : State) (h pos : Nat) : Nat := pos % s.ringBytes h

/-- CAP_SPILL_STATUS_k. -/
def State.spillStatus (s : State) (k : Nat) : W32 :=
  let f := mapGet (fun _ => none) s.cap.spillFault k
  BitVec.ofNat 32 (b2n (s.cap.spillUp.contains k) * 2 ^ 31 + b2n f.isSome * 2 ^ 7 + f.getD 0)

end Sys2Proof.Machine
end

