-- ==== Sys2Proof/Machine/Press.lean ====
section
/-! DEFINITION. The Press (R379 to R384): sixteen channels that replay Olj patterns. -/

namespace Sys2Proof.Machine

/-- Press half `h` is requester 138 + h (R361). -/
def pressRequester (c : Nat) : Nat := 138 + c / 8

/-- A channel ends: frames of it that still wait are gone, and its START descriptor completes with the late frames (R381, R384). -/
def State.pressEnd (s : State) (c status : Nat) : State :=
  let x := s.chanP c
  let s := ({ s with cap.outq := s.cap.outq.filter (·.chan != c) }.setChanP c {}).raise Reg.CAP_EVENT 5
  match x.ref with
  | some r => s.complete r (if status = stOK ∧ x.shifted then 0x80 else status) (min 65535 x.late)
  | none => s

/-- CAP_PRESS_START (R381). -/
def State.pressStart (s : State) (d : Desc) : State :=
  let c := d.fld 0x10 3 0
  let buffer := d.fld 0x10 4 4 = 1
  let addr := (d.w64 0x18).toNat / 8 * 8
  let limit := if buffer then 0x02000000 else memSize
  let len0 := (d.w64 0x20).toNat
  let len := min len0 (limit - addr)
  let per := d.fld 0x28 23 0
  let ref := d.carrier = 0xFFFF
  let cid := carrierField d.carrier
  let cl := carrierClamped d.carrier || (d.w64 0x18).toNat % 8 != 0 || len != len0 || per == 0
  let x := s.carrier cid
  let live := ref || x.mode == .starting || x.mode == .running
  let overflow := !ref && !d.immediate && live && decide (x.cfg.spf ≤ bitsOf d.slot 7 0)
  let cl := cl || overflow
  let s := s.clampDesc d cl Reg.CAP_CLAMP_COUNT
  if (s.chanP c).mode != .idle || !live then s.complete (d.ref cl) stREFUSED 0
  else
    let carrier := if ref then none else some cid
    let line := if d.fld 0x10 7 7 = 1 then some (d.fld 0x10 9 8) else none
    let soon := s.tb.time16 + s.pressLead16
    let named : Int × Int :=
      if ref then
        let n := nearestSlot (2 ^ 24) (stampFrame d.slot) (s.slt.nextFrame - 1)
        (s.frameTime n, n)
      else
        let n := s.slotOfStamp cid .ul d.slot
        (x.cfg.airNs s.slt.originNs n * 65536, n)
    let shifted := line.isNone && !d.immediate && decide (named.1 < soon)
    let anchor := if line.isSome then none else some (if d.immediate || shifted then s.firstAnchor carrier soon else named)
    s.setChanP c { mode := .wait, ref := some (d.ref cl), carrier := carrier, anchor := anchor, line := line,
                   rewrite := d.fld 0x10 6 6 = 1, timeFirst := d.fld 0x10 5 5 = 1, buffer := buffer,
                   loops := d.fld 0x14 31 0, addr := addr, length := len, period := if per = 0 then 1 else per, shifted := shifted }

def execCapPressStart (d : Desc) (s : State) : Res := s.whenClocked fun s => .next (s.pressStart d)

/-- CAP_PRESS_STOP (R384). -/
def State.pressStop (s : State) (d : Desc) : State :=
  let c := d.fld 0x10 3 0
  if (s.chanP c).mode = .idle then s.completeAt (d.ref false) stOK 0 true s.stampNow
  else (s.pressEnd c stABORTED).complete (d.ref false) stOK 0

def execCapPressStop (d : Desc) (s : State) : Res := s.whenClocked fun s => .next (s.pressStop d)

/-- The loop period in 2^-16 ns (R381). -/
def State.pressPeriod (s : State) (x : PressChan) : Int :=
  match x.carrier with
  | some c => x.period * (s.carrier c).cfg.len * 65536
  | none => x.period * frameNs * 65536

/-- What the channel may not send (R380). -/
def State.pressSkips (s : State) (c kind p flags len : Nat) : Bool :=
  decide (96 ≤ p) || p / 48 != c / 8 || !s.portEnabled p || s.isCpri p || (kind == 2 && !(s.port p).up) || flags.testBit 0
    || decide (len < 64) || decide (s.maxFrame p < len)

/-- REWRITE of an eCPRI frame of type 0 or 2 (R383): slot fields advanced, ecpriSeqid counted, FCS recomputed. -/
def State.pressRewrite (s : State) (x : PressChan) (data : List Byte) : List Byte × PressChan :=
  let body := data.take (data.length - 4)
  let f := ethOf body
  let type := beAt f.payload 1 1
  if f.etype = 0xAEFE ∧ (type = 0 ∨ type = 2) ∧ 12 ≤ f.payload.length then
    let k := beAt f.payload 4 2
    let mu := match x.carrier with | some c => (s.carrier c).cfg.mu | none => 0
    let n := x.iter * x.period
    let word := beAt f.payload 10 2
    let sub := word / 4096
    let slot := word / 64 % 64
    let idx := match x.carrier with
      | some _ => (beAt f.payload 9 1 * 10 + sub) * 2 ^ mu + slot + n
      | none => 0
    let frame := match x.carrier with | some _ => idx / 2 ^ mu / 10 % 256 | none => (beAt f.payload 9 1 + n) % 256
    let word' := match x.carrier with
      | some _ => idx / 2 ^ mu % 10 * 4096 + idx % 2 ^ mu * 64 + word % 64
      | none => word
    let known := mapGet (fun _ => none) x.keys k
    let counted := known.isSome || decide (x.keys.length < 4096)
    let seq := if counted then known.getD 0 else beAt f.payload 6 1
    let x := if counted then { x with keys := mapSet (fun _ => none) x.keys k (some ((seq + 1) % 256)) } else x
    let p := f.payload
    let p' := p.take 6 ++ beBytes 1 seq ++ (p.drop 7).take 2 ++ beBytes 1 frame ++ beBytes 2 word' ++ p.drop 12
    (withFcs (body.take f.offset ++ p'), x)
  else (data, x)

/-- Bytes a port's output queue holds (R382). -/
def State.outBytes (s : State) (p : Nat) : Nat := ((s.cap.outq.filter (·.port == p)).map (·.data.length)).sum

/-- The port is sending, or frames of the Press wait for it: a further one joins its output queue. -/
def State.outBusy (s : State) (p : Nat) : Bool := decide (s.tb.time16 < (s.port p).busy16) || s.cap.outq.any (·.port == p)

/-- A FRAME record's time has come: the frame is sent on its port, at once or after what is in progress there, or injected into its
receive path, stamped with the time at which it enters (R380, R382). -/
def State.pressEmit (s : State) (c kind p : Nat) (due : Int) (data : List Byte) : State :=
  let x := s.chanP c
  let r := if x.rewrite then s.pressRewrite x data else (data, x)
  let s := s.setChanP c r.2
  if kind = 2 then
    (if s.outBusy p then { s with cap.outq := s.cap.outq ++ [⟨p, c, due, r.1⟩] } else (s.pressLeaves c due).sendRaw p r.1 true {})
  else (s.pressLeaves c due).takeFrame State.stitchEth p r.1 s.tb.time16 true

/-- An iteration ends; the last one ends the channel, once its frames have left (R381, R382). -/
def State.pressIteration (s : State) (c : Nat) : State :=
  let x := s.chanP c
  if x.loops != 0 && decide (x.loops ≤ x.iter + 1) && s.cap.outq.any (·.chan == c) then s
  else if x.loops != 0 && decide (x.loops ≤ x.iter + 1) then (s.setChanP c { x with iter := x.iter + 1 }).pressEnd c stOK
  else s.setChanP c { x with iter := x.iter + 1, pos := 0 }

/-- The record whose header is `hd`: skipped (true: the walk goes on), waited for, or sent (R381 to R384). -/
def State.pressHeader (s : State) (c : Nat) (anchor : Int) (x : PressChan) (base : Nat) (hd : List Byte) : State × Bool :=
  let w := fun i => natOfBytes ((hd.drop (4 * i)).take 4)
  let len := w 1
  let total := 32 + (len + 7) / 8 * 8
  let next := x.pos + total
  let go := fun (s : State) => (s.setChanP c { s.chanP c with pos := next }, true)
  let kind := w 0 / 2 ^ 28
  if x.length < next then ((s.clampAt Reg.CAP_CLAMP_COUNT).setChanP c { x with pos := x.length }, true)
  else if w 0 % 256 != 1 then go s
  else
    let time : Int := (((w 3 + w 4 / 2 ^ 16 * 2 ^ 32) * 1000000000 + w 2) * 65536 + w 4 % 2 ^ 16 : Nat)
    let x := { x with first := some (x.first.getD time) }
    let s := s.setChanP c x
    let off := if x.timeFirst then time - x.first.getD time else time
    if kind != 1 && kind != 2 then go s
    else
      let p := w 0 / 2 ^ 16 % 4096
      let due := anchor + x.iter * s.pressPeriod x + off
      if s.pressPeriod x ≤ off then go (s.clampAt Reg.CAP_CLAMP_COUNT)
      else if s.pressSkips c kind p (w 0 / 2 ^ 8 % 256) len then go (s.bump (Reg.CAP_PRESS_SKIP c))
      else if s.tb.time16 < due || (kind == 2 && s.outBusy p && decide (65536 < s.outBytes p + len)) then (s, false)
      else
        let z := s.readModule (pressRequester c) (base + x.pos + 32) len
        match z.2 with
        | none => (z.1.pressEnd c stBAD, false)
        | some b => ((z.1.setChanP c { z.1.chanP c with pos := next, mode := .run }).pressEmit c kind p due b, false)

/-- One record of the channel's file: true where the walk goes on to the next. -/
def State.pressOne (s : State) (c : Nat) (anchor : Int) : State × Bool :=
  let x := s.chanP c
  let base := (if x.buffer then pressBase + c / 8 * 0x02000000 else 0) + x.addr
  if x.pos = x.length then (s.pressIteration c, false)
  else if x.length < x.pos + 32 then ((s.clampAt Reg.CAP_CLAMP_COUNT).setChanP c { x with pos := x.length }, true)
  else
    let y := s.readModule (pressRequester c) (base + x.pos) 32
    match y.2 with
    | none => (y.1.pressEnd c stBAD, false)
    | some hd => y.1.pressHeader c anchor x base hd

/-- Goes through the pattern up to its next FRAME record that is sent, or whose time has not come. -/
def State.pressWalk (s : State) (c : Nat) (anchor : Int) (fuel : Nat) : State :=
  match fuel with
  | 0 => s
  | n + 1 =>
    let r := s.pressOne c anchor
    if r.2 then r.1.pressWalk c anchor n else r.1

/-- PRESS_RECORD (R382). -/
def State.pressRecord (s : State) (c : Nat) : State :=
  let x := s.chanP c
  match x.anchor with
  | some (a, _) =>
    if x.mode = .idle ∨ s.tb.time16 < a + x.iter * s.pressPeriod x then s
    else (s.setChanP c { x with mode := .run }).pressWalk c a (x.length / 32 + 3)
  | none => s

def execPressRecord (chan : Nat) (s : State) : Res := s.whenClocked fun s => .next (s.pressRecord chan)

/-- CAP_PRESS_STATE_c. -/
def State.pressState (s : State) (c : Nat) : W32 :=
  let x := s.chanP c
  BitVec.ofNat 32 (x.iter % 2 ^ 24 * 2 ^ 8 + (match x.mode with | .idle => 0 | .wait => 1 | .run => 2))

end Sys2Proof.Machine
end

