-- ==== Sys2Proof/Machine/Boundary.lean ====
section
/-! DEFINITION. Boundaries (Slot grid and couching): slot abort and expiry, the couch of a half and of the module set, and
the tick in which boundaries fire. -/

namespace Sys2Proof.Machine

/-! ## Slot abort and expiry (R77, R78) -/

/-- A slot abort ends every operation of the carrier, half and slot (R77). (DEDUCED, log entry 32) -/
def State.slotAbort (s : State) (c : Nat) (h : Half) (n : Int) : State :=
  let s := (s.slotTasks c h n).foldl (fun s t => (s.cancelTask t).1) s
  let s := ((((s.abortStalls c h).enginesSlotAbort c h n).dmaSlotAbort c h n).fhSlotAbort c h n)
  let x := s.carrier c
  s.setCarrier c (x.setHalf h { x.half h with live := (x.half h).live.map (fun l => if l.slot = n then { l with aborted := true } else l) })

/-- Operations of the slot are still open (R77, R78): a task, an engine job, a DMA program, a detector context of a UL slot, a
qpop or qpush that stands stalled on a queue bound to the half. (DEDUCED, log entry 31) -/
def State.slotOpen (s : State) (c : Nat) (h : Half) (n : Int) : Bool :=
  !(s.slotTasks c h n).isEmpty || s.stallsOn c h || s.fhOpen c h n
    || s.engines.any (fun p => p.2.jobs.any (fun j => j.carrier == c && j.half == h && j.slotNum == n))
    || s.dma.chans.any (fun p => p.2.list.any (fun j => j.carrier == c && j.half == h && j.slotNum == n))
    || (h == .ul && s.spc.dets.any (fun p => p.2.claimed == some c &&
        ((p.2.ctx0.mode != 0 && (s.detPlace c p.2.ctx0.record p.2.ctx0.fft p.2.ctx0.t0).1 == n)
          || (p.2.ctx1.mode != 0 && (s.detPlace c p.2.ctx1.record p.2.ctx1.fft p.2.ctx1.t0).1 == n))))

/-- The carrier leaves DRAINING once nothing of it is left to expire (R74, R24). -/
def State.settleCarrier (s : State) (c : Nat) : State :=
  let x := s.carrier c
  let y := x.settle
  if x.mode == .draining && y.mode != .draining then (s.setCarrier c y).migDrained c else s

/-- A slot of a half expires (R78): what is still open is aborted and counted. (DEDUCED, log entry 31) -/
def State.expireSlot (s : State) (c : Nat) (h : Half) (n : Int) : State :=
  let s := s.fhCloseAll c h n
  let s := if s.slotOpen c h n then ((s.slotAbort c h n).bump (Reg.SLT_CEXPIRED c)).raise Reg.SLT_EVENT 1 else s
  let x := s.carrier c
  let stamp := stampOf x.cfg.spf n
  let s := s.setCarrier c (x.setHalf h { x.half h with live := (x.half h).live.filter (·.slot != n) })
  ((s.streamExpire c h stamp).fhExpire c h n).settleCarrier c

/-- The first slot of a half whose expiry boundary, that of slot S + 2 + EXPIRY, has come. -/
def State.expiryDue (s : State) (c : Nat) (h : Half) : Option Int :=
  let x := s.carrier c
  ((x.half h).live.find? (fun l =>
    decide (x.cfg.boundaryNs s.slt.originNs h (l.slot + 2 + x.cfg.expiry) * uPerNs ≤ s.tb.timeU))).map (·.slot)

/-- SLOT_EXPIRY (R78). -/
def State.slotExpiry (s : State) (c : Nat) (h : Half) : State :=
  match s.expiryDue c h with
  | some n => s.expireSlot c h n
  | none => s

/-- (DESIGN CHOICE, log entry 4) -/
def execSlotExpiry (carrier : Nat) (half : Half) (s : State) : Res := s.whenClocked fun s => .next (s.slotExpiry carrier half)

/-- The slot of a half that a SLOT_ABORT names and can still abort (R67, R77). (DEDUCED, log entry 32) -/
def State.abortTarget (s : State) (d : Desc) (c : Nat) (h : Half) : Option Int :=
  let x := (s.carrier c).half h
  let n : Option Int := if d.immediate then x.curSlot
    else x.curSlot.map (nearestSlot (slotPeriod (s.carrier c).cfg.spf) (stampIndex (s.carrier c).cfg.spf d.slot))
  match n with
  | none => none
  | some n => if x.live.any (fun l => l.slot == n && !l.aborted) then some n else none

/-- SLOT_ABORT (R67, R77). ABORT_LATE where no half it names had a slot to abort. (DEDUCED, log entry 32) -/
def State.slotAbortDesc (s : State) (d : Desc) : State :=
  let c := carrierField d.carrier
  let h0 := d.fld 0x10 1 0
  let half := if c = 0xFFFF then 1 else if h0 = 0 then 3 else h0
  let beyond := c != 0xFFFF && !d.immediate && decide ((s.carrier c).cfg.spf ≤ bitsOf d.slot 7 0)
  let cl := carrierClamped d.carrier || half != h0 || beyond
  let s := s.clampDesc d cl Reg.SLT_CLAMP_COUNT
  let ref := d.ref cl
  if c = 0xFFFF then s.completeAt ref stOK 0 true s.stampNow
  else if (s.carrier c).refusesWork then s.complete ref stDISABLED 0
  else
    let dl := if half = 1 then none else s.abortTarget d c .dl
    let ul := if half = 2 then none else s.abortTarget d c .ul
    let s := match dl with | some n => s.slotAbort c .dl n | none => s
    let s := match ul with | some n => s.slotAbort c .ul n | none => s
    s.completeAt ref stOK 0 (dl.isNone && ul.isNone) s.stampNow

def execSlotAbort (d : Desc) (s : State) : Res := s.whenClocked fun s => .next (s.slotAbortDesc d)

/-! ## Couches -/

/-- Completes the arms of a couched set: superseded arms OK, the arm that couches OK or LATE (R66, R68). -/
def State.completeArms (s : State) (gen : Nat) (time : W64) (l : List ArmRef) : State :=
  l.foldl (fun s a => s.completeAt a.ref (if a.late then stLATE else stOK) (gen % 65536) false time) s

/-- The push item of a half (R58, R62): flags START 1, STOP 2, UNARMED 4, LATE 8. -/
def State.pushHalf (s : State) (c : Nat) (h : Half) (n : Int) (flags : Nat) (time : W64) : State :=
  let x := s.carrier c
  let cfg := x.cfg
  let on := match h with | .ul => cfg.pushUl | .dl => cfg.pushDl
  let qid := match h with | .ul => cfg.pushQidUl | .dl => cfg.pushQidDl
  if !on then s
  else
    let y := x.half h
    let head := [BitVec.ofNat 32 (flags * 2 ^ 24 + halfNum h * 2 ^ 16 + c), stampOf cfg.spf n, BitVec.ofNat 32 y.feltGen,
      setWord y.felt 0 5, time.setWidth 32, (time >>> 32).setWidth 32, 0, 0]
    let words := head ++ (List.range 256).map (fun i => mapGet (fun _ => 0) y.felt i)
    let p := s.pushItem qid .slotGrid 7 (BitVec.ofNat 16 c) ((chunks 256 8 words).map qwOfWords)
    if p.2 = stOK then p.1 else (p.1.bump Reg.SLT_PUSH_DROP).raise Reg.SLT_EVENT 2

/-- The slot page's boundary events (R61). -/
def State.boundaryEvents (s : State) (w : SetWords) : State :=
  [1, 2, 3, 4].foldl (fun s i =>
    if Machine.setFld w 0 i 31 31 = 1 then s.notify .slotGrid (Machine.setFld w 0 i 16 0) (Machine.setFld w 0 i 21 17) else s) s

/-- At the couch that starts a carrier the HARQ fields are clamped once more (R247). -/
def State.startWords (s : State) (w : SetWords) : SetWords × Bool :=
  let h := s.clampHarq (setWord w 6 0) (setWord w 6 1)
  (mapSet (fun _ => 0) (mapSet (fun _ => 0) w 192 h.1) 193 h.2.1, h.2.2)

/-- The half processes slot `n` with its felt set: every block latches it (R57, R58). -/
def State.beginSlot (s : State) (c : Nat) (h : Half) (n : Int) (start : Bool) (flags : Nat) (time : W64) : State :=
  let x := s.carrier c
  let y := x.half h
  let s := s.setCarrier c (x.setHalf h { y with
    running := true, nextSlot := n + 1, curSlot := some n,
    live := y.live ++ [({ slot := n, words := y.felt, gen := y.feltGen } : SlotLatch)] })
  let s := match h with
    | .dl => s.pathBoundary c y.felt start (stampOf x.cfg.spf n)
    | .ul => s.detCouch c y.felt
  (s.boundaryEvents y.felt).pushHalf c h n flags time

/-- The couch that starts a half (R60, R74): the carrier page takes effect, the carrier's counters clear. -/
def State.startHalf (s : State) (c : Nat) (h : Half) (a : ArmedSet) : State :=
  let x := s.carrier c
  let w := s.startWords a.words
  let s := s.clampIf w.2 Reg.COD_CLAMP_COUNT
  let s := match h with
    | .dl => (s.wr (Reg.SLT_CCOUNT c) 0).wr (Reg.SLT_CEXPIRED c) 0
    | .ul => s
  let x := { x with pageFelt := x.pageArmed, mode := match h with | .ul => .running | .dl => x.mode }
  let s := s.setCarrier c (x.setHalf h { x.half h with felt := w.1, feltGen := a.gen, armed := none, live := [] })
  (s.emptyWbufs c h).fhStart c h

/-- The stop couch of a half (R58, R74): it couches its STOP set and processes no slot. (DEDUCED, log entry 30) -/
def State.stopHalf (s : State) (c : Nat) (h : Half) (a : ArmedSet) (n : Int) (time : W64) : State :=
  let x := s.carrier c
  let x := { x with mode := match h with | .ul => .draining | .dl => x.mode }
  let s := s.setCarrier c (x.setHalf h { x.half h with felt := a.words, feltGen := a.gen, armed := none, running := false, curSlot := some n })
  let s := match h with
    | .dl => s.pathOff c stREFUSED
    | .ul => s.detStop c
  let s := s.pushHalf c h n (2 + b2n a.late * 8) time
  let s := s.completeArms a.gen time a.refs
  match h with
  | .ul => (s.migCouch c n time).settleCarrier c
  | .dl => s

/-- The boundary of slot `n`, at which a disable acts on a half (R76). The carrier is DRAINING from the first of its halves'
boundaries. Jobs and programs of the half that wait for slot `n` or a later one are returned with DISABLED (R23).
(DEDUCED, log entry 91) -/
def State.disableHalf (s : State) (c : Nat) (h : Half) (n : Int) : State :=
  let s := s.discardArmed c h
  let x := s.carrier c
  let x := x.setHalf h { x.half h with running := false, disableNext := false, curSlot := some n }
  let s := s.setCarrier c { x with mode := .draining }
  let s := (s.returnJobs (fun j => j.carrier == c && j.half == h && decide (n ≤ j.slotNum))).returnProgs
    (fun p => p.carrier == c && p.half == h && decide (n ≤ p.slotNum))
  let s := match h with
    | .dl => s.pathOff c stDISABLED
    | .ul => s.detStop c
  s.settleCarrier c

/-- The boundary of slot `n` fires in a half (R53 to R58). A half that its stop or its disable has ended couches a set armed since
then and processes no slot. (DEDUCED, log entry 91) -/
def State.fireHalf (s : State) (c : Nat) (h : Half) (n : Int) : State :=
  let x := s.carrier c
  let y := x.half h
  let time := shortStampOf (x.cfg.boundaryNs s.slt.originNs h n * 65536)
  if y.disableNext then s.disableHalf c h n
  else
    match y.armed with
    | some a =>
      if a.slot = n then
        if a.stop then s.stopHalf c h a n time
        else
          let s := if a.start then s.startHalf c h a
            else s.setCarrier c (x.setHalf h { y with felt := a.words, feltGen := a.gen, armed := none })
          let s := if y.running || a.start then s.beginSlot c h n a.start (b2n a.start + b2n a.late * 8) time else s
          s.completeArms a.gen time a.refs
      else (s.bumpFld (Reg.SLT_CCOUNT c) 15 0 1).beginSlot c h n false 4 time
    | none => (s.bumpFld (Reg.SLT_CCOUNT c) 15 0 1).beginSlot c h n false 4 time

/-- The slot whose boundary a half awaits: the next one of a half that runs or is to be disabled, the armed one of another.
(DEDUCED, log entry 91) -/
def HalfState.awaits (y : HalfState) : Option Int :=
  if y.running || y.disableNext then some y.nextSlot
  else match y.armed with
    | some a => some a.slot
    | none => none

/-- Fires the boundary of a half that is due. (DESIGN CHOICE, log entry 29) -/
def State.fireDue (s : State) (c : Nat) (h : Half) : State :=
  let x := s.carrier c
  match (x.half h).awaits with
  | some n => if x.cfg.boundaryNs s.slt.originNs h n * uPerNs ≤ s.tb.timeU then s.fireHalf c h n else s
  | none => s

/-- The module set couches at a reference frame boundary (R72). (DESIGN CHOICE, log entry 29) -/
def State.moduleCouch (s : State) (n : Int) : State :=
  match s.slt.modSet.armed with
  | some a =>
    if a.slot ≤ n then
      let s := s.settleOffers
      let time := shortStampOf ((s.slt.originNs + n * frameNs) * 65536)
      { s with slt.modBefore := s.slt.modSet.felt,
               slt.modCouch := (s.slt.originNs + n * frameNs) * 65536,
               slt.modSet := { s.slt.modSet with felt := a.words, feltGen := a.gen, armed := none } }.completeArms a.gen time a.refs
    else s
  | none => s

/-- The reference frame boundary, where it is due (R50, R53, R72): the module-set couch, the group root's TICK (R346) and the MARK
of each Vat half (R363). (DESIGN CHOICE, log entry 29) -/
def State.fireFrame (s : State) : State :=
  let n := s.slt.nextFrame
  if (s.slt.originNs + n * frameNs) * uPerNs ≤ s.tb.timeU then
    (({ s with slt.nextFrame := n + 1 }.moduleCouch n).sendTick n).vatMark
  else s

/-- Every expiry of a half that is due, oldest slot first; at most five slots of a half live at once (R77).
(DESIGN CHOICE, log entry 29) -/
def State.expireDue (s : State) (c : Nat) (h : Half) (fuel : Nat) : State :=
  match fuel with
  | 0 => s
  | k + 1 =>
    match s.expiryDue c h with
    | some n => (s.expireSlot c h n).expireDue c h k
    | none => s

/-- BOUNDARY_FIRE (R53): all that is due in this tick, in its order: slot expiries, the module-set couch, carrier couches
in ascending carrier ID, DL before UL. (DESIGN CHOICE, log entries 6, 29) -/
def State.boundaryFire (s : State) : State :=
  let ids := mapKeys s.slt.carriers
  let s := ids.foldl (fun s c => (s.expireDue c .dl 8).expireDue c .ul 8) s
  let s := s.fireFrame
  ids.foldl (fun s c => (s.fireDue c .dl).fireDue c .ul) s

/-- (DESIGN CHOICE, log entry 4) -/
def execBoundaryFire (s : State) : Res := s.whenClocked fun s => .next s.boundaryFire

/-! ## Registers that report (R79) -/

def CarrierMode.code : CarrierMode → Nat
  | .stopped => 0 | .starting => 1 | .running => 2 | .draining => 3 | .disabled => 4

def State.cState (s : State) (c : Nat) : W32 :=
  let x := s.carrier c
  BitVec.ofNat 32 (b2n x.dl.armed.isSome * 2 ^ 7 + b2n x.ul.armed.isSome * 2 ^ 6 + b2n (x.mode == .draining) * 2 ^ 5 + x.mode.code)
/-- (DEDUCED, log entry 30) -/
def State.cSlot (s : State) (c : Nat) : W32 :=
  match (s.carrier c).ul.curSlot with
  | some n => stampOf (s.carrier c).cfg.spf n
  | none => 0
def State.cMould (s : State) (c : Nat) : W32 :=
  BitVec.ofNat 32 ((s.carrier c).dl.gen % 65536 * 2 ^ 16 + (s.carrier c).ul.gen % 65536)

/-- A carrier that no half runs is disabled at once: everything that waits for it is returned DISABLED (R23). -/
def State.returnCarrier (s : State) (c : Nat) : State :=
  (((s.returnJobs (fun j => j.carrier == c)).returnProgs (fun p => p.carrier == c)).pathOff c stDISABLED).detStop c

/-- A disable of a carrier, with what it means to a migration of the carrier (R23, R74, R357). -/
def State.disableCarrier (s : State) (c : Nat) : State :=
  let was := (s.carrier c).mode
  let s := s.carrierDisable c
  (if (s.carrier c).mode == .disabled && was != .disabled then s.returnCarrier c else s).migDisable c

/-- CARRIER_DISABLE (R74, R76), with what it means to a migration of the carrier (R357). -/
def execCarrierDisable (d : Desc) (s : State) : Res := s.whenClocked fun s =>
  .next (s.carrierCtrl d false State.disableCarrier)

end Sys2Proof.Machine
end

