-- ==== Sys2Proof/Machine/ModuleMemory.lean ====
section
/-! DEFINITION. Module memory as its own commands see it (Module memory): fills, accesses at a channel controller, the BAR4
window, patrol scrub, retraining, temperature, error injection, and the end of initialisation. -/

namespace Sys2Proof.Machine

/-- Requester numbers of the Host Port and of the Colophon (R131). -/
def hostRequester : Nat := 143
def colophonRequester : Nat := 144

def State.memChan (s : State) (c : Nat) : MemChan := mapGet (fun _ => {}) s.mm.chans c
def State.setMemChan (s : State) (c : Nat) (x : MemChan) : State :=
  if c < 16 then { s with mm.chans := mapSet (fun _ => {}) s.mm.chans c x } else s

/-- The Spine address of offset `o` of channel `c` under a map: the inverse of `locate` (R388). -/
def spineOf (map c o : Nat) : Nat :=
  if map = 0 then o / 2 ^ 8 * 2 ^ 12 + (c ^^^ (o / 2 ^ 8 % 16)) * 2 ^ 8 + o % 2 ^ 8
  else if map = 1 then
    c / 8 * 2 ^ 38 + o / 2 ^ 8 * 2 ^ 11 + ((c % 8) ^^^ (o / 2 ^ 9 % 8)) * 2 ^ 8 + o % 2 ^ 8
  else c * 2 ^ 35 + o

/-! ## Fill -/

/-- ADDR and LENGTH of a MEM_FILL after their clamps, and whether one was clamped (R398). -/
def fillFields (d : Desc) : Nat × Nat × Bool :=
  let a := (d.w64 0x10).toNat
  let n := (d.w64 0x18).toNat
  let a' := a / 64 * 64
  let n' := min (n / 64 * 64) (memSize - a')
  (a', n', a != a' || n != n')

/-- MEM_FILL (R398): the fill is accepted; a LENGTH of 0 completes OK at once. Before MEM_READY every access to module
memory is a bus error, and the fill ends BAD (R392, R393). (DEDUCED, log entry 74) -/
def State.memFill (s : State) (d : Desc) : State :=
  let f := fillFields d
  let s := s.clampDesc d f.2.2 (blockBase .mem + 0xC0)
  let ref := d.ref f.2.2
  if f.2.1 = 0 then s.complete ref stOK 0
  else if !s.glb.memReady then s.complete ref stBAD 0
  else { s with mm.fills := s.mm.fills ++ [({ ref := ref, addr := f.1, words := f.2.1 / 64, pattern := d.w64 0x20 } : Fill)] }

def execMemFill (d : Desc) (s : State) : Res := s.whenClocked fun s => .next (s.memFill d)

/-- Every channel writes what is left of its share. (DEDUCED, log entry 74) -/
def State.fillAll (s : State) (f : Fill) : State :=
  ((List.range 16).foldl (fun x c => x.1.fillThrough x.2 c (2 ^ 35)) (s, f)).1

/-- FILL_DONE (R398): the last word of the fill has been written, and it completes OK. -/
def State.fillDone (s : State) (ring : Nat) (tag : W32) : State :=
  match s.mm.fills.find? (fun f => f.ref.ring == ring && f.ref.tag == tag) with
  | none => s
  | some f => ({ s with mm.fills := s.mm.fills.erase f }.fillAll f).complete f.ref stOK 0

/-- (DESIGN CHOICE, log entry 4) -/
def execFillDone (ring : Nat) (tag : W32) (s : State) : Res := s.whenClocked fun s => .next (s.fillDone ring tag)

/-! ## Accesses -/

/-- CHANNEL_ACCESS (R388 to R392): a requester's access reaches module memory. -/
def execChannelAccess (addr : Nat) (write : Bool) (data : List Byte) (bytes requester : Nat) (s : State) : Res := s.whenClocked fun s =>
  .next (if addr < memSize then s.busAccess requester addr write data bytes else s)

/-- A BAR4 read of module memory that is ready: where an uncorrectable word ended it, its completion carries poisoned data (R392). -/
def State.notePoison (s : State) (a n : Nat) : State :=
  { s with mm.poisoned := !s.bus.1 && s.glb.memReady && (piecesOf a n).all (fun p => spineTarget p.1 == .module) }

/-- BAR4_ACCESS (R80, R399): a TLP to the window. While the module is frozen, or its PF in reset, it is answered with Completer Abort;
before MEM_READY a read completes with Completer Abort and a write is discarded (R393). A read of an uncorrectable word completes
with poisoned data (R392). (DEDUCED, log entry 76) -/
def State.bar4Access (s : State) (offset : Nat) (write : Bool) (data : List Byte) (n : Nat) : State :=
  if 2 ^ 32 ≤ offset ∨ (if write then 512 < data.length else 4096 < n) then s
  else if s.glb.frozen || (s.fnOf 0).flr || !s.glb.coreReady then { s with bus := (false, []), mm.poisoned := false }
  else
    let a := s.fld Reg.MEM_WIN_BASE 18 0 * 2 ^ 20 + offset
    let s := s.busAccess hostRequester a write data n
    if write then { s with mm.poisoned := false } else s.notePoison a n

/-- The Host Port of a frozen module answers too (R112). -/
def execBar4Access (offset : Nat) (write : Bool) (data : List Byte) (bytes : Nat) (s : State) : Res :=
  .next (if s.clocked || (s.glb.frozen && s.rst.power == .on && !s.pwr.asleep && !s.rst.warmHeld) then s.bar4Access offset write data bytes else s)

/-! ## Scrub, retraining, temperature -/

/-- The patrol scrub reads the next word of a channel (R395). (DEDUCED, log entry 75) -/
def State.scrubWord (s : State) (c : Nat) : State :=
  let w := s.fld (Reg.MEM_CH_SCRUB c) 28 0
  let p := c * 2 ^ 35 + w * 64
  let n := s.errorMarks p
  let s := if n = 0 then s
    else if n = 1 then s.corrected c p
    else s.uncorrectable colophonRequester c (w * 64) (spineOf s.mm.mapActive c (w * 64))
  s.setFld (Reg.MEM_CH_SCRUB c) 28 0 ((w + 1) % 2 ^ 29)

/-- PATROL_SCRUB (R395, R397): the next word is read, unless a retraining of the channel makes the scrub wait.
(DEDUCED, log entry 75) -/
def State.patrolScrub (s : State) (c : Nat) : State :=
  if 16 ≤ c ∨ s.fld Reg.MEM_CFG 23 16 = 0 ∨ !s.glb.memReady then s
  else
    let x := s.requestActivity (.scrub c)
    if x.2 then (x.1.scrubWord c).endActivity (.scrub c) else x.1

def execPatrolScrub (chan : Nat) (s : State) : Res := s.whenClocked fun s => .next (s.patrolScrub chan)

/-- A retraining ends: counted, and where it failed the old settings stay and a retry follows (R396). (DEDUCED, log entry 75) -/
def State.retrainEnds (s : State) (c : Nat) (ok : Bool) : State :=
  let s := (s.endActivity (.retrain c)).bumpFld (Reg.MEM_CH_TRAIN c) 15 0 1
  if ok then s
  else ((s.bumpFld (Reg.MEM_CH_TRAIN c) 31 16 1).setMemChan c { s.memChan c with retryDue := true }).raise Reg.MEM_EVENT 3

/-- The training of a channel after a reset ends before MEM_READY (R393, R396): it reads TRAINED, a cold reset's zero fill still runs;
the one on exit from self-refresh is a retraining, counted, and where it failed the settings before the reset stay in force and a
retry follows. (DEDUCED, log entry 75) -/
def State.resetTrain (s : State) (c : Nat) (ok : Bool) : State :=
  let x := s.memChan c
  if !s.glb.coreReady || x.trained then s
  else
    let s := s.setMemChan c { x with trained := true, selfRefresh := false }
    if s.rst.coldMem then s else s.retrainEnds c ok

/-- CHANNEL_RETRAIN (R396, R397): a periodic retraining is requested, which RETRAIN_MIN 0 turns off, or the one that runs ends. -/
def State.channelRetrain (s : State) (c : Nat) (ends : Option Bool) : State :=
  if 16 ≤ c then s
  else if !s.glb.memReady then (match ends with | some ok => s.resetTrain c ok | none => s)
  else match ends with
  | none => if s.fld Reg.MEM_CFG 15 8 = 0 then s else (s.requestActivity (.retrain c)).1
  | some ok => if s.activityRuns (.retrain c) then s.retrainEnds c ok else s

def execChannelRetrain (chan : Nat) (ends : Option Bool) (s : State) : Res := s.whenClocked fun s => .next (s.channelRetrain chan ends)

/-- RETRAIN_RETRY (R396): due 1 s after a failure. -/
def State.retrainRetry (s : State) (c : Nat) : State :=
  if (s.memChan c).retryDue then
    ((s.setMemChan c { s.memChan c with retryDue := false }).requestActivity (.retrain c)).1
  else s

def execRetrainRetry (chan : Nat) (s : State) : Res := s.whenClocked fun s => .next (s.retrainRetry chan)

/-- MR4_READ (R394, R396): the hottest die sets the channel's TEMP code; a change of the code retrains the channel, and a
die above 95 °C sets HOT. -/
def State.mr4Read (s : State) (c temp : Nat) : State :=
  if 16 ≤ c ∨ !s.glb.memReady then s
  else
    let t := min temp 4
    let changed := (s.memChan c).temp != t
    let s := s.setMemChan c { s.memChan c with temp := t }
    let s := if t = 4 then s.raise Reg.MEM_EVENT 2 else s
    if changed then (s.requestActivity (.retrain c)).1 else s

def execMr4Read (chan temp : Nat) (s : State) : Res := s.whenClocked fun s => .next (s.mr4Read chan temp)

/-- BANK_REFRESH (R387, R394): a bank is refreshed. The refresh only takes time: no state of the module changes. -/
def execBankRefresh (_chan _bank : Nat) (s : State) : Res := s.whenClocked fun s => .next s

/-! ## Error injection and the error latch -/

/-- ECC_INJECT (R400): a write of MEM_INJ_CMD corrupts one or two further symbols of the addressed word. -/
def State.eccInject (s : State) (v : W32) : State :=
  let kind := min (bitsOf v 1 0) 2
  let s := (s.writeTable Reg.MEM_INJ_CMD v).wr Reg.MEM_INJ_CMD 0
  let a := s.fld Reg.MEM_INJ_HI 6 0 * 2 ^ 32 + (s.rd Reg.MEM_INJ_LO).toNat
  let p := devicePlace s.mm.mapActive a
  if kind = 0 then s else s.setMarks p (min 80 (s.errorMarks p + kind))

def execEccInject (value : W32) (s : State) : Res := .next (s.hostWriteTo Reg.MEM_INJ_CMD (·.eccInject value))

/-- UE_ADDR_REARM (R400): a write of MEM_UE_ADDR_HI; clearing VALID rearms the latch. -/
def execUeAddrRearm (value : W32) (s : State) : Res :=
  .next (s.hostWriteTo Reg.MEM_UE_ADDR_HI (·.writeTable Reg.MEM_UE_ADDR_HI value))

/-! ## Initialisation -/

/-- MEM_INIT_DONE (R393, R414): every channel is trained and, after a cold reset, all of module memory holds zeros with
valid check bytes; MEM_READY becomes 1. An exit from self-refresh is a retraining of every channel (R396).
(DEDUCED, log entry 75) -/
def State.memInitDone (s : State) : State :=
  if !s.glb.coreReady || s.glb.memReady then s
  else
    let left := (List.range 16).filter (fun c => !(s.memChan c).trained)
    let s := { s with
      glb.memReady := true
      mm := { s.mm with
        initBusy := false
        chans := (List.range 16).foldl (fun m c =>
          mapSet (fun _ => {}) m c { mapGet (fun _ => ({} : MemChan)) m c with trained := true, selfRefresh := false }) s.mm.chans } }
    if s.rst.coldMem then
      { s with mem := s.mem.filter (fun p => decide (memSize ≤ p.1)), mm.marks := [], rst.coldMem := false }
    else left.foldl (fun s c => s.bumpFld (Reg.MEM_CH_TRAIN c) 15 0 1) s

def execMemInitDone (s : State) : Res := s.whenClocked fun s => .next s.memInitDone

/-! ## Registers that report -/

/-- MEM_STATUS and MEM_CH_STATUS_c (R400). -/
def State.memStatus (s : State) : W32 :=
  BitVec.ofNat 32 (b2n s.glb.memReady * 2 ^ 31 + b2n s.mm.initBusy * 2 ^ 30 + s.mm.mapActive % 4 * 2 ^ 16
    + ((List.range 16).map (fun c => b2n (s.memChan c).trained * 2 ^ c)).sum)
def State.memChStatus (s : State) (c : Nat) : W32 :=
  let x := s.memChan c
  BitVec.ofNat 32 (b2n x.trained * 2 ^ 31 + b2n (s.activityRuns (.retrain c)) * 2 ^ 30
    + b2n (s.activityWaits (.scrub c)) * 2 ^ 29 + b2n x.selfRefresh * 2 ^ 28 + b2n (decide (2 ≤ x.temp)) * 2 ^ 27 + x.temp % 8)

end Sys2Proof.Machine
end

