-- ==== Sys2Proof/Machine/HostReset.lean ====
section
/-! DEFINITION. Disabling rings, function-level reset and link loss (Host port, rings and doorbells; R106 to R112), which reach
into every block that holds work of a ring. -/

namespace Sys2Proof.Machine

/-! ## Work of a ring -/

/-- The descriptor an engine job came in, where it came in one. -/
def EngJob.fromRing (j : EngJob) (p : DRef → Bool) : Bool :=
  match j.origin with
  | .host r => p r
  | .queue _ => false

def DmaProg.fromRing (g : DmaProg) (p : DRef → Bool) : Bool :=
  match g.origin with
  | .host r => p r
  | .item _ _ _ _ => false


/-- Posted buffers and host frames that wait complete DISABLED. (DEDUCED, log entry 35) -/
def State.returnBuffers (s : State) (p : DRef → Bool) : State :=
  let refs := (s.fh.bufs.filter (fun b => p b.ref)).map (·.ref) ++ (s.fh.hostTx.filter (fun b => p b.ref)).map (·.ref)
    ++ [0, 1].flatMap (fun h => ((s.vat h).bufs.filter (fun b => p b.ref)).map (·.ref))
  let s := { s with fh := { s.fh with bufs := s.fh.bufs.filter (fun b => !p b.ref), hostTx := s.fh.hostTx.filter (fun b => !p b.ref) } }
  let t := [0, 1].foldl (fun s h => (s.setVat h { s.vat h with bufs := (s.vat h).bufs.filter (fun b => !p b.ref) }).settleSpill h) s
  (s.vatEvents t).completeAll refs stDISABLED

/-- A path request and every enable that waits for a drain end with a status where `p` names their descriptor (R25, R108); an
enable all of whose descriptors ended is no longer pending. (DEDUCED, log entry 35) -/
def State.endRequests (s : State) (p : DRef → Bool) (st : Nat) : State :=
  let stays := fun (refs : List DRef) => refs.isEmpty || refs.any (fun r => !p r)
  let reqs := s.spc.paths.flatMap (fun x => x.2.requests.filter p)
  let s := { s with spc.paths := mapMapSet (fun _ => {}) (fun _ x => { x with requests := x.requests.filter (fun r => !p r) }) s.spc.paths }
  let a := s.engines.flatMap (fun x => x.2.enableRefs.filter p)
  let s := { s with engines := mapMapSet (fun _ => {}) (fun _ x =>
    { x with enableRefs := x.enableRefs.filter (fun r => !p r), enablePending := x.enablePending && stays x.enableRefs }) s.engines }
  let b := s.dma.chans.flatMap (fun x => x.2.enableRefs.filter p)
  let s := { s with dma.chans := mapMapSet (fun _ => {}) (fun _ x =>
    { x with enableRefs := x.enableRefs.filter (fun r => !p r), enablePending := x.enablePending && stays x.enableRefs }) s.dma.chans }
  let c := s.qm.queues.flatMap (fun x => x.2.enableRefs.filter p)
  let s := { s with qm.queues := mapMapSet (fun _ => {}) (fun _ x =>
    { x with enableRefs := x.enableRefs.filter (fun r => !p r), enablePending := x.enablePending && stays x.enableRefs }) s.qm.queues }
  s.completeAll (reqs ++ a ++ b ++ c) st

/-- Disables a submission ring (R108): what is fetched and not delivered, and what is delivered and waits, completes
DISABLED; started operations run to their end. (DEDUCED, log entry 35) -/
def State.disableRing (s : State) (q : Nat) : State :=
  let s := s.setRing q { s.ring q with enable := false, enablePending := false }
  let refs := (s.hp.fetched.filter (fun f => f.desc.ring == q)).map (fun f => f.desc.ref false)
  let s := { s with hp.fetched := s.hp.fetched.filter (fun f => f.desc.ring != q) }.completeAll refs stDISABLED
  let p := fun (r : DRef) => r.ring == q
  (((s.returnJobs (·.fromRing p)).returnProgs (·.fromRing p)).returnBuffers p).endRequests p stDISABLED

/-- BUS_MASTER_ENABLE (R104); in reset the configuration write is answered with a request to retry (R110). The ends of programs
whose writes have gone out follow (R94). -/
def execBusMasterEnable (fn : Nat) (s : State) : Res := s.whenClocked fun s =>
  .next (if s.fnExists fn && !(s.fnOf fn).flr then (s.busMasterEnable fn).settleEnded else s)

/-! ## The ring context commit -/

/-- Applies the staged context by the ENABLE transition (R106, R107, R109). (DEDUCED, log entry 35) -/
def State.applyRctx (s : State) : State :=
  let q := s.fld Reg.HP_RCTX_SEL 15 0
  let old := s.ring q
  let new := s.stagedRing old
  let cc := Reg.HP_CLAMP_COUNT
  if (s.queue q).kind != 1 then s.clampIf new.enable cc
  else match old.enable, new.enable with
  | false, false => s.setRing q new
  | false, true =>
    if !s.ringEnableOk new then (s.setRing q { new with enable := false }).clampAt cc
    else if old.openCount != 0 then s.setRing q { new with enable := false, enablePending := true }
    else s.setRing q new.started
  | true, true => (s.setRing q (old.withSoft new)).clampIf (old.hardDiffers new) cc
  | true, false =>
    if old.completion then (if s.cqInUse q then s.clampAt cc else s.setRing q { old with enable := false })
    else s.disableRing q

/-- A write of HP_RCTX_CMD (R106). -/
def State.rctxCommit (s : State) (v : W32) : State :=
  s.rctxGate fun s => if bitOf v 0 then { s.applyRctx with hp.busy := true } else s

def execRingCommit (value : W32) (s : State) : Res := .next (s.hostWriteTo Reg.HP_RCTX_CMD (·.rctxCommit value))

/-! ## Function-level reset -/

/-- Disables a ring as a function-level reset does (R110): a completion ring once RESERVED is 0. -/
def State.flrRing (s : State) (q : Nat) : State :=
  let r := s.ring q
  if !r.enable then s.setRing q { r with enablePending := false }
  else if r.completion then
    s.setRing q (if r.openCount = 0 then { r with enable := false } else { r with disableAtZero := true })
  else s.disableRing q

/-- One function enters reset (R110): host writes of it that are outstanding are dropped, its rings disabled, its MSI-X
table, PBA and configuration cleared. -/
def State.flrStart (s : State) (f : Nat) : State :=
  let fn := s.fnOf f
  let s := s.setFn f { flr := true }
  let s := fn.waiting.foldl (fun s w => (s.dropWrite w).dropEvent) s
  let s := { s with hp := { s.hp with msix := s.hp.msix.filter (fun p => decide (p.1 / 32 ≠ f)),
                                      pba := s.hp.pba.filter (fun v => decide (v / 32 ≠ f)) } }
  (mapKeys s.hp.rings).foldl (fun s q => if (s.ring q).owner = f then s.flrRing q else s) s.settleEnded

/-- Resets function `f`; a reset of the PF clears VF Enable and takes every VF with it (R111). -/
def State.functionReset (s : State) (f : Nat) : State :=
  if f = 0 then
    let n := if s.hp.vfEnable then s.hp.numVfs else 0
    let s := (List.range (n + 1)).foldl State.flrStart s
    { s with hp.vfEnable := false }
  else s.flrStart f

/-- FLR (R110, R111). -/
def execFlr (fn : Nat) (s : State) : Res := s.whenClocked fun s =>
  .next (if s.fnExists fn && !(s.fnOf fn).flr then (s.functionReset fn).raise Reg.HP_EVENT 2 else s)

/-- No operation on the function's behalf remains open: its rings have nothing fetched or reserved, and the channels that act
in its name hold no program (R110). (DEDUCED, log entry 36) -/
def State.fnIdle (s : State) (f : Nat) : Bool :=
  s.hp.rings.all (fun p => (if p.2.completion then p.2.owner else p.2.openOwner) != f || p.2.openCount == 0)
    && s.hp.inFlight.all (fun b => (s.ring b.ring).openOwner != f)
    && s.dma.chans.all (fun p => s.chanFn p.1 != f || p.2.list.isEmpty)
    && s.dma.ended.all (fun e => e.behalf.fn != f)

/-- FLR_DONE (R110): the function is ready again. (DEDUCED, log entry 36) -/
def State.flrDone (s : State) (f : Nat) : State :=
  if (s.fnOf f).flr && s.fnIdle f then (s.setFn f { s.fnOf f with flr := false }).deliverLinkDown else s

def execFlrDone (fn : Nat) (s : State) : Res := s.whenClocked fun s => .next (s.flrDone fn)

/-! ## What is still open 90 ms after a reset began (R25, R110) -/

/-- Takes the descriptors `p` names out of an armed set: the set stays armed, since no function-level reset touches carrier
contexts and their sets (R111). -/
def HalfState.dropRefs (h : HalfState) (p : DRef → Bool) : HalfState :=
  { h with armed := h.armed.map (fun a => { a with refs := a.refs.filter (fun r => !p r.ref) }) }
def HalfState.refsOf (h : HalfState) (p : DRef → Bool) : List DRef :=
  match h.armed with
  | some a => (a.refs.map (·.ref)).filter p
  | none => []

def State.abortArms (s : State) (p : DRef → Bool) : State :=
  let refs := s.slt.modSet.refsOf p ++ s.slt.carriers.flatMap (fun c => c.2.dl.refsOf p ++ c.2.ul.refsOf p)
  { s with slt := { s.slt with
      modSet := s.slt.modSet.dropRefs p
      carriers := mapMapSet (fun _ => {}) (fun _ c => { c with ul := c.ul.dropRefs p, dl := c.dl.dropRefs p }) s.slt.carriers } }.completeAll refs stABORTED

/-- Loads, queue writes and fills that `p` names end ABORTED. -/
def State.abortHostOps (s : State) (p : DRef → Bool) : State :=
  let loads := (s.slt.loads.map (·.ref)).filter p
  let s := { s with slt.loads := s.slt.loads.filter (fun l => !p l.ref) }.completeAll loads stABORTED
  let writes := s.qm.writes.filter (fun w => p w.ref)
  let s := writes.foldl (fun s w =>
    let s := if w.opened then s.rewindItem w.qid (.host w.ref.ring w.ref.tag) true else s
    { s with qm.writes := s.qm.writes.filter (· != w) }.complete w.ref stABORTED 0) s
  let fills := (s.mm.fills.map (·.ref)).filter p
  { s with mm.fills := s.mm.fills.filter (fun f => !p f.ref) }.completeAll fills stABORTED

/-- Press channels, STOP descriptors of the Vat and migrations that `p` names end ABORTED. -/
def State.abortLong (s : State) (p : DRef → Bool) : State :=
  let stops := (s.cap.stops.filter (fun x => p x.1)).map (·.1)
  let s := { s with cap.stops := s.cap.stops.filter (fun x => !p x.1) }.completeAll stops stABORTED
  let s := (mapKeys s.cap.press).foldl (fun s c =>
    match (s.chanP c).ref with
    | some r => if p r then s.pressEnd c stABORTED else s
    | none => s) s
  s.stf.migrations.foldl (fun s m =>
    if p m.ref && !m.completed then (s.dropMigration m).complete m.ref stABORTED 0 else s) s

/-- Every open operation whose descriptor `p` names ends ABORTED (R25). (DEDUCED, log entry 36) -/
def State.abortOpen (s : State) (p : DRef → Bool) : State :=
  let s := ((s.abortJobs 0 (·.fromRing p) spaUndo).abortJobs 1 (·.fromRing p) (fun s _ => s)).abortJobs 2 (·.fromRing p) (fun s _ => s)
  let s := (mapKeys s.dma.chans).foldl (fun s c => s.abortProgs c (·.fromRing p)) s
  (((s.abortArms p).abortHostOps p).endRequests p stABORTED).abortLong p

/-- FLR_TIMEOUT (R110): 90 ms after the reset began, what is still open is aborted.
(DESIGN CHOICE, log entry 5; DEDUCED, log entry 36) -/
def execFlrTimeout (fn : Nat) (s : State) : Res := s.whenClocked fun s =>
  .next (if (s.fnOf fn).flr then
      let s := (mapKeys s.dma.chans).foldl (fun s c => if s.chanFn c = fn then s.abortProgs c (fun _ => true) else s) s
      s.abortOpen (fun r => (s.ring r.ring).openOwner == fn)
    else s)

/-! ## Link loss and PERST_N (R112). Without functional clocks only the link and configuration space follow (R433). -/

/-- Sets HP_EVENT.FLR and LINK_DOWN together: their one assertion waits for the link (R112, R468). (DEDUCED, log entry 37) -/
def State.raiseLinkDown (s : State) : State :=
  let old := s.rd Reg.HP_EVENT
  let rises := (5#32 &&& ~~~old) &&& s.rd Reg.HP_EVENT_EN != 0
  { s.wr Reg.HP_EVENT (old ||| 5#32) with hp.linkDownHeld := s.hp.linkDownHeld || rises }

/-- The data link goes down: a reset of the PF begins, and LINK_DOWN is set also (R112, R113). (DEDUCED, log entry 37) -/
def State.linkDown (s : State) : State := ({ s with hp := { s.hp with dlUp := false } }.functionReset 0).raiseLinkDown

def execLinkDown (s : State) : Res :=
  .next (if !s.hp.dlUp then s else if s.clocked then s.linkDown else { s with hp.dlUp := false })

/-- PERST_N is asserted: a reset of the PF, configuration space at its reset values, and no ring enabled. -/
def State.perst (s : State) : State :=
  let s := s.linkDown
  let s := (mapKeys s.hp.rings).foldl (fun s q =>
    if (s.ring q).completion then s.setRing q { s.ring q with enable := false, disableAtZero := false } else s.disableRing q) s
  { s with hp := { s.hp with
      numVfs := 0, msix := [], pba := []
      fns := mapMapSet (fun _ => {}) (fun _ x => ({ flr := x.flr } : PcieFn)) s.hp.fns } }

def execPerst (s : State) : Res :=
  .next (if s.clocked then s.perst else { s with hp := { s.hp with dlUp := false, fns := [], vfEnable := false, numVfs := 0 } })

/-- DATA_LINK_UP (R112, R414): LINK_DOWN becomes deliverable and PE_WAKE_N is released. -/
def execDataLinkUp (s : State) : Res :=
  .next (if s.rst.power != .on || s.pwr.asleep then s
    else if s.clocked then { s with hp.dlUp := true, pwr.peWake := false }.deliverLinkDown else { s with hp.dlUp := true })

end Sys2Proof.Machine
end

