-- ==== Sys2Proof/Machine/Bundle.lean ====
section
/-! DEFINITION. The encodings of a leaf's bundles, bit for bit (R183 to R194): a 64-bit bundle as the operations of its
slots. An opcode the manual does not list performs no operation, and reserved bits are ignored. -/

namespace Sys2Proof.Machine

/-- Bits `hi` to `lo` of a number. -/
def nb (x hi lo : Nat) : Nat := x / 2 ^ lo % 2 ^ (hi + 1 - lo)

/-- VOP codes (R187). -/
def vopOf (c : Nat) : VOp :=
  match c with
  | 0x01 => .add | 0x02 => .sub | 0x03 => .neg | 0x04 => .shl | 0x05 => .shr | 0x06 => .conj | 0x07 => .mov
  | 0x08 => .and | 0x09 => .or | 0x0A => .xor | 0x0B => .mulj | 0x0C => .bcast
  | 0x20 => .aclr | 0x21 => .sac | 0x22 => .aadd | 0x23 => .amov | 0x24 => .asum
  | c => if 0x10 ≤ c ∧ c ≤ 0x1B then .mac (c / 4 % 4) (c % 4) else .nop

/-- A V slot (R186), bits relative to the slot. -/
def vSlot (x : Nat) : LeafOp := .v (vopOf (nb x 22 17)) (nb x 16 13) (nb x 12 9) (nb x 8 5) (nb x 4 0)

/-- SOP codes (R188); code 0 is rep where GD is 1. -/
def sSlot (x : Nat) : LeafOp :=
  let gd := nb x 14 10
  let op : SOp := match nb x 17 15 with
    | 0 => if gd = 1 then .rep else .nop
    | 1 => .add | 2 => .sub | 3 => .and | 4 => .or | 5 => .xor | 6 => .shl | _ => .sra
  .s op gd (nb x 9 5) (nb x 4 0)

/-- An X or Y slot of format P (R192). -/
def memSlot (isX : Bool) (x : Nat) : LeafOp := .mem isX (nb x 10 9) (nb x 8 7) (nb x 6 4) (nb x 3 0)

/-- COP codes (R190). -/
def copOf (c : Nat) : COp :=
  match c with
  | 0x01 => .addi | 0x02 => .mov | 0x03 => .mulg | 0x04 => .shr | 0x05 => .slt | 0x06 => .sltu | 0x07 => .min | 0x08 => .max
  | 0x10 => .br | 0x11 => .beqz | 0x12 => .bnez | 0x13 => .bltz | 0x14 => .bgez | 0x15 => .jal | 0x16 => .jr | 0x17 => .babt
  | 0x18 => .rep | 0x20 => .fetch | 0x21 => .qpop | 0x22 => .qpush | 0x23 => .qcommit | 0x24 => .qrewind | 0x25 => .signal
  | 0x26 => .release | 0x28 => .statw | 0x29 => .statr | 0x30 => .halt
  | _ => .nop

/-- The control operation of format C (R189); rep keeps its count, bits 15:0, whole. -/
def cSlot (x : Nat) : LeafOp :=
  .c (copOf (nb x 37 32)) (nb x 31 26) (nb x 25 20) (nb x 19 14) (if nb x 37 32 = 0x18 then nb x 15 0 else nb x 13 0)

/-- The immediate operation of format I (R191): IOP 0 movi, 1 addw. -/
def immSlot (x : Nat) : List LeafOp :=
  if nb x 60 57 = 0 then [.imm false (nb x 56 51) (BitVec.ofNat 32 x)]
  else if nb x 60 57 = 1 then [.imm true (nb x 56 51) (BitVec.ofNat 32 x)] else []

/-- A wide slot of format M (R194). -/
def wideSlot (isX : Bool) (x : Nat) : LeafOp :=
  .wide isX (nb x 29 27) (nb x 26 25) (nb x 24 22) (nb x 21 17) (nb x 16 16 = 1) (nb x 15 11) (nb x 10 0)

/-- The operations of a bundle (R183). (DESIGN CHOICE, log entry 47) -/
def decodeBundle (b : Nat) : List LeafOp :=
  if nb b 63 63 = 0 then [vSlot (nb b 62 40), sSlot (nb b 39 22), memSlot true (nb b 21 11), memSlot false (nb b 10 0)]
  else match nb b 63 61 with
    | 4 => [vSlot (nb b 60 38), cSlot (nb b 37 0)]
    | 5 => immSlot (nb b 60 0)
    | 6 => [wideSlot true (nb b 60 31), wideSlot false (nb b 30 1)]
    | _ => []

end Sys2Proof.Machine
end

