-- ==== Sys2Proof/Machine/Spine.lean ====
section
/-! DEFINITION. The arbiters of the Spine (Queues, Spine and arbitration): ranks, grants, holds, PRESENT. -/

namespace Sys2Proof.Machine

/-- The module has 49 arbiters, 145 requesters and buffers of 64 bursts (R131). -/
def arbiterCount : Nat := 49
def requesterCount : Nat := 145
def burstBuffer : Nat := 64

def State.arbiter (s : State) (a : Nat) : Arbiter := mapGet (fun _ => {}) s.spn.arbiters a
def State.setArbiter (s : State) (a : Nat) (x : Arbiter) : State :=
  if a < arbiterCount then { s with spn.arbiters := mapSet (fun _ => {}) s.spn.arbiters a x } else s

/-- PRESENT of a requester is high (R134). -/
def State.isPresent (s : State) (r : Nat) : Bool := !s.spn.absent.contains r

def State.rankOf (s : State) (r : Nat) : Nat := s.fld (Reg.SPN_RANK r) 2 0

/-- The distance from the requester served last to `r`, going round: 1 for the next one, `requesterCount` for itself. -/
def roundDist (last r : Nat) : Nat := (r + requesterCount - last % requesterCount - 1) % requesterCount + 1

/-- The burst an arbiter grants among the pending ones: the highest rank, round-robin within it, and of one requester
the burst that came first (R131). (DESIGN CHOICE, log entry 45) -/
def State.pickBurst (s : State) (last : SMap Nat) (l : List Burst) : Option Burst :=
  l.foldl (fun best b =>
    match best with
    | none => some b
    | some x =>
      let rb := s.rankOf b.requester
      let rx := s.rankOf x.requester
      let d := fun (y : Burst) (rk : Nat) => roundDist (mapGet (fun _ => requesterCount - 1) last rk) y.requester
      if rx < rb || (rx == rb && d b rb < d x rx) then some b else some x) none

/-- Takes the first occurrence of a burst out of the list. -/
def removeBurst (b : Burst) (l : List Burst) : List Burst :=
  match l with
  | [] => []
  | x :: r => if x == b then r else x :: removeBurst b r

/-- A burst of the requester is in flight at some arbiter. -/
def State.burstInFlight (s : State) (r : Nat) : Bool := s.spn.arbiters.any (fun x => x.2.inFlight == some r)

/-- The PRESENT of quire `q` falls: its leaves' waiting FETCHes are withdrawn, and the tasks running on them are cancelled (R148, R150). -/
def State.quireGone (s : State) (q : Nat) : State :=
  (List.range 8).foldl (fun s i =>
    let n := 8 * q + i
    let s := s.withdrawFetch n
    match (s.leaf n).heldDispatch, (s.leaf n).task with
    | some t, _ => (s.cancelTask t).1
    | none, some t => (s.cancelTask t).1
    | none, none => s) s

/-- A requester's PRESENT goes low: its pending bursts are discarded (R134); of a quire, the Gatherer follows (R148, R150). -/
def State.dropPresent (s : State) (r : Nat) : State :=
  let s := if r < 24 then s.quireGone r else s
  { s with spn := { s.spn with
      absent := s.spn.absent.filter (· != r) ++ [r]
      leaving := s.spn.leaving.filter (· != r)
      arbiters := mapMapSet (fun _ => {}) (fun _ x =>
        { x with bursts := x.bursts.filter (·.requester != r), ports := x.ports.filter (·.requester != r) }) s.spn.arbiters } }

/-- A requester's PRESENT changes, between its bursts: a fall waits for the burst in flight (R134). -/
def State.setPresent (s : State) (r : Nat) (p : Bool) : State :=
  if p then { s with spn := { s.spn with absent := s.spn.absent.filter (· != r), leaving := s.spn.leaving.filter (· != r) } }
  else if s.burstInFlight r then { s with spn.leaving := s.spn.leaving.filter (· != r) ++ [r] }
  else s.dropPresent r

/-- The requesters whose burst in flight has ended and whose PRESENT was to fall (R134). -/
def State.settlePresent (s : State) : State :=
  (s.spn.leaving.filter (fun r => !s.burstInFlight r)).foldl State.dropPresent s

/-- ARBITER_GRANT (R131, R133, R134): `cycles` SCLK cycles after the grant before it, the burst in flight has ended, the
requests that arrived meanwhile, each with the cycles since, have joined the buffer, and one burst is granted unless GRANT_HOLD is 1.
(DESIGN CHOICE, log entry 45) -/
def State.arbiterGrant (s : State) (a cycles : Nat) (arrived : List (Nat × Nat)) : State :=
  let x := s.arbiter a
  let s := (s.setArbiter a { x with inFlight := none }).settlePresent
  let older := fun (l : List Burst) => ((l.filter (fun b => s.isPresent b.requester)).map (fun (b : Burst) => { b with waited := b.waited + cycles }) : List Burst)
  let fresh := (arrived.filter (fun r => decide (r.1 < requesterCount) && s.isPresent r.1)).map (fun r => (⟨r.1, min r.2 cycles⟩ : Burst))
  let all := older x.bursts ++ older x.ports ++ fresh
  let bursts := all.take burstBuffer
  let ports := all.drop burstBuffer
  if s.bit (Reg.SPN_ARB_CTRL a) 0 then s.setArbiter a { x with bursts := bursts, ports := ports, inFlight := none }
  else match s.pickBurst x.lastServed bursts with
  | none => s.setArbiter a { x with bursts := bursts, ports := ports, inFlight := none }
  | some b =>
    let rank := s.rankOf b.requester
    let s := s.setArbiter a { bursts := removeBurst b bursts, ports := ports, inFlight := some b.requester,
                              lastServed := mapSet (fun _ => requesterCount - 1) x.lastServed rank b.requester }
    let wm := Reg.SPN_ARB_WAITMAX a
    if s.fld wm 23 0 < satTo 0xFFFFFF b.waited then (s.setFld wm 23 0 (satTo 0xFFFFFF b.waited)).setFld wm 26 24 rank else s

def execArbiterGrant (arbiter cycles : Nat) (arrived : List (Nat × Nat)) (s : State) : Res := s.whenClocked fun s =>
  if arbiter < arbiterCount then .next (s.arbiterGrant arbiter cycles arrived) else .next s

/-- RANK_WRITE (R132): the new rank holds at the next arbitration; a burst in flight ends at its old rank. -/
def execRankWrite (requester : Nat) (value : W32) (s : State) : Res :=
  if requester < requesterCount then
    .next (s.hostWriteTo (Reg.SPN_RANK requester) (·.writeTable (Reg.SPN_RANK requester) value))
  else .next s

/-- GRANT_HOLD (R133). -/
def execGrantHold (arbiter : Nat) (value : W32) (s : State) : Res :=
  if arbiter < arbiterCount then
    .next (s.hostWriteTo (Reg.SPN_ARB_CTRL arbiter) (·.writeTable (Reg.SPN_ARB_CTRL arbiter) value))
  else .next s

/-- WAITMAX_CLEAR (R137). -/
def execWaitmaxClear (arbiter : Nat) (value : W32) (s : State) : Res :=
  if arbiter < arbiterCount then
    .next (s.hostWriteTo (Reg.SPN_ARB_WAITMAX arbiter) (·.writeTable (Reg.SPN_ARB_WAITMAX arbiter) value))
  else .next s

/-- HOLD_DONE: GRANT_HOLD is 1 and no burst is in flight (R133). (DESIGN CHOICE, log entry 45) -/
def State.holdDone (s : State) (a : Nat) : Bool := s.bit (Reg.SPN_ARB_CTRL a) 0 && (s.arbiter a).inFlight.isNone

end Sys2Proof.Machine
end

