-- ==== Sys2Proof/Machine/LeafOps.lean ====
section
/-! DEFINITION. A leaf issues bundles (Leaf instruction set): REP, branches, the links to the Gatherer and the Queue
Manager, debug halt, leaf reset. A leaf command names one operation of a bundle; `last` ends the bundle, which then issues
with every operation staged for it. -/

namespace Sys2Proof.Machine

/-- A leaf with at most one bundle in issue: not in reset, not halted, not blocked. -/
def State.canIssue (s : State) (n : Nat) : Bool :=
  !s.leafInReset n && !(s.leaf n).halted && (s.leaf n).wait == .none

/-! ## Halting -/

/-- Takes a halt at a bundle boundary (R203): results in flight land, and a blocking operation or a stalled qpush is withdrawn. `held` is a dispatch that meets the
withdrawal of a fetch in the same cycle and stands (R148). A fetch whose implied release waits for the pool is withdrawn as that
release, code 4 (R205). (DESIGN CHOICE, log entry 112) -/
def State.haltLeaf (s : State) (n cause : Nat) (held : Option Nat) : State :=
  let l := s.leaf n
  let w := match l.wait with
    | .fetch _ => 1 | .qpop _ _ _ => 2 | .release _ _ | .releaseThenFetch _ => 4
    | .qpush => 3 | .none | .status => 0
  let s := match l.wait with
    | .fetch _ => s.withdrawFetch n
    | .qpop q _ _ => let x := s.queue q; s.setQueue q { x with stalled := x.stalled.filter (· != Consumer.leaf n) }
    | .release _ _ | .releaseThenFetch _ => { s with gth.waitingReleases := s.gth.waitingReleases.filter (·.leaf != n) }
    | .none | .qpush | .status => s
  s.setLeaf n { l with halted := true, haltReq := false, cause := cause, withdrawn := w, wait := .none, heldDispatch := held,
                       staged := if w = 0 then [] else l.staged, buffer := [], recent := [], stores := [], stepping := false, ext := {}, extY := {} }

/-- An enabled breakpoint names the bundle about to issue (R203, R206). -/
def State.breakpointAt (s : State) (n pc : Nat) : Bool :=
  (List.range 4).any (fun k =>
    let a := Reg.QUI_DBG_BKPT (n / 8) (n % 8) k
    s.bit a 31 && s.fld a 12 0 == pc)

/-! ## Links -/

/-- qpush, qcommit, qrewind and signal (R199, R200). -/
def State.linkOp (s : State) (l0 : Leaf) (n : Nat) (op : COp) (rd ra rb imm : Nat) : State :=
  let qid := (l0.g ra).toNat % 65536
  let send := fun (m : LinkMsg) =>
    let l := s.leaf n
    ((s.setLeaf n { l with buffer := l.buffer ++ [m] }).drainLeaf n true).retryWrites
  match op with
  | .qpush =>
    let b := (l0.g rb).toNat
    let start := if imm.testBit 4 then some (b / 65536 % 8, BitVec.ofNat 16 b) else none
    send (.word qid start (l0.vreg (imm % 16)))
  | .qcommit => send (.commit qid (rd % 32))
  | .qrewind =>
    s.rewindItem qid (.leaf n) true
  | .signal =>
    let mask := l0.g rb
    if mask = 0 then s else s.sendFlags (.leaf n) ((l0.g ra).toNat % 131072) mask
  | _ => s

/-- Writes an item's words at Pn through the quire's Spine port (R201); false once Pn leaves every memory. Each word goes to the 32-byte
block that Pn lies in; MISALIGN belongs to a bundle's memory operations (R161). (DESIGN CHOICE, log entry 42) -/
def State.deliverWords (s : State) (n pn : Nat) (l : List QWord) : State × Bool :=
  match l with
  | [] => (s, true)
  | w :: r =>
    let f := s.leaf n
    match (leafAccess n false (f.p pn).toNat 32).1 with
    | none => (s, false)
    | some a =>
      let s := s.setBytes a (bytesOfNat 32 w.toNat)
      let p := stepPointer (f.p pn) (f.b pn) (f.len pn) (stepOf (f.m pn))
      (s.setLeaf n (f.resGpr (32 + pn % 8) p 1)).deliverWords n pn r

/-- A qpop ends: its status lands and the leaf goes on (R185, R201). -/
def State.qpopEnd (s : State) (n rd status len prio tag : Nat) : State :=
  let l := (s.leaf n).awaitWrites [rd % 32, (rd + 1) % 32]
  let l := l.resGpr (rd % 32) (BitVec.ofNat 32 (len * 65536 + prio * 256 + status)) 1
  (s.setLeaf n (l.resGpr ((rd + 1) % 32) (BitVec.ofNat 32 tag) 1)).finishBlocked n

/-- A qpop tries for its item (R122, R201). With no item taken, PRIORITY and ITEM_TAG are values the manual does not state.
(DESIGN CHOICE, log entry 42) -/
def State.qpopTry (s : State) (n qid rd pn : Nat) : State :=
  let x := s.readQueue qid (.leaf n)
  match x.2 with
  | .stalls => x.1
  | .ended st => (x.1.drawn.blockedFor n false).qpopEnd n rd st 0 (bitsOf x.1.freeVal 2 0) (bitsOf x.1.freeVal 31 16)
  | .item i =>
    let s := x.1.blockedFor n false
    let y := (s.setLeaf n ((s.leaf n).awaitWrites [32 + pn % 8])).deliverWords n pn i.words
    if y.2 then y.1.qpopEnd n rd stOK i.words.length i.prio i.tag.toNat
    else
      let s := y.1.setLeaf n ((y.1.leaf n).setStat 6 true)
      s.qpopEnd n rd stBAD i.words.length i.prio i.tag.toNat

/-- A blocking operation starts (R201): the bundle stays staged until it completes (R202). -/
def State.blockOn (s : State) (n : Nat) (ops : List LeafOp) (w : LeafWait) : State :=
  s.setLeaf n { s.leaf n with staged := ops, wait := w }

/-- fetch (R201). -/
def State.fetchOp (s : State) (n cls : Nat) (ops : List LeafOp) : State :=
  match (s.leaf n).task with
  | none => (s.blockOn n ops (.fetch cls)).addFetch n cls
  | some t => (s.blockOn n ops (.releaseThenFetch cls)).tryRelease n t false

/-- release (R201): REFUSED where no task is held. -/
def State.releaseOp (s : State) (n rd : Nat) (handover : Bool) (ops : List LeafOp) : State :=
  let s := s.blockOn n ops (.release rd handover)
  match (s.leaf n).task with
  | none => s.endRelease n rd stREFUSED
  | some t => s.tryRelease n t handover

/-- qpop (R201): REFUSED at once for a QID of kind NONE or HOST, with LENGTH, PRIORITY and ITEM_TAG left alone. -/
def State.qpopOp (s : State) (n qid rd pn : Nat) (ops : List LeafOp) : State :=
  let s := s.blockOn n ops (.qpop qid rd pn)
  if (s.queue qid).storable then s.qpopTry n qid rd pn
  else (s.setLeaf n (((s.leaf n).awaitWrites [rd % 32]).resGpr (rd % 32) (BitVec.ofNat 32 stREFUSED) 1)).finishBlocked n

/-! ## Issue -/

/-- The control operation of a bundle, if it has one. -/
def controlOf (ops : List LeafOp) : Option (COp × Nat × Nat × Nat × Nat) :=
  match ops with
  | [] => none
  | .c o rd ra rb imm :: _ => some (o, rd, ra, rb, imm)
  | _ :: r => controlOf r

/-- The count a REP of the bundle names, read before the bundle's writes; an encoded 0 means 65,536 (R188, R190, R196). -/
def repCount (l0 : Leaf) (ops : List LeafOp) : Option Nat :=
  let fix := fun c => if c % 65536 = 0 then 65536 else c % 65536
  match ops with
  | [] => none
  | .s .rep _ ga _ :: _ => some (fix (l0.g ga).toNat)
  | .c .rep _ _ _ imm :: _ => some (fix imm)
  | _ :: r => repCount l0 r

/-- The iterations of a repeated bundle (R196, R197): `k` are left of `count`. -/
def State.repeatOps (s : State) (n count k : Nat) (ops : List LeafOp) : State :=
  match k with
  | 0 => s
  | j + 1 =>
    let s := s.dataOps n true (count - (j + 1)) ops
    (s.setLeaf n (s.leaf n).tick).repeatOps n count j ops

/-- A bundle that executes once retires after its issue cycle. (DESIGN CHOICE, log entry 47) -/
def State.retire (s : State) (n pc : Nat) (rep : Option Nat) : State := s.setLeaf n ((s.leaf n).tick.advance pc rep)

/-- A taken branch: two cycles in which nothing issues (R195). -/
def Leaf.branchGap (l : Leaf) : Leaf := l.pass 2

/-- A bundle that executes once issues (R184, R190, R201, R202); it waits for the status of a qcommit that it needs (R199).
(DEDUCED, log entry 92) -/
def State.issueOnce (s : State) (n : Nat) (ops : List LeafOp) (repeated : Bool) : State :=
  if (s.leaf n).needsStatus ops then s.blockOn n ops .status
  else
  let s := s.setLeaf n { (s.leaf n).interlock n ops with staged := [], rep := none }
  let l0 := s.leaf n
  match controlOf ops with
  | some (.fetch, _, _, _, imm) => s.fetchOp n (imm % 64) ops
  | some (.release, rd, _, _, imm) => s.releaseOp n rd (imm.testBit 0) ops
  | some (.qpop, rd, ra, _, imm) => s.qpopOp n ((l0.g ra).toNat % 65536) rd (imm % 8) ops
  | some (.qpush, rd, ra, rb, imm) => (s.blockOn n ops .qpush).linkOp l0 n .qpush rd ra rb imm
  | some (op, rd, ra, rb, imm) =>
    let t := (s.dataOps n false 0 ops).linkOp l0 n op rd ra rb imm
    let t := if op == .jal then t.setLeaf n ((t.leaf n).resGpr (rd % 32) (BitVec.ofNat 32 ((l0.pc + 1) % 8192)) 1) else t
    match branchTarget l0 op ra imm with
    | some pc => (t.setLeaf n (t.leaf n).branchGap).retire n pc none
    | none =>
      let t := t.retire n (l0.pc + 1) (if op == .rep && !repeated then repCount l0 ops else none)
      if op == .halt then t.haltLeaf n 2 none else t
  | none => (s.dataOps n false 0 ops).retire n (l0.pc + 1) (repCount l0 ops)

/-- A bundle issues: once, or as the repeated bundle of a REP (R196). A repeated bundle of format C executes once; a REP
inside the repeated bundle performs no operation. (DESIGN CHOICE, log entry 47) -/
def State.issueBundle (s : State) (n : Nat) (ops : List LeafOp) : State :=
  let l := s.leaf n
  if l.rep.isNone && !l.skipBreak && s.breakpointAt n l.pc then (s.setLeaf n { l with staged := [] }).haltLeaf n 3 none
  else if l.rep.isNone && l.haltReq then (s.setLeaf n { l with staged := [] }).haltLeaf n 1 none
  else match l.rep, controlOf ops with
  | some count, none =>
    let s := (s.setLeaf n { l with staged := [], rep := none }).repeatOps n count count ops
    s.setLeaf n ((s.leaf n).settleNotes.advance (l.pc + 1) none)
  | some _, some _ => s.issueOnce n ops true
  | none, _ => s.issueOnce n ops false

/-- One operation of a leaf's next bundle; `last` ends the bundle, which then issues whole (R184). A leaf in reset, halted
or blocked issues nothing. (DESIGN CHOICE, log entry 47) -/
def State.leafOp (s : State) (n : Nat) (last : Bool) (op : LeafOp) : State :=
  if s.canIssue n then
    let l := s.leaf n
    let ops := l.staged ++ [op]
    if last then s.issueBundle n ops else s.setLeaf n { l with staged := ops }
  else s

def leafRes (leaf : Nat) (last : Bool) (op : LeafOp) (s : State) : Res := s.whenClocked fun s =>
  .next (if leaf < 192 then s.leafOp leaf last op else s)

/-! ## Vector operations (R187) -/

def execVnop (leaf : Nat) (last : Bool) (s : State) : Res := leafRes leaf last (.v .nop 0 0 0 0) s
def execVadd (leaf : Nat) (last : Bool) (vd va vb : Nat) (s : State) : Res := leafRes leaf last (.v .add vd va vb 0) s
def execVsub (leaf : Nat) (last : Bool) (vd va vb : Nat) (s : State) : Res := leafRes leaf last (.v .sub vd va vb 0) s
def execVneg (leaf : Nat) (last : Bool) (vd va : Nat) (s : State) : Res := leafRes leaf last (.v .neg vd va 0 0) s
def execVshl (leaf : Nat) (last : Bool) (vd va vx : Nat) (s : State) : Res := leafRes leaf last (.v .shl vd va 0 vx) s
def execVshr (leaf : Nat) (last : Bool) (vd va vx : Nat) (s : State) : Res := leafRes leaf last (.v .shr vd va 0 vx) s
def execVconj (leaf : Nat) (last : Bool) (vd va : Nat) (s : State) : Res := leafRes leaf last (.v .conj vd va 0 0) s
def execVmov (leaf : Nat) (last : Bool) (vd va : Nat) (s : State) : Res := leafRes leaf last (.v .mov vd va 0 0) s
def execVand (leaf : Nat) (last : Bool) (vd va vb : Nat) (s : State) : Res := leafRes leaf last (.v .and vd va vb 0) s
def execVor (leaf : Nat) (last : Bool) (vd va vb : Nat) (s : State) : Res := leafRes leaf last (.v .or vd va vb 0) s
def execVxor (leaf : Nat) (last : Bool) (vd va vb : Nat) (s : State) : Res := leafRes leaf last (.v .xor vd va vb 0) s
def execVmulj (leaf : Nat) (last : Bool) (vd va : Nat) (s : State) : Res := leafRes leaf last (.v .mulj vd va 0 0) s
def execVbcast (leaf : Nat) (last : Bool) (vd va vx : Nat) (s : State) : Res := leafRes leaf last (.v .bcast vd va 0 vx) s
def execMulAdd (leaf : Nat) (last : Bool) (vd va vb vx : Nat) (s : State) : Res := leafRes leaf last (.v (.mac 0 0) vd va vb vx) s
def execMulSub (leaf : Nat) (last : Bool) (vd va vb vx : Nat) (s : State) : Res := leafRes leaf last (.v (.mac 0 1) vd va vb vx) s
def execMulSet (leaf : Nat) (last : Bool) (vd va vb vx : Nat) (s : State) : Res := leafRes leaf last (.v (.mac 0 2) vd va vb vx) s
def execMulNeg (leaf : Nat) (last : Bool) (vd va vb vx : Nat) (s : State) : Res := leafRes leaf last (.v (.mac 0 3) vd va vb vx) s
def execMulcAdd (leaf : Nat) (last : Bool) (vd va vb vx : Nat) (s : State) : Res := leafRes leaf last (.v (.mac 1 0) vd va vb vx) s
def execMulcSub (leaf : Nat) (last : Bool) (vd va vb vx : Nat) (s : State) : Res := leafRes leaf last (.v (.mac 1 1) vd va vb vx) s
def execMulcSet (leaf : Nat) (last : Bool) (vd va vb vx : Nat) (s : State) : Res := leafRes leaf last (.v (.mac 1 2) vd va vb vx) s
def execMulcNeg (leaf : Nat) (last : Bool) (vd va vb vx : Nat) (s : State) : Res := leafRes leaf last (.v (.mac 1 3) vd va vb vx) s
def execMulrAdd (leaf : Nat) (last : Bool) (vd va vb vx : Nat) (s : State) : Res := leafRes leaf last (.v (.mac 2 0) vd va vb vx) s
def execMulrSub (leaf : Nat) (last : Bool) (vd va vb vx : Nat) (s : State) : Res := leafRes leaf last (.v (.mac 2 1) vd va vb vx) s
def execMulrSet (leaf : Nat) (last : Bool) (vd va vb vx : Nat) (s : State) : Res := leafRes leaf last (.v (.mac 2 2) vd va vb vx) s
def execMulrNeg (leaf : Nat) (last : Bool) (vd va vb vx : Nat) (s : State) : Res := leafRes leaf last (.v (.mac 2 3) vd va vb vx) s
def execAclr (leaf : Nat) (last : Bool) (vd : Nat) (s : State) : Res := leafRes leaf last (.v .aclr vd 0 0 0) s
def execSac (leaf : Nat) (last : Bool) (vd va vx : Nat) (s : State) : Res := leafRes leaf last (.v .sac vd va 0 vx) s
def execAadd (leaf : Nat) (last : Bool) (vd va : Nat) (s : State) : Res := leafRes leaf last (.v .aadd vd va 0 0) s
def execAmov (leaf : Nat) (last : Bool) (vd va : Nat) (s : State) : Res := leafRes leaf last (.v .amov vd va 0 0) s
def execAsum (leaf : Nat) (last : Bool) (vd va : Nat) (s : State) : Res := leafRes leaf last (.v .asum vd va 0 0) s

/-! ## Scalar, control and immediate operations (R188, R190, R191) -/

def execRepScalar (leaf : Nat) (last : Bool) (ga : Nat) (s : State) : Res := leafRes leaf last (.s .rep 1 ga 0) s
def execAdd (leaf : Nat) (last : Bool) (gd ga gb : Nat) (s : State) : Res := leafRes leaf last (.s .add gd ga gb) s
def execSub (leaf : Nat) (last : Bool) (gd ga gb : Nat) (s : State) : Res := leafRes leaf last (.s .sub gd ga gb) s
def execAnd (leaf : Nat) (last : Bool) (gd ga gb : Nat) (s : State) : Res := leafRes leaf last (.s .and gd ga gb) s
def execOr (leaf : Nat) (last : Bool) (gd ga gb : Nat) (s : State) : Res := leafRes leaf last (.s .or gd ga gb) s
def execXor (leaf : Nat) (last : Bool) (gd ga gb : Nat) (s : State) : Res := leafRes leaf last (.s .xor gd ga gb) s
def execShl (leaf : Nat) (last : Bool) (gd ga gb : Nat) (s : State) : Res := leafRes leaf last (.s .shl gd ga gb) s
def execSra (leaf : Nat) (last : Bool) (gd ga gb : Nat) (s : State) : Res := leafRes leaf last (.s .sra gd ga gb) s
def execCnop (leaf : Nat) (last : Bool) (s : State) : Res := leafRes leaf last (.c .nop 0 0 0 0) s
def execAddi (leaf : Nat) (last : Bool) (rd ra imm : Nat) (s : State) : Res := leafRes leaf last (.c .addi rd ra 0 imm) s
def execMov (leaf : Nat) (last : Bool) (rd ra : Nat) (s : State) : Res := leafRes leaf last (.c .mov rd ra 0 0) s
def execMulg (leaf : Nat) (last : Bool) (rd ra rb : Nat) (s : State) : Res := leafRes leaf last (.c .mulg rd ra rb 0) s
def execShr (leaf : Nat) (last : Bool) (rd ra rb : Nat) (s : State) : Res := leafRes leaf last (.c .shr rd ra rb 0) s
def execSlt (leaf : Nat) (last : Bool) (rd ra rb : Nat) (s : State) : Res := leafRes leaf last (.c .slt rd ra rb 0) s
def execSltu (leaf : Nat) (last : Bool) (rd ra rb : Nat) (s : State) : Res := leafRes leaf last (.c .sltu rd ra rb 0) s
def execMin (leaf : Nat) (last : Bool) (rd ra rb : Nat) (s : State) : Res := leafRes leaf last (.c .min rd ra rb 0) s
def execMax (leaf : Nat) (last : Bool) (rd ra rb : Nat) (s : State) : Res := leafRes leaf last (.c .max rd ra rb 0) s
def execBr (leaf : Nat) (last : Bool) (imm : Nat) (s : State) : Res := leafRes leaf last (.c .br 0 0 0 imm) s
def execBeqz (leaf : Nat) (last : Bool) (ra imm : Nat) (s : State) : Res := leafRes leaf last (.c .beqz 0 ra 0 imm) s
def execBnez (leaf : Nat) (last : Bool) (ra imm : Nat) (s : State) : Res := leafRes leaf last (.c .bnez 0 ra 0 imm) s
def execBltz (leaf : Nat) (last : Bool) (ra imm : Nat) (s : State) : Res := leafRes leaf last (.c .bltz 0 ra 0 imm) s
def execBgez (leaf : Nat) (last : Bool) (ra imm : Nat) (s : State) : Res := leafRes leaf last (.c .bgez 0 ra 0 imm) s
def execJal (leaf : Nat) (last : Bool) (rd imm : Nat) (s : State) : Res := leafRes leaf last (.c .jal rd 0 0 imm) s
def execJr (leaf : Nat) (last : Bool) (ra : Nat) (s : State) : Res := leafRes leaf last (.c .jr 0 ra 0 0) s
def execBabt (leaf : Nat) (last : Bool) (imm : Nat) (s : State) : Res := leafRes leaf last (.c .babt 0 0 0 imm) s
def execRep (leaf : Nat) (last : Bool) (count : Nat) (s : State) : Res := leafRes leaf last (.c .rep 0 0 0 count) s
def execStatw (leaf : Nat) (last : Bool) (imm : Nat) (s : State) : Res := leafRes leaf last (.c .statw 0 0 0 imm) s
def execStatr (leaf : Nat) (last : Bool) (rd imm : Nat) (s : State) : Res := leafRes leaf last (.c .statr rd 0 0 imm) s
def execHalt (leaf : Nat) (last : Bool) (s : State) : Res := leafRes leaf last (.c .halt 0 0 0 0) s
def execMovi (leaf : Nat) (last : Bool) (rd : Nat) (value : W32) (s : State) : Res := leafRes leaf last (.imm false rd value) s
def execAddw (leaf : Nat) (last : Bool) (rd : Nat) (value : W32) (s : State) : Res := leafRes leaf last (.imm true rd value) s

/-! ## Memory operations (R192, R194) -/

def execLd (leaf : Nat) (last : Bool) (x : Bool) (w pn reg : Nat) (s : State) : Res := leafRes leaf last (.mem x 1 w pn reg) s
def execSt (leaf : Nat) (last : Bool) (x : Bool) (w pn reg : Nat) (s : State) : Res := leafRes leaf last (.mem x 2 w pn reg) s
def execLdk (leaf : Nat) (last : Bool) (x : Bool) (w pn reg : Nat) (s : State) : Res := leafRes leaf last (.mem x 3 w pn reg) s
def execLdWide (leaf : Nat) (last : Bool) (x : Bool) (w pn reg : Nat) (u : Bool) (sh off : Nat) (s : State) : Res :=
  leafRes leaf last (.wide x 1 w pn reg u sh off) s
def execStWide (leaf : Nat) (last : Bool) (x : Bool) (w pn reg : Nat) (u : Bool) (sh off : Nat) (s : State) : Res :=
  leafRes leaf last (.wide x 2 w pn reg u sh off) s
def execLdg (leaf : Nat) (last : Bool) (x : Bool) (w pn reg : Nat) (u : Bool) (sh off : Nat) (s : State) : Res :=
  leafRes leaf last (.wide x 3 w pn reg u sh off) s
def execStg (leaf : Nat) (last : Bool) (x : Bool) (w pn reg : Nat) (u : Bool) (sh off : Nat) (s : State) : Res :=
  leafRes leaf last (.wide x 4 w pn reg u sh off) s
def execSta (leaf : Nat) (last : Bool) (x : Bool) (w pn reg : Nat) (u : Bool) (sh off : Nat) (s : State) : Res :=
  leafRes leaf last (.wide x 5 w pn reg u sh off) s

/-! ## Links (R199 to R202) -/

def execFetch (leaf : Nat) (last : Bool) (imm : Nat) (s : State) : Res := leafRes leaf last (.c .fetch 0 0 0 imm) s
def execQpop (leaf : Nat) (last : Bool) (rd ra imm : Nat) (s : State) : Res := leafRes leaf last (.c .qpop rd ra 0 imm) s
def execQpush (leaf : Nat) (last : Bool) (ra rb imm : Nat) (s : State) : Res := leafRes leaf last (.c .qpush 0 ra rb imm) s
def execQcommit (leaf : Nat) (last : Bool) (rd ra : Nat) (s : State) : Res := leafRes leaf last (.c .qcommit rd ra 0 0) s
def execQrewind (leaf : Nat) (last : Bool) (ra : Nat) (s : State) : Res := leafRes leaf last (.c .qrewind 0 ra 0 0) s
def execSignal (leaf : Nat) (last : Bool) (ra rb : Nat) (s : State) : Res := leafRes leaf last (.c .signal 0 ra rb 0) s
def execRelease (leaf : Nat) (last : Bool) (rd imm : Nat) (s : State) : Res := leafRes leaf last (.c .release rd 0 0 imm) s

/-- QPOP_COMPLETE (R201): a leaf stalled in qpop receives what its queue now holds for it. -/
def execQpopComplete (leaf : Nat) (s : State) : Res := s.whenClocked fun s =>
  match (s.leaf leaf).wait with
  | .qpop qid rd pn => .next (s.qpopTry leaf qid rd pn)
  | _ => .next s

/-- Takes the oldest commit whose status has come back. -/
def takeStatus (l : List CommitWait) : Option (Nat × Nat × List CommitWait) :=
  match l with
  | [] => none
  | c :: r => match c.status with
    | some st => some (c.rd, st, r)
    | none => (takeStatus r).map (fun p => (p.1, p.2.1, c :: p.2.2))

/-- A bundle that waited for the status of a qcommit issues once it needs none (R199). (DEDUCED, log entry 92) -/
def State.wakeStatus (s : State) (n : Nat) : State :=
  let l := s.leaf n
  if l.wait == .status && !l.needsStatus l.staged then
    let s := s.stalledFor n
    (s.setLeaf n { s.leaf n with wait := .none, staged := [] }).issueBundle n l.staged
  else s

/-- QCOMMIT_STATUS (R199): the status lands in G(RD). -/
def execQcommitStatus (leaf : Nat) (s : State) : Res := s.whenClocked fun s =>
  let l := s.leaf leaf
  match takeStatus l.commits with
  | some (rd, st, rest) =>
    .next ((s.setLeaf leaf ({ l with commits := rest }.resGpr (rd % 32) (BitVec.ofNat 32 st) 1)).wakeStatus leaf)
  | none => .next s

/-! ## Debug (R203 to R207) -/

/-- HALT_REQUEST (R205): ignored and counted while the leaf is in reset. -/
def State.haltRequest (s : State) (n : Nat) : State :=
  if s.leafInReset n then s.clampAt (Reg.QUI_CLAMP_COUNT (n / 8))
  else if (s.leaf n).halted then s else s.setLeaf n { s.leaf n with haltReq := true }

def execHaltRequest (leaf : Nat) (s : State) : Res :=
  .next (if leaf < 192 then s.hostWriteTo (Reg.QUI_DBG_CTRL (leaf / 8) (leaf % 8)) (·.haltRequest leaf) else s)

/-- DEBUG_HALT (R203): a requested halt takes effect at a bundle boundary, after any REP. `dispatched`: a dispatch to the
withdrawn fetch meets it in the same cycle and stands (R148), where that fetch is the one its class serves next (R144). A qpop that
the queue has served completes first (R121). -/
def State.debugHalt (s : State) (n : Nat) (dispatched : Bool) : State :=
  let l := s.leaf n
  if !l.haltReq || l.halted || l.rep.isSome || s.leafInReset n || (l.wait == .none && !l.staged.isEmpty) then s
  else
    match l.wait with
    | .fetch cls =>
      match (if dispatched && s.gth.credits != 0 && (s.firstFetch cls == some n) then s.firstReady cls else none) with
      | some t => ((s.takeTask cls n t).haltLeaf n 1 (some t)).capCredits
      | none => s.haltLeaf n 1 none
    | .qpop qid rd pn =>
      if (s.queue qid).hasGiven (.leaf n) then
        let s := s.qpopTry n qid rd pn
        if (s.leaf n).halted then s else s.haltLeaf n 1 none
      else s.haltLeaf n 1 none
    | _ => s.haltLeaf n 1 none

def execDebugHalt (leaf : Nat) (dispatched : Bool) (s : State) : Res := s.whenClocked fun s => .next (s.debugHalt leaf dispatched)

/-- The bundle in IM at the program counter (R183). -/
def State.bundleAt (s : State) (n pc : Nat) : Nat :=
  s.readNat (0x10000000000 + n / 8 * 0x1000000 + n % 8 * 0x40000 + 0x30000 + 8 * (pc % 8192)) 8

/-- A halted leaf goes on: a held dispatch completes its fetch, a withdrawn bundle re-issues (R203), as it was withdrawn, whatever a
debugger has written to the program counter or the IM meanwhile. (DESIGN CHOICE, log entry 112) -/
def State.goOn (s : State) (n : Nat) (stepping : Bool) : State :=
  let l := s.leaf n
  let run := { l with halted := false, cause := 0, withdrawn := 0, heldDispatch := none, skipBreak := true, stepping := stepping }
  match l.heldDispatch with
  | some t => (s.setLeaf n { run with wait := .fetch 0 }).deliverTask n t
  | none =>
    if l.withdrawn ≠ 0 then (s.setLeaf n { run with staged := [] }).issueBundle n l.staged
    else s.setLeaf n run

/-- RESUME (R203, R205). -/
def State.resume (s : State) (n : Nat) : State :=
  if s.leafInReset n then s.clampAt (Reg.QUI_CLAMP_COUNT (n / 8))
  else if (s.leaf n).halted then s.goOn n false else s

def execResume (leaf : Nat) (s : State) : Res :=
  .next (if leaf < 192 then s.hostWriteTo (Reg.QUI_DBG_CTRL (leaf / 8) (leaf % 8)) (·.resume leaf) else s)

/-- DEBUG_STEP (R203, R205): the withdrawn bundle, or the bundle in IM at the program counter, issues, a REP bundle with
all its iterations, and the leaf halts again. -/
def State.debugStep (s : State) (n : Nat) : State :=
  if s.leafInReset n then s.clampAt (Reg.QUI_CLAMP_COUNT (n / 8))
  else if !(s.leaf n).halted then s
  else
    let l := s.leaf n
    let w := l.withdrawn ≠ 0 ∨ l.heldDispatch.isSome
    let s := s.goOn n true
    if w then s
    else
      let s := s.issueBundle n (decodeBundle (s.bundleAt n l.pc))
      let l := s.leaf n
      if l.rep.isSome then s.issueBundle n (decodeBundle (s.bundleAt n l.pc)) else s

def execDebugStep (leaf : Nat) (s : State) : Res :=
  .next (if leaf < 192 then s.hostWriteTo (Reg.QUI_DBG_CTRL (leaf / 8) (leaf % 8)) (·.debugStep leaf) else s)

/-- The last word of a selected register (R206). -/
def dbgLastWord (sel : Nat) : Nat := if sel < 64 then 0 else if sel < 80 then 7 else if sel < 84 then 19 else 0

/-- The word QUI_DBG_REG_DATA shows (R206, R207). -/
def Leaf.dbgRead (l : Leaf) (sel word : Nat) : W32 :=
  if sel < 64 then l.gpr sel
  else if sel < 80 then (l.vreg (sel - 64)).extractLsb' (32 * word) 32
  else if sel < 84 then (l.acc (sel - 80)).extractLsb' (32 * word) 32
  else if sel = 84 then l.lstat else if sel = 85 then l.laovIdx else BitVec.ofNat 32 l.pc

/-- A write of the selected word (R207). -/
def Leaf.dbgWrite (l : Leaf) (sel word : Nat) (x : W32) : Leaf :=
  if sel < 64 then l.setGpr sel x
  else if sel < 80 then l.setV (sel - 64) (setBitsOf (l.vreg (sel - 64)) (32 * word + 31) (32 * word) x.toNat)
  else if sel < 84 then l.setA (sel - 80) (setBitsOf (l.acc (sel - 80)) (32 * word + 31) (32 * word) x.toNat)
  else if sel = 84 then { l with lstat := x } else if sel = 85 then { l with laovIdx := x } else { l with pc := x.toNat % 8192 }

/-- DBG_REG_WRITE (R207): discarded and counted unless the leaf is halted. -/
def State.dbgRegWrite (s : State) (n : Nat) (x : W32) : State :=
  let cc := Reg.QUI_CLAMP_COUNT (n / 8)
  let a := Reg.QUI_DBG_REG_SEL (n / 8) (n % 8)
  let l := s.leaf n
  if l.halted then
    (s.setLeaf n (l.dbgWrite (s.fld a 14 8) (s.fld a 4 0) x)).clampIf (s.fld a 14 8 == 86 && decide (8191 < x.toNat)) cc
  else s.clampAt cc

def execDbgRegWrite (leaf : Nat) (value : W32) (s : State) : Res :=
  .next (if leaf < 192 then s.hostWriteTo (Reg.QUI_DBG_REG_DATA (leaf / 8) (leaf % 8)) (·.dbgRegWrite leaf value) else s)

/-! ## Leaf reset (R171, R182) -/

/-- Rewinds every open item of a leaf (R116, R171), and ends its reads: an item that a stalled read was given is consumed with it.
(DESIGN CHOICE, log entry 42) -/
def State.rewindLeaf (s : State) (n : Nat) : State :=
  (mapKeys s.qm.queues).foldl (fun s q =>
    let x := s.queue q
    if (x.openOf (.leaf n)).isSome || (x.dropMark (.leaf n)).isSome || x.stalled.contains (.leaf n) || x.hasGiven (.leaf n) then
      s.putQueue q ((x.forgetConsumer (.leaf n)) |>.closeItem (.leaf n) |>.unmark (.leaf n))
    else s) s

/-- A leaf is put into reset (R171): its registers, its waiting FETCH, its open items and its task. -/
def State.resetLeaf (s : State) (n : Nat) : State :=
  let l := s.leaf n
  let s := (s.withdrawFetch n).rewindLeaf n
  let s := { s with gth.waitingReleases := s.gth.waitingReleases.filter (·.leaf != n) }
  let end_ := fun (s : State) (t : Nat) =>
    let k := s.task t
    if k.mode == .running then (s.setTask t { k with mode := .idle }).voidSeq k
    else if k.mode == .cancelledRunning then s.setTask t { k with mode := .idle } else s
  let s := match l.task with | some t => end_ s t | none => s
  let s := match l.heldDispatch with | some t => end_ s t | none => s
  let s := s.setLeaf n {}
  let d := Reg.QUI_DBG_REG_SEL (n / 8) (n % 8)
  let s := (List.range 4).foldl (fun s k => s.wr (Reg.QUI_DBG_BKPT (n / 8) (n % 8) k) 0) (s.wr d 0)
  s.retryWrites

/-- A quire is present while a leaf of it runs and its cluster is not isolated; its PRESENT follows (R134, R148). -/
def State.quirePresent (s : State) (q : Nat) (isolated : Bool) : State :=
  s.setPresent q (s.fld (Reg.QUI_LEAF_CTRL q) 7 0 != 0xFF && !isolated)

/-- A write of QUI_LEAF_CTRL (R182): a bit set puts its leaf into reset, a bit cleared starts the leaf at bundle 0. -/
def State.writeLeafCtrl (s : State) (q : Nat) (v : W32) (isolated : Bool) : State :=
  let a := Reg.QUI_LEAF_CTRL q
  let old := s.rd a
  let s := s.writeTable a v
  let s := (List.range 8).foldl (fun s l => if bitOf v l && !bitOf old l then s.resetLeaf (8 * q + l) else s) s
  s.quirePresent q isolated

end Sys2Proof.Machine
end

