-- ==== Sys2Proof/Machine/Power.lean ====
section
/-! DEFINITION. Power states of the clusters (Power states): requests, the entry handshake, isolation, what Doze keeps, exit,
and the request for Hibernate. The wake from Hibernate, which resets almost everything, is in Machine/Reset.lean. -/

namespace Sys2Proof.Machine

def clusterCount : Nat := 72
/-- The Spine requester whose PRESENT a cluster drives (R402). -/
def clusterRequester (d : Nat) : Nat := if d < 24 then d else d + 64
/-- Units of a cluster that the handshake asks: a quire's eight leaves and its store, else one (R404, R418). -/
def clusterUnits (d : Nat) : Nat := if d < 24 then 9 else 1
/-- Engine and group of a cluster from 24 to 35 (R402). -/
def clusterGroup (d : Nat) : Nat × Nat := if d < 28 then (1, d - 24) else if d < 31 then (0, d - 28) else (2, d - 31)

/-! ## What a unit answers (R404) -/

/-- A leaf accepts in RESET, and blocked in FETCH with no task held. -/
def State.leafAccepts (s : State) (n : Nat) : Bool :=
  let l := s.leaf n
  s.heldInReset n || (!l.halted && l.task.isNone && (match l.wait with | .fetch _ => true | _ => false))

/-- A job or code block runs on the group's units. -/
def State.groupRuns (s : State) (e g : Nat) : Bool :=
  (s.engine e).jobs.any (fun j => (j.running || decide (j.cod.ended < j.cod.begun)) && (if e = 0 then j.place / 4 else j.place) == g)

def State.unitRefuses (s : State) (d unit : Nat) : Bool :=
  if d < 24 then decide (unit < 8) && !s.leafAccepts (8 * d + unit)
  else if d < 36 then false
  else if d < 60 then (List.range 4).any (fun i => (s.lane (4 * (d - 36) + i)).mode != .off)
  else s.bit (Reg.STF_PORT_CFG (d - 60)) 31

/-- External accesses wait at the memories of a quire (R162, R404). -/
def State.externalWaits (s : State) (q : Nat) : Bool :=
  (List.range 8).any (fun i => (s.leaf (8 * q + i)).ext.count != 0 || (s.leaf (8 * q + i)).extY.count != 0)

/-- A unit that delays: a group at work; a quire's store, unit 8, while an external access to the quire's memories is in flight. -/
def State.unitDelays (s : State) (d unit : Nat) : Bool :=
  if d < 24 then unit == 8 && s.externalWaits d else d < 36 && s.groupRuns (clusterGroup d).1 (clusterGroup d).2

/-- The external accesses of a quire have been served. -/
def State.externalDone (s : State) (q : Nat) : State :=
  (List.range 8).foldl (fun s i => s.setLeaf (8 * q + i) { s.leaf (8 * q + i) with ext := {}, extY := {} }) s

/-! ## Entry -/

/-- An entry begins: the handshake is sent, and retention is what PWR_CL_CTRL_d says (R403, R408). -/
def State.startEntry (s : State) (d : Nat) (toDoze : Bool) : State :=
  s.setCluster d { s.cluster d with
    mode := .entering, toDoze := toDoze, accepted := [], wakeSeen := false, request := none,
    retSave := s.bit (Reg.PWR_CL_CTRL d) 28, retBanks := s.fld (Reg.PWR_CL_CTRL d) 27 24 }

/-- A request of PWR_CL_CTRL_d: 0 RUN, 1 NAP, 2 DOZE (R401, R415, R418). During a transition it waits for the transition's
end, and RUN during an entry is a wake that the entry outlives. NAP of a dozing cluster changes nothing.
(DEDUCED, log entry 77) -/
def State.clusterRequest (s : State) (d req : Nat) : State :=
  let c := s.cluster d
  match c.mode with
  | .run => if req = 0 then s else s.startEntry d (req == 2)
  | .nap => if req = 0 then s.setCluster d { c with mode := .run } else if req = 2 then s.startEntry d true else s
  | .doze => if req = 0 then s.setCluster d { c with mode := .exiting, request := none } else s
  | .entering =>
    if req = 0 then s.setCluster d { c with wakeSeen := true, request := none } else s.setCluster d { c with request := some req }
  | .exiting => s.setCluster d { c with request := if req = 0 then none else some req }

/-- A request that waited for a transition's end applies (R415). (DEDUCED, log entry 77) -/
def State.applyRequest (s : State) (d : Nat) : State :=
  match (s.cluster d).request with
  | none => s
  | some r => (s.setCluster d { s.cluster d with request := none }).clusterRequest d r

/-- PWR_CL_CTRL_d is written: RET_BANKS is 0 unless the cluster is a quire (R418). -/
def State.writeClCtrl (s : State) (d : Nat) (v : W32) : State :=
  let v' := if d < 24 then v else setBitsOf v 27 24 0
  let s := s.writeContext (Reg.PWR_CL_CTRL d) v v'
  s.clusterRequest d (s.fld (Reg.PWR_CL_CTRL d) 31 30)

/-- The request a written value makes: REQ 3 is taken as 0 (R418). -/
def reqOf (v : W32) : Nat := let r := bitsOf v 31 30; if r = 3 then 0 else r

def requestRow (req cluster : Nat) (value : W32) (s : State) : Res :=
  .next (if cluster < clusterCount ∧ reqOf value = req then
    s.hostWriteTo (Reg.PWR_CL_CTRL cluster) (·.writeClCtrl cluster value) else s)

/-- REQUEST_NAP, REQUEST_DOZE, REQUEST_RUN (R401, R415): writes of PWR_CL_CTRL_d with that REQ. -/
def execRequestNap (cluster : Nat) (value : W32) (s : State) : Res := requestRow 1 cluster value s
def execRequestDoze (cluster : Nat) (value : W32) (s : State) : Res := requestRow 2 cluster value s
def execRequestRun (cluster : Nat) (value : W32) (s : State) : Res := requestRow 0 cluster value s

/-- AUTO_NAP (R401): a cluster with AUTO_NAP 1 has been idle for NAP_IDLE. -/
def execAutoNap (cluster : Nat) (s : State) : Res := s.whenClocked fun s =>
  .next (if cluster < clusterCount ∧ s.bit (Reg.PWR_CL_CTRL cluster) 29 ∧ (s.cluster cluster).mode = .run then
    s.startEntry cluster false else s)

/-- One REFUSE aborts the entry (R403). -/
def State.refuseEntry (s : State) (d unit : Nat) : State :=
  let c := s.cluster d
  let s := s.setCluster d { c with mode := .run, accepted := [], wakeSeen := false, last := 2, refuser := unit }
  (((s.bumpFld (Reg.PWR_CL_COUNT d) 15 8 1).raise Reg.PWR_EVENT 0).clusterAnswered d 1 stREFUSED).applyRequest d

/-- A wake met the entry (R415). (DEDUCED, log entry 77) -/
def State.noteWakeInEntry (s : State) (d : Nat) : State :=
  (s.bumpFld (Reg.PWR_CL_COUNT d) 7 0 1).raise Reg.PWR_EVENT 2

/-- The last unit of an entry into Nap has accepted: the clock is gated; where a wake met the entry, the exit follows. -/
def State.napDone (s : State) (d : Nat) : State :=
  let c := s.cluster d
  let s := s.setCluster d { c with mode := if c.wakeSeen then .run else .nap, accepted := [], wakeSeen := false,
                                   last := if c.wakeSeen then 3 else 1 }
  (if c.wakeSeen then s.noteWakeInEntry d else s).applyRequest d

/-- The isolation clamps are set (R406): PRESENT falls and a quire's waiting FETCHes are withdrawn (R148). -/
def State.setClamps (s : State) (d : Nat) : State :=
  (s.setCluster d { s.cluster d with isolated := true }).setPresent (clusterRequester d) false

/-- A unit answers ACCEPT; the entry proceeds with the last (R403, R406). -/
def State.acceptEntry (s : State) (d unit : Nat) : State :=
  let c := s.cluster d
  if c.accepted.contains unit then s
  else
    let s := s.setCluster d { c with accepted := c.accepted ++ [unit] }
    if c.accepted.length + 1 < clusterUnits d then s
    else if c.toDoze then s.setClamps d else s.napDone d

/-- The handshake of the cluster runs: its clamps are not set yet. -/
def State.inHandshake (s : State) (d : Nat) : Bool := d < clusterCount && (s.cluster d).mode == .entering && !(s.cluster d).isolated

/-- A unit is asked. External accesses in flight, if there are any, may have been served by now: whether they have is free, since how
long they take is not stated. (DESIGN CHOICE, log entry 120) -/
def State.askUnit (s : State) (d unit : Nat) : State :=
  if d < 24 ∧ s.unitDelays d unit = true then (if s.freeBelow 2 = 0 then s.drawn.externalDone d else s.drawn) else s

/-- A unit of a cluster answers the handshake; one that delays does not answer yet (R403, R404). -/
def State.clusterAnswer (s : State) (d unit : Nat) : State :=
  if !s.inHandshake d || decide (clusterUnits d ≤ unit) then s
  else if s.unitRefuses d unit then s.refuseEntry d unit
  else
    let s := s.askUnit d unit
    if s.unitDelays d unit then s else s.acceptEntry d unit

/-! ## The Hibernate handshake (R405) -/

def hibClusterBlock (d : Nat) : Nat := 16 + d
/-- The blocks that are asked, with the codes of PWR_HIB_CAUSE.REFUSER: the rows of R405 from 1, clusters 16 + d. -/
def hibBlocks : List Nat := [1, 2, 3, 4, 5, 7] ++ (List.range clusterCount).map hibClusterBlock

def State.hibRefuses (s : State) (b : Nat) : Bool :=
  if b = 1 then s.slt.carriers.any (fun p => (p.2.mode != .stopped && p.2.mode != .disabled) || p.2.ul.armed.isSome || p.2.dl.armed.isSome)
  else if b = 2 then s.hp.rings.any (fun p => p.2.enable)
  else if b = 3 then (List.range 2).any (fun h => ((s.vat h).mode != .idle && (s.vat h).mode != .done) || s.spillPending h)
  else if b = 4 then s.cap.press.any (fun p => p.2.mode != .idle)
  else if b = 5 then s.dma.chans.any (fun p => decide (2 ≤ p.2.stateCode))
  else if b = 7 then s.fld Reg.PWR_HIB_CTRL 3 0 == 0
  else if 16 ≤ b then !(s.cluster (b - 16)).isolated && (List.range (clusterUnits (b - 16))).any (s.unitRefuses (b - 16))
  else false

def State.hibDelays (s : State) (b : Nat) : Bool := 16 ≤ b && (List.range (clusterUnits (b - 16))).any (s.unitDelays (b - 16))

/-- The module enters Hibernate (R411): the DRAM is in self-refresh, TCLK stops, the link goes down and
configuration space is lost. -/
def State.enterHibernate (s : State) : State :=
  let s := s.answerPower (fun r => r.op == 2) stOK
  { s with
    pwr := { s.pwr with hibBusy := false, hibAccepted := [], asleep := true }
    glb := { s.glb with coreReady := false, memReady := false }
    hp := { subsys := s.hp.subsys }
    mm.chans := (List.range 16).foldl (fun m c =>
      mapSet (fun _ => {}) m c { mapGet (fun _ => ({} : MemChan)) m c with selfRefresh := true, trained := false }) s.mm.chans }

/-- A request for Hibernate, by PWR_HIB_CTRL.ENTER or by Serham: the handshake begins (R403, R405). -/
def State.requestHibernate (s : State) : State :=
  if s.pwr.hibBusy || s.pwr.asleep then s
  else { s with pwr := { s.pwr with hibBusy := true, hibAccepted := [], wakeSeen := 0 } }

def State.refuseHibernate (s : State) (b : Nat) : State :=
  { s with pwr := { s.pwr with hibBusy := false, hibAccepted := [], wakeSeen := 0, lastHib := 2, hibRefuser := b } }.raise Reg.PWR_EVENT 0
    |>.answerPower (fun r => r.op == 2) stREFUSED

/-- A block of the module answers the Hibernate handshake. -/
def State.hibAnswer (s : State) (b : Nat) : State :=
  if !s.pwr.hibBusy || s.pwr.asleep || !hibBlocks.contains b then s
  else if s.hibRefuses b then s.refuseHibernate b
  else
  let s := if 16 ≤ b then s.askUnit (b - 16) 8 else s
  if s.hibDelays b || s.pwr.hibAccepted.contains b then s
  else
    let s := { s with pwr.hibAccepted := s.pwr.hibAccepted ++ [b] }
    if s.pwr.hibAccepted.length < hibBlocks.length then s else s.enterHibernate

/-- HANDSHAKE_ANSWER (R403 to R406): unit `unit` of a cluster, or for Hibernate the block with code `unit`. -/
def execHandshakeAnswer (hib : Bool) (cluster unit : Nat) (s : State) : Res := s.whenClocked fun s =>
  .next (if hib then s.hibAnswer unit else s.clusterAnswer cluster unit)

/-- HANDSHAKE_DELAY_LIMIT (R403): a unit that still delays counts as REFUSE. -/
def execHandshakeDelayLimit (hib : Bool) (cluster unit : Nat) (s : State) : Res := s.whenClocked fun s =>
  .next (if hib then (if s.pwr.hibBusy && !s.pwr.asleep && s.hibDelays unit then s.refuseHibernate unit else s)
    else if s.inHandshake cluster && decide (unit < clusterUnits cluster) && s.unitDelays cluster unit then s.refuseEntry cluster unit else s)

/-- PWR_HIB_CTRL is written: ENTER is taken as 0 with no wake source enabled (R418). -/
def State.writeHibCtrl (s : State) (v : W32) : State :=
  let go := bitOf v 31 && bitsOf v 3 0 != 0
  let s := (s.writeContext Reg.PWR_HIB_CTRL v (if bitsOf v 3 0 = 0 then setBitsOf v 31 31 0 else v)).setBit Reg.PWR_HIB_CTRL 31 false
  if go then s.requestHibernate else s

/-- HIBERNATE_ENTER (R411): a write of PWR_HIB_CTRL with ENTER 1. -/
def execHibernateEnter (value : W32) (s : State) : Res :=
  .next (if bitOf value 31 then s.hostWriteTo Reg.PWR_HIB_CTRL (·.writeHibCtrl value) else s)

/-- PWR_HIB_TIMER: 0 with TIMER 1 is taken as 1 (R418). -/
def State.hibTicks (s : State) : Nat :=
  max 1 ((s.rd Reg.PWR_HIB_TIMER_LO).toNat + s.fld Reg.PWR_HIB_TIMER_HI 15 0 * 2 ^ 32)

/-! ## Doze -/

/-- DOZE_ENTRY_DONE (R409): the power switches are open. A wake that met the entry starts the exit (R415). -/
def State.dozeDone (s : State) (d : Nat) : State :=
  let c := s.cluster d
  if clusterCount ≤ d ∨ c.mode ≠ .entering ∨ !c.isolated then s
  else
    let s := s.setCluster d { c with mode := if c.wakeSeen then .exiting else .doze, accepted := [],
                                     last := if c.wakeSeen then 3 else 1, wakeSeen := false }
    let s := (s.bumpFld (Reg.PWR_CL_COUNT d) 31 16 1).clusterAnswered d 1 stOK
    if c.wakeSeen then s.noteWakeInEntry d else s.applyRequest d

/-- (DESIGN CHOICE, log entry 4) -/
def execDozeEntryDone (cluster : Nat) (s : State) : Res := .next (s.dozeDone cluster)

/-- Forgets the setup registers whose address satisfies `p`: they read their reset values again. -/
def State.forgetRegs (s : State) (p : Nat → Bool) : State := { s with regs := s.regs.filter (fun x => !p x.1) }

/-- Fills part of memory with zeros. -/
def State.zeroMem (s : State) (lo n : Nat) : State :=
  { s with mem := s.mem.filter (fun p => !(decide (lo ≤ p.1) && decide (p.1 < lo + n))) }

/-- Leaf memories of a quire, or its store, are zero-filled where their bank is not retained (R408): bit 0 IM, 1 XM, 2 YM,
3 the quire store. Within a leaf's window XM lies at 0, YM at 0x20000 and IM at 0x30000 (R166). -/
def State.zeroBanks (s : State) (q banks : Nat) : State :=
  let base := quireBase + q * 0x1000000
  let part := fun (s : State) (bit off n : Nat) =>
    if banks.testBit bit then s else (List.range 8).foldl (fun s l => s.zeroMem (base + l * 0x40000 + off) n) s
  let s := part (part (part s 0 0x30000 0x10000) 1 0 0x20000) 2 0x20000 0x10000
  if banks.testBit 3 then s else s.zeroMem (base + 0x200000) 0x200000

/-- Setup registers of a quire that RET_SAVE keeps: QUI_LEAF_CTRL and the breakpoints (R408). -/
def quireKept (q a : Nat) : Bool :=
  let o := a - Reg.QUI_LEAF_CTRL q
  o == 0 || (decide (0x8000 ≤ o) && decide (0x10 ≤ o % 0x1000) && decide (o % 0x1000 < 0x20))

/-- Setup registers of a lane that RET_SAVE keeps (R408): LN_CFG, LN_TX_TAPS, LN_TEST_CFG, LN_INJ, the counters, and
LN_QUAD_CFG of the quad. (DEDUCED, log entry 78) -/
def laneKept (o : Nat) : Bool := o == 0 || o == 0x10 || (decide (0x20 ≤ o) && decide (o ≤ 0x40)) || o == 0x400

/-- The registers of the cluster after Doze: what retention kept, else reset values, QUI_STALL among them (R408).
(DEDUCED, log entry 78) -/
def State.restoreCluster (s : State) (d : Nat) (save : Bool) (banks : Nat) : State :=
  if d < 24 then
    let s := s.forgetRegs (fun a => decide (Reg.QUI_LEAF_CTRL d ≤ a) && decide (a < Reg.QUI_LEAF_CTRL (d + 1)) && !(save && quireKept d a))
    let s := if save then (List.range 8).foldl (fun s i => s.setLeaf (8 * d + i) { s.leaf (8 * d + i) with stall := 0 }) s
      else { s with qui.leaves := s.qui.leaves.filter (fun p => decide (p.1 / 8 ≠ d)) }
    s.zeroBanks d banks
  else if d < 36 then
    if save then s
    else
      let g := (clusterGroup d).2
      s.forgetRegs (fun a =>
        if d < 28 then decide (Reg.COD_GRP_BUSY_LO g ≤ a) && decide (a ≤ Reg.COD_GRP_STALL g)
        else if d < 31 then decide (Reg.SPA_TILE_BUSY_LO (4 * g) ≤ a) && decide (a < Reg.SPA_TILE_BUSY_LO (4 * g + 4))
        else decide (Reg.SPC_GRP_BUSY_LO g ≤ a) && decide (a ≤ Reg.SPC_GRP_STALL g))
  else if d < 60 then
    let n := 4 * (d - 36)
    let s := s.forgetRegs (fun a => decide (Reg.LN_CFG n ≤ a) && decide (a < Reg.LN_CFG (n + 4)) && decide ((a - Reg.LN_CFG n) % 0x1000 < 0x800)
      && !(save && laneKept ((a - Reg.LN_CFG n) % 0x1000)))
    let s := if s.bit (Reg.LN_QUAD_CFG (d - 36)) 0 then s else { s with ln.qrefLost := s.ln.qrefLost.filter (· != d - 36) }
    (List.range 4).foldl (fun s i => s.setLane (n + i) { owner := (s.lane (n + i)).owner, rate := (s.lane (n + i)).rate }) s
  else if save then s else s.forgetRegs (· == Reg.STF_PORT_RETRY (d - 60))

/-- A saved leaf that was blocked in FETCH sends it again (R408). -/
def State.refetch (s : State) (q : Nat) : State :=
  (List.range 8).foldl (fun s i =>
    match (s.leaf (8 * q + i)).wait with
    | .fetch c => if s.heldInReset (8 * q + i) then s else s.addFetch (8 * q + i) c
    | _ => s) s

/-- Lanes that were enabled while their quad was dozing train now (R314, R410). (DEDUCED, log entry 78) -/
def State.trainOwned (s : State) (d : Nat) : State :=
  if 36 ≤ d ∧ d < 60 then (List.range 4).foldl (fun s i =>
    let l := s.lane (4 * (d - 36) + i)
    if l.owner == .none then s else s.ownLane (4 * (d - 36) + i) l.owner l.rate) s
  else s

/-- EXIT_DONE (R410): memories filled, registers restored, isolation released, PRESENT 1. -/
def State.exitDone (s : State) (d : Nat) : State :=
  let c := s.cluster d
  if clusterCount ≤ d ∨ c.mode ≠ .exiting then s
  else
    let s := s.restoreCluster d c.retSave c.retBanks
    let s := s.setCluster d { s.cluster d with mode := .run, isolated := false }
    let s := if d < 24 then (s.quirePresent d false).refetch d else (s.setPresent (clusterRequester d) true).trainOwned d
    let s := (s.raise Reg.PWR_EVENT 1).clusterAnswered d 3 stOK
    if (s.cluster d).request.isNone then s.clusterAnswered d 1 stABORTED else s.applyRequest d

/-- (DESIGN CHOICE, log entry 4) -/
def execExitDone (cluster : Nat) (s : State) : Res := .next (s.exitDone cluster)

/-- NAP_WAKE (R407, R415): traffic wakes a napping cluster, or meets its entry. -/
def State.napWake (s : State) (d : Nat) : State := if clusterCount ≤ d then s else s.wakeCluster d

/-- (DESIGN CHOICE, log entry 4) -/
def execNapWake (cluster : Nat) (s : State) : Res := s.whenClocked fun s => .next (s.napWake cluster)

/-! ## Registers that report (R418) -/

def PwrMode.code : PwrMode → Nat
  | .run => 0 | .nap => 1 | .doze => 2 | .entering => 3 | .exiting => 4

def State.pwrStatus (s : State) : W32 := BitVec.ofNat 32 (b2n s.pwr.hibBusy * 4 + s.pwr.lastHib % 4)
def State.hibCause (s : State) : W32 := BitVec.ofNat 32 (s.pwr.hibRefuser % 256 * 2 ^ 8 + s.pwr.hibWake % 16)
def State.clStatus (s : State) (d : Nat) : W32 :=
  let c := s.cluster d
  BitVec.ofNat 32 (c.mode.code * 2 ^ 29 + c.last % 4 * 2 ^ 27 + c.refuser % 256)

end Sys2Proof.Machine
end

