-- ==== Sys2Proof/Machine/Bar0.lean ====
section
/-! DEFINITION. Host accesses of the setup space (R3 to R9, R12, R13, R15): what each register reads as, the registers that
latch on a read (R8, R49), the one write dispatch, the MSI-X tables (R84, R104), and the rows that are register accesses. -/

namespace Sys2Proof.Machine

/-! ## Registers that report other state -/

def TaskMode.code : TaskMode → Nat
  | .undef => 0 | .idle => 1 | .waiting => 2 | .ready => 3 | .running => 4 | .cancelledRunning => 5

/-- A word from a number. -/
def w32 (n : Nat) : W32 := BitVec.ofNat 32 n
/-- Low and high word of a 64-bit number. -/
def lo32 (n : Nat) : W32 := BitVec.ofNat 32 n
def hi32 (n : Nat) : W32 := BitVec.ofNat 32 (n / 2 ^ 32)

/-- The words of a time triple (R49). -/
def tripleWord (t16 : Int) (i : Nat) : W32 :=
  if i = 0 then w32 (nsOf t16) else if i = 1 then w32 (unsignedOf 32 (secOf t16))
  else w32 (unsignedOf 16 (secOf t16 / 2 ^ 32) * 2 ^ 16 + fracOf t16)

/-- GLB_STATUS (R15). -/
def State.glbStatus (s : State) : W32 :=
  w32 (b2n (s.col.throttle != 0) * 32 + b2n s.glb.frozen * 16 + b2n s.tb.holdover * 8 + b2n s.tb.timeLocked * 4
    + b2n s.glb.memReady * 2 + b2n s.glb.coreReady)

/-- GLB_RESET_CAUSE (R444). -/
def State.resetCauseWord (s : State) : W32 := w32 (b2n s.rst.froze * 32 + b2n s.rst.pin * 16 + s.glb.resetCause % 16)

/-- TB_STATUS (R49). -/
def State.tbStatus (s : State) : W32 :=
  w32 (b2n s.tb.trefInPresent * 128 + b2n s.tb.synceInPresent * 64 + b2n s.tb.sleepOvf * 32 + b2n s.tb.synceLos * 16
    + b2n (s.tb.remainU != 0) * 8 + b2n s.tb.holdover * 4 + b2n s.tb.refPresent * 2 + b2n s.tb.timeLocked)

/-- HP_LINK_STATUS, and HP_FLR_BUSY of functions from `base` on (R113). -/
def State.linkStatus (s : State) : W32 :=
  w32 (b2n s.hp.dlUp * 2 ^ 15 + b2n s.hp.flit * 2 ^ 14 + s.hp.width % 32 * 2 ^ 8 + s.hp.speed % 16)
def State.flrBusy (s : State) (base : Nat) : W32 :=
  w32 ((List.range 32).map (fun i => b2n (s.fnOf (base + i)).flr * 2 ^ i)).sum

/-- SPN_PRESENT_k (R137). -/
def State.presentWord (s : State) (k : Nat) : W32 :=
  w32 ((List.range 32).map (fun j => b2n (decide (32 * k + j < requesterCount) && s.isPresent (32 * k + j)) * 2 ^ j)).sum

/-- GTH_TASK_STATE (R158). -/
def State.taskStateWord (s : State) : W32 :=
  let t := s.task (s.fld Reg.GTH_TASK_SEL 16 0)
  w32 (b2n t.timeout * 2 ^ 27 + t.mode.code * 2 ^ 24 + t.cls % 64 * 2 ^ 18 + t.half % 4 * 2 ^ 16 + t.carrier % 65536)

/-- QUI_LEAF_STATE codes (R182). -/
def State.leafStateCode (s : State) (n : Nat) : Nat :=
  let l := s.leaf n
  if s.heldInReset n then 0
  else if l.halted then 5
  else match l.wait with
    | .fetch _ => 2
    | .qpop _ _ _ => 3
    | .release _ _ | .releaseThenFetch _ => if s.gth.waitingReleases.any (·.leaf == n) then 4 else 1
    | .none | .qpush | .status => 1

def State.leafStates (s : State) (q : Nat) : W32 := w32 ((List.range 8).map (fun l => s.leafStateCode (8 * q + l) * 2 ^ (4 * l))).sum

/-- QUI_DBG_STATUS (R205). -/
def Leaf.dbgStatus (l : Leaf) : W32 :=
  w32 (b2n l.heldDispatch.isSome * 2 ^ 11 + l.withdrawn % 8 * 2 ^ 8 + b2n l.abortNotice * 16 + l.cause % 8 * 2 + b2n l.halted)

/-- DMA_CH_STATE_c (R225). -/
def DmaChan.stateWord (x : DmaChan) : W32 :=
  w32 ((match x.list with | p :: _ => if p.started then p.index % 4096 else 0 | [] => 0) * 2 ^ 16
    + b2n x.pqStopped * 2 ^ 13 + x.list.length % 32 * 2 ^ 8 + x.stateCode)

/-- SPA_WBUF_STATE and SPA_WBUF_SLOT_w of the selected carrier and half (R243). -/
def State.wbufSel (s : State) (w : Nat) : WBuf :=
  s.wbuf (wbufKey (s.fld Reg.SPA_WBUF_SEL 8 0) (if s.fld Reg.SPA_WBUF_SEL 10 9 = 2 then .dl else .ul) w)

/-- COL_STATUS (R436). -/
def State.colStatus (s : State) : W32 :=
  let slot := if s.col.running = 0 then s.col.slotA else s.col.slotB
  w32 (b2n s.glb.frozen * 128 + b2n s.col.recovery * 64 + b2n s.col.session.isSome * 32 + b2n (slot.mode == .trial) * 16
    + s.col.running % 2 * 8 + b2n s.col.serhamUp)

/-- What a register reads as where it reports other state; none where it reads what `regs` holds. Cycle counters that only
timing advances read a free value. `i`, `j` are the register's indices. (DEDUCED, log entries 10, 38) -/
def State.regReport (s : State) (id : RegId) (i j : Nat) : Option W32 :=
  let _free := w32 (Config.freeNat s.freeCtr)
  match id with
  | .GLB_STATUS => some s.glbStatus
  | .GLB_RESET_CAUSE => some s.resetCauseWord
  | .TB_TIME => some (tripleWord s.tb.time16 0)
  | .TB_TIME_SEC_LO => some (tripleWord s.tb.time16 1)
  | .TB_TIME_SEC_HI => some (tripleWord s.tb.time16 2)
  | .TB_OFFSET => some (tripleWord (s.tb.offsetU / uPer16) 0)
  | .TB_OFFSET_SEC_LO => some (tripleWord (s.tb.offsetU / uPer16) 1)
  | .TB_OFFSET_SEC_HI => some (tripleWord (s.tb.offsetU / uPer16) 2)
  | .TB_STATUS => some s.tbStatus
  | .TB_RAW_LO => some (lo32 s.tb.raw.toNat)
  | .TB_RAW_HI => some (hi32 s.tb.raw.toNat)
  | .TB_SLEW_REMAIN => some (w32 (unsignedOf 32 (s.tb.remainU / uPer16)))
  | .SLT_REF_FRAME => some s.refStamp
  | .SLT_MODULE_GEN => some (w32 s.slt.modSet.feltGen)
  | .SLT_CSTATE => some (s.cState i)
  | .SLT_CSLOT => some (s.cSlot i)
  | .SLT_CGEN_UL => some (w32 (s.carrier i).ul.feltGen)
  | .SLT_CGEN_DL => some (w32 (s.carrier i).dl.feltGen)
  | .SLT_CMOULD => some (s.cMould i)
  | .HP_LINK_STATUS => some s.linkStatus
  | .HP_FLR_BUSY_LO => some (s.flrBusy 0)
  | .HP_FLR_BUSY_HI => some (s.flrBusy 32)
  | .HP_RCTX_CMD => some (w32 (b2n s.hp.busy * 2 ^ 31))
  | .QMG_QCTX_CMD => some (w32 (b2n s.qm.busy * 2 ^ 31))
  | .SPN_PRESENT => some (s.presentWord i)
  | .SPN_ARB_STATUS => some (w32 (b2n (s.holdDone i) * 2 ^ 31 + (s.arbiter i).bursts.length % 128))
  | .GTH_HOLD_USED => some (w32 s.heldUsed)
  | .GTH_TASK_STATE => some s.taskStateWord
  | .GTH_TASK_PENDING => some (s.task (s.fld Reg.GTH_TASK_SEL 16 0)).pending
  | .GTH_TASK_LATCH => some (s.task (s.fld Reg.GTH_TASK_SEL 16 0)).latch
  | .GTH_TASK_SLOT => some (s.task (s.fld Reg.GTH_TASK_SEL 16 0)).slot
  | .GTH_TASK_SEQ => some (w32 (s.task (s.fld Reg.GTH_TASK_SEL 16 0)).seq)
  | .GTH_SIG_NEXT => some (w32 (s.sig (s.fld Reg.GTH_SIG_SEL 13 0)).next)
  | .GTH_SIG_ALLOC => some (w32 (s.sig (s.fld Reg.GTH_SIG_SEL 13 0)).alloc)
  | .GTH_SIG_HELD => some (w32 (s.sig (s.fld Reg.GTH_SIG_SEL 13 0)).heldCount)
  | .GTH_CLASS_READY => some (w32 (s.gth.tasks.filter (fun p => p.2.mode == .ready && p.2.cls == i)).length)
  | .GTH_CLASS_FETCH => some (w32 (s.gth.fetches.filter (fun f => f.cls == i)).length)
  | .QUI_LEAF_STATE => some (s.leafStates i)
  | .QUI_LSTAT => some (s.leaf (8 * i + j)).lstat
  | .QUI_LAOV_IDX => some (s.leaf (8 * i + j)).laovIdx
  | .QUI_PC => some (w32 ((s.leaf (8 * i + j)).pc % 8192))
  | .QUI_STALL => some (w32 (s.leaf (8 * i + j)).stall)
  | .QUI_DBG_STATUS => some (s.leaf (8 * i + j)).dbgStatus
  | .QUI_DBG_REG_DATA =>
    let l := s.leaf (8 * i + j)
    some (if l.halted then l.dbgRead (s.fld (Reg.QUI_DBG_REG_SEL i j) 14 8) (s.fld (Reg.QUI_DBG_REG_SEL i j) 4 0) else 0)
  | .DMA_CH_STATE => some (s.chan i).stateWord
  | .SPA_STATUS => some s.spaStatus
  | .SPA_WBUF_STATE => some (w32 ((List.range 4).map (fun w => (s.wbufSel w).state % 4 * 4 ^ w)).sum)
  | .SPA_WBUF_SLOT => some (s.wbufSel i).slot
  | .SPA_TILE_JOB => some (s.tileJob i)
  | .COD_STATUS => some s.codStatus
  | .COD_GRP_QUEUED => some (w32 (s.codQueued i))
  | .SPC_STATUS => some s.spcStatus
  | .SPC_DET_STATE => some s.detState
  | .SPC_TXP_STATE => some (s.txpState i)
  | .SPC_TXP_MARGIN => some (w32 ((s.path i).margin.toNat * 2 ^ 16))
  | .FH_PORT_STATUS => some (s.fhPortStatus i)
  | .LN_STATUS => some (s.lnStatus i)
  | .LN_TX_TAPS => some (s.lnTaps i)
  | .LN_PRBS_STAT => some (s.lnPrbsStat i)
  | .LN_QUAD_STATUS => some (s.lnQuadStatus i)
  | .LN_EVENT_SUM => some (s.lnEventSum i)
  | .STF_STATUS => some s.stfStatus
  | .STF_ROOT => some s.stfRoot
  | .STF_MAP_GEN => some s.stfMapGen
  | .STF_MAP_ENTRY => some s.stfMapEntry
  | .STF_SMAP_ENTRY => some s.stfSmapEntry
  | .STF_PORT_STATUS => some (s.stfPortStatus i)
  | .STF_BIND_STATE => some (s.stfBindState i)
  | .CAP_VAT_STATUS => some (s.vatStatus i)
  | .CAP_VAT_WPTR_LO => some (lo32 (s.ringOffset i (s.vat i).written))
  | .CAP_VAT_WPTR_HI => some (hi32 (s.ringOffset i (s.vat i).written))
  | .CAP_VAT_OLDEST_LO => some (lo32 (s.ringOffset i (s.vat i).oldest))
  | .CAP_VAT_OLDEST_HI => some (hi32 (s.ringOffset i (s.vat i).oldest))
  | .CAP_VAT_TRIG_LO => some (lo32 (s.ringOffset i (s.vat i).trig))
  | .CAP_VAT_TRIG_HI => some (hi32 (s.ringOffset i (s.vat i).trig))
  | .CAP_SPILL_STATUS => some (s.spillStatus i)
  | .CAP_PRESS_STATE => some (s.pressState i)
  | .MEM_STATUS => some s.memStatus
  | .MEM_CH_STATUS => some (s.memChStatus i)
  | .PWR_STATUS => some s.pwrStatus
  | .PWR_HIB_CAUSE => some s.hibCause
  | .PWR_CL_STATUS => some (s.clStatus i)
  | .COL_STATUS => some s.colStatus
  | .COL_MAINT_STATUS => some s.maintStatus
  | _ => none

/-- A stored word with its write-only fields reading 0 (R4). -/
def hideWo (fs : List RegField) (v : W32) : W32 :=
  fs.foldl (fun v f => if f.acc == Access.wo then setBitsOf v f.hi f.lo 0 else v) v

/-- The live value of the register at `a`, before any latch. -/
def State.live (s : State) (a : Nat) : W32 :=
  match findReg a with
  | none => 0
  | some (d, ix) => match s.regReport d.id (ix.getD 0 0) (ix.getD 1 0) with
    | some v => v
    | none => hideWo d.fields (s.rd a)

/-! ## Latches (R8, R49) -/

/-- Words above a register that a read of it latches: 1 for the low half of a pair the manual reads as R8 describes, 2 for
word +0x0 of a time triple, else 0. (DEDUCED, log entry 88) -/
def latchesAbove : RegId → Nat
  | .TB_TIME | .TB_OFFSET | .TB_PPS_IN | .TB_IRQ_STAMP => 2
  | .TB_RAW_LO | .TB_REFUSED_LO | .GTH_DISPATCH_LO | .DMA_CH_BADADDR_LO | .DMA_CH_BADDATA_LO | .SPA_JOBS_LO
  | .SPA_TILE_BUSY_LO | .COD_JOBS_LO | .COD_GRP_BUSY_LO | .SPC_JOBS_LO | .SPC_GRP_BUSY_LO | .FH_PORT_RXFR_LO
  | .FH_PORT_TXFR_LO | .LN_PRBS_ERR_LO | .LN_PRBS_BITS_LO | .CAP_TRIG_STAMP_LO | .CAP_VAT_WPTR_LO
  | .CAP_VAT_OLDEST_LO | .CAP_VAT_TRIG_LO | .CAP_SPILL_FRAMES_LO | .CAP_PRESS_SENT_LO => 1
  | _ => 0

/-- Words latched by a read of the register at `a`. (DEDUCED, log entry 88) -/
def latchCount (a : Nat) : Nat := match findReg a with | some (d, _) => latchesAbove d.id | none => 0

/-- The register at `a` reads what a read below it latched. (DEDUCED, log entry 88) -/
def isLatched (a : Nat) : Bool :=
  (decide (4 ≤ a) && decide (1 ≤ latchCount (a - 4))) || (decide (8 ≤ a) && latchCount (a - 8) == 2)

/-- The value of an aligned 32-bit read, gates apart. (DEDUCED, log entries 10, 88) -/
def State.readReg (s : State) (a : Nat) : W32 := if isLatched a then mapGet (fun _ => 0) s.glb.latch a else s.live a

/-- What an access reads: 0 for another width or alignment (R3), outside every register (R13), before CORE_READY outside GLB
(R15), and behind isolation. -/
def State.bar0Read (s : State) (a width : Nat) : W32 :=
  if width != 4 || a % 4 != 0 || (!s.glb.coreReady && blockOf a != some .glb) || s.regIsolated a then 0 else s.readReg a

/-- A BAR0 read reaches the module at all: not while its PF is in reset, while it sleeps, is in reset or off; while it is
frozen only the Colophon answers (R110 to R112, R433). -/
def State.bar0Answers (s : State) (a : Nat) : Bool :=
  !(s.fnOf 0).flr && !s.pwr.asleep && !s.rst.warmHeld && s.rst.power == .on && (!s.glb.frozen || blockOf a == some .col)

/-- Counters of a lane's checker advance before they are read (R327). (DESIGN CHOICE, log entry 11) -/
def State.settleRead (s : State) (a : Nat) : State :=
  match findReg a with
  | some (d, ix) => (match d.id with
    | .LN_PRBS_ERR_LO | .LN_PRBS_BITS_LO => s.settlePrbs (ix.getD 0 0)
    | .FH_PORT_FEC_CORR | .FH_PORT_FEC_UNCORR => s.settleFec (ix.getD 0 0)
    | .LN_LB_ERR => s.settleBlkErr (ix.getD 0 0)
    | _ => s)
  | none => s

/-- A read of the register at `a`, latching what stands above it (R8, R49). (DESIGN CHOICE, log entry 15) -/
def State.hostReadReg (s : State) (a width : Nat) : State :=
  if !s.bar0Answers a then { s with hostRead := [] }
  else if width != 4 || a % 4 != 0 || (!s.glb.coreReady && blockOf a != some .glb) || s.regIsolated a then { s with hostRead := [0] }
  else
    let s := s.settleRead a
    let s := (List.range (latchCount a)).foldl (fun s k =>
      { s with glb.latch := mapSet (fun _ => 0) s.glb.latch (a + 4 * (k + 1)) (s.live (a + 4 * (k + 1))) }) s
    { s with hostRead := [s.readReg a] }

/-- One 32-bit word of an MSI-X entry: address, data, vector control (R84). -/
def MsixEntry.word (e : MsixEntry) (k : Nat) : W32 :=
  if k = 0 then e.addr.setWidth 32 else if k = 1 then e.addr.extractLsb' 32 32 else if k = 2 then e.data else w32 (b2n e.masked)

/-- The word at offset `o` of function `f`'s MSI-X table, and of its PBA: bit i of the first word is vector i (R84, R104). -/
def State.msixTableWord (s : State) (f o : Nat) : W32 := if 512 ≤ o then 0 else (s.msixOf (32 * f + o / 16)).word (o % 16 / 4)
def State.pbaWord (s : State) (f o : Nat) : W32 :=
  if o = 0 then w32 ((List.range 32).map (fun i => b2n (s.hp.pba.contains (32 * f + i)) * 2 ^ i)).sum else 0

/-- An aligned access of 4 or 8 bytes (R84). -/
def wordsAt (o width : Nat) (word : Nat → W32) : List W32 :=
  if width = 4 ∧ o % 4 = 0 then [word o] else if width = 8 ∧ o % 8 = 0 then [word o, word (o + 4)] else [0]

/-- Where the PF's MSI-X table and PBA lie in BAR0, and those of a virtual function in its own (R84). -/
def msixTable (fn : Nat) : Nat := if fn = 0 then 0x00180000 else 0
def msixPba (fn : Nat) : Nat := if fn = 0 then 0x00181000 else 0x2000
def inMsixTable (fn a : Nat) : Bool := decide (msixTable fn ≤ a ∧ a < msixTable fn + 512)
def inMsixPba (fn a : Nat) : Bool := decide (msixPba fn ≤ a ∧ a < msixPba fn + 8)

/-- What an access of the MSI-X table or PBA of function `fn` reads; none elsewhere. -/
def State.msixRead (s : State) (fn a width : Nat) : Option (List W32) :=
  if inMsixTable fn a then some (wordsAt (a - msixTable fn) width (s.msixTableWord fn))
  else if inMsixPba fn a then some (wordsAt (a - msixPba fn) width (s.pbaWord fn))
  else none

/-- What a field of configuration space reads (R81, R83, R84, R102); the SR-IOV capability is the PF's. A BAR reads as PCIe
sizes it. (DESIGN CHOICE, log entry 100) -/
def State.configField (s : State) (fn : Nat) (f : CfgField) : List W32 :=
  match f with
  | .vendorId => [w32 Config.vendorId.toNat]
  | .deviceId => [if fn = 0 then 0x9616 else 0x9617]
  | .revisionId => [0xB0]
  | .classCode => [0x0B4000]
  | .subsystem => [s.hp.subsys]
  | .bar i => match barOf fn i with
    | some b => let v := 2 ^ 64 - b.1 + 4 + 8 * b2n b.2; [lo32 v, hi32 v]
    | none => [0, 0]
  | .msixTableSize => [31]
  | .msixEnable => [w32 (b2n (s.fnOf fn).msixEnable)]
  | .busMasterEnable => [w32 (b2n (s.fnOf fn).busMaster)]
  | .totalVfs => if fn = 0 then [63] else []
  | .firstVfOffset | .vfStride => if fn = 0 then [1] else []
  | .numVfs => if fn = 0 then [w32 s.hp.numVfs] else []
  | .vfEnable => if fn = 0 then [w32 (b2n s.hp.vfEnable)] else []

/-- A host read of a function (R3, R84, R95, R110, R112): no data where the function does not answer. -/
def State.hostAccess (s : State) (fn : Nat) (what : HostAccess) : State :=
  match what with
  | .bar0 a width =>
    if fn = 0 then
      (match s.msixRead 0 a width with
       | some l => { s with hostRead := if !s.bar0Answers a then [] else if s.glb.coreReady then l else [0] }
       | none => if inBar 0 0 a then s.hostReadReg a width else { s with hostRead := [] })
    else { s with hostRead := if s.vfAnswers fn && inBar fn 0 a then (s.msixRead fn a width).getD [0] else [] }
  | .bar2 o _ => { s with hostRead := if s.vfAnswers fn && inBar fn 2 o then [0] else [] }
  | .config f =>
    { s with hostRead := if s.cfgAnswers fn then s.configField fn f else [] }

/-- LOW_HALF_READ (R8), and every other host read that has no row of its own. (DESIGN CHOICE, log entry 100) -/
def execLowHalfRead (read : HostRead) (s : State) : Res := .next (s.hostAccess read.fn read.what)
/-- TIME_TRIPLE_READ (R49). -/
def execTimeTripleRead (addr : Nat) (s : State) : Res := .next (s.hostReadReg addr 4)

/-! ## The write dispatch -/

/-- HP_RCTX_CLAMP (R113): CLEAR acts at once on the selected QID, and on the window. -/
def State.writeRctxClamp (s : State) (v : W32) : State :=
  let q := s.fld Reg.HP_RCTX_SEL 15 0
  if bitOf v 31 then (s.setRing q { s.ring q with clampCount := 0 }).wr Reg.HP_RCTX_CLAMP 0 else s

/-- QUI_DBG_CTRL (R205): HALT before RESUME before STEP. -/
def State.writeDbgCtrl (s : State) (n : Nat) (v : W32) : State :=
  if bitOf v 0 then s.haltRequest n else if bitOf v 1 then s.resume n else if bitOf v 2 then s.debugStep n else s

/-- QUI_DBG_REG_SEL (R206): WORD above the last word of SEL is taken as that. -/
def State.writeDbgSel (s : State) (a : Nat) (v : W32) : State :=
  s.writeContext a v (setBitsOf v 4 0 (min (bitsOf v 4 0) (dbgLastWord (min 86 (bitsOf v 14 8)))))

/-- PWR_HIB_TIMER (R418): ticks of 0 with TIMER 1 are taken as 1. -/
def State.writeHibTimer (s : State) (a : Nat) (v : W32) : State :=
  let s := s.writeTable a v
  if s.bit Reg.PWR_HIB_CTRL 0 && s.rd Reg.PWR_HIB_TIMER_LO == 0 && s.fld Reg.PWR_HIB_TIMER_HI 15 0 == 0 then
    (s.wr Reg.PWR_HIB_TIMER_LO 1).clampAt Reg.PWR_CLAMP_COUNT
  else s

/-- COL_THERM_CFG (R436): WARN_C above THROTTLE_C is taken as THROTTLE_C. -/
def State.writeThermCfg (s : State) (v : W32) : State :=
  let t := min 110 (max 85 (bitsOf v 15 8))
  s.writeContext Reg.COL_THERM_CFG v (setBitsOf v 7 0 (min (bitsOf v 7 0) t))

/-- COL_MB_CTRL (R436): a write of 1 to GO while it is 1 is discarded and counted. -/
def State.writeMbCtrl (s : State) (v : W32) : State :=
  let go := s.bit Reg.COL_MB_CTRL 0
  (s.writeTable Reg.COL_MB_CTRL v).clampIf (go && bitOf v 0) Reg.COL_CLAMP_COUNT

/-- Every effect of an aligned 32-bit write to a register (R4): the registers that do more than hold a value, then the rest. -/
def State.regWrite (s : State) (d : RegDef) (i j a : Nat) (v : W32) : State :=
  match d.id with
  | .TB_RATE_LO | .TB_ADJ_LO | .TB_SET_NS | .TB_SET_SEC_LO => s.writeTbStaged a v
  | .TB_RATE_HI => s.writeRateHi v
  | .TB_ADJ_HI => s.writeAdjHi v
  | .TB_SET_SEC_HI => s.writeSetSecHi v
  | .TB_REF_CTRL => (s.writeRefCtrl v).settleSynce
  | .TB_STATUS => if bitOf v 2 then s.clearHoldover else s
  | .SLT_GRID_NS | .SLT_GRID_SEC_LO => s.writeGridStaged a v
  | .SLT_GRID_SEC_HI => s.writeGridSecHi v
  | .HP_RCTX_SEL => s.rctxSelect v
  | .HP_RCTX_CMD => s.rctxCommit v
  | .HP_RCTX_CFG0 | .HP_RCTX_BASE_LO | .HP_RCTX_BASE_HI | .HP_RCTX_WB_LO | .HP_RCTX_WB_HI | .HP_RCTX_CFG1 | .HP_RCTX_CFG2 =>
    s.rctxGate (·.writeTable a v)
  | .HP_RCTX_CLAMP => s.writeRctxClamp v
  | .QMG_QCTX_SEL => s.qctxSelect v
  | .QMG_QCTX_CMD => s.qctxCommit v
  | .QMG_QCTX_CFG0 | .QMG_QCTX_BASE_LO | .QMG_QCTX_BASE_HI | .QMG_QCTX_CFG1 | .QMG_QCTX_IDLE | .QMG_QCTX_NOTICE
  | .QMG_QCTX_COMMIT | .QMG_QCTX_BIND | .QMG_QCTX_WORDS | .QMG_QCTX_ITEMS | .QMG_QCTX_COUNTS | .QMG_QCTX_STATE =>
    s.qctxGate (·.writeTable a v)
  | .QUI_LEAF_CTRL => s.writeLeafCtrl i v (s.cluster i).isolated
  | .QUI_DBG_CTRL => s.writeDbgCtrl (8 * i + j) v
  | .QUI_DBG_REG_SEL => s.writeDbgSel a v
  | .QUI_DBG_REG_DATA => s.dbgRegWrite (8 * i + j) v
  | .DMA_CH_CFG => s.writeChanCfg i v
  | .SPA_JQ => s.writeJq 0 i v
  | .COD_JQ => s.writeJq 1 i v
  | .SPC_JQ => s.writeJq 2 i v
  | .COD_HARQ_BASE => s.writeHarqRegion false v
  | .COD_HARQ_SIZE => s.writeHarqRegion true v
  | .COD_LLR_TAB_LO => s.writeLlrTab false v
  | .COD_LLR_TAB_HI => s.writeLlrTab true v
  | .FH_PORT_CFG => s.writePortCfg i v
  | .LN_CFG => s.writeLnCfg i v
  | .LN_TX_TAPS => s.writeTaps i v
  | .LN_TEST_CFG => s.testEnable i v
  | .LN_INJ => s.injOne i v
  | .LN_CMD => s.retrain i v
  | .LN_QUAD_CFG => s.qrefSelect i v
  | .STF_CTRL => s.writeStfCtrl v
  | .STF_ID => s.writeStfId v
  | .STF_PORT_CFG => s.writeStfPort i v
  | .STF_ETH_GROUP_HI => s.writeContext a v (setBitsOf v 8 8 1)
  | .CAP_VAT_CFG | .CAP_VAT_BASE_LO | .CAP_VAT_BASE_HI | .CAP_VAT_PRE | .CAP_VAT_POST => s.writeVatReg i a v
  | .CAP_SPILL_CFG => s.writeSpillCfg i v
  | .MEM_INJ_LO => s.writeContext a v (setBitsOf v 5 0 0)
  | .MEM_INJ_CMD => s.eccInject v
  | .PWR_HIB_CTRL => s.writeHibCtrl v
  | .PWR_HIB_TIMER_LO | .PWR_HIB_TIMER_HI => s.writeHibTimer a v
  | .PWR_CL_CTRL => s.writeClCtrl i v
  | .COL_THERM_CFG => s.writeThermCfg v
  | .COL_MB_CTRL => s.writeMbCtrl v
  | .COL_MB_REQ => if s.bit Reg.COL_MB_CTRL 0 then s.clampAt Reg.COL_CLAMP_COUNT else s.writeTable a v
  | _ => s.writeFields d a v

/-! ## MSI-X tables (R84, R104) -/

/-- One 32-bit word of an MSI-X entry: address, data, vector control. Clearing the mask lets a pending message go. -/
def State.writeMsixWord (s : State) (vec k : Nat) (v : W32) : State :=
  let e := s.msixOf vec
  if k = 0 then s.setMsix vec { e with addr := setBitsOf e.addr 31 0 v.toNat }
  else if k = 1 then s.setMsix vec { e with addr := setBitsOf e.addr 63 32 v.toNat }
  else if k = 2 then s.setMsix vec { e with data := v }
  else (s.setMsix vec { e with masked := bitOf v 0 }).sendPending vec

/-- An aligned write of 4 or 8 bytes at offset `o` of function `f`'s table; any other access does nothing. -/
def State.writeMsix (s : State) (f o width : Nat) (v : W64) : State :=
  if 512 ≤ o then s
  else if width = 4 ∧ o % 4 = 0 then s.writeMsixWord (32 * f + o / 16) (o % 16 / 4) (v.setWidth 32)
  else if width = 8 ∧ o % 8 = 0 then
    (s.writeMsixWord (32 * f + o / 16) (o % 16 / 4) (v.setWidth 32)).writeMsixWord (32 * f + o / 16) (o % 16 / 4 + 1)
      (v.extractLsb' 32 32)
  else s

/-! ## A host write -/

/-- The write, once the gates of BAR0 let it through (R3, R13). -/
def State.bar0Put (s : State) (a width : Nat) (v : W64) : State :=
  if inMsixTable 0 a then s.writeMsix 0 (a - msixTable 0) width v
  else if inMsixPba 0 a then s
  else if width ≠ 4 ∨ a % 4 ≠ 0 then s.clampFor a
  else match findReg a with
    | none => s.clampFor a
    | some (d, ix) => s.regWrite d (ix.getD 0 0) (ix.getD 1 0) a (v.setWidth 32)

/-- BAR0 is 64 MiB (R12). Before CORE_READY only an aligned 32-bit write reaches GLB_SCRATCH (R3, R15). -/
def State.bar0Write (s : State) (a width : Nat) (v : W64) : State :=
  if inBar 0 0 a then s.hostWriteTo a (·.bar0Put a width v) else s

/-- REGISTER_WRITE (R3, R4, R13, R84): a write of the PF's BAR0, or of the BAR0 of virtual function `fn`, which holds its MSI-X
table and PBA. -/
def execRegisterWrite (fn addr width : Nat) (value : W64) (s : State) : Res :=
  .next (if fn = 0 then s.bar0Write addr width value
    else if s.vfAnswers fn then s.writeMsix fn addr width value else s)

/-- SETUP_LOCK (R5): writing 0 has no effect. -/
def execSetupLock (value : W32) (s : State) : Res := .next (s.bar0Write Reg.GLB_SETUP_LOCK 4 (value.setWidth 64))

/-- CLAMP_COUNT_CLEAR (R105): CLEAR of a CLAMP_COUNT register, or of a ring's HP_RCTX_CLAMP. -/
def execClampCountClear (addr : Nat) (value : W32) (s : State) : Res :=
  .next (match findReg addr with
    | some (d, _) => if isCleared d.id || d.id == .HP_RCTX_CLAMP then s.bar0Write addr 4 (value.setWidth 64) else s
    | none => s)

/-- REF_SELECT (R40, R41): a write of TB_REF_CTRL; SYNCE_OUT's lane may change with it. -/
def execRefSelect (value : W32) (s : State) : Res := .next (s.bar0Write Reg.TB_REF_CTRL 4 (value.setWidth 64))

/-- LEAF_RESET and LEAF_RESET_RELEASE (R171, R182): writes of QUI_LEAF_CTRL. -/
def execLeafReset (quire : Nat) (value : W32) (s : State) : Res :=
  .next (if quire < 24 then s.bar0Write (Reg.QUI_LEAF_CTRL quire) 4 (value.setWidth 64) else s)
def execLeafResetRelease (quire : Nat) (value : W32) (s : State) : Res :=
  .next (if quire < 24 then s.bar0Write (Reg.QUI_LEAF_CTRL quire) 4 (value.setWidth 64) else s)

end Sys2Proof.Machine
end

