-- ==== Sys2Proof/Machine/Colophon.lean ====
section
/-! DEFINITION. Serham's messages, sensors, protection, log, update and read-out (The Colophon), and the start of waiting
maintenance activities. -/

namespace Sys2Proof.Machine

/-! ## Messages -/

/-- A message that Serham takes up: what a freeze refuses is answered REFUSED (R421); else its own effect follows.
(DEDUCED, log entry 81) -/
def State.message (s : State) (transport seq op : Nat) (frozenOk : Bool) (f : State → State) : State :=
  if !s.msgDue transport seq op then s
  else if s.glb.frozen && !frozenOk then s.respond transport seq op stREFUSED (s.lengthClamped transport) []
  else f s

/-- Answers with a status and no payload. -/
def State.answer (s : State) (transport seq op status : Nat) (clamped : Bool) : State :=
  s.respond transport seq op status (clamped || s.lengthClamped transport) []

/-- An image slot, 0 A or 1 B. -/
def ColState.slot (c : ColState) (k : Nat) : ImageSlot := if k = 0 then c.slotA else c.slotB
def ColState.setSlot (c : ColState) (k : Nat) (x : ImageSlot) : ColState := if k = 0 then { c with slotA := x } else { c with slotB := x }
def State.slotOf (s : State) (k : Nat) : ImageSlot := s.col.slot k
def State.setSlot (s : State) (k : Nat) (x : ImageSlot) : State := { s with col := s.col.setSlot k x }
def State.setSession (s : State) (x : Option Session) : State := { s with col.session := x }

/-- Codes of slot states in GET_INFO. -/
def SlotMode.code : SlotMode → Nat
  | .empty => 0 | .valid => 1 | .trial => 2 | .active => 3

/-- GET_INFO (R421): GLB_ID, STF_ID, Serham's version, state and SVN of both slots, the fused SVN, the boot count.
(PRESUMED, log entry 80) -/
def State.infoPayload (s : State) : List Byte :=
  bytesOfNat 4 (s.rd Reg.GLB_ID).toNat ++ bytesOfNat 4 (s.rd Reg.STF_ID).toNat
    ++ bytesOfNat 4 (s.slotOf s.col.running).version.toNat
    ++ bytesOfNat 4 (s.col.slotA.mode.code + s.col.slotA.svn % 256 * 2 ^ 8 + s.col.slotB.mode.code * 2 ^ 16 + s.col.slotB.svn % 256 * 2 ^ 24)
    ++ bytesOfNat 4 s.col.fusedSvn ++ bytesOfNat 4 s.col.bootCount

def execGetInfo (transport seq : Nat) (s : State) : Res :=
  .next (s.message transport seq 0x01 true fun s => s.respond transport seq 0x01 stOK (s.lengthClamped transport) s.infoPayload)

/-- One entry of READ_SENSORS: 15 bits of two's complement, saturated to the sensor's range, bit 15 where it was (R423).
(PRESUMED, log entry 80) -/
def sensorEntry (lo hi v : Int) : List Byte :=
  bytesOfNat 2 (unsignedOf 15 (max lo (min hi v)) + b2n (decide (v < lo) || decide (hi < v)) * 2 ^ 15)

/-- Sensor ranges of the twelve rails, mV and 10 mA (R449). -/
def railRanges : List (Int × Int) := [(940, 60), (940, 300), (2250, 150), (940, 28800), (940, 3600), (940, 2600), (1060, 2800),
  (1060, 2800), (1500, 2000), (2250, 330), (1380, 820), (1380, 4600)]

/-- READ_SENSORS (R421, R423): every sensor of the latest sample, in the order of the table. (PRESUMED, log entry 80) -/
def State.sensorPayload (s : State) : List Byte :=
  let x := s.col.sensors
  (List.range 24).flatMap (fun i => sensorEntry (-640) 2400 (x.junction.getD i 0)) ++ sensorEntry (-640) 2400 x.lid
    ++ sensorEntry 0 6600 x.vin ++ sensorEntry 0 6000 x.iin ++ sensorEntry 0 4000 x.power
    ++ (List.range 12).flatMap (fun i =>
      sensorEntry 0 (railRanges.getD i (0, 0)).1 (x.rails.getD i (0, 0)).1 ++ sensorEntry 0 (railRanges.getD i (0, 0)).2 (x.rails.getD i (0, 0)).2)
    ++ (List.range 16).flatMap (fun i => bytesOfNat 2 (x.dram.getD i 0))

def execReadSensors (transport seq : Nat) (s : State) : Res :=
  .next (s.message transport seq 0x02 true fun s => s.respond transport seq 0x02 stOK (s.lengthClamped transport) s.sensorPayload)

/-- A log entry as R426 lays it out. -/
def LogEntry.bytes (e : LogEntry) : List Byte :=
  bytesOfNat 4 (e.type * 2 ^ 24 + e.sev * 2 ^ 16 + e.boot) ++ bytesOfNat 4 e.seq ++ bytesOfNat 8 e.time.toNat ++ bytesOfNat 16 e.data.toNat

/-- GET_LOG (R421): up to `count` entries from SEQ `first` on, oldest first; a count of 0 is taken as 1, above 7 as 7.
(DEDUCED, log entry 84) -/
def State.getLog (s : State) (transport seq : Nat) (first : W32) (count : Nat) : State :=
  let n := max 1 (min 7 count)
  let l := ((s.col.flashLog ++ s.col.mram).filter (fun e => decide (first.toNat ≤ e.seq))).take n
  s.respond transport seq 0x03 stOK (n != count || s.lengthClamped transport) (l.flatMap LogEntry.bytes)

def execGetLog (transport seq : Nat) (first : W32) (count : Nat) (s : State) : Res :=
  .next (s.message transport seq 0x03 true fun s => s.getLog transport seq first count)

/-! ## Update (R428 to R430) -/

/-- Logs an UPDATE entry (R427). (PRESUMED, log entry 80) -/
def State.logUpdate (s : State) (op slot status : Nat) : State :=
  s.log 0x06 (if status = stOK then 0 else 2) (BitVec.ofNat 128 (op + slot % 256 * 2 ^ 8 + status * 2 ^ 16 + (s.slotOf slot).svn % 256 * 2 ^ 24))

/-- The largest image, 32 MiB (R428). -/
def imageMax : Nat := 33554432

/-- UPDATE_BEGIN (R430). (DEDUCED, log entry 82) -/
def State.updateBegin (s : State) (transport seq slot length : Nat) : State :=
  if s.col.session.isSome then s.answer transport seq 0x10 stBUSY false
  else if 1 < slot ∨ imageMax < length ∨ (slot = s.col.running ∧ !s.col.recovery) then s.answer transport seq 0x10 stREFUSED false
  else ((s.setSlot slot {}).setSession (some ⟨transport, slot, length⟩)).answer transport seq 0x10 stOK false

def execUpdateBegin (transport seq slot length : Nat) (s : State) : Res :=
  .next (s.message transport seq 0x10 false fun s => s.updateBegin transport seq slot length)

/-- A message of an open session: REFUSED without one, BUSY from another transport (R430). (DEDUCED, log entry 82) -/
def State.inSession (s : State) (transport seq op : Nat) (f : Session → State) : State :=
  match s.col.session with
  | none => s.answer transport seq op stREFUSED false
  | some x => if x.transport = transport then f x else s.answer transport seq op stBUSY false

/-- Puts a chunk into a list kept in order of offsets. -/
def insertChunk (l : List (Nat × List Byte)) (o : Nat) (d : List Byte) : List (Nat × List Byte) :=
  match l with
  | [] => [(o, d)]
  | x :: r => if o < x.1 then (o, d) :: x :: r else x :: insertChunk r o d

/-- The bytes from 0 on that chunks in order cover without a gap. -/
def coverage (l : List (Nat × List Byte)) : Nat :=
  l.foldl (fun reach x => if x.1 ≤ reach then max reach (x.1 + x.2.length) else reach) 0

/-- A flash write is a maintenance activity (R397, R430): where it has to wait, the message stays outstanding on its
transport (R419). (DEDUCED, log entry 83) -/
def State.flashWrite (s : State) (transport seq op : Nat) (f : State → State) : State :=
  let x := s.requestActivity .flashWrite
  let m := (transport, seq, op)
  if x.2 then ((f x.1).endActivity .flashWrite).releaseMsg m else x.1.holdMsg m

/-- UPDATE_DATA (R430): data beyond the transport's payload limit is cut, with the clamp bit. -/
def State.updateData (s : State) (transport seq offset : Nat) (data : List Byte) : State :=
  s.inSession transport seq 0x11 fun x =>
    let room := payloadLimit transport - 4
    if imageMax < offset + (data.take room).length then s.answer transport seq 0x11 stREFUSED (decide (room < data.length))
    else s.flashWrite transport seq 0x11 fun s =>
      let y := s.slotOf x.slot
      (s.setSlot x.slot { y with data := insertChunk y.data offset (data.take room) }).answer transport seq 0x11 stOK (decide (room < data.length))

def execUpdateData (transport seq offset : Nat) (data : List Byte) (s : State) : Res :=
  .next (s.message transport seq 0x11 false fun s => s.updateData transport seq offset data)

/-- UPDATE_COMMIT (R430). `genuine`: key and signature verify; `version` and `svn` are what the image's header says.
(DEDUCED, log entry 82) -/
def State.updateCommit (s : State) (transport seq : Nat) (genuine : Bool) (version : W32) (svn : Nat) : State :=
  s.inSession transport seq 0x12 fun x =>
    let y := s.slotOf x.slot
    let st := if !genuine || decide (coverage y.data < x.length) then stBAD_SIG
      else if svn < s.col.fusedSvn then stROLLBACK else if 64 < svn then stSVN_RANGE else stOK
    let s := if st = stOK then
        (s.setSlot x.slot { y with mode := .valid, version := version, svn := svn % 256, genuine := true }).setSession none
      else s.setSlot x.slot {}
    (s.logUpdate 0x12 x.slot st).answer transport seq 0x12 st false

def execUpdateCommit (transport seq : Nat) (genuine : Bool) (version : W32) (svn : Nat) (s : State) : Res :=
  .next (s.message transport seq 0x12 false fun s => s.updateCommit transport seq genuine version svn)

/-- A VALID slot becomes TRIAL (R430); a slot that was TRIAL before is VALID again, since at most one is tried.
(DEDUCED, log entry 82) -/
def State.activateSlot (s : State) (transport seq slot : Nat) : State :=
  if 1 < slot ∨ (s.slotOf slot).mode ≠ .valid then s.answer transport seq 0x13 stREFUSED false
  else
    let o := s.slotOf (1 - slot)
    let s := (s.setSlot (1 - slot) { o with mode := if o.mode == .trial then .valid else o.mode }).setSlot slot
      { s.slotOf slot with mode := .trial }
    (({ s with col.trialBooted := false }).logUpdate 0x13 slot stOK).answer transport seq 0x13 stOK false

/-- UPDATE_ACTIVATE (R430): BUSY from another transport than an open session's. (DEDUCED, log entry 82) -/
def State.updateActivate (s : State) (transport seq slot : Nat) : State :=
  match s.col.session with
  | some x =>
    if x.transport = transport then s.activateSlot transport seq slot else s.answer transport seq 0x13 stBUSY false
  | none => s.activateSlot transport seq slot

def execUpdateActivate (transport seq slot : Nat) (s : State) : Res :=
  .next (s.message transport seq 0x13 false fun s => s.updateActivate transport seq slot)

/-- The slot that runs is a TRIAL slot. -/
def State.trialRuns (s : State) : Bool := s.col.trialBooted && (s.slotOf s.col.running).mode == .trial

/-- UPDATE_CONFIRM (R429): the running TRIAL slot becomes ACTIVE, the other one VALID unless it is EMPTY, and the fused SVN
rises to the image's. (DEDUCED, log entry 82) -/
def State.updateConfirm (s : State) (transport seq : Nat) : State :=
  if !s.trialRuns then s.answer transport seq 0x14 stREFUSED false
  else
    let r := s.col.running
    let o := 1 - r
    let run := s.slotOf r
    let other := s.slotOf o
    let c := (s.col.setSlot r { run with mode := .active }).setSlot o
      { other with mode := if other.mode == .empty then .empty else .valid }
    (({ s with col := { c with trialBooted := false, fusedSvn := max c.fusedSvn run.svn } }).logUpdate 0x14 r stOK).answer transport seq 0x14 stOK false

def execUpdateConfirm (transport seq : Nat) (s : State) : Res :=
  .next (s.message transport seq 0x14 false fun s => s.updateConfirm transport seq)

/-- The session closes and its slot is EMPTY (R421, R430). (DEDUCED, log entry 82) -/
def State.closeSession (s : State) (x : Session) : State :=
  ((s.setSlot x.slot {}).setSession none).logUpdate 0x15 x.slot stOK

/-- (DEDUCED, log entry 82) -/
def execUpdateAbort (transport seq : Nat) (s : State) : Res :=
  .next (s.message transport seq 0x15 false fun s =>
    s.inSession transport seq 0x15 fun x => (s.closeSession x).answer transport seq 0x15 stOK false)

/-- SESSION_TIMEOUT (R430). (DESIGN CHOICE, log entry 5) -/
def execSessionTimeout (s : State) : Res :=
  .next (match s.col.session with
    | some x => if s.col.serhamUp || s.col.recovery then s.closeSession x else s
    | none => s)

/-! ## Records -/

/-- Body bytes of the flash records (R422). -/
def recordLength (n : Nat) : Nat := if n = 0 ∨ n = 2 then 4 else if n = 1 then 72 else 20

/-- WRITE_RECORD (R422). -/
def State.writeRecord (s : State) (transport seq n : Nat) (body : List Byte) : State :=
  if 3 < n ∨ body.length ≠ recordLength n then s.answer transport seq 0x16 stREFUSED false
  else s.flashWrite transport seq 0x16 fun s =>
    ({ s with col.records := mapSet (fun _ => []) s.col.records n body }).answer transport seq 0x16 stOK false

def execWriteRecord (transport seq record : Nat) (body : List Byte) (s : State) : Res :=
  .next (s.message transport seq 0x16 false fun s => s.writeRecord transport seq record body)

/-! ## Freeze and read-out -/

/-- FREEZE (R421, R432): LEAD_US as STF_BCAST takes it, 0 for STF_FREEZE_LEAD, else 20 to 100,000. (DEDUCED, log entry 79) -/
def State.freezeMessage (s : State) (transport seq : Nat) (bcast : Bool) (leadUs : Nat) : State :=
  let l := leadUs % 2 ^ 17
  let lead := if l = 0 then s.freezeLead else max 20 (min 100000 l)
  if s.pwr.asleep then s.answer transport seq 0x20 stREFUSED false
  else (s.answer transport seq 0x20 stOK (l != 0 && lead != l)).requestFreeze 4 0 bcast lead

def execFreeze (transport seq : Nat) (bcast : Bool) (leadUs : Nat) (s : State) : Res :=
  .next (s.message transport seq 0x20 false fun s => s.freezeMessage transport seq bcast leadUs)

/-- The byte of a Spine space read-out: none outside the space; a dozing quire's memories read 0 where not retained (R416). -/
def State.peekByte (s : State) (a : Nat) : Option Byte :=
  match spineTarget a with
  | .module => some (s.byte (devicePlace s.mm.mapActive a))
  | .im n => some (if (s.cluster (n / 8)).isolated && !(s.cluster (n / 8)).retBanks.testBit 0 then 0 else s.byte a)
  | .quire q =>
    let o := a % 0x01000000
    let bank := if 0x200000 ≤ o then 3 else if o % 0x40000 < 0x20000 then 1 else 2
    some (if (s.cluster q).isolated && !(s.cluster q).retBanks.testBit bank then 0 else s.byte a)
  | .press => some (s.byte a)
  | .host _ | .unmapped => none

/-- What a read-out returns, and whether part of it lies outside the space's range (R435).
(DESIGN CHOICE, log entry 18; PRESUMED, log entry 80) -/
def State.readoutData (s : State) (space addr sub n : Nat) : List Byte × Bool :=
  match space with
  | 0 => ((List.range (n / 4)).flatMap (fun i => bytesOfNat 4
      (if s.regIsolated (addr / 4 * 4 + 4 * i) then 0 else (s.live (addr / 4 * 4 + 4 * i)).toNat)),
      decide (0x4000000 < addr + n))
  | 1 => ((List.range n).map (fun i => (s.peekByte (addr + i)).getD 0), (List.range n).any (fun i => (s.peekByte (addr + i)).isNone))
  | 4 =>
    let sel := sub / 2 ^ 8 % 128
    let w := sub % 32
    let ok := decide (addr < 192) && decide (sel ≤ 86)
    ((List.range (n / 4)).flatMap (fun i => bytesOfNat 4
      (if ok && decide (w + i ≤ dbgLastWord sel) && !(s.cluster (addr / 8)).isolated then ((s.leaf addr).dbgRead sel (w + i)).toNat else 0)),
      !ok || decide (dbgLastWord sel + 1 < w + n / 4))
  | 6 => ((bytesOfNat 8 s.col.frozenRaw.toNat ++ bytesOfNat 4 (s.col.freezeCause + s.col.freezeLine * 2 ^ 8) ++ s.freeBytes n).take n, false)
  | 2 => if addr < 16 ∧ 32 * sub + n ≤ 32 * 65536 then (s.freeBytes n, false) else (List.replicate n 0, true)
  | 3 => if addr < 17 then (s.freeBytes n, false) else (List.replicate n 0, true)
  | 5 => (s.freeBytes n, false)
  | _ => (List.replicate n 0, true)

/-- Bytes one READOUT returns at most (R435): 1 MiB over the management Ethernet. -/
def readoutLimit (transport : Nat) : Nat := if transport = viaEthernet then 1048576 else 240

/-- READOUT (R421, R435): no read acts on anything. -/
def State.readout (s : State) (transport seq space addr sub bytes : Nat) : State :=
  if !s.glb.frozen then s.answer transport seq 0x21 stNOT_FROZEN false
  else
    let n := min (readoutLimit transport) bytes
    let x := s.readoutData space addr sub n
    (s.drawn).respond transport seq 0x21 stOK (n != bytes || x.2 || s.lengthClamped transport) x.1

def execReadout (transport seq space : Nat) (addr : Nat) (sub bytes : Nat) (s : State) : Res :=
  .next (s.message transport seq 0x21 true fun s => s.readout transport seq space addr sub bytes)

/-! ## Power messages (R421) -/

/-- The message waits for the end of its transition. -/
def State.awaitPower (s : State) (transport seq op : Nat) (cluster : Option Nat) : State :=
  { s with col.replies := s.col.replies ++ [⟨transport, seq, op, cluster⟩] }

/-- POWER with OP DOZE: PWR_CL_CTRL_d takes the request and the retention bits (R401, R408). (DEDUCED, log entry 79) -/
def State.powerDoze (s : State) (transport seq d : Nat) (save : Bool) (banks : Nat) : State :=
  if clusterCount ≤ d ∨ s.pwr.asleep then s.answer transport seq 0x30 stREFUSED false
  else if (s.cluster d).mode = .doze then s.answer transport seq 0x30 stOK false
  else
    let a := Reg.PWR_CL_CTRL d
    let banks' := if d < 24 then banks % 16 else 0
    let s := (((s.setFld a 31 30 2).setBit a 28 save).setFld a 27 24 banks').clampIf (banks' != banks) Reg.COL_CLAMP_COUNT
    (s.awaitPower transport seq 1 (some d)).clusterRequest d 2

def execPowerDoze (transport seq cluster : Nat) (save : Bool) (banks : Nat) (s : State) : Res :=
  .next (s.message transport seq 0x30 false fun s => s.powerDoze transport seq cluster save banks)

/-- POWER with OP HIBERNATE: REFUSED with no wake source enabled, as PWR_HIB_CTRL.ENTER (R413, R418). (DEDUCED, log entry 79) -/
def execPowerHibernate (transport seq : Nat) (s : State) : Res :=
  .next (s.message transport seq 0x30 false fun s =>
    if s.pwr.asleep then s.answer transport seq 0x30 stOK false
    else if s.fld Reg.PWR_HIB_CTRL 3 0 = 0 then s.answer transport seq 0x30 stREFUSED false
    else (s.awaitPower transport seq 2 none).requestHibernate)

/-! ## Sensors and protection (R423, R424) -/

/-- The hottest junction and its number. -/
def hottest (l : List Int) : Nat × Int :=
  match l with
  | [] => (0, 0)
  | v :: r => (r.foldl (fun (x : Nat × Nat × Int) v => if x.2.2 < v then (x.1 + 1, x.1, v) else (x.1 + 1, x.2)) (1, 0, v)).2

/-- A THERMAL entry (R427). (DEDUCED, log entry 84) -/
def State.logThermal (s : State) (sensor : Nat) (temp : Int) (action sev : Nat) : State :=
  s.log 0x02 sev (BitVec.ofNat 128 (sensor + unsignedOf 16 temp * 2 ^ 8 + action * 2 ^ 24))

/-- A POWER entry from the latest sample (R427). (DEDUCED, log entry 84) -/
def State.logPower (s : State) : State :=
  let x := s.col.sensors
  s.log 0x03 1 (BitVec.ofNat 128 (unsignedOf 16 x.vin + unsignedOf 16 x.iin * 2 ^ 16 + unsignedOf 16 x.power * 2 ^ 32))

/-- WARN_C reached: ALERT_N, COL_EVENT.WARN, a log entry. -/
def State.protectWarn (s : State) (sensor : Nat) (temp : Int) : State :=
  let w := decide ((s.fld Reg.COL_THERM_CFG 7 0 * 16 : Nat) ≤ temp)
  let began := w && !s.col.warn
  let s := { s with col := { s.col with warn := w, alertLow := s.col.alertLow || w } }
  if began then (s.raise Reg.COL_EVENT 1).logThermal sensor temp 1 1 else s

/-- The throttle condition, with its hysteresis; the first cycle in 8 goes at once. -/
def State.protectThrottle (s : State) (sensor : Nat) (temp power : Int) (dramHot : Bool) : State :=
  let t : Int := (s.fld Reg.COL_THERM_CFG 15 8 * 16 : Nat)
  let p : Int := (s.fld Reg.COL_THERM_CFG 31 23 * 10 : Nat)
  let sets := decide (t ≤ temp) || decide (p < power) || dramHot
  let clears := decide (temp ≤ t - 48) && decide (power * 100 ≤ p * 95) && !dramHot
  let hot := sets || (s.col.hot && !clears)
  let begins := hot && s.col.throttle == 0
  let s := { s with col := { s.col with hot := hot, throttle := if begins then 1 else s.col.throttle } }
  if begins then
    let s := s.raise Reg.COL_EVENT 2
    if t ≤ temp then s.logThermal sensor temp 2 1 else if p < power then s.logPower else s
  else s

/-- 115 °C: THERM_N and a log entry. (DEDUCED, log entry 84) -/
def State.protectCritical (s : State) (sensor : Nat) (temp : Int) : State :=
  let c := decide (1840 ≤ temp)
  let began := c && !s.col.critical
  let s := { s with col := { s.col with critical := c, thermLow := s.col.thermLow || c } }
  if began then s.logThermal sensor temp 3 3 else s

/-- SENSOR_SAMPLE (R423, R424). The TEMP codes are the channels' (R394). -/
def State.sensorSample (s : State) (x : Sensors) : State :=
  let x := { x with dram := (List.range 16).map (fun c => (s.memChan c).temp) }
  let h := hottest x.junction
  let s := { s with col.sensors := x }
  ((s.protectWarn h.1 h.2).protectThrottle h.1 h.2 x.power (x.dram.any (fun t => decide (4 ≤ t)))).protectCritical h.1 h.2

def execSensorSample (junction : List Int) (lid vin iin power : Int) (rails : List (Int × Int)) (s : State) : Res :=
  .next (if s.col.serhamUp then s.sensorSample { junction := junction, lid := lid, vin := vin, iin := iin, power := power, rails := rails } else s)

/-- THROTTLE_STEP and THROTTLE_RESTORE (R424). (DESIGN CHOICE, log entry 5) -/
def execThrottleStep (s : State) : Res :=
  .next (if s.col.hot && decide (0 < s.col.throttle) && decide (s.col.throttle < 4) then { s with col.throttle := s.col.throttle + 1 } else s)
/-- (DESIGN CHOICE, log entry 5) -/
def execThrottleRestore (s : State) : Res :=
  .next (if !s.col.hot && decide (0 < s.col.throttle) then { s with col.throttle := s.col.throttle - 1 } else s)

/-- ALERT_RELEASE (R424): ALERT_N or THERM_N returns high once its condition has been clear for 1 s. -/
def execAlertRelease (therm : Bool) (s : State) : Res :=
  .next (if !s.col.serhamUp then s
    else if therm then (if s.col.critical then s else { s with col.thermLow := false })
    else if s.col.warn then s else { s with col.alertLow := false })

/-! ## Log compaction (R425) -/

/-- LOG_COMPACTION: due while the MRAM ring is half full. -/
def execLogCompaction (s : State) : Res :=
  .next (if s.col.serhamUp && decide (mramSize / 2 ≤ s.col.mram.length) then (s.requestActivity .compaction).1 else s)

/-- Erases the oldest flash entries, in sectors of 2,048, until `n` more fit. -/
def makeRoom (fuel : Nat) (l : List LogEntry) (n : Nat) : List LogEntry :=
  match fuel with
  | 0 => l
  | f + 1 => if l.length + n ≤ flashLogSize then l else makeRoom f (l.drop 2048) n

/-- COMPACTION_DONE: the oldest 8,192 entries are in flash and leave MRAM. (DESIGN CHOICE, log entry 4) -/
def execCompactionDone (s : State) : Res :=
  .next (if s.activityRuns .compaction then
      let moved := s.col.mram.take (mramSize / 2)
      { s.endActivity .compaction with col := { s.col with
        flashLog := makeRoom 8 s.col.flashLog moved.length ++ moved, mram := s.col.mram.drop (mramSize / 2) } }
    else s)

/-! ## Waiting activities (R397) -/

/-- What a waiting activity does when it starts. -/
def State.startActivity (s : State) (a : Activity) : State :=
  let s := { s with mm.waiting := s.mm.waiting.erase a, mm.running := s.mm.running ++ [a] }
  match a with
  | .scrub c => (if s.fld Reg.MEM_CFG 23 16 = 0 then s else s.scrubWord c).endActivity a
  | .laneRetrain k n =>
    let l := s.lane n
    let s := s.setLane n { l with retrainPending := false }
    (if l.owner == .spill k && (l.mode == .ready || l.mode == .up) then s.retrainNow n else s).endActivity a
  | .prbs q => (List.range 4).foldl (fun s i =>
      s.setLane (4 * q + i) { s.lane (4 * q + i) with prbsPending := false }) s
  | _ => s

/-- Serham's own activities run while the functional clocks stand (R431, R433). -/
def Activity.ofSerham (a : Activity) : Bool := a == .flashWrite || a == .compaction

/-- MAINT_START: the first waiting activity that nothing holds back any more; while the functional clocks stand, only one of
Serham's own. (DEDUCED, log entry 7) -/
def execMaintStart (s : State) : Res :=
  .next (match s.startable [] s.mm.waiting with
    | some a => if s.clocked || a.ofSerham then s.startActivity a else s
    | none => s)

/-! ## Other rows -/

/-- FREEZE_N_FALL (R432): the freeze controller runs on TCLK. -/
def execFreezeNFall (s : State) : Res :=
  .next (if s.tclkRuns && s.bit Reg.COL_FREEZE_CFG 0 then s.requestFreeze 1 0 false s.freezeLead else s)

/-- UNKNOWN_OPCODE (R420). -/
def execUnknownOpcode (transport seq opcode : Nat) (s : State) : Res :=
  .next (if knownOps.contains opcode || decide (256 ≤ opcode) then s
    else if s.msgDue transport seq opcode then s.answer transport seq opcode stREFUSED false else s)

/-- ARP_AND_ICMP_ECHO (R419, R422): answered while the management Ethernet has an address: an ARP request with the
interface's MAC and IPv4 address, an echo with its own data. -/
def execArpAndIcmpEcho (icmp : Bool) (data : List Byte) (s : State) : Res :=
  .next (if s.col.serhamUp && s.ipv4 != 0 then
      s.emit (.serham viaEthernet (if icmp then data else
        ((s.col.net.drop 16).take 2).reverse ++ ((s.col.net.drop 12).take 4).reverse ++ (s.col.net.take 4).reverse))
    else s)

end Sys2Proof.Machine
end

