-- ==== Sys2Proof/Machine/Delivery.lean ====
section
/-! DEFINITION. Delivery of fetched descriptors to the block their type names (R88 to R91). -/

namespace Sys2Proof.Machine

/-- NOP (R89): completes OK when accepted. Another TYPE that is taken as NOP is a clamp (R9, R105). (DEDUCED, log entry 26) -/
def execNop (d : Desc) (s : State) : Res := s.whenClocked fun s =>
  let cl := d.type != 0
  .next ((s.clampDesc d cl Reg.HP_CLAMP_COUNT).complete (d.ref cl) stOK 0)

/-- A CAP_VAT_CTRL by its OP (R372). -/
def vatCtrl (d : Desc) (s : State) : Res :=
  match d.fld 0x10 17 16 with
  | 1 => execVatArm d s
  | 2 => execVatTrigger d s
  | 3 => execVatStop d s
  | _ => .next ((s.clampDesc d (vatHalves d).2 Reg.CAP_CLAMP_COUNT).complete (d.ref (vatHalves d).2) stOK 0)

/-- A STF_BCAST by its OP (R348); OP 3 is a clamp (R9). -/
def bcastCtrl (d : Desc) (s : State) : Res :=
  match d.fld 0x10 31 30 with
  | 1 => execStfBcastFreeze d s
  | 2 => execStfBcastTrigger d s
  | op => .next ((s.clampDesc d (op == 3) Reg.STF_CLAMP_COUNT).complete (d.ref (op == 3)) stOK 0)

/-- A QUEUE_CTRL by its OP (R127). -/
def queueOp (d : Desc) (s : State) : Res :=
  match d.fld 0x10 17 16 with
  | 1 => execQueueDisable d s
  | 2 => execQueueEnable d s
  | 3 => execQueueFlush d s
  | _ => .next (s.queueNop d)

/-- A CARRIER_CTRL by its OP (R67). -/
def carrierOp (d : Desc) (s : State) : Res :=
  match d.fld 0x10 1 0 with
  | 1 => execCarrierDisable d s
  | 2 => execCarrierEnable d s
  | op => .next (s.carrierCtrl d (op == 3) (fun s _ => s))

/-- The block accepts the descriptor. What host memory holds at an FH_SEND's address, and whether the destination of a
migration takes part, reach the module from outside: here they are free. (DESIGN CHOICE, log entry 21; DEDUCED, log entry 26) -/
def accept (d : Desc) (s : State) : Res :=
  match typeOf d with
  | 0x0100 => queueOp d s
  | 0x0101 => execQueueWrite d s
  | 0x0200 => execTaskDefine d s
  | 0x0201 => execTaskArm d s
  | 0x0202 => execEventSet d s
  | 0x0203 => execTaskCancel d s
  | 0x0204 => execSigDefine d s
  | 0x0300 => execMouldWrite d s
  | 0x0301 => execMouldLoad d s
  | 0x0302 => execArm d s
  | 0x0303 => execSlotAbort d s
  | 0x0304 => carrierOp d s
  | 0x0400 => execDmaRun d s
  | 0x0401 => .next (s.dmaCtrl d)
  | 0x0402 => execDmaAbort d s
  | 0x0500 => execSpaJob d (s.served 0 8)
  | 0x0501 => execSpaAbort d s
  | 0x0502 => .next (s.engineCtrl 0 d)
  | 0x0600 => execCodJob d (s.served 1 8)
  | 0x0601 => execCodAbort d s
  | 0x0602 => .next (s.engineCtrl 1 d)
  | 0x0700 => execSpcJob d (s.served 2 8)
  | 0x0701 => execSpcAbort d s
  | 0x0702 => .next (s.engineCtrl 2 d)
  | 0x0703 => execSpcTxq d s
  | 0x0800 => execFhSend d (s.freeBytes (d.fld 0x10 13 0 + 60)) s.drawn
  | 0x0801 => execFhRxbuf d s
  | 0x0900 => execStfBind d s
  | 0x0901 => execStfMigrate d (s.freeBelow 2 == 1) s.drawn
  | 0x0902 => bcastCtrl d s
  | 0x0A00 => vatCtrl d s
  | 0x0A01 => execCapHostbuf d s
  | 0x0A02 => execCapPressStart d s
  | 0x0A03 => execCapPressStop d s
  | 0x0B00 => execMemFill d s
  | _ => execNop d s

/-- A job descriptor is taken when its engine has room and the descriptor path is the source it serves next (R237).
(DEDUCED, log entry 27) -/
def State.jobHeld (s : State) (d : Desc) : Bool :=
  let e := typeOf d / 256 - 5
  (typeOf d == 0x0500 || typeOf d == 0x0600 || typeOf d == 0x0700) && (s.engine e).enable
    && (decide (engCap e ≤ (s.engine e).jobs.length) || s.nextSource e != some 8)

/-- DESCRIPTOR_DELIVERY (R91): the oldest fetched descriptor of the ring for the block. (DESIGN CHOICE, log entry 21) -/
def execDescriptorDelivery (ring block : Nat) (s : State) : Res := s.whenClocked fun s =>
  match s.hp.fetched.find? (fun f => f.desc.ring == ring && blockOfDesc f.desc == block) with
  | none => .next s
  | some f =>
    if s.fenceHolds f || s.jobHeld f.desc then .next s
    else accept f.desc { s with hp.fetched := s.hp.fetched.erase f }

end Sys2Proof.Machine
end

