-- ==== Sys2Proof/Machine/Reset.lean ====
section
/-! DEFINITION. Resets, supplies and Hibernate's exit (Bring-up and reset; R412 to R414, R424, R448, R451): what each keeps,
the choice of the image, the flash records, and CORE_READY. -/

namespace Sys2Proof.Machine

/-! ## What survives -/

/-- What no reset of the module touches: the model's own records, the queue of commands and the draws (R443 for the log, the
flash slots, the records and the fuses). -/
def State.lastingCol (s : State) : ColState :=
  { mram := s.col.mram, flashLog := s.col.flashLog, nextSeq := s.col.nextSeq, lost := s.col.lost, bootCount := s.col.bootCount,
    records := s.col.records, fusedSvn := s.col.fusedSvn, running := s.col.running, trialBooted := s.col.trialBooted,
    slotA := if (s.col.session.map (·.slot)) = some 0 then {} else s.col.slotA,
    slotB := if (s.col.session.map (·.slot)) = some 1 then {} else s.col.slotB }

/-- The module with everything at its reset value and what lasts kept (R437, R443, R450). -/
def State.cleared (s : State) : State :=
  { pending := s.pending, out := s.out, bus := s.bus, hostRead := s.hostRead, freeCtr := s.freeCtr, col := s.lastingCol }

/-- The module without its main supply (R450, R451): all other state is lost. (DEDUCED, log entry 86) -/
def State.unpowered (s : State) (mode : PowerMode) (thermal : Bool) : State :=
  { s.cleared with rst := { power := mode, thermalSeen := thermal } }

/-- TB registers outside a warm reset (R442). (DEDUCED, log entry 86) -/
def warmKeeps (a : Nat) : Bool := a == Reg.TB_REF_CTRL || a == Reg.TB_RATE_LO || a == Reg.TB_RATE_HI

/-- The timebase through a warm reset (R442): raw counter, rate, offset and reference go on, and so do the detections of
the inputs; everything else is reset. (DEDUCED, log entry 86) -/
def TbState.warm (t : TbState) : TbState :=
  { raw := t.raw, offsetU := t.offsetU, rate := t.rate, pendingRate := t.pendingRate, synceInPresent := t.synceInPresent,
    trefInPresent := t.trefInPresent, refPresent := t.refPresent, timeLocked := t.timeLocked, refInUse := t.refInUse }

/-- Configuration space through a warm reset (R441, R443): kept, but for the MSI-X tables and PBAs; lost in Hibernate (R411),
all but the subsystem IDs, which only power-on and cold reset read from flash (R422). (DEDUCED, log entry 79) -/
def State.warmHp (s : State) : HpState :=
  if s.pwr.asleep then { subsys := s.hp.subsys }
  else { fns := mapMapSet (fun _ => {}) (fun _ (f : PcieFn) => { f with flr := false, waiting := [] }) s.hp.fns,
         vfEnable := s.hp.vfEnable, numVfs := s.hp.numVfs, dlUp := s.hp.dlUp, flit := s.hp.flit, width := s.hp.width,
         speed := s.hp.speed, subsys := s.hp.subsys }

/-- Module memory without what lies on chip. -/
def State.moduleBytes (s : State) : List Host.Cell := s.mem.filter (fun p => decide (p.1 < memSize))

/-- Every DDR5 device in self-refresh, its channel to be retrained (R387, R393, R441). -/
def MemState.selfRefreshed (m : MemState) (map : Nat) : MemState :=
  { mapActive := map, marks := m.marks,
    chans := (List.range 16).foldl (fun x c =>
      mapSet (fun _ => {}) x c ⟨false, true, 0, false⟩) [] }

/-- WRST_N has fallen (R441 to R443): module memory in self-refresh under the map last written, everything else in reset.
(DEDUCED, log entry 86) -/
def State.warmFallen (s : State) : State :=
  let map := s.fld Reg.MEM_CFG 31 30
  let c : State := { s.cleared with
    regs := s.regs.filter (fun p => warmKeeps p.1)
    mem := s.moduleBytes
    tb := s.tb.warm
    hp := s.warmHp
    mm := s.mm.selfRefreshed map
    glb := { resetCause := s.glb.resetCause }
    rst := { s.rst with warmHeld := true, froze := s.glb.frozen, pin := false }
    col := { s.lastingCol with net := s.col.net } }
  c.setFld Reg.MEM_CFG 31 30 map

/-! ## The choice of the image (R428) -/

/-- The slot boots: key and signature verify and its SVN is one the fuses allow. -/
def ColState.bootable (c : ColState) (k : Nat) : Bool :=
  let x := c.slot k
  x.mode != .empty && x.genuine && decide (c.fusedSvn ≤ x.svn) && decide (x.svn ≤ 64)

/-- A TRIAL slot whose trial is over reads VALID. -/
def ColState.endTrial (c : ColState) (k : Nat) : ColState :=
  if (c.slot k).mode == .trial then c.setSlot k { c.slot k with mode := .valid } else c

/-- The order in which slots are tried: TRIAL, ACTIVE, the other. (DEDUCED, log entry 85) -/
def ColState.bootOrder (c : ColState) : List Nat :=
  let has := fun (m : SlotMode) => ([0, 1] : List Nat).filter (fun k => (c.slot k).mode == m)
  let l := has .trial ++ has .active
  l ++ ([0, 1] : List Nat).filter (fun k => !l.contains k)

/-- Tries the slots in order; a TRIAL slot that does not boot is VALID. No slot: recovery. (DEDUCED, log entry 85) -/
def ColState.tryBoot (c : ColState) (l : List Nat) : ColState :=
  match l with
  | [] => { c with recovery := true, serhamUp := false }
  | k :: r =>
    if c.bootable k then { c with running := k, trialBooted := (c.slot k).mode == .trial, serhamUp := true, recovery := false,
                                  bootCount := c.bootCount + 1, alertLow := false, thermLow := false }
    else (c.endTrial k).tryBoot r

/-- The boot ROM's choice: a TRIAL slot that has been booted once and not confirmed reads VALID first. (DEDUCED, log entry 85) -/
def ColState.boot (c : ColState) : ColState :=
  let c := if c.trialBooted then { c.endTrial c.running with trialBooted := false } else c
  c.tryBoot c.bootOrder

/-! ## Flash records (R422) -/

/-- A word of a record's body; an absent record reads 0. -/
def State.recordWord (s : State) (n o : Nat) : Nat := natOfBytes (((mapGet (fun _ => []) s.col.records n).drop o).take 4)

/-- Clamps that Serham's own writes met count at the Colophon. (DEDUCED, log entry 85) -/
def State.collectClamps (s : State) : State :=
  let n := s.fld Reg.STF_CLAMP_COUNT 15 0 + s.fld Reg.FH_CLAMP_COUNT 15 0
  ((s.bumpFld Reg.COL_CLAMP_COUNT 15 0 n).setFld Reg.STF_CLAMP_COUNT 15 0 0).setFld Reg.FH_CLAMP_COUNT 15 0 0

/-- The gateway port, where ETH_EN is 1: FH_PORT_CFG with EN and STITCH_EN, and the port's MAC address. -/
def State.loadGateway (s : State) : State :=
  let ctrl := s.recordWord 1 4
  let gw := s.recordWord 1 0x0C
  let p := min 95 (ctrl / 2 ^ 23 % 128)
  if ctrl / 2 ^ 30 % 2 = 0 then s
  else
    let cfg := 2 ^ 31 + gw / 2 ^ 24 % 16 * 2 ^ 24 + gw / 2 ^ 23 % 2 * 2 ^ 23 + 2 ^ 21 + gw % 2 ^ 14
    ((s.writePortCfg p (w32 cfg)).wr (Reg.FH_PORT_MAC_LO p) (w32 (s.recordWord 1 0x10))).wr (Reg.FH_PORT_MAC_HI p)
      (w32 (s.recordWord 1 0x14 % 65536))

/-- Lanes with an owner wait for CORE_READY (R422, R439). (DEDUCED, log entry 86) -/
def State.parkLanes (s : State) : State :=
  { s with ln.lanes := mapMapSet (fun _ => {}) (fun _ (l : Lane) => { l with mode := .off }) s.ln.lanes }

/-- The stitch record: STF_ID, the gateway port, STF_CTRL, every STF_PORT_CFG_k, SOURCE and STEP_PERMIT. -/
def State.loadStitch (s : State) : State :=
  let s := (s.writeStfId (w32 (s.recordWord 1 0))).loadGateway
  let s := s.writeStfCtrl (w32 (s.recordWord 1 4 / 2 ^ 23 * 2 ^ 23))
  let s := (List.range 12).foldl (fun s k => s.writeStfPort k (w32 (s.recordWord 1 (0x18 + 4 * k)))) s
  let t := s.recordWord 1 8
  let s := s.wr Reg.TB_CTRL (w32 (t / 2 ^ 31 % 2 + t / 2 ^ 30 % 2 * 2 ^ 8))
  s.collectClamps.parkLanes

/-- The records that only power-on and cold reset read: PCIe IDs, memory, network. MAP 3 is taken as 0. (DEDUCED, log entry 85) -/
def State.loadCold (s : State) : State :=
  let m := s.recordWord 2 0 / 2 ^ 30 % 4
  let map := if m = 3 then 0 else m
  let s := { s with hp.subsys := w32 (s.recordWord 0 0), mm.mapActive := map, col.net := mapGet (fun _ => []) s.col.records 3 }
  (s.setFld Reg.MEM_CFG 31 30 map).clampIf (m == 3) Reg.COL_CLAMP_COUNT

/-! ## Boot -/

/-- A BOOT entry (R427). -/
def State.logBoot (s : State) (cause : Nat) : State :=
  let x := s.slotOf s.col.running
  s.log 0x01 0 (BitVec.ofNat 128 (s.col.running + x.version.toNat * 2 ^ 8 + x.svn % 256 * 2 ^ 40 + cause * 2 ^ 48))

/-- The boot ROM chooses an image; Serham logs the boot, reads the records and releases the dies (R428, R439, R441).
(DEDUCED, log entry 85) -/
def State.bootUp (s : State) (cold : Bool) (cause : Nat) : State :=
  let s := { s with col := s.col.boot, glb := { s.glb with resetCause := cause } }
  if s.col.serhamUp then
    let s := s.logBoot cause
    let s := if cold then s.loadCold else s
    s.loadStitch.settleSynce
  else s

/-- A power-on or cold start from the boot ROM on (R439). (DEDUCED, log entry 86) -/
def State.coldStart (s : State) (cause : Nat) (froze pin : Bool) : State :=
  ({ s.cleared with rst := { froze := froze, pin := pin } }).bootUp true cause

/-- POWER_ON (R437, R439, R448): VIN and PWR_EN are there and the module was Off, or has not booted yet. -/
def State.powerOn (s : State) : State :=
  let c := if s.rst.thermalSeen then 4 else 1
  match s.rst.power with
  | .off | .undervoltage => s.coldStart c false false
  | .on => if s.col.serhamUp || s.col.recovery || s.rst.warmHeld then s else s.coldStart c false false
  | _ => s

/-- (DEDUCED, log entry 85) -/
def execPowerOn (s : State) : Res := .next s.powerOn

/-- COLD_RESET (R437, R438): RESET_N; the converters stay on. It also ends a warm reset, Hibernate or a freeze. -/
def execColdReset (s : State) : Res := .next (if s.rst.power = .on then s.coldStart 1 s.glb.frozen true else s)

/-- WARM_RESET (R441): WRST_N falls. -/
def execWarmReset (s : State) : Res := .next (if s.rst.power = .on ∧ !s.rst.warmHeld then s.warmFallen else s)

/-- WARM_RESET_RELEASE (R441): WRST_N rises. -/
def execWarmResetRelease (s : State) : Res :=
  .next (if s.rst.power = .on ∧ s.rst.warmHeld then { s with rst.warmHeld := false }.bootUp false 2 else s)

/-- A lane with an owner leaves OFF (R439). -/
def State.wakeLane (s : State) (n : Nat) : State :=
  if (s.lane n).owner != .none && (s.lane n).mode == .off then s.enterSend n else s

/-- CORE_READY (R134, R167, R393, R439, R443): on-chip memories hold zeros, requesters present themselves but for quires whose
leaves are all in reset and clusters behind clamps, the owned lanes enter SEND, the memory starts, and the grid goes on at the next frame
boundary (R53). After Hibernate the
module asserts PE_WAKE_N until the data link is up (R414). (DEDUCED, log entry 79) -/
def State.makeCoreReady (s : State) : State :=
  let s := { s with
    glb := { s.glb with coreReady := true }
    mem := s.moduleBytes
    mm.initBusy := s.rst.coldMem
    pwr.peWake := s.glb.resetCause == 3 && !s.hp.dlUp }
  let s := (List.range requesterCount).foldl (fun s r => s.setPresent r (decide (24 ≤ r))) s
  let s := (List.range clusterCount).foldl (fun s d =>
    if d < 24 then s.quirePresent d (s.cluster d).isolated else s.setPresent (clusterRequester d) (!(s.cluster d).isolated)) s.resumeGrid
  ((List.range 96).foldl (fun s n => s.wakeLane n) s).answerPower (fun r => r.op == 3 && r.cluster == none) stOK

def execCoreReady (s : State) : Res :=
  .next (if s.col.serhamUp && !s.glb.coreReady && s.rst.power == .on && !s.rst.warmHeld && !s.pwr.asleep && !s.glb.frozen
    then s.makeCoreReady else s)

/-! ## Hibernate's exit (R47, R412 to R415) -/

/-- The always-on counter saturates at 2^48 − 1 (R47). -/
def aonMax : Nat := 2 ^ 48 - 1

/-- TB_HOLDOVER_UNC after a sleep of `count` ticks of 40 ns: 0.5 ppm of it plus 40 ns. How a part of a ns is rounded is open.
(DESIGN CHOICE, log entry 15) -/
def State.sleepUnc (s : State) (count : Nat) : Nat :=
  if aonMax ≤ count then 4294967295
  else satTo 4294967295 (count / 50000 + 40 + (if count % 50000 = 0 then 0 else s.freeBelow 2))

/-- Setup registers of the Hibernate list (R412). (DEDUCED, log entry 79) -/
def hibernateKeeps (a : Nat) : Bool :=
  warmKeeps a || [Reg.TB_CTRL, Reg.TB_STEP_LIMIT, Reg.TB_SLEW_MAX, Reg.TB_PPS_OUT_CTRL, Reg.TB_PPS_OUT_OFFSET, Reg.SLT_GRID_NS,
    Reg.SLT_GRID_SEC_LO, Reg.SLT_GRID_SEC_HI, Reg.STF_ID, Reg.STF_CTRL, Reg.MEM_CFG].contains a
    || (List.range 12).any (fun k => a == Reg.STF_PORT_CFG k) || blockOf a == some .pwr

/-- The Hibernate list restored over a module as after a warm reset (R412), dozing clusters with what they saved.
(DEDUCED, log entry 79) -/
def State.hibernateRestored (s : State) : State :=
  let c : State := { s.cleared with
    regs := s.regs.filter (fun p => hibernateKeeps p.1 || s.regIsolated p.1)
    mem := s.moduleBytes
    tb := { s.tb.warm with stitchSource := s.tb.stitchSource }
    slt := { originNs := s.slt.originNs, nextFrame := s.slt.nextFrame }
    hp := { subsys := s.hp.subsys }
    mm := s.mm.selfRefreshed s.mm.mapActive
    qui := { leaves := s.qui.leaves.filter (fun p => (s.cluster (p.1 / 8)).isolated) }
    glb := { resetCause := 3 }
    rst := { s.rst with froze := false, pin := false }
    pwr := { s.pwr with asleep := false, hibBusy := false, hibAccepted := [], wakeSeen := 0, lastHib := 1, hibWake := 0 }
    col := { s.col with throttle := 0, hot := false } }
  let c := (List.range 12).foldl (fun (c : State) k =>
    if c.bit (Reg.STF_PORT_CFG k) 31 then
      (List.range (c.stfLanes k).2).foldl (fun c i => c.ownLane ((c.stfLanes k).1 + i) (.stitch k) (if c.bit (Reg.STF_PORT_CFG k) 25 then 3 else 1)) c
    else c) c
  c.electSelf.parkLanes

/-- R47: the raw counter advances by the sleep, HOLDOVER is set, and the uncertainty is written. -/
def State.advanceTime (s : State) (count : Nat) : State :=
  let n := min aonMax count
  let unc := s.sleepUnc count
  let s := { s.drawn with tb := { s.tb with raw := s.tb.raw + BitVec.ofNat 64 (40 * n), holdover := true, sleepOvf := decide (aonMax ≤ count) } }
  ((s.wr Reg.TB_HOLDOVER_UNC (w32 unc)).raise Reg.TB_EVENT 6).resumeGrid

/-- The wake sources of PWR_HIB_CTRL (R413, R418): 0 TIMER, 1 MGMT, 2 PERST, 3 TRIG. -/
def State.wakeEnabled (s : State) (source : Nat) : Bool := decide (source < 4) && s.bit Reg.PWR_HIB_CTRL source

/-- The module leaves Hibernate (R414): the cause latches, the Hibernate list is restored, time advances, PWR_EVENT.HIB_WAKE is
set, and so is WAKE_IN_ENTRY where a wake met the entry (R415). (DEDUCED, log entry 79) -/
def State.leaveHibernate (s : State) (mask count : Nat) : State :=
  let met := s.pwr.wakeSeen
  let s := (s.hibernateRestored.advanceTime count).settleSynce
  let s := { s with pwr := { s.pwr with hibWake := (met ||| mask) % 16, lastHib := 1 } }
  let s := s.logBoot 3
  let s := s.raise Reg.PWR_EVENT 3
  if met = 0 then s else s.raise Reg.PWR_EVENT 2

/-- A wake source fires: it ends Hibernate, or is remembered while an entry runs (R414, R415). -/
def State.hibernateWake (s : State) (source count : Nat) : State :=
  if s.pwr.asleep && (s.wakeEnabled source || s.pwr.wakeSeen != 0) then
    s.leaveHibernate (if s.wakeEnabled source then 2 ^ source else 0) count
  else if s.pwr.hibBusy && s.wakeEnabled source then { s with pwr.wakeSeen := s.pwr.wakeSeen ||| 2 ^ source }
  else s

/-- HIBERNATE_WAKE: `count` is the always-on count at the wake; the timer's wake is not due before its ticks have passed. -/
def execHibernateWake (source count : Nat) (s : State) : Res :=
  .next (if source = 0 ∧ s.pwr.asleep ∧ count < s.hibTicks ∧ s.pwr.wakeSeen = 0 then s else s.hibernateWake source count)

/-- HIB_TIMER (R413): the always-on counter reaches PWR_HIB_TIMER. -/
def execHibTimer (s : State) : Res := .next (if s.pwr.asleep && s.wakeEnabled 0 then s.hibernateWake 0 s.hibTicks else s)

/-- POWER with OP WAKE (R413, R415, R421): of a cluster as REQ RUN, of the module as a management wake; how long the module
slept is open. (DEDUCED, log entry 79) -/
def State.powerWake (s : State) (transport seq : Nat) (cluster : Option Nat) : State :=
  match cluster with
  | some d =>
    if clusterCount ≤ d ∨ s.pwr.asleep then s.answer transport seq 0x30 stREFUSED false
    else
      let s := s.setFld (Reg.PWR_CL_CTRL d) 31 30 0
      match (s.cluster d).mode with
      | .run | .nap => (s.clusterRequest d 0).answer transport seq 0x30 stOK false
      | .entering => if (s.cluster d).toDoze then (s.awaitPower transport seq 3 (some d)).clusterRequest d 0
        else (s.clusterRequest d 0).answer transport seq 0x30 stOK false
      | .doze | .exiting => (s.awaitPower transport seq 3 (some d)).clusterRequest d 0
  | none =>
    if !s.pwr.asleep && !s.pwr.hibBusy then s.answer transport seq 0x30 stOK false
    else if !s.wakeEnabled 1 then s.answer transport seq 0x30 stREFUSED false
    else (s.drawn.awaitPower transport seq 3 none).hibernateWake 1 (s.freeBelow (aonMax + 1))

def execPowerWake (transport seq : Nat) (cluster : Option Nat) (s : State) : Res :=
  .next (s.message transport seq 0x30 false fun s => s.powerWake transport seq cluster)

/-! ## Supplies (R424, R448, R451) -/

/-- PWR_EN_FALL: into Off; a thermal shutdown stays remembered (R444, R450). -/
def execPwrEnFall (s : State) : Res := .next (s.unpowered .off s.rst.thermalSeen)

/-- VIN_UNDERVOLTAGE: as PWR_EN falls, with no log entry; the standby regulator loses VAON too. -/
def execVinUndervoltage (s : State) : Res := .next (s.unpowered .undervoltage false)

/-- VIN_OVERVOLTAGE: every converter but the standby regulator stops. -/
def execVinOvervoltage (s : State) : Res := .next (if s.rst.power = .on then s.unpowered .overvoltage s.rst.thermalSeen else s)

/-- OVERVOLTAGE_RESTART: the converters restart on their own, as at power-on. -/
def execOvervoltageRestart (s : State) : Res :=
  .next (if s.rst.power = .overvoltage then s.coldStart (if s.rst.thermalSeen then 4 else 1) false false else s)

/-- RAIL_FAULT: every converter but VAON, VCOL and V1V8_AUX turns off; Serham writes a POWER entry and goes on.
(DEDUCED, log entry 86) -/
def State.railFault (s : State) : State :=
  if s.rst.power != .on || !s.col.serhamUp then s
  else
    let s := s.logPower
    { s.cleared with
      rst := { power := .railFault, thermalSeen := s.rst.thermalSeen }
      col := { s.col with replies := [], stalled := [] } }

def execRailFault (s : State) : Res := .next s.railFault

/-- THERMAL_SHUTDOWN (R424): a junction at 125 °C, or at 115 °C for 1 s; a log entry, and every converter but the always-on
domain's turns off. (DEDUCED, log entry 84) -/
def State.thermalShutdown (s : State) : State :=
  let h := hottest s.col.sensors.junction
  if s.rst.power != .on || !s.col.serhamUp || !(s.col.critical || decide (2000 ≤ h.2)) then s
  else (s.logThermal h.1 h.2 4 3).unpowered .thermal true

def execThermalShutdown (s : State) : Res := .next s.thermalShutdown

end Sys2Proof.Machine
end

