-- ==== Sys2Proof/Machine/Dispatch.lean ====
section
/-! DEFINITION. The command dispatch: one arm per constructor, each a direct call of its meaning. -/

namespace Sys2Proof.Machine

/-- The effect of a command on everything but the queue of waiting commands. -/
def exec (i : Instr) (s : State) : Host.Outcome State Fault Refusal :=
  match i with
  | .registerWrite fn addr width value => Sys2Proof.Machine.execRegisterWrite fn addr width value s
  | .lowHalfRead read => Sys2Proof.Machine.execLowHalfRead read s
  | .timeTripleRead addr => Sys2Proof.Machine.execTimeTripleRead addr s
  | .setupLock value => Sys2Proof.Machine.execSetupLock value s
  | .clampCountClear addr value => Sys2Proof.Machine.execClampCountClear addr value s
  | .tclkTick => Sys2Proof.Machine.execTclkTick s
  | .slewDone => Sys2Proof.Machine.execSlewDone s
  | .tbRateCommit value => Sys2Proof.Machine.execTbRateCommit value s
  | .adjustment value => Sys2Proof.Machine.execAdjustment value s
  | .timeSet value => Sys2Proof.Machine.execTimeSet value s
  | .sourceChange value => Sys2Proof.Machine.execSourceChange value s
  | .refSelect value => Sys2Proof.Machine.execRefSelect value s
  | .refLost => Sys2Proof.Machine.execRefLost s
  | .refReturn locked => Sys2Proof.Machine.execRefReturn locked s
  | .ppsIn => Sys2Proof.Machine.execPpsIn s
  | .ppsOut => Sys2Proof.Machine.execPpsOut s
  | .ppsOutEnd => Sys2Proof.Machine.execPpsOutEnd s
  | .holdoverClear => Sys2Proof.Machine.execHoldoverClear s
  | .boundaryFire => Sys2Proof.Machine.execBoundaryFire s
  | .slotExpiry carrier half => Sys2Proof.Machine.execSlotExpiry carrier half s
  | .mouldWrite d => Sys2Proof.Machine.execMouldWrite d s
  | .mouldLoad d => Sys2Proof.Machine.execMouldLoad d s
  | .mouldLoadData ring tag ok data => Sys2Proof.Machine.execMouldLoadData ring tag ok data s
  | .mouldCopyDone carrier half => Sys2Proof.Machine.execMouldCopyDone carrier half s
  | .arm d => Sys2Proof.Machine.execArm d s
  | .slotAbort d => Sys2Proof.Machine.execSlotAbort d s
  | .carrierDisable d => Sys2Proof.Machine.execCarrierDisable d s
  | .carrierEnable d => Sys2Proof.Machine.execCarrierEnable d s
  | .gridOriginSet value => Sys2Proof.Machine.execGridOriginSet value s
  | .doorbell fn offset width value => Sys2Proof.Machine.execDoorbell fn offset width value s
  | .fetchBatch => Sys2Proof.Machine.execFetchBatch s
  | .batchLands ring ok descs => Sys2Proof.Machine.execBatchLands ring ok descs s
  | .descriptorDelivery ring block => Sys2Proof.Machine.execDescriptorDelivery ring block s
  | .nop d => Sys2Proof.Machine.execNop d s
  | .moderationTimer ring => Sys2Proof.Machine.execModerationTimer ring s
  | .rctxSelect value => Sys2Proof.Machine.execRctxSelect value s
  | .ringCommit value => Sys2Proof.Machine.execRingCommit value s
  | .ringCommitDone => Sys2Proof.Machine.execRingCommitDone s
  | .flr fn => Sys2Proof.Machine.execFlr fn s
  | .flrTimeout fn => Sys2Proof.Machine.execFlrTimeout fn s
  | .flrDone fn => Sys2Proof.Machine.execFlrDone fn s
  | .linkDown => Sys2Proof.Machine.execLinkDown s
  | .perst => Sys2Proof.Machine.execPerst s
  | .msixUnmask vector byFunction => Sys2Proof.Machine.execMsixUnmask vector byFunction s
  | .busMasterEnable fn => Sys2Proof.Machine.execBusMasterEnable fn s
  | .vfEnable enable numVfs => Sys2Proof.Machine.execVfEnable enable numVfs s
  | .queueDisable d => Sys2Proof.Machine.execQueueDisable d s
  | .queueEnable d => Sys2Proof.Machine.execQueueEnable d s
  | .queueFlush d => Sys2Proof.Machine.execQueueFlush d s
  | .queueWrite d => Sys2Proof.Machine.execQueueWrite d s
  | .queueWriteData ring tag ok words => Sys2Proof.Machine.execQueueWriteData ring tag ok words s
  | .startOfItem qid prod prio tag => Sys2Proof.Machine.execStartOfItem qid prod prio tag s
  | .queueWord qid prod word => Sys2Proof.Machine.execQueueWord qid prod word s
  | .itemCommit qid prod => Sys2Proof.Machine.execItemCommit qid prod s
  | .itemVisible qid prod ok => Sys2Proof.Machine.execItemVisible qid prod ok s
  | .itemRewind qid prod asked => Sys2Proof.Machine.execItemRewind qid prod asked s
  | .itemRead qid cons => Sys2Proof.Machine.execItemRead qid cons s
  | .idleNotice qid => Sys2Proof.Machine.execIdleNotice qid s
  | .qctxSelect value => Sys2Proof.Machine.execQctxSelect value s
  | .qctxCommit value => Sys2Proof.Machine.execQctxCommit value s
  | .qctxCommitDone => Sys2Proof.Machine.execQctxCommitDone s
  | .arbiterGrant arbiter cycles arrived => Sys2Proof.Machine.execArbiterGrant arbiter cycles arrived s
  | .rankWrite requester value => Sys2Proof.Machine.execRankWrite requester value s
  | .grantHold arbiter value => Sys2Proof.Machine.execGrantHold arbiter value s
  | .waitmaxClear arbiter value => Sys2Proof.Machine.execWaitmaxClear arbiter value s
  | .taskDefine d => Sys2Proof.Machine.execTaskDefine d s
  | .taskArm d => Sys2Proof.Machine.execTaskArm d s
  | .eventSet d => Sys2Proof.Machine.execEventSet d s
  | .taskCancel d => Sys2Proof.Machine.execTaskCancel d s
  | .sigDefine d => Sys2Proof.Machine.execSigDefine d s
  | .flagSet task flags => Sys2Proof.Machine.execFlagSet task flags s
  | .taskDeadline task => Sys2Proof.Machine.execTaskDeadline task s
  | .dispatch => Sys2Proof.Machine.execDispatch s
  | .dispatchCredit => Sys2Proof.Machine.execDispatchCredit s
  | .signaturePublish => Sys2Proof.Machine.execSignaturePublish s
  | .vnop leaf last => Sys2Proof.Machine.execVnop leaf last s
  | .vadd leaf last vd va vb => Sys2Proof.Machine.execVadd leaf last vd va vb s
  | .vsub leaf last vd va vb => Sys2Proof.Machine.execVsub leaf last vd va vb s
  | .vneg leaf last vd va => Sys2Proof.Machine.execVneg leaf last vd va s
  | .vshl leaf last vd va vx => Sys2Proof.Machine.execVshl leaf last vd va vx s
  | .vshr leaf last vd va vx => Sys2Proof.Machine.execVshr leaf last vd va vx s
  | .vconj leaf last vd va => Sys2Proof.Machine.execVconj leaf last vd va s
  | .vmov leaf last vd va => Sys2Proof.Machine.execVmov leaf last vd va s
  | .vand leaf last vd va vb => Sys2Proof.Machine.execVand leaf last vd va vb s
  | .vor leaf last vd va vb => Sys2Proof.Machine.execVor leaf last vd va vb s
  | .vxor leaf last vd va vb => Sys2Proof.Machine.execVxor leaf last vd va vb s
  | .vmulj leaf last vd va => Sys2Proof.Machine.execVmulj leaf last vd va s
  | .vbcast leaf last vd va vx => Sys2Proof.Machine.execVbcast leaf last vd va vx s
  | .mulAdd leaf last vd va vb vx => Sys2Proof.Machine.execMulAdd leaf last vd va vb vx s
  | .mulSub leaf last vd va vb vx => Sys2Proof.Machine.execMulSub leaf last vd va vb vx s
  | .mulSet leaf last vd va vb vx => Sys2Proof.Machine.execMulSet leaf last vd va vb vx s
  | .mulNeg leaf last vd va vb vx => Sys2Proof.Machine.execMulNeg leaf last vd va vb vx s
  | .mulcAdd leaf last vd va vb vx => Sys2Proof.Machine.execMulcAdd leaf last vd va vb vx s
  | .mulcSub leaf last vd va vb vx => Sys2Proof.Machine.execMulcSub leaf last vd va vb vx s
  | .mulcSet leaf last vd va vb vx => Sys2Proof.Machine.execMulcSet leaf last vd va vb vx s
  | .mulcNeg leaf last vd va vb vx => Sys2Proof.Machine.execMulcNeg leaf last vd va vb vx s
  | .mulrAdd leaf last vd va vb vx => Sys2Proof.Machine.execMulrAdd leaf last vd va vb vx s
  | .mulrSub leaf last vd va vb vx => Sys2Proof.Machine.execMulrSub leaf last vd va vb vx s
  | .mulrSet leaf last vd va vb vx => Sys2Proof.Machine.execMulrSet leaf last vd va vb vx s
  | .mulrNeg leaf last vd va vb vx => Sys2Proof.Machine.execMulrNeg leaf last vd va vb vx s
  | .aclr leaf last vd => Sys2Proof.Machine.execAclr leaf last vd s
  | .sac leaf last vd va vx => Sys2Proof.Machine.execSac leaf last vd va vx s
  | .aadd leaf last vd va => Sys2Proof.Machine.execAadd leaf last vd va s
  | .amov leaf last vd va => Sys2Proof.Machine.execAmov leaf last vd va s
  | .asum leaf last vd va => Sys2Proof.Machine.execAsum leaf last vd va s
  | .repScalar leaf last ga => Sys2Proof.Machine.execRepScalar leaf last ga s
  | .add leaf last gd ga gb => Sys2Proof.Machine.execAdd leaf last gd ga gb s
  | .sub leaf last gd ga gb => Sys2Proof.Machine.execSub leaf last gd ga gb s
  | .and leaf last gd ga gb => Sys2Proof.Machine.execAnd leaf last gd ga gb s
  | .or leaf last gd ga gb => Sys2Proof.Machine.execOr leaf last gd ga gb s
  | .xor leaf last gd ga gb => Sys2Proof.Machine.execXor leaf last gd ga gb s
  | .shl leaf last gd ga gb => Sys2Proof.Machine.execShl leaf last gd ga gb s
  | .sra leaf last gd ga gb => Sys2Proof.Machine.execSra leaf last gd ga gb s
  | .cnop leaf last => Sys2Proof.Machine.execCnop leaf last s
  | .addi leaf last rd ra imm => Sys2Proof.Machine.execAddi leaf last rd ra imm s
  | .mov leaf last rd ra => Sys2Proof.Machine.execMov leaf last rd ra s
  | .mulg leaf last rd ra rb => Sys2Proof.Machine.execMulg leaf last rd ra rb s
  | .shr leaf last rd ra rb => Sys2Proof.Machine.execShr leaf last rd ra rb s
  | .slt leaf last rd ra rb => Sys2Proof.Machine.execSlt leaf last rd ra rb s
  | .sltu leaf last rd ra rb => Sys2Proof.Machine.execSltu leaf last rd ra rb s
  | .min leaf last rd ra rb => Sys2Proof.Machine.execMin leaf last rd ra rb s
  | .max leaf last rd ra rb => Sys2Proof.Machine.execMax leaf last rd ra rb s
  | .br leaf last imm => Sys2Proof.Machine.execBr leaf last imm s
  | .beqz leaf last ra imm => Sys2Proof.Machine.execBeqz leaf last ra imm s
  | .bnez leaf last ra imm => Sys2Proof.Machine.execBnez leaf last ra imm s
  | .bltz leaf last ra imm => Sys2Proof.Machine.execBltz leaf last ra imm s
  | .bgez leaf last ra imm => Sys2Proof.Machine.execBgez leaf last ra imm s
  | .jal leaf last rd imm => Sys2Proof.Machine.execJal leaf last rd imm s
  | .jr leaf last ra => Sys2Proof.Machine.execJr leaf last ra s
  | .babt leaf last imm => Sys2Proof.Machine.execBabt leaf last imm s
  | .rep leaf last count => Sys2Proof.Machine.execRep leaf last count s
  | .fetch leaf last imm => Sys2Proof.Machine.execFetch leaf last imm s
  | .qpop leaf last rd ra imm => Sys2Proof.Machine.execQpop leaf last rd ra imm s
  | .qpopComplete leaf => Sys2Proof.Machine.execQpopComplete leaf s
  | .qpush leaf last ra rb imm => Sys2Proof.Machine.execQpush leaf last ra rb imm s
  | .qcommit leaf last rd ra => Sys2Proof.Machine.execQcommit leaf last rd ra s
  | .qcommitStatus leaf => Sys2Proof.Machine.execQcommitStatus leaf s
  | .qrewind leaf last ra => Sys2Proof.Machine.execQrewind leaf last ra s
  | .signal leaf last ra rb => Sys2Proof.Machine.execSignal leaf last ra rb s
  | .release leaf last rd imm => Sys2Proof.Machine.execRelease leaf last rd imm s
  | .statw leaf last imm => Sys2Proof.Machine.execStatw leaf last imm s
  | .statr leaf last rd imm => Sys2Proof.Machine.execStatr leaf last rd imm s
  | .halt leaf last => Sys2Proof.Machine.execHalt leaf last s
  | .movi leaf last rd value => Sys2Proof.Machine.execMovi leaf last rd value s
  | .addw leaf last rd value => Sys2Proof.Machine.execAddw leaf last rd value s
  | .ld leaf last x w pn reg => Sys2Proof.Machine.execLd leaf last x w pn reg s
  | .st leaf last x w pn reg => Sys2Proof.Machine.execSt leaf last x w pn reg s
  | .ldk leaf last x w pn reg => Sys2Proof.Machine.execLdk leaf last x w pn reg s
  | .ldWide leaf last x w pn reg u sh off => Sys2Proof.Machine.execLdWide leaf last x w pn reg u sh off s
  | .stWide leaf last x w pn reg u sh off => Sys2Proof.Machine.execStWide leaf last x w pn reg u sh off s
  | .ldg leaf last x w pn reg u sh off => Sys2Proof.Machine.execLdg leaf last x w pn reg u sh off s
  | .stg leaf last x w pn reg u sh off => Sys2Proof.Machine.execStg leaf last x w pn reg u sh off s
  | .sta leaf last x w pn reg u sh off => Sys2Proof.Machine.execSta leaf last x w pn reg u sh off s
  | .haltRequest leaf => Sys2Proof.Machine.execHaltRequest leaf s
  | .debugHalt leaf dispatched => Sys2Proof.Machine.execDebugHalt leaf dispatched s
  | .resume leaf => Sys2Proof.Machine.execResume leaf s
  | .debugStep leaf => Sys2Proof.Machine.execDebugStep leaf s
  | .dbgRegWrite leaf value => Sys2Proof.Machine.execDbgRegWrite leaf value s
  | .leafReset quire value => Sys2Proof.Machine.execLeafReset quire value s
  | .leafResetRelease quire value => Sys2Proof.Machine.execLeafResetRelease quire value s
  | .quireExternalAccess addr write data bytes => Sys2Proof.Machine.execQuireExternalAccess addr write data bytes s
  | .dmaRun d => Sys2Proof.Machine.execDmaRun d s
  | .runItemRead ch => Sys2Proof.Machine.execRunItemRead ch s
  | .programStart ch => Sys2Proof.Machine.execProgramStart ch s
  | .endProgram ch inst => Sys2Proof.Machine.execEndProgram ch inst s
  | .dmaMove ch inst run => Sys2Proof.Machine.execDmaMove ch inst run s
  | .dmaLoop ch inst => Sys2Proof.Machine.execDmaLoop ch inst s
  | .waitQueue ch inst => Sys2Proof.Machine.execWaitQueue ch inst s
  | .waitTime ch inst => Sys2Proof.Machine.execWaitTime ch inst s
  | .waitConditionMet ch => Sys2Proof.Machine.execWaitConditionMet ch s
  | .waitDeadline ch => Sys2Proof.Machine.execWaitDeadline ch s
  | .signalFlags ch inst => Sys2Proof.Machine.execSignalFlags ch inst s
  | .signalItem ch inst => Sys2Proof.Machine.execSignalItem ch inst s
  | .dmaBusError ch inst host => Sys2Proof.Machine.execDmaBusError ch inst host s
  | .dmaAbort d => Sys2Proof.Machine.execDmaAbort d s
  | .dmaDisable d => Sys2Proof.Machine.execDmaDisable d s
  | .dmaEnable d => Sys2Proof.Machine.execDmaEnable d s
  | .jobItemRead engine => Sys2Proof.Machine.execJobItemRead engine s
  | .spaJob d => Sys2Proof.Machine.execSpaJob d s
  | .estw => Sys2Proof.Machine.execEstw s
  | .combine => Sys2Proof.Machine.execCombine s
  | .precode => Sys2Proof.Machine.execPrecode s
  | .spaJobEnd job => Sys2Proof.Machine.execSpaJobEnd job s
  | .spaAbort d => Sys2Proof.Machine.execSpaAbort d s
  | .spaDisable d => Sys2Proof.Machine.execSpaDisable d s
  | .spaEnable d => Sys2Proof.Machine.execSpaEnable d s
  | .codJob d => Sys2Proof.Machine.execCodJob d s
  | .ldpcDec group => Sys2Proof.Machine.execLdpcDec group s
  | .ldpcEnc group => Sys2Proof.Machine.execLdpcEnc group s
  | .turboDec group => Sys2Proof.Machine.execTurboDec group s
  | .turboEnc group => Sys2Proof.Machine.execTurboEnc group s
  | .polarDec group => Sys2Proof.Machine.execPolarDec group s
  | .polarEnc group => Sys2Proof.Machine.execPolarEnc group s
  | .codeBlockStart group kind => Sys2Proof.Machine.execCodeBlockStart group kind s
  | .codJobEnd job => Sys2Proof.Machine.execCodJobEnd job s
  | .codAbort d => Sys2Proof.Machine.execCodAbort d s
  | .codDisable d => Sys2Proof.Machine.execCodDisable d s
  | .codEnable d => Sys2Proof.Machine.execCodEnable d s
  | .harqRegionWrite size value => Sys2Proof.Machine.execHarqRegionWrite size value s
  | .rxSymbol carrier ant sym slot => Sys2Proof.Machine.execRxSymbol carrier ant sym slot s
  | .rxGapDeadline carrier ant sym slot => Sys2Proof.Machine.execRxGapDeadline carrier ant sym slot s
  | .txDecision carrier ant sym slot => Sys2Proof.Machine.execTxDecision carrier ant sym slot s
  | .qualSlotCheck carrier slot => Sys2Proof.Machine.execQualSlotCheck carrier slot s
  | .spcTxq d => Sys2Proof.Machine.execSpcTxq d s
  | .peak det time power rho => Sys2Proof.Machine.execPeak det time power rho s
  | .validationDecision det ctx rhoV => Sys2Proof.Machine.execValidationDecision det ctx rhoV s
  | .burstDone det ctx => Sys2Proof.Machine.execBurstDone det ctx s
  | .occasion det slot found => Sys2Proof.Machine.execOccasion det slot found s
  | .spcJob d => Sys2Proof.Machine.execSpcJob d s
  | .fft => Sys2Proof.Machine.execFft s
  | .ifft => Sys2Proof.Machine.execIfft s
  | .spcJobEnd job => Sys2Proof.Machine.execSpcJobEnd job s
  | .spcAbort d => Sys2Proof.Machine.execSpcAbort d s
  | .spcDisable d => Sys2Proof.Machine.execSpcDisable d s
  | .spcEnable d => Sys2Proof.Machine.execSpcEnable d s
  | .portEnable port value => Sys2Proof.Machine.execPortEnable port value s
  | .portUp port => Sys2Proof.Machine.execPortUp port s
  | .frameReceive port data => Sys2Proof.Machine.execFrameReceive port data s
  | .txItemAssign carrier half => Sys2Proof.Machine.execTxItemAssign carrier half s
  | .frameSend port => Sys2Proof.Machine.execFrameSend port s
  | .txWindowClose carrier half slot sym => Sys2Proof.Machine.execTxWindowClose carrier half slot sym s
  | .symbolGroupCommit carrier half slot last => Sys2Proof.Machine.execSymbolGroupCommit carrier half slot last s
  | .cplaneAutoSend carrier half slot stream => Sys2Proof.Machine.execCplaneAutoSend carrier half slot stream s
  | .cplaneQueueSend carrier half => Sys2Proof.Machine.execCplaneQueueSend carrier half s
  | .fhSend d data => Sys2Proof.Machine.execFhSend d data s
  | .fhRxbuf d => Sys2Proof.Machine.execFhRxbuf d s
  | .trainingFrame lane => Sys2Proof.Machine.execTrainingFrame lane s
  | .partnerWaitExpiry lane => Sys2Proof.Machine.execPartnerWaitExpiry lane s
  | .backoffExpiry lane => Sys2Proof.Machine.execBackoffExpiry lane s
  | .coefficientRequest lane preset tap up => Sys2Proof.Machine.execCoefficientRequest lane preset tap up s
  | .receiversReady lane => Sys2Proof.Machine.execReceiversReady lane s
  | .partnerLost lane => Sys2Proof.Machine.execPartnerLost lane s
  | .trainLimitExpiry lane => Sys2Proof.Machine.execTrainLimitExpiry lane s
  | .cdrLock lane => Sys2Proof.Machine.execCdrLock lane s
  | .adaptTimeout lane => Sys2Proof.Machine.execAdaptTimeout lane s
  | .lockLoss lane => Sys2Proof.Machine.execLockLoss lane s
  | .retrain lane value => Sys2Proof.Machine.execRetrain lane value s
  | .loopbackWrite lane value => Sys2Proof.Machine.execLoopbackWrite lane value s
  | .testEnable lane value => Sys2Proof.Machine.execTestEnable lane value s
  | .txTapsWrite lane value => Sys2Proof.Machine.execTxTapsWrite lane value s
  | .qrefSelect quad value => Sys2Proof.Machine.execQrefSelect quad value s
  | .qrefLost quad => Sys2Proof.Machine.execQrefLost quad s
  | .injOne lane value => Sys2Proof.Machine.execInjOne lane value s
  | .periodicInjection lane => Sys2Proof.Machine.execPeriodicInjection lane s
  | .prbsSync lane => Sys2Proof.Machine.execPrbsSync lane s
  | .prbsSyncLoss lane bits errors => Sys2Proof.Machine.execPrbsSyncLoss lane bits errors s
  | .recalibration quad ends => Sys2Proof.Machine.execRecalibration quad ends s
  | .feSlip lane => Sys2Proof.Machine.execFeSlip lane s
  | .laneAdmit port index => Sys2Proof.Machine.execLaneAdmit port index s
  | .stitchFrameReceive port lane frame ok => Sys2Proof.Machine.execStitchFrameReceive port lane frame ok s
  | .replayTimeout port => Sys2Proof.Machine.execReplayTimeout port s
  | .laneDrop port => Sys2Proof.Machine.execLaneDrop port s
  | .stfBind d => Sys2Proof.Machine.execStfBind d s
  | .bindItemSend bind => Sys2Proof.Machine.execBindItemSend bind s
  | .bindEventSend bind => Sys2Proof.Machine.execBindEventSend bind s
  | .tsyncExchange port t1 t2 t3 t4 => Sys2Proof.Machine.execTsyncExchange port t1 t2 t3 t4 s
  | .stfBcastFreeze d => Sys2Proof.Machine.execStfBcastFreeze d s
  | .stfBcastTrigger d => Sys2Proof.Machine.execStfBcastTrigger d s
  | .broadcastTime => Sys2Proof.Machine.execBroadcastTime s
  | .hello port => Sys2Proof.Machine.execHello port s
  | .electSettle => Sys2Proof.Machine.execElectSettle s
  | .mapFlood => Sys2Proof.Machine.execMapFlood s
  | .register => Sys2Proof.Machine.execRegister s
  | .systemRootChoice => Sys2Proof.Machine.execSystemRootChoice s
  | .sysmap => Sys2Proof.Machine.execSysmap s
  | .gatewaySilent group => Sys2Proof.Machine.execGatewaySilent group s
  | .common => Sys2Proof.Machine.execCommon s
  | .stfMigrate d remoteOk => Sys2Proof.Machine.execStfMigrate d remoteOk s
  | .migrationSwitch carrier => Sys2Proof.Machine.execMigrationSwitch carrier s
  | .vatArm d => Sys2Proof.Machine.execVatArm d s
  | .vatTrigger d => Sys2Proof.Machine.execVatTrigger d s
  | .vatStop d => Sys2Proof.Machine.execVatStop d s
  | .captureRecord half grant => Sys2Proof.Machine.execCaptureRecord half grant s
  | .gapRecord half => Sys2Proof.Machine.execGapRecord half s
  | .trigPinEdge line rising => Sys2Proof.Machine.execTrigPinEdge line rising s
  | .trigPulseEnd line => Sys2Proof.Machine.execTrigPulseEnd line s
  | .spillFrame half => Sys2Proof.Machine.execSpillFrame half s
  | .spillIdle half => Sys2Proof.Machine.execSpillIdle half s
  | .spillPortEnable port value => Sys2Proof.Machine.execSpillPortEnable port value s
  | .capHostbuf d => Sys2Proof.Machine.execCapHostbuf d s
  | .hostbufClose half idle => Sys2Proof.Machine.execHostbufClose half idle s
  | .capPressStart d => Sys2Proof.Machine.execCapPressStart d s
  | .pressRecord chan => Sys2Proof.Machine.execPressRecord chan s
  | .capPressStop d => Sys2Proof.Machine.execCapPressStop d s
  | .memFill d => Sys2Proof.Machine.execMemFill d s
  | .fillDone ring tag => Sys2Proof.Machine.execFillDone ring tag s
  | .channelAccess addr write data bytes requester => Sys2Proof.Machine.execChannelAccess addr write data bytes requester s
  | .bar4Access offset write data bytes => Sys2Proof.Machine.execBar4Access offset write data bytes s
  | .patrolScrub chan => Sys2Proof.Machine.execPatrolScrub chan s
  | .channelRetrain chan ends => Sys2Proof.Machine.execChannelRetrain chan ends s
  | .retrainRetry chan => Sys2Proof.Machine.execRetrainRetry chan s
  | .mr4Read chan temp => Sys2Proof.Machine.execMr4Read chan temp s
  | .bankRefresh chan bank => Sys2Proof.Machine.execBankRefresh chan bank s
  | .eccInject value => Sys2Proof.Machine.execEccInject value s
  | .ueAddrRearm value => Sys2Proof.Machine.execUeAddrRearm value s
  | .memInitDone => Sys2Proof.Machine.execMemInitDone s
  | .requestNap cluster value => Sys2Proof.Machine.execRequestNap cluster value s
  | .requestDoze cluster value => Sys2Proof.Machine.execRequestDoze cluster value s
  | .requestRun cluster value => Sys2Proof.Machine.execRequestRun cluster value s
  | .autoNap cluster => Sys2Proof.Machine.execAutoNap cluster s
  | .handshakeAnswer hib cluster unit => Sys2Proof.Machine.execHandshakeAnswer hib cluster unit s
  | .handshakeDelayLimit hib cluster unit => Sys2Proof.Machine.execHandshakeDelayLimit hib cluster unit s
  | .dozeEntryDone cluster => Sys2Proof.Machine.execDozeEntryDone cluster s
  | .exitDone cluster => Sys2Proof.Machine.execExitDone cluster s
  | .napWake cluster => Sys2Proof.Machine.execNapWake cluster s
  | .hibernateEnter value => Sys2Proof.Machine.execHibernateEnter value s
  | .hibernateWake source count => Sys2Proof.Machine.execHibernateWake source count s
  | .hibTimer => Sys2Proof.Machine.execHibTimer s
  | .getInfo transport seq => Sys2Proof.Machine.execGetInfo transport seq s
  | .readSensors transport seq => Sys2Proof.Machine.execReadSensors transport seq s
  | .getLog transport seq first count => Sys2Proof.Machine.execGetLog transport seq first count s
  | .updateBegin transport seq slot length => Sys2Proof.Machine.execUpdateBegin transport seq slot length s
  | .updateData transport seq offset data => Sys2Proof.Machine.execUpdateData transport seq offset data s
  | .updateCommit transport seq genuine version svn => Sys2Proof.Machine.execUpdateCommit transport seq genuine version svn s
  | .updateActivate transport seq slot => Sys2Proof.Machine.execUpdateActivate transport seq slot s
  | .updateConfirm transport seq => Sys2Proof.Machine.execUpdateConfirm transport seq s
  | .updateAbort transport seq => Sys2Proof.Machine.execUpdateAbort transport seq s
  | .writeRecord transport seq record body => Sys2Proof.Machine.execWriteRecord transport seq record body s
  | .freeze transport seq bcast leadUs => Sys2Proof.Machine.execFreeze transport seq bcast leadUs s
  | .readout transport seq space addr sub bytes => Sys2Proof.Machine.execReadout transport seq space addr sub bytes s
  | .powerDoze transport seq cluster save banks => Sys2Proof.Machine.execPowerDoze transport seq cluster save banks s
  | .powerHibernate transport seq => Sys2Proof.Machine.execPowerHibernate transport seq s
  | .powerWake transport seq cluster => Sys2Proof.Machine.execPowerWake transport seq cluster s
  | .sensorSample junction lid vin iin power rails => Sys2Proof.Machine.execSensorSample junction lid vin iin power rails s
  | .throttleStep => Sys2Proof.Machine.execThrottleStep s
  | .throttleRestore => Sys2Proof.Machine.execThrottleRestore s
  | .thermalShutdown => Sys2Proof.Machine.execThermalShutdown s
  | .alertRelease therm => Sys2Proof.Machine.execAlertRelease therm s
  | .logCompaction => Sys2Proof.Machine.execLogCompaction s
  | .compactionDone => Sys2Proof.Machine.execCompactionDone s
  | .sessionTimeout => Sys2Proof.Machine.execSessionTimeout s
  | .maintStart => Sys2Proof.Machine.execMaintStart s
  | .freezeNFall => Sys2Proof.Machine.execFreezeNFall s
  | .powerOn => Sys2Proof.Machine.execPowerOn s
  | .coldReset => Sys2Proof.Machine.execColdReset s
  | .warmReset => Sys2Proof.Machine.execWarmReset s
  | .warmResetRelease => Sys2Proof.Machine.execWarmResetRelease s
  | .coreReady => Sys2Proof.Machine.execCoreReady s
  | .pwrEnFall => Sys2Proof.Machine.execPwrEnFall s
  | .vinUndervoltage => Sys2Proof.Machine.execVinUndervoltage s
  | .vinOvervoltage => Sys2Proof.Machine.execVinOvervoltage s
  | .railFault => Sys2Proof.Machine.execRailFault s
  | .referenceDetection input present => Sys2Proof.Machine.execReferenceDetection input present s
  | .qrefReturn quad => Sys2Proof.Machine.execQrefReturn quad s
  | .pcsAlignmentLost port => Sys2Proof.Machine.execPcsAlignmentLost port s
  | .dataLinkUp => Sys2Proof.Machine.execDataLinkUp s
  | .linkSpeedChange speed width flit => Sys2Proof.Machine.execLinkSpeedChange speed width flit s
  | .unknownOpcode transport seq opcode => Sys2Proof.Machine.execUnknownOpcode transport seq opcode s
  | .arpAndIcmpEcho icmp data => Sys2Proof.Machine.execArpAndIcmpEcho icmp data s
  | .overvoltageRestart => Sys2Proof.Machine.execOvervoltageRestart s

end Sys2Proof.Machine
end

