-- ==== Sys2Proof/Machine/Lands.lean ====
section
/-! DEFINITION. The lands of the module and the signals on them (R452 to R455), and the levels the module drives on its
control and timing outputs (R43, R373, R414, R424, R433, R448, R456). -/

namespace Sys2Proof.Machine

/-! ## Signals -/

/-- Control, timing and management signals (R455). -/
inductive Pin where
  | rgmiiTxc | rgmiiTxctl | rgmiiTxd (i : Nat) | rgmiiRxc | rgmiiRxctl | rgmiiRxd (i : Nat) | mdc | mdio
  | synceOut (neg : Bool) | synceIn (neg : Bool) | ppsIn | ppsOut | trefIn
  | pwrEn | pgood | alertN | thermN | resetN | wrstN | freezeN | trig (line : Nat) | perstN | peWakeN
  | tck | tms | tdi | tdo | trstN | smbScl | smbSda | uartTx | uartRx
  deriving DecidableEq, Repr

/-- What lies on a land (R453). -/
inductive Land where
  | gnd | vin
  | laneTx (n : Nat) (neg : Bool) | laneRx (n : Nat) (neg : Bool)
  | peTx (m : Nat) (neg : Bool) | peRx (m : Nat) (neg : Bool) | peRefclk (neg : Bool)
  | signal (p : Pin)
  deriving DecidableEq, Repr

/-! ## The grid -/

/-- The nineteen letters of a row name, in their order (R452). -/
def rowLetters : List String :=
  ["A", "B", "C", "D", "E", "F", "G", "H", "J", "K", "L", "M", "N", "P", "T", "U", "V", "W", "Y"]

/-- The name of the row with an index of 1 to 62: A is 1, Y 19, AA 20, BA 39, CE 62 (R452). -/
def rowName (index : Nat) : String :=
  let k := (index - 1) / 19
  (if k = 0 then "" else rowLetters.getD (k - 1) "") ++ rowLetters.getD ((index - 1) % 19) ""

/-- A land's name: row and column (R452). -/
def landName (index col : Nat) : String := rowName index ++ toString col

/-- Rows CA, CC and CE: management and control (R455). -/
def controlLand (index col : Nat) : Option Pin :=
  match index, col with
  | 58, 2 => some .rgmiiTxc | 58, 3 => some .rgmiiTxctl | 58, 9 => some .rgmiiRxc | 58, 10 => some .rgmiiRxctl
  | 58, 16 => some .mdc | 58, 17 => some .mdio
  | 60, 2 => some .pwrEn | 60, 3 => some .pgood | 60, 4 => some .alertN | 60, 5 => some .thermN | 60, 7 => some .resetN
  | 60, 8 => some .wrstN | 60, 10 => some .freezeN | 60, 17 => some .perstN | 60, 18 => some .peWakeN
  | 62, 2 => some .tck | 62, 3 => some .tms | 62, 4 => some .tdi | 62, 5 => some .tdo | 62, 6 => some .trstN
  | 62, 8 => some .smbScl | 62, 9 => some .smbSda | 62, 11 => some .uartTx | 62, 12 => some .uartRx
  | 58, c => if 4 ≤ c ∧ c ≤ 7 then some (.rgmiiTxd (c - 4)) else if 11 ≤ c ∧ c ≤ 14 then some (.rgmiiRxd (c - 11)) else none
  | 60, c => if 12 ≤ c ∧ c ≤ 15 then some (.trig (c - 12)) else none
  | _, _ => none

/-- Rows E and G: timing (R455). -/
def timingLand (index col : Nat) : Option Pin :=
  match index, col with
  | 5, 61 => some .ppsOut
  | 7, 52 => some (.synceOut false) | 7, 53 => some (.synceOut true)
  | 7, 56 => some (.synceIn false) | 7, 57 => some (.synceIn true)
  | 7, 59 => some .trefIn | 7, 61 => some .ppsIn
  | _, _ => none

/-- Lanes on row index 9 + n of the west side and 9 + (n − 48) of the east side (R454). -/
def laneLand (index col : Nat) : Option Land :=
  if index < 9 ∨ 56 < index then none
  else
    match col with
    | 2 => some (.laneTx (index - 9) false) | 3 => some (.laneTx (index - 9) true)
    | 6 => some (.laneRx (index - 9) false) | 7 => some (.laneRx (index - 9) true)
    | 61 => some (.laneTx (index + 39) false) | 60 => some (.laneTx (index + 39) true)
    | 57 => some (.laneRx (index + 39) false) | 56 => some (.laneRx (index + 39) true)
    | _ => none

/-- PCIe on rows A and D (R453, R454). -/
def pcieLand (index col : Nat) : Option Land :=
  let m := (col - 3) / 3
  let pair := decide (3 ≤ col) && decide (col ≤ 49) && (col - 3) % 3 != 2
  let neg := (col - 3) % 3 == 1
  match index with
  | 1 => if col = 52 then some (.peRefclk false) else if col = 53 then some (.peRefclk true)
    else if pair then some (.peTx m neg) else none
  | 4 => if pair then some (.peRx m neg) else none
  | _ => none

/-- What lies on the land of a row index and a column (R453): every land not named is GND. -/
def landAt (index col : Nat) : Land :=
  if 19 ≤ index ∧ index ≤ 38 ∧ 28 ≤ col ∧ col ≤ 35 then .vin
  else
    match (laneLand index col).or (pcieLand index col) with
    | some l => l
    | none =>
      match (controlLand index col).or (timingLand index col) with
      | some p => .signal p
      | none => .gnd

/-! ## Levels -/

/-- Every rail is in regulation: PGOOD is released (R439, R448, R451). It stays so through cold and warm reset (R437) and,
since no rule lets it fall there, in Hibernate. (DEDUCED, log entry 108) -/
def State.railsGood (s : State) : Bool :=
  s.rst.power == .on && (s.col.serhamUp || s.col.recovery || s.rst.warmHeld || s.pwr.asleep)

/-- The level the module drives on a control or timing output (R456); none where the land is an input, is high impedance, or
is an open drain that is released. -/
def State.pinLevel (s : State) (p : Pin) : Option Bool :=
  let low := fun (b : Bool) => if b then some false else none
  match p with
  | .pgood => low (!s.railsGood)
  | .alertN => low s.col.alertLow
  | .thermN => low s.col.thermLow
  | .freezeN => low s.col.freezeLow
  | .peWakeN => low s.pwr.peWake
  | .ppsOut => some s.tb.ppsOut
  | .synceOut neg =>
    if s.bit Reg.TB_REF_CTRL 15 && (s.lane (s.fld Reg.TB_REF_CTRL 14 8)).mode != .up then some neg else none
  | .trig n => if s.bit (Reg.CAP_TRIG_CFG n) 31 then some (s.cap.pulses.contains n) else none
  | _ => none

end Sys2Proof.Machine
end

