-- ==== Sys2Proof/Safety.lean ====
section
/-! DEFINITION. What the statements call a safe state of the module: the canonical form of its memory and of its setup
registers, and the conditions under which it answers the host. -/

namespace Sys2Proof.Machine

/-- The setup registers keep their canonical form: addresses strictly rising, and no word equal to its reset value. -/
abbrev Registers.wf (m : SMap W32) : Bool := mapWf regReset m

/-- Memory and setup registers are in canonical form, so that equal contents are equal data. -/
def State.canonical (s : State) : Prop := Memory.wf s.mem = true ∧ Registers.wf s.regs = true

/-- The rate in force and a rate that waits for the next tick lie within 200 ppm of nominal (R32). -/
def TbState.rateLegal (t : TbState) : Prop :=
  rateMin ≤ t.rate ∧ t.rate ≤ rateMax ∧ ∀ r, t.pendingRate = some r → rateMin ≤ r ∧ r ≤ rateMax

/-- Waiting commands are well-formed. -/
def State.commandsWf (s : State) : Bool := s.pending.all Instr.wf

/-- A host write of BAR0 reaches the register at `a`: the module has power and is neither asleep nor held in a warm reset, the
PF is in no reset (R110), a freeze leaves only the Colophon (R433), the core is ready or the register is GLB_SCRATCH (R15), and
no isolation clamp stands before it (R406). -/
structure State.hostOpen (s : State) (a : Nat) : Prop where
  noFlr : (s.fnOf 0).flr = false
  awake : s.pwr.asleep = false
  released : s.rst.warmHeld = false
  powered : s.rst.power = .on
  thawed : s.glb.frozen = false ∨ blockOf a = some .col
  ready : s.glb.coreReady = true ∨ a = Reg.GLB_SCRATCH
  joined : s.regIsolated a = false

/-- Leaf `n` is about to issue a bundle of one operation: out of reset, neither halted nor blocked, no operation staged, not
behind a REP bundle, no halt requested, no breakpoint on its bundle, and no status of a qcommit to come (R196, R199, R202, R203). -/
structure State.leafReady (s : State) (n : Nat) : Prop where
  clocked : s.clocked = true
  exists_ : n < 192
  released : s.leafInReset n = false
  running : (s.leaf n).halted = false
  unblocked : (s.leaf n).wait = .none
  fresh : (s.leaf n).staged = []
  single : (s.leaf n).rep = none
  noRequest : (s.leaf n).haltReq = false
  noBreak : s.breakpointAt n (s.leaf n).pc = false
  settled : (s.leaf n).commits = []

/-- The leaf's bundle has passed the interlock and issues (R181). -/
def State.issued (s : State) (n : Nat) (op : LeafOp) : State :=
  s.setLeaf n { (s.leaf n).interlock n [op] with staged := [], rep := none }

/-- The bundle of one operation has issued, changed its leaf by `f`, and the leaf stands behind it. -/
def State.ran (s : State) (n : Nat) (op : LeafOp) (f : Leaf → Leaf) : State :=
  let s1 := s.issued n op
  (s1.setLeaf n (f (s1.leaf n))).retire n ((s1.leaf n).pc + 1) none

/-- The bundle of one memory operation has issued and changed its leaf by `f`; the leaf waits for its memory's port where another
holds it (R162, R163), and stands behind the bundle. -/
def State.ranMem (s : State) (n : Nat) (op : LeafOp) (x : Bool) (addr : Nat) (f : Leaf → Leaf) : State :=
  let s1 := s.issued n op
  ((s1.setLeaf n (f (s1.leaf n))).portWait n x addr).retire n ((s1.leaf n).pc + 1) none

/-- The same of a store, which `r` has left in memory with its two status bits (R192). -/
def State.ranStore (r : State × Bool × Bool) (n : Nat) (x : Bool) (addr pc : Nat) (f : Leaf → Leaf) : State :=
  ((r.1.setLeaf n (f (((r.1.leaf n).setStat 5 r.2.1).setStat 6 r.2.2))).portWait n x addr).retire n (pc + 1) none

/-- A taken branch: the leaf goes to `target` after two idle cycles (R195). -/
def State.branchTo (t : State) (n target : Nat) : State := (t.setLeaf n (t.leaf n).branchGap).retire n target none

/-- The bundle of one operation without results has issued. -/
def State.passed (s : State) (n : Nat) (op : LeafOp) : State :=
  let s1 := s.issued n op
  s1.setLeaf n (s1.leaf n)

end Sys2Proof.Machine
end

