-- ==== Sys2Proof/Certificates/Slice0/Obligations.lean ====
section
/-! DEFINITION. The statements for the provers: what the commands do, the invariants every step keeps, and the arithmetic and
orders the manual states. `s.clocked`, `s.hostOpen` and `s.leafReady` (Sys2Proof/Safety.lean and Machine/Ops.lean) are the conditions on the
state under which the functional clocks run, a host access reaches its register, and a leaf issues. A docstring names the rules its cases
come from; a statement covers the cases its hypotheses write out. -/

open Sys2Proof Sys2Proof.Machine

/-! ## The block as a whole -/

/-- A step runs the command at the front of the queue on the state with the queue's rest; with no command waiting the block idles
(log entry 1). The model's choices and readings it rests on: log entry 1. -/
def Obligations.StepRunsTheFrontCommand : Prop :=
  (∀ (s : State) (c : Instr) (rest : List Instr), s.pending = c :: rest → step s = exec c { s with pending := rest }) ∧
  (∀ s : State, s.pending = [] → step s = .next s)

/-- Every command answers a next state on every state: none ends in a fault or a refusal. No command touches the queue of waiting
commands: a step takes the front command and nothing else. The model's choices and readings it rests on: log entry 1. -/
def Obligations.EveryCommandAnswersANextState : Prop :=
  (∀ (c : Instr) (s : State), ∃ t, exec c s = .next t) ∧
  (∀ (c : Instr) (rest : List Instr) (s t : State), s.pending = c :: rest → step s = .next t → t.pending = rest)

/-- Every step keeps memory and setup registers in canonical form, from every state that has it. The model's choices and readings
it rests on: log entry 1. -/
def Obligations.StepKeepsTheCanonicalForm : Prop :=
  ∀ s t : State, s.canonical → step s = .next t → t.canonical

/-- The state after reset is canonical. What the spec says of the module right after reset: the raw counter and the offset are 0
and the rate is nominal (R29, R32), SOURCE is HOST (R39), TIME_LOCKED and HOLDOVER are 0 and REF_PRESENT is 1 (R40, R49), neither
CORE_READY nor MEM_READY is 1 (R15), the setup registers are unlocked (R5), GLB_ID reads 0x9616B000 (R15), every carrier is
STOPPED (R79), no ring is enabled (R113) and nothing is counted at GLB. The model's choices and readings it rests on: log entries
2, 10, 23, 79, 88. -/
def Obligations.ResetValues : Prop :=
  (State.reset.canonical) ∧
  (State.reset.tb.raw = 0 ∧ State.reset.tb.offsetU = 0 ∧ State.reset.tb.rate = 0x10000000000 ∧
  State.reset.tb.stitchSource = false ∧ State.reset.tb.timeLocked = false ∧ State.reset.tb.holdover = false ∧
  State.reset.tb.refPresent = true ∧ State.reset.glb.coreReady = false ∧ State.reset.glb.memReady = false ∧
  State.reset.setupLocked = false ∧ State.reset.readReg Reg.GLB_ID = 0x9616B000#32 ∧ State.reset.readReg Reg.GLB_CLAMP_COUNT = 0 ∧
  (∀ c, (State.reset.carrier c).mode = .stopped) ∧ (∀ q, (State.reset.ring q).enable = false))

/-- No step lowers the fused security version or the number of the next entry of the colophon log (R426, R429). The model's
choices and readings it rests on: log entries 1, 72. -/
def Obligations.FusesAndLogNumbersNeverFall : Prop :=
  ∀ s t : State, step s = .next t → s.col.fusedSvn ≤ t.col.fusedSvn ∧ s.col.nextSeq ≤ t.col.nextSeq

/-! ## Registers -/

/-- REGISTER_WRITE of registers that only hold a value: GLB_SCRATCH stores the word written; TB_STEP_LIMIT takes a LIMIT above
1,000 as 1,000 and counts one clamp, and ignores its reserved bits. Before CORE_READY every write but an aligned 32-bit one to
GLB_SCRATCH is discarded and counted at GLB, and a read outside GLB returns 0 (R15). SETUP_LOCK and CLAMP_COUNT_CLEAR: LOCK is set
by a 1 and a 0 has no effect (R5); while it is 1 a write of an RWL field is discarded and counted (R4), shown for FH_STF_ETYPE;
CLEAR sets a CLAMP_COUNT to 0 and a word without it changes nothing (R105). The model's choices and readings it rests on: log
entries 7, 25, 79, 100. -/
def Obligations.RegisterWrites : Prop :=
  ((∀ (s : State) (v : W64), s.hostOpen Reg.GLB_SCRATCH →
    exec (.registerWrite 0 Reg.GLB_SCRATCH 4 v) s = .next (s.wr Reg.GLB_SCRATCH (v.setWidth 32))) ∧
  (∀ (s : State) (v : W64), s.hostOpen Reg.TB_STEP_LIMIT → bitsOf v 9 0 ≤ 1000 →
    exec (.registerWrite 0 Reg.TB_STEP_LIMIT 4 v) s =
      .next (s.wr Reg.TB_STEP_LIMIT (setBitsOf (s.rd Reg.TB_STEP_LIMIT) 9 0 (bitsOf v 9 0)))) ∧
  (∀ (s : State) (v : W64), s.hostOpen Reg.TB_STEP_LIMIT → 1000 < bitsOf v 9 0 →
    exec (.registerWrite 0 Reg.TB_STEP_LIMIT 4 v) s =
      .next ((s.wr Reg.TB_STEP_LIMIT (setBitsOf (s.rd Reg.TB_STEP_LIMIT) 9 0 1000)).clampAt Reg.TB_CLAMP_COUNT))) ∧
  ((∀ (s : State) (a w : Nat) (v : W64), a < 0x4000000 → a ≠ Reg.GLB_SCRATCH →
    (s.fnOf 0).flr = false → s.pwr.asleep = false → s.rst.warmHeld = false → s.rst.power = .on → s.glb.frozen = false →
    s.glb.coreReady = false → exec (.registerWrite 0 a w v) s = .next (s.clampAt Reg.GLB_CLAMP_COUNT)) ∧
  (∀ (s : State) (a w : Nat), a < 0x4000000 → inMsixTable 0 a = false → inMsixPba 0 a = false → s.bar0Answers a = true →
    s.glb.coreReady = false → blockOf a ≠ some .glb → exec (.lowHalfRead ⟨0, .bar0 a w⟩) s = .next { s with hostRead := [0] })) ∧
  ((∀ (s : State) (v : W32), s.hostOpen Reg.GLB_SETUP_LOCK →
    ∃ w, exec (.setupLock v) s = .next (s.wr Reg.GLB_SETUP_LOCK w) ∧ bitOf w 0 = (s.setupLocked || bitOf v 0)) ∧
  (∀ (s : State) (v : W64), s.hostOpen Reg.FH_STF_ETYPE → s.setupLocked = true →
    exec (.registerWrite 0 Reg.FH_STF_ETYPE 4 v) s = .next ((s.wr Reg.FH_STF_ETYPE (s.rd Reg.FH_STF_ETYPE)).clampAt Reg.FH_CLAMP_COUNT)) ∧
  (∀ (s : State) (a : Nat) (v : W32), a ∈ [Reg.GLB_CLAMP_COUNT, Reg.TB_CLAMP_COUNT, Reg.SLT_CLAMP_COUNT, Reg.HP_CLAMP_COUNT,
      Reg.QMG_CLAMP_COUNT, Reg.SPN_CLAMP_COUNT, Reg.GTH_CLAMP_COUNT, Reg.DMA_CLAMP_COUNT, Reg.SPA_CLAMP_COUNT,
      Reg.COD_CLAMP_COUNT, Reg.SPC_CLAMP_COUNT, Reg.FH_CLAMP_COUNT, Reg.LN_CLAMP_COUNT, Reg.STF_CLAMP_COUNT,
      Reg.CAP_CLAMP_COUNT, Reg.MEM_CLAMP_COUNT, Reg.PWR_CLAMP_COUNT, Reg.COL_CLAMP_COUNT] → s.hostOpen a →
    exec (.clampCountClear a v) s = .next (if bitOf v 31 then s.wr a 0 else s)) ∧
  (∀ (s : State) (cc : Nat), s.canonical → s.fld cc 15 0 = 65535 → (s.clampAt cc).fld cc 15 0 = 65535))

/-- LOW_HALF_READ and TIME_TRIPLE_READ (R8, R49): a read of the low half returns it and latches the high half of the same instant,
which later reads of the high half return; a read of word 0 of TB_TIME latches its words 1 and 2; a high half that nothing has
latched reads 0. -/
def Obligations.LatchedReads : Prop :=
  (∀ (s : State) (a : Nat), latchCount a = 1 → a < 0x4000000 → a % 4 = 0 → inMsixTable 0 a = false → inMsixPba 0 a = false → s.bar0Answers a = true →
      (s.glb.coreReady = true ∨ blockOf a = some .glb) → s.regIsolated a = false →
    let u := s.settleRead a
    let t : State := { u with glb.latch := mapSet (fun _ => 0) u.glb.latch (a + 4) (u.live (a + 4)) }
    exec (.lowHalfRead ⟨0, .bar0 a 4⟩) s = .next { t with hostRead := [t.readReg a] }) ∧
  (∀ (s : State) (a : Nat), latchCount a = 1 → s.readReg (a + 4) = mapGet (fun _ => 0) s.glb.latch (a + 4)) ∧
  (∀ s : State, s.bar0Answers Reg.TB_TIME = true → s.glb.coreReady = true → s.regIsolated Reg.TB_TIME = false →
    exec (.timeTripleRead Reg.TB_TIME) s =
      .next { s with glb.latch := mapSet (fun _ => 0) (mapSet (fun _ => 0) s.glb.latch (Reg.TB_TIME + 4) (tripleWord s.tb.time16 1))
                       (Reg.TB_TIME + 8) (tripleWord s.tb.time16 2),
                     hostRead := [tripleWord s.tb.time16 0] }) ∧
  State.reset.glb.latch = []

/-- R3: a read of another width or alignment returns 0; such a write (outside the PF's MSI-X structures, R84) is discarded and
counted by the block addressed, and before CORE_READY at GLB, GLB_SCRATCH included. R13: an aligned 32-bit read outside every
register returns 0; a write there is discarded and counted by the block addressed, at GLB from 0x0150_0000 upward. -/
def Obligations.DiscardedAccesses : Prop :=
  ((∀ (s : State) (a w : Nat), a < 0x4000000 → inMsixTable 0 a = false → inMsixPba 0 a = false → (w ≠ 4 ∨ a % 4 ≠ 0) →
    s.bar0Answers a = true → exec (.lowHalfRead ⟨0, .bar0 a w⟩) s = .next { s with hostRead := [0] }) ∧
  (∀ (s : State) (a w : Nat) (v : W64), a < 0x4000000 → inMsixTable 0 a = false → inMsixPba 0 a = false → (w ≠ 4 ∨ a % 4 ≠ 0) →
    s.hostOpen a → s.glb.coreReady = true → exec (.registerWrite 0 a w v) s = .next (s.clampFor a)) ∧
  (∀ (s : State) (a w : Nat) (v : W64), a < 0x4000000 → inMsixTable 0 a = false → inMsixPba 0 a = false → (w ≠ 4 ∨ a % 4 ≠ 0) →
    (s.fnOf 0).flr = false → s.pwr.asleep = false → s.rst.warmHeld = false → s.rst.power = .on → s.glb.frozen = false →
    s.regIsolated a = false → s.glb.coreReady = false → exec (.registerWrite 0 a w v) s = .next (s.clampAt Reg.GLB_CLAMP_COUNT))) ∧
  ((∀ (s : State) (a : Nat), a < 0x4000000 → a % 4 = 0 → inMsixTable 0 a = false → inMsixPba 0 a = false → findReg a = none →
    isLatched a = false → s.bar0Answers a = true → s.regIsolated a = false → exec (.lowHalfRead ⟨0, .bar0 a 4⟩) s = .next { s with hostRead := [0] }) ∧
  (∀ (s : State) (a : Nat) (v : W64), a < 0x4000000 → a % 4 = 0 → inMsixTable 0 a = false → inMsixPba 0 a = false → findReg a = none →
    s.hostOpen a → exec (.registerWrite 0 a 4 v) s = .next (s.clampFor a)) ∧
  (∀ (s : State) (a : Nat), 0x1500000 ≤ a → s.clampFor a = s.clampAt Reg.GLB_CLAMP_COUNT) ∧
  (∀ (s : State) (a : Nat), ∀ p ∈ [(0, 0x100000, Reg.GLB_CLAMP_COUNT), (0x100000, 0x200000, Reg.HP_CLAMP_COUNT),
      (0x200000, 0x400000, Reg.QMG_CLAMP_COUNT), (0x400000, 0x500000, Reg.SPN_CLAMP_COUNT), (0x500000, 0x600000, Reg.GTH_CLAMP_COUNT),
      (0x800000, 0x900000, Reg.DMA_CLAMP_COUNT), (0x900000, 0xA00000, Reg.SPA_CLAMP_COUNT), (0xA00000, 0xB00000, Reg.COD_CLAMP_COUNT),
      (0xB00000, 0xC00000, Reg.SPC_CLAMP_COUNT), (0xC00000, 0xD00000, Reg.FH_CLAMP_COUNT), (0xD00000, 0xE00000, Reg.LN_CLAMP_COUNT),
      (0xE00000, 0xF00000, Reg.STF_CLAMP_COUNT), (0xF00000, 0x1000000, Reg.TB_CLAMP_COUNT), (0x1000000, 0x1100000, Reg.CAP_CLAMP_COUNT),
      (0x1100000, 0x1200000, Reg.MEM_CLAMP_COUNT), (0x1200000, 0x1300000, Reg.PWR_CLAMP_COUNT), (0x1300000, 0x1400000, Reg.COL_CLAMP_COUNT),
      (0x1400000, 0x1500000, Reg.SLT_CLAMP_COUNT)], p.1 ≤ a → a < p.2.1 → s.clampFor a = s.clampAt p.2.2) ∧
  (∀ (s : State) (q a : Nat), q < 24 → 0x600000 + q * 0x10000 ≤ a → a < 0x600000 + (q + 1) * 0x10000 →
    s.clampFor a = s.clampAt (Reg.QUI_CLAMP_COUNT q)))

/-- R27: of two statuses that apply in one cycle the completion carries the first of BAD, ABORTED, DISABLED, FLUSHED, TIMEOUT,
REFUSED, LATE, the block-specific ones by code, OK; CLAMPED is set whatever the status. -/
def Obligations.StatusOrder : Prop :=
  (∀ (i j a b : Nat), [stBAD, stABORTED, stDISABLED, stFLUSHED, stTIMEOUT, stREFUSED, stLATE][i]? = some a →
    [stBAD, stABORTED, stDISABLED, stFLUSHED, stTIMEOUT, stREFUSED, stLATE][j]? = some b → i ≤ j →
    worseStatus a b = a ∧ worseStatus b a = a) ∧
  (∀ (a b : Nat), a ∈ [stBAD, stABORTED, stDISABLED, stFLUSHED, stTIMEOUT, stREFUSED, stLATE] → (b = stOK ∨ (0x80 ≤ b ∧ b ≤ 0xFF)) →
    worseStatus a b = a ∧ worseStatus b a = a) ∧
  (∀ (a b : Nat), 0x80 ≤ a → a ≤ b → b ≤ 0xFF → worseStatus a b = a ∧ worseStatus b a = a) ∧
  (∀ (a : Nat), 0x80 ≤ a → a ≤ 0xFF → worseStatus a stOK = a ∧ worseStatus stOK a = a) ∧
  (∀ specific status late clamped phase, (completionWord specific status late clamped phase).testBit 9 = clamped)

/-! ## Timebase -/

/-- Every step keeps the rate in force and a rate that waits for the next tick within 200 ppm of nominal (R32). The model's
choices and readings it rests on: log entries 1, 2, 23. -/
def Obligations.RateStaysLegal : Prop :=
  State.reset.tb.rateLegal ∧ ∀ s t : State, s.tb.rateLegal → step s = .next t → t.tb.rateLegal

/-- A tick never takes corrected time back (R37): at a legal rate and a slew of at most 100 ppm it rises, and by exactly the rate
in force where nothing is left to slew, a committed rate included (R32). TCLK_TICK and SLEW_DONE (R29, R34, R39): the raw counter
advances by 1 and wraps; nothing is slewed where nothing remains; a positive remainder above one tick's part shrinks by it,
TB_SLEW_MAX × 2^-40 × 10^-6 ns, and the offset grows by it; the tick that ends a slew leaves 0 and sets SLEW_DONE. A tick changes
the timebase and, with SLEW_DONE, that event alone. The model's choices and readings it rests on: log entries 7, 9, 109. -/
def Obligations.TickMovesTimeForward : Prop :=
  (∀ s t : State, s.tclkRuns = true → s.tb.rateLegal → s.slewPpm ≤ 100 → s.tb.raw.toNat + 1 < 2 ^ 64 → exec .tclkTick s = .next t →
    s.tb.timeU < t.tb.timeU ∧ (s.tb.remainU = 0 → t.tb.timeU = s.tb.timeU + (s.tb.rate * 1000000 : Nat)) ∧
    t.tb.rate = s.tb.pendingRate.getD s.tb.rate ∧ t.tb.pendingRate = none) ∧
  ((∀ s : State, s.tclkRuns = true → s.tb.remainU = 0 → s.tb.pendingRate = none →
    ∃ due, exec .tclkTick s = .next { s with tb := { s.tb with raw := s.tb.raw + 1, stitchSource := s.bit Reg.TB_CTRL 0, ppsDue := due } }) ∧
  (∀ s : State, s.tclkRuns = true → ((s.slewPpm * 2 ^ 40 : Nat) : Int) < s.tb.remainU → s.tb.pendingRate = none →
    ∃ due, exec .tclkTick s = .next { s with tb := { s.tb with
      raw := s.tb.raw + 1, stitchSource := s.bit Reg.TB_CTRL 0, ppsDue := due,
      offsetU := s.tb.offsetU + (s.slewPpm * 2 ^ 40 : Nat), remainU := s.tb.remainU - (s.slewPpm * 2 ^ 40 : Nat) } }) ∧
  (∀ s : State, s.tclkRuns = true → s.tb.remainU ≠ 0 → (s.tb.remainU.natAbs ≤ s.slewPpm * 2 ^ 40) → s.tb.pendingRate = none →
    ∃ due, exec .slewDone s = .next ({ s with tb := { s.tb with
      raw := s.tb.raw + 1, stitchSource := s.bit Reg.TB_CTRL 0,
      ppsDue := due, offsetU := s.tb.offsetU + s.tb.remainU, remainU := 0 } }.raise Reg.TB_EVENT 2)))

/-- TB_RATE_COMMIT and SOURCE_CHANGE (R32, R39): under HOST a rate commits for the next tick, one outside ±200 ppm as the nearer
bound and counted; under STITCH the writes of TB_RATE, TB_ADJ and TB_SET are discarded and counted; SOURCE is stored whatever the
setup lock says. ADJUSTMENT and TIME_SET (R33, R35, R36). With `adj` the adjustment in units of 2^-16 ns: a sum within
TB_STEP_LIMIT is slewed; a larger one is a step, applied in one tick with DISCONTINUITY where STEP_PERMIT is 1 and every carrier
is stopped, else refused with its amount in TB_REFUSED and STEP_REFUSED. A permitted TIME_SET makes corrected time the time set.
The model's choices and readings it rests on: log entries 9, 25. -/
def Obligations.RateAndSteps : Prop :=
  ((∀ (s : State) (v : W32) (r : Nat), s.hostOpen Reg.TB_RATE_HI → s.tb.stitchSource = false →
    r = (s.rd Reg.TB_RATE_LO).toNat + bitsOf v 15 0 * 2 ^ 32 → rateMin ≤ r → r ≤ rateMax →
    exec (.tbRateCommit v) s = .next ((({ s with tb.pendingRate := some r }).wr Reg.TB_RATE_LO (BitVec.ofNat 32 r)).wr
      Reg.TB_RATE_HI (BitVec.ofNat 32 (r / 2 ^ 32)))) ∧
  (∀ (s : State) (v : W32) (r b : Nat), s.hostOpen Reg.TB_RATE_HI → s.tb.stitchSource = false →
    r = (s.rd Reg.TB_RATE_LO).toNat + bitsOf v 15 0 * 2 ^ 32 → (r < rateMin ∧ b = rateMin ∨ rateMax < r ∧ b = rateMax) →
    exec (.tbRateCommit v) s = .next (((({ s with tb.pendingRate := some b }).wr Reg.TB_RATE_LO (BitVec.ofNat 32 b)).wr
      Reg.TB_RATE_HI (BitVec.ofNat 32 (b / 2 ^ 32))).clampAt Reg.TB_CLAMP_COUNT)) ∧
  (∀ (s : State) (v : W32), s.tb.stitchSource = true →
    (s.hostOpen Reg.TB_RATE_HI → exec (.tbRateCommit v) s = .next (s.clampAt Reg.TB_CLAMP_COUNT)) ∧
    (s.hostOpen Reg.TB_ADJ_HI → exec (.adjustment v) s = .next (s.clampAt Reg.TB_CLAMP_COUNT)) ∧
    (s.hostOpen Reg.TB_SET_SEC_HI → exec (.timeSet v) s = .next (s.clampAt Reg.TB_CLAMP_COUNT))) ∧
  (∀ (s : State) (v : W32), s.hostOpen Reg.TB_CTRL →
    exec (.sourceChange v) s = .next (s.wr Reg.TB_CTRL
      (setBitsOf (setBitsOf (s.rd Reg.TB_CTRL) 8 8 (bitsOf v 8 8)) 0 0 (bitsOf v 0 0))))) ∧
  ((∀ (s : State) (v : W32) (adj : Int), s.hostOpen Reg.TB_ADJ_HI → s.tb.stitchSource = false →
      adj = signedOf 64 ((s.rd Reg.TB_ADJ_LO).toNat + v.toNat * 2 ^ 32) →
    let s1 := s.wr Reg.TB_ADJ_HI v
    ((s.tb.remainU + adj * uPer16).natAbs ≤ s1.fld Reg.TB_STEP_LIMIT 9 0 * (2 ^ 40 * 1000000) → s.tb.remainU + adj * uPer16 ≠ 0 →
      exec (.adjustment v) s = .next { s1 with tb.remainU := s.tb.remainU + adj * uPer16 }) ∧
    (s1.fld Reg.TB_STEP_LIMIT 9 0 * (2 ^ 40 * 1000000) < (s.tb.remainU + adj * uPer16).natAbs → s1.bit Reg.TB_CTRL 8 = true → s.allStopped = true →
      exec (.adjustment v) s = .next (({ s1 with tb := { s.tb with
        offsetU := s.tb.offsetU + adj * uPer16, remainU := 0, ppsDue := false } }).resumeGrid.raise Reg.TB_EVENT 1)) ∧
    (s1.fld Reg.TB_STEP_LIMIT 9 0 * (2 ^ 40 * 1000000) < (s.tb.remainU + adj * uPer16).natAbs → (s1.bit Reg.TB_CTRL 8 && s.allStopped) = false →
      exec (.adjustment v) s = .next (((({ s1 with tb.refused := adj }).wr Reg.TB_REFUSED_LO (BitVec.ofNat 32 (unsignedOf 64 adj))).wr
        Reg.TB_REFUSED_HI (BitVec.ofNat 32 (unsignedOf 64 adj / 2 ^ 32))).raise Reg.TB_EVENT 0))) ∧
  (∀ (s : State) (v : W32), s.canonical → s.hostOpen Reg.TB_SET_SEC_HI → s.tb.stitchSource = false →
      s.bit Reg.TB_CTRL 8 = true → s.allStopped = true →
    let s1 := s.wr Reg.TB_SET_SEC_HI (BitVec.ofNat 32 (bitsOf v 15 0))
    let ns : Nat := ((s1.rd Reg.TB_SET_SEC_LO).toNat + bitsOf v 15 0 * 2 ^ 32) * 1000000000 + (s1.rd Reg.TB_SET_NS).toNat
    ∃ u : State, exec (.timeSet v) s = .next (u.raise Reg.TB_EVENT 1) ∧ u.tb.timeU = ns * uPerNs ∧ u.tb.remainU = 0 ∧
      u.tb.raw = s.tb.raw ∧ u.tb.rate = s.tb.rate ∧ u = { s1 with tb := u.tb, slt.nextFrame := u.slt.nextFrame }))

/-- REF_SELECT, REF_LOST, REF_RETURN and REFERENCE_DETECTION (R40, R462): the reference the PLL runs on, REF_PRESENT and
TIME_LOCKED, the core held in reset or not; the raw counter, the rate and the offset stay. PPS_IN, PPS_OUT, PPS_OUT_END and
HOLDOVER_CLEAR (R43, R47, R48): the edge is stamped with corrected time; PPS_OUT rises, while EN is 1, once a second was crossed,
and falls; HOLDOVER and SLEEP_OVF clear together. The model's choices and readings it rests on: log entries 7, 109. -/
def Obligations.ReferencesAndPulses : Prop :=
  ((∀ (s : State) (v : W32), s.hostOpen Reg.TB_REF_CTRL → s.setupLocked = false → bitsOf v 1 0 ≤ 2 → bitsOf v 1 0 ≠ s.tb.refInUse →
      s.canonical →
    ∃ t, exec (.refSelect v) s = .next t ∧ t.tb.refInUse = bitsOf v 1 0 ∧ t.tb.refPresent = s.tb.present (bitsOf v 1 0) ∧
      t.tb.timeLocked = (bitsOf v 1 0 != 0 && s.tb.present (bitsOf v 1 0)) ∧ t.tb.raw = s.tb.raw ∧ t.tb.rate = s.tb.rate ∧
      t.tb.offsetU = s.tb.offsetU ∧ t.mem = s.mem) ∧
  (∀ s : State, s.tclkRuns = true → s.tb.refPresent = true →
    (s.tb.refInUse = 1 → exec .refLost s = .next ({ s with tb := { s.tb with
      refPresent := false, timeLocked := false, synceInPresent := false } }.tbEvent 3)) ∧
    (s.tb.refInUse = 2 → exec .refLost s = .next ({ s with tb := { s.tb with
      refPresent := false, timeLocked := false, trefInPresent := false } }.tbEvent 3))) ∧
  (∀ (s : State) (locked : Bool), s.tclkRuns = true →
    (s.tb.refInUse = 1 → exec (.refReturn locked) s = .next { s with tb := { s.tb with
      refPresent := true, timeLocked := s.tb.timeLocked || locked, synceInPresent := true } }) ∧
    (s.tb.refInUse = 2 → exec (.refReturn locked) s = .next { s with tb := { s.tb with
      refPresent := true, timeLocked := s.tb.timeLocked || locked, trefInPresent := true } })) ∧
  (∀ (s : State) (p : Bool), s.tclkRuns = true → s.tb.refInUse = 0 →
    exec (.referenceDetection 1 p) s = .next { s with tb.synceInPresent := p } ∧
    exec (.referenceDetection 2 p) s = .next { s with tb.trefInPresent := p })) ∧
  ((∀ s : State, s.clocked = true → exec .ppsIn s = .next ((s.wrTriple Reg.TB_PPS_IN s.tb.time16).raise Reg.TB_EVENT 5)) ∧
  (∀ s : State, s.clocked = true → s.tb.ppsDue = true →
    exec .ppsOut s = .next { s with tb := { s.tb with ppsDue := false, ppsOut := s.tb.ppsOut || s.bit Reg.TB_PPS_OUT_CTRL 31 } }) ∧
  (∀ s : State, s.clocked = true → exec .ppsOutEnd s = .next { s with tb.ppsOut := false }) ∧
  (∀ s : State, s.hostOpen Reg.TB_STATUS →
    exec .holdoverClear s = .next { s with tb := { s.tb with holdover := false, sleepOvf := false } }))

/-! ## Slot grid -/

/-- MOULD_WRITE, MOULD_LOAD, MOULD_LOAD_DATA and MOULD_COPY_DONE (R54 to R56, R64 to R66). A write of one word without clamps
(SLOT_TAG of the UL slot page) changes that word of the mould, or waits for a copy that runs, and completes OK with the mould's
generation; armed and felt sets stay. A load fetches its pages; data that fails leaves the mould unchanged and completes BAD; a
page that arrives unclamped is written and completes OK. The end of a copy applies what waited. ARM (R48, R55, R56, R66, R68): an
IMMEDIATE arm of the UL half of a running carrier arms the earliest reachable slot with what the mould holds, begins the copy into
the new mould bank and advances the generation; its completion is still to come. Under HOLDOVER the arm is REFUSED and nothing
else changes; a DISABLED carrier answers DISABLED; a stopped one REFUSED. R68's resolution: below 8,192 slots ahead the target
itself; from half the period on it is past, and the earliest slot with LATE; between, the earliest slot, clamped. The model's
choices and readings it rests on: log entries 4, 7, 9, 25, 33, 55, 101. -/
def Obligations.MouldAndArm : Prop :=
  ((∀ (s : State) (d : Desc), s.clocked = true → d.carrier < 512 → d.fld 0x10 15 14 = 1 → d.fld 0x10 13 11 = 0 → d.fld 0x10 10 6 = 1 →
      d.fld 0x10 5 0 = 5 → s.carrierRefuses d.carrier = false →
    let x := s.carrier d.carrier
    exec (.mouldWrite d) s = .next ((s.setCarrier d.carrier { x with ul := x.ul.write 5 (d.w 0x20) }).complete (d.ref false) stOK
      (x.ul.gen % 65536))) ∧
  (∀ (h : HalfState) (key : Nat) (v : W32), (h.write key v).armed = h.armed ∧ (h.write key v).felt = h.felt ∧ (h.write key v).gen = h.gen) ∧
  (∀ (s : State) (d : Desc), s.clocked = true → d.carrier < 512 → d.fld 0x10 15 14 = 1 → 1 ≤ d.fld 0x10 10 7 →
      d.fld 0x10 10 7 + d.fld 0x10 13 11 ≤ 8 → d.w64 0x18 &&& 0x3F#64 = 0 → s.carrierRefuses d.carrier = false →
    exec (.mouldLoad d) s = .next ({ s with slt.loads := s.slt.loads ++ [({
      ref := d.ref false, carrier := d.carrier, half := 1, page := d.fld 0x10 13 11, pages := d.fld 0x10 10 7, addr := d.w64 0x18 } : MouldLoad)] }.emit
        (.hostRead (s.descFn d) (d.w64 0x18) (d.fld 0x10 10 7 * 128)))) ∧
  (∀ (s : State) (ring : Nat) (tag : W32) (data : List W32) (l : MouldLoad), s.clocked = true →
      s.slt.loads.find? (fun l => l.ref.ring == ring && l.ref.tag == tag) = some l →
    let s1 : State := { s with slt.loads := s.slt.loads.erase l }
    exec (.mouldLoadData ring tag false data) s = .next (s1.complete l.ref stBAD 0) ∧
    (l.pages = 1 → (s1.writePage l.carrier l.half l.page 0 ((List.range 32).map (fun w => data.getD w 0))).2 = [] →
      exec (.mouldLoadData ring tag true data) s =
        .next ((s1.writePage l.carrier l.half l.page 0 ((List.range 32).map (fun w => data.getD w 0))).1.complete l.ref stOK
          (s1.mouldGen16 l.carrier l.half)))) ∧
  (∀ (s : State) (c : Nat) (h : Half), s.clocked = true → c < 512 →
    exec (.mouldCopyDone c h) s = .next (s.setCarrier c ((s.carrier c).setHalf h ((s.carrier c).half h).finishCopy)))) ∧
  ((∀ (s : State) (d : Desc), s.clocked = true → d.carrier < 512 → (d.w 0x10).getLsbD 3 = false → (d.w 0x10).getLsbD 2 = false →
      d.fld 0x10 1 0 = 1 → d.immediate = true →
    let x := s.carrier d.carrier
    let e := x.cfg.earliest s.slt.originNs .ul s.tb.timeU
    (s.tb.holdover = false → x.mode = .running → x.ul.armedElsewhere e = false →
      exec (.arm d) s = .next (s.setCarrier d.carrier { x with ul := x.ul.arm e false false false (some (d.ref false)) })) ∧
    (s.tb.holdover = true → exec (.arm d) s = .next (s.complete (d.ref false) stREFUSED 0)) ∧
    (s.tb.holdover = false → x.mode = .disabled → exec (.arm d) s = .next (s.complete (d.ref false) stDISABLED 0)) ∧
    (s.tb.holdover = false → x.mode = .stopped → exec (.arm d) s = .next (s.complete (d.ref false) stREFUSED 0))) ∧
  (∀ (h : HalfState) (slot : Int) (start stop late : Bool) (r : Option DRef),
    (h.arm slot start stop late r).felt = h.felt ∧ (h.arm slot start stop late r).mould = h.finishCopy.mould ∧
    (h.arm slot start stop late r).gen = (h.gen + 1) % 2 ^ 32 ∧ (h.arm slot start stop late r).copying = true ∧
    ∃ a, (h.arm slot start stop late r).armed = some a ∧ a.slot = slot ∧ a.gen = h.gen ∧ a.words = h.finishCopy.mould ∧ a.late = late)) ∧
  (∀ (d period : Nat) (e : Int),
    (d < 8192 → resolveArm d period e = (e + d, false, false)) ∧
    (8192 ≤ d → period / 2 ≤ d → resolveArm d period e = (e, true, false)) ∧
    (8192 ≤ d → d < period / 2 → resolveArm d period e = (e, false, true)))

/-- CARRIER_DISABLE, CARRIER_ENABLE, SLOT_ABORT and GRID_ORIGIN_SET (R50, R67, R74, R77): a stopped carrier is disabled at once
and a disabled one is stopped again, each with OK; an abort of a UL slot that lives ends it and completes OK without ABORT_LATE,
and one that finds no slot completes OK with ABORT_LATE; the grid origin is set while every carrier is stopped, else the write is
discarded and counted. The model's choices and readings it rests on: log entries 7, 25, 32, 35, 91. -/
def Obligations.CarrierControl : Prop :=
  (∀ (s : State) (d : Desc), s.clocked = true → d.carrier < 512 →
    let x := s.carrier d.carrier
    (x.mode = .stopped → mapWf (fun _ => ({} : Carrier)) s.slt.carriers = true → exec (.carrierDisable d) s =
      .next ((((s.setCarrier d.carrier { x with mode := .disabled }).returnCarrier d.carrier).migDisable d.carrier).complete (d.ref false) stOK 0)) ∧
    (x.mode = .disabled → exec (.carrierEnable d) s =
      .next ((s.setCarrier d.carrier { x with mode := .stopped }).complete (d.ref false) stOK 0))) ∧
  (∀ (s : State) (d : Desc), s.clocked = true → d.carrier < 512 → d.fld 0x10 1 0 = 1 → d.immediate = true →
      (s.carrier d.carrier).refusesWork = false →
    (∀ n, s.abortTarget d d.carrier .ul = some n →
      exec (.slotAbort d) s = .next ((s.slotAbort d.carrier .ul n).completeAt (d.ref false) stOK 0 false (s.slotAbort d.carrier .ul n).stampNow)) ∧
    (s.abortTarget d d.carrier .ul = none → exec (.slotAbort d) s = .next (s.completeAt (d.ref false) stOK 0 true s.stampNow))) ∧
  (∀ (s : State) (v : W32), s.hostOpen Reg.SLT_GRID_SEC_HI →
    (s.allStopped = true → exec (.gridOriginSet v) s =
      (let u := s.writeTable Reg.SLT_GRID_SEC_HI v
       .next { u with slt.originNs := ((((u.rd Reg.SLT_GRID_SEC_LO).toNat + u.fld Reg.SLT_GRID_SEC_HI 15 0 * 2 ^ 32) * 1000000000
         + (u.rd Reg.SLT_GRID_NS).toNat : Nat) : Int) }.resumeGrid)) ∧
    (s.allStopped = false → exec (.gridOriginSet v) s = .next (s.clampAt Reg.SLT_CLAMP_COUNT)))

/-- BOUNDARY_FIRE and SLOT_EXPIRY (R53 to R58, R72, R77, R78). With no carrier listed only a reference frame boundary can be due:
the module set couches, the TICK and the MARKs go out. A half whose boundary is due fires; one that runs and holds an armed set
for that slot makes it its felt set, begins the slot and completes its arms; one without keeps its felt set and counts UNARMED. A
slot that expires has its transmit windows closed first; with work still open it is aborted, SLT_CEXPIRED counts and EXPIRY_ABORT
is raised; then it leaves the live slots. The model's choices and readings it rests on: log entries 4, 7, 9, 29, 31, 32, 35, 72,
91, 102. -/
def Obligations.BoundariesAndExpiry : Prop :=
  (∀ s : State, s.clocked = true → s.slt.carriers = [] →
    ((s.slt.originNs + s.slt.nextFrame * frameNs) * uPerNs ≤ s.tb.timeU →
      exec .boundaryFire s = .next ((({ s with slt.nextFrame := s.slt.nextFrame + 1 }.moduleCouch s.slt.nextFrame).sendTick
        s.slt.nextFrame).vatMark)) ∧
    (s.tb.timeU < (s.slt.originNs + s.slt.nextFrame * frameNs) * uPerNs → exec .boundaryFire s = .next s)) ∧
  (∀ (s : State) (c : Nat) (x : Carrier) (n : Int), s.clocked = true → s.slt.carriers = [(c, x)] →
      s.tb.timeU < (s.slt.originNs + s.slt.nextFrame * frameNs) * uPerNs → s.expiryDue c .dl = none → s.expiryDue c .ul = none →
      x.dl.awaits = none → x.ul.awaits = some n → x.cfg.boundaryNs s.slt.originNs .ul n * uPerNs ≤ s.tb.timeU →
    exec .boundaryFire s = .next (s.fireHalf c .ul n)) ∧
  (∀ (s : State) (c : Nat) (h : Half) (n : Int) (a : ArmedSet), ((s.carrier c).half h).disableNext = false →
      ((s.carrier c).half h).armed = some a → ((s.carrier c).half h).running = true →
      a.slot = n → a.start = false → a.stop = false →
    let x := s.carrier c
    let time := shortStampOf (x.cfg.boundaryNs s.slt.originNs h n * 65536)
    s.fireHalf c h n = ((s.setCarrier c (x.setHalf h { x.half h with felt := a.words, feltGen := a.gen, armed := none })).beginSlot c h n
      false (b2n a.late * 8) time).completeArms a.gen time a.refs) ∧
  (∀ (s : State) (c : Nat) (h : Half) (n : Int), ((s.carrier c).half h).disableNext = false → ((s.carrier c).half h).armed = none →
      ((s.carrier c).half h).running = true →
    s.fireHalf c h n = (s.bumpFld (Reg.SLT_CCOUNT c) 15 0 1).beginSlot c h n false 4
      (shortStampOf ((s.carrier c).cfg.boundaryNs s.slt.originNs h n * 65536))) ∧
  (∀ (s : State) (c : Nat) (h : Half) (n : Int), s.clocked = true → s.expiryDue c h = some n →
    let t := s.fhCloseAll c h n
    let gone := fun u : State => ((((u.setCarrier c ((u.carrier c).setHalf h { (u.carrier c).half h with
      live := ((u.carrier c).half h).live.filter (·.slot != n) })).streamExpire c h (stampOf (u.carrier c).cfg.spf n)).fhExpire c h n).settleCarrier c)
    (t.slotOpen c h n = false → exec (.slotExpiry c h) s = .next (gone t)) ∧
    (t.slotOpen c h n = true → exec (.slotExpiry c h) s =
      .next (gone (((t.slotAbort c h n).bump (Reg.SLT_CEXPIRED c)).raise Reg.SLT_EVENT 1))))

/-! ## Host Port -/

/-- DOORBELL (R14, R95, R96): the doorbell of QID q stands at BAR2 offset 8 × q; a write of 4 or 8 bytes there to an enabled host
ring of the writing function sets HOST_IDX; for a submission ring the bits at and above LOG2_SIZE are taken as 0 and such an INDEX
counts as clamped; of a completion ring an INDEX that passes DEV_IDX is taken as DEV_IDX; every other write inside BAR2, one to
the high word or misaligned included, is discarded and counted. Host reads of a function that answers (R81, R83, R84, R95, R102,
R104): BAR2 reads 0 everywhere; a register of BAR0 that latches nothing reads as it stands; a VF's BAR0 answers its MSI-X table
and pending bits and 0 elsewhere; configuration space holds the IDs, the class code, the BAR masks of 64 MiB, 16 KiB, 512 KiB and
4 GiB, the MSI-X table size and the SR-IOV fields. The model's choices and readings it rests on: log entries 7, 10, 25, 39, 41,
43, 78, 79, 88, 100. -/
def Obligations.Doorbells : Prop :=
  ((∀ (s : State) (fn qid width : Nat) (v : W64), s.clocked = true → (s.fnOf fn).flr = false → s.fnExists fn = true → qid < 65536 →
      (width = 4 ∨ width = 8) → (s.queue qid).kind = 1 → (s.ring qid).enable = true → (s.ring qid).owner = fn →
    let r := s.ring qid
    (r.completion = false → bitsOf v 15 0 < r.size →
      exec (.doorbell fn (8 * qid) width v) s = .next (s.setRing qid { r with hostIdx := bitsOf v 15 0 })) ∧
    (r.completion = false → r.size ≤ bitsOf v 15 0 →
      exec (.doorbell fn (8 * qid) width v) s =
        .next ((s.setRing qid { r with hostIdx := bitsOf v 15 0 % r.size }).clampAt Reg.HP_CLAMP_COUNT)) ∧
    (r.completion = true → r.devIdx < r.size → r.hostIdx < r.size → bitsOf v 15 0 < r.size →
        (r.devIdx + r.size - r.hostIdx) % r.size < (bitsOf v 15 0 + r.size - r.hostIdx) % r.size →
      exec (.doorbell fn (8 * qid) width v) s =
        .next ((s.setRing qid { r with hostIdx := r.devIdx }).clampAt Reg.HP_CLAMP_COUNT))) ∧
  (∀ (s : State) (fn offset width : Nat) (v : W64), s.clocked = true → (s.fnOf fn).flr = false → s.fnExists fn = true →
      offset < 0x80000 → ((width ≠ 4 ∧ width ≠ 8) ∨ offset % 8 ≠ 0 ∨ (s.queue (offset / 8)).kind ≠ 1 ∨
        (s.ring (offset / 8)).enable = false ∨ (s.ring (offset / 8)).owner ≠ fn) →
    exec (.doorbell fn offset width v) s = .next (s.clampAt Reg.HP_CLAMP_COUNT))) ∧
  ((∀ (s : State) (fn o w : Nat), s.vfAnswers fn = true → o < 0x80000 →
    exec (.lowHalfRead ⟨fn, .bar2 o w⟩) s = .next { s with hostRead := [0] }) ∧
  (∀ (s : State) (a : Nat), a < 0x4000000 → a % 4 = 0 → inMsixTable 0 a = false → inMsixPba 0 a = false → latchCount a = 0 →
      s.bar0Answers a = true → (s.glb.coreReady = true ∨ blockOf a = some .glb) → s.regIsolated a = false → s.settleRead a = s →
    exec (.lowHalfRead ⟨0, .bar0 a 4⟩) s = .next { s with hostRead := [s.readReg a] }) ∧
  (∀ (s : State) (fn v k : Nat), s.vfAnswers fn = true → 1 ≤ fn → v < 32 → k < 4 →
    exec (.lowHalfRead ⟨fn, .bar0 (16 * v + 4 * k) 4⟩) s = .next { s with hostRead := [(s.msixOf (32 * fn + v)).word k] } ∧
    exec (.lowHalfRead ⟨fn, .bar0 0x2000 4⟩) s = .next { s with hostRead := [s.pbaWord fn 0] }) ∧
  (∀ (s : State) (fn a w : Nat), s.vfAnswers fn = true → 1 ≤ fn → 512 ≤ a → a < 0x4000 → (a < 0x2000 ∨ 0x2008 ≤ a) →
    exec (.lowHalfRead ⟨fn, .bar0 a w⟩) s = .next { s with hostRead := [0] }) ∧
  (∀ (s : State) (fn : Nat), s.vfAnswers fn = true →
    ∀ p ∈ [(CfgField.deviceId, [if fn = 0 then 0x9616#32 else 0x9617#32]), (.revisionId, [0xB0#32]), (.classCode, [0x0B4000#32]),
        (.bar 0, if fn = 0 then [0xFC000004#32, 0xFFFFFFFF#32] else [0xFFFFC004#32, 0xFFFFFFFF#32]),
        (.bar 2, [0xFFF80004#32, 0xFFFFFFFF#32]), (.bar 4, if fn = 0 then [0xC#32, 0xFFFFFFFF#32] else [0#32, 0#32]),
        (.msixTableSize, [31#32])], exec (.lowHalfRead ⟨fn, .config p.1⟩) s = .next { s with hostRead := p.2 }) ∧
  (∀ s : State, s.vfAnswers 0 = true →
    ∀ p ∈ [(CfgField.totalVfs, [63#32]), (.firstVfOffset, [1#32]), (.vfStride, [1#32]), (.numVfs, [BitVec.ofNat 32 s.hp.numVfs])],
      exec (.lowHalfRead ⟨0, .config p.1⟩) s = .next { s with hostRead := p.2 }))

/-- FETCH_BATCH, BATCH_LANDS, DESCRIPTOR_DELIVERY and NOP (R87, R89, R91, R98, R99, R101). A batch of n reserves n entries of the
CQ and is read from the ring; when it lands DEV_IDX passes it and is written back, its descriptors wait in ring order, and a
failed read gives BAD completions instead; delivery takes the oldest descriptor of the ring for the block, unless a fence or a
full engine holds it, and hands it to the command its TYPE names; NOP completes OK, and so, with CLAMPED, does a type that no
chapter defines. The model's choices and readings it rests on: log entries 4, 7, 15, 21, 25, 26, 27, 28, 32, 33, 35, 52, 69, 72,
74, 91, 95, 101, 110, 117. -/
def Obligations.FetchAndDelivery : Prop :=
  (∀ (s : State) (q n : Nat), s.clocked = true →
      nextInRound s.hp.rrLast ((s.hp.rings.filter (fun p => s.fetchable p.2)).map Prod.fst) = some q → n = s.batchLength (s.ring q) →
      s.hp.inFlight.length < maxBatches → s.undelivered + n ≤ maxUndelivered →
    let r := s.ring q
    let s1 := (s.setRing q { r with fetchIdx := (r.fetchIdx + n) % r.size, openCount := r.openCount + n }).setRing r.cq
      { s.ring r.cq with openCount := (s.ring r.cq).openCount + n }
    exec .fetchBatch s = .next ({ s1 with hp.inFlight := s1.hp.inFlight ++ [(⟨q, r.fetchIdx, n⟩ : Batch)], hp.rrLast := q }.emit
      (.hostRead r.owner (r.base + BitVec.ofNat 64 (r.fetchIdx * 64)) (n * 64)))) ∧
  (∀ (s : State) (q : Nat) (descs : List (List W32)) (b : Batch) (rest : List Batch), s.clocked = true →
      takeBatch q s.hp.inFlight = some (b, rest) →
    let r := s.ring q
    let s1 := ({ s with hp.inFlight := rest }.setRing q { r with devIdx := (b.slot + b.count) % r.size }).writeBack q
    (r.enable = true → exec (.batchLands q true descs) s = .next { s1 with
      hp.fetched := s1.hp.fetched ++ ((List.range b.count).map (fun i => parseDesc q (descs.getD i []))).mapIdx (fun i d => (⟨s1.hp.nextSeq + i, d⟩ : Fetched)),
      hp.nextSeq := s1.hp.nextSeq + b.count }) ∧
    exec (.batchLands q false descs) s = .next ((List.range b.count).foldl (fun s i =>
      s.complete { ring := q, tag := 0xFFFFFFFF#32 } stBAD ((b.slot + i) % r.size)) s1)) ∧
  (∀ s : State, s.clocked = true → nextInRound s.hp.rrLast ((s.hp.rings.filter (fun p => s.fetchable p.2)).map Prod.fst) = none →
    exec .fetchBatch s = .next s) ∧
  (∀ (s : State) (ring block : Nat) (f : Fetched), s.clocked = true →
      s.hp.fetched.find? (fun f => f.desc.ring == ring && blockOfDesc f.desc == block) = some f → s.fenceHolds f = false →
      s.jobHeld f.desc = false →
    let u : State := { s with hp.fetched := s.hp.fetched.erase f }
    (∀ p ∈ [(0x0101, Instr.queueWrite), (0x0200, .taskDefine), (0x0201, .taskArm), (0x0202, .eventSet), (0x0203, .taskCancel),
        (0x0204, .sigDefine), (0x0300, .mouldWrite), (0x0301, .mouldLoad), (0x0302, .arm), (0x0303, .slotAbort), (0x0400, .dmaRun),
        (0x0402, .dmaAbort), (0x0501, .spaAbort), (0x0601, .codAbort), (0x0701, .spcAbort), (0x0703, .spcTxq), (0x0801, .fhRxbuf),
        (0x0900, .stfBind), (0x0A01, .capHostbuf), (0x0A02, .capPressStart), (0x0A03, .capPressStop), (0x0B00, .memFill)],
      f.desc.type = p.1 → exec (.descriptorDelivery ring block) s = exec (p.2 f.desc) u) ∧
    (∀ p ∈ [(0x0500, 0, Instr.spaJob), (0x0600, 1, .codJob), (0x0700, 2, .spcJob)],
      f.desc.type = p.1 → exec (.descriptorDelivery ring block) s = exec (p.2.2 f.desc) (u.served p.2.1 8)) ∧
    (¬ knownTypes.contains f.desc.type → exec (.descriptorDelivery ring block) s = exec (.nop f.desc) u) ∧
    (f.desc.type = 0 → exec (.descriptorDelivery ring block) s = .next (u.complete (f.desc.ref false) stOK 0)) ∧
    (∃ t, exec (.descriptorDelivery ring block) s = .next t)) ∧
  (∀ (s : State) (d : Desc), s.clocked = true →
    (d.type = 0 → exec (.nop d) s = .next (s.complete (d.ref false) stOK 0)) ∧
    (d.type ≠ 0 → exec (.nop d) s = .next (((s.clampRing d.ring).clampAt Reg.HP_CLAMP_COUNT).complete (d.ref true) stOK 0)))

/-- RCTX_SELECT, RING_COMMIT and RING_COMMIT_DONE (R106, R107, R109): a selection loads the window; a commit stores a context that
stays disabled, takes an enable whose conditions fail with ENABLE 0 and counts it, holds an enable while entries of the ring are
still open, and refuses to disable a completion ring in use; the end of a commit clears BUSY and reloads the window; while BUSY
the writes are discarded and counted. The model's choices and readings it rests on: log entries 4, 7, 25, 35, 38. -/
def Obligations.RingContextWindow : Prop :=
  (∀ (s : State) (v : W32), s.hostOpen Reg.HP_RCTX_SEL → s.hp.busy = false →
    exec (.rctxSelect v) s = .next (s.wr Reg.HP_RCTX_SEL (BitVec.ofNat 32 (bitsOf v 15 0))).loadRctx) ∧
  (∀ (s : State) (v : W32), s.hostOpen Reg.HP_RCTX_CMD → s.hp.busy = false → bitOf v 0 = true →
    let q := s.fld Reg.HP_RCTX_SEL 15 0
    let new := s.stagedRing (s.ring q)
    (s.queue q).kind = 1 →
    ((s.ring q).enable = false → new.enable = false → exec (.ringCommit v) s = .next { s.setRing q new with hp.busy := true }) ∧
    ((s.ring q).enable = false → new.enable = true → s.ringEnableOk new = true → (s.ring q).openCount = 0 →
      exec (.ringCommit v) s = .next { s.setRing q new.started with hp.busy := true }) ∧
    ((s.ring q).enable = false → new.enable = true → s.ringEnableOk new = true → (s.ring q).openCount ≠ 0 →
      exec (.ringCommit v) s = .next { s.setRing q { new with enable := false, enablePending := true } with hp.busy := true }) ∧
    ((s.ring q).enable = false → new.enable = true → s.ringEnableOk new = false →
      exec (.ringCommit v) s = .next { (s.setRing q { new with enable := false }).clampAt Reg.HP_CLAMP_COUNT with hp.busy := true }) ∧
    ((s.ring q).enable = true → new.enable = false → (s.ring q).completion = true → s.cqInUse q = true →
      exec (.ringCommit v) s = .next { s.clampAt Reg.HP_CLAMP_COUNT with hp.busy := true })) ∧
  (∀ s : State, s.clocked = true → s.hp.busy = true → exec .ringCommitDone s = .next { s with hp.busy := false }.loadRctx) ∧
  (∀ (s : State) (v : W32), s.hp.busy = true →
    (s.hostOpen Reg.HP_RCTX_SEL → exec (.rctxSelect v) s = .next (s.clampAt Reg.HP_CLAMP_COUNT)) ∧
    (s.hostOpen Reg.HP_RCTX_CMD → exec (.ringCommit v) s = .next (s.clampAt Reg.HP_CLAMP_COUNT)))

/-- Completions and interrupts (R92 to R94, R103, R104, R112): a completion writes one 16-byte entry at DEV_IDX of the CQ for its
owner, then moves DEV_IDX, turns PHASE at the ring's end and gives back one reserved entry. MODERATION_TIMER asserts the ring's
vector; a pending message leaves when its entry is unmasked, unless the module is frozen; a function's waiting writes leave in
order when it becomes bus master, and programs that waited for them complete; a NumVFs above 63 is taken as 63. The model's
choices and readings it rests on: log entries 5, 7, 37, 39, 40, 99. -/
def Obligations.CompletionsAndInterrupts : Prop :=
  (∀ (s : State) (cq fn specific status : Nat) (tag : W32) (late clamped : Bool) (time : W64),
      (s.fnOf fn).flr = false → (s.fnOf fn).busMaster = true → (s.ring cq).irqEn = false → (s.ring cq).disableAtZero = false →
      (s.ring cq).enablePending = false →
    let r := s.ring cq
    let dev := (r.devIdx + 1) % r.size
    s.postEntry cq fn tag false specific status late clamped time =
      (s.emit (.hostWrite ⟨fn, 2, cq, tag, r.base + BitVec.ofNat 64 (r.devIdx * 16), bytesOfNat 4 tag.toNat
        ++ bytesOfNat 4 (completionWord specific status late clamped r.phase) ++ bytesOfNat 8 time.toNat, 0⟩)).setRing cq
          { r with devIdx := dev, phase := if dev = 0 then !r.phase else r.phase, openCount := r.openCount - 1,
                   unsignalled := r.unsignalled + 1 }) ∧
  (∀ (s : State) (q : Nat), s.clocked = true → (s.ring q).completion = true → (s.ring q).irqEn = true → (s.ring q).modTime ≠ 0 →
      (s.ring q).unsignalled ≠ 0 →
    exec (.moderationTimer q) s = .next ((s.setRing q { s.ring q with unsignalled := 0 }).assertFor q ((s.ring q).owner * 32 + (s.ring q).vec))) ∧
  (∀ (s : State) (v : Nat), 32 ≤ v → s.vfAnswers (v / 32) = true →
    exec (.msixUnmask v false) s = .next ((s.setMsix v { s.msixOf v with masked := false }).sendPending v)) ∧
  (∀ (s : State) (v : Nat), s.hp.pba.contains v = true → (s.fnOf (v / 32)).msixEnable = true → (s.msixOf v).masked = false → s.glb.frozen = false →
    s.sendPending v = { s with hp.pba := s.hp.pba.filter (· != v) }.deliverVector 0 v) ∧
  (∀ (s : State) (f : Nat), s.clocked = true → s.fnExists f = true → (s.fnOf f).flr = false →
    exec (.busMasterEnable f) s = .next ((s.fnOf f).waiting.foldl State.releaseWrite
      (s.setFn f { s.fnOf f with busMaster := true, waiting := [] })).settleEnded) ∧
  (∀ (s : State) (e : Bool) (n : Nat), s.clocked = true → (s.fnOf 0).flr = false →
    exec (.vfEnable e n) s = .next { s with hp.vfEnable := e, hp.numVfs := if 63 < n then 63 else n }.deliverLinkDown)

/-- FLR, FLR_TIMEOUT, FLR_DONE, LINK_DOWN, PERST, DATA_LINK_UP and LINK_SPEED_CHANGE (R110 to R113): a reset starts for a function
that exists, and for the PF with every VF while VF Enable is cleared; 90 ms later what its rings still hold open is aborted; it
ends once nothing is open; loss of the link resets the PF; PERST_N disables every ring besides; a write of a function in reset is
dropped and counted. The model's choices and readings it rests on: log entries 5, 7, 35, 36, 37, 40, 99. -/
def Obligations.FunctionResetAndLink : Prop :=
  (∀ (s : State) (f : Nat), s.clocked = true → s.fnExists f = true → (s.fnOf f).flr = false → f ≠ 0 →
    exec (.flr f) s = .next ((s.flrStart f).raise Reg.HP_EVENT 2)) ∧
  (∀ (s : State) (f : Nat), f < 64 → s.hp.rings = [] → (s.fnOf f).waiting = [] → (s.flrStart f).fnOf f = { flr := true }) ∧
  (∀ s : State, s.clocked = true → (s.fnOf 0).flr = false → s.hp.vfEnable = true →
    exec (.flr 0) s = .next ({ (List.range (s.hp.numVfs + 1)).foldl State.flrStart s with hp.vfEnable := false }.raise Reg.HP_EVENT 2)) ∧
  (∀ (s : State) (f : Nat), s.clocked = true → (s.fnOf f).flr = true →
    (s.dma.chans = [] → exec (.flrTimeout f) s = .next (s.abortOpen (fun r => (s.ring r.ring).openOwner == f))) ∧
    (∃ t, exec (.flrTimeout f) s = .next t) ∧
    (s.fnIdle f = true → exec (.flrDone f) s = .next (s.setFn f { s.fnOf f with flr := false }).deliverLinkDown) ∧
    (s.fnIdle f = false → exec (.flrDone f) s = .next s)) ∧
  (∀ s : State, s.clocked = true → s.hp.dlUp = true →
    exec .linkDown s = .next ({ s with hp.dlUp := false }.functionReset 0).raiseLinkDown) ∧
  (∀ s : State, s.clocked = true → s.hp.rings = [] → ∃ t, exec .perst s = .next t ∧ t.hp.dlUp = false ∧ t.hp.numVfs = 0 ∧
    t.hp.vfEnable = false ∧ t.hp.msix = [] ∧ t.hp.pba = []) ∧
  (∀ s : State, s.clocked = true →
    exec .dataLinkUp s = .next { s with hp.dlUp := true, pwr.peWake := false }.deliverLinkDown) ∧
  (∀ (s : State) (speed width : Nat) (flit : Bool), s.clocked = true → speed < 16 → width < 32 →
    exec (.linkSpeedChange speed width flit) s =
      .next ({ s with hp.speed := speed, hp.width := width, hp.flit := flit }.raise Reg.HP_EVENT 1)) ∧
  (∀ (s : State) (w : HostWrite), (s.fnOf w.fn).flr = true →
    s.hostWrite w = ((s.bump Reg.HP_DROP_COUNT).log 0x04 1 (flrDropData w)).dropEvent)

/-! ## Queues, Spine and arbitration -/

/-- START_OF_ITEM, QUEUE_WORD, ITEM_COMMIT, ITEM_VISIBLE and ITEM_REWIND (R116 to R120): a start opens an item and rewinds and
counts one that was open; a word joins the open item while a word is free for its priority; a commit marks the item, which becomes
visible later, the first committed first, with the commit notice of the context, and goes to the consumer that stalled first; a
rewind the producer asks for is not counted, another is. What comes while earlier words of the producer wait at its port waits
behind them. The model's choices and readings it rests on: log entries 7, 43, 72. -/
def Obligations.ItemLifecycle : Prop :=
  (∀ (s : State) (qid prio : Nat) (p : Producer) (tag : BitVec 16), s.clocked = true → (s.queue qid).storable = true →
      (s.queue qid).enable = true → s.qm.ports.any (fun x => x.qid == qid && x.prod == p) = false →
    let q := s.queue qid
    ((q.openOf p).isSome = false → q.opens.length < maxOpen → exec (.startOfItem qid p prio tag) s =
      .next (s.setQueue qid { q.unmark p with opens := q.opens ++ [⟨p, ⟨prio % 8, tag, [], 0⟩, .writing⟩] }).retryWrites) ∧
    ((q.openOf p).isSome = true → (q.closeItem p).opens.length < maxOpen → exec (.startOfItem qid p prio tag) s =
      .next (s.setQueue qid { (q.closeItem p).countDrop.unmark p with
        opens := (q.closeItem p).opens ++ [⟨p, ⟨prio % 8, tag, [], 0⟩, .writing⟩] }).retryWrites)) ∧
  (∀ (s : State) (qid : Nat) (p : Producer) (w : QWord) (o : OpenItem), s.clocked = true →
      (s.queue qid).dropMark p = none → (s.queue qid).openOf p = some o →
      s.qm.ports.any (fun x => x.qid == qid && x.prod == p) = false →
    let q := s.queue qid
    (o.item.words.length < q.itemMax → (q.kind = 2 → s.glb.memReady = true) → q.hasRoom o.item.prio = true →
      exec (.queueWord qid p w) s = .next (s.putQueue qid (q.addWord p w)).retryWrites) ∧
    (q.itemMax ≤ o.item.words.length → exec (.queueWord qid p w) s = .next (s.putQueue qid (q.rewindFor p stREFUSED)).retryWrites) ∧
    (o.item.words.length < q.itemMax → q.kind = 2 → s.glb.memReady = false →
      exec (.queueWord qid p w) s = .next (s.putQueue qid (q.rewindFor p stBAD)).retryWrites) ∧
    (o.item.words.length < q.itemMax → q.kind ≠ 2 → q.hasRoom o.item.prio = false → q.dropsFor p = true →
      exec (.queueWord qid p w) s = .next (s.putQueue qid (q.rewindFor p stREFUSED)).retryWrites) ∧
    (o.item.words.length < q.itemMax → q.kind ≠ 2 → q.hasRoom o.item.prio = false → q.dropsFor p = false → q.stuck = false →
      exec (.queueWord qid p w) s = .next { s.setQueue qid q with
        qm.ports := (s.setQueue qid q).qm.ports ++ [({ qid := qid, prod := p, op := .word w } : PortMsg)] }.retryWrites)) ∧
  (∀ (s : State) (qid prio : Nat) (p : Producer) (tag : BitVec 16) (w : QWord), s.clocked = true →
      s.qm.ports.any (fun x => x.qid == qid && x.prod == p) = true →
    exec (.startOfItem qid p prio tag) s = .next { s with qm.ports := s.qm.ports ++ [⟨qid, p, .start prio tag⟩] } ∧
    exec (.queueWord qid p w) s = .next { s with qm.ports := s.qm.ports ++ [⟨qid, p, .word w⟩] } ∧
    exec (.itemCommit qid p) s = .next { s with qm.ports := s.qm.ports ++ [⟨qid, p, .commit⟩] }) ∧
  (∀ (s : State) (qid : Nat) (p : Producer) (o : OpenItem), s.clocked = true → (s.queue qid).storable = true →
      (s.queue qid).dropMark p = none → (s.queue qid).openOf p = some o → o.item.words ≠ [] →
      s.qm.ports.any (fun x => x.qid == qid && x.prod == p) = false →
    exec (.itemCommit qid p) s = .next (s.putQueue qid { s.queue qid with
      nextSeq := (s.queue qid).nextSeq + 1, spellStart := some s.tb.raw.toNat, spellNotified := false,
      opens := (s.queue qid).opens.map (fun x =>
        if x.openFor p then { x with phase := .committed, item := { x.item with seq := (s.queue qid).nextSeq } } else x) }).retryWrites) ∧
  (∀ (s : State) (qid : Nat) (p : Producer) (o : OpenItem), s.clocked = true →
      (s.queue qid).sentOf p = some o →
    let q := s.queue qid
    let s0 := s.tapItem qid o.item
    let s1 := s0.putQueue qid ({ q.closeSent p with visible := q.visible ++ [o.item] }.serve s0.tb.raw.toNat)
    (q.commitEn = true →
      exec (.itemVisible qid p true) s = .next ((s1.notify .queue q.commitTask q.commitFlag).retryWrites.noteCommit qid p (some stOK))) ∧
    (q.commitEn = false → exec (.itemVisible qid p true) s = .next (s1.retryWrites.noteCommit qid p (some stOK))) ∧
    (q.kind = 2 → exec (.itemVisible qid p false) s =
      .next ((s.putQueue qid ((q.closeSent p).countDrop.serve s.tb.raw.toNat)).retryWrites.noteCommit qid p (some stBAD)))) ∧
  (∀ (s : State) (qid : Nat) (p : Producer) (o : OpenItem), s.clocked = true →
      (s.queue qid).openOf p = some o → o.phase = .writing →
    let s1 : State := { s with qm.ports := s.qm.ports.filter (fun m => m.qid != qid || m.prod != p) }
    exec (.itemRewind qid p true) s = .next (s1.putQueue qid ((s.queue qid).closeItem p)).retryWrites ∧
    exec (.itemRewind qid p false) s = .next (s1.putQueue qid ((s.queue qid).closeItem p).countDrop).retryWrites)

/-- ITEM_READ (R114, R121, R122, R126, R342): a read takes up the item that the stall has been given, else the best visible item,
and leaves its place among the stalled; of an empty enabled queue it stalls, of an empty disabled one it ends DISABLED, of a queue
that holds no words, or that a binding drains while the reader is another consumer, it ends REFUSED. The model's choices and
readings it rests on: log entries 7, 118. -/
def Obligations.ItemReads : Prop :=
  (∀ (s : State) (qid : Nat) (c : Consumer), s.clocked = true → s.boundElsewhere qid c = true →
    exec (.itemRead qid c) s = .next { s with qm.lastRead := some (qid, c, stREFUSED, none) }) ∧
  ∀ (s : State) (qid : Nat) (c : Consumer), s.clocked = true → s.boundElsewhere qid c = false →
    let q := s.queue qid
    (∀ (i : QItem) (q' : Queue), q.storable = true → q.served.find? (·.1 == c) = none → q.released.find? (·.1 == c) = none → stallPos q.stalled c < q.visible.length →
        q.take s.tb.raw.toNat = some (i, q') →
      exec (.itemRead qid c) s = .next { (s.putQueue qid { q' with stalled := q'.stalled.filter (· != c) }).retryWrites with
        qm.lastRead := some (qid, c, stOK, some i) }) ∧
    (∀ i, q.storable = true → q.served.find? (·.1 == c) = some i →
      exec (.itemRead qid c) s = .next { (s.putQueue qid { q with served := q.served.filter (·.1 != c) }).retryWrites with
        qm.lastRead := some (qid, c, stOK, some i.2) }) ∧
    (q.storable = true → q.served.find? (·.1 == c) = none → q.released.find? (·.1 == c) = none → q.visible = [] → q.enable = true → q.stalled.contains c = false →
      exec (.itemRead qid c) s =
        .next { (s.putQueue qid { q with stalled := q.stalled ++ [c] }).retryWrites with qm.lastRead := none }) ∧
    (q.storable = true → q.served.find? (·.1 == c) = none → q.released.find? (·.1 == c) = none → q.visible = [] → q.enable = false →
      exec (.itemRead qid c) s = .next { (s.putQueue qid { q with stalled := q.stalled.filter (· != c) }).retryWrites with
        qm.lastRead := some (qid, c, stDISABLED, none) }) ∧
    (q.storable = false → exec (.itemRead qid c) s =
      .next { (s.putQueue qid q).retryWrites with qm.lastRead := some (qid, c, stREFUSED, none) })

/-- No operation of a producer or consumer makes a queue hold more words than its size, and a producer has at most one item that
is open and not yet committed (R115, R116, R118): if both hold, they hold after a start-of-item, a word, a commit, a commit's end,
a read and a flush. The model's choices and readings it rests on: log entries 43, 44. -/
def Obligations.QueuesNeverOverfill : Prop :=
  let one := fun (q : Queue) => ((q.opens.filter (·.phase != .committed)).map (·.prod)).Nodup
  ∀ (q : Queue), q.usedWords ≤ q.size → one q →
    (∀ p prio tag, (q.start p prio tag).1.usedWords ≤ q.size ∧ one (q.start p prio tag).1) ∧
    (∀ m p w, (q.word m p w).1.usedWords ≤ q.size ∧ one (q.word m p w).1) ∧
    (∀ p raw, (q.commit p raw).1.usedWords ≤ q.size ∧ one (q.commit p raw).1) ∧
    (∀ p ok raw, ((q.becomeVisible p ok).1.serve raw).usedWords ≤ q.size ∧ one ((q.becomeVisible p ok).1.serve raw)) ∧
    (∀ c raw, (q.read c raw).1.usedWords ≤ q.size) ∧ q.flush.1.usedWords = 0 ∧ q.flush.1.stalled = q.stalled

/-- A read takes one whole visible item, of the highest priority present and within it of the earliest commit (R121), and every
other visible item stays. An arbiter serves strictly the highest rank that has a burst pending (R131). The model's choices and
readings it rests on: log entries 45, 46. -/
def Obligations.PriorityIsStrict : Prop :=
  (∀ (q q' : Queue) (raw : Nat) (i : QItem), q.take raw = some (i, q') →
    i ∈ q.visible ∧ (∀ j ∈ q.visible, j.prio < i.prio ∨ (j.prio = i.prio ∧ i.seq ≤ j.seq)) ∧
    (∀ j ∈ q.visible, ¬(j.prio = i.prio ∧ j.seq = i.seq) → j ∈ q'.visible) ∧ q'.opens = q.opens ∧ q'.enable = q.enable) ∧
  (∀ (s : State) (last : SMap Nat) (l : List Burst),
    (∀ b, s.pickBurst last l = some b → b ∈ l ∧ ∀ x ∈ l, s.rankOf x.requester ≤ s.rankOf b.requester) ∧
    (s.pickBurst last l = none → l = [])) ∧
  ((∀ (s : State) (c n : Nat), mapWf (fun _ => ({} : Task)) s.gth.tasks = true → s.firstReady c = some n →
    (s.task n).mode = .ready ∧ (s.task n).cls = c ∧
    ∀ m, (s.task m).mode = .ready → (s.task m).cls = c →
      (s.task m).rank < (s.task n).rank ∨ ((s.task m).rank = (s.task n).rank ∧ (s.task n).readyOrder ≤ (s.task m).readyOrder)))

/-- IDLE_NOTICE, QUEUE_DISABLE, QUEUE_ENABLE, QUEUE_FLUSH, QUEUE_WRITE and QUEUE_WRITE_DATA (R115, R123, R124, R126 to R128): the
notice of a quiet spell is sent once; the queue descriptors complete REFUSED on a QID that holds no words; a disable keeps what is
visible and ends the stalls of an empty queue; an enable that takes effect empties the queue, one whose region fails completes
REFUSED; a flush discards every item, what was committed before it settled first, and reports their number. The model's choices
and readings it rests on: log entries 7, 25, 43, 44. -/
def Obligations.QueueDescriptors : Prop :=
  (∀ (s : State) (qid t : Nat), s.clocked = true → (s.queue qid).spellStart = some t → (s.queue qid).idleTicks ≠ 0 →
      (s.queue qid).noticeEn = true → (s.queue qid).spellNotified = false → (s.queue qid).visible ≠ [] →
      t + (s.queue qid).idleTicks * 64 ≤ s.tb.raw.toNat / 64 * 64 →
    exec (.idleNotice qid) s = .next ((s.setQueue qid { s.queue qid with
      spellNotified := true, notices := satTo 255 ((s.queue qid).notices + 1) }).notify .queue (s.queue qid).noticeTask (s.queue qid).noticeFlag)) ∧
  (∀ (s : State) (d : Desc), s.clocked = true → (s.queue (d.fld 0x10 15 0)).storable = false →
    exec (.queueDisable d) s = .next (s.complete (d.ref false) stREFUSED 0) ∧
    exec (.queueEnable d) s = .next (s.complete (d.ref false) stREFUSED 0) ∧
    exec (.queueFlush d) s = .next (s.complete (d.ref false) stREFUSED 0)) ∧
  (∀ (s : State) (d : Desc), s.clocked = true → (s.queue (d.fld 0x10 15 0)).storable = true →
    let qid := d.fld 0x10 15 0
    let q := s.queue qid
    (q.enable = true → q.visible ≠ [] → exec (.queueDisable d) s =
      .next ((s.putQueue qid { q with enable := false }).retryWrites.complete (d.ref false) stOK 0)) ∧
    (q.enable = true → q.visible = [] → exec (.queueDisable d) s =
      .next ((s.putQueue qid { q with enable := false, released := q.released ++ q.stalled.map (·, stDISABLED), stalled := [] }).retryWrites.complete
        (d.ref false) stOK 0)) ∧
    (q.enable = true → exec (.queueEnable d) s = .next (s.complete (d.ref false) stOK 0)) ∧
    (q.enable = false → q.visible = [] → q.opens = [] → q.stalled = [] → q.enableRefs = [] → s.regionFails qid q = false →
      exec (.queueEnable d) s = .next ((s.setQueue qid q.enabled).complete (d.ref false) stOK 0).retryWrites) ∧
    (q.enable = false → q.visible = [] → q.opens = [] → q.stalled = [] → q.enableRefs = [] → s.regionFails qid q = true →
      exec (.queueEnable d) s = .next (((s.setQueue qid { q with enablePending := false }).clampAt Reg.QMG_CLAMP_COUNT).complete
        (d.ref false) stREFUSED 0).retryWrites) ∧
    (let u := s.settleSent qid
     exec (.queueFlush d) s = .next ((u.putQueue qid (u.queue qid).flush.1).retryWrites.complete (d.ref false) stOK
      (satTo 65535 ((u.queue qid).visible.length + (u.queue qid).opens.length))))) ∧
  (∀ (s : State) (d : Desc), s.clocked = true → (s.queue (d.fld 0x10 15 0)).storable = true → d.fld 0x14 12 0 ≠ 0 →
      d.fld 0x14 12 0 ≤ (s.queue (d.fld 0x10 15 0)).itemMax → (d.w64 0x18).toNat % 32 = 0 →
    exec (.queueWrite d) s = .next ({ s with qm.writes := s.qm.writes ++ [({
        ref := d.ref false, qid := d.fld 0x10 15 0, prio := d.fld 0x14 15 13, tag := BitVec.ofNat 16 (d.fld 0x10 31 16),
        length := d.fld 0x14 12 0, addr := d.w64 0x18 } : QWrite)] }.emit
      (.hostRead (s.descFn d) (d.w64 0x18) (d.fld 0x14 12 0 * 32)))) ∧
  (∀ (s : State) (ring : Nat) (tag : W32) (words : List QWord), s.clocked = true →
    (∀ l, markFetched ring tag words s.qm.writes = some l →
      exec (.queueWriteData ring tag true words) s = .next { s with qm.writes := l }.retryWrites) ∧
    (∀ w l, takeUnfetched ring tag s.qm.writes = some (w, l) →
      exec (.queueWriteData ring tag false words) s = .next ({ s with qm.writes := l }.complete w.ref stBAD 0).retryWrites))

/-- QCTX_SELECT, QCTX_COMMIT and QCTX_COMMIT_DONE (R115, R136): by the ENABLE transition a commit stores the context, enables and
empties it, refuses it where its region fails, changes only the soft fields, or disables it; BUSY holds until it ends, the window
then reloads, and writes meanwhile are discarded and counted. The model's choices and readings it rests on: log entries 4, 7, 25,
38, 44. -/
def Obligations.QueueContextWindow : Prop :=
  (∀ (s : State) (v : W32), s.hostOpen Reg.QMG_QCTX_SEL → s.qm.busy = false →
    exec (.qctxSelect v) s = .next (s.wr Reg.QMG_QCTX_SEL (BitVec.ofNat 32 (bitsOf v 15 0))).loadQctx) ∧
  (∀ (s : State) (v : W32), s.hostOpen Reg.QMG_QCTX_CMD → s.qm.busy = false → bitOf v 0 = true →
    let qid := s.fld Reg.QMG_QCTX_SEL 15 0
    let q := s.queue qid
    let new := (s.stagedQueue q).1
    let clamped := (s.stagedQueue q).2
    (q.kind = new.kind ∨ (s.ring qid).enable = false) →
    (q.enable = false → q.draining = false → new.enable = false → exec (.qctxCommit v) s =
      .next { ((s.setQueue qid new).clampIf clamped Reg.QMG_CLAMP_COUNT).retryWrites with qm.busy := true }) ∧
    (q.enable = false → q.draining = false → new.enable = true → s.regionFails qid new = false → exec (.qctxCommit v) s =
      .next { ((s.setQueue qid new.enabled).clampIf clamped Reg.QMG_CLAMP_COUNT).retryWrites with qm.busy := true }) ∧
    (q.enable = false → q.draining = false → new.enable = true → s.regionFails qid new = true → exec (.qctxCommit v) s =
      .next { ((s.setQueue qid { new with enable := false }).clampAt Reg.QMG_CLAMP_COUNT).retryWrites with qm.busy := true }) ∧
    (q.enable = true → new.enable = true → exec (.qctxCommit v) s =
      .next { ((s.putQueue qid (q.withSoft new)).clampIf (clamped || q.hardDiffers new) Reg.QMG_CLAMP_COUNT).retryWrites with qm.busy := true }) ∧
    (q.enable = true → new.enable = false → exec (.qctxCommit v) s =
      .next { (s.putQueue qid q.disable).retryWrites with qm.busy := true })) ∧
  (∀ s : State, s.clocked = true → s.qm.busy = true → exec .qctxCommitDone s = .next { s with qm.busy := false }.loadQctx) ∧
  (∀ (s : State) (v : W32), s.qm.busy = true →
    (s.hostOpen Reg.QMG_QCTX_SEL → exec (.qctxSelect v) s = .next (s.clampAt Reg.QMG_CLAMP_COUNT)) ∧
    (s.hostOpen Reg.QMG_QCTX_CMD → exec (.qctxCommit v) s = .next (s.clampAt Reg.QMG_CLAMP_COUNT)))

/-- ARBITER_GRANT, RANK_WRITE, GRANT_HOLD and WAITMAX_CLEAR (R131 to R134, R137): a held arbiter grants nothing and keeps what
arrives, 64 bursts in its buffer and the rest at their requesters' ports, each with the cycles it has waited since it came; a free
one grants the burst the ranks choose, which then is the one in flight; the three registers take their fields. The model's choices
and readings it rests on: log entries 7, 45, 49. -/
def Obligations.Arbiters : Prop :=
  (∀ (s0 : State) (a cycles : Nat) (arrived : List (Nat × Nat)), s0.clocked = true → a < arbiterCount →
    let x := s0.arbiter a
    let s := (s0.setArbiter a { x with inFlight := none }).settlePresent
    let waited : List Burst → List Burst := fun l => (l.filter (fun (b : Burst) => s.isPresent b.requester)).map (fun (b : Burst) => { b with waited := b.waited + cycles })
    let all : List Burst := waited x.bursts ++ waited x.ports ++ ((arrived.filter (fun r => decide (r.1 < requesterCount) && s.isPresent r.1)).map (fun r => (⟨r.1, min r.2 cycles⟩ : Burst)))
    let bursts := all.take burstBuffer
    (s.bit (Reg.SPN_ARB_CTRL a) 0 = true →
      exec (.arbiterGrant a cycles arrived) s0 = .next (s.setArbiter a { x with bursts := bursts, ports := all.drop burstBuffer, inFlight := none })) ∧
    (∀ b, s.bit (Reg.SPN_ARB_CTRL a) 0 = false → s.pickBurst x.lastServed bursts = some b →
        (s.setArbiter a { bursts := removeBurst b bursts, ports := all.drop burstBuffer, inFlight := some b.requester,
                          lastServed := mapSet (fun _ => requesterCount - 1) x.lastServed (s.rankOf b.requester) b.requester }).fld
          (Reg.SPN_ARB_WAITMAX a) 23 0 ≥ satTo 0xFFFFFF b.waited →
      exec (.arbiterGrant a cycles arrived) s0 = .next (s.setArbiter a {
        bursts := removeBurst b bursts, ports := all.drop burstBuffer, inFlight := some b.requester,
        lastServed := mapSet (fun _ => requesterCount - 1) x.lastServed (s.rankOf b.requester) b.requester }))) ∧
  (∀ (s : State) (r : Nat) (v : W32), r < requesterCount → s.hostOpen (Reg.SPN_RANK r) → exec (.rankWrite r v) s =
    .next (s.wr (Reg.SPN_RANK r) (setBitsOf (s.rd (Reg.SPN_RANK r)) 2 0 (bitsOf v 2 0)))) ∧
  (∀ (s : State) (a : Nat) (v : W32), a < arbiterCount → s.hostOpen (Reg.SPN_ARB_CTRL a) → exec (.grantHold a v) s =
    .next (s.wr (Reg.SPN_ARB_CTRL a) (setBitsOf (s.rd (Reg.SPN_ARB_CTRL a)) 0 0 (bitsOf v 0 0)))) ∧
  (∀ (s : State) (a : Nat) (v : W32), a < arbiterCount → s.hostOpen (Reg.SPN_ARB_WAITMAX a) → bitOf v 31 = true →
    exec (.waitmaxClear a v) s = .next (s.wr (Reg.SPN_ARB_WAITMAX a) 0))

/-! ## Gatherer -/

/-- TASK_DEFINE, TASK_ARM, EVENT_SET, FLAG_SET, TASK_DEADLINE, TASK_CANCEL and SIG_DEFINE (R139 to R142, R149 to R151, R155 to
R157): a definition replaces an UNDEF or IDLE record and is REFUSED otherwise; an arm of an unbound IDLE task tags it with the
reference frame; a flag set goes to PENDING, to LATCH, or is a stray; a WAITING task whose condition holds, or whose deadline has
passed before its slot expires, becomes READY; a flag set is applied only while it is the oldest message on its way from its
source; a cancel frees a task that waits and voids its number, and comes too late for an idle one; a signature is defined while no
number is open. DISPATCH, DISPATCH_CREDIT and SIGNATURE_PUBLISH (R144, R145, R152, R154): a dispatch spends a credit and hands the
first ready task of the class to its oldest waiting FETCH, whose quire wakes if it is napping; that task has the highest rank of
its class and, within it, became READY first; at most 8 credits stay unused; the signature at the head of the order publishes or
skips its NEXT entry and advances NEXT. The model's choices and readings it rests on: log entries 4, 7, 9, 30, 35, 46, 91, 117. -/
def Obligations.TasksAndSignatures : Prop :=
  ((∀ (s : State) (d : Desc), s.clocked = true → d.fld 0x1C 15 0 < 512 → (d.fld 0x1C 17 16 = 1 ∨ d.fld 0x1C 17 16 = 2) →
      d.fld 0x24 19 0 ≤ 1000000 →
    let n := d.fld 0x10 16 0
    (((s.task n).mode = .undef ∨ (s.task n).mode = .idle) → exec (.taskDefine d) s = .next ((s.setTask n {
        mode := .idle, waitMask := d.w 0x14, armMask := d.w 0x18, any := (d.w 0x1C).getLsbD 31, latchEn := (d.w 0x1C).getLsbD 30,
        rank := d.fld 0x1C 29 27, cls := d.fld 0x1C 26 21, carrier := d.fld 0x1C 15 0, half := d.fld 0x1C 17 16,
        sigEn := (d.w 0x20).getLsbD 31, sig := d.fld 0x20 13 0, dlUs := d.fld 0x24 19 0,
        arg0 := d.w 0x28, arg1 := d.w 0x2C, arg2 := d.w 0x30 }).complete (d.ref false) stOK 0)) ∧
    ((s.task n).mode ≠ .undef → (s.task n).mode ≠ .idle →
      exec (.taskDefine d) s = .next (s.complete (d.ref false) stREFUSED 0))) ∧
  (∀ (s : State) (d : Desc), s.clocked = true →
    let n := d.fld 0x10 16 0
    ((s.task n).mode = .idle → (s.task n).bound = false → (s.task n).sigEn = false → exec (.taskArm d) s =
      .next ((s.armTask n (d.w 0x14) s.refStamp 0).complete (d.ref false) stOK 0)) ∧
    ((s.task n).mode = .idle → (s.task n).bound = true → (s.carrier (s.task n).carrier).refusesWork = true →
      exec (.taskArm d) s = .next (s.complete (d.ref false) stDISABLED 0)) ∧
    ((s.task n).mode = .undef → exec (.taskArm d) s = .next (s.complete (d.ref false) stREFUSED 0)) ∧
    (d.w 0x14 ≠ 0 → exec (.eventSet d) s = .next ((s.flagSet n (d.w 0x14)).complete (d.ref false) stOK 0))) ∧
  (∀ (s : State) (n : Nat) (f : W32), s.clocked = true → takeNotify n f [] s.notifies = none → exec (.flagSet n f) s = .next s) ∧
  (∀ (s : State) (n : Nat) (f : W32) (l : List FlagNotify), s.clocked = true → f ≠ 0 → takeNotify n f [] s.notifies = some l →
    let s0 : State := { s with notifies := l }
    let t := s.task n
    (t.mode = .waiting → exec (.flagSet n f) s = .next ((s0.setTask n { t with pending := t.pending ||| f }).evaluate n)) ∧
    ((t.mode = .ready ∨ t.mode = .running) → t.latchEn = true →
      exec (.flagSet n f) s = .next (s0.setTask n { t with latch := t.latch ||| f })) ∧
    ((t.mode = .ready ∨ t.mode = .running) → t.latchEn = false → exec (.flagSet n f) s = .next (s0.bump Reg.GTH_STRAYS)) ∧
    ((t.mode = .undef ∨ t.mode = .cancelledRunning) → exec (.flagSet n f) s = .next (s0.bump Reg.GTH_STRAYS)) ∧
    (t.mode = .idle → f &&& t.armMask ≠ 0 → t.bound = false → exec (.flagSet n f) s = .next (s0.armTask n f s0.refStamp 0)) ∧
    (t.mode = .idle → f &&& t.armMask ≠ 0 → t.bound = true → ∀ k, s.currentSlot t.carrier t.boundHalf = some k →
      exec (.flagSet n f) s = .next (s0.armTask n f (stampOf (s.carrier t.carrier).cfg.spf k) k))) ∧
  (∀ (s : State) (n : Nat), (s.task n).mode = .waiting →
    ((s.task n).isReady = true → s.evaluate n = { s with gth.readyCount := s.gth.readyCount + 1 }.setTask n
      { s.task n with mode := .ready, readyOrder := s.gth.readyCount, readyPending := (s.task n).pending }) ∧
    ((s.task n).isReady = false → s.evaluate n = s)) ∧
  (∀ (s : State) (n : Nat), s.clocked = true → (s.task n).mode = .waiting → (s.task n).deadlineU ≤ s.tb.timeU → s.taskExpires (s.task n) = false →
    exec (.taskDeadline n) s = .next ((({ s with gth.readyCount := s.gth.readyCount + 1 }.setTask n { s.task n with
      mode := .ready, timeout := true, readyOrder := s.gth.readyCount, readyPending := (s.task n).pending }).bump
        Reg.GTH_TIMEOUTS).raise Reg.GTH_EVENT 0)) ∧
  (∀ (s : State) (d : Desc), s.clocked = true →
    let n := d.fld 0x10 16 0
    let t := s.task n
    ((t.mode = .waiting ∨ t.mode = .ready) → t.sigEn = false → exec (.taskCancel d) s =
      .next ((s.setTask n { t with mode := .idle, pending := 0, latch := 0 }).capCredits.complete (d.ref false) stOK 0)) ∧
    ((t.mode = .undef ∨ t.mode = .idle ∨ t.mode = .cancelledRunning) →
      exec (.taskCancel d) s = .next (s.completeAt (d.ref false) stOK 0 true s.stampNow))) ∧
  (∀ (s : State) (d : Desc), s.clocked = true →
    let g := d.fld 0x10 13 0
    ((s.sig g).alloc = (s.sig g).next → exec (.sigDefine d) s = .next ((s.setSig g {
      outqEn := (d.w 0x14).getLsbD 31, outQid := d.fld 0x14 15 0, outEn := (d.w 0x18).getLsbD 31, outFlag := d.fld 0x18 21 17,
      outTask := d.fld 0x18 16 0, next := (d.w 0x1C).toNat, alloc := (d.w 0x1C).toNat }).complete (d.ref false) stOK 0)) ∧
    ((s.sig g).alloc ≠ (s.sig g).next → exec (.sigDefine d) s = .next (s.complete (d.ref false) stREFUSED 0)))) ∧
  ((∀ (s : State) (c n f : Nat), s.clocked = true → s.gth.credits ≠ 0 → s.dispatchClass = some c →
      s.firstFetch c = some f → s.firstReady c = some n →
    exec .dispatch s = .next (((s.wakeCluster (f / 8)).takeTask c f n).deliverTask f n).capCredits) ∧
  (∀ (s : State) (c leaf n : Nat), (s.takeTask c leaf n).gth.credits = s.gth.credits - 1 ∧
    (s.takeTask c leaf n).gth.fetches = s.gth.fetches.filter (·.leaf != leaf) ∧ (s.takeTask c leaf n).gth.lastClass = c) ∧
  (∀ s : State, s.clocked = true → exec .dispatchCredit s = .next { s with gth.credits := s.gth.credits + 64 }.capCredits) ∧
  (∀ s : State, (s.dispatchClass = none → s.capCredits = { s with gth.credits := min 8 s.gth.credits }) ∧
    (∀ c, s.dispatchClass = some c → s.capCredits = s)) ∧
  (∀ (s : State) (sg : Nat) (rest : List Nat) (e : SigEntry), s.clocked = true → s.gth.publish = sg :: rest →
      (s.sig sg).entries.find? (·.seq == (s.sig sg).next) = some e →
    let g := s.sig sg
    let g' := { g with entries := g.entries.filter (·.seq != g.next), next := (g.next + 1) % 2 ^ 32 }
    let s1 := { s with gth.publish := if g'.nextEnded then rest ++ [sg] else rest }.setSig sg g'
    (e.void = true → exec .signaturePublish s = .next (s1.bump Reg.GTH_VOIDS).releaseAccept) ∧
    (e.void = false → e.held = false → g.outEn = true →
      exec .signaturePublish s = .next (s1.notify .signature g.outTask g.outFlag).releaseAccept) ∧
    (e.void = false → e.held = false → g.outEn = false → exec .signaturePublish s = .next s1.releaseAccept)))

/-! ## Leaf cores -/

/-- The vector operations (R173 to R178, R187), each as a bundle of its own on a leaf that is ready: lane sums, differences,
negations, conjugates and left shifts saturate; right shifts truncate; moves and bitwise operations copy; sac converts an
accumulator with a shift; a MAC of each form and update accumulates the pre-shifted product. VNOP changes no register. The model's
choices and readings it rests on: log entries 7, 26. -/
def Obligations.VectorOperations : Prop :=
  ∀ (s : State) (n : Nat), s.leafReady n →
    exec (.vnop n true) s = .next (s.ran n (.v .nop 0 0 0 0) id) ∧
    (∀ vd va vb, exec (.vadd n true vd va vb) s = .next (s.ran n (.v .add vd va vb 0) (fun l =>
      l.vecRes vd (zipLanes (fun x y => (x.1 + y.1, x.2 + y.2)) (l.rdV false va) (l.rdV false vb))))) ∧
    (∀ vd va vb, exec (.vsub n true vd va vb) s = .next (s.ran n (.v .sub vd va vb 0) (fun l =>
      l.vecRes vd (zipLanes (fun x y => (x.1 - y.1, x.2 - y.2)) (l.rdV false va) (l.rdV false vb))))) ∧
    (∀ vd va, exec (.vneg n true vd va) s = .next (s.ran n (.v .neg vd va 0 0) (fun l =>
      l.vecRes vd ((lanesOfV (l.rdV false va)).map (fun x => (-x.1, -x.2)))))) ∧
    (∀ vd va vx, exec (.vshl n true vd va vx) s = .next (s.ran n (.v .shl vd va 0 vx) (fun l =>
      l.vecRes vd ((lanesOfV (l.rdV false va)).map (fun x => (x.1 * 2 ^ (vx % 32), x.2 * 2 ^ (vx % 32))))))) ∧
    (∀ vd va vx, exec (.vshr n true vd va vx) s = .next (s.ran n (.v .shr vd va 0 vx) (fun l =>
      l.resV vd (vOfLanes ((lanesOfV (l.rdV false va)).map (fun x => (x.1 / 2 ^ (vx % 32), x.2 / 2 ^ (vx % 32))))) 2))) ∧
    (∀ vd va, exec (.vconj n true vd va) s = .next (s.ran n (.v .conj vd va 0 0) (fun l =>
      l.vecRes vd ((lanesOfV (l.rdV false va)).map (fun x => (x.1, -x.2)))))) ∧
    (∀ vd va, exec (.vmov n true vd va) s = .next (s.ran n (.v .mov vd va 0 0) (fun l =>
      l.resV vd (l.rdV false va) 2))) ∧
    (∀ vd va vb, exec (.vand n true vd va vb) s = .next (s.ran n (.v .and vd va vb 0) (fun l =>
      l.resV vd (l.rdV false va &&& l.rdV false vb) 2))) ∧
    (∀ vd va vb, exec (.vor n true vd va vb) s = .next (s.ran n (.v .or vd va vb 0) (fun l =>
      l.resV vd (l.rdV false va ||| l.rdV false vb) 2))) ∧
    (∀ vd va vb, exec (.vxor n true vd va vb) s = .next (s.ran n (.v .xor vd va vb 0) (fun l =>
      l.resV vd (l.rdV false va ^^^ l.rdV false vb) 2))) ∧
    (∀ vd va, exec (.vmulj n true vd va) s = .next (s.ran n (.v .mulj vd va 0 0) (fun l =>
      l.vecRes vd ((lanesOfV (l.rdV false va)).map (fun x => (-x.2, x.1)))))) ∧
    (∀ vd va vx, exec (.vbcast n true vd va vx) s = .next (s.ran n (.v .bcast vd va 0 vx) (fun l =>
      l.resV vd (vOfLanes (List.replicate 8 (laneAt (lanesOfV (l.rdV false va)) (vx / 2 % 8)))) 2))) ∧
    (∀ vd, exec (.aclr n true vd) s = .next (s.ran n (.v .aclr vd 0 0 0) (fun l =>
      l.resA (vd % 4) 0))) ∧
    (∀ vd va vx, exec (.sac n true vd va vx) s = .next (s.ran n (.v .sac vd va 0 vx) (fun l =>
      l.vecRes vd (storeLanes vx (lanesOfA (l.rdAccSrc false (va % 4))))))) ∧
    (∀ vd va, exec (.aadd n true vd va) s = .next (s.ran n (.v .aadd vd va 0 0) (fun l =>
      l.accRes false 0 (vd % 4) ((List.range 8).map (fun k => ((laneAt (lanesOfA (l.rdAcc false (vd % 4))) k).1 + (laneAt (lanesOfV (l.rdV false va)) k).1, (laneAt (lanesOfA (l.rdAcc false (vd % 4))) k).2 + (laneAt (lanesOfV (l.rdV false va)) k).2)))))) ∧
    (∀ vd va, exec (.amov n true vd va) s = .next (s.ran n (.v .amov vd va 0 0) (fun l =>
      l.resA (vd % 4) (l.rdAccSrc false (va % 4))))) ∧
    (∀ vd va, exec (.asum n true vd va) s = .next (s.ran n (.v .asum vd va 0 0) (fun l =>
      l.accRes false 0 (vd % 4) ((lanesOfA (l.rdAccSrc false (va % 4))).foldl (fun (x y : Int × Int) => (x.1 + y.1, x.2 + y.2)) (0, 0) :: List.replicate 7 (0, 0))))) ∧
    (∀ vd va vb vx,
      let mac := fun (form upd : Nat) => Host.Outcome.next (s.ran n (.v (.mac form upd) vd va vb vx) (fun l => l.accRes false 0 (vd % 4)
        (macLanes form upd (vd / 4 % 4) (lanesOfA (l.rdAcc false (vd % 4))) (lanesOfV (l.rdV false va)) (lanesOfV (l.rdV false vb))
          (vx.testBit 4) (vx / 2 % 8))))
      exec (.mulAdd n true vd va vb vx) s = mac 0 0 ∧
      exec (.mulSub n true vd va vb vx) s = mac 0 1 ∧
      exec (.mulSet n true vd va vb vx) s = mac 0 2 ∧
      exec (.mulNeg n true vd va vb vx) s = mac 0 3 ∧
      exec (.mulcAdd n true vd va vb vx) s = mac 1 0 ∧
      exec (.mulcSub n true vd va vb vx) s = mac 1 1 ∧
      exec (.mulcSet n true vd va vb vx) s = mac 1 2 ∧
      exec (.mulcNeg n true vd va vb vx) s = mac 1 3 ∧
      exec (.mulrAdd n true vd va vb vx) s = mac 2 0 ∧
      exec (.mulrSub n true vd va vb vx) s = mac 2 1 ∧
      exec (.mulrSet n true vd va vb vx) s = mac 2 2 ∧
      exec (.mulrNeg n true vd va vb vx) s = mac 2 3)

/-- The arithmetic of a MAC lane, a conversion and a saturation: lane k of a MAC is the accumulator lane updated with the floor of
the exact product over 2^PSH, in the three forms and four updates (R173 to R175); an accumulator keeps each part modulo 2^40; a
conversion is the floor of the part over 2^s, s at most 24, held within 16 bits, with SAT where it was not (R177). R175: with PSH
= 0, any 255 MUL or MULC products of 16-bit operands can be summed into a cleared accumulator without an overflow. R172: the
updated pointer is the exact sum modulo 2^32 where Ln is 0; otherwise it lies in [Bn, Bn + Ln), whatever the step, the length and
the starting value, and differs from the exact sum by a multiple of Ln. The addressing of a MOVE side (R215) as arithmetic: byte n
of a circular side stays in the aligned block of its start and wraps in it, a linear side wraps at 2^64; a side of mode 0 or 2
starts at its address, one of mode 1 at its cursor, and a side of mode 0 leaves its cursor. The model's choices and readings it
rests on: log entry 1. -/
def Obligations.LeafArithmetic : Prop :=
  ((∀ (ar ai br bi : Int),
    product 0 (ar, ai) (br, bi) = (ar * br - ai * bi, ar * bi + ai * br) ∧
    product 1 (ar, ai) (br, bi) = (ar * br + ai * bi, ai * br - ar * bi) ∧ product 2 (ar, ai) (br, bi) = (ar * br, ai * br)) ∧
  (∀ (form upd psh j k : Nat) (acc va vb : List (Int × Int)) (bc : Bool), k < 8 →
    let b := if bc then laneAt vb j else laneAt vb k
    let p := product form (laneAt va k) b
    let q := (p.1 / 2 ^ psh, p.2 / 2 ^ psh)
    laneAt (macLanes form upd psh acc va vb bc j) k =
      (if upd = 0 then ((laneAt acc k).1 + q.1, (laneAt acc k).2 + q.2) else if upd = 1 then ((laneAt acc k).1 - q.1, (laneAt acc k).2 - q.2)
       else if upd = 2 then q else (-q.1, -q.2))) ∧
  (∀ (l : List (Int × Int)) (k : Nat), l.length = 8 → k < 8 →
    aRe (aOfLanes l) k = signedOf 40 (unsignedOf 40 (laneAt l k).1) ∧ aIm (aOfLanes l) k = signedOf 40 (unsignedOf 40 (laneAt l k).2)) ∧
  (∀ (l : List (Int × Int)) (k : Nat), l.length = 8 → k < 8 →
    vRe (vOfLanes (l.map satPair)) k = max (-32768) (min 32767 (laneAt l k).1) ∧
    vIm (vOfLanes (l.map satPair)) k = max (-32768) (min 32767 (laneAt l k).2)) ∧
  (∀ (l : Leaf) (vd : Nat) (lanes : List (Int × Int)), lanes.length = 8 →
    ((l.vecRes vd lanes).lstat = l.lstat ∨ (l.vecRes vd lanes).lstat = l.lstat ||| 0x10#32) ∧
    ((l.vecRes vd lanes).lstat = l.lstat ||| 0x10#32 ↔ (anySat lanes = true ∨ bitOf l.lstat 4 = true))) ∧
  (∀ (s : Nat) (l : List (Int × Int)) (k : Nat), l.length = 8 → k < 8 →
    laneAt (storeLanes s l) k = ((laneAt l k).1 / 2 ^ (min s 24), (laneAt l k).2 / 2 ^ (min s 24)))) ∧
  (∀ (form : Nat) (l : List ((Int × Int) × (Int × Int))), form ≤ 1 → l.length ≤ 255 →
    (∀ x ∈ l, (-32768 ≤ x.1.1 ∧ x.1.1 ≤ 32767) ∧ (-32768 ≤ x.1.2 ∧ x.1.2 ≤ 32767) ∧ (-32768 ≤ x.2.1 ∧ x.2.1 ≤ 32767) ∧
      (-32768 ≤ x.2.2 ∧ x.2.2 ≤ 32767)) →
    let sum := l.foldl (fun a x => updateAcc 0 a (preShift 0 (product form x.1 x.2))) (0, 0)
    over40 sum.1 = false ∧ over40 sum.2 = false) ∧
  (∀ (p b len : W32) (step : Int),
    (len = 0 → (stepPointer p b len step).toNat = unsignedOf 32 (p.toNat + step)) ∧
    (len ≠ 0 → b.toNat + len.toNat ≤ 2 ^ 32 → b.toNat ≤ (stepPointer p b len step).toNat ∧
      (stepPointer p b len step).toNat < b.toNat + len.toNat ∧
      (((stepPointer p b len step).toNat : Int) - (p.toNat + step)) % (len.toNat : Int) = 0)) ∧
  ((∀ a n : Nat, wrapAddr a n 0 = (a + n) % 2 ^ 64) ∧
  (∀ a n w : Nat, w ≠ 0 → a / 2 ^ w * 2 ^ w ≤ wrapAddr a n w ∧ wrapAddr a n w < a / 2 ^ w * 2 ^ w + 2 ^ w ∧
    wrapAddr a n w % 2 ^ w = (a + n) % 2 ^ w) ∧
  (∀ (wrap len : Nat) (skip : Int) (addr : Nat) (cur : W64),
    (moveSide 0 wrap len skip addr cur).2 = cur ∧ (moveSide 0 wrap len skip addr cur).1 = addr ∧
    (moveSide 1 wrap len skip addr cur).1 = cur.toNat ∧ (moveSide 2 wrap len skip addr cur).1 = addr))

/-- The scalar, control and immediate operations (R188 to R191, R195, R196), each as a bundle of its own on a leaf that is ready:
the results wrap modulo 2^32 and set nothing; a branch goes to its bundle where its condition holds and costs nothing where not;
REP makes the next bundle repeat; HALT halts with cause 2; statw clears and statr reads the status. The model's choices and
readings it rests on: log entries 7, 26, 47, 112. -/
def Obligations.ScalarAndControlOperations : Prop :=
  ∀ (s : State) (n : Nat), s.leafReady n →
    (∀ gd ga gb, exec (.add n true gd ga gb) s = .next (s.ran n (.s .add gd ga gb) (fun l =>
      l.resGpr (gd % 32) (l.rdGpr false (ga % 32) + l.rdGpr false (gb % 32)) 1))) ∧
    (∀ gd ga gb, exec (.sub n true gd ga gb) s = .next (s.ran n (.s .sub gd ga gb) (fun l =>
      l.resGpr (gd % 32) (l.rdGpr false (ga % 32) - l.rdGpr false (gb % 32)) 1))) ∧
    (∀ gd ga gb, exec (.and n true gd ga gb) s = .next (s.ran n (.s .and gd ga gb) (fun l =>
      l.resGpr (gd % 32) (l.rdGpr false (ga % 32) &&& l.rdGpr false (gb % 32)) 1))) ∧
    (∀ gd ga gb, exec (.or n true gd ga gb) s = .next (s.ran n (.s .or gd ga gb) (fun l =>
      l.resGpr (gd % 32) (l.rdGpr false (ga % 32) ||| l.rdGpr false (gb % 32)) 1))) ∧
    (∀ gd ga gb, exec (.xor n true gd ga gb) s = .next (s.ran n (.s .xor gd ga gb) (fun l =>
      l.resGpr (gd % 32) (l.rdGpr false (ga % 32) ^^^ l.rdGpr false (gb % 32)) 1))) ∧
    (∀ gd ga gb, exec (.shl n true gd ga gb) s = .next (s.ran n (.s .shl gd ga gb) (fun l =>
      l.resGpr (gd % 32) (l.rdGpr false (ga % 32) <<< ((l.rdGpr false (gb % 32)).toNat % 32)) 1))) ∧
    (∀ gd ga gb, exec (.sra n true gd ga gb) s = .next (s.ran n (.s .sra gd ga gb) (fun l =>
      l.resGpr (gd % 32) ((l.rdGpr false (ga % 32)).sshiftRight ((l.rdGpr false (gb % 32)).toNat % 32)) 1))) ∧
    exec (.cnop n true) s = .next (s.ran n (.c .nop 0 0 0 0) id) ∧
    (∀ rd ra imm, exec (.addi n true rd ra imm) s = .next (s.ran n (.c .addi rd ra 0 imm) (fun l =>
      l.resGpr rd (BitVec.ofNat 32 (unsignedOf 32 ((l.gpr ra).toNat + signedOf 14 imm))) 1))) ∧
    (∀ rd ra, exec (.mov n true rd ra) s = .next (s.ran n (.c .mov rd ra 0 0) (fun l =>
      l.resGpr rd (l.gpr ra) 1))) ∧
    (∀ rd ra rb, exec (.mulg n true rd ra rb) s = .next (s.ran n (.c .mulg rd ra rb 0) (fun l =>
      l.resGpr rd (l.gpr ra * l.gpr rb) 2))) ∧
    (∀ rd ra rb, exec (.shr n true rd ra rb) s = .next (s.ran n (.c .shr rd ra rb 0) (fun l =>
      l.resGpr rd (l.gpr ra >>> ((l.gpr rb).toNat % 32)) 1))) ∧
    (∀ rd ra rb, exec (.slt n true rd ra rb) s = .next (s.ran n (.c .slt rd ra rb 0) (fun l =>
      l.resGpr rd (BitVec.ofNat 32 (b2n ((l.gpr ra).slt (l.gpr rb)))) 1))) ∧
    (∀ rd ra rb, exec (.sltu n true rd ra rb) s = .next (s.ran n (.c .sltu rd ra rb 0) (fun l =>
      l.resGpr rd (BitVec.ofNat 32 (b2n ((l.gpr ra).ult (l.gpr rb)))) 1))) ∧
    (∀ rd ra rb, exec (.min n true rd ra rb) s = .next (s.ran n (.c .min rd ra rb 0) (fun l =>
      l.resGpr rd (if (l.gpr ra).slt (l.gpr rb) then l.gpr ra else l.gpr rb) 1))) ∧
    (∀ rd ra rb, exec (.max n true rd ra rb) s = .next (s.ran n (.c .max rd ra rb 0) (fun l =>
      l.resGpr rd (if (l.gpr ra).slt (l.gpr rb) then l.gpr rb else l.gpr ra) 1))) ∧
    (∀ imm, exec (.statw n true imm) s = .next (s.ran n (.c .statw 0 0 0 imm) (fun l =>
      { l with
        lstat := l.lstat &&& ~~~(BitVec.ofNat 32 (imm % 256 % 128)),
        laovIdx := if (imm % 256).testBit 7 then l.laovIdx &&& 0x7FFFFFFF#32 else l.laovIdx }))) ∧
    (∀ rd imm, exec (.statr n true rd imm) s = .next (s.ran n (.c .statr rd 0 0 imm) (fun l =>
      l.resGpr (rd % 32) (if imm.testBit 0 then l.laovIdx else l.lstat) 1))) ∧
    (∀ rd value, exec (.movi n true rd value) s = .next (s.ran n (.imm false rd value) (fun l => l.resGpr rd value 1))) ∧
    (∀ rd value, exec (.addw n true rd value) s = .next (s.ran n (.imm true rd value) (fun l => l.resGpr rd (l.rdGpr false rd + value) 1))) ∧
    (∀ imm, exec (.br n true imm) s = .next ((s.passed n (.c .br 0 0 0 imm)).branchTo n (imm % 8192))) ∧
    (∀ rd imm, exec (.jal n true rd imm) s = .next (
      let t := s.passed n (.c .jal rd 0 0 imm)
      (t.setLeaf n ((t.leaf n).resGpr (rd % 32) (BitVec.ofNat 32 ((((s.issued n (.c .jal rd 0 0 imm)).leaf n).pc + 1) % 8192)) 1)).branchTo n
        (imm % 8192))) ∧
    (∀ ra, exec (.jr n true ra) s = .next ((s.passed n (.c .jr 0 ra 0 0)).branchTo n ((((s.issued n (.c .jr 0 ra 0 0)).leaf n).g ra).toNat % 8192))) ∧
    (∀ ra imm, let g := ((s.issued n (.c .beqz 0 ra 0 imm)).leaf n).g ra
      (g = 0 → exec (.beqz n true ra imm) s = .next ((s.passed n (.c .beqz 0 ra 0 imm)).branchTo n (imm % 8192))) ∧
      (¬ g = 0 → exec (.beqz n true ra imm) s = .next (s.ran n (.c .beqz 0 ra 0 imm) id))) ∧
    (∀ ra imm, let g := ((s.issued n (.c .bnez 0 ra 0 imm)).leaf n).g ra
      (g ≠ 0 → exec (.bnez n true ra imm) s = .next ((s.passed n (.c .bnez 0 ra 0 imm)).branchTo n (imm % 8192))) ∧
      (¬ g ≠ 0 → exec (.bnez n true ra imm) s = .next (s.ran n (.c .bnez 0 ra 0 imm) id))) ∧
    (∀ ra imm, let neg := (((s.issued n (.c .bltz 0 ra 0 imm)).leaf n).g ra).msb
      (neg = true → exec (.bltz n true ra imm) s = .next ((s.passed n (.c .bltz 0 ra 0 imm)).branchTo n (imm % 8192))) ∧
      (neg = !true → exec (.bltz n true ra imm) s = .next (s.ran n (.c .bltz 0 ra 0 imm) id))) ∧
    (∀ ra imm, let neg := (((s.issued n (.c .bgez 0 ra 0 imm)).leaf n).g ra).msb
      (neg = false → exec (.bgez n true ra imm) s = .next ((s.passed n (.c .bgez 0 ra 0 imm)).branchTo n (imm % 8192))) ∧
      (neg = !false → exec (.bgez n true ra imm) s = .next (s.ran n (.c .bgez 0 ra 0 imm) id))) ∧
    (∀ imm, let notice := ((s.issued n (.c .babt 0 0 0 imm)).leaf n).abortNotice
      (notice = true → exec (.babt n true imm) s = .next ((s.passed n (.c .babt 0 0 0 imm)).branchTo n (imm % 8192))) ∧
      (notice = false → exec (.babt n true imm) s = .next (s.ran n (.c .babt 0 0 0 imm) id))) ∧
    (∀ count, let s1 := s.issued n (.c .rep 0 0 0 count)
      exec (.rep n true count) s = .next ((s1.setLeaf n (s1.leaf n)).retire n ((s1.leaf n).pc + 1)
        (some (if count % 65536 = 0 then 65536 else count % 65536)))) ∧
    (∀ ga, let s1 := s.issued n (.s .rep 1 ga 0)
      let c := ((s1.leaf n).g ga).toNat
      exec (.repScalar n true ga) s = .next ((s1.setLeaf n (s1.leaf n)).retire n ((s1.leaf n).pc + 1)
        (some (if c % 65536 = 0 then 65536 else c % 65536)))) ∧
    exec (.halt n true) s = .next ((s.ran n (.c .halt 0 0 0 0) id).haltLeaf n 2 none)

/-- LD, ST, LDK and the wide forms (R160, R161, R172, R192, R194): a load takes its bytes from the address its pointer holds, a
store writes them there, each on a leaf that is ready; the pointer steps unless the form keeps it; an address outside the ranges
of the slot makes a load read 0 and discards a store, with LSTAT.ADDR, and ignored low bits set LSTAT.MISALIGN; an access of the Y
slot takes the port of XM or of YM, and waits one cycle only where an external access to that memory has waited 7 cycles (R162,
R163). The model's choices and readings it rests on: log entries 47, 105. -/
def Obligations.LeafMemoryOperations : Prop :=
  (∀ (s : State) (n : Nat) (x : Bool) (w pn reg : Nat), s.leafReady n →
    (let op := LeafOp.mem x 1 w pn reg
     let s1 := s.issued n op
     let l := s1.leaf n
     let addr := (l.rdGpr false (32 + pn % 8)).toNat
     let r := s1.leafLoad n false x addr (widthOf w)
     exec (.ld n true x w pn reg) s = .next (s.ranMem n op x addr (fun l => l.bumpPointer (((l.resV reg (BitVec.ofNat 256 r.1)
       (loadLatency addr)).setStat 5 r.2.1).setStat 6 r.2.2) false pn))) ∧
    (let op := LeafOp.mem x 3 w pn reg
     let s1 := s.issued n op
     let addr := ((s1.leaf n).rdGpr false (32 + pn % 8)).toNat
     let r := s1.leafLoad n false x addr (widthOf w)
     exec (.ldk n true x w pn reg) s = .next (s.ranMem n op x addr (fun l => ((l.resV reg (BitVec.ofNat 256 r.1)
       (loadLatency addr)).setStat 5 r.2.1).setStat 6 r.2.2))) ∧
    (let s1 := s.issued n (.mem x 2 w pn reg)
     let l := s1.leaf n
     let addr := (l.rdGpr false (32 + pn % 8)).toNat
     exec (.st n true x w pn reg) s = .next (State.ranStore (s1.leafStore n x addr (widthOf w) (l.rdV false reg).toNat) n x addr l.pc
       (fun l' => l.bumpPointer l' false pn)))) ∧
  (∀ (s : State) (n : Nat) (x : Bool) (w pn reg sh off : Nat), s.leafReady n →
    (let op := LeafOp.wide x 1 w pn reg true sh off
     let s1 := s.issued n op
     let addr := wideAddr (s1.leaf n) false pn off
     let r := s1.leafLoad n false x addr (widthOf w)
     exec (.ldWide n true x w pn reg true sh off) s = .next (s.ranMem n op x addr (fun l => l.bumpPointer
       (((l.resV reg (BitVec.ofNat 256 r.1) (loadLatency addr)).setStat 5 r.2.1).setStat 6 r.2.2) false pn))) ∧
    (let op := LeafOp.wide x 3 w pn reg false sh off
     let s1 := s.issued n op
     let addr := wideAddr (s1.leaf n) false pn off
     let r := s1.leafLoad n false x addr 4
     exec (.ldg n true x w pn reg false sh off) s = .next (s.ranMem n op x addr (fun l =>
       ((l.resGpr (reg % 32) (BitVec.ofNat 32 r.1) (loadLatency addr)).setStat 5 r.2.1).setStat 6 r.2.2))) ∧
    (let s1 := s.issued n (.wide x 2 w pn reg false sh off)
     let l := s1.leaf n
     let addr := wideAddr l false pn off
     exec (.stWide n true x w pn reg false sh off) s =
       .next (State.ranStore (s1.leafStore n x addr (widthOf w) (l.rdV false reg).toNat) n x addr l.pc id)) ∧
    (let s1 := s.issued n (.wide x 4 w pn reg false sh off)
     let l := s1.leaf n
     let addr := wideAddr l false pn off
     exec (.stg n true x w pn reg false sh off) s =
       .next (State.ranStore (s1.leafStore n x addr 4 (l.rdGpr false (reg % 32)).toNat) n x addr l.pc id)) ∧
    (let s1 := s.issued n (.wide x 5 w pn reg false sh off)
     let l := s1.leaf n
     let addr := wideAddr l false pn off
     let lanes := storeLanes sh (lanesOfA (l.rdAccSrc false (reg % 4)))
     let r := s1.leafStore n x addr 32 (vOfLanes (lanes.map satPair)).toNat
     exec (.sta n true x w pn reg false sh off) s =
       .next (((r.1.setLeaf n ((((r.1.leaf n).setStat 4 (anySat lanes)).setStat 5 r.2.1).setStat 6 r.2.2)).portWait n x addr).retire n
         (l.pc + 1) none))) ∧
  (∀ (s : State) (n addr : Nat), s.portWait n true addr = s ∧
    (0x30000 ≤ addr → (addr < 0x200000 ∨ 0x400000 ≤ addr) → s.portWait n false addr = s) ∧
    (addr < 0x20000 → s.portWait n false addr = s.setLeaf n ((s.leaf n).servePort true)) ∧
    (0x20000 ≤ addr → addr < 0x30000 → s.portWait n false addr = s.setLeaf n ((s.leaf n).servePort false))) ∧
  (∀ (l : Leaf) (xm : Bool),
    let p := if xm then l.ext else l.extY
    ((p.count = 0 ∨ p.age < 7) → (l.servePort xm).stall = satTo 0xFFFFFFFF l.stall) ∧
    (p.count ≠ 0 → 7 ≤ p.age → (l.servePort xm).stall = satTo 0xFFFFFFFF (l.stall + 1))) ∧
  (∀ (s : State) (n addr bytes v : Nat) (x : Bool), 0 < bytes →
    let a := addr / bytes * bytes
    let mis := a != addr
    let window := quireBase + n / 8 * 0x01000000
    (a < 0x20000 → s.leafLoad n false x addr bytes = (s.readNat (window + n % 8 * 0x40000 + a) bytes, mis, false)) ∧
    (0x20000 ≤ a → a < 0x30000 → s.leafLoad n false false addr bytes = (s.readNat (window + n % 8 * 0x40000 + a) bytes, mis, false)) ∧
    (0x200000 ≤ a → a < 0x400000 → s.leafLoad n false false addr bytes = (s.readNat (window + a) bytes, mis, false)) ∧
    (0x20000 ≤ a → s.leafLoad n false true addr bytes = (0, mis, true) ∧ s.leafStore n true addr bytes v = (s, mis, true)) ∧
    (0x30000 ≤ a → (a < 0x200000 ∨ 0x400000 ≤ a) →
      s.leafLoad n false false addr bytes = (0, mis, true) ∧ s.leafStore n false addr bytes v = (s, mis, true)))

/-- The frame of a leaf store (R160, R161, R192): the bytes of its width at the address its slot reaches hold the value; every
other byte of every memory reads as before, and so does every byte where the slot reaches nothing. -/
def Obligations.LeafStoresChangeTheirBytesOnly : Prop :=
  ∀ (s : State) (n addr bytes v : Nat) (x : Bool), s.canonical →
    (∀ a, (leafAccess n x addr bytes).1 = some a →
      (∀ i, i < bytes → (s.leafStore n x addr bytes v).1.byte (a + i) = BitVec.ofNat 8 (v / 2 ^ (8 * i))) ∧
      (∀ b, (b < a ∨ a + bytes ≤ b) → (s.leafStore n x addr bytes v).1.byte b = s.byte b)) ∧
    ((leafAccess n x addr bytes).1 = none → (s.leafStore n x addr bytes v).1.mem = s.mem)

/-- FETCH, RELEASE, QPOP, QPOP_COMPLETE, QPUSH, QCOMMIT, QCOMMIT_STATUS, QREWIND and SIGNAL (R144, R199 to R202): a fetch without
a task sends its class and blocks; a release without a task answers REFUSED; qpop of a QID that holds no words answers REFUSED, of
a queue it blocks and tries; a qpop that finds its item writes it at Pn and answers OK with length, priority and tag; a qpush
whose word finds room completes, one whose word finds none keeps the leaf; a qcommit goes out; a commit's status lands in G(RD),
and a bundle that needs that register waits for it; qrewind rewinds the leaf's item; a signal leaves for the Gatherer. The model's
choices and readings it rests on: log entries 7, 42, 43, 47, 48, 92, 105. -/
def Obligations.LeafLinks : Prop :=
  (∀ (s : State) (n imm : Nat), s.leafReady n →
    (let op := LeafOp.c .fetch 0 0 0 imm
     let s1 := s.issued n op
     (s1.leaf n).task = none → exec (.fetch n true imm) s =
       .next ((s1.setLeaf n { s1.leaf n with staged := [op], wait := .fetch (imm % 64) }).addFetch n (imm % 64)))) ∧
  (∀ (s : State) (n rd imm : Nat), s.leafReady n →
    (let op := LeafOp.c .release rd 0 0 imm
     let s1 := (s.issued n op).setLeaf n { (s.issued n op).leaf n with staged := [op], wait := .release rd (imm.testBit 0) }
     ((s1.leaf n).task = none → exec (.release n true rd imm) s = .next (s1.endRelease n rd stREFUSED)) ∧
     (∀ t, (s1.leaf n).task = some t → exec (.release n true rd imm) s = .next (s1.tryRelease n t (imm.testBit 0))))) ∧
  (∀ (s : State) (n t : Nat) (h : Bool), ((s.task t).mode = .running → s.canAccept (s.task t) = true →
      s.tryRelease n t h = (s.acceptRelease t n h).releaseDone n stOK) ∧
    ((s.task t).mode ≠ .running → s.tryRelease n t h = s.abortedRelease t n h)) ∧
  (∀ (s : State) (n rd ra imm : Nat), s.leafReady n →
    (let op := LeafOp.c .qpop rd ra 0 imm
     let s1 := s.issued n op
     let qid := ((s1.leaf n).g ra).toNat % 65536
     let s2 := s1.setLeaf n { s1.leaf n with staged := [op], wait := .qpop qid rd (imm % 8) }
     ((s2.queue qid).storable = true → exec (.qpop n true rd ra imm) s = .next (s2.qpopTry n qid rd (imm % 8))) ∧
     ((s2.queue qid).storable = false → exec (.qpop n true rd ra imm) s =
       .next ((s2.setLeaf n (((s2.leaf n).awaitWrites [rd % 32]).resGpr (rd % 32) (BitVec.ofNat 32 stREFUSED) 1)).finishBlocked n)))) ∧
  (∀ (s s1 s2 : State) (n qid rd pn : Nat) (i : QItem), s.clocked = true → (s.leaf n).wait = .qpop qid rd pn →
      s.readQueue qid (.leaf n) = (s1, .item i) →
    let w := s1.blockedFor n false
    (w.setLeaf n ((w.leaf n).awaitWrites [32 + pn % 8])).deliverWords n pn i.words = (s2, true) →
    exec (.qpopComplete n) s = .next (s2.qpopEnd n rd stOK i.words.length i.prio i.tag.toNat)) ∧
  (∀ (s : State) (n ra rb imm : Nat), s.leafReady n →
    (let op := LeafOp.c .qpush 0 ra rb imm
     let s1 := s.issued n op
     let l := s1.leaf n
     let b := (l.g rb).toNat
     let m := LinkMsg.word ((l.g ra).toNat % 65536) (if imm.testBit 4 then some (b / 65536 % 8, BitVec.ofNat 16 b) else none) (l.vreg (imm % 16))
     let s2 := s1.setLeaf n { l with staged := [op], wait := .qpush }
     let s3 := s2.setLeaf n { s2.leaf n with buffer := (s2.leaf n).buffer ++ [m] }
     ∀ (u : State) (rest : List LinkMsg), s3.drainBuffer n (s3.leaf n).buffer = (u, rest) →
       let w := (u.setLeaf n { u.leaf n with buffer := [] }).portServed n
       (rest = [] → (w.leaf n).wait = .qpush → exec (.qpush n true ra rb imm) s = .next (w.finishBlocked n).retryWrites) ∧
       (rest ≠ [] → exec (.qpush n true ra rb imm) s = .next (u.setLeaf n { u.leaf n with buffer := rest }).retryWrites))) ∧
  (∀ (s : State) (n rd ra : Nat), s.leafReady n →
    (let op := LeafOp.c .qcommit rd ra 0 0
     let l := (s.issued n op).leaf n
     let t := s.passed n op
     exec (.qcommit n true rd ra) s = .next (((t.setLeaf n { t.leaf n with
       buffer := (t.leaf n).buffer ++ [.commit ((l.g ra).toNat % 65536) (rd % 32)] }).drainLeaf n true).retryWrites.retire n (l.pc + 1) none))) ∧
  (∀ (s : State) (n rd st : Nat) (rest : List CommitWait), s.clocked = true → takeStatus (s.leaf n).commits = some (rd, st, rest) →
    let t := s.setLeaf n ({ s.leaf n with commits := rest }.resGpr (rd % 32) (BitVec.ofNat 32 st) 1)
    ((t.leaf n).wait ≠ .status → exec (.qcommitStatus n) s = .next t) ∧
    ((t.leaf n).wait = .status → (t.leaf n).needsStatus (t.leaf n).staged = false → exec (.qcommitStatus n) s =
      .next (((t.stalledFor n).setLeaf n { (t.stalledFor n).leaf n with wait := .none, staged := [] }).issueBundle n (t.leaf n).staged))) ∧
  (∀ (s : State) (n : Nat) (ops : List LeafOp) (rep : Bool), (s.leaf n).needsStatus ops = true →
    s.issueOnce n ops rep = s.setLeaf n { s.leaf n with staged := ops, wait := .status }) ∧
  (∀ (s : State) (n ra : Nat), s.leafReady n →
    (let op := LeafOp.c .qrewind 0 ra 0 0
     let l := (s.issued n op).leaf n
     let t := s.passed n op
     exec (.qrewind n true ra) s =
       .next ((t.rewindItem ((l.g ra).toNat % 65536) (.leaf n) true).retire n (l.pc + 1) none))) ∧
  (∀ (s : State) (n ra rb : Nat), s.leafReady n →
    (let op := LeafOp.c .signal 0 ra rb 0
     let l := (s.issued n op).leaf n
     let t := s.passed n op
     (l.g rb ≠ 0 → exec (.signal n true ra rb) s =
       .next ((t.sendFlags (.leaf n) ((l.g ra).toNat % 131072) (l.g rb)).retire n (l.pc + 1) none)) ∧
     (l.g rb = 0 → exec (.signal n true ra rb) s = .next (t.retire n (l.pc + 1) none))))

/-- HALT_REQUEST, DEBUG_HALT, RESUME, DEBUG_STEP, DBG_REG_WRITE, LEAF_RESET, LEAF_RESET_RELEASE and QUIRE_EXTERNAL_ACCESS (R162 to
R166, R171, R182, R203 to R207): a running leaf that is asked to halt halts with cause 1 at the next bundle boundary; a halted
leaf with nothing withdrawn resumes, or issues one bundle of its IM and halts; a debug write changes the selected word of a halted
leaf and is discarded and counted otherwise; a reset bit that rises clears its leaf; IM answers an access while its leaf runs with
a bus error that is counted. The model's choices and readings it rests on: log entries 7, 25, 42, 46, 47, 87, 112. -/
def Obligations.LeafDebugAndReset : Prop :=
  (∀ (s : State) (n : Nat), n < 192 → s.hostOpen (Reg.QUI_DBG_CTRL (n / 8) (n % 8)) →
    (s.leafInReset n = false → (s.leaf n).halted = false → exec (.haltRequest n) s = .next (s.setLeaf n { s.leaf n with haltReq := true })) ∧
    (s.leafInReset n = true → exec (.haltRequest n) s = .next (s.clampAt (Reg.QUI_CLAMP_COUNT (n / 8))) ∧
      exec (.resume n) s = .next (s.clampAt (Reg.QUI_CLAMP_COUNT (n / 8))) ∧
      exec (.debugStep n) s = .next (s.clampAt (Reg.QUI_CLAMP_COUNT (n / 8)))) ∧
    (s.leafInReset n = false → (s.leaf n).halted = true → (s.leaf n).heldDispatch = none → (s.leaf n).withdrawn = 0 →
      exec (.resume n) s = .next (s.setLeaf n { s.leaf n with halted := false, cause := 0, withdrawn := 0, heldDispatch := none, skipBreak := true, stepping := false }) ∧
      (let s1 := s.setLeaf n { s.leaf n with halted := false, cause := 0, withdrawn := 0, heldDispatch := none, skipBreak := true, stepping := true }
       let s2 := s1.issueBundle n (decodeBundle (s1.bundleAt n (s.leaf n).pc))
       (s2.leaf n).rep = none → exec (.debugStep n) s = .next s2))) ∧
  (∀ (s : State) (n : Nat), s.clocked = true → (s.leaf n).haltReq = true → (s.leaf n).halted = false → (s.leaf n).rep = none →
      s.leafInReset n = false → (s.leaf n).wait = .none → (s.leaf n).staged = [] →
    exec (.debugHalt n false) s = .next (s.setLeaf n { s.leaf n with
      halted := true, haltReq := false, cause := 1, withdrawn := 0, wait := .none, heldDispatch := none, staged := [],
      buffer := [], recent := [], stores := [], stepping := false, ext := {}, extY := {} })) ∧
  (∀ (s : State) (n : Nat) (v : W32), n < 192 → s.hostOpen (Reg.QUI_DBG_REG_DATA (n / 8) (n % 8)) →
    let sel := s.fld (Reg.QUI_DBG_REG_SEL (n / 8) (n % 8)) 14 8
    ((s.leaf n).halted = true → sel < 64 → exec (.dbgRegWrite n v) s = .next (s.setLeaf n ((s.leaf n).setGpr sel v))) ∧
    ((s.leaf n).halted = true → sel = 84 → exec (.dbgRegWrite n v) s = .next (s.setLeaf n { s.leaf n with lstat := v })) ∧
    ((s.leaf n).halted = true → sel = 86 → v.toNat < 8192 → exec (.dbgRegWrite n v) s = .next (s.setLeaf n { s.leaf n with pc := v.toNat })) ∧
    ((s.leaf n).halted = false → exec (.dbgRegWrite n v) s = .next (s.clampAt (Reg.QUI_CLAMP_COUNT (n / 8))))) ∧
  (∀ (s : State) (q : Nat) (v : W32), q < 24 → s.hostOpen (Reg.QUI_LEAF_CTRL q) →
    let a := Reg.QUI_LEAF_CTRL q
    (∀ l, l < 8 → bitOf v l = true → bitOf (s.rd a) l = false → (∀ i, i < 8 → i ≠ l → bitOf v i = bitOf (s.rd a) i) →
      exec (.leafReset q v) s = .next (((s.writeTable a v).resetLeaf (8 * q + l)).quirePresent q (s.cluster q).isolated)) ∧
    ((∀ i, i < 8 → bitOf v i = true → bitOf (s.rd a) i = true) →
      exec (.leafResetRelease q v) s = .next ((s.writeTable a v).quirePresent q (s.cluster q).isolated))) ∧
  (∀ (s : State) (n : Nat), n < 192 → mapWf (fun _ => ({} : Leaf)) s.qui.leaves = true →
    ∃ t : State, s.resetLeaf n = t.retryWrites ∧ t.leaf n = {}) ∧
  (∀ (s : State) (a bytes : Nat) (data : List Byte), s.clocked = true → quireBase ≤ a → a < quireBase + 0x18000000 →
    (∀ q, spineTarget a = .quire q → (s.cluster q).isolated = false → 0 < bytes → bytes ≤ 64 - a % 64 →
      exec (.quireExternalAccess a false data bytes) s = .next { (s.wakeTarget a).noteExternal a bytes with bus := (true, s.bytes a bytes) }) ∧
    (∀ q, spineTarget a = .quire q → (s.cluster q).isolated = false → data ≠ [] → data.length ≤ 64 - a % 64 →
      exec (.quireExternalAccess a true data bytes) s = .next { ((s.wakeTarget a).noteExternal a data.length).setBytes a data with bus := (true, []) }) ∧
    (∀ n, spineTarget a = .im n → (s.cluster (n / 8)).isolated = false → s.imOpen n = false → 0 < bytes → bytes ≤ 64 - a % 64 →
      exec (.quireExternalAccess a false data bytes) s = .next { s.imReject n with bus := (false, []) }))

/-! ## DMA programs -/

/-- DMA_RUN, RUN_ITEM_READ, PROGRAM_START, DMA_ABORT, DMA_DISABLE and DMA_ENABLE (R210 to R212, R222, R223): a program is accepted
at the end of its channel's list, or refused; a run item likewise, with a status item; the pending program starts where none runs;
an abort first takes a run item the channel was already given, ends what its tag names and comes too late for what has ended; a
disable ends what has not started DISABLED and lets the started program run; an enable of an idle channel takes effect at once.
The model's choices and readings it rests on: log entries 7, 35. -/
def Obligations.DmaChannels : Prop :=
  (∀ (s : State) (d : Desc), s.clocked = true → d.carrier = 0xFFFF → progAddr (d.w64 0x18) = d.w64 0x18 →
    let c := d.fld 0x10 9 0
    let x := s.chan c
    (x.enable = true → s.bit (Reg.DMA_CH_CFG c) 31 = false → x.list.length < 16 → exec (.dmaRun d) s = .next (s.setChan c { x with
      list := x.list ++ [{ origin := .host (d.ref false), tag := d.tag, prog := d.w64 0x18, carrier := 0xFFFF,
                           half := halfField (d.fld 0x10 31 30), slotNum := s.slt.nextFrame - 1 }] })) ∧
    (x.enable = true → s.bit (Reg.DMA_CH_CFG c) 31 = false → 16 ≤ x.list.length →
      exec (.dmaRun d) s = .next (s.complete (d.ref false) stREFUSED 0)) ∧
    (x.enable = true → s.bit (Reg.DMA_CH_CFG c) 31 = true → exec (.dmaRun d) s = .next (s.complete (d.ref false) stREFUSED 0)) ∧
    (x.enable = false → exec (.dmaRun d) s = .next (s.complete (d.ref false) stDISABLED 0))) ∧
  (∀ (s s1 : State) (c : Nat) (i : QItem), s.clocked = true → s.bit (Reg.DMA_CH_CFG c) 31 = true → (s.chan c).enable = true →
      (s.chan c).pqStopped = false → (s.chan c).list.length < 16 →
    (s.readQueue (s.fld (Reg.DMA_CH_CFG c) 15 0) (runReader c) = (s1, .item i) →
      exec (.runItemRead c) s = .next (s1.runItem c (i.words.headD 0))) ∧
    (s.readQueue (s.fld (Reg.DMA_CH_CFG c) 15 0) (runReader c) = (s1, .ended stDISABLED) →
      exec (.runItemRead c) s = .next ((s1.setChan c { s1.chan c with pqStopped := true }).raise Reg.DMA_EVENT 3))) ∧
  (∀ (s : State) (c : Nat) (w : QWord), (runItemProg w).1.clamped = false → (runItemProg w).1.carrier = 0xFFFF →
    ((s.chan c).enable = true → (s.chan c).list.length < 16 → s.runItem c w = s.setChan c { s.chan c with
      list := (s.chan c).list ++ [{ (runItemProg w).1 with slotNum := s.slt.nextFrame - 1 }] }) ∧
    ((s.chan c).enable = false → s.runItem c w = s.reportProg c (runItemProg w).1 stDISABLED 0)) ∧
  (∀ (s : State) (c : Nat) (p : DmaProg) (rest : List DmaProg), s.clocked = true → (s.chan c).list = p :: rest →
      (s.chan c).enable = true → p.started = false →
    exec (.programStart c) s = .next (s.setChan c { s.chan c with list := { p with started := true } :: rest })) ∧
  (∀ (s : State) (d : Desc), s.clocked = true →
    let c := d.fld 0x10 9 0
    let t := s.finishRead c
    ((t.chan c).list.any (fun p => p.tag == d.w 0x14) = true → exec (.dmaAbort d) s =
      .next ((s.abortProgs c (fun p => p.tag == d.w 0x14)).completeAt (d.ref false) stOK 0 false s.stampNow)) ∧
    ((t.chan c).list = [] → exec (.dmaAbort d) s =
      .next ((t.setChan c (t.chan c)).completeAt (d.ref false) stOK 0 true s.stampNow))) ∧
  (∀ (s : State) (d : Desc), s.clocked = true →
    let c := d.fld 0x10 9 0
    let x := s.chan c
    ((s.queue (s.fld (Reg.DMA_CH_CFG c) 15 0)).served.any (·.1 == runReader c) = false →
        x.enable = true → x.list.filter (!·.started) = [] → exec (.dmaDisable d) s =
      .next (((s.unstall (s.fld (Reg.DMA_CH_CFG c) 15 0) (runReader c)).setChan c
        { x with enable := false, list := x.list.filter (·.started) }).complete (d.ref false) stOK 0)) ∧
    ((s.queue (s.fld (Reg.DMA_CH_CFG c) 15 0)).served.any (·.1 == runReader c) = false → x.enable = false →
      exec (.dmaDisable d) s = .next (s.complete (d.ref false) stOK 0)) ∧
    (x.enable = true → exec (.dmaEnable d) s = .next (s.complete (d.ref false) stOK 0)) ∧
    (x.enable = false → exec (.dmaEnable d) s =
      .next ((s.setChan c { x with enablePending := true, enableRefs := x.enableRefs ++ [d.ref false] }).settleChan c))) ∧
  (∀ (s : State) (c : Nat), (s.chan c).enablePending = true → (s.chan c).current = none → s.settleChan c =
    (s.setChan c { s.chan c with enable := true, pqStopped := false, enablePending := false, enableRefs := [] }).completeAll
      (s.chan c).enableRefs stOK)

/-- END, MOVE, LOOP, WAIT_QUEUE, WAIT_TIME, WAIT_CONDITION_MET, WAIT_DEADLINE, SIGNAL_FLAGS, SIGNAL_ITEM and DMA_BUS_ERROR (R208,
R213 to R221): what each does when it is the instruction a running program has reached, as it stood when it was fetched; a MOVE is
cut into bursts that its engine serves in turn with those of its other channels; a WAIT that begins after its deadline times out
at once, and a condition that comes after the deadline does not count (log entry 93); a failed access ends the program BAD with
its addresses recorded; an end is told once the program's host writes have gone out (R94, R224). How far ahead instructions are
fetched is a free value (log entry 106). The model's choices and readings it rests on: log entries 4, 7, 9, 22, 36, 49, 50, 87,
93, 106. -/
def Obligations.DmaInstructions : Prop :=
  (∀ (s s1 : State) (c : Nat) (p p1 : DmaProg) (inst i : List W32), s.clocked = true → (s.chan c).current = some p → p.wait = none →
      p.move = none → s.fetchInstr c p inst = (s1, p1, some i) →
    (bitsOf (instrW i 0) 31 28 = 0 → exec (.endProgram c inst) s = .next (s1.endProg c p1 p1.status (bitsOf (instrW i 0) 15 0))) ∧
    (∀ host served, c < 1024 → bitsOf (instrW i 0) 31 28 = 1 → bitsOf (instrW i 0) 27 26 < 3 → bitsOf (instrW i 0) 25 24 < 3 →
        wrapField (bitsOf (instrW i 0) 23 18) = bitsOf (instrW i 0) 23 18 → wrapField (bitsOf (instrW i 0) 17 12) = bitsOf (instrW i 0) 17 12 →
      let len := (instrW i 1).toNat
      let a := moveSide (bitsOf (instrW i 0) 27 26) (bitsOf (instrW i 0) 23 18) len (signedOf 32 (instrW i 6).toNat) (instrW64 i 2) p1.srcCur
      let b := moveSide (bitsOf (instrW i 0) 25 24) (bitsOf (instrW i 0) 17 12) len (signedOf 32 (instrW i 7).toNat) (instrW64 i 4) p1.dstCur
      let t := s1.setProg c { p1 with move := some ⟨a.1, bitsOf (instrW i 0) 23 18, b.1, bitsOf (instrW i 0) 17 12, host,
        moveOrder a.1 (bitsOf (instrW i 0) 23 18) b.1 (bitsOf (instrW i 0) 17 12) len, a.2, b.2, []⟩ }
      0 < len → (t.chan c).moving.isSome = true → exec (.dmaMove c inst ⟨host, served⟩) s =
        .next (t.serveBursts c (if served = 0 then t.burstsLeft (c / 16) else served))) ∧
    (bitsOf (instrW i 0) 31 28 = 2 → bitOf (instrW i 0) 16 = false → bitsOf (instrW i 0) 11 0 < p1.index → instrW i 1 ≠ 0 →
      let left := p1.loop0.getD ((instrW i 1).toNat - 1)
      (0 < left → exec (.dmaLoop c inst) s =
        .next (s1.setProg c { p1 with loop0 := some (left - 1), index := bitsOf (instrW i 0) 11 0, fetched := [] })) ∧
      (left = 0 → exec (.dmaLoop c inst) s = .next (s1.nextInstr c { p1 with loop0 := none }))) ∧
    (bitsOf (instrW i 0) 31 28 = 3 → bitOf (instrW i 0) 27 = false → bitsOf (instrW i 2) 19 0 ≤ 1000000 →
      let dl := s1.waitDeadlineU p1 (bitsOf (instrW i 2) 19 0)
      ((s1.queue (bitsOf (instrW i 0) 15 0)).storable = true → s1.tb.timeU ≤ dl → exec (.waitQueue c inst) s =
        .next (s1.waitRead c { p1 with wait := some ⟨some (bitsOf (instrW i 0) 15 0), 0, dl⟩ } (bitsOf (instrW i 0) 15 0))) ∧
      ((s1.queue (bitsOf (instrW i 0) 15 0)).storable = true → dl < s1.tb.timeU → exec (.waitQueue c inst) s =
        .next ((s1.endWait c p1 true stTIMEOUT).raise Reg.DMA_EVENT 1)) ∧
      ((s1.queue (bitsOf (instrW i 0) 15 0)).storable = false →
        exec (.waitQueue c inst) s = .next (s1.endProg c p1 (worseStatus p1.status stREFUSED) 0))) ∧
    (bitsOf (instrW i 0) 31 28 = 3 → bitOf (instrW i 0) 27 = true → bitsOf (instrW i 2) 19 0 ≤ 1000000 →
      let dl := s1.waitDeadlineU p1 (bitsOf (instrW i 2) 19 0)
      let t := (s1.progBoundary p1 0 + signedOf 32 (instrW i 1).toNat) * uPerNs
      (s1.tb.timeU ≤ dl → t ≤ s1.tb.timeU →
        exec (.waitTime c inst) s = .next (s1.endWait c { p1 with wait := some ⟨none, t, dl⟩ } false stOK)) ∧
      (s1.tb.timeU ≤ dl → s1.tb.timeU < t → exec (.waitTime c inst) s = .next (s1.setProg c { p1 with wait := some ⟨none, t, dl⟩ })) ∧
      (dl < s1.tb.timeU → exec (.waitTime c inst) s = .next ((s1.endWait c p1 true stTIMEOUT).raise Reg.DMA_EVENT 1))) ∧
    (bitsOf (instrW i 0) 31 28 = 4 → bitOf (instrW i 0) 27 = false → s.writesHeld c = false →
      let mask := instrW i 1 ||| (if bitOf (instrW i 0) 26 && p1.timedOut then BitVec.ofNat 32 (2 ^ bitsOf (instrW i 0) 25 21) else 0)
      (mask ≠ 0 → exec (.signalFlags c inst) s = .next ((s1.sendFlags (.dma c) (bitsOf (instrW i 0) 16 0) mask).nextInstr c p1)) ∧
      (mask = 0 → exec (.signalFlags c inst) s = .next (s1.nextInstr c p1))) ∧
    (bitsOf (instrW i 0) 31 28 = 4 → bitOf (instrW i 0) 27 = true → s.writesHeld c = false →
      let x := s1.pushItem (bitsOf (instrW i 0) 15 0) (.dma c) (bitsOf (instrW i 2) 18 16) ((instrW i 2).setWidth 16)
        [signalWord c p1 s1.stampNow]
      (x.2 = stOK → exec (.signalItem c inst) s = .next (x.1.nextInstr c p1)) ∧
      (x.2 ≠ stOK → exec (.signalItem c inst) s = .next ((x.1.raise Reg.DMA_EVENT 2).nextInstr c p1)))) ∧
  (∀ (s s1 : State) (c : Nat) (p p1 : DmaProg) (inst : List W32) (host : List Byte), s.clocked = true → (s.chan c).current = some p →
      p.wait = none → p.move = none → s.fetchInstr c p inst = (s1, p1, none) →
    exec (.endProgram c inst) s = .next (s1.badProg c p p.pc p.pc) ∧
    (((s1.badProg c p p.pc p.pc).chan c).current = none → exec (.dmaBusError c inst host) s = .next (s1.badProg c p p.pc p.pc))) ∧
  (∀ (s : State) (c off n : Nat) (p : DmaProg) (m : DmaMove) (rest : List (Nat × Nat)),
      (s.chan c).moving = some (p, m) → m.parts = (off, n) :: rest →
    let s0 := { s with dma.turn := mapSet (fun _ => 15) s.dma.turn (c / 16) (c % 16) }
    let x : State × Except Nat (List Byte) := match m.readOf off n with
      | some (o, k) => s0.readPieces (dmaRequester c) (s0.chanFn c) ((m.host.drop o).take k) [] (sidePieces m.src m.sw o k)
      | none => (s0, .ok m.unit)
    (∀ a, x.2 = .error a → s.burst c = x.1.badProg c p p.pc a) ∧
    (∀ b, x.2 = .ok b →
      let y := x.1.writePieces (dmaRequester c) (s0.behalf c p) (b.take n) none (sidePieces m.dst m.dw off n)
      (∀ a, y.2 = some a → s.burst c = y.1.badProg c p p.pc a) ∧
      (y.2 = none → rest ≠ [] → s.burst c = y.1.setProg c { p with move := some { m with unit := b.drop n, parts := rest } }) ∧
      (y.2 = none → rest = [] → s.burst c =
        y.1.nextInstr c { p with move := none, srcCur := m.srcCur, dstCur := m.dstCur }))) ∧
  (∀ (s : State) (c n k : Nat), s.nextBurst (c / 16) = some k →
    s.serveBursts c (n + 1) = if ((s.burst k).chan c).moving.isSome then (s.burst k).serveBursts c n else s.burst k) ∧
  (∀ (s : State) (c : Nat) (p : DmaProg) (w : DmaWait), s.clocked = true → (s.chan c).current = some p → p.wait = some w →
    (w.qid = none → w.timeU ≤ s.tb.timeU → w.timeU ≤ w.deadlineU → exec (.waitConditionMet c) s = .next (s.endWait c p false stOK)) ∧
    (w.qid = none → w.timeU ≤ s.tb.timeU → w.deadlineU < w.timeU →
      exec (.waitConditionMet c) s = .next ((s.endWait c p true stTIMEOUT).raise Reg.DMA_EVENT 1)) ∧
    (∀ q, w.qid = some q → (s.tb.timeU ≤ w.deadlineU ∨ s.waitServed c q = true) → exec (.waitConditionMet c) s = .next (s.waitRead c p q)) ∧
    (∀ q, w.qid = some q → w.deadlineU < s.tb.timeU → s.waitServed c q = false → exec (.waitConditionMet c) s =
      .next (((s.unstall q (waitReader c)).endWait c p true stTIMEOUT).raise Reg.DMA_EVENT 1)) ∧
    (w.qid = none → w.deadlineU ≤ s.tb.timeU → w.deadlineU < w.timeU →
      exec (.waitDeadline c) s = .next ((s.endWait c p true stTIMEOUT).raise Reg.DMA_EVENT 1))) ∧
  (∀ (s s1 : State) (c qid : Nat) (p : DmaProg),
    (∀ i, s.readQueue qid (waitReader c) = (s1, .item i) → s.waitRead c p qid = s1.endWait c p false stOK) ∧
    (s.readQueue qid (waitReader c) = (s1, .stalls) → s.waitRead c p qid = s1.setProg c p) ∧
    (s.readQueue qid (waitReader c) = (s1, .ended stDISABLED) → s.waitRead c p qid = s1.endWait c p false stDISABLED) ∧
    (s.readQueue qid (waitReader c) = (s1, .ended stABORTED) →
      s.waitRead c p qid = s1.endProg c { p with wait := none } (worseStatus p.status stABORTED) 0)) ∧
  (∀ (s : State) (c st sp : Nat) (p : DmaProg),
    (s.writesWait (s.behalf c p) = false → s.reportEnd c p st sp = s.reportProg c p st sp) ∧
    (s.writesWait (s.behalf c p) = true → s.reportEnd c p st sp = { s with dma.ended := s.dma.ended ++ [⟨c, p, s.behalf c p, st, sp⟩] }))

/-- What a linear MOVE inside one module leaves (R208, R216): once its engine has served its bursts, the destination holds what
the source held before, whatever the overlap, no other byte has changed, and the MOVE has ended. Stated for quire memories, which
answer every access, where no other channel of the engine is in a MOVE. The model's choices and readings it rests on: log entry
49. -/
def Obligations.MoveSemantics : Prop :=
  ∀ (s : State) (c q len : Nat) (p : DmaProg) (m : DmaMove), s.canonical → c < 1024 → q < 24 → (s.cluster q).isolated = false →
    (s.chan c).moving = some (p, m) → m.sw = 0 → m.dw = 0 → 0 < len → m.parts = moveOrder m.src 0 m.dst 0 len →
    (∀ k, k / 16 = c / 16 → k ≠ c → (s.chan k).moving = none) →
    let lo := quireBase + q * 0x01000000 + 0x200000
    lo ≤ m.src → m.src + len ≤ lo + 0x200000 → lo ≤ m.dst → m.dst + len ≤ lo + 0x200000 →
    let t := s.serveBursts c (s.burstsLeft (c / 16))
    (t.chan c).moving = none ∧
    (∀ i, i < len → t.byte (m.dst + i) = s.byte (m.src + i)) ∧
    (∀ a, (a < m.dst ∨ m.dst + len ≤ a) → t.byte a = s.byte a)

/-! ## Engines -/

/-- SPA_JOB, COD_JOB, SPC_JOB, JOB_ITEM_READ, SPA_JOB_END, COD_JOB_END, SPC_JOB_END and the ABORT, DISABLE and ENABLE descriptors
of the three engines (R230, R231, R237, R241, R242, R248, R250, R259, R263, R288, R289): a job of an enabled engine joins the
accepted jobs with its slot, one of a disabled engine ends DISABLED; an item read hands its record to the engine; a finished job
ends with its status; an abort ends what its tag names and comes too late for the rest; a group leaves and enters service, and the
engine as a whole is disabled and enabled. The model's choices and readings it rests on: log entries 4, 7, 27, 35, 51, 52, 72. -/
def Obligations.EngineJobs : Prop :=
  (∀ (s : State) (d : Desc) (e : Nat) (take : List W32 → Taken), (s.engine e).jobs.length < engCap e →
      (take (recordOfDesc d)).clamped = false → recordCarrierClamped (take (recordOfDesc d)).words = false →
    let t := take (recordOfDesc d)
    let x := s.engine e
    let s1 := s.setEngine e { x with nextSeq := x.nextSeq + 1 }
    let c := recordCarrier t.words
    (∀ n, x.enable = true → t.kind ≠ 0 → s1.nameSlot c t.half ((t.words.headD 0).getLsbD 24) (t.words.getD 1 0) = .slot n →
      s.jobDesc e d take = s1.setEngine e { s1.engine e with jobs := (s1.engine e).jobs ++ [{
        seq := x.nextSeq, origin := .host (d.ref false), kind := t.kind, carrier := c, half := t.half, slotNum := n,
        slot := s1.stampOfSlot c n, tag := t.words.getD 2 0, words := t.words, clamped := false, cod := { blocks := t.blocks } }] }) ∧
    (x.enable = false → e ≠ 1 → s.jobDesc e d take = s1.endJob e {
        seq := x.nextSeq, origin := .host (d.ref false), kind := t.kind, carrier := c, half := t.half, slotNum := 0,
        slot := t.words.getD 1 0, tag := t.words.getD 2 0, words := t.words, clamped := false, cod := { blocks := t.blocks } }
      stDISABLED 0)) ∧
  (∀ (s : State) (d : Desc), s.clocked = true →
    exec (.spaJob d) s = .next (s.jobDesc 0 d spaTake) ∧
    exec (.codJob d) s = .next ((s.jobDesc 1 d codTake).codPlaceNew (s.engine 1).jobs.length) ∧
    exec (.spcJob d) s = .next (s.jobDesc 2 d spcTake)) ∧
  (∀ (s s1 : State) (k : Nat) (i : QItem), s.clocked = true → (s.engine 0).enable = true → (s.engine 0).jobs.length < 64 →
      s.nextSource 0 = some k → k ≠ 8 → (s.served 0 k).readQueue (s.fld (Reg.SPA_JQ k) 15 0) (.engine k) = (s1, .item i) →
      (spaTake (recordOfItem i.words)).clamped = false → recordCarrierClamped (spaTake (recordOfItem i.words)).words = false →
    exec (.jobItemRead 0) s = .next (s1.acceptJob 0 (.queue k) (spaTake (recordOfItem i.words)))) ∧
  (∀ (s : State) (n : Nat) (j : EngJob), s.clocked = true → j.finished = true →
    (s.jobOf 0 n = some j → j.kind ≠ 1 → j.status ≠ stNOWGT → exec (.spaJobEnd n) s = .next (s.endJob 0 j j.status j.specific)) ∧
    (s.jobOf 0 n = some j → j.kind ≠ 1 → j.status = stNOWGT → exec (.spaJobEnd n) s =
      .next (((s.bump Reg.SPA_NOWGT).raise Reg.SPA_EVENT 0).endJob 0 j stNOWGT j.specific)) ∧
    (s.jobOf 0 n = some j → j.kind = 1 → j.status = stOK →
      exec (.spaJobEnd n) s = .next ((s.setWbuf j.wkey { s.wbuf j.wkey with state := 1 }).endJob 0 j stOK j.specific)) ∧
    (s.jobOf 1 n = some j → codDecodes j.kind = true → j.status ≠ stBAD →
      exec (.codJobEnd n) s = .next ((s.closeDecode j).1.endJob 1 (s.closeDecode j).2 (s.closeDecode j).2.status (s.closeDecode j).2.codSpecific)) ∧
    (s.jobOf 1 n = some j → codDecodes j.kind = false → j.status ≠ stBAD →
      exec (.codJobEnd n) s = .next ((s.closeEncode j).1.endJob 1 (s.closeEncode j).2 (s.closeEncode j).2.status (s.closeEncode j).2.codSpecific)) ∧
    (s.jobOf 2 n = some j → exec (.spcJobEnd n) s = .next (s.endJob 2 j j.status j.specific))) ∧
  (∀ (s : State) (e : Nat) (ref : DRef) (j : EngJob) (status specific : Nat), e ≠ 1 → j.origin = .host ref → bitOf (j.w 11) 31 = false →
    s.endJob e j status specific =
      (((s.setEngine e { s.engine e with jobs := (s.engine e).jobs.filter (·.seq != j.seq) }).bump64 (engJobs e) 1).complete
        { ref with clamped := ref.clamped || j.clamped } status (satTo 65535 specific)).settleEngine e) ∧
  (∀ (s : State) (d : Desc) (e : Nat) (abort disable enable : Desc → Instr), s.clocked = true →
      (e = 0 ∧ abort = .spaAbort ∧ disable = .spaDisable ∧ enable = .spaEnable ∨
       e = 1 ∧ abort = .codAbort ∧ disable = .codDisable ∧ enable = .codEnable ∨
       e = 2 ∧ abort = .spcAbort ∧ disable = .spcDisable ∧ enable = .spcEnable) →
    ((s.engine e).jobs.filter (fun j => j.tag == d.w 0x10) = [] →
      exec (abort d) s = .next (s.completeAt (d.ref false) stOK 0 true s.stampNow)) ∧
    (∀ j, (s.engine e).jobs.filter (fun j => j.tag == d.w 0x10) = [j] → j.running = false →
      exec (abort d) s = .next ((s.endJob e j stABORTED (j.specSoFar e)).completeAt (d.ref false) stOK 0 false s.stampNow)) ∧
    ((ctrlTarget e d).2 = false → (ctrlTarget e d).1 ≠ engGroups e →
      exec (disable d) s = .next ((s.setEngine e { s.engine e with
        groupsOff := (s.engine e).groupsOff.filter (· != (ctrlTarget e d).1) ++ [(ctrlTarget e d).1] }).complete (d.ref false) stOK 0) ∧
      exec (enable d) s = .next ((s.setEngine e { s.engine e with
        groupsOff := (s.engine e).groupsOff.filter (· != (ctrlTarget e d).1) }).complete (d.ref false) stOK 0)) ∧
    ((ctrlTarget e d).2 = false → (ctrlTarget e d).1 = engGroups e → (s.engine e).enable = true → (s.engine e).jobs = [] →
      exec (disable d) s = .next ((s.setEngine e { s.engine e with enable := false }).complete (d.ref false) stOK 0) ∧
      exec (enable d) s = .next (s.complete (d.ref false) stOK 0)) ∧
    ((ctrlTarget e d).2 = false → (ctrlTarget e d).1 = engGroups e → (s.engine e).enable = false →
      exec (enable d) s = .next ((s.setEngine e { s.engine e with
        enablePending := true, enableRefs := (s.engine e).enableRefs ++ [d.ref false] }).settleEngine e)))

/-- ESTW, COMBINE, PRECODE, CODE_BLOCK_START, LDPC_DEC, LDPC_ENC, TURBO_DEC, TURBO_ENC, POLAR_DEC, POLAR_ENC and HARQ_REGION_WRITE
(R232 to R236, R244, R247, R249, R252, R255, R256, R259). An estimation takes a tile and a buffer, reads its estimates and writes
the group blocks it computes from them; combining and precoding read VALID weights and write every symbol's blocks, and without
them end with status 0x80; a sample is the floor of the exact sum, held within 16 bits; a unit takes the next code block of a job,
whose first one opens its buffer or reads its bits; a decoder and an encoder end one code block, a polar decoder with the path it
chooses; the HARQ region is written only while no carrier lives. The model's choices and readings it rests on: log entries 7, 13,
25, 52, 95, 96, 97. -/
def Obligations.SpatialAndCodingJobs : Prop :=
  (∀ (s : State) (j0 : EngJob) (t : Nat), s.clocked = true → s.spaNext = some (j0, t) →
    let s1 := s.runJob 0 j0 t
    let j := { j0 with running := true, place := t }
    (j0.kind = 1 →
      let s2 := s1.setWbuf j.wkey ⟨2, j.slot⟩
      let p := spaPage (s2.jobLatch j)
      let x := (s2.tileBusy t (estwCycles p j)).readModule (tileRequester t) (j.w64 4) (p.nsym * p.l * p.n * (j.prbCount * p.dens) * 4)
      (x.2 = none → exec .estw s = .next (x.1.finishJob 0 j stBAD 0)) ∧
      (∀ b, x.2 = some b →
        let y := x.1.storeGroups (tileRequester t) p j (estIn p j b) 0 (j.prbGroups p.g)
        (y.2.2 = 0 → exec .estw s =
          .next ((y.1.bumpFld Reg.SPA_SINGULAR 31 0 0).finishJob 0 j (if y.2.1 then stOK else stBAD) 0)) ∧
        (y.2.2 ≠ 0 → exec .estw s =
          .next (((y.1.bumpFld Reg.SPA_SINGULAR 31 0 y.2.2).raise Reg.SPA_EVENT 1).finishJob 0 j (if y.2.1 then stOK else stBAD) y.2.2)))) ∧
    (j0.kind = 2 ∨ j0.kind = 3 → (j0.w 0).getLsbD 25 = false → j0.symbols ≠ [] → (s1.wbuf j.wkey).state ≠ 1 →
      exec (if j0.kind = 2 then .combine else .precode) s = .next (s1.finishJob 0 j stNOWGT 0)) ∧
    (j0.kind = 2 ∨ j0.kind = 3 → (j0.w 0).getLsbD 25 = false → j0.symbols = [] →
      exec (if j0.kind = 2 then .combine else .precode) s =
        .next ((s1.tileBusy t (applyCycles (spaPage (s1.jobLatch j)) j false)).finishJob 0 j stOK 0)) ∧
    ((s1.wbuf j.wkey).state = 1 → (j0.w 0).getLsbD 25 = false → j0.symbols ≠ [] →
      let p := spaPage (s1.jobLatch j0)
      let req := tileRequester t
      ∀ s2 ws, (s1.tileBusy t (applyCycles p j false)).loadGroups req p j.wbuf [] (j.prbGroups p.g) = (s2, some ws) →
      (j0.kind = 2 →
        let acc := spaSymbols req p j ws p.n (blockBytes p.inFmt j.prbCount) (blockDecode p.inFmt) p.l (blockEncode 0)
          (fun l gw xs => combineSample gw p.outShift l xs) ⟨s2, stOK, 0, []⟩ 0 j.symbols
        exec .combine s = .next ((acc.s.countSat (acc.sat.map Prod.snd).sum).finishJob 0 j acc.status (acc.sat.map Prod.snd).sum)) ∧
      (j0.kind = 3 →
        let acc := spaSymbols req p j ws p.l (blockBytes 0 j.prbCount) (blockDecode 0) p.n (blockEncode p.outFmt)
          (fun n gw ys => precodeSample gw p.outShift n ys) ⟨s2, stOK, 0, []⟩ 0 j.symbols
        exec .precode s = .next ((acc.s.countSat (acc.sat.map Prod.snd).sum).finishJob 0 j acc.status (acc.sat.map Prod.snd).sum)))) ∧
  (∀ (s : State) (g u : Nat) (j : EngJob), s.clocked = true → g < 4 → s.codPlace.unitFree g u = true →
      s.codPlace.nextJob 1 (fun j => j.place == g && unitOf j.kind == u && !j.finished && decide (j.cod.begun < j.cod.blocks)
        && s.codPlace.slotFired j.carrier j.half j.slotNum && (j.running || (s.codPlace.groupInService 1 g && s.codPlace.bufferFree j))) = some j →
    (j.running = true → exec (.codeBlockStart g u) s =
      .next ((s.codPlace.wakeCluster (engCluster 1 g)).setJob 1 { j with running := true, cod := { j.cod with begun := j.cod.begun + 1 } })) ∧
    (∀ x : State × EngJob, j.running = false → (if codDecodes j.kind then s.codPlace.openBuffer j else s.codPlace.openEncode j) = x →
      exec (.codeBlockStart g u) s =
        .next ((x.1.wakeCluster (engCluster 1 g)).setJob 1 { x.2 with running := true, cod := { x.2.cod with begun := x.2.cod.begun + 1 } }))) ∧
  (∀ (s s1 : State) (g : Nat) (j : EngJob) (llrs : List Int), s.clocked = true →
    let p := s.codPageOf j
    let r := j.cod.ended
    (∀ kind c, (kind = 1 ∧ c = Instr.ldpcDec g ∨ kind = 3 ∧ c = Instr.turboDec g) → s.blockEnding g kind = some j → s.hqAddr j p = none →
        s.readLlrs j p.llr4 r = (s1, some llrs) →
      let y := j.decodeBlock p r ((j.block p r).soft (j.received r llrs) [])
      exec c s = .next ((s1.unitBusy j.place (decodeCycles j p r y.iterations (j.highNew p r))).blockEnded (j.tally r y false false) false)) ∧
    (s.blockEnding g 2 = some j → exec (.ldpcEnc g) s =
      .next ((s.unitBusy g (ceilDiv (min (j.eBits r) (j.ncb p)) 384 + 26)).blockEnded j false)) ∧
    (s.blockEnding g 4 = some j → exec (.turboEnc g) s = .next ((s.unitBusy g (ceilDiv (j.eBits r) 64 + 32)).blockEnded j false)) ∧
    (s.blockEnding g 6 = some j → exec (.polarEnc g) s = .next ((s.unitBusy g (2 ^ polarLog j / 8 + 32)).blockEnded j false)) ∧
    (s.blockEnding g 5 = some j → s.readLlrs j p.llr4 r = (s1, some llrs) →
      let d := j.polarDecode (j.descrambled r llrs)
      exec (.polarDec g) s = .next ((s1.unitBusy g (2 ^ polarLog j * polarLog j / 4 + 128)).blockEnded { j with cod := { j.cod with
        bits := j.cod.bits ++ [(r, packBits d.1)], tbOk := d.2.1 && (r == 0 || j.cod.tbOk),
        metric := BitVec.ofNat 32 (j.cod.metric.toNat + d.2.2), cbFail := j.cod.cbFail + b2n (!d.2.1) } } false))) ∧
  (∀ (s : State) (v : W32), s.hostOpen Reg.COD_HARQ_BASE →
    (s.anyCarrierLive = false → exec (.harqRegionWrite false v) s =
      .next (s.wr Reg.COD_HARQ_BASE (setBitsOf (s.rd Reg.COD_HARQ_BASE) 8 0 (bitsOf v 8 0)))) ∧
    (s.anyCarrierLive = true → exec (.harqRegionWrite false v) s = .next (s.clampAt Reg.COD_CLAMP_COUNT))) ∧
  (∀ (sh : Nat) (k : Int) (sum : Cplx), 0 ≤ 15 + k + (sh : Int) →
    (outSample k sh sum).1 = (sat16 (sum.1 / 2 ^ (15 + k + (sh : Int)).toNat), sat16 (sum.2 / 2 ^ (15 + k + (sh : Int)).toNat)))

/-- FFT, IFFT, RX_SYMBOL, RX_GAP_DEADLINE, TX_DECISION, QUAL_SLOT_CHECK and SPC_TXQ (R266, R271 to R277, R288): a job's transforms
run one after the other, each reading its samples and writing its bins; a receive symbol is processed once its window is here, or
with the gap marked at its deadline; a transmit symbol whose item is there is sent, save where its transform is not done in time,
which is a free value (log entry 107), and without it an underrun is counted; a slot of a path that qualifies is checked once its
samples are there; a qualification request waits for the next DL boundary of a carrier that has one; with no pipeline in service
nothing is transformed. PEAK, VALIDATION_DECISION, BURST_DONE and OCCASION (R280 to R282, R285, R286): the lag a correlator
evaluates, once the samples it is compared over have come, is a peak where its power is the largest within ±SEP and its ρ reaches
the threshold, and takes a free context of the detector; a validation passes into RECEIVING with a report or is counted as false
and freed; a burst that is over sends its last samples and frees its context with DONE; an occasion reports its detections, one
that overlaps two before it is skipped and counted. Where the manual states no value for what the samples come to, the command
brings it (log entry 98). The model's choices and readings it rests on: log entries 7, 15, 16, 91, 97, 98, 107, 121. -/
def Obligations.SpectralStreamsAndDetectors : Prop :=
  ((∀ (s : State) (g kind : Nat) (j0 : EngJob), s.clocked = true → s.freePipeline = some g →
      s.nextJob 2 (fun j => !j.running && s.slotFired j.carrier j.half j.slotNum) = some j0 → j0.kind = kind → (kind = 1 ∨ kind = 2) →
    let j := { j0 with running := true, place := g }
    let n := fftSize (j.fld 8 31 28)
    let cnt := j.fld 8 27 16
    let y := ((s.runJob 2 j0 g).pipeRun g n (cnt * (n / 4))).transforms g j 0 cnt 0
    exec (if kind = 1 then .fft else .ifft) s =
      .next ((y.1.countSpcSat y.2.1).finishJob 2 j (if y.2.2 then stOK else stBAD) (satTo 65535 y.2.1))) ∧
  (∀ (s : State) (g i left sat : Nat) (j : EngJob) (b : List Byte),
    let n := fftSize (j.fld 8 31 28)
    let x := s.readModule (engRequester 2 g) (j.w64 4 + 4 * n * i) (4 * n)
    x.2 = some b →
    let y := pipeline (j.kind == 2) (j.fld 8 15 12) ((samplesOfInt16 b).map (fun c => rotated c 0 1)) (jobBins (j.fld 8 11 11 == 1) n)
    let z := x.1.writeModule (engRequester 2 g) (j.w64 6 + 4 * n * i) (y.1.flatMap int16Bytes)
    z.2 = true → s.transforms g j i (left + 1) sat = z.1.transforms g j (i + 1) left (sat + y.2)) ∧
  (∀ (s : State) (c ant k : Nat) (slot : W32) (l : SlotLatch), s.clocked = true → s.rxPending c ant k slot = some l →
    let p := spcPage l.words
    let cfg := (s.carrier c).cfg
    let t := s.rxPull c p
    let full := covered (t.stream c).parts ant slot (rxWindow cfg l.words p.fft l.slot k) p.fft
    (full = true → t.spcServes = true → exec (.rxSymbol c ant k slot) s = .next (t.rxProcess c ant k slot l false)) ∧
    ((full = false ∨ t.spcServes = false) → exec (.rxSymbol c ant k slot) s = .next t) ∧
    (s.pastSample cfg p.fft l.slot (symStart cfg p.fft l.slot (k + 1)) (waitUs (setFld l.words 3 2 9 0)) = true →
      (t.spcServes = true → exec (.rxGapDeadline c ant k slot) s = .next (t.rxProcess c ant k slot l (!full))) ∧
      (t.spcServes = false → exec (.rxGapDeadline c ant k slot) s = .next t))) ∧
  (∀ (s : State) (c ant k : Nat) (slot : W32) (l : SlotLatch), s.clocked = true → s.liveByStamp c .dl slot = some l →
      (spcPage l.words).en = true → ant < (spcPage l.words).nAnt → k < symsPerSlot (s.carrier c).cfg →
      (s.stream c).txDone.all (fun d => d.1 != ⟨slot, ant, k⟩) = true → inMask l.words k = true → l.aborted = false →
      s.pastSample (s.carrier c).cfg (spcPage l.words).fft l.slot (symStart (s.carrier c).cfg (spcPage l.words).fft l.slot k)
        (-((waitUs (setFld l.words 3 2 20 11) : Nat) : Int)) = true →
    let t := s.txPull c (spcPage l.words)
    let tag := k * 256 + ant
    let x := t.stream c
    let gone := x.txMissing.filter (fun m => m.tag != tag)
    (∀ w rest, takeKey tag x.txItems = (some w, rest) →
      let u := fun (sent : Bool) => t.drawn.setStream c { x with txItems := rest, txDone := x.txDone ++ [(⟨slot, ant, k⟩, sent)], txMissing := gone }
      exec (.txDecision c ant k slot) s = .next (if t.spcServes && t.freeBelow 2 == 0
        then (u true).txEmit c ant k l slot (t.drawn.onBefore c ant k slot l.slot) (some w)
        else (((u false).bump Reg.SPC_TX_UNDERRUN).raise Reg.SPC_EVENT 2).txEmit c ant k l slot (t.drawn.onBefore c ant k slot l.slot) none)) ∧
    (∀ rest, takeKey tag x.txItems = (none, rest) → exec (.txDecision c ant k slot) s = .next ((((t.setStream c { x with
        txItems := rest, txDone := x.txDone ++ [(⟨slot, ant, k⟩, false)], txMissing := gone ++ [⟨slot, ant, k⟩] }).bump
          Reg.SPC_TX_UNDERRUN).raise Reg.SPC_EVENT 2).txEmit c ant k l slot (t.onBefore c ant k slot l.slot) none))) ∧
  (∀ (s : State) (c : Nat) (i : QItem), (s.stream c).txMissing.any (fun m => m.tag == i.tag.toNat) = false →
    s.txItem c i = s.setStream c { s.stream c with txItems := (s.stream c).txItems ++ [(i.tag.toNat, i.words)] }) ∧
  (∀ (s : State) (c : Nat) (slot : W32), s.clocked = true →
    let x := s.path c
    let w := s.qualWords c slot
    let p := spcPage w
    let samples := fun (ant : Nat) => (x.filtered.filter (fun f => f.1 == slot && f.2.1 == ant)).flatMap (·.2.2)
    let len := symSamples (s.carrier c).cfg p.fft (s.slotOfStamp c .dl slot)
    s.spcServes = true → x.state = 1 → (s.stream c).txDone.any (fun d => d.1.slot == slot && d.2) = true →
      (∀ a, a < p.nAnt → (samples a).length = len) → x.checked ≠ some slot →
    let ok := ∀ a i, a < p.nAnt → i ∈ checkedSegments w → 0 ≤ s.aclrMargin w (binPowers p.fft (samples a)) i
    ∃ y : TxPath, exec (.qualSlotCheck c slot) s = .next ((s.drawn.pipeWork p.fft (p.nAnt * (len / p.fft) * (p.fft / 4))).setPath c y) ∧
      y.state = 1 ∧ y.checked = some slot ∧ y.slotsRun = satTo 255 (x.slotsRun + 1) ∧
      (ok → y.passRun = satTo 255 (x.passRun + 1)) ∧ (¬ ok → y.passRun = 0)) ∧
  (∀ (s : State) (d : Desc), s.clocked = true → d.carrier < 512 →
    ((s.carrier d.carrier).refusesWork = true → exec (.spcTxq d) s = .next (s.complete (d.ref false) stDISABLED 0)) ∧
    ((s.carrier d.carrier).refusesWork = false → (s.carrier d.carrier).dlGoesOn = true → exec (.spcTxq d) s =
      .next (s.setPath d.carrier { s.path d.carrier with requests := (s.path d.carrier).requests ++ [d.ref false] })) ∧
    ((s.carrier d.carrier).refusesWork = false → (s.carrier d.carrier).dlGoesOn = false →
      exec (.spcTxq d) s = .next (s.complete (d.ref false) stREFUSED 0)))) ∧
  ((∀ (s s1 : State) (d power rho : Nat) (t : Int) (ref : List Cplx), s.clocked = true → recMode (s.det d).record = 1 → (s.det d).claimed.isSome = true →
    let x := (s.detPull d).det d
    let c := x.claimed.getD 0
    let n := recRefLen x.record
    let fft := (s.detPull d).fftAt c x.record t
    (s.detPull d).spcServes = true → (∃ e, x.arrived x.record fft = some e ∧ t + ((lagsAwaited x.record n + n : Nat) : Int) ≤ e) →
    (s.detPull d).readSamples (recRef x.record) n = (s1, some ref) → (∀ l, x.lastPeak = some l → l < t) →
    (∀ p, x.peakAt (fsKhz ((s.detPull d).carrier c).cfg fft) fft ref t power rho = some p →
      exec (.peak d t power rho) s = .next ((s1.setDet d { x with lastPeak := some t }).applyPeak d p)) ∧
    (x.peakAt (fsKhz ((s.detPull d).carrier c).cfg fft) fft ref t power rho = none → exec (.peak d t power rho) s = .next s1)) ∧
  (∀ (x : Detector) (fsK fft power rho : Nat) (ref : List Cplx) (t : Int) (p : Peak), x.peakAt fsK fft ref t power rho = some p →
    p.time = t ∧ p.pw.1 = (x.atLag x.record fsK fft ref t).1 ∧ t ∈ x.lagsAround x.record fft t ref.length ∧
    ∀ u ∈ x.lagsAround x.record fft t ref.length, (x.atLag x.record fsK fft ref u).1 ≤ p.pw.1) ∧
  (∀ (s : State) (d : Nat) (p : Peak), (s.det d).ctx0.mode = 0 → (s.det d).ctx1.mode = 0 →
    s.applyPeak d p = (s.startCtx d 0 p).decideAtOnce d 0) ∧
  (∀ (s s1 : State) (d i rhoV : Nat) (ref : List Cplx), s.clocked = true →
    let x := (s.detPull d).det d
    let c := x.ctx i
    let val := recFld c.record 5 7 0
    let n := recRefLen c.record
    (s.detPull d).spcServes = true → c.mode = 1 → 0 < val → (∃ e, x.arrived c.record c.fft = some e ∧ c.t0 + (((val + 1) * n : Nat) : Int) ≤ e) →
      (s.detPull d).readSamples (recRef c.record) n = (s1, some ref) →
    let cfg := ((s.detPull d).carrier (x.claimed.getD 0)).cfg
    let mean := ((List.range val).map (fun v => x.rhoV c (fsKhz cfg c.fft) ref (rhoV % (2 ^ 32 + 1)) (v + 1))).sum / (val * 65536)
    exec (.validationDecision d i rhoV) s = .next ((s1.pipeWork (ncorr n) (val * n / 4)).decideCtx d i mean)) ∧
  (∀ (s : State) (d i rhoV : Nat),
    let x := s.det d
    let y := { x.ctx i with rhoV := min 65535 rhoV }
    (rhoV < recFld (x.ctx i).record 5 31 16 → s.decideCtx d i rhoV = ((s.setDet d (x.setCtx i y)).bump Reg.SPC_DET_FALSE).freeCtx d i 2 true) ∧
    (recFld (x.ctx i).record 5 31 16 ≤ rhoV → s.decideCtx d i rhoV =
      ((s.setDet d (x.setCtx i { y with mode := 2 })).detReport d i 1 y (x.claimed.getD 0) true).advanceDet d)) ∧
  (∀ (s : State) (d i : Nat), s.clocked = true →
    let t := s.detPull d
    let x := t.det d
    let y := x.ctx i
    y.mode = 2 → (∃ e, x.arrived y.record y.fft = some e ∧ y.t0 + ((recW y.record 8).toNat : Int) ≤ e) →
    (y.hasData = false → exec (.burstDone d i) s = .next (t.freeCtx d i 4 true)) ∧
    (y.hasData = true → exec (.burstDone d i) s =
      .next ((t.burstItems d (x.claimed.getD 0) y.total true y (y.total / 2040 + 2)).1.freeCtx d i 4 true))) ∧
  (∀ (s s1 : State) (d c found : Nat) (slot : W32) (refs : List Cplx), s.clocked = true →
    let u := s.detPull d
    let x := u.det d
    let r := x.record
    let n := u.slotOfStamp c .ul slot
    let cfg := (u.carrier c).cfg
    let fft := u.slotFft c .ul n
    let len := recFld r 12 31 19
    let reps := recFld r 12 18 15
    let lra := recFld r 12 10 0
    let roots := recFld r 12 14 13 + 1
    let t := n * ((slotSamples fft / recDecim r : Nat) : Int) + (recFld r 11 15 0 : Int)
    x.claimed = some c → u.spcServes = true → recMode r = 2 → indexOf cfg.spf n % recFld r 11 31 24 = recFld r 11 23 16 → x.occasionDue fft t = true →
      (∀ o ∈ x.occs, o.1 < t) →
    (2 ≤ (x.occs.filter (fun o => decide (t < o.2))).length → exec (.occasion d slot found) s = .next (u.missDets 1)) ∧
    ((x.occs.filter (fun o => decide (t < o.2))).length < 2 → u.readSamples (recRef r) (roots * lra) = (s1, some refs) →
      let bins := x.occasionBins (fsKhz cfg fft) fft t
      let all := ((List.range roots).flatMap (fun q => foundIn q (recFld r 4 15 0) (recFld r 6 31 16) (found % 65537)
        (profile len bins ((refs.drop (q * lra)).take lra)))).foldl (fun l f => insertFound f l) []
      let v := (s1.pipeWork len (((if recSource r = 2 then 0 else reps * len) + roots * len) / 4)).missDets (all.length - 64)
      let w := v.setDet d { v.det d with occs := ((t, t + ((reps * len : Nat) : Int)) :: x.occs).take 2,
                                         sets := if recSource r = 2 then x.sets.drop reps else x.sets }
      exec (.occasion d slot found) s = .next (w.occasionReport d slot (w.detPlace c r fft t) (all.take 64)))))

/-! ## Fronthaul -/

/-- PORT_ENABLE, PORT_UP, PCS_ALIGNMENT_LOST, FH_RXBUF and FRAME_RECEIVE (R292, R294, R298, R299, R303, R308, R309, R311, R312),
and SYMBOL_GROUP_COMMIT. A port's register is written while no live carrier names the port, and the port takes its lanes; a port
whose lanes are up is up; one that loses alignment goes down. A received frame is counted and goes where the first case that
applies sends it: a frame whose FCS or length is wrong is dropped and counted, there and at the queues its items would have gone
to, one for another address is dropped and counted, a frame of no known kind goes into the oldest posted buffer that fits or is
dropped, a U-plane frame inside its window is on time and one outside it early or late. A symbol group whose last expected PRB is
here is committed with the stamp of its last frame. The model's choices and readings it rests on: log entries 5, 7, 16, 25, 35,
40, 53, 54, 57, 58, 113. -/
def Obligations.FronthaulReceive : Prop :=
  (∀ (s : State) (p : Nat) (v : W32), p < 96 → s.hostOpen (Reg.FH_PORT_CFG p) →
    (s.portNamed p = true → exec (.portEnable p v) s = .next (s.clampAt Reg.FH_CLAMP_COUNT)) ∧
    (s.portNamed p = false → bitOf v 31 = true → shapeAllowed (bitsOf v 27 24) p = true → bitsOf v 27 24 ≠ 6 →
        s.lanesTaken (.port p) p (shapeLanes (bitsOf v 27 24)) = false → s.portEnabled p = false →
      exec (.portEnable p v) s = .next ((s.writeContext (Reg.FH_PORT_CFG p) v (setBitsOf v 23 23 0)).ownPortLanes p (bitsOf v 27 24))) ∧
    (s.portNamed p = false → bitOf v 31 = false → shapeAllowed (bitsOf v 27 24) p = true → bitsOf v 27 24 ≠ 6 →
        s.lanesTaken (.port p) p (shapeLanes (bitsOf v 27 24)) = false → s.portEnabled p = true →
      exec (.portEnable p v) s =
        .next (((s.writeContext (Reg.FH_PORT_CFG p) v (setBitsOf v 23 23 0)).portDown p none).disownPortLanes p))) ∧
  (∀ (s : State) (p : Nat), s.clocked = true →
    (s.portEnabled p = true → (∀ i, i < shapeLanes (s.portShape p) → (s.lane (p + i)).mode = .up) →
      let s1 := s.setPort p { up := true, cpriSync := s.isCpri p }
      (s1.gatewayPort ≠ some p → exec (.portUp p) s = .next s1) ∧
      (s1.gatewayPort = some p → s.gatewayPort ≠ some p → exec (.portUp p) s = .next s1.electSelf)) ∧
    ((s.port p).up = true →
      let s1 := (s.setPort p { up := false, fault := none, cpriSync := false }).raise Reg.FH_EVENT 0
      (s.gatewayPort ≠ some p → exec (.pcsAlignmentLost p) s = .next s1) ∧
      (s.gatewayPort = some p → exec (.pcsAlignmentLost p) s = .next s1.migPaths))) ∧
  (∀ (s : State) (d : Desc), s.clocked = true → s.fh.bufs.length < 4096 → 80 ≤ d.fld 0x10 13 0 → (d.w64 0x18).toNat % 16 = 0 →
    exec (.fhRxbuf d) s = .next { s with
      fh.bufs := s.fh.bufs ++ [(⟨d.ref false, s.descFn d, d.fld 0x10 13 0, d.w64 0x18⟩ : RxBuf)] }) ∧
  (∀ (s : State) (p : Nat) (data : List Byte), s.clocked = true → p < 96 → (s.port p).up = true → s.isCpri p = false →
    let s0 := s.bump64 (Reg.FH_PORT_RXFR_LO p) 1
    let t := s.rxStamp16 p
    let body := data.take (data.length - 4)
    let f := ethOf body
    let s1 := fun (bad : Bool) => s0.offerFrame 1 p data t bad false
      { s0.rxFlow p body t with window := !bad && (s0.rxFlow p body t).window }
    let u := s1 false
    (checkFcs data = none ∨ data.length < 64 ∨ s0.maxFrame p < data.length →
      exec (.frameReceive p data) s = .next ((s1 true).brokenFrame p data t)) ∧
    ((checkFcs data).isSome = true → 64 ≤ data.length → data.length ≤ s0.maxFrame p →
      (f.dst ≠ u.portMac p → groupAddress f.dst = false →
        exec (.frameReceive p data) s = .next (u.bumpFld (Reg.FH_PORT_DROP0 p) 15 0 1)) ∧
      (f.dst = u.portMac p →
        (f.etype = u.fld Reg.FH_STF_ETYPE 15 0 → u.bit (Reg.FH_PORT_CFG p) 21 = true →
          exec (.frameReceive p data) s = .next (u.stitchEth p f.src f.payload)) ∧
        (f.etype ≠ u.fld Reg.FH_STF_ETYPE 15 0 →
          (f.etype = 0xAEFE → beAt f.payload 1 1 = 0 ∨ beAt f.payload 1 1 = 2 →
            exec (.frameReceive p data) s = .next (u.rxEcpri p f.payload t)) ∧
          (f.etype = 0xFC3D → beAt f.payload 0 1 = 0x10 →
            exec (.frameReceive p data) s = .next (u.rx1914 p f.payload t)) ∧
          (f.etype ≠ 0xAEFE → f.etype ≠ 0xFC3D →
            (∀ b r, hostRate u.tb.raw u.fh.hostIn < hostMax → takeBuf (body.length + 16) u.fh.bufs = some (b, r) →
              exec (.frameReceive p data) s =
                .next (({ u with fh.hostIn := hostPassed u.tb.raw u.fh.hostIn, fh.bufs := r }.hostWrite
                  ⟨b.fn, 0, b.ref.ring, b.ref.tag, b.addr,
                    bytesOfNat 4 (body.length % 65536 * 2 ^ 16 + p % 128) ++ List.replicate 12 0 ++ body, 0⟩).completeAt b.ref stOK
                  body.length false (shortStampOf t))) ∧
            (takeBuf (body.length + 16) u.fh.bufs = none ∨ hostMax ≤ hostRate u.tb.raw u.fh.hostIn →
              exec (.frameReceive p data) s = .next ((u.bump Reg.FH_HOST_DROP).raise Reg.FH_EVENT 4))))))) ∧
  (∀ (s : State) (p : Nat) (data : List Byte) (t : Int),
    let f := ethOf (data.take (data.length - 4))
    f.dst ≠ s.portMac p → groupAddress f.dst = false → s.brokenFrame p data t = s.bumpFld (Reg.FH_PORT_DROP0 p) 31 16 1) ∧
  (∀ (s : State) (p : Nat) (data : List Byte), s.clocked = true → p < 96 → (s.port p).up = true → s.isCpri p = true →
    exec (.frameReceive p data) s = .next ((s.bump64 (Reg.FH_PORT_RXFR_LO p) 1).rxCpri p data (s.rxStamp16 p))) ∧
  (∀ (s : State) (p c : Nat) (h : Half) (stream : Nat) (app : List Byte) (t : Int) (n : Int) (l : List Section),
      let x := beAt app 2 2
      let cfg := (s.carrier c).cfg
      let pg := flowPage (s.slotWords c h n)
      let fate := s.windowFate c h n (x % 64) t
      s.namedSlot cfg t (beAt app 1 1) (x / 4096) (x / 64 % 64) (x % 64) = some n → sectionsOf pg app.length (app.drop 4) = some l →
    (fate = some false → s.rxUplane p c h stream app t = (s.bump (Reg.FH_HALF_LATE c (halfIx h))).raise Reg.FH_EVENT 2) ∧
    (fate = some true → s.rxUplane p c h stream app t = (s.bump (Reg.FH_HALF_EARLY c (halfIx h))).raise Reg.FH_EVENT 2) ∧
    (fate = none → beAt app 0 1 % 16 = 0 → stream < pg.nStream → s.rxUplane p c h stream app t =
      ((s.bump (Reg.FH_HALF_ON_TIME c (halfIx h))).rxSections p c h pg n (x % 64) stream l).noteStamp c h n
        (groupOf pg (symsPerSlot cfg) (x % 64)).2 t) ∧
    (fate = none → (beAt app 0 1 % 16 ≠ 0 ∨ pg.nStream ≤ stream) → s.rxUplane p c h stream app t =
      (s.bump (Reg.FH_HALF_ON_TIME c (halfIx h))).auxItem p c h pg n (x % 64) stream l t)) ∧
  (∀ (s : State) (c : Nat) (h : Half) (n : Int) (sym : Nat) (t : Int),
    let w := s.window (s.carrier c).cfg h (flowPage (s.slotWords c h n)) n sym
    s.windowFate c h n sym t = (if s.slotGone c h n = true then some false else if t < w.1 then some true
      else if w.2 < t then some false else none)) ∧
  (∀ (s : State) (c : Nat) (h : Half) (stamp : W32) (last m : Nat) (l : SlotLatch), s.clocked = true →
      let x := s.carrier c
      let p := flowPage l.words
      let g := groupOf p (symsPerSlot x.cfg) last
      let ms := maskedSyms l.words g
      let r := rxSlotOf (s.fhHalf c h).rx l.slot
      let got := (r.got.filter (fun k => ms.contains (k / 2 ^ 20))).length
      let missing := ms.length * p.nStream * p.nRb - got
      let close := (s.window x.cfg h p l.slot m).2
      s.liveByStamp c h stamp = some l → x.receives h = true → x.fhMode = 0 → l.aborted = false → g.2 = last →
      last < symsPerSlot x.cfg → r.done.contains last = false → ms.getLast? = some m → missing = 0 ∨ close ≤ s.tb.time16 →
    let s1 := (s.setFhHalf c h { s.fhHalf c h with rx := putRxSlot (s.fhHalf c h).rx { r with done := r.done ++ [last] } }).fhCount
      (Reg.FH_HALF_MISSING c (halfIx h)) missing
    exec (.symbolGroupCommit c h stamp last) s = .next (s1.pushItem p.dataQid (fhProducer c h) p.prio (BitVec.ofNat 16 (g.1 * 256 + g.2))
      [groupHeader (missing != 0) c h stamp g.1 g.2 missing (p.buf + s1.rxOffset c p l.slot g.1 0 0)
        (if missing = 0 then mapGet (fun _ => 0) r.stamps last else close)]).1)

/-- TX_ITEM_ASSIGN, FRAME_SEND, TX_WINDOW_CLOSE, CPLANE_AUTO_SEND, CPLANE_QUEUE_SEND and FH_SEND (R300, R301, R306, R310, R311,
R341). The head item is assigned to the earliest live slot whose window for its symbol is open, comes too late and is counted, or
is discarded as corrected; a port sends the frames its Press output queue holds, then the frame whose window closes first, frames
of the stitch fabric only while there is none, and host frames only while there is neither and fewer than 4 million have left in
this second (log entry 113); a stream of a symbol not sent whole when the window closes is a miss; a C-plane message leaves at or
after its send time, once per stream and slot; and a host frame goes at once where its port is idle and waits otherwise. The
model's choices and readings it rests on: log entries 7, 25, 53, 54, 55, 56, 57, 102. -/
def Obligations.FronthaulTransmit : Prop :=
  (∀ (s s1 : State) (c qid : Nat) (h : Half) (i : QItem), s.clocked = true → (s.carrier c).receives h = false → (s.carrier c).isStopped = false →
      s.txQueue c h (fun p => some p.dataQid) = some qid → s.headItem qid (fhConsumer c h) = (s1, some i) →
    let sym := i.tag.toNat / 256
    let stream := i.tag.toNat % 256
    ((s.carrier c).fhMode ≠ 0 → exec (.txItemAssign c h) s = .next (s1.tdPush c h i)) ∧
    ((s.carrier c).fhMode = 0 → (s.fhHalf c h).head = none →
      (s1.assignSlot c h qid sym = none → exec (.txItemAssign c h) s = .next (s1.bump (Reg.FH_HALF_TX_LATE c (halfIx h)))) ∧
      (∀ l, s1.assignSlot c h qid sym = some l → l.aborted = false →
        (inMask l.words sym = false → exec (.txItemAssign c h) s = .next (s1.clampAt Reg.FH_CLAMP_COUNT)) ∧
        (inMask l.words sym = true → sym < symsPerSlot (s.carrier c).cfg → stream < (flowPage l.words).nStream →
          exec (.txItemAssign c h) s = .next (s1.setFhHalf c h { s1.fhHalf c h with
            head := some ({ slot := l.slot, sym := sym, stream := stream, data := bytesOfQWords i.words } : TxHead) }))))) ∧
  (∀ (s : State) (port : Nat), s.clocked = true → (s.port port).up = true →
    (∀ x, s.cap.outq.find? (·.port == port) = some x → exec (.frameSend port) s = .next (s.sendPress x)) ∧
    (s.cap.outq.find? (·.port == port) = none →
      let s1 := s.pullPort port
      (∀ r, earliestReady (s1.portReady port) = some r → exec (.frameSend port) s = .next (s1.sendReady port r)) ∧
      (∀ x, s1.portReady port = [] → s1.fh.stitchTx.find? (·.1 == port) = some x →
        exec (.frameSend port) s = .next ({ s1 with fh.stitchTx := s1.fh.stitchTx.erase x }.sendFrame port x.2 {})) ∧
      (∀ x, s1.portReady port = [] → s1.fh.stitchTx.find? (·.1 == port) = none → s1.fh.hostTx.find? (·.port == port) = some x →
        (s1.hostRoom = true → exec (.frameSend port) s = .next ({ s1 with fh.hostTx := s1.fh.hostTx.erase x }.sendHost x)) ∧
        (s1.hostRoom = false → exec (.frameSend port) s = .next s1)))) ∧
  (∀ (l : List Ready) (r : Ready), earliestReady l = some r → r ∈ l ∧ ∀ x ∈ l, r.close ≤ x.close) ∧
  (∀ (s : State) (port c : Nat) (h : Half) (d : TxHead), (s.fhHalf c h).head = some d →
    let p := flowPage (s.slotWords c h d.slot)
    let n := s.prbsThatFit c p d
    let q := s.nextSeqOut c h d.stream
    let app := appHeader (s.carrier c).cfg h d.slot d.sym
      ++ beBytes 4 (p.sectionId * 2 ^ 20 + d.nextPrb * 2 ^ 8 + (if n = p.nRb then 0 else n))
      ++ (if p.staticHdr then [] else beBytes 1 (p.width % 16 * 16 + p.meth) ++ [0])
      ++ (List.range n).flatMap (fun i => wirePrb p d.data (d.nextPrb + i))
    let body := s.carrierHeader c 0xAEFE ++ ecpriHeader 0 (p.key d.stream) q.2 app.length ++ app
    let flow : FrameFlow := { carrier := c, slot := q.1.stampOfSlot c d.slot }
    let late := (s.window (s.carrier c).cfg h p d.slot d.sym).2 < s.txStamp16 port + s.frameTime16 port (max 64 (body.length + 4))
    (late → s.sendUplane port c h = s.setFhHalf c h { s.fhHalf c h with head := none }) ∧
    (¬ late → n ≠ 0 → d.nextPrb + n < p.nRb → s.sendUplane port c h =
      (q.1.setFhHalf c h { q.1.fhHalf c h with head := some { d with nextPrb := d.nextPrb + n } }).sendFrame port body flow) ∧
    (¬ late → n ≠ 0 → p.nRb ≤ d.nextPrb + n → s.sendUplane port c h =
      (q.1.setFhHalf c h { q.1.fhHalf c h with
        head := none, whole := (q.1.fhHalf c h).whole ++ [(d.slot, d.sym, d.stream)] }).sendFrame port body flow)) ∧
  (∀ (s : State) (c : Nat) (h : Half) (stamp : W32) (sym : Nat) (l : SlotLatch), s.clocked = true → (s.carrier c).receives h = false →
      (s.carrier c).isStopped = false → (s.carrier c).fhMode = 0 → s.liveByStamp c h stamp = some l → inMask l.words sym = true →
      sym < symsPerSlot (s.carrier c).cfg → (s.fhHalf c h).closed.contains (l.slot, sym) = false →
      (s.window (s.carrier c).cfg h (flowPage l.words) l.slot sym).2 ≤ s.tb.time16 →
    let f := s.fhHalf c h
    let n := ((List.range (flowPage l.words).nStream).filter (fun k => !f.whole.contains (l.slot, sym, k))).length
    let s1 := s.setFhHalf c h { f with closed := f.closed ++ [(l.slot, sym)], head := f.head.filter (fun d => d.slot != l.slot || d.sym != sym) }
    (n = 0 → exec (.txWindowClose c h stamp sym) s = .next s1) ∧
    (0 < n → exec (.txWindowClose c h stamp sym) s = .next ((s1.fhCount (Reg.FH_HALF_TX_MISS c (halfIx h)) n).raise Reg.FH_EVENT 3))) ∧
  (∀ (s : State) (c : Nat) (h : Half) (stamp : W32) (stream : Nat) (r : Ready), s.clocked = true →
    let port := (s.carrier c).port
    let t := s.pullPort port
    earliestReady (t.portReady port) = some r → r.carrier = c → r.half = h → (t.port port).up = true →
    (∀ l, r.kind = .cpAuto l → r.stream = stream → t.stampOfSlot c l.slot = stamp → exec (.cplaneAutoSend c h stamp stream) s =
      .next ((t.setFhHalf c h { t.fhHalf c h with cpSent := (t.fhHalf c h).cpSent ++ [(l.slot, stream)] }).sendCplane
        (t.carrier c).port c h l.slot (flowPage l.words) stream (t.autoApp c h l) r.close)) ∧
    (∀ i, r.kind = .cpQueue → (t.fhHalf c h).cpHead = some i → exec (.cplaneQueueSend c h) s = .next (t.cpQueueSend c h i))) ∧
  (∀ (s : State) (c : Nat) (h : Half) (stamp : W32) (stream : Nat), s.clocked = true →
    let t := s.pullPort (s.carrier c).port
    earliestReady (t.portReady (s.carrier c).port) = none →
    exec (.cplaneAutoSend c h stamp stream) s = .next t ∧ exec (.cplaneQueueSend c h) s = .next t) ∧
  (∀ (s : State) (port c : Nat) (h : Half) (n : Int) (p : FlowPage) (stream : Nat) (app : List Byte) (t : Int),
    let q := s.nextSeqOut c h stream
    let s1 := q.1.sendFrame port (s.carrierHeader c 0xAEFE ++ ecpriHeader 2 (p.key stream) q.2 app.length ++ app)
      { carrier := c, slot := s.stampOfSlot c n }
    (s1.tb.time16 ≤ t + 10000 * 65536 → s.sendCplane port c h n p stream app t = s1) ∧
    (t + 10000 * 65536 < s1.tb.time16 →
      s.sendCplane port c h n p stream app t = (s1.bump (Reg.FH_HALF_CP_LATE c (halfIx h))).raise Reg.FH_EVENT 5)) ∧
  (∀ (s : State) (d : Desc) (data : List Byte), s.clocked = true → d.fld 0x10 22 16 ≤ 95 → 60 ≤ d.fld 0x10 13 0 →
      d.fld 0x10 13 0 ≤ s.maxFrame (d.fld 0x10 22 16) - 4 →
    let port := d.fld 0x10 22 16
    let len := d.fld 0x10 13 0
    let s0 := s.emit (.hostRead (s.descFn d) (d.w64 0x18) len)
    let s1 := s0.pullPort port
    let x : HostFrame := ⟨d.ref false, port, data.take len⟩
    ((s.port port).up = false → exec (.fhSend d data) s = .next (s.complete (d.ref false) stREFUSED 0)) ∧
    ((s.port port).up = true → s.portEnabled port = true → s.isCpri port = false →
      (data.length < len → exec (.fhSend d data) s = .next (s0.complete (d.ref false) stBAD 0)) ∧
      (len ≤ data.length → s1.hostRoom = true → isPtpEvent (ethOf x.data) = true ∨ s1.portQuiet port = true ∧ (∀ y ∈ s1.fh.hostTx, y.port ≠ port) →
        exec (.fhSend d data) s = .next (s1.sendHost x)) ∧
      (len ≤ data.length → s1.hostRoom = false ∨ isPtpEvent (ethOf x.data) = false ∧ s1.portQuiet port = false →
        exec (.fhSend d data) s = .next { s1 with fh.hostTx := s1.fh.hostTx ++ [x] })))

/-! ## Lanes -/

/-- TRAINING_FRAME, PARTNER_WAIT_EXPIRY, ADAPT_TIMEOUT, BACKOFF_EXPIRY, COEFFICIENT_REQUEST, RECEIVERS_READY, PARTNER_LOST,
TRAIN_LIMIT_EXPIRY, CDR_LOCK, LOCK_LOSS and RETRAIN (R314, R318 to R324): a lane in SEND or SILENT_WAIT that hears its partner
trains; one that hears none waits silent with NO_PARTNER and retries behind a backoff that doubles up to 8; a tap moves by one
unit within its range while C0 stays at 32 or more; a trained lane is READY and, in ETH mode, UP; a lost partner, an elapsed
limit, a lost lock and a retraining bring the lane back to SEND, and the port that owned it goes down. The model's choices and
readings it rests on: log entries 5, 7, 15, 25, 58, 60, 61, 63, 83. -/
def Obligations.LaneTraining : Prop :=
  (∀ (s : State) (n : Nat), s.clocked = true →
    let l := s.lane n
    (l.mode = .send ∨ l.mode = .silentWait → l.adapts = false →
      exec (.trainingFrame n) s = .next (s.setLane n { l with mode := .train, noPartner := false, backoff := 1, sigDet := true, cdrLock := true })) ∧
    (∀ c : Instr, (l.mode = .send ∧ c = .partnerWaitExpiry n ∨ l.mode = .adapt ∧ c = .adaptTimeout n) →
      exec c s = .next ((s.setLane n { l with mode := .silentWait, noPartner := true, sigDet := false, cdrLock := false }).laneEvent n 2)) ∧
    (l.mode = .silentWait → exec (.backoffExpiry n) s =
      .next (((s.setLane n { l with backoff := min 8 (2 * l.backoff) }).bumpFld (Reg.LN_COUNT n) 7 0 1).enterSend n)) ∧
    (∀ preset tap up, l.mode = .train → exec (.coefficientRequest n preset tap up) s =
      .next ((s.setLane n (l.request preset tap up).1).emit (.laneCtl n (l.request preset tap up).2))) ∧
    (l.mode = .train →
      let s1 := ((s.sendRequests n).reportRx n).setLane n { l with mode := .ready }
      (∀ p, l.owner = .port p ∨ l.owner = .spill p → exec (.receiversReady n) s = .next (s1.laneUp n)) ∧
      (∀ k, l.owner = .stitch k → (l.loop ≠ 3 ∧ l.loop ≠ 4 → exec (.receiversReady n) s = .next (s1.sendLaneAdd k (n - (s1.stfLanes k).1))) ∧
        (l.loop = 3 ∨ l.loop = 4 → exec (.receiversReady n) s = .next (s1.enterLoopback n l.loop))) ∧
      (l.owner = .test → exec (.receiversReady n) s = .next (s1.setLane n { l with mode := .test }))) ∧
    (l.mode = .train → exec (.partnerLost n) s = .next ((((s.sendSomeRequests n).bumpFld (Reg.LN_COUNT n) 23 16 1).laneEvent n 4).enterSend n)) ∧
    (l.mode = .train → exec (.trainLimitExpiry n) s = .next ((((s.sendSomeRequests n).bumpFld (Reg.LN_COUNT n) 15 8 1).laneEvent n 3).enterSend n)) ∧
    (l.mode = .adapt → exec (.cdrLock n) s = .next ((s.reportRx n).laneUp n)) ∧
    (l.mode = .ready ∨ l.mode = .up →
      exec (.lockLoss n) s = .next (((((s.bumpFld (Reg.LN_COUNT n) 31 24 1).laneEvent n 1).ownerLosesLane n)).enterSend n))) ∧
  (∀ (s : State) (n : Nat) (v : W32), n < 96 → s.hostOpen (Reg.LN_CMD n) →
    (bitOf v 0 = false → exec (.retrain n v) s = .next s) ∧
    (bitOf v 0 = true → (s.lane n).mode ≠ .ready → (s.lane n).mode ≠ .up →
      exec (.retrain n v) s = .next (s.clampAt Reg.LN_CLAMP_COUNT)) ∧
    (bitOf v 0 = true → (s.lane n).mode = .ready ∨ (s.lane n).mode = .up →
      (∀ p, (s.lane n).owner = .port p ∨ (s.lane n).owner = .stitch p → exec (.retrain n v) s = .next ((s.ownerLosesLane n).enterSend n)) ∧
      (∀ k, (s.lane n).owner = .spill k → s.activityRuns (.laneRetrain k n) = false → s.activityWaits (.laneRetrain k n) = false →
          s.activityFree (.laneRetrain k n) s.readyFirst = false →
        exec (.retrain n v) s = .next ({ s with mm.waiting := s.mm.waiting ++ [Activity.laneRetrain k n] }.setLane n
          { s.lane n with retrainPending := true })))) ∧
  (∀ (s : State) (n : Nat), n < 96 →
    let t := s.enterSend n
    ((t.lane n).mode = if s.laneAdapts n then .adapt else .send) ∧
    (t.lane n).sigDet = false ∧ (t.lane n).cdrLock = false ∧ (t.lane n).owner = (s.lane n).owner ∧ (t.lane n).backoff = (s.lane n).backoff ∧
    (s.laneAdapts n = false → (t.lane n).cm3 = 0 ∧ (t.lane n).cm2 = 0 ∧ (t.lane n).cm1 = 0 ∧ (t.lane n).cp1 = 0 ∧ (t.lane n).c0 = 64)) ∧
  (∀ (s : State) (n p : Nat), (s.lane n).owner = .port p → (s.port p).up = true →
    let t := (s.setPort p { up := false, fault := some n, cpriSync := false }).raise Reg.FH_EVENT 0
    s.ownerLosesLane n = if s.gatewayPort = some p then t.migPaths else t) ∧
  (∀ (s : State) (n : Nat), (∀ k m, .laneRetrain k m ∈ (s.disownLane n).mm.waiting → m ≠ n))

/-- R321: whatever the partner asks, in whatever order, a lane's coefficients stay within their ranges and C0 stays at 32 or more;
a request at a limit and one that NRZ does not have leave every coefficient as it was. The model's choices and readings it rests
on: log entry 61. -/
def Obligations.TapsStayInRange : Prop :=
  (∀ (l : Lane) (preset : Nat) (t : Fin 4) (up : Bool), l.cm3 ≤ 6 → l.cm2 ≤ 12 → l.cm1 ≤ 24 → l.cp1 ≤ 16 → 32 ≤ l.c0 →
    let x := l.request preset t up
    x.1.cm3 ≤ 6 ∧ x.1.cm2 ≤ 12 ∧ x.1.cm1 ≤ 24 ∧ x.1.cp1 ≤ 16 ∧ 32 ≤ x.1.c0 ∧ (x.2 ≠ ansUpdated → x.1 = l) ∧
    (preset = 0 → x.2 = ansUpdated → (x.1.c0 = l.c0 + 1 ∨ x.1.c0 + 1 = l.c0) ∧ ∀ u : Fin 4, u ≠ t → x.1.tap u = l.tap u)) ∧
  (∀ l : Lane, l.cm3 ≤ 7 → l.cm2 ≤ 15 → l.cm1 ≤ 31 → l.cp1 ≤ 31 → 32 ≤ (fitTaps l).c0 ∧
    (32 ≤ l.c0 → l.cm3 + l.cm2 + l.cm1 + l.cp1 ≤ 32 → fitTaps l = l) ∧
    (fitTaps l).cm1 = l.cm1 ∧ ((fitTaps l).cp1 ≠ l.cp1 → (fitTaps l).cm3 = 0 ∧ (fitTaps l).cm2 = 0))

/-- LOOPBACK_WRITE, TX_TAPS_WRITE, QREF_SELECT, QREF_LOST, QREF_RETURN, TEST_ENABLE, INJ_ONE, PERIODIC_INJECTION, PRBS_SYNC,
PRBS_SYNC_LOSS, RECALIBRATION and FE_SLIP (R316, R324, R326 to R330): a loopback is entered and left by LN_CFG; taps are written
only in a loopback or a test and are fitted to their ranges; a quad with its reference lost raises REF_LOST on its lanes; a
recalibration starts and ends; a test lane is taken and given back; an error is injected where a pattern is generated, the checker
gains and loses its synchronisation and counts, and an elastic-buffer slip is counted. The model's choices and readings it rests
on: log entries 7, 25, 58, 59, 60, 83, 115. -/
def Obligations.LaneTests : Prop :=
  (∀ (s : State) (n : Nat) (v : W32), n < 96 → s.hostOpen (Reg.LN_CFG n) → (s.lane n).owner.mode = 2 → s.fld (Reg.LN_CFG n) 27 24 = 0 →
    let s1 := s.writeContext (Reg.LN_CFG n) v v
    let code := s1.fld (Reg.LN_CFG n) 27 24
    let s2 := (s1.wr (Reg.LN_LB_ERR n) 0).setLane n { s.lane n with loop := code }
    (code = 0 → exec (.loopbackWrite n v) s = .next s1) ∧
    (code = 1 ∨ code = 2 → exec (.loopbackWrite n v) s = .next (s2.enterLoopback n code)) ∧
    (code = 3 ∨ code = 4 → (s.lane n).mode = .ready ∨ (s.lane n).mode = .up → exec (.loopbackWrite n v) s = .next (s2.enterLoopback n code))) ∧
  (∀ (s : State) (n : Nat) (v : W32), n < 96 → s.hostOpen (Reg.LN_TX_TAPS n) →
    (s.bit (Reg.LN_CFG n) 31 = false → (s.lane n).mode ≠ .loopback → (s.lane n).mode ≠ .test →
      exec (.txTapsWrite n v) s = .next (s.clampAt Reg.LN_CLAMP_COUNT)) ∧
    ((s.lane n).mode = .loopback → pam4 (s.lane n).rate = true →
      let s1 := s.writeContext (Reg.LN_TX_TAPS n) v v
      let t := fitTaps (s1.loadTaps n (s.lane n))
      exec (.txTapsWrite n v) s = .next (((s1.wr (Reg.LN_TX_TAPS n) t.tapsWord).clampIf
        (!s.tableClamps (Reg.LN_TX_TAPS n) v && t.tapsWord != (s1.loadTaps n (s.lane n)).tapsWord) Reg.LN_CLAMP_COUNT).setLane n t))) ∧
  (∀ (s : State) (q : Nat) (v : W32), q < 24 → s.hostOpen (Reg.LN_QUAD_CFG q) →
    let s1 := s.writeTable (Reg.LN_QUAD_CFG q) v
    (s1.bit (Reg.LN_QUAD_CFG q) 0 = true → s1.tb.synceInPresent = false → exec (.qrefSelect q v) s = .next (s1.qrefLost q)) ∧
    (s1.bit (Reg.LN_QUAD_CFG q) 0 = false ∨ s1.tb.synceInPresent = true →
      exec (.qrefSelect q v) s = .next { s1 with ln.qrefLost := s1.ln.qrefLost.filter (· != q) })) ∧
  (∀ (s : State) (q : Nat), s.clocked = true →
    (q < 24 → s.bit (Reg.LN_QUAD_CFG q) 0 = true → s.ln.qrefLost.contains q = false → exec (.qrefLost q) s =
      .next (((({ s with ln.qrefLost := s.ln.qrefLost ++ [q] }.laneEvent (4 * q) 8).laneEvent (4 * q + 1) 8).laneEvent (4 * q + 2) 8).laneEvent
        (4 * q + 3) 8)) ∧
    exec (.qrefReturn q) s = .next { s with ln.qrefLost := s.ln.qrefLost.filter (· != q) } ∧
    (q < 24 → exec (.recalibration q true) s = .next { s with
      mm := { s.mm with running := s.mm.running.erase (.recal q), waiting := s.mm.waiting.erase (.recal q) } }) ∧
    (q < 24 → s.fld Reg.LN_RECAL_MIN 10 0 ≠ 0 → (∀ p, .recal p ∉ s.mm.running) →
      (s.activityWaits (.recal q) = false → s.activityFree (.recal q) s.readyFirst = true →
        exec (.recalibration q false) s = .next { s with mm.running := s.mm.running ++ [.recal q] }))) ∧
  (∀ (s : State) (n : Nat) (v : W32), n < 96 → s.hostOpen (Reg.LN_TEST_CFG n) →
    let s1 := s.writeContext (Reg.LN_TEST_CFG n) v v
    let a := Reg.LN_TEST_CFG n
    ((s.lane n).owner = .none → s1.bit a 31 = true → s1.bit a 28 = false → bitOf (s.rd a) 28 = false →
      let s2 := s1.setLane n { owner := .test, rate := s1.fld a 23 21 }
      (s2.bit a 30 = true → exec (.testEnable n v) s = .next (s2.enterSend n)) ∧
      (s2.bit a 30 = false → exec (.testEnable n v) s = .next (s2.setLane n { s2.loadTaps n (s2.lane n) with mode := .test }))) ∧
    let cleared := if s1.bit a 28 && !bitOf (s.rd a) 28 then s1.clearPrbs n else s1
    ((s.lane n).owner = .test → s1.bit a 31 = false → exec (.testEnable n v) s = .next ((cleared.stopChecker n).disownLane n)) ∧
    (∀ p, (s.lane n).owner = .port p → bitOf v 31 = false → exec (.testEnable n v) s = .next cleared)) ∧
  (∀ (s : State) (n : Nat) (v : W32), n < 96 → s.hostOpen (Reg.LN_INJ n) →
    let s1 := s.writeTable (Reg.LN_INJ n) (setBitsOf v 31 31 0)
    let s2 := if (s1.lane n).gen = 0 then s1 else s1.setLane n { s1.lane n with gen := 0 }
    (bitOf v 31 = true → s2.generating n = true →
      exec (.injOne n v) s = .next (s2.emit (.testError n (errorLevel (s2.lane n).rate (s2.somePattern n)))).drawn) ∧
    (bitOf v 31 = false ∨ s2.generating n = false → exec (.injOne n v) s = .next s2)) ∧
  (∀ (s : State) (n : Nat), s.clocked = true →
    (s.generating n = true → s.fld (Reg.LN_INJ n) 4 0 ≠ 0 →
      let l := s.lane n
      let st := if l.gen = 0 then s.somePattern n else prbsRun (s.fld (Reg.LN_TEST_CFG n) 27 24) (2 ^ s.fld (Reg.LN_INJ n) 4 0) l.gen
      exec (.periodicInjection n) s = .next ((s.setLane n { l with gen := st }).emit (.testError n (errorLevel l.rate st))).drawn) ∧
    (s.checking n = true → exec (.prbsSync n) s = .next (s.setLane n { s.lane n with sync := true })) ∧
    (∀ bits errors, s.checking n = true → (s.lane n).sync = true →
      let s1 := (s.bump64 (Reg.LN_PRBS_BITS_LO n) bits).bump64 (Reg.LN_PRBS_ERR_LO n) (min errors bits)
      exec (.prbsSyncLoss n bits errors) s =
        .next (((s1.setLane n { s1.lane n with sync := false }).bumpFld (Reg.LN_PRBS_STAT n) 15 0 1).laneEvent n 5)) ∧
    ((s.lane n).mode = .loopback → (s.lane n).loop = 3 →
      exec (.feSlip n) s = .next ((s.bumpFld (Reg.LN_LB_ERR n) 31 16 1).laneEvent n 7)))

/-! ## The stitch fabric -/

/-- STITCH_FRAME_RECEIVE, REPLAY_TIMEOUT, LANE_ADMIT, LANE_DROP and HELLO (R335, R336, R338 to R340, R349). A LANE_ADD names the
partner's index of a lane; a frame of a link that is UP is checked: one that fails its CRC or comes out of order is discarded,
counted and answered with NAK, one in order is delivered and acknowledged; frames not acknowledged go again; a READY lane whose
pair agrees joins the link and one that lost lock leaves it, a link that was the way to the root being tried anew when its last
lane has left; and a HELLO carries the module's serial number. The model's choices and readings it rests on: log entries 5, 7, 58,
63, 64, 71, 119. -/
def Obligations.StitchLinks : Prop :=
  (∀ (s : State) (k i : Nat) (f : StfFrame) (ok : Bool), s.clocked = true → k < 12 → s.bit (Reg.STF_PORT_CFG k) 31 = true →
    let o := s.offerStitch 3 k f (!ok)
    let m := (o.stfLanes k).1 + i
    (f.op = 0x36 → f.type = 2 → ok = true → i < (o.stfLanes k).2 → bitsOf f.arg2 2 0 < (o.stfLanes k).2 →
        (o.stfPort k).active.contains i = false →
      let o1 := o.setStfPort k { o.stfPort k with pairs := (o.stfPort k).pairs.filter (fun p => p.1 != i) ++ [(i, bitsOf f.arg2 2 0)] }
      ((o.lane m).mode ≠ .ready ∨ (o.lane m).owner ≠ .stitch k ∨ (o.stfPort k).pairs.contains (i, bitsOf f.arg2 2 0) = true →
        exec (.stitchFrameReceive k i f ok) s = .next o1) ∧
      ((o.lane m).mode = .ready → (o.lane m).owner = .stitch k → (o.stfPort k).pairs.contains (i, bitsOf f.arg2 2 0) = false →
        exec (.stitchFrameReceive k i f ok) s = .next (o1.sendLaneAdd k i))) ∧
    (f.op ≠ 0x36 → (o.stfPort k).isUp = true → exec (.stitchFrameReceive k i f ok) s = .next (o.receiveOn (.port k) f ok)) ∧
    (f.op ≠ 0x36 → (o.stfPort k).isUp = true → ok = false →
      let s1 := (o.setLinkEnd (.port k) { o.linkEnd (.port k) with nak := true }).bumpFld (Reg.STF_PORT_RETRY k) 31 16 1
      (s1.stf.dupId = false → exec (.stitchFrameReceive k i f ok) s =
        .next (((s1.transmit (.port k) ((s1.linkEnd (.port k)).answer s1.selfId none)).pumpChan (.port k)).flushMirror)) ∧
      (s1.stf.dupId = true → exec (.stitchFrameReceive k i f ok) s = .next (s1.pumpChan (.port k)).flushMirror))) ∧
  (∀ (s : State) (k : Nat), s.clocked = true → k < 12 → (s.stfPort k).isUp = true →
    ((s.stfPort k).link.held ≠ [] →
      ((s.resend (.port k)).stfPort k).link.resends < 8 → exec (.replayTimeout k) s = .next (s.resend (.port k))) ∧
    ((s.stfPort k).link.held ≠ [] →
      8 ≤ ((s.resend (.port k)).stfPort k).link.resends → exec (.replayTimeout k) s = .next ((s.resend (.port k)).stfLinkDown k)) ∧
    (s.greets = true → exec (.hello k) s = .next (s.stfSend (.port k)
      { type := 2, cls := 2, op := 0x30, src := s.selfId, arg := Config.serial, arg2 := BitVec.ofNat 32 (b2n s.stf.mapped + 2 * b2n s.stf.dupId) })) ∧
    (s.greets = false →
      exec (.hello k) s = .next (s.transmit (.port k) ((s.stfPort k).link.answer s.selfId none)))) ∧
  (∀ (s : State) (k i j : Nat), s.clocked = true → k < 12 →
      let x := s.stfPort k
      let n := (s.stfLanes k).1 + i
      x.pairs.find? (·.1 == i) = some (i, j) → (s.lane n).mode = .ready → (s.lane n).owner = .stitch k → x.dropping = [] →
      x.active.contains i = false → x.agrees (s.stfLanes k).2 i j = true →
    (x.active ≠ [] → exec (.laneAdmit k i) s = .next ((s.setStfPort k { x with active := insertNat i x.active }).laneUp n)) ∧
    (x.active = [] →
      let s1 := (s.setStfPort k { x with active := [i], reversed := j != i }).laneUp n
      exec (.laneAdmit k i) s = .next ((s1.sendHeld (.port k)).pumpChan (.port k)))) ∧
  (∀ (s : State) (c : StfChan), s.sendHeld c =
    ((s.linkEnd c).held.filter (s.mayCarry c)).foldl (fun t f => t.transmit c ((s.linkEnd c).stamp f)) s) ∧
  (∀ (s : State) (k : Nat), s.clocked = true → (s.stfPort k).dropping ≠ [] →
    let x := s.stfPort k
    let a := x.active.filter (fun i => !x.dropping.contains i)
    let s1 := (s.setStfPort k { x with active := a, dropping := x.dropping.filter (fun i => !x.dropping.contains i), peer := if a.isEmpty then none else x.peer }).raise Reg.STF_EVENT 1
    (a = [] → exec (.laneDrop k) s = .next (s1.linkLost k)) ∧ (a ≠ [] → exec (.laneDrop k) s = .next s1)) ∧
  (∀ (s : State) (k : Nat), s.stf.bestPort ≠ some k → s.linkLost k =
    (if s.sendJoin.parentPort.isNone && s.sendJoin.stf.root != some s.sendJoin.selfMember then s.sendJoin.timeUnlock else s.sendJoin).migPaths)

/-- R338, R339: the two ends of a link. A frame is delivered only when it is good and next in order, and then the order moves on
by one; a frame out of order asks for a resend. Whatever waits, a pump sends frames with rising sequence numbers, holds each until
it is acknowledged, never more than 1,024 of them, and spends for each class no more credit than there is. The model's choices and
readings it rests on: log entry 72. -/
def Obligations.LinkEndsKeepOrder : Prop :=
  (∀ (l : LinkEnd) (f : StfFrame) (ok : Bool), (l.receive f ok).deliver = true →
    ok = true ∧ (f.type = 1 ∨ f.type = 2) ∧ f.payload.length ≤ 8 ∧ f.seq = l.expect ∧
    (l.receive f ok).link.expect = (l.expect + 1) % 4096 ∧ (l.receive f ok).link.nak = false) ∧
  (∀ (l : LinkEnd) (f : StfFrame) (ok : Bool), (l.receive f ok).deliver = false → (l.receive f ok).link.expect = l.expect) ∧
  (∀ (l : LinkEnd) (f : StfFrame), f.type = 1 ∨ f.type = 2 → f.seq ≠ l.expect → f.payload.length ≤ 8 →
    (l.receive f true).discarded = true ∧ (l.receive f true).link.nak = true) ∧
  (∀ (l : LinkEnd) (fuel : Nat) (acc : List StfFrame), l.held.length ≤ 1024 →
    ∃ sent, (l.pump fuel acc).2 = acc ++ sent ∧ (l.pump fuel acc).1.held = l.held ++ sent ∧
      (l.pump fuel acc).1.held.length ≤ 1024 ∧
      (∀ i, i < sent.length → (sent.map (·.seq))[i]? = some ((l.nextSeq + i) % 4096) ∨ (i = 0 ∧ (sent.map (·.seq))[i]? = some l.nextSeq)) ∧
      ∀ cls, cls < 3 → (l.pump fuel acc).1.credit cls + ((sent.filter (fun f => f.cls == cls)).map stfUnits).sum = l.credit cls)

/-- STF_BIND, BIND_ITEM_SEND, BIND_EVENT_SEND, TSYNC_EXCHANGE, STF_BCAST (OP 1 and 2), BROADCAST_TIME, ELECT_SETTLE, MAP_FLOOD,
REGISTER, SYSTEM_ROOT_CHOICE, SYSMAP, GATEWAY_SILENT, COMMON, STF_MIGRATE and MIGRATION_SWITCH (R342 to R357): a binding is made
for a queue of this module and items and events leave through it; an exchange measures the link's delay; a broadcast names its
time and fires then; a root and a gateway are chosen, learnt and given up; a migration is accepted or refused and the carrier
switches. The model's choices and readings it rests on: log entries 5, 7, 9, 19, 35, 62, 63, 64, 65, 67, 68, 69, 70, 71, 91, 119.
-/
def Obligations.StitchServices : Prop :=
  (∀ (s : State) (d : Desc), s.clocked = true →
    let b := d.fld 0x10 11 0
    let src := d.fld 0x14 15 0
    (d.fld 0x10 31 30 = 1 ∨ d.fld 0x10 31 30 = 2 → (s.queue src).storable = true → (s.binding b).kind = 0 →
      exec (.stfBind d) s = .next (((((s.wr (Reg.STF_BIND_SENT b) 0).wr (Reg.STF_BIND_DROP b) 0).setQueue src
        ((s.queue src).releaseAll stREFUSED)).setBinding b
        { kind := d.fld 0x10 31 30, src := src, dst := d.fld 0x18 17 0, dstQid := d.fld 0x1C 15 0,
          inFlight := (s.binding b).inFlight, words := (s.binding b).words }).complete (d.ref false) stOK 0)) ∧
    (d.fld 0x10 31 30 = 1 ∨ d.fld 0x10 31 30 = 2 → (s.binding b).kind ≠ 0 →
      exec (.stfBind d) s = .next (s.complete (d.ref false) stREFUSED 0)) ∧
    (d.fld 0x10 31 30 ≠ 3 → (s.queue src).storable = false → exec (.stfBind d) s = .next (s.complete (d.ref false) stREFUSED 0)) ∧
    (d.fld 0x10 31 30 = 0 → (s.queue src).storable = true → (s.binding b).kind = 0 →
      exec (.stfBind d) s = .next ((s.setBinding b ({ s.binding b with kind := 0 } : Binding).settle).complete (d.ref false) stOK 0))) ∧
  (∀ (s s1 : State) (b : Nat) (i : QItem), s.clocked = true → (s.binding b).kind = 1 → (s.binding b).inFlight < 64 → s.fabricOn = true →
      s.readQueue (s.binding b).src (.stitch b) = (s1, .item i) →
      s.inMap (s.binding b).dst = false ∨ s.reachable (s.binding b).dst = true →
    let x := s.binding b
    (s1.inMap x.dst = false → exec (.bindItemSend b) s = .next (s1.bump Reg.STF_UNREACHABLE)) ∧
    (s1.inMap x.dst = true →
      let s2 := s1.bump (Reg.STF_BIND_SENT b)
      (x.dst ≠ s2.selfId → exec (.bindItemSend b) s =
        .next ((qitemFrames b x i).foldl State.stfSendTo (s2.setBinding b { x with inFlight := x.inFlight + 1 }))) ∧
      (x.dst = s2.selfId →
        let y := s2.pushItem x.dstQid (remoteProducer s2.selfId b) i.prio i.tag i.words
        (y.2 = stOK → exec (.bindItemSend b) s = .next y.1) ∧
        (y.2 ≠ stOK → exec (.bindItemSend b) s = .next ((y.1.bump (Reg.STF_BIND_DROP b)).raise Reg.STF_EVENT 9))))) ∧
  (∀ (s : State) (b : Nat) (w : QWord) (r : List QWord), s.clocked = true → s.fabricOn = true → (s.binding b).words = w :: r →
    exec (.bindEventSend b) s =
      .next (((s.setBinding b ({ s.binding b with words := r } : Binding).settle).bump (Reg.STF_BIND_SENT b)).sendEvent w)) ∧
  (∀ (s : State) (w : QWord),
    (bitsOf (qwWord w 0) 17 0 = s.selfId →
      s.sendEvent w = s.sendFlags .stitch (bitsOf (qwWord w 1) 16 0) (qwWord w 2)) ∧
    (bitsOf (qwWord w 0) 17 0 ≠ s.selfId → s.sendEvent w = s.stfSendTo {
      type := 1, cls := 2, dst := bitsOf (qwWord w 0) 17 0, op := 0x03, arg := BitVec.ofNat 64 (bitsOf (qwWord w 1) 16 0), arg2 := qwWord w 2 })) ∧
  (∀ (s : State) (k : Nat) (t1 t2 t3 t4 : Int), s.clocked = true → k < 12 → (s.stfPort k).isUp = true → (s.stfPort k).foreign = false →
      s.fabricOn = true →
    let s1 := (s.stfSend (.port k) (tsyncFrame s.selfId false (shortStampOf t1))).wr (Reg.STF_PORT_DELAY k) (BitVec.ofNat 32 (unsignedOf 32 (((t2 - t1) + (t4 - t3)) / 2)))
    (s1.parentPort ≠ some k → exec (.tsyncExchange k t1 t2 t3 t4) s = .next s1) ∧
    (s1.parentPort = some k → exec (.tsyncExchange k t1 t2 t3 t4) s = .next (s1.steer (((t2 - t1) - (t4 - t3)) / 2)))) ∧
  (∀ (s : State) (d : Desc) (trigger : Bool), s.clocked = true → 20 ≤ d.fld 0x10 16 0 → d.fld 0x10 16 0 ≤ 100000 →
    let t := s.tb.time16 + (d.fld 0x10 16 0 * 65536000 : Nat)
    let b : Broadcast := ⟨trigger, d.fld 0x10 18 17, t, shortStampOf t, s.selfId, if trigger then s.stf.trigSeq else s.stf.bcastSeq⟩
    let s1 : State := if trigger then { s with stf.trigSeq := (s.stf.trigSeq + 1) % 65536 }
      else { s with stf.bcastSeq := (s.stf.bcastSeq + 1) % 2 ^ 32 }
    let s2 := ({ s1 with stf.seen := s.stf.seen.filter (fun h => decide (s.tb.time16 < h.t + 65536000000000)) ++ [⟨trigger, s.selfId, b.seq, t⟩] }
      : State).takeBroadcast b
    exec (if trigger then .stfBcastTrigger d else .stfBcastFreeze d) s =
      .next (((s2.flood none b.frame).floodGateways b.frame).completeAt (d.ref false) stOK 0 false (shortStampOf t))) ∧
  (∀ (s : State) (b : Broadcast) (r : List Broadcast), s.clocked = true → s.stf.pending = b :: r → b.t ≤ s.tb.time16 →
    exec .broadcastTime s =
      .next (if b.trigger then ({ s with stf.pending := r } : State).settleOffers.fireLines [b.line] 3 0 0 else ({ s with stf.pending := r } : State).freezeNow 3 0)) ∧
  (∀ (s : State), s.clocked = true → s.fabricOn = true →
    (∀ m, s.stf.best = some m → s.stf.root = some (m % 512) →
      exec .electSettle s = .next ({ s with stf.settled := true } : State).sendJoin) ∧
    (∀ k m, s.stf.bestPort = some k → s.stf.settled = true → s.stf.root = some m → m ≠ s.selfMember →
      s.sendJoin = s.stfSend (.port k) s.joinFrame) ∧
    (s.stf.settled = true → s.stf.root = some s.selfMember →
      let l := s.treeEntries
      let gen := (s.stf.mapGen + 1) % 65536
      let t := s.installMap gen l
      exec .mapFlood s = .next ((payloads (l.length + 1) (mapEntryWords l)).foldl (fun t p => t.flood none
        { type := 2, cls := 2, op := 0x33, src := t.selfId, arg2 := BitVec.ofNat 32 (b2n t.stf.split * 2 ^ 16 + gen), payload := p }) t).repeatCommon) ∧
    (∀ p, s.isRoot = true → s.gatewayPort = some p →
      let e : GroupEntry := ⟨s.selfMember, s.tb.timeLocked, s.portMac p⟩
      exec .register s = .next ({ s with stf := { s.stf with
          registered := true, heard := mapSet (fun _ => none) s.stf.heard s.selfGroup (some e) } }.sendEth
        (s.fld Reg.STF_ETH_GROUP_HI 15 0 * 2 ^ 32 + (s.rd Reg.STF_ETH_GROUP_LO).toNat)
        { type := 2, cls := 2, op := 0x34, src := s.selfId, arg := BitVec.ofNat 64 e.mac, arg2 := BitVec.ofNat 32 (b2n e.locked) })) ∧
    (∀ g e r, s.isRoot = true → s.stf.registered = true → s.stf.heard = (g, some e) :: r →
      exec .systemRootChoice s = .next { s with stf := { s.stf with sysRoot := some (g * 512 + e.root) } }) ∧
    (s.isSystemRoot = true →
      let m := mapSet (fun _ => none) s.stf.heard s.selfGroup (some s.ownEntry)
      let s1 := { s with stf := { s.stf with
        sysMap := m, sysGen := if m != s.stf.sysMap then (s.stf.sysGen + 1) % 65536 else s.stf.sysGen,
        commonSent := s.stf.commonSent && m == s.stf.sysMap } }
      let s2 := if m != s.stf.sysMap then s1.raise Reg.STF_EVENT 4 else s1
      exec .sysmap s = .next (s2.sysmapFrames.foldl (fun s f => (s.flood none f).floodGateways f) s2).chooseCommon) ∧
    (∀ g, g ≠ s.selfGroup →
      exec (.gatewaySilent g) s = .next ({ s with stf := { s.stf with heard := mapErase s.stf.heard g } } : State).sysmap.migPaths)) ∧
  (∀ (s : State) (t : Int), s.clocked = true → s.stf.tcc = some (t, true) → t ≤ s.tb.time16 → s.stf.common = false →
    exec .common s = .next (({ s with stf := { s.stf with common := true } } : State).raise Reg.STF_EVENT 8)) ∧
  (∀ (s s1 : State) (d : Desc) (ok : Bool) (rs : List MigRegion), s.clocked = true → s.stf.common = true →
      let cid := carrierField d.carrier
      let dst := d.fld 0x10 17 0
      let dcar := d.fld 0x14 8 0
      carrierClamped d.carrier = false → cid ≠ 0xFFFF → d.fld 0x20 8 0 ≤ 256 → (d.w64 0x18).toNat % 64 = 0 → d.immediate = true →
    ((s.carrier cid).refusesWork = true → exec (.stfMigrate d ok) s = .next (s.complete (d.ref false) stDISABLED 0)) ∧
    ((s.carrier cid).refusesWork = false → (s.carrier cid).mode = .running → ok = false → dst ≠ s.selfId → exec (.stfMigrate d ok) s = .next (s.complete (d.ref false) stREFUSED 0)) ∧
    ((s.carrier cid).mode = .running → s.reachable dst = true → s.readList (d.fld 0x20 8 0) (d.w64 0x18).toNat [] false = (s1, some (rs, false)) →
        (ok = true ∧ dst ≠ s.selfId ∨ dst = s.selfId ∧ (s.carrier dcar).mode = .stopped) →
      let s2 := s1.sendMoulds dst dcar (s.carrier cid) rs
      let y := if dst = s.selfId then s2.copyLocal ((rs.map (·.len)).sum / 64 + 1) dst rs else s2.copyRegions dst [] rs
      exec (.stfMigrate d ok) s = .next { y.1 with stf.migrations := y.1.stf.migrations ++ [y.1.settleSlot
        { ref := d.ref false, carrier := cid, dst := dst, dstCarrier := dcar, slot := none, maxDefer := d.fld 0x20 31 24, regions := y.2 }] })) ∧
  (∀ (s : State) (cid : Nat) (m : Migration) (n : Int), s.clocked = true →
      s.stf.migrations.find? (fun m => m.carrier == cid && !m.switched && !m.completed) = some m → m.slot = some n →
      ((s.carrier cid).cfg.boundaryNs s.slt.originNs .dl n - (s.carrier cid).cfg.deckleNs) * uPerNs ≤ s.tb.timeU →
    let put := fun (s : State) (m' : Migration) => { s with stf.migrations := s.stf.migrations.map (fun x => if x = m then m' else x) }
    (m.inStep = true → (s.carrier cid).ul.armedElsewhere n = false → (s.carrier cid).dl.armedElsewhere n = false →
        (s.carrier cid).mode = .running →
      let s1 := (put s { m with switched := true }).armFabric cid n false true
      m.dst ≠ s1.selfId → exec (.migrationSwitch cid) s = .next (s1.stfSendTo {
        type := 1, cls := 2, dst := m.dst, op := 0x40, arg := BitVec.ofNat 64 m.dstCarrier, arg2 := stampOf (s.carrier cid).cfg.spf n }).flushMirror) ∧
    (m.inStep = false → m.deferred < m.maxDefer → exec (.migrationSwitch cid) s =
      .next (put s { m with slot := some (n + 1), deferred := m.deferred + 1 }).flushMirror) ∧
    (m.inStep = false → m.maxDefer ≤ m.deferred → exec (.migrationSwitch cid) s =
      .next (s.giveUp m stREFUSED).flushMirror)) ∧
  (∀ (s : State) (m : Migration) (st : Nat), m.dst ≠ (s.dropMigration m).selfId → s.giveUp m st = ((s.dropMigration m).stfSendTo
    { type := 1, cls := 2, dst := m.dst, op := 0x41, arg2 := BitVec.ofNat 32 m.dstCarrier }).complete m.ref st 0)

/-! ## Capture, memory, power -/

/-- VAT_ARM, VAT_TRIGGER, VAT_STOP, CAPTURE_RECORD, GAP_RECORD, TRIG_PIN_EDGE, TRIG_PULSE_END, SPILL_FRAME, SPILL_IDLE,
SPILL_PORT_ENABLE, CAP_HOSTBUF, HOSTBUF_CLOSE, CAP_PRESS_START, PRESS_RECORD and CAP_PRESS_STOP (R364 to R373, R375 to R378, R381,
R384, R385): the halves are armed, triggered and stopped, the records offered in one cycle are stored behind the last one where
their rules capture them and there is room, and reach the ring from staging as the Spine and the tokens allow; a line that fires
stamps itself and does what its register says, spilled bytes leave in order on the ports of their half or in the oldest host
buffer, and a Press channel waits for its anchor, replays its records and ends with its late frames. The model's choices and
readings it rests on: log entries 7, 20, 25, 35, 40, 54, 72, 73, 119. -/
def Obligations.CaptureAndReplay : Prop :=
  (∀ (s : State) (d : Desc), s.clocked = true → d.fld 0x10 1 0 ≠ 0 →
    let u := s.settleOffers
    ((∀ h ∈ (vatHalves d).1, u.vatFree h = true) →
      exec (.vatArm d) s = .next ((u.vatEvents ((vatHalves d).1.foldl State.vatArm u)).complete (d.ref false) stOK 0)) ∧
    (∀ h ∈ (vatHalves d).1, u.vatFree h = false → exec (.vatArm d) s = .next (u.complete (d.ref false) stREFUSED 0)) ∧
    exec (.vatTrigger d) s = .next ((u.vatSettle ((vatHalves d).1.foldl (fun s h => s.vatTrigger h ⟨s.tb.time16, 0, 4, 0, 0⟩) u)).complete
      (d.ref false) stOK ((vatHalves d).1.map (fun h => if (u.vat h).mode = .armed then 2 ^ h else 0)).sum) ∧
    (let v := u.vatSettle ((vatHalves d).1.foldl (fun s h => if (s.vat h).mode.capturing then s.vatDone h else s) u)
     let left := fun h => if (vatHalves d).1.contains h then (v.vat h).stagedBytes else 0
     exec (.vatStop d) s = .next (({ v with cap.stops := v.cap.stops ++ [(d.ref false, left 0, left 1)] } : State).endStops 0 0))) ∧
  (∀ (s t : State), (∀ h, h < 2 → (t.vat h).mode = (s.vat h).mode ∧ (t.vat h).waitHost = (s.vat h).waitHost) →
    s.vatEvents t = t) ∧
  (∀ (s t : State), (s.vat 0).mode = .armed → (t.vat 0).mode = .triggered → (t.vat 0).waitHost = (s.vat 0).waitHost →
      (t.vat 1).mode = (s.vat 1).mode → (t.vat 1).waitHost = (s.vat 1).waitHost →
    s.vatEvents t = t.raiseMask Reg.CAP_EVENT 2) ∧
  (∀ (s : State) (h : Nat) (x : TrigSeen), h < 2 → (s.vat h).mode = .stream → s.trigMerge h x = none → s.vatRoom h 48 = true →
    s.vatTrigger h x = ((s.setVat h { s.vat h with trigSeen := some x }).vatRecord h 0x10 (x.lines + x.cause * 2 ^ 4) reserveBytes
      (bytesOfNat 4 x.source ++ bytesOfNat 4 x.seq ++ bytesOfNat 8 0)).vatPost h) ∧
  (∀ (s : State) (h grant : Nat), s.clocked = true → h < 2 →
    exec (.captureRecord h grant) s = .next ((s.settleCycle.drainStaging h grant).hostFill h)) ∧
  (∀ (s : State), s.cap.offers = [] → s.settleCycle = s) ∧
  (∀ (s : State) (c : CapRec), s.cap.offers = [c] →
    let s0 : State := { s with cap.offers := [] }
    let ch := s0.capRoute c
    (ch.capture = true → (s0.vat ch.half).mode.capturing = true → ch.line = none →
      s.settleCycle = s0.vatSettle (s0.placeRecord c ch.half ch.snap).1) ∧
    (∀ n, ch.capture = true → (s0.vat ch.half).mode.capturing = true → ch.line = some n →
      let x := s0.placeRecord c ch.half ch.snap
      s.settleCycle = (s0.vatSettle x.1).fireLines [n] 1 (capSource c) x.2) ∧
    (∀ n, ch.capture = false → ch.line = some n → s.settleCycle = (s0.vatSettle s0).fireLines [n] 1 (capSource c) 0)) ∧
  (∀ (s : State) (c : CapRec) (h : Nat), h < 2 → (s.vat h).mode = .stream → (s.vat h).gap = none →
    let q := (s.vat h).nextSeq (capSource c)
    let s1 := s.setVat h q.2
    let d := oljBytes (capSource c) (2 * b2n c.bad + 4 * b2n c.window + 8 * b2n c.replayed + (if c.kind = 5 then c.prio % 8 * 2 ^ 5 else 0))
      c.type c.time q.1 c.slot c.carrier c.aux c.payload
    (s1.vatRoom h d.length = false ∨ s.fld Reg.CAP_VAT_BW 12 0 = 0 → s.placeRecord c h 0 = (s1.loseRecord h d.length c.time, q.1)) ∧
    (s1.vatRoom h d.length = true → s.fld Reg.CAP_VAT_BW 12 0 ≠ 0 → s.placeRecord c h 0 = (s1.vatWrite h d, q.1))) ∧
  (∀ (s : State) (h grant : Nat),
    let x := s.refill.vat h
    let n := min (min grant s.refill.tokenBytes) x.stagedBytes
    let t := (s.refill.setVat h { x with staged := (takeStaged n x.staged).2 }).spend n
    s.drainStaging h grant = ((takeStaged n x.staged).1.foldl (fun t p => (t.writeModule (vatRequester h) p.1 p.2).1) t).endStops h n) ∧
  (∀ (s : State) (h n bytes : Nat) (first : W64), s.clocked = true → (s.vat h).gap = some (n, bytes, first) → (s.vat h).mode.capturing = true →
      s.fld Reg.CAP_VAT_BW 12 0 ≠ 0 → s.ringRoom h reserveBytes = true → (s.vat h).stageRoom reserveBytes = true →
    exec (.gapRecord h) s = .next (s.vatSettle ((((s.setVat h { s.vat h with gap := none }).vatRecord h 0x11 0 48
      (bytesOfNat 4 n ++ bytesOfNat 4 0 ++ bytesOfNat 8 bytes ++ bytesOfNat 8 first.toNat)).raise Reg.CAP_EVENT 0).vatPost h))) ∧
  (∀ (s : State) (n : Nat), s.clocked = true → n < 4 →
    (s.bit (Reg.CAP_TRIG_CFG n) 31 = false → ∀ rising, s.bit (Reg.CAP_TRIG_CFG n) 30 = !rising →
      exec (.trigPinEdge n rising) s = .next (s.settleOffers.fireLines [n] 2 0 0)) ∧
    exec (.trigPulseEnd n) s = .next { s with cap.pulses := s.cap.pulses.filter (· != n) } ∧
    (∀ cause source seq, s.bit (Reg.CAP_TRIG_CFG n) 0 = false → s.fireLines [n] cause source seq = s.freezeAtDone) ∧
    (∀ cause source seq, s.bit (Reg.CAP_TRIG_CFG n) 0 = true → s.bit (Reg.CAP_TRIG_CFG n) 1 = false → s.bit (Reg.CAP_TRIG_CFG n) 3 = false →
      s.fireLines [n] cause source seq = (s.lineActs n cause).freezeAtDone) ∧
    (∀ cause,
      let s1 := (s.wr (Reg.CAP_TRIG_STAMP_LO n) (s.stampNow.setWidth 32)).wr (Reg.CAP_TRIG_STAMP_HI n) ((s.stampNow >>> 32).setWidth 32)
      s1.bit (Reg.CAP_TRIG_CFG n) 31 = false → s1.bit (Reg.CAP_TRIG_CFG n) 4 = false → (s1.pressLine n).bit (Reg.CAP_TRIG_CFG n) 2 = false →
      s.lineActs n cause = s1.pressLine n)) ∧
  (∀ (s : State) (h k : Nat), s.clocked = true → h < 2 → s.refill.nextSpillPort h = some k → (s.refill.vat h).mode = .stream →
      s.refill.vatSpill h = 1 →
    let u := s.refill
    let room := u.fld (Reg.CAP_SPILL_CFG k) 13 0 - 34
    let n := min room (u.spillReady h)
    let y := u.spillTake h n
    let z := y.1.nextFrameSeq h
    let f := withFcs (padTo 60 (ethHeader ((u.rd Reg.CAP_SPILL_DST_LO).toNat + u.fld Reg.CAP_SPILL_DST_HI 15 0 * 2 ^ 32) (u.portMac (4 * k)) none
      (u.fld Reg.CAP_SPILL_ETYPE 15 0) ++ spillHeader h (u.vat h).frameSeq y.2.2 n ++ y.2.1))
    let out := (((z.setVat h { z.vat h with lastPort := k }).bump64 (Reg.CAP_SPILL_FRAMES_LO k) 1).emit (.spill k f)).spillDrained h
    (0 < n → n ≤ u.tokenBytes → n = room → exec (.spillFrame h) s = .next out) ∧
    (0 < n → n ≤ u.tokenBytes → exec (.spillIdle h) s = .next out) ∧ (n < room → exec (.spillFrame h) s = .next u) ∧
    (u.tokenBytes < n → exec (.spillFrame h) s = .next u ∧ exec (.spillIdle h) s = .next u)) ∧
  (∀ (s : State) (k : Nat) (v : W32), k < 24 → s.hostOpen (Reg.CAP_SPILL_CFG k) →
    (s.vatFree (k / 12) = false → exec (.spillPortEnable k v) s = .next (s.clampAt Reg.CAP_CLAMP_COUNT)) ∧
    (s.vatFree (k / 12) = true → exec (.spillPortEnable k v) s = .next (s.writeSpillCfg k v))) ∧
  (∀ (s : State) (d : Desc), s.clocked = true →
    let h := d.fld 0x10 31 31
    let l := d.fld 0x14 31 0
    l % 4096 = 0 → 65536 ≤ l → l ≤ 2 ^ 28 → (d.w64 0x18).toNat % 4096 = 0 →
    ((s.vat h).bufs.length < 1024 → exec (.capHostbuf d) s = .next (((s.setVat h { s.vat h with
      bufs := (s.vat h).bufs ++ [({ ref := d.ref false, fn := s.descFn d, len := l, addr := d.w64 0x18 } : SpillBuf)] }).settleSpill h).hostFill h)) ∧
    (1024 ≤ (s.vat h).bufs.length → exec (.capHostbuf d) s = .next (s.complete (d.ref false) stREFUSED 0))) ∧
  (∀ (s : State) (h : Nat) (idle : Bool) (b : SpillBuf) (r : List SpillBuf), s.clocked = true → h < 2 → ((s.hostFill h).vat h).bufs = b :: r →
      0 < b.fill →
    let u := s.hostFill h
    let w := u.hostWrite ⟨b.fn, 0, b.ref.ring, b.ref.tag, b.addr, spillHeader h (u.vat h).frameSeq b.first b.fill, 0⟩
    let closed := ((((w.setVat h { w.vat h with bufs := r }).nextFrameSeq h).complete b.ref stOK ((u.vat h).frameSeq % 65536)).spillDrained h)
    (b.fill = b.len - 16 ∨ idle = true ∨ (u.vat h).mode = .done ∧ (u.vat h).spilled = (u.vat h).wpos →
      exec (.hostbufClose h idle) s = .next (closed.hostFill h)) ∧
    (b.fill ≠ b.len - 16 → idle = false → (u.vat h).mode ≠ .done → exec (.hostbufClose h idle) s = .next u)) ∧
  (∀ (s : State) (d : Desc), s.clocked = true →
    let c := d.fld 0x10 3 0
    d.carrier = 0xFFFF → d.fld 0x10 4 4 = 0 → (d.w64 0x18).toNat % 8 = 0 → (d.w64 0x18).toNat + (d.w64 0x20).toNat ≤ memSize →
      0 < d.fld 0x28 23 0 → carrierClamped d.carrier = false →
    ((s.chanP c).mode ≠ .idle → exec (.capPressStart d) s = .next (s.complete (d.ref false) stREFUSED 0)) ∧
    ((s.chanP c).mode = .idle → d.immediate = true → d.fld 0x10 7 7 = 0 →
      exec (.capPressStart d) s = .next (s.setChanP c { mode := .wait, ref := some (d.ref false), carrier := none,
                                                        anchor := some (s.firstAnchor none (s.tb.time16 + s.pressLead16)), line := none,
                                                        rewrite := d.fld 0x10 6 6 = 1, timeFirst := d.fld 0x10 5 5 = 1, buffer := false,
                                                        loops := d.fld 0x14 31 0, addr := (d.w64 0x18).toNat,
                                                        length := (d.w64 0x20).toNat, period := d.fld 0x28 23 0, shifted := false }))) ∧
  (∀ (s : State) (d : Desc), s.clocked = true →
    ((s.chanP (d.fld 0x10 3 0)).mode = .idle → exec (.capPressStop d) s = .next (s.completeAt (d.ref false) stOK 0 true s.stampNow)) ∧
    ((s.chanP (d.fld 0x10 3 0)).mode ≠ .idle →
      exec (.capPressStop d) s = .next ((s.pressEnd (d.fld 0x10 3 0) stABORTED).complete (d.ref false) stOK 0))) ∧
  (∀ (s : State) (c : Nat) (a n : Int), s.clocked = true → (s.chanP c).anchor = some (a, n) → (s.chanP c).mode ≠ .idle →
      a + (s.chanP c).iter * s.pressPeriod (s.chanP c) ≤ s.tb.time16 →
    exec (.pressRecord c) s =
      .next ((s.setChanP c { s.chanP c with mode := .run }).pressWalk c a ((s.chanP c).length / 32 + 3))) ∧
  (∀ (s : State) (c : Nat) (anchor : Int), (s.chanP c).pos = (s.chanP c).length → (s.pressOne c anchor) = (s.pressIteration c, false)) ∧
  (∀ (s : State) (c : Nat), ((s.chanP c).loops = 0 ∨ (s.chanP c).iter + 1 < (s.chanP c).loops →
      s.pressIteration c = s.setChanP c { s.chanP c with iter := (s.chanP c).iter + 1, pos := 0 }) ∧
    ((s.chanP c).loops ≠ 0 → (s.chanP c).loops ≤ (s.chanP c).iter + 1 → s.cap.outq.any (·.chan == c) = true → s.pressIteration c = s) ∧
    ((s.chanP c).loops ≠ 0 → (s.chanP c).loops ≤ (s.chanP c).iter + 1 → s.cap.outq.any (·.chan == c) = false →
      s.pressIteration c = (s.setChanP c { s.chanP c with iter := (s.chanP c).iter + 1 }).pressEnd c stOK))

/-- MEM_FILL, FILL_DONE, CHANNEL_ACCESS, BAR4_ACCESS, PATROL_SCRUB, CHANNEL_RETRAIN, RETRAIN_RETRY, MR4_READ, BANK_REFRESH,
ECC_INJECT, UE_ADDR_REARM, MEM_INIT_DONE and QUIRE_EXTERNAL_ACCESS (R165, R391 to R400): a fill waits and then holds its pattern;
an access reads and writes what the map gives it; one symbol in error is corrected, written back and counted, and more than one is
an uncorrectable error that latches its address where the latch is free; a scrub passes over one word; a retraining runs, is
counted when it ends and is tried again where it failed; a change of the temperature code retrains; and memory is ready once it is
initialised. The model's choices and readings it rests on: log entries 4, 7, 25, 74, 75, 76, 79, 83, 87. -/
def Obligations.ModuleMemoryCommands : Prop :=
  (∀ (s : State) (d : Desc), s.clocked = true → (fillFields d).2.2 = false →
    ((fillFields d).2.1 = 0 → exec (.memFill d) s = .next (s.complete (d.ref false) stOK 0)) ∧
    ((fillFields d).2.1 ≠ 0 → s.glb.memReady = false → exec (.memFill d) s = .next (s.complete (d.ref false) stBAD 0)) ∧
    ((fillFields d).2.1 ≠ 0 → s.glb.memReady = true → exec (.memFill d) s = .next { s with mm.fills := s.mm.fills ++
      [({ ref := d.ref false, addr := (fillFields d).1, words := (fillFields d).2.1 / 64, pattern := d.w64 0x20 } : Fill)] })) ∧
  (∀ (s : State) (ring : Nat) (tag : W32) (f : Fill), s.clocked = true →
      s.mm.fills.find? (fun f => f.ref.ring == ring && f.ref.tag == tag) = some f →
    exec (.fillDone ring tag) s = .next (({ s with mm.fills := s.mm.fills.erase f }.fillAll f).complete f.ref stOK 0)) ∧
  (∀ (s : State) (a : Nat) (data : List Byte) (n req : Nat), s.clocked = true →
    (a < memSize →
      (let x := s.writeModule req a data
       exec (.channelAccess a true data n req) s = .next { x.1 with bus := (x.2, []) }) ∧
      (let x := s.readModule req a n
       exec (.channelAccess a false data n req) s = .next { x.1 with bus := (x.2.isSome, x.2.getD []) })) ∧
    (quireBase ≤ a → a < quireBase + 0x18000000 →
      exec (.quireExternalAccess a true data n) s =
        .next { (s.writeModule 143 a data).1 with bus := ((s.writeModule 143 a data).2, []) } ∧
      exec (.quireExternalAccess a false data n) s =
        .next { (s.readModule 143 a n).1 with bus := ((s.readModule 143 a n).2.isSome, (s.readModule 143 a n).2.getD []) })) ∧
  (∀ (s : State) (o n : Nat) (data : List Byte), s.clocked = true → o < 2 ^ 32 →
    let a := s.fld Reg.MEM_WIN_BASE 18 0 * 2 ^ 20 + o
    (s.glb.frozen = false → (s.fnOf 0).flr = false → s.glb.coreReady = true →
      (data.length ≤ 512 →
        let x := s.writeModule hostRequester a data
        exec (.bar4Access o true data n) s = .next { x.1 with bus := (x.2, []), mm := { x.1.mm with poisoned := false } }) ∧
      (n ≤ 4096 →
        let x := s.readModule hostRequester a n
        exec (.bar4Access o false data n) s = .next (({ x.1 with bus := (x.2.isSome, x.2.getD []) } : State).notePoison a n))) ∧
    (n ≤ 4096 → (s.fnOf 0).flr = true → exec (.bar4Access o false data n) s =
      .next { s with bus := (false, []), mm := { s.mm with poisoned := false } })) ∧
  (∀ (s : State) (o n : Nat) (data : List Byte), s.glb.frozen = true → s.rst.power = .on → s.pwr.asleep = false → s.rst.warmHeld = false →
      o < 2 ^ 32 → n ≤ 4096 →
    exec (.bar4Access o false data n) s = .next { s with bus := (false, []), mm := { s.mm with poisoned := false } }) ∧
  (∀ (s : State) (requester a : Nat),
    let l := locate s.mm.mapActive a
    let p := devicePlace s.mm.mapActive a
    (s.errorMarks p = 0 → s.checkWord requester a = (s, true)) ∧
    (s.errorMarks p = 1 →
      let t := (s.setMarks p 0).bump (Reg.MEM_CH_CE l.1)
      s.checkWord requester a = (if (t.rd (Reg.MEM_CH_CE l.1)).toNat % 2 ^ t.fld Reg.MEM_CFG 7 4 = 0 then t.raise Reg.MEM_EVENT 1 else t, true)) ∧
    (2 ≤ s.errorMarks p →
      let t := (s.bump (Reg.MEM_CH_UE l.1)).raise Reg.MEM_EVENT 0
      let entry := BitVec.ofNat 128 (l.1 + l.2 * 2 ^ 8 + requester * 2 ^ 48)
      let w := a / 64 * 64
      (t.bit Reg.MEM_UE_ADDR_HI 31 = true → s.checkWord requester a = (t.log 0x05 2 entry, false)) ∧
      (t.bit Reg.MEM_UE_ADDR_HI 31 = false → s.checkWord requester a =
        (((t.wr Reg.MEM_UE_ADDR_LO (BitVec.ofNat 32 w)).wr Reg.MEM_UE_ADDR_HI (BitVec.ofNat 32 (2 ^ 31 + w / 2 ^ 32))).log 0x05 2 entry,
         false)))) ∧
  (∀ (s : State) (c : Nat), s.clocked = true → c < 16 → s.glb.memReady = true →
    (∀ s1, s.fld Reg.MEM_CFG 23 16 ≠ 0 → s.requestActivity (.scrub c) = (s1, true) →
      s1.errorMarks (c * 2 ^ 35 + s1.fld (Reg.MEM_CH_SCRUB c) 28 0 * 64) = 0 →
      exec (.patrolScrub c) s =
        .next ((s1.setFld (Reg.MEM_CH_SCRUB c) 28 0 ((s1.fld (Reg.MEM_CH_SCRUB c) 28 0 + 1) % 2 ^ 29)).endActivity (.scrub c))) ∧
    (∀ s1, s.fld Reg.MEM_CFG 23 16 ≠ 0 → s.requestActivity (.scrub c) = (s1, false) → exec (.patrolScrub c) s = .next s1) ∧
    (s.fld Reg.MEM_CFG 15 8 ≠ 0 → exec (.channelRetrain c none) s = .next (s.requestActivity (.retrain c)).1) ∧
    (s.fld Reg.MEM_CFG 15 8 = 0 → exec (.channelRetrain c none) s = .next s) ∧
    (s.activityRuns (.retrain c) = true →
      let s1 := (s.endActivity (.retrain c)).bumpFld (Reg.MEM_CH_TRAIN c) 15 0 1
      exec (.channelRetrain c (some true)) s = .next s1 ∧
      (let s2 := s1.bumpFld (Reg.MEM_CH_TRAIN c) 31 16 1
       exec (.channelRetrain c (some false)) s = .next ((s2.setMemChan c { s1.memChan c with retryDue := true }).raise Reg.MEM_EVENT 3))) ∧
    ((s.memChan c).retryDue = true → exec (.retrainRetry c) s =
      .next ((s.setMemChan c { s.memChan c with retryDue := false }).requestActivity (.retrain c)).1) ∧
    (∀ temp, temp ≤ 4 →
      let s1 := s.setMemChan c { s.memChan c with temp := temp }
      let s2 := if temp = 4 then s1.raise Reg.MEM_EVENT 2 else s1
      ((s.memChan c).temp = temp → exec (.mr4Read c temp) s = .next s2) ∧
      ((s.memChan c).temp ≠ temp → exec (.mr4Read c temp) s = .next (s2.requestActivity (.retrain c)).1)) ∧
    (∀ b, exec (.bankRefresh c b) s = .next s)) ∧
  (∀ (s : State) (c : Nat) (ok : Bool), s.clocked = true → c < 16 → s.glb.memReady = false →
    exec (.channelRetrain c none) s = .next s ∧ exec (.channelRetrain c (some ok)) s = .next (s.resetTrain c ok)) ∧
  (∀ (s : State) (v : W32), s.hostOpen Reg.MEM_INJ_CMD →
    let s1 := (s.writeTable Reg.MEM_INJ_CMD v).wr Reg.MEM_INJ_CMD 0
    let p := devicePlace s1.mm.mapActive (s1.fld Reg.MEM_INJ_HI 6 0 * 2 ^ 32 + (s1.rd Reg.MEM_INJ_LO).toNat)
    (bitsOf v 1 0 = 0 → exec (.eccInject v) s = .next s1) ∧
    (bitsOf v 1 0 = 1 → exec (.eccInject v) s = .next (s1.setMarks p (min 80 (s1.errorMarks p + 1)))) ∧
    (2 ≤ bitsOf v 1 0 → exec (.eccInject v) s = .next (s1.setMarks p (min 80 (s1.errorMarks p + 2))))) ∧
  (∀ (s : State) (v : W32), s.hostOpen Reg.MEM_UE_ADDR_HI →
    exec (.ueAddrRearm v) s = .next (s.writeTable Reg.MEM_UE_ADDR_HI v)) ∧
  (∀ (s : State), s.clocked = true → s.glb.coreReady = true → s.glb.memReady = false → s.rst.coldMem = true →
    exec .memInitDone s = .next { s with
      glb.memReady := true, mem := s.mem.filter (fun p => decide (memSize ≤ p.1)), rst.coldMem := false,
      mm := { s.mm with initBusy := false, marks := [], chans := (List.range 16).foldl (fun m c => mapSet (fun _ => {}) m c
        { mapGet (fun _ => ({} : MemChan)) m c with trained := true, selfRefresh := false }) s.mm.chans } })

/-- R388, R389: each of the three maps sends the addresses of module memory to the device places one to one: two addresses that
lie at one place are the same address, every place lies below 2^39, and the bytes of a 64-byte word stay together in one channel.
-/
def Obligations.AddressMapsAreOneToOne : Prop :=
  ∀ map a, map < 3 → a < memSize →
    (locate map a).1 < 16 ∧ (locate map a).2 < 2 ^ 35 ∧ devicePlace map a < memSize ∧
    spineOf map (locate map a).1 (locate map a).2 = a ∧
    (∀ b, b < memSize → devicePlace map a = devicePlace map b → a = b) ∧
    devicePlace map a = devicePlace map (a / 64 * 64) + a % 64

/-- REQUEST_NAP, REQUEST_DOZE, REQUEST_RUN, AUTO_NAP, NAP_WAKE, HANDSHAKE_ANSWER, HANDSHAKE_DELAY_LIMIT, DOZE_ENTRY_DONE,
EXIT_DONE and HIBERNATE_ENTER (R401, R403 to R411, R415, R418): a request starts the entry handshake of a running cluster, wakes a
napping one and exits a dozing one, and waits where a transition runs; one REFUSE aborts an entry; the last ACCEPT gates the clock
or sets the clamps; an exit restores what retention kept, releases the isolation and leaves the cluster in Run; and Hibernate is
entered once every block has accepted. The model's choices and readings it rests on: log entries 4, 7, 22, 61, 77, 78, 79, 120. -/
def Obligations.ClusterPower : Prop :=
  (∀ (s : State) (d : Nat) (v : W32), d < clusterCount → s.hostOpen (Reg.PWR_CL_CTRL d) →
    let w := if d < 24 then v else setBitsOf v 27 24 0
    let s1 := s.writeContext (Reg.PWR_CL_CTRL d) v w
    ∀ req c, (req = 1 ∧ c = Instr.requestNap d v ∨ req = 2 ∧ c = Instr.requestDoze d v ∨ req = 0 ∧ c = Instr.requestRun d v) →
      reqOf v = req → s1.fld (Reg.PWR_CL_CTRL d) 31 30 = req →
    ((s1.cluster d).mode = .run → req ≠ 0 → exec c s = .next (s1.setCluster d { s1.cluster d with
      mode := .entering, toDoze := req == 2, accepted := [], wakeSeen := false, request := none,
      retSave := s1.bit (Reg.PWR_CL_CTRL d) 28, retBanks := s1.fld (Reg.PWR_CL_CTRL d) 27 24 })) ∧
    ((s1.cluster d).mode = .nap → req = 0 → exec c s = .next (s1.setCluster d { s1.cluster d with mode := .run })) ∧
    ((s1.cluster d).mode = .doze → req = 0 → exec c s = .next (s1.setCluster d { s1.cluster d with mode := .exiting, request := none })) ∧
    ((s1.cluster d).mode = .entering → req ≠ 0 → exec c s = .next (s1.setCluster d { s1.cluster d with request := some req })) ∧
    ((s1.cluster d).mode = .entering → req = 0 →
      exec c s = .next (s1.setCluster d { s1.cluster d with wakeSeen := true, request := none })) ∧
    ((s1.cluster d).mode = .exiting → exec c s = .next (s1.setCluster d { s1.cluster d with request := if req = 0 then none else some req })) ∧
    ((s1.cluster d).mode = .run ∧ req = 0 ∨ (s1.cluster d).mode = .nap ∧ req = 1 → exec c s = .next s1)) ∧
  (∀ (s : State) (d : Nat), s.clocked = true → d < clusterCount →
    (s.bit (Reg.PWR_CL_CTRL d) 29 = true → (s.cluster d).mode = .run → exec (.autoNap d) s = .next (s.startEntry d false)) ∧
    ((s.cluster d).mode = .nap → exec (.napWake d) s = .next (s.setCluster d { s.cluster d with mode := .run })) ∧
    ((s.cluster d).mode = .entering → (s.cluster d).toDoze = false →
      exec (.napWake d) s = .next (s.setCluster d { s.cluster d with wakeSeen := true }))) ∧
  (∀ (s : State) (d unit : Nat), s.clocked = true → d < clusterCount → (s.cluster d).mode = .entering → (s.cluster d).isolated = false →
      unit < clusterUnits d →
    let c := s.cluster d
    let refused := ((((s.setCluster d { c with mode := .run, accepted := [], wakeSeen := false, last := 2, refuser := unit }).bumpFld
      (Reg.PWR_CL_COUNT d) 15 8 1).raise Reg.PWR_EVENT 0).clusterAnswered d 1 stREFUSED).applyRequest d
    (s.unitRefuses d unit = true → exec (.handshakeAnswer false d unit) s = .next refused) ∧
    (s.unitDelays d unit = true → exec (.handshakeDelayLimit false d unit) s = .next refused) ∧
    (s.unitRefuses d unit = false →
      let u := s.askUnit d unit
      let c := u.cluster d
      let s1 := u.setCluster d { c with accepted := c.accepted ++ [unit] }
      (u.unitDelays d unit = true → exec (.handshakeAnswer false d unit) s = .next u) ∧
      (u.unitDelays d unit = false → unit ∉ c.accepted →
        (c.accepted.length + 1 < clusterUnits d → exec (.handshakeAnswer false d unit) s = .next s1) ∧
        (clusterUnits d ≤ c.accepted.length + 1 → c.toDoze = true → exec (.handshakeAnswer false d unit) s = .next (s1.setClamps d)) ∧
        (clusterUnits d ≤ c.accepted.length + 1 → c.toDoze = false → exec (.handshakeAnswer false d unit) s = .next (s1.napDone d))))) ∧
  (∀ (s : State) (d : Nat), d < clusterCount → (s.cluster d).mode = .entering → (s.cluster d).isolated = true →
    ((s.cluster d).wakeSeen = false → exec (.dozeEntryDone d) s =
      .next ((((s.setCluster d { s.cluster d with mode := .doze, accepted := [], last := 1, wakeSeen := false }).bumpFld
        (Reg.PWR_CL_COUNT d) 31 16 1).clusterAnswered d 1 stOK).applyRequest d)) ∧
    ((s.cluster d).wakeSeen = true → exec (.dozeEntryDone d) s =
      .next ((((s.setCluster d { s.cluster d with mode := .exiting, accepted := [], last := 3, wakeSeen := false }).bumpFld
        (Reg.PWR_CL_COUNT d) 31 16 1).clusterAnswered d 1 stOK).noteWakeInEntry d))) ∧
  (∀ (s : State) (d : Nat), 24 ≤ d → d < clusterCount → (s.cluster d).mode = .exiting → (s.cluster d).request = none →
    let s1 := s.restoreCluster d (s.cluster d).retSave (s.cluster d).retBanks
    let s2 := ((((s1.setCluster d { s1.cluster d with mode := .run, isolated := false }).setPresent (clusterRequester d) true).trainOwned d).raise
      Reg.PWR_EVENT 1).clusterAnswered d 3 stOK
    exec (.exitDone d) s = .next (if (s2.cluster d).request.isNone then s2.clusterAnswered d 1 stABORTED else s2.applyRequest d)) ∧
  (∀ (s : State) (q : Nat), q < 24 → (s.cluster q).mode = .exiting →
    let s1 := s.restoreCluster q (s.cluster q).retSave (s.cluster q).retBanks
    let s2 := (((((s1.setCluster q { s1.cluster q with mode := .run, isolated := false }).quirePresent q false).refetch q).raise
      Reg.PWR_EVENT 1).clusterAnswered q 3 stOK)
    exec (.exitDone q) s = .next (if (s2.cluster q).request.isNone then s2.clusterAnswered q 1 stABORTED else s2.applyRequest q)) ∧
  (∀ (s : State) (v : W32), s.hostOpen Reg.PWR_HIB_CTRL → bitOf v 31 = true →
    (bitsOf v 3 0 = 0 →
      exec (.hibernateEnter v) s = .next ((s.writeContext Reg.PWR_HIB_CTRL v (setBitsOf v 31 31 0)).setBit Reg.PWR_HIB_CTRL 31 false)) ∧
    (bitsOf v 3 0 ≠ 0 →
      let s1 := (s.writeContext Reg.PWR_HIB_CTRL v v).setBit Reg.PWR_HIB_CTRL 31 false
      s1.pwr.hibBusy = false → s1.pwr.asleep = false →
        exec (.hibernateEnter v) s = .next { s1 with pwr := { s1.pwr with hibBusy := true, hibAccepted := [], wakeSeen := 0 } })) ∧
  (∀ (s : State) (b n : Nat), s.clocked = true → s.pwr.hibBusy = true → s.pwr.asleep = false → b ∈ hibBlocks →
    (s.hibRefuses b = true → exec (.handshakeAnswer true n b) s = .next ((({ s with
      pwr := { s.pwr with hibBusy := false, hibAccepted := [], wakeSeen := 0, lastHib := 2, hibRefuser := b } } : State).raise
        Reg.PWR_EVENT 0).answerPower (fun r => r.op == 2) stREFUSED)) ∧
    (s.hibRefuses b = false →
      let u := if 16 ≤ b then s.askUnit (b - 16) 8 else s
      (u.hibDelays b = true → exec (.handshakeAnswer true n b) s = .next u) ∧
      (u.hibDelays b = false → b ∉ u.pwr.hibAccepted → u.pwr.hibAccepted.length + 1 < hibBlocks.length →
        exec (.handshakeAnswer true n b) s = .next { u with pwr.hibAccepted := u.pwr.hibAccepted ++ [b] }) ∧
      (u.hibDelays b = false → b ∉ u.pwr.hibAccepted → hibBlocks.length ≤ u.pwr.hibAccepted.length + 1 →
        exec (.handshakeAnswer true n b) s = .next ({ u with pwr.hibAccepted := u.pwr.hibAccepted ++ [b] } : State).enterHibernate))) ∧
  (∀ s : State, s.enterHibernate.pwr.asleep = true ∧ s.enterHibernate.pwr.hibBusy = false ∧ s.enterHibernate.glb.coreReady = false ∧
    s.enterHibernate.glb.memReady = false ∧ s.enterHibernate.clocked = false ∧
    (∀ c, c < 16 → (s.enterHibernate.memChan c).selfRefresh = true ∧ (s.enterHibernate.memChan c).trained = false))

/-! ## Colophon and resets -/

/-- GET_INFO, READ_SENSORS, GET_LOG, UPDATE_BEGIN, UPDATE_DATA, UPDATE_COMMIT, UPDATE_ACTIVATE, UPDATE_CONFIRM, UPDATE_ABORT,
SESSION_TIMEOUT, WRITE_RECORD, UNKNOWN_OPCODE and ARP_AND_ICMP_ECHO (R419 to R422, R428 to R430): a message that is due is
answered with the status its rule gives; an update session belongs to one transport, an image is VALID only when it is whole,
genuine and not rolled back, at most one slot is tried, and confirming it raises the fused SVN. The model's choices and readings
it rests on: log entries 5, 63, 80, 81, 82, 83, 84. -/
def Obligations.SerhamMessages : Prop :=
  (∀ (s : State) (tr seq : Nat),
    (s.msgDue tr seq 0x01 = true →
      exec (.getInfo tr seq) s = .next (s.respond tr seq 0x01 stOK (s.lengthClamped tr) s.infoPayload)) ∧
    (s.msgDue tr seq 0x02 = true →
      exec (.readSensors tr seq) s = .next (s.respond tr seq 0x02 stOK (s.lengthClamped tr) s.sensorPayload)) ∧
    (∀ first count, s.msgDue tr seq 0x03 = true → 1 ≤ count → count ≤ 7 → exec (.getLog tr seq first count) s =
      .next (s.respond tr seq 0x03 stOK (s.lengthClamped tr)
        ((((s.col.flashLog ++ s.col.mram).filter (fun e => decide (first.toNat ≤ e.seq))).take count).flatMap LogEntry.bytes))) ∧
    (∀ op, op ∉ knownOps → op < 256 → s.msgDue tr seq op = true →
      exec (.unknownOpcode tr seq op) s = .next (s.respond tr seq op stREFUSED (s.lengthClamped tr) []))) ∧
  (∀ (s : State) (tr seq : Nat), s.glb.frozen = true → s.msgDue tr seq 0x10 = true → ∀ slot length,
    exec (.updateBegin tr seq slot length) s = .next (s.respond tr seq 0x10 stREFUSED (s.lengthClamped tr) [])) ∧
  (∀ (s : State) (tr seq : Nat), s.glb.frozen = false →
    (∀ slot length, s.msgDue tr seq 0x10 = true →
      (s.col.session.isSome = true → exec (.updateBegin tr seq slot length) s = .next (s.answer tr seq 0x10 stBUSY false)) ∧
      (s.col.session = none → slot ≤ 1 → length ≤ imageMax → slot ≠ s.col.running → exec (.updateBegin tr seq slot length) s =
        .next (((s.setSlot slot {}).setSession (some ⟨tr, slot, length⟩)).answer tr seq 0x10 stOK false)) ∧
      (s.col.session = none → s.col.recovery = false → slot = s.col.running →
        exec (.updateBegin tr seq slot length) s = .next (s.answer tr seq 0x10 stREFUSED false))) ∧
    (∀ x off data s1, s.msgDue tr seq 0x11 = true → s.col.session = some x → x.transport = tr → data.length ≤ payloadLimit tr - 4 →
        off + data.length ≤ imageMax → s.requestActivity .flashWrite = (s1, true) →
      exec (.updateData tr seq off data) s = .next ((((s1.setSlot x.slot { s1.slotOf x.slot with
        data := insertChunk (s1.slotOf x.slot).data off data }).answer tr seq 0x11 stOK false).endActivity .flashWrite).releaseMsg (tr, seq, 0x11))) ∧
    (∀ x genuine version svn, s.msgDue tr seq 0x12 = true → s.col.session = some x → x.transport = tr →
      let good := genuine = true ∧ x.length ≤ coverage (s.slotOf x.slot).data
      (good → s.col.fusedSvn ≤ svn → svn ≤ 64 → exec (.updateCommit tr seq genuine version svn) s =
        .next ((((s.setSlot x.slot { s.slotOf x.slot with mode := .valid, version := version, svn := svn, genuine := true }).setSession
          none).logUpdate 0x12 x.slot stOK).answer tr seq 0x12 stOK false)) ∧
      (good → svn < s.col.fusedSvn → exec (.updateCommit tr seq genuine version svn) s =
        .next (((s.setSlot x.slot {}).logUpdate 0x12 x.slot stROLLBACK).answer tr seq 0x12 stROLLBACK false)) ∧
      (¬ good → exec (.updateCommit tr seq genuine version svn) s =
        .next (((s.setSlot x.slot {}).logUpdate 0x12 x.slot stBAD_SIG).answer tr seq 0x12 stBAD_SIG false))) ∧
    (∀ slot, s.msgDue tr seq 0x13 = true → s.col.session = none → slot ≤ 1 → (s.slotOf slot).mode = .valid →
      let o := s.slotOf (1 - slot)
      let s1 := (s.setSlot (1 - slot) { o with mode := if o.mode == .trial then .valid else o.mode }).setSlot slot
        { s.slotOf slot with mode := .trial }
      exec (.updateActivate tr seq slot) s =
        .next (({ s1 with col.trialBooted := false }.logUpdate 0x13 slot stOK).answer tr seq 0x13 stOK false)) ∧
    (s.msgDue tr seq 0x14 = true →
      (s.trialRuns = false → exec (.updateConfirm tr seq) s = .next (s.answer tr seq 0x14 stREFUSED false)) ∧
      (s.trialRuns = true →
        let r := s.col.running
        let run := s.slotOf r
        let other := s.slotOf (1 - r)
        let c := (s.col.setSlot r { run with mode := .active }).setSlot (1 - r)
          { other with mode := if other.mode == .empty then .empty else .valid }
        exec (.updateConfirm tr seq) s = .next (({ s with
          col := { c with trialBooted := false, fusedSvn := max c.fusedSvn run.svn } }.logUpdate 0x14 r stOK).answer tr seq 0x14 stOK false))) ∧
    (∀ x, s.msgDue tr seq 0x15 = true → s.col.session = some x → x.transport = tr → exec (.updateAbort tr seq) s =
      .next ((((s.setSlot x.slot {}).setSession none).logUpdate 0x15 x.slot stOK).answer tr seq 0x15 stOK false)) ∧
    (∀ n body s1, s.msgDue tr seq 0x16 = true → n ≤ 3 → body.length = recordLength n → s.requestActivity .flashWrite = (s1, true) →
      exec (.writeRecord tr seq n body) s = .next (((({ s1 with
        col.records := mapSet (fun _ => []) s1.col.records n body }).answer tr seq 0x16 stOK false).endActivity .flashWrite).releaseMsg (tr, seq, 0x16)))) ∧
  (∀ (s : State) (x : Session), s.col.session = some x → s.col.serhamUp = true →
    exec .sessionTimeout s = .next (((s.setSlot x.slot {}).setSession none).logUpdate 0x15 x.slot stOK)) ∧
  (∀ (s : State) (data : List Byte), s.col.serhamUp = true → s.ipv4 ≠ 0 →
    exec (.arpAndIcmpEcho true data) s = .next (s.emit (.serham viaEthernet data)) ∧
    exec (.arpAndIcmpEcho false data) s = .next (s.emit (.serham viaEthernet
      (((s.col.net.drop 16).take 2).reverse ++ ((s.col.net.drop 12).take 4).reverse ++ (s.col.net.take 4).reverse))))

/-- FREEZE, FREEZE_N_FALL, READOUT, POWER (DOZE, HIBERNATE and WAKE), SENSOR_SAMPLE, THROTTLE_STEP, THROTTLE_RESTORE,
ALERT_RELEASE, LOG_COMPACTION, COMPACTION_DONE, MAINT_START and THERMAL_SHUTDOWN (R397, R421, R423 to R427, R432, R433, R435): a
freeze latches the raw counter and stops the clocks, and a second one changes nothing; a read-out needs a freeze; sensors act on
the protection; the log moves to flash; and the first waiting activity that nothing holds back starts. The model's choices and
readings it rests on: log entries 4, 5, 7, 18, 63, 70, 77, 79, 80, 81, 83, 84, 86. -/
def Obligations.FreezeAndProtection : Prop :=
  (∀ (s : State) (cause line : Nat),
    (s.glb.frozen = true → s.freezeNow cause line = s) ∧
    (s.glb.frozen = false → (s.freezeNow cause line).glb.frozen = true ∧ (s.freezeNow cause line).col.frozenRaw = s.tb.raw ∧
      (s.freezeNow cause line).col.freezeCause = cause ∧ (s.freezeNow cause line).col.freezeLine = line ∧
      (s.freezeNow cause line).clocked = false)) ∧
  (∀ (s : State) (tr seq leadUs : Nat), s.msgDue tr seq 0x20 = true → s.glb.frozen = false →
    (s.pwr.asleep = true → ∀ b, exec (.freeze tr seq b leadUs) s = .next (s.answer tr seq 0x20 stREFUSED false)) ∧
    (s.pwr.asleep = false → leadUs = 0 → s.bit Reg.COL_FREEZE_CFG 2 = false → (s.answer tr seq 0x20 stOK false).glb.frozen = false →
        (s.answer tr seq 0x20 stOK false).bit Reg.COL_FREEZE_CFG 2 = false →
      exec (.freeze tr seq false leadUs) s = .next ((s.answer tr seq 0x20 stOK false).freezeNow 4 0))) ∧
  (∀ s : State, s.tclkRuns = true → s.bit Reg.COL_FREEZE_CFG 0 = true →
    (s.bit Reg.COL_FREEZE_CFG 2 = false → exec .freezeNFall s = .next (s.freezeNow 1 0)) ∧
    (s.bit Reg.COL_FREEZE_CFG 2 = true → exec .freezeNFall s = .next (s.startBroadcast false 0 s.freezeLead).1)) ∧
  (∀ (s : State) (tr seq space addr sub n : Nat), s.msgDue tr seq 0x21 = true →
    (s.glb.frozen = false → exec (.readout tr seq space addr sub n) s = .next (s.answer tr seq 0x21 stNOT_FROZEN false)) ∧
    (s.glb.frozen = true → n ≤ readoutLimit tr →
      let x := s.readoutData space addr sub n
      exec (.readout tr seq space addr sub n) s = .next (s.drawn.respond tr seq 0x21 stOK (x.2 || s.lengthClamped tr) x.1))) ∧
  (∀ (s : State) (tr seq : Nat), s.msgDue tr seq 0x30 = true → s.glb.frozen = false → s.pwr.asleep = false →
    (∀ d save banks, d < 24 → banks < 16 → (s.cluster d).mode ≠ .doze →
      let a := Reg.PWR_CL_CTRL d
      exec (.powerDoze tr seq d save banks) s = .next (((((s.setFld a 31 30 2).setBit a 28 save).setFld a 27 24 banks).awaitPower
        tr seq 1 (some d)).clusterRequest d 2)) ∧
    (s.fld Reg.PWR_HIB_CTRL 3 0 = 0 → exec (.powerHibernate tr seq) s = .next (s.answer tr seq 0x30 stREFUSED false)) ∧
    (s.fld Reg.PWR_HIB_CTRL 3 0 ≠ 0 → exec (.powerHibernate tr seq) s = .next (s.awaitPower tr seq 2 none).requestHibernate) ∧
    (∀ d, d < clusterCount → (s.cluster d).mode = .run → ((s.setFld (Reg.PWR_CL_CTRL d) 31 30 0).cluster d).mode = .run →
      exec (.powerWake tr seq (some d)) s = .next (((s.setFld (Reg.PWR_CL_CTRL d) 31 30 0).clusterRequest d 0).answer tr seq 0x30 stOK false)) ∧
    (s.pwr.hibBusy = false → exec (.powerWake tr seq none) s = .next (s.answer tr seq 0x30 stOK false))) ∧
  (∀ (s : State) (junction : List Int) (lid vin iin power : Int) (rails : List (Int × Int)), s.col.serhamUp = true →
    let x : Sensors := { junction := junction, lid := lid, vin := vin, iin := iin, power := power, rails := rails,
                         dram := (List.range 16).map (fun c => (s.memChan c).temp) }
    let h := hottest junction
    exec (.sensorSample junction lid vin iin power rails) s =
      .next (((({ s with col.sensors := x } : State).protectWarn h.1 h.2).protectThrottle h.1 h.2 power
        (x.dram.any (fun t => decide (4 ≤ t)))).protectCritical h.1 h.2)) ∧
  (∀ (s : State) (n : Nat) (t : Int), t < 1840 →
    s.protectCritical n t = { s with col := { s.col with critical := false, thermLow := s.col.thermLow } }) ∧
  (∀ s : State,
    (s.col.hot = true → 0 < s.col.throttle → s.col.throttle < 4 →
      exec .throttleStep s = .next { s with col.throttle := s.col.throttle + 1 }) ∧
    (s.col.hot = false → 0 < s.col.throttle → exec .throttleRestore s = .next { s with col.throttle := s.col.throttle - 1 }) ∧
    (s.col.serhamUp = true → s.col.critical = false → exec (.alertRelease true) s = .next { s with col.thermLow := false }) ∧
    (s.col.serhamUp = true → s.col.warn = false → exec (.alertRelease false) s = .next { s with col.alertLow := false }) ∧
    (s.col.serhamUp = true → mramSize / 2 ≤ s.col.mram.length → exec .logCompaction s = .next (s.requestActivity .compaction).1) ∧
    (s.activityRuns .compaction = true → s.col.flashLog.length + (s.col.mram.take (mramSize / 2)).length ≤ flashLogSize →
      exec .compactionDone s = .next { s.endActivity .compaction with col := { s.col with
        flashLog := s.col.flashLog ++ s.col.mram.take (mramSize / 2), mram := s.col.mram.drop (mramSize / 2) } }) ∧
    (∀ a, s.startable [] s.mm.waiting = some a → s.clocked = true → exec .maintStart s = .next (s.startActivity a)) ∧
    (s.rst.power = .on → s.col.serhamUp = true → s.col.critical = true →
      exec .thermalShutdown s = .next ((s.logThermal (hottest s.col.sensors.junction).1 (hottest s.col.sensors.junction).2 4 3).unpowered
        .thermal true)))

/-- R397: two activities of one row of the exclusion table never run together. If the running activities exclude each other
nowhere, then a request, an end and the start of the first waiting activity that nothing holds back leave it so. The model's
choices and readings it rests on: log entry 83. -/
def Obligations.ExcludedActivitiesNeverRunTogether : Prop :=
  let Apart := fun (s : State) => ∀ a ∈ s.mm.running, ∀ b ∈ s.mm.running, excludes a b = false
  (∀ a b, excludes a b = excludes b a) ∧ (∀ a, excludes a a = false) ∧
  (∀ (s : State) (a : Activity), Apart s → Apart (s.requestActivity a).1 ∧ Apart (s.endActivity a)) ∧
  (∀ (s : State) (a : Activity), Apart s → s.startable [] s.mm.waiting = some a →
    Apart { s with mm := { s.mm with waiting := s.mm.waiting.erase a, running := s.mm.running ++ [a] } })

/-- POWER_ON, COLD_RESET, WARM_RESET, WARM_RESET_RELEASE, CORE_READY, HIBERNATE_WAKE, HIB_TIMER, PWR_EN_FALL, VIN_UNDERVOLTAGE,
VIN_OVERVOLTAGE, OVERVOLTAGE_RESTART and RAIL_FAULT (R411 to R415, R424, R428, R437 to R443, R448, R450, R451): a start clears the
module and boots it, a warm reset keeps module memory in self-refresh under the map last written and the timebase running,
Hibernate's exit restores its list and lets the raw counter make up for the sleep, and a supply that fails loses everything but
what lasts. The model's choices and readings it rests on: log entries 7, 79, 84, 85, 86. -/
def Obligations.ResetsAndSupplies : Prop :=
  (∀ s : State,
    (s.rst.power = .off ∨ s.rst.power = .undervoltage → exec .powerOn s = .next (s.coldStart (if s.rst.thermalSeen then 4 else 1) false false)) ∧
    (s.rst.power = .on → s.col.serhamUp = false → s.col.recovery = false → s.rst.warmHeld = false →
      exec .powerOn s = .next (s.coldStart (if s.rst.thermalSeen then 4 else 1) false false)) ∧
    (s.rst.power = .on → exec .coldReset s = .next (s.coldStart 1 s.glb.frozen true)) ∧
    (s.rst.power = .on → s.rst.warmHeld = false → exec .warmReset s = .next s.warmFallen) ∧
    (s.rst.power = .on → s.rst.warmHeld = true →
      exec .warmResetRelease s = .next (({ s with rst.warmHeld := false } : State).bootUp false 2)) ∧
    (s.col.serhamUp = true → s.glb.coreReady = false → s.rst.power = .on → s.rst.warmHeld = false → s.pwr.asleep = false →
      s.glb.frozen = false → exec .coreReady s = .next s.makeCoreReady) ∧
    exec .pwrEnFall s = .next (s.unpowered .off s.rst.thermalSeen) ∧
    exec .vinUndervoltage s = .next (s.unpowered .undervoltage false) ∧
    (s.rst.power = .on → exec .vinOvervoltage s = .next (s.unpowered .overvoltage s.rst.thermalSeen)) ∧
    (s.rst.power = .overvoltage →
      exec .overvoltageRestart s = .next (s.coldStart (if s.rst.thermalSeen then 4 else 1) false false)) ∧
    (s.rst.power = .on → s.col.serhamUp = true → exec .railFault s = .next { s.logPower.cleared with
      rst := { power := .railFault, thermalSeen := s.logPower.rst.thermalSeen }
      col := { s.logPower.col with replies := [] } }) ∧
    (∀ source count, s.pwr.asleep = true → s.wakeEnabled source = true → source ≠ 0 ∨ s.hibTicks ≤ count →
      exec (.hibernateWake source count) s = .next (s.leaveHibernate (2 ^ source) count)) ∧
    (∀ source count, s.pwr.asleep = false → s.pwr.hibBusy = true → s.wakeEnabled source = true →
      exec (.hibernateWake source count) s = .next { s with pwr.wakeSeen := s.pwr.wakeSeen ||| 2 ^ source }) ∧
    (s.pwr.asleep = true → s.wakeEnabled 0 = true → exec .hibTimer s = .next (s.leaveHibernate 1 s.hibTicks))) ∧
  (∀ (s : State) (cause : Nat) (froze pin : Bool),
    s.coldStart cause froze pin = ({ s.cleared with rst := { froze := froze, pin := pin } } : State).bootUp true cause) ∧
  (∀ (s : State) (cold : Bool) (cause : Nat), s.col.boot.serhamUp = false →
    s.bootUp cold cause = { s with col := s.col.boot, glb := { s.glb with resetCause := cause } }) ∧
  (∀ s : State, s.warmFallen.moduleBytes = s.moduleBytes ∧ s.warmFallen.tb.raw = s.tb.raw ∧ s.warmFallen.tb.rate = s.tb.rate ∧
    s.warmFallen.tb.offsetU = s.tb.offsetU ∧ s.warmFallen.glb.coreReady = false ∧ s.warmFallen.glb.memReady = false ∧
    s.warmFallen.mm.mapActive = s.fld Reg.MEM_CFG 31 30 ∧ s.warmFallen.mm.marks = s.mm.marks ∧ s.warmFallen.slt = {} ∧
    s.warmFallen.rst.warmHeld = true ∧ s.warmFallen.clocked = false ∧
    (∀ c, c < 16 → (s.warmFallen.memChan c).selfRefresh = true)) ∧
  (∀ (s : State) (m : PowerMode) (th : Bool), (s.unpowered m th).mem = [] ∧ (s.unpowered m th).regs = [] ∧
    (s.unpowered m th).rst.power = m ∧ (s.unpowered m th).rst.thermalSeen = th ∧ (s.unpowered m th).tb = {} ∧
    (s.unpowered m th).col.mram = s.col.mram ∧ (s.unpowered m th).col.flashLog = s.col.flashLog ∧
    (s.unpowered m th).col.records = s.col.records ∧ (s.unpowered m th).col.fusedSvn = s.col.fusedSvn) ∧
  (∀ (s : State) (mask count : Nat), s.pwr.wakeSeen = 0 → mask < 16 → (s.leaveHibernate mask count).pwr.asleep = false ∧
    (s.leaveHibernate mask count).pwr.hibWake = mask ∧ (s.leaveHibernate mask count).pwr.lastHib = 1) ∧
  (∀ (s : State) (count : Nat), (s.advanceTime count).tb.raw = s.tb.raw + BitVec.ofNat 64 (40 * min aonMax count) ∧
    (s.advanceTime count).tb.holdover = true)

/-- Lands and levels (R452 to R456): every land of a signal, a lane or a PCIe pair carries it alone, so a signal lies on one land;
the rows are named by their letters; and the levels the module drives on its control and timing outputs follow its state: PGOOD,
ALERT_N, THERM_N, FREEZE_N and PE_WAKE_N are open drains, PPS_OUT is driven, and a trigger pin is driven only as an output. That
PGOOD stays released in Hibernate is the model's reading (log entry 108). The model's choices and readings it rests on: log
entries 7, 108, 109. -/
def Obligations.LandsAndPins : Prop :=
  (∀ r c r' c' : Nat, 1 ≤ r → r ≤ 62 → 1 ≤ c → c ≤ 62 → 1 ≤ r' → r' ≤ 62 → 1 ≤ c' → c' ≤ 62 →
    landAt r c = landAt r' c' → landAt r c ≠ .gnd → landAt r c ≠ .vin → r = r' ∧ c = c') ∧
  (∀ (n : Nat) (neg : Bool), n < 96 → ∃ r c, 9 ≤ r ∧ r ≤ 56 ∧ 1 ≤ c ∧ c ≤ 62 ∧ landAt r c = .laneTx n neg ∧
    ∃ c', 1 ≤ c' ∧ c' ≤ 62 ∧ landAt r c' = .laneRx n neg) ∧
  (rowName 1 = "A" ∧ rowName 19 = "Y" ∧ rowName 20 = "AA" ∧ rowName 39 = "BA" ∧ rowName 62 = "CE") ∧
  (∀ s : State,
    (s.pinLevel .pgood = if s.railsGood then none else some false) ∧
    (s.pinLevel .alertN = if s.col.alertLow then some false else none) ∧
    (s.pinLevel .thermN = if s.col.thermLow then some false else none) ∧
    (s.pinLevel .freezeN = if s.col.freezeLow then some false else none) ∧
    (s.pinLevel .peWakeN = if s.pwr.peWake then some false else none) ∧
    s.pinLevel .ppsOut = some s.tb.ppsOut ∧
    (∀ n, s.bit (Reg.CAP_TRIG_CFG n) 31 = true → s.pinLevel (.trig n) = some (s.cap.pulses.contains n)) ∧
    (∀ n, s.bit (Reg.CAP_TRIG_CFG n) 31 = false → s.pinLevel (.trig n) = none))

/-- R428 to R430: the choice of the image. Whatever the slots hold, a slot that boots is genuine, not EMPTY, and has an SVN that
the fuses allow; the boot leaves at most as many TRIAL slots as there were and never lowers the fused SVN; with no slot that
boots, Serham is in recovery; and a TRIAL slot that has been booted once and not confirmed is not TRIAL again. The model's choices
and readings it rests on: log entry 85. -/
def Obligations.OnlyAllowedImagesBoot : Prop :=
  ∀ c : ColState,
    (c.boot.serhamUp = true → c.boot.running < 2 ∧ c.boot.bootable c.boot.running = true ∧ (c.boot.slot c.boot.running).genuine = true ∧
      (c.boot.slot c.boot.running).mode ≠ .empty ∧ c.fusedSvn ≤ (c.boot.slot c.boot.running).svn ∧ c.boot.recovery = false ∧
      c.boot.bootCount = c.bootCount + 1) ∧
    (c.boot.serhamUp = false → c.boot.recovery = true ∧ c.bootable 0 = false ∧ c.bootable 1 = false) ∧
    c.boot.fusedSvn = c.fusedSvn ∧ c.boot.records = c.records ∧
    (∀ k, k < 2 → (c.boot.slot k).mode = .trial → (c.slot k).mode = .trial) ∧
    (c.trialBooted = true → c.running < 2 → (c.boot.slot c.running).mode ≠ .trial)
end

