-- ==== Sys2Proof/Laws/Gates.lean ====
section
/-! SUPPORT. The gates commands pass: what a command does while its gate is open and while it is shut. -/

namespace Sys2Proof.Machine

theorem hostWriteTo_open {s : State} {a : Nat} (h : s.hostOpen a) (f : State → State) : s.hostWriteTo a f = f s := by
  obtain ⟨h1, h2, h3, h4, h5, h6, h7⟩ := h
  unfold State.hostWriteTo
  rw [if_neg (by simp [h1, h2, h3, h4]), if_neg (by rcases h5 with h | h <;> simp [h]),
    if_neg (by rcases h6 with h | h <;> simp [h]), if_neg (by simp [h7])]

theorem inBar_zero {a : Nat} (h : a < 0x4000000) : inBar 0 0 a = true := by simpa [inBar, barOf] using h

theorem bar0Write_open {s : State} {a : Nat} (h : s.hostOpen a) (ha : inBar 0 0 a = true) (w : Nat) (v : W64) :
    s.bar0Write a w v = s.bar0Put a w v := by
  unfold State.bar0Write
  rw [if_pos ha, hostWriteTo_open h]

/-- An aligned 32-bit write of a register outside the PF's MSI-X structures is the register's own write. -/
theorem bar0Put_reg {s : State} {a : Nat} {d : RegDef} {ix : List Nat} (hf : findReg a = some (d, ix)) (h4 : a % 4 = 0)
    (h1 : inMsixTable 0 a = false) (h2 : inMsixPba 0 a = false) (v : W64) :
    s.bar0Put a 4 v = s.regWrite d (ix.getD 0 0) (ix.getD 1 0) a (v.setWidth 32) := by
  unfold State.bar0Put
  rw [if_neg (by simp [h1]), if_neg (by simp [h2]), if_neg (by omega), hf]

theorem whenClocked_true {s : State} (h : s.clocked = true) (f : State → Res) : s.whenClocked f = f s := by
  simp [State.whenClocked, h]

theorem whenClocked_false {s : State} (h : s.clocked = false) (f : State → Res) : s.whenClocked f = .next s := by
  simp [State.whenClocked, h]

theorem tclkRuns_of_clocked {s : State} (h : s.clocked = true) : s.tclkRuns = true := by
  simp only [State.clocked, State.tclkRuns, Bool.and_eq_true, Bool.or_eq_true] at h ⊢
  simp_all

end Sys2Proof.Machine
end

