-- ==== Sys2Proof/Laws/Map.lean ====
section
/-! SUPPORT. The laws of sparse maps: what a write changes, and that every operation keeps the canonical form. -/

namespace Sys2Proof.Machine

variable {α : Type}

/-! ## Sorted keys -/

theorem mapSortedFrom_weaken {a b : Option Nat} {m : SMap α} (h : mapSortedFrom a m = true)
    (hb : ∀ x, b = some x → ∃ y, a = some y ∧ x ≤ y) : mapSortedFrom b m = true := by
  cases m with
  | nil => rfl
  | cons p r =>
    obtain ⟨j, w⟩ := p
    simp only [mapSortedFrom, Bool.and_eq_true] at h ⊢
    refine ⟨?_, h.2⟩
    cases b with
    | none => rfl
    | some x =>
      obtain ⟨y, rfl, hxy⟩ := hb x rfl
      have := h.1
      simp only [decide_eq_true_eq] at this ⊢
      omega

theorem mapInsert_sorted (lo : Option Nat) (m : SMap α) (k : Nat) (v : α) (h : mapSortedFrom lo m = true)
    (hk : ∀ x, lo = some x → x < k) : mapSortedFrom lo (mapInsert m k v) = true := by
  induction m generalizing lo with
  | nil => cases lo <;> simp_all [mapInsert, mapSortedFrom]
  | cons p r ih =>
    obtain ⟨j, w⟩ := p
    simp only [mapSortedFrom, Bool.and_eq_true] at h
    unfold mapInsert
    split
    · cases lo <;> simp_all [mapSortedFrom]
    · split
      · cases lo <;> simp_all [mapSortedFrom]
      · simp only [mapSortedFrom, Bool.and_eq_true]
        exact ⟨h.1, ih _ h.2 (fun x e => by cases e; omega)⟩

theorem mapErase_sorted (lo : Option Nat) (m : SMap α) (k : Nat) (h : mapSortedFrom lo m = true) :
    mapSortedFrom lo (mapErase m k) = true := by
  induction m generalizing lo with
  | nil => exact h
  | cons p r ih =>
    obtain ⟨j, w⟩ := p
    simp only [mapSortedFrom, Bool.and_eq_true] at h
    unfold mapErase
    split
    · refine mapSortedFrom_weaken h.2 (fun x e => ⟨j, rfl, ?_⟩)
      subst e
      have := h.1
      simp only [decide_eq_true_eq] at this
      omega
    · simp only [mapSortedFrom, Bool.and_eq_true]
      exact ⟨h.1, ih _ h.2⟩

theorem mapFilter_sorted (lo : Option Nat) (m : SMap α) (p : Nat × α → Bool) (h : mapSortedFrom lo m = true) :
    mapSortedFrom lo (m.filter p) = true := by
  induction m generalizing lo with
  | nil => exact h
  | cons q r ih =>
    obtain ⟨j, w⟩ := q
    simp only [mapSortedFrom, Bool.and_eq_true] at h
    rw [List.filter_cons]
    split
    · simp only [mapSortedFrom, Bool.and_eq_true]
      exact ⟨h.1, ih _ h.2⟩
    · refine mapSortedFrom_weaken (ih _ h.2) (fun x e => ⟨j, rfl, ?_⟩)
      subst e
      have := h.1
      simp only [decide_eq_true_eq] at this
      omega

/-! ## The canonical form -/

variable [DecidableEq α]

omit [DecidableEq α] in
theorem mapInsert_mem (m : SMap α) (k : Nat) (v : α) (p : Nat × α) (h : p ∈ mapInsert m k v) : p = (k, v) ∨ p ∈ m := by
  induction m with
  | nil => simpa [mapInsert] using h
  | cons q r ih =>
    unfold mapInsert at h
    split at h
    · simpa using h
    · split at h
      · rcases List.mem_cons.mp h with e | e
        · exact .inl e
        · exact .inr (List.mem_cons_of_mem _ e)
      · rcases List.mem_cons.mp h with e | e
        · exact .inr (e ▸ List.mem_cons_self)
        · exact (ih e).imp id (List.mem_cons_of_mem _)

omit [DecidableEq α] in
theorem mapErase_mem (m : SMap α) (k : Nat) (p : Nat × α) (h : p ∈ mapErase m k) : p ∈ m := by
  induction m with
  | nil => exact h
  | cons q r ih =>
    unfold mapErase at h
    split at h
    · exact List.mem_cons_of_mem _ h
    · rcases List.mem_cons.mp h with e | e
      · exact e ▸ List.mem_cons_self
      · exact List.mem_cons_of_mem _ (ih e)

/-- A write keeps the canonical form. -/
theorem mapSet_wf (d : Nat → α) (m : SMap α) (k : Nat) (v : α) (h : mapWf d m = true) : mapWf d (mapSet d m k v) = true := by
  simp only [mapWf, Bool.and_eq_true, List.all_eq_true, decide_eq_true_eq] at h ⊢
  unfold mapSet
  split
  · exact ⟨mapErase_sorted _ _ _ h.1, fun p hp => h.2 p (mapErase_mem _ _ _ hp)⟩
  · refine ⟨mapInsert_sorted _ _ _ _ h.1 (by simp), fun p hp => ?_⟩
    rcases mapInsert_mem _ _ _ _ hp with rfl | hp
    · assumption
    · exact h.2 p hp

/-- Leaving entries out keeps the canonical form. -/
theorem mapFilter_wf (d : Nat → α) (m : SMap α) (p : Nat × α → Bool) (h : mapWf d m = true) : mapWf d (m.filter p) = true := by
  simp only [mapWf, Bool.and_eq_true, List.all_eq_true, decide_eq_true_eq] at h ⊢
  exact ⟨mapFilter_sorted _ _ _ h.1, fun q hq => h.2 q (List.mem_filter.mp hq).1⟩

/-! ## Read after write -/

omit [DecidableEq α] in
theorem mapGet_default (d : Nat → α) (lo : Option Nat) (m : SMap α) (k : Nat) (h : mapSortedFrom lo m = true)
    (hk : ∃ x, lo = some x ∧ k ≤ x) : mapGet d m k = d k := by
  induction m generalizing lo with
  | nil => rfl
  | cons p r ih =>
    obtain ⟨j, w⟩ := p
    obtain ⟨x, rfl, hx⟩ := hk
    simp only [mapSortedFrom, Bool.and_eq_true, decide_eq_true_eq] at h
    rw [mapGet, if_neg (by omega)]
    exact ih _ h.2 ⟨j, rfl, by omega⟩

omit [DecidableEq α] in
theorem mapGet_insert (d : Nat → α) (m : SMap α) (k j : Nat) (v : α) :
    mapGet d (mapInsert m k v) j = if j = k then v else mapGet d m j := by
  induction m with
  | nil => simp [mapInsert, mapGet, eq_comm]
  | cons p r ih =>
    obtain ⟨i, w⟩ := p
    unfold mapInsert
    split
    · simp only [mapGet]
      by_cases e : j = k
      · rw [if_pos e, if_pos e.symm]
      · rw [if_neg e, if_neg (Ne.symm e)]
    · split
      · next _ hi =>
        simp only [mapGet]
        by_cases e : j = k
        · rw [if_pos e, if_pos e.symm]
        · rw [if_neg e, if_neg (Ne.symm e), if_neg (by omega)]
      · simp only [mapGet, ih]
        by_cases e : i = j
        · rw [if_pos e, if_pos e, if_neg (by omega)]
        · rw [if_neg e, if_neg e]

omit [DecidableEq α] in
theorem mapGet_erase (d : Nat → α) (lo : Option Nat) (m : SMap α) (k j : Nat) (h : mapSortedFrom lo m = true) :
    mapGet d (mapErase m k) j = if j = k then d k else mapGet d m j := by
  induction m generalizing lo with
  | nil => simp only [mapErase, mapGet]; split <;> simp_all
  | cons p r ih =>
    obtain ⟨i, w⟩ := p
    simp only [mapSortedFrom, Bool.and_eq_true] at h
    unfold mapErase
    split
    · subst_vars
      split
      · subst_vars; exact mapGet_default d _ r _ h.2 ⟨_, rfl, Nat.le_refl _⟩
      · rw [mapGet, if_neg (by omega)]
    · simp only [mapGet, ih _ h.2]
      by_cases e : i = j
      · rw [if_pos e, if_pos e, if_neg (by omega)]
      · rw [if_neg e, if_neg e]

/-- Read after write: the key written reads the value written, every other key reads what it read before. -/
theorem mapGet_set (d : Nat → α) (m : SMap α) (k j : Nat) (v : α) (h : mapWf d m = true) :
    mapGet d (mapSet d m k v) j = if j = k then v else mapGet d m j := by
  simp only [mapWf, Bool.and_eq_true] at h
  unfold mapSet
  split
  · rw [mapGet_erase d _ m k j h.1]; simp_all
  · exact mapGet_insert d m k j v

end Sys2Proof.Machine
end

