-- ==== Sys2Proof/Laws/Keeps.lean ====
section
/-! SUPPORT. What every operation of the model keeps: the queue of waiting commands, the canonical form of memory and of
the setup registers, a legal rate, the fused security version and the numbering of the log. -/

namespace Sys2Proof.Machine

/-- `s` has the waiting commands of `s0`, keeps the canonical forms and the legal rate that `s0` has, and has lost neither a security version
nor a log number. -/
def Keeps (s0 s : State) : Prop :=
  (s.pending = s0.pending ∧ (s0.tb.rateLegal → s.tb.rateLegal)) ∧ (Memory.wf s0.mem = true → Memory.wf s.mem = true)
    ∧ (Registers.wf s0.regs = true → Registers.wf s.regs = true)
    ∧ s0.col.fusedSvn ≤ s.col.fusedSvn ∧ s0.col.nextSeq ≤ s.col.nextSeq

/-- The state a command answers, if it answers one, keeps what `Keeps` says. -/
def KeepsRes (s0 : State) (r : Res) : Prop := ∀ t, r = .next t → Keeps s0 t

@[simp] theorem keeps_refl (s : State) : Keeps s s := ⟨⟨rfl, id⟩, id, id, Nat.le_refl _, Nat.le_refl _⟩

theorem Keeps.trans {a b c : State} (h : Keeps a b) (g : Keeps b c) : Keeps a c :=
  ⟨⟨g.1.1.trans h.1.1, g.1.2 ∘ h.1.2⟩, g.2.1 ∘ h.2.1, g.2.2.1 ∘ h.2.2.1, Nat.le_trans h.2.2.2.1 g.2.2.2.1, Nat.le_trans h.2.2.2.2 g.2.2.2.2⟩

@[simp] theorem keepsRes_next (s0 s : State) : KeepsRes s0 (.next s) ↔ Keeps s0 s :=
  ⟨fun h => h s rfl, fun h t e => by cases e; exact h⟩

@[simp] theorem keeps_ite (s0 a b : State) (c : Prop) {_ : Decidable c} :
    Keeps s0 (if c then a else b) ↔ (c → Keeps s0 a) ∧ (¬c → Keeps s0 b) := by split <;> simp [*]

@[simp] theorem keepsRes_ite (s0 : State) (a b : Res) (c : Prop) {_ : Decidable c} :
    KeepsRes s0 (if c then a else b) ↔ (c → KeepsRes s0 a) ∧ (¬c → KeepsRes s0 b) := by split <;> simp [*]

@[simp] theorem keeps_ite_fst {α : Type} (s0 : State) (a b : State × α) (c : Prop) {_ : Decidable c} :
    Keeps s0 (if c then a else b).1 ↔ (c → Keeps s0 a.1) ∧ (¬c → Keeps s0 b.1) := by split <;> simp [*]

/-- A change of any field but the queue, memory, the setup registers, the timebase and the colophon keeps everything. -/
@[simp] theorem keeps_update {s0 s : State} (h : Keeps s0 s) (glb slt hp qm spn gth qui notifies out bus hostRead freeCtr dma
    mm pwr engines spa spc ln fh stf cap rst) :
    Keeps s0 ⟨s.pending, s.regs, s.mem, glb, s.tb, slt, hp, qm, spn, gth, qui, notifies, out, bus, hostRead, freeCtr, s.col, dma, mm,
      pwr, engines, spa, spc, ln, fh, stf, cap, rst⟩ := h

/-- A change of the timebase that leaves its rates alone. -/
@[simp] theorem keeps_updateTb {s0 s : State} (h : Keeps s0 s) (glb raw offsetU stitchSource remainU refused holdover sleepOvf synceLos synceInPresent trefInPresent refPresent timeLocked refInUse ppsDue ppsOut
    slt hp qm spn gth qui notifies out bus hostRead freeCtr dma mm pwr engines spa spc ln fh stf cap rst) :
    Keeps s0 ⟨s.pending, s.regs, s.mem, glb, ⟨raw, offsetU, s.tb.rate, s.tb.pendingRate, stitchSource, remainU, refused, holdover, sleepOvf, synceLos, synceInPresent, trefInPresent,
      refPresent, timeLocked, refInUse, ppsDue, ppsOut⟩,
      slt, hp, qm, spn, gth, qui, notifies, out, bus, hostRead, freeCtr, s.col, dma, mm,
      pwr, engines, spa, spc, ln, fh, stf, cap, rst⟩ := h

/-- A change of the timebase that keeps its rates legal. -/
theorem keeps_updateRate {s0 s : State} (h : Keeps s0 s) {glb} {tb : TbState} {slt hp qm spn gth qui notifies out bus hostRead freeCtr dma
    mm pwr engines spa spc ln fh stf cap rst} (hr : s.tb.rateLegal → tb.rateLegal) :
    Keeps s0 ⟨s.pending, s.regs, s.mem, glb, tb, slt, hp, qm, spn, gth, qui, notifies, out, bus, hostRead, freeCtr, s.col, dma, mm,
      pwr, engines, spa, spc, ln, fh, stf, cap, rst⟩ := ⟨⟨h.1.1, hr ∘ h.1.2⟩, h.2⟩

/-- A change that touches the colophon too. -/
theorem keeps_updateCol {s0 s : State} (h : Keeps s0 s) {glb slt hp qm spn gth qui notifies out bus hostRead freeCtr} {col : ColState}
    {dma mm pwr engines spa spc ln fh stf cap rst} (hf : s.col.fusedSvn ≤ col.fusedSvn) (hn : s.col.nextSeq ≤ col.nextSeq) :
    Keeps s0 ⟨s.pending, s.regs, s.mem, glb, s.tb, slt, hp, qm, spn, gth, qui, notifies, out, bus, hostRead, freeCtr, col, dma, mm,
      pwr, engines, spa, spc, ln, fh, stf, cap, rst⟩ :=
  ⟨h.1, h.2.1, h.2.2.1, Nat.le_trans h.2.2.2.1 hf, Nat.le_trans h.2.2.2.2 hn⟩

/-- A change of the colophon that leaves the fuse and the log's numbering alone. -/
@[simp] theorem keeps_updateCol' {s0 s : State} (h : Keeps s0 s) (glb slt hp qm spn gth qui notifies out bus hostRead freeCtr
    mram flashLog lost bootCount records slotA slotB running trialBooted net replies stalled recovery serhamUp session sensors
    throttle warn hot critical alertLow thermLow frozenRaw freezeCause freezeLine freezeLow dma mm pwr engines spa spc ln fh stf cap rst) :
    Keeps s0 ⟨s.pending, s.regs, s.mem, glb, s.tb, slt, hp, qm, spn, gth, qui, notifies, out, bus, hostRead, freeCtr,
      ⟨mram, flashLog, s.col.nextSeq, lost, bootCount, records, slotA, slotB, s.col.fusedSvn, running, trialBooted, net, replies, stalled,
        recovery, serhamUp, session, sensors, throttle, warn, hot, critical, alertLow, thermLow, frozenRaw, freezeCause, freezeLine,
        freezeLow⟩, dma, mm, pwr, engines, spa, spc, ln, fh, stf, cap, rst⟩ := h

/-- A change of both that leaves rates, fuse and numbering alone. -/
@[simp] theorem keeps_updateBoth {s0 s : State} (h : Keeps s0 s) (glb raw offsetU stitchSource remainU refused holdover sleepOvf synceLos synceInPresent trefInPresent refPresent timeLocked refInUse ppsDue ppsOut
    slt hp qm spn gth qui notifies out bus hostRead freeCtr
    mram flashLog lost bootCount records slotA slotB running trialBooted net replies stalled recovery serhamUp session sensors
    throttle warn hot critical alertLow thermLow frozenRaw freezeCause freezeLine freezeLow dma mm pwr engines spa spc ln fh stf cap rst) :
    Keeps s0 ⟨s.pending, s.regs, s.mem, glb, ⟨raw, offsetU, s.tb.rate, s.tb.pendingRate, stitchSource, remainU, refused, holdover, sleepOvf, synceLos, synceInPresent, trefInPresent,
      refPresent, timeLocked, refInUse, ppsDue, ppsOut⟩,
      slt, hp, qm, spn, gth, qui, notifies, out, bus, hostRead, freeCtr,
      ⟨mram, flashLog, s.col.nextSeq, lost, bootCount, records, slotA, slotB, s.col.fusedSvn, running, trialBooted, net, replies, stalled,
        recovery, serhamUp, session, sensors, throttle, warn, hot, critical, alertLow, thermLow, frozenRaw, freezeCause, freezeLine,
        freezeLow⟩, dma, mm, pwr, engines, spa, spc, ln, fh, stf, cap, rst⟩ := h

@[simp] theorem keeps_foldl {α : Type} {s0 s : State} (f : State → α → State) (l : List α)
    (hf : ∀ s x, Keeps s0 s → Keeps s0 (f s x)) (h : Keeps s0 s) : Keeps s0 (l.foldl f s) := by
  induction l generalizing s with
  | nil => exact h
  | cons a r ih => exact ih (hf s a h)

@[simp] theorem keeps_foldl_fst {α β : Type} {s0 : State} {x : State × β} (f : State × β → α → State × β) (l : List α)
    (hf : ∀ x a, Keeps s0 x.1 → Keeps s0 (f x a).1) (h : Keeps s0 x.1) : Keeps s0 (l.foldl f x).1 := by
  induction l generalizing x with
  | nil => exact h
  | cons a r ih => exact ih (hf x a h)

end Sys2Proof.Machine
end

