-- ==== Sys2Proof/Laws/KeepsOps.lean ====
section
/-! SUPPORT. What the operations of Machine/Ops.lean keep (Laws/Keeps.lean). -/

set_option linter.unusedSimpArgs false

namespace Sys2Proof.Machine

@[simp] theorem State.whenClocked_keeps {s0 s : State} {f : State → Res} (hf_f : ∀ x0, Keeps s0 x0 → KeepsRes s0 (f x0)) (hK : Keeps s0 s) :
    KeepsRes s0 (State.whenClocked s f) := by
  unfold State.whenClocked; simp +contextual (maxDischargeDepth := 99) [hK, hf_f]

@[simp] theorem State.wr_keeps {s0 s : State} {a : Nat} {v : W32} (hK : Keeps s0 s) : Keeps s0 (State.wr s a v) :=
  ⟨hK.1, hK.2.1, fun g => mapSet_wf _ _ _ _ (hK.2.2.1 g), hK.2.2.2⟩

@[simp] theorem State.setFld_keeps {s0 s : State} {a : Nat} {hi : Nat} {lo : Nat} {v : Nat} (hK : Keeps s0 s) :
    Keeps s0 (State.setFld s a hi lo v) := by
  unfold State.setFld; simp +contextual (maxDischargeDepth := 99) [hK]

@[simp] theorem State.setBit_keeps {s0 s : State} {a : Nat} {i : Nat} {b : Bool} (hK : Keeps s0 s) :
    Keeps s0 (State.setBit s a i b) := by
  unfold State.setBit; simp +contextual (maxDischargeDepth := 99) [hK]

@[simp] theorem State.bumpFld_keeps {s0 s : State} {a : Nat} {hi : Nat} {lo : Nat} {n : Nat} (hK : Keeps s0 s) :
    Keeps s0 (State.bumpFld s a hi lo n) := by
  unfold State.bumpFld; simp +contextual (maxDischargeDepth := 99) [hK]

@[simp] theorem State.bump_keeps {s0 s : State} {a : Nat} (hK : Keeps s0 s) :
    Keeps s0 (State.bump s a) := by
  unfold State.bump; simp +contextual (maxDischargeDepth := 99) [hK]

@[simp] theorem State.bump64_keeps {s0 s : State} {lo : Nat} {n : Nat} (hK : Keeps s0 s) :
    Keeps s0 (State.bump64 s lo n) := by
  unfold State.bump64; simp +contextual (maxDischargeDepth := 99) [hK]

@[simp] theorem State.clampAt_keeps {s0 s : State} {cc : Nat} (hK : Keeps s0 s) :
    Keeps s0 (State.clampAt s cc) := by
  unfold State.clampAt; simp +contextual (maxDischargeDepth := 99) [hK]

@[simp] theorem State.clampFor_keeps {s0 s : State} {a : Nat} (hK : Keeps s0 s) :
    Keeps s0 (State.clampFor s a) := by
  unfold State.clampFor; split <;> simp +contextual (maxDischargeDepth := 99) [hK]

@[simp] theorem State.clampIf_keeps {s0 s : State} {c : Bool} {cc : Nat} (hK : Keeps s0 s) :
    Keeps s0 (State.clampIf s c cc) := by
  unfold State.clampIf; simp +contextual (maxDischargeDepth := 99) [hK]

@[simp] theorem State.setByte_keeps {s0 s : State} {a : Nat} {b : Byte} (hK : Keeps s0 s) : Keeps s0 (State.setByte s a b) :=
  ⟨hK.1, fun g => mapSet_wf _ _ _ _ (hK.2.1 g), hK.2.2⟩

@[simp] theorem State.setBytes_keeps {s0 s : State} {a : Nat} {l : List Byte} (hK : Keeps s0 s) :
    Keeps s0 (State.setBytes s a l) := by
  induction l generalizing s a with | nil => (unfold State.setBytes; simp [hK]; done) | cons a r ih => (unfold State.setBytes; simp +contextual (maxDischargeDepth := 99) [hK, ih]; done)

@[simp] theorem State.writeNat_keeps {s0 s : State} {a : Nat} {n : Nat} {v : Nat} (hK : Keeps s0 s) :
    Keeps s0 (State.writeNat s a n v) := by
  unfold State.writeNat; simp +contextual (maxDischargeDepth := 99) [hK]

@[simp] theorem State.drawn_keeps {s0 s : State} (hK : Keeps s0 s) :
    Keeps s0 (State.drawn s) := by
  unfold State.drawn; simp +contextual (maxDischargeDepth := 99) [hK]

@[simp] theorem State.setLeaf_keeps {s0 s : State} {n : Nat} {l : Leaf} (hK : Keeps s0 s) :
    Keeps s0 (State.setLeaf s n l) := by
  unfold State.setLeaf; simp +contextual (maxDischargeDepth := 99) [hK]

@[simp] theorem State.wrTriple_keeps {s0 s : State} {a : Nat} {t16 : Int} (hK : Keeps s0 s) :
    Keeps s0 (State.wrTriple s a t16) := by
  unfold State.wrTriple; simp +contextual (maxDischargeDepth := 99) [hK]

theorem ColState.append_fusedSvn (c : ColState) (time : W64) (type sev : Nat) (data : BitVec 128) :
    (c.append time type sev data).fusedSvn = c.fusedSvn := by
  unfold ColState.append; simp only []; (repeat' split) <;> rfl

theorem ColState.append_nextSeq (c : ColState) (time : W64) (type sev : Nat) (data : BitVec 128) :
    c.nextSeq ≤ (c.append time type sev data).nextSeq := by
  unfold ColState.append; simp only []; (repeat' split) <;> simp <;> omega

@[simp] theorem State.log_keeps {s0 s : State} {type sev : Nat} {data : BitVec 128} (hK : Keeps s0 s) :
    Keeps s0 (State.log s type sev data) :=
  ⟨hK.1, hK.2.1, hK.2.2.1, Nat.le_trans hK.2.2.2.1 (Nat.le_of_eq (ColState.append_fusedSvn ..).symm),
    Nat.le_trans hK.2.2.2.2 (ColState.append_nextSeq ..)⟩

@[simp] theorem State.setFn_keeps {s0 s : State} {f : Nat} {p : PcieFn} (hK : Keeps s0 s) :
    Keeps s0 (State.setFn s f p) := by
  unfold State.setFn; simp +contextual (maxDischargeDepth := 99) [hK]

@[simp] theorem State.setMsix_keeps {s0 s : State} {v : Nat} {e : MsixEntry} (hK : Keeps s0 s) :
    Keeps s0 (State.setMsix s v e) := by
  unfold State.setMsix; simp +contextual (maxDischargeDepth := 99) [hK]

@[simp] theorem State.emit_keeps {s0 s : State} {o : Out} (hK : Keeps s0 s) :
    Keeps s0 (State.emit s o) := by
  unfold State.emit; simp +contextual (maxDischargeDepth := 99) [hK]

@[simp] theorem State.irqStamp_keeps {s0 s : State} {v : Nat} (hK : Keeps s0 s) :
    Keeps s0 (State.irqStamp s v) := by
  unfold State.irqStamp; simp +contextual (maxDischargeDepth := 99) [hK]

@[simp] theorem State.sendMsix_keeps {s0 s : State} {v : Nat} (hK : Keeps s0 s) :
    Keeps s0 (State.sendMsix s v) := by
  unfold State.sendMsix; simp +contextual (maxDischargeDepth := 99) [hK]

@[simp] theorem State.dropWrite_keeps {s0 s : State} {w : HostWrite} (hK : Keeps s0 s) :
    Keeps s0 (State.dropWrite s w) := by
  unfold State.dropWrite; simp +contextual (maxDischargeDepth := 99) [hK]

@[simp] theorem State.deliverVector_keeps {s0 s : State} {q : Nat} {v : Nat} (hK : Keeps s0 s) :
    Keeps s0 (State.deliverVector s q v) := by
  unfold State.deliverVector; simp +contextual (maxDischargeDepth := 99) [hK]

@[simp] theorem State.dropEvent_keeps {s0 s : State} (hK : Keeps s0 s) :
    Keeps s0 (State.dropEvent s) := by
  unfold State.dropEvent; simp +contextual (maxDischargeDepth := 99) [hK]

@[simp] theorem State.assertFor_keeps {s0 s : State} {q : Nat} {v : Nat} (hK : Keeps s0 s) :
    Keeps s0 (State.assertFor s q v) := by
  unfold State.assertFor; simp +contextual (maxDischargeDepth := 99) [hK]

@[simp] theorem State.assertVector_keeps {s0 s : State} {v : Nat} (hK : Keeps s0 s) :
    Keeps s0 (State.assertVector s v) := by
  unfold State.assertVector; simp +contextual (maxDischargeDepth := 99) [hK]

@[simp] theorem State.assertBlock_keeps {s0 s : State} {ev : Nat} (hK : Keeps s0 s) :
    Keeps s0 (State.assertBlock s ev) := by
  unfold State.assertBlock; simp +contextual (maxDischargeDepth := 99) [hK]

@[simp] theorem State.raiseMask_keeps {s0 s : State} {ev : Nat} {mask : W32} (hK : Keeps s0 s) :
    Keeps s0 (State.raiseMask s ev mask) := by
  unfold State.raiseMask; simp +contextual (maxDischargeDepth := 99) [hK]

@[simp] theorem State.raise_keeps {s0 s : State} {ev : Nat} {b : Nat} (hK : Keeps s0 s) :
    Keeps s0 (State.raise s ev b) := by
  unfold State.raise; simp +contextual (maxDischargeDepth := 99) [hK]

@[simp] theorem State.hostWrite_keeps {s0 s : State} {w : HostWrite} (hK : Keeps s0 s) :
    Keeps s0 (State.hostWrite s w) := by
  unfold State.hostWrite; simp +contextual (maxDischargeDepth := 99) [hK]

@[simp] theorem State.setRing_keeps {s0 s : State} {q : Nat} {r : Ring} (hK : Keeps s0 s) :
    Keeps s0 (State.setRing s q r) := by
  unfold State.setRing; simp +contextual (maxDischargeDepth := 99) [hK]

@[simp] theorem State.signalRing_keeps {s0 s : State} {cq : Nat} (hK : Keeps s0 s) :
    Keeps s0 (State.signalRing s cq) := by
  unfold State.signalRing; simp +contextual (maxDischargeDepth := 99) [hK]

@[simp] theorem State.postEntry_keeps {s0 s : State} {cq : Nat} {fn : Nat} {tag : W32} {irq : Bool} {specific : Nat} {status : Nat} {abortLate : Bool} {clamped : Bool} {time : W64} (hK : Keeps s0 s) :
    Keeps s0 (State.postEntry s cq fn tag irq specific status abortLate clamped time) := by
  unfold State.postEntry; simp +contextual (maxDischargeDepth := 99) [hK]

@[simp] theorem State.completeAt_keeps {s0 s : State} {d : DRef} {status : Nat} {specific : Nat} {abortLate : Bool} {time : W64} (hK : Keeps s0 s) :
    Keeps s0 (State.completeAt s d status specific abortLate time) := by
  unfold State.completeAt; simp +contextual (maxDischargeDepth := 99) [hK]

@[simp] theorem State.complete_keeps {s0 s : State} {d : DRef} {status : Nat} {specific : Nat} (hK : Keeps s0 s) :
    Keeps s0 (State.complete s d status specific) := by
  unfold State.complete; simp +contextual (maxDischargeDepth := 99) [hK]

@[simp] theorem State.completeAll_keeps {s0 s : State} {l : List DRef} {status : Nat} (hK : Keeps s0 s) :
    Keeps s0 (State.completeAll s l status) := by
  unfold State.completeAll; simp +contextual (maxDischargeDepth := 99) [hK]

@[simp] theorem State.clampRing_keeps {s0 s : State} {q : Nat} (hK : Keeps s0 s) :
    Keeps s0 (State.clampRing s q) := by
  unfold State.clampRing; simp +contextual (maxDischargeDepth := 99) [hK]

@[simp] theorem State.clampDesc_keeps {s0 s : State} {d : Desc} {clamped : Bool} {cc : Nat} (hK : Keeps s0 s) :
    Keeps s0 (State.clampDesc s d clamped cc) := by
  unfold State.clampDesc; simp +contextual (maxDischargeDepth := 99) [hK]

end Sys2Proof.Machine
end

