-- ==== Sys2Proof/Laws/KeepsRegs.lean ====
section
/-! SUPPORT. What the operations of Machine/Regs.lean keep (Laws/Keeps.lean). -/

set_option linter.unusedSimpArgs false

namespace Sys2Proof.Machine

@[simp] theorem State.writeFields_keeps {s0 s : State} {d : RegDef} {a : Nat} {v : W32} (hK : Keeps s0 s) :
    Keeps s0 (State.writeFields s d a v) := by
  unfold State.writeFields; simp +contextual (maxDischargeDepth := 99) [hK]

@[simp] theorem State.writeTable_keeps {s0 s : State} {a : Nat} {v : W32} (hK : Keeps s0 s) :
    Keeps s0 (State.writeTable s a v) := by
  unfold State.writeTable; split <;> simp +contextual (maxDischargeDepth := 99) [hK]

@[simp] theorem State.writeContext_keeps {s0 s : State} {a : Nat} {v : W32} {v' : W32} (hK : Keeps s0 s) :
    Keeps s0 (State.writeContext s a v v') := by
  unfold State.writeContext; simp +contextual (maxDischargeDepth := 99) [hK]

@[simp] theorem State.setCluster_keeps {s0 s : State} {d : Nat} {x : Cluster} (hK : Keeps s0 s) :
    Keeps s0 (State.setCluster s d x) := by
  unfold State.setCluster; simp +contextual (maxDischargeDepth := 99) [hK]

@[simp] theorem State.wakeCluster_keeps {s0 s : State} {d : Nat} (hK : Keeps s0 s) :
    Keeps s0 (State.wakeCluster s d) := by
  unfold State.wakeCluster; simp +contextual (maxDischargeDepth := 99) [hK]

@[simp] theorem State.hostWriteTo_keeps {s0 s : State} {a : Nat} {f : State → State} (hf_f : ∀ x0, Keeps s0 x0 → Keeps s0 (f x0)) (hK : Keeps s0 s) :
    Keeps s0 (State.hostWriteTo s a f) := by
  unfold State.hostWriteTo; simp +contextual (maxDischargeDepth := 99) [hK, hf_f]

end Sys2Proof.Machine
end

