-- ==== Sys2Proof/Laws/KeepsLeafData.lean ====
section
/-! SUPPORT. What the operations of Machine/LeafData.lean keep (Laws/Keeps.lean). -/

set_option linter.unusedSimpArgs false

namespace Sys2Proof.Machine

@[simp] theorem State.leafStore_keeps {s0 s : State} {n : Nat} {x : Bool} {addr : Nat} {bytes : Nat} {v : Nat} (hK : Keeps s0 s) :
    Keeps s0 (State.leafStore s n x addr bytes v).1 := by
  unfold State.leafStore; split <;> simp +contextual (maxDischargeDepth := 99) [hK]

@[simp] theorem State.portWait_keeps {s0 s : State} {n : Nat} {x : Bool} {addr : Nat} (hK : Keeps s0 s) :
    Keeps s0 (State.portWait s n x addr) := by
  unfold State.portWait; simp +contextual (maxDischargeDepth := 99) [hK]

@[simp] theorem State.memExec_keeps {sB s : State} {s0 : State} {l0 : Leaf} {n : Nat} {rep : Bool} {x : Bool} {mop : Nat} {w : Nat} {pn : Nat} {reg : Nat} (hK : Keeps sB s) :
    Keeps sB (State.memExec s0 s l0 n rep x mop w pn reg) := by
  unfold State.memExec; simp +contextual (maxDischargeDepth := 99) [hK]

@[simp] theorem State.wideExec_keeps {sB s : State} {s0 : State} {l0 : Leaf} {n : Nat} {rep : Bool} {x : Bool} {mop : Nat} {w : Nat} {pn : Nat} {reg : Nat} {u : Bool} {sh : Nat} {off : Nat} (hK : Keeps sB s) :
    Keeps sB (State.wideExec s0 s l0 n rep x mop w pn reg u sh off) := by
  unfold State.wideExec; simp +contextual (maxDischargeDepth := 99) [hK]

@[simp] theorem State.dataOp_keeps {sB s : State} {s0 : State} {n : Nat} {rep : Bool} {iter : Nat} {op : LeafOp} (hK : Keeps sB s) :
    Keeps sB (State.dataOp s0 n rep iter op s) := by
  unfold State.dataOp; split <;> simp +contextual (maxDischargeDepth := 99) [hK]

@[simp] theorem State.dataOps_keeps {s0 s : State} {n : Nat} {rep : Bool} {iter : Nat} {ops : List LeafOp} (hK : Keeps s0 s) :
    Keeps s0 (State.dataOps s n rep iter ops) := by
  unfold State.dataOps; simp +contextual (maxDischargeDepth := 99) [hK]

@[simp] theorem State.blockedFor_keeps {s0 s : State} {n : Nat} {freeze : Bool} (hK : Keeps s0 s) :
    Keeps s0 (State.blockedFor s n freeze) := by
  unfold State.blockedFor; simp +contextual (maxDischargeDepth := 99) [hK]

@[simp] theorem State.stalledFor_keeps {s0 s : State} {n : Nat} (hK : Keeps s0 s) :
    Keeps s0 (State.stalledFor s n) := by
  unfold State.stalledFor; simp +contextual (maxDischargeDepth := 99) [hK]

@[simp] theorem State.finishBlocked_keeps {s0 s : State} {n : Nat} (hK : Keeps s0 s) :
    Keeps s0 (State.finishBlocked s n) := by
  unfold State.finishBlocked; simp +contextual (maxDischargeDepth := 99) [hK]

end Sys2Proof.Machine
end

