-- ==== Sys2Proof/Laws/KeepsMemMap.lean ====
section
/-! SUPPORT. What the operations of Machine/MemMap.lean keep (Laws/Keeps.lean). -/

set_option linter.unusedSimpArgs false

namespace Sys2Proof.Machine

@[simp] theorem State.setMarks_keeps {s0 s : State} {p : Nat} {n : Nat} (hK : Keeps s0 s) :
    Keeps s0 (State.setMarks s p n) := by
  unfold State.setMarks; simp +contextual (maxDischargeDepth := 99) [hK]

@[simp] theorem State.corrected_keeps {s0 s : State} {c : Nat} {p : Nat} (hK : Keeps s0 s) :
    Keeps s0 (State.corrected s c p) := by
  unfold State.corrected; simp +contextual (maxDischargeDepth := 99) [hK]

@[simp] theorem State.uncorrectable_keeps {s0 s : State} {requester : Nat} {c : Nat} {o : Nat} {a : Nat} (hK : Keeps s0 s) :
    Keeps s0 (State.uncorrectable s requester c o a) := by
  unfold State.uncorrectable; simp +contextual (maxDischargeDepth := 99) [hK]

@[simp] theorem State.checkWord_keeps {s0 s : State} {requester : Nat} {a : Nat} (hK : Keeps s0 s) :
    Keeps s0 (State.checkWord s requester a).1 := by
  unfold State.checkWord; simp +contextual (maxDischargeDepth := 99) [hK]

end Sys2Proof.Machine
end

