-- ==== Sys2Proof/Laws/KeepsStaging.lean ====
section
/-! SUPPORT. What the operations of Machine/Staging.lean keep (Laws/Keeps.lean). -/

set_option linter.unusedSimpArgs false

namespace Sys2Proof.Machine

@[simp] theorem State.offer_keeps {s0 s : State} {c : CapRec} (hK : Keeps s0 s) :
    Keeps s0 (State.offer s c) := by
  unfold State.offer; simp +contextual (maxDischargeDepth := 99) [hK]

@[simp] theorem State.offerFrame_keeps {s0 s : State} {kind : Nat} {p : Nat} {data : List Byte} {time : Int} {bad : Bool} {replayed : Bool} {f : FrameFlow} (hK : Keeps s0 s) :
    Keeps s0 (State.offerFrame s kind p data time bad replayed f) := by
  unfold State.offerFrame; simp +contextual (maxDischargeDepth := 99) [hK]

@[simp] theorem State.tapItem_keeps {s0 s : State} {qid : Nat} {i : QItem} (hK : Keeps s0 s) :
    Keeps s0 (State.tapItem s qid i) := by
  unfold State.tapItem; simp +contextual (maxDischargeDepth := 99) [hK]

@[simp] theorem State.tapSamples_keeps {s0 s : State} {tx : Bool} {carrier : Nat} {ant : Nat} {slot : W32} {time : Int} {words : List QWord} (hK : Keeps s0 s) :
    Keeps s0 (State.tapSamples s tx carrier ant slot time words) := by
  unfold State.tapSamples; simp +contextual (maxDischargeDepth := 99) [hK]

@[simp] theorem State.setChanP_keeps {s0 s : State} {c : Nat} {x : PressChan} (hK : Keeps s0 s) :
    Keeps s0 (State.setChanP s c x) := by
  unfold State.setChanP; simp +contextual (maxDischargeDepth := 99) [hK]

@[simp] theorem State.setVat_keeps {s0 s : State} {h : Nat} {x : VatHalf} (hK : Keeps s0 s) :
    Keeps s0 (State.setVat s h x) := by
  unfold State.setVat; simp +contextual (maxDischargeDepth := 99) [hK]

end Sys2Proof.Machine
end

