-- ==== Sys2Proof/Laws/KeepsQueue.lean ====
section
/-! SUPPORT. What the operations of Machine/Queue.lean keep (Laws/Keeps.lean). -/

set_option linter.unusedSimpArgs false

namespace Sys2Proof.Machine

@[simp] theorem State.setQueue_keeps {s0 s : State} {q : Nat} {c : Queue} (hK : Keeps s0 s) :
    Keeps s0 (State.setQueue s q c) := by
  unfold State.setQueue; simp +contextual (maxDischargeDepth := 99) [hK]

@[simp] theorem State.putQueue_keeps {s0 s : State} {qid : Nat} {q : Queue} (hK : Keeps s0 s) :
    Keeps s0 (State.putQueue s qid q) := by
  unfold State.putQueue; simp +contextual (maxDischargeDepth := 99) [hK]

@[simp] theorem State.sendFlags_keeps {s0 s : State} {src : FlagSource} {task : Nat} {mask : W32} (hK : Keeps s0 s) :
    Keeps s0 (State.sendFlags s src task mask) := by
  unfold State.sendFlags; simp +contextual (maxDischargeDepth := 99) [hK]

@[simp] theorem State.notify_keeps {s0 s : State} {src : FlagSource} {task : Nat} {flag : Nat} (hK : Keeps s0 s) :
    Keeps s0 (State.notify s src task flag) := by
  unfold State.notify; simp +contextual (maxDischargeDepth := 99) [hK]

@[simp] theorem State.itemWritten_keeps {s0 s : State} {qid : Nat} (hK : Keeps s0 s) :
    Keeps s0 (State.itemWritten s qid).1 := by
  unfold State.itemWritten; dsimp only; (repeat' (first | (simp +contextual (maxDischargeDepth := 99) [hK]; done) | split))

@[simp] theorem State.makeVisible_keeps {s0 s : State} {qid : Nat} {p : Producer} {ok : Bool} (hK : Keeps s0 s) :
    Keeps s0 (State.makeVisible s qid p ok).1 := by
  unfold State.makeVisible; dsimp only; (repeat' (first | (simp +contextual (maxDischargeDepth := 99) [hK]; done) | split))

@[simp] theorem State.putWords_keeps {s0 s : State} {qid : Nat} {p : Producer} {l : List QWord} (hK : Keeps s0 s) :
    Keeps s0 (State.putWords s qid p l).1 := by
  induction l generalizing s with | nil => (unfold State.putWords; simp [hK]; done) | cons a r ih => (unfold State.putWords; simp +contextual (maxDischargeDepth := 99) [hK, ih]; done)

@[simp] theorem State.commitItem_keeps {s0 s : State} {qid : Nat} {p : Producer} (hK : Keeps s0 s) :
    Keeps s0 (State.commitItem s qid p).1 := by
  unfold State.commitItem; simp +contextual (maxDischargeDepth := 99) [hK]

@[simp] theorem State.commitNow_keeps {s0 s : State} {qid : Nat} {p : Producer} (hK : Keeps s0 s) :
    Keeps s0 (State.commitNow s qid p).1 := by
  unfold State.commitNow; dsimp only; (repeat' (first | (simp +contextual (maxDischargeDepth := 99) [hK]; done) | split))

@[simp] theorem State.advanceWrite_keeps {s0 s : State} {w : QWrite} (hK : Keeps s0 s) :
    Keeps s0 (State.advanceWrite s w).1 := by
  unfold State.advanceWrite; dsimp only; (repeat' (first | (simp +contextual (maxDischargeDepth := 99) [hK]; done) | split))

@[simp] theorem State.runWrites_keeps {s0 s : State} {done : List QWrite} {l : List QWrite} (hK : Keeps s0 s) :
    Keeps s0 (State.runWrites s done l) := by
  induction l generalizing s done with | nil => (unfold State.runWrites; (repeat' (first | (simp +contextual (maxDischargeDepth := 99) [hK]; done) | split)); done) | cons a r ih => (unfold State.runWrites; dsimp only; (repeat' (first | (simp +contextual (maxDischargeDepth := 99) [hK, ih]; done) | split)); done)

@[simp] theorem State.drainBuffer_keeps {s0 s : State} {n : Nat} {l : List LinkMsg} (hK : Keeps s0 s) :
    Keeps s0 (State.drainBuffer s n l).1 := by
  induction l generalizing s with
  | nil => exact hK
  | cons m r ih =>
    cases m with
    | commit qid rd => exact ih (State.setLeaf_keeps (State.commitItem_keeps hK))
    | word qid start w =>
      unfold State.drainBuffer
      split
      · exact ih hK
      · extract_lets x
        split
        · rename_i y _
          have hy : Keeps s0 y.1 := State.putWords_keeps (State.putQueue_keeps hK)
          split
          · exact ih hy
          · dsimp only; split
            · exact State.setQueue_keeps hy
            · exact hy
        · exact State.setQueue_keeps hK

@[simp] theorem State.portServed_keeps {s0 s : State} {n : Nat} (hK : Keeps s0 s) :
    Keeps s0 (State.portServed s n) := by
  unfold State.portServed; simp +contextual (maxDischargeDepth := 99) [hK]

@[simp] theorem State.drainLeaf_keeps {s0 s : State} {n : Nat} {fresh : Bool} (hK : Keeps s0 s) :
    Keeps s0 (State.drainLeaf s n fresh) := by
  unfold State.drainLeaf; simp +contextual (maxDischargeDepth := 99) [hK]

@[simp] theorem State.noteCommit_keeps {s0 s : State} {qid : Nat} {p : Producer} {st : Option Nat} (hK : Keeps s0 s) :
    Keeps s0 (State.noteCommit s qid p st) := by
  unfold State.noteCommit; dsimp only; (repeat' (first | (simp +contextual (maxDischargeDepth := 99) [hK]; done) | split))

@[simp] theorem State.portOp_keeps {s0 s : State} {m : PortMsg} (hK : Keeps s0 s) :
    Keeps s0 (State.portOp s m).1 := by
  unfold State.portOp; split <;> simp +contextual (maxDischargeDepth := 99) [hK]

@[simp] theorem State.runPorts_keeps {s0 s : State} {done : List PortMsg} {l : List PortMsg} (hK : Keeps s0 s) :
    Keeps s0 (State.runPorts s done l) := by
  induction l generalizing s done with | nil => (unfold State.runPorts; simp [hK]; done) | cons a r ih => (unfold State.runPorts; simp +contextual (maxDischargeDepth := 99) [hK, ih]; done)

@[simp] theorem State.retryOnce_keeps {s0 s : State} (hK : Keeps s0 s) :
    Keeps s0 (State.retryOnce s) := by
  unfold State.retryOnce; simp +contextual (maxDischargeDepth := 99) [hK]

@[simp] theorem State.retryWrites_keeps {s0 s : State} (hK : Keeps s0 s) :
    Keeps s0 (State.retryWrites s) := by
  unfold State.retryWrites; simp +contextual (maxDischargeDepth := 99) [hK]

@[simp] theorem State.pushItem_keeps {s0 s : State} {qid : Nat} {p : Producer} {prio : Nat} {tag : BitVec 16} {words : List QWord} (hK : Keeps s0 s) :
    Keeps s0 (State.pushItem s qid p prio tag words).1 := by
  unfold State.pushItem; simp +contextual (maxDischargeDepth := 99) [hK]

@[simp] theorem State.readQueue_keeps {s0 s : State} {qid : Nat} {c : Consumer} (hK : Keeps s0 s) :
    Keeps s0 (State.readQueue s qid c).1 := by
  unfold State.readQueue; simp +contextual (maxDischargeDepth := 99) [hK]

@[simp] theorem State.sendPort_keeps {s0 s : State} {m : PortMsg} (hK : Keeps s0 s) :
    Keeps s0 (State.sendPort s m) := by
  unfold State.sendPort; simp +contextual (maxDischargeDepth := 99) [hK]

@[simp] theorem execStartOfItem_keeps {s0 s : State} {qid : Nat} {prod : Producer} {prio : Nat} {tag : BitVec 16} (hK : Keeps s0 s) :
    KeepsRes s0 (execStartOfItem qid prod prio tag s) := by
  unfold execStartOfItem; simp +contextual (maxDischargeDepth := 99) [hK]

@[simp] theorem execQueueWord_keeps {s0 s : State} {qid : Nat} {prod : Producer} {word : QWord} (hK : Keeps s0 s) :
    KeepsRes s0 (execQueueWord qid prod word s) := by
  unfold execQueueWord; simp +contextual (maxDischargeDepth := 99) [hK]

@[simp] theorem execItemCommit_keeps {s0 s : State} {qid : Nat} {prod : Producer} (hK : Keeps s0 s) :
    KeepsRes s0 (execItemCommit qid prod s) := by
  unfold execItemCommit; simp +contextual (maxDischargeDepth := 99) [hK]

@[simp] theorem execItemVisible_keeps {s0 s : State} {qid : Nat} {prod : Producer} {ok : Bool} (hK : Keeps s0 s) :
    KeepsRes s0 (execItemVisible qid prod ok s) := by
  unfold execItemVisible; simp +contextual (maxDischargeDepth := 99) [hK]

@[simp] theorem State.rewindItem_keeps {s0 s : State} {qid : Nat} {p : Producer} {asked : Bool} (hK : Keeps s0 s) :
    Keeps s0 (State.rewindItem s qid p asked) := by
  unfold State.rewindItem; dsimp only; (repeat' (first | (simp +contextual (maxDischargeDepth := 99) [hK]; done) | split))

@[simp] theorem execItemRewind_keeps {s0 s : State} {qid : Nat} {prod : Producer} {asked : Bool} (hK : Keeps s0 s) :
    KeepsRes s0 (execItemRewind qid prod asked s) := by
  unfold execItemRewind; simp +contextual (maxDischargeDepth := 99) [hK]

@[simp] theorem execItemRead_keeps {s0 s : State} {qid : Nat} {cons : Consumer} (hK : Keeps s0 s) :
    KeepsRes s0 (execItemRead qid cons s) := by
  unfold execItemRead; simp +contextual (maxDischargeDepth := 99) [hK]

@[simp] theorem execIdleNotice_keeps {s0 s : State} {qid : Nat} (hK : Keeps s0 s) :
    KeepsRes s0 (execIdleNotice qid s) := by
  unfold execIdleNotice; simp +contextual (maxDischargeDepth := 99) [hK]

@[simp] theorem queueCtrl_keeps {s0 s : State} {d : Desc} {f : Nat → Queue → State} (hf_f : ∀ x0 x1, Keeps s0 (f x0 x1)) (hK : Keeps s0 s) :
    Keeps s0 (queueCtrl s d f) := by
  unfold queueCtrl; simp +contextual (maxDischargeDepth := 99) [hK, hf_f]

@[simp] theorem State.queueDisable_keeps {s0 s : State} {d : Desc} (hK : Keeps s0 s) :
    Keeps s0 (State.queueDisable s d) := by
  unfold State.queueDisable; simp +contextual (maxDischargeDepth := 99) [hK]

@[simp] theorem execQueueDisable_keeps {s0 s : State} {d : Desc} (hK : Keeps s0 s) :
    KeepsRes s0 (execQueueDisable d s) := by
  unfold execQueueDisable; simp +contextual (maxDischargeDepth := 99) [hK]

@[simp] theorem State.queueEnable_keeps {s0 s : State} {d : Desc} (hK : Keeps s0 s) :
    Keeps s0 (State.queueEnable s d) := by
  unfold State.queueEnable; simp +contextual (maxDischargeDepth := 99) [hK]

@[simp] theorem execQueueEnable_keeps {s0 s : State} {d : Desc} (hK : Keeps s0 s) :
    KeepsRes s0 (execQueueEnable d s) := by
  unfold execQueueEnable; simp +contextual (maxDischargeDepth := 99) [hK]

@[simp] theorem State.settleSent_keeps {s0 s : State} {qid : Nat} (hK : Keeps s0 s) :
    Keeps s0 (State.settleSent s qid) := by
  unfold State.settleSent; simp +contextual (maxDischargeDepth := 99) [hK]

@[simp] theorem State.queueFlush_keeps {s0 s : State} {d : Desc} (hK : Keeps s0 s) :
    Keeps s0 (State.queueFlush s d) := by
  unfold State.queueFlush; simp +contextual (maxDischargeDepth := 99) [hK]

@[simp] theorem execQueueFlush_keeps {s0 s : State} {d : Desc} (hK : Keeps s0 s) :
    KeepsRes s0 (execQueueFlush d s) := by
  unfold execQueueFlush; simp +contextual (maxDischargeDepth := 99) [hK]

@[simp] theorem State.queueNop_keeps {s0 s : State} {d : Desc} (hK : Keeps s0 s) :
    Keeps s0 (State.queueNop s d) := by
  unfold State.queueNop; simp +contextual (maxDischargeDepth := 99) [hK]

@[simp] theorem State.queueWrite_keeps {s0 s : State} {d : Desc} (hK : Keeps s0 s) :
    Keeps s0 (State.queueWrite s d) := by
  unfold State.queueWrite; simp +contextual (maxDischargeDepth := 99) [hK]

@[simp] theorem execQueueWrite_keeps {s0 s : State} {d : Desc} (hK : Keeps s0 s) :
    KeepsRes s0 (execQueueWrite d s) := by
  unfold execQueueWrite; simp +contextual (maxDischargeDepth := 99) [hK]

@[simp] theorem State.queueWriteData_keeps {s0 s : State} {ring : Nat} {tag : W32} {ok : Bool} {words : List QWord} (hK : Keeps s0 s) :
    Keeps s0 (State.queueWriteData s ring tag ok words) := by
  unfold State.queueWriteData; dsimp only; (repeat' (first | (simp +contextual (maxDischargeDepth := 99) [hK]; done) | split))

@[simp] theorem execQueueWriteData_keeps {s0 s : State} {ring : Nat} {tag : W32} {ok : Bool} {words : List QWord} (hK : Keeps s0 s) :
    KeepsRes s0 (execQueueWriteData ring tag ok words s) := by
  unfold execQueueWriteData; simp +contextual (maxDischargeDepth := 99) [hK]

@[simp] theorem State.loadQctx_keeps {s0 s : State} (hK : Keeps s0 s) :
    Keeps s0 (State.loadQctx s) := by
  unfold State.loadQctx; simp +contextual (maxDischargeDepth := 99) [hK]

@[simp] theorem State.qctxGate_keeps {s0 s : State} {f : State → State} (hf_f : ∀ x0, Keeps s0 x0 → Keeps s0 (f x0)) (hK : Keeps s0 s) :
    Keeps s0 (State.qctxGate s f) := by
  unfold State.qctxGate; simp +contextual (maxDischargeDepth := 99) [hK, hf_f]

@[simp] theorem State.qctxSelect_keeps {s0 s : State} {v : W32} (hK : Keeps s0 s) :
    Keeps s0 (State.qctxSelect s v) := by
  unfold State.qctxSelect; simp +contextual (maxDischargeDepth := 99) [hK]

@[simp] theorem execQctxSelect_keeps {s0 s : State} {value : W32} (hK : Keeps s0 s) :
    KeepsRes s0 (execQctxSelect value s) := by
  unfold execQctxSelect; simp +contextual (maxDischargeDepth := 99) [hK]

@[simp] theorem State.applyQctx_keeps {s0 s : State} (hK : Keeps s0 s) :
    Keeps s0 (State.applyQctx s) := by
  unfold State.applyQctx; simp +contextual (maxDischargeDepth := 99) [hK]

@[simp] theorem State.qctxCommit_keeps {s0 s : State} {v : W32} (hK : Keeps s0 s) :
    Keeps s0 (State.qctxCommit s v) := by
  unfold State.qctxCommit; simp +contextual (maxDischargeDepth := 99) [hK]

@[simp] theorem execQctxCommit_keeps {s0 s : State} {value : W32} (hK : Keeps s0 s) :
    KeepsRes s0 (execQctxCommit value s) := by
  unfold execQctxCommit; simp +contextual (maxDischargeDepth := 99) [hK]

@[simp] theorem execQctxCommitDone_keeps {s0 s : State} (hK : Keeps s0 s) :
    KeepsRes s0 (execQctxCommitDone s) := by
  unfold execQctxCommitDone; simp +contextual (maxDischargeDepth := 99) [hK]

@[simp] theorem State.withdrawPush_keeps {s0 s : State} {n : Nat} {qid : Nat} (hK : Keeps s0 s) :
    Keeps s0 (State.withdrawPush s n qid) := by
  unfold State.withdrawPush; simp +contextual (maxDischargeDepth := 99) [hK]

@[simp] theorem State.abortStalls_keeps {s0 s : State} {carrier : Nat} {h : Half} (hK : Keeps s0 s) :
    Keeps s0 (State.abortStalls s carrier h) := by
  unfold State.abortStalls
  refine keeps_foldl _ _ (fun t n ht => ?_) ?_
  · split
    · split <;> simp [ht]
    · exact ht
  · simp [hK]

end Sys2Proof.Machine
end

