-- ==== Sys2Proof/Laws/KeepsTimebase.lean ====
section
/-! SUPPORT. What the operations of Machine/Timebase.lean keep (Laws/Keeps.lean). -/

set_option linter.unusedSimpArgs false

namespace Sys2Proof.Machine

theorem TbState.tick_legal (t : TbState) (ppm : Nat) (source : Bool) (off : Int) (h : t.rateLegal) : (t.tick ppm source off).rateLegal := by
  unfold TbState.tick TbState.rateLegal; dsimp only
  cases hp : t.pendingRate with
  | none => exact ⟨h.1, h.2.1, fun r e => by simp [hp] at e⟩
  | some r => exact ⟨(h.2.2 r hp).1, (h.2.2 r hp).2, fun q e => by simp at e⟩

@[simp] theorem State.tclkTick_keeps {s0 s : State} (hK : Keeps s0 s) :
    Keeps s0 (State.tclkTick s) := by
  have h1 : Keeps s0 { s with tb := s.tb.tick s.slewPpm (s.bit Reg.TB_CTRL 0) s.ppsOffset } :=
    keeps_updateRate hK (TbState.tick_legal _ _ _ _)
  unfold State.tclkTick; dsimp only; split
  · exact State.raise_keeps h1
  · exact h1

@[simp] theorem execTclkTick_keeps {s0 s : State} (hK : Keeps s0 s) :
    KeepsRes s0 (execTclkTick s) := by
  unfold execTclkTick; simp +contextual (maxDischargeDepth := 99) [hK]

@[simp] theorem State.slewDone_keeps {s0 s : State} (hK : Keeps s0 s) :
    Keeps s0 (State.slewDone s) := by
  unfold State.slewDone; simp +contextual (maxDischargeDepth := 99) [hK]

@[simp] theorem execSlewDone_keeps {s0 s : State} (hK : Keeps s0 s) :
    KeepsRes s0 (execSlewDone s) := by
  unfold execSlewDone; simp +contextual (maxDischargeDepth := 99) [hK]

theorem clampRate_legal (r : Nat) : rateMin ≤ clampRate r ∧ clampRate r ≤ rateMax := by
  unfold clampRate rateMin rateMax; split
  · omega
  · split <;> omega

@[simp] theorem State.commitRate_keeps {s0 s : State} {r : Nat} (hK : Keeps s0 s) :
    Keeps s0 (State.commitRate s r) := by
  unfold State.commitRate; dsimp only
  refine State.wr_keeps (State.wr_keeps (keeps_updateRate hK ?_))
  exact fun h => ⟨h.1, h.2.1, fun q e => by cases e; exact clampRate_legal r⟩

@[simp] theorem State.writeRateHi_keeps {s0 s : State} {v : W32} (hK : Keeps s0 s) :
    Keeps s0 (State.writeRateHi s v) := by
  unfold State.writeRateHi; simp +contextual (maxDischargeDepth := 99) [hK]

@[simp] theorem execTbRateCommit_keeps {s0 s : State} {value : W32} (hK : Keeps s0 s) :
    KeepsRes s0 (execTbRateCommit value s) := by
  unfold execTbRateCommit; simp +contextual (maxDischargeDepth := 99) [hK]

@[simp] theorem State.resumeGrid_keeps {s0 s : State} (hK : Keeps s0 s) :
    Keeps s0 (State.resumeGrid s) := by
  unfold State.resumeGrid; simp +contextual (maxDischargeDepth := 99) [hK]

@[simp] theorem State.applyStep_keeps {s0 s : State} {d : Int} (hK : Keeps s0 s) :
    Keeps s0 (State.applyStep s d) := by
  unfold State.applyStep; simp +contextual (maxDischargeDepth := 99) [hK]

@[simp] theorem State.adjust_keeps {s0 s : State} {adj : Int} (hK : Keeps s0 s) :
    Keeps s0 (State.adjust s adj) := by
  unfold State.adjust; simp +contextual (maxDischargeDepth := 99) [hK]

@[simp] theorem State.writeAdjHi_keeps {s0 s : State} {v : W32} (hK : Keeps s0 s) :
    Keeps s0 (State.writeAdjHi s v) := by
  unfold State.writeAdjHi; simp +contextual (maxDischargeDepth := 99) [hK]

@[simp] theorem execAdjustment_keeps {s0 s : State} {value : W32} (hK : Keeps s0 s) :
    KeepsRes s0 (execAdjustment value s) := by
  unfold execAdjustment; simp +contextual (maxDischargeDepth := 99) [hK]

@[simp] theorem State.writeSetSecHi_keeps {s0 s : State} {v : W32} (hK : Keeps s0 s) :
    Keeps s0 (State.writeSetSecHi s v) := by
  unfold State.writeSetSecHi; simp +contextual (maxDischargeDepth := 99) [hK]

@[simp] theorem execTimeSet_keeps {s0 s : State} {value : W32} (hK : Keeps s0 s) :
    KeepsRes s0 (execTimeSet value s) := by
  unfold execTimeSet; simp +contextual (maxDischargeDepth := 99) [hK]

@[simp] theorem State.writeTbStaged_keeps {s0 s : State} {a : Nat} {v : W32} (hK : Keeps s0 s) :
    Keeps s0 (State.writeTbStaged s a v) := by
  unfold State.writeTbStaged; simp +contextual (maxDischargeDepth := 99) [hK]

@[simp] theorem execSourceChange_keeps {s0 s : State} {value : W32} (hK : Keeps s0 s) :
    KeepsRes s0 (execSourceChange value s) := by
  unfold execSourceChange; simp +contextual (maxDischargeDepth := 99) [hK]

@[simp] theorem State.writeRefCtrl_keeps {s0 s : State} {v : W32} (hK : Keeps s0 s) :
    Keeps s0 (State.writeRefCtrl s v) := by
  unfold State.writeRefCtrl; dsimp only; split
  · exact State.writeTable_keeps hK
  · exact keeps_updateRate (State.writeTable_keeps hK) id

@[simp] theorem State.tbEvent_keeps {s0 s : State} {b : Nat} (hK : Keeps s0 s) :
    Keeps s0 (State.tbEvent s b) := by
  unfold State.tbEvent; simp +contextual (maxDischargeDepth := 99) [hK]

@[simp] theorem State.refLost_keeps {s0 s : State} (hK : Keeps s0 s) :
    Keeps s0 (State.refLost s) := by
  unfold State.refLost; dsimp only; (repeat' (first | (simp +contextual (maxDischargeDepth := 99) [hK]; done) | split))

@[simp] theorem execRefLost_keeps {s0 s : State} (hK : Keeps s0 s) :
    KeepsRes s0 (execRefLost s) := by
  unfold execRefLost; simp +contextual (maxDischargeDepth := 99) [hK]

@[simp] theorem State.refReturn_keeps {s0 s : State} {locked : Bool} (hK : Keeps s0 s) :
    Keeps s0 (State.refReturn s locked) := by
  unfold State.refReturn; dsimp only; (repeat' (first | (simp +contextual (maxDischargeDepth := 99) [hK]; done) | split))

@[simp] theorem execRefReturn_keeps {s0 s : State} {locked : Bool} (hK : Keeps s0 s) :
    KeepsRes s0 (execRefReturn locked s) := by
  unfold execRefReturn; simp +contextual (maxDischargeDepth := 99) [hK]

@[simp] theorem State.referenceDetection_keeps {s0 s : State} {input : Nat} {present : Bool} (hK : Keeps s0 s) :
    Keeps s0 (State.referenceDetection s input present) := by
  unfold State.referenceDetection; simp +contextual (maxDischargeDepth := 99) [hK]

@[simp] theorem execReferenceDetection_keeps {s0 s : State} {input : Nat} {present : Bool} (hK : Keeps s0 s) :
    KeepsRes s0 (execReferenceDetection input present s) := by
  unfold execReferenceDetection; simp +contextual (maxDischargeDepth := 99) [hK]

@[simp] theorem execPpsIn_keeps {s0 s : State} (hK : Keeps s0 s) :
    KeepsRes s0 (execPpsIn s) := by
  unfold execPpsIn; simp +contextual (maxDischargeDepth := 99) [hK]

@[simp] theorem execPpsOut_keeps {s0 s : State} (hK : Keeps s0 s) :
    KeepsRes s0 (execPpsOut s) := by
  unfold execPpsOut; simp +contextual (maxDischargeDepth := 99) [hK]

@[simp] theorem execPpsOutEnd_keeps {s0 s : State} (hK : Keeps s0 s) :
    KeepsRes s0 (execPpsOutEnd s) := by
  unfold execPpsOutEnd; simp +contextual (maxDischargeDepth := 99) [hK]

@[simp] theorem State.clearHoldover_keeps {s0 s : State} (hK : Keeps s0 s) :
    Keeps s0 (State.clearHoldover s) := by
  unfold State.clearHoldover; simp +contextual (maxDischargeDepth := 99) [hK]

@[simp] theorem execHoldoverClear_keeps {s0 s : State} (hK : Keeps s0 s) :
    KeepsRes s0 (execHoldoverClear s) := by
  unfold execHoldoverClear; simp +contextual (maxDischargeDepth := 99) [hK]

@[simp] theorem State.synceLos_keeps {s0 s : State} (hK : Keeps s0 s) :
    Keeps s0 (State.synceLos s) := by
  unfold State.synceLos; simp +contextual (maxDischargeDepth := 99) [hK]

end Sys2Proof.Machine
end

