-- ==== Sys2Proof/Laws/KeepsSlotGrid.lean ====
section
/-! SUPPORT. What the operations of Machine/SlotGrid.lean keep (Laws/Keeps.lean). -/

set_option linter.unusedSimpArgs false

namespace Sys2Proof.Machine

@[simp] theorem State.setCarrier_keeps {s0 s : State} {c : Nat} {x : Carrier} (hK : Keeps s0 s) :
    Keeps s0 (State.setCarrier s c x) := by
  unfold State.setCarrier; simp +contextual (maxDischargeDepth := 99) [hK]

@[simp] theorem State.storePageWord_keeps {s0 s : State} {carrier : Nat} {half : Nat} {page : Nat} {word : Nat} {v : W32} (hK : Keeps s0 s) :
    Keeps s0 (State.storePageWord s carrier half page word v) := by
  unfold State.storePageWord; simp +contextual (maxDischargeDepth := 99) [hK]

@[simp] theorem execMouldCopyDone_keeps {s0 s : State} {carrier : Nat} {half : Half} (hK : Keeps s0 s) :
    KeepsRes s0 (execMouldCopyDone carrier half s) := by
  unfold execMouldCopyDone; simp +contextual (maxDischargeDepth := 99) [hK]

@[simp] theorem State.armCarrier_keeps {s0 s : State} {d : Desc} {cid : Nat} {stop start : Bool} {half : Nat} {clamped : Bool}
    (hK : Keeps s0 s) : Keeps s0 (State.armCarrier s d cid stop start half clamped) := by
  unfold State.armCarrier
  extract_lets
  split
  · exact State.complete_keeps (State.clampDesc_keeps hK)
  · split
    · exact State.complete_keeps (State.clampDesc_keeps hK)
    · split
      · exact State.complete_keeps (State.clampDesc_keeps hK)
      · split
        · exact State.complete_keeps (State.clampDesc_keeps hK)
        · split
          · exact State.raise_keeps (State.bumpFld_keeps (State.setCarrier_keeps (State.clampDesc_keeps hK)))
          · exact State.setCarrier_keeps (State.clampDesc_keeps hK)

@[simp] theorem State.armModule_keeps {s0 s : State} {d : Desc} {clamped : Bool} (hK : Keeps s0 s) :
    Keeps s0 (State.armModule s d clamped) := by
  unfold State.armModule; simp +contextual (maxDischargeDepth := 99) [hK]

@[simp] theorem State.arm_keeps {s0 s : State} {d : Desc} (hK : Keeps s0 s) : Keeps s0 (State.arm s d) := by
  unfold State.arm
  extract_lets
  split
  · exact State.armModule_keeps hK
  · exact State.armCarrier_keeps hK

@[simp] theorem execArm_keeps {s0 s : State} {d : Desc} (hK : Keeps s0 s) :
    KeepsRes s0 (execArm d s) := by
  unfold execArm; simp +contextual (maxDischargeDepth := 99) [hK]

@[simp] theorem State.discardArmed_keeps {s0 s : State} {cid : Nat} {h : Half} (hK : Keeps s0 s) :
    Keeps s0 (State.discardArmed s cid h) := by
  unfold State.discardArmed; simp +contextual (maxDischargeDepth := 99) [hK]

@[simp] theorem State.carrierDisable_keeps {s0 s : State} {cid : Nat} (hK : Keeps s0 s) :
    Keeps s0 (State.carrierDisable s cid) := by
  unfold State.carrierDisable; dsimp only; (repeat' (first | (simp +contextual (maxDischargeDepth := 99) [hK]; done) | split))

@[simp] theorem State.carrierEnable_keeps {s0 s : State} {cid : Nat} (hK : Keeps s0 s) :
    Keeps s0 (State.carrierEnable s cid) := by
  unfold State.carrierEnable; simp +contextual (maxDischargeDepth := 99) [hK]

@[simp] theorem State.carrierCtrl_keeps {s0 s : State} {d : Desc} {clamped : Bool} {f : State → Nat → State} (hf_f : ∀ x0 x1, Keeps s0 x0 → Keeps s0 (f x0 x1)) (hK : Keeps s0 s) :
    Keeps s0 (State.carrierCtrl s d clamped f) := by
  unfold State.carrierCtrl; simp +contextual (maxDischargeDepth := 99) [hK, hf_f]

@[simp] theorem execCarrierEnable_keeps {s0 s : State} {d : Desc} (hK : Keeps s0 s) :
    KeepsRes s0 (execCarrierEnable d s) := by
  unfold execCarrierEnable; simp +contextual (maxDischargeDepth := 99) [hK]

@[simp] theorem State.writeGridStaged_keeps {s0 s : State} {a : Nat} {v : W32} (hK : Keeps s0 s) :
    Keeps s0 (State.writeGridStaged s a v) := by
  unfold State.writeGridStaged; simp +contextual (maxDischargeDepth := 99) [hK]

@[simp] theorem State.writeGridSecHi_keeps {s0 s : State} {v : W32} (hK : Keeps s0 s) :
    Keeps s0 (State.writeGridSecHi s v) := by
  unfold State.writeGridSecHi; simp +contextual (maxDischargeDepth := 99) [hK]

@[simp] theorem execGridOriginSet_keeps {s0 s : State} {value : W32} (hK : Keeps s0 s) :
    KeepsRes s0 (execGridOriginSet value s) := by
  unfold execGridOriginSet; simp +contextual (maxDischargeDepth := 99) [hK]

end Sys2Proof.Machine
end

