-- ==== Sys2Proof/Laws/KeepsGatherer.lean ====
section
/-! SUPPORT. What the operations of Machine/Gatherer.lean keep (Laws/Keeps.lean). -/

set_option linter.unusedSimpArgs false

namespace Sys2Proof.Machine

@[simp] theorem State.setTask_keeps {s0 s : State} {t : Nat} {x : Task} (hK : Keeps s0 s) :
    Keeps s0 (State.setTask s t x) := by
  unfold State.setTask; simp +contextual (maxDischargeDepth := 99) [hK]

@[simp] theorem State.setSig_keeps {s0 s : State} {g : Nat} {x : Signature} (hK : Keeps s0 s) :
    Keeps s0 (State.setSig s g x) := by
  unfold State.setSig; simp +contextual (maxDischargeDepth := 99) [hK]

@[simp] theorem State.evaluate_keeps {s0 s : State} {n : Nat} (hK : Keeps s0 s) :
    Keeps s0 (State.evaluate s n) := by
  unfold State.evaluate; simp +contextual (maxDischargeDepth := 99) [hK]

@[simp] theorem State.armTask_keeps {s0 s : State} {n : Nat} {flags : W32} {slot : W32} {slotNum : Int} (hK : Keeps s0 s) :
    Keeps s0 (State.armTask s n flags slot slotNum) := by
  unfold State.armTask; simp +contextual (maxDischargeDepth := 99) [hK]

@[simp] theorem State.stray_keeps {s0 s : State} (hK : Keeps s0 s) :
    Keeps s0 (State.stray s) := by
  unfold State.stray; simp +contextual (maxDischargeDepth := 99) [hK]

@[simp] theorem State.latchFlags_keeps {s0 s : State} {n : Nat} {flags : W32} (hK : Keeps s0 s) :
    Keeps s0 (State.latchFlags s n flags) := by
  unfold State.latchFlags; simp +contextual (maxDischargeDepth := 99) [hK]

@[simp] theorem State.flagSet_keeps {s0 s : State} {n : Nat} {flags : W32} (hK : Keeps s0 s) :
    Keeps s0 (State.flagSet s n flags) := by
  unfold State.flagSet; dsimp only; (repeat' (first | (simp +contextual (maxDischargeDepth := 99) [hK]; done) | split))

@[simp] theorem execFlagSet_keeps {s0 s : State} {task : Nat} {flags : W32} (hK : Keeps s0 s) :
    KeepsRes s0 (execFlagSet task flags s) := by
  unfold execFlagSet; refine State.whenClocked_keeps (fun s hK => ?_) hK; (repeat' (first | (simp +contextual (maxDischargeDepth := 99) [hK]; done) | split))

@[simp] theorem State.taskDeadline_keeps {s0 s : State} {n : Nat} (hK : Keeps s0 s) :
    Keeps s0 (State.taskDeadline s n) := by
  unfold State.taskDeadline; simp +contextual (maxDischargeDepth := 99) [hK]

@[simp] theorem execTaskDeadline_keeps {s0 s : State} {task : Nat} (hK : Keeps s0 s) :
    KeepsRes s0 (execTaskDeadline task s) := by
  unfold execTaskDeadline; simp +contextual (maxDischargeDepth := 99) [hK]

@[simp] theorem State.endSeq_keeps {s0 s : State} {sig : Nat} {e : SigEntry} (hK : Keeps s0 s) :
    Keeps s0 (State.endSeq s sig e) := by
  unfold State.endSeq; simp +contextual (maxDischargeDepth := 99) [hK]

@[simp] theorem State.voidSeq_keeps {s0 s : State} {t : Task} (hK : Keeps s0 s) :
    Keeps s0 (State.voidSeq s t) := by
  unfold State.voidSeq; simp +contextual (maxDischargeDepth := 99) [hK]

@[simp] theorem State.holdItem_keeps {s0 s : State} {g : Signature} {leaf : Nat} {sig : Nat} {seq : Nat} (hK : Keeps s0 s) :
    Keeps s0 (State.holdItem s g leaf sig seq).1 := by
  unfold State.holdItem; dsimp only; (repeat' (first | (simp +contextual (maxDischargeDepth := 99) [hK]; done) | split))

@[simp] theorem State.acceptRelease_keeps {s0 s : State} {n : Nat} {leaf : Nat} {handover : Bool} (hK : Keeps s0 s) :
    Keeps s0 (State.acceptRelease s n leaf handover) := by
  unfold State.acceptRelease; simp +contextual (maxDischargeDepth := 99) [hK]

@[simp] theorem State.endRelease_keeps {s0 s : State} {leaf : Nat} {rd : Nat} {st : Nat} (hK : Keeps s0 s) :
    Keeps s0 (State.endRelease s leaf rd st) := by
  unfold State.endRelease; simp +contextual (maxDischargeDepth := 99) [hK]

@[simp] theorem State.addFetch_keeps {s0 s : State} {leaf : Nat} {cls : Nat} (hK : Keeps s0 s) :
    Keeps s0 (State.addFetch s leaf cls) := by
  unfold State.addFetch; simp +contextual (maxDischargeDepth := 99) [hK]

@[simp] theorem State.releaseDone_keeps {s0 s : State} {leaf : Nat} {st : Nat} (hK : Keeps s0 s) :
    Keeps s0 (State.releaseDone s leaf st) := by
  unfold State.releaseDone; split <;> simp +contextual (maxDischargeDepth := 99) [hK]

@[simp] theorem State.rewindOut_keeps {s0 s : State} {t : Task} {leaf : Nat} (hK : Keeps s0 s) :
    Keeps s0 (State.rewindOut s t leaf) := by
  unfold State.rewindOut; simp +contextual (maxDischargeDepth := 99) [hK]

@[simp] theorem State.abortedRelease_keeps {s0 s : State} {n : Nat} {leaf : Nat} {handover : Bool} (hK : Keeps s0 s) :
    Keeps s0 (State.abortedRelease s n leaf handover) := by
  unfold State.abortedRelease; simp +contextual (maxDischargeDepth := 99) [hK]

@[simp] theorem State.tryRelease_keeps {s0 s : State} {leaf : Nat} {n : Nat} {handover : Bool} (hK : Keeps s0 s) :
    Keeps s0 (State.tryRelease s leaf n handover) := by
  unfold State.tryRelease; simp +contextual (maxDischargeDepth := 99) [hK]

@[simp] theorem State.acceptWaiting_keeps {s0 s : State} {done : List ReleaseWait} {l : List ReleaseWait} (hK : Keeps s0 s) :
    Keeps s0 (State.acceptWaiting s done l) := by
  induction l generalizing s done with | nil => (unfold State.acceptWaiting; simp [hK]; done) | cons a r ih => (unfold State.acceptWaiting; simp +contextual (maxDischargeDepth := 99) [hK, ih]; done)

@[simp] theorem State.releaseAccept_keeps {s0 s : State} (hK : Keeps s0 s) :
    Keeps s0 (State.releaseAccept s) := by
  unfold State.releaseAccept; simp +contextual (maxDischargeDepth := 99) [hK]

@[simp] theorem State.signaturePublish_keeps {s0 s : State} (hK : Keeps s0 s) :
    Keeps s0 (State.signaturePublish s) := by
  unfold State.signaturePublish; dsimp only; (repeat' (first | (simp +contextual (maxDischargeDepth := 99) [hK]; done) | split))

@[simp] theorem execSignaturePublish_keeps {s0 s : State} (hK : Keeps s0 s) :
    KeepsRes s0 (execSignaturePublish s) := by
  unfold execSignaturePublish; simp +contextual (maxDischargeDepth := 99) [hK]

@[simp] theorem State.capCredits_keeps {s0 s : State} (hK : Keeps s0 s) :
    Keeps s0 (State.capCredits s) := by
  unfold State.capCredits; simp +contextual (maxDischargeDepth := 99) [hK]

@[simp] theorem State.withdrawFetch_keeps {s0 s : State} {leaf : Nat} (hK : Keeps s0 s) :
    Keeps s0 (State.withdrawFetch s leaf) := by
  unfold State.withdrawFetch; simp +contextual (maxDischargeDepth := 99) [hK]

@[simp] theorem State.cancelTask_keeps {s0 s : State} {n : Nat} (hK : Keeps s0 s) :
    Keeps s0 (State.cancelTask s n).1 := by
  unfold State.cancelTask; dsimp only; (repeat' (first | (simp +contextual (maxDischargeDepth := 99) [hK]; done) | split))

@[simp] theorem State.taskCancel_keeps {s0 s : State} {d : Desc} (hK : Keeps s0 s) :
    Keeps s0 (State.taskCancel s d) := by
  unfold State.taskCancel; simp +contextual (maxDischargeDepth := 99) [hK]

@[simp] theorem execTaskCancel_keeps {s0 s : State} {d : Desc} (hK : Keeps s0 s) :
    KeepsRes s0 (execTaskCancel d s) := by
  unfold execTaskCancel; simp +contextual (maxDischargeDepth := 99) [hK]

@[simp] theorem State.taskDefine_keeps {s0 s : State} {d : Desc} (hK : Keeps s0 s) :
    Keeps s0 (State.taskDefine s d) := by
  unfold State.taskDefine; simp +contextual (maxDischargeDepth := 99) [hK]

@[simp] theorem execTaskDefine_keeps {s0 s : State} {d : Desc} (hK : Keeps s0 s) :
    KeepsRes s0 (execTaskDefine d s) := by
  unfold execTaskDefine; simp +contextual (maxDischargeDepth := 99) [hK]

@[simp] theorem State.taskArm_keeps {s0 s : State} {d : Desc} (hK : Keeps s0 s) :
    Keeps s0 (State.taskArm s d) := by
  unfold State.taskArm; dsimp only; (repeat' (first | (simp +contextual (maxDischargeDepth := 99) [hK]; done) | split))

@[simp] theorem execTaskArm_keeps {s0 s : State} {d : Desc} (hK : Keeps s0 s) :
    KeepsRes s0 (execTaskArm d s) := by
  unfold execTaskArm; simp +contextual (maxDischargeDepth := 99) [hK]

@[simp] theorem execEventSet_keeps {s0 s : State} {d : Desc} (hK : Keeps s0 s) :
    KeepsRes s0 (execEventSet d s) := by
  unfold execEventSet; simp +contextual (maxDischargeDepth := 99) [hK]

@[simp] theorem State.sigDefine_keeps {s0 s : State} {d : Desc} (hK : Keeps s0 s) :
    Keeps s0 (State.sigDefine s d) := by
  unfold State.sigDefine; simp +contextual (maxDischargeDepth := 99) [hK]

@[simp] theorem execSigDefine_keeps {s0 s : State} {d : Desc} (hK : Keeps s0 s) :
    KeepsRes s0 (execSigDefine d s) := by
  unfold execSigDefine; simp +contextual (maxDischargeDepth := 99) [hK]

@[simp] theorem execDispatchCredit_keeps {s0 s : State} (hK : Keeps s0 s) :
    KeepsRes s0 (execDispatchCredit s) := by
  unfold execDispatchCredit; simp +contextual (maxDischargeDepth := 99) [hK]

@[simp] theorem State.deliverTask_keeps {s0 s : State} {leaf : Nat} {n : Nat} (hK : Keeps s0 s) :
    Keeps s0 (State.deliverTask s leaf n) := by
  unfold State.deliverTask; simp +contextual (maxDischargeDepth := 99) [hK]

@[simp] theorem State.takeTask_keeps {s0 s : State} {cls : Nat} {leaf : Nat} {n : Nat} (hK : Keeps s0 s) :
    Keeps s0 (State.takeTask s cls leaf n) := by
  unfold State.takeTask; simp +contextual (maxDischargeDepth := 99) [hK]

@[simp] theorem State.dispatch_keeps {s0 s : State} (hK : Keeps s0 s) :
    Keeps s0 (State.dispatch s) := by
  unfold State.dispatch; (repeat' (first | (simp +contextual (maxDischargeDepth := 99) [hK]; done) | split))

@[simp] theorem execDispatch_keeps {s0 s : State} (hK : Keeps s0 s) :
    KeepsRes s0 (execDispatch s) := by
  unfold execDispatch; simp +contextual (maxDischargeDepth := 99) [hK]

end Sys2Proof.Machine
end

