-- ==== Sys2Proof/Laws/KeepsHostPort.lean ====
section
/-! SUPPORT. What the operations of Machine/HostPort.lean keep (Laws/Keeps.lean). -/

set_option linter.unusedSimpArgs false

namespace Sys2Proof.Machine

@[simp] theorem State.doorbell_keeps {s0 s : State} {fn : Nat} {offset : Nat} {width : Nat} {value : W64} (hK : Keeps s0 s) :
    Keeps s0 (State.doorbell s fn offset width value) := by
  unfold State.doorbell; simp +contextual (maxDischargeDepth := 99) [hK]

@[simp] theorem execDoorbell_keeps {s0 s : State} {fn : Nat} {offset : Nat} {width : Nat} {value : W64} (hK : Keeps s0 s) :
    KeepsRes s0 (execDoorbell fn offset width value s) := by
  unfold execDoorbell; simp +contextual (maxDischargeDepth := 99) [hK]

@[simp] theorem State.fetchBatch_keeps {s0 s : State} (hK : Keeps s0 s) :
    Keeps s0 (State.fetchBatch s) := by
  unfold State.fetchBatch; dsimp only; (repeat' (first | (simp +contextual (maxDischargeDepth := 99) [hK]; done) | split))

@[simp] theorem execFetchBatch_keeps {s0 s : State} (hK : Keeps s0 s) :
    KeepsRes s0 (execFetchBatch s) := by
  unfold execFetchBatch; simp +contextual (maxDischargeDepth := 99) [hK]

@[simp] theorem State.writeBack_keeps {s0 s : State} {q : Nat} (hK : Keeps s0 s) :
    Keeps s0 (State.writeBack s q) := by
  unfold State.writeBack; simp +contextual (maxDischargeDepth := 99) [hK]

@[simp] theorem State.batchLands_keeps {s0 s : State} {q : Nat} {ok : Bool} {descs : List (List W32)} (hK : Keeps s0 s) :
    Keeps s0 (State.batchLands s q ok descs) := by
  unfold State.batchLands; split <;> simp +contextual (maxDischargeDepth := 99) [hK]

@[simp] theorem execBatchLands_keeps {s0 s : State} {ring : Nat} {ok : Bool} {descs : List (List W32)} (hK : Keeps s0 s) :
    KeepsRes s0 (execBatchLands ring ok descs s) := by
  unfold execBatchLands; simp +contextual (maxDischargeDepth := 99) [hK]

@[simp] theorem State.moderationTimer_keeps {s0 s : State} {q : Nat} (hK : Keeps s0 s) :
    Keeps s0 (State.moderationTimer s q) := by
  unfold State.moderationTimer; simp +contextual (maxDischargeDepth := 99) [hK]

@[simp] theorem execModerationTimer_keeps {s0 s : State} {ring : Nat} (hK : Keeps s0 s) :
    KeepsRes s0 (execModerationTimer ring s) := by
  unfold execModerationTimer; simp +contextual (maxDischargeDepth := 99) [hK]

@[simp] theorem State.sendPending_keeps {s0 s : State} {v : Nat} (hK : Keeps s0 s) :
    Keeps s0 (State.sendPending s v) := by
  unfold State.sendPending; simp +contextual (maxDischargeDepth := 99) [hK]

@[simp] theorem State.msixUnmask_keeps {s0 s : State} {v : Nat} {byFunction : Bool} (hK : Keeps s0 s) :
    Keeps s0 (State.msixUnmask s v byFunction) := by
  unfold State.msixUnmask; simp +contextual (maxDischargeDepth := 99) [hK]

@[simp] theorem execMsixUnmask_keeps {s0 s : State} {vector : Nat} {byFunction : Bool} (hK : Keeps s0 s) :
    KeepsRes s0 (execMsixUnmask vector byFunction s) := by
  unfold execMsixUnmask; simp +contextual (maxDischargeDepth := 99) [hK]

@[simp] theorem State.releaseWrite_keeps {s0 s : State} {w : HostWrite} (hK : Keeps s0 s) :
    Keeps s0 (State.releaseWrite s w) := by
  unfold State.releaseWrite; simp +contextual (maxDischargeDepth := 99) [hK]

@[simp] theorem State.busMasterEnable_keeps {s0 s : State} {f : Nat} (hK : Keeps s0 s) :
    Keeps s0 (State.busMasterEnable s f) := by
  unfold State.busMasterEnable; simp +contextual (maxDischargeDepth := 99) [hK]

@[simp] theorem State.deliverLinkDown_keeps {s0 s : State} (hK : Keeps s0 s) :
    Keeps s0 (State.deliverLinkDown s) := by
  unfold State.deliverLinkDown; simp +contextual (maxDischargeDepth := 99) [hK]

@[simp] theorem execVfEnable_keeps {s0 s : State} {enable : Bool} {numVfs : Nat} (hK : Keeps s0 s) :
    KeepsRes s0 (execVfEnable enable numVfs s) := by
  unfold execVfEnable; simp +contextual (maxDischargeDepth := 99) [hK]

@[simp] theorem State.loadRctx_keeps {s0 s : State} (hK : Keeps s0 s) :
    Keeps s0 (State.loadRctx s) := by
  unfold State.loadRctx; simp +contextual (maxDischargeDepth := 99) [hK]

@[simp] theorem State.rctxGate_keeps {s0 s : State} {f : State → State} (hf_f : ∀ x0, Keeps s0 x0 → Keeps s0 (f x0)) (hK : Keeps s0 s) :
    Keeps s0 (State.rctxGate s f) := by
  unfold State.rctxGate; simp +contextual (maxDischargeDepth := 99) [hK, hf_f]

@[simp] theorem State.rctxSelect_keeps {s0 s : State} {v : W32} (hK : Keeps s0 s) :
    Keeps s0 (State.rctxSelect s v) := by
  unfold State.rctxSelect; simp +contextual (maxDischargeDepth := 99) [hK]

@[simp] theorem execRctxSelect_keeps {s0 s : State} {value : W32} (hK : Keeps s0 s) :
    KeepsRes s0 (execRctxSelect value s) := by
  unfold execRctxSelect; simp +contextual (maxDischargeDepth := 99) [hK]

@[simp] theorem execRingCommitDone_keeps {s0 s : State} (hK : Keeps s0 s) :
    KeepsRes s0 (execRingCommitDone s) := by
  unfold execRingCommitDone; simp +contextual (maxDischargeDepth := 99) [hK]

@[simp] theorem execLinkSpeedChange_keeps {s0 s : State} {speed : Nat} {width : Nat} {flit : Bool} (hK : Keeps s0 s) :
    KeepsRes s0 (execLinkSpeedChange speed width flit s) := by
  unfold execLinkSpeedChange; simp +contextual (maxDischargeDepth := 99) [hK]

end Sys2Proof.Machine
end

