-- ==== Sys2Proof/Laws/KeepsSpineMem.lean ====
section
/-! SUPPORT. What the operations of Machine/SpineMem.lean keep (Laws/Keeps.lean). -/

set_option linter.unusedSimpArgs false

namespace Sys2Proof.Machine

@[simp] theorem State.fillWord_keeps {s0 s : State} {pattern : W64} {a : Nat} (hK : Keeps s0 s) :
    Keeps s0 (State.fillWord s pattern a) := by
  unfold State.fillWord; simp +contextual (maxDischargeDepth := 99) [hK]

@[simp] theorem State.fillThrough_keeps {s0 s : State} {f : Fill} {c : Nat} {o : Nat} (hK : Keeps s0 s) :
    Keeps s0 (State.fillThrough s f c o).1 := by
  unfold State.fillThrough; simp +contextual (maxDischargeDepth := 99) [hK]

@[simp] theorem State.meetFills_keeps {s0 s : State} {a : Nat} {done : List Fill} {l : List Fill} (hK : Keeps s0 s) :
    Keeps s0 (State.meetFills s a done l) := by
  induction l generalizing s a done with | nil => (unfold State.meetFills; simp [hK]; done) | cons a r ih => (unfold State.meetFills; simp +contextual (maxDischargeDepth := 99) [hK, ih]; done)

@[simp] theorem State.imReject_keeps {s0 s : State} {n : Nat} (hK : Keeps s0 s) :
    Keeps s0 (State.imReject s n) := by
  unfold State.imReject; simp +contextual (maxDischargeDepth := 99) [hK]

theorem State.refusal_keeps {s0 s t : State} {fn a : Nat} (hK : Keeps s0 s) (h : s.refusal fn a = some t) : Keeps s0 t := by
  unfold State.refusal at h
  split at h
  · split at h <;> simp_all
  · split at h <;> simp_all
  · split at h
    · simp_all
    · split at h
      · simp_all
      · cases h; exact State.imReject_keeps hK
  · simp_all
  · split at h <;> simp_all
  · simp_all

@[simp] theorem State.noteMirror_keeps {s0 s : State} {a : Nat} {n : Nat} (hK : Keeps s0 s) :
    Keeps s0 (State.noteMirror s a n) := by
  unfold State.noteMirror; simp +contextual (maxDischargeDepth := 99) [hK]

@[simp] theorem State.noteOwned_keeps {s0 s : State} {a : Nat} {n : Nat} (hK : Keeps s0 s) :
    Keeps s0 (State.noteOwned s a n) := by
  unfold State.noteOwned; simp +contextual (maxDischargeDepth := 99) [hK]

@[simp] theorem State.noteExternal_keeps {s0 s : State} {a : Nat} {bytes : Nat} (hK : Keeps s0 s) :
    Keeps s0 (State.noteExternal s a bytes) := by
  unfold State.noteExternal; split <;> simp +contextual (maxDischargeDepth := 99) [hK]

@[simp] theorem State.wakeTarget_keeps {s0 s : State} {a : Nat} (hK : Keeps s0 s) :
    Keeps s0 (State.wakeTarget s a) := by
  unfold State.wakeTarget; split <;> simp +contextual (maxDischargeDepth := 99) [hK]

@[simp] theorem State.readPiece_keeps {s0 s : State} {requester fn a n : Nat} {host : List Byte} (hK : Keeps s0 s) :
    Keeps s0 (State.readPiece s requester fn a n host).1 := by
  unfold State.readPiece
  split
  · next t h => exact State.refusal_keeps hK h
  · split <;> simp +contextual (maxDischargeDepth := 99) [hK]

@[simp] theorem State.writePiece_keeps {s0 s : State} {requester a : Nat} {fn : OnBehalf} {data : List Byte} (hK : Keeps s0 s) :
    Keeps s0 (State.writePiece s requester fn a data).1 := by
  unfold State.writePiece
  split
  · next t h => exact State.refusal_keeps hK h
  · split <;> simp +contextual (maxDischargeDepth := 99) [hK]

@[simp] theorem State.readPieces_keeps {s0 s : State} {requester : Nat} {fn : Nat} {host : List Byte} {acc : List Byte} {l : List (Nat × Nat)} (hK : Keeps s0 s) :
    Keeps s0 (State.readPieces s requester fn host acc l).1 := by
  induction l generalizing s requester fn host acc with | nil => (unfold State.readPieces; (repeat' (first | (simp +contextual (maxDischargeDepth := 99) [hK]; done) | split)); done) | cons a r ih => (unfold State.readPieces; dsimp only; (repeat' (first | (simp +contextual (maxDischargeDepth := 99) [hK, ih]; done) | split)); done)

@[simp] theorem State.readSpine_keeps {s0 s : State} {requester : Nat} {fn : Nat} {a : Nat} {n : Nat} {host : List Byte} (hK : Keeps s0 s) :
    Keeps s0 (State.readSpine s requester fn a n host).1 := by
  unfold State.readSpine; simp +contextual (maxDischargeDepth := 99) [hK]

@[simp] theorem State.writePieces_keeps {s0 s : State} {requester : Nat} {w : OnBehalf} {data : List Byte} {bad : Option Nat} {l : List (Nat × Nat)} (hK : Keeps s0 s) :
    Keeps s0 (State.writePieces s requester w data bad l).1 := by
  induction l generalizing s requester w data bad with | nil => (unfold State.writePieces; simp [hK]; done) | cons a r ih => (unfold State.writePieces; simp +contextual (maxDischargeDepth := 99) [hK, ih]; done)

@[simp] theorem State.writeSpine_keeps {s0 s : State} {requester : Nat} {w : OnBehalf} {a : Nat} {data : List Byte} (hK : Keeps s0 s) :
    Keeps s0 (State.writeSpine s requester w a data).1 := by
  unfold State.writeSpine; simp +contextual (maxDischargeDepth := 99) [hK]

@[simp] theorem State.readModule_keeps {s0 s : State} {requester : Nat} {a : Nat} {n : Nat} (hK : Keeps s0 s) :
    Keeps s0 (State.readModule s requester a n).1 := by
  unfold State.readModule; simp +contextual (maxDischargeDepth := 99) [hK]

@[simp] theorem State.writeModule_keeps {s0 s : State} {requester : Nat} {a : Nat} {data : List Byte} (hK : Keeps s0 s) :
    Keeps s0 (State.writeModule s requester a data).1 := by
  unfold State.writeModule; simp +contextual (maxDischargeDepth := 99) [hK]

@[simp] theorem State.busAccess_keeps {s0 s : State} {requester : Nat} {a : Nat} {write : Bool} {data : List Byte} {n : Nat} (hK : Keeps s0 s) :
    Keeps s0 (State.busAccess s requester a write data n) := by
  unfold State.busAccess; simp +contextual (maxDischargeDepth := 99) [hK]

@[simp] theorem execQuireExternalAccess_keeps {s0 s : State} {addr : Nat} {write : Bool} {data : List Byte} {bytes : Nat} (hK : Keeps s0 s) :
    KeepsRes s0 (execQuireExternalAccess addr write data bytes s) := by
  unfold execQuireExternalAccess; simp +contextual (maxDischargeDepth := 99) [hK]

end Sys2Proof.Machine
end

