-- ==== Sys2Proof/Laws/KeepsBinding.lean ====
section
/-! SUPPORT. What the operations of Machine/Binding.lean keep (Laws/Keeps.lean). -/

set_option linter.unusedSimpArgs false

namespace Sys2Proof.Machine

@[simp] theorem State.doneFlag_keeps {s0 s : State} {en : Bool} {task : Nat} {flag : Nat} (hK : Keeps s0 s) :
    Keeps s0 (State.doneFlag s en task flag) := by
  unfold State.doneFlag; simp +contextual (maxDischargeDepth := 99) [hK]

end Sys2Proof.Machine
end

