-- ==== Sys2Proof/Laws/KeepsJobs.lean ====
section
/-! SUPPORT. What the operations of Machine/Jobs.lean keep (Laws/Keeps.lean). -/

set_option linter.unusedSimpArgs false

namespace Sys2Proof.Machine

@[simp] theorem State.setEngine_keeps {s0 s : State} {e : Nat} {x : Engine} (hK : Keeps s0 s) :
    Keeps s0 (State.setEngine s e x) := by
  unfold State.setEngine; simp +contextual (maxDischargeDepth := 99) [hK]

@[simp] theorem State.setJob_keeps {s0 s : State} {e : Nat} {j : EngJob} (hK : Keeps s0 s) :
    Keeps s0 (State.setJob s e j) := by
  unfold State.setJob; simp +contextual (maxDischargeDepth := 99) [hK]

@[simp] theorem State.noteEngCommit_keeps {s0 s : State} {e : Nat} {status : Nat} (hK : Keeps s0 s) :
    Keeps s0 (State.noteEngCommit s e status) := by
  unfold State.noteEngCommit; simp +contextual (maxDischargeDepth := 99) [hK]

@[simp] theorem State.settleEngine_keeps {s0 s : State} {e : Nat} (hK : Keeps s0 s) :
    Keeps s0 (State.settleEngine s e) := by
  unfold State.settleEngine; simp +contextual (maxDischargeDepth := 99) [hK]

@[simp] theorem State.cqHandoff_keeps {s0 s : State} {cq : Nat} {tag : W32} {status : Nat} {specific : Nat} {clamped : Bool} (hK : Keeps s0 s) :
    Keeps s0 (State.cqHandoff s cq tag status specific clamped) := by
  unfold State.cqHandoff; simp +contextual (maxDischargeDepth := 99) [hK]

theorem keeps_withStatus {s0 : State} {x : State × Bool} {st : Nat} (hK : Keeps s0 x.1) :
    Keeps s0 (let y := x; (y.1, if y.2 then st else worseStatus st stBAD)).1 := hK

@[simp] theorem State.writeResult_keeps {s0 s : State} {e : Nat} {j : EngJob} {status specific : Nat} (hK : Keeps s0 s) :
    Keeps s0 (State.writeResult s e j status specific).1 := by
  unfold State.writeResult; split
  · exact keeps_withStatus (State.writeModule_keeps hK)
  · exact hK

@[simp] theorem State.noteTbFail_keeps {s0 s : State} {e : Nat} {j : EngJob} (hK : Keeps s0 s) :
    Keeps s0 (State.noteTbFail s e j) := by
  unfold State.noteTbFail; simp +contextual (maxDischargeDepth := 99) [hK]

@[simp] theorem State.endJob_keeps {s0 s : State} {e : Nat} {j : EngJob} {status : Nat} {specific : Nat} (hK : Keeps s0 s) :
    Keeps s0 (State.endJob s e j status specific) := by
  unfold State.endJob; split <;> simp +contextual (maxDischargeDepth := 99) [hK]

@[simp] theorem State.acceptJob_keeps {s0 s : State} {e : Nat} {origin : JobOrigin} {t : Taken} (hK : Keeps s0 s) :
    Keeps s0 (State.acceptJob s e origin t) := by
  unfold State.acceptJob; dsimp only; (repeat' (first | (simp +contextual (maxDischargeDepth := 99) [hK]; done) | split))

@[simp] theorem State.jobDesc_keeps {s0 s : State} {e : Nat} {d : Desc} {take : List W32 → Taken} (hK : Keeps s0 s) :
    Keeps s0 (State.jobDesc s e d take) := by
  unfold State.jobDesc; simp +contextual (maxDischargeDepth := 99) [hK]

@[simp] theorem State.served_keeps {s0 s : State} {e : Nat} {k : Nat} (hK : Keeps s0 s) :
    Keeps s0 (State.served s e k) := by
  unfold State.served; simp +contextual (maxDischargeDepth := 99) [hK]

@[simp] theorem State.jobItemRead_keeps {s0 s : State} {e : Nat} {take : List W32 → Taken} (hK : Keeps s0 s) :
    Keeps s0 (State.jobItemRead s e take) := by
  unfold State.jobItemRead; dsimp only; (repeat' (first | (simp +contextual (maxDischargeDepth := 99) [hK]; done) | split))

@[simp] theorem State.returnJob_keeps {s0 s : State} {e : Nat} {j : EngJob} (hK : Keeps s0 s) :
    Keeps s0 (State.returnJob s e j) := by
  unfold State.returnJob; simp +contextual (maxDischargeDepth := 99) [hK]

@[simp] theorem State.returnJobs_keeps {s0 s : State} {hit : EngJob → Bool} (hK : Keeps s0 s) :
    Keeps s0 (State.returnJobs s hit) := by
  unfold State.returnJobs; simp +contextual (maxDischargeDepth := 99) [hK]

@[simp] theorem State.abortJobs_keeps {s0 s : State} {e : Nat} {hit : EngJob → Bool} {undo : State → EngJob → State} (hf_undo : ∀ x0 x1, Keeps s0 x0 → Keeps s0 (undo x0 x1)) (hK : Keeps s0 s) :
    Keeps s0 (State.abortJobs s e hit undo) := by
  unfold State.abortJobs; simp +contextual (maxDischargeDepth := 99) [hK, hf_undo]

@[simp] theorem State.jobAbort_keeps {s0 s : State} {e : Nat} {d : Desc} {undo : State → EngJob → State} (hf_undo : ∀ x0 x1, Keeps s0 x0 → Keeps s0 (undo x0 x1)) (hK : Keeps s0 s) :
    Keeps s0 (State.jobAbort s e d undo) := by
  unfold State.jobAbort; simp +contextual (maxDischargeDepth := 99) [hK, hf_undo]

@[simp] theorem State.engineDisable_keeps {s0 s : State} {e : Nat} (hK : Keeps s0 s) :
    Keeps s0 (State.engineDisable s e) := by
  unfold State.engineDisable; simp +contextual (maxDischargeDepth := 99) [hK]

@[simp] theorem State.ctrlDisable_keeps {s0 s : State} {e : Nat} {d : Desc} (hK : Keeps s0 s) :
    Keeps s0 (State.ctrlDisable s e d) := by
  unfold State.ctrlDisable; simp +contextual (maxDischargeDepth := 99) [hK]

@[simp] theorem State.ctrlEnable_keeps {s0 s : State} {e : Nat} {d : Desc} (hK : Keeps s0 s) :
    Keeps s0 (State.ctrlEnable s e d) := by
  unfold State.ctrlEnable; simp +contextual (maxDischargeDepth := 99) [hK]

@[simp] theorem State.engineCtrl_keeps {s0 s : State} {e : Nat} {d : Desc} (hK : Keeps s0 s) :
    Keeps s0 (State.engineCtrl s e d) := by
  unfold State.engineCtrl; split <;> simp +contextual (maxDischargeDepth := 99) [hK]

@[simp] theorem State.runJob_keeps {s0 s : State} {e : Nat} {j : EngJob} {place : Nat} (hK : Keeps s0 s) :
    Keeps s0 (State.runJob s e j place) := by
  unfold State.runJob; simp +contextual (maxDischargeDepth := 99) [hK]

@[simp] theorem State.writeJq_keeps {s0 s : State} {e : Nat} {k : Nat} {v : W32} (hK : Keeps s0 s) :
    Keeps s0 (State.writeJq s e k v) := by
  unfold State.writeJq; simp +contextual (maxDischargeDepth := 99) [hK]

end Sys2Proof.Machine
end

