-- ==== Sys2Proof/Laws/KeepsSpatial.lean ====
section
/-! SUPPORT. What the operations of Machine/Spatial.lean keep (Laws/Keeps.lean). -/

set_option linter.unusedSimpArgs false

namespace Sys2Proof.Machine

@[simp] theorem State.setWbuf_keeps {s0 s : State} {k : Nat} {x : WBuf} (hK : Keeps s0 s) :
    Keeps s0 (State.setWbuf s k x) := by
  unfold State.setWbuf; simp +contextual (maxDischargeDepth := 99) [hK]

@[simp] theorem State.emptyWbufs_keeps {s0 s : State} {c : Nat} {h : Half} (hK : Keeps s0 s) :
    Keeps s0 (State.emptyWbufs s c h) := by
  unfold State.emptyWbufs; simp +contextual (maxDischargeDepth := 99) [hK]

@[simp] theorem State.tileBusy_keeps {s0 s : State} {t : Nat} {cycles : Nat} (hK : Keeps s0 s) :
    Keeps s0 (State.tileBusy s t cycles) := by
  unfold State.tileBusy; simp +contextual (maxDischargeDepth := 99) [hK]

@[simp] theorem State.finishJob_keeps {s0 s : State} {e : Nat} {j : EngJob} {status : Nat} {specific : Nat} (hK : Keeps s0 s) :
    Keeps s0 (State.finishJob s e j status specific) := by
  unfold State.finishJob; simp +contextual (maxDischargeDepth := 99) [hK]

@[simp] theorem State.layerBlock_keeps {s0 s : State} {p : SpaPage} {row : Option (List CFlt)} {sinr : Option Flt} (hK : Keeps s0 s) :
    Keeps s0 (State.layerBlock s p row sinr).1 := by
  unfold State.layerBlock; simp +contextual (maxDischargeDepth := 99) [hK]

@[simp] theorem State.layerBlocks_keeps {s0 s : State} {p : SpaPage} {l : List (Option (List CFlt) × Option Flt)} (hK : Keeps s0 s) :
    Keeps s0 (State.layerBlocks s p l).1 := by
  unfold State.layerBlocks; simp +contextual (maxDischargeDepth := 99) [hK]

@[simp] theorem State.storeGroup_keeps {s0 s : State} {req : Nat} {p : SpaPage} {j : EngJob} {x : EstIn} {g : Nat}
    (hK : Keeps s0 s) : Keeps s0 (State.storeGroup s req p j x g).1 := by
  unfold State.storeGroup
  extract_lets +onlyGivenNames a o y sing head w1 w2 w3 w4 w5
  have hy : Keeps s0 y.1 := State.layerBlocks_keeps hK
  clear_value y
  have h1 : Keeps s0 w1.1 := State.writeModule_keeps hy
  clear_value w1
  have h2 : Keeps s0 w2.1 := State.writeModule_keeps h1
  clear_value w2
  have h3 : Keeps s0 w3.1 := State.writeModule_keeps h2
  clear_value w3
  have h4 : Keeps s0 w4.1 := State.writeModule_keeps h3
  clear_value w4
  exact State.writeModule_keeps h4

@[simp] theorem State.storeGroups_keeps {s0 s : State} {req : Nat} {p : SpaPage} {j : EngJob} {x : EstIn} {sing : Nat} {l : List Nat}
    (hK : Keeps s0 s) : Keeps s0 (State.storeGroups s req p j x sing l).1 := by
  induction l generalizing s sing with
  | nil => exact hK
  | cons g r ih =>
    have hy : Keeps s0 (s.storeGroup req p j x g).1 := State.storeGroup_keeps hK
    rw [State.storeGroups]
    generalize s.storeGroup req p j x g = y at hy ⊢
    split
    · exact ih hy
    · exact hy

@[simp] theorem State.estw_keeps {s0 s : State} (hK : Keeps s0 s) : Keeps s0 (State.estw s) := by
  unfold State.estw
  split
  · exact hK
  · split
    · exact hK
    · extract_lets +onlyGivenNames s1 j p s2 x
      have hx : Keeps s0 x.1 :=
        State.readModule_keeps (State.tileBusy_keeps (State.setWbuf_keeps (State.runJob_keeps hK)))
      clear_value x
      split
      · exact State.finishJob_keeps hx
      · extract_lets +onlyGivenNames y s3 s4
        have hy : Keeps s0 y.1 := State.storeGroups_keeps hx
        have h4 : Keeps s0 s4 := by
          simp only [s4, s3]; split
          · exact State.bumpFld_keeps hy
          · exact State.raise_keeps (State.bumpFld_keeps hy)
        exact State.finishJob_keeps h4

@[simp] theorem execEstw_keeps {s0 s : State} (hK : Keeps s0 s) :
    KeepsRes s0 (execEstw s) := by
  unfold execEstw; simp +contextual (maxDischargeDepth := 99) [hK]

@[simp] theorem State.loadGroup_keeps {s0 s : State} {req : Nat} {p : SpaPage} {b : Nat} {g : Nat} (hK : Keeps s0 s) :
    Keeps s0 (State.loadGroup s req p b g).1 := by
  unfold State.loadGroup; dsimp only; (repeat' (first | (simp +contextual (maxDischargeDepth := 99) [hK]; done) | split))

@[simp] theorem State.loadGroups_keeps {s0 s : State} {req : Nat} {p : SpaPage} {b : Nat} {acc : List (Nat × GroupWeights)} {l : List Nat} (hK : Keeps s0 s) :
    Keeps s0 (State.loadGroups s req p b acc l).1 := by
  induction l generalizing s req p b acc with | nil => (unfold State.loadGroups; (repeat' (first | (simp +contextual (maxDischargeDepth := 99) [hK]; done) | split)); done) | cons a r ih => (unfold State.loadGroups; dsimp only; (repeat' (first | (simp +contextual (maxDischargeDepth := 99) [hK, ih]; done) | split)); done)

@[simp] theorem State.readBlocks_keeps {s0 s : State} {req : Nat} {a : Nat} {size : Nat} {acc : List (List Byte)} {n : Nat} (hK : Keeps s0 s) :
    Keeps s0 (State.readBlocks s req a size acc n).1 := by
  induction n generalizing s req a size acc with | zero => (unfold State.readBlocks; (repeat' (first | (simp +contextual (maxDischargeDepth := 99) [hK]; done) | split)); done) | succ a ih => (unfold State.readBlocks; dsimp only; (repeat' (first | (simp +contextual (maxDischargeDepth := 99) [hK, ih]; done) | split)); done)

@[simp] theorem State.putBlock_keeps {s0 s : State} {req : Nat} {j : EngJob} {off : Nat} {sym : Nat} {stream : Nat} {data : List Byte} (hK : Keeps s0 s) :
    Keeps s0 (State.putBlock s req j off sym stream data).1 := by
  unfold State.putBlock; split <;> simp +contextual (maxDischargeDepth := 99) [hK]

theorem putStreams_keeps {s0 : State} {req : Nat} {j : EngJob} {sym : Nat} {enc : List Cplx → List Byte} {acc : OutAcc}
    {l : List (Nat × List (Cplx × Nat))} (hK : Keeps s0 acc.s) : Keeps s0 (putStreams req j sym enc acc l).s := by
  induction l generalizing acc with
  | nil => exact hK
  | cons a r ih =>
    refine ih ?_
    try dsimp only
    split
    · exact hK
    · exact State.putBlock_keeps hK

@[simp] theorem State.loadSinrs_keeps {s0 s : State} {req : Nat} {p : SpaPage} {b : Nat} {acc : Sinrs} {l : List Nat} (hK : Keeps s0 s) :
    Keeps s0 (State.loadSinrs s req p b acc l).1 := by
  induction l generalizing s req p b acc with | nil => (unfold State.loadSinrs; (repeat' (first | (simp +contextual (maxDischargeDepth := 99) [hK]; done) | split)); done) | cons a r ih => (unfold State.loadSinrs; dsimp only; (repeat' (first | (simp +contextual (maxDischargeDepth := 99) [hK, ih]; done) | split)); done)

@[simp] theorem State.reportUe_keeps {s0 s : State} {p : SpaPage} {j : EngJob} {u : UeEntry} {lo : Nat} {hi : Nat} {sinrs : Sinrs} {blocks : List (Nat × List (Cplx × Nat))} (hK : Keeps s0 s) :
    Keeps s0 (State.reportUe s p j u lo hi sinrs blocks).1 := by
  unfold State.reportUe; simp +contextual (maxDischargeDepth := 99) [hK]

@[simp] theorem State.reportUes_keeps {s0 s : State} {p : SpaPage} {j : EngJob} {status : Nat} {sinrs : Sinrs} {blocks : List (Nat × List (Cplx × Nat))} {l : List UeEntry} (hK : Keeps s0 s) :
    Keeps s0 (State.reportUes s p j status sinrs blocks l).1 := by
  unfold State.reportUes; simp +contextual (maxDischargeDepth := 99) [hK]

@[simp] theorem State.spaReports_keeps {s0 s : State} {req : Nat} {p : SpaPage} {j : EngJob} {status : Nat} {blocks : List (Nat × List (Cplx × Nat))} {l : List UeEntry} (hK : Keeps s0 s) :
    Keeps s0 (State.spaReports s req p j status blocks l).1 := by
  unfold State.spaReports; dsimp only; (repeat' (first | (simp +contextual (maxDischargeDepth := 99) [hK]; done) | split))

@[simp] theorem State.readUes_keeps {s0 s : State} {req : Nat} {nLayer : Nat} {acc : List UeEntry} {a : Nat} {n : Nat} (hK : Keeps s0 s) :
    Keeps s0 (State.readUes s req nLayer acc a n).1 := by
  induction n generalizing s req nLayer acc a with | zero => (unfold State.readUes; (repeat' (first | (simp +contextual (maxDischargeDepth := 99) [hK]; done) | split)); done) | succ a ih => (unfold State.readUes; dsimp only; (repeat' (first | (simp +contextual (maxDischargeDepth := 99) [hK, ih]; done) | split)); done)

theorem spaSymbols_keeps {s0 : State} {req : Nat} {p : SpaPage} {j : EngJob} {ws : List (Nat × GroupWeights)} {nIn inSize : Nat}
    {dec : List Byte → List Cplx} {nOut : Nat} {enc : List Cplx → List Byte} {f : Nat → GroupWeights → List Cplx → Cplx × Nat}
    {acc : OutAcc} {i : Nat} {l : List Nat} (hK : Keeps s0 acc.s) :
    Keeps s0 (spaSymbols req p j ws nIn inSize dec nOut enc f acc i l).s := by
  induction l generalizing acc i with
  | nil => exact hK
  | cons a r ih =>
    unfold spaSymbols
    split
    · exact hK
    · extract_lets +onlyGivenNames x
      have hx : Keeps s0 x.1 := State.readBlocks_keeps hK
      clear_value x
      split
      · exact hx
      · exact ih (putStreams_keeps hx)

@[simp] theorem State.countSat_keeps {s0 s : State} {n : Nat} (hK : Keeps s0 s) :
    Keeps s0 (State.countSat s n) := by
  unfold State.countSat; simp +contextual (maxDischargeDepth := 99) [hK]

@[simp] theorem State.applyWeights_keeps {s0 s : State} {kind : Nat} {req : Nat} {p : SpaPage} {j : EngJob} {ues : List UeEntry}
    (hK : Keeps s0 s) : Keeps s0 (State.applyWeights s kind req p j ues) := by
  unfold State.applyWeights
  extract_lets +onlyGivenNames w
  have hw : Keeps s0 w.1 := State.loadGroups_keeps hK
  clear_value w
  split
  · exact State.finishJob_keeps hw
  · extract_lets +onlyGivenNames acc0 acc n s3 report r
    have ha : Keeps s0 acc.s := by
      simp only [acc]; split
      · exact spaSymbols_keeps hw
      · exact spaSymbols_keeps hw
    have h3 : Keeps s0 s3 := State.countSat_keeps ha
    have hr : Keeps s0 r.1 := by
      simp only [r]; split
      · exact State.spaReports_keeps h3
      · exact h3
    exact State.finishJob_keeps hr

@[simp] theorem State.spaApply_keeps {s0 s : State} {kind : Nat} (hK : Keeps s0 s) : Keeps s0 (State.spaApply s kind) := by
  unfold State.spaApply
  split
  · exact hK
  · split
    · exact hK
    · extract_lets +onlyGivenNames s1 valid lw p req ueEn u j
      have hu : Keeps s0 u.1 := by
        simp only [u]; split
        · exact State.readUes_keeps (State.runJob_keeps hK)
        · exact State.runJob_keeps hK
      clear_value u
      split
      · exact State.finishJob_keeps (State.tileBusy_keeps hu)
      · split
        · exact State.finishJob_keeps hu
        · split
          · exact State.finishJob_keeps hu
          · exact State.applyWeights_keeps (State.tileBusy_keeps hu)

@[simp] theorem execCombine_keeps {s0 s : State} (hK : Keeps s0 s) :
    KeepsRes s0 (execCombine s) := by
  unfold execCombine; simp +contextual (maxDischargeDepth := 99) [hK]

@[simp] theorem execPrecode_keeps {s0 s : State} (hK : Keeps s0 s) :
    KeepsRes s0 (execPrecode s) := by
  unfold execPrecode; simp +contextual (maxDischargeDepth := 99) [hK]

@[simp] theorem execSpaJob_keeps {s0 s : State} {d : Desc} (hK : Keeps s0 s) :
    KeepsRes s0 (execSpaJob d s) := by
  unfold execSpaJob; simp +contextual (maxDischargeDepth := 99) [hK]

@[simp] theorem State.closeWbuf_keeps {s0 s : State} {j : EngJob} {status : Nat} (hK : Keeps s0 s) :
    Keeps s0 (State.closeWbuf s j status) := by
  unfold State.closeWbuf; simp +contextual (maxDischargeDepth := 99) [hK]

@[simp] theorem State.noteNoWeights_keeps {s0 s : State} {status : Nat} (hK : Keeps s0 s) :
    Keeps s0 (State.noteNoWeights s status) := by
  unfold State.noteNoWeights; simp +contextual (maxDischargeDepth := 99) [hK]

@[simp] theorem execSpaJobEnd_keeps {s0 s : State} {job : Nat} (hK : Keeps s0 s) :
    KeepsRes s0 (execSpaJobEnd job s) := by
  unfold execSpaJobEnd; refine State.whenClocked_keeps (fun s hK => ?_) hK; (repeat' (first | (simp +contextual (maxDischargeDepth := 99) [hK]; done) | split))

@[simp] theorem spaUndo_keeps {s0 s : State} {j : EngJob} (hK : Keeps s0 s) :
    Keeps s0 (spaUndo s j) := by
  unfold spaUndo; simp +contextual (maxDischargeDepth := 99) [hK]

@[simp] theorem execSpaAbort_keeps {s0 s : State} {d : Desc} (hK : Keeps s0 s) :
    KeepsRes s0 (execSpaAbort d s) := by
  unfold execSpaAbort; simp +contextual (maxDischargeDepth := 99) [hK]

@[simp] theorem execSpaDisable_keeps {s0 s : State} {d : Desc} (hK : Keeps s0 s) :
    KeepsRes s0 (execSpaDisable d s) := by
  unfold execSpaDisable; simp +contextual (maxDischargeDepth := 99) [hK]

@[simp] theorem execSpaEnable_keeps {s0 s : State} {d : Desc} (hK : Keeps s0 s) :
    KeepsRes s0 (execSpaEnable d s) := by
  unfold execSpaEnable; simp +contextual (maxDischargeDepth := 99) [hK]

end Sys2Proof.Machine
end

