-- ==== Sys2Proof/Laws/KeepsCoding.lean ====
section
/-! SUPPORT. What the operations of Machine/Coding.lean keep (Laws/Keeps.lean). -/

set_option linter.unusedSimpArgs false

namespace Sys2Proof.Machine

@[simp] theorem State.codPlace_keeps {s0 s : State} (hK : Keeps s0 s) :
    Keeps s0 (State.codPlace s) := by
  unfold State.codPlace; simp +contextual (maxDischargeDepth := 99) [hK]

@[simp] theorem State.codPlaceNew_keeps {s0 s : State} {before : Nat} (hK : Keeps s0 s) :
    Keeps s0 (State.codPlaceNew s before) := by
  unfold State.codPlaceNew; dsimp only; (repeat' (first | (simp +contextual (maxDischargeDepth := 99) [hK]; done) | split))

@[simp] theorem State.openBuffer_keeps {s0 s : State} {j : EngJob} (hK : Keeps s0 s) :
    Keeps s0 (State.openBuffer s j).1 := by
  unfold State.openBuffer; dsimp only; (repeat' (first | (simp +contextual (maxDischargeDepth := 99) [hK]; done) | split))

@[simp] theorem State.openEncode_keeps {s0 s : State} {j : EngJob} (hK : Keeps s0 s) :
    Keeps s0 (State.openEncode s j).1 := by
  unfold State.openEncode; simp +contextual (maxDischargeDepth := 99) [hK]

@[simp] theorem State.codeBlockStart_keeps {s0 s : State} {g : Nat} {u : Nat} (hK : Keeps s0 s) :
    Keeps s0 (State.codeBlockStart s g u) := by
  unfold State.codeBlockStart; dsimp only; (repeat' (first | (simp +contextual (maxDischargeDepth := 99) [hK]; done) | split))

@[simp] theorem execCodeBlockStart_keeps {s0 s : State} {group : Nat} {kind : Nat} (hK : Keeps s0 s) :
    KeepsRes s0 (execCodeBlockStart group kind s) := by
  unfold execCodeBlockStart; simp +contextual (maxDischargeDepth := 99) [hK]

@[simp] theorem State.unitBusy_keeps {s0 s : State} {g : Nat} {cycles : Nat} (hK : Keeps s0 s) :
    Keeps s0 (State.unitBusy s g cycles) := by
  unfold State.unitBusy; simp +contextual (maxDischargeDepth := 99) [hK]

@[simp] theorem State.blockEnded_keeps {s0 s : State} {j : EngJob} {bad : Bool} (hK : Keeps s0 s) :
    Keeps s0 (State.blockEnded s j bad) := by
  unfold State.blockEnded; simp +contextual (maxDischargeDepth := 99) [hK]

@[simp] theorem State.readLlrs_keeps {s0 s : State} {j : EngJob} {llr4 : Bool} {r : Nat} (hK : Keeps s0 s) :
    Keeps s0 (State.readLlrs s j llr4 r).1 := by
  unfold State.readLlrs; simp +contextual (maxDischargeDepth := 99) [hK]

@[simp] theorem State.writeHeader_keeps {s0 s : State} {j : EngJob} {p : CodPage} {a : Nat} {st : Nat} {rvs : Nat} (hK : Keeps s0 s) :
    Keeps s0 (State.writeHeader s j p a st rvs).1 := by
  unfold State.writeHeader; simp +contextual (maxDischargeDepth := 99) [hK]

@[simp] theorem State.storeSlot_keeps {s0 s : State} {j : EngJob} {p : CodPage} {a : Nat} {r : Nat} {high : Nat} {d : Decoded} {soft : List Int} (hK : Keeps s0 s) :
    Keeps s0 (State.storeSlot s j p a r high d soft).1 := by
  unfold State.storeSlot; simp +contextual (maxDischargeDepth := 99) [hK]

@[simp] theorem State.readSlot_keeps {s0 s : State} {req : Nat} {a : Nat} (hK : Keeps s0 s) :
    Keeps s0 (State.readSlot s req a).1 := by
  unfold State.readSlot; simp +contextual (maxDischargeDepth := 99) [hK]

@[simp] theorem State.runDecoder_keeps {s0 s : State} {j : EngJob} {p : CodPage} {buf : Option Nat} {r : Nat} {stored : List Int} {short : Bool} (hK : Keeps s0 s) :
    Keeps s0 (State.runDecoder s j p buf r stored short) := by
  unfold State.runDecoder; dsimp only; (repeat' (first | (simp +contextual (maxDischargeDepth := 99) [hK]; done) | split))

@[simp] theorem State.decodeStep_keeps {s0 s : State} {g : Nat} {kind : Nat} (hK : Keeps s0 s) :
    Keeps s0 (State.decodeStep s g kind) := by
  unfold State.decodeStep; dsimp only; (repeat' (first | (simp +contextual (maxDischargeDepth := 99) [hK]; done) | split))

@[simp] theorem execLdpcDec_keeps {s0 s : State} {group : Nat} (hK : Keeps s0 s) :
    KeepsRes s0 (execLdpcDec group s) := by
  unfold execLdpcDec; simp +contextual (maxDischargeDepth := 99) [hK]

@[simp] theorem execTurboDec_keeps {s0 s : State} {group : Nat} (hK : Keeps s0 s) :
    KeepsRes s0 (execTurboDec group s) := by
  unfold execTurboDec; simp +contextual (maxDischargeDepth := 99) [hK]

@[simp] theorem State.encodeStep_keeps {s0 s : State} {g : Nat} {kind : Nat} (hK : Keeps s0 s) :
    Keeps s0 (State.encodeStep s g kind) := by
  unfold State.encodeStep; split <;> simp +contextual (maxDischargeDepth := 99) [hK]

@[simp] theorem execLdpcEnc_keeps {s0 s : State} {group : Nat} (hK : Keeps s0 s) :
    KeepsRes s0 (execLdpcEnc group s) := by
  unfold execLdpcEnc; simp +contextual (maxDischargeDepth := 99) [hK]

@[simp] theorem execTurboEnc_keeps {s0 s : State} {group : Nat} (hK : Keeps s0 s) :
    KeepsRes s0 (execTurboEnc group s) := by
  unfold execTurboEnc; simp +contextual (maxDischargeDepth := 99) [hK]

@[simp] theorem State.polarDec_keeps {s0 s : State} {g : Nat} (hK : Keeps s0 s) :
    Keeps s0 (State.polarDec s g) := by
  unfold State.polarDec; dsimp only; (repeat' (first | (simp +contextual (maxDischargeDepth := 99) [hK]; done) | split))

@[simp] theorem execPolarDec_keeps {s0 s : State} {group : Nat} (hK : Keeps s0 s) :
    KeepsRes s0 (execPolarDec group s) := by
  unfold execPolarDec; simp +contextual (maxDischargeDepth := 99) [hK]

@[simp] theorem State.polarEnc_keeps {s0 s : State} {g : Nat} (hK : Keeps s0 s) :
    Keeps s0 (State.polarEnc s g) := by
  unfold State.polarEnc; split <;> simp +contextual (maxDischargeDepth := 99) [hK]

@[simp] theorem execPolarEnc_keeps {s0 s : State} {group : Nat} (hK : Keeps s0 s) :
    KeepsRes s0 (execPolarEnc group s) := by
  unfold execPolarEnc; simp +contextual (maxDischargeDepth := 99) [hK]

@[simp] theorem State.closeBuffer_keeps {s0 s : State} {j : EngJob} {ok : Bool} (hK : Keeps s0 s) :
    Keeps s0 (State.closeBuffer s j ok).1 := by
  unfold State.closeBuffer; dsimp only; (repeat' (first | (simp +contextual (maxDischargeDepth := 99) [hK]; done) | split))

@[simp] theorem State.closeDecode_keeps {s0 s : State} {j : EngJob} (hK : Keeps s0 s) :
    Keeps s0 (State.closeDecode s j).1 := by
  unfold State.closeDecode; simp +contextual (maxDischargeDepth := 99) [hK]

@[simp] theorem State.closeEncode_keeps {s0 s : State} {j : EngJob} (hK : Keeps s0 s) :
    Keeps s0 (State.closeEncode s j).1 := by
  unfold State.closeEncode; simp +contextual (maxDischargeDepth := 99) [hK]

@[simp] theorem execCodJobEnd_keeps {s0 s : State} {job : Nat} (hK : Keeps s0 s) :
    KeepsRes s0 (execCodJobEnd job s) := by
  unfold execCodJobEnd; refine State.whenClocked_keeps (fun s hK => ?_) hK; (repeat' (first | (simp +contextual (maxDischargeDepth := 99) [hK]; done) | split))

@[simp] theorem execCodJob_keeps {s0 s : State} {d : Desc} (hK : Keeps s0 s) :
    KeepsRes s0 (execCodJob d s) := by
  unfold execCodJob; simp +contextual (maxDischargeDepth := 99) [hK]

@[simp] theorem execCodAbort_keeps {s0 s : State} {d : Desc} (hK : Keeps s0 s) :
    KeepsRes s0 (execCodAbort d s) := by
  unfold execCodAbort; simp +contextual (maxDischargeDepth := 99) [hK]

@[simp] theorem execCodDisable_keeps {s0 s : State} {d : Desc} (hK : Keeps s0 s) :
    KeepsRes s0 (execCodDisable d s) := by
  unfold execCodDisable; simp +contextual (maxDischargeDepth := 99) [hK]

@[simp] theorem execCodEnable_keeps {s0 s : State} {d : Desc} (hK : Keeps s0 s) :
    KeepsRes s0 (execCodEnable d s) := by
  unfold execCodEnable; simp +contextual (maxDischargeDepth := 99) [hK]

@[simp] theorem State.writeHarqRegion_keeps {s0 s : State} {size : Bool} {v : W32} (hK : Keeps s0 s) :
    Keeps s0 (State.writeHarqRegion s size v) := by
  unfold State.writeHarqRegion; simp +contextual (maxDischargeDepth := 99) [hK]

@[simp] theorem execHarqRegionWrite_keeps {s0 s : State} {size : Bool} {value : W32} (hK : Keeps s0 s) :
    KeepsRes s0 (execHarqRegionWrite size value s) := by
  unfold execHarqRegionWrite; simp +contextual (maxDischargeDepth := 99) [hK]

@[simp] theorem State.writeLlrTab_keeps {s0 s : State} {hi : Bool} {v : W32} (hK : Keeps s0 s) :
    Keeps s0 (State.writeLlrTab s hi v) := by
  unfold State.writeLlrTab; simp +contextual (maxDischargeDepth := 99) [hK]

end Sys2Proof.Machine
end

