-- ==== Sys2Proof/Laws/KeepsSpectral.lean ====
section
/-! SUPPORT. What the operations of Machine/Spectral.lean keep (Laws/Keeps.lean). -/

set_option linter.unusedSimpArgs false

namespace Sys2Proof.Machine

@[simp] theorem State.countSpcSat_keeps {s0 s : State} {n : Nat} (hK : Keeps s0 s) :
    Keeps s0 (State.countSpcSat s n) := by
  unfold State.countSpcSat; simp +contextual (maxDischargeDepth := 99) [hK]

@[simp] theorem State.pipeRun_keeps {s0 s : State} {g : Nat} {n : Nat} {cycles : Nat} (hK : Keeps s0 s) :
    Keeps s0 (State.pipeRun s g n cycles) := by
  unfold State.pipeRun; simp +contextual (maxDischargeDepth := 99) [hK]

@[simp] theorem State.pipeWork_keeps {s0 s : State} {n : Nat} {cycles : Nat} (hK : Keeps s0 s) :
    Keeps s0 (State.pipeWork s n cycles) := by
  unfold State.pipeWork; simp +contextual (maxDischargeDepth := 99) [hK]

@[simp] theorem State.transforms_keeps {s0 s : State} {g : Nat} {j : EngJob} {i left sat : Nat} (hK : Keeps s0 s) :
    Keeps s0 (State.transforms s g j i left sat).1 := by
  induction left generalizing s i sat with
  | zero => exact hK
  | succ f ih =>
    unfold State.transforms
    extract_lets +onlyGivenNames n x
    have hx : Keeps s0 x.1 := State.readModule_keeps hK
    clear_value x
    split
    · exact hx
    · extract_lets +onlyGivenNames y z
      have hz : Keeps s0 z.1 := State.writeModule_keeps hx
      clear_value y z
      split
      · exact ih hz
      · exact hz

@[simp] theorem State.transform_keeps {s0 s : State} {kind : Nat} (hK : Keeps s0 s) :
    Keeps s0 (State.transform s kind) := by
  unfold State.transform; split <;> simp +contextual (maxDischargeDepth := 99) [hK]

@[simp] theorem execFft_keeps {s0 s : State} (hK : Keeps s0 s) :
    KeepsRes s0 (execFft s) := by
  unfold execFft; simp +contextual (maxDischargeDepth := 99) [hK]

@[simp] theorem execIfft_keeps {s0 s : State} (hK : Keeps s0 s) :
    KeepsRes s0 (execIfft s) := by
  unfold execIfft; simp +contextual (maxDischargeDepth := 99) [hK]

@[simp] theorem execSpcJob_keeps {s0 s : State} {d : Desc} (hK : Keeps s0 s) :
    KeepsRes s0 (execSpcJob d s) := by
  unfold execSpcJob; simp +contextual (maxDischargeDepth := 99) [hK]

@[simp] theorem execSpcJobEnd_keeps {s0 s : State} {job : Nat} (hK : Keeps s0 s) :
    KeepsRes s0 (execSpcJobEnd job s) := by
  unfold execSpcJobEnd; refine State.whenClocked_keeps (fun s hK => ?_) hK; (repeat' (first | (simp +contextual (maxDischargeDepth := 99) [hK]; done) | split))

@[simp] theorem execSpcAbort_keeps {s0 s : State} {d : Desc} (hK : Keeps s0 s) :
    KeepsRes s0 (execSpcAbort d s) := by
  unfold execSpcAbort; simp +contextual (maxDischargeDepth := 99) [hK]

@[simp] theorem execSpcDisable_keeps {s0 s : State} {d : Desc} (hK : Keeps s0 s) :
    KeepsRes s0 (execSpcDisable d s) := by
  unfold execSpcDisable; simp +contextual (maxDischargeDepth := 99) [hK]

@[simp] theorem execSpcEnable_keeps {s0 s : State} {d : Desc} (hK : Keeps s0 s) :
    KeepsRes s0 (execSpcEnable d s) := by
  unfold execSpcEnable; simp +contextual (maxDischargeDepth := 99) [hK]

@[simp] theorem execJobItemRead_keeps {s0 s : State} {engine : Nat} (hK : Keeps s0 s) :
    KeepsRes s0 (execJobItemRead engine s) := by
  unfold execJobItemRead; simp +contextual (maxDischargeDepth := 99) [hK]

@[simp] theorem State.setDet_keeps {s0 s : State} {d : Nat} {x : Detector} (hK : Keeps s0 s) :
    Keeps s0 (State.setDet s d x) := by
  unfold State.setDet; simp +contextual (maxDischargeDepth := 99) [hK]

@[simp] theorem State.detFeed_keeps {s0 s : State} {d : Nat} {p : DetPart} (hK : Keeps s0 s) :
    Keeps s0 (State.detFeed s d p) := by
  unfold State.detFeed; simp +contextual (maxDischargeDepth := 99) [hK]

@[simp] theorem State.detReport_keeps {s0 s : State} {d : Nat} {i : Nat} {outcome : Nat} {x : DetCtx} {c : Nat} {decided : Bool} (hK : Keeps s0 s) :
    Keeps s0 (State.detReport s d i outcome x c decided) := by
  unfold State.detReport; simp +contextual (maxDischargeDepth := 99) [hK]

@[simp] theorem State.burstItem_keeps {s0 s : State} {d : Nat} {c : Nat} {x : DetCtx} {n : Nat} (hK : Keeps s0 s) :
    Keeps s0 (State.burstItem s d c x n) := by
  unfold State.burstItem; simp +contextual (maxDischargeDepth := 99) [hK]

@[simp] theorem State.burstItems_keeps {s0 s : State} {d : Nat} {c : Nat} {upto : Nat} {last : Bool} {x : DetCtx} {fuel : Nat} (hK : Keeps s0 s) :
    Keeps s0 (State.burstItems s d c upto last x fuel).1 := by
  induction fuel generalizing s d c upto last x with | zero => (unfold State.burstItems; simp [hK]; done) | succ a ih => (unfold State.burstItems; simp +contextual (maxDischargeDepth := 99) [hK, ih]; done)

@[simp] theorem State.advanceBurst_keeps {s0 s : State} {d : Nat} {c : Nat} {i : Nat} (hK : Keeps s0 s) :
    Keeps s0 (State.advanceBurst s d c i) := by
  unfold State.advanceBurst; dsimp only; (repeat' (first | (simp +contextual (maxDischargeDepth := 99) [hK]; done) | split))

@[simp] theorem State.advanceDet_keeps {s0 s : State} {d : Nat} (hK : Keeps s0 s) :
    Keeps s0 (State.advanceDet s d) := by
  unfold State.advanceDet; split <;> simp +contextual (maxDischargeDepth := 99) [hK]

@[simp] theorem State.setStream_keeps {s0 s : State} {c : Nat} {x : Streams} (hK : Keeps s0 s) :
    Keeps s0 (State.setStream s c x) := by
  unfold State.setStream; simp +contextual (maxDischargeDepth := 99) [hK]

@[simp] theorem State.antennaFeed_keeps {s0 s : State} {c : Nat} {p : DetPart} (hK : Keeps s0 s) :
    Keeps s0 (State.antennaFeed s c p) := by
  unfold State.antennaFeed; simp +contextual (maxDischargeDepth := 99) [hK]

@[simp] theorem State.rxItem_keeps {s0 s : State} {c : Nat} {words : List QWord} (hK : Keeps s0 s) :
    Keeps s0 (State.rxItem s c words) := by
  unfold State.rxItem; simp +contextual (maxDischargeDepth := 99) [hK]

@[simp] theorem State.pullItems_keeps {s0 s : State} {qid : Nat} {r : Consumer} {f : State → QItem → State} {fuel : Nat} (hf_f : ∀ x0 x1, Keeps s0 x0 → Keeps s0 (f x0 x1)) (hK : Keeps s0 s) :
    Keeps s0 (State.pullItems s qid r f fuel) := by
  induction fuel generalizing s qid r with | zero => (unfold State.pullItems; (repeat' (first | (simp +contextual (maxDischargeDepth := 99) [hK, hf_f]; done) | split)); done) | succ a ih => (unfold State.pullItems; dsimp only; (repeat' (first | (simp +contextual (maxDischargeDepth := 99) [hK, hf_f, ih]; done) | split)); done)

@[simp] theorem State.rxPull_keeps {s0 s : State} {c : Nat} {p : SpcPage} (hK : Keeps s0 s) :
    Keeps s0 (State.rxPull s c p) := by
  unfold State.rxPull; simp +contextual (maxDischargeDepth := 99) [hK]

@[simp] theorem State.rxProcess_keeps {s0 s : State} {c : Nat} {ant : Nat} {k : Nat} {slot : W32} {l : SlotLatch} {gap : Bool} (hK : Keeps s0 s) :
    Keeps s0 (State.rxProcess s c ant k slot l gap) := by
  unfold State.rxProcess; simp +contextual (maxDischargeDepth := 99) [hK]

@[simp] theorem State.rxSymbol_keeps {s0 s : State} {c : Nat} {ant : Nat} {k : Nat} {slot : W32} (hK : Keeps s0 s) :
    Keeps s0 (State.rxSymbol s c ant k slot) := by
  unfold State.rxSymbol; split <;> simp +contextual (maxDischargeDepth := 99) [hK]

@[simp] theorem execRxSymbol_keeps {s0 s : State} {carrier : Nat} {ant : Nat} {sym : Nat} {slot : W32} (hK : Keeps s0 s) :
    KeepsRes s0 (execRxSymbol carrier ant sym slot s) := by
  unfold execRxSymbol; simp +contextual (maxDischargeDepth := 99) [hK]

@[simp] theorem State.rxGap_keeps {s0 s : State} {c : Nat} {ant : Nat} {k : Nat} {slot : W32} (hK : Keeps s0 s) :
    Keeps s0 (State.rxGap s c ant k slot) := by
  unfold State.rxGap; split <;> simp +contextual (maxDischargeDepth := 99) [hK]

@[simp] theorem execRxGapDeadline_keeps {s0 s : State} {carrier : Nat} {ant : Nat} {sym : Nat} {slot : W32} (hK : Keeps s0 s) :
    KeepsRes s0 (execRxGapDeadline carrier ant sym slot s) := by
  unfold execRxGapDeadline; simp +contextual (maxDischargeDepth := 99) [hK]

@[simp] theorem State.streamExpire_keeps {s0 s : State} {c : Nat} {h : Half} {slot : W32} (hK : Keeps s0 s) :
    Keeps s0 (State.streamExpire s c h slot) := by
  unfold State.streamExpire; split <;> simp +contextual (maxDischargeDepth := 99) [hK]

end Sys2Proof.Machine
end

