-- ==== Sys2Proof/Laws/KeepsSpcTx.lean ====
section
/-! SUPPORT. What the operations of Machine/SpcTx.lean keep (Laws/Keeps.lean). -/

set_option linter.unusedSimpArgs false

namespace Sys2Proof.Machine

@[simp] theorem State.setPath_keeps {s0 s : State} {c : Nat} {x : TxPath} (hK : Keeps s0 s) :
    Keeps s0 (State.setPath s c x) := by
  unfold State.setPath; simp +contextual (maxDischargeDepth := 99) [hK]

@[simp] theorem State.txItem_keeps {s0 s : State} {c : Nat} {i : QItem} (hK : Keeps s0 s) :
    Keeps s0 (State.txItem s c i) := by
  unfold State.txItem; simp +contextual (maxDischargeDepth := 99) [hK]

@[simp] theorem State.txPull_keeps {s0 s : State} {c : Nat} {p : SpcPage} (hK : Keeps s0 s) :
    Keeps s0 (State.txPull s c p) := by
  unfold State.txPull; simp +contextual (maxDischargeDepth := 99) [hK]

@[simp] theorem State.txEmit_keeps {s0 s : State} {c : Nat} {ant : Nat} {k : Nat} {l : SlotLatch} {slot : W32} {before : Bool} {item : Option (List QWord)} (hK : Keeps s0 s) :
    Keeps s0 (State.txEmit s c ant k l slot before item) := by
  unfold State.txEmit; simp +contextual (maxDischargeDepth := 99) [hK]

@[simp] theorem State.txDecision_keeps {s0 s : State} {c : Nat} {ant : Nat} {k : Nat} {slot : W32} (hK : Keeps s0 s) :
    Keeps s0 (State.txDecision s c ant k slot) := by
  unfold State.txDecision; split <;> simp +contextual (maxDischargeDepth := 99) [hK]

@[simp] theorem execTxDecision_keeps {s0 s : State} {carrier : Nat} {ant : Nat} {sym : Nat} {slot : W32} (hK : Keeps s0 s) :
    KeepsRes s0 (execTxDecision carrier ant sym slot s) := by
  unfold execTxDecision; simp +contextual (maxDischargeDepth := 99) [hK]

@[simp] theorem State.qualSlotCheck_keeps {s0 s : State} {c : Nat} {slot : W32} (hK : Keeps s0 s) :
    Keeps s0 (State.qualSlotCheck s c slot) := by
  unfold State.qualSlotCheck; simp +contextual (maxDischargeDepth := 99) [hK]

@[simp] theorem execQualSlotCheck_keeps {s0 s : State} {carrier : Nat} {slot : W32} (hK : Keeps s0 s) :
    KeepsRes s0 (execQualSlotCheck carrier slot s) := by
  unfold execQualSlotCheck; simp +contextual (maxDischargeDepth := 99) [hK]

@[simp] theorem State.qualReport_keeps {s0 s : State} {c : Nat} {outcome : Nat} {w : SetWords} {x : TxPath} {slot : W32} (hK : Keeps s0 s) :
    Keeps s0 (State.qualReport s c outcome w x slot) := by
  unfold State.qualReport; simp +contextual (maxDischargeDepth := 99) [hK]

@[simp] theorem State.enterQualify_keeps {s0 s : State} {c : Nat} {w : SetWords} (hK : Keeps s0 s) :
    Keeps s0 (State.enterQualify s c w) := by
  unfold State.enterQualify; simp +contextual (maxDischargeDepth := 99) [hK]

@[simp] theorem State.txClear_keeps {s0 s : State} {c : Nat} (hK : Keeps s0 s) :
    Keeps s0 (State.txClear s c) := by
  unfold State.txClear; simp +contextual (maxDischargeDepth := 99) [hK]

@[simp] theorem State.pathBoundary_keeps {s0 s : State} {c : Nat} {w : SetWords} {start : Bool} {slot : W32} (hK : Keeps s0 s) :
    Keeps s0 (State.pathBoundary s c w start slot) := by
  unfold State.pathBoundary; simp +contextual (maxDischargeDepth := 99) [hK]

@[simp] theorem State.pathOff_keeps {s0 s : State} {c : Nat} {st : Nat} (hK : Keeps s0 s) :
    Keeps s0 (State.pathOff s c st) := by
  unfold State.pathOff; simp +contextual (maxDischargeDepth := 99) [hK]

@[simp] theorem State.spcTxq_keeps {s0 s : State} {d : Desc} (hK : Keeps s0 s) :
    Keeps s0 (State.spcTxq s d) := by
  unfold State.spcTxq; simp +contextual (maxDischargeDepth := 99) [hK]

@[simp] theorem execSpcTxq_keeps {s0 s : State} {d : Desc} (hK : Keeps s0 s) :
    KeepsRes s0 (execSpcTxq d s) := by
  unfold execSpcTxq; simp +contextual (maxDischargeDepth := 99) [hK]

end Sys2Proof.Machine
end

