-- ==== Sys2Proof/Laws/KeepsDetect.lean ====
section
/-! SUPPORT. What the operations of Machine/Detect.lean keep (Laws/Keeps.lean). -/

set_option linter.unusedSimpArgs false

namespace Sys2Proof.Machine

@[simp] theorem State.detItem_keeps {s0 s : State} {d : Nat} {c : Nat} {qid : Nat} {words : List QWord} (hK : Keeps s0 s) :
    Keeps s0 (State.detItem s d c qid words) := by
  unfold State.detItem; simp +contextual (maxDischargeDepth := 99) [hK]

@[simp] theorem State.detSet_keeps {s0 s : State} {d : Nat} {words : List QWord} (hK : Keeps s0 s) :
    Keeps s0 (State.detSet s d words) := by
  unfold State.detSet; simp +contextual (maxDischargeDepth := 99) [hK]

@[simp] theorem State.pullSource_keeps {s0 s : State} {d : Nat} {c : Nat} {source : Nat × Nat} (hK : Keeps s0 s) :
    Keeps s0 (State.pullSource s d c source) := by
  unfold State.pullSource; simp +contextual (maxDischargeDepth := 99) [hK]

@[simp] theorem State.detPull_keeps {s0 s : State} {d : Nat} (hK : Keeps s0 s) :
    Keeps s0 (State.detPull s d) := by
  unfold State.detPull; split <;> simp +contextual (maxDischargeDepth := 99) [hK]

@[simp] theorem State.readSamples_keeps {s0 s : State} {a : Nat} {n : Nat} (hK : Keeps s0 s) :
    Keeps s0 (State.readSamples s a n).1 := by
  unfold State.readSamples; simp +contextual (maxDischargeDepth := 99) [hK]

@[simp] theorem State.freeCtx_keeps {s0 s : State} {d : Nat} {i : Nat} {outcome : Nat} {decided : Bool} (hK : Keeps s0 s) :
    Keeps s0 (State.freeCtx s d i outcome decided) := by
  unfold State.freeCtx; simp +contextual (maxDischargeDepth := 99) [hK]

@[simp] theorem State.startCtx_keeps {s0 s : State} {d : Nat} {i : Nat} {p : Peak} (hK : Keeps s0 s) :
    Keeps s0 (State.startCtx s d i p) := by
  unfold State.startCtx; simp +contextual (maxDischargeDepth := 99) [hK]

@[simp] theorem State.decideCtx_keeps {s0 s : State} {d : Nat} {i : Nat} {rhoV : Nat} (hK : Keeps s0 s) :
    Keeps s0 (State.decideCtx s d i rhoV) := by
  unfold State.decideCtx; simp +contextual (maxDischargeDepth := 99) [hK]

@[simp] theorem State.decideAtOnce_keeps {s0 s : State} {d : Nat} {i : Nat} (hK : Keeps s0 s) :
    Keeps s0 (State.decideAtOnce s d i) := by
  unfold State.decideAtOnce; simp +contextual (maxDischargeDepth := 99) [hK]

@[simp] theorem State.applyPeak_keeps {s0 s : State} {d : Nat} {p : Peak} (hK : Keeps s0 s) :
    Keeps s0 (State.applyPeak s d p) := by
  unfold State.applyPeak; dsimp only; (repeat' (first | (simp +contextual (maxDischargeDepth := 99) [hK]; done) | split))

@[simp] theorem State.peak_keeps {s0 s : State} {d : Nat} {t : Int} {power : Nat} {rho : Nat} (hK : Keeps s0 s) :
    Keeps s0 (State.peak s d t power rho) := by
  unfold State.peak; dsimp only; (repeat' (first | (simp +contextual (maxDischargeDepth := 99) [hK]; done) | split))

@[simp] theorem execPeak_keeps {s0 s : State} {det : Nat} {time : Int} {power : Nat} {rho : Nat} (hK : Keeps s0 s) :
    KeepsRes s0 (execPeak det time power rho s) := by
  unfold execPeak; simp +contextual (maxDischargeDepth := 99) [hK]

@[simp] theorem State.validationDecision_keeps {s0 s : State} {d : Nat} {i : Nat} {rhoV : Nat} (hK : Keeps s0 s) :
    Keeps s0 (State.validationDecision s d i rhoV) := by
  unfold State.validationDecision; simp +contextual (maxDischargeDepth := 99) [hK]

@[simp] theorem execValidationDecision_keeps {s0 s : State} {det : Nat} {ctx : Nat} {rhoV : Nat} (hK : Keeps s0 s) :
    KeepsRes s0 (execValidationDecision det ctx rhoV s) := by
  unfold execValidationDecision; simp +contextual (maxDischargeDepth := 99) [hK]

@[simp] theorem State.burstDone_keeps {s0 s : State} {d : Nat} {i : Nat} (hK : Keeps s0 s) :
    Keeps s0 (State.burstDone s d i) := by
  unfold State.burstDone; simp +contextual (maxDischargeDepth := 99) [hK]

@[simp] theorem execBurstDone_keeps {s0 s : State} {det : Nat} {ctx : Nat} (hK : Keeps s0 s) :
    KeepsRes s0 (execBurstDone det ctx s) := by
  unfold execBurstDone; simp +contextual (maxDischargeDepth := 99) [hK]

@[simp] theorem State.abortDet_keeps {s0 s : State} {d : Nat} {hit : DetCtx → Bool} (hK : Keeps s0 s) :
    Keeps s0 (State.abortDet s d hit) := by
  unfold State.abortDet; simp +contextual (maxDischargeDepth := 99) [hK]

@[simp] theorem State.releaseDet_keeps {s0 s : State} {d : Nat} (hK : Keeps s0 s) :
    Keeps s0 (State.releaseDet s d) := by
  unfold State.releaseDet; simp +contextual (maxDischargeDepth := 99) [hK]

@[simp] theorem State.readRecord_keeps {s0 s : State} {c d : Nat} {w : SetWords} (hK : Keeps s0 s) : Keeps s0 (State.readRecord s c d w) := by
  unfold State.readRecord
  refine State.setDet_keeps ?_
  split
  · exact State.bumpFld_keeps (State.readModule_keeps hK)
  · exact State.readModule_keeps hK

@[simp] theorem State.detCouch_keeps {s0 s : State} {c : Nat} {w : SetWords} (hK : Keeps s0 s) : Keeps s0 (State.detCouch s c w) := by
  unfold State.detCouch
  extract_lets +onlyGivenNames r s1
  have h1 : Keeps s0 s1 := keeps_foldl _ _ (fun s d h => by split; exact State.releaseDet_keeps h; exact h) hK
  clear_value s1
  refine keeps_foldl _ _ (fun s d h => ?_) h1
  split
  · split
    · exact State.readRecord_keeps h
    · exact State.raise_keeps h
  · exact State.readRecord_keeps h

@[simp] theorem State.detStop_keeps {s0 s : State} {c : Nat} (hK : Keeps s0 s) :
    Keeps s0 (State.detStop s c) := by
  unfold State.detStop; simp +contextual (maxDischargeDepth := 99) [hK]

@[simp] theorem State.detSlotAbort_keeps {s0 s : State} {c : Nat} {n : Int} (hK : Keeps s0 s) :
    Keeps s0 (State.detSlotAbort s c n) := by
  unfold State.detSlotAbort; simp +contextual (maxDischargeDepth := 99) [hK]

@[simp] theorem State.occasionReport_keeps {s0 s : State} {d : Nat} {slot : W32} {place : Int × Nat × Int} {found : List Found} (hK : Keeps s0 s) :
    Keeps s0 (State.occasionReport s d slot place found) := by
  unfold State.occasionReport; simp +contextual (maxDischargeDepth := 99) [hK]

@[simp] theorem State.missDets_keeps {s0 s : State} {n : Nat} (hK : Keeps s0 s) :
    Keeps s0 (State.missDets s n) := by
  unfold State.missDets; simp +contextual (maxDischargeDepth := 99) [hK]

@[simp] theorem State.occasion_keeps {s0 s : State} {d : Nat} {slot : W32} {found : Nat} (hK : Keeps s0 s) :
    Keeps s0 (State.occasion s d slot found) := by
  unfold State.occasion; dsimp only; (repeat' (first | (simp +contextual (maxDischargeDepth := 99) [hK]; done) | split))

@[simp] theorem execOccasion_keeps {s0 s : State} {det : Nat} {slot : W32} {found : Nat} (hK : Keeps s0 s) :
    KeepsRes s0 (execOccasion det slot found s) := by
  unfold execOccasion; simp +contextual (maxDischargeDepth := 99) [hK]

@[simp] theorem State.enginesSlotAbort_keeps {s0 s : State} {c : Nat} {h : Half} {n : Int} (hK : Keeps s0 s) :
    Keeps s0 (State.enginesSlotAbort s c h n) := by
  unfold State.enginesSlotAbort; split <;> simp +contextual (maxDischargeDepth := 99) [hK]

end Sys2Proof.Machine
end

