-- ==== Sys2Proof/Laws/KeepsDma.lean ====
section
/-! SUPPORT. What the operations of Machine/Dma.lean keep (Laws/Keeps.lean). -/

set_option linter.unusedSimpArgs false

namespace Sys2Proof.Machine

@[simp] theorem State.setChan_keeps {s0 s : State} {c : Nat} {x : DmaChan} (hK : Keeps s0 s) :
    Keeps s0 (State.setChan s c x) := by
  unfold State.setChan; simp +contextual (maxDischargeDepth := 99) [hK]

@[simp] theorem State.setProg_keeps {s0 s : State} {c : Nat} {p : DmaProg} (hK : Keeps s0 s) :
    Keeps s0 (State.setProg s c p) := by
  unfold State.setProg; simp +contextual (maxDischargeDepth := 99) [hK]

@[simp] theorem State.unstall_keeps {s0 s : State} {qid : Nat} {r : Consumer} (hK : Keeps s0 s) :
    Keeps s0 (State.unstall s qid r) := by
  unfold State.unstall; simp +contextual (maxDischargeDepth := 99) [hK]

@[simp] theorem State.reportProg_keeps {s0 s : State} {c : Nat} {p : DmaProg} {status : Nat} {specific : Nat} (hK : Keeps s0 s) :
    Keeps s0 (State.reportProg s c p status specific) := by
  unfold State.reportProg; split <;> simp +contextual (maxDischargeDepth := 99) [hK]

@[simp] theorem State.reportEnd_keeps {s0 s : State} {c : Nat} {p : DmaProg} {status : Nat} {specific : Nat} (hK : Keeps s0 s) :
    Keeps s0 (State.reportEnd s c p status specific) := by
  unfold State.reportEnd; simp +contextual (maxDischargeDepth := 99) [hK]

@[simp] theorem State.settleEnded_keeps {s0 s : State} (hK : Keeps s0 s) :
    Keeps s0 (State.settleEnded s) := by
  unfold State.settleEnded; simp +contextual (maxDischargeDepth := 99) [hK]

@[simp] theorem State.countProg_keeps {s0 s : State} {c : Nat} {status : Nat} (hK : Keeps s0 s) :
    Keeps s0 (State.countProg s c status) := by
  unfold State.countProg; simp +contextual (maxDischargeDepth := 99) [hK]

@[simp] theorem State.settleChan_keeps {s0 s : State} {c : Nat} (hK : Keeps s0 s) :
    Keeps s0 (State.settleChan s c) := by
  unfold State.settleChan; simp +contextual (maxDischargeDepth := 99) [hK]

@[simp] theorem State.endProg_keeps {s0 s : State} {c : Nat} {p : DmaProg} {status : Nat} {specific : Nat} (hK : Keeps s0 s) :
    Keeps s0 (State.endProg s c p status specific) := by
  unfold State.endProg; dsimp only; (repeat' (first | (simp +contextual (maxDischargeDepth := 99) [hK]; done) | split))

@[simp] theorem State.badProg_keeps {s0 s : State} {c : Nat} {p : DmaProg} {instr : Nat} {data : Nat} (hK : Keeps s0 s) :
    Keeps s0 (State.badProg s c p instr data) := by
  unfold State.badProg; simp +contextual (maxDischargeDepth := 99) [hK]

@[simp] theorem State.addProg_keeps {s0 s : State} {c : Nat} {p : DmaProg} (hK : Keeps s0 s) :
    Keeps s0 (State.addProg s c p) := by
  unfold State.addProg; simp +contextual (maxDischargeDepth := 99) [hK]

@[simp] theorem State.acceptProg_keeps {s0 s : State} {c : Nat} {p : DmaProg} {immediate : Bool} {stamp : W32} (hK : Keeps s0 s) :
    Keeps s0 (State.acceptProg s c p immediate stamp).1 := by
  unfold State.acceptProg; dsimp only; (repeat' (first | (simp +contextual (maxDischargeDepth := 99) [hK]; done) | split))

@[simp] theorem State.dmaRun_keeps {s0 s : State} {d : Desc} (hK : Keeps s0 s) : Keeps s0 (State.dmaRun s d) := by
  have acc {s : State} {c : Nat} {p : DmaProg} {i : Bool} {w : W32} {x : State × Option Nat} (h : s.acceptProg c p i w = x)
      (hK : Keeps s0 s) : Keeps s0 x.1 := h ▸ State.acceptProg_keeps hK
  unfold State.dmaRun; try dsimp only
  split
  · split <;> simp +contextual (maxDischargeDepth := 99) [hK]
  · split
    · next h => exact State.complete_keeps (acc h (State.clampDesc_keeps hK))
    · next h => exact acc h (State.clampDesc_keeps hK)

@[simp] theorem execDmaRun_keeps {s0 s : State} {d : Desc} (hK : Keeps s0 s) :
    KeepsRes s0 (execDmaRun d s) := by
  unfold execDmaRun; simp +contextual (maxDischargeDepth := 99) [hK]

@[simp] theorem State.runItem_keeps {s0 s : State} {c : Nat} {w : QWord} (hK : Keeps s0 s) : Keeps s0 (State.runItem s c w) := by
  have acc {s : State} {c : Nat} {p : DmaProg} {i : Bool} {w : W32} {x : State × Option Nat} (h : s.acceptProg c p i w = x)
      (hK : Keeps s0 s) : Keeps s0 x.1 := h ▸ State.acceptProg_keeps hK
  unfold State.runItem; try dsimp only
  split
  · next h => exact State.reportProg_keeps (acc h (State.clampIf_keeps hK))
  · next h => exact acc h (State.clampIf_keeps hK)

@[simp] theorem State.runRead_keeps {s0 s : State} {c : Nat} {r : ReadResult} (hK : Keeps s0 s) :
    Keeps s0 (State.runRead s c r) := by
  unfold State.runRead; split <;> simp +contextual (maxDischargeDepth := 99) [hK]

@[simp] theorem State.runItemRead_keeps {s0 s : State} {c : Nat} (hK : Keeps s0 s) :
    Keeps s0 (State.runItemRead s c) := by
  unfold State.runItemRead; simp +contextual (maxDischargeDepth := 99) [hK]

@[simp] theorem execRunItemRead_keeps {s0 s : State} {ch : Nat} (hK : Keeps s0 s) :
    KeepsRes s0 (execRunItemRead ch s) := by
  unfold execRunItemRead; simp +contextual (maxDischargeDepth := 99) [hK]

@[simp] theorem execProgramStart_keeps {s0 s : State} {ch : Nat} (hK : Keeps s0 s) :
    KeepsRes s0 (execProgramStart ch s) := by
  unfold execProgramStart; refine State.whenClocked_keeps (fun s hK => ?_) hK; dsimp only; (repeat' (first | (simp +contextual (maxDischargeDepth := 99) [hK]; done) | split))

@[simp] theorem State.fetchAt_keeps {s0 s : State} {c : Nat} {p : DmaProg} {k : Nat} {inst : List W32} (hK : Keeps s0 s) :
    Keeps s0 (State.fetchAt s c p k inst).1 := by
  unfold State.fetchAt; dsimp only; (repeat' (first | (simp +contextual (maxDischargeDepth := 99) [hK]; done) | split))

@[simp] theorem State.fetchAhead_keeps {s0 s : State} {c : Nat} {p : DmaProg} {inst : List W32} {n : Nat} (hK : Keeps s0 s) :
    Keeps s0 (State.fetchAhead s c p inst n).1 := by
  induction n generalizing s c p inst with | zero => (unfold State.fetchAhead; simp [hK]; done) | succ a ih => (unfold State.fetchAhead; simp +contextual (maxDischargeDepth := 99) [hK, ih]; done)

@[simp] theorem State.fetchInstr_keeps {s0 s : State} {c : Nat} {p : DmaProg} {inst : List W32} (hK : Keeps s0 s) :
    Keeps s0 (State.fetchInstr s c p inst).1 := by
  unfold State.fetchInstr; simp +contextual (maxDischargeDepth := 99) [hK]

@[simp] theorem State.atInstr_keeps {s0 s : State} {c : Nat} {inst : List W32} {due : List W32 → Bool} {f : State → DmaProg → List W32 → State} (hf_f : ∀ x0 x1 x2, Keeps s0 x0 → Keeps s0 (f x0 x1 x2)) (hK : Keeps s0 s) :
    Keeps s0 (State.atInstr s c inst due f) := by
  unfold State.atInstr; dsimp only; (repeat' (first | (simp +contextual (maxDischargeDepth := 99) [hK, hf_f]; done) | split))

@[simp] theorem State.clampInstr_keeps {s0 s : State} {p : DmaProg} {cl : Bool} (hK : Keeps s0 s) :
    Keeps s0 (State.clampInstr s p cl).1 := by
  unfold State.clampInstr; simp +contextual (maxDischargeDepth := 99) [hK]

@[simp] theorem State.nextInstr_keeps {s0 s : State} {c : Nat} {p : DmaProg} (hK : Keeps s0 s) :
    Keeps s0 (State.nextInstr s c p) := by
  unfold State.nextInstr; simp +contextual (maxDischargeDepth := 99) [hK]

@[simp] theorem State.dmaEnd_keeps {s0 s : State} {c : Nat} {p : DmaProg} {i : List W32} (hK : Keeps s0 s) :
    Keeps s0 (State.dmaEnd s c p i) := by
  unfold State.dmaEnd; simp +contextual (maxDischargeDepth := 99) [hK]

@[simp] theorem execEndProgram_keeps {s0 s : State} {ch : Nat} {inst : List W32} (hK : Keeps s0 s) :
    KeepsRes s0 (execEndProgram ch inst s) := by
  unfold execEndProgram; simp +contextual (maxDischargeDepth := 99) [hK]

@[simp] theorem State.beginMove_keeps {s0 s : State} {c : Nat} {p : DmaProg} {i : List W32} {host : List Byte} (hK : Keeps s0 s) :
    Keeps s0 (State.beginMove s c p i host) := by
  unfold State.beginMove; simp +contextual (maxDischargeDepth := 99) [hK]

@[simp] theorem State.afterBurst_keeps {s0 s : State} {c : Nat} {p : DmaProg} {m : DmaMove} {rest : List (Nat × Nat)} (hK : Keeps s0 s) :
    Keeps s0 (State.afterBurst s c p m rest) := by
  unfold State.afterBurst; simp +contextual (maxDischargeDepth := 99) [hK]

@[simp] theorem State.burst_keeps {s0 s : State} {c : Nat} (hK : Keeps s0 s) :
    Keeps s0 (State.burst s c) := by
  unfold State.burst; dsimp only; (repeat' (first | (simp +contextual (maxDischargeDepth := 99) [hK]; done) | split))

@[simp] theorem State.serveBursts_keeps {s0 s : State} {c : Nat} {n : Nat} (hK : Keeps s0 s) :
    Keeps s0 (State.serveBursts s c n) := by
  induction n generalizing s c with | zero => (unfold State.serveBursts; (repeat' (first | (simp +contextual (maxDischargeDepth := 99) [hK]; done) | split)); done) | succ a ih => (unfold State.serveBursts; (repeat' (first | (simp +contextual (maxDischargeDepth := 99) [hK, ih]; done) | split)); done)

@[simp] theorem State.dmaMove_keeps {s0 s : State} {c : Nat} {inst : List W32} {host : List Byte} {served : Nat} (hK : Keeps s0 s) :
    Keeps s0 (State.dmaMove s c inst host served) := by
  unfold State.dmaMove; simp +contextual (maxDischargeDepth := 99) [hK]

@[simp] theorem execDmaMove_keeps {s0 s : State} {ch : Nat} {inst : List W32} {run : MoveRun} (hK : Keeps s0 s) :
    KeepsRes s0 (execDmaMove ch inst run s) := by
  unfold execDmaMove; simp +contextual (maxDischargeDepth := 99) [hK]

@[simp] theorem State.dmaBusError_keeps {s0 s : State} {c : Nat} {inst : List W32} {host : List Byte} (hK : Keeps s0 s) :
    Keeps s0 (State.dmaBusError s c inst host) := by
  unfold State.dmaBusError; simp +contextual (maxDischargeDepth := 99) [hK]

@[simp] theorem execDmaBusError_keeps {s0 s : State} {ch : Nat} {inst : List W32} {host : List Byte} (hK : Keeps s0 s) :
    KeepsRes s0 (execDmaBusError ch inst host s) := by
  unfold execDmaBusError; simp +contextual (maxDischargeDepth := 99) [hK]

@[simp] theorem State.dmaLoopStep_keeps {s0 s : State} {c : Nat} {p : DmaProg} {i : List W32} (hK : Keeps s0 s) :
    Keeps s0 (State.dmaLoopStep s c p i) := by
  unfold State.dmaLoopStep; simp +contextual (maxDischargeDepth := 99) [hK]

@[simp] theorem execDmaLoop_keeps {s0 s : State} {ch : Nat} {inst : List W32} (hK : Keeps s0 s) :
    KeepsRes s0 (execDmaLoop ch inst s) := by
  unfold execDmaLoop; simp +contextual (maxDischargeDepth := 99) [hK]

@[simp] theorem State.endWait_keeps {s0 s : State} {c : Nat} {p : DmaProg} {timedOut : Bool} {status : Nat} (hK : Keeps s0 s) :
    Keeps s0 (State.endWait s c p timedOut status) := by
  unfold State.endWait; simp +contextual (maxDischargeDepth := 99) [hK]

@[simp] theorem State.waitRead_keeps {s0 s : State} {c : Nat} {p : DmaProg} {qid : Nat} (hK : Keeps s0 s) :
    Keeps s0 (State.waitRead s c p qid) := by
  unfold State.waitRead; dsimp only; (repeat' (first | (simp +contextual (maxDischargeDepth := 99) [hK]; done) | split))

@[simp] theorem State.beginWait_keeps {s0 s : State} {c : Nat} {p : DmaProg} {w : DmaWait} {go : State → DmaProg → State} (hf_go : ∀ x0 x1, Keeps s0 x0 → Keeps s0 (go x0 x1)) (hK : Keeps s0 s) :
    Keeps s0 (State.beginWait s c p w go) := by
  unfold State.beginWait; simp +contextual (maxDischargeDepth := 99) [hK, hf_go]

@[simp] theorem State.waitQueue_keeps {s0 s : State} {c : Nat} {p : DmaProg} {i : List W32} (hK : Keeps s0 s) :
    Keeps s0 (State.waitQueue s c p i) := by
  unfold State.waitQueue; simp +contextual (maxDischargeDepth := 99) [hK]

@[simp] theorem execWaitQueue_keeps {s0 s : State} {ch : Nat} {inst : List W32} (hK : Keeps s0 s) :
    KeepsRes s0 (execWaitQueue ch inst s) := by
  unfold execWaitQueue; simp +contextual (maxDischargeDepth := 99) [hK]

@[simp] theorem State.waitTime_keeps {s0 s : State} {c : Nat} {p : DmaProg} {i : List W32} (hK : Keeps s0 s) :
    Keeps s0 (State.waitTime s c p i) := by
  unfold State.waitTime; simp +contextual (maxDischargeDepth := 99) [hK]

@[simp] theorem execWaitTime_keeps {s0 s : State} {ch : Nat} {inst : List W32} (hK : Keeps s0 s) :
    KeepsRes s0 (execWaitTime ch inst s) := by
  unfold execWaitTime; simp +contextual (maxDischargeDepth := 99) [hK]

@[simp] theorem State.timeOutWait_keeps {s0 s : State} {c : Nat} {p : DmaProg} {w : DmaWait} (hK : Keeps s0 s) :
    Keeps s0 (State.timeOutWait s c p w) := by
  unfold State.timeOutWait; split <;> simp +contextual (maxDischargeDepth := 99) [hK]

@[simp] theorem State.tryWait_keeps {s0 s : State} {c : Nat} {p : DmaProg} {w : DmaWait} (hK : Keeps s0 s) :
    Keeps s0 (State.tryWait s c p w) := by
  unfold State.tryWait; split <;> simp +contextual (maxDischargeDepth := 99) [hK]

@[simp] theorem State.waitConditionMet_keeps {s0 s : State} {c : Nat} (hK : Keeps s0 s) :
    Keeps s0 (State.waitConditionMet s c) := by
  unfold State.waitConditionMet; (repeat' (first | (simp +contextual (maxDischargeDepth := 99) [hK]; done) | split))

@[simp] theorem execWaitConditionMet_keeps {s0 s : State} {ch : Nat} (hK : Keeps s0 s) :
    KeepsRes s0 (execWaitConditionMet ch s) := by
  unfold execWaitConditionMet; simp +contextual (maxDischargeDepth := 99) [hK]

@[simp] theorem State.waitDeadline_keeps {s0 s : State} {c : Nat} (hK : Keeps s0 s) :
    Keeps s0 (State.waitDeadline s c) := by
  unfold State.waitDeadline; dsimp only; (repeat' (first | (simp +contextual (maxDischargeDepth := 99) [hK]; done) | split))

@[simp] theorem execWaitDeadline_keeps {s0 s : State} {ch : Nat} (hK : Keeps s0 s) :
    KeepsRes s0 (execWaitDeadline ch s) := by
  unfold execWaitDeadline; simp +contextual (maxDischargeDepth := 99) [hK]

@[simp] theorem State.signalFlags_keeps {s0 s : State} {c : Nat} {p : DmaProg} {i : List W32} (hK : Keeps s0 s) :
    Keeps s0 (State.signalFlags s c p i) := by
  unfold State.signalFlags; simp +contextual (maxDischargeDepth := 99) [hK]

@[simp] theorem execSignalFlags_keeps {s0 s : State} {ch : Nat} {inst : List W32} (hK : Keeps s0 s) :
    KeepsRes s0 (execSignalFlags ch inst s) := by
  unfold execSignalFlags; simp +contextual (maxDischargeDepth := 99) [hK]

@[simp] theorem State.signalItem_keeps {s0 s : State} {c : Nat} {p : DmaProg} {i : List W32} (hK : Keeps s0 s) :
    Keeps s0 (State.signalItem s c p i) := by
  unfold State.signalItem; simp +contextual (maxDischargeDepth := 99) [hK]

@[simp] theorem execSignalItem_keeps {s0 s : State} {ch : Nat} {inst : List W32} (hK : Keeps s0 s) :
    KeepsRes s0 (execSignalItem ch inst s) := by
  unfold execSignalItem; simp +contextual (maxDischargeDepth := 99) [hK]

@[simp] theorem State.finishRead_keeps {s0 s : State} {c : Nat} (hK : Keeps s0 s) :
    Keeps s0 (State.finishRead s c) := by
  unfold State.finishRead; simp +contextual (maxDischargeDepth := 99) [hK]

@[simp] theorem State.abortProgs_keeps {s0 s : State} {c : Nat} {hit : DmaProg → Bool} (hK : Keeps s0 s) :
    Keeps s0 (State.abortProgs s c hit) := by
  unfold State.abortProgs; dsimp only; (repeat' (first | (simp +contextual (maxDischargeDepth := 99) [hK]; done) | split))

@[simp] theorem State.returnProgs_keeps {s0 s : State} {hit : DmaProg → Bool} (hK : Keeps s0 s) :
    Keeps s0 (State.returnProgs s hit) := by
  unfold State.returnProgs; simp +contextual (maxDischargeDepth := 99) [hK]

@[simp] theorem State.dmaAbort_keeps {s0 s : State} {d : Desc} (hK : Keeps s0 s) :
    Keeps s0 (State.dmaAbort s d) := by
  unfold State.dmaAbort; simp +contextual (maxDischargeDepth := 99) [hK]

@[simp] theorem execDmaAbort_keeps {s0 s : State} {d : Desc} (hK : Keeps s0 s) :
    KeepsRes s0 (execDmaAbort d s) := by
  unfold execDmaAbort; simp +contextual (maxDischargeDepth := 99) [hK]

@[simp] theorem State.dmaSlotAbort_keeps {s0 s : State} {carrier : Nat} {h : Half} {slot : Int} (hK : Keeps s0 s) :
    Keeps s0 (State.dmaSlotAbort s carrier h slot) := by
  unfold State.dmaSlotAbort; simp +contextual (maxDischargeDepth := 99) [hK]

@[simp] theorem State.chanDisable_keeps {s0 s : State} {c : Nat} (hK : Keeps s0 s) :
    Keeps s0 (State.chanDisable s c) := by
  unfold State.chanDisable; simp +contextual (maxDischargeDepth := 99) [hK]

@[simp] theorem execDmaDisable_keeps {s0 s : State} {d : Desc} (hK : Keeps s0 s) :
    KeepsRes s0 (execDmaDisable d s) := by
  unfold execDmaDisable; simp +contextual (maxDischargeDepth := 99) [hK]

@[simp] theorem State.chanEnable_keeps {s0 s : State} {d : Desc} (hK : Keeps s0 s) :
    Keeps s0 (State.chanEnable s d) := by
  unfold State.chanEnable; simp +contextual (maxDischargeDepth := 99) [hK]

@[simp] theorem execDmaEnable_keeps {s0 s : State} {d : Desc} (hK : Keeps s0 s) :
    KeepsRes s0 (execDmaEnable d s) := by
  unfold execDmaEnable; simp +contextual (maxDischargeDepth := 99) [hK]

@[simp] theorem State.dmaCtrlNop_keeps {s0 s : State} {d : Desc} (hK : Keeps s0 s) :
    Keeps s0 (State.dmaCtrlNop s d) := by
  unfold State.dmaCtrlNop; simp +contextual (maxDischargeDepth := 99) [hK]

@[simp] theorem State.dmaCtrl_keeps {s0 s : State} {d : Desc} (hK : Keeps s0 s) :
    Keeps s0 (State.dmaCtrl s d) := by
  unfold State.dmaCtrl; split <;> simp +contextual (maxDischargeDepth := 99) [hK]

@[simp] theorem State.writeChanCfg_keeps {s0 s : State} {c : Nat} {v : W32} (hK : Keeps s0 s) :
    Keeps s0 (State.writeChanCfg s c v) := by
  unfold State.writeChanCfg; simp +contextual (maxDischargeDepth := 99) [hK]

end Sys2Proof.Machine
end

