-- ==== Sys2Proof/Laws/KeepsMaint.lean ====
section
/-! SUPPORT. What the operations of Machine/Maint.lean keep (Laws/Keeps.lean). -/

set_option linter.unusedSimpArgs false

namespace Sys2Proof.Machine

@[simp] theorem State.requestActivity_keeps {s0 s : State} {a : Activity} (hK : Keeps s0 s) :
    Keeps s0 (State.requestActivity s a).1 := by
  unfold State.requestActivity; simp +contextual (maxDischargeDepth := 99) [hK]

@[simp] theorem State.endActivity_keeps {s0 s : State} {a : Activity} (hK : Keeps s0 s) :
    Keeps s0 (State.endActivity s a) := by
  unfold State.endActivity; simp +contextual (maxDischargeDepth := 99) [hK]

end Sys2Proof.Machine
end

