-- ==== Sys2Proof/Laws/KeepsRoute.lean ====
section
/-! SUPPORT. What the operations of Machine/Route.lean keep (Laws/Keeps.lean). -/

set_option linter.unusedSimpArgs false

namespace Sys2Proof.Machine

@[simp] theorem State.setPort_keeps {s0 s : State} {p : Nat} {x : FhPort} (hK : Keeps s0 s) :
    Keeps s0 (State.setPort s p x) := by
  unfold State.setPort; simp +contextual (maxDischargeDepth := 99) [hK]

@[simp] theorem State.setStfPort_keeps {s0 s : State} {k : Nat} {x : StfPort} (hK : Keeps s0 s) :
    Keeps s0 (State.setStfPort s k x) := by
  unfold State.setStfPort; simp +contextual (maxDischargeDepth := 99) [hK]

@[simp] theorem State.offerStitch_keeps {s0 s : State} {kind : Nat} {k : Nat} {f : StfFrame} {bad : Bool} (hK : Keeps s0 s) :
    Keeps s0 (State.offerStitch s kind k f bad) := by
  unfold State.offerStitch; simp +contextual (maxDischargeDepth := 99) [hK]

@[simp] theorem State.setGatewayEnd_keeps {s0 s : State} {mac : Nat} {l : LinkEnd} (hK : Keeps s0 s) :
    Keeps s0 (State.setGatewayEnd s mac l) := by
  unfold State.setGatewayEnd; simp +contextual (maxDischargeDepth := 99) [hK]

@[simp] theorem State.endIncoming_keeps {s0 s : State} {dcar : Nat} (hK : Keeps s0 s) :
    Keeps s0 (State.endIncoming s dcar) := by
  unfold State.endIncoming; simp +contextual (maxDischargeDepth := 99) [hK]

@[simp] theorem State.dropMigration_keeps {s0 s : State} {m : Migration} (hK : Keeps s0 s) :
    Keeps s0 (State.dropMigration s m) := by
  unfold State.dropMigration; simp +contextual (maxDischargeDepth := 99) [hK]

@[simp] theorem State.migPaths_keeps {s0 s : State} (hK : Keeps s0 s) :
    Keeps s0 (State.migPaths s) := by
  unfold State.migPaths; simp +contextual (maxDischargeDepth := 99) [hK]

end Sys2Proof.Machine
end

