-- ==== Sys2Proof/Laws/KeepsLanes.lean ====
section
/-! SUPPORT. What the operations of Machine/Lanes.lean keep (Laws/Keeps.lean). -/

set_option linter.unusedSimpArgs false

namespace Sys2Proof.Machine

@[simp] theorem State.setLane_keeps {s0 s : State} {n : Nat} {l : Lane} (hK : Keeps s0 s) :
    Keeps s0 (State.setLane s n l) := by
  unfold State.setLane; simp +contextual (maxDischargeDepth := 99) [hK]

@[simp] theorem State.laneEvent_keeps {s0 s : State} {n : Nat} {b : Nat} (hK : Keeps s0 s) :
    Keeps s0 (State.laneEvent s n b) := by
  unfold State.laneEvent; simp +contextual (maxDischargeDepth := 99) [hK]

@[simp] theorem State.settleSynce_keeps {s0 s : State} (hK : Keeps s0 s) :
    Keeps s0 (State.settleSynce s) := by
  unfold State.settleSynce; simp +contextual (maxDischargeDepth := 99) [hK]

@[simp] theorem State.portDown_keeps {s0 s : State} {p : Nat} {lane : Option Nat} (hK : Keeps s0 s) :
    Keeps s0 (State.portDown s p lane) := by
  unfold State.portDown; simp +contextual (maxDischargeDepth := 99) [hK]

@[simp] theorem State.spillDown_keeps {s0 s : State} {k : Nat} {lane : Option Nat} (hK : Keeps s0 s) :
    Keeps s0 (State.spillDown s k lane) := by
  unfold State.spillDown; simp +contextual (maxDischargeDepth := 99) [hK]

@[simp] theorem State.stitchLaneLost_keeps {s0 s : State} {k : Nat} {n : Nat} (hK : Keeps s0 s) :
    Keeps s0 (State.stitchLaneLost s k n) := by
  unfold State.stitchLaneLost; simp +contextual (maxDischargeDepth := 99) [hK]

@[simp] theorem State.ownerLosesLane_keeps {s0 s : State} {n : Nat} (hK : Keeps s0 s) :
    Keeps s0 (State.ownerLosesLane s n) := by
  unfold State.ownerLosesLane; split <;> simp +contextual (maxDischargeDepth := 99) [hK]

@[simp] theorem State.enterSend_keeps {s0 s : State} {n : Nat} (hK : Keeps s0 s) :
    Keeps s0 (State.enterSend s n) := by
  unfold State.enterSend; simp +contextual (maxDischargeDepth := 99) [hK]

@[simp] theorem State.enterLoopback_keeps {s0 s : State} {n : Nat} {code : Nat} (hK : Keeps s0 s) :
    Keeps s0 (State.enterLoopback s n code) := by
  unfold State.enterLoopback; dsimp only; (repeat' (first | (simp +contextual (maxDischargeDepth := 99) [hK]; done) | split))

@[simp] theorem State.endTest_keeps {s0 s : State} {n : Nat} (hK : Keeps s0 s) :
    Keeps s0 (State.endTest s n) := by
  unfold State.endTest; simp +contextual (maxDischargeDepth := 99) [hK]

@[simp] theorem State.ownLane_keeps {s0 s : State} {n : Nat} {o : LnOwner} {rate : Nat} (hK : Keeps s0 s) :
    Keeps s0 (State.ownLane s n o rate) := by
  unfold State.ownLane; simp +contextual (maxDischargeDepth := 99) [hK]

@[simp] theorem State.disownLane_keeps {s0 s : State} {n : Nat} (hK : Keeps s0 s) :
    Keeps s0 (State.disownLane s n) := by
  unfold State.disownLane; simp +contextual (maxDischargeDepth := 99) [hK]

@[simp] theorem State.enterTrain_keeps {s0 s : State} {n : Nat} (hK : Keeps s0 s) :
    Keeps s0 (State.enterTrain s n) := by
  unfold State.enterTrain; simp +contextual (maxDischargeDepth := 99) [hK]

@[simp] theorem State.trainingFrame_keeps {s0 s : State} {n : Nat} (hK : Keeps s0 s) :
    Keeps s0 (State.trainingFrame s n) := by
  unfold State.trainingFrame; simp +contextual (maxDischargeDepth := 99) [hK]

@[simp] theorem execTrainingFrame_keeps {s0 s : State} {lane : Nat} (hK : Keeps s0 s) :
    KeepsRes s0 (execTrainingFrame lane s) := by
  unfold execTrainingFrame; simp +contextual (maxDischargeDepth := 99) [hK]

@[simp] theorem State.silentWait_keeps {s0 s : State} {n : Nat} (hK : Keeps s0 s) :
    Keeps s0 (State.silentWait s n) := by
  unfold State.silentWait; simp +contextual (maxDischargeDepth := 99) [hK]

@[simp] theorem execPartnerWaitExpiry_keeps {s0 s : State} {lane : Nat} (hK : Keeps s0 s) :
    KeepsRes s0 (execPartnerWaitExpiry lane s) := by
  unfold execPartnerWaitExpiry; simp +contextual (maxDischargeDepth := 99) [hK]

@[simp] theorem execAdaptTimeout_keeps {s0 s : State} {lane : Nat} (hK : Keeps s0 s) :
    KeepsRes s0 (execAdaptTimeout lane s) := by
  unfold execAdaptTimeout; simp +contextual (maxDischargeDepth := 99) [hK]

@[simp] theorem State.backoffExpiry_keeps {s0 s : State} {n : Nat} (hK : Keeps s0 s) :
    Keeps s0 (State.backoffExpiry s n) := by
  unfold State.backoffExpiry; simp +contextual (maxDischargeDepth := 99) [hK]

@[simp] theorem execBackoffExpiry_keeps {s0 s : State} {lane : Nat} (hK : Keeps s0 s) :
    KeepsRes s0 (execBackoffExpiry lane s) := by
  unfold execBackoffExpiry; simp +contextual (maxDischargeDepth := 99) [hK]

@[simp] theorem State.coefficientRequest_keeps {s0 s : State} {n : Nat} {preset : Nat} {t : Fin 4} {up : Bool} (hK : Keeps s0 s) :
    Keeps s0 (State.coefficientRequest s n preset t up) := by
  unfold State.coefficientRequest; simp +contextual (maxDischargeDepth := 99) [hK]

@[simp] theorem execCoefficientRequest_keeps {s0 s : State} {lane : Nat} {preset : Nat} {tap : Fin 4} {up : Bool} (hK : Keeps s0 s) :
    KeepsRes s0 (execCoefficientRequest lane preset tap up s) := by
  unfold execCoefficientRequest; simp +contextual (maxDischargeDepth := 99) [hK]

@[simp] theorem State.reportRx_keeps {s0 s : State} {n : Nat} (hK : Keeps s0 s) :
    Keeps s0 (State.reportRx s n) := by
  unfold State.reportRx; simp +contextual (maxDischargeDepth := 99) [hK]

@[simp] theorem State.settleSpillPort_keeps {s0 s : State} {o : LnOwner} (hK : Keeps s0 s) :
    Keeps s0 (State.settleSpillPort o s) := by
  unfold State.settleSpillPort; split <;> simp +contextual (maxDischargeDepth := 99) [hK]

@[simp] theorem State.laneUp_keeps {s0 s : State} {n : Nat} (hK : Keeps s0 s) :
    Keeps s0 (State.laneUp s n) := by
  unfold State.laneUp; simp +contextual (maxDischargeDepth := 99) [hK]

@[simp] theorem State.trainRequests_keeps {s0 s : State} (hK : Keeps s0 s) :
    Keeps s0 (State.trainRequests s).1 := by
  unfold State.trainRequests; simp +contextual (maxDischargeDepth := 99) [hK]

@[simp] theorem State.sendRequests_keeps {s0 s : State} {n : Nat} (hK : Keeps s0 s) :
    Keeps s0 (State.sendRequests s n) := by
  unfold State.sendRequests; simp +contextual (maxDischargeDepth := 99) [hK]

@[simp] theorem State.sendSomeRequests_keeps {s0 s : State} {n : Nat} (hK : Keeps s0 s) :
    Keeps s0 (State.sendSomeRequests s n) := by
  unfold State.sendSomeRequests; simp +contextual (maxDischargeDepth := 99) [hK]

@[simp] theorem State.sendLaneAdd_keeps {s0 s : State} {k : Nat} {i : Nat} (hK : Keeps s0 s) :
    Keeps s0 (State.sendLaneAdd s k i) := by
  unfold State.sendLaneAdd; simp +contextual (maxDischargeDepth := 99) [hK]

@[simp] theorem State.receiversReady_keeps {s0 s : State} {n : Nat} (hK : Keeps s0 s) :
    Keeps s0 (State.receiversReady s n) := by
  unfold State.receiversReady; dsimp only; (repeat' (first | (simp +contextual (maxDischargeDepth := 99) [hK]; done) | split))

@[simp] theorem execReceiversReady_keeps {s0 s : State} {lane : Nat} (hK : Keeps s0 s) :
    KeepsRes s0 (execReceiversReady lane s) := by
  unfold execReceiversReady; simp +contextual (maxDischargeDepth := 99) [hK]

@[simp] theorem State.partnerLost_keeps {s0 s : State} {n : Nat} (hK : Keeps s0 s) :
    Keeps s0 (State.partnerLost s n) := by
  unfold State.partnerLost; simp +contextual (maxDischargeDepth := 99) [hK]

@[simp] theorem execPartnerLost_keeps {s0 s : State} {lane : Nat} (hK : Keeps s0 s) :
    KeepsRes s0 (execPartnerLost lane s) := by
  unfold execPartnerLost; simp +contextual (maxDischargeDepth := 99) [hK]

@[simp] theorem State.trainLimit_keeps {s0 s : State} {n : Nat} (hK : Keeps s0 s) :
    Keeps s0 (State.trainLimit s n) := by
  unfold State.trainLimit; simp +contextual (maxDischargeDepth := 99) [hK]

@[simp] theorem execTrainLimitExpiry_keeps {s0 s : State} {lane : Nat} (hK : Keeps s0 s) :
    KeepsRes s0 (execTrainLimitExpiry lane s) := by
  unfold execTrainLimitExpiry; simp +contextual (maxDischargeDepth := 99) [hK]

@[simp] theorem State.cdrLock_keeps {s0 s : State} {n : Nat} (hK : Keeps s0 s) :
    Keeps s0 (State.cdrLock s n) := by
  unfold State.cdrLock; simp +contextual (maxDischargeDepth := 99) [hK]

@[simp] theorem execCdrLock_keeps {s0 s : State} {lane : Nat} (hK : Keeps s0 s) :
    KeepsRes s0 (execCdrLock lane s) := by
  unfold execCdrLock; simp +contextual (maxDischargeDepth := 99) [hK]

@[simp] theorem State.lockLoss_keeps {s0 s : State} {n : Nat} (hK : Keeps s0 s) :
    Keeps s0 (State.lockLoss s n) := by
  unfold State.lockLoss; simp +contextual (maxDischargeDepth := 99) [hK]

@[simp] theorem execLockLoss_keeps {s0 s : State} {lane : Nat} (hK : Keeps s0 s) :
    KeepsRes s0 (execLockLoss lane s) := by
  unfold execLockLoss; simp +contextual (maxDischargeDepth := 99) [hK]

@[simp] theorem State.retrainNow_keeps {s0 s : State} {n : Nat} (hK : Keeps s0 s) :
    Keeps s0 (State.retrainNow s n) := by
  unfold State.retrainNow; simp +contextual (maxDischargeDepth := 99) [hK]

@[simp] theorem State.retrain_keeps {s0 s : State} {n : Nat} {v : W32} (hK : Keeps s0 s) :
    Keeps s0 (State.retrain s n v) := by
  unfold State.retrain; dsimp only; (repeat' (first | (simp +contextual (maxDischargeDepth := 99) [hK]; done) | split))

@[simp] theorem execRetrain_keeps {s0 s : State} {lane : Nat} {value : W32} (hK : Keeps s0 s) :
    KeepsRes s0 (execRetrain lane value s) := by
  unfold execRetrain; simp +contextual (maxDischargeDepth := 99) [hK]

@[simp] theorem State.writeLnCfg_keeps {s0 s : State} {n : Nat} {v : W32} (hK : Keeps s0 s) :
    Keeps s0 (State.writeLnCfg s n v) := by
  unfold State.writeLnCfg; simp +contextual (maxDischargeDepth := 99) [hK]

@[simp] theorem State.writeTaps_keeps {s0 s : State} {n : Nat} {v : W32} (hK : Keeps s0 s) :
    Keeps s0 (State.writeTaps s n v) := by
  unfold State.writeTaps; simp +contextual (maxDischargeDepth := 99) [hK]

@[simp] theorem execTxTapsWrite_keeps {s0 s : State} {lane : Nat} {value : W32} (hK : Keeps s0 s) :
    KeepsRes s0 (execTxTapsWrite lane value s) := by
  unfold execTxTapsWrite; simp +contextual (maxDischargeDepth := 99) [hK]

@[simp] theorem State.qrefLost_keeps {s0 s : State} {q : Nat} (hK : Keeps s0 s) :
    Keeps s0 (State.qrefLost s q) := by
  unfold State.qrefLost; simp +contextual (maxDischargeDepth := 99) [hK]

@[simp] theorem State.qrefSelect_keeps {s0 s : State} {q : Nat} {v : W32} (hK : Keeps s0 s) :
    Keeps s0 (State.qrefSelect s q v) := by
  unfold State.qrefSelect; simp +contextual (maxDischargeDepth := 99) [hK]

@[simp] theorem execQrefSelect_keeps {s0 s : State} {quad : Nat} {value : W32} (hK : Keeps s0 s) :
    KeepsRes s0 (execQrefSelect quad value s) := by
  unfold execQrefSelect; simp +contextual (maxDischargeDepth := 99) [hK]

@[simp] theorem execQrefLost_keeps {s0 s : State} {quad : Nat} (hK : Keeps s0 s) :
    KeepsRes s0 (execQrefLost quad s) := by
  unfold execQrefLost; simp +contextual (maxDischargeDepth := 99) [hK]

@[simp] theorem execQrefReturn_keeps {s0 s : State} {quad : Nat} (hK : Keeps s0 s) :
    KeepsRes s0 (execQrefReturn quad s) := by
  unfold execQrefReturn; simp +contextual (maxDischargeDepth := 99) [hK]

@[simp] theorem State.clearPrbs_keeps {s0 s : State} {n : Nat} (hK : Keeps s0 s) :
    Keeps s0 (State.clearPrbs s n) := by
  unfold State.clearPrbs; simp +contextual (maxDischargeDepth := 99) [hK]

@[simp] theorem State.startChecker_keeps {s0 s : State} {n : Nat} (hK : Keeps s0 s) :
    Keeps s0 (State.startChecker s n) := by
  unfold State.startChecker; simp +contextual (maxDischargeDepth := 99) [hK]

@[simp] theorem State.stopChecker_keeps {s0 s : State} {n : Nat} (hK : Keeps s0 s) :
    Keeps s0 (State.stopChecker s n) := by
  unfold State.stopChecker; simp +contextual (maxDischargeDepth := 99) [hK]

@[simp] theorem State.testEnable_keeps {s0 s : State} {n : Nat} {v : W32} (hK : Keeps s0 s) : Keeps s0 (State.testEnable s n v) := by
  unfold State.testEnable
  extract_lets +onlyGivenNames l a old owned s0' en chk s1
  have h0 : Keeps s0 s0' := State.writeContext_keeps hK
  have h1 : Keeps s0 s1 := by
    change Keeps s0 (if chk && !bitOf old 28 then s0'.clearPrbs n else s0')
    split
    · exact State.clearPrbs_keeps h0
    · exact h0
  have fin : ∀ s2, Keeps s0 s2 → Keeps s0 (if chk && !(bitOf old 28 && bitOf old 31) then s2.startChecker n
      else if !chk && bitOf old 28 then s2.stopChecker n else s2) := fun s2 h2 => by
    split
    · exact State.startChecker_keeps h2
    · split
      · exact State.stopChecker_keeps h2
      · exact h2
  clear_value s1 chk
  by_cases c1 : owned = true
  · rw [if_pos c1]; exact h1
  · rw [if_neg c1]
    by_cases c2 : en = true
    · rw [if_pos c2]
      refine fin _ ?_
      try dsimp only
      split
      · split
        · exact State.enterSend_keeps (State.setLane_keeps h1)
        · exact State.setLane_keeps (State.setLane_keeps h1)
      · exact State.setLane_keeps h1
    · rw [if_neg c2]
      split
      · exact State.disownLane_keeps (State.stopChecker_keeps h1)
      · exact h1

@[simp] theorem execTestEnable_keeps {s0 s : State} {lane : Nat} {value : W32} (hK : Keeps s0 s) :
    KeepsRes s0 (execTestEnable lane value s) := by
  unfold execTestEnable; simp +contextual (maxDischargeDepth := 99) [hK]

@[simp] theorem State.injOne_keeps {s0 s : State} {n : Nat} {v : W32} (hK : Keeps s0 s) :
    Keeps s0 (State.injOne s n v) := by
  unfold State.injOne; simp +contextual (maxDischargeDepth := 99) [hK]

@[simp] theorem execInjOne_keeps {s0 s : State} {lane : Nat} {value : W32} (hK : Keeps s0 s) :
    KeepsRes s0 (execInjOne lane value s) := by
  unfold execInjOne; simp +contextual (maxDischargeDepth := 99) [hK]

@[simp] theorem State.periodicInjection_keeps {s0 s : State} {n : Nat} (hK : Keeps s0 s) :
    Keeps s0 (State.periodicInjection s n) := by
  unfold State.periodicInjection; simp +contextual (maxDischargeDepth := 99) [hK]

@[simp] theorem execPeriodicInjection_keeps {s0 s : State} {lane : Nat} (hK : Keeps s0 s) :
    KeepsRes s0 (execPeriodicInjection lane s) := by
  unfold execPeriodicInjection; simp +contextual (maxDischargeDepth := 99) [hK]

@[simp] theorem execPrbsSync_keeps {s0 s : State} {lane : Nat} (hK : Keeps s0 s) :
    KeepsRes s0 (execPrbsSync lane s) := by
  unfold execPrbsSync; simp +contextual (maxDischargeDepth := 99) [hK]

@[simp] theorem State.prbsSyncLoss_keeps {s0 s : State} {n : Nat} {bits : Nat} {errors : Nat} (hK : Keeps s0 s) :
    Keeps s0 (State.prbsSyncLoss s n bits errors) := by
  unfold State.prbsSyncLoss; simp +contextual (maxDischargeDepth := 99) [hK]

@[simp] theorem execPrbsSyncLoss_keeps {s0 s : State} {lane : Nat} {bits : Nat} {errors : Nat} (hK : Keeps s0 s) :
    KeepsRes s0 (execPrbsSyncLoss lane bits errors s) := by
  unfold execPrbsSyncLoss; simp +contextual (maxDischargeDepth := 99) [hK]

@[simp] theorem State.settlePrbs_keeps {s0 s : State} {n : Nat} (hK : Keeps s0 s) :
    Keeps s0 (State.settlePrbs s n) := by
  unfold State.settlePrbs; simp +contextual (maxDischargeDepth := 99) [hK]

@[simp] theorem State.settleBlkErr_keeps {s0 s : State} {n : Nat} (hK : Keeps s0 s) :
    Keeps s0 (State.settleBlkErr s n) := by
  unfold State.settleBlkErr; simp +contextual (maxDischargeDepth := 99) [hK]

@[simp] theorem State.recalibration_keeps {s0 s : State} {q : Nat} {ends : Bool} (hK : Keeps s0 s) :
    Keeps s0 (State.recalibration s q ends) := by
  unfold State.recalibration; simp +contextual (maxDischargeDepth := 99) [hK]

@[simp] theorem execRecalibration_keeps {s0 s : State} {quad : Nat} {ends : Bool} (hK : Keeps s0 s) :
    KeepsRes s0 (execRecalibration quad ends s) := by
  unfold execRecalibration; simp +contextual (maxDischargeDepth := 99) [hK]

@[simp] theorem execFeSlip_keeps {s0 s : State} {lane : Nat} (hK : Keeps s0 s) :
    KeepsRes s0 (execFeSlip lane s) := by
  unfold execFeSlip; simp +contextual (maxDischargeDepth := 99) [hK]

end Sys2Proof.Machine
end

