-- ==== Sys2Proof/Laws/KeepsFronthaul.lean ====
section
/-! SUPPORT. What the operations of Machine/Fronthaul.lean keep (Laws/Keeps.lean). -/

set_option linter.unusedSimpArgs false

namespace Sys2Proof.Machine

@[simp] theorem State.ownPortLanes_keeps {s0 s : State} {p : Nat} {shape : Nat} (hK : Keeps s0 s) :
    Keeps s0 (State.ownPortLanes s p shape) := by
  unfold State.ownPortLanes; simp +contextual (maxDischargeDepth := 99) [hK]

@[simp] theorem State.disownPortLanes_keeps {s0 s : State} {p : Nat} (hK : Keeps s0 s) :
    Keeps s0 (State.disownPortLanes s p) := by
  unfold State.disownPortLanes; simp +contextual (maxDischargeDepth := 99) [hK]

@[simp] theorem State.applyPortCfg_keeps {s0 s : State} {p : Nat} {v : W32} (hK : Keeps s0 s) :
    Keeps s0 (State.applyPortCfg s p v) := by
  unfold State.applyPortCfg; simp +contextual (maxDischargeDepth := 99) [hK]

@[simp] theorem State.writePortCfg_keeps {s0 s : State} {p : Nat} {v : W32} (hK : Keeps s0 s) :
    Keeps s0 (State.writePortCfg s p v) := by
  unfold State.writePortCfg; simp +contextual (maxDischargeDepth := 99) [hK]

@[simp] theorem execPortEnable_keeps {s0 s : State} {port : Nat} {value : W32} (hK : Keeps s0 s) :
    KeepsRes s0 (execPortEnable port value s) := by
  unfold execPortEnable; simp +contextual (maxDischargeDepth := 99) [hK]

@[simp] theorem State.portUp_keeps {s0 s : State} {p : Nat} (hK : Keeps s0 s) :
    Keeps s0 (State.portUp s p) := by
  unfold State.portUp; simp +contextual (maxDischargeDepth := 99) [hK]

@[simp] theorem execPcsAlignmentLost_keeps {s0 s : State} {port : Nat} (hK : Keeps s0 s) :
    KeepsRes s0 (execPcsAlignmentLost port s) := by
  unfold execPcsAlignmentLost; simp +contextual (maxDischargeDepth := 99) [hK]

@[simp] theorem State.settleFec_keeps {s0 s : State} {p : Nat} (hK : Keeps s0 s) :
    Keeps s0 (State.settleFec s p) := by
  unfold State.settleFec; simp +contextual (maxDischargeDepth := 99) [hK]

@[simp] theorem State.setFhHalf_keeps {s0 s : State} {c : Nat} {h : Half} {x : FhHalf} (hK : Keeps s0 s) :
    Keeps s0 (State.setFhHalf s c h x) := by
  unfold State.setFhHalf; simp +contextual (maxDischargeDepth := 99) [hK]

@[simp] theorem State.fhCount_keeps {s0 s : State} {a : Nat} {n : Nat} (hK : Keeps s0 s) :
    Keeps s0 (State.fhCount s a n) := by
  unfold State.fhCount; simp +contextual (maxDischargeDepth := 99) [hK]

@[simp] theorem State.countLate_keeps {s0 s : State} {c : Nat} {h : Half} {early : Bool} (hK : Keeps s0 s) :
    Keeps s0 (State.countLate s c h early) := by
  unfold State.countLate; simp +contextual (maxDischargeDepth := 99) [hK]

@[simp] theorem State.seqErr_keeps {s0 s : State} {c : Nat} {h : Half} (hK : Keeps s0 s) :
    Keeps s0 (State.seqErr s c h) := by
  unfold State.seqErr; simp +contextual (maxDischargeDepth := 99) [hK]

@[simp] theorem State.dropFcs_keeps {s0 s : State} {p : Nat} (hK : Keeps s0 s) :
    Keeps s0 (State.dropFcs s p) := by
  unfold State.dropFcs; simp +contextual (maxDischargeDepth := 99) [hK]

@[simp] theorem State.dropAddr_keeps {s0 s : State} {p : Nat} (hK : Keeps s0 s) :
    Keeps s0 (State.dropAddr s p) := by
  unfold State.dropAddr; simp +contextual (maxDischargeDepth := 99) [hK]

@[simp] theorem State.dropUnknown_keeps {s0 s : State} {p : Nat} (hK : Keeps s0 s) :
    Keeps s0 (State.dropUnknown s p) := by
  unfold State.dropUnknown; simp +contextual (maxDischargeDepth := 99) [hK]

@[simp] theorem State.dropFormat_keeps {s0 s : State} {p : Nat} (hK : Keeps s0 s) :
    Keeps s0 (State.dropFormat s p) := by
  unfold State.dropFormat; simp +contextual (maxDischargeDepth := 99) [hK]

@[simp] theorem State.fhStart_keeps {s0 s : State} {c : Nat} {h : Half} (hK : Keeps s0 s) :
    Keeps s0 (State.fhStart s c h) := by
  unfold State.fhStart; simp +contextual (maxDischargeDepth := 99) [hK]

@[simp] theorem State.fhCloseAll_keeps {s0 s : State} {c : Nat} {h : Half} {n : Int} (hK : Keeps s0 s) :
    Keeps s0 (State.fhCloseAll s c h n) := by
  unfold State.fhCloseAll; split <;> simp +contextual (maxDischargeDepth := 99) [hK]

@[simp] theorem State.fhExpire_keeps {s0 s : State} {c : Nat} {h : Half} {n : Int} (hK : Keeps s0 s) :
    Keeps s0 (State.fhExpire s c h n) := by
  unfold State.fhExpire; simp +contextual (maxDischargeDepth := 99) [hK]

@[simp] theorem State.fhSlotAbort_keeps {s0 s : State} {c : Nat} {h : Half} {n : Int} (hK : Keeps s0 s) :
    Keeps s0 (State.fhSlotAbort s c h n) := by
  unfold State.fhSlotAbort; simp +contextual (maxDischargeDepth := 99) [hK]

@[simp] theorem State.hostPath_keeps {s0 s : State} {p : Nat} {frame : List Byte} {stamp16 : Int} (hK : Keeps s0 s) :
    Keeps s0 (State.hostPath s p frame stamp16) := by
  unfold State.hostPath; dsimp only; (repeat' (first | (simp +contextual (maxDischargeDepth := 99) [hK]; done) | split))

@[simp] theorem State.fhRxbuf_keeps {s0 s : State} {d : Desc} (hK : Keeps s0 s) :
    Keeps s0 (State.fhRxbuf s d) := by
  unfold State.fhRxbuf; simp +contextual (maxDischargeDepth := 99) [hK]

@[simp] theorem execFhRxbuf_keeps {s0 s : State} {d : Desc} (hK : Keeps s0 s) :
    KeepsRes s0 (execFhRxbuf d s) := by
  unfold execFhRxbuf; simp +contextual (maxDischargeDepth := 99) [hK]

@[simp] theorem State.ringWrite_keeps {s0 s : State} {req : Nat} {base : Nat} {log2 : Nat} {off : Nat} {data : List Byte} (hK : Keeps s0 s) :
    Keeps s0 (State.ringWrite s req base log2 off data).1 := by
  unfold State.ringWrite; simp +contextual (maxDischargeDepth := 99) [hK]

@[simp] theorem State.rxPrb_keeps {s0 s : State} {port : Nat} {c : Nat} {h : Half} {p : FlowPage} {n : Int} {sym : Nat} {stream : Nat} {prb : Nat} {b : List Byte} (hK : Keeps s0 s) :
    Keeps s0 (State.rxPrb s port c h p n sym stream prb b) := by
  unfold State.rxPrb; simp +contextual (maxDischargeDepth := 99) [hK]

@[simp] theorem State.rxSections_keeps {s0 s : State} {port : Nat} {c : Nat} {h : Half} {p : FlowPage} {n : Int} {sym : Nat} {stream : Nat} {l : List Section} (hK : Keeps s0 s) :
    Keeps s0 (State.rxSections s port c h p n sym stream l) := by
  unfold State.rxSections; simp +contextual (maxDischargeDepth := 99) [hK]

@[simp] theorem State.auxItem_keeps {s0 s : State} {port : Nat} {c : Nat} {h : Half} {p : FlowPage} {n : Int} {sym : Nat} {stream : Nat} {l : List Section} {t16 : Int} (hK : Keeps s0 s) :
    Keeps s0 (State.auxItem s port c h p n sym stream l t16) := by
  unfold State.auxItem; simp +contextual (maxDischargeDepth := 99) [hK]

@[simp] theorem State.noteStamp_keeps {s0 s : State} {c : Nat} {h : Half} {n : Int} {last : Nat} {t16 : Int} (hK : Keeps s0 s) :
    Keeps s0 (State.noteStamp s c h n last t16) := by
  unfold State.noteStamp; simp +contextual (maxDischargeDepth := 99) [hK]

@[simp] theorem State.rxUplane_keeps {s0 s : State} {port : Nat} {c : Nat} {h : Half} {stream : Nat} {app : List Byte} {t16 : Int} (hK : Keeps s0 s) :
    Keeps s0 (State.rxUplane s port c h stream app t16) := by
  unfold State.rxUplane; dsimp only; (repeat' (first | (simp +contextual (maxDischargeDepth := 99) [hK]; done) | split))

@[simp] theorem State.rxCplane_keeps {s0 s : State} {port : Nat} {c : Nat} {h : Half} {stream : Nat} {app : List Byte} {t16 : Int} (hK : Keeps s0 s) :
    Keeps s0 (State.rxCplane s port c h stream app t16) := by
  unfold State.rxCplane; dsimp only; (repeat' (first | (simp +contextual (maxDischargeDepth := 99) [hK]; done) | split))

@[simp] theorem State.checkSeq_keeps {s0 s : State} {c : Nat} {h : Half} {key : Nat} {seq : Nat} (hK : Keeps s0 s) :
    Keeps s0 (State.checkSeq s c h key seq) := by
  unfold State.checkSeq; dsimp only; (repeat' (first | (simp +contextual (maxDischargeDepth := 99) [hK]; done) | split))

@[simp] theorem State.tdItems_keeps {s0 s : State} {c : Nat} {h : Half} {fft : Nat} {stream : Nat} {start : Int} {data : List Byte} {fuel : Nat} (hK : Keeps s0 s) :
    Keeps s0 (State.tdItems s c h fft stream start data fuel) := by
  induction fuel generalizing s c h fft stream start data with | zero => (unfold State.tdItems; simp [hK]; done) | succ a ih => (unfold State.tdItems; simp +contextual (maxDischargeDepth := 99) [hK, ih]; done)

@[simp] theorem State.rxRoe_keeps {s0 s : State} {c : Nat} {h : Half} {stream : Nat} {order : Nat} {iq : List Byte} {t16 : Int} (hK : Keeps s0 s) :
    Keeps s0 (State.rxRoe s c h stream order iq t16) := by
  unfold State.rxRoe; dsimp only; (repeat' (first | (simp +contextual (maxDischargeDepth := 99) [hK]; done) | split))

@[simp] theorem State.rxHalfSample_keeps {s0 s : State} {c : Nat} {h : Half} {fft : Nat} {stream : Nat} {w : Nat} {air : Int} {bits : List Bool} (hK : Keeps s0 s) :
    Keeps s0 (State.rxHalfSample s c h fft stream w air bits) := by
  unfold State.rxHalfSample; dsimp only; (repeat' (first | (simp +contextual (maxDischargeDepth := 99) [hK]; done) | split))

@[simp] theorem State.rxCpri_keeps {s0 s : State} {port : Nat} {data : List Byte} {t16 : Int} (hK : Keeps s0 s) :
    Keeps s0 (State.rxCpri s port data t16) := by
  unfold State.rxCpri; simp +contextual (maxDischargeDepth := 99) [hK]

@[simp] theorem State.rxEcpri_keeps {s0 s : State} {port : Nat} {l : List Byte} {t16 : Int} (hK : Keeps s0 s) :
    Keeps s0 (State.rxEcpri s port l t16) := by
  unfold State.rxEcpri; dsimp only; (repeat' (first | (simp +contextual (maxDischargeDepth := 99) [hK]; done) | split))

@[simp] theorem State.rx1914_keeps {s0 s : State} {port : Nat} {l : List Byte} {t16 : Int} (hK : Keeps s0 s) :
    Keeps s0 (State.rx1914 s port l t16) := by
  unfold State.rx1914; split <;> simp +contextual (maxDischargeDepth := 99) [hK]

@[simp] theorem State.routeFrame_keeps {s0 s : State} {stitch : State → Nat → Nat → List Byte → State} {p : Nat} {body : List Byte} {t16 : Int} (hf_stitch : ∀ x0 x1 x2 x3, Keeps s0 x0 → Keeps s0 (stitch x0 x1 x2 x3)) (hK : Keeps s0 s) :
    Keeps s0 (State.routeFrame s stitch p body t16) := by
  unfold State.routeFrame; simp +contextual (maxDischargeDepth := 99) [hK, hf_stitch]

@[simp] theorem State.brokenFrame_keeps {s0 s : State} {p : Nat} {data : List Byte} {t16 : Int} (hK : Keeps s0 s) :
    Keeps s0 (State.brokenFrame s p data t16) := by
  unfold State.brokenFrame; simp +contextual (maxDischargeDepth := 99) [hK]

@[simp] theorem State.takeFrame_keeps {s0 s : State} {stitch : State → Nat → Nat → List Byte → State} {p : Nat} {data : List Byte} {t16 : Int} {replayed : Bool} (hf_stitch : ∀ x0 x1 x2 x3, Keeps s0 x0 → Keeps s0 (stitch x0 x1 x2 x3)) (hK : Keeps s0 s) :
    Keeps s0 (State.takeFrame s stitch p data t16 replayed) := by
  unfold State.takeFrame; simp +contextual (maxDischargeDepth := 99) [hK, hf_stitch]

@[simp] theorem State.receiveFrame_keeps {s0 s : State} {stitch : State → Nat → Nat → List Byte → State} {p : Nat} {data : List Byte} (hf_stitch : ∀ x0 x1 x2 x3, Keeps s0 x0 → Keeps s0 (stitch x0 x1 x2 x3)) (hK : Keeps s0 s) :
    Keeps s0 (State.receiveFrame s stitch p data) := by
  unfold State.receiveFrame; simp +contextual (maxDischargeDepth := 99) [hK, hf_stitch]

@[simp] theorem State.groupCommit_keeps {s0 s : State} {c : Nat} {h : Half} {stamp : W32} {last : Nat} (hK : Keeps s0 s) :
    Keeps s0 (State.groupCommit s c h stamp last) := by
  unfold State.groupCommit; dsimp only; (repeat' (first | (simp +contextual (maxDischargeDepth := 99) [hK]; done) | split))

@[simp] theorem execSymbolGroupCommit_keeps {s0 s : State} {carrier : Nat} {half : Half} {slot : W32} {last : Nat} (hK : Keeps s0 s) :
    KeepsRes s0 (execSymbolGroupCommit carrier half slot last s) := by
  unfold execSymbolGroupCommit; simp +contextual (maxDischargeDepth := 99) [hK]

end Sys2Proof.Machine
end

