-- ==== Sys2Proof/Laws/KeepsFronthaulTx.lean ====
section
/-! SUPPORT. What the operations of Machine/FronthaulTx.lean keep (Laws/Keeps.lean). -/

set_option linter.unusedSimpArgs false

namespace Sys2Proof.Machine

@[simp] theorem State.nextSeqOut_keeps {s0 s : State} {c : Nat} {h : Half} {stream : Nat} (hK : Keeps s0 s) :
    Keeps s0 (State.nextSeqOut s c h stream).1 := by
  unfold State.nextSeqOut; simp +contextual (maxDischargeDepth := 99) [hK]

@[simp] theorem State.sendRaw_keeps {s0 s : State} {port : Nat} {data : List Byte} {replayed : Bool} {f : FrameFlow} (hK : Keeps s0 s) :
    Keeps s0 (State.sendRaw s port data replayed f) := by
  unfold State.sendRaw; simp +contextual (maxDischargeDepth := 99) [hK]

@[simp] theorem State.sendFrame_keeps {s0 s : State} {port : Nat} {body : List Byte} {f : FrameFlow} (hK : Keeps s0 s) :
    Keeps s0 (State.sendFrame s port body f) := by
  unfold State.sendFrame; simp +contextual (maxDischargeDepth := 99) [hK]

@[simp] theorem State.headItem_keeps {s0 s : State} {qid : Nat} {r : Consumer} (hK : Keeps s0 s) :
    Keeps s0 (State.headItem s qid r).1 := by
  unfold State.headItem; dsimp only; (repeat' (first | (simp +contextual (maxDischargeDepth := 99) [hK]; done) | split))

@[simp] theorem State.tdPush_keeps {s0 s : State} {c : Nat} {h : Half} {i : QItem} (hK : Keeps s0 s) :
    Keeps s0 (State.tdPush s c h i) := by
  unfold State.tdPush; simp +contextual (maxDischargeDepth := 99) [hK]

@[simp] theorem State.txAssign_keeps {s0 s : State} {c : Nat} {h : Half} (hK : Keeps s0 s) :
    Keeps s0 (State.txAssign s c h) := by
  unfold State.txAssign; dsimp only; (repeat' (first | (simp +contextual (maxDischargeDepth := 99) [hK]; done) | split))

@[simp] theorem execTxItemAssign_keeps {s0 s : State} {carrier : Nat} {half : Half} (hK : Keeps s0 s) :
    KeepsRes s0 (execTxItemAssign carrier half s) := by
  unfold execTxItemAssign; simp +contextual (maxDischargeDepth := 99) [hK]

@[simp] theorem State.sendUplane_keeps {s0 s : State} {port : Nat} {c : Nat} {h : Half} (hK : Keeps s0 s) :
    Keeps s0 (State.sendUplane s port c h) := by
  unfold State.sendUplane; dsimp only; (repeat' (first | (simp +contextual (maxDischargeDepth := 99) [hK]; done) | split))

@[simp] theorem State.sendCplane_keeps {s0 s : State} {port : Nat} {c : Nat} {h : Half} {n : Int} {p : FlowPage} {stream : Nat} {app : List Byte} {t : Int} (hK : Keeps s0 s) :
    Keeps s0 (State.sendCplane s port c h n p stream app t) := by
  unfold State.sendCplane; simp +contextual (maxDischargeDepth := 99) [hK]

@[simp] theorem State.cpAutoSend_keeps {s0 s : State} {c : Nat} {h : Half} {l : SlotLatch} {stream : Nat} {t : Int} (hK : Keeps s0 s) :
    Keeps s0 (State.cpAutoSend s c h l stream t) := by
  unfold State.cpAutoSend; simp +contextual (maxDischargeDepth := 99) [hK]

@[simp] theorem State.cpPull_keeps {s0 s : State} {c : Nat} {h : Half} (hK : Keeps s0 s) :
    Keeps s0 (State.cpPull s c h) := by
  unfold State.cpPull; split <;> simp +contextual (maxDischargeDepth := 99) [hK]

@[simp] theorem State.pullPort_keeps {s0 s : State} {port : Nat} (hK : Keeps s0 s) :
    Keeps s0 (State.pullPort s port) := by
  unfold State.pullPort; simp +contextual (maxDischargeDepth := 99) [hK]

@[simp] theorem State.cpAutoCommand_keeps {s0 s : State} {c : Nat} {h : Half} {stamp : W32} {stream : Nat} (hK : Keeps s0 s) :
    Keeps s0 (State.cpAutoCommand s c h stamp stream) := by
  unfold State.cpAutoCommand; dsimp only; (repeat' (first | (simp +contextual (maxDischargeDepth := 99) [hK]; done) | split))

@[simp] theorem execCplaneAutoSend_keeps {s0 s : State} {carrier : Nat} {half : Half} {slot : W32} {stream : Nat} (hK : Keeps s0 s) :
    KeepsRes s0 (execCplaneAutoSend carrier half slot stream s) := by
  unfold execCplaneAutoSend; simp +contextual (maxDischargeDepth := 99) [hK]

@[simp] theorem State.cpQueueSend_keeps {s0 s : State} {c : Nat} {h : Half} {i : QItem} (hK : Keeps s0 s) :
    Keeps s0 (State.cpQueueSend s c h i) := by
  unfold State.cpQueueSend; simp +contextual (maxDischargeDepth := 99) [hK]

@[simp] theorem State.cpQueueCommand_keeps {s0 s : State} {c : Nat} {h : Half} (hK : Keeps s0 s) :
    Keeps s0 (State.cpQueueCommand s c h) := by
  unfold State.cpQueueCommand; dsimp only; (repeat' (first | (simp +contextual (maxDischargeDepth := 99) [hK]; done) | split))

@[simp] theorem execCplaneQueueSend_keeps {s0 s : State} {carrier : Nat} {half : Half} (hK : Keeps s0 s) :
    KeepsRes s0 (execCplaneQueueSend carrier half s) := by
  unfold execCplaneQueueSend; simp +contextual (maxDischargeDepth := 99) [hK]

@[simp] theorem State.tdAdvance_keeps {s0 s : State} {c : Nat} {h : Half} {stream : Nat} {next : TdPos} (hK : Keeps s0 s) :
    Keeps s0 (State.tdAdvance s c h stream next) := by
  unfold State.tdAdvance; simp +contextual (maxDischargeDepth := 99) [hK]

@[simp] theorem State.sendTd_keeps {s0 s : State} {port : Nat} {c : Nat} {h : Half} {stream : Nat} {a : TdPos} (hK : Keeps s0 s) :
    Keeps s0 (State.sendTd s port c h stream a) := by
  unfold State.sendTd; simp +contextual (maxDischargeDepth := 99) [hK]

@[simp] theorem State.sendReady_keeps {s0 s : State} {port : Nat} {r : Ready} (hK : Keeps s0 s) :
    Keeps s0 (State.sendReady s port r) := by
  unfold State.sendReady; (repeat' (first | (simp +contextual (maxDischargeDepth := 99) [hK]; done) | split))

@[simp] theorem State.sendHost_keeps {s0 s : State} {x : HostFrame} (hK : Keeps s0 s) :
    Keeps s0 (State.sendHost s x) := by
  unfold State.sendHost; simp +contextual (maxDischargeDepth := 99) [hK]

@[simp] theorem State.pressLeaves_keeps {s0 s : State} {c : Nat} {due : Int} (hK : Keeps s0 s) :
    Keeps s0 (State.pressLeaves s c due) := by
  unfold State.pressLeaves; simp +contextual (maxDischargeDepth := 99) [hK]

@[simp] theorem State.sendPress_keeps {s0 s : State} {x : PressOut} (hK : Keeps s0 s) :
    Keeps s0 (State.sendPress s x) := by
  unfold State.sendPress; simp +contextual (maxDischargeDepth := 99) [hK]

@[simp] theorem State.frameSend_keeps {s0 s : State} {port : Nat} (hK : Keeps s0 s) :
    Keeps s0 (State.frameSend s port) := by
  unfold State.frameSend; dsimp only; (repeat' (first | (simp +contextual (maxDischargeDepth := 99) [hK]; done) | split))

@[simp] theorem execFrameSend_keeps {s0 s : State} {port : Nat} (hK : Keeps s0 s) :
    KeepsRes s0 (execFrameSend port s) := by
  unfold execFrameSend; simp +contextual (maxDischargeDepth := 99) [hK]

@[simp] theorem State.txWindowClose_keeps {s0 s : State} {c : Nat} {h : Half} {stamp : W32} {sym : Nat} (hK : Keeps s0 s) :
    Keeps s0 (State.txWindowClose s c h stamp sym) := by
  unfold State.txWindowClose
  extract_lets +onlyGivenNames x miss
  have hm : ∀ s n, Keeps s0 s → Keeps s0 (miss s n) := fun s n h => by
    simp only [miss]; split
    · exact h
    · exact State.raise_keeps (State.fhCount_keeps h)
  clear_value miss
  split
  · exact hK
  · split
    · refine keeps_foldl _ _ (fun s d h => ?_) hK
      try dsimp only
      split
      · split
        · exact hm _ _ (State.tdAdvance_keeps h)
        · exact h
      · exact h
    · split
      · exact hK
      · extract_lets
        split
        · exact hK
        · exact hm _ _ (State.setFhHalf_keeps hK)

@[simp] theorem execTxWindowClose_keeps {s0 s : State} {carrier : Nat} {half : Half} {slot : W32} {sym : Nat} (hK : Keeps s0 s) :
    KeepsRes s0 (execTxWindowClose carrier half slot sym s) := by
  unfold execTxWindowClose; simp +contextual (maxDischargeDepth := 99) [hK]

@[simp] theorem State.fhSend_keeps {s0 s : State} {d : Desc} {data : List Byte} (hK : Keeps s0 s) :
    Keeps s0 (State.fhSend s d data) := by
  unfold State.fhSend; simp +contextual (maxDischargeDepth := 99) [hK]

@[simp] theorem execFhSend_keeps {s0 s : State} {d : Desc} {data : List Byte} (hK : Keeps s0 s) :
    KeepsRes s0 (execFhSend d data s) := by
  unfold execFhSend; simp +contextual (maxDischargeDepth := 99) [hK]

end Sys2Proof.Machine
end

