-- ==== Sys2Proof/Laws/KeepsMould.lean ====
section
/-! SUPPORT. What the operations of Machine/Mould.lean keep (Laws/Keeps.lean). -/

set_option linter.unusedSimpArgs false

namespace Sys2Proof.Machine

@[simp] theorem State.writePage_keeps {s0 s : State} {carrier : Nat} {half : Nat} {page : Nat} {first : Nat} {words : List W32} (hK : Keeps s0 s) :
    Keeps s0 (State.writePage s carrier half page first words).1 := by
  unfold State.writePage; simp +contextual (maxDischargeDepth := 99) [hK]

@[simp] theorem State.clampMould_keeps {s0 s : State} {ring : Nat} {head : Bool} {owners : List Nat} (hK : Keeps s0 s) :
    Keeps s0 (State.clampMould s ring head owners) := by
  unfold State.clampMould; simp +contextual (maxDischargeDepth := 99) [hK]

@[simp] theorem State.mouldWrite_keeps {s0 s : State} {d : Desc} (hK : Keeps s0 s) :
    Keeps s0 (State.mouldWrite s d) := by
  unfold State.mouldWrite; simp +contextual (maxDischargeDepth := 99) [hK]

@[simp] theorem execMouldWrite_keeps {s0 s : State} {d : Desc} (hK : Keeps s0 s) :
    KeepsRes s0 (execMouldWrite d s) := by
  unfold execMouldWrite; simp +contextual (maxDischargeDepth := 99) [hK]

@[simp] theorem State.mouldLoad_keeps {s0 s : State} {d : Desc} (hK : Keeps s0 s) :
    Keeps s0 (State.mouldLoad s d) := by
  unfold State.mouldLoad; simp +contextual (maxDischargeDepth := 99) [hK]

@[simp] theorem execMouldLoad_keeps {s0 s : State} {d : Desc} (hK : Keeps s0 s) :
    KeepsRes s0 (execMouldLoad d s) := by
  unfold execMouldLoad; simp +contextual (maxDischargeDepth := 99) [hK]

@[simp] theorem State.mouldLoadData_keeps {s0 s : State} {ring : Nat} {tag : W32} {ok : Bool} {data : List W32} (hK : Keeps s0 s) :
    Keeps s0 (State.mouldLoadData s ring tag ok data) := by
  unfold State.mouldLoadData; split <;> simp +contextual (maxDischargeDepth := 99) [hK]

@[simp] theorem execMouldLoadData_keeps {s0 s : State} {ring : Nat} {tag : W32} {ok : Bool} {data : List W32} (hK : Keeps s0 s) :
    KeepsRes s0 (execMouldLoadData ring tag ok data s) := by
  unfold execMouldLoadData; simp +contextual (maxDischargeDepth := 99) [hK]

end Sys2Proof.Machine
end

