-- ==== Sys2Proof/Laws/KeepsMessages.lean ====
section
/-! SUPPORT. What the operations of Machine/Messages.lean keep (Laws/Keeps.lean). -/

set_option linter.unusedSimpArgs false

namespace Sys2Proof.Machine

@[simp] theorem State.holdMsg_keeps {s0 s : State} {m : Nat × Nat × Nat} (hK : Keeps s0 s) :
    Keeps s0 (State.holdMsg s m) := by
  unfold State.holdMsg; simp +contextual (maxDischargeDepth := 99) [hK]

@[simp] theorem State.releaseMsg_keeps {s0 s : State} {m : Nat × Nat × Nat} (hK : Keeps s0 s) :
    Keeps s0 (State.releaseMsg s m) := by
  unfold State.releaseMsg; simp +contextual (maxDischargeDepth := 99) [hK]

@[simp] theorem State.putRsp_keeps {s0 s : State} {i : Nat} {l : List W32} (hK : Keeps s0 s) :
    Keeps s0 (State.putRsp s i l) := by
  induction l generalizing s i with | nil => (unfold State.putRsp; simp [hK]; done) | cons a r ih => (unfold State.putRsp; simp +contextual (maxDischargeDepth := 99) [hK, ih]; done)

@[simp] theorem State.respond_keeps {s0 s : State} {transport : Nat} {seq : Nat} {op : Nat} {status : Nat} {clamped : Bool} {payload : List Byte} (hK : Keeps s0 s) :
    Keeps s0 (State.respond s transport seq op status clamped payload) := by
  unfold State.respond; simp +contextual (maxDischargeDepth := 99) [hK]

@[simp] theorem State.answerPower_keeps {s0 s : State} {p : PowerReply → Bool} {status : Nat} (hK : Keeps s0 s) :
    Keeps s0 (State.answerPower s p status) := by
  unfold State.answerPower; simp +contextual (maxDischargeDepth := 99) [hK]

@[simp] theorem State.clusterAnswered_keeps {s0 s : State} {d : Nat} {op : Nat} {status : Nat} (hK : Keeps s0 s) :
    Keeps s0 (State.clusterAnswered s d op status) := by
  unfold State.clusterAnswered; simp +contextual (maxDischargeDepth := 99) [hK]

end Sys2Proof.Machine
end

