-- ==== Sys2Proof/Laws/KeepsFreeze.lean ====
section
/-! SUPPORT. What the operations of Machine/Freeze.lean keep (Laws/Keeps.lean). -/

set_option linter.unusedSimpArgs false

namespace Sys2Proof.Machine

@[simp] theorem State.freezeNow_keeps {s0 s : State} {cause : Nat} {line : Nat} (hK : Keeps s0 s) :
    Keeps s0 (State.freezeNow s cause line) := by
  unfold State.freezeNow; simp +contextual (maxDischargeDepth := 99) [hK]

end Sys2Proof.Machine
end

