-- ==== Sys2Proof/Laws/KeepsStitch.lean ====
section
/-! SUPPORT. What the operations of Machine/Stitch.lean keep (Laws/Keeps.lean). -/

set_option linter.unusedSimpArgs false

namespace Sys2Proof.Machine

@[simp] theorem State.setLinkEnd_keeps {s0 s : State} {c : StfChan} {l : LinkEnd} (hK : Keeps s0 s) :
    Keeps s0 (State.setLinkEnd s c l) := by
  unfold State.setLinkEnd; split <;> simp +contextual (maxDischargeDepth := 99) [hK]

@[simp] theorem State.sendEth_keeps {s0 s : State} {mac : Nat} {f : StfFrame} (hK : Keeps s0 s) :
    Keeps s0 (State.sendEth s mac f) := by
  unfold State.sendEth; split <;> simp +contextual (maxDischargeDepth := 99) [hK]

@[simp] theorem State.transmit_keeps {s0 s : State} {c : StfChan} {f : StfFrame} (hK : Keeps s0 s) :
    Keeps s0 (State.transmit s c f) := by
  unfold State.transmit; split <;> simp +contextual (maxDischargeDepth := 99) [hK]

@[simp] theorem State.pumpChan_keeps {s0 s : State} {c : StfChan} (hK : Keeps s0 s) :
    Keeps s0 (State.pumpChan s c) := by
  unfold State.pumpChan; simp +contextual (maxDischargeDepth := 99) [hK]

@[simp] theorem State.stfSend_keeps {s0 s : State} {c : StfChan} {f : StfFrame} (hK : Keeps s0 s) :
    Keeps s0 (State.stfSend s c f) := by
  unfold State.stfSend; simp +contextual (maxDischargeDepth := 99) [hK]

@[simp] theorem State.sendHeld_keeps {s0 s : State} {c : StfChan} (hK : Keeps s0 s) :
    Keeps s0 (State.sendHeld s c) := by
  unfold State.sendHeld; simp +contextual (maxDischargeDepth := 99) [hK]

@[simp] theorem State.resend_keeps {s0 s : State} {c : StfChan} (hK : Keeps s0 s) :
    Keeps s0 (State.resend s c) := by
  unfold State.resend; split <;> simp +contextual (maxDischargeDepth := 99) [hK]

@[simp] theorem State.flood_keeps {s0 s : State} {but : Option Nat} {f : StfFrame} (hK : Keeps s0 s) :
    Keeps s0 (State.flood s but f) := by
  unfold State.flood; simp +contextual (maxDischargeDepth := 99) [hK]

@[simp] theorem State.unreachable_keeps {s0 s : State} (hK : Keeps s0 s) :
    Keeps s0 (State.unreachable s) := by
  unfold State.unreachable; simp +contextual (maxDischargeDepth := 99) [hK]

@[simp] theorem State.stfSendTo_keeps {s0 s : State} {f : StfFrame} (hK : Keeps s0 s) :
    Keeps s0 (State.stfSendTo s f) := by
  unfold State.stfSendTo; split <;> simp +contextual (maxDischargeDepth := 99) [hK]

@[simp] theorem State.forward_keeps {s0 s : State} {f : StfFrame} (hK : Keeps s0 s) :
    Keeps s0 (State.forward s f) := by
  unfold State.forward; (repeat' (first | (simp +contextual (maxDischargeDepth := 99) [hK]; done) | split))

@[simp] theorem State.setBinding_keeps {s0 s : State} {b : Nat} {x : Binding} (hK : Keeps s0 s) :
    Keeps s0 (State.setBinding s b x) := by
  unfold State.setBinding; simp +contextual (maxDischargeDepth := 99) [hK]

@[simp] theorem State.bindResult_keeps {s0 s : State} {b : Nat} {status : Nat} (hK : Keeps s0 s) :
    Keeps s0 (State.bindResult s b status) := by
  unfold State.bindResult; simp +contextual (maxDischargeDepth := 99) [hK]

@[simp] theorem State.stfBind_keeps {s0 s : State} {d : Desc} (hK : Keeps s0 s) : Keeps s0 (State.stfBind s d) := by
  unfold State.stfBind
  extract_lets +onlyGivenNames kind cl b src s1 x done
  have h1 : Keeps s0 s1 := State.clampDesc_keeps hK
  have hd : ∀ s st, Keeps s0 s → Keeps s0 (done s st) := fun s st h => State.complete_keeps h
  clear_value s1 done
  split
  · exact hd _ _ h1
  split
  · extract_lets +onlyGivenNames q s2
    have h2 : Keeps s0 s2 := by
      simp only [s2]; split
      · exact h1
      · exact State.setQueue_keeps h1
    exact hd _ _ (State.setBinding_keeps h2)
  · split
    · exact hd _ _ h1
    · exact hd _ _ (State.setBinding_keeps (State.setQueue_keeps (State.wr_keeps (State.wr_keeps h1))))

@[simp] theorem execStfBind_keeps {s0 s : State} {d : Desc} (hK : Keeps s0 s) :
    KeepsRes s0 (execStfBind d s) := by
  unfold execStfBind; simp +contextual (maxDischargeDepth := 99) [hK]

@[simp] theorem State.bindItemSend_keeps {s0 s : State} {b : Nat} (hK : Keeps s0 s) :
    Keeps s0 (State.bindItemSend s b) := by
  unfold State.bindItemSend; dsimp only; (repeat' (first | (simp +contextual (maxDischargeDepth := 99) [hK]; done) | split))

@[simp] theorem execBindItemSend_keeps {s0 s : State} {bind : Nat} (hK : Keeps s0 s) :
    KeepsRes s0 (execBindItemSend bind s) := by
  unfold execBindItemSend; simp +contextual (maxDischargeDepth := 99) [hK]

@[simp] theorem State.sendEvent_keeps {s0 s : State} {w : QWord} (hK : Keeps s0 s) :
    Keeps s0 (State.sendEvent s w) := by
  unfold State.sendEvent; simp +contextual (maxDischargeDepth := 99) [hK]

@[simp] theorem State.bindEventSend_keeps {s0 s : State} {b : Nat} (hK : Keeps s0 s) :
    Keeps s0 (State.bindEventSend s b) := by
  unfold State.bindEventSend; dsimp only; (repeat' (first | (simp +contextual (maxDischargeDepth := 99) [hK]; done) | split))

@[simp] theorem execBindEventSend_keeps {s0 s : State} {bind : Nat} (hK : Keeps s0 s) :
    KeepsRes s0 (execBindEventSend bind s) := by
  unfold execBindEventSend; simp +contextual (maxDischargeDepth := 99) [hK]

@[simp] theorem State.rxQitem_keeps {s0 s : State} {f : StfFrame} (hK : Keeps s0 s) :
    Keeps s0 (State.rxQitem s f) := by
  unfold State.rxQitem; simp +contextual (maxDischargeDepth := 99) [hK]

@[simp] theorem State.timeUnlock_keeps {s0 s : State} (hK : Keeps s0 s) :
    Keeps s0 (State.timeUnlock s) := by
  unfold State.timeUnlock; simp +contextual (maxDischargeDepth := 99) [hK]

@[simp] theorem State.steer_keeps {s0 s : State} {offset : Int} (hK : Keeps s0 s) :
    Keeps s0 (State.steer s offset) := by
  unfold State.steer; simp +contextual (maxDischargeDepth := 99) [hK]

@[simp] theorem State.rxTsync_keeps {s0 s : State} {k : Nat} {f : StfFrame} (hK : Keeps s0 s) :
    Keeps s0 (State.rxTsync s k f) := by
  unfold State.rxTsync; simp +contextual (maxDischargeDepth := 99) [hK]

@[simp] theorem State.tsyncExchange_keeps {s0 s : State} {k : Nat} {t1 : Int} {t2 : Int} {t3 : Int} {t4 : Int} (hK : Keeps s0 s) :
    Keeps s0 (State.tsyncExchange s k t1 t2 t3 t4) := by
  unfold State.tsyncExchange; simp +contextual (maxDischargeDepth := 99) [hK]

@[simp] theorem execTsyncExchange_keeps {s0 s : State} {port : Nat} {t1 : Int} {t2 : Int} {t3 : Int} {t4 : Int} (hK : Keeps s0 s) :
    KeepsRes s0 (execTsyncExchange port t1 t2 t3 t4 s) := by
  unfold execTsyncExchange; simp +contextual (maxDischargeDepth := 99) [hK]

@[simp] theorem State.floodDown_keeps {s0 s : State} {f : StfFrame} (hK : Keeps s0 s) : Keeps s0 (State.floodDown s f) := by
  unfold State.floodDown
  refine keeps_foldl _ _ (fun s p h => ?_) hK
  try dsimp only
  split
  · split
    · split
      · exact State.stfSend_keeps h
      · exact h
    · exact h
  · exact h

@[simp] theorem State.sendTick_keeps {s0 s : State} {n : Int} (hK : Keeps s0 s) :
    Keeps s0 (State.sendTick s n) := by
  unfold State.sendTick; simp +contextual (maxDischargeDepth := 99) [hK]

@[simp] theorem State.rxTick_keeps {s0 s : State} {k : Nat} {f : StfFrame} (hK : Keeps s0 s) :
    Keeps s0 (State.rxTick s k f) := by
  unfold State.rxTick; simp +contextual (maxDischargeDepth := 99) [hK]

@[simp] theorem State.floodGateways_keeps {s0 s : State} {f : StfFrame} (hK : Keeps s0 s) : Keeps s0 (State.floodGateways s f) := by
  unfold State.floodGateways
  split
  · refine keeps_foldl _ _ (fun s p h => ?_) hK
    try dsimp only
    split
    · split
      · exact h
      · exact State.stfSend_keeps h
    · exact h
  · exact hK

@[simp] theorem State.takeBroadcast_keeps {s0 s : State} {b : Broadcast} (hK : Keeps s0 s) :
    Keeps s0 (State.takeBroadcast s b) := by
  unfold State.takeBroadcast; simp +contextual (maxDischargeDepth := 99) [hK]

@[simp] theorem State.startBroadcast_keeps {s0 s : State} {trigger : Bool} {line : Nat} {leadUs : Nat} (hK : Keeps s0 s) :
    Keeps s0 (State.startBroadcast s trigger line leadUs).1 := by
  unfold State.startBroadcast; simp +contextual (maxDischargeDepth := 99) [hK]

@[simp] theorem State.rxBroadcast_keeps {s0 s : State} {from_ : Option Nat} {f : StfFrame} (hK : Keeps s0 s) :
    Keeps s0 (State.rxBroadcast s from_ f) := by
  unfold State.rxBroadcast; simp +contextual (maxDischargeDepth := 99) [hK]

@[simp] theorem State.stfBcast_keeps {s0 s : State} {d : Desc} {trigger : Bool} (hK : Keeps s0 s) :
    Keeps s0 (State.stfBcast s d trigger) := by
  unfold State.stfBcast; simp +contextual (maxDischargeDepth := 99) [hK]

@[simp] theorem execStfBcastFreeze_keeps {s0 s : State} {d : Desc} (hK : Keeps s0 s) :
    KeepsRes s0 (execStfBcastFreeze d s) := by
  unfold execStfBcastFreeze; simp +contextual (maxDischargeDepth := 99) [hK]

@[simp] theorem execStfBcastTrigger_keeps {s0 s : State} {d : Desc} (hK : Keeps s0 s) :
    KeepsRes s0 (execStfBcastTrigger d s) := by
  unfold execStfBcastTrigger; simp +contextual (maxDischargeDepth := 99) [hK]

@[simp] theorem State.hello_keeps {s0 s : State} {k : Nat} (hK : Keeps s0 s) :
    Keeps s0 (State.hello s k) := by
  unfold State.hello; simp +contextual (maxDischargeDepth := 99) [hK]

@[simp] theorem execHello_keeps {s0 s : State} {port : Nat} (hK : Keeps s0 s) :
    KeepsRes s0 (execHello port s) := by
  unfold execHello; simp +contextual (maxDischargeDepth := 99) [hK]

@[simp] theorem State.isolate_keeps {s0 s : State} (hK : Keeps s0 s) :
    Keeps s0 (State.isolate s) := by
  unfold State.isolate; simp +contextual (maxDischargeDepth := 99) [hK]

@[simp] theorem State.considerCandidate_keeps {s0 s : State} {m : Nat} {from_ : Option Nat} {hops : Nat} (hK : Keeps s0 s) :
    Keeps s0 (State.considerCandidate s m from_ hops) := by
  unfold State.considerCandidate; simp +contextual (maxDischargeDepth := 99) [hK]

@[simp] theorem State.electSelf_keeps {s0 s : State} (hK : Keeps s0 s) :
    Keeps s0 (State.electSelf s) := by
  unfold State.electSelf; (repeat' (first | (simp +contextual (maxDischargeDepth := 99) [hK]; done) | split))

@[simp] theorem State.loseRoot_keeps {s0 s : State} (hK : Keeps s0 s) :
    Keeps s0 (State.loseRoot s) := by
  unfold State.loseRoot; simp +contextual (maxDischargeDepth := 99) [hK]

@[simp] theorem State.tellBest_keeps {s0 s : State} {k : Nat} (hK : Keeps s0 s) :
    Keeps s0 (State.tellBest s k) := by
  unfold State.tellBest; split <;> simp +contextual (maxDischargeDepth := 99) [hK]

@[simp] theorem State.rxElect_keeps {s0 s : State} {k : Nat} {f : StfFrame} (hK : Keeps s0 s) :
    Keeps s0 (State.rxElect s k f) := by
  unfold State.rxElect; simp +contextual (maxDischargeDepth := 99) [hK]

@[simp] theorem State.sendJoin_keeps {s0 s : State} (hK : Keeps s0 s) :
    Keeps s0 (State.sendJoin s) := by
  unfold State.sendJoin; split <;> simp +contextual (maxDischargeDepth := 99) [hK]

@[simp] theorem State.greet_keeps {s0 s : State} {k : Nat} (hK : Keeps s0 s) :
    Keeps s0 (State.greet s k) := by
  unfold State.greet; simp +contextual (maxDischargeDepth := 99) [hK]

@[simp] theorem State.rxHello_keeps {s0 s : State} {k : Nat} {f : StfFrame} (hK : Keeps s0 s) : Keeps s0 (State.rxHello s k f) := by
  unfold State.rxHello
  extract_lets +onlyGivenNames x p0 p1 p foreign s1 s2 s3
  have h1 : Keeps s0 s1 := State.setStfPort_keeps hK
  have h2 : Keeps s0 s2 := by
    simp only [s2]; split
    · exact State.raise_keeps h1
    · exact h1
  clear_value s2
  have h3 : Keeps s0 s3 := by
    simp only [s3]; split
    · exact State.greet_keeps h2
    · exact h2
  clear_value s3
  split
  · exact State.isolate_keeps h3
  · exact h3

@[simp] theorem State.electSettle_keeps {s0 s : State} (hK : Keeps s0 s) :
    Keeps s0 (State.electSettle s) := by
  unfold State.electSettle; dsimp only; (repeat' (first | (simp +contextual (maxDischargeDepth := 99) [hK]; done) | split))

@[simp] theorem execElectSettle_keeps {s0 s : State} (hK : Keeps s0 s) :
    KeepsRes s0 (execElectSettle s) := by
  unfold execElectSettle; simp +contextual (maxDischargeDepth := 99) [hK]

@[simp] theorem State.rxJoin_keeps {s0 s : State} {f : StfFrame} (hK : Keeps s0 s) :
    Keeps s0 (State.rxJoin s f) := by
  unfold State.rxJoin; dsimp only; (repeat' (first | (simp +contextual (maxDischargeDepth := 99) [hK]; done) | split))

@[simp] theorem State.withRoutes_keeps {s0 s : State} (hK : Keeps s0 s) :
    Keeps s0 (State.withRoutes s) := by
  unfold State.withRoutes; simp +contextual (maxDischargeDepth := 99) [hK]

@[simp] theorem State.installMap_keeps {s0 s : State} {gen : Nat} {l : List (Nat × Nat × W64)} (hK : Keeps s0 s) :
    Keeps s0 (State.installMap s gen l) := by
  unfold State.installMap; simp +contextual (maxDischargeDepth := 99) [hK]

@[simp] theorem State.repeatCommon_keeps {s0 s : State} (hK : Keeps s0 s) :
    Keeps s0 (State.repeatCommon s) := by
  unfold State.repeatCommon; split <;> simp +contextual (maxDischargeDepth := 99) [hK]

@[simp] theorem State.mapFlood_keeps {s0 s : State} (hK : Keeps s0 s) :
    Keeps s0 (State.mapFlood s) := by
  unfold State.mapFlood; simp +contextual (maxDischargeDepth := 99) [hK]

@[simp] theorem State.setSplit_keeps {s0 s : State} {v : Bool} (hK : Keeps s0 s) :
    Keeps s0 (State.setSplit s v) := by
  unfold State.setSplit; simp +contextual (maxDischargeDepth := 99) [hK]

@[simp] theorem execMapFlood_keeps {s0 s : State} (hK : Keeps s0 s) :
    KeepsRes s0 (execMapFlood s) := by
  unfold execMapFlood; simp +contextual (maxDischargeDepth := 99) [hK]

@[simp] theorem State.rxMap_keeps {s0 s : State} {k : Nat} {f : StfFrame} (hK : Keeps s0 s) :
    Keeps s0 (State.rxMap s k f) := by
  unfold State.rxMap; simp +contextual (maxDischargeDepth := 99) [hK]

@[simp] theorem State.register_keeps {s0 s : State} (hK : Keeps s0 s) :
    Keeps s0 (State.register s) := by
  unfold State.register; simp +contextual (maxDischargeDepth := 99) [hK]

@[simp] theorem execRegister_keeps {s0 s : State} (hK : Keeps s0 s) :
    KeepsRes s0 (execRegister s) := by
  unfold execRegister; simp +contextual (maxDischargeDepth := 99) [hK]

@[simp] theorem State.rxRegister_keeps {s0 s : State} {f : StfFrame} (hK : Keeps s0 s) : Keeps s0 (State.rxRegister s f) := by
  unfold State.rxRegister
  extract_lets
  split
  · split
    · split
      · exact State.setSplit_keeps hK
      · exact hK
    · exact hK
  · split <;> exact hK

@[simp] theorem State.systemRootChoice_keeps {s0 s : State} (hK : Keeps s0 s) :
    Keeps s0 (State.systemRootChoice s) := by
  unfold State.systemRootChoice; dsimp only; (repeat' (first | (simp +contextual (maxDischargeDepth := 99) [hK]; done) | split))

@[simp] theorem execSystemRootChoice_keeps {s0 s : State} (hK : Keeps s0 s) :
    KeepsRes s0 (execSystemRootChoice s) := by
  unfold execSystemRootChoice; simp +contextual (maxDischargeDepth := 99) [hK]

@[simp] theorem State.chooseCommon_keeps {s0 s : State} (hK : Keeps s0 s) :
    Keeps s0 (State.chooseCommon s) := by
  unfold State.chooseCommon; simp +contextual (maxDischargeDepth := 99) [hK]

@[simp] theorem State.sysmap_keeps {s0 s : State} (hK : Keeps s0 s) :
    Keeps s0 (State.sysmap s) := by
  unfold State.sysmap; simp +contextual (maxDischargeDepth := 99) [hK]

@[simp] theorem execSysmap_keeps {s0 s : State} (hK : Keeps s0 s) :
    KeepsRes s0 (execSysmap s) := by
  unfold execSysmap; simp +contextual (maxDischargeDepth := 99) [hK]

@[simp] theorem State.rxSysmap_keeps {s0 s : State} {from_ : Option Nat} {f : StfFrame} (hK : Keeps s0 s) :
    Keeps s0 (State.rxSysmap s from_ f) := by
  unfold State.rxSysmap; dsimp only; (repeat' (first | (simp +contextual (maxDischargeDepth := 99) [hK]; done) | split))

@[simp] theorem State.gatewaySilent_keeps {s0 s : State} {g : Nat} (hK : Keeps s0 s) :
    Keeps s0 (State.gatewaySilent s g) := by
  unfold State.gatewaySilent; simp +contextual (maxDischargeDepth := 99) [hK]

@[simp] theorem execGatewaySilent_keeps {s0 s : State} {group : Nat} (hK : Keeps s0 s) :
    KeepsRes s0 (execGatewaySilent group s) := by
  unfold execGatewaySilent; simp +contextual (maxDischargeDepth := 99) [hK]

@[simp] theorem State.writeOrigin_keeps {s0 s : State} {w : QWord} (hK : Keeps s0 s) :
    Keeps s0 (State.writeOrigin s w) := by
  unfold State.writeOrigin; simp +contextual (maxDischargeDepth := 99) [hK]

@[simp] theorem State.rxCommon_keeps {s0 s : State} {from_ : Option Nat} {f : StfFrame} (hK : Keeps s0 s) :
    Keeps s0 (State.rxCommon s from_ f) := by
  unfold State.rxCommon; split <;> simp +contextual (maxDischargeDepth := 99) [hK]

@[simp] theorem State.commonTime_keeps {s0 s : State} (hK : Keeps s0 s) :
    Keeps s0 (State.commonTime s) := by
  unfold State.commonTime; split <;> simp +contextual (maxDischargeDepth := 99) [hK]

@[simp] theorem execCommon_keeps {s0 s : State} (hK : Keeps s0 s) :
    KeepsRes s0 (execCommon s) := by
  unfold execCommon; simp +contextual (maxDischargeDepth := 99) [hK]

end Sys2Proof.Machine
end

