-- ==== Sys2Proof/Laws/KeepsStitchRx.lean ====
section
/-! SUPPORT. What the operations of Machine/StitchRx.lean keep (Laws/Keeps.lean). -/

set_option linter.unusedSimpArgs false

namespace Sys2Proof.Machine

@[simp] theorem State.takeSetup_keeps {s0 s : State} {f : StfFrame} (hK : Keeps s0 s) :
    Keeps s0 (State.takeSetup s f) := by
  unfold State.takeSetup; simp +contextual (maxDischargeDepth := 99) [hK]

@[simp] theorem State.sendMoulds_keeps {s0 s : State} {dst : Nat} {dcar : Nat} {c : Carrier} {rs : List MigRegion} (hK : Keeps s0 s) :
    Keeps s0 (State.sendMoulds s dst dcar c rs) := by
  unfold State.sendMoulds; simp +contextual (maxDischargeDepth := 99) [hK]

@[simp] theorem State.takeMirror_keeps {s0 s : State} {addr : Nat} {data : List Byte} (hK : Keeps s0 s) :
    Keeps s0 (State.takeMirror s addr data) := by
  unfold State.takeMirror; simp +contextual (maxDischargeDepth := 99) [hK]

@[simp] theorem State.sendMirror_keeps {s0 s : State} {dst : Nat} {src : Nat} {to_ : Nat} {n : Nat} (hK : Keeps s0 s) :
    Keeps s0 (State.sendMirror s dst src to_ n).1 := by
  unfold State.sendMirror; dsimp only; (repeat' (first | (simp +contextual (maxDischargeDepth := 99) [hK]; done) | split))

@[simp] theorem State.flushMirror_keeps {s0 s : State} (hK : Keeps s0 s) :
    Keeps s0 (State.flushMirror s) := by
  unfold State.flushMirror; simp +contextual (maxDischargeDepth := 99) [hK]

@[simp] theorem State.copyOn_keeps {s0 s : State} {dst : Nat} {r : MigRegion} (hK : Keeps s0 s) :
    Keeps s0 (State.copyOn s dst r).1 := by
  unfold State.copyOn; simp +contextual (maxDischargeDepth := 99) [hK]

@[simp] theorem State.copyRegions_keeps {s0 s : State} {dst : Nat} {done : List MigRegion} {l : List MigRegion} (hK : Keeps s0 s) :
    Keeps s0 (State.copyRegions s dst done l).1 := by
  induction l generalizing s dst done with | nil => (unfold State.copyRegions; simp [hK]; done) | cons a r ih => (unfold State.copyRegions; simp +contextual (maxDischargeDepth := 99) [hK, ih]; done)

@[simp] theorem State.copyLocal_keeps {s0 s : State} {fuel : Nat} {dst : Nat} {l : List MigRegion} (hK : Keeps s0 s) :
    Keeps s0 (State.copyLocal s fuel dst l).1 := by
  induction fuel generalizing s dst l with | zero => (unfold State.copyLocal; simp [hK]; done) | succ a ih => (unfold State.copyLocal; simp +contextual (maxDischargeDepth := 99) [hK, ih]; done)

@[simp] theorem State.readList_keeps {s0 s : State} {n : Nat} {a : Nat} {acc : List MigRegion} {cl : Bool} (hK : Keeps s0 s) :
    Keeps s0 (State.readList s n a acc cl).1 := by
  induction n generalizing s a acc cl with | zero => (unfold State.readList; (repeat' (first | (simp +contextual (maxDischargeDepth := 99) [hK]; done) | split)); done) | succ a ih => (unfold State.readList; dsimp only; (repeat' (first | (simp +contextual (maxDischargeDepth := 99) [hK, ih]; done) | split)); done)

@[simp] theorem State.stfMigrate_keeps {s0 s : State} {d : Desc} {remoteOk : Bool} (hK : Keeps s0 s) :
    Keeps s0 (State.stfMigrate s d remoteOk) := by
  unfold State.stfMigrate
  extract_lets +onlyGivenNames cid dst dcar count addr cl c cfg e period overflow dist there refused
  by_cases h0 : (cid != 0xFFFF && c.refusesWork) = true
  · rw [if_pos h0]; exact State.complete_keeps (State.clampDesc_keeps hK)
  rw [if_neg h0]
  by_cases hr : refused = true
  · rw [if_pos hr]; exact State.complete_keeps (State.clampDesc_keeps hK)
  · rw [if_neg hr]
    extract_lets +onlyGivenNames x
    have hx : Keeps s0 x.1 := State.readList_keeps hK
    clear_value x
    split
    · exact State.complete_keeps (State.clampDesc_keeps hx)
    · refine keeps_update ?_ ..
      split
      · exact State.copyLocal_keeps (State.sendMoulds_keeps (State.clampDesc_keeps hx))
      · exact State.copyRegions_keeps (State.sendMoulds_keeps (State.clampDesc_keeps hx))

@[simp] theorem execStfMigrate_keeps {s0 s : State} {d : Desc} {remoteOk : Bool} (hK : Keeps s0 s) :
    KeepsRes s0 (execStfMigrate d remoteOk s) := by
  unfold execStfMigrate; simp +contextual (maxDischargeDepth := 99) [hK]

@[simp] theorem State.rxMirrorAck_keeps {s0 s : State} {f : StfFrame} (hK : Keeps s0 s) :
    Keeps s0 (State.rxMirrorAck s f) := by
  unfold State.rxMirrorAck; simp +contextual (maxDischargeDepth := 99) [hK]

@[simp] theorem State.armFabric_keeps {s0 s : State} {cid : Nat} {slot : Int} {start : Bool} {stop : Bool} (hK : Keeps s0 s) :
    Keeps s0 (State.armFabric s cid slot start stop) := by
  unfold State.armFabric; simp +contextual (maxDischargeDepth := 99) [hK]

@[simp] theorem State.dropStart_keeps {s0 s : State} {cid : Nat} (hK : Keeps s0 s) :
    Keeps s0 (State.dropStart s cid) := by
  unfold State.dropStart; simp +contextual (maxDischargeDepth := 99) [hK]

@[simp] theorem State.rxSwitch_keeps {s0 s : State} {f : StfFrame} (hK : Keeps s0 s) :
    Keeps s0 (State.rxSwitch s f) := by
  unfold State.rxSwitch; simp +contextual (maxDischargeDepth := 99) [hK]

@[simp] theorem State.giveUp_keeps {s0 s : State} {m : Migration} {status : Nat} (hK : Keeps s0 s) :
    Keeps s0 (State.giveUp s m status) := by
  unfold State.giveUp; simp +contextual (maxDischargeDepth := 99) [hK]

@[simp] theorem State.migrationSwitch_keeps {s0 s : State} {cid : Nat} (hK : Keeps s0 s) : Keeps s0 (State.migrationSwitch s cid) := by
  unfold State.migrationSwitch
  split
  · exact hK
  · split
    · exact hK
    · extract_lets +onlyGivenNames c put
      have hp : ∀ s m, Keeps s0 s → Keeps s0 (put s m) := fun s m h => h
      clear_value put
      split
      · exact hK
      · split
        · split
          · exact State.giveUp_keeps hK
          · extract_lets +onlyGivenNames st s1
            have h1 : Keeps s0 s1 := State.armFabric_keeps (hp _ _ hK)
            clear_value s1
            split
            · split
              · exact State.armFabric_keeps h1
              · exact h1
            · exact State.stfSendTo_keeps h1
        · split
          · exact State.giveUp_keeps hK
          · exact hp _ _ hK

@[simp] theorem execMigrationSwitch_keeps {s0 s : State} {carrier : Nat} (hK : Keeps s0 s) :
    KeepsRes s0 (execMigrationSwitch carrier s) := by
  unfold execMigrationSwitch; simp +contextual (maxDischargeDepth := 99) [hK]

@[simp] theorem State.migCouch_keeps {s0 s : State} {cid : Nat} {n : Int} {time : W64} (hK : Keeps s0 s) :
    Keeps s0 (State.migCouch s cid n time) := by
  unfold State.migCouch; split <;> simp +contextual (maxDischargeDepth := 99) [hK]

@[simp] theorem State.migDisable_keeps {s0 s : State} {cid : Nat} (hK : Keeps s0 s) :
    Keeps s0 (State.migDisable s cid) := by
  unfold State.migDisable; simp +contextual (maxDischargeDepth := 99) [hK]

@[simp] theorem State.linkLost_keeps {s0 s : State} {k : Nat} (hK : Keeps s0 s) :
    Keeps s0 (State.linkLost s k) := by
  unfold State.linkLost; simp +contextual (maxDischargeDepth := 99) [hK]

@[simp] theorem State.migDrained_keeps {s0 s : State} {cid : Nat} (hK : Keeps s0 s) :
    Keeps s0 (State.migDrained s cid) := by
  unfold State.migDrained; simp +contextual (maxDischargeDepth := 99) [hK]

@[simp] theorem State.stfDeliver_keeps {s0 s : State} {from_ : Option Nat} {f : StfFrame} (hK : Keeps s0 s) :
    Keeps s0 (State.stfDeliver s from_ f) := by
  unfold State.stfDeliver
  extract_lets +onlyGivenNames k foreign mine routed
  have hr : ∀ g : State → State, (∀ s, Keeps s0 s → Keeps s0 (g s)) → Keeps s0 (routed g) := fun g hg => by
    simp only [routed]; split
    · exact hg _ hK
    · exact State.forward_keeps hK
  clear_value routed foreign
  rw [keeps_ite]; refine ⟨fun _ => ?_, fun _ => ?_⟩
  · rw [keeps_ite]; exact ⟨fun _ => State.rxHello_keeps hK, fun _ => hK⟩
  rw [keeps_ite]; refine ⟨fun _ => ?_, fun _ => ?_⟩
  · exact hK
  rw [keeps_ite]; refine ⟨fun _ => ?_, fun _ => ?_⟩
  · exact hr _ (fun s h => State.rxQitem_keeps h)
  rw [keeps_ite]; refine ⟨fun _ => ?_, fun _ => ?_⟩
  · exact hr _ (fun s h => State.bindResult_keeps h)
  rw [keeps_ite]; refine ⟨fun _ => ?_, fun _ => ?_⟩
  · exact hr _ (fun s h => State.sendFlags_keeps h)
  rw [keeps_ite]; refine ⟨fun _ => ?_, fun _ => ?_⟩
  · exact hr _ (fun s h => State.stfSendTo_keeps (by rw [keeps_ite]; exact ⟨fun _ => State.takeSetup_keeps h, fun _ => State.takeMirror_keeps h⟩))
  rw [keeps_ite]; refine ⟨fun _ => ?_, fun _ => ?_⟩
  · exact hr _ (fun s h => State.rxMirrorAck_keeps h)
  rw [keeps_ite]; refine ⟨fun _ => ?_, fun _ => ?_⟩
  · split
    · exact State.rxTsync_keeps hK
    · exact hK
  rw [keeps_ite]; refine ⟨fun _ => ?_, fun _ => ?_⟩
  · exact State.rxTick_keeps hK
  rw [keeps_ite]; refine ⟨fun _ => ?_, fun _ => ?_⟩
  · exact State.rxBroadcast_keeps hK
  rw [keeps_ite]; refine ⟨fun _ => ?_, fun _ => ?_⟩
  · exact State.rxCommon_keeps hK
  rw [keeps_ite]; refine ⟨fun _ => ?_, fun _ => ?_⟩
  · exact State.rxElect_keeps hK
  rw [keeps_ite]; refine ⟨fun _ => ?_, fun _ => ?_⟩
  · exact State.rxJoin_keeps hK
  rw [keeps_ite]; refine ⟨fun _ => ?_, fun _ => ?_⟩
  · exact State.migPaths_keeps (State.rxMap_keeps hK)
  rw [keeps_ite]; refine ⟨fun _ => ?_, fun _ => ?_⟩
  · exact hK
  rw [keeps_ite]; refine ⟨fun _ => ?_, fun _ => ?_⟩
  · exact State.migPaths_keeps (State.rxSysmap_keeps hK)
  rw [keeps_ite]; refine ⟨fun _ => ?_, fun _ => ?_⟩
  · exact hr _ (fun s h => State.rxSwitch_keeps h)
  rw [keeps_ite]; refine ⟨fun _ => ?_, fun _ => ?_⟩
  · exact hr _ (fun s h => State.endIncoming_keeps h)
  split
  · exact State.bumpFld_keeps hK
  · exact hK

@[simp] theorem State.stfLinkDown_keeps {s0 s : State} {k : Nat} (hK : Keeps s0 s) :
    Keeps s0 (State.stfLinkDown s k) := by
  unfold State.stfLinkDown; simp +contextual (maxDischargeDepth := 99) [hK]

@[simp] theorem State.gatewayDown_keeps {s0 s : State} {m : Nat} (hK : Keeps s0 s) :
    Keeps s0 (State.gatewayDown s m) := by
  unfold State.gatewayDown; simp +contextual (maxDischargeDepth := 99) [hK]

@[simp] theorem State.gatewayHeard_keeps {s0 s : State} {m : Nat} (hK : Keeps s0 s) :
    Keeps s0 (State.gatewayHeard s m) := by
  unfold State.gatewayHeard; simp +contextual (maxDischargeDepth := 99) [hK]

@[simp] theorem State.resendOn_keeps {s0 s : State} {c : StfChan} (hK : Keeps s0 s) :
    Keeps s0 (State.resendOn s c) := by
  unfold State.resendOn; split <;> simp +contextual (maxDischargeDepth := 99) [hK]

@[simp] theorem State.receiveOn_keeps {s0 s : State} {c : StfChan} {f : StfFrame} {ok : Bool} (hK : Keeps s0 s) :
    Keeps s0 (State.receiveOn s c f ok) := by
  unfold State.receiveOn; split <;> simp +contextual (maxDischargeDepth := 99) [hK]

@[simp] theorem State.laneAdd_keeps {s0 s : State} {k : Nat} {i : Nat} {j : Nat} (hK : Keeps s0 s) :
    Keeps s0 (State.laneAdd s k i j) := by
  unfold State.laneAdd; simp +contextual (maxDischargeDepth := 99) [hK]

@[simp] theorem State.stitchFrame_keeps {s0 s : State} {k : Nat} {i : Nat} {f : StfFrame} {ok : Bool} (hK : Keeps s0 s) :
    Keeps s0 (State.stitchFrame s k i f ok) := by
  unfold State.stitchFrame; simp +contextual (maxDischargeDepth := 99) [hK]

@[simp] theorem execStitchFrameReceive_keeps {s0 s : State} {port : Nat} {lane : Nat} {frame : StfFrame} {ok : Bool} (hK : Keeps s0 s) :
    KeepsRes s0 (execStitchFrameReceive port lane frame ok s) := by
  unfold execStitchFrameReceive; simp +contextual (maxDischargeDepth := 99) [hK]

@[simp] theorem State.stitchEth_keeps {s0 s : State} {p : Nat} {mac : Nat} {bytes : List Byte} (hK : Keeps s0 s) :
    Keeps s0 (State.stitchEth s p mac bytes) := by
  unfold State.stitchEth; simp +contextual (maxDischargeDepth := 99) [hK]

@[simp] theorem State.replayTimeout_keeps {s0 s : State} {k : Nat} (hK : Keeps s0 s) :
    Keeps s0 (State.replayTimeout s k) := by
  unfold State.replayTimeout; simp +contextual (maxDischargeDepth := 99) [hK]

@[simp] theorem execReplayTimeout_keeps {s0 s : State} {port : Nat} (hK : Keeps s0 s) :
    KeepsRes s0 (execReplayTimeout port s) := by
  unfold execReplayTimeout; simp +contextual (maxDischargeDepth := 99) [hK]

@[simp] theorem State.laneAdmit_keeps {s0 s : State} {k : Nat} {i : Nat} (hK : Keeps s0 s) :
    Keeps s0 (State.laneAdmit s k i) := by
  unfold State.laneAdmit; dsimp only; (repeat' (first | (simp +contextual (maxDischargeDepth := 99) [hK]; done) | split))

@[simp] theorem execLaneAdmit_keeps {s0 s : State} {port : Nat} {index : Nat} (hK : Keeps s0 s) :
    KeepsRes s0 (execLaneAdmit port index s) := by
  unfold execLaneAdmit; simp +contextual (maxDischargeDepth := 99) [hK]

@[simp] theorem State.dropLanes_keeps {s0 s : State} {k : Nat} {l : List Nat} (hK : Keeps s0 s) :
    Keeps s0 (State.dropLanes s k l) := by
  unfold State.dropLanes; simp +contextual (maxDischargeDepth := 99) [hK]

@[simp] theorem State.laneDrop_keeps {s0 s : State} {k : Nat} (hK : Keeps s0 s) :
    Keeps s0 (State.laneDrop s k) := by
  unfold State.laneDrop; simp +contextual (maxDischargeDepth := 99) [hK]

@[simp] theorem State.loopbackWrite_keeps {s0 s : State} {n : Nat} {v : W32} (hK : Keeps s0 s) :
    Keeps s0 (State.loopbackWrite s n v) := by
  unfold State.loopbackWrite; dsimp only; (repeat' (first | (simp +contextual (maxDischargeDepth := 99) [hK]; done) | split))

@[simp] theorem execLoopbackWrite_keeps {s0 s : State} {lane : Nat} {value : W32} (hK : Keeps s0 s) :
    KeepsRes s0 (execLoopbackWrite lane value s) := by
  unfold execLoopbackWrite; simp +contextual (maxDischargeDepth := 99) [hK]

@[simp] theorem execLaneDrop_keeps {s0 s : State} {port : Nat} (hK : Keeps s0 s) :
    KeepsRes s0 (execLaneDrop port s) := by
  unfold execLaneDrop; simp +contextual (maxDischargeDepth := 99) [hK]

@[simp] theorem execPortUp_keeps {s0 s : State} {port : Nat} (hK : Keeps s0 s) :
    KeepsRes s0 (execPortUp port s) := by
  unfold execPortUp; simp +contextual (maxDischargeDepth := 99) [hK]

@[simp] theorem execFrameReceive_keeps {s0 s : State} {port : Nat} {data : List Byte} (hK : Keeps s0 s) :
    KeepsRes s0 (execFrameReceive port data s) := by
  unfold execFrameReceive; simp +contextual (maxDischargeDepth := 99) [hK]

@[simp] theorem State.addReadyLanes_keeps {s0 s : State} (hK : Keeps s0 s) :
    Keeps s0 (State.addReadyLanes s) := by
  unfold State.addReadyLanes; simp +contextual (maxDischargeDepth := 99) [hK]

@[simp] theorem State.writeStfCtrl_keeps {s0 s : State} {v : W32} (hK : Keeps s0 s) :
    Keeps s0 (State.writeStfCtrl s v) := by
  unfold State.writeStfCtrl; simp +contextual (maxDischargeDepth := 99) [hK]

@[simp] theorem State.writeStfId_keeps {s0 s : State} {v : W32} (hK : Keeps s0 s) :
    Keeps s0 (State.writeStfId s v) := by
  unfold State.writeStfId; simp +contextual (maxDischargeDepth := 99) [hK]

@[simp] theorem State.applyStfPort_keeps {s0 s : State} {k : Nat} {v : W32} (hK : Keeps s0 s) :
    Keeps s0 (State.applyStfPort s k v).1 := by
  unfold State.applyStfPort; simp +contextual (maxDischargeDepth := 99) [hK]

@[simp] theorem State.writeStfPort_keeps {s0 s : State} {k : Nat} {v : W32} (hK : Keeps s0 s) :
    Keeps s0 (State.writeStfPort s k v) := by
  unfold State.writeStfPort; simp +contextual (maxDischargeDepth := 99) [hK]

end Sys2Proof.Machine
end

