-- ==== Sys2Proof/Laws/KeepsCapture.lean ====
section
/-! SUPPORT. What the operations of Machine/Capture.lean keep (Laws/Keeps.lean). -/

set_option linter.unusedSimpArgs false

namespace Sys2Proof.Machine

@[simp] theorem State.vatWrite_keeps {s0 s : State} {h : Nat} {data : List Byte} (hK : Keeps s0 s) :
    Keeps s0 (State.vatWrite s h data) := by
  unfold State.vatWrite; simp +contextual (maxDischargeDepth := 99) [hK]

@[simp] theorem State.loseRecord_keeps {s0 s : State} {h : Nat} {bytes : Nat} {t16 : Int} (hK : Keeps s0 s) :
    Keeps s0 (State.loseRecord s h bytes t16) := by
  unfold State.loseRecord; simp +contextual (maxDischargeDepth := 99) [hK]

@[simp] theorem State.vatPut_keeps {s0 s : State} {h : Nat} {spare : Nat} {d : List Byte} (hK : Keeps s0 s) :
    Keeps s0 (State.vatPut s h spare d) := by
  unfold State.vatPut; simp +contextual (maxDischargeDepth := 99) [hK]

@[simp] theorem State.vatRecord_keeps {s0 s : State} {h : Nat} {type : Nat} {aux : Nat} {spare : Nat} {payload : List Byte} (hK : Keeps s0 s) :
    Keeps s0 (State.vatRecord s h type aux spare payload) := by
  unfold State.vatRecord; simp +contextual (maxDischargeDepth := 99) [hK]

@[simp] theorem State.dropKind0_keeps {s0 s : State} {h : Nat} {bytes : Nat} (hK : Keeps s0 s) :
    Keeps s0 (State.dropKind0 s h bytes) := by
  unfold State.dropKind0; simp +contextual (maxDischargeDepth := 99) [hK]

@[simp] theorem State.settleSpill_keeps {s0 s : State} {h : Nat} (hK : Keeps s0 s) :
    Keeps s0 (State.settleSpill s h) := by
  unfold State.settleSpill; simp +contextual (maxDischargeDepth := 99) [hK]

@[simp] theorem State.requestFreeze_keeps {s0 s : State} {cause : Nat} {line : Nat} {bcast : Bool} {leadUs : Nat} (hK : Keeps s0 s) :
    Keeps s0 (State.requestFreeze s cause line bcast leadUs) := by
  unfold State.requestFreeze; simp +contextual (maxDischargeDepth := 99) [hK]

@[simp] theorem State.writeGap_keeps {s0 s : State} {h : Nat} (hK : Keeps s0 s) :
    Keeps s0 (State.writeGap s h) := by
  unfold State.writeGap; split <;> simp +contextual (maxDischargeDepth := 99) [hK]

@[simp] theorem State.vatDone_keeps {s0 s : State} {h : Nat} (hK : Keeps s0 s) :
    Keeps s0 (State.vatDone s h) := by
  unfold State.vatDone; simp +contextual (maxDischargeDepth := 99) [hK]

@[simp] theorem State.freezeAtDone_keeps {s0 s : State} (hK : Keeps s0 s) :
    Keeps s0 (State.freezeAtDone s) := by
  unfold State.freezeAtDone; dsimp only; (repeat' (first | (simp +contextual (maxDischargeDepth := 99) [hK]; done) | split))

@[simp] theorem State.vatEvents_keeps {s0 before s : State} (hK : Keeps s0 s) : Keeps s0 (State.vatEvents before s) := by
  unfold State.vatEvents; simp +contextual [hK]

@[simp] theorem State.vatSettle_keeps {s0 before s : State} (hK : Keeps s0 s) : Keeps s0 (State.vatSettle before s) := by
  unfold State.vatSettle; simp [hK]

@[simp] theorem State.vatPost_keeps {s0 s : State} {h : Nat} (hK : Keeps s0 s) :
    Keeps s0 (State.vatPost s h) := by
  unfold State.vatPost; simp +contextual (maxDischargeDepth := 99) [hK]

@[simp] theorem State.vatTrigger_keeps {s0 s : State} {h : Nat} {t : TrigSeen} (hK : Keeps s0 s) :
    Keeps s0 (State.vatTrigger s h t) := by
  unfold State.vatTrigger; split <;> simp +contextual (maxDischargeDepth := 99) [hK]

@[simp] theorem State.holdFreeze_keeps {s0 s : State} {line : Nat} {trigger : Bool} (hK : Keeps s0 s) :
    Keeps s0 (State.holdFreeze s line trigger) := by
  unfold State.holdFreeze; simp +contextual (maxDischargeDepth := 99) [hK]

@[simp] theorem State.vatArm_keeps {s0 s : State} {h : Nat} (hK : Keeps s0 s) :
    Keeps s0 (State.vatArm s h) := by
  unfold State.vatArm; simp +contextual (maxDischargeDepth := 99) [hK]

@[simp] theorem State.pressLine_keeps {s0 s : State} {n : Nat} (hK : Keeps s0 s) :
    Keeps s0 (State.pressLine s n) := by
  unfold State.pressLine; simp +contextual (maxDischargeDepth := 99) [hK]

@[simp] theorem State.lineActs_keeps {s0 s : State} {n : Nat} {cause : Nat} (hK : Keeps s0 s) :
    Keeps s0 (State.lineActs s n cause) := by
  unfold State.lineActs; simp +contextual (maxDischargeDepth := 99) [hK]

@[simp] theorem State.fireLines_keeps {s0 s : State} {l : List Nat} {cause : Nat} {source : Nat} {seq : Nat} (hK : Keeps s0 s) :
    Keeps s0 (State.fireLines s l cause source seq) := by
  unfold State.fireLines; dsimp only; (repeat' (first | (simp +contextual (maxDischargeDepth := 99) [hK]; done) | split))

@[simp] theorem execTrigPulseEnd_keeps {s0 s : State} {line : Nat} (hK : Keeps s0 s) :
    KeepsRes s0 (execTrigPulseEnd line s) := by
  unfold execTrigPulseEnd; simp +contextual (maxDischargeDepth := 99) [hK]

@[simp] theorem execGapRecord_keeps {s0 s : State} {half : Nat} (hK : Keeps s0 s) :
    KeepsRes s0 (execGapRecord half s) := by
  unfold execGapRecord; simp +contextual (maxDischargeDepth := 99) [hK]

@[simp] theorem State.placeRecord_keeps {s0 s : State} {c : CapRec} {h : Nat} {snap : Nat} (hK : Keeps s0 s) :
    Keeps s0 (State.placeRecord s c h snap).1 := by
  unfold State.placeRecord; simp +contextual (maxDischargeDepth := 99) [hK]

@[simp] theorem State.takeOffer_keeps {s0 s : State} {c : CapRec} (hK : Keeps s0 s) :
    Keeps s0 (State.takeOffer s c).1 := by
  unfold State.takeOffer; simp +contextual (maxDischargeDepth := 99) [hK]

@[simp] theorem State.settleCycle_keeps {s0 s : State} (hK : Keeps s0 s) :
    Keeps s0 (State.settleCycle s) := by
  unfold State.settleCycle; dsimp only; (repeat' (first | (simp +contextual (maxDischargeDepth := 99) [hK]; done) | split))

@[simp] theorem State.settleOffersN_keeps {s0 s : State} {fuel : Nat} (hK : Keeps s0 s) :
    Keeps s0 (State.settleOffersN s fuel) := by
  induction fuel generalizing s with | zero => (unfold State.settleOffersN; simp [hK]; done) | succ a ih => (unfold State.settleOffersN; simp +contextual (maxDischargeDepth := 99) [hK, ih]; done)

@[simp] theorem State.settleOffers_keeps {s0 s : State} (hK : Keeps s0 s) :
    Keeps s0 (State.settleOffers s) := by
  unfold State.settleOffers; simp +contextual (maxDischargeDepth := 99) [hK]

@[simp] theorem State.refill_keeps {s0 s : State} (hK : Keeps s0 s) :
    Keeps s0 (State.refill s) := by
  unfold State.refill; simp +contextual (maxDischargeDepth := 99) [hK]

@[simp] theorem State.spend_keeps {s0 s : State} {n : Nat} (hK : Keeps s0 s) :
    Keeps s0 (State.spend s n) := by
  unfold State.spend; simp +contextual (maxDischargeDepth := 99) [hK]

@[simp] theorem State.endStops_keeps {s0 s : State} {h : Nat} {n : Nat} (hK : Keeps s0 s) :
    Keeps s0 (State.endStops s h n) := by
  unfold State.endStops; simp +contextual (maxDischargeDepth := 99) [hK]

@[simp] theorem State.drainStaging_keeps {s0 s : State} {h : Nat} {grant : Nat} (hK : Keeps s0 s) :
    Keeps s0 (State.drainStaging s h grant) := by
  unfold State.drainStaging; simp +contextual (maxDischargeDepth := 99) [hK]

@[simp] theorem State.vatArmDesc_keeps {s0 s : State} {d : Desc} (hK : Keeps s0 s) :
    Keeps s0 (State.vatArmDesc s d) := by
  unfold State.vatArmDesc; simp +contextual (maxDischargeDepth := 99) [hK]

@[simp] theorem execVatArm_keeps {s0 s : State} {d : Desc} (hK : Keeps s0 s) :
    KeepsRes s0 (execVatArm d s) := by
  unfold execVatArm; simp +contextual (maxDischargeDepth := 99) [hK]

@[simp] theorem State.vatTriggerDesc_keeps {s0 s : State} {d : Desc} (hK : Keeps s0 s) :
    Keeps s0 (State.vatTriggerDesc s d) := by
  unfold State.vatTriggerDesc; simp +contextual (maxDischargeDepth := 99) [hK]

@[simp] theorem execVatTrigger_keeps {s0 s : State} {d : Desc} (hK : Keeps s0 s) :
    KeepsRes s0 (execVatTrigger d s) := by
  unfold execVatTrigger; simp +contextual (maxDischargeDepth := 99) [hK]

@[simp] theorem State.vatStopDesc_keeps {s0 s : State} {d : Desc} (hK : Keeps s0 s) :
    Keeps s0 (State.vatStopDesc s d) := by
  unfold State.vatStopDesc; simp +contextual (maxDischargeDepth := 99) [hK]

@[simp] theorem execVatStop_keeps {s0 s : State} {d : Desc} (hK : Keeps s0 s) :
    KeepsRes s0 (execVatStop d s) := by
  unfold execVatStop; simp +contextual (maxDischargeDepth := 99) [hK]

@[simp] theorem execTrigPinEdge_keeps {s0 s : State} {line : Nat} {rising : Bool} (hK : Keeps s0 s) :
    KeepsRes s0 (execTrigPinEdge line rising s) := by
  unfold execTrigPinEdge; simp +contextual (maxDischargeDepth := 99) [hK]

@[simp] theorem State.broadcastTime_keeps {s0 s : State} (hK : Keeps s0 s) :
    Keeps s0 (State.broadcastTime s) := by
  unfold State.broadcastTime; split <;> simp +contextual (maxDischargeDepth := 99) [hK]

@[simp] theorem execBroadcastTime_keeps {s0 s : State} (hK : Keeps s0 s) :
    KeepsRes s0 (execBroadcastTime s) := by
  unfold execBroadcastTime; simp +contextual (maxDischargeDepth := 99) [hK]

@[simp] theorem State.vatMarkHalf_keeps {s0 s : State} {h : Nat} (hK : Keeps s0 s) :
    Keeps s0 (State.vatMarkHalf s h) := by
  unfold State.vatMarkHalf; simp +contextual (maxDischargeDepth := 99) [hK]

@[simp] theorem State.vatMark_keeps {s0 s : State} (hK : Keeps s0 s) :
    Keeps s0 (State.vatMark s) := by
  unfold State.vatMark; simp +contextual (maxDischargeDepth := 99) [hK]

@[simp] theorem State.spillTake_keeps {s0 s : State} {h n : Nat} (hK : Keeps s0 s) : Keeps s0 (State.spillTake s h n).1 := by
  unfold State.spillTake
  extract_lets +onlyGivenNames x ps r
  have hr : Keeps s0 r.1 := keeps_foldl_fst _ _ (fun a p ha => by
    try dsimp only; split
    · exact State.readModule_keeps ha
    · exact State.drawn_keeps (State.readModule_keeps ha)) hK
  clear_value r
  exact State.setVat_keeps hr

@[simp] theorem State.nextFrameSeq_keeps {s0 s : State} {h : Nat} (hK : Keeps s0 s) :
    Keeps s0 (State.nextFrameSeq s h) := by
  unfold State.nextFrameSeq; simp +contextual (maxDischargeDepth := 99) [hK]

@[simp] theorem State.spillDrained_keeps {s0 s : State} {h : Nat} (hK : Keeps s0 s) :
    Keeps s0 (State.spillDrained s h) := by
  unfold State.spillDrained; simp +contextual (maxDischargeDepth := 99) [hK]

@[simp] theorem State.spillFrame_keeps {s0 s : State} {h : Nat} {short : Bool} (hK : Keeps s0 s) :
    Keeps s0 (State.spillFrame s h short) := by
  unfold State.spillFrame; dsimp only; (repeat' (first | (simp +contextual (maxDischargeDepth := 99) [hK]; done) | split))

@[simp] theorem execSpillFrame_keeps {s0 s : State} {half : Nat} (hK : Keeps s0 s) :
    KeepsRes s0 (execSpillFrame half s) := by
  unfold execSpillFrame; simp +contextual (maxDischargeDepth := 99) [hK]

@[simp] theorem execSpillIdle_keeps {s0 s : State} {half : Nat} (hK : Keeps s0 s) :
    KeepsRes s0 (execSpillIdle half s) := by
  unfold execSpillIdle; simp +contextual (maxDischargeDepth := 99) [hK]

@[simp] theorem State.writeSpillCfg_keeps {s0 s : State} {k : Nat} {v : W32} (hK : Keeps s0 s) :
    Keeps s0 (State.writeSpillCfg s k v) := by
  unfold State.writeSpillCfg; simp +contextual (maxDischargeDepth := 99) [hK]

@[simp] theorem execSpillPortEnable_keeps {s0 s : State} {port : Nat} {value : W32} (hK : Keeps s0 s) :
    KeepsRes s0 (execSpillPortEnable port value s) := by
  unfold execSpillPortEnable; simp +contextual (maxDischargeDepth := 99) [hK]

@[simp] theorem State.hostFill_keeps {s0 s : State} {h : Nat} (hK : Keeps s0 s) :
    Keeps s0 (State.hostFill s h) := by
  unfold State.hostFill; dsimp only; (repeat' (first | (simp +contextual (maxDischargeDepth := 99) [hK]; done) | split))

@[simp] theorem State.capHostbuf_keeps {s0 s : State} {d : Desc} (hK : Keeps s0 s) :
    Keeps s0 (State.capHostbuf s d) := by
  unfold State.capHostbuf; simp +contextual (maxDischargeDepth := 99) [hK]

@[simp] theorem execCapHostbuf_keeps {s0 s : State} {d : Desc} (hK : Keeps s0 s) :
    KeepsRes s0 (execCapHostbuf d s) := by
  unfold execCapHostbuf; simp +contextual (maxDischargeDepth := 99) [hK]

@[simp] theorem State.closeBuf_keeps {s0 s : State} {h : Nat} {b : SpillBuf} (hK : Keeps s0 s) :
    Keeps s0 (State.closeBuf s h b) := by
  unfold State.closeBuf; simp +contextual (maxDischargeDepth := 99) [hK]

@[simp] theorem State.hostbufClose_keeps {s0 s : State} {h : Nat} {idle : Bool} (hK : Keeps s0 s) :
    Keeps s0 (State.hostbufClose s h idle) := by
  unfold State.hostbufClose; dsimp only; (repeat' (first | (simp +contextual (maxDischargeDepth := 99) [hK]; done) | split))

@[simp] theorem execHostbufClose_keeps {s0 s : State} {half : Nat} {idle : Bool} (hK : Keeps s0 s) :
    KeepsRes s0 (execHostbufClose half idle s) := by
  unfold execHostbufClose; simp +contextual (maxDischargeDepth := 99) [hK]

@[simp] theorem State.captureRecord_keeps {s0 s : State} {half : Nat} {grant : Nat} (hK : Keeps s0 s) :
    Keeps s0 (State.captureRecord s half grant) := by
  unfold State.captureRecord; simp +contextual (maxDischargeDepth := 99) [hK]

@[simp] theorem execCaptureRecord_keeps {s0 s : State} {half : Nat} {grant : Nat} (hK : Keeps s0 s) :
    KeepsRes s0 (execCaptureRecord half grant s) := by
  unfold execCaptureRecord; simp +contextual (maxDischargeDepth := 99) [hK]

@[simp] theorem State.writeVatReg_keeps {s0 s : State} {h : Nat} {a : Nat} {v : W32} (hK : Keeps s0 s) :
    Keeps s0 (State.writeVatReg s h a v) := by
  unfold State.writeVatReg; simp +contextual (maxDischargeDepth := 99) [hK]

end Sys2Proof.Machine
end

