-- ==== Sys2Proof/Laws/KeepsPress.lean ====
section
/-! SUPPORT. What the operations of Machine/Press.lean keep (Laws/Keeps.lean). -/

set_option linter.unusedSimpArgs false

namespace Sys2Proof.Machine

@[simp] theorem State.pressEnd_keeps {s0 s : State} {c : Nat} {status : Nat} (hK : Keeps s0 s) :
    Keeps s0 (State.pressEnd s c status) := by
  unfold State.pressEnd; dsimp only; (repeat' (first | (simp +contextual (maxDischargeDepth := 99) [hK]; done) | split))

@[simp] theorem State.pressStart_keeps {s0 s : State} {d : Desc} (hK : Keeps s0 s) : Keeps s0 (State.pressStart s d) := by
  unfold State.pressStart
  extract_lets
  split
  · exact State.complete_keeps (State.clampDesc_keeps hK)
  · exact State.setChanP_keeps (State.clampDesc_keeps hK)

@[simp] theorem execCapPressStart_keeps {s0 s : State} {d : Desc} (hK : Keeps s0 s) :
    KeepsRes s0 (execCapPressStart d s) := by
  unfold execCapPressStart; simp +contextual (maxDischargeDepth := 99) [hK]

@[simp] theorem State.pressStop_keeps {s0 s : State} {d : Desc} (hK : Keeps s0 s) :
    Keeps s0 (State.pressStop s d) := by
  unfold State.pressStop; simp +contextual (maxDischargeDepth := 99) [hK]

@[simp] theorem execCapPressStop_keeps {s0 s : State} {d : Desc} (hK : Keeps s0 s) :
    KeepsRes s0 (execCapPressStop d s) := by
  unfold execCapPressStop; simp +contextual (maxDischargeDepth := 99) [hK]

@[simp] theorem State.pressEmit_keeps {s0 s : State} {c : Nat} {kind : Nat} {p : Nat} {due : Int} {data : List Byte} (hK : Keeps s0 s) :
    Keeps s0 (State.pressEmit s c kind p due data) := by
  unfold State.pressEmit; simp +contextual (maxDischargeDepth := 99) [hK]

@[simp] theorem State.pressIteration_keeps {s0 s : State} {c : Nat} (hK : Keeps s0 s) :
    Keeps s0 (State.pressIteration s c) := by
  unfold State.pressIteration; simp +contextual (maxDischargeDepth := 99) [hK]

@[simp] theorem State.pressHeader_keeps {s0 s : State} {c : Nat} {anchor : Int} {x : PressChan} {base : Nat} {hd : List Byte}
    (hK : Keeps s0 s) : Keeps s0 (State.pressHeader s c anchor x base hd).1 := by
  have last : ∀ (z : State × Option (List Byte)) (next kind p : Nat) (due : Int), Keeps s0 z.1 → Keeps s0 (match z.2 with
      | none => (z.1.pressEnd c stBAD, false)
      | some b => ((z.1.setChanP c { z.1.chanP c with pos := next, mode := .run }).pressEmit c kind p due b, false)).1 :=
    fun z next kind p due h => by
      split
      · exact State.pressEnd_keeps h
      · exact State.pressEmit_keeps (State.setChanP_keeps h)
  unfold State.pressHeader
  extract_lets +onlyGivenNames w len total next go kind
  have hg : ∀ s, Keeps s0 s → Keeps s0 (go s).1 := fun s h => State.setChanP_keeps h
  clear_value go
  by_cases c1 : x.length < next
  · rw [if_pos c1]; exact State.setChanP_keeps (State.clampAt_keeps hK)
  · rw [if_neg c1]
    by_cases c2 : (w 0 % 256 != 1) = true
    · rw [if_pos c2]; exact hg _ hK
    · rw [if_neg c2]
      extract_lets +onlyGivenNames time x' s2 off
      have h2 : Keeps s0 s2 := State.setChanP_keeps hK
      clear_value s2
      by_cases c6 : (kind != 1 && kind != 2) = true
      · rw [if_pos c6]; exact hg _ h2
      rw [if_neg c6]
      extract_lets +onlyGivenNames p due
      by_cases c3 : s2.pressPeriod x' ≤ off
      · rw [if_pos c3]; exact hg _ (State.clampAt_keeps h2)
      · rw [if_neg c3]
        by_cases c4 : s2.pressSkips c kind p (w 0 / 2 ^ 8 % 256) len = true
        · rw [if_pos c4]; exact hg _ (State.bump_keeps h2)
        · rw [if_neg c4]
          by_cases c5 : (s2.tb.time16 < due || (kind == 2 && s2.outBusy p && decide (65536 < s2.outBytes p + len))) = true
          · rw [if_pos c5]; exact h2
          · rw [if_neg c5]; exact last _ _ _ _ _ (State.readModule_keeps h2)

@[simp] theorem State.pressOne_keeps {s0 s : State} {c : Nat} {anchor : Int} (hK : Keeps s0 s) :
    Keeps s0 (State.pressOne s c anchor).1 := by
  unfold State.pressOne; dsimp only; (repeat' (first | (simp +contextual (maxDischargeDepth := 99) [hK]; done) | split))

@[simp] theorem State.pressWalk_keeps {s0 s : State} {c : Nat} {anchor : Int} {fuel : Nat} (hK : Keeps s0 s) :
    Keeps s0 (State.pressWalk s c anchor fuel) := by
  induction fuel generalizing s c anchor with | zero => (unfold State.pressWalk; simp [hK]; done) | succ a ih => (unfold State.pressWalk; simp +contextual (maxDischargeDepth := 99) [hK, ih]; done)

@[simp] theorem State.pressRecord_keeps {s0 s : State} {c : Nat} (hK : Keeps s0 s) :
    Keeps s0 (State.pressRecord s c) := by
  unfold State.pressRecord; dsimp only; (repeat' (first | (simp +contextual (maxDischargeDepth := 99) [hK]; done) | split))

@[simp] theorem execPressRecord_keeps {s0 s : State} {chan : Nat} (hK : Keeps s0 s) :
    KeepsRes s0 (execPressRecord chan s) := by
  unfold execPressRecord; simp +contextual (maxDischargeDepth := 99) [hK]

end Sys2Proof.Machine
end

