-- ==== Sys2Proof/Laws/KeepsBoundary.lean ====
section
/-! SUPPORT. What the operations of Machine/Boundary.lean keep (Laws/Keeps.lean). -/

set_option linter.unusedSimpArgs false

namespace Sys2Proof.Machine

@[simp] theorem State.slotAbort_keeps {s0 s : State} {c : Nat} {h : Half} {n : Int} (hK : Keeps s0 s) :
    Keeps s0 (State.slotAbort s c h n) := by
  unfold State.slotAbort; simp +contextual (maxDischargeDepth := 99) [hK]

@[simp] theorem State.settleCarrier_keeps {s0 s : State} {c : Nat} (hK : Keeps s0 s) :
    Keeps s0 (State.settleCarrier s c) := by
  unfold State.settleCarrier; simp +contextual (maxDischargeDepth := 99) [hK]

@[simp] theorem State.expireSlot_keeps {s0 s : State} {c : Nat} {h : Half} {n : Int} (hK : Keeps s0 s) :
    Keeps s0 (State.expireSlot s c h n) := by
  unfold State.expireSlot; simp +contextual (maxDischargeDepth := 99) [hK]

@[simp] theorem State.slotExpiry_keeps {s0 s : State} {c : Nat} {h : Half} (hK : Keeps s0 s) :
    Keeps s0 (State.slotExpiry s c h) := by
  unfold State.slotExpiry; split <;> simp +contextual (maxDischargeDepth := 99) [hK]

@[simp] theorem execSlotExpiry_keeps {s0 s : State} {carrier : Nat} {half : Half} (hK : Keeps s0 s) :
    KeepsRes s0 (execSlotExpiry carrier half s) := by
  unfold execSlotExpiry; simp +contextual (maxDischargeDepth := 99) [hK]

@[simp] theorem State.slotAbortDesc_keeps {s0 s : State} {d : Desc} (hK : Keeps s0 s) :
    Keeps s0 (State.slotAbortDesc s d) := by
  unfold State.slotAbortDesc; dsimp only; (repeat' (first | (simp +contextual (maxDischargeDepth := 99) [hK]; done) | split))

@[simp] theorem execSlotAbort_keeps {s0 s : State} {d : Desc} (hK : Keeps s0 s) :
    KeepsRes s0 (execSlotAbort d s) := by
  unfold execSlotAbort; simp +contextual (maxDischargeDepth := 99) [hK]

@[simp] theorem State.completeArms_keeps {s0 s : State} {gen : Nat} {time : W64} {l : List ArmRef} (hK : Keeps s0 s) :
    Keeps s0 (State.completeArms s gen time l) := by
  unfold State.completeArms; simp +contextual (maxDischargeDepth := 99) [hK]

@[simp] theorem State.pushHalf_keeps {s0 s : State} {c : Nat} {h : Half} {n : Int} {flags : Nat} {time : W64} (hK : Keeps s0 s) :
    Keeps s0 (State.pushHalf s c h n flags time) := by
  unfold State.pushHalf; simp +contextual (maxDischargeDepth := 99) [hK]

@[simp] theorem State.boundaryEvents_keeps {s0 s : State} {w : SetWords} (hK : Keeps s0 s) :
    Keeps s0 (State.boundaryEvents s w) := by
  unfold State.boundaryEvents; simp +contextual (maxDischargeDepth := 99) [hK]

@[simp] theorem State.beginSlot_keeps {s0 s : State} {c : Nat} {h : Half} {n : Int} {start : Bool} {flags : Nat} {time : W64} (hK : Keeps s0 s) :
    Keeps s0 (State.beginSlot s c h n start flags time) := by
  unfold State.beginSlot; split <;> simp +contextual (maxDischargeDepth := 99) [hK]

@[simp] theorem State.startHalf_keeps {s0 s : State} {c : Nat} {h : Half} {a : ArmedSet} (hK : Keeps s0 s) :
    Keeps s0 (State.startHalf s c h a) := by
  unfold State.startHalf; split <;> simp +contextual (maxDischargeDepth := 99) [hK]

@[simp] theorem State.stopHalf_keeps {s0 s : State} {c : Nat} {h : Half} {a : ArmedSet} {n : Int} {time : W64} (hK : Keeps s0 s) :
    Keeps s0 (State.stopHalf s c h a n time) := by
  unfold State.stopHalf; split <;> simp +contextual (maxDischargeDepth := 99) [hK]

@[simp] theorem State.disableHalf_keeps {s0 s : State} {c : Nat} {h : Half} {n : Int} (hK : Keeps s0 s) :
    Keeps s0 (State.disableHalf s c h n) := by
  unfold State.disableHalf; split <;> simp +contextual (maxDischargeDepth := 99) [hK]

@[simp] theorem State.fireHalf_keeps {s0 s : State} {c : Nat} {h : Half} {n : Int} (hK : Keeps s0 s) :
    Keeps s0 (State.fireHalf s c h n) := by
  unfold State.fireHalf; dsimp only; (repeat' (first | (simp +contextual (maxDischargeDepth := 99) [hK]; done) | split))

@[simp] theorem State.fireDue_keeps {s0 s : State} {c : Nat} {h : Half} (hK : Keeps s0 s) :
    Keeps s0 (State.fireDue s c h) := by
  unfold State.fireDue; dsimp only; (repeat' (first | (simp +contextual (maxDischargeDepth := 99) [hK]; done) | split))

@[simp] theorem State.moduleCouch_keeps {s0 s : State} {n : Int} (hK : Keeps s0 s) :
    Keeps s0 (State.moduleCouch s n) := by
  unfold State.moduleCouch; split <;> simp +contextual (maxDischargeDepth := 99) [hK]

@[simp] theorem State.fireFrame_keeps {s0 s : State} (hK : Keeps s0 s) :
    Keeps s0 (State.fireFrame s) := by
  unfold State.fireFrame; simp +contextual (maxDischargeDepth := 99) [hK]

@[simp] theorem State.expireDue_keeps {s0 s : State} {c : Nat} {h : Half} {fuel : Nat} (hK : Keeps s0 s) :
    Keeps s0 (State.expireDue s c h fuel) := by
  induction fuel generalizing s c h with | zero => (unfold State.expireDue; (repeat' (first | (simp +contextual (maxDischargeDepth := 99) [hK]; done) | split)); done) | succ a ih => (unfold State.expireDue; (repeat' (first | (simp +contextual (maxDischargeDepth := 99) [hK, ih]; done) | split)); done)

@[simp] theorem State.boundaryFire_keeps {s0 s : State} (hK : Keeps s0 s) :
    Keeps s0 (State.boundaryFire s) := by
  unfold State.boundaryFire; simp +contextual (maxDischargeDepth := 99) [hK]

@[simp] theorem execBoundaryFire_keeps {s0 s : State} (hK : Keeps s0 s) :
    KeepsRes s0 (execBoundaryFire s) := by
  unfold execBoundaryFire; simp +contextual (maxDischargeDepth := 99) [hK]

@[simp] theorem State.returnCarrier_keeps {s0 s : State} {c : Nat} (hK : Keeps s0 s) :
    Keeps s0 (State.returnCarrier s c) := by
  unfold State.returnCarrier; simp +contextual (maxDischargeDepth := 99) [hK]

@[simp] theorem State.disableCarrier_keeps {s0 s : State} {c : Nat} (hK : Keeps s0 s) :
    Keeps s0 (State.disableCarrier s c) := by
  unfold State.disableCarrier; simp +contextual (maxDischargeDepth := 99) [hK]

@[simp] theorem execCarrierDisable_keeps {s0 s : State} {d : Desc} (hK : Keeps s0 s) :
    KeepsRes s0 (execCarrierDisable d s) := by
  unfold execCarrierDisable; simp +contextual (maxDischargeDepth := 99) [hK]

end Sys2Proof.Machine
end

