-- ==== Sys2Proof/Laws/KeepsModuleMemory.lean ====
section
/-! SUPPORT. What the operations of Machine/ModuleMemory.lean keep (Laws/Keeps.lean). -/

set_option linter.unusedSimpArgs false

namespace Sys2Proof.Machine

@[simp] theorem State.setMemChan_keeps {s0 s : State} {c : Nat} {x : MemChan} (hK : Keeps s0 s) :
    Keeps s0 (State.setMemChan s c x) := by
  unfold State.setMemChan; simp +contextual (maxDischargeDepth := 99) [hK]

@[simp] theorem State.memFill_keeps {s0 s : State} {d : Desc} (hK : Keeps s0 s) :
    Keeps s0 (State.memFill s d) := by
  unfold State.memFill; simp +contextual (maxDischargeDepth := 99) [hK]

@[simp] theorem execMemFill_keeps {s0 s : State} {d : Desc} (hK : Keeps s0 s) :
    KeepsRes s0 (execMemFill d s) := by
  unfold execMemFill; simp +contextual (maxDischargeDepth := 99) [hK]

@[simp] theorem State.fillAll_keeps {s0 s : State} {f : Fill} (hK : Keeps s0 s) :
    Keeps s0 (State.fillAll s f) := by
  unfold State.fillAll; simp +contextual (maxDischargeDepth := 99) [hK]

@[simp] theorem State.fillDone_keeps {s0 s : State} {ring : Nat} {tag : W32} (hK : Keeps s0 s) :
    Keeps s0 (State.fillDone s ring tag) := by
  unfold State.fillDone; split <;> simp +contextual (maxDischargeDepth := 99) [hK]

@[simp] theorem execFillDone_keeps {s0 s : State} {ring : Nat} {tag : W32} (hK : Keeps s0 s) :
    KeepsRes s0 (execFillDone ring tag s) := by
  unfold execFillDone; simp +contextual (maxDischargeDepth := 99) [hK]

@[simp] theorem execChannelAccess_keeps {s0 s : State} {addr : Nat} {write : Bool} {data : List Byte} {bytes : Nat} {requester : Nat} (hK : Keeps s0 s) :
    KeepsRes s0 (execChannelAccess addr write data bytes requester s) := by
  unfold execChannelAccess; simp +contextual (maxDischargeDepth := 99) [hK]

@[simp] theorem State.notePoison_keeps {s0 s : State} {a : Nat} {n : Nat} (hK : Keeps s0 s) :
    Keeps s0 (State.notePoison s a n) := by
  unfold State.notePoison; simp +contextual (maxDischargeDepth := 99) [hK]

@[simp] theorem State.bar4Access_keeps {s0 s : State} {offset : Nat} {write : Bool} {data : List Byte} {n : Nat} (hK : Keeps s0 s) :
    Keeps s0 (State.bar4Access s offset write data n) := by
  unfold State.bar4Access; simp +contextual (maxDischargeDepth := 99) [hK]

@[simp] theorem execBar4Access_keeps {s0 s : State} {offset : Nat} {write : Bool} {data : List Byte} {bytes : Nat} (hK : Keeps s0 s) :
    KeepsRes s0 (execBar4Access offset write data bytes s) := by
  unfold execBar4Access; simp +contextual (maxDischargeDepth := 99) [hK]

@[simp] theorem State.scrubWord_keeps {s0 s : State} {c : Nat} (hK : Keeps s0 s) :
    Keeps s0 (State.scrubWord s c) := by
  unfold State.scrubWord; simp +contextual (maxDischargeDepth := 99) [hK]

@[simp] theorem State.patrolScrub_keeps {s0 s : State} {c : Nat} (hK : Keeps s0 s) :
    Keeps s0 (State.patrolScrub s c) := by
  unfold State.patrolScrub; simp +contextual (maxDischargeDepth := 99) [hK]

@[simp] theorem execPatrolScrub_keeps {s0 s : State} {chan : Nat} (hK : Keeps s0 s) :
    KeepsRes s0 (execPatrolScrub chan s) := by
  unfold execPatrolScrub; simp +contextual (maxDischargeDepth := 99) [hK]

@[simp] theorem State.retrainEnds_keeps {s0 s : State} {c : Nat} {ok : Bool} (hK : Keeps s0 s) :
    Keeps s0 (State.retrainEnds s c ok) := by
  unfold State.retrainEnds; simp +contextual (maxDischargeDepth := 99) [hK]

@[simp] theorem State.resetTrain_keeps {s0 s : State} {c : Nat} {ok : Bool} (hK : Keeps s0 s) :
    Keeps s0 (State.resetTrain s c ok) := by
  unfold State.resetTrain; simp +contextual (maxDischargeDepth := 99) [hK]

@[simp] theorem State.channelRetrain_keeps {s0 s : State} {c : Nat} {ends : Option Bool} (hK : Keeps s0 s) :
    Keeps s0 (State.channelRetrain s c ends) := by
  unfold State.channelRetrain; (repeat' (first | (simp +contextual (maxDischargeDepth := 99) [hK]; done) | split))

@[simp] theorem execChannelRetrain_keeps {s0 s : State} {chan : Nat} {ends : Option Bool} (hK : Keeps s0 s) :
    KeepsRes s0 (execChannelRetrain chan ends s) := by
  unfold execChannelRetrain; simp +contextual (maxDischargeDepth := 99) [hK]

@[simp] theorem State.retrainRetry_keeps {s0 s : State} {c : Nat} (hK : Keeps s0 s) :
    Keeps s0 (State.retrainRetry s c) := by
  unfold State.retrainRetry; simp +contextual (maxDischargeDepth := 99) [hK]

@[simp] theorem execRetrainRetry_keeps {s0 s : State} {chan : Nat} (hK : Keeps s0 s) :
    KeepsRes s0 (execRetrainRetry chan s) := by
  unfold execRetrainRetry; simp +contextual (maxDischargeDepth := 99) [hK]

@[simp] theorem State.mr4Read_keeps {s0 s : State} {c : Nat} {temp : Nat} (hK : Keeps s0 s) :
    Keeps s0 (State.mr4Read s c temp) := by
  unfold State.mr4Read; simp +contextual (maxDischargeDepth := 99) [hK]

@[simp] theorem execMr4Read_keeps {s0 s : State} {chan : Nat} {temp : Nat} (hK : Keeps s0 s) :
    KeepsRes s0 (execMr4Read chan temp s) := by
  unfold execMr4Read; simp +contextual (maxDischargeDepth := 99) [hK]

@[simp] theorem execBankRefresh_keeps {s0 s : State} {_chan : Nat} {_bank : Nat} (hK : Keeps s0 s) :
    KeepsRes s0 (execBankRefresh _chan _bank s) := by
  unfold execBankRefresh; simp +contextual (maxDischargeDepth := 99) [hK]

@[simp] theorem State.eccInject_keeps {s0 s : State} {v : W32} (hK : Keeps s0 s) :
    Keeps s0 (State.eccInject s v) := by
  unfold State.eccInject; simp +contextual (maxDischargeDepth := 99) [hK]

@[simp] theorem execEccInject_keeps {s0 s : State} {value : W32} (hK : Keeps s0 s) :
    KeepsRes s0 (execEccInject value s) := by
  unfold execEccInject; simp +contextual (maxDischargeDepth := 99) [hK]

@[simp] theorem execUeAddrRearm_keeps {s0 s : State} {value : W32} (hK : Keeps s0 s) :
    KeepsRes s0 (execUeAddrRearm value s) := by
  unfold execUeAddrRearm; simp +contextual (maxDischargeDepth := 99) [hK]

@[simp] theorem State.memInitDone_keeps {s0 s : State} (hK : Keeps s0 s) : Keeps s0 (State.memInitDone s) := by
  unfold State.memInitDone
  split
  · exact hK
  · try dsimp only
    split
    · exact ⟨hK.1, fun g => mapFilter_wf _ _ _ (hK.2.1 g), hK.2.2⟩
    · exact keeps_foldl _ _ (fun s c h => State.bumpFld_keeps h) (keeps_update hK ..)

@[simp] theorem execMemInitDone_keeps {s0 s : State} (hK : Keeps s0 s) :
    KeepsRes s0 (execMemInitDone s) := by
  unfold execMemInitDone; simp +contextual (maxDischargeDepth := 99) [hK]

end Sys2Proof.Machine
end

