-- ==== Sys2Proof/Laws/KeepsHostReset.lean ====
section
/-! SUPPORT. What the operations of Machine/HostReset.lean keep (Laws/Keeps.lean). -/

set_option linter.unusedSimpArgs false

namespace Sys2Proof.Machine

@[simp] theorem State.returnBuffers_keeps {s0 s : State} {p : DRef → Bool} (hK : Keeps s0 s) :
    Keeps s0 (State.returnBuffers s p) := by
  unfold State.returnBuffers; simp +contextual (maxDischargeDepth := 99) [hK]

@[simp] theorem State.endRequests_keeps {s0 s : State} {p : DRef → Bool} {st : Nat} (hK : Keeps s0 s) :
    Keeps s0 (State.endRequests s p st) := by
  unfold State.endRequests; simp +contextual (maxDischargeDepth := 99) [hK]

@[simp] theorem State.disableRing_keeps {s0 s : State} {q : Nat} (hK : Keeps s0 s) :
    Keeps s0 (State.disableRing s q) := by
  unfold State.disableRing; simp +contextual (maxDischargeDepth := 99) [hK]

@[simp] theorem execBusMasterEnable_keeps {s0 s : State} {fn : Nat} (hK : Keeps s0 s) :
    KeepsRes s0 (execBusMasterEnable fn s) := by
  unfold execBusMasterEnable; simp +contextual (maxDischargeDepth := 99) [hK]

@[simp] theorem State.applyRctx_keeps {s0 s : State} (hK : Keeps s0 s) :
    Keeps s0 (State.applyRctx s) := by
  unfold State.applyRctx; dsimp only; (repeat' (first | (simp +contextual (maxDischargeDepth := 99) [hK]; done) | split))

@[simp] theorem State.rctxCommit_keeps {s0 s : State} {v : W32} (hK : Keeps s0 s) :
    Keeps s0 (State.rctxCommit s v) := by
  unfold State.rctxCommit; simp +contextual (maxDischargeDepth := 99) [hK]

@[simp] theorem execRingCommit_keeps {s0 s : State} {value : W32} (hK : Keeps s0 s) :
    KeepsRes s0 (execRingCommit value s) := by
  unfold execRingCommit; simp +contextual (maxDischargeDepth := 99) [hK]

@[simp] theorem State.flrRing_keeps {s0 s : State} {q : Nat} (hK : Keeps s0 s) :
    Keeps s0 (State.flrRing s q) := by
  unfold State.flrRing; simp +contextual (maxDischargeDepth := 99) [hK]

@[simp] theorem State.flrStart_keeps {s0 s : State} {f : Nat} (hK : Keeps s0 s) :
    Keeps s0 (State.flrStart s f) := by
  unfold State.flrStart; simp +contextual (maxDischargeDepth := 99) [hK]

@[simp] theorem State.functionReset_keeps {s0 s : State} {f : Nat} (hK : Keeps s0 s) :
    Keeps s0 (State.functionReset s f) := by
  unfold State.functionReset; simp +contextual (maxDischargeDepth := 99) [hK]

@[simp] theorem execFlr_keeps {s0 s : State} {fn : Nat} (hK : Keeps s0 s) :
    KeepsRes s0 (execFlr fn s) := by
  unfold execFlr; simp +contextual (maxDischargeDepth := 99) [hK]

@[simp] theorem State.flrDone_keeps {s0 s : State} {f : Nat} (hK : Keeps s0 s) :
    Keeps s0 (State.flrDone s f) := by
  unfold State.flrDone; simp +contextual (maxDischargeDepth := 99) [hK]

@[simp] theorem execFlrDone_keeps {s0 s : State} {fn : Nat} (hK : Keeps s0 s) :
    KeepsRes s0 (execFlrDone fn s) := by
  unfold execFlrDone; simp +contextual (maxDischargeDepth := 99) [hK]

@[simp] theorem State.abortArms_keeps {s0 s : State} {p : DRef → Bool} (hK : Keeps s0 s) :
    Keeps s0 (State.abortArms s p) := by
  unfold State.abortArms; simp +contextual (maxDischargeDepth := 99) [hK]

@[simp] theorem State.abortHostOps_keeps {s0 s : State} {p : DRef → Bool} (hK : Keeps s0 s) :
    Keeps s0 (State.abortHostOps s p) := by
  unfold State.abortHostOps; simp +contextual (maxDischargeDepth := 99) [hK]

@[simp] theorem State.abortLong_keeps {s0 s : State} {p : DRef → Bool} (hK : Keeps s0 s) : Keeps s0 (State.abortLong s p) := by
  unfold State.abortLong
  extract_lets +onlyGivenNames stops cap s1
  have h0 : Keeps s0 s1 := State.completeAll_keeps hK
  clear_value s1
  refine keeps_foldl _ _ (fun s m h => ?_) (keeps_foldl _ _ (fun s c h => ?_) h0)
  · simp only [keeps_ite]
    exact ⟨fun _ => State.complete_keeps (State.dropMigration_keeps h), fun _ => h⟩
  · split
    · simp only [keeps_ite]
      exact ⟨fun _ => State.pressEnd_keeps h, fun _ => h⟩
    · exact h

@[simp] theorem State.abortOpen_keeps {s0 s : State} {p : DRef → Bool} (hK : Keeps s0 s) :
    Keeps s0 (State.abortOpen s p) := by
  unfold State.abortOpen; simp +contextual (maxDischargeDepth := 99) [hK]

@[simp] theorem execFlrTimeout_keeps {s0 s : State} {fn : Nat} (hK : Keeps s0 s) :
    KeepsRes s0 (execFlrTimeout fn s) := by
  unfold execFlrTimeout; simp +contextual (maxDischargeDepth := 99) [hK]

@[simp] theorem State.raiseLinkDown_keeps {s0 s : State} (hK : Keeps s0 s) :
    Keeps s0 (State.raiseLinkDown s) := by
  unfold State.raiseLinkDown; simp +contextual (maxDischargeDepth := 99) [hK]

@[simp] theorem State.linkDown_keeps {s0 s : State} (hK : Keeps s0 s) :
    Keeps s0 (State.linkDown s) := by
  unfold State.linkDown; simp +contextual (maxDischargeDepth := 99) [hK]

@[simp] theorem execLinkDown_keeps {s0 s : State} (hK : Keeps s0 s) :
    KeepsRes s0 (execLinkDown s) := by
  unfold execLinkDown; simp +contextual (maxDischargeDepth := 99) [hK]

@[simp] theorem State.perst_keeps {s0 s : State} (hK : Keeps s0 s) :
    Keeps s0 (State.perst s) := by
  unfold State.perst; simp +contextual (maxDischargeDepth := 99) [hK]

@[simp] theorem execPerst_keeps {s0 s : State} (hK : Keeps s0 s) :
    KeepsRes s0 (execPerst s) := by
  unfold execPerst; simp +contextual (maxDischargeDepth := 99) [hK]

@[simp] theorem execDataLinkUp_keeps {s0 s : State} (hK : Keeps s0 s) :
    KeepsRes s0 (execDataLinkUp s) := by
  unfold execDataLinkUp; simp +contextual (maxDischargeDepth := 99) [hK]

end Sys2Proof.Machine
end

