-- ==== Sys2Proof/Laws/KeepsSpine.lean ====
section
/-! SUPPORT. What the operations of Machine/Spine.lean keep (Laws/Keeps.lean). -/

set_option linter.unusedSimpArgs false

namespace Sys2Proof.Machine

@[simp] theorem State.setArbiter_keeps {s0 s : State} {a : Nat} {x : Arbiter} (hK : Keeps s0 s) :
    Keeps s0 (State.setArbiter s a x) := by
  unfold State.setArbiter; simp +contextual (maxDischargeDepth := 99) [hK]

@[simp] theorem State.quireGone_keeps {s0 s : State} {q : Nat} (hK : Keeps s0 s) : Keeps s0 (State.quireGone s q) := by
  unfold State.quireGone
  refine keeps_foldl _ _ (fun t i ht => ?_) hK
  have hw : Keeps s0 (t.withdrawFetch (8 * q + i)) := State.withdrawFetch_keeps ht
  dsimp only
  split <;> first | exact State.cancelTask_keeps hw | exact hw

@[simp] theorem State.dropPresent_keeps {s0 s : State} {r : Nat} (hK : Keeps s0 s) :
    Keeps s0 (State.dropPresent s r) := by
  unfold State.dropPresent; simp +contextual (maxDischargeDepth := 99) [hK]

@[simp] theorem State.setPresent_keeps {s0 s : State} {r : Nat} {p : Bool} (hK : Keeps s0 s) :
    Keeps s0 (State.setPresent s r p) := by
  unfold State.setPresent; simp +contextual (maxDischargeDepth := 99) [hK]

@[simp] theorem State.settlePresent_keeps {s0 s : State} (hK : Keeps s0 s) :
    Keeps s0 (State.settlePresent s) := by
  unfold State.settlePresent; simp +contextual (maxDischargeDepth := 99) [hK]

@[simp] theorem State.arbiterGrant_keeps {s0 s : State} {a : Nat} {cycles : Nat} {arrived : List (Nat × Nat)} (hK : Keeps s0 s) :
    Keeps s0 (State.arbiterGrant s a cycles arrived) := by
  unfold State.arbiterGrant; dsimp only; (repeat' (first | (simp +contextual (maxDischargeDepth := 99) [hK]; done) | split))

@[simp] theorem execArbiterGrant_keeps {s0 s : State} {arbiter : Nat} {cycles : Nat} {arrived : List (Nat × Nat)} (hK : Keeps s0 s) :
    KeepsRes s0 (execArbiterGrant arbiter cycles arrived s) := by
  unfold execArbiterGrant; simp +contextual (maxDischargeDepth := 99) [hK]

@[simp] theorem execRankWrite_keeps {s0 s : State} {requester : Nat} {value : W32} (hK : Keeps s0 s) :
    KeepsRes s0 (execRankWrite requester value s) := by
  unfold execRankWrite; simp +contextual (maxDischargeDepth := 99) [hK]

@[simp] theorem execGrantHold_keeps {s0 s : State} {arbiter : Nat} {value : W32} (hK : Keeps s0 s) :
    KeepsRes s0 (execGrantHold arbiter value s) := by
  unfold execGrantHold; simp +contextual (maxDischargeDepth := 99) [hK]

@[simp] theorem execWaitmaxClear_keeps {s0 s : State} {arbiter : Nat} {value : W32} (hK : Keeps s0 s) :
    KeepsRes s0 (execWaitmaxClear arbiter value s) := by
  unfold execWaitmaxClear; simp +contextual (maxDischargeDepth := 99) [hK]

end Sys2Proof.Machine
end

