-- ==== Sys2Proof/Laws/KeepsLeafOps.lean ====
section
/-! SUPPORT. What the operations of Machine/LeafOps.lean keep (Laws/Keeps.lean). -/

set_option linter.unusedSimpArgs false

namespace Sys2Proof.Machine

@[simp] theorem State.haltLeaf_keeps {s0 s : State} {n : Nat} {cause : Nat} {held : Option Nat} (hK : Keeps s0 s) :
    Keeps s0 (State.haltLeaf s n cause held) := by
  unfold State.haltLeaf; dsimp only; (repeat' (first | (simp +contextual (maxDischargeDepth := 99) [hK]; done) | split))

@[simp] theorem State.linkOp_keeps {s0 s : State} {l0 : Leaf} {n : Nat} {op : COp} {rd : Nat} {ra : Nat} {rb : Nat} {imm : Nat} (hK : Keeps s0 s) :
    Keeps s0 (State.linkOp s l0 n op rd ra rb imm) := by
  unfold State.linkOp; split <;> simp +contextual (maxDischargeDepth := 99) [hK]

@[simp] theorem State.deliverWords_keeps {s0 s : State} {n : Nat} {pn : Nat} {l : List QWord} (hK : Keeps s0 s) :
    Keeps s0 (State.deliverWords s n pn l).1 := by
  induction l generalizing s with | nil => (unfold State.deliverWords; (repeat' (first | (simp +contextual (maxDischargeDepth := 99) [hK]; done) | split)); done) | cons a r ih => (unfold State.deliverWords; dsimp only; (repeat' (first | (simp +contextual (maxDischargeDepth := 99) [hK, ih]; done) | split)); done)

@[simp] theorem State.qpopEnd_keeps {s0 s : State} {n : Nat} {rd : Nat} {status : Nat} {len : Nat} {prio : Nat} {tag : Nat} (hK : Keeps s0 s) :
    Keeps s0 (State.qpopEnd s n rd status len prio tag) := by
  unfold State.qpopEnd; simp +contextual (maxDischargeDepth := 99) [hK]

@[simp] theorem State.qpopTry_keeps {s0 s : State} {n : Nat} {qid : Nat} {rd : Nat} {pn : Nat} (hK : Keeps s0 s) :
    Keeps s0 (State.qpopTry s n qid rd pn) := by
  unfold State.qpopTry; dsimp only; (repeat' (first | (simp +contextual (maxDischargeDepth := 99) [hK]; done) | split))

@[simp] theorem State.blockOn_keeps {s0 s : State} {n : Nat} {ops : List LeafOp} {w : LeafWait} (hK : Keeps s0 s) :
    Keeps s0 (State.blockOn s n ops w) := by
  unfold State.blockOn; simp +contextual (maxDischargeDepth := 99) [hK]

@[simp] theorem State.fetchOp_keeps {s0 s : State} {n : Nat} {cls : Nat} {ops : List LeafOp} (hK : Keeps s0 s) :
    Keeps s0 (State.fetchOp s n cls ops) := by
  unfold State.fetchOp; split <;> simp +contextual (maxDischargeDepth := 99) [hK]

@[simp] theorem State.releaseOp_keeps {s0 s : State} {n : Nat} {rd : Nat} {handover : Bool} {ops : List LeafOp} (hK : Keeps s0 s) :
    Keeps s0 (State.releaseOp s n rd handover ops) := by
  unfold State.releaseOp; dsimp only; (repeat' (first | (simp +contextual (maxDischargeDepth := 99) [hK]; done) | split))

@[simp] theorem State.qpopOp_keeps {s0 s : State} {n : Nat} {qid : Nat} {rd : Nat} {pn : Nat} {ops : List LeafOp} (hK : Keeps s0 s) :
    Keeps s0 (State.qpopOp s n qid rd pn ops) := by
  unfold State.qpopOp; simp +contextual (maxDischargeDepth := 99) [hK]

@[simp] theorem State.repeatOps_keeps {s0 s : State} {n : Nat} {count : Nat} {k : Nat} {ops : List LeafOp} (hK : Keeps s0 s) :
    Keeps s0 (State.repeatOps s n count k ops) := by
  induction k generalizing s n count ops with | zero => (unfold State.repeatOps; simp [hK]; done) | succ a ih => (unfold State.repeatOps; simp +contextual (maxDischargeDepth := 99) [hK, ih]; done)

@[simp] theorem State.retire_keeps {s0 s : State} {n : Nat} {pc : Nat} {rep : Option Nat} (hK : Keeps s0 s) :
    Keeps s0 (State.retire s n pc rep) := by
  unfold State.retire; simp +contextual (maxDischargeDepth := 99) [hK]

@[simp] theorem State.issueOnce_keeps {s0 s : State} {n : Nat} {ops : List LeafOp} {repeated : Bool} (hK : Keeps s0 s) :
    Keeps s0 (State.issueOnce s n ops repeated) := by
  unfold State.issueOnce; dsimp only; (repeat' (first | (simp +contextual (maxDischargeDepth := 99) [hK]; done) | split))

@[simp] theorem State.issueBundle_keeps {s0 s : State} {n : Nat} {ops : List LeafOp} (hK : Keeps s0 s) :
    Keeps s0 (State.issueBundle s n ops) := by
  unfold State.issueBundle; dsimp only; (repeat' (first | (simp +contextual (maxDischargeDepth := 99) [hK]; done) | split))

@[simp] theorem State.leafOp_keeps {s0 s : State} {n : Nat} {last : Bool} {op : LeafOp} (hK : Keeps s0 s) :
    Keeps s0 (State.leafOp s n last op) := by
  unfold State.leafOp; simp +contextual (maxDischargeDepth := 99) [hK]

@[simp] theorem leafRes_keeps {s0 s : State} {leaf : Nat} {last : Bool} {op : LeafOp} (hK : Keeps s0 s) :
    KeepsRes s0 (leafRes leaf last op s) := by
  unfold leafRes; simp +contextual (maxDischargeDepth := 99) [hK]

@[simp] theorem execVnop_keeps {s0 s : State} {leaf : Nat} {last : Bool} (hK : Keeps s0 s) :
    KeepsRes s0 (execVnop leaf last s) := by
  unfold execVnop; simp +contextual (maxDischargeDepth := 99) [hK]

@[simp] theorem execVadd_keeps {s0 s : State} {leaf : Nat} {last : Bool} {vd : Nat} {va : Nat} {vb : Nat} (hK : Keeps s0 s) :
    KeepsRes s0 (execVadd leaf last vd va vb s) := by
  unfold execVadd; simp +contextual (maxDischargeDepth := 99) [hK]

@[simp] theorem execVsub_keeps {s0 s : State} {leaf : Nat} {last : Bool} {vd : Nat} {va : Nat} {vb : Nat} (hK : Keeps s0 s) :
    KeepsRes s0 (execVsub leaf last vd va vb s) := by
  unfold execVsub; simp +contextual (maxDischargeDepth := 99) [hK]

@[simp] theorem execVneg_keeps {s0 s : State} {leaf : Nat} {last : Bool} {vd : Nat} {va : Nat} (hK : Keeps s0 s) :
    KeepsRes s0 (execVneg leaf last vd va s) := by
  unfold execVneg; simp +contextual (maxDischargeDepth := 99) [hK]

@[simp] theorem execVshl_keeps {s0 s : State} {leaf : Nat} {last : Bool} {vd : Nat} {va : Nat} {vx : Nat} (hK : Keeps s0 s) :
    KeepsRes s0 (execVshl leaf last vd va vx s) := by
  unfold execVshl; simp +contextual (maxDischargeDepth := 99) [hK]

@[simp] theorem execVshr_keeps {s0 s : State} {leaf : Nat} {last : Bool} {vd : Nat} {va : Nat} {vx : Nat} (hK : Keeps s0 s) :
    KeepsRes s0 (execVshr leaf last vd va vx s) := by
  unfold execVshr; simp +contextual (maxDischargeDepth := 99) [hK]

@[simp] theorem execVconj_keeps {s0 s : State} {leaf : Nat} {last : Bool} {vd : Nat} {va : Nat} (hK : Keeps s0 s) :
    KeepsRes s0 (execVconj leaf last vd va s) := by
  unfold execVconj; simp +contextual (maxDischargeDepth := 99) [hK]

@[simp] theorem execVmov_keeps {s0 s : State} {leaf : Nat} {last : Bool} {vd : Nat} {va : Nat} (hK : Keeps s0 s) :
    KeepsRes s0 (execVmov leaf last vd va s) := by
  unfold execVmov; simp +contextual (maxDischargeDepth := 99) [hK]

@[simp] theorem execVand_keeps {s0 s : State} {leaf : Nat} {last : Bool} {vd : Nat} {va : Nat} {vb : Nat} (hK : Keeps s0 s) :
    KeepsRes s0 (execVand leaf last vd va vb s) := by
  unfold execVand; simp +contextual (maxDischargeDepth := 99) [hK]

@[simp] theorem execVor_keeps {s0 s : State} {leaf : Nat} {last : Bool} {vd : Nat} {va : Nat} {vb : Nat} (hK : Keeps s0 s) :
    KeepsRes s0 (execVor leaf last vd va vb s) := by
  unfold execVor; simp +contextual (maxDischargeDepth := 99) [hK]

@[simp] theorem execVxor_keeps {s0 s : State} {leaf : Nat} {last : Bool} {vd : Nat} {va : Nat} {vb : Nat} (hK : Keeps s0 s) :
    KeepsRes s0 (execVxor leaf last vd va vb s) := by
  unfold execVxor; simp +contextual (maxDischargeDepth := 99) [hK]

@[simp] theorem execVmulj_keeps {s0 s : State} {leaf : Nat} {last : Bool} {vd : Nat} {va : Nat} (hK : Keeps s0 s) :
    KeepsRes s0 (execVmulj leaf last vd va s) := by
  unfold execVmulj; simp +contextual (maxDischargeDepth := 99) [hK]

@[simp] theorem execVbcast_keeps {s0 s : State} {leaf : Nat} {last : Bool} {vd : Nat} {va : Nat} {vx : Nat} (hK : Keeps s0 s) :
    KeepsRes s0 (execVbcast leaf last vd va vx s) := by
  unfold execVbcast; simp +contextual (maxDischargeDepth := 99) [hK]

@[simp] theorem execMulAdd_keeps {s0 s : State} {leaf : Nat} {last : Bool} {vd : Nat} {va : Nat} {vb : Nat} {vx : Nat} (hK : Keeps s0 s) :
    KeepsRes s0 (execMulAdd leaf last vd va vb vx s) := by
  unfold execMulAdd; simp +contextual (maxDischargeDepth := 99) [hK]

@[simp] theorem execMulSub_keeps {s0 s : State} {leaf : Nat} {last : Bool} {vd : Nat} {va : Nat} {vb : Nat} {vx : Nat} (hK : Keeps s0 s) :
    KeepsRes s0 (execMulSub leaf last vd va vb vx s) := by
  unfold execMulSub; simp +contextual (maxDischargeDepth := 99) [hK]

@[simp] theorem execMulSet_keeps {s0 s : State} {leaf : Nat} {last : Bool} {vd : Nat} {va : Nat} {vb : Nat} {vx : Nat} (hK : Keeps s0 s) :
    KeepsRes s0 (execMulSet leaf last vd va vb vx s) := by
  unfold execMulSet; simp +contextual (maxDischargeDepth := 99) [hK]

@[simp] theorem execMulNeg_keeps {s0 s : State} {leaf : Nat} {last : Bool} {vd : Nat} {va : Nat} {vb : Nat} {vx : Nat} (hK : Keeps s0 s) :
    KeepsRes s0 (execMulNeg leaf last vd va vb vx s) := by
  unfold execMulNeg; simp +contextual (maxDischargeDepth := 99) [hK]

@[simp] theorem execMulcAdd_keeps {s0 s : State} {leaf : Nat} {last : Bool} {vd : Nat} {va : Nat} {vb : Nat} {vx : Nat} (hK : Keeps s0 s) :
    KeepsRes s0 (execMulcAdd leaf last vd va vb vx s) := by
  unfold execMulcAdd; simp +contextual (maxDischargeDepth := 99) [hK]

@[simp] theorem execMulcSub_keeps {s0 s : State} {leaf : Nat} {last : Bool} {vd : Nat} {va : Nat} {vb : Nat} {vx : Nat} (hK : Keeps s0 s) :
    KeepsRes s0 (execMulcSub leaf last vd va vb vx s) := by
  unfold execMulcSub; simp +contextual (maxDischargeDepth := 99) [hK]

@[simp] theorem execMulcSet_keeps {s0 s : State} {leaf : Nat} {last : Bool} {vd : Nat} {va : Nat} {vb : Nat} {vx : Nat} (hK : Keeps s0 s) :
    KeepsRes s0 (execMulcSet leaf last vd va vb vx s) := by
  unfold execMulcSet; simp +contextual (maxDischargeDepth := 99) [hK]

@[simp] theorem execMulcNeg_keeps {s0 s : State} {leaf : Nat} {last : Bool} {vd : Nat} {va : Nat} {vb : Nat} {vx : Nat} (hK : Keeps s0 s) :
    KeepsRes s0 (execMulcNeg leaf last vd va vb vx s) := by
  unfold execMulcNeg; simp +contextual (maxDischargeDepth := 99) [hK]

@[simp] theorem execMulrAdd_keeps {s0 s : State} {leaf : Nat} {last : Bool} {vd : Nat} {va : Nat} {vb : Nat} {vx : Nat} (hK : Keeps s0 s) :
    KeepsRes s0 (execMulrAdd leaf last vd va vb vx s) := by
  unfold execMulrAdd; simp +contextual (maxDischargeDepth := 99) [hK]

@[simp] theorem execMulrSub_keeps {s0 s : State} {leaf : Nat} {last : Bool} {vd : Nat} {va : Nat} {vb : Nat} {vx : Nat} (hK : Keeps s0 s) :
    KeepsRes s0 (execMulrSub leaf last vd va vb vx s) := by
  unfold execMulrSub; simp +contextual (maxDischargeDepth := 99) [hK]

@[simp] theorem execMulrSet_keeps {s0 s : State} {leaf : Nat} {last : Bool} {vd : Nat} {va : Nat} {vb : Nat} {vx : Nat} (hK : Keeps s0 s) :
    KeepsRes s0 (execMulrSet leaf last vd va vb vx s) := by
  unfold execMulrSet; simp +contextual (maxDischargeDepth := 99) [hK]

@[simp] theorem execMulrNeg_keeps {s0 s : State} {leaf : Nat} {last : Bool} {vd : Nat} {va : Nat} {vb : Nat} {vx : Nat} (hK : Keeps s0 s) :
    KeepsRes s0 (execMulrNeg leaf last vd va vb vx s) := by
  unfold execMulrNeg; simp +contextual (maxDischargeDepth := 99) [hK]

@[simp] theorem execAclr_keeps {s0 s : State} {leaf : Nat} {last : Bool} {vd : Nat} (hK : Keeps s0 s) :
    KeepsRes s0 (execAclr leaf last vd s) := by
  unfold execAclr; simp +contextual (maxDischargeDepth := 99) [hK]

@[simp] theorem execSac_keeps {s0 s : State} {leaf : Nat} {last : Bool} {vd : Nat} {va : Nat} {vx : Nat} (hK : Keeps s0 s) :
    KeepsRes s0 (execSac leaf last vd va vx s) := by
  unfold execSac; simp +contextual (maxDischargeDepth := 99) [hK]

@[simp] theorem execAadd_keeps {s0 s : State} {leaf : Nat} {last : Bool} {vd : Nat} {va : Nat} (hK : Keeps s0 s) :
    KeepsRes s0 (execAadd leaf last vd va s) := by
  unfold execAadd; simp +contextual (maxDischargeDepth := 99) [hK]

@[simp] theorem execAmov_keeps {s0 s : State} {leaf : Nat} {last : Bool} {vd : Nat} {va : Nat} (hK : Keeps s0 s) :
    KeepsRes s0 (execAmov leaf last vd va s) := by
  unfold execAmov; simp +contextual (maxDischargeDepth := 99) [hK]

@[simp] theorem execAsum_keeps {s0 s : State} {leaf : Nat} {last : Bool} {vd : Nat} {va : Nat} (hK : Keeps s0 s) :
    KeepsRes s0 (execAsum leaf last vd va s) := by
  unfold execAsum; simp +contextual (maxDischargeDepth := 99) [hK]

@[simp] theorem execRepScalar_keeps {s0 s : State} {leaf : Nat} {last : Bool} {ga : Nat} (hK : Keeps s0 s) :
    KeepsRes s0 (execRepScalar leaf last ga s) := by
  unfold execRepScalar; simp +contextual (maxDischargeDepth := 99) [hK]

@[simp] theorem execAdd_keeps {s0 s : State} {leaf : Nat} {last : Bool} {gd : Nat} {ga : Nat} {gb : Nat} (hK : Keeps s0 s) :
    KeepsRes s0 (execAdd leaf last gd ga gb s) := by
  unfold execAdd; simp +contextual (maxDischargeDepth := 99) [hK]

@[simp] theorem execSub_keeps {s0 s : State} {leaf : Nat} {last : Bool} {gd : Nat} {ga : Nat} {gb : Nat} (hK : Keeps s0 s) :
    KeepsRes s0 (execSub leaf last gd ga gb s) := by
  unfold execSub; simp +contextual (maxDischargeDepth := 99) [hK]

@[simp] theorem execAnd_keeps {s0 s : State} {leaf : Nat} {last : Bool} {gd : Nat} {ga : Nat} {gb : Nat} (hK : Keeps s0 s) :
    KeepsRes s0 (execAnd leaf last gd ga gb s) := by
  unfold execAnd; simp +contextual (maxDischargeDepth := 99) [hK]

@[simp] theorem execOr_keeps {s0 s : State} {leaf : Nat} {last : Bool} {gd : Nat} {ga : Nat} {gb : Nat} (hK : Keeps s0 s) :
    KeepsRes s0 (execOr leaf last gd ga gb s) := by
  unfold execOr; simp +contextual (maxDischargeDepth := 99) [hK]

@[simp] theorem execXor_keeps {s0 s : State} {leaf : Nat} {last : Bool} {gd : Nat} {ga : Nat} {gb : Nat} (hK : Keeps s0 s) :
    KeepsRes s0 (execXor leaf last gd ga gb s) := by
  unfold execXor; simp +contextual (maxDischargeDepth := 99) [hK]

@[simp] theorem execShl_keeps {s0 s : State} {leaf : Nat} {last : Bool} {gd : Nat} {ga : Nat} {gb : Nat} (hK : Keeps s0 s) :
    KeepsRes s0 (execShl leaf last gd ga gb s) := by
  unfold execShl; simp +contextual (maxDischargeDepth := 99) [hK]

@[simp] theorem execSra_keeps {s0 s : State} {leaf : Nat} {last : Bool} {gd : Nat} {ga : Nat} {gb : Nat} (hK : Keeps s0 s) :
    KeepsRes s0 (execSra leaf last gd ga gb s) := by
  unfold execSra; simp +contextual (maxDischargeDepth := 99) [hK]

@[simp] theorem execCnop_keeps {s0 s : State} {leaf : Nat} {last : Bool} (hK : Keeps s0 s) :
    KeepsRes s0 (execCnop leaf last s) := by
  unfold execCnop; simp +contextual (maxDischargeDepth := 99) [hK]

@[simp] theorem execAddi_keeps {s0 s : State} {leaf : Nat} {last : Bool} {rd : Nat} {ra : Nat} {imm : Nat} (hK : Keeps s0 s) :
    KeepsRes s0 (execAddi leaf last rd ra imm s) := by
  unfold execAddi; simp +contextual (maxDischargeDepth := 99) [hK]

@[simp] theorem execMov_keeps {s0 s : State} {leaf : Nat} {last : Bool} {rd : Nat} {ra : Nat} (hK : Keeps s0 s) :
    KeepsRes s0 (execMov leaf last rd ra s) := by
  unfold execMov; simp +contextual (maxDischargeDepth := 99) [hK]

@[simp] theorem execMulg_keeps {s0 s : State} {leaf : Nat} {last : Bool} {rd : Nat} {ra : Nat} {rb : Nat} (hK : Keeps s0 s) :
    KeepsRes s0 (execMulg leaf last rd ra rb s) := by
  unfold execMulg; simp +contextual (maxDischargeDepth := 99) [hK]

@[simp] theorem execShr_keeps {s0 s : State} {leaf : Nat} {last : Bool} {rd : Nat} {ra : Nat} {rb : Nat} (hK : Keeps s0 s) :
    KeepsRes s0 (execShr leaf last rd ra rb s) := by
  unfold execShr; simp +contextual (maxDischargeDepth := 99) [hK]

@[simp] theorem execSlt_keeps {s0 s : State} {leaf : Nat} {last : Bool} {rd : Nat} {ra : Nat} {rb : Nat} (hK : Keeps s0 s) :
    KeepsRes s0 (execSlt leaf last rd ra rb s) := by
  unfold execSlt; simp +contextual (maxDischargeDepth := 99) [hK]

@[simp] theorem execSltu_keeps {s0 s : State} {leaf : Nat} {last : Bool} {rd : Nat} {ra : Nat} {rb : Nat} (hK : Keeps s0 s) :
    KeepsRes s0 (execSltu leaf last rd ra rb s) := by
  unfold execSltu; simp +contextual (maxDischargeDepth := 99) [hK]

@[simp] theorem execMin_keeps {s0 s : State} {leaf : Nat} {last : Bool} {rd : Nat} {ra : Nat} {rb : Nat} (hK : Keeps s0 s) :
    KeepsRes s0 (execMin leaf last rd ra rb s) := by
  unfold execMin; simp +contextual (maxDischargeDepth := 99) [hK]

@[simp] theorem execMax_keeps {s0 s : State} {leaf : Nat} {last : Bool} {rd : Nat} {ra : Nat} {rb : Nat} (hK : Keeps s0 s) :
    KeepsRes s0 (execMax leaf last rd ra rb s) := by
  unfold execMax; simp +contextual (maxDischargeDepth := 99) [hK]

@[simp] theorem execBr_keeps {s0 s : State} {leaf : Nat} {last : Bool} {imm : Nat} (hK : Keeps s0 s) :
    KeepsRes s0 (execBr leaf last imm s) := by
  unfold execBr; simp +contextual (maxDischargeDepth := 99) [hK]

@[simp] theorem execBeqz_keeps {s0 s : State} {leaf : Nat} {last : Bool} {ra : Nat} {imm : Nat} (hK : Keeps s0 s) :
    KeepsRes s0 (execBeqz leaf last ra imm s) := by
  unfold execBeqz; simp +contextual (maxDischargeDepth := 99) [hK]

@[simp] theorem execBnez_keeps {s0 s : State} {leaf : Nat} {last : Bool} {ra : Nat} {imm : Nat} (hK : Keeps s0 s) :
    KeepsRes s0 (execBnez leaf last ra imm s) := by
  unfold execBnez; simp +contextual (maxDischargeDepth := 99) [hK]

@[simp] theorem execBltz_keeps {s0 s : State} {leaf : Nat} {last : Bool} {ra : Nat} {imm : Nat} (hK : Keeps s0 s) :
    KeepsRes s0 (execBltz leaf last ra imm s) := by
  unfold execBltz; simp +contextual (maxDischargeDepth := 99) [hK]

@[simp] theorem execBgez_keeps {s0 s : State} {leaf : Nat} {last : Bool} {ra : Nat} {imm : Nat} (hK : Keeps s0 s) :
    KeepsRes s0 (execBgez leaf last ra imm s) := by
  unfold execBgez; simp +contextual (maxDischargeDepth := 99) [hK]

@[simp] theorem execJal_keeps {s0 s : State} {leaf : Nat} {last : Bool} {rd : Nat} {imm : Nat} (hK : Keeps s0 s) :
    KeepsRes s0 (execJal leaf last rd imm s) := by
  unfold execJal; simp +contextual (maxDischargeDepth := 99) [hK]

@[simp] theorem execJr_keeps {s0 s : State} {leaf : Nat} {last : Bool} {ra : Nat} (hK : Keeps s0 s) :
    KeepsRes s0 (execJr leaf last ra s) := by
  unfold execJr; simp +contextual (maxDischargeDepth := 99) [hK]

@[simp] theorem execBabt_keeps {s0 s : State} {leaf : Nat} {last : Bool} {imm : Nat} (hK : Keeps s0 s) :
    KeepsRes s0 (execBabt leaf last imm s) := by
  unfold execBabt; simp +contextual (maxDischargeDepth := 99) [hK]

@[simp] theorem execRep_keeps {s0 s : State} {leaf : Nat} {last : Bool} {count : Nat} (hK : Keeps s0 s) :
    KeepsRes s0 (execRep leaf last count s) := by
  unfold execRep; simp +contextual (maxDischargeDepth := 99) [hK]

@[simp] theorem execStatw_keeps {s0 s : State} {leaf : Nat} {last : Bool} {imm : Nat} (hK : Keeps s0 s) :
    KeepsRes s0 (execStatw leaf last imm s) := by
  unfold execStatw; simp +contextual (maxDischargeDepth := 99) [hK]

@[simp] theorem execStatr_keeps {s0 s : State} {leaf : Nat} {last : Bool} {rd : Nat} {imm : Nat} (hK : Keeps s0 s) :
    KeepsRes s0 (execStatr leaf last rd imm s) := by
  unfold execStatr; simp +contextual (maxDischargeDepth := 99) [hK]

@[simp] theorem execHalt_keeps {s0 s : State} {leaf : Nat} {last : Bool} (hK : Keeps s0 s) :
    KeepsRes s0 (execHalt leaf last s) := by
  unfold execHalt; simp +contextual (maxDischargeDepth := 99) [hK]

@[simp] theorem execMovi_keeps {s0 s : State} {leaf : Nat} {last : Bool} {rd : Nat} {value : W32} (hK : Keeps s0 s) :
    KeepsRes s0 (execMovi leaf last rd value s) := by
  unfold execMovi; simp +contextual (maxDischargeDepth := 99) [hK]

@[simp] theorem execAddw_keeps {s0 s : State} {leaf : Nat} {last : Bool} {rd : Nat} {value : W32} (hK : Keeps s0 s) :
    KeepsRes s0 (execAddw leaf last rd value s) := by
  unfold execAddw; simp +contextual (maxDischargeDepth := 99) [hK]

@[simp] theorem execLd_keeps {s0 s : State} {leaf : Nat} {last : Bool} {x : Bool} {w : Nat} {pn : Nat} {reg : Nat} (hK : Keeps s0 s) :
    KeepsRes s0 (execLd leaf last x w pn reg s) := by
  unfold execLd; simp +contextual (maxDischargeDepth := 99) [hK]

@[simp] theorem execSt_keeps {s0 s : State} {leaf : Nat} {last : Bool} {x : Bool} {w : Nat} {pn : Nat} {reg : Nat} (hK : Keeps s0 s) :
    KeepsRes s0 (execSt leaf last x w pn reg s) := by
  unfold execSt; simp +contextual (maxDischargeDepth := 99) [hK]

@[simp] theorem execLdk_keeps {s0 s : State} {leaf : Nat} {last : Bool} {x : Bool} {w : Nat} {pn : Nat} {reg : Nat} (hK : Keeps s0 s) :
    KeepsRes s0 (execLdk leaf last x w pn reg s) := by
  unfold execLdk; simp +contextual (maxDischargeDepth := 99) [hK]

@[simp] theorem execLdWide_keeps {s0 s : State} {leaf : Nat} {last : Bool} {x : Bool} {w : Nat} {pn : Nat} {reg : Nat} {u : Bool} {sh : Nat} {off : Nat} (hK : Keeps s0 s) :
    KeepsRes s0 (execLdWide leaf last x w pn reg u sh off s) := by
  unfold execLdWide; simp +contextual (maxDischargeDepth := 99) [hK]

@[simp] theorem execStWide_keeps {s0 s : State} {leaf : Nat} {last : Bool} {x : Bool} {w : Nat} {pn : Nat} {reg : Nat} {u : Bool} {sh : Nat} {off : Nat} (hK : Keeps s0 s) :
    KeepsRes s0 (execStWide leaf last x w pn reg u sh off s) := by
  unfold execStWide; simp +contextual (maxDischargeDepth := 99) [hK]

@[simp] theorem execLdg_keeps {s0 s : State} {leaf : Nat} {last : Bool} {x : Bool} {w : Nat} {pn : Nat} {reg : Nat} {u : Bool} {sh : Nat} {off : Nat} (hK : Keeps s0 s) :
    KeepsRes s0 (execLdg leaf last x w pn reg u sh off s) := by
  unfold execLdg; simp +contextual (maxDischargeDepth := 99) [hK]

@[simp] theorem execStg_keeps {s0 s : State} {leaf : Nat} {last : Bool} {x : Bool} {w : Nat} {pn : Nat} {reg : Nat} {u : Bool} {sh : Nat} {off : Nat} (hK : Keeps s0 s) :
    KeepsRes s0 (execStg leaf last x w pn reg u sh off s) := by
  unfold execStg; simp +contextual (maxDischargeDepth := 99) [hK]

@[simp] theorem execSta_keeps {s0 s : State} {leaf : Nat} {last : Bool} {x : Bool} {w : Nat} {pn : Nat} {reg : Nat} {u : Bool} {sh : Nat} {off : Nat} (hK : Keeps s0 s) :
    KeepsRes s0 (execSta leaf last x w pn reg u sh off s) := by
  unfold execSta; simp +contextual (maxDischargeDepth := 99) [hK]

@[simp] theorem execFetch_keeps {s0 s : State} {leaf : Nat} {last : Bool} {imm : Nat} (hK : Keeps s0 s) :
    KeepsRes s0 (execFetch leaf last imm s) := by
  unfold execFetch; simp +contextual (maxDischargeDepth := 99) [hK]

@[simp] theorem execQpop_keeps {s0 s : State} {leaf : Nat} {last : Bool} {rd : Nat} {ra : Nat} {imm : Nat} (hK : Keeps s0 s) :
    KeepsRes s0 (execQpop leaf last rd ra imm s) := by
  unfold execQpop; simp +contextual (maxDischargeDepth := 99) [hK]

@[simp] theorem execQpush_keeps {s0 s : State} {leaf : Nat} {last : Bool} {ra : Nat} {rb : Nat} {imm : Nat} (hK : Keeps s0 s) :
    KeepsRes s0 (execQpush leaf last ra rb imm s) := by
  unfold execQpush; simp +contextual (maxDischargeDepth := 99) [hK]

@[simp] theorem execQcommit_keeps {s0 s : State} {leaf : Nat} {last : Bool} {rd : Nat} {ra : Nat} (hK : Keeps s0 s) :
    KeepsRes s0 (execQcommit leaf last rd ra s) := by
  unfold execQcommit; simp +contextual (maxDischargeDepth := 99) [hK]

@[simp] theorem execQrewind_keeps {s0 s : State} {leaf : Nat} {last : Bool} {ra : Nat} (hK : Keeps s0 s) :
    KeepsRes s0 (execQrewind leaf last ra s) := by
  unfold execQrewind; simp +contextual (maxDischargeDepth := 99) [hK]

@[simp] theorem execSignal_keeps {s0 s : State} {leaf : Nat} {last : Bool} {ra : Nat} {rb : Nat} (hK : Keeps s0 s) :
    KeepsRes s0 (execSignal leaf last ra rb s) := by
  unfold execSignal; simp +contextual (maxDischargeDepth := 99) [hK]

@[simp] theorem execRelease_keeps {s0 s : State} {leaf : Nat} {last : Bool} {rd : Nat} {imm : Nat} (hK : Keeps s0 s) :
    KeepsRes s0 (execRelease leaf last rd imm s) := by
  unfold execRelease; simp +contextual (maxDischargeDepth := 99) [hK]

@[simp] theorem execQpopComplete_keeps {s0 s : State} {leaf : Nat} (hK : Keeps s0 s) :
    KeepsRes s0 (execQpopComplete leaf s) := by
  unfold execQpopComplete; refine State.whenClocked_keeps (fun s hK => ?_) hK; (repeat' (first | (simp +contextual (maxDischargeDepth := 99) [hK]; done) | split))

@[simp] theorem State.wakeStatus_keeps {s0 s : State} {n : Nat} (hK : Keeps s0 s) :
    Keeps s0 (State.wakeStatus s n) := by
  unfold State.wakeStatus; simp +contextual (maxDischargeDepth := 99) [hK]

@[simp] theorem execQcommitStatus_keeps {s0 s : State} {leaf : Nat} (hK : Keeps s0 s) :
    KeepsRes s0 (execQcommitStatus leaf s) := by
  unfold execQcommitStatus; refine State.whenClocked_keeps (fun s hK => ?_) hK; dsimp only; (repeat' (first | (simp +contextual (maxDischargeDepth := 99) [hK]; done) | split))

@[simp] theorem State.haltRequest_keeps {s0 s : State} {n : Nat} (hK : Keeps s0 s) :
    Keeps s0 (State.haltRequest s n) := by
  unfold State.haltRequest; simp +contextual (maxDischargeDepth := 99) [hK]

@[simp] theorem execHaltRequest_keeps {s0 s : State} {leaf : Nat} (hK : Keeps s0 s) :
    KeepsRes s0 (execHaltRequest leaf s) := by
  unfold execHaltRequest; simp +contextual (maxDischargeDepth := 99) [hK]

@[simp] theorem State.debugHalt_keeps {s0 s : State} {n : Nat} {dispatched : Bool} (hK : Keeps s0 s) :
    Keeps s0 (State.debugHalt s n dispatched) := by
  unfold State.debugHalt; dsimp only; (repeat' (first | (simp +contextual (maxDischargeDepth := 99) [hK]; done) | split))

@[simp] theorem execDebugHalt_keeps {s0 s : State} {leaf : Nat} {dispatched : Bool} (hK : Keeps s0 s) :
    KeepsRes s0 (execDebugHalt leaf dispatched s) := by
  unfold execDebugHalt; simp +contextual (maxDischargeDepth := 99) [hK]

@[simp] theorem State.goOn_keeps {s0 s : State} {n : Nat} {stepping : Bool} (hK : Keeps s0 s) :
    Keeps s0 (State.goOn s n stepping) := by
  unfold State.goOn; dsimp only; (repeat' (first | (simp +contextual (maxDischargeDepth := 99) [hK]; done) | split))

@[simp] theorem State.resume_keeps {s0 s : State} {n : Nat} (hK : Keeps s0 s) :
    Keeps s0 (State.resume s n) := by
  unfold State.resume; simp +contextual (maxDischargeDepth := 99) [hK]

@[simp] theorem execResume_keeps {s0 s : State} {leaf : Nat} (hK : Keeps s0 s) :
    KeepsRes s0 (execResume leaf s) := by
  unfold execResume; simp +contextual (maxDischargeDepth := 99) [hK]

@[simp] theorem State.debugStep_keeps {s0 s : State} {n : Nat} (hK : Keeps s0 s) :
    Keeps s0 (State.debugStep s n) := by
  unfold State.debugStep; simp +contextual (maxDischargeDepth := 99) [hK]

@[simp] theorem execDebugStep_keeps {s0 s : State} {leaf : Nat} (hK : Keeps s0 s) :
    KeepsRes s0 (execDebugStep leaf s) := by
  unfold execDebugStep; simp +contextual (maxDischargeDepth := 99) [hK]

@[simp] theorem State.dbgRegWrite_keeps {s0 s : State} {n : Nat} {x : W32} (hK : Keeps s0 s) :
    Keeps s0 (State.dbgRegWrite s n x) := by
  unfold State.dbgRegWrite; simp +contextual (maxDischargeDepth := 99) [hK]

@[simp] theorem execDbgRegWrite_keeps {s0 s : State} {leaf : Nat} {value : W32} (hK : Keeps s0 s) :
    KeepsRes s0 (execDbgRegWrite leaf value s) := by
  unfold execDbgRegWrite; simp +contextual (maxDischargeDepth := 99) [hK]

@[simp] theorem State.rewindLeaf_keeps {s0 s : State} {n : Nat} (hK : Keeps s0 s) :
    Keeps s0 (State.rewindLeaf s n) := by
  unfold State.rewindLeaf; simp +contextual (maxDischargeDepth := 99) [hK]

@[simp] theorem State.resetLeaf_keeps {s0 s : State} {n : Nat} (hK : Keeps s0 s) :
    Keeps s0 (State.resetLeaf s n) := by
  unfold State.resetLeaf; dsimp only; (repeat' (first | (simp +contextual (maxDischargeDepth := 99) [hK]; done) | split))

@[simp] theorem State.quirePresent_keeps {s0 s : State} {q : Nat} {isolated : Bool} (hK : Keeps s0 s) :
    Keeps s0 (State.quirePresent s q isolated) := by
  unfold State.quirePresent; simp +contextual (maxDischargeDepth := 99) [hK]

@[simp] theorem State.writeLeafCtrl_keeps {s0 s : State} {q : Nat} {v : W32} {isolated : Bool} (hK : Keeps s0 s) :
    Keeps s0 (State.writeLeafCtrl s q v isolated) := by
  unfold State.writeLeafCtrl; simp +contextual (maxDischargeDepth := 99) [hK]

end Sys2Proof.Machine
end

