-- ==== Sys2Proof/Laws/KeepsPower.lean ====
section
/-! SUPPORT. What the operations of Machine/Power.lean keep (Laws/Keeps.lean). -/

set_option linter.unusedSimpArgs false

namespace Sys2Proof.Machine

@[simp] theorem State.externalDone_keeps {s0 s : State} {q : Nat} (hK : Keeps s0 s) :
    Keeps s0 (State.externalDone s q) := by
  unfold State.externalDone; simp +contextual (maxDischargeDepth := 99) [hK]

@[simp] theorem State.startEntry_keeps {s0 s : State} {d : Nat} {toDoze : Bool} (hK : Keeps s0 s) :
    Keeps s0 (State.startEntry s d toDoze) := by
  unfold State.startEntry; simp +contextual (maxDischargeDepth := 99) [hK]

@[simp] theorem State.clusterRequest_keeps {s0 s : State} {d : Nat} {req : Nat} (hK : Keeps s0 s) :
    Keeps s0 (State.clusterRequest s d req) := by
  unfold State.clusterRequest; dsimp only; (repeat' (first | (simp +contextual (maxDischargeDepth := 99) [hK]; done) | split))

@[simp] theorem State.applyRequest_keeps {s0 s : State} {d : Nat} (hK : Keeps s0 s) :
    Keeps s0 (State.applyRequest s d) := by
  unfold State.applyRequest; split <;> simp +contextual (maxDischargeDepth := 99) [hK]

@[simp] theorem State.writeClCtrl_keeps {s0 s : State} {d : Nat} {v : W32} (hK : Keeps s0 s) :
    Keeps s0 (State.writeClCtrl s d v) := by
  unfold State.writeClCtrl; simp +contextual (maxDischargeDepth := 99) [hK]

@[simp] theorem requestRow_keeps {s0 s : State} {req : Nat} {cluster : Nat} {value : W32} (hK : Keeps s0 s) :
    KeepsRes s0 (requestRow req cluster value s) := by
  unfold requestRow; simp +contextual (maxDischargeDepth := 99) [hK]

@[simp] theorem execRequestNap_keeps {s0 s : State} {cluster : Nat} {value : W32} (hK : Keeps s0 s) :
    KeepsRes s0 (execRequestNap cluster value s) := by
  unfold execRequestNap; simp +contextual (maxDischargeDepth := 99) [hK]

@[simp] theorem execRequestDoze_keeps {s0 s : State} {cluster : Nat} {value : W32} (hK : Keeps s0 s) :
    KeepsRes s0 (execRequestDoze cluster value s) := by
  unfold execRequestDoze; simp +contextual (maxDischargeDepth := 99) [hK]

@[simp] theorem execRequestRun_keeps {s0 s : State} {cluster : Nat} {value : W32} (hK : Keeps s0 s) :
    KeepsRes s0 (execRequestRun cluster value s) := by
  unfold execRequestRun; simp +contextual (maxDischargeDepth := 99) [hK]

@[simp] theorem execAutoNap_keeps {s0 s : State} {cluster : Nat} (hK : Keeps s0 s) :
    KeepsRes s0 (execAutoNap cluster s) := by
  unfold execAutoNap; simp +contextual (maxDischargeDepth := 99) [hK]

@[simp] theorem State.refuseEntry_keeps {s0 s : State} {d : Nat} {unit : Nat} (hK : Keeps s0 s) :
    Keeps s0 (State.refuseEntry s d unit) := by
  unfold State.refuseEntry; simp +contextual (maxDischargeDepth := 99) [hK]

@[simp] theorem State.noteWakeInEntry_keeps {s0 s : State} {d : Nat} (hK : Keeps s0 s) :
    Keeps s0 (State.noteWakeInEntry s d) := by
  unfold State.noteWakeInEntry; simp +contextual (maxDischargeDepth := 99) [hK]

@[simp] theorem State.napDone_keeps {s0 s : State} {d : Nat} (hK : Keeps s0 s) :
    Keeps s0 (State.napDone s d) := by
  unfold State.napDone; simp +contextual (maxDischargeDepth := 99) [hK]

@[simp] theorem State.setClamps_keeps {s0 s : State} {d : Nat} (hK : Keeps s0 s) :
    Keeps s0 (State.setClamps s d) := by
  unfold State.setClamps; simp +contextual (maxDischargeDepth := 99) [hK]

@[simp] theorem State.acceptEntry_keeps {s0 s : State} {d : Nat} {unit : Nat} (hK : Keeps s0 s) :
    Keeps s0 (State.acceptEntry s d unit) := by
  unfold State.acceptEntry; simp +contextual (maxDischargeDepth := 99) [hK]

@[simp] theorem State.askUnit_keeps {s0 s : State} {d : Nat} {unit : Nat} (hK : Keeps s0 s) :
    Keeps s0 (State.askUnit s d unit) := by
  unfold State.askUnit; simp +contextual (maxDischargeDepth := 99) [hK]

@[simp] theorem State.clusterAnswer_keeps {s0 s : State} {d : Nat} {unit : Nat} (hK : Keeps s0 s) :
    Keeps s0 (State.clusterAnswer s d unit) := by
  unfold State.clusterAnswer; simp +contextual (maxDischargeDepth := 99) [hK]

@[simp] theorem State.enterHibernate_keeps {s0 s : State} (hK : Keeps s0 s) :
    Keeps s0 (State.enterHibernate s) := by
  unfold State.enterHibernate; simp +contextual (maxDischargeDepth := 99) [hK]

@[simp] theorem State.requestHibernate_keeps {s0 s : State} (hK : Keeps s0 s) :
    Keeps s0 (State.requestHibernate s) := by
  unfold State.requestHibernate; simp +contextual (maxDischargeDepth := 99) [hK]

@[simp] theorem State.refuseHibernate_keeps {s0 s : State} {b : Nat} (hK : Keeps s0 s) :
    Keeps s0 (State.refuseHibernate s b) := by
  unfold State.refuseHibernate; simp +contextual (maxDischargeDepth := 99) [hK]

@[simp] theorem State.hibAnswer_keeps {s0 s : State} {b : Nat} (hK : Keeps s0 s) :
    Keeps s0 (State.hibAnswer s b) := by
  unfold State.hibAnswer; simp +contextual (maxDischargeDepth := 99) [hK]

@[simp] theorem execHandshakeAnswer_keeps {s0 s : State} {hib : Bool} {cluster : Nat} {unit : Nat} (hK : Keeps s0 s) :
    KeepsRes s0 (execHandshakeAnswer hib cluster unit s) := by
  unfold execHandshakeAnswer; simp +contextual (maxDischargeDepth := 99) [hK]

@[simp] theorem execHandshakeDelayLimit_keeps {s0 s : State} {hib : Bool} {cluster : Nat} {unit : Nat} (hK : Keeps s0 s) :
    KeepsRes s0 (execHandshakeDelayLimit hib cluster unit s) := by
  unfold execHandshakeDelayLimit; simp +contextual (maxDischargeDepth := 99) [hK]

@[simp] theorem State.writeHibCtrl_keeps {s0 s : State} {v : W32} (hK : Keeps s0 s) :
    Keeps s0 (State.writeHibCtrl s v) := by
  unfold State.writeHibCtrl; simp +contextual (maxDischargeDepth := 99) [hK]

@[simp] theorem execHibernateEnter_keeps {s0 s : State} {value : W32} (hK : Keeps s0 s) :
    KeepsRes s0 (execHibernateEnter value s) := by
  unfold execHibernateEnter; simp +contextual (maxDischargeDepth := 99) [hK]

@[simp] theorem State.dozeDone_keeps {s0 s : State} {d : Nat} (hK : Keeps s0 s) :
    Keeps s0 (State.dozeDone s d) := by
  unfold State.dozeDone; simp +contextual (maxDischargeDepth := 99) [hK]

@[simp] theorem execDozeEntryDone_keeps {s0 s : State} {cluster : Nat} (hK : Keeps s0 s) :
    KeepsRes s0 (execDozeEntryDone cluster s) := by
  unfold execDozeEntryDone; simp +contextual (maxDischargeDepth := 99) [hK]

@[simp] theorem State.forgetRegs_keeps {s0 s : State} {p : Nat → Bool} (hK : Keeps s0 s) : Keeps s0 (State.forgetRegs s p) :=
  ⟨hK.1, hK.2.1, fun g => mapFilter_wf _ _ _ (hK.2.2.1 g), hK.2.2.2⟩

@[simp] theorem State.zeroMem_keeps {s0 s : State} {lo n : Nat} (hK : Keeps s0 s) : Keeps s0 (State.zeroMem s lo n) :=
  ⟨hK.1, fun g => mapFilter_wf _ _ _ (hK.2.1 g), hK.2.2⟩

@[simp] theorem State.zeroBanks_keeps {s0 s : State} {q : Nat} {banks : Nat} (hK : Keeps s0 s) :
    Keeps s0 (State.zeroBanks s q banks) := by
  unfold State.zeroBanks; simp +contextual (maxDischargeDepth := 99) [hK]

@[simp] theorem State.restoreCluster_keeps {s0 s : State} {d : Nat} {save : Bool} {banks : Nat} (hK : Keeps s0 s) :
    Keeps s0 (State.restoreCluster s d save banks) := by
  unfold State.restoreCluster; simp +contextual (maxDischargeDepth := 99) [hK]

@[simp] theorem State.refetch_keeps {s0 s : State} {q : Nat} (hK : Keeps s0 s) : Keeps s0 (State.refetch s q) := by
  unfold State.refetch
  refine keeps_foldl _ _ (fun s i h => ?_) hK
  try dsimp only
  split
  · split
    · exact h
    · exact State.addFetch_keeps h
  · exact h

@[simp] theorem State.trainOwned_keeps {s0 s : State} {d : Nat} (hK : Keeps s0 s) :
    Keeps s0 (State.trainOwned s d) := by
  unfold State.trainOwned; simp +contextual (maxDischargeDepth := 99) [hK]

@[simp] theorem State.exitDone_keeps {s0 s : State} {d : Nat} (hK : Keeps s0 s) :
    Keeps s0 (State.exitDone s d) := by
  unfold State.exitDone; simp +contextual (maxDischargeDepth := 99) [hK]

@[simp] theorem execExitDone_keeps {s0 s : State} {cluster : Nat} (hK : Keeps s0 s) :
    KeepsRes s0 (execExitDone cluster s) := by
  unfold execExitDone; simp +contextual (maxDischargeDepth := 99) [hK]

@[simp] theorem State.napWake_keeps {s0 s : State} {d : Nat} (hK : Keeps s0 s) :
    Keeps s0 (State.napWake s d) := by
  unfold State.napWake; simp +contextual (maxDischargeDepth := 99) [hK]

@[simp] theorem execNapWake_keeps {s0 s : State} {cluster : Nat} (hK : Keeps s0 s) :
    KeepsRes s0 (execNapWake cluster s) := by
  unfold execNapWake; simp +contextual (maxDischargeDepth := 99) [hK]

end Sys2Proof.Machine
end

