-- ==== Sys2Proof/Laws/KeepsBar0.lean ====
section
/-! SUPPORT. What the operations of Machine/Bar0.lean keep (Laws/Keeps.lean). -/

set_option linter.unusedSimpArgs false

namespace Sys2Proof.Machine

@[simp] theorem State.settleRead_keeps {s0 s : State} {a : Nat} (hK : Keeps s0 s) :
    Keeps s0 (State.settleRead s a) := by
  unfold State.settleRead; (repeat' (first | (simp +contextual (maxDischargeDepth := 99) [hK]; done) | split))

@[simp] theorem State.hostReadReg_keeps {s0 s : State} {a : Nat} {width : Nat} (hK : Keeps s0 s) :
    Keeps s0 (State.hostReadReg s a width) := by
  unfold State.hostReadReg; simp +contextual (maxDischargeDepth := 99) [hK]

@[simp] theorem State.hostAccess_keeps {s0 s : State} {fn : Nat} {what : HostAccess} (hK : Keeps s0 s) :
    Keeps s0 (State.hostAccess s fn what) := by
  unfold State.hostAccess; (repeat' (first | (simp +contextual (maxDischargeDepth := 99) [hK]; done) | split))

@[simp] theorem execLowHalfRead_keeps {s0 s : State} {read : HostRead} (hK : Keeps s0 s) :
    KeepsRes s0 (execLowHalfRead read s) := by
  unfold execLowHalfRead; simp +contextual (maxDischargeDepth := 99) [hK]

@[simp] theorem execTimeTripleRead_keeps {s0 s : State} {addr : Nat} (hK : Keeps s0 s) :
    KeepsRes s0 (execTimeTripleRead addr s) := by
  unfold execTimeTripleRead; simp +contextual (maxDischargeDepth := 99) [hK]

@[simp] theorem State.writeRctxClamp_keeps {s0 s : State} {v : W32} (hK : Keeps s0 s) :
    Keeps s0 (State.writeRctxClamp s v) := by
  unfold State.writeRctxClamp; simp +contextual (maxDischargeDepth := 99) [hK]

@[simp] theorem State.writeDbgCtrl_keeps {s0 s : State} {n : Nat} {v : W32} (hK : Keeps s0 s) :
    Keeps s0 (State.writeDbgCtrl s n v) := by
  unfold State.writeDbgCtrl; simp +contextual (maxDischargeDepth := 99) [hK]

@[simp] theorem State.writeDbgSel_keeps {s0 s : State} {a : Nat} {v : W32} (hK : Keeps s0 s) :
    Keeps s0 (State.writeDbgSel s a v) := by
  unfold State.writeDbgSel; simp +contextual (maxDischargeDepth := 99) [hK]

@[simp] theorem State.writeHibTimer_keeps {s0 s : State} {a : Nat} {v : W32} (hK : Keeps s0 s) :
    Keeps s0 (State.writeHibTimer s a v) := by
  unfold State.writeHibTimer; simp +contextual (maxDischargeDepth := 99) [hK]

@[simp] theorem State.writeThermCfg_keeps {s0 s : State} {v : W32} (hK : Keeps s0 s) :
    Keeps s0 (State.writeThermCfg s v) := by
  unfold State.writeThermCfg; simp +contextual (maxDischargeDepth := 99) [hK]

@[simp] theorem State.writeMbCtrl_keeps {s0 s : State} {v : W32} (hK : Keeps s0 s) :
    Keeps s0 (State.writeMbCtrl s v) := by
  unfold State.writeMbCtrl; simp +contextual (maxDischargeDepth := 99) [hK]

@[simp] theorem State.regWrite_keeps {s0 s : State} {d : RegDef} {i : Nat} {j : Nat} {a : Nat} {v : W32} (hK : Keeps s0 s) :
    Keeps s0 (State.regWrite s d i j a v) := by
  unfold State.regWrite; split <;> simp +contextual (maxDischargeDepth := 99) [hK]

@[simp] theorem State.writeMsixWord_keeps {s0 s : State} {vec : Nat} {k : Nat} {v : W32} (hK : Keeps s0 s) :
    Keeps s0 (State.writeMsixWord s vec k v) := by
  unfold State.writeMsixWord; simp +contextual (maxDischargeDepth := 99) [hK]

@[simp] theorem State.writeMsix_keeps {s0 s : State} {f : Nat} {o : Nat} {width : Nat} {v : W64} (hK : Keeps s0 s) :
    Keeps s0 (State.writeMsix s f o width v) := by
  unfold State.writeMsix; simp +contextual (maxDischargeDepth := 99) [hK]

@[simp] theorem State.bar0Put_keeps {s0 s : State} {a : Nat} {width : Nat} {v : W64} (hK : Keeps s0 s) :
    Keeps s0 (State.bar0Put s a width v) := by
  unfold State.bar0Put; (repeat' (first | (simp +contextual (maxDischargeDepth := 99) [hK]; done) | split))

@[simp] theorem State.bar0Write_keeps {s0 s : State} {a : Nat} {width : Nat} {v : W64} (hK : Keeps s0 s) :
    Keeps s0 (State.bar0Write s a width v) := by
  unfold State.bar0Write; simp +contextual (maxDischargeDepth := 99) [hK]

@[simp] theorem execRegisterWrite_keeps {s0 s : State} {fn : Nat} {addr : Nat} {width : Nat} {value : W64} (hK : Keeps s0 s) :
    KeepsRes s0 (execRegisterWrite fn addr width value s) := by
  unfold execRegisterWrite; simp +contextual (maxDischargeDepth := 99) [hK]

@[simp] theorem execSetupLock_keeps {s0 s : State} {value : W32} (hK : Keeps s0 s) :
    KeepsRes s0 (execSetupLock value s) := by
  unfold execSetupLock; simp +contextual (maxDischargeDepth := 99) [hK]

@[simp] theorem execClampCountClear_keeps {s0 s : State} {addr : Nat} {value : W32} (hK : Keeps s0 s) :
    KeepsRes s0 (execClampCountClear addr value s) := by
  unfold execClampCountClear; split <;> simp +contextual (maxDischargeDepth := 99) [hK]

@[simp] theorem execRefSelect_keeps {s0 s : State} {value : W32} (hK : Keeps s0 s) :
    KeepsRes s0 (execRefSelect value s) := by
  unfold execRefSelect; simp +contextual (maxDischargeDepth := 99) [hK]

@[simp] theorem execLeafReset_keeps {s0 s : State} {quire : Nat} {value : W32} (hK : Keeps s0 s) :
    KeepsRes s0 (execLeafReset quire value s) := by
  unfold execLeafReset; simp +contextual (maxDischargeDepth := 99) [hK]

@[simp] theorem execLeafResetRelease_keeps {s0 s : State} {quire : Nat} {value : W32} (hK : Keeps s0 s) :
    KeepsRes s0 (execLeafResetRelease quire value s) := by
  unfold execLeafResetRelease; simp +contextual (maxDischargeDepth := 99) [hK]

end Sys2Proof.Machine
end

