-- ==== Sys2Proof/Laws/KeepsColophon.lean ====
section
/-! SUPPORT. What the operations of Machine/Colophon.lean keep (Laws/Keeps.lean). -/

set_option linter.unusedSimpArgs false

namespace Sys2Proof.Machine

@[simp] theorem State.message_keeps {s0 s : State} {transport : Nat} {seq : Nat} {op : Nat} {frozenOk : Bool} {f : State → State} (hf_f : ∀ x0, Keeps s0 x0 → Keeps s0 (f x0)) (hK : Keeps s0 s) :
    Keeps s0 (State.message s transport seq op frozenOk f) := by
  unfold State.message; simp +contextual (maxDischargeDepth := 99) [hK, hf_f]

@[simp] theorem State.answer_keeps {s0 s : State} {transport : Nat} {seq : Nat} {op : Nat} {status : Nat} {clamped : Bool} (hK : Keeps s0 s) :
    Keeps s0 (State.answer s transport seq op status clamped) := by
  unfold State.answer; simp +contextual (maxDischargeDepth := 99) [hK]

@[simp] theorem State.setSlot_keeps {s0 s : State} {k : Nat} {x : ImageSlot} (hK : Keeps s0 s) : Keeps s0 (State.setSlot s k x) := by
  unfold State.setSlot ColState.setSlot; split <;> exact hK

@[simp] theorem State.setSession_keeps {s0 s : State} {x : Option Session} (hK : Keeps s0 s) :
    Keeps s0 (State.setSession s x) := by
  unfold State.setSession; simp +contextual (maxDischargeDepth := 99) [hK]

@[simp] theorem execGetInfo_keeps {s0 s : State} {transport : Nat} {seq : Nat} (hK : Keeps s0 s) :
    KeepsRes s0 (execGetInfo transport seq s) := by
  unfold execGetInfo; simp +contextual (maxDischargeDepth := 99) [hK]

@[simp] theorem execReadSensors_keeps {s0 s : State} {transport : Nat} {seq : Nat} (hK : Keeps s0 s) :
    KeepsRes s0 (execReadSensors transport seq s) := by
  unfold execReadSensors; simp +contextual (maxDischargeDepth := 99) [hK]

@[simp] theorem State.getLog_keeps {s0 s : State} {transport : Nat} {seq : Nat} {first : W32} {count : Nat} (hK : Keeps s0 s) :
    Keeps s0 (State.getLog s transport seq first count) := by
  unfold State.getLog; simp +contextual (maxDischargeDepth := 99) [hK]

@[simp] theorem execGetLog_keeps {s0 s : State} {transport : Nat} {seq : Nat} {first : W32} {count : Nat} (hK : Keeps s0 s) :
    KeepsRes s0 (execGetLog transport seq first count s) := by
  unfold execGetLog; simp +contextual (maxDischargeDepth := 99) [hK]

@[simp] theorem State.logUpdate_keeps {s0 s : State} {op : Nat} {slot : Nat} {status : Nat} (hK : Keeps s0 s) :
    Keeps s0 (State.logUpdate s op slot status) := by
  unfold State.logUpdate; simp +contextual (maxDischargeDepth := 99) [hK]

@[simp] theorem State.updateBegin_keeps {s0 s : State} {transport : Nat} {seq : Nat} {slot : Nat} {length : Nat} (hK : Keeps s0 s) :
    Keeps s0 (State.updateBegin s transport seq slot length) := by
  unfold State.updateBegin; simp +contextual (maxDischargeDepth := 99) [hK]

@[simp] theorem execUpdateBegin_keeps {s0 s : State} {transport : Nat} {seq : Nat} {slot : Nat} {length : Nat} (hK : Keeps s0 s) :
    KeepsRes s0 (execUpdateBegin transport seq slot length s) := by
  unfold execUpdateBegin; simp +contextual (maxDischargeDepth := 99) [hK]

@[simp] theorem State.inSession_keeps {s0 s : State} {transport : Nat} {seq : Nat} {op : Nat} {f : Session → State} (hf_f : ∀ x0, Keeps s0 (f x0)) (hK : Keeps s0 s) :
    Keeps s0 (State.inSession s transport seq op f) := by
  unfold State.inSession; split <;> simp +contextual (maxDischargeDepth := 99) [hK, hf_f]

@[simp] theorem State.flashWrite_keeps {s0 s : State} {transport : Nat} {seq : Nat} {op : Nat} {f : State → State} (hf_f : ∀ x0, Keeps s0 x0 → Keeps s0 (f x0)) (hK : Keeps s0 s) :
    Keeps s0 (State.flashWrite s transport seq op f) := by
  unfold State.flashWrite; simp +contextual (maxDischargeDepth := 99) [hK, hf_f]

@[simp] theorem State.updateData_keeps {s0 s : State} {transport : Nat} {seq : Nat} {offset : Nat} {data : List Byte} (hK : Keeps s0 s) :
    Keeps s0 (State.updateData s transport seq offset data) := by
  unfold State.updateData; simp +contextual (maxDischargeDepth := 99) [hK]

@[simp] theorem execUpdateData_keeps {s0 s : State} {transport : Nat} {seq : Nat} {offset : Nat} {data : List Byte} (hK : Keeps s0 s) :
    KeepsRes s0 (execUpdateData transport seq offset data s) := by
  unfold execUpdateData; simp +contextual (maxDischargeDepth := 99) [hK]

@[simp] theorem State.updateCommit_keeps {s0 s : State} {transport : Nat} {seq : Nat} {genuine : Bool} {version : W32} {svn : Nat} (hK : Keeps s0 s) :
    Keeps s0 (State.updateCommit s transport seq genuine version svn) := by
  unfold State.updateCommit; simp +contextual (maxDischargeDepth := 99) [hK]

@[simp] theorem execUpdateCommit_keeps {s0 s : State} {transport : Nat} {seq : Nat} {genuine : Bool} {version : W32} {svn : Nat} (hK : Keeps s0 s) :
    KeepsRes s0 (execUpdateCommit transport seq genuine version svn s) := by
  unfold execUpdateCommit; simp +contextual (maxDischargeDepth := 99) [hK]

@[simp] theorem State.activateSlot_keeps {s0 s : State} {transport : Nat} {seq : Nat} {slot : Nat} (hK : Keeps s0 s) :
    Keeps s0 (State.activateSlot s transport seq slot) := by
  unfold State.activateSlot; simp +contextual (maxDischargeDepth := 99) [hK]

@[simp] theorem State.updateActivate_keeps {s0 s : State} {transport : Nat} {seq : Nat} {slot : Nat} (hK : Keeps s0 s) :
    Keeps s0 (State.updateActivate s transport seq slot) := by
  unfold State.updateActivate; split <;> simp +contextual (maxDischargeDepth := 99) [hK]

@[simp] theorem execUpdateActivate_keeps {s0 s : State} {transport : Nat} {seq : Nat} {slot : Nat} (hK : Keeps s0 s) :
    KeepsRes s0 (execUpdateActivate transport seq slot s) := by
  unfold execUpdateActivate; simp +contextual (maxDischargeDepth := 99) [hK]

@[simp] theorem State.updateConfirm_keeps {s0 s : State} {transport seq : Nat} (hK : Keeps s0 s) :
    Keeps s0 (State.updateConfirm s transport seq) := by
  have slot (c : ColState) (k : Nat) (x : ImageSlot) : (c.setSlot k x).fusedSvn = c.fusedSvn ∧ (c.setSlot k x).nextSeq = c.nextSeq := by
    unfold ColState.setSlot; split <;> exact ⟨rfl, rfl⟩
  unfold State.updateConfirm; try dsimp only
  split
  · exact State.answer_keeps hK
  · refine State.answer_keeps (State.logUpdate_keeps (keeps_updateCol hK ?_ ?_))
    · simp only [(slot _ _ _).1]; exact Nat.le_max_left ..
    · simp only [(slot _ _ _).2]; exact Nat.le_refl _

@[simp] theorem execUpdateConfirm_keeps {s0 s : State} {transport : Nat} {seq : Nat} (hK : Keeps s0 s) :
    KeepsRes s0 (execUpdateConfirm transport seq s) := by
  unfold execUpdateConfirm; simp +contextual (maxDischargeDepth := 99) [hK]

@[simp] theorem State.closeSession_keeps {s0 s : State} {x : Session} (hK : Keeps s0 s) :
    Keeps s0 (State.closeSession s x) := by
  unfold State.closeSession; simp +contextual (maxDischargeDepth := 99) [hK]

@[simp] theorem execUpdateAbort_keeps {s0 s : State} {transport : Nat} {seq : Nat} (hK : Keeps s0 s) :
    KeepsRes s0 (execUpdateAbort transport seq s) := by
  unfold execUpdateAbort; simp +contextual (maxDischargeDepth := 99) [hK]

@[simp] theorem execSessionTimeout_keeps {s0 s : State} (hK : Keeps s0 s) :
    KeepsRes s0 (execSessionTimeout s) := by
  unfold execSessionTimeout; split <;> simp +contextual (maxDischargeDepth := 99) [hK]

@[simp] theorem State.writeRecord_keeps {s0 s : State} {transport : Nat} {seq : Nat} {n : Nat} {body : List Byte} (hK : Keeps s0 s) :
    Keeps s0 (State.writeRecord s transport seq n body) := by
  unfold State.writeRecord; simp +contextual (maxDischargeDepth := 99) [hK]

@[simp] theorem execWriteRecord_keeps {s0 s : State} {transport : Nat} {seq : Nat} {record : Nat} {body : List Byte} (hK : Keeps s0 s) :
    KeepsRes s0 (execWriteRecord transport seq record body s) := by
  unfold execWriteRecord; simp +contextual (maxDischargeDepth := 99) [hK]

@[simp] theorem State.freezeMessage_keeps {s0 s : State} {transport : Nat} {seq : Nat} {bcast : Bool} {leadUs : Nat} (hK : Keeps s0 s) :
    Keeps s0 (State.freezeMessage s transport seq bcast leadUs) := by
  unfold State.freezeMessage; simp +contextual (maxDischargeDepth := 99) [hK]

@[simp] theorem execFreeze_keeps {s0 s : State} {transport : Nat} {seq : Nat} {bcast : Bool} {leadUs : Nat} (hK : Keeps s0 s) :
    KeepsRes s0 (execFreeze transport seq bcast leadUs s) := by
  unfold execFreeze; simp +contextual (maxDischargeDepth := 99) [hK]

@[simp] theorem State.readout_keeps {s0 s : State} {transport : Nat} {seq : Nat} {space : Nat} {addr : Nat} {sub : Nat} {bytes : Nat} (hK : Keeps s0 s) :
    Keeps s0 (State.readout s transport seq space addr sub bytes) := by
  unfold State.readout; simp +contextual (maxDischargeDepth := 99) [hK]

@[simp] theorem execReadout_keeps {s0 s : State} {transport : Nat} {seq : Nat} {space : Nat} {addr : Nat} {sub : Nat} {bytes : Nat} (hK : Keeps s0 s) :
    KeepsRes s0 (execReadout transport seq space addr sub bytes s) := by
  unfold execReadout; simp +contextual (maxDischargeDepth := 99) [hK]

@[simp] theorem State.awaitPower_keeps {s0 s : State} {transport : Nat} {seq : Nat} {op : Nat} {cluster : Option Nat} (hK : Keeps s0 s) :
    Keeps s0 (State.awaitPower s transport seq op cluster) := by
  unfold State.awaitPower; simp +contextual (maxDischargeDepth := 99) [hK]

@[simp] theorem State.powerDoze_keeps {s0 s : State} {transport : Nat} {seq : Nat} {d : Nat} {save : Bool} {banks : Nat} (hK : Keeps s0 s) :
    Keeps s0 (State.powerDoze s transport seq d save banks) := by
  unfold State.powerDoze; simp +contextual (maxDischargeDepth := 99) [hK]

@[simp] theorem execPowerDoze_keeps {s0 s : State} {transport : Nat} {seq : Nat} {cluster : Nat} {save : Bool} {banks : Nat} (hK : Keeps s0 s) :
    KeepsRes s0 (execPowerDoze transport seq cluster save banks s) := by
  unfold execPowerDoze; simp +contextual (maxDischargeDepth := 99) [hK]

@[simp] theorem execPowerHibernate_keeps {s0 s : State} {transport : Nat} {seq : Nat} (hK : Keeps s0 s) :
    KeepsRes s0 (execPowerHibernate transport seq s) := by
  unfold execPowerHibernate; simp +contextual (maxDischargeDepth := 99) [hK]

@[simp] theorem State.logThermal_keeps {s0 s : State} {sensor : Nat} {temp : Int} {action : Nat} {sev : Nat} (hK : Keeps s0 s) :
    Keeps s0 (State.logThermal s sensor temp action sev) := by
  unfold State.logThermal; simp +contextual (maxDischargeDepth := 99) [hK]

@[simp] theorem State.logPower_keeps {s0 s : State} (hK : Keeps s0 s) :
    Keeps s0 (State.logPower s) := by
  unfold State.logPower; simp +contextual (maxDischargeDepth := 99) [hK]

@[simp] theorem State.protectWarn_keeps {s0 s : State} {sensor : Nat} {temp : Int} (hK : Keeps s0 s) :
    Keeps s0 (State.protectWarn s sensor temp) := by
  unfold State.protectWarn; simp +contextual (maxDischargeDepth := 99) [hK]

@[simp] theorem State.protectThrottle_keeps {s0 s : State} {sensor : Nat} {temp : Int} {power : Int} {dramHot : Bool} (hK : Keeps s0 s) :
    Keeps s0 (State.protectThrottle s sensor temp power dramHot) := by
  unfold State.protectThrottle; simp +contextual (maxDischargeDepth := 99) [hK]

@[simp] theorem State.protectCritical_keeps {s0 s : State} {sensor : Nat} {temp : Int} (hK : Keeps s0 s) :
    Keeps s0 (State.protectCritical s sensor temp) := by
  unfold State.protectCritical; simp +contextual (maxDischargeDepth := 99) [hK]

@[simp] theorem State.sensorSample_keeps {s0 s : State} {x : Sensors} (hK : Keeps s0 s) :
    Keeps s0 (State.sensorSample s x) := by
  unfold State.sensorSample; simp +contextual (maxDischargeDepth := 99) [hK]

@[simp] theorem execSensorSample_keeps {s0 s : State} {junction : List Int} {lid : Int} {vin : Int} {iin : Int} {power : Int} {rails : List (Int × Int)} (hK : Keeps s0 s) :
    KeepsRes s0 (execSensorSample junction lid vin iin power rails s) := by
  unfold execSensorSample; simp +contextual (maxDischargeDepth := 99) [hK]

@[simp] theorem execThrottleStep_keeps {s0 s : State} (hK : Keeps s0 s) :
    KeepsRes s0 (execThrottleStep s) := by
  unfold execThrottleStep; simp +contextual (maxDischargeDepth := 99) [hK]

@[simp] theorem execThrottleRestore_keeps {s0 s : State} (hK : Keeps s0 s) :
    KeepsRes s0 (execThrottleRestore s) := by
  unfold execThrottleRestore; simp +contextual (maxDischargeDepth := 99) [hK]

@[simp] theorem execAlertRelease_keeps {s0 s : State} {therm : Bool} (hK : Keeps s0 s) :
    KeepsRes s0 (execAlertRelease therm s) := by
  unfold execAlertRelease; simp +contextual (maxDischargeDepth := 99) [hK]

@[simp] theorem execLogCompaction_keeps {s0 s : State} (hK : Keeps s0 s) :
    KeepsRes s0 (execLogCompaction s) := by
  unfold execLogCompaction; simp +contextual (maxDischargeDepth := 99) [hK]

@[simp] theorem execCompactionDone_keeps {s0 s : State} (hK : Keeps s0 s) : KeepsRes s0 (execCompactionDone s) := by
  unfold execCompactionDone; dsimp only; rw [keepsRes_next]
  split
  · have h := State.endActivity_keeps (a := Activity.compaction) hK
    exact ⟨h.1, h.2.1, h.2.2.1, hK.2.2.2⟩
  · exact hK

@[simp] theorem State.startActivity_keeps {s0 s : State} {a : Activity} (hK : Keeps s0 s) :
    Keeps s0 (State.startActivity s a) := by
  unfold State.startActivity; split <;> simp +contextual (maxDischargeDepth := 99) [hK]

@[simp] theorem execMaintStart_keeps {s0 s : State} (hK : Keeps s0 s) :
    KeepsRes s0 (execMaintStart s) := by
  unfold execMaintStart; split <;> simp +contextual (maxDischargeDepth := 99) [hK]

@[simp] theorem execFreezeNFall_keeps {s0 s : State} (hK : Keeps s0 s) :
    KeepsRes s0 (execFreezeNFall s) := by
  unfold execFreezeNFall; simp +contextual (maxDischargeDepth := 99) [hK]

@[simp] theorem execUnknownOpcode_keeps {s0 s : State} {transport : Nat} {seq : Nat} {opcode : Nat} (hK : Keeps s0 s) :
    KeepsRes s0 (execUnknownOpcode transport seq opcode s) := by
  unfold execUnknownOpcode; simp +contextual (maxDischargeDepth := 99) [hK]

@[simp] theorem execArpAndIcmpEcho_keeps {s0 s : State} {icmp : Bool} {data : List Byte} (hK : Keeps s0 s) :
    KeepsRes s0 (execArpAndIcmpEcho icmp data s) := by
  unfold execArpAndIcmpEcho; simp +contextual (maxDischargeDepth := 99) [hK]

end Sys2Proof.Machine
end

