-- ==== Sys2Proof/Laws/KeepsDelivery.lean ====
section
/-! SUPPORT. What the operations of Machine/Delivery.lean keep (Laws/Keeps.lean). -/

set_option linter.unusedSimpArgs false

namespace Sys2Proof.Machine

@[simp] theorem execNop_keeps {s0 s : State} {d : Desc} (hK : Keeps s0 s) :
    KeepsRes s0 (execNop d s) := by
  unfold execNop; simp +contextual (maxDischargeDepth := 99) [hK]

@[simp] theorem vatCtrl_keeps {s0 s : State} {d : Desc} (hK : Keeps s0 s) :
    KeepsRes s0 (vatCtrl d s) := by
  unfold vatCtrl; split <;> simp +contextual (maxDischargeDepth := 99) [hK]

@[simp] theorem bcastCtrl_keeps {s0 s : State} {d : Desc} (hK : Keeps s0 s) :
    KeepsRes s0 (bcastCtrl d s) := by
  unfold bcastCtrl; split <;> simp +contextual (maxDischargeDepth := 99) [hK]

@[simp] theorem queueOp_keeps {s0 s : State} {d : Desc} (hK : Keeps s0 s) :
    KeepsRes s0 (queueOp d s) := by
  unfold queueOp; split <;> simp +contextual (maxDischargeDepth := 99) [hK]

@[simp] theorem carrierOp_keeps {s0 s : State} {d : Desc} (hK : Keeps s0 s) :
    KeepsRes s0 (carrierOp d s) := by
  unfold carrierOp; split <;> simp +contextual (maxDischargeDepth := 99) [hK]

@[simp] theorem accept_keeps {s0 s : State} {d : Desc} (hK : Keeps s0 s) :
    KeepsRes s0 (accept d s) := by
  unfold accept; split <;> simp +contextual (maxDischargeDepth := 99) [hK]

@[simp] theorem execDescriptorDelivery_keeps {s0 s : State} {ring : Nat} {block : Nat} (hK : Keeps s0 s) :
    KeepsRes s0 (execDescriptorDelivery ring block s) := by
  unfold execDescriptorDelivery; refine State.whenClocked_keeps (fun s hK => ?_) hK; (repeat' (first | (simp +contextual (maxDischargeDepth := 99) [hK]; done) | split))

end Sys2Proof.Machine
end

