-- ==== Sys2Proof/Laws/KeepsReset.lean ====
section
/-! SUPPORT. What the operations of Machine/Reset.lean keep (Laws/Keeps.lean). -/

set_option linter.unusedSimpArgs false

namespace Sys2Proof.Machine

theorem State.lastingCol_keeps (s : State) : s.lastingCol.fusedSvn = s.col.fusedSvn ∧ s.col.nextSeq ≤ s.lastingCol.nextSeq := by
  unfold State.lastingCol; simp

theorem TbState.default_legal : ({} : TbState).rateLegal :=
  ⟨by decide, by decide, fun r h => by cases h⟩

@[simp] theorem State.cleared_keeps {s0 s : State} (hK : Keeps s0 s) : Keeps s0 (State.cleared s) :=
  ⟨⟨hK.1.1, fun _ => TbState.default_legal⟩, fun _ => rfl, fun _ => rfl,
    Nat.le_trans hK.2.2.2.1 (Nat.le_of_eq (State.lastingCol_keeps s).1.symm),
    Nat.le_trans hK.2.2.2.2 (State.lastingCol_keeps s).2⟩

@[simp] theorem State.unpowered_keeps {s0 s : State} {mode : PowerMode} {thermal : Bool} (hK : Keeps s0 s) :
    Keeps s0 (State.unpowered s mode thermal) := by
  unfold State.unpowered; simp +contextual (maxDischargeDepth := 99) [hK]

theorem State.moduleBytes_wf {s : State} (h : Memory.wf s.mem = true) : Memory.wf s.moduleBytes = true := mapFilter_wf _ _ _ h

@[simp] theorem State.warmFallen_keeps {s0 s : State} (hK : Keeps s0 s) : Keeps s0 (State.warmFallen s) := by
  unfold State.warmFallen
  refine State.setFld_keeps ⟨hK.1, fun g => State.moduleBytes_wf (hK.2.1 g), fun g => mapFilter_wf _ _ _ (hK.2.2.1 g), ?_, ?_⟩
  · exact Nat.le_trans hK.2.2.2.1 (Nat.le_of_eq (State.lastingCol_keeps s).1.symm)
  · exact Nat.le_trans hK.2.2.2.2 (State.lastingCol_keeps s).2

theorem ColState.endTrial_keeps (c : ColState) (k : Nat) :
    (c.endTrial k).fusedSvn = c.fusedSvn ∧ (c.endTrial k).nextSeq = c.nextSeq := by
  unfold ColState.endTrial ColState.setSlot; split <;> (try split) <;> exact ⟨rfl, rfl⟩

theorem ColState.tryBoot_keeps (c : ColState) (l : List Nat) :
    (c.tryBoot l).fusedSvn = c.fusedSvn ∧ (c.tryBoot l).nextSeq = c.nextSeq := by
  induction l generalizing c with
  | nil => exact ⟨rfl, rfl⟩
  | cons k r ih =>
    unfold ColState.tryBoot
    split
    · exact ⟨rfl, rfl⟩
    · exact ⟨(ih _).1.trans (ColState.endTrial_keeps _ _).1, (ih _).2.trans (ColState.endTrial_keeps _ _).2⟩

theorem ColState.boot_keeps (c : ColState) : c.boot.fusedSvn = c.fusedSvn ∧ c.boot.nextSeq = c.nextSeq := by
  unfold ColState.boot
  try dsimp only
  split
  · exact ⟨(ColState.tryBoot_keeps _ _).1.trans (ColState.endTrial_keeps _ _).1, (ColState.tryBoot_keeps _ _).2.trans (ColState.endTrial_keeps _ _).2⟩
  · exact ColState.tryBoot_keeps _ _

@[simp] theorem State.collectClamps_keeps {s0 s : State} (hK : Keeps s0 s) :
    Keeps s0 (State.collectClamps s) := by
  unfold State.collectClamps; simp +contextual (maxDischargeDepth := 99) [hK]

@[simp] theorem State.loadGateway_keeps {s0 s : State} (hK : Keeps s0 s) :
    Keeps s0 (State.loadGateway s) := by
  unfold State.loadGateway; simp +contextual (maxDischargeDepth := 99) [hK]

@[simp] theorem State.parkLanes_keeps {s0 s : State} (hK : Keeps s0 s) :
    Keeps s0 (State.parkLanes s) := by
  unfold State.parkLanes; simp +contextual (maxDischargeDepth := 99) [hK]

@[simp] theorem State.loadStitch_keeps {s0 s : State} (hK : Keeps s0 s) :
    Keeps s0 (State.loadStitch s) := by
  unfold State.loadStitch; simp +contextual (maxDischargeDepth := 99) [hK]

@[simp] theorem State.loadCold_keeps {s0 s : State} (hK : Keeps s0 s) :
    Keeps s0 (State.loadCold s) := by
  unfold State.loadCold; simp +contextual (maxDischargeDepth := 99) [hK]

@[simp] theorem State.logBoot_keeps {s0 s : State} {cause : Nat} (hK : Keeps s0 s) :
    Keeps s0 (State.logBoot s cause) := by
  unfold State.logBoot; simp +contextual (maxDischargeDepth := 99) [hK]

@[simp] theorem State.bootUp_keeps {s0 s : State} {cold : Bool} {cause : Nat} (hK : Keeps s0 s) : Keeps s0 (State.bootUp s cold cause) := by
  have fin : ∀ t : State, Keeps s0 t → Keeps s0 (if t.col.serhamUp then
      ((if cold then (t.logBoot cause).loadCold else t.logBoot cause).loadStitch).settleSynce else t) := fun t h => by
    split
    · refine State.settleSynce_keeps (State.loadStitch_keeps ?_)
      split
      · exact State.loadCold_keeps (State.logBoot_keeps h)
      · exact State.logBoot_keeps h
    · exact h
  exact fin _ (keeps_updateCol hK
    (Nat.le_of_eq (ColState.boot_keeps _).1.symm) (Nat.le_of_eq (ColState.boot_keeps _).2.symm))

@[simp] theorem State.coldStart_keeps {s0 s : State} {cause : Nat} {froze : Bool} {pin : Bool} (hK : Keeps s0 s) :
    Keeps s0 (State.coldStart s cause froze pin) := by
  unfold State.coldStart; simp +contextual (maxDischargeDepth := 99) [hK]

@[simp] theorem State.powerOn_keeps {s0 s : State} (hK : Keeps s0 s) :
    Keeps s0 (State.powerOn s) := by
  unfold State.powerOn; dsimp only; (repeat' (first | (simp +contextual (maxDischargeDepth := 99) [hK]; done) | split))

@[simp] theorem execPowerOn_keeps {s0 s : State} (hK : Keeps s0 s) :
    KeepsRes s0 (execPowerOn s) := by
  unfold execPowerOn; simp +contextual (maxDischargeDepth := 99) [hK]

@[simp] theorem execColdReset_keeps {s0 s : State} (hK : Keeps s0 s) :
    KeepsRes s0 (execColdReset s) := by
  unfold execColdReset; simp +contextual (maxDischargeDepth := 99) [hK]

@[simp] theorem execWarmReset_keeps {s0 s : State} (hK : Keeps s0 s) :
    KeepsRes s0 (execWarmReset s) := by
  unfold execWarmReset; simp +contextual (maxDischargeDepth := 99) [hK]

@[simp] theorem execWarmResetRelease_keeps {s0 s : State} (hK : Keeps s0 s) :
    KeepsRes s0 (execWarmResetRelease s) := by
  unfold execWarmResetRelease; simp +contextual (maxDischargeDepth := 99) [hK]

@[simp] theorem State.wakeLane_keeps {s0 s : State} {n : Nat} (hK : Keeps s0 s) :
    Keeps s0 (State.wakeLane s n) := by
  unfold State.wakeLane; simp +contextual (maxDischargeDepth := 99) [hK]

@[simp] theorem State.makeCoreReady_keeps {s0 s : State} (hK : Keeps s0 s) : Keeps s0 (State.makeCoreReady s) := by
  unfold State.makeCoreReady
  refine State.answerPower_keeps (keeps_foldl _ _ (fun s n h => State.wakeLane_keeps h) (keeps_foldl _ _ (fun s d h => ?_)
    (State.resumeGrid_keeps (keeps_foldl _ _ (fun s r h => State.setPresent_keeps h) ⟨hK.1, fun g => State.moduleBytes_wf (hK.2.1 g), hK.2.2⟩))))
  simp only [keeps_ite]
  exact ⟨fun _ => State.quirePresent_keeps h, fun _ => State.setPresent_keeps h⟩

@[simp] theorem execCoreReady_keeps {s0 s : State} (hK : Keeps s0 s) :
    KeepsRes s0 (execCoreReady s) := by
  unfold execCoreReady; simp +contextual (maxDischargeDepth := 99) [hK]

@[simp] theorem State.hibernateRestored_keeps {s0 s : State} (hK : Keeps s0 s) : Keeps s0 (State.hibernateRestored s) := by
  unfold State.hibernateRestored
  refine State.parkLanes_keeps (State.electSelf_keeps (keeps_foldl _ _ (fun s k h => ?_)
    ⟨hK.1, fun g => State.moduleBytes_wf (hK.2.1 g), fun g => mapFilter_wf _ _ _ (hK.2.2.1 g), hK.2.2.2⟩))
  simp only [keeps_ite]
  exact ⟨fun _ => keeps_foldl _ _ (fun s i h => State.ownLane_keeps h) h, fun _ => h⟩

@[simp] theorem State.advanceTime_keeps {s0 s : State} {count : Nat} (hK : Keeps s0 s) :
    Keeps s0 (State.advanceTime s count) := by
  unfold State.advanceTime
  exact State.resumeGrid_keeps (State.raise_keeps (State.wr_keeps (keeps_updateRate (State.drawn_keeps hK) id)))

@[simp] theorem State.leaveHibernate_keeps {s0 s : State} {mask : Nat} {count : Nat} (hK : Keeps s0 s) :
    Keeps s0 (State.leaveHibernate s mask count) := by
  unfold State.leaveHibernate; simp +contextual (maxDischargeDepth := 99) [hK]

@[simp] theorem State.hibernateWake_keeps {s0 s : State} {source : Nat} {count : Nat} (hK : Keeps s0 s) :
    Keeps s0 (State.hibernateWake s source count) := by
  unfold State.hibernateWake; simp +contextual (maxDischargeDepth := 99) [hK]

@[simp] theorem execHibernateWake_keeps {s0 s : State} {source : Nat} {count : Nat} (hK : Keeps s0 s) :
    KeepsRes s0 (execHibernateWake source count s) := by
  unfold execHibernateWake; simp +contextual (maxDischargeDepth := 99) [hK]

@[simp] theorem execHibTimer_keeps {s0 s : State} (hK : Keeps s0 s) :
    KeepsRes s0 (execHibTimer s) := by
  unfold execHibTimer; simp +contextual (maxDischargeDepth := 99) [hK]

@[simp] theorem State.powerWake_keeps {s0 s : State} {transport : Nat} {seq : Nat} {cluster : Option Nat} (hK : Keeps s0 s) :
    Keeps s0 (State.powerWake s transport seq cluster) := by
  unfold State.powerWake; dsimp only; (repeat' (first | (simp +contextual (maxDischargeDepth := 99) [hK]; done) | split))

@[simp] theorem execPowerWake_keeps {s0 s : State} {transport : Nat} {seq : Nat} {cluster : Option Nat} (hK : Keeps s0 s) :
    KeepsRes s0 (execPowerWake transport seq cluster s) := by
  unfold execPowerWake; simp +contextual (maxDischargeDepth := 99) [hK]

@[simp] theorem execPwrEnFall_keeps {s0 s : State} (hK : Keeps s0 s) :
    KeepsRes s0 (execPwrEnFall s) := by
  unfold execPwrEnFall; simp +contextual (maxDischargeDepth := 99) [hK]

@[simp] theorem execVinUndervoltage_keeps {s0 s : State} (hK : Keeps s0 s) :
    KeepsRes s0 (execVinUndervoltage s) := by
  unfold execVinUndervoltage; simp +contextual (maxDischargeDepth := 99) [hK]

@[simp] theorem execVinOvervoltage_keeps {s0 s : State} (hK : Keeps s0 s) :
    KeepsRes s0 (execVinOvervoltage s) := by
  unfold execVinOvervoltage; simp +contextual (maxDischargeDepth := 99) [hK]

@[simp] theorem execOvervoltageRestart_keeps {s0 s : State} (hK : Keeps s0 s) :
    KeepsRes s0 (execOvervoltageRestart s) := by
  unfold execOvervoltageRestart; simp +contextual (maxDischargeDepth := 99) [hK]

@[simp] theorem State.railFault_keeps {s0 s : State} (hK : Keeps s0 s) : Keeps s0 (State.railFault s) := by
  unfold State.railFault
  split
  · exact hK
  · have h1 : Keeps s0 s.logPower := State.logPower_keeps hK
    exact ⟨⟨h1.1.1, fun _ => TbState.default_legal⟩, fun _ => rfl, fun _ => rfl, h1.2.2.2⟩

@[simp] theorem execRailFault_keeps {s0 s : State} (hK : Keeps s0 s) :
    KeepsRes s0 (execRailFault s) := by
  unfold execRailFault; simp +contextual (maxDischargeDepth := 99) [hK]

@[simp] theorem State.thermalShutdown_keeps {s0 s : State} (hK : Keeps s0 s) :
    Keeps s0 (State.thermalShutdown s) := by
  unfold State.thermalShutdown; simp +contextual (maxDischargeDepth := 99) [hK]

@[simp] theorem execThermalShutdown_keeps {s0 s : State} (hK : Keeps s0 s) :
    KeepsRes s0 (execThermalShutdown s) := by
  unfold execThermalShutdown; simp +contextual (maxDischargeDepth := 99) [hK]

end Sys2Proof.Machine
end

