-- ==== Sys2Proof/Laws/State.lean ====
section
/-! SUPPORT. The small lemmas of the state: what each named update leaves as it was, field by field, and what a context reads as after
it or another one has been written. -/

namespace Sys2Proof.Machine

variable (s : State)

/-! ### wr -/

@[simp] theorem State.wr_pending (a : Nat) (v : W32) : (s.wr a v).pending = s.pending := rfl
@[simp] theorem State.wr_mem (a : Nat) (v : W32) : (s.wr a v).mem = s.mem := rfl
@[simp] theorem State.wr_glb (a : Nat) (v : W32) : (s.wr a v).glb = s.glb := rfl
@[simp] theorem State.wr_tb (a : Nat) (v : W32) : (s.wr a v).tb = s.tb := rfl
@[simp] theorem State.wr_slt (a : Nat) (v : W32) : (s.wr a v).slt = s.slt := rfl
@[simp] theorem State.wr_hp (a : Nat) (v : W32) : (s.wr a v).hp = s.hp := rfl
@[simp] theorem State.wr_qm (a : Nat) (v : W32) : (s.wr a v).qm = s.qm := rfl
@[simp] theorem State.wr_spn (a : Nat) (v : W32) : (s.wr a v).spn = s.spn := rfl
@[simp] theorem State.wr_gth (a : Nat) (v : W32) : (s.wr a v).gth = s.gth := rfl
@[simp] theorem State.wr_qui (a : Nat) (v : W32) : (s.wr a v).qui = s.qui := rfl
@[simp] theorem State.wr_notifies (a : Nat) (v : W32) : (s.wr a v).notifies = s.notifies := rfl
@[simp] theorem State.wr_out (a : Nat) (v : W32) : (s.wr a v).out = s.out := rfl
@[simp] theorem State.wr_bus (a : Nat) (v : W32) : (s.wr a v).bus = s.bus := rfl
@[simp] theorem State.wr_hostRead (a : Nat) (v : W32) : (s.wr a v).hostRead = s.hostRead := rfl
@[simp] theorem State.wr_freeCtr (a : Nat) (v : W32) : (s.wr a v).freeCtr = s.freeCtr := rfl
@[simp] theorem State.wr_col (a : Nat) (v : W32) : (s.wr a v).col = s.col := rfl
@[simp] theorem State.wr_dma (a : Nat) (v : W32) : (s.wr a v).dma = s.dma := rfl
@[simp] theorem State.wr_mm (a : Nat) (v : W32) : (s.wr a v).mm = s.mm := rfl
@[simp] theorem State.wr_pwr (a : Nat) (v : W32) : (s.wr a v).pwr = s.pwr := rfl
@[simp] theorem State.wr_engines (a : Nat) (v : W32) : (s.wr a v).engines = s.engines := rfl
@[simp] theorem State.wr_spa (a : Nat) (v : W32) : (s.wr a v).spa = s.spa := rfl
@[simp] theorem State.wr_spc (a : Nat) (v : W32) : (s.wr a v).spc = s.spc := rfl
@[simp] theorem State.wr_ln (a : Nat) (v : W32) : (s.wr a v).ln = s.ln := rfl
@[simp] theorem State.wr_fh (a : Nat) (v : W32) : (s.wr a v).fh = s.fh := rfl
@[simp] theorem State.wr_stf (a : Nat) (v : W32) : (s.wr a v).stf = s.stf := rfl
@[simp] theorem State.wr_cap (a : Nat) (v : W32) : (s.wr a v).cap = s.cap := rfl
@[simp] theorem State.wr_rst (a : Nat) (v : W32) : (s.wr a v).rst = s.rst := rfl

/-! ### setByte -/

@[simp] theorem State.setByte_pending (a : Nat) (b : Byte) : (s.setByte a b).pending = s.pending := rfl
@[simp] theorem State.setByte_regs (a : Nat) (b : Byte) : (s.setByte a b).regs = s.regs := rfl
@[simp] theorem State.setByte_glb (a : Nat) (b : Byte) : (s.setByte a b).glb = s.glb := rfl
@[simp] theorem State.setByte_tb (a : Nat) (b : Byte) : (s.setByte a b).tb = s.tb := rfl
@[simp] theorem State.setByte_slt (a : Nat) (b : Byte) : (s.setByte a b).slt = s.slt := rfl
@[simp] theorem State.setByte_hp (a : Nat) (b : Byte) : (s.setByte a b).hp = s.hp := rfl
@[simp] theorem State.setByte_qm (a : Nat) (b : Byte) : (s.setByte a b).qm = s.qm := rfl
@[simp] theorem State.setByte_spn (a : Nat) (b : Byte) : (s.setByte a b).spn = s.spn := rfl
@[simp] theorem State.setByte_gth (a : Nat) (b : Byte) : (s.setByte a b).gth = s.gth := rfl
@[simp] theorem State.setByte_qui (a : Nat) (b : Byte) : (s.setByte a b).qui = s.qui := rfl
@[simp] theorem State.setByte_notifies (a : Nat) (b : Byte) : (s.setByte a b).notifies = s.notifies := rfl
@[simp] theorem State.setByte_out (a : Nat) (b : Byte) : (s.setByte a b).out = s.out := rfl
@[simp] theorem State.setByte_bus (a : Nat) (b : Byte) : (s.setByte a b).bus = s.bus := rfl
@[simp] theorem State.setByte_hostRead (a : Nat) (b : Byte) : (s.setByte a b).hostRead = s.hostRead := rfl
@[simp] theorem State.setByte_freeCtr (a : Nat) (b : Byte) : (s.setByte a b).freeCtr = s.freeCtr := rfl
@[simp] theorem State.setByte_col (a : Nat) (b : Byte) : (s.setByte a b).col = s.col := rfl
@[simp] theorem State.setByte_dma (a : Nat) (b : Byte) : (s.setByte a b).dma = s.dma := rfl
@[simp] theorem State.setByte_mm (a : Nat) (b : Byte) : (s.setByte a b).mm = s.mm := rfl
@[simp] theorem State.setByte_pwr (a : Nat) (b : Byte) : (s.setByte a b).pwr = s.pwr := rfl
@[simp] theorem State.setByte_engines (a : Nat) (b : Byte) : (s.setByte a b).engines = s.engines := rfl
@[simp] theorem State.setByte_spa (a : Nat) (b : Byte) : (s.setByte a b).spa = s.spa := rfl
@[simp] theorem State.setByte_spc (a : Nat) (b : Byte) : (s.setByte a b).spc = s.spc := rfl
@[simp] theorem State.setByte_ln (a : Nat) (b : Byte) : (s.setByte a b).ln = s.ln := rfl
@[simp] theorem State.setByte_fh (a : Nat) (b : Byte) : (s.setByte a b).fh = s.fh := rfl
@[simp] theorem State.setByte_stf (a : Nat) (b : Byte) : (s.setByte a b).stf = s.stf := rfl
@[simp] theorem State.setByte_cap (a : Nat) (b : Byte) : (s.setByte a b).cap = s.cap := rfl
@[simp] theorem State.setByte_rst (a : Nat) (b : Byte) : (s.setByte a b).rst = s.rst := rfl

/-! ### drawn -/

@[simp] theorem State.drawn_pending : s.drawn.pending = s.pending := rfl
@[simp] theorem State.drawn_regs : s.drawn.regs = s.regs := rfl
@[simp] theorem State.drawn_mem : s.drawn.mem = s.mem := rfl
@[simp] theorem State.drawn_glb : s.drawn.glb = s.glb := rfl
@[simp] theorem State.drawn_tb : s.drawn.tb = s.tb := rfl
@[simp] theorem State.drawn_slt : s.drawn.slt = s.slt := rfl
@[simp] theorem State.drawn_hp : s.drawn.hp = s.hp := rfl
@[simp] theorem State.drawn_qm : s.drawn.qm = s.qm := rfl
@[simp] theorem State.drawn_spn : s.drawn.spn = s.spn := rfl
@[simp] theorem State.drawn_gth : s.drawn.gth = s.gth := rfl
@[simp] theorem State.drawn_qui : s.drawn.qui = s.qui := rfl
@[simp] theorem State.drawn_notifies : s.drawn.notifies = s.notifies := rfl
@[simp] theorem State.drawn_out : s.drawn.out = s.out := rfl
@[simp] theorem State.drawn_bus : s.drawn.bus = s.bus := rfl
@[simp] theorem State.drawn_hostRead : s.drawn.hostRead = s.hostRead := rfl
@[simp] theorem State.drawn_col : s.drawn.col = s.col := rfl
@[simp] theorem State.drawn_dma : s.drawn.dma = s.dma := rfl
@[simp] theorem State.drawn_mm : s.drawn.mm = s.mm := rfl
@[simp] theorem State.drawn_pwr : s.drawn.pwr = s.pwr := rfl
@[simp] theorem State.drawn_engines : s.drawn.engines = s.engines := rfl
@[simp] theorem State.drawn_spa : s.drawn.spa = s.spa := rfl
@[simp] theorem State.drawn_spc : s.drawn.spc = s.spc := rfl
@[simp] theorem State.drawn_ln : s.drawn.ln = s.ln := rfl
@[simp] theorem State.drawn_fh : s.drawn.fh = s.fh := rfl
@[simp] theorem State.drawn_stf : s.drawn.stf = s.stf := rfl
@[simp] theorem State.drawn_cap : s.drawn.cap = s.cap := rfl
@[simp] theorem State.drawn_rst : s.drawn.rst = s.rst := rfl

/-! ### emit -/

@[simp] theorem State.emit_pending (o : Out) : (s.emit o).pending = s.pending := rfl
@[simp] theorem State.emit_regs (o : Out) : (s.emit o).regs = s.regs := rfl
@[simp] theorem State.emit_mem (o : Out) : (s.emit o).mem = s.mem := rfl
@[simp] theorem State.emit_glb (o : Out) : (s.emit o).glb = s.glb := rfl
@[simp] theorem State.emit_tb (o : Out) : (s.emit o).tb = s.tb := rfl
@[simp] theorem State.emit_slt (o : Out) : (s.emit o).slt = s.slt := rfl
@[simp] theorem State.emit_hp (o : Out) : (s.emit o).hp = s.hp := rfl
@[simp] theorem State.emit_qm (o : Out) : (s.emit o).qm = s.qm := rfl
@[simp] theorem State.emit_spn (o : Out) : (s.emit o).spn = s.spn := rfl
@[simp] theorem State.emit_gth (o : Out) : (s.emit o).gth = s.gth := rfl
@[simp] theorem State.emit_qui (o : Out) : (s.emit o).qui = s.qui := rfl
@[simp] theorem State.emit_notifies (o : Out) : (s.emit o).notifies = s.notifies := rfl
@[simp] theorem State.emit_bus (o : Out) : (s.emit o).bus = s.bus := rfl
@[simp] theorem State.emit_hostRead (o : Out) : (s.emit o).hostRead = s.hostRead := rfl
@[simp] theorem State.emit_freeCtr (o : Out) : (s.emit o).freeCtr = s.freeCtr := rfl
@[simp] theorem State.emit_col (o : Out) : (s.emit o).col = s.col := rfl
@[simp] theorem State.emit_dma (o : Out) : (s.emit o).dma = s.dma := rfl
@[simp] theorem State.emit_mm (o : Out) : (s.emit o).mm = s.mm := rfl
@[simp] theorem State.emit_pwr (o : Out) : (s.emit o).pwr = s.pwr := rfl
@[simp] theorem State.emit_engines (o : Out) : (s.emit o).engines = s.engines := rfl
@[simp] theorem State.emit_spa (o : Out) : (s.emit o).spa = s.spa := rfl
@[simp] theorem State.emit_spc (o : Out) : (s.emit o).spc = s.spc := rfl
@[simp] theorem State.emit_ln (o : Out) : (s.emit o).ln = s.ln := rfl
@[simp] theorem State.emit_fh (o : Out) : (s.emit o).fh = s.fh := rfl
@[simp] theorem State.emit_stf (o : Out) : (s.emit o).stf = s.stf := rfl
@[simp] theorem State.emit_cap (o : Out) : (s.emit o).cap = s.cap := rfl
@[simp] theorem State.emit_rst (o : Out) : (s.emit o).rst = s.rst := rfl

/-! ### setRing -/

@[simp] theorem State.setRing_pending (q : Nat) (x : Ring) : (s.setRing q x).pending = s.pending := by unfold State.setRing; split <;> rfl
@[simp] theorem State.setRing_regs (q : Nat) (x : Ring) : (s.setRing q x).regs = s.regs := by unfold State.setRing; split <;> rfl
@[simp] theorem State.setRing_mem (q : Nat) (x : Ring) : (s.setRing q x).mem = s.mem := by unfold State.setRing; split <;> rfl
@[simp] theorem State.setRing_glb (q : Nat) (x : Ring) : (s.setRing q x).glb = s.glb := by unfold State.setRing; split <;> rfl
@[simp] theorem State.setRing_tb (q : Nat) (x : Ring) : (s.setRing q x).tb = s.tb := by unfold State.setRing; split <;> rfl
@[simp] theorem State.setRing_slt (q : Nat) (x : Ring) : (s.setRing q x).slt = s.slt := by unfold State.setRing; split <;> rfl
@[simp] theorem State.setRing_qm (q : Nat) (x : Ring) : (s.setRing q x).qm = s.qm := by unfold State.setRing; split <;> rfl
@[simp] theorem State.setRing_spn (q : Nat) (x : Ring) : (s.setRing q x).spn = s.spn := by unfold State.setRing; split <;> rfl
@[simp] theorem State.setRing_gth (q : Nat) (x : Ring) : (s.setRing q x).gth = s.gth := by unfold State.setRing; split <;> rfl
@[simp] theorem State.setRing_qui (q : Nat) (x : Ring) : (s.setRing q x).qui = s.qui := by unfold State.setRing; split <;> rfl
@[simp] theorem State.setRing_notifies (q : Nat) (x : Ring) : (s.setRing q x).notifies = s.notifies := by unfold State.setRing; split <;> rfl
@[simp] theorem State.setRing_out (q : Nat) (x : Ring) : (s.setRing q x).out = s.out := by unfold State.setRing; split <;> rfl
@[simp] theorem State.setRing_bus (q : Nat) (x : Ring) : (s.setRing q x).bus = s.bus := by unfold State.setRing; split <;> rfl
@[simp] theorem State.setRing_hostRead (q : Nat) (x : Ring) : (s.setRing q x).hostRead = s.hostRead := by unfold State.setRing; split <;> rfl
@[simp] theorem State.setRing_freeCtr (q : Nat) (x : Ring) : (s.setRing q x).freeCtr = s.freeCtr := by unfold State.setRing; split <;> rfl
@[simp] theorem State.setRing_col (q : Nat) (x : Ring) : (s.setRing q x).col = s.col := by unfold State.setRing; split <;> rfl
@[simp] theorem State.setRing_dma (q : Nat) (x : Ring) : (s.setRing q x).dma = s.dma := by unfold State.setRing; split <;> rfl
@[simp] theorem State.setRing_mm (q : Nat) (x : Ring) : (s.setRing q x).mm = s.mm := by unfold State.setRing; split <;> rfl
@[simp] theorem State.setRing_pwr (q : Nat) (x : Ring) : (s.setRing q x).pwr = s.pwr := by unfold State.setRing; split <;> rfl
@[simp] theorem State.setRing_engines (q : Nat) (x : Ring) : (s.setRing q x).engines = s.engines := by unfold State.setRing; split <;> rfl
@[simp] theorem State.setRing_spa (q : Nat) (x : Ring) : (s.setRing q x).spa = s.spa := by unfold State.setRing; split <;> rfl
@[simp] theorem State.setRing_spc (q : Nat) (x : Ring) : (s.setRing q x).spc = s.spc := by unfold State.setRing; split <;> rfl
@[simp] theorem State.setRing_ln (q : Nat) (x : Ring) : (s.setRing q x).ln = s.ln := by unfold State.setRing; split <;> rfl
@[simp] theorem State.setRing_fh (q : Nat) (x : Ring) : (s.setRing q x).fh = s.fh := by unfold State.setRing; split <;> rfl
@[simp] theorem State.setRing_stf (q : Nat) (x : Ring) : (s.setRing q x).stf = s.stf := by unfold State.setRing; split <;> rfl
@[simp] theorem State.setRing_cap (q : Nat) (x : Ring) : (s.setRing q x).cap = s.cap := by unfold State.setRing; split <;> rfl
@[simp] theorem State.setRing_rst (q : Nat) (x : Ring) : (s.setRing q x).rst = s.rst := by unfold State.setRing; split <;> rfl

/-! ### setFn -/

@[simp] theorem State.setFn_pending (q : Nat) (x : PcieFn) : (s.setFn q x).pending = s.pending := by unfold State.setFn; split <;> rfl
@[simp] theorem State.setFn_regs (q : Nat) (x : PcieFn) : (s.setFn q x).regs = s.regs := by unfold State.setFn; split <;> rfl
@[simp] theorem State.setFn_mem (q : Nat) (x : PcieFn) : (s.setFn q x).mem = s.mem := by unfold State.setFn; split <;> rfl
@[simp] theorem State.setFn_glb (q : Nat) (x : PcieFn) : (s.setFn q x).glb = s.glb := by unfold State.setFn; split <;> rfl
@[simp] theorem State.setFn_tb (q : Nat) (x : PcieFn) : (s.setFn q x).tb = s.tb := by unfold State.setFn; split <;> rfl
@[simp] theorem State.setFn_slt (q : Nat) (x : PcieFn) : (s.setFn q x).slt = s.slt := by unfold State.setFn; split <;> rfl
@[simp] theorem State.setFn_qm (q : Nat) (x : PcieFn) : (s.setFn q x).qm = s.qm := by unfold State.setFn; split <;> rfl
@[simp] theorem State.setFn_spn (q : Nat) (x : PcieFn) : (s.setFn q x).spn = s.spn := by unfold State.setFn; split <;> rfl
@[simp] theorem State.setFn_gth (q : Nat) (x : PcieFn) : (s.setFn q x).gth = s.gth := by unfold State.setFn; split <;> rfl
@[simp] theorem State.setFn_qui (q : Nat) (x : PcieFn) : (s.setFn q x).qui = s.qui := by unfold State.setFn; split <;> rfl
@[simp] theorem State.setFn_notifies (q : Nat) (x : PcieFn) : (s.setFn q x).notifies = s.notifies := by unfold State.setFn; split <;> rfl
@[simp] theorem State.setFn_out (q : Nat) (x : PcieFn) : (s.setFn q x).out = s.out := by unfold State.setFn; split <;> rfl
@[simp] theorem State.setFn_bus (q : Nat) (x : PcieFn) : (s.setFn q x).bus = s.bus := by unfold State.setFn; split <;> rfl
@[simp] theorem State.setFn_hostRead (q : Nat) (x : PcieFn) : (s.setFn q x).hostRead = s.hostRead := by unfold State.setFn; split <;> rfl
@[simp] theorem State.setFn_freeCtr (q : Nat) (x : PcieFn) : (s.setFn q x).freeCtr = s.freeCtr := by unfold State.setFn; split <;> rfl
@[simp] theorem State.setFn_col (q : Nat) (x : PcieFn) : (s.setFn q x).col = s.col := by unfold State.setFn; split <;> rfl
@[simp] theorem State.setFn_dma (q : Nat) (x : PcieFn) : (s.setFn q x).dma = s.dma := by unfold State.setFn; split <;> rfl
@[simp] theorem State.setFn_mm (q : Nat) (x : PcieFn) : (s.setFn q x).mm = s.mm := by unfold State.setFn; split <;> rfl
@[simp] theorem State.setFn_pwr (q : Nat) (x : PcieFn) : (s.setFn q x).pwr = s.pwr := by unfold State.setFn; split <;> rfl
@[simp] theorem State.setFn_engines (q : Nat) (x : PcieFn) : (s.setFn q x).engines = s.engines := by unfold State.setFn; split <;> rfl
@[simp] theorem State.setFn_spa (q : Nat) (x : PcieFn) : (s.setFn q x).spa = s.spa := by unfold State.setFn; split <;> rfl
@[simp] theorem State.setFn_spc (q : Nat) (x : PcieFn) : (s.setFn q x).spc = s.spc := by unfold State.setFn; split <;> rfl
@[simp] theorem State.setFn_ln (q : Nat) (x : PcieFn) : (s.setFn q x).ln = s.ln := by unfold State.setFn; split <;> rfl
@[simp] theorem State.setFn_fh (q : Nat) (x : PcieFn) : (s.setFn q x).fh = s.fh := by unfold State.setFn; split <;> rfl
@[simp] theorem State.setFn_stf (q : Nat) (x : PcieFn) : (s.setFn q x).stf = s.stf := by unfold State.setFn; split <;> rfl
@[simp] theorem State.setFn_cap (q : Nat) (x : PcieFn) : (s.setFn q x).cap = s.cap := by unfold State.setFn; split <;> rfl
@[simp] theorem State.setFn_rst (q : Nat) (x : PcieFn) : (s.setFn q x).rst = s.rst := by unfold State.setFn; split <;> rfl

/-! ### setMsix -/

@[simp] theorem State.setMsix_pending (q : Nat) (x : MsixEntry) : (s.setMsix q x).pending = s.pending := by unfold State.setMsix; split <;> rfl
@[simp] theorem State.setMsix_regs (q : Nat) (x : MsixEntry) : (s.setMsix q x).regs = s.regs := by unfold State.setMsix; split <;> rfl
@[simp] theorem State.setMsix_mem (q : Nat) (x : MsixEntry) : (s.setMsix q x).mem = s.mem := by unfold State.setMsix; split <;> rfl
@[simp] theorem State.setMsix_glb (q : Nat) (x : MsixEntry) : (s.setMsix q x).glb = s.glb := by unfold State.setMsix; split <;> rfl
@[simp] theorem State.setMsix_tb (q : Nat) (x : MsixEntry) : (s.setMsix q x).tb = s.tb := by unfold State.setMsix; split <;> rfl
@[simp] theorem State.setMsix_slt (q : Nat) (x : MsixEntry) : (s.setMsix q x).slt = s.slt := by unfold State.setMsix; split <;> rfl
@[simp] theorem State.setMsix_qm (q : Nat) (x : MsixEntry) : (s.setMsix q x).qm = s.qm := by unfold State.setMsix; split <;> rfl
@[simp] theorem State.setMsix_spn (q : Nat) (x : MsixEntry) : (s.setMsix q x).spn = s.spn := by unfold State.setMsix; split <;> rfl
@[simp] theorem State.setMsix_gth (q : Nat) (x : MsixEntry) : (s.setMsix q x).gth = s.gth := by unfold State.setMsix; split <;> rfl
@[simp] theorem State.setMsix_qui (q : Nat) (x : MsixEntry) : (s.setMsix q x).qui = s.qui := by unfold State.setMsix; split <;> rfl
@[simp] theorem State.setMsix_notifies (q : Nat) (x : MsixEntry) : (s.setMsix q x).notifies = s.notifies := by unfold State.setMsix; split <;> rfl
@[simp] theorem State.setMsix_out (q : Nat) (x : MsixEntry) : (s.setMsix q x).out = s.out := by unfold State.setMsix; split <;> rfl
@[simp] theorem State.setMsix_bus (q : Nat) (x : MsixEntry) : (s.setMsix q x).bus = s.bus := by unfold State.setMsix; split <;> rfl
@[simp] theorem State.setMsix_hostRead (q : Nat) (x : MsixEntry) : (s.setMsix q x).hostRead = s.hostRead := by unfold State.setMsix; split <;> rfl
@[simp] theorem State.setMsix_freeCtr (q : Nat) (x : MsixEntry) : (s.setMsix q x).freeCtr = s.freeCtr := by unfold State.setMsix; split <;> rfl
@[simp] theorem State.setMsix_col (q : Nat) (x : MsixEntry) : (s.setMsix q x).col = s.col := by unfold State.setMsix; split <;> rfl
@[simp] theorem State.setMsix_dma (q : Nat) (x : MsixEntry) : (s.setMsix q x).dma = s.dma := by unfold State.setMsix; split <;> rfl
@[simp] theorem State.setMsix_mm (q : Nat) (x : MsixEntry) : (s.setMsix q x).mm = s.mm := by unfold State.setMsix; split <;> rfl
@[simp] theorem State.setMsix_pwr (q : Nat) (x : MsixEntry) : (s.setMsix q x).pwr = s.pwr := by unfold State.setMsix; split <;> rfl
@[simp] theorem State.setMsix_engines (q : Nat) (x : MsixEntry) : (s.setMsix q x).engines = s.engines := by unfold State.setMsix; split <;> rfl
@[simp] theorem State.setMsix_spa (q : Nat) (x : MsixEntry) : (s.setMsix q x).spa = s.spa := by unfold State.setMsix; split <;> rfl
@[simp] theorem State.setMsix_spc (q : Nat) (x : MsixEntry) : (s.setMsix q x).spc = s.spc := by unfold State.setMsix; split <;> rfl
@[simp] theorem State.setMsix_ln (q : Nat) (x : MsixEntry) : (s.setMsix q x).ln = s.ln := by unfold State.setMsix; split <;> rfl
@[simp] theorem State.setMsix_fh (q : Nat) (x : MsixEntry) : (s.setMsix q x).fh = s.fh := by unfold State.setMsix; split <;> rfl
@[simp] theorem State.setMsix_stf (q : Nat) (x : MsixEntry) : (s.setMsix q x).stf = s.stf := by unfold State.setMsix; split <;> rfl
@[simp] theorem State.setMsix_cap (q : Nat) (x : MsixEntry) : (s.setMsix q x).cap = s.cap := by unfold State.setMsix; split <;> rfl
@[simp] theorem State.setMsix_rst (q : Nat) (x : MsixEntry) : (s.setMsix q x).rst = s.rst := by unfold State.setMsix; split <;> rfl

/-! ### setQueue -/

@[simp] theorem State.setQueue_pending (q : Nat) (x : Queue) : (s.setQueue q x).pending = s.pending := by unfold State.setQueue; split <;> rfl
@[simp] theorem State.setQueue_regs (q : Nat) (x : Queue) : (s.setQueue q x).regs = s.regs := by unfold State.setQueue; split <;> rfl
@[simp] theorem State.setQueue_mem (q : Nat) (x : Queue) : (s.setQueue q x).mem = s.mem := by unfold State.setQueue; split <;> rfl
@[simp] theorem State.setQueue_glb (q : Nat) (x : Queue) : (s.setQueue q x).glb = s.glb := by unfold State.setQueue; split <;> rfl
@[simp] theorem State.setQueue_tb (q : Nat) (x : Queue) : (s.setQueue q x).tb = s.tb := by unfold State.setQueue; split <;> rfl
@[simp] theorem State.setQueue_slt (q : Nat) (x : Queue) : (s.setQueue q x).slt = s.slt := by unfold State.setQueue; split <;> rfl
@[simp] theorem State.setQueue_hp (q : Nat) (x : Queue) : (s.setQueue q x).hp = s.hp := by unfold State.setQueue; split <;> rfl
@[simp] theorem State.setQueue_spn (q : Nat) (x : Queue) : (s.setQueue q x).spn = s.spn := by unfold State.setQueue; split <;> rfl
@[simp] theorem State.setQueue_gth (q : Nat) (x : Queue) : (s.setQueue q x).gth = s.gth := by unfold State.setQueue; split <;> rfl
@[simp] theorem State.setQueue_qui (q : Nat) (x : Queue) : (s.setQueue q x).qui = s.qui := by unfold State.setQueue; split <;> rfl
@[simp] theorem State.setQueue_notifies (q : Nat) (x : Queue) : (s.setQueue q x).notifies = s.notifies := by unfold State.setQueue; split <;> rfl
@[simp] theorem State.setQueue_out (q : Nat) (x : Queue) : (s.setQueue q x).out = s.out := by unfold State.setQueue; split <;> rfl
@[simp] theorem State.setQueue_bus (q : Nat) (x : Queue) : (s.setQueue q x).bus = s.bus := by unfold State.setQueue; split <;> rfl
@[simp] theorem State.setQueue_hostRead (q : Nat) (x : Queue) : (s.setQueue q x).hostRead = s.hostRead := by unfold State.setQueue; split <;> rfl
@[simp] theorem State.setQueue_freeCtr (q : Nat) (x : Queue) : (s.setQueue q x).freeCtr = s.freeCtr := by unfold State.setQueue; split <;> rfl
@[simp] theorem State.setQueue_col (q : Nat) (x : Queue) : (s.setQueue q x).col = s.col := by unfold State.setQueue; split <;> rfl
@[simp] theorem State.setQueue_dma (q : Nat) (x : Queue) : (s.setQueue q x).dma = s.dma := by unfold State.setQueue; split <;> rfl
@[simp] theorem State.setQueue_mm (q : Nat) (x : Queue) : (s.setQueue q x).mm = s.mm := by unfold State.setQueue; split <;> rfl
@[simp] theorem State.setQueue_pwr (q : Nat) (x : Queue) : (s.setQueue q x).pwr = s.pwr := by unfold State.setQueue; split <;> rfl
@[simp] theorem State.setQueue_engines (q : Nat) (x : Queue) : (s.setQueue q x).engines = s.engines := by unfold State.setQueue; split <;> rfl
@[simp] theorem State.setQueue_spa (q : Nat) (x : Queue) : (s.setQueue q x).spa = s.spa := by unfold State.setQueue; split <;> rfl
@[simp] theorem State.setQueue_spc (q : Nat) (x : Queue) : (s.setQueue q x).spc = s.spc := by unfold State.setQueue; split <;> rfl
@[simp] theorem State.setQueue_ln (q : Nat) (x : Queue) : (s.setQueue q x).ln = s.ln := by unfold State.setQueue; split <;> rfl
@[simp] theorem State.setQueue_fh (q : Nat) (x : Queue) : (s.setQueue q x).fh = s.fh := by unfold State.setQueue; split <;> rfl
@[simp] theorem State.setQueue_stf (q : Nat) (x : Queue) : (s.setQueue q x).stf = s.stf := by unfold State.setQueue; split <;> rfl
@[simp] theorem State.setQueue_cap (q : Nat) (x : Queue) : (s.setQueue q x).cap = s.cap := by unfold State.setQueue; split <;> rfl
@[simp] theorem State.setQueue_rst (q : Nat) (x : Queue) : (s.setQueue q x).rst = s.rst := by unfold State.setQueue; split <;> rfl

/-! ### setArbiter -/

@[simp] theorem State.setArbiter_pending (q : Nat) (x : Arbiter) : (s.setArbiter q x).pending = s.pending := by unfold State.setArbiter; split <;> rfl
@[simp] theorem State.setArbiter_regs (q : Nat) (x : Arbiter) : (s.setArbiter q x).regs = s.regs := by unfold State.setArbiter; split <;> rfl
@[simp] theorem State.setArbiter_mem (q : Nat) (x : Arbiter) : (s.setArbiter q x).mem = s.mem := by unfold State.setArbiter; split <;> rfl
@[simp] theorem State.setArbiter_glb (q : Nat) (x : Arbiter) : (s.setArbiter q x).glb = s.glb := by unfold State.setArbiter; split <;> rfl
@[simp] theorem State.setArbiter_tb (q : Nat) (x : Arbiter) : (s.setArbiter q x).tb = s.tb := by unfold State.setArbiter; split <;> rfl
@[simp] theorem State.setArbiter_slt (q : Nat) (x : Arbiter) : (s.setArbiter q x).slt = s.slt := by unfold State.setArbiter; split <;> rfl
@[simp] theorem State.setArbiter_hp (q : Nat) (x : Arbiter) : (s.setArbiter q x).hp = s.hp := by unfold State.setArbiter; split <;> rfl
@[simp] theorem State.setArbiter_qm (q : Nat) (x : Arbiter) : (s.setArbiter q x).qm = s.qm := by unfold State.setArbiter; split <;> rfl
@[simp] theorem State.setArbiter_gth (q : Nat) (x : Arbiter) : (s.setArbiter q x).gth = s.gth := by unfold State.setArbiter; split <;> rfl
@[simp] theorem State.setArbiter_qui (q : Nat) (x : Arbiter) : (s.setArbiter q x).qui = s.qui := by unfold State.setArbiter; split <;> rfl
@[simp] theorem State.setArbiter_notifies (q : Nat) (x : Arbiter) : (s.setArbiter q x).notifies = s.notifies := by unfold State.setArbiter; split <;> rfl
@[simp] theorem State.setArbiter_out (q : Nat) (x : Arbiter) : (s.setArbiter q x).out = s.out := by unfold State.setArbiter; split <;> rfl
@[simp] theorem State.setArbiter_bus (q : Nat) (x : Arbiter) : (s.setArbiter q x).bus = s.bus := by unfold State.setArbiter; split <;> rfl
@[simp] theorem State.setArbiter_hostRead (q : Nat) (x : Arbiter) : (s.setArbiter q x).hostRead = s.hostRead := by unfold State.setArbiter; split <;> rfl
@[simp] theorem State.setArbiter_freeCtr (q : Nat) (x : Arbiter) : (s.setArbiter q x).freeCtr = s.freeCtr := by unfold State.setArbiter; split <;> rfl
@[simp] theorem State.setArbiter_col (q : Nat) (x : Arbiter) : (s.setArbiter q x).col = s.col := by unfold State.setArbiter; split <;> rfl
@[simp] theorem State.setArbiter_dma (q : Nat) (x : Arbiter) : (s.setArbiter q x).dma = s.dma := by unfold State.setArbiter; split <;> rfl
@[simp] theorem State.setArbiter_mm (q : Nat) (x : Arbiter) : (s.setArbiter q x).mm = s.mm := by unfold State.setArbiter; split <;> rfl
@[simp] theorem State.setArbiter_pwr (q : Nat) (x : Arbiter) : (s.setArbiter q x).pwr = s.pwr := by unfold State.setArbiter; split <;> rfl
@[simp] theorem State.setArbiter_engines (q : Nat) (x : Arbiter) : (s.setArbiter q x).engines = s.engines := by unfold State.setArbiter; split <;> rfl
@[simp] theorem State.setArbiter_spa (q : Nat) (x : Arbiter) : (s.setArbiter q x).spa = s.spa := by unfold State.setArbiter; split <;> rfl
@[simp] theorem State.setArbiter_spc (q : Nat) (x : Arbiter) : (s.setArbiter q x).spc = s.spc := by unfold State.setArbiter; split <;> rfl
@[simp] theorem State.setArbiter_ln (q : Nat) (x : Arbiter) : (s.setArbiter q x).ln = s.ln := by unfold State.setArbiter; split <;> rfl
@[simp] theorem State.setArbiter_fh (q : Nat) (x : Arbiter) : (s.setArbiter q x).fh = s.fh := by unfold State.setArbiter; split <;> rfl
@[simp] theorem State.setArbiter_stf (q : Nat) (x : Arbiter) : (s.setArbiter q x).stf = s.stf := by unfold State.setArbiter; split <;> rfl
@[simp] theorem State.setArbiter_cap (q : Nat) (x : Arbiter) : (s.setArbiter q x).cap = s.cap := by unfold State.setArbiter; split <;> rfl
@[simp] theorem State.setArbiter_rst (q : Nat) (x : Arbiter) : (s.setArbiter q x).rst = s.rst := by unfold State.setArbiter; split <;> rfl

/-! ### setTask -/

@[simp] theorem State.setTask_pending (q : Nat) (x : Task) : (s.setTask q x).pending = s.pending := by unfold State.setTask; split <;> rfl
@[simp] theorem State.setTask_regs (q : Nat) (x : Task) : (s.setTask q x).regs = s.regs := by unfold State.setTask; split <;> rfl
@[simp] theorem State.setTask_mem (q : Nat) (x : Task) : (s.setTask q x).mem = s.mem := by unfold State.setTask; split <;> rfl
@[simp] theorem State.setTask_glb (q : Nat) (x : Task) : (s.setTask q x).glb = s.glb := by unfold State.setTask; split <;> rfl
@[simp] theorem State.setTask_tb (q : Nat) (x : Task) : (s.setTask q x).tb = s.tb := by unfold State.setTask; split <;> rfl
@[simp] theorem State.setTask_slt (q : Nat) (x : Task) : (s.setTask q x).slt = s.slt := by unfold State.setTask; split <;> rfl
@[simp] theorem State.setTask_hp (q : Nat) (x : Task) : (s.setTask q x).hp = s.hp := by unfold State.setTask; split <;> rfl
@[simp] theorem State.setTask_qm (q : Nat) (x : Task) : (s.setTask q x).qm = s.qm := by unfold State.setTask; split <;> rfl
@[simp] theorem State.setTask_spn (q : Nat) (x : Task) : (s.setTask q x).spn = s.spn := by unfold State.setTask; split <;> rfl
@[simp] theorem State.setTask_qui (q : Nat) (x : Task) : (s.setTask q x).qui = s.qui := by unfold State.setTask; split <;> rfl
@[simp] theorem State.setTask_notifies (q : Nat) (x : Task) : (s.setTask q x).notifies = s.notifies := by unfold State.setTask; split <;> rfl
@[simp] theorem State.setTask_out (q : Nat) (x : Task) : (s.setTask q x).out = s.out := by unfold State.setTask; split <;> rfl
@[simp] theorem State.setTask_bus (q : Nat) (x : Task) : (s.setTask q x).bus = s.bus := by unfold State.setTask; split <;> rfl
@[simp] theorem State.setTask_hostRead (q : Nat) (x : Task) : (s.setTask q x).hostRead = s.hostRead := by unfold State.setTask; split <;> rfl
@[simp] theorem State.setTask_freeCtr (q : Nat) (x : Task) : (s.setTask q x).freeCtr = s.freeCtr := by unfold State.setTask; split <;> rfl
@[simp] theorem State.setTask_col (q : Nat) (x : Task) : (s.setTask q x).col = s.col := by unfold State.setTask; split <;> rfl
@[simp] theorem State.setTask_dma (q : Nat) (x : Task) : (s.setTask q x).dma = s.dma := by unfold State.setTask; split <;> rfl
@[simp] theorem State.setTask_mm (q : Nat) (x : Task) : (s.setTask q x).mm = s.mm := by unfold State.setTask; split <;> rfl
@[simp] theorem State.setTask_pwr (q : Nat) (x : Task) : (s.setTask q x).pwr = s.pwr := by unfold State.setTask; split <;> rfl
@[simp] theorem State.setTask_engines (q : Nat) (x : Task) : (s.setTask q x).engines = s.engines := by unfold State.setTask; split <;> rfl
@[simp] theorem State.setTask_spa (q : Nat) (x : Task) : (s.setTask q x).spa = s.spa := by unfold State.setTask; split <;> rfl
@[simp] theorem State.setTask_spc (q : Nat) (x : Task) : (s.setTask q x).spc = s.spc := by unfold State.setTask; split <;> rfl
@[simp] theorem State.setTask_ln (q : Nat) (x : Task) : (s.setTask q x).ln = s.ln := by unfold State.setTask; split <;> rfl
@[simp] theorem State.setTask_fh (q : Nat) (x : Task) : (s.setTask q x).fh = s.fh := by unfold State.setTask; split <;> rfl
@[simp] theorem State.setTask_stf (q : Nat) (x : Task) : (s.setTask q x).stf = s.stf := by unfold State.setTask; split <;> rfl
@[simp] theorem State.setTask_cap (q : Nat) (x : Task) : (s.setTask q x).cap = s.cap := by unfold State.setTask; split <;> rfl
@[simp] theorem State.setTask_rst (q : Nat) (x : Task) : (s.setTask q x).rst = s.rst := by unfold State.setTask; split <;> rfl

/-! ### setSig -/

@[simp] theorem State.setSig_pending (q : Nat) (x : Signature) : (s.setSig q x).pending = s.pending := by unfold State.setSig; split <;> rfl
@[simp] theorem State.setSig_regs (q : Nat) (x : Signature) : (s.setSig q x).regs = s.regs := by unfold State.setSig; split <;> rfl
@[simp] theorem State.setSig_mem (q : Nat) (x : Signature) : (s.setSig q x).mem = s.mem := by unfold State.setSig; split <;> rfl
@[simp] theorem State.setSig_glb (q : Nat) (x : Signature) : (s.setSig q x).glb = s.glb := by unfold State.setSig; split <;> rfl
@[simp] theorem State.setSig_tb (q : Nat) (x : Signature) : (s.setSig q x).tb = s.tb := by unfold State.setSig; split <;> rfl
@[simp] theorem State.setSig_slt (q : Nat) (x : Signature) : (s.setSig q x).slt = s.slt := by unfold State.setSig; split <;> rfl
@[simp] theorem State.setSig_hp (q : Nat) (x : Signature) : (s.setSig q x).hp = s.hp := by unfold State.setSig; split <;> rfl
@[simp] theorem State.setSig_qm (q : Nat) (x : Signature) : (s.setSig q x).qm = s.qm := by unfold State.setSig; split <;> rfl
@[simp] theorem State.setSig_spn (q : Nat) (x : Signature) : (s.setSig q x).spn = s.spn := by unfold State.setSig; split <;> rfl
@[simp] theorem State.setSig_qui (q : Nat) (x : Signature) : (s.setSig q x).qui = s.qui := by unfold State.setSig; split <;> rfl
@[simp] theorem State.setSig_notifies (q : Nat) (x : Signature) : (s.setSig q x).notifies = s.notifies := by unfold State.setSig; split <;> rfl
@[simp] theorem State.setSig_out (q : Nat) (x : Signature) : (s.setSig q x).out = s.out := by unfold State.setSig; split <;> rfl
@[simp] theorem State.setSig_bus (q : Nat) (x : Signature) : (s.setSig q x).bus = s.bus := by unfold State.setSig; split <;> rfl
@[simp] theorem State.setSig_hostRead (q : Nat) (x : Signature) : (s.setSig q x).hostRead = s.hostRead := by unfold State.setSig; split <;> rfl
@[simp] theorem State.setSig_freeCtr (q : Nat) (x : Signature) : (s.setSig q x).freeCtr = s.freeCtr := by unfold State.setSig; split <;> rfl
@[simp] theorem State.setSig_col (q : Nat) (x : Signature) : (s.setSig q x).col = s.col := by unfold State.setSig; split <;> rfl
@[simp] theorem State.setSig_dma (q : Nat) (x : Signature) : (s.setSig q x).dma = s.dma := by unfold State.setSig; split <;> rfl
@[simp] theorem State.setSig_mm (q : Nat) (x : Signature) : (s.setSig q x).mm = s.mm := by unfold State.setSig; split <;> rfl
@[simp] theorem State.setSig_pwr (q : Nat) (x : Signature) : (s.setSig q x).pwr = s.pwr := by unfold State.setSig; split <;> rfl
@[simp] theorem State.setSig_engines (q : Nat) (x : Signature) : (s.setSig q x).engines = s.engines := by unfold State.setSig; split <;> rfl
@[simp] theorem State.setSig_spa (q : Nat) (x : Signature) : (s.setSig q x).spa = s.spa := by unfold State.setSig; split <;> rfl
@[simp] theorem State.setSig_spc (q : Nat) (x : Signature) : (s.setSig q x).spc = s.spc := by unfold State.setSig; split <;> rfl
@[simp] theorem State.setSig_ln (q : Nat) (x : Signature) : (s.setSig q x).ln = s.ln := by unfold State.setSig; split <;> rfl
@[simp] theorem State.setSig_fh (q : Nat) (x : Signature) : (s.setSig q x).fh = s.fh := by unfold State.setSig; split <;> rfl
@[simp] theorem State.setSig_stf (q : Nat) (x : Signature) : (s.setSig q x).stf = s.stf := by unfold State.setSig; split <;> rfl
@[simp] theorem State.setSig_cap (q : Nat) (x : Signature) : (s.setSig q x).cap = s.cap := by unfold State.setSig; split <;> rfl
@[simp] theorem State.setSig_rst (q : Nat) (x : Signature) : (s.setSig q x).rst = s.rst := by unfold State.setSig; split <;> rfl

/-! ### setLeaf -/

@[simp] theorem State.setLeaf_pending (q : Nat) (x : Leaf) : (s.setLeaf q x).pending = s.pending := by unfold State.setLeaf; split <;> rfl
@[simp] theorem State.setLeaf_regs (q : Nat) (x : Leaf) : (s.setLeaf q x).regs = s.regs := by unfold State.setLeaf; split <;> rfl
@[simp] theorem State.setLeaf_mem (q : Nat) (x : Leaf) : (s.setLeaf q x).mem = s.mem := by unfold State.setLeaf; split <;> rfl
@[simp] theorem State.setLeaf_glb (q : Nat) (x : Leaf) : (s.setLeaf q x).glb = s.glb := by unfold State.setLeaf; split <;> rfl
@[simp] theorem State.setLeaf_tb (q : Nat) (x : Leaf) : (s.setLeaf q x).tb = s.tb := by unfold State.setLeaf; split <;> rfl
@[simp] theorem State.setLeaf_slt (q : Nat) (x : Leaf) : (s.setLeaf q x).slt = s.slt := by unfold State.setLeaf; split <;> rfl
@[simp] theorem State.setLeaf_hp (q : Nat) (x : Leaf) : (s.setLeaf q x).hp = s.hp := by unfold State.setLeaf; split <;> rfl
@[simp] theorem State.setLeaf_qm (q : Nat) (x : Leaf) : (s.setLeaf q x).qm = s.qm := by unfold State.setLeaf; split <;> rfl
@[simp] theorem State.setLeaf_spn (q : Nat) (x : Leaf) : (s.setLeaf q x).spn = s.spn := by unfold State.setLeaf; split <;> rfl
@[simp] theorem State.setLeaf_gth (q : Nat) (x : Leaf) : (s.setLeaf q x).gth = s.gth := by unfold State.setLeaf; split <;> rfl
@[simp] theorem State.setLeaf_notifies (q : Nat) (x : Leaf) : (s.setLeaf q x).notifies = s.notifies := by unfold State.setLeaf; split <;> rfl
@[simp] theorem State.setLeaf_out (q : Nat) (x : Leaf) : (s.setLeaf q x).out = s.out := by unfold State.setLeaf; split <;> rfl
@[simp] theorem State.setLeaf_bus (q : Nat) (x : Leaf) : (s.setLeaf q x).bus = s.bus := by unfold State.setLeaf; split <;> rfl
@[simp] theorem State.setLeaf_hostRead (q : Nat) (x : Leaf) : (s.setLeaf q x).hostRead = s.hostRead := by unfold State.setLeaf; split <;> rfl
@[simp] theorem State.setLeaf_freeCtr (q : Nat) (x : Leaf) : (s.setLeaf q x).freeCtr = s.freeCtr := by unfold State.setLeaf; split <;> rfl
@[simp] theorem State.setLeaf_col (q : Nat) (x : Leaf) : (s.setLeaf q x).col = s.col := by unfold State.setLeaf; split <;> rfl
@[simp] theorem State.setLeaf_dma (q : Nat) (x : Leaf) : (s.setLeaf q x).dma = s.dma := by unfold State.setLeaf; split <;> rfl
@[simp] theorem State.setLeaf_mm (q : Nat) (x : Leaf) : (s.setLeaf q x).mm = s.mm := by unfold State.setLeaf; split <;> rfl
@[simp] theorem State.setLeaf_pwr (q : Nat) (x : Leaf) : (s.setLeaf q x).pwr = s.pwr := by unfold State.setLeaf; split <;> rfl
@[simp] theorem State.setLeaf_engines (q : Nat) (x : Leaf) : (s.setLeaf q x).engines = s.engines := by unfold State.setLeaf; split <;> rfl
@[simp] theorem State.setLeaf_spa (q : Nat) (x : Leaf) : (s.setLeaf q x).spa = s.spa := by unfold State.setLeaf; split <;> rfl
@[simp] theorem State.setLeaf_spc (q : Nat) (x : Leaf) : (s.setLeaf q x).spc = s.spc := by unfold State.setLeaf; split <;> rfl
@[simp] theorem State.setLeaf_ln (q : Nat) (x : Leaf) : (s.setLeaf q x).ln = s.ln := by unfold State.setLeaf; split <;> rfl
@[simp] theorem State.setLeaf_fh (q : Nat) (x : Leaf) : (s.setLeaf q x).fh = s.fh := by unfold State.setLeaf; split <;> rfl
@[simp] theorem State.setLeaf_stf (q : Nat) (x : Leaf) : (s.setLeaf q x).stf = s.stf := by unfold State.setLeaf; split <;> rfl
@[simp] theorem State.setLeaf_cap (q : Nat) (x : Leaf) : (s.setLeaf q x).cap = s.cap := by unfold State.setLeaf; split <;> rfl
@[simp] theorem State.setLeaf_rst (q : Nat) (x : Leaf) : (s.setLeaf q x).rst = s.rst := by unfold State.setLeaf; split <;> rfl

/-! ### setChan -/

@[simp] theorem State.setChan_pending (q : Nat) (x : DmaChan) : (s.setChan q x).pending = s.pending := by unfold State.setChan; split <;> rfl
@[simp] theorem State.setChan_regs (q : Nat) (x : DmaChan) : (s.setChan q x).regs = s.regs := by unfold State.setChan; split <;> rfl
@[simp] theorem State.setChan_mem (q : Nat) (x : DmaChan) : (s.setChan q x).mem = s.mem := by unfold State.setChan; split <;> rfl
@[simp] theorem State.setChan_glb (q : Nat) (x : DmaChan) : (s.setChan q x).glb = s.glb := by unfold State.setChan; split <;> rfl
@[simp] theorem State.setChan_tb (q : Nat) (x : DmaChan) : (s.setChan q x).tb = s.tb := by unfold State.setChan; split <;> rfl
@[simp] theorem State.setChan_slt (q : Nat) (x : DmaChan) : (s.setChan q x).slt = s.slt := by unfold State.setChan; split <;> rfl
@[simp] theorem State.setChan_hp (q : Nat) (x : DmaChan) : (s.setChan q x).hp = s.hp := by unfold State.setChan; split <;> rfl
@[simp] theorem State.setChan_qm (q : Nat) (x : DmaChan) : (s.setChan q x).qm = s.qm := by unfold State.setChan; split <;> rfl
@[simp] theorem State.setChan_spn (q : Nat) (x : DmaChan) : (s.setChan q x).spn = s.spn := by unfold State.setChan; split <;> rfl
@[simp] theorem State.setChan_gth (q : Nat) (x : DmaChan) : (s.setChan q x).gth = s.gth := by unfold State.setChan; split <;> rfl
@[simp] theorem State.setChan_qui (q : Nat) (x : DmaChan) : (s.setChan q x).qui = s.qui := by unfold State.setChan; split <;> rfl
@[simp] theorem State.setChan_notifies (q : Nat) (x : DmaChan) : (s.setChan q x).notifies = s.notifies := by unfold State.setChan; split <;> rfl
@[simp] theorem State.setChan_out (q : Nat) (x : DmaChan) : (s.setChan q x).out = s.out := by unfold State.setChan; split <;> rfl
@[simp] theorem State.setChan_bus (q : Nat) (x : DmaChan) : (s.setChan q x).bus = s.bus := by unfold State.setChan; split <;> rfl
@[simp] theorem State.setChan_hostRead (q : Nat) (x : DmaChan) : (s.setChan q x).hostRead = s.hostRead := by unfold State.setChan; split <;> rfl
@[simp] theorem State.setChan_freeCtr (q : Nat) (x : DmaChan) : (s.setChan q x).freeCtr = s.freeCtr := by unfold State.setChan; split <;> rfl
@[simp] theorem State.setChan_col (q : Nat) (x : DmaChan) : (s.setChan q x).col = s.col := by unfold State.setChan; split <;> rfl
@[simp] theorem State.setChan_mm (q : Nat) (x : DmaChan) : (s.setChan q x).mm = s.mm := by unfold State.setChan; split <;> rfl
@[simp] theorem State.setChan_pwr (q : Nat) (x : DmaChan) : (s.setChan q x).pwr = s.pwr := by unfold State.setChan; split <;> rfl
@[simp] theorem State.setChan_engines (q : Nat) (x : DmaChan) : (s.setChan q x).engines = s.engines := by unfold State.setChan; split <;> rfl
@[simp] theorem State.setChan_spa (q : Nat) (x : DmaChan) : (s.setChan q x).spa = s.spa := by unfold State.setChan; split <;> rfl
@[simp] theorem State.setChan_spc (q : Nat) (x : DmaChan) : (s.setChan q x).spc = s.spc := by unfold State.setChan; split <;> rfl
@[simp] theorem State.setChan_ln (q : Nat) (x : DmaChan) : (s.setChan q x).ln = s.ln := by unfold State.setChan; split <;> rfl
@[simp] theorem State.setChan_fh (q : Nat) (x : DmaChan) : (s.setChan q x).fh = s.fh := by unfold State.setChan; split <;> rfl
@[simp] theorem State.setChan_stf (q : Nat) (x : DmaChan) : (s.setChan q x).stf = s.stf := by unfold State.setChan; split <;> rfl
@[simp] theorem State.setChan_cap (q : Nat) (x : DmaChan) : (s.setChan q x).cap = s.cap := by unfold State.setChan; split <;> rfl
@[simp] theorem State.setChan_rst (q : Nat) (x : DmaChan) : (s.setChan q x).rst = s.rst := by unfold State.setChan; split <;> rfl

/-! ### setCarrier -/

@[simp] theorem State.setCarrier_pending (q : Nat) (x : Carrier) : (s.setCarrier q x).pending = s.pending := by unfold State.setCarrier; split <;> rfl
@[simp] theorem State.setCarrier_regs (q : Nat) (x : Carrier) : (s.setCarrier q x).regs = s.regs := by unfold State.setCarrier; split <;> rfl
@[simp] theorem State.setCarrier_mem (q : Nat) (x : Carrier) : (s.setCarrier q x).mem = s.mem := by unfold State.setCarrier; split <;> rfl
@[simp] theorem State.setCarrier_glb (q : Nat) (x : Carrier) : (s.setCarrier q x).glb = s.glb := by unfold State.setCarrier; split <;> rfl
@[simp] theorem State.setCarrier_tb (q : Nat) (x : Carrier) : (s.setCarrier q x).tb = s.tb := by unfold State.setCarrier; split <;> rfl
@[simp] theorem State.setCarrier_hp (q : Nat) (x : Carrier) : (s.setCarrier q x).hp = s.hp := by unfold State.setCarrier; split <;> rfl
@[simp] theorem State.setCarrier_qm (q : Nat) (x : Carrier) : (s.setCarrier q x).qm = s.qm := by unfold State.setCarrier; split <;> rfl
@[simp] theorem State.setCarrier_spn (q : Nat) (x : Carrier) : (s.setCarrier q x).spn = s.spn := by unfold State.setCarrier; split <;> rfl
@[simp] theorem State.setCarrier_gth (q : Nat) (x : Carrier) : (s.setCarrier q x).gth = s.gth := by unfold State.setCarrier; split <;> rfl
@[simp] theorem State.setCarrier_qui (q : Nat) (x : Carrier) : (s.setCarrier q x).qui = s.qui := by unfold State.setCarrier; split <;> rfl
@[simp] theorem State.setCarrier_notifies (q : Nat) (x : Carrier) : (s.setCarrier q x).notifies = s.notifies := by unfold State.setCarrier; split <;> rfl
@[simp] theorem State.setCarrier_out (q : Nat) (x : Carrier) : (s.setCarrier q x).out = s.out := by unfold State.setCarrier; split <;> rfl
@[simp] theorem State.setCarrier_bus (q : Nat) (x : Carrier) : (s.setCarrier q x).bus = s.bus := by unfold State.setCarrier; split <;> rfl
@[simp] theorem State.setCarrier_hostRead (q : Nat) (x : Carrier) : (s.setCarrier q x).hostRead = s.hostRead := by unfold State.setCarrier; split <;> rfl
@[simp] theorem State.setCarrier_freeCtr (q : Nat) (x : Carrier) : (s.setCarrier q x).freeCtr = s.freeCtr := by unfold State.setCarrier; split <;> rfl
@[simp] theorem State.setCarrier_col (q : Nat) (x : Carrier) : (s.setCarrier q x).col = s.col := by unfold State.setCarrier; split <;> rfl
@[simp] theorem State.setCarrier_dma (q : Nat) (x : Carrier) : (s.setCarrier q x).dma = s.dma := by unfold State.setCarrier; split <;> rfl
@[simp] theorem State.setCarrier_mm (q : Nat) (x : Carrier) : (s.setCarrier q x).mm = s.mm := by unfold State.setCarrier; split <;> rfl
@[simp] theorem State.setCarrier_pwr (q : Nat) (x : Carrier) : (s.setCarrier q x).pwr = s.pwr := by unfold State.setCarrier; split <;> rfl
@[simp] theorem State.setCarrier_engines (q : Nat) (x : Carrier) : (s.setCarrier q x).engines = s.engines := by unfold State.setCarrier; split <;> rfl
@[simp] theorem State.setCarrier_spa (q : Nat) (x : Carrier) : (s.setCarrier q x).spa = s.spa := by unfold State.setCarrier; split <;> rfl
@[simp] theorem State.setCarrier_spc (q : Nat) (x : Carrier) : (s.setCarrier q x).spc = s.spc := by unfold State.setCarrier; split <;> rfl
@[simp] theorem State.setCarrier_ln (q : Nat) (x : Carrier) : (s.setCarrier q x).ln = s.ln := by unfold State.setCarrier; split <;> rfl
@[simp] theorem State.setCarrier_fh (q : Nat) (x : Carrier) : (s.setCarrier q x).fh = s.fh := by unfold State.setCarrier; split <;> rfl
@[simp] theorem State.setCarrier_stf (q : Nat) (x : Carrier) : (s.setCarrier q x).stf = s.stf := by unfold State.setCarrier; split <;> rfl
@[simp] theorem State.setCarrier_cap (q : Nat) (x : Carrier) : (s.setCarrier q x).cap = s.cap := by unfold State.setCarrier; split <;> rfl
@[simp] theorem State.setCarrier_rst (q : Nat) (x : Carrier) : (s.setCarrier q x).rst = s.rst := by unfold State.setCarrier; split <;> rfl

/-! ### setEngine -/

@[simp] theorem State.setEngine_pending (q : Nat) (x : Engine) : (s.setEngine q x).pending = s.pending := by unfold State.setEngine; split <;> rfl
@[simp] theorem State.setEngine_regs (q : Nat) (x : Engine) : (s.setEngine q x).regs = s.regs := by unfold State.setEngine; split <;> rfl
@[simp] theorem State.setEngine_mem (q : Nat) (x : Engine) : (s.setEngine q x).mem = s.mem := by unfold State.setEngine; split <;> rfl
@[simp] theorem State.setEngine_glb (q : Nat) (x : Engine) : (s.setEngine q x).glb = s.glb := by unfold State.setEngine; split <;> rfl
@[simp] theorem State.setEngine_tb (q : Nat) (x : Engine) : (s.setEngine q x).tb = s.tb := by unfold State.setEngine; split <;> rfl
@[simp] theorem State.setEngine_slt (q : Nat) (x : Engine) : (s.setEngine q x).slt = s.slt := by unfold State.setEngine; split <;> rfl
@[simp] theorem State.setEngine_hp (q : Nat) (x : Engine) : (s.setEngine q x).hp = s.hp := by unfold State.setEngine; split <;> rfl
@[simp] theorem State.setEngine_qm (q : Nat) (x : Engine) : (s.setEngine q x).qm = s.qm := by unfold State.setEngine; split <;> rfl
@[simp] theorem State.setEngine_spn (q : Nat) (x : Engine) : (s.setEngine q x).spn = s.spn := by unfold State.setEngine; split <;> rfl
@[simp] theorem State.setEngine_gth (q : Nat) (x : Engine) : (s.setEngine q x).gth = s.gth := by unfold State.setEngine; split <;> rfl
@[simp] theorem State.setEngine_qui (q : Nat) (x : Engine) : (s.setEngine q x).qui = s.qui := by unfold State.setEngine; split <;> rfl
@[simp] theorem State.setEngine_notifies (q : Nat) (x : Engine) : (s.setEngine q x).notifies = s.notifies := by unfold State.setEngine; split <;> rfl
@[simp] theorem State.setEngine_out (q : Nat) (x : Engine) : (s.setEngine q x).out = s.out := by unfold State.setEngine; split <;> rfl
@[simp] theorem State.setEngine_bus (q : Nat) (x : Engine) : (s.setEngine q x).bus = s.bus := by unfold State.setEngine; split <;> rfl
@[simp] theorem State.setEngine_hostRead (q : Nat) (x : Engine) : (s.setEngine q x).hostRead = s.hostRead := by unfold State.setEngine; split <;> rfl
@[simp] theorem State.setEngine_freeCtr (q : Nat) (x : Engine) : (s.setEngine q x).freeCtr = s.freeCtr := by unfold State.setEngine; split <;> rfl
@[simp] theorem State.setEngine_col (q : Nat) (x : Engine) : (s.setEngine q x).col = s.col := by unfold State.setEngine; split <;> rfl
@[simp] theorem State.setEngine_dma (q : Nat) (x : Engine) : (s.setEngine q x).dma = s.dma := by unfold State.setEngine; split <;> rfl
@[simp] theorem State.setEngine_mm (q : Nat) (x : Engine) : (s.setEngine q x).mm = s.mm := by unfold State.setEngine; split <;> rfl
@[simp] theorem State.setEngine_pwr (q : Nat) (x : Engine) : (s.setEngine q x).pwr = s.pwr := by unfold State.setEngine; split <;> rfl
@[simp] theorem State.setEngine_spa (q : Nat) (x : Engine) : (s.setEngine q x).spa = s.spa := by unfold State.setEngine; split <;> rfl
@[simp] theorem State.setEngine_spc (q : Nat) (x : Engine) : (s.setEngine q x).spc = s.spc := by unfold State.setEngine; split <;> rfl
@[simp] theorem State.setEngine_ln (q : Nat) (x : Engine) : (s.setEngine q x).ln = s.ln := by unfold State.setEngine; split <;> rfl
@[simp] theorem State.setEngine_fh (q : Nat) (x : Engine) : (s.setEngine q x).fh = s.fh := by unfold State.setEngine; split <;> rfl
@[simp] theorem State.setEngine_stf (q : Nat) (x : Engine) : (s.setEngine q x).stf = s.stf := by unfold State.setEngine; split <;> rfl
@[simp] theorem State.setEngine_cap (q : Nat) (x : Engine) : (s.setEngine q x).cap = s.cap := by unfold State.setEngine; split <;> rfl
@[simp] theorem State.setEngine_rst (q : Nat) (x : Engine) : (s.setEngine q x).rst = s.rst := by unfold State.setEngine; split <;> rfl

/-! ### setWbuf -/

@[simp] theorem State.setWbuf_pending (q : Nat) (x : WBuf) : (s.setWbuf q x).pending = s.pending := by unfold State.setWbuf; split <;> rfl
@[simp] theorem State.setWbuf_regs (q : Nat) (x : WBuf) : (s.setWbuf q x).regs = s.regs := by unfold State.setWbuf; split <;> rfl
@[simp] theorem State.setWbuf_mem (q : Nat) (x : WBuf) : (s.setWbuf q x).mem = s.mem := by unfold State.setWbuf; split <;> rfl
@[simp] theorem State.setWbuf_glb (q : Nat) (x : WBuf) : (s.setWbuf q x).glb = s.glb := by unfold State.setWbuf; split <;> rfl
@[simp] theorem State.setWbuf_tb (q : Nat) (x : WBuf) : (s.setWbuf q x).tb = s.tb := by unfold State.setWbuf; split <;> rfl
@[simp] theorem State.setWbuf_slt (q : Nat) (x : WBuf) : (s.setWbuf q x).slt = s.slt := by unfold State.setWbuf; split <;> rfl
@[simp] theorem State.setWbuf_hp (q : Nat) (x : WBuf) : (s.setWbuf q x).hp = s.hp := by unfold State.setWbuf; split <;> rfl
@[simp] theorem State.setWbuf_qm (q : Nat) (x : WBuf) : (s.setWbuf q x).qm = s.qm := by unfold State.setWbuf; split <;> rfl
@[simp] theorem State.setWbuf_spn (q : Nat) (x : WBuf) : (s.setWbuf q x).spn = s.spn := by unfold State.setWbuf; split <;> rfl
@[simp] theorem State.setWbuf_gth (q : Nat) (x : WBuf) : (s.setWbuf q x).gth = s.gth := by unfold State.setWbuf; split <;> rfl
@[simp] theorem State.setWbuf_qui (q : Nat) (x : WBuf) : (s.setWbuf q x).qui = s.qui := by unfold State.setWbuf; split <;> rfl
@[simp] theorem State.setWbuf_notifies (q : Nat) (x : WBuf) : (s.setWbuf q x).notifies = s.notifies := by unfold State.setWbuf; split <;> rfl
@[simp] theorem State.setWbuf_out (q : Nat) (x : WBuf) : (s.setWbuf q x).out = s.out := by unfold State.setWbuf; split <;> rfl
@[simp] theorem State.setWbuf_bus (q : Nat) (x : WBuf) : (s.setWbuf q x).bus = s.bus := by unfold State.setWbuf; split <;> rfl
@[simp] theorem State.setWbuf_hostRead (q : Nat) (x : WBuf) : (s.setWbuf q x).hostRead = s.hostRead := by unfold State.setWbuf; split <;> rfl
@[simp] theorem State.setWbuf_freeCtr (q : Nat) (x : WBuf) : (s.setWbuf q x).freeCtr = s.freeCtr := by unfold State.setWbuf; split <;> rfl
@[simp] theorem State.setWbuf_col (q : Nat) (x : WBuf) : (s.setWbuf q x).col = s.col := by unfold State.setWbuf; split <;> rfl
@[simp] theorem State.setWbuf_dma (q : Nat) (x : WBuf) : (s.setWbuf q x).dma = s.dma := by unfold State.setWbuf; split <;> rfl
@[simp] theorem State.setWbuf_mm (q : Nat) (x : WBuf) : (s.setWbuf q x).mm = s.mm := by unfold State.setWbuf; split <;> rfl
@[simp] theorem State.setWbuf_pwr (q : Nat) (x : WBuf) : (s.setWbuf q x).pwr = s.pwr := by unfold State.setWbuf; split <;> rfl
@[simp] theorem State.setWbuf_engines (q : Nat) (x : WBuf) : (s.setWbuf q x).engines = s.engines := by unfold State.setWbuf; split <;> rfl
@[simp] theorem State.setWbuf_spc (q : Nat) (x : WBuf) : (s.setWbuf q x).spc = s.spc := by unfold State.setWbuf; split <;> rfl
@[simp] theorem State.setWbuf_ln (q : Nat) (x : WBuf) : (s.setWbuf q x).ln = s.ln := by unfold State.setWbuf; split <;> rfl
@[simp] theorem State.setWbuf_fh (q : Nat) (x : WBuf) : (s.setWbuf q x).fh = s.fh := by unfold State.setWbuf; split <;> rfl
@[simp] theorem State.setWbuf_stf (q : Nat) (x : WBuf) : (s.setWbuf q x).stf = s.stf := by unfold State.setWbuf; split <;> rfl
@[simp] theorem State.setWbuf_cap (q : Nat) (x : WBuf) : (s.setWbuf q x).cap = s.cap := by unfold State.setWbuf; split <;> rfl
@[simp] theorem State.setWbuf_rst (q : Nat) (x : WBuf) : (s.setWbuf q x).rst = s.rst := by unfold State.setWbuf; split <;> rfl

/-! ### setStream -/

@[simp] theorem State.setStream_pending (q : Nat) (x : Streams) : (s.setStream q x).pending = s.pending := by unfold State.setStream; split <;> rfl
@[simp] theorem State.setStream_regs (q : Nat) (x : Streams) : (s.setStream q x).regs = s.regs := by unfold State.setStream; split <;> rfl
@[simp] theorem State.setStream_mem (q : Nat) (x : Streams) : (s.setStream q x).mem = s.mem := by unfold State.setStream; split <;> rfl
@[simp] theorem State.setStream_glb (q : Nat) (x : Streams) : (s.setStream q x).glb = s.glb := by unfold State.setStream; split <;> rfl
@[simp] theorem State.setStream_tb (q : Nat) (x : Streams) : (s.setStream q x).tb = s.tb := by unfold State.setStream; split <;> rfl
@[simp] theorem State.setStream_slt (q : Nat) (x : Streams) : (s.setStream q x).slt = s.slt := by unfold State.setStream; split <;> rfl
@[simp] theorem State.setStream_hp (q : Nat) (x : Streams) : (s.setStream q x).hp = s.hp := by unfold State.setStream; split <;> rfl
@[simp] theorem State.setStream_qm (q : Nat) (x : Streams) : (s.setStream q x).qm = s.qm := by unfold State.setStream; split <;> rfl
@[simp] theorem State.setStream_spn (q : Nat) (x : Streams) : (s.setStream q x).spn = s.spn := by unfold State.setStream; split <;> rfl
@[simp] theorem State.setStream_gth (q : Nat) (x : Streams) : (s.setStream q x).gth = s.gth := by unfold State.setStream; split <;> rfl
@[simp] theorem State.setStream_qui (q : Nat) (x : Streams) : (s.setStream q x).qui = s.qui := by unfold State.setStream; split <;> rfl
@[simp] theorem State.setStream_notifies (q : Nat) (x : Streams) : (s.setStream q x).notifies = s.notifies := by unfold State.setStream; split <;> rfl
@[simp] theorem State.setStream_out (q : Nat) (x : Streams) : (s.setStream q x).out = s.out := by unfold State.setStream; split <;> rfl
@[simp] theorem State.setStream_bus (q : Nat) (x : Streams) : (s.setStream q x).bus = s.bus := by unfold State.setStream; split <;> rfl
@[simp] theorem State.setStream_hostRead (q : Nat) (x : Streams) : (s.setStream q x).hostRead = s.hostRead := by unfold State.setStream; split <;> rfl
@[simp] theorem State.setStream_freeCtr (q : Nat) (x : Streams) : (s.setStream q x).freeCtr = s.freeCtr := by unfold State.setStream; split <;> rfl
@[simp] theorem State.setStream_col (q : Nat) (x : Streams) : (s.setStream q x).col = s.col := by unfold State.setStream; split <;> rfl
@[simp] theorem State.setStream_dma (q : Nat) (x : Streams) : (s.setStream q x).dma = s.dma := by unfold State.setStream; split <;> rfl
@[simp] theorem State.setStream_mm (q : Nat) (x : Streams) : (s.setStream q x).mm = s.mm := by unfold State.setStream; split <;> rfl
@[simp] theorem State.setStream_pwr (q : Nat) (x : Streams) : (s.setStream q x).pwr = s.pwr := by unfold State.setStream; split <;> rfl
@[simp] theorem State.setStream_engines (q : Nat) (x : Streams) : (s.setStream q x).engines = s.engines := by unfold State.setStream; split <;> rfl
@[simp] theorem State.setStream_spa (q : Nat) (x : Streams) : (s.setStream q x).spa = s.spa := by unfold State.setStream; split <;> rfl
@[simp] theorem State.setStream_ln (q : Nat) (x : Streams) : (s.setStream q x).ln = s.ln := by unfold State.setStream; split <;> rfl
@[simp] theorem State.setStream_fh (q : Nat) (x : Streams) : (s.setStream q x).fh = s.fh := by unfold State.setStream; split <;> rfl
@[simp] theorem State.setStream_stf (q : Nat) (x : Streams) : (s.setStream q x).stf = s.stf := by unfold State.setStream; split <;> rfl
@[simp] theorem State.setStream_cap (q : Nat) (x : Streams) : (s.setStream q x).cap = s.cap := by unfold State.setStream; split <;> rfl
@[simp] theorem State.setStream_rst (q : Nat) (x : Streams) : (s.setStream q x).rst = s.rst := by unfold State.setStream; split <;> rfl

/-! ### setPath -/

@[simp] theorem State.setPath_pending (q : Nat) (x : TxPath) : (s.setPath q x).pending = s.pending := by unfold State.setPath; split <;> rfl
@[simp] theorem State.setPath_regs (q : Nat) (x : TxPath) : (s.setPath q x).regs = s.regs := by unfold State.setPath; split <;> rfl
@[simp] theorem State.setPath_mem (q : Nat) (x : TxPath) : (s.setPath q x).mem = s.mem := by unfold State.setPath; split <;> rfl
@[simp] theorem State.setPath_glb (q : Nat) (x : TxPath) : (s.setPath q x).glb = s.glb := by unfold State.setPath; split <;> rfl
@[simp] theorem State.setPath_tb (q : Nat) (x : TxPath) : (s.setPath q x).tb = s.tb := by unfold State.setPath; split <;> rfl
@[simp] theorem State.setPath_slt (q : Nat) (x : TxPath) : (s.setPath q x).slt = s.slt := by unfold State.setPath; split <;> rfl
@[simp] theorem State.setPath_hp (q : Nat) (x : TxPath) : (s.setPath q x).hp = s.hp := by unfold State.setPath; split <;> rfl
@[simp] theorem State.setPath_qm (q : Nat) (x : TxPath) : (s.setPath q x).qm = s.qm := by unfold State.setPath; split <;> rfl
@[simp] theorem State.setPath_spn (q : Nat) (x : TxPath) : (s.setPath q x).spn = s.spn := by unfold State.setPath; split <;> rfl
@[simp] theorem State.setPath_gth (q : Nat) (x : TxPath) : (s.setPath q x).gth = s.gth := by unfold State.setPath; split <;> rfl
@[simp] theorem State.setPath_qui (q : Nat) (x : TxPath) : (s.setPath q x).qui = s.qui := by unfold State.setPath; split <;> rfl
@[simp] theorem State.setPath_notifies (q : Nat) (x : TxPath) : (s.setPath q x).notifies = s.notifies := by unfold State.setPath; split <;> rfl
@[simp] theorem State.setPath_out (q : Nat) (x : TxPath) : (s.setPath q x).out = s.out := by unfold State.setPath; split <;> rfl
@[simp] theorem State.setPath_bus (q : Nat) (x : TxPath) : (s.setPath q x).bus = s.bus := by unfold State.setPath; split <;> rfl
@[simp] theorem State.setPath_hostRead (q : Nat) (x : TxPath) : (s.setPath q x).hostRead = s.hostRead := by unfold State.setPath; split <;> rfl
@[simp] theorem State.setPath_freeCtr (q : Nat) (x : TxPath) : (s.setPath q x).freeCtr = s.freeCtr := by unfold State.setPath; split <;> rfl
@[simp] theorem State.setPath_col (q : Nat) (x : TxPath) : (s.setPath q x).col = s.col := by unfold State.setPath; split <;> rfl
@[simp] theorem State.setPath_dma (q : Nat) (x : TxPath) : (s.setPath q x).dma = s.dma := by unfold State.setPath; split <;> rfl
@[simp] theorem State.setPath_mm (q : Nat) (x : TxPath) : (s.setPath q x).mm = s.mm := by unfold State.setPath; split <;> rfl
@[simp] theorem State.setPath_pwr (q : Nat) (x : TxPath) : (s.setPath q x).pwr = s.pwr := by unfold State.setPath; split <;> rfl
@[simp] theorem State.setPath_engines (q : Nat) (x : TxPath) : (s.setPath q x).engines = s.engines := by unfold State.setPath; split <;> rfl
@[simp] theorem State.setPath_spa (q : Nat) (x : TxPath) : (s.setPath q x).spa = s.spa := by unfold State.setPath; split <;> rfl
@[simp] theorem State.setPath_ln (q : Nat) (x : TxPath) : (s.setPath q x).ln = s.ln := by unfold State.setPath; split <;> rfl
@[simp] theorem State.setPath_fh (q : Nat) (x : TxPath) : (s.setPath q x).fh = s.fh := by unfold State.setPath; split <;> rfl
@[simp] theorem State.setPath_stf (q : Nat) (x : TxPath) : (s.setPath q x).stf = s.stf := by unfold State.setPath; split <;> rfl
@[simp] theorem State.setPath_cap (q : Nat) (x : TxPath) : (s.setPath q x).cap = s.cap := by unfold State.setPath; split <;> rfl
@[simp] theorem State.setPath_rst (q : Nat) (x : TxPath) : (s.setPath q x).rst = s.rst := by unfold State.setPath; split <;> rfl

/-! ### setDet -/

@[simp] theorem State.setDet_pending (q : Nat) (x : Detector) : (s.setDet q x).pending = s.pending := by unfold State.setDet; split <;> rfl
@[simp] theorem State.setDet_regs (q : Nat) (x : Detector) : (s.setDet q x).regs = s.regs := by unfold State.setDet; split <;> rfl
@[simp] theorem State.setDet_mem (q : Nat) (x : Detector) : (s.setDet q x).mem = s.mem := by unfold State.setDet; split <;> rfl
@[simp] theorem State.setDet_glb (q : Nat) (x : Detector) : (s.setDet q x).glb = s.glb := by unfold State.setDet; split <;> rfl
@[simp] theorem State.setDet_tb (q : Nat) (x : Detector) : (s.setDet q x).tb = s.tb := by unfold State.setDet; split <;> rfl
@[simp] theorem State.setDet_slt (q : Nat) (x : Detector) : (s.setDet q x).slt = s.slt := by unfold State.setDet; split <;> rfl
@[simp] theorem State.setDet_hp (q : Nat) (x : Detector) : (s.setDet q x).hp = s.hp := by unfold State.setDet; split <;> rfl
@[simp] theorem State.setDet_qm (q : Nat) (x : Detector) : (s.setDet q x).qm = s.qm := by unfold State.setDet; split <;> rfl
@[simp] theorem State.setDet_spn (q : Nat) (x : Detector) : (s.setDet q x).spn = s.spn := by unfold State.setDet; split <;> rfl
@[simp] theorem State.setDet_gth (q : Nat) (x : Detector) : (s.setDet q x).gth = s.gth := by unfold State.setDet; split <;> rfl
@[simp] theorem State.setDet_qui (q : Nat) (x : Detector) : (s.setDet q x).qui = s.qui := by unfold State.setDet; split <;> rfl
@[simp] theorem State.setDet_notifies (q : Nat) (x : Detector) : (s.setDet q x).notifies = s.notifies := by unfold State.setDet; split <;> rfl
@[simp] theorem State.setDet_out (q : Nat) (x : Detector) : (s.setDet q x).out = s.out := by unfold State.setDet; split <;> rfl
@[simp] theorem State.setDet_bus (q : Nat) (x : Detector) : (s.setDet q x).bus = s.bus := by unfold State.setDet; split <;> rfl
@[simp] theorem State.setDet_hostRead (q : Nat) (x : Detector) : (s.setDet q x).hostRead = s.hostRead := by unfold State.setDet; split <;> rfl
@[simp] theorem State.setDet_freeCtr (q : Nat) (x : Detector) : (s.setDet q x).freeCtr = s.freeCtr := by unfold State.setDet; split <;> rfl
@[simp] theorem State.setDet_col (q : Nat) (x : Detector) : (s.setDet q x).col = s.col := by unfold State.setDet; split <;> rfl
@[simp] theorem State.setDet_dma (q : Nat) (x : Detector) : (s.setDet q x).dma = s.dma := by unfold State.setDet; split <;> rfl
@[simp] theorem State.setDet_mm (q : Nat) (x : Detector) : (s.setDet q x).mm = s.mm := by unfold State.setDet; split <;> rfl
@[simp] theorem State.setDet_pwr (q : Nat) (x : Detector) : (s.setDet q x).pwr = s.pwr := by unfold State.setDet; split <;> rfl
@[simp] theorem State.setDet_engines (q : Nat) (x : Detector) : (s.setDet q x).engines = s.engines := by unfold State.setDet; split <;> rfl
@[simp] theorem State.setDet_spa (q : Nat) (x : Detector) : (s.setDet q x).spa = s.spa := by unfold State.setDet; split <;> rfl
@[simp] theorem State.setDet_ln (q : Nat) (x : Detector) : (s.setDet q x).ln = s.ln := by unfold State.setDet; split <;> rfl
@[simp] theorem State.setDet_fh (q : Nat) (x : Detector) : (s.setDet q x).fh = s.fh := by unfold State.setDet; split <;> rfl
@[simp] theorem State.setDet_stf (q : Nat) (x : Detector) : (s.setDet q x).stf = s.stf := by unfold State.setDet; split <;> rfl
@[simp] theorem State.setDet_cap (q : Nat) (x : Detector) : (s.setDet q x).cap = s.cap := by unfold State.setDet; split <;> rfl
@[simp] theorem State.setDet_rst (q : Nat) (x : Detector) : (s.setDet q x).rst = s.rst := by unfold State.setDet; split <;> rfl

/-! ### setLane -/

@[simp] theorem State.setLane_pending (q : Nat) (x : Lane) : (s.setLane q x).pending = s.pending := by unfold State.setLane; split <;> rfl
@[simp] theorem State.setLane_regs (q : Nat) (x : Lane) : (s.setLane q x).regs = s.regs := by unfold State.setLane; split <;> rfl
@[simp] theorem State.setLane_mem (q : Nat) (x : Lane) : (s.setLane q x).mem = s.mem := by unfold State.setLane; split <;> rfl
@[simp] theorem State.setLane_glb (q : Nat) (x : Lane) : (s.setLane q x).glb = s.glb := by unfold State.setLane; split <;> rfl
@[simp] theorem State.setLane_tb (q : Nat) (x : Lane) : (s.setLane q x).tb = s.tb := by unfold State.setLane; split <;> rfl
@[simp] theorem State.setLane_slt (q : Nat) (x : Lane) : (s.setLane q x).slt = s.slt := by unfold State.setLane; split <;> rfl
@[simp] theorem State.setLane_hp (q : Nat) (x : Lane) : (s.setLane q x).hp = s.hp := by unfold State.setLane; split <;> rfl
@[simp] theorem State.setLane_qm (q : Nat) (x : Lane) : (s.setLane q x).qm = s.qm := by unfold State.setLane; split <;> rfl
@[simp] theorem State.setLane_spn (q : Nat) (x : Lane) : (s.setLane q x).spn = s.spn := by unfold State.setLane; split <;> rfl
@[simp] theorem State.setLane_gth (q : Nat) (x : Lane) : (s.setLane q x).gth = s.gth := by unfold State.setLane; split <;> rfl
@[simp] theorem State.setLane_qui (q : Nat) (x : Lane) : (s.setLane q x).qui = s.qui := by unfold State.setLane; split <;> rfl
@[simp] theorem State.setLane_notifies (q : Nat) (x : Lane) : (s.setLane q x).notifies = s.notifies := by unfold State.setLane; split <;> rfl
@[simp] theorem State.setLane_out (q : Nat) (x : Lane) : (s.setLane q x).out = s.out := by unfold State.setLane; split <;> rfl
@[simp] theorem State.setLane_bus (q : Nat) (x : Lane) : (s.setLane q x).bus = s.bus := by unfold State.setLane; split <;> rfl
@[simp] theorem State.setLane_hostRead (q : Nat) (x : Lane) : (s.setLane q x).hostRead = s.hostRead := by unfold State.setLane; split <;> rfl
@[simp] theorem State.setLane_freeCtr (q : Nat) (x : Lane) : (s.setLane q x).freeCtr = s.freeCtr := by unfold State.setLane; split <;> rfl
@[simp] theorem State.setLane_col (q : Nat) (x : Lane) : (s.setLane q x).col = s.col := by unfold State.setLane; split <;> rfl
@[simp] theorem State.setLane_dma (q : Nat) (x : Lane) : (s.setLane q x).dma = s.dma := by unfold State.setLane; split <;> rfl
@[simp] theorem State.setLane_mm (q : Nat) (x : Lane) : (s.setLane q x).mm = s.mm := by unfold State.setLane; split <;> rfl
@[simp] theorem State.setLane_pwr (q : Nat) (x : Lane) : (s.setLane q x).pwr = s.pwr := by unfold State.setLane; split <;> rfl
@[simp] theorem State.setLane_engines (q : Nat) (x : Lane) : (s.setLane q x).engines = s.engines := by unfold State.setLane; split <;> rfl
@[simp] theorem State.setLane_spa (q : Nat) (x : Lane) : (s.setLane q x).spa = s.spa := by unfold State.setLane; split <;> rfl
@[simp] theorem State.setLane_spc (q : Nat) (x : Lane) : (s.setLane q x).spc = s.spc := by unfold State.setLane; split <;> rfl
@[simp] theorem State.setLane_fh (q : Nat) (x : Lane) : (s.setLane q x).fh = s.fh := by unfold State.setLane; split <;> rfl
@[simp] theorem State.setLane_stf (q : Nat) (x : Lane) : (s.setLane q x).stf = s.stf := by unfold State.setLane; split <;> rfl
@[simp] theorem State.setLane_cap (q : Nat) (x : Lane) : (s.setLane q x).cap = s.cap := by unfold State.setLane; split <;> rfl
@[simp] theorem State.setLane_rst (q : Nat) (x : Lane) : (s.setLane q x).rst = s.rst := by unfold State.setLane; split <;> rfl

/-! ### setPort -/

@[simp] theorem State.setPort_pending (q : Nat) (x : FhPort) : (s.setPort q x).pending = s.pending := by unfold State.setPort; split <;> rfl
@[simp] theorem State.setPort_regs (q : Nat) (x : FhPort) : (s.setPort q x).regs = s.regs := by unfold State.setPort; split <;> rfl
@[simp] theorem State.setPort_mem (q : Nat) (x : FhPort) : (s.setPort q x).mem = s.mem := by unfold State.setPort; split <;> rfl
@[simp] theorem State.setPort_glb (q : Nat) (x : FhPort) : (s.setPort q x).glb = s.glb := by unfold State.setPort; split <;> rfl
@[simp] theorem State.setPort_tb (q : Nat) (x : FhPort) : (s.setPort q x).tb = s.tb := by unfold State.setPort; split <;> rfl
@[simp] theorem State.setPort_slt (q : Nat) (x : FhPort) : (s.setPort q x).slt = s.slt := by unfold State.setPort; split <;> rfl
@[simp] theorem State.setPort_hp (q : Nat) (x : FhPort) : (s.setPort q x).hp = s.hp := by unfold State.setPort; split <;> rfl
@[simp] theorem State.setPort_qm (q : Nat) (x : FhPort) : (s.setPort q x).qm = s.qm := by unfold State.setPort; split <;> rfl
@[simp] theorem State.setPort_spn (q : Nat) (x : FhPort) : (s.setPort q x).spn = s.spn := by unfold State.setPort; split <;> rfl
@[simp] theorem State.setPort_gth (q : Nat) (x : FhPort) : (s.setPort q x).gth = s.gth := by unfold State.setPort; split <;> rfl
@[simp] theorem State.setPort_qui (q : Nat) (x : FhPort) : (s.setPort q x).qui = s.qui := by unfold State.setPort; split <;> rfl
@[simp] theorem State.setPort_notifies (q : Nat) (x : FhPort) : (s.setPort q x).notifies = s.notifies := by unfold State.setPort; split <;> rfl
@[simp] theorem State.setPort_out (q : Nat) (x : FhPort) : (s.setPort q x).out = s.out := by unfold State.setPort; split <;> rfl
@[simp] theorem State.setPort_bus (q : Nat) (x : FhPort) : (s.setPort q x).bus = s.bus := by unfold State.setPort; split <;> rfl
@[simp] theorem State.setPort_hostRead (q : Nat) (x : FhPort) : (s.setPort q x).hostRead = s.hostRead := by unfold State.setPort; split <;> rfl
@[simp] theorem State.setPort_freeCtr (q : Nat) (x : FhPort) : (s.setPort q x).freeCtr = s.freeCtr := by unfold State.setPort; split <;> rfl
@[simp] theorem State.setPort_col (q : Nat) (x : FhPort) : (s.setPort q x).col = s.col := by unfold State.setPort; split <;> rfl
@[simp] theorem State.setPort_dma (q : Nat) (x : FhPort) : (s.setPort q x).dma = s.dma := by unfold State.setPort; split <;> rfl
@[simp] theorem State.setPort_mm (q : Nat) (x : FhPort) : (s.setPort q x).mm = s.mm := by unfold State.setPort; split <;> rfl
@[simp] theorem State.setPort_pwr (q : Nat) (x : FhPort) : (s.setPort q x).pwr = s.pwr := by unfold State.setPort; split <;> rfl
@[simp] theorem State.setPort_engines (q : Nat) (x : FhPort) : (s.setPort q x).engines = s.engines := by unfold State.setPort; split <;> rfl
@[simp] theorem State.setPort_spa (q : Nat) (x : FhPort) : (s.setPort q x).spa = s.spa := by unfold State.setPort; split <;> rfl
@[simp] theorem State.setPort_spc (q : Nat) (x : FhPort) : (s.setPort q x).spc = s.spc := by unfold State.setPort; split <;> rfl
@[simp] theorem State.setPort_ln (q : Nat) (x : FhPort) : (s.setPort q x).ln = s.ln := by unfold State.setPort; split <;> rfl
@[simp] theorem State.setPort_stf (q : Nat) (x : FhPort) : (s.setPort q x).stf = s.stf := by unfold State.setPort; split <;> rfl
@[simp] theorem State.setPort_cap (q : Nat) (x : FhPort) : (s.setPort q x).cap = s.cap := by unfold State.setPort; split <;> rfl
@[simp] theorem State.setPort_rst (q : Nat) (x : FhPort) : (s.setPort q x).rst = s.rst := by unfold State.setPort; split <;> rfl

/-! ### setFhHalf -/

@[simp] theorem State.setFhHalf_pending (q : Nat) (h : Half) (x : FhHalf) : (s.setFhHalf q h x).pending = s.pending := by unfold State.setFhHalf; split <;> rfl
@[simp] theorem State.setFhHalf_regs (q : Nat) (h : Half) (x : FhHalf) : (s.setFhHalf q h x).regs = s.regs := by unfold State.setFhHalf; split <;> rfl
@[simp] theorem State.setFhHalf_mem (q : Nat) (h : Half) (x : FhHalf) : (s.setFhHalf q h x).mem = s.mem := by unfold State.setFhHalf; split <;> rfl
@[simp] theorem State.setFhHalf_glb (q : Nat) (h : Half) (x : FhHalf) : (s.setFhHalf q h x).glb = s.glb := by unfold State.setFhHalf; split <;> rfl
@[simp] theorem State.setFhHalf_tb (q : Nat) (h : Half) (x : FhHalf) : (s.setFhHalf q h x).tb = s.tb := by unfold State.setFhHalf; split <;> rfl
@[simp] theorem State.setFhHalf_slt (q : Nat) (h : Half) (x : FhHalf) : (s.setFhHalf q h x).slt = s.slt := by unfold State.setFhHalf; split <;> rfl
@[simp] theorem State.setFhHalf_hp (q : Nat) (h : Half) (x : FhHalf) : (s.setFhHalf q h x).hp = s.hp := by unfold State.setFhHalf; split <;> rfl
@[simp] theorem State.setFhHalf_qm (q : Nat) (h : Half) (x : FhHalf) : (s.setFhHalf q h x).qm = s.qm := by unfold State.setFhHalf; split <;> rfl
@[simp] theorem State.setFhHalf_spn (q : Nat) (h : Half) (x : FhHalf) : (s.setFhHalf q h x).spn = s.spn := by unfold State.setFhHalf; split <;> rfl
@[simp] theorem State.setFhHalf_gth (q : Nat) (h : Half) (x : FhHalf) : (s.setFhHalf q h x).gth = s.gth := by unfold State.setFhHalf; split <;> rfl
@[simp] theorem State.setFhHalf_qui (q : Nat) (h : Half) (x : FhHalf) : (s.setFhHalf q h x).qui = s.qui := by unfold State.setFhHalf; split <;> rfl
@[simp] theorem State.setFhHalf_notifies (q : Nat) (h : Half) (x : FhHalf) : (s.setFhHalf q h x).notifies = s.notifies := by unfold State.setFhHalf; split <;> rfl
@[simp] theorem State.setFhHalf_out (q : Nat) (h : Half) (x : FhHalf) : (s.setFhHalf q h x).out = s.out := by unfold State.setFhHalf; split <;> rfl
@[simp] theorem State.setFhHalf_bus (q : Nat) (h : Half) (x : FhHalf) : (s.setFhHalf q h x).bus = s.bus := by unfold State.setFhHalf; split <;> rfl
@[simp] theorem State.setFhHalf_hostRead (q : Nat) (h : Half) (x : FhHalf) : (s.setFhHalf q h x).hostRead = s.hostRead := by unfold State.setFhHalf; split <;> rfl
@[simp] theorem State.setFhHalf_freeCtr (q : Nat) (h : Half) (x : FhHalf) : (s.setFhHalf q h x).freeCtr = s.freeCtr := by unfold State.setFhHalf; split <;> rfl
@[simp] theorem State.setFhHalf_col (q : Nat) (h : Half) (x : FhHalf) : (s.setFhHalf q h x).col = s.col := by unfold State.setFhHalf; split <;> rfl
@[simp] theorem State.setFhHalf_dma (q : Nat) (h : Half) (x : FhHalf) : (s.setFhHalf q h x).dma = s.dma := by unfold State.setFhHalf; split <;> rfl
@[simp] theorem State.setFhHalf_mm (q : Nat) (h : Half) (x : FhHalf) : (s.setFhHalf q h x).mm = s.mm := by unfold State.setFhHalf; split <;> rfl
@[simp] theorem State.setFhHalf_pwr (q : Nat) (h : Half) (x : FhHalf) : (s.setFhHalf q h x).pwr = s.pwr := by unfold State.setFhHalf; split <;> rfl
@[simp] theorem State.setFhHalf_engines (q : Nat) (h : Half) (x : FhHalf) : (s.setFhHalf q h x).engines = s.engines := by unfold State.setFhHalf; split <;> rfl
@[simp] theorem State.setFhHalf_spa (q : Nat) (h : Half) (x : FhHalf) : (s.setFhHalf q h x).spa = s.spa := by unfold State.setFhHalf; split <;> rfl
@[simp] theorem State.setFhHalf_spc (q : Nat) (h : Half) (x : FhHalf) : (s.setFhHalf q h x).spc = s.spc := by unfold State.setFhHalf; split <;> rfl
@[simp] theorem State.setFhHalf_ln (q : Nat) (h : Half) (x : FhHalf) : (s.setFhHalf q h x).ln = s.ln := by unfold State.setFhHalf; split <;> rfl
@[simp] theorem State.setFhHalf_stf (q : Nat) (h : Half) (x : FhHalf) : (s.setFhHalf q h x).stf = s.stf := by unfold State.setFhHalf; split <;> rfl
@[simp] theorem State.setFhHalf_cap (q : Nat) (h : Half) (x : FhHalf) : (s.setFhHalf q h x).cap = s.cap := by unfold State.setFhHalf; split <;> rfl
@[simp] theorem State.setFhHalf_rst (q : Nat) (h : Half) (x : FhHalf) : (s.setFhHalf q h x).rst = s.rst := by unfold State.setFhHalf; split <;> rfl

/-! ### setStfPort -/

@[simp] theorem State.setStfPort_pending (q : Nat) (x : StfPort) : (s.setStfPort q x).pending = s.pending := by unfold State.setStfPort; split <;> rfl
@[simp] theorem State.setStfPort_regs (q : Nat) (x : StfPort) : (s.setStfPort q x).regs = s.regs := by unfold State.setStfPort; split <;> rfl
@[simp] theorem State.setStfPort_mem (q : Nat) (x : StfPort) : (s.setStfPort q x).mem = s.mem := by unfold State.setStfPort; split <;> rfl
@[simp] theorem State.setStfPort_glb (q : Nat) (x : StfPort) : (s.setStfPort q x).glb = s.glb := by unfold State.setStfPort; split <;> rfl
@[simp] theorem State.setStfPort_tb (q : Nat) (x : StfPort) : (s.setStfPort q x).tb = s.tb := by unfold State.setStfPort; split <;> rfl
@[simp] theorem State.setStfPort_slt (q : Nat) (x : StfPort) : (s.setStfPort q x).slt = s.slt := by unfold State.setStfPort; split <;> rfl
@[simp] theorem State.setStfPort_hp (q : Nat) (x : StfPort) : (s.setStfPort q x).hp = s.hp := by unfold State.setStfPort; split <;> rfl
@[simp] theorem State.setStfPort_qm (q : Nat) (x : StfPort) : (s.setStfPort q x).qm = s.qm := by unfold State.setStfPort; split <;> rfl
@[simp] theorem State.setStfPort_spn (q : Nat) (x : StfPort) : (s.setStfPort q x).spn = s.spn := by unfold State.setStfPort; split <;> rfl
@[simp] theorem State.setStfPort_gth (q : Nat) (x : StfPort) : (s.setStfPort q x).gth = s.gth := by unfold State.setStfPort; split <;> rfl
@[simp] theorem State.setStfPort_qui (q : Nat) (x : StfPort) : (s.setStfPort q x).qui = s.qui := by unfold State.setStfPort; split <;> rfl
@[simp] theorem State.setStfPort_notifies (q : Nat) (x : StfPort) : (s.setStfPort q x).notifies = s.notifies := by unfold State.setStfPort; split <;> rfl
@[simp] theorem State.setStfPort_out (q : Nat) (x : StfPort) : (s.setStfPort q x).out = s.out := by unfold State.setStfPort; split <;> rfl
@[simp] theorem State.setStfPort_bus (q : Nat) (x : StfPort) : (s.setStfPort q x).bus = s.bus := by unfold State.setStfPort; split <;> rfl
@[simp] theorem State.setStfPort_hostRead (q : Nat) (x : StfPort) : (s.setStfPort q x).hostRead = s.hostRead := by unfold State.setStfPort; split <;> rfl
@[simp] theorem State.setStfPort_freeCtr (q : Nat) (x : StfPort) : (s.setStfPort q x).freeCtr = s.freeCtr := by unfold State.setStfPort; split <;> rfl
@[simp] theorem State.setStfPort_col (q : Nat) (x : StfPort) : (s.setStfPort q x).col = s.col := by unfold State.setStfPort; split <;> rfl
@[simp] theorem State.setStfPort_dma (q : Nat) (x : StfPort) : (s.setStfPort q x).dma = s.dma := by unfold State.setStfPort; split <;> rfl
@[simp] theorem State.setStfPort_mm (q : Nat) (x : StfPort) : (s.setStfPort q x).mm = s.mm := by unfold State.setStfPort; split <;> rfl
@[simp] theorem State.setStfPort_pwr (q : Nat) (x : StfPort) : (s.setStfPort q x).pwr = s.pwr := by unfold State.setStfPort; split <;> rfl
@[simp] theorem State.setStfPort_engines (q : Nat) (x : StfPort) : (s.setStfPort q x).engines = s.engines := by unfold State.setStfPort; split <;> rfl
@[simp] theorem State.setStfPort_spa (q : Nat) (x : StfPort) : (s.setStfPort q x).spa = s.spa := by unfold State.setStfPort; split <;> rfl
@[simp] theorem State.setStfPort_spc (q : Nat) (x : StfPort) : (s.setStfPort q x).spc = s.spc := by unfold State.setStfPort; split <;> rfl
@[simp] theorem State.setStfPort_ln (q : Nat) (x : StfPort) : (s.setStfPort q x).ln = s.ln := by unfold State.setStfPort; split <;> rfl
@[simp] theorem State.setStfPort_fh (q : Nat) (x : StfPort) : (s.setStfPort q x).fh = s.fh := by unfold State.setStfPort; split <;> rfl
@[simp] theorem State.setStfPort_cap (q : Nat) (x : StfPort) : (s.setStfPort q x).cap = s.cap := by unfold State.setStfPort; split <;> rfl
@[simp] theorem State.setStfPort_rst (q : Nat) (x : StfPort) : (s.setStfPort q x).rst = s.rst := by unfold State.setStfPort; split <;> rfl

/-! ### setBinding -/

@[simp] theorem State.setBinding_pending (q : Nat) (x : Binding) : (s.setBinding q x).pending = s.pending := by unfold State.setBinding; split <;> rfl
@[simp] theorem State.setBinding_regs (q : Nat) (x : Binding) : (s.setBinding q x).regs = s.regs := by unfold State.setBinding; split <;> rfl
@[simp] theorem State.setBinding_mem (q : Nat) (x : Binding) : (s.setBinding q x).mem = s.mem := by unfold State.setBinding; split <;> rfl
@[simp] theorem State.setBinding_glb (q : Nat) (x : Binding) : (s.setBinding q x).glb = s.glb := by unfold State.setBinding; split <;> rfl
@[simp] theorem State.setBinding_tb (q : Nat) (x : Binding) : (s.setBinding q x).tb = s.tb := by unfold State.setBinding; split <;> rfl
@[simp] theorem State.setBinding_slt (q : Nat) (x : Binding) : (s.setBinding q x).slt = s.slt := by unfold State.setBinding; split <;> rfl
@[simp] theorem State.setBinding_hp (q : Nat) (x : Binding) : (s.setBinding q x).hp = s.hp := by unfold State.setBinding; split <;> rfl
@[simp] theorem State.setBinding_qm (q : Nat) (x : Binding) : (s.setBinding q x).qm = s.qm := by unfold State.setBinding; split <;> rfl
@[simp] theorem State.setBinding_spn (q : Nat) (x : Binding) : (s.setBinding q x).spn = s.spn := by unfold State.setBinding; split <;> rfl
@[simp] theorem State.setBinding_gth (q : Nat) (x : Binding) : (s.setBinding q x).gth = s.gth := by unfold State.setBinding; split <;> rfl
@[simp] theorem State.setBinding_qui (q : Nat) (x : Binding) : (s.setBinding q x).qui = s.qui := by unfold State.setBinding; split <;> rfl
@[simp] theorem State.setBinding_notifies (q : Nat) (x : Binding) : (s.setBinding q x).notifies = s.notifies := by unfold State.setBinding; split <;> rfl
@[simp] theorem State.setBinding_out (q : Nat) (x : Binding) : (s.setBinding q x).out = s.out := by unfold State.setBinding; split <;> rfl
@[simp] theorem State.setBinding_bus (q : Nat) (x : Binding) : (s.setBinding q x).bus = s.bus := by unfold State.setBinding; split <;> rfl
@[simp] theorem State.setBinding_hostRead (q : Nat) (x : Binding) : (s.setBinding q x).hostRead = s.hostRead := by unfold State.setBinding; split <;> rfl
@[simp] theorem State.setBinding_freeCtr (q : Nat) (x : Binding) : (s.setBinding q x).freeCtr = s.freeCtr := by unfold State.setBinding; split <;> rfl
@[simp] theorem State.setBinding_col (q : Nat) (x : Binding) : (s.setBinding q x).col = s.col := by unfold State.setBinding; split <;> rfl
@[simp] theorem State.setBinding_dma (q : Nat) (x : Binding) : (s.setBinding q x).dma = s.dma := by unfold State.setBinding; split <;> rfl
@[simp] theorem State.setBinding_mm (q : Nat) (x : Binding) : (s.setBinding q x).mm = s.mm := by unfold State.setBinding; split <;> rfl
@[simp] theorem State.setBinding_pwr (q : Nat) (x : Binding) : (s.setBinding q x).pwr = s.pwr := by unfold State.setBinding; split <;> rfl
@[simp] theorem State.setBinding_engines (q : Nat) (x : Binding) : (s.setBinding q x).engines = s.engines := by unfold State.setBinding; split <;> rfl
@[simp] theorem State.setBinding_spa (q : Nat) (x : Binding) : (s.setBinding q x).spa = s.spa := by unfold State.setBinding; split <;> rfl
@[simp] theorem State.setBinding_spc (q : Nat) (x : Binding) : (s.setBinding q x).spc = s.spc := by unfold State.setBinding; split <;> rfl
@[simp] theorem State.setBinding_ln (q : Nat) (x : Binding) : (s.setBinding q x).ln = s.ln := by unfold State.setBinding; split <;> rfl
@[simp] theorem State.setBinding_fh (q : Nat) (x : Binding) : (s.setBinding q x).fh = s.fh := by unfold State.setBinding; split <;> rfl
@[simp] theorem State.setBinding_cap (q : Nat) (x : Binding) : (s.setBinding q x).cap = s.cap := by unfold State.setBinding; split <;> rfl
@[simp] theorem State.setBinding_rst (q : Nat) (x : Binding) : (s.setBinding q x).rst = s.rst := by unfold State.setBinding; split <;> rfl

/-! ### setVat -/

@[simp] theorem State.setVat_pending (q : Nat) (x : VatHalf) : (s.setVat q x).pending = s.pending := by unfold State.setVat; split <;> rfl
@[simp] theorem State.setVat_regs (q : Nat) (x : VatHalf) : (s.setVat q x).regs = s.regs := by unfold State.setVat; split <;> rfl
@[simp] theorem State.setVat_mem (q : Nat) (x : VatHalf) : (s.setVat q x).mem = s.mem := by unfold State.setVat; split <;> rfl
@[simp] theorem State.setVat_glb (q : Nat) (x : VatHalf) : (s.setVat q x).glb = s.glb := by unfold State.setVat; split <;> rfl
@[simp] theorem State.setVat_tb (q : Nat) (x : VatHalf) : (s.setVat q x).tb = s.tb := by unfold State.setVat; split <;> rfl
@[simp] theorem State.setVat_slt (q : Nat) (x : VatHalf) : (s.setVat q x).slt = s.slt := by unfold State.setVat; split <;> rfl
@[simp] theorem State.setVat_hp (q : Nat) (x : VatHalf) : (s.setVat q x).hp = s.hp := by unfold State.setVat; split <;> rfl
@[simp] theorem State.setVat_qm (q : Nat) (x : VatHalf) : (s.setVat q x).qm = s.qm := by unfold State.setVat; split <;> rfl
@[simp] theorem State.setVat_spn (q : Nat) (x : VatHalf) : (s.setVat q x).spn = s.spn := by unfold State.setVat; split <;> rfl
@[simp] theorem State.setVat_gth (q : Nat) (x : VatHalf) : (s.setVat q x).gth = s.gth := by unfold State.setVat; split <;> rfl
@[simp] theorem State.setVat_qui (q : Nat) (x : VatHalf) : (s.setVat q x).qui = s.qui := by unfold State.setVat; split <;> rfl
@[simp] theorem State.setVat_notifies (q : Nat) (x : VatHalf) : (s.setVat q x).notifies = s.notifies := by unfold State.setVat; split <;> rfl
@[simp] theorem State.setVat_out (q : Nat) (x : VatHalf) : (s.setVat q x).out = s.out := by unfold State.setVat; split <;> rfl
@[simp] theorem State.setVat_bus (q : Nat) (x : VatHalf) : (s.setVat q x).bus = s.bus := by unfold State.setVat; split <;> rfl
@[simp] theorem State.setVat_hostRead (q : Nat) (x : VatHalf) : (s.setVat q x).hostRead = s.hostRead := by unfold State.setVat; split <;> rfl
@[simp] theorem State.setVat_freeCtr (q : Nat) (x : VatHalf) : (s.setVat q x).freeCtr = s.freeCtr := by unfold State.setVat; split <;> rfl
@[simp] theorem State.setVat_col (q : Nat) (x : VatHalf) : (s.setVat q x).col = s.col := by unfold State.setVat; split <;> rfl
@[simp] theorem State.setVat_dma (q : Nat) (x : VatHalf) : (s.setVat q x).dma = s.dma := by unfold State.setVat; split <;> rfl
@[simp] theorem State.setVat_mm (q : Nat) (x : VatHalf) : (s.setVat q x).mm = s.mm := by unfold State.setVat; split <;> rfl
@[simp] theorem State.setVat_pwr (q : Nat) (x : VatHalf) : (s.setVat q x).pwr = s.pwr := by unfold State.setVat; split <;> rfl
@[simp] theorem State.setVat_engines (q : Nat) (x : VatHalf) : (s.setVat q x).engines = s.engines := by unfold State.setVat; split <;> rfl
@[simp] theorem State.setVat_spa (q : Nat) (x : VatHalf) : (s.setVat q x).spa = s.spa := by unfold State.setVat; split <;> rfl
@[simp] theorem State.setVat_spc (q : Nat) (x : VatHalf) : (s.setVat q x).spc = s.spc := by unfold State.setVat; split <;> rfl
@[simp] theorem State.setVat_ln (q : Nat) (x : VatHalf) : (s.setVat q x).ln = s.ln := by unfold State.setVat; split <;> rfl
@[simp] theorem State.setVat_fh (q : Nat) (x : VatHalf) : (s.setVat q x).fh = s.fh := by unfold State.setVat; split <;> rfl
@[simp] theorem State.setVat_stf (q : Nat) (x : VatHalf) : (s.setVat q x).stf = s.stf := by unfold State.setVat; split <;> rfl
@[simp] theorem State.setVat_rst (q : Nat) (x : VatHalf) : (s.setVat q x).rst = s.rst := by unfold State.setVat; split <;> rfl

/-! ### setChanP -/

@[simp] theorem State.setChanP_pending (q : Nat) (x : PressChan) : (s.setChanP q x).pending = s.pending := by unfold State.setChanP; split <;> rfl
@[simp] theorem State.setChanP_regs (q : Nat) (x : PressChan) : (s.setChanP q x).regs = s.regs := by unfold State.setChanP; split <;> rfl
@[simp] theorem State.setChanP_mem (q : Nat) (x : PressChan) : (s.setChanP q x).mem = s.mem := by unfold State.setChanP; split <;> rfl
@[simp] theorem State.setChanP_glb (q : Nat) (x : PressChan) : (s.setChanP q x).glb = s.glb := by unfold State.setChanP; split <;> rfl
@[simp] theorem State.setChanP_tb (q : Nat) (x : PressChan) : (s.setChanP q x).tb = s.tb := by unfold State.setChanP; split <;> rfl
@[simp] theorem State.setChanP_slt (q : Nat) (x : PressChan) : (s.setChanP q x).slt = s.slt := by unfold State.setChanP; split <;> rfl
@[simp] theorem State.setChanP_hp (q : Nat) (x : PressChan) : (s.setChanP q x).hp = s.hp := by unfold State.setChanP; split <;> rfl
@[simp] theorem State.setChanP_qm (q : Nat) (x : PressChan) : (s.setChanP q x).qm = s.qm := by unfold State.setChanP; split <;> rfl
@[simp] theorem State.setChanP_spn (q : Nat) (x : PressChan) : (s.setChanP q x).spn = s.spn := by unfold State.setChanP; split <;> rfl
@[simp] theorem State.setChanP_gth (q : Nat) (x : PressChan) : (s.setChanP q x).gth = s.gth := by unfold State.setChanP; split <;> rfl
@[simp] theorem State.setChanP_qui (q : Nat) (x : PressChan) : (s.setChanP q x).qui = s.qui := by unfold State.setChanP; split <;> rfl
@[simp] theorem State.setChanP_notifies (q : Nat) (x : PressChan) : (s.setChanP q x).notifies = s.notifies := by unfold State.setChanP; split <;> rfl
@[simp] theorem State.setChanP_out (q : Nat) (x : PressChan) : (s.setChanP q x).out = s.out := by unfold State.setChanP; split <;> rfl
@[simp] theorem State.setChanP_bus (q : Nat) (x : PressChan) : (s.setChanP q x).bus = s.bus := by unfold State.setChanP; split <;> rfl
@[simp] theorem State.setChanP_hostRead (q : Nat) (x : PressChan) : (s.setChanP q x).hostRead = s.hostRead := by unfold State.setChanP; split <;> rfl
@[simp] theorem State.setChanP_freeCtr (q : Nat) (x : PressChan) : (s.setChanP q x).freeCtr = s.freeCtr := by unfold State.setChanP; split <;> rfl
@[simp] theorem State.setChanP_col (q : Nat) (x : PressChan) : (s.setChanP q x).col = s.col := by unfold State.setChanP; split <;> rfl
@[simp] theorem State.setChanP_dma (q : Nat) (x : PressChan) : (s.setChanP q x).dma = s.dma := by unfold State.setChanP; split <;> rfl
@[simp] theorem State.setChanP_mm (q : Nat) (x : PressChan) : (s.setChanP q x).mm = s.mm := by unfold State.setChanP; split <;> rfl
@[simp] theorem State.setChanP_pwr (q : Nat) (x : PressChan) : (s.setChanP q x).pwr = s.pwr := by unfold State.setChanP; split <;> rfl
@[simp] theorem State.setChanP_engines (q : Nat) (x : PressChan) : (s.setChanP q x).engines = s.engines := by unfold State.setChanP; split <;> rfl
@[simp] theorem State.setChanP_spa (q : Nat) (x : PressChan) : (s.setChanP q x).spa = s.spa := by unfold State.setChanP; split <;> rfl
@[simp] theorem State.setChanP_spc (q : Nat) (x : PressChan) : (s.setChanP q x).spc = s.spc := by unfold State.setChanP; split <;> rfl
@[simp] theorem State.setChanP_ln (q : Nat) (x : PressChan) : (s.setChanP q x).ln = s.ln := by unfold State.setChanP; split <;> rfl
@[simp] theorem State.setChanP_fh (q : Nat) (x : PressChan) : (s.setChanP q x).fh = s.fh := by unfold State.setChanP; split <;> rfl
@[simp] theorem State.setChanP_stf (q : Nat) (x : PressChan) : (s.setChanP q x).stf = s.stf := by unfold State.setChanP; split <;> rfl
@[simp] theorem State.setChanP_rst (q : Nat) (x : PressChan) : (s.setChanP q x).rst = s.rst := by unfold State.setChanP; split <;> rfl

/-! ### setMemChan -/

@[simp] theorem State.setMemChan_pending (q : Nat) (x : MemChan) : (s.setMemChan q x).pending = s.pending := by unfold State.setMemChan; split <;> rfl
@[simp] theorem State.setMemChan_regs (q : Nat) (x : MemChan) : (s.setMemChan q x).regs = s.regs := by unfold State.setMemChan; split <;> rfl
@[simp] theorem State.setMemChan_mem (q : Nat) (x : MemChan) : (s.setMemChan q x).mem = s.mem := by unfold State.setMemChan; split <;> rfl
@[simp] theorem State.setMemChan_glb (q : Nat) (x : MemChan) : (s.setMemChan q x).glb = s.glb := by unfold State.setMemChan; split <;> rfl
@[simp] theorem State.setMemChan_tb (q : Nat) (x : MemChan) : (s.setMemChan q x).tb = s.tb := by unfold State.setMemChan; split <;> rfl
@[simp] theorem State.setMemChan_slt (q : Nat) (x : MemChan) : (s.setMemChan q x).slt = s.slt := by unfold State.setMemChan; split <;> rfl
@[simp] theorem State.setMemChan_hp (q : Nat) (x : MemChan) : (s.setMemChan q x).hp = s.hp := by unfold State.setMemChan; split <;> rfl
@[simp] theorem State.setMemChan_qm (q : Nat) (x : MemChan) : (s.setMemChan q x).qm = s.qm := by unfold State.setMemChan; split <;> rfl
@[simp] theorem State.setMemChan_spn (q : Nat) (x : MemChan) : (s.setMemChan q x).spn = s.spn := by unfold State.setMemChan; split <;> rfl
@[simp] theorem State.setMemChan_gth (q : Nat) (x : MemChan) : (s.setMemChan q x).gth = s.gth := by unfold State.setMemChan; split <;> rfl
@[simp] theorem State.setMemChan_qui (q : Nat) (x : MemChan) : (s.setMemChan q x).qui = s.qui := by unfold State.setMemChan; split <;> rfl
@[simp] theorem State.setMemChan_notifies (q : Nat) (x : MemChan) : (s.setMemChan q x).notifies = s.notifies := by unfold State.setMemChan; split <;> rfl
@[simp] theorem State.setMemChan_out (q : Nat) (x : MemChan) : (s.setMemChan q x).out = s.out := by unfold State.setMemChan; split <;> rfl
@[simp] theorem State.setMemChan_bus (q : Nat) (x : MemChan) : (s.setMemChan q x).bus = s.bus := by unfold State.setMemChan; split <;> rfl
@[simp] theorem State.setMemChan_hostRead (q : Nat) (x : MemChan) : (s.setMemChan q x).hostRead = s.hostRead := by unfold State.setMemChan; split <;> rfl
@[simp] theorem State.setMemChan_freeCtr (q : Nat) (x : MemChan) : (s.setMemChan q x).freeCtr = s.freeCtr := by unfold State.setMemChan; split <;> rfl
@[simp] theorem State.setMemChan_col (q : Nat) (x : MemChan) : (s.setMemChan q x).col = s.col := by unfold State.setMemChan; split <;> rfl
@[simp] theorem State.setMemChan_dma (q : Nat) (x : MemChan) : (s.setMemChan q x).dma = s.dma := by unfold State.setMemChan; split <;> rfl
@[simp] theorem State.setMemChan_pwr (q : Nat) (x : MemChan) : (s.setMemChan q x).pwr = s.pwr := by unfold State.setMemChan; split <;> rfl
@[simp] theorem State.setMemChan_engines (q : Nat) (x : MemChan) : (s.setMemChan q x).engines = s.engines := by unfold State.setMemChan; split <;> rfl
@[simp] theorem State.setMemChan_spa (q : Nat) (x : MemChan) : (s.setMemChan q x).spa = s.spa := by unfold State.setMemChan; split <;> rfl
@[simp] theorem State.setMemChan_spc (q : Nat) (x : MemChan) : (s.setMemChan q x).spc = s.spc := by unfold State.setMemChan; split <;> rfl
@[simp] theorem State.setMemChan_ln (q : Nat) (x : MemChan) : (s.setMemChan q x).ln = s.ln := by unfold State.setMemChan; split <;> rfl
@[simp] theorem State.setMemChan_fh (q : Nat) (x : MemChan) : (s.setMemChan q x).fh = s.fh := by unfold State.setMemChan; split <;> rfl
@[simp] theorem State.setMemChan_stf (q : Nat) (x : MemChan) : (s.setMemChan q x).stf = s.stf := by unfold State.setMemChan; split <;> rfl
@[simp] theorem State.setMemChan_cap (q : Nat) (x : MemChan) : (s.setMemChan q x).cap = s.cap := by unfold State.setMemChan; split <;> rfl
@[simp] theorem State.setMemChan_rst (q : Nat) (x : MemChan) : (s.setMemChan q x).rst = s.rst := by unfold State.setMemChan; split <;> rfl

/-! ### setMarks -/

@[simp] theorem State.setMarks_pending (p n : Nat) : (s.setMarks p n).pending = s.pending := rfl
@[simp] theorem State.setMarks_regs (p n : Nat) : (s.setMarks p n).regs = s.regs := rfl
@[simp] theorem State.setMarks_mem (p n : Nat) : (s.setMarks p n).mem = s.mem := rfl
@[simp] theorem State.setMarks_glb (p n : Nat) : (s.setMarks p n).glb = s.glb := rfl
@[simp] theorem State.setMarks_tb (p n : Nat) : (s.setMarks p n).tb = s.tb := rfl
@[simp] theorem State.setMarks_slt (p n : Nat) : (s.setMarks p n).slt = s.slt := rfl
@[simp] theorem State.setMarks_hp (p n : Nat) : (s.setMarks p n).hp = s.hp := rfl
@[simp] theorem State.setMarks_qm (p n : Nat) : (s.setMarks p n).qm = s.qm := rfl
@[simp] theorem State.setMarks_spn (p n : Nat) : (s.setMarks p n).spn = s.spn := rfl
@[simp] theorem State.setMarks_gth (p n : Nat) : (s.setMarks p n).gth = s.gth := rfl
@[simp] theorem State.setMarks_qui (p n : Nat) : (s.setMarks p n).qui = s.qui := rfl
@[simp] theorem State.setMarks_notifies (p n : Nat) : (s.setMarks p n).notifies = s.notifies := rfl
@[simp] theorem State.setMarks_out (p n : Nat) : (s.setMarks p n).out = s.out := rfl
@[simp] theorem State.setMarks_bus (p n : Nat) : (s.setMarks p n).bus = s.bus := rfl
@[simp] theorem State.setMarks_hostRead (p n : Nat) : (s.setMarks p n).hostRead = s.hostRead := rfl
@[simp] theorem State.setMarks_freeCtr (p n : Nat) : (s.setMarks p n).freeCtr = s.freeCtr := rfl
@[simp] theorem State.setMarks_col (p n : Nat) : (s.setMarks p n).col = s.col := rfl
@[simp] theorem State.setMarks_dma (p n : Nat) : (s.setMarks p n).dma = s.dma := rfl
@[simp] theorem State.setMarks_pwr (p n : Nat) : (s.setMarks p n).pwr = s.pwr := rfl
@[simp] theorem State.setMarks_engines (p n : Nat) : (s.setMarks p n).engines = s.engines := rfl
@[simp] theorem State.setMarks_spa (p n : Nat) : (s.setMarks p n).spa = s.spa := rfl
@[simp] theorem State.setMarks_spc (p n : Nat) : (s.setMarks p n).spc = s.spc := rfl
@[simp] theorem State.setMarks_ln (p n : Nat) : (s.setMarks p n).ln = s.ln := rfl
@[simp] theorem State.setMarks_fh (p n : Nat) : (s.setMarks p n).fh = s.fh := rfl
@[simp] theorem State.setMarks_stf (p n : Nat) : (s.setMarks p n).stf = s.stf := rfl
@[simp] theorem State.setMarks_cap (p n : Nat) : (s.setMarks p n).cap = s.cap := rfl
@[simp] theorem State.setMarks_rst (p n : Nat) : (s.setMarks p n).rst = s.rst := rfl

/-! ### setCluster -/

@[simp] theorem State.setCluster_pending (q : Nat) (x : Cluster) : (s.setCluster q x).pending = s.pending := by unfold State.setCluster; split <;> rfl
@[simp] theorem State.setCluster_regs (q : Nat) (x : Cluster) : (s.setCluster q x).regs = s.regs := by unfold State.setCluster; split <;> rfl
@[simp] theorem State.setCluster_mem (q : Nat) (x : Cluster) : (s.setCluster q x).mem = s.mem := by unfold State.setCluster; split <;> rfl
@[simp] theorem State.setCluster_glb (q : Nat) (x : Cluster) : (s.setCluster q x).glb = s.glb := by unfold State.setCluster; split <;> rfl
@[simp] theorem State.setCluster_tb (q : Nat) (x : Cluster) : (s.setCluster q x).tb = s.tb := by unfold State.setCluster; split <;> rfl
@[simp] theorem State.setCluster_slt (q : Nat) (x : Cluster) : (s.setCluster q x).slt = s.slt := by unfold State.setCluster; split <;> rfl
@[simp] theorem State.setCluster_hp (q : Nat) (x : Cluster) : (s.setCluster q x).hp = s.hp := by unfold State.setCluster; split <;> rfl
@[simp] theorem State.setCluster_qm (q : Nat) (x : Cluster) : (s.setCluster q x).qm = s.qm := by unfold State.setCluster; split <;> rfl
@[simp] theorem State.setCluster_spn (q : Nat) (x : Cluster) : (s.setCluster q x).spn = s.spn := by unfold State.setCluster; split <;> rfl
@[simp] theorem State.setCluster_gth (q : Nat) (x : Cluster) : (s.setCluster q x).gth = s.gth := by unfold State.setCluster; split <;> rfl
@[simp] theorem State.setCluster_qui (q : Nat) (x : Cluster) : (s.setCluster q x).qui = s.qui := by unfold State.setCluster; split <;> rfl
@[simp] theorem State.setCluster_notifies (q : Nat) (x : Cluster) : (s.setCluster q x).notifies = s.notifies := by unfold State.setCluster; split <;> rfl
@[simp] theorem State.setCluster_out (q : Nat) (x : Cluster) : (s.setCluster q x).out = s.out := by unfold State.setCluster; split <;> rfl
@[simp] theorem State.setCluster_bus (q : Nat) (x : Cluster) : (s.setCluster q x).bus = s.bus := by unfold State.setCluster; split <;> rfl
@[simp] theorem State.setCluster_hostRead (q : Nat) (x : Cluster) : (s.setCluster q x).hostRead = s.hostRead := by unfold State.setCluster; split <;> rfl
@[simp] theorem State.setCluster_freeCtr (q : Nat) (x : Cluster) : (s.setCluster q x).freeCtr = s.freeCtr := by unfold State.setCluster; split <;> rfl
@[simp] theorem State.setCluster_col (q : Nat) (x : Cluster) : (s.setCluster q x).col = s.col := by unfold State.setCluster; split <;> rfl
@[simp] theorem State.setCluster_dma (q : Nat) (x : Cluster) : (s.setCluster q x).dma = s.dma := by unfold State.setCluster; split <;> rfl
@[simp] theorem State.setCluster_mm (q : Nat) (x : Cluster) : (s.setCluster q x).mm = s.mm := by unfold State.setCluster; split <;> rfl
@[simp] theorem State.setCluster_engines (q : Nat) (x : Cluster) : (s.setCluster q x).engines = s.engines := by unfold State.setCluster; split <;> rfl
@[simp] theorem State.setCluster_spa (q : Nat) (x : Cluster) : (s.setCluster q x).spa = s.spa := by unfold State.setCluster; split <;> rfl
@[simp] theorem State.setCluster_spc (q : Nat) (x : Cluster) : (s.setCluster q x).spc = s.spc := by unfold State.setCluster; split <;> rfl
@[simp] theorem State.setCluster_ln (q : Nat) (x : Cluster) : (s.setCluster q x).ln = s.ln := by unfold State.setCluster; split <;> rfl
@[simp] theorem State.setCluster_fh (q : Nat) (x : Cluster) : (s.setCluster q x).fh = s.fh := by unfold State.setCluster; split <;> rfl
@[simp] theorem State.setCluster_stf (q : Nat) (x : Cluster) : (s.setCluster q x).stf = s.stf := by unfold State.setCluster; split <;> rfl
@[simp] theorem State.setCluster_cap (q : Nat) (x : Cluster) : (s.setCluster q x).cap = s.cap := by unfold State.setCluster; split <;> rfl
@[simp] theorem State.setCluster_rst (q : Nat) (x : Cluster) : (s.setCluster q x).rst = s.rst := by unfold State.setCluster; split <;> rfl

/-! ### setSlot -/

@[simp] theorem State.setSlot_pending (q : Nat) (x : ImageSlot) : (s.setSlot q x).pending = s.pending := rfl
@[simp] theorem State.setSlot_regs (q : Nat) (x : ImageSlot) : (s.setSlot q x).regs = s.regs := rfl
@[simp] theorem State.setSlot_mem (q : Nat) (x : ImageSlot) : (s.setSlot q x).mem = s.mem := rfl
@[simp] theorem State.setSlot_glb (q : Nat) (x : ImageSlot) : (s.setSlot q x).glb = s.glb := rfl
@[simp] theorem State.setSlot_tb (q : Nat) (x : ImageSlot) : (s.setSlot q x).tb = s.tb := rfl
@[simp] theorem State.setSlot_slt (q : Nat) (x : ImageSlot) : (s.setSlot q x).slt = s.slt := rfl
@[simp] theorem State.setSlot_hp (q : Nat) (x : ImageSlot) : (s.setSlot q x).hp = s.hp := rfl
@[simp] theorem State.setSlot_qm (q : Nat) (x : ImageSlot) : (s.setSlot q x).qm = s.qm := rfl
@[simp] theorem State.setSlot_spn (q : Nat) (x : ImageSlot) : (s.setSlot q x).spn = s.spn := rfl
@[simp] theorem State.setSlot_gth (q : Nat) (x : ImageSlot) : (s.setSlot q x).gth = s.gth := rfl
@[simp] theorem State.setSlot_qui (q : Nat) (x : ImageSlot) : (s.setSlot q x).qui = s.qui := rfl
@[simp] theorem State.setSlot_notifies (q : Nat) (x : ImageSlot) : (s.setSlot q x).notifies = s.notifies := rfl
@[simp] theorem State.setSlot_out (q : Nat) (x : ImageSlot) : (s.setSlot q x).out = s.out := rfl
@[simp] theorem State.setSlot_bus (q : Nat) (x : ImageSlot) : (s.setSlot q x).bus = s.bus := rfl
@[simp] theorem State.setSlot_hostRead (q : Nat) (x : ImageSlot) : (s.setSlot q x).hostRead = s.hostRead := rfl
@[simp] theorem State.setSlot_freeCtr (q : Nat) (x : ImageSlot) : (s.setSlot q x).freeCtr = s.freeCtr := rfl
@[simp] theorem State.setSlot_dma (q : Nat) (x : ImageSlot) : (s.setSlot q x).dma = s.dma := rfl
@[simp] theorem State.setSlot_mm (q : Nat) (x : ImageSlot) : (s.setSlot q x).mm = s.mm := rfl
@[simp] theorem State.setSlot_pwr (q : Nat) (x : ImageSlot) : (s.setSlot q x).pwr = s.pwr := rfl
@[simp] theorem State.setSlot_engines (q : Nat) (x : ImageSlot) : (s.setSlot q x).engines = s.engines := rfl
@[simp] theorem State.setSlot_spa (q : Nat) (x : ImageSlot) : (s.setSlot q x).spa = s.spa := rfl
@[simp] theorem State.setSlot_spc (q : Nat) (x : ImageSlot) : (s.setSlot q x).spc = s.spc := rfl
@[simp] theorem State.setSlot_ln (q : Nat) (x : ImageSlot) : (s.setSlot q x).ln = s.ln := rfl
@[simp] theorem State.setSlot_fh (q : Nat) (x : ImageSlot) : (s.setSlot q x).fh = s.fh := rfl
@[simp] theorem State.setSlot_stf (q : Nat) (x : ImageSlot) : (s.setSlot q x).stf = s.stf := rfl
@[simp] theorem State.setSlot_cap (q : Nat) (x : ImageSlot) : (s.setSlot q x).cap = s.cap := rfl
@[simp] theorem State.setSlot_rst (q : Nat) (x : ImageSlot) : (s.setSlot q x).rst = s.rst := rfl

/-! ### setSession -/

@[simp] theorem State.setSession_pending (x : Option Session) : (s.setSession x).pending = s.pending := rfl
@[simp] theorem State.setSession_regs (x : Option Session) : (s.setSession x).regs = s.regs := rfl
@[simp] theorem State.setSession_mem (x : Option Session) : (s.setSession x).mem = s.mem := rfl
@[simp] theorem State.setSession_glb (x : Option Session) : (s.setSession x).glb = s.glb := rfl
@[simp] theorem State.setSession_tb (x : Option Session) : (s.setSession x).tb = s.tb := rfl
@[simp] theorem State.setSession_slt (x : Option Session) : (s.setSession x).slt = s.slt := rfl
@[simp] theorem State.setSession_hp (x : Option Session) : (s.setSession x).hp = s.hp := rfl
@[simp] theorem State.setSession_qm (x : Option Session) : (s.setSession x).qm = s.qm := rfl
@[simp] theorem State.setSession_spn (x : Option Session) : (s.setSession x).spn = s.spn := rfl
@[simp] theorem State.setSession_gth (x : Option Session) : (s.setSession x).gth = s.gth := rfl
@[simp] theorem State.setSession_qui (x : Option Session) : (s.setSession x).qui = s.qui := rfl
@[simp] theorem State.setSession_notifies (x : Option Session) : (s.setSession x).notifies = s.notifies := rfl
@[simp] theorem State.setSession_out (x : Option Session) : (s.setSession x).out = s.out := rfl
@[simp] theorem State.setSession_bus (x : Option Session) : (s.setSession x).bus = s.bus := rfl
@[simp] theorem State.setSession_hostRead (x : Option Session) : (s.setSession x).hostRead = s.hostRead := rfl
@[simp] theorem State.setSession_freeCtr (x : Option Session) : (s.setSession x).freeCtr = s.freeCtr := rfl
@[simp] theorem State.setSession_dma (x : Option Session) : (s.setSession x).dma = s.dma := rfl
@[simp] theorem State.setSession_mm (x : Option Session) : (s.setSession x).mm = s.mm := rfl
@[simp] theorem State.setSession_pwr (x : Option Session) : (s.setSession x).pwr = s.pwr := rfl
@[simp] theorem State.setSession_engines (x : Option Session) : (s.setSession x).engines = s.engines := rfl
@[simp] theorem State.setSession_spa (x : Option Session) : (s.setSession x).spa = s.spa := rfl
@[simp] theorem State.setSession_spc (x : Option Session) : (s.setSession x).spc = s.spc := rfl
@[simp] theorem State.setSession_ln (x : Option Session) : (s.setSession x).ln = s.ln := rfl
@[simp] theorem State.setSession_fh (x : Option Session) : (s.setSession x).fh = s.fh := rfl
@[simp] theorem State.setSession_stf (x : Option Session) : (s.setSession x).stf = s.stf := rfl
@[simp] theorem State.setSession_cap (x : Option Session) : (s.setSession x).cap = s.cap := rfl
@[simp] theorem State.setSession_rst (x : Option Session) : (s.setSession x).rst = s.rst := rfl

/-! ### Contexts read back -/

theorem State.ring_setRing (q j : Nat) (x : Ring) (hq : q < 65536)
    (h : mapWf (fun _ => ({} : Ring)) s.hp.rings = true) : (s.setRing q x).ring j = if j = q then x else s.ring j := by
  unfold State.setRing; rw [if_pos hq]; exact mapGet_set _ _ _ _ _ h

theorem State.queue_setQueue (q j : Nat) (x : Queue) (hq : q < 65536)
    (h : mapWf (fun _ => ({} : Queue)) s.qm.queues = true) : (s.setQueue q x).queue j = if j = q then x else s.queue j := by
  unfold State.setQueue; rw [if_pos hq]; exact mapGet_set _ _ _ _ _ h

theorem State.task_setTask (q j : Nat) (x : Task) (hq : q < 131072)
    (h : mapWf (fun _ => ({} : Task)) s.gth.tasks = true) : (s.setTask q x).task j = if j = q then x else s.task j := by
  unfold State.setTask; rw [if_pos hq]; exact mapGet_set _ _ _ _ _ h

theorem State.sig_setSig (q j : Nat) (x : Signature) (hq : q < 16384)
    (h : mapWf (fun _ => ({} : Signature)) s.gth.sigs = true) : (s.setSig q x).sig j = if j = q then x else s.sig j := by
  unfold State.setSig; rw [if_pos hq]; exact mapGet_set _ _ _ _ _ h

theorem State.leaf_setLeaf (q j : Nat) (x : Leaf) (hq : q < 192)
    (h : mapWf (fun _ => ({} : Leaf)) s.qui.leaves = true) : (s.setLeaf q x).leaf j = if j = q then x else s.leaf j := by
  unfold State.setLeaf; rw [if_pos hq]; exact mapGet_set _ _ _ _ _ h

theorem State.chan_setChan (q j : Nat) (x : DmaChan) (hq : q < 1024)
    (h : mapWf (fun _ => ({} : DmaChan)) s.dma.chans = true) : (s.setChan q x).chan j = if j = q then x else s.chan j := by
  unfold State.setChan; rw [if_pos hq]; exact mapGet_set _ _ _ _ _ h

theorem State.carrier_setCarrier (q j : Nat) (x : Carrier) (hq : q < 512)
    (h : mapWf (fun _ => ({} : Carrier)) s.slt.carriers = true) : (s.setCarrier q x).carrier j = if j = q then x else s.carrier j := by
  unfold State.setCarrier; rw [if_pos hq]; exact mapGet_set _ _ _ _ _ h

theorem State.lane_setLane (q j : Nat) (x : Lane) (hq : q < 96)
    (h : mapWf (fun _ => ({} : Lane)) s.ln.lanes = true) : (s.setLane q x).lane j = if j = q then x else s.lane j := by
  unfold State.setLane; rw [if_pos hq]; exact mapGet_set _ _ _ _ _ h

theorem State.port_setPort (q j : Nat) (x : FhPort) (hq : q < 96)
    (h : mapWf (fun _ => ({} : FhPort)) s.fh.ports = true) : (s.setPort q x).port j = if j = q then x else s.port j := by
  unfold State.setPort; rw [if_pos hq]; exact mapGet_set _ _ _ _ _ h

theorem State.stfPort_setStfPort (q j : Nat) (x : StfPort) (hq : q < 12)
    (h : mapWf (fun _ => ({} : StfPort)) s.stf.ports = true) : (s.setStfPort q x).stfPort j = if j = q then x else s.stfPort j := by
  unfold State.setStfPort; rw [if_pos hq]; exact mapGet_set _ _ _ _ _ h

theorem State.binding_setBinding (q j : Nat) (x : Binding) (hq : q < 4096)
    (h : mapWf (fun _ => ({} : Binding)) s.stf.bindings = true) : (s.setBinding q x).binding j = if j = q then x else s.binding j := by
  unfold State.setBinding; rw [if_pos hq]; exact mapGet_set _ _ _ _ _ h

theorem State.vat_setVat (q j : Nat) (x : VatHalf) (hq : q < 2)
    (h : mapWf (fun _ => ({} : VatHalf)) s.cap.halves = true) : (s.setVat q x).vat j = if j = q then x else s.vat j := by
  unfold State.setVat; rw [if_pos hq]; exact mapGet_set _ _ _ _ _ h

theorem State.chanP_setChanP (q j : Nat) (x : PressChan) (hq : q < 16)
    (h : mapWf (fun _ => ({} : PressChan)) s.cap.press = true) : (s.setChanP q x).chanP j = if j = q then x else s.chanP j := by
  unfold State.setChanP; rw [if_pos hq]; exact mapGet_set _ _ _ _ _ h

theorem State.memChan_setMemChan (q j : Nat) (x : MemChan) (hq : q < 16)
    (h : mapWf (fun _ => ({} : MemChan)) s.mm.chans = true) : (s.setMemChan q x).memChan j = if j = q then x else s.memChan j := by
  unfold State.setMemChan; rw [if_pos hq]; exact mapGet_set _ _ _ _ _ h

theorem State.cluster_setCluster (q j : Nat) (x : Cluster) (hq : q < 72)
    (h : mapWf (fun _ => ({} : Cluster)) s.pwr.clusters = true) : (s.setCluster q x).cluster j = if j = q then x else s.cluster j := by
  unfold State.setCluster; rw [if_pos hq]; exact mapGet_set _ _ _ _ _ h

theorem State.engine_setEngine (q j : Nat) (x : Engine) (hq : q < 3)
    (h : mapWf (fun _ => ({} : Engine)) s.engines = true) : (s.setEngine q x).engine j = if j = q then x else s.engine j := by
  unfold State.setEngine; rw [if_pos hq]; exact mapGet_set _ _ _ _ _ h

theorem State.arbiter_setArbiter (q j : Nat) (x : Arbiter) (hq : q < arbiterCount)
    (h : mapWf (fun _ => ({} : Arbiter)) s.spn.arbiters = true) : (s.setArbiter q x).arbiter j = if j = q then x else s.arbiter j := by
  unfold State.setArbiter; rw [if_pos hq]; exact mapGet_set _ _ _ _ _ h

theorem State.fnOf_setFn (q j : Nat) (x : PcieFn) (hq : q < 64)
    (h : mapWf (fun _ => ({} : PcieFn)) s.hp.fns = true) : (s.setFn q x).fnOf j = if j = q then x else s.fnOf j := by
  unfold State.setFn; rw [if_pos hq]; exact mapGet_set _ _ _ _ _ h

theorem State.det_setDet (q j : Nat) (x : Detector) (hq : q < 512)
    (h : mapWf (fun _ => ({} : Detector)) s.spc.dets = true) : (s.setDet q x).det j = if j = q then x else s.det j := by
  unfold State.setDet; rw [if_pos hq]; exact mapGet_set _ _ _ _ _ h

theorem State.rd_wr (a b : Nat) (v : W32) (h : mapWf regReset s.regs = true) :
    (s.wr a v).rd b = if b = a then v else s.rd b := mapGet_set _ _ _ _ _ h

theorem State.byte_setByte (a b : Nat) (v : Byte) (h : mapWf memDefault s.mem = true) :
    (s.setByte a v).byte b = if b = a then v else s.byte b := mapGet_set _ _ _ _ _ h

end Sys2Proof.Machine
end

