-- ==== Sys2Proof/Machine/Load.lean ====
section
/-! DEFINITION. The load model (R19 to R22): the budget of power at the point of load and the cost units of carriers. The
module checks no load against it and refuses no carrier for it (R22), so no command reads these definitions: they say
which loads the manual calls within specification. -/

namespace Sys2Proof.Machine

/-- Point-of-load power by part, W (R19), in the order of its table. (DESIGN CHOICE, log entry 90) -/
def powerBudget : List Nat := [48, 58, 30, 24, 14, 13, 18, 12, 38, 5, 4, 3, 3]

/-- Cost units of the six resources of the load model, each with a capacity of 10,000. -/
structure LoadUnits where
  leaf : Nat := 0
  spatial : Nat := 0
  coding : Nat := 0
  transform : Nat := 0
  lane : Nat := 0
  memory : Nat := 0
  deriving DecidableEq, Repr

/-- Carrier types of R21. -/
inductive CarrierType where
  | nr64 | nr4 | lte | fr2 | nbIot
  deriving DecidableEq, Repr

/-- Units of one carrier of a type in its reference configuration (R21). -/
def CarrierType.units : CarrierType → LoadUnits
  | .nr64 => ⟨150, 208, 120, 10, 103, 90⟩
  | .nr4 => ⟨40, 10, 52, 4, 12, 30⟩
  | .lte => ⟨26, 3, 20, 2, 4, 12⟩
  | .fr2 => ⟨312, 60, 250, 20, 80, 200⟩
  | .nbIot => ⟨12, 1, 2, 2, 2, 2⟩

/-- Largest number of carriers of a type alone (R21). -/
def CarrierType.most : CarrierType → Nat
  | .nr64 => 48 | .nr4 => 192 | .lte => 384 | .fr2 => 32 | .nbIot => 512

def LoadUnits.add (a b : LoadUnits) : LoadUnits :=
  ⟨a.leaf + b.leaf, a.spatial + b.spatial, a.coding + b.coding, a.transform + b.transform, a.lane + b.lane, a.memory + b.memory⟩

/-- Units of `n` carriers of a type. -/
def LoadUnits.times (n : Nat) (a : LoadUnits) : LoadUnits :=
  ⟨n * a.leaf, n * a.spatial, n * a.coding, n * a.transform, n * a.lane, n * a.memory⟩

/-- The units of a set of carriers, given as counts by type, with the lane and memory units of the Vat and the Press. -/
def loadTotal (carriers : List (Nat × CarrierType)) (vatLane vatMemory pressLane pressMemory : Nat) : LoadUnits :=
  carriers.foldl (fun a p => a.add (p.2.units.times p.1))
    { lane := vatLane + pressLane, memory := vatMemory + pressMemory }

/-- A load within specification (R20): no resource above its capacity, at most 512 carriers, at most 6,000 units of module
memory for the Vat. (DESIGN CHOICE, log entry 90) -/
def loadWithin (carriers : List (Nat × CarrierType)) (vatLane vatMemory pressLane pressMemory : Nat) : Bool :=
  let t := loadTotal carriers vatLane vatMemory pressLane pressMemory
  [t.leaf, t.spatial, t.coding, t.transform, t.lane, t.memory].all (fun u => decide (u ≤ 10000))
    && decide ((carriers.map (·.1)).sum ≤ 512) && decide (vatMemory ≤ 6000)

end Sys2Proof.Machine
end

