-- ==== Sys2Proof/Tests/Slice0.lean ====
section
/-! SUPPORT. Tests of the model. First, for every statement that has hypotheses, a theorem `witness_<statement>` with one
concrete state and operands for each of its clauses, meeting all of the clause's hypotheses together. Then an ill-formed
command for each check of well-formedness. Then the spec's own worked examples, their numbers taken from the spec. -/

open Sys2Proof Sys2Proof.Machine
set_option autoImplicit false
set_option Elab.async false
set_option maxRecDepth 20000

namespace Sys2Proof.Tests

/-! ## States to start from -/

/-- The machine booted: Serham runs, the core and the memory are ready. -/
def booted : State := { State.reset with col := { serhamUp := true }, glb := { coreReady := true, memReady := true } }

/-- The same, with the leaves of quire 0 out of their reset. -/
def leafOn : State := booted.wr (Reg.QUI_LEAF_CTRL 0) 0#32

/-- A half that runs, its slot 0 couched with the words. -/
def runningHalf (words : SetWords) : HalfState :=
  { running := true, nextSlot := 1, curSlot := some 0, live := [{ slot := 0, words := words, gen := 1 }] }

/-- Carrier 0 RUNNING, its carrier page couched, both halves in slot 0. -/
def oneCarrier (words page : SetWords) : SMap Carrier :=
  [(0, { mode := .running, pageFelt := page, dl := runningHalf words, ul := runningHalf words })]

/-- An item of one word. -/
def oneItem : QItem := { prio := 0, tag := 0, words := [0] }

/-- A storable queue that holds that item. -/
def oneItemQueue : Queue := { kind := 3, visible := [oneItem] }

/-- A job as an engine holds it. -/
def oneJob (kind : Nat) (words : List W32) : EngJob :=
  { seq := 0, origin := .host ⟨0, 0#32, false, false⟩, kind := kind, carrier := 0, half := .ul, slotNum := 0, slot := 0#32,
    tag := 0#32, words := words, clamped := false }

/-- A started program of a host descriptor. -/
def oneProg (prog : W64) (index : Nat) (wait : Option DmaWait) : DmaProg :=
  { origin := .host ⟨0, 0#32, false, false⟩, tag := 0#32, prog := prog, carrier := 0xFFFF, half := .ul, slotNum := 0,
    started := true, index := index, wait := wait }

/-- A descriptor with the body's first words. -/
def oneDesc (carrier : Nat) (flags : Nat) (immediate : Bool) (body : List W32) : Desc :=
  { ring := 0, type := 0, tag := 0#32, flags := flags, immediate := immediate, carrier := carrier, slot := 0#32, body := body }

/-- The item of a read that gives one. -/
def gotItem (r : ReadResult) : QItem := match r with | .item i => i | _ => oneItem

/-- The next state of an outcome. -/
def nextOf (o : Host.Outcome State Fault Refusal) (s : State) : State := match o with | .next t => t | _ => s

/-- The bytes of a read that gives them. -/
def okOf (x : Except Nat (List Byte)) : List Byte := match x with | .ok b => b | .error _ => []

/-- The address of a read that fails. -/
def errorOf (x : Except Nat (List Byte)) : Option Nat := match x with | .ok _ => none | .error a => some a

/-! ## Hypotheses with names of their own -/

theorem ok_of {x : Except Nat (List Byte)} (h : errorOf x = none) : x = .ok (okOf x) := by
  cases x with
  | ok b => rfl
  | error a => simp [errorOf] at h

theorem some_of {α : Type} {o : Option α} {d : α} (h : o.isSome = true) : o = some (o.getD d) := by
  cases o with
  | some a => rfl
  | none => simp at h

theorem peak_of {x : Detector} {fsK fft power rho : Nat} {ref : List Cplx} {t : Int} {d : Peak}
    (h1 : x.lagsAround x.record fft t ref.length = [t]) (h2 : recFld x.record 4 15 0 = 0) :
    x.peakAt fsK fft ref t power rho = some ((x.peakAt fsK fft ref t power rho).getD d) := by
  simp [Detector.peakAt, h1, h2]

theorem error_of {x : Except Nat (List Byte)} {a : Nat} (h : errorOf x = some a) : x = .error a := by
  cases x with
  | ok b => simp [errorOf] at h
  | error b => simpa [errorOf] using h

/-- Only channel 0 moves. -/
theorem onlyMoves_of {s : State} (x : DmaChan) (h : s.dma.chans = []) :
    ∀ k, k / 16 = 0 / 16 → k ≠ 0 → ((s.setChan 0 x).chan k).moving = none := by
  intro k _ hk
  have e : (s.setChan 0 x).chan k = {} := by
    rw [State.setChan, if_pos (by decide), State.chan]
    show mapGet (fun _ => ({} : DmaChan)) (mapSet (fun _ => {}) s.dma.chans 0 x) k = {}
    rw [h, mapSet, mapErase, mapInsert]
    split <;> simp [mapGet, Ne.symm hk]
  rw [e]
  rfl

/-- A fetch from host memory whose data ends with the instruction fetches none ahead. -/
theorem fetchInstr_of {s s1 : State} {c : Nat} {p p1 : DmaProg} {inst : List W32} {r : Option (List W32)}
    (h : p.index < 4096 ∧ p.fetched = [] ∧ 2 ^ 63 ≤ p.pc ∧ 2 ^ 63 ≤ p.addrOf (p.index + 1) ∧ (inst.drop 8).length < 8 ∧
      (s.fetchAt c p p.index (inst.take 8)).1.drawn = s1 ∧ (s.fetchAt c p p.index (inst.take 8)).2 = r ∧ { p with fetched := [r] } = p1) :
    s.fetchInstr c p inst = (s1, p1, r) := by
  obtain ⟨hi, hf, hh, ha, hl, h1, h2, h3⟩ := h
  have key : ∀ (t : State) (n : Nat), t.fetchAhead c { p with fetched := [r] } (inst.drop 8) n = (t, { p with fetched := [r] }) := by
    intro t n
    cases n with
    | zero => rfl
    | succ m =>
      unfold State.fetchAhead
      have : decide (2 ^ 63 ≤ ({ p with fetched := [r] } : DmaProg).addrOf (p.index + 1)) = true := decide_eq_true ha
      rw [if_pos]
      right
      exact ⟨this, hl⟩
  subst h3
  unfold State.fetchInstr
  rw [if_neg (by omega)]
  simp only [hf, List.isEmpty_nil, if_true, hh, decide_true, h2]
  rw [key, h1]
  rfl

theorem hostOpen_of {s : State} {a : Nat} (h : (s.fnOf 0).flr = false ∧ s.pwr.asleep = false ∧ s.rst.warmHeld = false ∧
    s.rst.power = .on ∧ (s.glb.frozen = false ∨ blockOf a = some .col) ∧ (s.glb.coreReady = true ∨ a = Reg.GLB_SCRATCH) ∧
    s.regIsolated a = false) : s.hostOpen a :=
  ⟨h.1, h.2.1, h.2.2.1, h.2.2.2.1, h.2.2.2.2.1, h.2.2.2.2.2.1, h.2.2.2.2.2.2⟩

theorem leafReady_of {s : State} {n : Nat} (h : s.clocked = true ∧ n < 192 ∧ s.leafInReset n = false ∧ (s.leaf n).halted = false ∧
    (s.leaf n).wait = .none ∧ (s.leaf n).staged = [] ∧ (s.leaf n).rep = none ∧ (s.leaf n).haltReq = false ∧
    s.breakpointAt n (s.leaf n).pc = false ∧ (s.leaf n).commits = []) : s.leafReady n :=
  ⟨h.1, h.2.1, h.2.2.1, h.2.2.2.1, h.2.2.2.2.1, h.2.2.2.2.2.1, h.2.2.2.2.2.2.1, h.2.2.2.2.2.2.2.1, h.2.2.2.2.2.2.2.2.1, h.2.2.2.2.2.2.2.2.2⟩

theorem canonical_of {s : State} (h : Memory.wf s.mem = true ∧ Registers.wf s.regs = true) : s.canonical := h

theorem rateLegal_of {t : TbState} (h : rateMin ≤ t.rate ∧ t.rate ≤ rateMax ∧ t.pendingRate = none) : t.rateLegal :=
  ⟨h.1, h.2.1, by intro r hr; rw [h.2.2] at hr; exact absurd hr (by simp)⟩

theorem pend_of {α : Type} {o : Option α} {P : α → Prop} (h : o = none) : ∀ r, o = some r → P r := by
  intro r hr; rw [h] at hr; exact absurd hr (by simp)

/-! ## Witnesses -/

theorem witness_StepRunsTheFrontCommand :
   (let c : Instr := .ppsIn
    let rest : List Instr := []
    let s : State := { booted with pending := c :: rest }
    s.pending = c :: rest) ∧
   (let s : State := { booted with pending := [] }
    s.pending = []) := by
  refine ⟨?_, ?_⟩
  all_goals try intros
  all_goals and_intros
  all_goals first
    | decide +kernel +zetaReduce
    | exact hostOpen_of (by decide +kernel +zetaReduce)
    | exact leafReady_of (by decide +kernel +zetaReduce)
    | exact canonical_of (by decide +kernel +zetaReduce)
    | exact rateLegal_of (by decide +kernel +zetaReduce)
    | exact fetchInstr_of (by decide +kernel +zetaReduce)
    | exact onlyMoves_of _ rfl
    | exact Prod.ext rfl (some_of (by decide +kernel +zetaReduce))
    | exact Prod.ext rfl (by decide +kernel +zetaReduce)
    | exact ⟨_, rfl, by decide +kernel +zetaReduce⟩
    | exact some_of (by decide +kernel +zetaReduce)
    | exact peak_of (by decide +kernel +zetaReduce) (by decide +kernel +zetaReduce)
    | exact ok_of (by decide +kernel +zetaReduce)
    | exact error_of (by decide +kernel +zetaReduce)
    | exact pend_of (by decide +kernel +zetaReduce)
    | exact Or.inl ⟨rfl, rfl, rfl, rfl⟩
    | (intros; decide +kernel +zetaReduce)
    | (intro p; exact List.not_mem_nil)
    | exact List.Mem.head _
    | (intros; rfl)

theorem witness_EveryCommandAnswersANextState :
   (let c : Instr := .ppsIn
    let rest : List Instr := []
    let s : State := { booted with pending := c :: rest }
    let t : State := nextOf (step s) s
    s.pending = c :: rest ∧ step s = Host.Outcome.next t) := by
  all_goals try intros
  all_goals and_intros
  all_goals first
    | decide +kernel +zetaReduce
    | exact hostOpen_of (by decide +kernel +zetaReduce)
    | exact leafReady_of (by decide +kernel +zetaReduce)
    | exact canonical_of (by decide +kernel +zetaReduce)
    | exact rateLegal_of (by decide +kernel +zetaReduce)
    | exact fetchInstr_of (by decide +kernel +zetaReduce)
    | exact onlyMoves_of _ rfl
    | exact Prod.ext rfl (some_of (by decide +kernel +zetaReduce))
    | exact Prod.ext rfl (by decide +kernel +zetaReduce)
    | exact ⟨_, rfl, by decide +kernel +zetaReduce⟩
    | exact some_of (by decide +kernel +zetaReduce)
    | exact peak_of (by decide +kernel +zetaReduce) (by decide +kernel +zetaReduce)
    | exact ok_of (by decide +kernel +zetaReduce)
    | exact error_of (by decide +kernel +zetaReduce)
    | exact pend_of (by decide +kernel +zetaReduce)
    | exact Or.inl ⟨rfl, rfl, rfl, rfl⟩
    | (intros; decide +kernel +zetaReduce)
    | (intro p; exact List.not_mem_nil)
    | exact List.Mem.head _
    | (intros; rfl)

theorem witness_StepKeepsTheCanonicalForm :
   (let s : State := booted
    let t : State := nextOf (step s) s
    s.canonical ∧ step s = Host.Outcome.next t) := by
  all_goals try intros
  all_goals and_intros
  all_goals first
    | decide +kernel +zetaReduce
    | exact hostOpen_of (by decide +kernel +zetaReduce)
    | exact leafReady_of (by decide +kernel +zetaReduce)
    | exact canonical_of (by decide +kernel +zetaReduce)
    | exact rateLegal_of (by decide +kernel +zetaReduce)
    | exact fetchInstr_of (by decide +kernel +zetaReduce)
    | exact onlyMoves_of _ rfl
    | exact Prod.ext rfl (some_of (by decide +kernel +zetaReduce))
    | exact Prod.ext rfl (by decide +kernel +zetaReduce)
    | exact ⟨_, rfl, by decide +kernel +zetaReduce⟩
    | exact some_of (by decide +kernel +zetaReduce)
    | exact peak_of (by decide +kernel +zetaReduce) (by decide +kernel +zetaReduce)
    | exact ok_of (by decide +kernel +zetaReduce)
    | exact error_of (by decide +kernel +zetaReduce)
    | exact pend_of (by decide +kernel +zetaReduce)
    | exact Or.inl ⟨rfl, rfl, rfl, rfl⟩
    | (intros; decide +kernel +zetaReduce)
    | (intro p; exact List.not_mem_nil)
    | exact List.Mem.head _
    | (intros; rfl)

theorem witness_FusesAndLogNumbersNeverFall :
   (let s : State := booted
    let t : State := nextOf (step s) s
    step s = Host.Outcome.next t) := by
  all_goals try intros
  all_goals and_intros
  all_goals first
    | decide +kernel +zetaReduce
    | exact hostOpen_of (by decide +kernel +zetaReduce)
    | exact leafReady_of (by decide +kernel +zetaReduce)
    | exact canonical_of (by decide +kernel +zetaReduce)
    | exact rateLegal_of (by decide +kernel +zetaReduce)
    | exact fetchInstr_of (by decide +kernel +zetaReduce)
    | exact onlyMoves_of _ rfl
    | exact Prod.ext rfl (some_of (by decide +kernel +zetaReduce))
    | exact Prod.ext rfl (by decide +kernel +zetaReduce)
    | exact ⟨_, rfl, by decide +kernel +zetaReduce⟩
    | exact some_of (by decide +kernel +zetaReduce)
    | exact peak_of (by decide +kernel +zetaReduce) (by decide +kernel +zetaReduce)
    | exact ok_of (by decide +kernel +zetaReduce)
    | exact error_of (by decide +kernel +zetaReduce)
    | exact pend_of (by decide +kernel +zetaReduce)
    | exact Or.inl ⟨rfl, rfl, rfl, rfl⟩
    | (intros; decide +kernel +zetaReduce)
    | (intro p; exact List.not_mem_nil)
    | exact List.Mem.head _
    | (intros; rfl)

theorem witness_RegisterWrites :
   (let s : State := booted
    s.hostOpen Reg.GLB_SCRATCH) ∧
   (let s : State := booted
    let v : W64 := 0#64
    s.hostOpen Reg.TB_STEP_LIMIT ∧ bitsOf v 9 0 ≤ 1000) ∧
   (let s : State := booted
    let v : W64 := BitVec.ofNat _ (1001)
    s.hostOpen Reg.TB_STEP_LIMIT ∧ 1000 < bitsOf v 9 0) ∧
   (let s_1 : State := { booted with pwr.asleep := false, rst.warmHeld := false, rst.power := PowerMode.on, glb.frozen := false, glb.coreReady := false }
    let s : State := s_1.setFn 0 { s_1.fnOf 0 with flr := false }
    let a : Nat := 0
    a < 67108864 ∧ a ≠ Reg.GLB_SCRATCH ∧ (s.fnOf 0).flr = false ∧ s.pwr.asleep = false ∧ s.rst.warmHeld = false ∧
      s.rst.power = PowerMode.on ∧ s.glb.frozen = false ∧ s.glb.coreReady = false) ∧
   (let s : State := { booted with glb.coreReady := false }
    let a : Nat := 0x100000
    a < 67108864 ∧ inMsixTable 0 a = false ∧ inMsixPba 0 a = false ∧ s.bar0Answers a = true ∧ s.glb.coreReady = false ∧
      blockOf a ≠ some Block.glb) ∧
   (let s : State := booted
    s.hostOpen Reg.GLB_SETUP_LOCK) ∧
   (let s : State := booted.setBit Reg.GLB_SETUP_LOCK 0 true
    s.hostOpen Reg.FH_STF_ETYPE ∧ s.setupLocked = true) ∧
   (let s : State := booted
    let a : Nat := Reg.TB_CLAMP_COUNT
    a ∈ [Reg.GLB_CLAMP_COUNT, Reg.TB_CLAMP_COUNT, Reg.SLT_CLAMP_COUNT, Reg.HP_CLAMP_COUNT, Reg.QMG_CLAMP_COUNT,
      Reg.SPN_CLAMP_COUNT, Reg.GTH_CLAMP_COUNT, Reg.DMA_CLAMP_COUNT, Reg.SPA_CLAMP_COUNT, Reg.COD_CLAMP_COUNT,
      Reg.SPC_CLAMP_COUNT, Reg.FH_CLAMP_COUNT, Reg.LN_CLAMP_COUNT, Reg.STF_CLAMP_COUNT, Reg.CAP_CLAMP_COUNT,
      Reg.MEM_CLAMP_COUNT, Reg.PWR_CLAMP_COUNT, Reg.COL_CLAMP_COUNT] ∧ s.hostOpen a) ∧
   (let cc : Nat := 0
    let s : State := booted.setFld cc 15 0 65535
    s.canonical ∧ s.fld cc 15 0 = 65535) := by
  refine ⟨?_, ?_, ?_, ?_, ?_, ?_, ?_, ?_, ?_⟩
  all_goals try intros
  all_goals and_intros
  all_goals first
    | decide +kernel +zetaReduce
    | exact hostOpen_of (by decide +kernel +zetaReduce)
    | exact leafReady_of (by decide +kernel +zetaReduce)
    | exact canonical_of (by decide +kernel +zetaReduce)
    | exact rateLegal_of (by decide +kernel +zetaReduce)
    | exact fetchInstr_of (by decide +kernel +zetaReduce)
    | exact onlyMoves_of _ rfl
    | exact Prod.ext rfl (some_of (by decide +kernel +zetaReduce))
    | exact Prod.ext rfl (by decide +kernel +zetaReduce)
    | exact ⟨_, rfl, by decide +kernel +zetaReduce⟩
    | exact some_of (by decide +kernel +zetaReduce)
    | exact peak_of (by decide +kernel +zetaReduce) (by decide +kernel +zetaReduce)
    | exact ok_of (by decide +kernel +zetaReduce)
    | exact error_of (by decide +kernel +zetaReduce)
    | exact pend_of (by decide +kernel +zetaReduce)
    | exact Or.inl ⟨rfl, rfl, rfl, rfl⟩
    | (intros; decide +kernel +zetaReduce)
    | (intro p; exact List.not_mem_nil)
    | exact List.Mem.head _
    | (intros; rfl)

theorem witness_LatchedReads :
   (let s : State := { booted with glb.coreReady := true }
    let a : Nat := Reg.TB_RAW_LO
    latchCount a = 1 ∧ a < 67108864 ∧ a % 4 = 0 ∧ inMsixTable 0 a = false ∧ inMsixPba 0 a = false ∧
      s.bar0Answers a = true ∧ (s.glb.coreReady = true ∨ blockOf a = some Block.glb) ∧ s.regIsolated a = false) ∧
   (let s : State := { booted with glb.coreReady := true }
    s.bar0Answers Reg.TB_TIME = true ∧ s.glb.coreReady = true ∧ s.regIsolated Reg.TB_TIME = false) := by
  refine ⟨?_, ?_⟩
  all_goals try intros
  all_goals and_intros
  all_goals first
    | decide +kernel +zetaReduce
    | exact hostOpen_of (by decide +kernel +zetaReduce)
    | exact leafReady_of (by decide +kernel +zetaReduce)
    | exact canonical_of (by decide +kernel +zetaReduce)
    | exact rateLegal_of (by decide +kernel +zetaReduce)
    | exact fetchInstr_of (by decide +kernel +zetaReduce)
    | exact onlyMoves_of _ rfl
    | exact Prod.ext rfl (some_of (by decide +kernel +zetaReduce))
    | exact Prod.ext rfl (by decide +kernel +zetaReduce)
    | exact ⟨_, rfl, by decide +kernel +zetaReduce⟩
    | exact some_of (by decide +kernel +zetaReduce)
    | exact peak_of (by decide +kernel +zetaReduce) (by decide +kernel +zetaReduce)
    | exact ok_of (by decide +kernel +zetaReduce)
    | exact error_of (by decide +kernel +zetaReduce)
    | exact pend_of (by decide +kernel +zetaReduce)
    | exact Or.inl ⟨rfl, rfl, rfl, rfl⟩
    | (intros; decide +kernel +zetaReduce)
    | (intro p; exact List.not_mem_nil)
    | exact List.Mem.head _
    | (intros; rfl)

theorem witness_DiscardedAccesses :
   (let s : State := booted
    let a : Nat := 0
    let w : Nat := 0
    a < 67108864 ∧ inMsixTable 0 a = false ∧ inMsixPba 0 a = false ∧ (w ≠ 4 ∨ a % 4 ≠ 0) ∧ s.bar0Answers a = true) ∧
   (let s : State := { booted with glb.coreReady := true }
    let a : Nat := 0
    let w : Nat := 0
    a < 67108864 ∧ inMsixTable 0 a = false ∧ inMsixPba 0 a = false ∧ (w ≠ 4 ∨ a % 4 ≠ 0) ∧ s.hostOpen a ∧
      s.glb.coreReady = true) ∧
   (let s_1 : State := { booted with pwr.asleep := false, rst.warmHeld := false, rst.power := PowerMode.on, glb.frozen := false, glb.coreReady := false }
    let s : State := s_1.setFn 0 { s_1.fnOf 0 with flr := false }
    let a : Nat := 0
    let w : Nat := 0
    a < 67108864 ∧ inMsixTable 0 a = false ∧ inMsixPba 0 a = false ∧ (w ≠ 4 ∨ a % 4 ≠ 0) ∧ (s.fnOf 0).flr = false ∧
      s.pwr.asleep = false ∧ s.rst.warmHeld = false ∧ s.rst.power = PowerMode.on ∧ s.glb.frozen = false ∧
      s.regIsolated a = false ∧ s.glb.coreReady = false) ∧
   (let s : State := booted
    let a : Nat := 0x01500000
    a < 67108864 ∧ a % 4 = 0 ∧ inMsixTable 0 a = false ∧ inMsixPba 0 a = false ∧ findReg a = none ∧ isLatched a = false ∧
      s.bar0Answers a = true ∧ s.regIsolated a = false) ∧
   (let s : State := booted
    let a : Nat := 0x01500000
    a < 67108864 ∧ a % 4 = 0 ∧ inMsixTable 0 a = false ∧ inMsixPba 0 a = false ∧ findReg a = none ∧ s.hostOpen a) ∧
   (let a : Nat := 22020096
    22020096 ≤ a) ∧
   (let a : Nat := 0
    let p : Nat × Nat × Nat := (0, 1048576, Reg.GLB_CLAMP_COUNT)
    p ∈ [(0, 1048576, Reg.GLB_CLAMP_COUNT), (1048576, 2097152, Reg.HP_CLAMP_COUNT), (2097152, 4194304,
      Reg.QMG_CLAMP_COUNT), (4194304, 5242880, Reg.SPN_CLAMP_COUNT), (5242880, 6291456, Reg.GTH_CLAMP_COUNT), (8388608,
      9437184, Reg.DMA_CLAMP_COUNT), (9437184, 10485760, Reg.SPA_CLAMP_COUNT), (10485760, 11534336, Reg.COD_CLAMP_COUNT),
      (11534336, 12582912, Reg.SPC_CLAMP_COUNT), (12582912, 13631488, Reg.FH_CLAMP_COUNT), (13631488, 14680064,
      Reg.LN_CLAMP_COUNT), (14680064, 15728640, Reg.STF_CLAMP_COUNT), (15728640, 16777216, Reg.TB_CLAMP_COUNT), (16777216,
      17825792, Reg.CAP_CLAMP_COUNT), (17825792, 18874368, Reg.MEM_CLAMP_COUNT), (18874368, 19922944, Reg.PWR_CLAMP_COUNT),
      (19922944, 20971520, Reg.COL_CLAMP_COUNT), (20971520, 22020096, Reg.SLT_CLAMP_COUNT)] ∧ p.fst ≤ a ∧ a < p.snd.fst) ∧
   (let q : Nat := 0
    let a : Nat := 0x600000
    q < 24 ∧ 6291456 + q * 65536 ≤ a ∧ a < 6291456 + (q + 1) * 65536) := by
  refine ⟨?_, ?_, ?_, ?_, ?_, ?_, ?_, ?_⟩
  all_goals try intros
  all_goals and_intros
  all_goals first
    | decide +kernel +zetaReduce
    | exact hostOpen_of (by decide +kernel +zetaReduce)
    | exact leafReady_of (by decide +kernel +zetaReduce)
    | exact canonical_of (by decide +kernel +zetaReduce)
    | exact rateLegal_of (by decide +kernel +zetaReduce)
    | exact fetchInstr_of (by decide +kernel +zetaReduce)
    | exact onlyMoves_of _ rfl
    | exact Prod.ext rfl (some_of (by decide +kernel +zetaReduce))
    | exact Prod.ext rfl (by decide +kernel +zetaReduce)
    | exact ⟨_, rfl, by decide +kernel +zetaReduce⟩
    | exact some_of (by decide +kernel +zetaReduce)
    | exact peak_of (by decide +kernel +zetaReduce) (by decide +kernel +zetaReduce)
    | exact ok_of (by decide +kernel +zetaReduce)
    | exact error_of (by decide +kernel +zetaReduce)
    | exact pend_of (by decide +kernel +zetaReduce)
    | exact Or.inl ⟨rfl, rfl, rfl, rfl⟩
    | (intros; decide +kernel +zetaReduce)
    | (intro p; exact List.not_mem_nil)
    | exact List.Mem.head _
    | (intros; rfl)

theorem witness_StatusOrder :
   (let i : Nat := 0
    let j : Nat := 0
    let a : Nat := ([stBAD, stABORTED, stDISABLED, stFLUSHED, stTIMEOUT, stREFUSED, stLATE][i]?).getD 0
    let b : Nat := ([stBAD, stABORTED, stDISABLED, stFLUSHED, stTIMEOUT, stREFUSED, stLATE][j]?).getD 0
    [stBAD, stABORTED, stDISABLED, stFLUSHED, stTIMEOUT, stREFUSED, stLATE][i]? = some a ∧ [stBAD, stABORTED, stDISABLED,
      stFLUSHED, stTIMEOUT, stREFUSED, stLATE][j]? = some b ∧ i ≤ j) ∧
   (let a : Nat := stLATE
    let b : Nat := stOK
    a ∈ [stBAD, stABORTED, stDISABLED, stFLUSHED, stTIMEOUT, stREFUSED, stLATE] ∧ (b = stOK ∨ 128 ≤ b ∧ b ≤ 255)) ∧
   (let a : Nat := 128
    let b : Nat := 255
    128 ≤ a ∧ a ≤ b ∧ b ≤ 255) ∧
   (let a : Nat := 128
    128 ≤ a ∧ a ≤ 255) := by
  refine ⟨?_, ?_, ?_, ?_⟩
  all_goals try intros
  all_goals and_intros
  all_goals first
    | decide +kernel +zetaReduce
    | exact hostOpen_of (by decide +kernel +zetaReduce)
    | exact leafReady_of (by decide +kernel +zetaReduce)
    | exact canonical_of (by decide +kernel +zetaReduce)
    | exact rateLegal_of (by decide +kernel +zetaReduce)
    | exact fetchInstr_of (by decide +kernel +zetaReduce)
    | exact onlyMoves_of _ rfl
    | exact Prod.ext rfl (some_of (by decide +kernel +zetaReduce))
    | exact Prod.ext rfl (by decide +kernel +zetaReduce)
    | exact ⟨_, rfl, by decide +kernel +zetaReduce⟩
    | exact some_of (by decide +kernel +zetaReduce)
    | exact peak_of (by decide +kernel +zetaReduce) (by decide +kernel +zetaReduce)
    | exact ok_of (by decide +kernel +zetaReduce)
    | exact error_of (by decide +kernel +zetaReduce)
    | exact pend_of (by decide +kernel +zetaReduce)
    | exact Or.inl ⟨rfl, rfl, rfl, rfl⟩
    | (intros; decide +kernel +zetaReduce)
    | (intro p; exact List.not_mem_nil)
    | exact List.Mem.head _
    | (intros; rfl)

theorem witness_RateStaysLegal :
   (let s : State := booted
    let t : State := nextOf (step s) s
    s.tb.rateLegal ∧ step s = Host.Outcome.next t) := by
  all_goals try intros
  all_goals and_intros
  all_goals first
    | decide +kernel +zetaReduce
    | exact hostOpen_of (by decide +kernel +zetaReduce)
    | exact leafReady_of (by decide +kernel +zetaReduce)
    | exact canonical_of (by decide +kernel +zetaReduce)
    | exact rateLegal_of (by decide +kernel +zetaReduce)
    | exact fetchInstr_of (by decide +kernel +zetaReduce)
    | exact onlyMoves_of _ rfl
    | exact Prod.ext rfl (some_of (by decide +kernel +zetaReduce))
    | exact Prod.ext rfl (by decide +kernel +zetaReduce)
    | exact ⟨_, rfl, by decide +kernel +zetaReduce⟩
    | exact some_of (by decide +kernel +zetaReduce)
    | exact peak_of (by decide +kernel +zetaReduce) (by decide +kernel +zetaReduce)
    | exact ok_of (by decide +kernel +zetaReduce)
    | exact error_of (by decide +kernel +zetaReduce)
    | exact pend_of (by decide +kernel +zetaReduce)
    | exact Or.inl ⟨rfl, rfl, rfl, rfl⟩
    | (intros; decide +kernel +zetaReduce)
    | (intro p; exact List.not_mem_nil)
    | exact List.Mem.head _
    | (intros; rfl)

theorem witness_TickMovesTimeForward :
   (let s : State := { booted with tb.remainU := 0 }
    let t : State := nextOf (exec Instr.tclkTick s) s
    s.tclkRuns = true ∧ s.tb.rateLegal ∧ s.slewPpm ≤ 100 ∧ s.tb.raw.toNat + 1 < 2 ^ 64 ∧
      exec Instr.tclkTick s = Host.Outcome.next t ∧ s.tb.remainU = 0) ∧
   (let s : State := { booted with tb.remainU := 0, tb.pendingRate := none }
    s.tclkRuns = true ∧ s.tb.remainU = 0 ∧ s.tb.pendingRate = none) ∧
   (let s_1 : State := { booted with tb.pendingRate := none }
    let s : State := { s_1 with tb.remainU := 2 ^ 60 }
    s.tclkRuns = true ∧ ((s.slewPpm * 2 ^ 40 : Nat) : Int) < s.tb.remainU ∧ s.tb.pendingRate = none) ∧
   (let s : State := { booted with tb.remainU := 1, tb.pendingRate := none }
    s.tclkRuns = true ∧ s.tb.remainU ≠ 0 ∧ s.tb.remainU.natAbs ≤ s.slewPpm * 2 ^ 40 ∧ s.tb.pendingRate = none) := by
  refine ⟨?_, ?_, ?_, ?_⟩
  all_goals try intros
  all_goals and_intros
  all_goals first
    | decide +kernel +zetaReduce
    | exact hostOpen_of (by decide +kernel +zetaReduce)
    | exact leafReady_of (by decide +kernel +zetaReduce)
    | exact canonical_of (by decide +kernel +zetaReduce)
    | exact rateLegal_of (by decide +kernel +zetaReduce)
    | exact fetchInstr_of (by decide +kernel +zetaReduce)
    | exact onlyMoves_of _ rfl
    | exact Prod.ext rfl (some_of (by decide +kernel +zetaReduce))
    | exact Prod.ext rfl (by decide +kernel +zetaReduce)
    | exact ⟨_, rfl, by decide +kernel +zetaReduce⟩
    | exact some_of (by decide +kernel +zetaReduce)
    | exact peak_of (by decide +kernel +zetaReduce) (by decide +kernel +zetaReduce)
    | exact ok_of (by decide +kernel +zetaReduce)
    | exact error_of (by decide +kernel +zetaReduce)
    | exact pend_of (by decide +kernel +zetaReduce)
    | exact Or.inl ⟨rfl, rfl, rfl, rfl⟩
    | (intros; decide +kernel +zetaReduce)
    | (intro p; exact List.not_mem_nil)
    | exact List.Mem.head _
    | (intros; rfl)

theorem witness_RateAndSteps :
   (let s : State := { booted with tb.stitchSource := false }
    let v : W32 := 0x100#32
    let r : Nat := BitVec.toNat (s.rd Reg.TB_RATE_LO) + bitsOf v 15 0 * 2 ^ 32
    s.hostOpen Reg.TB_RATE_HI ∧ s.tb.stitchSource = false ∧
      r = BitVec.toNat (s.rd Reg.TB_RATE_LO) + bitsOf v 15 0 * 2 ^ 32 ∧ rateMin ≤ r ∧ r ≤ rateMax) ∧
   (let s : State := { booted with tb.stitchSource := false }
    let v : W32 := 0#32
    let r : Nat := BitVec.toNat (s.rd Reg.TB_RATE_LO) + bitsOf v 15 0 * 2 ^ 32
    let b : Nat := rateMin
    s.hostOpen Reg.TB_RATE_HI ∧ s.tb.stitchSource = false ∧
      r = BitVec.toNat (s.rd Reg.TB_RATE_LO) + bitsOf v 15 0 * 2 ^ 32 ∧ (r < rateMin ∧ b = rateMin ∨ rateMax < r ∧
      b = rateMax)) ∧
   (let s : State := { booted with tb.stitchSource := true }
    s.tb.stitchSource = true ∧ s.hostOpen Reg.TB_RATE_HI) ∧
   (let s : State := { booted with tb.stitchSource := true }
    s.tb.stitchSource = true ∧ s.hostOpen Reg.TB_ADJ_HI) ∧
   (let s : State := { booted with tb.stitchSource := true }
    s.tb.stitchSource = true ∧ s.hostOpen Reg.TB_SET_SEC_HI) ∧
   (let s : State := booted
    s.hostOpen Reg.TB_CTRL) ∧
   (let s_1 : State := { booted with tb.stitchSource := false }
    let s : State := s_1.wr Reg.TB_ADJ_LO 65536#32
    let v : W32 := 0#32
    let adj : Int := signedOf 64 (BitVec.toNat (s.rd Reg.TB_ADJ_LO) + BitVec.toNat v * 2 ^ 32)
    let s1 := s.wr Reg.TB_ADJ_HI v
    s.hostOpen Reg.TB_ADJ_HI ∧ s.tb.stitchSource = false ∧
      adj = signedOf 64 (BitVec.toNat (s.rd Reg.TB_ADJ_LO) + BitVec.toNat v * 2 ^ 32) ∧
      (s.tb.remainU + adj * uPer16).natAbs ≤ s1.fld Reg.TB_STEP_LIMIT 9 0 * (2 ^ 40 * 1000000) ∧
      s.tb.remainU + adj * uPer16 ≠ 0) ∧
   (let s_1 : State := { booted with tb.stitchSource := false }
    let s : State := s_1.setBit Reg.TB_CTRL 8 true
    let v : W32 := 1#32
    let adj : Int := signedOf 64 (BitVec.toNat (s.rd Reg.TB_ADJ_LO) + BitVec.toNat v * 2 ^ 32)
    let s1 := s.wr Reg.TB_ADJ_HI v
    s.hostOpen Reg.TB_ADJ_HI ∧ s.tb.stitchSource = false ∧
      adj = signedOf 64 (BitVec.toNat (s.rd Reg.TB_ADJ_LO) + BitVec.toNat v * 2 ^ 32) ∧
      s1.fld Reg.TB_STEP_LIMIT 9 0 * (2 ^ 40 * 1000000) < (s.tb.remainU + adj * uPer16).natAbs ∧
      s1.bit Reg.TB_CTRL 8 = true ∧ s.allStopped = true) ∧
   (let s : State := { booted with tb.stitchSource := false }
    let v : W32 := 1#32
    let adj : Int := signedOf 64 (BitVec.toNat (s.rd Reg.TB_ADJ_LO) + BitVec.toNat v * 2 ^ 32)
    let s1 := s.wr Reg.TB_ADJ_HI v
    s.hostOpen Reg.TB_ADJ_HI ∧ s.tb.stitchSource = false ∧
      adj = signedOf 64 (BitVec.toNat (s.rd Reg.TB_ADJ_LO) + BitVec.toNat v * 2 ^ 32) ∧
      s1.fld Reg.TB_STEP_LIMIT 9 0 * (2 ^ 40 * 1000000) < (s.tb.remainU + adj * uPer16).natAbs ∧
      (s1.bit Reg.TB_CTRL 8 && s.allStopped) = false) ∧
   (let s_1 : State := { booted with tb.stitchSource := false }
    let s_2 : State := s_1.setBit Reg.TB_CTRL 8 true
    let s : State := s_2.setBit Reg.TB_CTRL 8 true
    s.canonical ∧ s.hostOpen Reg.TB_SET_SEC_HI ∧ s.tb.stitchSource = false ∧ s.bit Reg.TB_CTRL 8 = true ∧
      s.allStopped = true) := by
  refine ⟨?_, ?_, ?_, ?_, ?_, ?_, ?_, ?_, ?_, ?_⟩
  all_goals try intros
  all_goals and_intros
  all_goals first
    | decide +kernel +zetaReduce
    | exact hostOpen_of (by decide +kernel +zetaReduce)
    | exact leafReady_of (by decide +kernel +zetaReduce)
    | exact canonical_of (by decide +kernel +zetaReduce)
    | exact rateLegal_of (by decide +kernel +zetaReduce)
    | exact fetchInstr_of (by decide +kernel +zetaReduce)
    | exact onlyMoves_of _ rfl
    | exact Prod.ext rfl (some_of (by decide +kernel +zetaReduce))
    | exact Prod.ext rfl (by decide +kernel +zetaReduce)
    | exact ⟨_, rfl, by decide +kernel +zetaReduce⟩
    | exact some_of (by decide +kernel +zetaReduce)
    | exact peak_of (by decide +kernel +zetaReduce) (by decide +kernel +zetaReduce)
    | exact ok_of (by decide +kernel +zetaReduce)
    | exact error_of (by decide +kernel +zetaReduce)
    | exact pend_of (by decide +kernel +zetaReduce)
    | exact Or.inl ⟨rfl, rfl, rfl, rfl⟩
    | (intros; decide +kernel +zetaReduce)
    | (intro p; exact List.not_mem_nil)
    | exact List.Mem.head _
    | (intros; rfl)

theorem witness_ReferencesAndPulses :
   (let s : State := booted
    let v : W32 := 1#32
    s.hostOpen Reg.TB_REF_CTRL ∧ s.setupLocked = false ∧ bitsOf v 1 0 ≤ 2 ∧ bitsOf v 1 0 ≠ s.tb.refInUse ∧ s.canonical) ∧
   (let s : State := { booted with tb.refPresent := true, tb.refInUse := 1 }
    s.tclkRuns = true ∧ s.tb.refPresent = true ∧ s.tb.refInUse = 1) ∧
   (let s : State := { booted with tb.refPresent := true, tb.refInUse := 2 }
    s.tclkRuns = true ∧ s.tb.refPresent = true ∧ s.tb.refInUse = 2) ∧
   (let s : State := { booted with tb.refInUse := 0 }
    s.tclkRuns = true ∧ s.tb.refInUse = 0) ∧
   (let s : State := { booted with tb.ppsDue := true }
    s.clocked = true ∧ s.tb.ppsDue = true) ∧
   (let s : State := booted
    s.hostOpen Reg.TB_STATUS) := by
  refine ⟨?_, ?_, ?_, ?_, ?_, ?_⟩
  all_goals try intros
  all_goals and_intros
  all_goals first
    | decide +kernel +zetaReduce
    | exact hostOpen_of (by decide +kernel +zetaReduce)
    | exact leafReady_of (by decide +kernel +zetaReduce)
    | exact canonical_of (by decide +kernel +zetaReduce)
    | exact rateLegal_of (by decide +kernel +zetaReduce)
    | exact fetchInstr_of (by decide +kernel +zetaReduce)
    | exact onlyMoves_of _ rfl
    | exact Prod.ext rfl (some_of (by decide +kernel +zetaReduce))
    | exact Prod.ext rfl (by decide +kernel +zetaReduce)
    | exact ⟨_, rfl, by decide +kernel +zetaReduce⟩
    | exact some_of (by decide +kernel +zetaReduce)
    | exact peak_of (by decide +kernel +zetaReduce) (by decide +kernel +zetaReduce)
    | exact ok_of (by decide +kernel +zetaReduce)
    | exact error_of (by decide +kernel +zetaReduce)
    | exact pend_of (by decide +kernel +zetaReduce)
    | exact Or.inl ⟨rfl, rfl, rfl, rfl⟩
    | (intros; decide +kernel +zetaReduce)
    | (intro p; exact List.not_mem_nil)
    | exact List.Mem.head _
    | (intros; rfl)

theorem witness_MouldAndArm :
   (let s : State := booted
    let d : Desc := oneDesc 0 0 false [BitVec.ofNat 32 (1 * 2 ^ 14 + 0 * 2 ^ 11 + 1 * 2 ^ 6 + 5)]
    s.clocked = true ∧ d.carrier < 512 ∧ d.fld 16 15 14 = 1 ∧ d.fld 16 13 11 = 0 ∧ d.fld 16 10 6 = 1 ∧ d.fld 16 5 0 = 5 ∧
      s.carrierRefuses d.carrier = false) ∧
   (let s : State := booted
    let d : Desc := oneDesc 0 0 false [BitVec.ofNat 32 (1 * 2 ^ 14 + 1 * 2 ^ 7)]
    s.clocked = true ∧ d.carrier < 512 ∧ d.fld 16 15 14 = 1 ∧ 1 ≤ d.fld 16 10 7 ∧ d.fld 16 10 7 + d.fld 16 13 11 ≤ 8 ∧
      d.w64 24 &&& 63#64 = 0 ∧ s.carrierRefuses d.carrier = false) ∧
   (let ring : Nat := 0
    let tag : W32 := 0#32
    let data : List W32 := []
    let l : MouldLoad := { ({ ref := ⟨0, 0#32, false, false⟩, carrier := 0, half := 1, page := 0, pages := 1, addr := 0#64 } : MouldLoad) with pages := 1 }
    let s : State := { booted with slt.loads := [l] }
    let s1 : State := { s with slt := { s.slt with loads := s.slt.loads.erase l } }
    s.clocked = true ∧ List.find? (fun l => l.ref.ring == ring && l.ref.tag == tag) s.slt.loads = some l ∧ l.pages = 1 ∧
      (s1.writePage l.carrier l.half l.page 0 (List.map (fun w => data.getD w 0) (List.range 32))).snd = []) ∧
   (let s : State := booted
    let c : Nat := 0
    s.clocked = true ∧ c < 512) ∧
   (let d : Desc := oneDesc 0 0 true [BitVec.ofNat 32 (1)]
    let s_1 : State := { booted with tb.holdover := false }
    let s : State := s_1.setCarrier d.carrier { s_1.carrier d.carrier with mode := CarrierMode.running }
    let x := s.carrier d.carrier
    let e := x.cfg.earliest s.slt.originNs Half.ul s.tb.timeU
    s.clocked = true ∧ d.carrier < 512 ∧ BitVec.getLsbD (d.w 16) 3 = false ∧ BitVec.getLsbD (d.w 16) 2 = false ∧
      d.fld 16 1 0 = 1 ∧ d.immediate = true ∧ s.tb.holdover = false ∧ x.mode = CarrierMode.running ∧
      x.ul.armedElsewhere e = false) ∧
   (let s : State := { booted with tb.holdover := true }
    let d : Desc := oneDesc 0 0 true [BitVec.ofNat 32 (1)]
    s.clocked = true ∧ d.carrier < 512 ∧ BitVec.getLsbD (d.w 16) 3 = false ∧ BitVec.getLsbD (d.w 16) 2 = false ∧
      d.fld 16 1 0 = 1 ∧ d.immediate = true ∧ s.tb.holdover = true) ∧
   (let d : Desc := oneDesc 0 0 true [BitVec.ofNat 32 (1)]
    let s_1 : State := { booted with tb.holdover := false }
    let s : State := s_1.setCarrier d.carrier { s_1.carrier d.carrier with mode := CarrierMode.disabled }
    let x := s.carrier d.carrier
    s.clocked = true ∧ d.carrier < 512 ∧ BitVec.getLsbD (d.w 16) 3 = false ∧ BitVec.getLsbD (d.w 16) 2 = false ∧
      d.fld 16 1 0 = 1 ∧ d.immediate = true ∧ s.tb.holdover = false ∧ x.mode = CarrierMode.disabled) ∧
   (let d : Desc := oneDesc 0 0 true [BitVec.ofNat 32 (1)]
    let s_1 : State := { booted with tb.holdover := false }
    let s : State := s_1.setCarrier d.carrier { s_1.carrier d.carrier with mode := CarrierMode.stopped }
    let x := s.carrier d.carrier
    s.clocked = true ∧ d.carrier < 512 ∧ BitVec.getLsbD (d.w 16) 3 = false ∧ BitVec.getLsbD (d.w 16) 2 = false ∧
      d.fld 16 1 0 = 1 ∧ d.immediate = true ∧ s.tb.holdover = false ∧ x.mode = CarrierMode.stopped) ∧
   (let d : Nat := 0
    d < 8192) ∧
   (let d : Nat := 8192
    let period : Nat := 0
    8192 ≤ d ∧ period / 2 ≤ d) ∧
   (let d : Nat := 8192
    let period : Nat := 100000
    8192 ≤ d ∧ d < period / 2) := by
  refine ⟨?_, ?_, ?_, ?_, ?_, ?_, ?_, ?_, ?_, ?_, ?_⟩
  all_goals try intros
  all_goals and_intros
  all_goals first
    | decide +kernel +zetaReduce
    | exact hostOpen_of (by decide +kernel +zetaReduce)
    | exact leafReady_of (by decide +kernel +zetaReduce)
    | exact canonical_of (by decide +kernel +zetaReduce)
    | exact rateLegal_of (by decide +kernel +zetaReduce)
    | exact fetchInstr_of (by decide +kernel +zetaReduce)
    | exact onlyMoves_of _ rfl
    | exact Prod.ext rfl (some_of (by decide +kernel +zetaReduce))
    | exact Prod.ext rfl (by decide +kernel +zetaReduce)
    | exact ⟨_, rfl, by decide +kernel +zetaReduce⟩
    | exact some_of (by decide +kernel +zetaReduce)
    | exact peak_of (by decide +kernel +zetaReduce) (by decide +kernel +zetaReduce)
    | exact ok_of (by decide +kernel +zetaReduce)
    | exact error_of (by decide +kernel +zetaReduce)
    | exact pend_of (by decide +kernel +zetaReduce)
    | exact Or.inl ⟨rfl, rfl, rfl, rfl⟩
    | (intros; decide +kernel +zetaReduce)
    | (intro p; exact List.not_mem_nil)
    | exact List.Mem.head _
    | (intros; rfl)

theorem witness_CarrierControl :
   (let d : Desc := oneDesc 0 0 false []
    let s : State := booted.setCarrier d.carrier { booted.carrier d.carrier with mode := CarrierMode.stopped }
    let x := s.carrier d.carrier
    s.clocked = true ∧ d.carrier < 512 ∧ x.mode = CarrierMode.stopped ∧ mapWf (fun x => { }) s.slt.carriers = true) ∧
   (let d : Desc := oneDesc 0 0 false []
    let s : State := booted.setCarrier d.carrier { booted.carrier d.carrier with mode := CarrierMode.disabled }
    let x := s.carrier d.carrier
    s.clocked = true ∧ d.carrier < 512 ∧ x.mode = CarrierMode.disabled) ∧
   (let s : State := { booted with slt.carriers := oneCarrier [] [] }
    let d : Desc := oneDesc 0 0 true [BitVec.ofNat 32 (1)]
    let n : Int := (s.abortTarget d d.carrier Half.ul).getD 0
    s.clocked = true ∧ d.carrier < 512 ∧ d.fld 16 1 0 = 1 ∧ d.immediate = true ∧
      (s.carrier d.carrier).refusesWork = false ∧ s.abortTarget d d.carrier Half.ul = some n) ∧
   (let s : State := booted
    let d : Desc := oneDesc 0 0 true [BitVec.ofNat 32 (1)]
    s.clocked = true ∧ d.carrier < 512 ∧ d.fld 16 1 0 = 1 ∧ d.immediate = true ∧
      (s.carrier d.carrier).refusesWork = false ∧ s.abortTarget d d.carrier Half.ul = none) ∧
   (let s : State := booted
    s.hostOpen Reg.SLT_GRID_SEC_HI ∧ s.allStopped = true) ∧
   (let s : State := { booted with slt.carriers := oneCarrier [] [] }
    s.hostOpen Reg.SLT_GRID_SEC_HI ∧ s.allStopped = false) := by
  refine ⟨?_, ?_, ?_, ?_, ?_, ?_⟩
  all_goals try intros
  all_goals and_intros
  all_goals first
    | decide +kernel +zetaReduce
    | exact hostOpen_of (by decide +kernel +zetaReduce)
    | exact leafReady_of (by decide +kernel +zetaReduce)
    | exact canonical_of (by decide +kernel +zetaReduce)
    | exact rateLegal_of (by decide +kernel +zetaReduce)
    | exact fetchInstr_of (by decide +kernel +zetaReduce)
    | exact onlyMoves_of _ rfl
    | exact Prod.ext rfl (some_of (by decide +kernel +zetaReduce))
    | exact Prod.ext rfl (by decide +kernel +zetaReduce)
    | exact ⟨_, rfl, by decide +kernel +zetaReduce⟩
    | exact some_of (by decide +kernel +zetaReduce)
    | exact peak_of (by decide +kernel +zetaReduce) (by decide +kernel +zetaReduce)
    | exact ok_of (by decide +kernel +zetaReduce)
    | exact error_of (by decide +kernel +zetaReduce)
    | exact pend_of (by decide +kernel +zetaReduce)
    | exact Or.inl ⟨rfl, rfl, rfl, rfl⟩
    | (intros; decide +kernel +zetaReduce)
    | (intro p; exact List.not_mem_nil)
    | exact List.Mem.head _
    | (intros; rfl)

theorem witness_BoundariesAndExpiry :
   (let s_1 : State := { booted with slt.carriers := [] }
    let s : State := { s_1 with tb.offsetU := 2 ^ 90 }
    s.clocked = true ∧ s.slt.carriers = [] ∧ (s.slt.originNs + s.slt.nextFrame * frameNs) * uPerNs ≤ s.tb.timeU) ∧
   (let s : State := { booted with slt.carriers := [] }
    s.clocked = true ∧ s.slt.carriers = [] ∧ s.tb.timeU < (s.slt.originNs + s.slt.nextFrame * frameNs) * uPerNs) ∧
   (let c : Nat := 0
    let x : Carrier := { mode := .running, ul := { running := true } }
    let s : State := { booted with slt.carriers := [(c, x)] }
    let n : Int := 0
    s.clocked = true ∧ s.slt.carriers = [(c, x)] ∧ s.tb.timeU < (s.slt.originNs + s.slt.nextFrame * frameNs) * uPerNs ∧
      s.expiryDue c Half.dl = none ∧ s.expiryDue c Half.ul = none ∧ x.dl.awaits = none ∧ x.ul.awaits = some n ∧
      x.cfg.boundaryNs s.slt.originNs Half.ul n * uPerNs ≤ s.tb.timeU) ∧
   (let s : State := { booted with slt.carriers := [(0, { mode := .running, ul := { running := true, armed := some { slot := 0, gen := 1, words := [] } } })] }
    let c : Nat := 0
    let h : Half := .ul
    let n : Int := 0
    let a : ArmedSet := { ((((s.carrier c).half h).armed).getD { slot := 0, gen := 1, words := [] } : ArmedSet) with slot := n, start := false, stop := false }
    ((s.carrier c).half h).disableNext = false ∧ ((s.carrier c).half h).armed = some a ∧
      ((s.carrier c).half h).running = true ∧ a.slot = n ∧ a.start = false ∧ a.stop = false) ∧
   (let s : State := { booted with slt.carriers := [(0, { mode := .running, ul := { running := true } })] }
    let c : Nat := 0
    let h : Half := .ul
    ((s.carrier c).half h).disableNext = false ∧ ((s.carrier c).half h).armed = none ∧ ((s.carrier c).half h).running = true) ∧
   (let s : State := { booted with slt.carriers := oneCarrier [] [], tb.offsetU := 2 ^ 90 }
    let c : Nat := 0
    let h : Half := .ul
    let n : Int := (s.expiryDue c h).getD 0
    let t := s.fhCloseAll c h n
    s.clocked = true ∧ s.expiryDue c h = some n ∧ t.slotOpen c h n = false) ∧
   (let s : State := { booted with slt.carriers := oneCarrier [] [], tb.offsetU := 2 ^ 90, engines := [(0, { jobs := [oneJob 0 []] })] }
    let c : Nat := 0
    let h : Half := .ul
    let n : Int := (s.expiryDue c h).getD 0
    let t := s.fhCloseAll c h n
    s.clocked = true ∧ s.expiryDue c h = some n ∧ t.slotOpen c h n = true) := by
  refine ⟨?_, ?_, ?_, ?_, ?_, ?_, ?_⟩
  all_goals try intros
  all_goals and_intros
  all_goals first
    | decide +kernel +zetaReduce
    | exact hostOpen_of (by decide +kernel +zetaReduce)
    | exact leafReady_of (by decide +kernel +zetaReduce)
    | exact canonical_of (by decide +kernel +zetaReduce)
    | exact rateLegal_of (by decide +kernel +zetaReduce)
    | exact fetchInstr_of (by decide +kernel +zetaReduce)
    | exact onlyMoves_of _ rfl
    | exact Prod.ext rfl (some_of (by decide +kernel +zetaReduce))
    | exact Prod.ext rfl (by decide +kernel +zetaReduce)
    | exact ⟨_, rfl, by decide +kernel +zetaReduce⟩
    | exact some_of (by decide +kernel +zetaReduce)
    | exact peak_of (by decide +kernel +zetaReduce) (by decide +kernel +zetaReduce)
    | exact ok_of (by decide +kernel +zetaReduce)
    | exact error_of (by decide +kernel +zetaReduce)
    | exact pend_of (by decide +kernel +zetaReduce)
    | exact Or.inl ⟨rfl, rfl, rfl, rfl⟩
    | (intros; decide +kernel +zetaReduce)
    | (intro p; exact List.not_mem_nil)
    | exact List.Mem.head _
    | (intros; rfl)

theorem witness_Doorbells :
   (let fn : Nat := 0
    let qid : Nat := 0
    let s_1 : State := booted.setFn fn { booted.fnOf fn with flr := false }
    let s_2 : State := s_1.setQueue qid { s_1.queue qid with kind := 1 }
    let s : State := s_2.setRing qid { s_2.ring qid with enable := true, owner := fn, completion := false }
    let width : Nat := 4
    let v : W64 := 0#64
    let r := s.ring qid
    s.clocked = true ∧ (s.fnOf fn).flr = false ∧ s.fnExists fn = true ∧ qid < 65536 ∧ (width = 4 ∨ width = 8) ∧
      (s.queue qid).kind = 1 ∧ (s.ring qid).enable = true ∧ (s.ring qid).owner = fn ∧ r.completion = false ∧
      bitsOf v 15 0 < r.size) ∧
   (let fn : Nat := 0
    let qid : Nat := 0
    let s_1 : State := booted.setFn fn { booted.fnOf fn with flr := false }
    let s_2 : State := s_1.setQueue qid { s_1.queue qid with kind := 1 }
    let s : State := s_2.setRing qid { s_2.ring qid with enable := true, owner := fn, completion := false }
    let width : Nat := 4
    let v : W64 := 64#64
    let r := s.ring qid
    s.clocked = true ∧ (s.fnOf fn).flr = false ∧ s.fnExists fn = true ∧ qid < 65536 ∧ (width = 4 ∨ width = 8) ∧
      (s.queue qid).kind = 1 ∧ (s.ring qid).enable = true ∧ (s.ring qid).owner = fn ∧ r.completion = false ∧
      r.size ≤ bitsOf v 15 0) ∧
   (let fn : Nat := 0
    let qid : Nat := 0
    let s_1 : State := booted.setFn fn { booted.fnOf fn with flr := false }
    let s_2 : State := s_1.setQueue qid { s_1.queue qid with kind := 1 }
    let s : State := s_2.setRing qid { s_2.ring qid with enable := true, owner := fn, completion := true }
    let width : Nat := 4
    let v : W64 := 1#64
    let r := s.ring qid
    s.clocked = true ∧ (s.fnOf fn).flr = false ∧ s.fnExists fn = true ∧ qid < 65536 ∧ (width = 4 ∨ width = 8) ∧
      (s.queue qid).kind = 1 ∧ (s.ring qid).enable = true ∧ (s.ring qid).owner = fn ∧ r.completion = true ∧
      r.devIdx < r.size ∧ r.hostIdx < r.size ∧ bitsOf v 15 0 < r.size ∧
      (r.devIdx + r.size - r.hostIdx) % r.size < (bitsOf v 15 0 + r.size - r.hostIdx) % r.size) ∧
   (let fn : Nat := 0
    let s : State := booted.setFn fn { booted.fnOf fn with flr := false }
    let offset : Nat := 0
    let width : Nat := 0
    s.clocked = true ∧ (s.fnOf fn).flr = false ∧ s.fnExists fn = true ∧ offset < 524288 ∧ (width ≠ 4 ∧ width ≠ 8 ∨
      offset % 8 ≠ 0 ∨ (s.queue (offset / 8)).kind ≠ 1 ∨ (s.ring (offset / 8)).enable = false ∨
      (s.ring (offset / 8)).owner ≠ fn)) ∧
   (let s : State := booted
    let fn : Nat := 0
    let o : Nat := 0
    s.vfAnswers fn = true ∧ o < 524288) ∧
   (let s : State := { booted with glb.coreReady := true }
    let a : Nat := 0
    a < 67108864 ∧ a % 4 = 0 ∧ inMsixTable 0 a = false ∧ inMsixPba 0 a = false ∧ latchCount a = 0 ∧
      s.bar0Answers a = true ∧ (s.glb.coreReady = true ∨ blockOf a = some Block.glb) ∧ s.regIsolated a = false ∧
      s.settleRead a = s) ∧
   (let s : State := { booted with hp.vfEnable := true, hp.numVfs := 1 }
    let fn : Nat := 1
    let v : Nat := 0
    let k : Nat := 0
    s.vfAnswers fn = true ∧ 1 ≤ fn ∧ v < 32 ∧ k < 4) ∧
   (let s : State := { booted with hp.vfEnable := true, hp.numVfs := 1 }
    let fn : Nat := 1
    let a : Nat := 512
    s.vfAnswers fn = true ∧ 1 ≤ fn ∧ 512 ≤ a ∧ a < 16384 ∧ (a < 8192 ∨ 8200 ≤ a)) ∧
   (let s : State := booted
    let fn : Nat := 0
    let p : CfgField × List (BitVec 32) := (.revisionId, [0xB0#32])
    s.vfAnswers fn = true ∧ p ∈ [(CfgField.deviceId, [if fn = 0 then 38422#32 else 38423#32]), (CfgField.revisionId,
      [176#32]), (CfgField.classCode, [737280#32]), (CfgField.bar 0, if fn = 0 then [4227858436#32,
      4294967295#32] else [4294950916#32, 4294967295#32]), (CfgField.bar 2, [4294443012#32, 4294967295#32]),
      (CfgField.bar 4, if fn = 0 then [12#32, 4294967295#32] else [0#32, 0#32]), (CfgField.msixTableSize, [31#32])]) ∧
   (let s : State := booted
    let p : CfgField × List (BitVec 32) := (.vfStride, [1#32])
    s.vfAnswers 0 = true ∧ p ∈ [(CfgField.totalVfs, [63#32]), (CfgField.firstVfOffset, [1#32]), (CfgField.vfStride,
      [1#32]), (CfgField.numVfs, [BitVec.ofNat 32 s.hp.numVfs])]) := by
  refine ⟨?_, ?_, ?_, ?_, ?_, ?_, ?_, ?_, ?_, ?_⟩
  all_goals try intros
  all_goals and_intros
  all_goals first
    | decide +kernel +zetaReduce
    | exact hostOpen_of (by decide +kernel +zetaReduce)
    | exact leafReady_of (by decide +kernel +zetaReduce)
    | exact canonical_of (by decide +kernel +zetaReduce)
    | exact rateLegal_of (by decide +kernel +zetaReduce)
    | exact fetchInstr_of (by decide +kernel +zetaReduce)
    | exact onlyMoves_of _ rfl
    | exact Prod.ext rfl (some_of (by decide +kernel +zetaReduce))
    | exact Prod.ext rfl (by decide +kernel +zetaReduce)
    | exact ⟨_, rfl, by decide +kernel +zetaReduce⟩
    | exact some_of (by decide +kernel +zetaReduce)
    | exact peak_of (by decide +kernel +zetaReduce) (by decide +kernel +zetaReduce)
    | exact ok_of (by decide +kernel +zetaReduce)
    | exact error_of (by decide +kernel +zetaReduce)
    | exact pend_of (by decide +kernel +zetaReduce)
    | exact Or.inl ⟨rfl, rfl, rfl, rfl⟩
    | (intros; decide +kernel +zetaReduce)
    | (intro p; exact List.not_mem_nil)
    | exact List.Mem.head _
    | (intros; rfl)

theorem witness_FetchAndDelivery :
   (let s_1 : State := booted.setFn 0 { busMaster := true }
    let s_2 : State := s_1.setQueue 1 { kind := 1 }
    let s_3 : State := s_2.setQueue 2 { kind := 1 }
    let s_4 : State := s_3.setRing 2 { enable := true, completion := true }
    let s : State := s_4.setRing 1 { enable := true, hostIdx := 1, cq := 2 }
    let q : Nat := (nextInRound s.hp.rrLast (List.map Prod.fst (List.filter (fun p => s.fetchable p.snd) s.hp.rings))).getD 0
    let n : Nat := s.batchLength (s.ring q)
    s.clocked = true ∧
      nextInRound s.hp.rrLast (List.map Prod.fst (List.filter (fun p => s.fetchable p.snd) s.hp.rings)) = some q ∧
      n = s.batchLength (s.ring q) ∧ s.hp.inFlight.length < maxBatches ∧ s.undelivered + n ≤ maxUndelivered) ∧
   (let q : Nat := 0
    let s_1 : State := booted.setRing q { booted.ring q with enable := true }
    let s : State := { s_1 with hp.inFlight := [⟨0, 0, 1⟩] }
    let b : Batch := ((takeBatch q s.hp.inFlight).getD ({ ring := 0, slot := 0, count := 1 }, [])).1
    let rest : List Batch := ((takeBatch q s.hp.inFlight).getD ({ ring := 0, slot := 0, count := 1 }, [])).2
    let r := s.ring q
    s.clocked = true ∧ takeBatch q s.hp.inFlight = some (b, rest) ∧ r.enable = true) ∧
   (let s : State := booted
    s.clocked = true ∧
      nextInRound s.hp.rrLast (List.map Prod.fst (List.filter (fun p => s.fetchable p.snd) s.hp.rings)) = none) ∧
   (let ring : Nat := 0
    let block : Nat := 1
    let f : Fetched := { seq := 0, desc := { ring := 0, type := 0x101, tag := 0#32, flags := 0, immediate := true, carrier := 0, slot := 0#32, body := [] } }
    let s_1 : State := { booted with hp.fetched := [f] }
    let s : State := { s_1 with hp.fetched := [f] }
    let p : Nat × (Desc → Instr) := (0x101, Instr.queueWrite)
    s.clocked = true ∧ List.find? (fun f => f.desc.ring == ring && blockOfDesc f.desc == block) s.hp.fetched = some f ∧
      s.fenceHolds f = false ∧ s.jobHeld f.desc = false ∧ p ∈ [(257, Instr.queueWrite), (512, Instr.taskDefine), (513,
      Instr.taskArm), (514, Instr.eventSet), (515, Instr.taskCancel), (516, Instr.sigDefine), (768, Instr.mouldWrite),
      (769, Instr.mouldLoad), (770, Instr.arm), (771, Instr.slotAbort), (1024, Instr.dmaRun), (1026, Instr.dmaAbort),
      (1281, Instr.spaAbort), (1537, Instr.codAbort), (1793, Instr.spcAbort), (1795, Instr.spcTxq), (2049, Instr.fhRxbuf),
      (2304, Instr.stfBind), (2561, Instr.capHostbuf), (2562, Instr.capPressStart), (2563, Instr.capPressStop), (2816,
      Instr.memFill)] ∧ f.desc.type = p.fst) ∧
   (let ring : Nat := 0
    let block : Nat := 5
    let f : Fetched := { seq := 0, desc := { ring := 0, type := 0x500, tag := 0#32, flags := 0, immediate := true, carrier := 0, slot := 0#32, body := [] } }
    let s_1 : State := { booted with hp.fetched := [f] }
    let s : State := { s_1 with hp.fetched := [f] }
    let p : Nat × Nat × (Desc → Instr) := (0x500, 0, Instr.spaJob)
    s.clocked = true ∧ List.find? (fun f => f.desc.ring == ring && blockOfDesc f.desc == block) s.hp.fetched = some f ∧
      s.fenceHolds f = false ∧ s.jobHeld f.desc = false ∧ p ∈ [(1280, 0, Instr.spaJob), (1536, 1, Instr.codJob), (1792, 2,
      Instr.spcJob)] ∧ f.desc.type = p.fst) ∧
   (let ring : Nat := 0
    let block : Nat := 0
    let f : Fetched := { seq := 0, desc := { ring := 0, type := 0xEE00, tag := 0#32, flags := 0, immediate := true, carrier := 0, slot := 0#32, body := [] } }
    let s_1 : State := { booted with hp.fetched := [f] }
    let s : State := { s_1 with hp.fetched := [f] }
    s.clocked = true ∧ List.find? (fun f => f.desc.ring == ring && blockOfDesc f.desc == block) s.hp.fetched = some f ∧
      s.fenceHolds f = false ∧ s.jobHeld f.desc = false ∧ ¬knownTypes.contains f.desc.type = true) ∧
   (let ring : Nat := 0
    let block : Nat := 0
    let f : Fetched := { seq := 0, desc := { ring := 0, type := 0, tag := 0#32, flags := 0, immediate := true, carrier := 0, slot := 0#32, body := [] } }
    let s_1 : State := { booted with hp.fetched := [f] }
    let s : State := { s_1 with hp.fetched := [f] }
    s.clocked = true ∧ List.find? (fun f => f.desc.ring == ring && blockOfDesc f.desc == block) s.hp.fetched = some f ∧
      s.fenceHolds f = false ∧ s.jobHeld f.desc = false ∧ f.desc.type = 0) ∧
   (let s : State := booted
    let d : Desc := oneDesc 0 0 false []
    s.clocked = true ∧ d.type = 0) ∧
   (let s : State := booted
    let d : Desc := { ring := 0, type := 1, tag := 0#32, flags := 0, immediate := false, carrier := 0, slot := 0#32, body := [] }
    s.clocked = true ∧ d.type ≠ 0) := by
  refine ⟨?_, ?_, ?_, ?_, ?_, ?_, ?_, ?_, ?_⟩
  all_goals try intros
  all_goals and_intros
  all_goals first
    | decide +kernel +zetaReduce
    | exact hostOpen_of (by decide +kernel +zetaReduce)
    | exact leafReady_of (by decide +kernel +zetaReduce)
    | exact canonical_of (by decide +kernel +zetaReduce)
    | exact rateLegal_of (by decide +kernel +zetaReduce)
    | exact fetchInstr_of (by decide +kernel +zetaReduce)
    | exact onlyMoves_of _ rfl
    | exact Prod.ext rfl (some_of (by decide +kernel +zetaReduce))
    | exact Prod.ext rfl (by decide +kernel +zetaReduce)
    | exact ⟨_, rfl, by decide +kernel +zetaReduce⟩
    | exact some_of (by decide +kernel +zetaReduce)
    | exact peak_of (by decide +kernel +zetaReduce) (by decide +kernel +zetaReduce)
    | exact ok_of (by decide +kernel +zetaReduce)
    | exact error_of (by decide +kernel +zetaReduce)
    | exact pend_of (by decide +kernel +zetaReduce)
    | exact Or.inl ⟨rfl, rfl, rfl, rfl⟩
    | (intros; decide +kernel +zetaReduce)
    | (intro p; exact List.not_mem_nil)
    | exact List.Mem.head _
    | (intros; rfl)

theorem witness_RingContextWindow :
   (let s : State := { booted with hp.busy := false }
    s.hostOpen Reg.HP_RCTX_SEL ∧ s.hp.busy = false) ∧
   (let s_1 : State := { booted with hp.busy := false }
    let s_2 : State := s_1.setQueue (s_1.fld Reg.HP_RCTX_SEL 15 0) { s_1.queue (s_1.fld Reg.HP_RCTX_SEL 15 0) with kind := 1 }
    let s : State := s_2.setRing (s_2.fld Reg.HP_RCTX_SEL 15 0) { s_2.ring (s_2.fld Reg.HP_RCTX_SEL 15 0) with enable := false }
    let v : W32 := BitVec.ofNat _ (1)
    let q := s.fld Reg.HP_RCTX_SEL 15 0
    let new := s.stagedRing (s.ring q)
    s.hostOpen Reg.HP_RCTX_CMD ∧ s.hp.busy = false ∧ bitOf v 0 = true ∧ (s.queue q).kind = 1 ∧ (s.ring q).enable = false ∧
      new.enable = false) ∧
   (let s_1 : State := { booted with hp.busy := false }
    let s_2 : State := s_1.setQueue (s_1.fld Reg.HP_RCTX_SEL 15 0) { s_1.queue (s_1.fld Reg.HP_RCTX_SEL 15 0) with kind := 1 }
    let s_3 : State := s_2.setRing (s_2.fld Reg.HP_RCTX_SEL 15 0) { s_2.ring (s_2.fld Reg.HP_RCTX_SEL 15 0) with enable := false, openCount := 0 }
    let s : State := s_3.wr Reg.HP_RCTX_CFG0 0xC0000000#32
    let v : W32 := BitVec.ofNat _ (1)
    let q := s.fld Reg.HP_RCTX_SEL 15 0
    let new := s.stagedRing (s.ring q)
    s.hostOpen Reg.HP_RCTX_CMD ∧ s.hp.busy = false ∧ bitOf v 0 = true ∧ (s.queue q).kind = 1 ∧ (s.ring q).enable = false ∧
      new.enable = true ∧ s.ringEnableOk new = true ∧ (s.ring q).openCount = 0) ∧
   (let s_1 : State := { booted with hp.busy := false }
    let s_2 : State := s_1.setQueue (s_1.fld Reg.HP_RCTX_SEL 15 0) { s_1.queue (s_1.fld Reg.HP_RCTX_SEL 15 0) with kind := 1 }
    let s_3 : State := s_2.setRing (s_2.fld Reg.HP_RCTX_SEL 15 0) { s_2.ring (s_2.fld Reg.HP_RCTX_SEL 15 0) with enable := false, openCount := 1 }
    let s : State := s_3.wr Reg.HP_RCTX_CFG0 0xC0000000#32
    let v : W32 := BitVec.ofNat _ (1)
    let q := s.fld Reg.HP_RCTX_SEL 15 0
    let new := s.stagedRing (s.ring q)
    s.hostOpen Reg.HP_RCTX_CMD ∧ s.hp.busy = false ∧ bitOf v 0 = true ∧ (s.queue q).kind = 1 ∧ (s.ring q).enable = false ∧
      new.enable = true ∧ s.ringEnableOk new = true ∧ (s.ring q).openCount ≠ 0) ∧
   (let s_1 : State := { booted with hp.busy := false }
    let s_2 : State := s_1.setQueue (s_1.fld Reg.HP_RCTX_SEL 15 0) { s_1.queue (s_1.fld Reg.HP_RCTX_SEL 15 0) with kind := 1 }
    let s_3 : State := s_2.setRing (s_2.fld Reg.HP_RCTX_SEL 15 0) { s_2.ring (s_2.fld Reg.HP_RCTX_SEL 15 0) with enable := false }
    let s : State := s_3.wr Reg.HP_RCTX_CFG0 0x80000000#32
    let v : W32 := BitVec.ofNat _ (1)
    let q := s.fld Reg.HP_RCTX_SEL 15 0
    let new := s.stagedRing (s.ring q)
    s.hostOpen Reg.HP_RCTX_CMD ∧ s.hp.busy = false ∧ bitOf v 0 = true ∧ (s.queue q).kind = 1 ∧ (s.ring q).enable = false ∧
      new.enable = true ∧ s.ringEnableOk new = false) ∧
   (let s_1 : State := { booted with hp.busy := false }
    let s_2 : State := s_1.setQueue (s_1.fld Reg.HP_RCTX_SEL 15 0) { s_1.queue (s_1.fld Reg.HP_RCTX_SEL 15 0) with kind := 1 }
    let s_3 : State := s_2.setRing (s_2.fld Reg.HP_RCTX_SEL 15 0) { s_2.ring (s_2.fld Reg.HP_RCTX_SEL 15 0) with enable := true, completion := true }
    let s : State := s_3.setRing 1 { enable := true, cq := 0 }
    let v : W32 := BitVec.ofNat _ (1)
    let q := s.fld Reg.HP_RCTX_SEL 15 0
    let new := s.stagedRing (s.ring q)
    s.hostOpen Reg.HP_RCTX_CMD ∧ s.hp.busy = false ∧ bitOf v 0 = true ∧ (s.queue q).kind = 1 ∧ (s.ring q).enable = true ∧
      new.enable = false ∧ (s.ring q).completion = true ∧ s.cqInUse q = true) ∧
   (let s : State := { booted with hp.busy := true }
    s.clocked = true ∧ s.hp.busy = true) ∧
   (let s : State := { booted with hp.busy := true }
    s.hp.busy = true ∧ s.hostOpen Reg.HP_RCTX_SEL) ∧
   (let s : State := { booted with hp.busy := true }
    s.hp.busy = true ∧ s.hostOpen Reg.HP_RCTX_CMD) := by
  refine ⟨?_, ?_, ?_, ?_, ?_, ?_, ?_, ?_, ?_⟩
  all_goals try intros
  all_goals and_intros
  all_goals first
    | decide +kernel +zetaReduce
    | exact hostOpen_of (by decide +kernel +zetaReduce)
    | exact leafReady_of (by decide +kernel +zetaReduce)
    | exact canonical_of (by decide +kernel +zetaReduce)
    | exact rateLegal_of (by decide +kernel +zetaReduce)
    | exact fetchInstr_of (by decide +kernel +zetaReduce)
    | exact onlyMoves_of _ rfl
    | exact Prod.ext rfl (some_of (by decide +kernel +zetaReduce))
    | exact Prod.ext rfl (by decide +kernel +zetaReduce)
    | exact ⟨_, rfl, by decide +kernel +zetaReduce⟩
    | exact some_of (by decide +kernel +zetaReduce)
    | exact peak_of (by decide +kernel +zetaReduce) (by decide +kernel +zetaReduce)
    | exact ok_of (by decide +kernel +zetaReduce)
    | exact error_of (by decide +kernel +zetaReduce)
    | exact pend_of (by decide +kernel +zetaReduce)
    | exact Or.inl ⟨rfl, rfl, rfl, rfl⟩
    | (intros; decide +kernel +zetaReduce)
    | (intro p; exact List.not_mem_nil)
    | exact List.Mem.head _
    | (intros; rfl)

theorem witness_CompletionsAndInterrupts :
   (let cq : Nat := 0
    let fn : Nat := 0
    let s_1 : State := booted.setFn fn { booted.fnOf fn with flr := false, busMaster := true }
    let s : State := s_1.setRing cq { s_1.ring cq with irqEn := false, disableAtZero := false, enablePending := false }
    (s.fnOf fn).flr = false ∧ (s.fnOf fn).busMaster = true ∧ (s.ring cq).irqEn = false ∧
      (s.ring cq).disableAtZero = false ∧ (s.ring cq).enablePending = false) ∧
   (let q : Nat := 0
    let s : State := booted.setRing q { booted.ring q with completion := true, irqEn := true, modTime := 1, unsignalled := 1 }
    s.clocked = true ∧ (s.ring q).completion = true ∧ (s.ring q).irqEn = true ∧ (s.ring q).modTime ≠ 0 ∧
      (s.ring q).unsignalled ≠ 0) ∧
   (let s : State := { booted with hp.vfEnable := true, hp.numVfs := 1 }
    let v : Nat := 32
    32 ≤ v ∧ s.vfAnswers (v / 32) = true) ∧
   (let v : Nat := 0
    let s_1 : State := { booted with glb.frozen := false }
    let s_2 : State := s_1.setFn (v / 32) { s_1.fnOf (v / 32) with msixEnable := true }
    let s_3 : State := s_2.setMsix v { s_2.msixOf v with masked := false }
    let s : State := { s_3 with hp.pba := [0] }
    s.hp.pba.contains v = true ∧ (s.fnOf (v / 32)).msixEnable = true ∧ (s.msixOf v).masked = false ∧ s.glb.frozen = false) ∧
   (let f : Nat := 0
    let s : State := booted.setFn f { booted.fnOf f with flr := false }
    s.clocked = true ∧ s.fnExists f = true ∧ (s.fnOf f).flr = false) ∧
   (let s : State := booted.setFn 0 { booted.fnOf 0 with flr := false }
    s.clocked = true ∧ (s.fnOf 0).flr = false) := by
  refine ⟨?_, ?_, ?_, ?_, ?_, ?_⟩
  all_goals try intros
  all_goals and_intros
  all_goals first
    | decide +kernel +zetaReduce
    | exact hostOpen_of (by decide +kernel +zetaReduce)
    | exact leafReady_of (by decide +kernel +zetaReduce)
    | exact canonical_of (by decide +kernel +zetaReduce)
    | exact rateLegal_of (by decide +kernel +zetaReduce)
    | exact fetchInstr_of (by decide +kernel +zetaReduce)
    | exact onlyMoves_of _ rfl
    | exact Prod.ext rfl (some_of (by decide +kernel +zetaReduce))
    | exact Prod.ext rfl (by decide +kernel +zetaReduce)
    | exact ⟨_, rfl, by decide +kernel +zetaReduce⟩
    | exact some_of (by decide +kernel +zetaReduce)
    | exact peak_of (by decide +kernel +zetaReduce) (by decide +kernel +zetaReduce)
    | exact ok_of (by decide +kernel +zetaReduce)
    | exact error_of (by decide +kernel +zetaReduce)
    | exact pend_of (by decide +kernel +zetaReduce)
    | exact Or.inl ⟨rfl, rfl, rfl, rfl⟩
    | (intros; decide +kernel +zetaReduce)
    | (intro p; exact List.not_mem_nil)
    | exact List.Mem.head _
    | (intros; rfl)

theorem witness_FunctionResetAndLink :
   (let f : Nat := 1
    let s_1 : State := booted.setFn f { booted.fnOf f with flr := false }
    let s : State := { s_1 with hp.vfEnable := true, hp.numVfs := 1 }
    s.clocked = true ∧ s.fnExists f = true ∧ (s.fnOf f).flr = false ∧ f ≠ 0) ∧
   (let f : Nat := 0
    let s_1 : State := { booted with hp.rings := [] }
    let s : State := s_1.setFn f { s_1.fnOf f with waiting := [] }
    f < 64 ∧ s.hp.rings = [] ∧ (s.fnOf f).waiting = []) ∧
   (let s_1 : State := { booted with hp.vfEnable := true }
    let s : State := s_1.setFn 0 { s_1.fnOf 0 with flr := false }
    s.clocked = true ∧ (s.fnOf 0).flr = false ∧ s.hp.vfEnable = true) ∧
   (let f : Nat := 0
    let s_1 : State := { booted with dma.chans := [] }
    let s : State := s_1.setFn f { s_1.fnOf f with flr := true }
    s.clocked = true ∧ (s.fnOf f).flr = true ∧ s.dma.chans = []) ∧
   (let f : Nat := 0
    let s : State := booted.setFn f { booted.fnOf f with flr := true }
    s.clocked = true ∧ (s.fnOf f).flr = true ∧ s.fnIdle f = true) ∧
   (let f : Nat := 0
    let s_1 : State := booted.setFn f { booted.fnOf f with flr := true }
    let s : State := s_1.setRing 0 { openCount := 1 }
    s.clocked = true ∧ (s.fnOf f).flr = true ∧ s.fnIdle f = false) ∧
   (let s : State := { booted with hp.dlUp := true }
    s.clocked = true ∧ s.hp.dlUp = true) ∧
   (let s : State := { booted with hp.rings := [] }
    s.clocked = true ∧ s.hp.rings = []) ∧
   (let s : State := booted
    let speed : Nat := 0
    let width : Nat := 0
    s.clocked = true ∧ speed < 16 ∧ width < 32) ∧
   (let w : HostWrite := { fn := 1, kind := 0, qid := 0, tag := 0#32, addr := 0#64, data := [], vector := 0 }
    let s : State := booted.setFn w.fn { booted.fnOf w.fn with flr := true }
    (s.fnOf w.fn).flr = true) := by
  refine ⟨?_, ?_, ?_, ?_, ?_, ?_, ?_, ?_, ?_, ?_⟩
  all_goals try intros
  all_goals and_intros
  all_goals first
    | decide +kernel +zetaReduce
    | exact hostOpen_of (by decide +kernel +zetaReduce)
    | exact leafReady_of (by decide +kernel +zetaReduce)
    | exact canonical_of (by decide +kernel +zetaReduce)
    | exact rateLegal_of (by decide +kernel +zetaReduce)
    | exact fetchInstr_of (by decide +kernel +zetaReduce)
    | exact onlyMoves_of _ rfl
    | exact Prod.ext rfl (some_of (by decide +kernel +zetaReduce))
    | exact Prod.ext rfl (by decide +kernel +zetaReduce)
    | exact ⟨_, rfl, by decide +kernel +zetaReduce⟩
    | exact some_of (by decide +kernel +zetaReduce)
    | exact peak_of (by decide +kernel +zetaReduce) (by decide +kernel +zetaReduce)
    | exact ok_of (by decide +kernel +zetaReduce)
    | exact error_of (by decide +kernel +zetaReduce)
    | exact pend_of (by decide +kernel +zetaReduce)
    | exact Or.inl ⟨rfl, rfl, rfl, rfl⟩
    | (intros; decide +kernel +zetaReduce)
    | (intro p; exact List.not_mem_nil)
    | exact List.Mem.head _
    | (intros; rfl)

theorem witness_ItemLifecycle :
   (let qid : Nat := 0
    let s : State := booted.setQueue qid { booted.queue qid with kind := 3, enable := true }
    let p : Producer := .host 0 0#32
    let q := s.queue qid
    s.clocked = true ∧ (s.queue qid).storable = true ∧ (s.queue qid).enable = true ∧
      (s.qm.ports.any fun x => x.qid == qid && x.prod == p) = false ∧ (q.openOf p).isSome = false ∧ q.opens.length < maxOpen) ∧
   (let qid : Nat := 0
    let s_1 : State := booted.setQueue qid { booted.queue qid with kind := 3, enable := true }
    let s : State := s_1.setQueue 0 { s_1.queue 0 with opens := [{ prod := .host 0 0#32, item := { prio := 0, tag := 0, words := [] } }] }
    let p : Producer := .host 0 0#32
    let q := s.queue qid
    s.clocked = true ∧ (s.queue qid).storable = true ∧ (s.queue qid).enable = true ∧
      (s.qm.ports.any fun x => x.qid == qid && x.prod == p) = false ∧ (q.openOf p).isSome = true ∧
      (q.closeItem p).opens.length < maxOpen) ∧
   (let qid : Nat := 0
    let p : Producer := .host 0 0#32
    let o : OpenItem := { prod := .host 0 0#32, item := { prio := 0, tag := 0, words := [] } }
    let s : State := booted.setQueue qid { booted.queue qid with opens := [o] }
    let q := s.queue qid
    s.clocked = true ∧ (s.queue qid).dropMark p = none ∧ (s.queue qid).openOf p = some o ∧
      (s.qm.ports.any fun x => x.qid == qid && x.prod == p) = false ∧ o.item.words.length < q.itemMax ∧
      (q.kind = 2 → s.glb.memReady = true) ∧ q.hasRoom o.item.prio = true) ∧
   (let qid : Nat := 0
    let p : Producer := .host 0 0#32
    let o : OpenItem := { ({ prod := .host 0 0#32, item := { prio := 0, tag := 0, words := [0] } } : OpenItem) with prod := p }
    let s : State := booted.setQueue qid { booted.queue qid with opens := [o] }
    let q := s.queue qid
    s.clocked = true ∧ (s.queue qid).dropMark p = none ∧ (s.queue qid).openOf p = some o ∧
      (s.qm.ports.any fun x => x.qid == qid && x.prod == p) = false ∧ q.itemMax ≤ o.item.words.length) ∧
   (let qid : Nat := 0
    let p : Producer := .host 0 0#32
    let o : OpenItem := { prod := .host 0 0#32, item := { prio := 0, tag := 0, words := [] } }
    let s_1 : State := { booted with glb.memReady := false }
    let s : State := s_1.setQueue qid { s_1.queue qid with opens := [o], kind := 2 }
    let q := s.queue qid
    s.clocked = true ∧ (s.queue qid).dropMark p = none ∧ (s.queue qid).openOf p = some o ∧
      (s.qm.ports.any fun x => x.qid == qid && x.prod == p) = false ∧ o.item.words.length < q.itemMax ∧ q.kind = 2 ∧
      s.glb.memReady = false) ∧
   (let qid : Nat := 0
    let p : Producer := .host 0 0#32
    let o : OpenItem := { prod := .host 0 0#32, item := { prio := 0, tag := 0, words := [] } }
    let s_1 : State := booted.setQueue qid { booted.queue qid with opens := [o] }
    let s : State := s_1.setQueue 0 { s_1.queue 0 with log2Words := 0, visible := [{ prio := 0, tag := 0, words := [0] }] }
    let q := s.queue qid
    s.clocked = true ∧ (s.queue qid).dropMark p = none ∧ (s.queue qid).openOf p = some o ∧
      (s.qm.ports.any fun x => x.qid == qid && x.prod == p) = false ∧ o.item.words.length < q.itemMax ∧ q.kind ≠ 2 ∧
      q.hasRoom o.item.prio = false ∧ q.dropsFor p = true) ∧
   (let qid : Nat := 0
    let p : Producer := .leaf 0
    let o : OpenItem := { prod := .leaf 0, item := { prio := 0, tag := 0, words := [] } }
    let s_1 : State := booted.setQueue qid { booted.queue qid with opens := [o] }
    let s : State := s_1.setQueue 0 { s_1.queue 0 with stall := true, log2Words := 0, visible := [{ prio := 0, tag := 0, words := [0] }] }
    let q := s.queue qid
    s.clocked = true ∧ (s.queue qid).dropMark p = none ∧ (s.queue qid).openOf p = some o ∧
      (s.qm.ports.any fun x => x.qid == qid && x.prod == p) = false ∧ o.item.words.length < q.itemMax ∧ q.kind ≠ 2 ∧
      q.hasRoom o.item.prio = false ∧ q.dropsFor p = false ∧ q.stuck = false) ∧
   (let qid : Nat := 0
    let p : Producer := .host 0 0#32
    let s : State := { booted with qm.ports := [{ qid := 0, prod := p, op := .word 0 }] }
    s.clocked = true ∧ (s.qm.ports.any fun x => x.qid == qid && x.prod == p) = true) ∧
   (let qid : Nat := 0
    let p : Producer := .host 0 0#32
    let o : OpenItem := { prod := .host 0 0#32, item := { prio := 0, tag := 0, words := [0] } }
    let s_1 : State := booted.setQueue qid { booted.queue qid with kind := 3, opens := [o] }
    let s : State := s_1.setQueue 0 { s_1.queue 0 with opens := [{ prod := .host 0 0#32, item := { prio := 0, tag := 0, words := [0] } }] }
    s.clocked = true ∧ (s.queue qid).storable = true ∧ (s.queue qid).dropMark p = none ∧ (s.queue qid).openOf p = some o ∧
      o.item.words ≠ [] ∧ (s.qm.ports.any fun x => x.qid == qid && x.prod == p) = false) ∧
   (let qid : Nat := 0
    let s_1 : State := booted.setQueue qid { booted.queue qid with commitEn := true }
    let s : State := s_1.setQueue 0 { s_1.queue 0 with opens := [{ prod := .host 0 0#32, item := { prio := 0, tag := 0, words := [0] }, phase := .committed }] }
    let p : Producer := .host 0 0#32
    let o : OpenItem := { prod := .host 0 0#32, item := { prio := 0, tag := 0, words := [0] }, phase := .committed }
    let q := s.queue qid
    s.clocked = true ∧ (s.queue qid).sentOf p = some o ∧ q.commitEn = true) ∧
   (let qid : Nat := 0
    let s_1 : State := booted.setQueue qid { booted.queue qid with commitEn := false }
    let s : State := s_1.setQueue 0 { s_1.queue 0 with opens := [{ prod := .host 0 0#32, item := { prio := 0, tag := 0, words := [0] }, phase := .committed }] }
    let p : Producer := .host 0 0#32
    let o : OpenItem := { prod := .host 0 0#32, item := { prio := 0, tag := 0, words := [0] }, phase := .committed }
    let q := s.queue qid
    s.clocked = true ∧ (s.queue qid).sentOf p = some o ∧ q.commitEn = false) ∧
   (let qid : Nat := 0
    let s_1 : State := booted.setQueue qid { booted.queue qid with kind := 2 }
    let s : State := s_1.setQueue 0 { s_1.queue 0 with kind := 2, opens := [{ prod := .host 0 0#32, item := { prio := 0, tag := 0, words := [0] }, phase := .committed }] }
    let p : Producer := .host 0 0#32
    let o : OpenItem := { prod := .host 0 0#32, item := { prio := 0, tag := 0, words := [0] }, phase := .committed }
    let q := s.queue qid
    s.clocked = true ∧ (s.queue qid).sentOf p = some o ∧ q.kind = 2) ∧
   (let qid : Nat := 0
    let p : Producer := .host 0 0#32
    let o : OpenItem := { ({ prod := .host 0 0#32, item := { prio := 0, tag := 0, words := [0] } } : OpenItem) with prod := p, phase := OpenPhase.writing }
    let s : State := booted.setQueue qid { booted.queue qid with opens := [o] }
    s.clocked = true ∧ (s.queue qid).openOf p = some o ∧ o.phase = OpenPhase.writing) := by
  refine ⟨?_, ?_, ?_, ?_, ?_, ?_, ?_, ?_, ?_, ?_, ?_, ?_, ?_⟩
  all_goals try intros
  all_goals and_intros
  all_goals first
    | decide +kernel +zetaReduce
    | exact hostOpen_of (by decide +kernel +zetaReduce)
    | exact leafReady_of (by decide +kernel +zetaReduce)
    | exact canonical_of (by decide +kernel +zetaReduce)
    | exact rateLegal_of (by decide +kernel +zetaReduce)
    | exact fetchInstr_of (by decide +kernel +zetaReduce)
    | exact onlyMoves_of _ rfl
    | exact Prod.ext rfl (some_of (by decide +kernel +zetaReduce))
    | exact Prod.ext rfl (by decide +kernel +zetaReduce)
    | exact ⟨_, rfl, by decide +kernel +zetaReduce⟩
    | exact some_of (by decide +kernel +zetaReduce)
    | exact peak_of (by decide +kernel +zetaReduce) (by decide +kernel +zetaReduce)
    | exact ok_of (by decide +kernel +zetaReduce)
    | exact error_of (by decide +kernel +zetaReduce)
    | exact pend_of (by decide +kernel +zetaReduce)
    | exact Or.inl ⟨rfl, rfl, rfl, rfl⟩
    | (intros; decide +kernel +zetaReduce)
    | (intro p; exact List.not_mem_nil)
    | exact List.Mem.head _
    | (intros; rfl)

theorem witness_ItemReads :
   (let s : State := booted.setBinding 0 { kind := 1, src := 0 }
    let qid : Nat := 0
    let c : Consumer := .leaf 0
    s.clocked = true ∧ s.boundElsewhere qid c = true) ∧
   (let qid : Nat := 0
    let s_1 : State := booted.setQueue qid { booted.queue qid with kind := 3 }
    let s : State := s_1.setQueue 0 { s_1.queue 0 with visible := [oneItem] }
    let c : Consumer := .leaf 0
    let q := s.queue qid
    let i : QItem := oneItem
    let q' : Queue := (((s.queue qid).take s.tb.raw.toNat).getD (oneItem, {})).2
    s.clocked = true ∧ s.boundElsewhere qid c = false ∧ q.storable = true ∧
      List.find? (fun x => x.fst == c) q.served = none ∧ List.find? (fun x => x.fst == c) q.released = none ∧
      stallPos q.stalled c < q.visible.length ∧ q.take s.tb.raw.toNat = some (i, q')) ∧
   (let qid : Nat := 0
    let c : Consumer := .leaf 0
    let i : Consumer × QItem := (c, oneItem)
    let s : State := booted.setQueue qid { booted.queue qid with kind := 3, served := [i] }
    let q := s.queue qid
    s.clocked = true ∧ s.boundElsewhere qid c = false ∧ q.storable = true ∧
      List.find? (fun x => x.fst == c) q.served = some i) ∧
   (let qid : Nat := 0
    let s : State := booted.setQueue qid { booted.queue qid with kind := 3, visible := [], enable := true }
    let c : Consumer := .leaf 0
    let q := s.queue qid
    s.clocked = true ∧ s.boundElsewhere qid c = false ∧ q.storable = true ∧
      List.find? (fun x => x.fst == c) q.served = none ∧ List.find? (fun x => x.fst == c) q.released = none ∧
      q.visible = [] ∧ q.enable = true ∧ q.stalled.contains c = false) ∧
   (let qid : Nat := 0
    let s : State := booted.setQueue qid { booted.queue qid with kind := 3, visible := [], enable := false }
    let c : Consumer := .leaf 0
    let q := s.queue qid
    s.clocked = true ∧ s.boundElsewhere qid c = false ∧ q.storable = true ∧
      List.find? (fun x => x.fst == c) q.served = none ∧ List.find? (fun x => x.fst == c) q.released = none ∧
      q.visible = [] ∧ q.enable = false) ∧
   (let s : State := booted
    let qid : Nat := 0
    let c : Consumer := .leaf 0
    let q := s.queue qid
    s.clocked = true ∧ s.boundElsewhere qid c = false ∧ q.storable = false) := by
  refine ⟨?_, ?_, ?_, ?_, ?_, ?_⟩
  all_goals try intros
  all_goals and_intros
  all_goals first
    | decide +kernel +zetaReduce
    | exact hostOpen_of (by decide +kernel +zetaReduce)
    | exact leafReady_of (by decide +kernel +zetaReduce)
    | exact canonical_of (by decide +kernel +zetaReduce)
    | exact rateLegal_of (by decide +kernel +zetaReduce)
    | exact fetchInstr_of (by decide +kernel +zetaReduce)
    | exact onlyMoves_of _ rfl
    | exact Prod.ext rfl (some_of (by decide +kernel +zetaReduce))
    | exact Prod.ext rfl (by decide +kernel +zetaReduce)
    | exact ⟨_, rfl, by decide +kernel +zetaReduce⟩
    | exact some_of (by decide +kernel +zetaReduce)
    | exact peak_of (by decide +kernel +zetaReduce) (by decide +kernel +zetaReduce)
    | exact ok_of (by decide +kernel +zetaReduce)
    | exact error_of (by decide +kernel +zetaReduce)
    | exact pend_of (by decide +kernel +zetaReduce)
    | exact Or.inl ⟨rfl, rfl, rfl, rfl⟩
    | (intros; decide +kernel +zetaReduce)
    | (intro p; exact List.not_mem_nil)
    | exact List.Mem.head _
    | (intros; rfl)

theorem witness_QueuesNeverOverfill :
   (let q : Queue := {}
    let one : Queue → Prop := fun q => (List.map (fun x => x.prod) (List.filter (fun x => x.phase != OpenPhase.committed) q.opens)).Nodup
    q.usedWords ≤ q.size ∧ one q) := by
  all_goals try intros
  all_goals and_intros
  all_goals first
    | decide +kernel +zetaReduce
    | exact hostOpen_of (by decide +kernel +zetaReduce)
    | exact leafReady_of (by decide +kernel +zetaReduce)
    | exact canonical_of (by decide +kernel +zetaReduce)
    | exact rateLegal_of (by decide +kernel +zetaReduce)
    | exact fetchInstr_of (by decide +kernel +zetaReduce)
    | exact onlyMoves_of _ rfl
    | exact Prod.ext rfl (some_of (by decide +kernel +zetaReduce))
    | exact Prod.ext rfl (by decide +kernel +zetaReduce)
    | exact ⟨_, rfl, by decide +kernel +zetaReduce⟩
    | exact some_of (by decide +kernel +zetaReduce)
    | exact peak_of (by decide +kernel +zetaReduce) (by decide +kernel +zetaReduce)
    | exact ok_of (by decide +kernel +zetaReduce)
    | exact error_of (by decide +kernel +zetaReduce)
    | exact pend_of (by decide +kernel +zetaReduce)
    | exact Or.inl ⟨rfl, rfl, rfl, rfl⟩
    | (intros; decide +kernel +zetaReduce)
    | (intro p; exact List.not_mem_nil)
    | exact List.Mem.head _
    | (intros; rfl)

theorem witness_PriorityIsStrict :
   (let q : Queue := { visible := [{ prio := 1, tag := 0, words := [0] }, oneItem] }
    let q' : Queue := ((q.take 0).getD (oneItem, {})).2
    let raw : Nat := 0
    let i : QItem := { prio := 1, tag := 0, words := [0] }
    let j : QItem := oneItem
    q.take raw = some (i, q') ∧ j ∈ q.visible ∧ ¬(j.prio = i.prio ∧ j.seq = i.seq)) ∧
   (let s : State := booted
    let last : SMap Nat := []
    let l : List Burst := [{ requester := 0, waited := 0 }]
    let b : Burst := (s.pickBurst last l).getD { requester := 0, waited := 0 }
    let x : Burst := { requester := 0, waited := 0 }
    s.pickBurst last l = some b ∧ x ∈ l) ∧
   (let s : State := booted
    let last : SMap Nat := []
    let l : List Burst := []
    s.pickBurst last l = none) ∧
   (let c : Nat := 0
    let m : Nat := 0
    let s : State := booted.setTask m { booted.task m with mode := TaskMode.ready, cls := c }
    let n : Nat := (s.firstReady c).getD 0
    mapWf (fun x => { }) s.gth.tasks = true ∧ s.firstReady c = some n ∧ (s.task m).mode = TaskMode.ready ∧
      (s.task m).cls = c) := by
  refine ⟨?_, ?_, ?_, ?_⟩
  all_goals try intros
  all_goals and_intros
  all_goals first
    | decide +kernel +zetaReduce
    | exact hostOpen_of (by decide +kernel +zetaReduce)
    | exact leafReady_of (by decide +kernel +zetaReduce)
    | exact canonical_of (by decide +kernel +zetaReduce)
    | exact rateLegal_of (by decide +kernel +zetaReduce)
    | exact fetchInstr_of (by decide +kernel +zetaReduce)
    | exact onlyMoves_of _ rfl
    | exact Prod.ext rfl (some_of (by decide +kernel +zetaReduce))
    | exact Prod.ext rfl (by decide +kernel +zetaReduce)
    | exact ⟨_, rfl, by decide +kernel +zetaReduce⟩
    | exact some_of (by decide +kernel +zetaReduce)
    | exact peak_of (by decide +kernel +zetaReduce) (by decide +kernel +zetaReduce)
    | exact ok_of (by decide +kernel +zetaReduce)
    | exact error_of (by decide +kernel +zetaReduce)
    | exact pend_of (by decide +kernel +zetaReduce)
    | exact Or.inl ⟨rfl, rfl, rfl, rfl⟩
    | (intros; decide +kernel +zetaReduce)
    | (intro p; exact List.not_mem_nil)
    | exact List.Mem.head _
    | (intros; rfl)

theorem witness_QueueDescriptors :
   (let qid : Nat := 0
    let t : Nat := 0
    let s_1 : State := booted.setQueue qid { booted.queue qid with spellStart := some t, idleTicks := 1, noticeEn := true, spellNotified := false }
    let s_2 : State := s_1.setQueue 0 { s_1.queue 0 with visible := [oneItem] }
    let s : State := { s_2 with tb.raw := 1024#64 }
    s.clocked = true ∧ (s.queue qid).spellStart = some t ∧ (s.queue qid).idleTicks ≠ 0 ∧ (s.queue qid).noticeEn = true ∧
      (s.queue qid).spellNotified = false ∧ (s.queue qid).visible ≠ [] ∧
      t + (s.queue qid).idleTicks * 64 ≤ s.tb.raw.toNat / 64 * 64) ∧
   (let s : State := booted
    let d : Desc := oneDesc 0 0 false []
    s.clocked = true ∧ (s.queue (d.fld 16 15 0)).storable = false) ∧
   (let d : Desc := oneDesc 0 0 false []
    let s_1 : State := booted.setQueue (d.fld 16 15 0) { booted.queue (d.fld 16 15 0) with kind := 3, enable := true }
    let s : State := s_1.setQueue 0 { s_1.queue 0 with visible := [oneItem] }
    let qid := d.fld 16 15 0
    let q := s.queue qid
    s.clocked = true ∧ (s.queue (d.fld 16 15 0)).storable = true ∧ q.enable = true ∧ q.visible ≠ []) ∧
   (let d : Desc := oneDesc 0 0 false []
    let s : State := booted.setQueue (d.fld 16 15 0) { booted.queue (d.fld 16 15 0) with kind := 3, enable := true, visible := [] }
    let qid := d.fld 16 15 0
    let q := s.queue qid
    s.clocked = true ∧ (s.queue (d.fld 16 15 0)).storable = true ∧ q.enable = true ∧ q.visible = []) ∧
   (let d : Desc := oneDesc 0 0 false []
    let s : State := booted.setQueue (d.fld 16 15 0) { booted.queue (d.fld 16 15 0) with kind := 3, enable := false, visible := [], opens := [], stalled := [], enableRefs := [] }
    let qid := d.fld 16 15 0
    let q := s.queue qid
    s.clocked = true ∧ (s.queue (d.fld 16 15 0)).storable = true ∧ q.enable = false ∧ q.visible = [] ∧ q.opens = [] ∧
      q.stalled = [] ∧ q.enableRefs = [] ∧ s.regionFails qid q = false) ∧
   (let d : Desc := oneDesc 0 0 false []
    let s_1 : State := booted.setQueue (d.fld 16 15 0) { booted.queue (d.fld 16 15 0) with kind := 3, enable := false, visible := [], opens := [], stalled := [], enableRefs := [] }
    let s : State := s_1.setQueue 0 { s_1.queue 0 with base := 2 ^ 30 }
    let qid := d.fld 16 15 0
    let q := s.queue qid
    s.clocked = true ∧ (s.queue (d.fld 16 15 0)).storable = true ∧ q.enable = false ∧ q.visible = [] ∧ q.opens = [] ∧
      q.stalled = [] ∧ q.enableRefs = [] ∧ s.regionFails qid q = true) ∧
   (let d : Desc := oneDesc 0 0 false [0#32, BitVec.ofNat 32 (1)]
    let s : State := booted.setQueue (d.fld 16 15 0) { booted.queue (d.fld 16 15 0) with kind := 3 }
    s.clocked = true ∧ (s.queue (d.fld 16 15 0)).storable = true ∧ d.fld 20 12 0 ≠ 0 ∧
      d.fld 20 12 0 ≤ (s.queue (d.fld 16 15 0)).itemMax ∧ BitVec.toNat (d.w64 24) % 32 = 0) ∧
   (let ring : Nat := 0
    let tag : W32 := 0#32
    let s : State := { booted with qm.writes := [{ ref := ⟨0, 0#32, false, false⟩, qid := 0, prio := 0, tag := 0, length := 1, addr := 0#64 }] }
    let words : List QWord := []
    let l : List QWrite := (markFetched ring tag words s.qm.writes).getD []
    s.clocked = true ∧ markFetched ring tag words s.qm.writes = some l) ∧
   (let ring : Nat := 0
    let tag : W32 := 0#32
    let s : State := { booted with qm.writes := [{ ref := ⟨0, 0#32, false, false⟩, qid := 0, prio := 0, tag := 0, length := 1, addr := 0#64 }] }
    let w : QWrite := ((takeUnfetched ring tag s.qm.writes).getD ({ ref := ⟨0, 0#32, false, false⟩, qid := 0, prio := 0, tag := 0, length := 1, addr := 0#64 },
      [])).1
    let l : List QWrite := ((takeUnfetched ring tag s.qm.writes).getD ({ ref := ⟨0, 0#32, false, false⟩, qid := 0, prio := 0, tag := 0, length := 1, addr := 0#64 },
      [])).2
    s.clocked = true ∧ takeUnfetched ring tag s.qm.writes = some (w, l)) := by
  refine ⟨?_, ?_, ?_, ?_, ?_, ?_, ?_, ?_, ?_⟩
  all_goals try intros
  all_goals and_intros
  all_goals first
    | decide +kernel +zetaReduce
    | exact hostOpen_of (by decide +kernel +zetaReduce)
    | exact leafReady_of (by decide +kernel +zetaReduce)
    | exact canonical_of (by decide +kernel +zetaReduce)
    | exact rateLegal_of (by decide +kernel +zetaReduce)
    | exact fetchInstr_of (by decide +kernel +zetaReduce)
    | exact onlyMoves_of _ rfl
    | exact Prod.ext rfl (some_of (by decide +kernel +zetaReduce))
    | exact Prod.ext rfl (by decide +kernel +zetaReduce)
    | exact ⟨_, rfl, by decide +kernel +zetaReduce⟩
    | exact some_of (by decide +kernel +zetaReduce)
    | exact peak_of (by decide +kernel +zetaReduce) (by decide +kernel +zetaReduce)
    | exact ok_of (by decide +kernel +zetaReduce)
    | exact error_of (by decide +kernel +zetaReduce)
    | exact pend_of (by decide +kernel +zetaReduce)
    | exact Or.inl ⟨rfl, rfl, rfl, rfl⟩
    | (intros; decide +kernel +zetaReduce)
    | (intro p; exact List.not_mem_nil)
    | exact List.Mem.head _
    | (intros; rfl)

theorem witness_QueueContextWindow :
   (let s : State := { booted with qm.busy := false }
    s.hostOpen Reg.QMG_QCTX_SEL ∧ s.qm.busy = false) ∧
   (let s_1 : State := { booted with qm.busy := false }
    let s : State := s_1.setQueue (s_1.fld Reg.QMG_QCTX_SEL 15 0) { s_1.queue (s_1.fld Reg.QMG_QCTX_SEL 15 0) with enable := false }
    let v : W32 := BitVec.ofNat _ (1)
    let qid := s.fld Reg.QMG_QCTX_SEL 15 0
    let q := s.queue qid
    let new := (s.stagedQueue q).fst
    s.hostOpen Reg.QMG_QCTX_CMD ∧ s.qm.busy = false ∧ bitOf v 0 = true ∧ (q.kind = new.kind ∨
      (s.ring qid).enable = false) ∧ q.enable = false ∧ q.draining = false ∧ new.enable = false) ∧
   (let s_1 : State := { booted with qm.busy := false }
    let s_2 : State := s_1.setQueue (s_1.fld Reg.QMG_QCTX_SEL 15 0) { s_1.queue (s_1.fld Reg.QMG_QCTX_SEL 15 0) with enable := false }
    let s : State := s_2.wr Reg.QMG_QCTX_CFG0 0x80000000#32
    let v : W32 := BitVec.ofNat _ (1)
    let qid := s.fld Reg.QMG_QCTX_SEL 15 0
    let q := s.queue qid
    let new := (s.stagedQueue q).fst
    s.hostOpen Reg.QMG_QCTX_CMD ∧ s.qm.busy = false ∧ bitOf v 0 = true ∧ (q.kind = new.kind ∨
      (s.ring qid).enable = false) ∧ q.enable = false ∧ q.draining = false ∧ new.enable = true ∧
      s.regionFails qid new = false) ∧
   (let s_1 : State := { booted with qm.busy := false }
    let s_2 : State := s_1.setQueue (s_1.fld Reg.QMG_QCTX_SEL 15 0) { s_1.queue (s_1.fld Reg.QMG_QCTX_SEL 15 0) with enable := false }
    let s_3 : State := s_2.wr Reg.QMG_QCTX_CFG0 0xE2000000#32
    let s_4 : State := s_3.wr Reg.QMG_QCTX_BASE_LO 0x80000000#32
    let s : State := s_4.setQueue 0 { s_4.queue 0 with kind := 3 }
    let v : W32 := BitVec.ofNat _ (1)
    let qid := s.fld Reg.QMG_QCTX_SEL 15 0
    let q := s.queue qid
    let new := (s.stagedQueue q).fst
    s.hostOpen Reg.QMG_QCTX_CMD ∧ s.qm.busy = false ∧ bitOf v 0 = true ∧ (q.kind = new.kind ∨
      (s.ring qid).enable = false) ∧ q.enable = false ∧ q.draining = false ∧ new.enable = true ∧
      s.regionFails qid new = true) ∧
   (let s_1 : State := { booted with qm.busy := false }
    let s_2 : State := s_1.setQueue (s_1.fld Reg.QMG_QCTX_SEL 15 0) { s_1.queue (s_1.fld Reg.QMG_QCTX_SEL 15 0) with enable := true }
    let s : State := s_2.wr Reg.QMG_QCTX_CFG0 0x80000000#32
    let v : W32 := BitVec.ofNat _ (1)
    let qid := s.fld Reg.QMG_QCTX_SEL 15 0
    let q := s.queue qid
    let new := (s.stagedQueue q).fst
    s.hostOpen Reg.QMG_QCTX_CMD ∧ s.qm.busy = false ∧ bitOf v 0 = true ∧ (q.kind = new.kind ∨
      (s.ring qid).enable = false) ∧ q.enable = true ∧ new.enable = true) ∧
   (let s_1 : State := { booted with qm.busy := false }
    let s : State := s_1.setQueue (s_1.fld Reg.QMG_QCTX_SEL 15 0) { s_1.queue (s_1.fld Reg.QMG_QCTX_SEL 15 0) with enable := true }
    let v : W32 := BitVec.ofNat _ (1)
    let qid := s.fld Reg.QMG_QCTX_SEL 15 0
    let q := s.queue qid
    let new := (s.stagedQueue q).fst
    s.hostOpen Reg.QMG_QCTX_CMD ∧ s.qm.busy = false ∧ bitOf v 0 = true ∧ (q.kind = new.kind ∨
      (s.ring qid).enable = false) ∧ q.enable = true ∧ new.enable = false) ∧
   (let s : State := { booted with qm.busy := true }
    s.clocked = true ∧ s.qm.busy = true) ∧
   (let s : State := { booted with qm.busy := true }
    s.qm.busy = true ∧ s.hostOpen Reg.QMG_QCTX_SEL) ∧
   (let s : State := { booted with qm.busy := true }
    s.qm.busy = true ∧ s.hostOpen Reg.QMG_QCTX_CMD) := by
  refine ⟨?_, ?_, ?_, ?_, ?_, ?_, ?_, ?_, ?_⟩
  all_goals try intros
  all_goals and_intros
  all_goals first
    | decide +kernel +zetaReduce
    | exact hostOpen_of (by decide +kernel +zetaReduce)
    | exact leafReady_of (by decide +kernel +zetaReduce)
    | exact canonical_of (by decide +kernel +zetaReduce)
    | exact rateLegal_of (by decide +kernel +zetaReduce)
    | exact fetchInstr_of (by decide +kernel +zetaReduce)
    | exact onlyMoves_of _ rfl
    | exact Prod.ext rfl (some_of (by decide +kernel +zetaReduce))
    | exact Prod.ext rfl (by decide +kernel +zetaReduce)
    | exact ⟨_, rfl, by decide +kernel +zetaReduce⟩
    | exact some_of (by decide +kernel +zetaReduce)
    | exact peak_of (by decide +kernel +zetaReduce) (by decide +kernel +zetaReduce)
    | exact ok_of (by decide +kernel +zetaReduce)
    | exact error_of (by decide +kernel +zetaReduce)
    | exact pend_of (by decide +kernel +zetaReduce)
    | exact Or.inl ⟨rfl, rfl, rfl, rfl⟩
    | (intros; decide +kernel +zetaReduce)
    | (intro p; exact List.not_mem_nil)
    | exact List.Mem.head _
    | (intros; rfl)

theorem witness_Arbiters :
   (let s0 : State := booted.setBit (Reg.SPN_ARB_CTRL 0) 0 true
    let a : Nat := 0
    let x := s0.arbiter a
    let s := (s0.setArbiter a { bursts := x.bursts, ports := x.ports, lastServed := x.lastServed }).settlePresent
    s0.clocked = true ∧ a < arbiterCount ∧ s.bit (Reg.SPN_ARB_CTRL a) 0 = true) ∧
   (let s0 : State := { booted with spn.absent := [] }
    let a : Nat := 0
    let cycles : Nat := 0
    let arrived : List (Nat × Nat) := [(0, 0)]
    let x := s0.arbiter a
    let s := (s0.setArbiter a { bursts := x.bursts, ports := x.ports, lastServed := x.lastServed }).settlePresent
    let waited : List Burst → List Burst := fun l => List.map (fun b => { requester := b.requester, waited := b.waited + cycles }) (List.filter (fun b => s.isPresent b.requester) l)
    let all := waited x.bursts ++ waited x.ports ++
      List.map (fun r => { requester := r.fst, waited := min r.snd cycles }) (List.filter (fun r => decide (r.fst < requesterCount) && s.isPresent r.fst) arrived)
    let bursts := List.take burstBuffer all
    let b : Burst := (s.pickBurst x.lastServed bursts).getD { requester := 0, waited := 0 }
    s0.clocked = true ∧ a < arbiterCount ∧ s.bit (Reg.SPN_ARB_CTRL a) 0 = false ∧
      s.pickBurst x.lastServed bursts = some b ∧
      (s.setArbiter a { bursts := removeBurst b bursts, ports := List.drop burstBuffer all, inFlight := some b.requester, lastServed := mapSet (fun x => requesterCount - 1) x.lastServed (s.rankOf b.requester) b.requester }).fld (Reg.SPN_ARB_WAITMAX a) 23 0 ≥ satTo 16777215 b.waited) ∧
   (let s : State := booted
    let r : Nat := 0
    r < requesterCount ∧ s.hostOpen (Reg.SPN_RANK r)) ∧
   (let s : State := booted
    let a : Nat := 0
    a < arbiterCount ∧ s.hostOpen (Reg.SPN_ARB_CTRL a)) ∧
   (let s : State := booted
    let a : Nat := 0
    let v : W32 := BitVec.ofNat _ (1 * 2 ^ 31)
    a < arbiterCount ∧ s.hostOpen (Reg.SPN_ARB_WAITMAX a) ∧ bitOf v 31 = true) := by
  refine ⟨?_, ?_, ?_, ?_, ?_⟩
  all_goals try intros
  all_goals and_intros
  all_goals first
    | decide +kernel +zetaReduce
    | exact hostOpen_of (by decide +kernel +zetaReduce)
    | exact leafReady_of (by decide +kernel +zetaReduce)
    | exact canonical_of (by decide +kernel +zetaReduce)
    | exact rateLegal_of (by decide +kernel +zetaReduce)
    | exact fetchInstr_of (by decide +kernel +zetaReduce)
    | exact onlyMoves_of _ rfl
    | exact Prod.ext rfl (some_of (by decide +kernel +zetaReduce))
    | exact Prod.ext rfl (by decide +kernel +zetaReduce)
    | exact ⟨_, rfl, by decide +kernel +zetaReduce⟩
    | exact some_of (by decide +kernel +zetaReduce)
    | exact peak_of (by decide +kernel +zetaReduce) (by decide +kernel +zetaReduce)
    | exact ok_of (by decide +kernel +zetaReduce)
    | exact error_of (by decide +kernel +zetaReduce)
    | exact pend_of (by decide +kernel +zetaReduce)
    | exact Or.inl ⟨rfl, rfl, rfl, rfl⟩
    | (intros; decide +kernel +zetaReduce)
    | (intro p; exact List.not_mem_nil)
    | exact List.Mem.head _
    | (intros; rfl)

theorem witness_TasksAndSignatures :
   (let s : State := booted
    let d : Desc := oneDesc 0 0 false [0#32, 0#32, 0#32, BitVec.ofNat 32 (1 * 2 ^ 16)]
    let n := d.fld 16 16 0
    s.clocked = true ∧ d.fld 28 15 0 < 512 ∧ (d.fld 28 17 16 = 1 ∨ d.fld 28 17 16 = 2) ∧ d.fld 36 19 0 ≤ 1000000 ∧
      ((s.task n).mode = TaskMode.undef ∨ (s.task n).mode = TaskMode.idle)) ∧
   (let s : State := booted.setTask 0 { mode := .running }
    let d : Desc := oneDesc 0 0 false [0#32, 0#32, 0#32, BitVec.ofNat 32 (1 * 2 ^ 16)]
    let n := d.fld 16 16 0
    s.clocked = true ∧ d.fld 28 15 0 < 512 ∧ (d.fld 28 17 16 = 1 ∨ d.fld 28 17 16 = 2) ∧ d.fld 36 19 0 ≤ 1000000 ∧
      (s.task n).mode ≠ TaskMode.undef ∧ (s.task n).mode ≠ TaskMode.idle) ∧
   (let d : Desc := oneDesc 0 0 false []
    let s_1 : State := booted.setTask (d.fld 16 16 0) { booted.task (d.fld 16 16 0) with mode := TaskMode.idle, sigEn := false }
    let s : State := s_1.setTask 0 { s_1.task 0 with carrier := 0xFFFF }
    let n := d.fld 16 16 0
    s.clocked = true ∧ (s.task n).mode = TaskMode.idle ∧ (s.task n).bound = false ∧ (s.task n).sigEn = false) ∧
   (let d : Desc := oneDesc 0 0 false []
    let s_1 : State := booted.setTask (d.fld 16 16 0) { booted.task (d.fld 16 16 0) with mode := TaskMode.idle }
    let s : State := { s_1 with slt.carriers := [(0, { mode := .disabled })] }
    let n := d.fld 16 16 0
    s.clocked = true ∧ (s.task n).mode = TaskMode.idle ∧ (s.task n).bound = true ∧
      (s.carrier (s.task n).carrier).refusesWork = true) ∧
   (let d : Desc := oneDesc 0 0 false []
    let s : State := booted.setTask (d.fld 16 16 0) { booted.task (d.fld 16 16 0) with mode := TaskMode.undef }
    let n := d.fld 16 16 0
    s.clocked = true ∧ (s.task n).mode = TaskMode.undef) ∧
   (let s : State := booted
    let d : Desc := oneDesc 0 0 false [0#32, 1#32]
    s.clocked = true ∧ d.w 20 ≠ 0) ∧
   (let s : State := booted
    let n : Nat := 0
    let f : W32 := 0#32
    s.clocked = true ∧ takeNotify n f [] s.notifies = none) ∧
   (let n : Nat := 0
    let f : W32 := 1#32
    let s_1 : State := booted.setTask n { booted.task n with mode := TaskMode.waiting }
    let s : State := { s_1 with notifies := [{ task := n, mask := f, src := .slotGrid }] }
    let l : List FlagNotify := (takeNotify n f [] s.notifies).getD []
    let t := s.task n
    s.clocked = true ∧ f ≠ 0 ∧ takeNotify n f [] s.notifies = some l ∧ t.mode = TaskMode.waiting) ∧
   (let n : Nat := 0
    let f : W32 := 1#32
    let s_1 : State := booted.setTask n { booted.task n with mode := TaskMode.ready, latchEn := true }
    let s : State := { s_1 with notifies := [{ task := n, mask := f, src := .slotGrid }] }
    let l : List FlagNotify := (takeNotify n f [] s.notifies).getD []
    let t := s.task n
    s.clocked = true ∧ f ≠ 0 ∧ takeNotify n f [] s.notifies = some l ∧ (t.mode = TaskMode.ready ∨
      t.mode = TaskMode.running) ∧ t.latchEn = true) ∧
   (let n : Nat := 0
    let f : W32 := 1#32
    let s_1 : State := booted.setTask n { booted.task n with mode := TaskMode.ready, latchEn := false }
    let s : State := { s_1 with notifies := [{ task := n, mask := f, src := .slotGrid }] }
    let l : List FlagNotify := (takeNotify n f [] s.notifies).getD []
    let t := s.task n
    s.clocked = true ∧ f ≠ 0 ∧ takeNotify n f [] s.notifies = some l ∧ (t.mode = TaskMode.ready ∨
      t.mode = TaskMode.running) ∧ t.latchEn = false) ∧
   (let n : Nat := 0
    let f : W32 := 1#32
    let s_1 : State := booted.setTask n { booted.task n with mode := TaskMode.undef }
    let s : State := { s_1 with notifies := [{ task := n, mask := f, src := .slotGrid }] }
    let l : List FlagNotify := (takeNotify n f [] s.notifies).getD []
    let t := s.task n
    s.clocked = true ∧ f ≠ 0 ∧ takeNotify n f [] s.notifies = some l ∧ (t.mode = TaskMode.undef ∨
      t.mode = TaskMode.cancelledRunning)) ∧
   (let n : Nat := 0
    let f : W32 := 1#32
    let s_1 : State := booted.setTask n { booted.task n with mode := TaskMode.idle }
    let s_2 : State := s_1.setTask 0 { s_1.task 0 with carrier := 0xFFFF, armMask := 1#32 }
    let s : State := { s_2 with notifies := [{ task := n, mask := f, src := .slotGrid }] }
    let l : List FlagNotify := (takeNotify n f [] s.notifies).getD []
    let t := s.task n
    s.clocked = true ∧ f ≠ 0 ∧ takeNotify n f [] s.notifies = some l ∧ t.mode = TaskMode.idle ∧ f &&& t.armMask ≠ 0 ∧
      t.bound = false) ∧
   (let n : Nat := 0
    let f : W32 := 1#32
    let s_1 : State := booted.setTask n { booted.task n with mode := TaskMode.idle }
    let s_2 : State := s_1.setTask 0 { s_1.task 0 with armMask := 1#32 }
    let s_3 : State := { s_2 with slt.carriers := oneCarrier [] [] }
    let s : State := { s_3 with notifies := [{ task := n, mask := f, src := .slotGrid }] }
    let l : List FlagNotify := (takeNotify n f [] s.notifies).getD []
    let t := s.task n
    let k : Int := (s.currentSlot t.carrier t.boundHalf).getD 0
    s.clocked = true ∧ f ≠ 0 ∧ takeNotify n f [] s.notifies = some l ∧ t.mode = TaskMode.idle ∧ f &&& t.armMask ≠ 0 ∧
      t.bound = true ∧ s.currentSlot t.carrier t.boundHalf = some k) ∧
   (let n : Nat := 0
    let s : State := booted.setTask n { booted.task n with mode := TaskMode.waiting }
    (s.task n).mode = TaskMode.waiting ∧ (s.task n).isReady = true) ∧
   (let n : Nat := 0
    let s_1 : State := booted.setTask n { booted.task n with mode := TaskMode.waiting }
    let s : State := s_1.setTask 0 { s_1.task 0 with waitMask := 1#32 }
    (s.task n).mode = TaskMode.waiting ∧ (s.task n).isReady = false) ∧
   (let n : Nat := 0
    let s : State := booted.setTask n { booted.task n with mode := TaskMode.waiting }
    s.clocked = true ∧ (s.task n).mode = TaskMode.waiting ∧ (s.task n).deadlineU ≤ s.tb.timeU ∧
      s.taskExpires (s.task n) = false) ∧
   (let d : Desc := oneDesc 0 0 false []
    let s : State := booted.setTask (d.fld 16 16 0) { booted.task (d.fld 16 16 0) with mode := TaskMode.waiting, sigEn := false }
    let n := d.fld 16 16 0
    let t := s.task n
    s.clocked = true ∧ (t.mode = TaskMode.waiting ∨ t.mode = TaskMode.ready) ∧ t.sigEn = false) ∧
   (let d : Desc := oneDesc 0 0 false []
    let s : State := booted.setTask (d.fld 16 16 0) { booted.task (d.fld 16 16 0) with mode := TaskMode.undef }
    let n := d.fld 16 16 0
    let t := s.task n
    s.clocked = true ∧ (t.mode = TaskMode.undef ∨ t.mode = TaskMode.idle ∨ t.mode = TaskMode.cancelledRunning)) ∧
   (let s : State := booted
    let d : Desc := oneDesc 0 0 false []
    let g := d.fld 16 13 0
    s.clocked = true ∧ (s.sig g).alloc = (s.sig g).next) ∧
   (let s : State := booted.setSig 0 { next := 0, alloc := 1, entries := [{ seq := 0, void := false }] }
    let d : Desc := oneDesc 0 0 false []
    let g := d.fld 16 13 0
    s.clocked = true ∧ (s.sig g).alloc ≠ (s.sig g).next) ∧
   (let s_1 : State := { booted with gth.credits := 1 }
    let s : State := { s_1 with gth.credits := 1, gth.fetches := [{ cls := 0, leaf := 0 }], gth.tasks := [(0, { mode := .ready })] }
    let c : Nat := 0
    let n : Nat := 0
    let f : Nat := 0
    s.clocked = true ∧ s.gth.credits ≠ 0 ∧ s.dispatchClass = some c ∧ s.firstFetch c = some f ∧ s.firstReady c = some n) ∧
   (let s : State := booted
    s.dispatchClass = none) ∧
   (let sg : Nat := 0
    let rest : List Nat := []
    let e : SigEntry := { ({ seq := 0, void := false } : SigEntry) with void := true }
    let s_1 : State := { booted with gth.publish := sg :: rest }
    let s : State := s_1.setSig sg { s_1.sig sg with entries := [e] }
    s.clocked = true ∧ s.gth.publish = sg :: rest ∧
      List.find? (fun x => x.seq == (s.sig sg).next) (s.sig sg).entries = some e ∧ e.void = true) ∧
   (let sg : Nat := 0
    let rest : List Nat := []
    let e : SigEntry := { ({ seq := 0, void := false } : SigEntry) with void := false, held := false }
    let s_1 : State := { booted with gth.publish := sg :: rest }
    let s : State := s_1.setSig sg { s_1.sig sg with entries := [e], outEn := true }
    let g := s.sig sg
    s.clocked = true ∧ s.gth.publish = sg :: rest ∧
      List.find? (fun x => x.seq == (s.sig sg).next) (s.sig sg).entries = some e ∧ e.void = false ∧ e.held = false ∧
      g.outEn = true) ∧
   (let sg : Nat := 0
    let rest : List Nat := []
    let e : SigEntry := { ({ seq := 0, void := false } : SigEntry) with void := false, held := false }
    let s_1 : State := { booted with gth.publish := sg :: rest }
    let s : State := s_1.setSig sg { s_1.sig sg with entries := [e], outEn := false }
    let g := s.sig sg
    s.clocked = true ∧ s.gth.publish = sg :: rest ∧
      List.find? (fun x => x.seq == (s.sig sg).next) (s.sig sg).entries = some e ∧ e.void = false ∧ e.held = false ∧
      g.outEn = false) := by
  refine ⟨?_, ?_, ?_, ?_, ?_, ?_, ?_, ?_, ?_, ?_, ?_, ?_, ?_, ?_, ?_, ?_, ?_, ?_, ?_, ?_, ?_, ?_, ?_, ?_, ?_⟩
  all_goals try intros
  all_goals and_intros
  all_goals first
    | decide +kernel +zetaReduce
    | exact hostOpen_of (by decide +kernel +zetaReduce)
    | exact leafReady_of (by decide +kernel +zetaReduce)
    | exact canonical_of (by decide +kernel +zetaReduce)
    | exact rateLegal_of (by decide +kernel +zetaReduce)
    | exact fetchInstr_of (by decide +kernel +zetaReduce)
    | exact onlyMoves_of _ rfl
    | exact Prod.ext rfl (some_of (by decide +kernel +zetaReduce))
    | exact Prod.ext rfl (by decide +kernel +zetaReduce)
    | exact ⟨_, rfl, by decide +kernel +zetaReduce⟩
    | exact some_of (by decide +kernel +zetaReduce)
    | exact peak_of (by decide +kernel +zetaReduce) (by decide +kernel +zetaReduce)
    | exact ok_of (by decide +kernel +zetaReduce)
    | exact error_of (by decide +kernel +zetaReduce)
    | exact pend_of (by decide +kernel +zetaReduce)
    | exact Or.inl ⟨rfl, rfl, rfl, rfl⟩
    | (intros; decide +kernel +zetaReduce)
    | (intro p; exact List.not_mem_nil)
    | exact List.Mem.head _
    | (intros; rfl)

theorem witness_VectorOperations :
   (let s : State := leafOn
    let n : Nat := 0
    s.leafReady n) := by
  all_goals try intros
  all_goals and_intros
  all_goals first
    | decide +kernel +zetaReduce
    | exact hostOpen_of (by decide +kernel +zetaReduce)
    | exact leafReady_of (by decide +kernel +zetaReduce)
    | exact canonical_of (by decide +kernel +zetaReduce)
    | exact rateLegal_of (by decide +kernel +zetaReduce)
    | exact fetchInstr_of (by decide +kernel +zetaReduce)
    | exact onlyMoves_of _ rfl
    | exact Prod.ext rfl (some_of (by decide +kernel +zetaReduce))
    | exact Prod.ext rfl (by decide +kernel +zetaReduce)
    | exact ⟨_, rfl, by decide +kernel +zetaReduce⟩
    | exact some_of (by decide +kernel +zetaReduce)
    | exact peak_of (by decide +kernel +zetaReduce) (by decide +kernel +zetaReduce)
    | exact ok_of (by decide +kernel +zetaReduce)
    | exact error_of (by decide +kernel +zetaReduce)
    | exact pend_of (by decide +kernel +zetaReduce)
    | exact Or.inl ⟨rfl, rfl, rfl, rfl⟩
    | (intros; decide +kernel +zetaReduce)
    | (intro p; exact List.not_mem_nil)
    | exact List.Mem.head _
    | (intros; rfl)

theorem witness_LeafArithmetic :
   (let l : List (Int × Int) := [(1, 2), (3, 4), (5, 6), (7, 8), (9, 10), (11, 12), (13, 14), (-32768, 32767)]
    let k : Nat := 0
    l.length = 8 ∧ k < 8) ∧
   (let lanes : List (Int × Int) := [(1, 2), (3, 4), (5, 6), (7, 8), (9, 10), (11, 12), (13, 14), (-32768, 32767)]
    lanes.length = 8) ∧
   (let form : Nat := 0
    let l : List ((Int × Int) × Int × Int) := [((-32768, -32768), (-32768, -32768))]
    form ≤ 1 ∧ l.length ≤ 255 ∧ (∀ (x : (Int × Int) × Int × Int), x ∈ l → (-32768 ≤ x.fst.fst ∧ x.fst.fst ≤ 32767) ∧
      (-32768 ≤ x.fst.snd ∧ x.fst.snd ≤ 32767) ∧ (-32768 ≤ x.snd.fst ∧ x.snd.fst ≤ 32767) ∧ -32768 ≤ x.snd.snd ∧
      x.snd.snd ≤ 32767)) ∧
   (let len : W32 := 0
    len = 0) ∧
   (let b : W32 := 0#32
    let len : W32 := 1
    len ≠ 0 ∧ BitVec.toNat b + BitVec.toNat len ≤ 2 ^ 32) ∧
   (let w : Nat := 1
    w ≠ 0) := by
  refine ⟨?_, ?_, ?_, ?_, ?_, ?_⟩
  all_goals try intros
  all_goals and_intros
  all_goals first
    | decide +kernel +zetaReduce
    | exact hostOpen_of (by decide +kernel +zetaReduce)
    | exact leafReady_of (by decide +kernel +zetaReduce)
    | exact canonical_of (by decide +kernel +zetaReduce)
    | exact rateLegal_of (by decide +kernel +zetaReduce)
    | exact fetchInstr_of (by decide +kernel +zetaReduce)
    | exact onlyMoves_of _ rfl
    | exact Prod.ext rfl (some_of (by decide +kernel +zetaReduce))
    | exact Prod.ext rfl (by decide +kernel +zetaReduce)
    | exact ⟨_, rfl, by decide +kernel +zetaReduce⟩
    | exact some_of (by decide +kernel +zetaReduce)
    | exact peak_of (by decide +kernel +zetaReduce) (by decide +kernel +zetaReduce)
    | exact ok_of (by decide +kernel +zetaReduce)
    | exact error_of (by decide +kernel +zetaReduce)
    | exact pend_of (by decide +kernel +zetaReduce)
    | exact Or.inl ⟨rfl, rfl, rfl, rfl⟩
    | (intros; decide +kernel +zetaReduce)
    | (intro p; exact List.not_mem_nil)
    | exact List.Mem.head _
    | (intros; rfl)

theorem witness_ScalarAndControlOperations :
   (let s : State := leafOn
    let n : Nat := 0
    let ra : Nat := 0
    let imm : Nat := 0
    let g := ((s.issued n (LeafOp.c COp.beqz 0 ra 0 imm)).leaf n).g ra
    s.leafReady n ∧ g = 0) ∧
   (let s : State := leafOn.setLeaf 0 { leafOn.leaf 0 with gp := [(0, 1#32), (1, 1#32)] }
    let n : Nat := 0
    let ra : Nat := 1
    let imm : Nat := 0
    let g := ((s.issued n (LeafOp.c COp.beqz 0 ra 0 imm)).leaf n).g ra
    s.leafReady n ∧ ¬g = 0) ∧
   (let s : State := leafOn.setLeaf 0 { leafOn.leaf 0 with gp := [(0, 1#32), (1, 1#32)] }
    let n : Nat := 0
    let ra : Nat := 1
    let imm : Nat := 0
    let g := ((s.issued n (LeafOp.c COp.bnez 0 ra 0 imm)).leaf n).g ra
    s.leafReady n ∧ g ≠ 0) ∧
   (let s : State := leafOn
    let n : Nat := 0
    let ra : Nat := 0
    let imm : Nat := 0
    let g := ((s.issued n (LeafOp.c COp.bnez 0 ra 0 imm)).leaf n).g ra
    s.leafReady n ∧ ¬g ≠ 0) ∧
   (let s : State := leafOn.setLeaf 0 { leafOn.leaf 0 with gp := [(1, 0x80000000#32)] }
    let n : Nat := 0
    let ra : Nat := 1
    let imm : Nat := 0
    let neg := BitVec.msb (((s.issued n (LeafOp.c COp.bltz 0 ra 0 imm)).leaf n).g ra)
    s.leafReady n ∧ neg = true) ∧
   (let s : State := leafOn
    let n : Nat := 0
    let ra : Nat := 0
    let imm : Nat := 0
    let neg := BitVec.msb (((s.issued n (LeafOp.c COp.bltz 0 ra 0 imm)).leaf n).g ra)
    s.leafReady n ∧ neg = !true) ∧
   (let s : State := leafOn
    let n : Nat := 0
    let ra : Nat := 0
    let imm : Nat := 0
    let neg := BitVec.msb (((s.issued n (LeafOp.c COp.bgez 0 ra 0 imm)).leaf n).g ra)
    s.leafReady n ∧ neg = false) ∧
   (let s : State := leafOn.setLeaf 0 { leafOn.leaf 0 with gp := [(1, 0x80000000#32)] }
    let n : Nat := 0
    let ra : Nat := 1
    let imm : Nat := 0
    let neg := BitVec.msb (((s.issued n (LeafOp.c COp.bgez 0 ra 0 imm)).leaf n).g ra)
    s.leafReady n ∧ neg = !false) ∧
   (let s : State := leafOn.setLeaf 0 { leafOn.leaf 0 with abortNotice := true }
    let n : Nat := 0
    let imm : Nat := 0
    let notice := ((s.issued n (LeafOp.c COp.babt 0 0 0 imm)).leaf n).abortNotice
    s.leafReady n ∧ notice = true) ∧
   (let s : State := leafOn
    let n : Nat := 0
    let imm : Nat := 0
    let notice := ((s.issued n (LeafOp.c COp.babt 0 0 0 imm)).leaf n).abortNotice
    s.leafReady n ∧ notice = false) := by
  refine ⟨?_, ?_, ?_, ?_, ?_, ?_, ?_, ?_, ?_, ?_⟩
  all_goals try intros
  all_goals and_intros
  all_goals first
    | decide +kernel +zetaReduce
    | exact hostOpen_of (by decide +kernel +zetaReduce)
    | exact leafReady_of (by decide +kernel +zetaReduce)
    | exact canonical_of (by decide +kernel +zetaReduce)
    | exact rateLegal_of (by decide +kernel +zetaReduce)
    | exact fetchInstr_of (by decide +kernel +zetaReduce)
    | exact onlyMoves_of _ rfl
    | exact Prod.ext rfl (some_of (by decide +kernel +zetaReduce))
    | exact Prod.ext rfl (by decide +kernel +zetaReduce)
    | exact ⟨_, rfl, by decide +kernel +zetaReduce⟩
    | exact some_of (by decide +kernel +zetaReduce)
    | exact peak_of (by decide +kernel +zetaReduce) (by decide +kernel +zetaReduce)
    | exact ok_of (by decide +kernel +zetaReduce)
    | exact error_of (by decide +kernel +zetaReduce)
    | exact pend_of (by decide +kernel +zetaReduce)
    | exact Or.inl ⟨rfl, rfl, rfl, rfl⟩
    | (intros; decide +kernel +zetaReduce)
    | (intro p; exact List.not_mem_nil)
    | exact List.Mem.head _
    | (intros; rfl)

theorem witness_LeafMemoryOperations :
   (let s : State := leafOn
    let n : Nat := 0
    s.leafReady n) ∧
   (let addr : Nat := 4194304
    196608 ≤ addr ∧ (addr < 2097152 ∨ 4194304 ≤ addr)) ∧
   (let addr : Nat := 0
    addr < 131072) ∧
   (let addr : Nat := 131072
    131072 ≤ addr ∧ addr < 196608) ∧
   (let l : Leaf := {}
    let xm : Bool := false
    let p := if xm = true then l.ext else l.extY
    (p.count = 0 ∨ p.age < 7)) ∧
   (let l : Leaf := { ext := { count := 1, age := 7 } }
    let xm : Bool := true
    let p := if xm = true then l.ext else l.extY
    p.count ≠ 0 ∧ 7 ≤ p.age) ∧
   (let addr : Nat := 0
    let bytes : Nat := 1
    let a := addr / bytes * bytes
    0 < bytes ∧ a < 131072) ∧
   (let addr : Nat := 131072
    let bytes : Nat := 1
    let a := addr / bytes * bytes
    0 < bytes ∧ 131072 ≤ a ∧ a < 196608) ∧
   (let addr : Nat := 2097152
    let bytes : Nat := 1
    let a := addr / bytes * bytes
    0 < bytes ∧ 2097152 ≤ a ∧ a < 4194304) ∧
   (let addr : Nat := 196608
    let bytes : Nat := 1
    let a := addr / bytes * bytes
    0 < bytes ∧ 196608 ≤ a ∧ (a < 2097152 ∨ 4194304 ≤ a)) := by
  refine ⟨?_, ?_, ?_, ?_, ?_, ?_, ?_, ?_, ?_, ?_⟩
  all_goals try intros
  all_goals and_intros
  all_goals first
    | decide +kernel +zetaReduce
    | exact hostOpen_of (by decide +kernel +zetaReduce)
    | exact leafReady_of (by decide +kernel +zetaReduce)
    | exact canonical_of (by decide +kernel +zetaReduce)
    | exact rateLegal_of (by decide +kernel +zetaReduce)
    | exact fetchInstr_of (by decide +kernel +zetaReduce)
    | exact onlyMoves_of _ rfl
    | exact Prod.ext rfl (some_of (by decide +kernel +zetaReduce))
    | exact Prod.ext rfl (by decide +kernel +zetaReduce)
    | exact ⟨_, rfl, by decide +kernel +zetaReduce⟩
    | exact some_of (by decide +kernel +zetaReduce)
    | exact peak_of (by decide +kernel +zetaReduce) (by decide +kernel +zetaReduce)
    | exact ok_of (by decide +kernel +zetaReduce)
    | exact error_of (by decide +kernel +zetaReduce)
    | exact pend_of (by decide +kernel +zetaReduce)
    | exact Or.inl ⟨rfl, rfl, rfl, rfl⟩
    | (intros; decide +kernel +zetaReduce)
    | (intro p; exact List.not_mem_nil)
    | exact List.Mem.head _
    | (intros; rfl)

theorem witness_LeafStoresChangeTheirBytesOnly :
   (let s : State := booted
    let n : Nat := 0
    let addr : Nat := 0
    let bytes : Nat := 4
    let x : Bool := false
    let a : Nat := ((leafAccess n x addr bytes).fst).getD 0
    let i : Nat := 0
    s.canonical ∧ (leafAccess n x addr bytes).fst = some a ∧ i < bytes) ∧
   (let s : State := booted
    let n : Nat := 0
    let addr : Nat := 0
    let bytes : Nat := 0
    let x : Bool := false
    let a : Nat := ((leafAccess n x addr bytes).fst).getD 0
    let b : Nat := 0
    s.canonical ∧ (leafAccess n x addr bytes).fst = some a ∧ (b < a ∨ a + bytes ≤ b)) ∧
   (let s : State := booted
    let n : Nat := 0
    let addr : Nat := 0x7000000
    let bytes : Nat := 4
    let x : Bool := false
    s.canonical ∧ (leafAccess n x addr bytes).fst = none) := by
  refine ⟨?_, ?_, ?_⟩
  all_goals try intros
  all_goals and_intros
  all_goals first
    | decide +kernel +zetaReduce
    | exact hostOpen_of (by decide +kernel +zetaReduce)
    | exact leafReady_of (by decide +kernel +zetaReduce)
    | exact canonical_of (by decide +kernel +zetaReduce)
    | exact rateLegal_of (by decide +kernel +zetaReduce)
    | exact fetchInstr_of (by decide +kernel +zetaReduce)
    | exact onlyMoves_of _ rfl
    | exact Prod.ext rfl (some_of (by decide +kernel +zetaReduce))
    | exact Prod.ext rfl (by decide +kernel +zetaReduce)
    | exact ⟨_, rfl, by decide +kernel +zetaReduce⟩
    | exact some_of (by decide +kernel +zetaReduce)
    | exact peak_of (by decide +kernel +zetaReduce) (by decide +kernel +zetaReduce)
    | exact ok_of (by decide +kernel +zetaReduce)
    | exact error_of (by decide +kernel +zetaReduce)
    | exact pend_of (by decide +kernel +zetaReduce)
    | exact Or.inl ⟨rfl, rfl, rfl, rfl⟩
    | (intros; decide +kernel +zetaReduce)
    | (intro p; exact List.not_mem_nil)
    | exact List.Mem.head _
    | (intros; rfl)

theorem witness_LeafLinks :
   (let s : State := leafOn
    let n : Nat := 0
    let imm : Nat := 0
    let op := LeafOp.c COp.fetch 0 0 0 imm
    let s1 := s.issued n op
    s.leafReady n ∧ (s1.leaf n).task = none) ∧
   (let s : State := leafOn
    let n : Nat := 0
    let rd : Nat := 0
    let imm : Nat := 0
    let op := LeafOp.c COp.release rd 0 0 imm
    let s1 := (s.issued n op).setLeaf n ({ (s.issued n op).leaf n with staged := [op], wait := LeafWait.release rd (imm.testBit 0) })
    s.leafReady n ∧ (s1.leaf n).task = none) ∧
   (let s : State := leafOn.setLeaf 0 { leafOn.leaf 0 with task := some 0 }
    let n : Nat := 0
    let rd : Nat := 0
    let imm : Nat := 0
    let op := LeafOp.c COp.release rd 0 0 imm
    let s1 := (s.issued n op).setLeaf n ({ (s.issued n op).leaf n with staged := [op], wait := LeafWait.release rd (imm.testBit 0) })
    let t : Nat := ((s1.leaf n).task).getD 0
    s.leafReady n ∧ (s1.leaf n).task = some t) ∧
   (let t : Nat := 0
    let s : State := booted.setTask t { booted.task t with mode := TaskMode.running }
    (s.task t).mode = TaskMode.running ∧ s.canAccept (s.task t) = true) ∧
   (let s : State := booted
    let t : Nat := 0
    (s.task t).mode ≠ TaskMode.running) ∧
   (let s : State := leafOn.setQueue 0 { kind := 3 }
    let n : Nat := 0
    let rd : Nat := 0
    let ra : Nat := 0
    let imm : Nat := 0
    let op := LeafOp.c COp.qpop rd ra 0 imm
    let s1 := s.issued n op
    let qid := BitVec.toNat ((s1.leaf n).g ra) % 65536
    let s2 := s1.setLeaf n ({ s1.leaf n with staged := [op], wait := LeafWait.qpop qid rd (imm % 8) })
    s.leafReady n ∧ (s2.queue qid).storable = true) ∧
   (let s : State := leafOn
    let n : Nat := 0
    let rd : Nat := 0
    let ra : Nat := 0
    let imm : Nat := 0
    let op := LeafOp.c COp.qpop rd ra 0 imm
    let s1 := s.issued n op
    let qid := BitVec.toNat ((s1.leaf n).g ra) % 65536
    let s2 := s1.setLeaf n ({ s1.leaf n with staged := [op], wait := LeafWait.qpop qid rd (imm % 8) })
    s.leafReady n ∧ (s2.queue qid).storable = false) ∧
   (let n : Nat := 0
    let qid : Nat := 0
    let rd : Nat := 0
    let pn : Nat := 0
    let s_1 : State := booted.setLeaf n { booted.leaf n with wait := LeafWait.qpop qid rd pn }
    let s_2 : State := s_1.setQueue 0 { kind := 3, visible := [oneItem] }
    let s : State := s_2.setLeaf 0 { s_2.leaf 0 with pc := 1 }
    let s1 : State := (s.readQueue qid (Consumer.leaf n)).1
    let i : QItem := gotItem (s.readQueue qid (Consumer.leaf n)).2
    let w := s1.blockedFor n false
    let s2 : State := ((w.setLeaf n ((w.leaf n).awaitWrites [32 + pn % 8])).deliverWords n pn i.words).1
    s.clocked = true ∧ (s.leaf n).wait = LeafWait.qpop qid rd pn ∧ s.readQueue qid (Consumer.leaf n) = (s1,
      ReadResult.item i) ∧ (w.setLeaf n ((w.leaf n).awaitWrites [32 + pn % 8])).deliverWords n pn i.words = (s2, true)) ∧
   (let s : State := leafOn
    let n : Nat := 0
    let ra : Nat := 0
    let rb : Nat := 0
    let imm : Nat := 0
    let op := LeafOp.c COp.qpush 0 ra rb imm
    let s1 := s.issued n op
    let l := s1.leaf n
    let b := BitVec.toNat (l.g rb)
    let m := LinkMsg.word (BitVec.toNat (l.g ra) % 65536) (if imm.testBit 4 = true then some (b / 65536 % 8,
      BitVec.ofNat 16 b) else none) (l.vreg (imm % 16))
    let s2 := s1.setLeaf n { l with staged := [op], wait := LeafWait.qpush }
    let s3 := s2.setLeaf n ({ s2.leaf n with buffer := (s2.leaf n).buffer ++ [m] })
    let u : State := (s3.drainBuffer n (s3.leaf n).buffer).1
    let rest : List LinkMsg := []
    let w := (u.setLeaf n ({ u.leaf n with  })).portServed n
    s.leafReady n ∧ s3.drainBuffer n (s3.leaf n).buffer = (u, rest) ∧ rest = [] ∧ (w.leaf n).wait = LeafWait.qpush) ∧
   (let s : State := leafOn.setQueue 0 { kind := 3, enable := true, stall := true, log2Words := 0, visible := [oneItem] }
    let n : Nat := 0
    let ra : Nat := 0
    let rb : Nat := 0
    let imm : Nat := 16
    let op := LeafOp.c COp.qpush 0 ra rb imm
    let s1 := s.issued n op
    let l := s1.leaf n
    let b := BitVec.toNat (l.g rb)
    let m := LinkMsg.word (BitVec.toNat (l.g ra) % 65536) (if imm.testBit 4 = true then some (b / 65536 % 8,
      BitVec.ofNat 16 b) else none) (l.vreg (imm % 16))
    let s2 := s1.setLeaf n { l with staged := [op], wait := LeafWait.qpush }
    let s3 := s2.setLeaf n ({ s2.leaf n with buffer := (s2.leaf n).buffer ++ [m] })
    let u : State := (s3.drainBuffer n (s3.leaf n).buffer).1
    let rest : List LinkMsg := (s3.drainBuffer n (s3.leaf n).buffer).2
    s.leafReady n ∧ s3.drainBuffer n (s3.leaf n).buffer = (u, rest) ∧ rest ≠ []) ∧
   (let n : Nat := 0
    let rd : Nat := 1
    let s : State := booted.setLeaf 0 { booted.leaf 0 with commits := [{ qid := 0, rd := 1, status := some 1 }] }
    let st : Nat := 1
    let rest : List CommitWait := []
    let t := s.setLeaf n (({ s.leaf n with commits := rest }).resGpr (rd % 32) (BitVec.ofNat 32 st) 1)
    s.clocked = true ∧ takeStatus (s.leaf n).commits = some (rd, st, rest) ∧ (t.leaf n).wait ≠ LeafWait.status) ∧
   (let n : Nat := 0
    let rd : Nat := 1
    let s : State := booted.setLeaf 0 { booted.leaf 0 with commits := [{ qid := 0, rd := 1, status := some 1 }], wait := .status }
    let st : Nat := 1
    let rest : List CommitWait := []
    let t := s.setLeaf n (({ s.leaf n with commits := rest }).resGpr (rd % 32) (BitVec.ofNat 32 st) 1)
    s.clocked = true ∧ takeStatus (s.leaf n).commits = some (rd, st, rest) ∧ (t.leaf n).wait = LeafWait.status ∧
      (t.leaf n).needsStatus (t.leaf n).staged = false) ∧
   (let s : State := leafOn.setLeaf 0 { leafOn.leaf 0 with commits := [{ qid := 0, rd := 1, status := none }] }
    let n : Nat := 0
    let ops : List LeafOp := [.c .mov 2 1 0 0]
    (s.leaf n).needsStatus ops = true) ∧
   (let s : State := leafOn.setLeaf 0 { leafOn.leaf 0 with gp := [(1, 1#32)] }
    let n : Nat := 0
    let ra : Nat := 0
    let rb : Nat := 1
    let op := LeafOp.c COp.signal 0 ra rb 0
    let l := (s.issued n op).leaf n
    s.leafReady n ∧ l.g rb ≠ 0) ∧
   (let s : State := leafOn
    let n : Nat := 0
    let ra : Nat := 0
    let rb : Nat := 0
    let op := LeafOp.c COp.signal 0 ra rb 0
    let l := (s.issued n op).leaf n
    s.leafReady n ∧ l.g rb = 0) := by
  refine ⟨?_, ?_, ?_, ?_, ?_, ?_, ?_, ?_, ?_, ?_, ?_, ?_, ?_, ?_, ?_⟩
  all_goals try intros
  all_goals and_intros
  all_goals first
    | decide +kernel +zetaReduce
    | exact hostOpen_of (by decide +kernel +zetaReduce)
    | exact leafReady_of (by decide +kernel +zetaReduce)
    | exact canonical_of (by decide +kernel +zetaReduce)
    | exact rateLegal_of (by decide +kernel +zetaReduce)
    | exact fetchInstr_of (by decide +kernel +zetaReduce)
    | exact onlyMoves_of _ rfl
    | exact Prod.ext rfl (some_of (by decide +kernel +zetaReduce))
    | exact Prod.ext rfl (by decide +kernel +zetaReduce)
    | exact ⟨_, rfl, by decide +kernel +zetaReduce⟩
    | exact some_of (by decide +kernel +zetaReduce)
    | exact peak_of (by decide +kernel +zetaReduce) (by decide +kernel +zetaReduce)
    | exact ok_of (by decide +kernel +zetaReduce)
    | exact error_of (by decide +kernel +zetaReduce)
    | exact pend_of (by decide +kernel +zetaReduce)
    | exact Or.inl ⟨rfl, rfl, rfl, rfl⟩
    | (intros; decide +kernel +zetaReduce)
    | (intro p; exact List.not_mem_nil)
    | exact List.Mem.head _
    | (intros; rfl)

theorem witness_LeafDebugAndReset :
   (let n : Nat := 0
    let s : State := leafOn.setLeaf n { leafOn.leaf n with halted := false }
    n < 192 ∧ s.hostOpen (Reg.QUI_DBG_CTRL (n / 8) (n % 8)) ∧ s.leafInReset n = false ∧ (s.leaf n).halted = false) ∧
   (let s : State := booted
    let n : Nat := 0
    n < 192 ∧ s.hostOpen (Reg.QUI_DBG_CTRL (n / 8) (n % 8)) ∧ s.leafInReset n = true) ∧
   (let n : Nat := 0
    let s : State := leafOn.setLeaf n { leafOn.leaf n with halted := true, heldDispatch := none, withdrawn := 0 }
    let s1 := s.setLeaf n ({ s.leaf n with stepping := true, skipBreak := true })
    let s2 := s1.issueBundle n (decodeBundle (s1.bundleAt n (s.leaf n).pc))
    n < 192 ∧ s.hostOpen (Reg.QUI_DBG_CTRL (n / 8) (n % 8)) ∧ s.leafInReset n = false ∧ (s.leaf n).halted = true ∧
      (s.leaf n).heldDispatch = none ∧ (s.leaf n).withdrawn = 0 ∧ (s2.leaf n).rep = none) ∧
   (let n : Nat := 0
    let s : State := leafOn.setLeaf n { leafOn.leaf n with haltReq := true, halted := false, rep := none, wait := LeafWait.none, staged := [] }
    s.clocked = true ∧ (s.leaf n).haltReq = true ∧ (s.leaf n).halted = false ∧ (s.leaf n).rep = none ∧
      s.leafInReset n = false ∧ (s.leaf n).wait = LeafWait.none ∧ (s.leaf n).staged = []) ∧
   (let n : Nat := 0
    let s : State := leafOn.setLeaf n { leafOn.leaf n with halted := true }
    let sel := s.fld (Reg.QUI_DBG_REG_SEL (n / 8) (n % 8)) 14 8
    n < 192 ∧ s.hostOpen (Reg.QUI_DBG_REG_DATA (n / 8) (n % 8)) ∧ (s.leaf n).halted = true ∧ sel < 64) ∧
   (let n : Nat := 0
    let s_1 : State := leafOn.setLeaf n { leafOn.leaf n with halted := true }
    let s : State := s_1.wr (Reg.QUI_DBG_REG_SEL 0 0) (BitVec.ofNat 32 (84 * 256))
    let sel := s.fld (Reg.QUI_DBG_REG_SEL (n / 8) (n % 8)) 14 8
    n < 192 ∧ s.hostOpen (Reg.QUI_DBG_REG_DATA (n / 8) (n % 8)) ∧ (s.leaf n).halted = true ∧ sel = 84) ∧
   (let n : Nat := 0
    let s_1 : State := leafOn.setLeaf n { leafOn.leaf n with halted := true }
    let s : State := s_1.wr (Reg.QUI_DBG_REG_SEL 0 0) (BitVec.ofNat 32 (86 * 256))
    let v : W32 := 0#32
    let sel := s.fld (Reg.QUI_DBG_REG_SEL (n / 8) (n % 8)) 14 8
    n < 192 ∧ s.hostOpen (Reg.QUI_DBG_REG_DATA (n / 8) (n % 8)) ∧ (s.leaf n).halted = true ∧ sel = 86 ∧
      BitVec.toNat v < 8192) ∧
   (let n : Nat := 0
    let s : State := leafOn.setLeaf n { leafOn.leaf n with halted := false }
    n < 192 ∧ s.hostOpen (Reg.QUI_DBG_REG_DATA (n / 8) (n % 8)) ∧ (s.leaf n).halted = false) ∧
   (let s : State := leafOn
    let q : Nat := 0
    let v : W32 := 1#32
    let a := Reg.QUI_LEAF_CTRL q
    let l : Nat := 0
    q < 24 ∧ s.hostOpen (Reg.QUI_LEAF_CTRL q) ∧ l < 8 ∧ bitOf v l = true ∧ bitOf (s.rd a) l = false ∧ (∀ (i : Nat),
      i < 8 → i ≠ l → bitOf v i = bitOf (s.rd a) i)) ∧
   (let s : State := leafOn
    let q : Nat := 0
    let v : W32 := 0#32
    let a := Reg.QUI_LEAF_CTRL q
    q < 24 ∧ s.hostOpen (Reg.QUI_LEAF_CTRL q) ∧ (∀ (i : Nat), i < 8 → bitOf v i = true → bitOf (s.rd a) i = true)) ∧
   (let s : State := leafOn
    let n : Nat := 0
    n < 192 ∧ mapWf (fun x => { }) s.qui.leaves = true) ∧
   (let a : Nat := quireBase
    let bytes : Nat := 1
    let q : Nat := 0
    let s : State := leafOn.setCluster q { leafOn.cluster q with isolated := false }
    s.clocked = true ∧ quireBase ≤ a ∧ a < quireBase + 402653184 ∧ spineTarget a = SpineTarget.quire q ∧
      (s.cluster q).isolated = false ∧ 0 < bytes ∧ bytes ≤ 64 - a % 64) ∧
   (let a : Nat := quireBase
    let data : List Byte := [1#8]
    let q : Nat := 0
    let s : State := leafOn.setCluster q { leafOn.cluster q with isolated := false }
    s.clocked = true ∧ quireBase ≤ a ∧ a < quireBase + 402653184 ∧ spineTarget a = SpineTarget.quire q ∧
      (s.cluster q).isolated = false ∧ data ≠ [] ∧ data.length ≤ 64 - a % 64) ∧
   (let a : Nat := quireBase + 0x30000
    let bytes : Nat := 1
    let n : Nat := 0
    let s : State := leafOn.setCluster (n / 8) { leafOn.cluster (n / 8) with isolated := false }
    s.clocked = true ∧ quireBase ≤ a ∧ a < quireBase + 402653184 ∧ spineTarget a = SpineTarget.im n ∧
      (s.cluster (n / 8)).isolated = false ∧ s.imOpen n = false ∧ 0 < bytes ∧ bytes ≤ 64 - a % 64) := by
  refine ⟨?_, ?_, ?_, ?_, ?_, ?_, ?_, ?_, ?_, ?_, ?_, ?_, ?_, ?_⟩
  all_goals try intros
  all_goals and_intros
  all_goals first
    | decide +kernel +zetaReduce
    | exact hostOpen_of (by decide +kernel +zetaReduce)
    | exact leafReady_of (by decide +kernel +zetaReduce)
    | exact canonical_of (by decide +kernel +zetaReduce)
    | exact rateLegal_of (by decide +kernel +zetaReduce)
    | exact fetchInstr_of (by decide +kernel +zetaReduce)
    | exact onlyMoves_of _ rfl
    | exact Prod.ext rfl (some_of (by decide +kernel +zetaReduce))
    | exact Prod.ext rfl (by decide +kernel +zetaReduce)
    | exact ⟨_, rfl, by decide +kernel +zetaReduce⟩
    | exact some_of (by decide +kernel +zetaReduce)
    | exact peak_of (by decide +kernel +zetaReduce) (by decide +kernel +zetaReduce)
    | exact ok_of (by decide +kernel +zetaReduce)
    | exact error_of (by decide +kernel +zetaReduce)
    | exact pend_of (by decide +kernel +zetaReduce)
    | exact Or.inl ⟨rfl, rfl, rfl, rfl⟩
    | (intros; decide +kernel +zetaReduce)
    | (intro p; exact List.not_mem_nil)
    | exact List.Mem.head _
    | (intros; rfl)

theorem witness_DmaChannels :
   (let d : Desc := oneDesc 65535 0 false []
    let s_1 : State := booted.setChan (d.fld 16 9 0) { booted.chan (d.fld 16 9 0) with enable := true }
    let s : State := s_1.setBit (Reg.DMA_CH_CFG (d.fld 16 9 0)) 31 false
    let c := d.fld 16 9 0
    let x := s.chan c
    s.clocked = true ∧ d.carrier = 65535 ∧ progAddr (d.w64 24) = d.w64 24 ∧ x.enable = true ∧
      s.bit (Reg.DMA_CH_CFG c) 31 = false ∧ x.list.length < 16) ∧
   (let d : Desc := oneDesc 65535 0 false []
    let s_1 : State := booted.setChan (d.fld 16 9 0) { booted.chan (d.fld 16 9 0) with enable := true }
    let s_2 : State := s_1.setBit (Reg.DMA_CH_CFG (d.fld 16 9 0)) 31 false
    let s : State := s_2.setChan 0 { s_2.chan 0 with list := List.replicate 16 (oneProg 0x8000000000000000#64 0 none) }
    let c := d.fld 16 9 0
    let x := s.chan c
    s.clocked = true ∧ d.carrier = 65535 ∧ progAddr (d.w64 24) = d.w64 24 ∧ x.enable = true ∧
      s.bit (Reg.DMA_CH_CFG c) 31 = false ∧ 16 ≤ x.list.length) ∧
   (let d : Desc := oneDesc 65535 0 false []
    let s_1 : State := booted.setChan (d.fld 16 9 0) { booted.chan (d.fld 16 9 0) with enable := true }
    let s : State := s_1.setBit (Reg.DMA_CH_CFG (d.fld 16 9 0)) 31 true
    let c := d.fld 16 9 0
    let x := s.chan c
    s.clocked = true ∧ d.carrier = 65535 ∧ progAddr (d.w64 24) = d.w64 24 ∧ x.enable = true ∧
      s.bit (Reg.DMA_CH_CFG c) 31 = true) ∧
   (let d : Desc := oneDesc 65535 0 false []
    let s : State := booted.setChan (d.fld 16 9 0) { booted.chan (d.fld 16 9 0) with enable := false }
    let c := d.fld 16 9 0
    let x := s.chan c
    s.clocked = true ∧ d.carrier = 65535 ∧ progAddr (d.w64 24) = d.w64 24 ∧ x.enable = false) ∧
   (let c : Nat := 0
    let s_1 : State := booted.setChan c { booted.chan c with enable := true, pqStopped := false }
    let s_2 : State := s_1.setBit (Reg.DMA_CH_CFG c) 31 true
    let s : State := s_2.setQueue 0 { kind := 3, visible := [oneItem] }
    let s1 : State := (s.readQueue (s.fld (Reg.DMA_CH_CFG c) 15 0) (runReader c)).1
    let i : QItem := gotItem (s.readQueue (s.fld (Reg.DMA_CH_CFG c) 15 0) (runReader c)).2
    s.clocked = true ∧ s.bit (Reg.DMA_CH_CFG c) 31 = true ∧ (s.chan c).enable = true ∧ (s.chan c).pqStopped = false ∧
      (s.chan c).list.length < 16 ∧ s.readQueue (s.fld (Reg.DMA_CH_CFG c) 15 0) (runReader c) = (s1, ReadResult.item i)) ∧
   (let c : Nat := 0
    let s_1 : State := booted.setChan c { booted.chan c with enable := true, pqStopped := false }
    let s_2 : State := s_1.setBit (Reg.DMA_CH_CFG c) 31 true
    let s : State := s_2.setQueue 0 { kind := 3, released := [(runReader 0, stDISABLED)] }
    let s1 : State := (s.readQueue (s.fld (Reg.DMA_CH_CFG c) 15 0) (runReader c)).1
    s.clocked = true ∧ s.bit (Reg.DMA_CH_CFG c) 31 = true ∧ (s.chan c).enable = true ∧ (s.chan c).pqStopped = false ∧
      (s.chan c).list.length < 16 ∧ s.readQueue (s.fld (Reg.DMA_CH_CFG c) 15 0) (runReader c) = (s1,
      ReadResult.ended stDISABLED)) ∧
   (let c : Nat := 0
    let s : State := booted.setChan c { booted.chan c with enable := true }
    let w : QWord := (0xFFFF : QWord) <<< 96
    (runItemProg w).fst.clamped = false ∧ (runItemProg w).fst.carrier = 65535 ∧ (s.chan c).enable = true ∧
      (s.chan c).list.length < 16) ∧
   (let c : Nat := 0
    let s : State := booted.setChan c { booted.chan c with enable := false }
    let w : QWord := (0xFFFF : QWord) <<< 96
    (runItemProg w).fst.clamped = false ∧ (runItemProg w).fst.carrier = 65535 ∧ (s.chan c).enable = false) ∧
   (let c : Nat := 0
    let p : DmaProg := { ((oneProg 0#64 0 none) : DmaProg) with started := false }
    let rest : List DmaProg := []
    let s : State := booted.setChan c { booted.chan c with list := p :: rest, enable := true }
    s.clocked = true ∧ (s.chan c).list = p :: rest ∧ (s.chan c).enable = true ∧ p.started = false) ∧
   (let s : State := booted.setChan 0 { booted.chan 0 with list := [oneProg 0x8000000000000000#64 0 none] }
    let d : Desc := oneDesc 0 0 false []
    let c := d.fld 16 9 0
    let t := s.finishRead c
    s.clocked = true ∧ ((t.chan c).list.any fun p => p.tag == d.w 20) = true) ∧
   (let s : State := booted
    let d : Desc := oneDesc 0 0 false []
    let c := d.fld 16 9 0
    let t := s.finishRead c
    s.clocked = true ∧ (t.chan c).list = []) ∧
   (let d : Desc := oneDesc 0 0 false []
    let s : State := booted.setChan (d.fld 16 9 0) { booted.chan (d.fld 16 9 0) with enable := true }
    let c := d.fld 16 9 0
    let x := s.chan c
    s.clocked = true ∧ ((s.queue (s.fld (Reg.DMA_CH_CFG c) 15 0)).served.any fun x => x.fst == runReader c) = false ∧
      x.enable = true ∧ List.filter (fun x => !x.started) x.list = []) ∧
   (let d : Desc := oneDesc 0 0 false []
    let s : State := booted.setChan (d.fld 16 9 0) { booted.chan (d.fld 16 9 0) with enable := false }
    let c := d.fld 16 9 0
    let x := s.chan c
    s.clocked = true ∧ ((s.queue (s.fld (Reg.DMA_CH_CFG c) 15 0)).served.any fun x => x.fst == runReader c) = false ∧
      x.enable = false) ∧
   (let c : Nat := 0
    let s : State := booted.setChan c { booted.chan c with enablePending := true }
    (s.chan c).enablePending = true ∧ (s.chan c).current = none) := by
  refine ⟨?_, ?_, ?_, ?_, ?_, ?_, ?_, ?_, ?_, ?_, ?_, ?_, ?_, ?_⟩
  all_goals try intros
  all_goals and_intros
  all_goals first
    | decide +kernel +zetaReduce
    | exact hostOpen_of (by decide +kernel +zetaReduce)
    | exact leafReady_of (by decide +kernel +zetaReduce)
    | exact canonical_of (by decide +kernel +zetaReduce)
    | exact rateLegal_of (by decide +kernel +zetaReduce)
    | exact fetchInstr_of (by decide +kernel +zetaReduce)
    | exact onlyMoves_of _ rfl
    | exact Prod.ext rfl (some_of (by decide +kernel +zetaReduce))
    | exact Prod.ext rfl (by decide +kernel +zetaReduce)
    | exact ⟨_, rfl, by decide +kernel +zetaReduce⟩
    | exact some_of (by decide +kernel +zetaReduce)
    | exact peak_of (by decide +kernel +zetaReduce) (by decide +kernel +zetaReduce)
    | exact ok_of (by decide +kernel +zetaReduce)
    | exact error_of (by decide +kernel +zetaReduce)
    | exact pend_of (by decide +kernel +zetaReduce)
    | exact Or.inl ⟨rfl, rfl, rfl, rfl⟩
    | (intros; decide +kernel +zetaReduce)
    | (intro p; exact List.not_mem_nil)
    | exact List.Mem.head _
    | (intros; rfl)

theorem witness_DmaInstructions :
   (let c : Nat := 0
    let p : DmaProg := oneProg 0x8000000000000000#64 0 none
    let s_1 : State := booted.setChan 0 { booted.chan 0 with enable := true, list := [p] }
    let s : State := s_1.setFn 0 { busMaster := true }
    let inst : List W32 := [0x0#32, 0x0#32, 0x0#32, 0x0#32, 0x0#32, 0x0#32, 0x0#32, 0x0#32]
    let s1 : State := (s.fetchAt c p p.index (inst.take 8)).1.drawn
    let p1 : DmaProg := { p with fetched := [(s.fetchAt c p p.index (inst.take 8)).2] }
    let i : List W32 := inst
    s.clocked = true ∧ (s.chan c).current = some p ∧ p.wait = none ∧ p.move = none ∧ s.fetchInstr c p inst = (s1, p1,
      some i) ∧ bitsOf (instrW i 0) 31 28 = 0) ∧
   (let c : Nat := 0
    let p : DmaProg := oneProg 0x8000000000000000#64 0 none
    let s_1 : State := booted.setChan 0 { booted.chan 0 with enable := true, list := [p] }
    let s : State := s_1.setFn 0 { busMaster := true }
    let inst : List W32 := [0x10000000#32, 0x40#32, 0x200000#32, 0x100#32, 0x201000#32, 0x100#32, 0x0#32, 0x0#32]
    let s1 : State := (s.fetchAt c p p.index (inst.take 8)).1.drawn
    let p1 : DmaProg := { p with fetched := [(s.fetchAt c p p.index (inst.take 8)).2] }
    let i : List W32 := inst
    let host : List Byte := []
    let len := BitVec.toNat (instrW i 1)
    let a := moveSide (bitsOf (instrW i 0) 27 26) (bitsOf (instrW i 0) 23 18) len (signedOf 32 (BitVec.toNat (instrW i 6))) (instrW64 i 2) p1.srcCur
    let b := moveSide (bitsOf (instrW i 0) 25 24) (bitsOf (instrW i 0) 17 12) len (signedOf 32 (BitVec.toNat (instrW i 7))) (instrW64 i 4) p1.dstCur
    let t := s1.setProg c { p1 with move := some { src := a.fst, sw := bitsOf (instrW i 0) 23 18, dst := b.fst, dw := bitsOf (instrW i 0) 17 12, host := host, parts := moveOrder a.fst (bitsOf (instrW i 0) 23 18) b.fst (bitsOf (instrW i 0) 17 12) len, srcCur := a.snd, dstCur := b.snd } }
    s.clocked = true ∧ (s.chan c).current = some p ∧ p.wait = none ∧ p.move = none ∧ s.fetchInstr c p inst = (s1, p1,
      some i) ∧ c < 1024 ∧ bitsOf (instrW i 0) 31 28 = 1 ∧ bitsOf (instrW i 0) 27 26 < 3 ∧ bitsOf (instrW i 0) 25 24 < 3 ∧
      wrapField (bitsOf (instrW i 0) 23 18) = bitsOf (instrW i 0) 23 18 ∧
      wrapField (bitsOf (instrW i 0) 17 12) = bitsOf (instrW i 0) 17 12 ∧ 0 < len ∧ (t.chan c).moving.isSome = true) ∧
   (let c : Nat := 0
    let p : DmaProg := oneProg 0x8000000000000000#64 1 none
    let s_1 : State := booted.setChan 0 { booted.chan 0 with enable := true, list := [p] }
    let s : State := s_1.setFn 0 { busMaster := true }
    let inst : List W32 := [0x20000000#32, 0x2#32, 0x0#32, 0x0#32, 0x0#32, 0x0#32, 0x0#32, 0x0#32]
    let s1 : State := (s.fetchAt c p p.index (inst.take 8)).1.drawn
    let p1 : DmaProg := { p with fetched := [(s.fetchAt c p p.index (inst.take 8)).2] }
    let i : List W32 := inst
    let left := p1.loop0.getD (BitVec.toNat (instrW i 1) - 1)
    s.clocked = true ∧ (s.chan c).current = some p ∧ p.wait = none ∧ p.move = none ∧ s.fetchInstr c p inst = (s1, p1,
      some i) ∧ bitsOf (instrW i 0) 31 28 = 2 ∧ bitOf (instrW i 0) 16 = false ∧ bitsOf (instrW i 0) 11 0 < p1.index ∧
      instrW i 1 ≠ 0 ∧ 0 < left) ∧
   (let c : Nat := 0
    let p : DmaProg := oneProg 0x8000000000000000#64 1 none
    let s_1 : State := booted.setChan 0 { booted.chan 0 with enable := true, list := [p] }
    let s : State := s_1.setFn 0 { busMaster := true }
    let inst : List W32 := [0x20000000#32, 0x1#32, 0x0#32, 0x0#32, 0x0#32, 0x0#32, 0x0#32, 0x0#32]
    let s1 : State := (s.fetchAt c p p.index (inst.take 8)).1.drawn
    let p1 : DmaProg := { p with fetched := [(s.fetchAt c p p.index (inst.take 8)).2] }
    let i : List W32 := inst
    let left := p1.loop0.getD (BitVec.toNat (instrW i 1) - 1)
    s.clocked = true ∧ (s.chan c).current = some p ∧ p.wait = none ∧ p.move = none ∧ s.fetchInstr c p inst = (s1, p1,
      some i) ∧ bitsOf (instrW i 0) 31 28 = 2 ∧ bitOf (instrW i 0) 16 = false ∧ bitsOf (instrW i 0) 11 0 < p1.index ∧
      instrW i 1 ≠ 0 ∧ left = 0) ∧
   (let c : Nat := 0
    let p : DmaProg := oneProg 0x8000000000000000#64 0 none
    let s_1 : State := booted.setChan 0 { booted.chan 0 with enable := true, list := [p] }
    let s_2 : State := s_1.setFn 0 { busMaster := true }
    let s : State := s_2.setQueue 0 { kind := 3 }
    let inst : List W32 := [0x30000000#32, 0x0#32, 0x0#32, 0x0#32, 0x0#32, 0x0#32, 0x0#32, 0x0#32]
    let s1 : State := (s.fetchAt c p p.index (inst.take 8)).1.drawn
    let p1 : DmaProg := { p with fetched := [(s.fetchAt c p p.index (inst.take 8)).2] }
    let i : List W32 := inst
    let dl := s1.waitDeadlineU p1 (bitsOf (instrW i 2) 19 0)
    s.clocked = true ∧ (s.chan c).current = some p ∧ p.wait = none ∧ p.move = none ∧ s.fetchInstr c p inst = (s1, p1,
      some i) ∧ bitsOf (instrW i 0) 31 28 = 3 ∧ bitOf (instrW i 0) 27 = false ∧ bitsOf (instrW i 2) 19 0 ≤ 1000000 ∧
      (s1.queue (bitsOf (instrW i 0) 15 0)).storable = true ∧ s1.tb.timeU ≤ dl) ∧
   (let c : Nat := 0
    let p : DmaProg := oneProg 0x8000000000000000#64 0 none
    let s_1 : State := booted.setChan 0 { booted.chan 0 with enable := true, list := [p] }
    let s_2 : State := s_1.setFn 0 { busMaster := true }
    let s_3 : State := s_2.setQueue 0 { kind := 3 }
    let s : State := { s_3 with tb.offsetU := 2 ^ 90 }
    let inst : List W32 := [0x30000000#32, 0x0#32, 0x0#32, 0x0#32, 0x0#32, 0x0#32, 0x0#32, 0x0#32]
    let s1 : State := (s.fetchAt c p p.index (inst.take 8)).1.drawn
    let p1 : DmaProg := { p with fetched := [(s.fetchAt c p p.index (inst.take 8)).2] }
    let i : List W32 := inst
    let dl := s1.waitDeadlineU p1 (bitsOf (instrW i 2) 19 0)
    s.clocked = true ∧ (s.chan c).current = some p ∧ p.wait = none ∧ p.move = none ∧ s.fetchInstr c p inst = (s1, p1,
      some i) ∧ bitsOf (instrW i 0) 31 28 = 3 ∧ bitOf (instrW i 0) 27 = false ∧ bitsOf (instrW i 2) 19 0 ≤ 1000000 ∧
      (s1.queue (bitsOf (instrW i 0) 15 0)).storable = true ∧ dl < s1.tb.timeU) ∧
   (let c : Nat := 0
    let p : DmaProg := oneProg 0x8000000000000000#64 0 none
    let s_1 : State := booted.setChan 0 { booted.chan 0 with enable := true, list := [p] }
    let s : State := s_1.setFn 0 { busMaster := true }
    let inst : List W32 := [0x30000000#32, 0x0#32, 0x0#32, 0x0#32, 0x0#32, 0x0#32, 0x0#32, 0x0#32]
    let s1 : State := (s.fetchAt c p p.index (inst.take 8)).1.drawn
    let p1 : DmaProg := { p with fetched := [(s.fetchAt c p p.index (inst.take 8)).2] }
    let i : List W32 := inst
    s.clocked = true ∧ (s.chan c).current = some p ∧ p.wait = none ∧ p.move = none ∧ s.fetchInstr c p inst = (s1, p1,
      some i) ∧ bitsOf (instrW i 0) 31 28 = 3 ∧ bitOf (instrW i 0) 27 = false ∧ bitsOf (instrW i 2) 19 0 ≤ 1000000 ∧
      (s1.queue (bitsOf (instrW i 0) 15 0)).storable = false) ∧
   (let c : Nat := 0
    let p : DmaProg := oneProg 0x8000000000000000#64 0 none
    let s_1 : State := booted.setChan 0 { booted.chan 0 with enable := true, list := [p] }
    let s : State := s_1.setFn 0 { busMaster := true }
    let inst : List W32 := [0x38000000#32, 0x80000000#32, 0x0#32, 0x0#32, 0x0#32, 0x0#32, 0x0#32, 0x0#32]
    let s1 : State := (s.fetchAt c p p.index (inst.take 8)).1.drawn
    let p1 : DmaProg := { p with fetched := [(s.fetchAt c p p.index (inst.take 8)).2] }
    let i : List W32 := inst
    let dl := s1.waitDeadlineU p1 (bitsOf (instrW i 2) 19 0)
    let t := (s1.progBoundary p1 0 + signedOf 32 (BitVec.toNat (instrW i 1))) * uPerNs
    s.clocked = true ∧ (s.chan c).current = some p ∧ p.wait = none ∧ p.move = none ∧ s.fetchInstr c p inst = (s1, p1,
      some i) ∧ bitsOf (instrW i 0) 31 28 = 3 ∧ bitOf (instrW i 0) 27 = true ∧ bitsOf (instrW i 2) 19 0 ≤ 1000000 ∧
      s1.tb.timeU ≤ dl ∧ t ≤ s1.tb.timeU) ∧
   (let c : Nat := 0
    let p : DmaProg := oneProg 0x8000000000000000#64 0 none
    let s_1 : State := booted.setChan 0 { booted.chan 0 with enable := true, list := [p] }
    let s : State := s_1.setFn 0 { busMaster := true }
    let inst : List W32 := [0x38000000#32, 0x7fffffff#32, 0x0#32, 0x0#32, 0x0#32, 0x0#32, 0x0#32, 0x0#32]
    let s1 : State := (s.fetchAt c p p.index (inst.take 8)).1.drawn
    let p1 : DmaProg := { p with fetched := [(s.fetchAt c p p.index (inst.take 8)).2] }
    let i : List W32 := inst
    let dl := s1.waitDeadlineU p1 (bitsOf (instrW i 2) 19 0)
    let t := (s1.progBoundary p1 0 + signedOf 32 (BitVec.toNat (instrW i 1))) * uPerNs
    s.clocked = true ∧ (s.chan c).current = some p ∧ p.wait = none ∧ p.move = none ∧ s.fetchInstr c p inst = (s1, p1,
      some i) ∧ bitsOf (instrW i 0) 31 28 = 3 ∧ bitOf (instrW i 0) 27 = true ∧ bitsOf (instrW i 2) 19 0 ≤ 1000000 ∧
      s1.tb.timeU ≤ dl ∧ s1.tb.timeU < t) ∧
   (let c : Nat := 0
    let p : DmaProg := oneProg 0x8000000000000000#64 0 none
    let s_1 : State := booted.setChan 0 { booted.chan 0 with enable := true, list := [p] }
    let s_2 : State := s_1.setFn 0 { busMaster := true }
    let s : State := { s_2 with tb.offsetU := 2 ^ 90 }
    let inst : List W32 := [0x38000000#32, 0x7fffffff#32, 0x0#32, 0x0#32, 0x0#32, 0x0#32, 0x0#32, 0x0#32]
    let s1 : State := (s.fetchAt c p p.index (inst.take 8)).1.drawn
    let p1 : DmaProg := { p with fetched := [(s.fetchAt c p p.index (inst.take 8)).2] }
    let i : List W32 := inst
    let dl := s1.waitDeadlineU p1 (bitsOf (instrW i 2) 19 0)
    s.clocked = true ∧ (s.chan c).current = some p ∧ p.wait = none ∧ p.move = none ∧ s.fetchInstr c p inst = (s1, p1,
      some i) ∧ bitsOf (instrW i 0) 31 28 = 3 ∧ bitOf (instrW i 0) 27 = true ∧ bitsOf (instrW i 2) 19 0 ≤ 1000000 ∧
      dl < s1.tb.timeU) ∧
   (let c : Nat := 0
    let p : DmaProg := oneProg 0x8000000000000000#64 0 none
    let s_1 : State := booted.setChan 0 { booted.chan 0 with enable := true, list := [p] }
    let s : State := s_1.setFn 0 { busMaster := true }
    let inst : List W32 := [0x40000000#32, 0x1#32, 0x0#32, 0x0#32, 0x0#32, 0x0#32, 0x0#32, 0x0#32]
    let s1 : State := (s.fetchAt c p p.index (inst.take 8)).1.drawn
    let p1 : DmaProg := { p with fetched := [(s.fetchAt c p p.index (inst.take 8)).2] }
    let i : List W32 := inst
    let mask := instrW i 1 ||| if (bitOf (instrW i 0) 26 && p1.timedOut) = true then BitVec.ofNat 32 (2 ^ bitsOf (instrW i 0) 25 21) else 0
    s.clocked = true ∧ (s.chan c).current = some p ∧ p.wait = none ∧ p.move = none ∧ s.fetchInstr c p inst = (s1, p1,
      some i) ∧ bitsOf (instrW i 0) 31 28 = 4 ∧ bitOf (instrW i 0) 27 = false ∧ s.writesHeld c = false ∧ mask ≠ 0) ∧
   (let c : Nat := 0
    let p : DmaProg := oneProg 0x8000000000000000#64 0 none
    let s_1 : State := booted.setChan 0 { booted.chan 0 with enable := true, list := [p] }
    let s : State := s_1.setFn 0 { busMaster := true }
    let inst : List W32 := [0x40000000#32, 0x0#32, 0x0#32, 0x0#32, 0x0#32, 0x0#32, 0x0#32, 0x0#32]
    let s1 : State := (s.fetchAt c p p.index (inst.take 8)).1.drawn
    let p1 : DmaProg := { p with fetched := [(s.fetchAt c p p.index (inst.take 8)).2] }
    let i : List W32 := inst
    let mask := instrW i 1 ||| if (bitOf (instrW i 0) 26 && p1.timedOut) = true then BitVec.ofNat 32 (2 ^ bitsOf (instrW i 0) 25 21) else 0
    s.clocked = true ∧ (s.chan c).current = some p ∧ p.wait = none ∧ p.move = none ∧ s.fetchInstr c p inst = (s1, p1,
      some i) ∧ bitsOf (instrW i 0) 31 28 = 4 ∧ bitOf (instrW i 0) 27 = false ∧ s.writesHeld c = false ∧ mask = 0) ∧
   (let c : Nat := 0
    let p : DmaProg := oneProg 0x8000000000000000#64 0 none
    let s_1 : State := booted.setChan 0 { booted.chan 0 with enable := true, list := [p] }
    let s_2 : State := s_1.setFn 0 { busMaster := true }
    let s : State := s_2.setQueue 0 { kind := 3, enable := true }
    let inst : List W32 := [0x48000000#32, 0x0#32, 0x0#32, 0x0#32, 0x0#32, 0x0#32, 0x0#32, 0x0#32]
    let s1 : State := (s.fetchAt c p p.index (inst.take 8)).1.drawn
    let p1 : DmaProg := { p with fetched := [(s.fetchAt c p p.index (inst.take 8)).2] }
    let i : List W32 := inst
    let x := s1.pushItem (bitsOf (instrW i 0) 15 0) (Producer.dma c) (bitsOf (instrW i 2) 18 16) (BitVec.setWidth 16 (instrW i 2)) [signalWord c p1 s1.stampNow]
    s.clocked = true ∧ (s.chan c).current = some p ∧ p.wait = none ∧ p.move = none ∧ s.fetchInstr c p inst = (s1, p1,
      some i) ∧ bitsOf (instrW i 0) 31 28 = 4 ∧ bitOf (instrW i 0) 27 = true ∧ s.writesHeld c = false ∧ x.snd = stOK) ∧
   (let c : Nat := 0
    let p : DmaProg := oneProg 0x8000000000000000#64 0 none
    let s_1 : State := booted.setChan 0 { booted.chan 0 with enable := true, list := [p] }
    let s_2 : State := s_1.setFn 0 { busMaster := true }
    let s : State := s_2.setQueue 0 { kind := 3 }
    let inst : List W32 := [0x48000000#32, 0x0#32, 0x0#32, 0x0#32, 0x0#32, 0x0#32, 0x0#32, 0x0#32]
    let s1 : State := (s.fetchAt c p p.index (inst.take 8)).1.drawn
    let p1 : DmaProg := { p with fetched := [(s.fetchAt c p p.index (inst.take 8)).2] }
    let i : List W32 := inst
    let x := s1.pushItem (bitsOf (instrW i 0) 15 0) (Producer.dma c) (bitsOf (instrW i 2) 18 16) (BitVec.setWidth 16 (instrW i 2)) [signalWord c p1 s1.stampNow]
    s.clocked = true ∧ (s.chan c).current = some p ∧ p.wait = none ∧ p.move = none ∧ s.fetchInstr c p inst = (s1, p1,
      some i) ∧ bitsOf (instrW i 0) 31 28 = 4 ∧ bitOf (instrW i 0) 27 = true ∧ s.writesHeld c = false ∧ x.snd ≠ stOK) ∧
   (let c : Nat := 0
    let p : DmaProg := oneProg 0x8000000000000000#64 0 none
    let s_1 : State := booted.setChan 0 { booted.chan 0 with enable := true, list := [p] }
    let s : State := s_1.setFn 0 { busMaster := true }
    let inst : List W32 := []
    let s1 : State := (s.fetchAt c p p.index (inst.take 8)).1.drawn
    let p1 : DmaProg := { p with fetched := [(s.fetchAt c p p.index (inst.take 8)).2] }
    s.clocked = true ∧ (s.chan c).current = some p ∧ p.wait = none ∧ p.move = none ∧ s.fetchInstr c p inst = (s1, p1,
      none) ∧ ((s1.badProg c p p.pc p.pc).chan c).current = none) ∧
   (let c : Nat := 0
    let off : Nat := 0
    let n : Nat := 64
    let m : DmaMove := { src := 0x30000000000, sw := 0, dst := quireBase + 0x200000, dw := 0, host := [], parts := [(0, 64)], srcCur := 0, dstCur := 0 }
    let p : DmaProg := { oneProg 0 0 none with move := some m }
    let s : State := booted.setChan 0 { enable := true, list := [p] }
    let rest : List (Nat × Nat) := []
    let s0 : State := { s with dma := { s.dma with turn := mapSet (fun x => 15) s.dma.turn (c / 16) (c % 16) } }
    let x := match m.readOf off n with | some (o, k) => s0.readPieces (dmaRequester c) (s0.chanFn c) (List.take k (List.drop o m.host)) [] (sidePieces m.src m.sw o k) | none => (s0, Except.ok m.unit)
    let a : Nat := 0x30000000000
    (s.chan c).moving = some (p, m) ∧ m.parts = (off, n) :: rest ∧ x.snd = Except.error a) ∧
   (let c : Nat := 0
    let off : Nat := 0
    let n : Nat := 64
    let m : DmaMove := { src := quireBase + 0x200000, sw := 0, dst := 0x30000000000, dw := 0, host := [], parts := [(0, 64)], srcCur := 0, dstCur := 0 }
    let p : DmaProg := { oneProg 0 0 none with move := some m }
    let s : State := booted.setChan 0 { enable := true, list := [p] }
    let rest : List (Nat × Nat) := []
    let s0 : State := { s with dma := { s.dma with turn := mapSet (fun x => 15) s.dma.turn (c / 16) (c % 16) } }
    let x := match m.readOf off n with | some (o, k) => s0.readPieces (dmaRequester c) (s0.chanFn c) (List.take k (List.drop o m.host)) [] (sidePieces m.src m.sw o k) | none => (s0, Except.ok m.unit)
    let b : List Byte := okOf x.snd
    let y := x.fst.writePieces (dmaRequester c) (s0.behalf c p) (List.take n b) none (sidePieces m.dst m.dw off n)
    let a : Nat := 0x30000000000
    (s.chan c).moving = some (p, m) ∧ m.parts = (off, n) :: rest ∧ x.snd = Except.ok b ∧ y.snd = some a) ∧
   (let c : Nat := 0
    let off : Nat := 0
    let n : Nat := 64
    let m : DmaMove := { src := quireBase + 0x200000, sw := 0, dst := quireBase + 0x200000 + 128, dw := 0, host := [], parts := [(0, 64), (64, 64)], srcCur := 0, dstCur := 0 }
    let p : DmaProg := { oneProg 0 0 none with move := some m }
    let s : State := booted.setChan 0 { enable := true, list := [p] }
    let rest : List (Nat × Nat) := [(64, 64)]
    let s0 : State := { s with dma := { s.dma with turn := mapSet (fun x => 15) s.dma.turn (c / 16) (c % 16) } }
    let x := match m.readOf off n with | some (o, k) => s0.readPieces (dmaRequester c) (s0.chanFn c) (List.take k (List.drop o m.host)) [] (sidePieces m.src m.sw o k) | none => (s0, Except.ok m.unit)
    let b : List Byte := okOf x.snd
    let y := x.fst.writePieces (dmaRequester c) (s0.behalf c p) (List.take n b) none (sidePieces m.dst m.dw off n)
    (s.chan c).moving = some (p, m) ∧ m.parts = (off, n) :: rest ∧ x.snd = Except.ok b ∧ y.snd = none ∧ rest ≠ []) ∧
   (let c : Nat := 0
    let off : Nat := 0
    let n : Nat := 64
    let m : DmaMove := { src := quireBase + 0x200000, sw := 0, dst := quireBase + 0x200000 + 128, dw := 0, host := [], parts := [(0, 64)], srcCur := 0, dstCur := 0 }
    let p : DmaProg := { oneProg 0 0 none with move := some m }
    let s : State := booted.setChan 0 { enable := true, list := [p] }
    let rest : List (Nat × Nat) := []
    let s0 : State := { s with dma := { s.dma with turn := mapSet (fun x => 15) s.dma.turn (c / 16) (c % 16) } }
    let x := match m.readOf off n with | some (o, k) => s0.readPieces (dmaRequester c) (s0.chanFn c) (List.take k (List.drop o m.host)) [] (sidePieces m.src m.sw o k) | none => (s0, Except.ok m.unit)
    let b : List Byte := okOf x.snd
    let y := x.fst.writePieces (dmaRequester c) (s0.behalf c p) (List.take n b) none (sidePieces m.dst m.dw off n)
    (s.chan c).moving = some (p, m) ∧ m.parts = (off, n) :: rest ∧ x.snd = Except.ok b ∧ y.snd = none ∧ rest = []) ∧
   (let s : State := booted.setChan 0 { enable := true, list := [{ oneProg 0 0 none with move := some { src := 0, sw := 0, dst := 0, dw := 0, host := [], parts := [(0, 64)], srcCur := 0, dstCur := 0 } }] }
    let c : Nat := 0
    let k : Nat := 0
    s.nextBurst (c / 16) = some k) ∧
   (let c : Nat := 0
    let w : DmaWait := { ({ qid := none, timeU := 0, deadlineU := 0 } : DmaWait) with qid := none }
    let p : DmaProg := oneProg 0x8000000000000000#64 0 (some w)
    let s_1 : State := booted.setChan 0 { booted.chan 0 with enable := true, list := [p] }
    let s : State := s_1.setFn 0 { busMaster := true }
    s.clocked = true ∧ (s.chan c).current = some p ∧ p.wait = some w ∧ w.qid = none ∧ w.timeU ≤ s.tb.timeU ∧
      w.timeU ≤ w.deadlineU) ∧
   (let c : Nat := 0
    let w : DmaWait := { qid := none, timeU := 1, deadlineU := 0 }
    let p : DmaProg := oneProg 0x8000000000000000#64 0 (some w)
    let s_1 : State := booted.setChan 0 { booted.chan 0 with enable := true, list := [p] }
    let s_2 : State := s_1.setFn 0 { busMaster := true }
    let s : State := { s_2 with tb.offsetU := 2 ^ 90 }
    s.clocked = true ∧ (s.chan c).current = some p ∧ p.wait = some w ∧ w.qid = none ∧ w.timeU ≤ s.tb.timeU ∧
      w.deadlineU < w.timeU) ∧
   (let c : Nat := 0
    let q : Nat := 0
    let w : DmaWait := { qid := some q, timeU := 0, deadlineU := 0 }
    let p : DmaProg := oneProg 0x8000000000000000#64 0 (some w)
    let s_1 : State := booted.setChan 0 { booted.chan 0 with enable := true, list := [p] }
    let s : State := s_1.setFn 0 { busMaster := true }
    s.clocked = true ∧ (s.chan c).current = some p ∧ p.wait = some w ∧ w.qid = some q ∧ (s.tb.timeU ≤ w.deadlineU ∨
      s.waitServed c q = true)) ∧
   (let c : Nat := 0
    let q : Nat := 0
    let w : DmaWait := { qid := some q, timeU := 0, deadlineU := 0 }
    let p : DmaProg := oneProg 0x8000000000000000#64 0 (some w)
    let s_1 : State := booted.setChan 0 { booted.chan 0 with enable := true, list := [p] }
    let s_2 : State := s_1.setFn 0 { busMaster := true }
    let s : State := { s_2 with tb.offsetU := 2 ^ 90 }
    s.clocked = true ∧ (s.chan c).current = some p ∧ p.wait = some w ∧ w.qid = some q ∧ w.deadlineU < s.tb.timeU ∧
      s.waitServed c q = false) ∧
   (let c : Nat := 0
    let w : DmaWait := { qid := none, timeU := 1, deadlineU := 0 }
    let p : DmaProg := oneProg 0x8000000000000000#64 0 (some w)
    let s_1 : State := booted.setChan 0 { booted.chan 0 with enable := true, list := [p] }
    let s : State := s_1.setFn 0 { busMaster := true }
    s.clocked = true ∧ (s.chan c).current = some p ∧ p.wait = some w ∧ w.qid = none ∧ w.deadlineU ≤ s.tb.timeU ∧
      w.deadlineU < w.timeU) ∧
   (let s : State := booted.setQueue 0 { kind := 3, visible := [oneItem] }
    let c : Nat := 0
    let qid : Nat := 0
    let s1 : State := (s.readQueue qid (waitReader c)).1
    let i : QItem := gotItem (s.readQueue qid (waitReader c)).2
    s.readQueue qid (waitReader c) = (s1, ReadResult.item i)) ∧
   (let s : State := booted.setQueue 0 { kind := 3, enable := true }
    let c : Nat := 0
    let qid : Nat := 0
    let s1 : State := (s.readQueue qid (waitReader c)).1
    s.readQueue qid (waitReader c) = (s1, ReadResult.stalls)) ∧
   (let s : State := booted.setQueue 0 { kind := 3, released := [(waitReader 0, stDISABLED)] }
    let c : Nat := 0
    let qid : Nat := 0
    let s1 : State := (s.readQueue qid (waitReader c)).1
    s.readQueue qid (waitReader c) = (s1, ReadResult.ended stDISABLED)) ∧
   (let s : State := booted.setQueue 0 { kind := 3, released := [(waitReader 0, stABORTED)] }
    let c : Nat := 0
    let qid : Nat := 0
    let s1 : State := (s.readQueue qid (waitReader c)).1
    s.readQueue qid (waitReader c) = (s1, ReadResult.ended stABORTED)) ∧
   (let s : State := booted
    let c : Nat := 0
    let p : DmaProg := (oneProg 0#64 0 none)
    s.writesWait (s.behalf c p) = false) ∧
   (let s : State := booted.setFn 0 { waiting := [{ fn := 0, kind := 0, qid := 0, tag := 0#32, addr := 0#64, data := [], vector := 0 }] }
    let c : Nat := 0
    let p : DmaProg := (oneProg 0#64 0 none)
    s.writesWait (s.behalf c p) = true) := by
  refine ⟨?_, ?_, ?_, ?_, ?_, ?_, ?_, ?_, ?_, ?_, ?_, ?_, ?_, ?_, ?_, ?_, ?_, ?_, ?_, ?_, ?_, ?_, ?_, ?_, ?_, ?_, ?_, ?_, ?_, ?_, ?_⟩
  all_goals try intros
  all_goals and_intros
  all_goals first
    | decide +kernel +zetaReduce
    | exact hostOpen_of (by decide +kernel +zetaReduce)
    | exact leafReady_of (by decide +kernel +zetaReduce)
    | exact canonical_of (by decide +kernel +zetaReduce)
    | exact rateLegal_of (by decide +kernel +zetaReduce)
    | exact fetchInstr_of (by decide +kernel +zetaReduce)
    | exact onlyMoves_of _ rfl
    | exact Prod.ext rfl (some_of (by decide +kernel +zetaReduce))
    | exact Prod.ext rfl (by decide +kernel +zetaReduce)
    | exact ⟨_, rfl, by decide +kernel +zetaReduce⟩
    | exact some_of (by decide +kernel +zetaReduce)
    | exact peak_of (by decide +kernel +zetaReduce) (by decide +kernel +zetaReduce)
    | exact ok_of (by decide +kernel +zetaReduce)
    | exact error_of (by decide +kernel +zetaReduce)
    | exact pend_of (by decide +kernel +zetaReduce)
    | exact Or.inl ⟨rfl, rfl, rfl, rfl⟩
    | (intros; decide +kernel +zetaReduce)
    | (intro p; exact List.not_mem_nil)
    | exact List.Mem.head _
    | (intros; rfl)

theorem witness_MoveSemantics :
   (let c : Nat := 0
    let q : Nat := 0
    let len : Nat := 64
    let m : DmaMove := { src := quireBase + 0x200000, sw := 0, dst := quireBase + 0x200040, dw := 0, host := [], parts := moveOrder (quireBase + 0x200000) 0 (quireBase + 0x200040) 0 64, srcCur := 0, dstCur := 0 }
    let p : DmaProg := { oneProg 0 0 none with move := some m }
    let s_1 : State := booted.setCluster q { booted.cluster q with isolated := false }
    let s : State := s_1.setChan 0 { enable := true, list := [p] }
    let lo := quireBase + q * 16777216 + 2097152
    let i : Nat := 0
    s.canonical ∧ c < 1024 ∧ q < 24 ∧ (s.cluster q).isolated = false ∧ (s.chan c).moving = some (p, m) ∧ m.sw = 0 ∧
      m.dw = 0 ∧ 0 < len ∧ m.parts = moveOrder m.src 0 m.dst 0 len ∧ (∀ (k : Nat),
      k / 16 = c / 16 → k ≠ c → (s.chan k).moving = none) ∧ lo ≤ m.src ∧ m.src + len ≤ lo + 2097152 ∧ lo ≤ m.dst ∧
      m.dst + len ≤ lo + 2097152 ∧ i < len) ∧
   (let c : Nat := 0
    let q : Nat := 0
    let len : Nat := 64
    let m : DmaMove := { src := quireBase + 0x200000, sw := 0, dst := quireBase + 0x200040, dw := 0, host := [], parts := moveOrder (quireBase + 0x200000) 0 (quireBase + 0x200040) 0 64, srcCur := 0, dstCur := 0 }
    let p : DmaProg := { oneProg 0 0 none with move := some m }
    let s_1 : State := booted.setCluster q { booted.cluster q with isolated := false }
    let s : State := s_1.setChan 0 { enable := true, list := [p] }
    let lo := quireBase + q * 16777216 + 2097152
    let a : Nat := 0
    s.canonical ∧ c < 1024 ∧ q < 24 ∧ (s.cluster q).isolated = false ∧ (s.chan c).moving = some (p, m) ∧ m.sw = 0 ∧
      m.dw = 0 ∧ 0 < len ∧ m.parts = moveOrder m.src 0 m.dst 0 len ∧ (∀ (k : Nat),
      k / 16 = c / 16 → k ≠ c → (s.chan k).moving = none) ∧ lo ≤ m.src ∧ m.src + len ≤ lo + 2097152 ∧ lo ≤ m.dst ∧
      m.dst + len ≤ lo + 2097152 ∧ (a < m.dst ∨ m.dst + len ≤ a)) := by
  refine ⟨?_, ?_⟩
  all_goals try intros
  all_goals and_intros
  all_goals first
    | decide +kernel +zetaReduce
    | exact hostOpen_of (by decide +kernel +zetaReduce)
    | exact leafReady_of (by decide +kernel +zetaReduce)
    | exact canonical_of (by decide +kernel +zetaReduce)
    | exact rateLegal_of (by decide +kernel +zetaReduce)
    | exact fetchInstr_of (by decide +kernel +zetaReduce)
    | exact onlyMoves_of _ rfl
    | exact Prod.ext rfl (some_of (by decide +kernel +zetaReduce))
    | exact Prod.ext rfl (by decide +kernel +zetaReduce)
    | exact ⟨_, rfl, by decide +kernel +zetaReduce⟩
    | exact some_of (by decide +kernel +zetaReduce)
    | exact peak_of (by decide +kernel +zetaReduce) (by decide +kernel +zetaReduce)
    | exact ok_of (by decide +kernel +zetaReduce)
    | exact error_of (by decide +kernel +zetaReduce)
    | exact pend_of (by decide +kernel +zetaReduce)
    | exact Or.inl ⟨rfl, rfl, rfl, rfl⟩
    | (intros; decide +kernel +zetaReduce)
    | (intro p; exact List.not_mem_nil)
    | exact List.Mem.head _
    | (intros; rfl)

theorem witness_EngineJobs :
   (let d : Desc := oneDesc 0 0x4400 true [0#32, 0#32, 0#32, 0#32, 0x800000#32]
    let e : Nat := 0
    let s_1 : State := booted.setEngine e { booted.engine e with enable := true }
    let s_2 : State := { s_1 with slt.carriers := oneCarrier [] [] }
    let s : State := s_2.setEngine 0 { s_2.engine 0 with jobs := [] }
    let take : List W32 → Taken := spaTake
    let t := take (recordOfDesc d)
    let x := s.engine e
    let s1 := s.setEngine e { x with nextSeq := x.nextSeq + 1 }
    let c := recordCarrier t.words
    let n : Int := 0
    (s.engine e).jobs.length < engCap e ∧ (take (recordOfDesc d)).clamped = false ∧
      recordCarrierClamped (take (recordOfDesc d)).words = false ∧ x.enable = true ∧ t.kind ≠ 0 ∧
      s1.nameSlot c t.half (BitVec.getLsbD (t.words.headD 0) 24) (t.words.getD 1 0) = Named.slot n) ∧
   (let d : Desc := oneDesc 0 0x400 false [0#32, 0#32, 0#32, 0#32, 0x800000#32]
    let e : Nat := 0
    let s : State := booted.setEngine e { booted.engine e with enable := false }
    let take : List W32 → Taken := spaTake
    let x := s.engine e
    (s.engine e).jobs.length < engCap e ∧ (take (recordOfDesc d)).clamped = false ∧
      recordCarrierClamped (take (recordOfDesc d)).words = false ∧ x.enable = false ∧ e ≠ 1) ∧
   (let s_1 : State := booted.setEngine 0 { booted.engine 0 with enable := true }
    let s_2 : State := s_1.wr (Reg.SPA_JQ 0) 0x80000000#32
    let s : State := s_2.setQueue 0 { kind := 3, visible := [{ prio := 0, tag := 0, words := [0x4000000, 0x800000] }] }
    let k : Nat := (s.nextSource 0).getD 0
    let s1 : State := ((s.served 0 k).readQueue (s.fld (Reg.SPA_JQ k) 15 0) (Consumer.engine k)).1
    let i : QItem := gotItem ((s.served 0 k).readQueue (s.fld (Reg.SPA_JQ k) 15 0) (Consumer.engine k)).2
    s.clocked = true ∧ (s.engine 0).enable = true ∧ (s.engine 0).jobs.length < 64 ∧ s.nextSource 0 = some k ∧ k ≠ 8 ∧
      (s.served 0 k).readQueue (s.fld (Reg.SPA_JQ k) 15 0) (Consumer.engine k) = (s1, ReadResult.item i) ∧
      (spaTake (recordOfItem i.words)).clamped = false ∧ recordCarrierClamped (spaTake (recordOfItem i.words)).words = false) ∧
   (let n : Nat := 0
    let j : EngJob := { oneJob 2 [0x0#32, 0x0#32, 0x0#32, 0x0#32, 0x0#32, 0x0#32, 0x0#32, 0x0#32] with finished := true }
    let s_1 : State := { booted with slt.carriers := oneCarrier [] [] }
    let s : State := s_1.setEngine 0 { s_1.engine 0 with jobs := [j] }
    s.clocked = true ∧ j.finished = true ∧ s.jobOf 0 n = some j ∧ j.kind ≠ 1 ∧ j.status ≠ stNOWGT) ∧
   (let n : Nat := 0
    let j : EngJob := { oneJob 2 [0x0#32, 0x0#32, 0x0#32, 0x0#32, 0x0#32, 0x0#32, 0x0#32, 0x0#32] with finished := true, status := stNOWGT }
    let s_1 : State := { booted with slt.carriers := oneCarrier [] [] }
    let s : State := s_1.setEngine 0 { s_1.engine 0 with jobs := [j] }
    s.clocked = true ∧ j.finished = true ∧ s.jobOf 0 n = some j ∧ j.kind ≠ 1 ∧ j.status = stNOWGT) ∧
   (let n : Nat := 0
    let j : EngJob := { oneJob 1 [0x0#32, 0x0#32, 0x0#32, 0x0#32, 0x0#32, 0x0#32, 0x0#32, 0x0#32] with finished := true }
    let s_1 : State := { booted with slt.carriers := oneCarrier [] [] }
    let s : State := s_1.setEngine 0 { s_1.engine 0 with jobs := [j] }
    s.clocked = true ∧ j.finished = true ∧ s.jobOf 0 n = some j ∧ j.kind = 1 ∧ j.status = stOK) ∧
   (let n : Nat := 0
    let j : EngJob := { oneJob 1 [0x0#32, 0x0#32, 0x0#32, 0x0#32, 0x0#32, 0x0#32, 0x0#32, 0x0#32] with finished := true }
    let s_1 : State := { booted with slt.carriers := oneCarrier [] [] }
    let s : State := s_1.setEngine 1 { s_1.engine 1 with jobs := [j] }
    s.clocked = true ∧ j.finished = true ∧ s.jobOf 1 n = some j ∧ codDecodes j.kind = true ∧ j.status ≠ stBAD) ∧
   (let n : Nat := 0
    let j : EngJob := { oneJob 2 [0x0#32, 0x0#32, 0x0#32, 0x0#32, 0x0#32, 0x0#32, 0x0#32, 0x0#32] with finished := true }
    let s_1 : State := { booted with slt.carriers := oneCarrier [] [] }
    let s : State := s_1.setEngine 1 { s_1.engine 1 with jobs := [j] }
    s.clocked = true ∧ j.finished = true ∧ s.jobOf 1 n = some j ∧ codDecodes j.kind = false ∧ j.status ≠ stBAD) ∧
   (let n : Nat := 0
    let j : EngJob := { oneJob 1 [0x0#32, 0x0#32, 0x0#32, 0x0#32, 0x0#32, 0x0#32, 0x0#32, 0x0#32] with finished := true }
    let s_1 : State := { booted with slt.carriers := oneCarrier [] [] }
    let s : State := s_1.setEngine 2 { s_1.engine 2 with jobs := [j] }
    s.clocked = true ∧ j.finished = true ∧ s.jobOf 2 n = some j) ∧
   (let e : Nat := 0
    let ref : DRef := ⟨0, 0#32, false, false⟩
    let j : EngJob := { ((oneJob 0 []) : EngJob) with origin := JobOrigin.host ref }
    e ≠ 1 ∧ j.origin = JobOrigin.host ref ∧ bitOf (j.w 11) 31 = false) ∧
   (let s : State := booted
    let d : Desc := oneDesc 0 0 false []
    let e : Nat := 0
    let abort : Desc → Instr := Instr.spaAbort
    let disable : Desc → Instr := Instr.spaDisable
    let enable : Desc → Instr := Instr.spaEnable
    s.clocked = true ∧ (e = 0 ∧ abort = Instr.spaAbort ∧ disable = Instr.spaDisable ∧ enable = Instr.spaEnable ∨ e = 1 ∧
      abort = Instr.codAbort ∧ disable = Instr.codDisable ∧ enable = Instr.codEnable ∨ e = 2 ∧ abort = Instr.spcAbort ∧
      disable = Instr.spcDisable ∧ enable = Instr.spcEnable) ∧ List.filter (fun j => j.tag == d.w 16) (s.engine e).jobs = []) ∧
   (let d : Desc := oneDesc 0 0 false []
    let e : Nat := 0
    let abort : Desc → Instr := Instr.spaAbort
    let disable : Desc → Instr := Instr.spaDisable
    let enable : Desc → Instr := Instr.spaEnable
    let j : EngJob := oneJob 1 []
    let s_1 : State := { booted with slt.carriers := oneCarrier [] [] }
    let s : State := s_1.setEngine 0 { s_1.engine 0 with jobs := [j] }
    s.clocked = true ∧ (e = 0 ∧ abort = Instr.spaAbort ∧ disable = Instr.spaDisable ∧ enable = Instr.spaEnable ∨ e = 1 ∧
      abort = Instr.codAbort ∧ disable = Instr.codDisable ∧ enable = Instr.codEnable ∨ e = 2 ∧ abort = Instr.spcAbort ∧
      disable = Instr.spcDisable ∧ enable = Instr.spcEnable) ∧
      List.filter (fun j => j.tag == d.w 16) (s.engine e).jobs = [j] ∧ j.running = false) ∧
   (let s : State := booted
    let d : Desc := oneDesc 0 0 false [1#32]
    let e : Nat := 0
    let abort : Desc → Instr := Instr.spaAbort
    let disable : Desc → Instr := Instr.spaDisable
    let enable : Desc → Instr := Instr.spaEnable
    s.clocked = true ∧ (e = 0 ∧ abort = Instr.spaAbort ∧ disable = Instr.spaDisable ∧ enable = Instr.spaEnable ∨ e = 1 ∧
      abort = Instr.codAbort ∧ disable = Instr.codDisable ∧ enable = Instr.codEnable ∨ e = 2 ∧ abort = Instr.spcAbort ∧
      disable = Instr.spcDisable ∧ enable = Instr.spcEnable) ∧ (ctrlTarget e d).snd = false ∧
      (ctrlTarget e d).fst ≠ engGroups e) ∧
   (let d : Desc := oneDesc 0 0 false [3#32]
    let e : Nat := 0
    let abort : Desc → Instr := Instr.spaAbort
    let disable : Desc → Instr := Instr.spaDisable
    let enable : Desc → Instr := Instr.spaEnable
    let s : State := booted.setEngine e { booted.engine e with enable := true, jobs := [] }
    s.clocked = true ∧ (e = 0 ∧ abort = Instr.spaAbort ∧ disable = Instr.spaDisable ∧ enable = Instr.spaEnable ∨ e = 1 ∧
      abort = Instr.codAbort ∧ disable = Instr.codDisable ∧ enable = Instr.codEnable ∨ e = 2 ∧ abort = Instr.spcAbort ∧
      disable = Instr.spcDisable ∧ enable = Instr.spcEnable) ∧ (ctrlTarget e d).snd = false ∧
      (ctrlTarget e d).fst = engGroups e ∧ (s.engine e).enable = true ∧ (s.engine e).jobs = []) ∧
   (let d : Desc := oneDesc 0 0 false [3#32]
    let e : Nat := 0
    let abort : Desc → Instr := Instr.spaAbort
    let disable : Desc → Instr := Instr.spaDisable
    let enable : Desc → Instr := Instr.spaEnable
    let s : State := booted.setEngine e { booted.engine e with enable := false }
    s.clocked = true ∧ (e = 0 ∧ abort = Instr.spaAbort ∧ disable = Instr.spaDisable ∧ enable = Instr.spaEnable ∨ e = 1 ∧
      abort = Instr.codAbort ∧ disable = Instr.codDisable ∧ enable = Instr.codEnable ∨ e = 2 ∧ abort = Instr.spcAbort ∧
      disable = Instr.spcDisable ∧ enable = Instr.spcEnable) ∧ (ctrlTarget e d).snd = false ∧
      (ctrlTarget e d).fst = engGroups e ∧ (s.engine e).enable = false) := by
  refine ⟨?_, ?_, ?_, ?_, ?_, ?_, ?_, ?_, ?_, ?_, ?_, ?_, ?_, ?_, ?_⟩
  all_goals try intros
  all_goals and_intros
  all_goals first
    | decide +kernel +zetaReduce
    | exact hostOpen_of (by decide +kernel +zetaReduce)
    | exact leafReady_of (by decide +kernel +zetaReduce)
    | exact canonical_of (by decide +kernel +zetaReduce)
    | exact rateLegal_of (by decide +kernel +zetaReduce)
    | exact fetchInstr_of (by decide +kernel +zetaReduce)
    | exact onlyMoves_of _ rfl
    | exact Prod.ext rfl (some_of (by decide +kernel +zetaReduce))
    | exact Prod.ext rfl (by decide +kernel +zetaReduce)
    | exact ⟨_, rfl, by decide +kernel +zetaReduce⟩
    | exact some_of (by decide +kernel +zetaReduce)
    | exact peak_of (by decide +kernel +zetaReduce) (by decide +kernel +zetaReduce)
    | exact ok_of (by decide +kernel +zetaReduce)
    | exact error_of (by decide +kernel +zetaReduce)
    | exact pend_of (by decide +kernel +zetaReduce)
    | exact Or.inl ⟨rfl, rfl, rfl, rfl⟩
    | (intros; decide +kernel +zetaReduce)
    | (intro p; exact List.not_mem_nil)
    | exact List.Mem.head _
    | (intros; rfl)

theorem witness_SpatialAndCodingJobs :
   (let s_1 : State := { booted with slt.carriers := oneCarrier [] [] }
    let s : State := s_1.setEngine 0 { s_1.engine 0 with jobs := [oneJob 1 [0x0#32, 0x0#32, 0x0#32, 0x0#32, 0x0#32, 0x300#32, 0x0#32, 0x0#32, 0x800001#32]] }
    let j0 : EngJob := { (((s.spaNext).getD ((oneJob 0 []), 0)).1 : EngJob) with kind := 1 }
    let t : Nat := ((s.spaNext).getD ((oneJob 0 []), 0)).2
    let s1 := s.runJob 0 j0 t
    let j : EngJob := { j0 with running := true, place := t }
    let s2 := s1.setWbuf j.wkey { state := 2, slot := j.slot }
    let p := spaPage (s2.jobLatch j)
    let x := (s2.tileBusy t (estwCycles p j)).readModule (tileRequester t) (j.w64 4) (p.nsym * p.l * p.n * (j.prbCount * p.dens) * 4)
    s.clocked = true ∧ s.spaNext = some (j0, t) ∧ j0.kind = 1 ∧ x.snd = none) ∧
   (let s_1 : State := { booted with slt.carriers := oneCarrier [(129, 0xFFFF#32)] [], mem := [(0, 1#8)] }
    let s : State := s_1.setEngine 0 { s_1.engine 0 with jobs := [oneJob 1 [0x0#32, 0x0#32, 0x0#32, 0x0#32, 0x0#32, 0x0#32, 0x0#32, 0x0#32, 0x800001#32]] }
    let j0 : EngJob := { (((s.spaNext).getD ((oneJob 0 []), 0)).1 : EngJob) with kind := 1 }
    let t : Nat := ((s.spaNext).getD ((oneJob 0 []), 0)).2
    let s1 := s.runJob 0 j0 t
    let j : EngJob := { j0 with running := true, place := t }
    let s2 := s1.setWbuf j.wkey { state := 2, slot := j.slot }
    let p := spaPage (s2.jobLatch j)
    let x := (s2.tileBusy t (estwCycles p j)).readModule (tileRequester t) (j.w64 4) (p.nsym * p.l * p.n * (j.prbCount * p.dens) * 4)
    let b : List Byte := (x.snd).getD []
    let y := x.fst.storeGroups (tileRequester t) p j (estIn p j b) 0 (j.prbGroups p.g)
    s.clocked = true ∧ s.spaNext = some (j0, t) ∧ j0.kind = 1 ∧ x.snd = some b ∧ y.snd.snd = 0) ∧
   (let s_1 : State := { booted with slt.carriers := oneCarrier [] [] }
    let s : State := s_1.setEngine 0 { s_1.engine 0 with jobs := [oneJob 1 [0x0#32, 0x0#32, 0x0#32, 0x0#32, 0x0#32, 0x0#32, 0x0#32, 0x0#32, 0x800001#32]] }
    let j0 : EngJob := { (((s.spaNext).getD ((oneJob 0 []), 0)).1 : EngJob) with kind := 1 }
    let t : Nat := ((s.spaNext).getD ((oneJob 0 []), 0)).2
    let s1 := s.runJob 0 j0 t
    let j : EngJob := { j0 with running := true, place := t }
    let s2 := s1.setWbuf j.wkey { state := 2, slot := j.slot }
    let p := spaPage (s2.jobLatch j)
    let x := (s2.tileBusy t (estwCycles p j)).readModule (tileRequester t) (j.w64 4) (p.nsym * p.l * p.n * (j.prbCount * p.dens) * 4)
    let b : List Byte := (x.snd).getD []
    let y := x.fst.storeGroups (tileRequester t) p j (estIn p j b) 0 (j.prbGroups p.g)
    s.clocked = true ∧ s.spaNext = some (j0, t) ∧ j0.kind = 1 ∧ x.snd = some b ∧ y.snd.snd ≠ 0) ∧
   (let s_1 : State := { booted with slt.carriers := oneCarrier [] [] }
    let s : State := s_1.setEngine 0 { s_1.engine 0 with jobs := [oneJob 2 [0x0#32, 0x0#32, 0x0#32, 0x0#32, 0x0#32, 0x0#32, 0x0#32, 0x0#32, 0x800001#32]] }
    let j0 : EngJob := { (((s.spaNext).getD ((oneJob 0 []), 0)).1 : EngJob) with kind := 2 }
    let t : Nat := ((s.spaNext).getD ((oneJob 0 []), 0)).2
    let s1 := s.runJob 0 j0 t
    let j : EngJob := { j0 with running := true, place := t }
    s.clocked = true ∧ s.spaNext = some (j0, t) ∧ (j0.kind = 2 ∨ j0.kind = 3) ∧ BitVec.getLsbD (j0.w 0) 25 = false ∧
      j0.symbols ≠ [] ∧ (s1.wbuf j.wkey).state ≠ 1) ∧
   (let s_1 : State := { booted with slt.carriers := oneCarrier [] [] }
    let s : State := s_1.setEngine 0 { s_1.engine 0 with jobs := [oneJob 2 [0x0#32, 0x0#32, 0x0#32, 0x0#32, 0x0#32, 0x0#32, 0x0#32, 0x0#32, 0x800000#32]] }
    let j0 : EngJob := { (((s.spaNext).getD ((oneJob 0 []), 0)).1 : EngJob) with kind := 2 }
    let t : Nat := ((s.spaNext).getD ((oneJob 0 []), 0)).2
    s.clocked = true ∧ s.spaNext = some (j0, t) ∧ (j0.kind = 2 ∨ j0.kind = 3) ∧ BitVec.getLsbD (j0.w 0) 25 = false ∧
      j0.symbols = []) ∧
   (let s_1 : State := { booted with slt.carriers := oneCarrier [] [] }
    let s_2 : State := s_1.setEngine 0 { s_1.engine 0 with jobs := [oneJob 2 [0x0#32, 0x0#32, 0x0#32, 0x0#32, 0x0#32, 0x0#32, 0x0#32, 0x0#32, 0x800001#32]] }
    let s : State := { s_2 with spa.wbufs := [(wbufKey 0 .ul 0, { state := 1 })] }
    let j0 : EngJob := { (((s.spaNext).getD ((oneJob 0 []), 0)).1 : EngJob) with kind := 2 }
    let t : Nat := ((s.spaNext).getD ((oneJob 0 []), 0)).2
    let s1 := s.runJob 0 j0 t
    let j : EngJob := { j0 with running := true, place := t }
    let p := spaPage (s1.jobLatch j0)
    let req := tileRequester t
    let s2 : State := ((s1.tileBusy t (applyCycles p j false)).loadGroups req p j.wbuf [] (j.prbGroups p.g)).1
    let ws : List (Nat × GroupWeights) := (((s1.tileBusy t (applyCycles p j false)).loadGroups req p j.wbuf [] (j.prbGroups p.g)).2).getD []
    s.clocked = true ∧ s.spaNext = some (j0, t) ∧ (s1.wbuf j.wkey).state = 1 ∧ BitVec.getLsbD (j0.w 0) 25 = false ∧
      j0.symbols ≠ [] ∧ (s1.tileBusy t (applyCycles p j false)).loadGroups req p j.wbuf [] (j.prbGroups p.g) = (s2,
      some ws) ∧ j0.kind = 2) ∧
   (let s_1 : State := { booted with slt.carriers := oneCarrier [] [] }
    let s_2 : State := s_1.setEngine 0 { s_1.engine 0 with jobs := [oneJob 3 [0x0#32, 0x0#32, 0x0#32, 0x0#32, 0x0#32, 0x0#32, 0x0#32, 0x0#32, 0x800001#32]] }
    let s : State := { s_2 with spa.wbufs := [(wbufKey 0 .ul 0, { state := 1 })] }
    let j0 : EngJob := { (((s.spaNext).getD ((oneJob 0 []), 0)).1 : EngJob) with kind := 3 }
    let t : Nat := ((s.spaNext).getD ((oneJob 0 []), 0)).2
    let s1 := s.runJob 0 j0 t
    let j : EngJob := { j0 with running := true, place := t }
    let p := spaPage (s1.jobLatch j0)
    let req := tileRequester t
    let s2 : State := ((s1.tileBusy t (applyCycles p j false)).loadGroups req p j.wbuf [] (j.prbGroups p.g)).1
    let ws : List (Nat × GroupWeights) := (((s1.tileBusy t (applyCycles p j false)).loadGroups req p j.wbuf [] (j.prbGroups p.g)).2).getD []
    s.clocked = true ∧ s.spaNext = some (j0, t) ∧ (s1.wbuf j.wkey).state = 1 ∧ BitVec.getLsbD (j0.w 0) 25 = false ∧
      j0.symbols ≠ [] ∧ (s1.tileBusy t (applyCycles p j false)).loadGroups req p j.wbuf [] (j.prbGroups p.g) = (s2,
      some ws) ∧ j0.kind = 3) ∧
   (let g : Nat := 0
    let u : Nat := 0
    let j : EngJob := { oneJob 1 [0x0#32, 0x0#32, 0x0#32, 0x0#32, 0x0#32, 0x0#32, 0x0#32, 0x0#32] with place := 0, running := true, cod := { blocks := 1 } }
    let s_1 : State := { booted with slt.carriers := oneCarrier [] [] }
    let s : State := s_1.setEngine 1 { s_1.engine 1 with jobs := [j] }
    s.clocked = true ∧ g < 4 ∧ s.codPlace.unitFree g u = true ∧
      (s.codPlace.nextJob 1 fun j => j.place == g && unitOf j.kind == u && !j.finished && decide (j.cod.begun < j.cod.blocks) && s.codPlace.slotFired j.carrier j.half j.slotNum && (j.running || s.codPlace.groupInService 1 g && s.codPlace.bufferFree j)) = some j ∧
      j.running = true) ∧
   (let g : Nat := 0
    let u : Nat := 0
    let j : EngJob := { oneJob 1 [0x0#32, 0x0#32, 0x0#32, 0x0#32, 0x0#32, 0x0#32, 0x0#32, 0x0#32] with place := 0, running := false, cod := { blocks := 1 } }
    let s_1 : State := { booted with slt.carriers := oneCarrier [] [] }
    let s : State := s_1.setEngine 1 { s_1.engine 1 with jobs := [j] }
    let x : State × EngJob := (if codDecodes j.kind then s.codPlace.openBuffer j else s.codPlace.openEncode j)
    s.clocked = true ∧ g < 4 ∧ s.codPlace.unitFree g u = true ∧
      (s.codPlace.nextJob 1 fun j => j.place == g && unitOf j.kind == u && !j.finished && decide (j.cod.begun < j.cod.blocks) && s.codPlace.slotFired j.carrier j.half j.slotNum && (j.running || s.codPlace.groupInService 1 g && s.codPlace.bufferFree j)) = some j ∧
      j.running = false ∧ (if codDecodes j.kind = true then s.codPlace.openBuffer j else s.codPlace.openEncode j) = x) ∧
   (let g : Nat := 0
    let j : EngJob := { oneJob 1 [0x0#32, 0x0#32, 0x0#32, 0x0#32, 0x0#32, 0x0#32, 0x0#32, 0x0#32] with place := 0, running := true, cod := { blocks := 1, begun := 1 } }
    let s_1 : State := { booted with slt.carriers := oneCarrier [] [] }
    let s : State := s_1.setEngine 1 { s_1.engine 1 with jobs := [j] }
    let p := s.codPageOf j
    let r := j.cod.ended
    let s1 : State := (s.readLlrs j p.llr4 r).1
    let llrs : List Int := ((s.readLlrs j p.llr4 r).2).getD []
    let kind : Nat := 1
    let c : Instr := .ldpcDec g
    s.clocked = true ∧ (kind = 1 ∧ c = Instr.ldpcDec g ∨ kind = 3 ∧ c = Instr.turboDec g) ∧ s.blockEnding g kind = some j ∧
      s.hqAddr j p = none ∧ s.readLlrs j p.llr4 r = (s1, some llrs)) ∧
   (let g : Nat := 0
    let j : EngJob := { oneJob 2 [0x0#32, 0x0#32, 0x0#32, 0x0#32, 0x0#32, 0x0#32, 0x0#32, 0x0#32] with place := 0, running := true, cod := { blocks := 1, begun := 1 } }
    let s_1 : State := { booted with slt.carriers := oneCarrier [] [] }
    let s : State := s_1.setEngine 1 { s_1.engine 1 with jobs := [j] }
    s.clocked = true ∧ s.blockEnding g 2 = some j) ∧
   (let g : Nat := 0
    let j : EngJob := { oneJob 4 [0x0#32, 0x0#32, 0x0#32, 0x0#32, 0x0#32, 0x0#32, 0x0#32, 0x0#32] with place := 0, running := true, cod := { blocks := 1, begun := 1 } }
    let s_1 : State := { booted with slt.carriers := oneCarrier [] [] }
    let s : State := s_1.setEngine 1 { s_1.engine 1 with jobs := [j] }
    s.clocked = true ∧ s.blockEnding g 4 = some j) ∧
   (let g : Nat := 0
    let j : EngJob := { oneJob 6 [0x0#32, 0x0#32, 0x0#32, 0x0#32, 0x0#32, 0x0#32, 0x0#32, 0x0#32] with place := 0, running := true, cod := { blocks := 1, begun := 1 } }
    let s_1 : State := { booted with slt.carriers := oneCarrier [] [] }
    let s : State := s_1.setEngine 1 { s_1.engine 1 with jobs := [j] }
    s.clocked = true ∧ s.blockEnding g 6 = some j) ∧
   (let g : Nat := 0
    let j : EngJob := { oneJob 5 [0x0#32, 0x0#32, 0x0#32, 0x0#32, 0x0#32, 0x0#32, 0x0#32, 0x0#32] with place := 0, running := true, cod := { blocks := 1, begun := 1 } }
    let s_1 : State := { booted with slt.carriers := oneCarrier [] [] }
    let s : State := s_1.setEngine 1 { s_1.engine 1 with jobs := [j] }
    let p := s.codPageOf j
    let r := j.cod.ended
    let s1 : State := (s.readLlrs j p.llr4 r).1
    let llrs : List Int := ((s.readLlrs j p.llr4 r).2).getD []
    s.clocked = true ∧ s.blockEnding g 5 = some j ∧ s.readLlrs j p.llr4 r = (s1, some llrs)) ∧
   (let s : State := booted
    s.hostOpen Reg.COD_HARQ_BASE ∧ s.anyCarrierLive = false) ∧
   (let s_1 : State := { booted with slt.carriers := oneCarrier [] [] }
    let s : State := s_1.setEngine 1 { s_1.engine 1 with jobs := [] }
    s.hostOpen Reg.COD_HARQ_BASE ∧ s.anyCarrierLive = true) ∧
   (let sh : Nat := 0
    let k : Int := 0
    0 ≤ 15 + k + ↑sh) := by
  refine ⟨?_, ?_, ?_, ?_, ?_, ?_, ?_, ?_, ?_, ?_, ?_, ?_, ?_, ?_, ?_, ?_, ?_⟩
  all_goals try intros
  all_goals and_intros
  all_goals first
    | decide +kernel +zetaReduce
    | exact hostOpen_of (by decide +kernel +zetaReduce)
    | exact leafReady_of (by decide +kernel +zetaReduce)
    | exact canonical_of (by decide +kernel +zetaReduce)
    | exact rateLegal_of (by decide +kernel +zetaReduce)
    | exact fetchInstr_of (by decide +kernel +zetaReduce)
    | exact onlyMoves_of _ rfl
    | exact Prod.ext rfl (some_of (by decide +kernel +zetaReduce))
    | exact Prod.ext rfl (by decide +kernel +zetaReduce)
    | exact ⟨_, rfl, by decide +kernel +zetaReduce⟩
    | exact some_of (by decide +kernel +zetaReduce)
    | exact peak_of (by decide +kernel +zetaReduce) (by decide +kernel +zetaReduce)
    | exact ok_of (by decide +kernel +zetaReduce)
    | exact error_of (by decide +kernel +zetaReduce)
    | exact pend_of (by decide +kernel +zetaReduce)
    | exact Or.inl ⟨rfl, rfl, rfl, rfl⟩
    | (intros; decide +kernel +zetaReduce)
    | (intro p; exact List.not_mem_nil)
    | exact List.Mem.head _
    | (intros; rfl)

theorem witness_SpectralStreamsAndDetectors :
   (let s_1 : State := { booted with slt.carriers := oneCarrier [] [] }
    let s : State := s_1.setEngine 2 { s_1.engine 2 with jobs := [oneJob 1 [0x0#32, 0x0#32, 0x0#32, 0x0#32, 0x0#32, 0x0#32, 0x0#32, 0x0#32, 0x10000#32]] }
    let g : Nat := (s.freePipeline).getD 0
    let kind : Nat := 1
    let j0 : EngJob := { (((s.nextJob 2 fun j => !j.running && s.slotFired j.carrier j.half j.slotNum)).getD ((oneJob 0 [])) : EngJob) with kind := kind }
    let j : EngJob := { j0 with running := true, place := g }
    s.clocked = true ∧ s.freePipeline = some g ∧
      (s.nextJob 2 fun j => !j.running && s.slotFired j.carrier j.half j.slotNum) = some j0 ∧ j0.kind = kind ∧ (kind = 1 ∨
      kind = 2)) ∧
   (let s : State := booted
    let g : Nat := 0
    let i : Nat := 0
    let j : EngJob := (oneJob 0 [])
    let n := fftSize (j.fld 8 31 28)
    let x := s.readModule (engRequester 2 g) (j.w64 4 + 4 * n * i) (4 * n)
    let b : List Byte := (x.snd).getD []
    let y := pipeline (j.kind == 2) (j.fld 8 15 12) (List.map (fun c => rotated c 0 1) (samplesOfInt16 b)) (jobBins (j.fld 8 11 11 == 1) n)
    let z := x.fst.writeModule (engRequester 2 g) (j.w64 6 + 4 * n * i) (List.flatMap int16Bytes y.fst)
    x.snd = some b ∧ z.snd = true) ∧
   (let c : Nat := 0
    let ant : Nat := 0
    let k : Nat := 0
    let slot : W32 := stampOf 1 0
    let s_1 : State := { booted with slt.carriers := oneCarrier [(0, 0xFFFFFFFF#32), (96, 0x80000000#32)] [] }
    let s : State := { s_1 with spc.streams := [(0, { parts := [{ ant := 0, slot := stampOf 1 0, offset := 0, count := 100000 }] })] }
    let l : SlotLatch := (s.rxPending c ant k slot).getD { slot := 0, words := [], gen := 1 }
    let p := spcPage l.words
    let cfg := (s.carrier c).cfg
    let t := s.rxPull c p
    let full := covered (t.stream c).parts ant slot (rxWindow cfg l.words p.fft l.slot k) p.fft
    s.clocked = true ∧ s.rxPending c ant k slot = some l ∧ full = true ∧ t.spcServes = true) ∧
   (let s : State := { booted with slt.carriers := oneCarrier [(0, 0xFFFFFFFF#32), (96, 0x80000000#32)] [], tb.offsetU := 2 ^ 90 }
    let c : Nat := 0
    let ant : Nat := 0
    let k : Nat := 0
    let slot : W32 := stampOf 1 0
    let l : SlotLatch := (s.rxPending c ant k slot).getD { slot := 0, words := [], gen := 1 }
    let p := spcPage l.words
    let cfg := (s.carrier c).cfg
    let t := s.rxPull c p
    let full := covered (t.stream c).parts ant slot (rxWindow cfg l.words p.fft l.slot k) p.fft
    s.clocked = true ∧ s.rxPending c ant k slot = some l ∧ (full = false ∨ t.spcServes = false)) ∧
   (let s : State := { booted with slt.carriers := oneCarrier [(0, 0xFFFFFFFF#32), (96, 0x80000000#32)] [], tb.offsetU := 2 ^ 90 }
    let c : Nat := 0
    let ant : Nat := 0
    let k : Nat := 0
    let slot : W32 := stampOf 1 0
    let l : SlotLatch := (s.rxPending c ant k slot).getD { slot := 0, words := [], gen := 1 }
    let p := spcPage l.words
    let cfg := (s.carrier c).cfg
    let t := s.rxPull c p
    s.clocked = true ∧ s.rxPending c ant k slot = some l ∧
      s.pastSample cfg p.fft l.slot (symStart cfg p.fft l.slot (k + 1)) ((waitUs (setFld l.words 3 2 9 0) : Nat) : Int) = true ∧
      t.spcServes = true) ∧
   (let s_1 : State := { booted with slt.carriers := oneCarrier [(0, 0xFFFFFFFF#32), (96, 0x80000000#32)] [], tb.offsetU := 2 ^ 90 }
    let s : State := s_1.setEngine 2 { groupsOff := [0, 1, 2, 3, 4] }
    let c : Nat := 0
    let ant : Nat := 0
    let k : Nat := 0
    let slot : W32 := stampOf 1 0
    let l : SlotLatch := (s.rxPending c ant k slot).getD { slot := 0, words := [], gen := 1 }
    let p := spcPage l.words
    let cfg := (s.carrier c).cfg
    let t := s.rxPull c p
    s.clocked = true ∧ s.rxPending c ant k slot = some l ∧
      s.pastSample cfg p.fft l.slot (symStart cfg p.fft l.slot (k + 1)) ((waitUs (setFld l.words 3 2 9 0) : Nat) : Int) = true ∧
      t.spcServes = false) ∧
   (let s_1 : State := { booted with slt.carriers := oneCarrier [(0, 0xFFFFFFFF#32), (96, 0x80000000#32)] [], tb.offsetU := 2 ^ 90 }
    let s : State := { s_1 with spc.streams := [(0, { txItems := [(0, [])] })] }
    let c : Nat := 0
    let ant : Nat := 0
    let k : Nat := 0
    let slot : W32 := stampOf 1 0
    let l : SlotLatch := { ((s.liveByStamp c Half.dl slot).getD { slot := 0, words := [], gen := 1 } : SlotLatch) with aborted := false }
    let t := s.txPull c (spcPage l.words)
    let tag := k * 256 + ant
    let x := t.stream c
    let w : List QWord := []
    let rest : List (Nat × List QWord) := []
    s.clocked = true ∧ s.liveByStamp c Half.dl slot = some l ∧ (spcPage l.words).en = true ∧ ant < (spcPage l.words).nAnt ∧
      k < symsPerSlot (s.carrier c).cfg ∧
      ((s.stream c).txDone.all fun d => d.fst != { slot := slot, ant := ant, sym := k }) = true ∧ inMask l.words k = true ∧
      l.aborted = false ∧
      s.pastSample (s.carrier c).cfg (spcPage l.words).fft l.slot (symStart (s.carrier c).cfg (spcPage l.words).fft l.slot k) (-((waitUs (setFld l.words 3 2 20 11) : Nat) : Int)) = true ∧
      takeKey tag x.txItems = (some w, rest)) ∧
   (let s : State := { booted with slt.carriers := oneCarrier [(0, 0xFFFFFFFF#32), (96, 0x80000000#32)] [], tb.offsetU := 2 ^ 90 }
    let c : Nat := 0
    let ant : Nat := 0
    let k : Nat := 0
    let slot : W32 := stampOf 1 0
    let l : SlotLatch := { ((s.liveByStamp c Half.dl slot).getD { slot := 0, words := [], gen := 1 } : SlotLatch) with aborted := false }
    let t := s.txPull c (spcPage l.words)
    let tag := k * 256 + ant
    let x := t.stream c
    let rest : List (Nat × List QWord) := []
    s.clocked = true ∧ s.liveByStamp c Half.dl slot = some l ∧ (spcPage l.words).en = true ∧ ant < (spcPage l.words).nAnt ∧
      k < symsPerSlot (s.carrier c).cfg ∧
      ((s.stream c).txDone.all fun d => d.fst != { slot := slot, ant := ant, sym := k }) = true ∧ inMask l.words k = true ∧
      l.aborted = false ∧
      s.pastSample (s.carrier c).cfg (spcPage l.words).fft l.slot (symStart (s.carrier c).cfg (spcPage l.words).fft l.slot k) (-((waitUs (setFld l.words 3 2 20 11) : Nat) : Int)) = true ∧
      takeKey tag x.txItems = (none, rest)) ∧
   (let s : State := booted
    let c : Nat := 0
    let i : QItem := oneItem
    ((s.stream c).txMissing.any fun m => m.tag == i.tag.toNat) = false) ∧
   (let s : State := { booted with spc.streams := [(0, { txDone := [(⟨0#32, 0, 0⟩, true)] })], spc.paths := [(0, { state := 1, filtered := [(0#32, 0, List.replicate (slotSamples (spcPage []).fft) (0, 0))] })] }
    let c : Nat := 0
    let slot : W32 := 0#32
    let x := s.path c
    let w := s.qualWords c slot
    let p := spcPage w
    let samples : Nat → List Cplx := fun ant => List.flatMap (fun x => x.snd.snd) (List.filter (fun f => f.fst == slot && f.snd.fst == ant) x.filtered)
    let len := symSamples (s.carrier c).cfg p.fft (s.slotOfStamp c Half.dl slot)
    s.clocked = true ∧ s.spcServes = true ∧ x.state = 1 ∧
      ((s.stream c).txDone.any fun d => d.fst.slot == slot && d.snd) = true ∧ (∀ (a : Nat),
      a < p.nAnt → (samples a).length = len) ∧ x.checked ≠ some slot) ∧
   (let s : State := { booted with slt.carriers := [(0, { mode := .disabled })] }
    let d : Desc := oneDesc 0 0 false []
    s.clocked = true ∧ d.carrier < 512 ∧ (s.carrier d.carrier).refusesWork = true) ∧
   (let s : State := { booted with slt.carriers := oneCarrier [] [] }
    let d : Desc := oneDesc 0 0 false []
    s.clocked = true ∧ d.carrier < 512 ∧ (s.carrier d.carrier).refusesWork = false ∧ (s.carrier d.carrier).dlGoesOn = true) ∧
   (let s : State := booted
    let d : Desc := oneDesc 0 0 false []
    s.clocked = true ∧ d.carrier < 512 ∧ (s.carrier d.carrier).refusesWork = false ∧ (s.carrier d.carrier).dlGoesOn = false) ∧
   (let d : Nat := 0
    let power : Nat := 0
    let rho : Nat := 0
    let t : Int := 0
    let s : State := { booted with spc.dets := [(0, { claimed := some 0, record := [0x40000000#32, 0x0#32, 0x0#32, 0x0#32, 0x200000#32, 0x0#32, 0x0#32, 0x0#32, 0x0#32, 0x0#32, 0x0#32, 0x0#32, 0x0#32, 0x0#32, 0x0#32, 0x0#32], parts := [{ source := (0, 0), start := 0, fft := (spcPage []).fft, gap := false, samples := [(1, 0), (1, 0), (1, 0)] }] })], mem := [(0, 1#8)] }
    let x := (s.detPull d).det d
    let c := x.claimed.getD 0
    let n := recRefLen x.record
    let s1 : State := ((s.detPull d).readSamples (recRef x.record) n).1
    let ref : List Cplx := (((s.detPull d).readSamples (recRef x.record) n).2).getD []
    let fft := (s.detPull d).fftAt c x.record t
    let p : Peak := (x.peakAt (fsKhz ((s.detPull d).carrier c).cfg fft) fft ref t power rho).getD { time := 0, pw := (0, 1), power := 0, rho := 0, fft := 0 }
    s.clocked = true ∧ recMode (s.det d).record = 1 ∧ (s.det d).claimed.isSome = true ∧ (s.detPull d).spcServes = true ∧
      (∃ e, x.arrived x.record fft = some e ∧ t + ((lagsAwaited x.record n + n : Nat) : Int) ≤ e) ∧
      (s.detPull d).readSamples (recRef x.record) n = (s1, some ref) ∧ (∀ (l : Int), x.lastPeak = some l → l < t) ∧
      x.peakAt (fsKhz ((s.detPull d).carrier c).cfg fft) fft ref t power rho = some p) ∧
   (let d : Nat := 0
    let power : Nat := 0
    let rho : Nat := 0
    let t : Int := 0
    let s : State := { booted with spc.dets := [(0, { claimed := some 0, record := [0x40000000#32, 0x0#32, 0x0#32, 0x0#32, 0x20ffff#32, 0x0#32, 0x0#32, 0x0#32, 0x0#32, 0x0#32, 0x0#32, 0x0#32, 0x0#32, 0x0#32, 0x0#32, 0x0#32], parts := [{ source := (0, 0), start := 0, fft := (spcPage []).fft, gap := false, samples := [(0, 0), (0, 0), (0, 0)] }] })], mem := [(0, 1#8)] }
    let x := (s.detPull d).det d
    let c := x.claimed.getD 0
    let n := recRefLen x.record
    let s1 : State := ((s.detPull d).readSamples (recRef x.record) n).1
    let ref : List Cplx := (((s.detPull d).readSamples (recRef x.record) n).2).getD []
    let fft := (s.detPull d).fftAt c x.record t
    s.clocked = true ∧ recMode (s.det d).record = 1 ∧ (s.det d).claimed.isSome = true ∧ (s.detPull d).spcServes = true ∧
      (∃ e, x.arrived x.record fft = some e ∧ t + ((lagsAwaited x.record n + n : Nat) : Int) ≤ e) ∧
      (s.detPull d).readSamples (recRef x.record) n = (s1, some ref) ∧ (∀ (l : Int), x.lastPeak = some l → l < t) ∧
      x.peakAt (fsKhz ((s.detPull d).carrier c).cfg fft) fft ref t power rho = none) ∧
   (let fsK : Nat := 1920
    let fft : Nat := 128
    let x : Detector := { record := [0x40000000#32, 0x0#32, 0x0#32, 0x0#32, 0x200000#32, 0x0#32, 0x0#32, 0x0#32, 0x0#32, 0x0#32, 0x0#32, 0x0#32, 0x0#32, 0x0#32, 0x0#32, 0x0#32], parts := [{ source := (0, 0), start := 0, fft := 128, gap := false, samples := [(1, 0), (1, 0)] }] }
    let power : Nat := 0
    let rho : Nat := 0
    let ref : List Cplx := [(1, 0)]
    let t : Int := 0
    let p : Peak := (x.peakAt fsK fft ref t power rho).getD { time := 0, pw := (0, 1), power := 0, rho := 0, fft := 0 }
    let u : Int := 0
    x.peakAt fsK fft ref t power rho = some p ∧ u ∈ x.lagsAround x.record fft t ref.length) ∧
   (let d : Nat := 0
    let s : State := booted.setDet d { booted.det d with ctx0.mode := 0, ctx1.mode := 0 }
    (s.det d).ctx0.mode = 0 ∧ (s.det d).ctx1.mode = 0) ∧
   (let s : State := { booted with spc.dets := [(0, { claimed := some 0, record := [0x40000000#32, 0x0#32, 0x0#32, 0x0#32, 0x200000#32, 0x1#32, 0x0#32, 0x0#32, 0x0#32, 0x0#32, 0x0#32, 0x0#32, 0x0#32, 0x0#32, 0x0#32, 0x0#32], parts := [{ source := (0, 0), start := 0, fft := (spcPage []).fft, gap := false, samples := [(1, 0), (1, 0), (1, 0)] }], ctx0 := { mode := 1, record := [0x40000000#32, 0x0#32, 0x0#32, 0x0#32, 0x200000#32, 0x1#32, 0x0#32, 0x0#32, 0x0#32, 0x0#32, 0x0#32, 0x0#32, 0x0#32, 0x0#32, 0x0#32, 0x0#32], fft := (spcPage []).fft } })], mem := [(0, 1#8)] }
    let d : Nat := 0
    let i : Nat := 0
    let x := (s.detPull d).det d
    let c := x.ctx i
    let val := recFld c.record 5 7 0
    let n := recRefLen c.record
    let s1 : State := ((s.detPull d).readSamples (recRef c.record) n).1
    let ref : List Cplx := (((s.detPull d).readSamples (recRef c.record) n).2).getD []
    s.clocked = true ∧ (s.detPull d).spcServes = true ∧ c.mode = 1 ∧ 0 < val ∧ (∃ e, x.arrived c.record c.fft = some e ∧
      c.t0 + (((val + 1) * n : Nat) : Int) ≤ e) ∧ (s.detPull d).readSamples (recRef c.record) n = (s1, some ref)) ∧
   (let s : State := { booted with spc.dets := [(0, { ctx0 := { record := [0x0#32, 0x0#32, 0x0#32, 0x0#32, 0x0#32, 0x10000#32, 0x0#32, 0x0#32, 0x0#32, 0x0#32, 0x0#32, 0x0#32, 0x0#32, 0x0#32, 0x0#32, 0x0#32] } })] }
    let d : Nat := 0
    let i : Nat := 0
    let rhoV : Nat := 0
    let x := s.det d
    rhoV < recFld (x.ctx i).record 5 31 16) ∧
   (let s : State := booted
    let d : Nat := 0
    let i : Nat := 0
    let rhoV : Nat := 0
    let x := s.det d
    recFld (x.ctx i).record 5 31 16 ≤ rhoV) ∧
   (let s : State := { booted with spc.dets := [(0, { claimed := some 0, record := [0x40000000#32, 0x0#32, 0x0#32, 0x0#32, 0x0#32, 0x0#32, 0x0#32, 0x0#32, 0x0#32, 0x0#32, 0x0#32, 0x0#32, 0x0#32, 0x0#32, 0x0#32, 0x0#32], parts := [{ source := (0, 0), start := 0, fft := (spcPage []).fft, gap := false, samples := [(1, 0), (1, 0), (1, 0)] }], ctx0 := { mode := 2, record := [0x40000000#32, 0x0#32, 0x0#32, 0x0#32, 0x0#32, 0x0#32, 0x0#32, 0x0#32, 0x0#32, 0x0#32, 0x0#32, 0x0#32, 0x0#32, 0x0#32, 0x0#32, 0x0#32], fft := (spcPage []).fft } })] }
    let d : Nat := 0
    let i : Nat := 0
    let t := s.detPull d
    let x := t.det d
    let y := x.ctx i
    s.clocked = true ∧ y.mode = 2 ∧ (∃ e, x.arrived y.record y.fft = some e ∧
      y.t0 + ((BitVec.toNat (recW y.record 8) : Nat) : Int) ≤ e) ∧ y.hasData = false) ∧
   (let s : State := { booted with spc.dets := [(0, { claimed := some 0, record := [0x40000000#32, 0x0#32, 0x0#32, 0x0#32, 0x0#32, 0x0#32, 0x0#32, 0x0#32, 0x1#32, 0x0#32, 0x0#32, 0x0#32, 0x0#32, 0x0#32, 0x0#32, 0x0#32], parts := [{ source := (0, 0), start := 0, fft := (spcPage []).fft, gap := false, samples := [(1, 0), (1, 0), (1, 0)] }], ctx0 := { mode := 2, record := [0x40000000#32, 0x0#32, 0x0#32, 0x0#32, 0x0#32, 0x0#32, 0x0#32, 0x0#32, 0x1#32, 0x0#32, 0x0#32, 0x0#32, 0x0#32, 0x0#32, 0x0#32, 0x0#32], fft := (spcPage []).fft } })] }
    let d : Nat := 0
    let i : Nat := 0
    let t := s.detPull d
    let x := t.det d
    let y := x.ctx i
    s.clocked = true ∧ y.mode = 2 ∧ (∃ e, x.arrived y.record y.fft = some e ∧
      y.t0 + ((BitVec.toNat (recW y.record 8) : Nat) : Int) ≤ e) ∧ y.hasData = true) ∧
   (let s : State := { booted with spc.dets := [(0, { claimed := some 0, record := [0xa0000000#32, 0x0#32, 0x0#32, 0x0#32, 0x0#32, 0x0#32, 0x0#32, 0x0#32, 0x0#32, 0x0#32, 0x0#32, 0x1000000#32, 0x0#32, 0x0#32, 0x0#32, 0x0#32], occs := [(-1, 1000000), (-2, 1000000)] })] }
    let d : Nat := 0
    let c : Nat := 0
    let slot : W32 := 0#32
    let u := s.detPull d
    let x := u.det d
    let r := x.record
    let n := u.slotOfStamp c Half.ul slot
    let cfg := (u.carrier c).cfg
    let fft := u.slotFft c Half.ul n
    let t := n * ((slotSamples fft / recDecim r : Nat) : Int) + ((recFld r 11 15 0 : Nat) : Int)
    s.clocked = true ∧ x.claimed = some c ∧ u.spcServes = true ∧ recMode r = 2 ∧
      indexOf cfg.spf n % recFld r 11 31 24 = recFld r 11 23 16 ∧ x.occasionDue fft t = true ∧ (∀ (o : Int × Int),
      o ∈ x.occs → o.fst < t) ∧ 2 ≤ (List.filter (fun o => decide (t < o.snd)) x.occs).length) ∧
   (let s : State := { booted with spc.dets := [(0, { claimed := some 0, record := [0xa0000000#32, 0x0#32, 0x0#32, 0x0#32, 0x0#32, 0x0#32, 0x0#32, 0x0#32, 0x0#32, 0x0#32, 0x0#32, 0x1000000#32, 0x0#32, 0x0#32, 0x0#32, 0x0#32] })] }
    let d : Nat := 0
    let c : Nat := 0
    let slot : W32 := 0#32
    let u := s.detPull d
    let x := u.det d
    let r := x.record
    let n := u.slotOfStamp c Half.ul slot
    let cfg := (u.carrier c).cfg
    let fft := u.slotFft c Half.ul n
    let lra := recFld r 12 10 0
    let roots := recFld r 12 14 13 + 1
    let s1 : State := (u.readSamples (recRef r) (roots * lra)).1
    let refs : List Cplx := ((u.readSamples (recRef r) (roots * lra)).2).getD []
    let t := n * ((slotSamples fft / recDecim r : Nat) : Int) + ((recFld r 11 15 0 : Nat) : Int)
    s.clocked = true ∧ x.claimed = some c ∧ u.spcServes = true ∧ recMode r = 2 ∧
      indexOf cfg.spf n % recFld r 11 31 24 = recFld r 11 23 16 ∧ x.occasionDue fft t = true ∧ (∀ (o : Int × Int),
      o ∈ x.occs → o.fst < t) ∧ (List.filter (fun o => decide (t < o.snd)) x.occs).length < 2 ∧
      u.readSamples (recRef r) (roots * lra) = (s1, some refs)) := by
  refine ⟨?_, ?_, ?_, ?_, ?_, ?_, ?_, ?_, ?_, ?_, ?_, ?_, ?_, ?_, ?_, ?_, ?_, ?_, ?_, ?_, ?_, ?_, ?_, ?_⟩
  all_goals try intros
  all_goals and_intros
  all_goals first
    | decide +kernel +zetaReduce
    | exact hostOpen_of (by decide +kernel +zetaReduce)
    | exact leafReady_of (by decide +kernel +zetaReduce)
    | exact canonical_of (by decide +kernel +zetaReduce)
    | exact rateLegal_of (by decide +kernel +zetaReduce)
    | exact fetchInstr_of (by decide +kernel +zetaReduce)
    | exact onlyMoves_of _ rfl
    | exact Prod.ext rfl (some_of (by decide +kernel +zetaReduce))
    | exact Prod.ext rfl (by decide +kernel +zetaReduce)
    | exact ⟨_, rfl, by decide +kernel +zetaReduce⟩
    | exact some_of (by decide +kernel +zetaReduce)
    | exact peak_of (by decide +kernel +zetaReduce) (by decide +kernel +zetaReduce)
    | exact ok_of (by decide +kernel +zetaReduce)
    | exact error_of (by decide +kernel +zetaReduce)
    | exact pend_of (by decide +kernel +zetaReduce)
    | exact Or.inl ⟨rfl, rfl, rfl, rfl⟩
    | (intros; decide +kernel +zetaReduce)
    | (intro p; exact List.not_mem_nil)
    | exact List.Mem.head _
    | (intros; rfl)

theorem witness_FronthaulReceive :
   (let s : State := { booted with slt.carriers := oneCarrier [] [] }
    let p : Nat := 0
    p < 96 ∧ s.hostOpen (Reg.FH_PORT_CFG p) ∧ s.portNamed p = true) ∧
   (let s : State := booted
    let p : Nat := 0
    let v : W32 := 0x84000000#32
    p < 96 ∧ s.hostOpen (Reg.FH_PORT_CFG p) ∧ s.portNamed p = false ∧ bitOf v 31 = true ∧
      shapeAllowed (bitsOf v 27 24) p = true ∧ bitsOf v 27 24 ≠ 6 ∧
      s.lanesTaken (LnOwner.port p) p (shapeLanes (bitsOf v 27 24)) = false ∧ s.portEnabled p = false) ∧
   (let s : State := booted.wr (Reg.FH_PORT_CFG 0) 0x84002580#32
    let p : Nat := 0
    let v : W32 := 0x04000000#32
    p < 96 ∧ s.hostOpen (Reg.FH_PORT_CFG p) ∧ s.portNamed p = false ∧ bitOf v 31 = false ∧
      shapeAllowed (bitsOf v 27 24) p = true ∧ bitsOf v 27 24 ≠ 6 ∧
      s.lanesTaken (LnOwner.port p) p (shapeLanes (bitsOf v 27 24)) = false ∧ s.portEnabled p = true) ∧
   (let s_1 : State := booted.wr (Reg.FH_PORT_CFG 0) 0x84002580#32
    let s : State := s_1.setLane 0 { mode := .up }
    let p : Nat := 0
    let s1 := s.setPort p { up := true, cpriSync := s.isCpri p }
    s.clocked = true ∧ s.portEnabled p = true ∧ (∀ (i : Nat),
      i < shapeLanes (s.portShape p) → (s.lane (p + i)).mode = LnMode.up) ∧ s1.gatewayPort ≠ some p) ∧
   (let s_1 : State := booted.wr (Reg.FH_PORT_CFG 0) 0x84202580#32
    let s_2 : State := s_1.setLane 0 { mode := .up }
    let s : State := s_2.setBit Reg.STF_CTRL 30 true
    let p : Nat := 0
    let s1 := s.setPort p { up := true, cpriSync := s.isCpri p }
    s.clocked = true ∧ s.portEnabled p = true ∧ (∀ (i : Nat),
      i < shapeLanes (s.portShape p) → (s.lane (p + i)).mode = LnMode.up) ∧ s1.gatewayPort = some p ∧ s.gatewayPort ≠ some p) ∧
   (let p : Nat := 0
    let s : State := booted.setPort p { booted.port p with up := true }
    s.clocked = true ∧ (s.port p).up = true ∧ s.gatewayPort ≠ some p) ∧
   (let p : Nat := 0
    let s_1 : State := booted.setPort p { booted.port p with up := true }
    let s_2 : State := s_1.wr (Reg.FH_PORT_CFG 0) 0x84202580#32
    let s : State := s_2.setBit Reg.STF_CTRL 30 true
    s.clocked = true ∧ (s.port p).up = true ∧ s.gatewayPort = some p) ∧
   (let s : State := booted
    let d : Desc := oneDesc 0 0 false [BitVec.ofNat 32 (80)]
    s.clocked = true ∧ s.fh.bufs.length < 4096 ∧ 80 ≤ d.fld 16 13 0 ∧ BitVec.toNat (d.w64 24) % 16 = 0) ∧
   (let p : Nat := 0
    let s_1 : State := booted.setPort p { booted.port p with up := true }
    let s : State := s_1.wr (Reg.FH_PORT_CFG 0) 0x84002580#32
    let data : List Byte := withFcs []
    let s0 := s.bump64 (Reg.FH_PORT_RXFR_LO p) 1
    s.clocked = true ∧ p < 96 ∧ (s.port p).up = true ∧ s.isCpri p = false ∧ (checkFcs data = none ∨ data.length < 64 ∨
      s0.maxFrame p < data.length)) ∧
   (let p : Nat := 0
    let s_1 : State := booted.setPort p { booted.port p with up := true }
    let s : State := s_1.wr (Reg.FH_PORT_CFG 0) 0x84002580#32
    let data : List Byte := withFcs ([0x02#8] ++ List.replicate 59 0)
    let s0 := s.bump64 (Reg.FH_PORT_RXFR_LO p) 1
    let t := s.rxStamp16 p
    let body := List.take (data.length - 4) data
    let f := ethOf body
    let s1 : Bool → State := fun bad => s0.offerFrame 1 p data t bad false ({ s0.rxFlow p body t with window := !bad && (s0.rxFlow p body t).window })
    let u := s1 false
    s.clocked = true ∧ p < 96 ∧ (s.port p).up = true ∧ s.isCpri p = false ∧ (checkFcs data).isSome = true ∧
      64 ≤ data.length ∧ data.length ≤ s0.maxFrame p ∧ f.dst ≠ u.portMac p ∧ groupAddress f.dst = false) ∧
   (let p : Nat := 0
    let s_1 : State := booted.setPort p { booted.port p with up := true }
    let s_2 : State := s_1.wr (Reg.FH_PORT_CFG 0) 0x84202580#32
    let s : State := s_2.wr Reg.FH_STF_ETYPE 0x88B5#32
    let data : List Byte := withFcs ([0x00#8, 0x00#8, 0x00#8, 0x00#8, 0x00#8, 0x00#8, 0x00#8, 0x00#8, 0x00#8, 0x00#8,
      0x00#8, 0x00#8, 0x88#8, 0xb5#8] ++ List.replicate 46 0)
    let s0 := s.bump64 (Reg.FH_PORT_RXFR_LO p) 1
    let t := s.rxStamp16 p
    let body := List.take (data.length - 4) data
    let f := ethOf body
    let s1 : Bool → State := fun bad => s0.offerFrame 1 p data t bad false ({ s0.rxFlow p body t with window := !bad && (s0.rxFlow p body t).window })
    let u := s1 false
    s.clocked = true ∧ p < 96 ∧ (s.port p).up = true ∧ s.isCpri p = false ∧ (checkFcs data).isSome = true ∧
      64 ≤ data.length ∧ data.length ≤ s0.maxFrame p ∧ f.dst = u.portMac p ∧ f.etype = u.fld Reg.FH_STF_ETYPE 15 0 ∧
      u.bit (Reg.FH_PORT_CFG p) 21 = true) ∧
   (let p : Nat := 0
    let s_1 : State := booted.setPort p { booted.port p with up := true }
    let s_2 : State := s_1.wr (Reg.FH_PORT_CFG 0) 0x84002580#32
    let s : State := s_2.wr Reg.FH_STF_ETYPE 0x88B5#32
    let data : List Byte := withFcs ([0x00#8, 0x00#8, 0x00#8, 0x00#8, 0x00#8, 0x00#8, 0x00#8, 0x00#8, 0x00#8, 0x00#8,
      0x00#8, 0x00#8, 0xae#8, 0xfe#8] ++ List.replicate 46 0)
    let s0 := s.bump64 (Reg.FH_PORT_RXFR_LO p) 1
    let t := s.rxStamp16 p
    let body := List.take (data.length - 4) data
    let f := ethOf body
    let s1 : Bool → State := fun bad => s0.offerFrame 1 p data t bad false ({ s0.rxFlow p body t with window := !bad && (s0.rxFlow p body t).window })
    let u := s1 false
    s.clocked = true ∧ p < 96 ∧ (s.port p).up = true ∧ s.isCpri p = false ∧ (checkFcs data).isSome = true ∧
      64 ≤ data.length ∧ data.length ≤ s0.maxFrame p ∧ f.dst = u.portMac p ∧ f.etype ≠ u.fld Reg.FH_STF_ETYPE 15 0 ∧
      f.etype = 44798 ∧ (beAt f.payload 1 1 = 0 ∨ beAt f.payload 1 1 = 2)) ∧
   (let p : Nat := 0
    let s_1 : State := booted.setPort p { booted.port p with up := true }
    let s_2 : State := s_1.wr (Reg.FH_PORT_CFG 0) 0x84002580#32
    let s : State := s_2.wr Reg.FH_STF_ETYPE 0x88B5#32
    let data : List Byte := withFcs ([0x00#8, 0x00#8, 0x00#8, 0x00#8, 0x00#8, 0x00#8, 0x00#8, 0x00#8, 0x00#8, 0x00#8,
      0x00#8, 0x00#8, 0xfc#8, 0x3d#8, 0x10#8] ++ List.replicate 45 0)
    let s0 := s.bump64 (Reg.FH_PORT_RXFR_LO p) 1
    let t := s.rxStamp16 p
    let body := List.take (data.length - 4) data
    let f := ethOf body
    let s1 : Bool → State := fun bad => s0.offerFrame 1 p data t bad false ({ s0.rxFlow p body t with window := !bad && (s0.rxFlow p body t).window })
    let u := s1 false
    s.clocked = true ∧ p < 96 ∧ (s.port p).up = true ∧ s.isCpri p = false ∧ (checkFcs data).isSome = true ∧
      64 ≤ data.length ∧ data.length ≤ s0.maxFrame p ∧ f.dst = u.portMac p ∧ f.etype ≠ u.fld Reg.FH_STF_ETYPE 15 0 ∧
      f.etype = 64573 ∧ beAt f.payload 0 1 = 16) ∧
   (let p : Nat := 0
    let s_1 : State := booted.setPort p { booted.port p with up := true }
    let s_2 : State := s_1.wr (Reg.FH_PORT_CFG 0) 0x84002580#32
    let s_3 : State := s_2.wr Reg.FH_STF_ETYPE 0x88B5#32
    let s : State := { s_3 with fh.bufs := [{ ref := ⟨0, 0#32, false, false⟩, fn := 0, len := 4096, addr := 0#64 }] }
    let data : List Byte := withFcs ([0x00#8, 0x00#8, 0x00#8, 0x00#8, 0x00#8, 0x00#8, 0x00#8, 0x00#8, 0x00#8, 0x00#8,
      0x00#8, 0x00#8, 0x08#8] ++ List.replicate 47 0)
    let s0 := s.bump64 (Reg.FH_PORT_RXFR_LO p) 1
    let t := s.rxStamp16 p
    let body := List.take (data.length - 4) data
    let f := ethOf body
    let s1 : Bool → State := fun bad => s0.offerFrame 1 p data t bad false ({ s0.rxFlow p body t with window := !bad && (s0.rxFlow p body t).window })
    let u := s1 false
    let b : RxBuf := ((takeBuf (body.length + 16) u.fh.bufs).getD ({ ref := ⟨0, 0#32, false, false⟩, fn := 0, len := 4096, addr := 0#64 },
      [])).1
    let r : List RxBuf := ((takeBuf (body.length + 16) u.fh.bufs).getD ({ ref := ⟨0, 0#32, false, false⟩, fn := 0, len := 4096, addr := 0#64 },
      [])).2
    s.clocked = true ∧ p < 96 ∧ (s.port p).up = true ∧ s.isCpri p = false ∧ (checkFcs data).isSome = true ∧
      64 ≤ data.length ∧ data.length ≤ s0.maxFrame p ∧ f.dst = u.portMac p ∧ f.etype ≠ u.fld Reg.FH_STF_ETYPE 15 0 ∧
      f.etype ≠ 44798 ∧ f.etype ≠ 64573 ∧ hostRate u.tb.raw u.fh.hostIn < hostMax ∧
      takeBuf (body.length + 16) u.fh.bufs = some (b, r)) ∧
   (let p : Nat := 0
    let s_1 : State := booted.setPort p { booted.port p with up := true }
    let s_2 : State := s_1.wr (Reg.FH_PORT_CFG 0) 0x84002580#32
    let s : State := s_2.wr Reg.FH_STF_ETYPE 0x88B5#32
    let data : List Byte := withFcs ([0x00#8, 0x00#8, 0x00#8, 0x00#8, 0x00#8, 0x00#8, 0x00#8, 0x00#8, 0x00#8, 0x00#8,
      0x00#8, 0x00#8, 0x08#8] ++ List.replicate 47 0)
    let s0 := s.bump64 (Reg.FH_PORT_RXFR_LO p) 1
    let t := s.rxStamp16 p
    let body := List.take (data.length - 4) data
    let f := ethOf body
    let s1 : Bool → State := fun bad => s0.offerFrame 1 p data t bad false ({ s0.rxFlow p body t with window := !bad && (s0.rxFlow p body t).window })
    let u := s1 false
    s.clocked = true ∧ p < 96 ∧ (s.port p).up = true ∧ s.isCpri p = false ∧ (checkFcs data).isSome = true ∧
      64 ≤ data.length ∧ data.length ≤ s0.maxFrame p ∧ f.dst = u.portMac p ∧ f.etype ≠ u.fld Reg.FH_STF_ETYPE 15 0 ∧
      f.etype ≠ 44798 ∧ f.etype ≠ 64573 ∧ (takeBuf (body.length + 16) u.fh.bufs = none ∨
      hostMax ≤ hostRate u.tb.raw u.fh.hostIn)) ∧
   (let s : State := booted
    let p : Nat := 0
    let data : List Byte := withFcs ([0x02#8] ++ List.replicate 59 0)
    let f := ethOf (List.take (data.length - 4) data)
    f.dst ≠ s.portMac p ∧ groupAddress f.dst = false) ∧
   (let p : Nat := 0
    let s_1 : State := booted.setPort p { booted.port p with up := true }
    let s : State := s_1.wr (Reg.FH_PORT_CFG 0) 0x88002580#32
    s.clocked = true ∧ p < 96 ∧ (s.port p).up = true ∧ s.isCpri p = true) ∧
   (let s : State := booted
    let c : Nat := 0
    let h : Half := .ul
    let app : List Byte := []
    let t : Int := 6553600
    let x := beAt app 2 2
    let cfg := (s.carrier c).cfg
    let n : Int := (s.namedSlot cfg t (beAt app 1 1) (x / 4096) (x / 64 % 64) (x % 64)).getD 0
    let pg := flowPage (s.slotWords c h n)
    let l : List Section := (sectionsOf pg app.length (List.drop 4 app)).getD []
    let fate := s.windowFate c h n (x % 64) t
    s.namedSlot cfg t (beAt app 1 1) (x / 4096) (x / 64 % 64) (x % 64) = some n ∧
      sectionsOf pg app.length (List.drop 4 app) = some l ∧ fate = some false) ∧
   (let s : State := booted
    let c : Nat := 0
    let h : Half := .ul
    let app : List Byte := []
    let t : Int := -1
    let x := beAt app 2 2
    let cfg := (s.carrier c).cfg
    let n : Int := (s.namedSlot cfg t (beAt app 1 1) (x / 4096) (x / 64 % 64) (x % 64)).getD 0
    let pg := flowPage (s.slotWords c h n)
    let l : List Section := (sectionsOf pg app.length (List.drop 4 app)).getD []
    let fate := s.windowFate c h n (x % 64) t
    s.namedSlot cfg t (beAt app 1 1) (x / 4096) (x / 64 % 64) (x % 64) = some n ∧
      sectionsOf pg app.length (List.drop 4 app) = some l ∧ fate = some true) ∧
   (let s : State := booted
    let c : Nat := 0
    let h : Half := .ul
    let stream : Nat := 0
    let app : List Byte := []
    let t : Int := 0
    let x := beAt app 2 2
    let cfg := (s.carrier c).cfg
    let n : Int := (s.namedSlot cfg t (beAt app 1 1) (x / 4096) (x / 64 % 64) (x % 64)).getD 0
    let pg := flowPage (s.slotWords c h n)
    let l : List Section := (sectionsOf pg app.length (List.drop 4 app)).getD []
    let fate := s.windowFate c h n (x % 64) t
    s.namedSlot cfg t (beAt app 1 1) (x / 4096) (x / 64 % 64) (x % 64) = some n ∧
      sectionsOf pg app.length (List.drop 4 app) = some l ∧ fate = none ∧ beAt app 0 1 % 16 = 0 ∧ stream < pg.nStream) ∧
   (let s : State := booted
    let c : Nat := 0
    let h : Half := .ul
    let stream : Nat := 200
    let app : List Byte := []
    let t : Int := 0
    let x := beAt app 2 2
    let cfg := (s.carrier c).cfg
    let n : Int := (s.namedSlot cfg t (beAt app 1 1) (x / 4096) (x / 64 % 64) (x % 64)).getD 0
    let pg := flowPage (s.slotWords c h n)
    let l : List Section := (sectionsOf pg app.length (List.drop 4 app)).getD []
    let fate := s.windowFate c h n (x % 64) t
    s.namedSlot cfg t (beAt app 1 1) (x / 4096) (x / 64 % 64) (x % 64) = some n ∧
      sectionsOf pg app.length (List.drop 4 app) = some l ∧ fate = none ∧ (beAt app 0 1 % 16 ≠ 0 ∨ pg.nStream ≤ stream)) ∧
   (let s : State := { booted with slt.carriers := oneCarrier [(0, 0xFFFFFFFF#32), (96, 0x80000000#32)] [], tb.offsetU := 2 ^ 90 }
    let c : Nat := 0
    let h : Half := .ul
    let stamp : W32 := stampOf 1 0
    let last : Nat := 13
    let l : SlotLatch := { ((s.liveByStamp c h stamp).getD { slot := 0, words := [], gen := 1 } : SlotLatch) with aborted := false }
    let x := s.carrier c
    let p := flowPage l.words
    let g := groupOf p (symsPerSlot x.cfg) last
    let ms := maskedSyms l.words g
    let m : Nat := (ms.getLast?).getD 0
    let r := rxSlotOf (s.fhHalf c h).rx l.slot
    let got := (List.filter (fun k => ms.contains (k / 2 ^ 20)) r.got).length
    let missing := ms.length * p.nStream * p.nRb - got
    let close := (s.window x.cfg h p l.slot m).snd
    s.clocked = true ∧ s.liveByStamp c h stamp = some l ∧ x.receives h = true ∧ x.fhMode = 0 ∧ l.aborted = false ∧
      g.snd = last ∧ last < symsPerSlot x.cfg ∧ r.done.contains last = false ∧ ms.getLast? = some m ∧ (missing = 0 ∨
      close ≤ s.tb.time16)) := by
  refine ⟨?_, ?_, ?_, ?_, ?_, ?_, ?_, ?_, ?_, ?_, ?_, ?_, ?_, ?_, ?_, ?_, ?_, ?_, ?_, ?_, ?_, ?_⟩
  all_goals try intros
  all_goals and_intros
  all_goals first
    | decide +kernel +zetaReduce
    | exact hostOpen_of (by decide +kernel +zetaReduce)
    | exact leafReady_of (by decide +kernel +zetaReduce)
    | exact canonical_of (by decide +kernel +zetaReduce)
    | exact rateLegal_of (by decide +kernel +zetaReduce)
    | exact fetchInstr_of (by decide +kernel +zetaReduce)
    | exact onlyMoves_of _ rfl
    | exact Prod.ext rfl (some_of (by decide +kernel +zetaReduce))
    | exact Prod.ext rfl (by decide +kernel +zetaReduce)
    | exact ⟨_, rfl, by decide +kernel +zetaReduce⟩
    | exact some_of (by decide +kernel +zetaReduce)
    | exact peak_of (by decide +kernel +zetaReduce) (by decide +kernel +zetaReduce)
    | exact ok_of (by decide +kernel +zetaReduce)
    | exact error_of (by decide +kernel +zetaReduce)
    | exact pend_of (by decide +kernel +zetaReduce)
    | exact Or.inl ⟨rfl, rfl, rfl, rfl⟩
    | (intros; decide +kernel +zetaReduce)
    | (intro p; exact List.not_mem_nil)
    | exact List.Mem.head _
    | (intros; rfl)

theorem witness_FronthaulTransmit :
   (let c : Nat := 0
    let s_1 : State := booted.setCarrier c { booted.carrier c with mode := .running }
    let s_2 : State := { s_1 with slt.carriers := oneCarrier [] [(5, 0x20000000#32)] }
    let s : State := s_2.setQueue 0 oneItemQueue
    let h : Half := .dl
    let qid : Nat := ((s.txQueue c h fun p => some p.dataQid)).getD 0
    let s1 : State := (s.headItem qid (fhConsumer c h)).1
    let i : QItem := ((s.headItem qid (fhConsumer c h)).2).getD oneItem
    s.clocked = true ∧ (s.carrier c).receives h = false ∧ (s.carrier c).isStopped = false ∧
      (s.txQueue c h fun p => some p.dataQid) = some qid ∧ s.headItem qid (fhConsumer c h) = (s1, some i) ∧
      (s.carrier c).fhMode ≠ 0) ∧
   (let c : Nat := 0
    let h : Half := .dl
    let s_1 : State := booted.setCarrier c { booted.carrier c with mode := .running }
    let s_2 : State := s_1.setFhHalf c h { s_1.fhHalf c h with head := none }
    let s_3 : State := { s_2 with slt.carriers := oneCarrier [] [], tb.offsetU := 2 ^ 90 }
    let s : State := s_3.setQueue 0 oneItemQueue
    let qid : Nat := ((s.txQueue c h fun p => some p.dataQid)).getD 0
    let s1 : State := (s.headItem qid (fhConsumer c h)).1
    let i : QItem := ((s.headItem qid (fhConsumer c h)).2).getD oneItem
    let sym := i.tag.toNat / 256
    s.clocked = true ∧ (s.carrier c).receives h = false ∧ (s.carrier c).isStopped = false ∧
      (s.txQueue c h fun p => some p.dataQid) = some qid ∧ s.headItem qid (fhConsumer c h) = (s1, some i) ∧
      (s.carrier c).fhMode = 0 ∧ (s.fhHalf c h).head = none ∧ s1.assignSlot c h qid sym = none) ∧
   (let c : Nat := 0
    let h : Half := .dl
    let s_1 : State := booted.setCarrier c { booted.carrier c with mode := .running }
    let s_2 : State := s_1.setFhHalf c h { s_1.fhHalf c h with head := none }
    let s_3 : State := { s_2 with slt.carriers := oneCarrier [] [] }
    let s : State := s_3.setQueue 0 oneItemQueue
    let qid : Nat := ((s.txQueue c h fun p => some p.dataQid)).getD 0
    let s1 : State := (s.headItem qid (fhConsumer c h)).1
    let i : QItem := ((s.headItem qid (fhConsumer c h)).2).getD oneItem
    let sym := i.tag.toNat / 256
    let l : SlotLatch := { ((s1.assignSlot c h qid sym).getD { slot := 0, words := [], gen := 1 } : SlotLatch) with aborted := false }
    s.clocked = true ∧ (s.carrier c).receives h = false ∧ (s.carrier c).isStopped = false ∧
      (s.txQueue c h fun p => some p.dataQid) = some qid ∧ s.headItem qid (fhConsumer c h) = (s1, some i) ∧
      (s.carrier c).fhMode = 0 ∧ (s.fhHalf c h).head = none ∧ s1.assignSlot c h qid sym = some l ∧ l.aborted = false ∧
      inMask l.words sym = false) ∧
   (let c : Nat := 0
    let h : Half := .dl
    let s_1 : State := booted.setCarrier c { booted.carrier c with mode := .running }
    let s_2 : State := s_1.setFhHalf c h { s_1.fhHalf c h with head := none }
    let s_3 : State := { s_2 with slt.carriers := oneCarrier [(0, 0xFFFFFFFF#32), (96, 0x80000000#32)] [] }
    let s : State := s_3.setQueue 0 oneItemQueue
    let qid : Nat := ((s.txQueue c h fun p => some p.dataQid)).getD 0
    let s1 : State := (s.headItem qid (fhConsumer c h)).1
    let i : QItem := ((s.headItem qid (fhConsumer c h)).2).getD oneItem
    let sym := i.tag.toNat / 256
    let stream := i.tag.toNat % 256
    let l : SlotLatch := { ((s1.assignSlot c h qid sym).getD { slot := 0, words := [], gen := 1 } : SlotLatch) with aborted := false }
    s.clocked = true ∧ (s.carrier c).receives h = false ∧ (s.carrier c).isStopped = false ∧
      (s.txQueue c h fun p => some p.dataQid) = some qid ∧ s.headItem qid (fhConsumer c h) = (s1, some i) ∧
      (s.carrier c).fhMode = 0 ∧ (s.fhHalf c h).head = none ∧ s1.assignSlot c h qid sym = some l ∧ l.aborted = false ∧
      inMask l.words sym = true ∧ sym < symsPerSlot (s.carrier c).cfg ∧ stream < (flowPage l.words).nStream) ∧
   (let port : Nat := 0
    let x : PressOut := ⟨port, 0, 0, []⟩
    let s_1 : State := { booted with cap.outq := [x] }
    let s_2 : State := s_1.setPort port { s_1.port port with up := true }
    let s : State := { s_2 with cap.outq := [x] }
    s.clocked = true ∧ (s.port port).up = true ∧ List.find? (fun x => x.port == port) s.cap.outq = some x) ∧
   (let port : Nat := 0
    let s_1 : State := booted.setPort port { booted.port port with up := true }
    let s_2 : State := { s_1 with slt.carriers := oneCarrier [(0, 0xFFFFFFFF#32), (96, 0x80000000#32)] [] }
    let s : State := s_2.setFhHalf 0 .dl { head := some { slot := 0, sym := 0, stream := 0, data := [] } }
    let s1 := s.pullPort port
    let r : Ready := (earliestReady (s1.portReady port)).getD { close := 0, carrier := 0, half := .dl, stream := 0, prb := 0, kind := .uplane }
    s.clocked = true ∧ (s.port port).up = true ∧ List.find? (fun x => x.port == port) s.cap.outq = none ∧
      earliestReady (s1.portReady port) = some r) ∧
   (let port : Nat := 0
    let x : Nat × List Byte := (port, [])
    let s_1 : State := booted.setPort port { booted.port port with up := true }
    let s : State := { s_1 with fh.stitchTx := [x] }
    let s1 := s.pullPort port
    s.clocked = true ∧ (s.port port).up = true ∧ List.find? (fun x => x.port == port) s.cap.outq = none ∧
      s1.portReady port = [] ∧ List.find? (fun x => x.fst == port) s1.fh.stitchTx = some x) ∧
   (let port : Nat := 0
    let x : HostFrame := { ref := ⟨0, 0#32, false, false⟩, port := 0, data := [] }
    let s_1 : State := booted.setPort port { booted.port port with up := true }
    let s : State := { s_1 with fh.hostTx := [x] }
    let s1 := s.pullPort port
    s.clocked = true ∧ (s.port port).up = true ∧ List.find? (fun x => x.port == port) s.cap.outq = none ∧
      s1.portReady port = [] ∧ List.find? (fun x => x.fst == port) s1.fh.stitchTx = none ∧
      List.find? (fun x => x.port == port) s1.fh.hostTx = some x ∧ s1.hostRoom = true) ∧
   (let port : Nat := 0
    let x : HostFrame := { ref := ⟨0, 0#32, false, false⟩, port := 0, data := [] }
    let s_1 : State := booted.setPort port { booted.port port with up := true }
    let s : State := { s_1 with fh.hostTx := [x], fh.hostOut := (0, hostMax) }
    let s1 := s.pullPort port
    s.clocked = true ∧ (s.port port).up = true ∧ List.find? (fun x => x.port == port) s.cap.outq = none ∧
      s1.portReady port = [] ∧ List.find? (fun x => x.fst == port) s1.fh.stitchTx = none ∧
      List.find? (fun x => x.port == port) s1.fh.hostTx = some x ∧ s1.hostRoom = false) ∧
   (let l : List Ready := [{ close := 0, carrier := 0, half := .dl, stream := 0, prb := 0, kind := .uplane }]
    let r : Ready := { close := 0, carrier := 0, half := .dl, stream := 0, prb := 0, kind := .uplane }
    let x : Ready := { close := 0, carrier := 0, half := .dl, stream := 0, prb := 0, kind := .uplane }
    earliestReady l = some r ∧ x ∈ l) ∧
   (let port : Nat := 0
    let c : Nat := 0
    let h : Half := .dl
    let d : TxHead := { slot := 0, sym := 0, stream := 0, data := [] }
    let s_1 : State := booted.setFhHalf c h { booted.fhHalf c h with head := some d }
    let s : State := { s_1 with slt.carriers := oneCarrier [(0, 0xFFFFFFFF#32), (96, 0x80000000#32)] [], tb.offsetU := 2 ^ 90 }
    let p := flowPage (s.slotWords c h d.slot)
    let n := s.prbsThatFit c p d
    let q := s.nextSeqOut c h d.stream
    let app := (appHeader (s.carrier c).cfg h d.slot d.sym ++
      beBytes 4 (p.sectionId * 2 ^ 20 + d.nextPrb * 2 ^ 8 + if n = p.nRb then 0 else n) ++
      if p.staticHdr = true then [] else beBytes 1 (p.width % 16 * 16 + p.meth) ++ [0]) ++
      List.flatMap (fun i => wirePrb p d.data (d.nextPrb + i)) (List.range n)
    let body := s.carrierHeader c 44798 ++ ecpriHeader 0 (p.key d.stream) q.snd app.length ++ app
    let late := (s.window (s.carrier c).cfg h p d.slot d.sym).snd < s.txStamp16 port + s.frameTime16 port (max 64 (body.length + 4))
    (s.fhHalf c h).head = some d ∧ late) ∧
   (let port : Nat := 0
    let c : Nat := 0
    let h : Half := .dl
    let d : TxHead := { slot := 0, sym := 0, stream := 0, data := [] }
    let s_1 : State := booted.setFhHalf c h { booted.fhHalf c h with head := some d }
    let s : State := { s_1 with slt.carriers := oneCarrier [(0, 0xFFFFFFFF#32), (33, 0x44C#32), (35, 0x7FFFFFFF#32)] [] }
    let p := flowPage (s.slotWords c h d.slot)
    let n := s.prbsThatFit c p d
    let q := s.nextSeqOut c h d.stream
    let app := (appHeader (s.carrier c).cfg h d.slot d.sym ++
      beBytes 4 (p.sectionId * 2 ^ 20 + d.nextPrb * 2 ^ 8 + if n = p.nRb then 0 else n) ++
      if p.staticHdr = true then [] else beBytes 1 (p.width % 16 * 16 + p.meth) ++ [0]) ++
      List.flatMap (fun i => wirePrb p d.data (d.nextPrb + i)) (List.range n)
    let body := s.carrierHeader c 44798 ++ ecpriHeader 0 (p.key d.stream) q.snd app.length ++ app
    let late := (s.window (s.carrier c).cfg h p d.slot d.sym).snd < s.txStamp16 port + s.frameTime16 port (max 64 (body.length + 4))
    (s.fhHalf c h).head = some d ∧ ¬late ∧ n ≠ 0 ∧ d.nextPrb + n < p.nRb) ∧
   (let port : Nat := 0
    let c : Nat := 0
    let h : Half := .dl
    let d : TxHead := { slot := 0, sym := 0, stream := 0, data := [] }
    let s_1 : State := booted.setFhHalf c h { booted.fhHalf c h with head := some d }
    let s : State := { s_1 with slt.carriers := oneCarrier [(0, 0xFFFFFFFF#32), (35, 0x7FFFFFFF#32)] [] }
    let p := flowPage (s.slotWords c h d.slot)
    let n := s.prbsThatFit c p d
    let q := s.nextSeqOut c h d.stream
    let app := (appHeader (s.carrier c).cfg h d.slot d.sym ++
      beBytes 4 (p.sectionId * 2 ^ 20 + d.nextPrb * 2 ^ 8 + if n = p.nRb then 0 else n) ++
      if p.staticHdr = true then [] else beBytes 1 (p.width % 16 * 16 + p.meth) ++ [0]) ++
      List.flatMap (fun i => wirePrb p d.data (d.nextPrb + i)) (List.range n)
    let body := s.carrierHeader c 44798 ++ ecpriHeader 0 (p.key d.stream) q.snd app.length ++ app
    let late := (s.window (s.carrier c).cfg h p d.slot d.sym).snd < s.txStamp16 port + s.frameTime16 port (max 64 (body.length + 4))
    (s.fhHalf c h).head = some d ∧ ¬late ∧ n ≠ 0 ∧ p.nRb ≤ d.nextPrb + n) ∧
   (let c : Nat := 0
    let s_1 : State := booted.setCarrier c { booted.carrier c with mode := .running }
    let s_2 : State := { s_1 with slt.carriers := oneCarrier [(0, 0xFFFFFFFF#32), (96, 0x80000000#32)] [], tb.offsetU := 2 ^ 90 }
    let s : State := s_2.setFhHalf 0 .dl { whole := [(0, 0, 0)] }
    let h : Half := .dl
    let stamp : W32 := stampOf 1 0
    let sym : Nat := 0
    let l : SlotLatch := (s.liveByStamp c h stamp).getD { slot := 0, words := [], gen := 1 }
    let f := s.fhHalf c h
    let n := (List.filter (fun k => !f.whole.contains (l.slot, sym, k)) (List.range (flowPage l.words).nStream)).length
    s.clocked = true ∧ (s.carrier c).receives h = false ∧ (s.carrier c).isStopped = false ∧ (s.carrier c).fhMode = 0 ∧
      s.liveByStamp c h stamp = some l ∧ inMask l.words sym = true ∧ sym < symsPerSlot (s.carrier c).cfg ∧
      (s.fhHalf c h).closed.contains (l.slot, sym) = false ∧
      (s.window (s.carrier c).cfg h (flowPage l.words) l.slot sym).snd ≤ s.tb.time16 ∧ n = 0) ∧
   (let c : Nat := 0
    let s_1 : State := booted.setCarrier c { booted.carrier c with mode := .running }
    let s : State := { s_1 with slt.carriers := oneCarrier [(0, 0xFFFFFFFF#32), (96, 0x80000000#32)] [], tb.offsetU := 2 ^ 90 }
    let h : Half := .dl
    let stamp : W32 := stampOf 1 0
    let sym : Nat := 0
    let l : SlotLatch := (s.liveByStamp c h stamp).getD { slot := 0, words := [], gen := 1 }
    let f := s.fhHalf c h
    let n := (List.filter (fun k => !f.whole.contains (l.slot, sym, k)) (List.range (flowPage l.words).nStream)).length
    s.clocked = true ∧ (s.carrier c).receives h = false ∧ (s.carrier c).isStopped = false ∧ (s.carrier c).fhMode = 0 ∧
      s.liveByStamp c h stamp = some l ∧ inMask l.words sym = true ∧ sym < symsPerSlot (s.carrier c).cfg ∧
      (s.fhHalf c h).closed.contains (l.slot, sym) = false ∧
      (s.window (s.carrier c).cfg h (flowPage l.words) l.slot sym).snd ≤ s.tb.time16 ∧ 0 < n) ∧
   (let s_1 : State := booted.setPort 0 { up := true }
    let s : State := { s_1 with slt.carriers := oneCarrier [(0, 0xFFFFFFFF#32), (36, 0x20000000#32)] [], tb.offsetU := 2 ^ 90 }
    let c : Nat := 0
    let h : Half := .dl
    let stamp : W32 := stampOf 1 0
    let stream : Nat := 0
    let port := (s.carrier c).port
    let t := s.pullPort port
    let r : Ready := (earliestReady (t.portReady port)).getD { close := 0, carrier := 0, half := .dl, stream := 0, prb := 0, kind := .uplane }
    let l : SlotLatch := { slot := 0, words := [(0, 0xFFFFFFFF#32), (36, 0x20000000#32)], gen := 1 }
    s.clocked = true ∧ earliestReady (t.portReady port) = some r ∧ r.carrier = c ∧ r.half = h ∧ (t.port port).up = true ∧
      r.kind = ReadyKind.cpAuto l ∧ r.stream = stream ∧ t.stampOfSlot c l.slot = stamp) ∧
   (let s_1 : State := booted.setPort 0 { up := true }
    let s_2 : State := { s_1 with slt.carriers := oneCarrier [] [], tb.offsetU := 2 ^ 90 }
    let s_3 : State := s_2.setQueue 0 oneItemQueue
    let s : State := { s_3 with slt.carriers := [(0, { mode := .running, dl := { running := true, nextSlot := 1, curSlot := some 0, felt := [(36, 0x40000000#32)] } })] }
    let c : Nat := 0
    let h : Half := .dl
    let stream : Nat := 0
    let port := (s.carrier c).port
    let t := s.pullPort port
    let r : Ready := (earliestReady (t.portReady port)).getD { close := 0, carrier := 0, half := .dl, stream := 0, prb := 0, kind := .uplane }
    let i : QItem := oneItem
    s.clocked = true ∧ earliestReady (t.portReady port) = some r ∧ r.carrier = c ∧ r.half = h ∧ (t.port port).up = true ∧
      r.kind = ReadyKind.cpQueue ∧ (t.fhHalf c h).cpHead = some i) ∧
   (let s : State := booted
    let c : Nat := 0
    let t := s.pullPort (s.carrier c).port
    s.clocked = true ∧ earliestReady (t.portReady (s.carrier c).port) = none) ∧
   (let s : State := booted
    let port : Nat := 0
    let c : Nat := 0
    let h : Half := .ul
    let n : Int := 0
    let p : FlowPage := flowPage []
    let stream : Nat := 0
    let app : List Byte := []
    let t : Int := 0
    let q := s.nextSeqOut c h stream
    let s1 := q.fst.sendFrame port (s.carrierHeader c 44798 ++ ecpriHeader 2 (p.key stream) q.snd app.length ++
      app) { carrier := c, slot := s.stampOfSlot c n }
    s1.tb.time16 ≤ t + 10000 * 65536) ∧
   (let s : State := booted
    let port : Nat := 0
    let c : Nat := 0
    let h : Half := .ul
    let n : Int := 0
    let p : FlowPage := flowPage []
    let stream : Nat := 0
    let app : List Byte := []
    let t : Int := -655360001
    let q := s.nextSeqOut c h stream
    let s1 := q.fst.sendFrame port (s.carrierHeader c 44798 ++ ecpriHeader 2 (p.key stream) q.snd app.length ++
      app) { carrier := c, slot := s.stampOfSlot c n }
    t + 10000 * 65536 < s1.tb.time16) ∧
   (let d : Desc := oneDesc 0 0 false [BitVec.ofNat 32 (60)]
    let s : State := booted.setPort (d.fld 16 22 16) { booted.port (d.fld 16 22 16) with up := false }
    let port := d.fld 16 22 16
    s.clocked = true ∧ d.fld 16 22 16 ≤ 95 ∧ 60 ≤ d.fld 16 13 0 ∧ d.fld 16 13 0 ≤ s.maxFrame (d.fld 16 22 16) - 4 ∧
      (s.port port).up = false) ∧
   (let d : Desc := oneDesc 0 0 false [BitVec.ofNat 32 (60)]
    let s_1 : State := booted.setPort (d.fld 16 22 16) { booted.port (d.fld 16 22 16) with up := true }
    let s : State := s_1.wr (Reg.FH_PORT_CFG 0) 0x84002580#32
    let data : List Byte := []
    let port := d.fld 16 22 16
    let len := d.fld 16 13 0
    s.clocked = true ∧ d.fld 16 22 16 ≤ 95 ∧ 60 ≤ d.fld 16 13 0 ∧ d.fld 16 13 0 ≤ s.maxFrame (d.fld 16 22 16) - 4 ∧
      (s.port port).up = true ∧ s.portEnabled port = true ∧ s.isCpri port = false ∧ data.length < len) ∧
   (let d : Desc := oneDesc 0 0 false [BitVec.ofNat 32 (60)]
    let s_1 : State := booted.setPort (d.fld 16 22 16) { booted.port (d.fld 16 22 16) with up := true }
    let s : State := s_1.wr (Reg.FH_PORT_CFG 0) 0x84002580#32
    let data : List Byte := List.replicate 60 0
    let port := d.fld 16 22 16
    let len := d.fld 16 13 0
    let s0 := s.emit (Out.hostRead (s.descFn d) (d.w64 24) len)
    let s1 := s0.pullPort port
    let x : HostFrame := { ref := d.ref false, port := port, data := List.take len data }
    s.clocked = true ∧ d.fld 16 22 16 ≤ 95 ∧ 60 ≤ d.fld 16 13 0 ∧ d.fld 16 13 0 ≤ s.maxFrame (d.fld 16 22 16) - 4 ∧
      (s.port port).up = true ∧ s.portEnabled port = true ∧ s.isCpri port = false ∧ len ≤ data.length ∧
      s1.hostRoom = true ∧ (isPtpEvent (ethOf x.data) = true ∨ s1.portQuiet port = true ∧ ∀ (y : HostFrame),
      y ∈ s1.fh.hostTx → y.port ≠ port)) ∧
   (let d : Desc := oneDesc 0 0 false [BitVec.ofNat 32 (60)]
    let data : List Byte := List.replicate 60 0
    let s_1 : State := booted.setPort (d.fld 16 22 16) { booted.port (d.fld 16 22 16) with up := true }
    let s_2 : State := s_1.wr (Reg.FH_PORT_CFG 0) 0x84002580#32
    let s_3 : State := { s_2 with slt.carriers := oneCarrier [(0, 0xFFFFFFFF#32), (96, 0x80000000#32)] [] }
    let s : State := s_3.setFhHalf 0 .dl { head := some { slot := 0, sym := 0, stream := 0, data := [] } }
    let port := d.fld 16 22 16
    let len := d.fld 16 13 0
    let s0 := s.emit (Out.hostRead (s.descFn d) (d.w64 24) len)
    let s1 := s0.pullPort port
    let x : HostFrame := { ref := d.ref false, port := port, data := List.take len data }
    s.clocked = true ∧ d.fld 16 22 16 ≤ 95 ∧ 60 ≤ d.fld 16 13 0 ∧ d.fld 16 13 0 ≤ s.maxFrame (d.fld 16 22 16) - 4 ∧
      (s.port port).up = true ∧ s.portEnabled port = true ∧ s.isCpri port = false ∧ len ≤ data.length ∧
      (s1.hostRoom = false ∨ isPtpEvent (ethOf x.data) = false ∧ s1.portQuiet port = false)) := by
  refine ⟨?_, ?_, ?_, ?_, ?_, ?_, ?_, ?_, ?_, ?_, ?_, ?_, ?_, ?_, ?_, ?_, ?_, ?_, ?_, ?_, ?_, ?_, ?_, ?_⟩
  all_goals try intros
  all_goals and_intros
  all_goals first
    | decide +kernel +zetaReduce
    | exact hostOpen_of (by decide +kernel +zetaReduce)
    | exact leafReady_of (by decide +kernel +zetaReduce)
    | exact canonical_of (by decide +kernel +zetaReduce)
    | exact rateLegal_of (by decide +kernel +zetaReduce)
    | exact fetchInstr_of (by decide +kernel +zetaReduce)
    | exact onlyMoves_of _ rfl
    | exact Prod.ext rfl (some_of (by decide +kernel +zetaReduce))
    | exact Prod.ext rfl (by decide +kernel +zetaReduce)
    | exact ⟨_, rfl, by decide +kernel +zetaReduce⟩
    | exact some_of (by decide +kernel +zetaReduce)
    | exact peak_of (by decide +kernel +zetaReduce) (by decide +kernel +zetaReduce)
    | exact ok_of (by decide +kernel +zetaReduce)
    | exact error_of (by decide +kernel +zetaReduce)
    | exact pend_of (by decide +kernel +zetaReduce)
    | exact Or.inl ⟨rfl, rfl, rfl, rfl⟩
    | (intros; decide +kernel +zetaReduce)
    | (intro p; exact List.not_mem_nil)
    | exact List.Mem.head _
    | (intros; rfl)

theorem witness_LaneTraining :
   (let n : Nat := 0
    let s : State := booted.setLane n { booted.lane n with mode := LnMode.send, adapts := false }
    let l := s.lane n
    s.clocked = true ∧ (l.mode = LnMode.send ∨ l.mode = LnMode.silentWait) ∧ l.adapts = false) ∧
   (let n : Nat := 0
    let s : State := booted.setLane n { booted.lane n with mode := LnMode.send }
    let l := s.lane n
    let c : Instr := Instr.partnerWaitExpiry n
    s.clocked = true ∧ (l.mode = LnMode.send ∧ c = Instr.partnerWaitExpiry n ∨ l.mode = LnMode.adapt ∧
      c = Instr.adaptTimeout n)) ∧
   (let n : Nat := 0
    let s : State := booted.setLane n { booted.lane n with mode := LnMode.silentWait }
    let l := s.lane n
    s.clocked = true ∧ l.mode = LnMode.silentWait) ∧
   (let n : Nat := 0
    let p : Nat := 0
    let s : State := booted.setLane n { booted.lane n with mode := LnMode.train, owner := LnOwner.port p }
    let l := s.lane n
    s.clocked = true ∧ l.mode = LnMode.train ∧ (l.owner = LnOwner.port p ∨ l.owner = LnOwner.spill p)) ∧
   (let n : Nat := 0
    let k : Nat := 0
    let s : State := booted.setLane n { booted.lane n with mode := LnMode.train, owner := LnOwner.stitch k }
    let l := s.lane n
    s.clocked = true ∧ l.mode = LnMode.train ∧ l.owner = LnOwner.stitch k ∧ l.loop ≠ 3 ∧ l.loop ≠ 4) ∧
   (let n : Nat := 0
    let k : Nat := 0
    let s : State := booted.setLane n { booted.lane n with mode := LnMode.train, owner := LnOwner.stitch k, loop := 3 }
    let l := s.lane n
    s.clocked = true ∧ l.mode = LnMode.train ∧ l.owner = LnOwner.stitch k ∧ (l.loop = 3 ∨ l.loop = 4)) ∧
   (let n : Nat := 0
    let s : State := booted.setLane n { booted.lane n with mode := LnMode.train, owner := LnOwner.test }
    let l := s.lane n
    s.clocked = true ∧ l.mode = LnMode.train ∧ l.owner = LnOwner.test) ∧
   (let n : Nat := 0
    let s : State := booted.setLane n { booted.lane n with mode := LnMode.adapt }
    let l := s.lane n
    s.clocked = true ∧ l.mode = LnMode.adapt) ∧
   (let n : Nat := 0
    let s : State := booted.setLane n { booted.lane n with mode := LnMode.ready }
    let l := s.lane n
    s.clocked = true ∧ (l.mode = LnMode.ready ∨ l.mode = LnMode.up)) ∧
   (let s : State := booted
    let n : Nat := 0
    let v : W32 := BitVec.ofNat _ (0)
    n < 96 ∧ s.hostOpen (Reg.LN_CMD n) ∧ bitOf v 0 = false) ∧
   (let s : State := booted
    let n : Nat := 0
    let v : W32 := BitVec.ofNat _ (1)
    n < 96 ∧ s.hostOpen (Reg.LN_CMD n) ∧ bitOf v 0 = true ∧ (s.lane n).mode ≠ LnMode.ready ∧ (s.lane n).mode ≠ LnMode.up) ∧
   (let s : State := booted.setLane 0 { mode := .up, owner := .port 0 }
    let n : Nat := 0
    let v : W32 := BitVec.ofNat _ (1)
    let p : Nat := 0
    n < 96 ∧ s.hostOpen (Reg.LN_CMD n) ∧ bitOf v 0 = true ∧ ((s.lane n).mode = LnMode.ready ∨
      (s.lane n).mode = LnMode.up) ∧ ((s.lane n).owner = LnOwner.port p ∨ (s.lane n).owner = LnOwner.stitch p)) ∧
   (let n : Nat := 0
    let v : W32 := BitVec.ofNat _ (1)
    let k : Nat := 0
    let s_1 : State := booted.setLane n { booted.lane n with owner := LnOwner.spill k }
    let s_2 : State := s_1.setLane 0 { mode := .up, owner := .spill 0 }
    let s : State := { s_2 with mm.running := [.spill 0] }
    n < 96 ∧ s.hostOpen (Reg.LN_CMD n) ∧ bitOf v 0 = true ∧ ((s.lane n).mode = LnMode.ready ∨
      (s.lane n).mode = LnMode.up) ∧ (s.lane n).owner = LnOwner.spill k ∧
      s.activityRuns (Activity.laneRetrain k n) = false ∧ s.activityWaits (Activity.laneRetrain k n) = false ∧
      s.activityFree (Activity.laneRetrain k n) s.readyFirst = false) ∧
   (let s : State := booted
    let n : Nat := 0
    n < 96 ∧ s.laneAdapts n = false) ∧
   (let n : Nat := 0
    let p : Nat := 0
    let s_1 : State := booted.setLane n { booted.lane n with owner := LnOwner.port p }
    let s : State := s_1.setPort p { s_1.port p with up := true }
    (s.lane n).owner = LnOwner.port p ∧ (s.port p).up = true) ∧
   (let s : State := { booted with mm.waiting := [.laneRetrain 1 5] }
    let n : Nat := 0
    let k : Nat := 1
    let m : Nat := 5
    Activity.laneRetrain k m ∈ (s.disownLane n).mm.waiting) := by
  refine ⟨?_, ?_, ?_, ?_, ?_, ?_, ?_, ?_, ?_, ?_, ?_, ?_, ?_, ?_, ?_, ?_⟩
  all_goals try intros
  all_goals and_intros
  all_goals first
    | decide +kernel +zetaReduce
    | exact hostOpen_of (by decide +kernel +zetaReduce)
    | exact leafReady_of (by decide +kernel +zetaReduce)
    | exact canonical_of (by decide +kernel +zetaReduce)
    | exact rateLegal_of (by decide +kernel +zetaReduce)
    | exact fetchInstr_of (by decide +kernel +zetaReduce)
    | exact onlyMoves_of _ rfl
    | exact Prod.ext rfl (some_of (by decide +kernel +zetaReduce))
    | exact Prod.ext rfl (by decide +kernel +zetaReduce)
    | exact ⟨_, rfl, by decide +kernel +zetaReduce⟩
    | exact some_of (by decide +kernel +zetaReduce)
    | exact peak_of (by decide +kernel +zetaReduce) (by decide +kernel +zetaReduce)
    | exact ok_of (by decide +kernel +zetaReduce)
    | exact error_of (by decide +kernel +zetaReduce)
    | exact pend_of (by decide +kernel +zetaReduce)
    | exact Or.inl ⟨rfl, rfl, rfl, rfl⟩
    | (intros; decide +kernel +zetaReduce)
    | (intro p; exact List.not_mem_nil)
    | exact List.Mem.head _
    | (intros; rfl)

theorem witness_TapsStayInRange :
   (let l : Lane := {}
    let preset : Nat := 0
    let t : Fin 4 := 0
    let up : Bool := false
    let x := l.request preset t up
    l.cm3 ≤ 6 ∧ l.cm2 ≤ 12 ∧ l.cm1 ≤ 24 ∧ l.cp1 ≤ 16 ∧ 32 ≤ l.c0 ∧ x.snd ≠ ansUpdated) ∧
   (let l : Lane := { rate := 1 }
    let preset : Nat := 0
    let t : Fin 4 := 2
    let up : Bool := false
    let x := l.request preset t up
    let u : Fin 4 := 0
    l.cm3 ≤ 6 ∧ l.cm2 ≤ 12 ∧ l.cm1 ≤ 24 ∧ l.cp1 ≤ 16 ∧ 32 ≤ l.c0 ∧ preset = 0 ∧ x.snd = ansUpdated ∧ u ≠ t) ∧
   (let l : Lane := {}
    l.cm3 ≤ 7 ∧ l.cm2 ≤ 15 ∧ l.cm1 ≤ 31 ∧ l.cp1 ≤ 31 ∧ 32 ≤ l.c0 ∧ l.cm3 + l.cm2 + l.cm1 + l.cp1 ≤ 32) ∧
   (let l : Lane := { cm3 := 1, cm2 := 1, cm1 := 31, cp1 := 2 }
    l.cm3 ≤ 7 ∧ l.cm2 ≤ 15 ∧ l.cm1 ≤ 31 ∧ l.cp1 ≤ 31 ∧ (fitTaps l).cp1 ≠ l.cp1) := by
  refine ⟨?_, ?_, ?_, ?_⟩
  all_goals try intros
  all_goals and_intros
  all_goals first
    | decide +kernel +zetaReduce
    | exact hostOpen_of (by decide +kernel +zetaReduce)
    | exact leafReady_of (by decide +kernel +zetaReduce)
    | exact canonical_of (by decide +kernel +zetaReduce)
    | exact rateLegal_of (by decide +kernel +zetaReduce)
    | exact fetchInstr_of (by decide +kernel +zetaReduce)
    | exact onlyMoves_of _ rfl
    | exact Prod.ext rfl (some_of (by decide +kernel +zetaReduce))
    | exact Prod.ext rfl (by decide +kernel +zetaReduce)
    | exact ⟨_, rfl, by decide +kernel +zetaReduce⟩
    | exact some_of (by decide +kernel +zetaReduce)
    | exact peak_of (by decide +kernel +zetaReduce) (by decide +kernel +zetaReduce)
    | exact ok_of (by decide +kernel +zetaReduce)
    | exact error_of (by decide +kernel +zetaReduce)
    | exact pend_of (by decide +kernel +zetaReduce)
    | exact Or.inl ⟨rfl, rfl, rfl, rfl⟩
    | (intros; decide +kernel +zetaReduce)
    | (intro p; exact List.not_mem_nil)
    | exact List.Mem.head _
    | (intros; rfl)

theorem witness_LaneTests :
   (let n : Nat := 0
    let s_1 : State := booted.setFld (Reg.LN_CFG n) 27 24 0
    let s : State := s_1.setLane 0 { mode := .up, owner := .stitch 0 }
    let v : W32 := 0#32
    let s1 := s.writeContext (Reg.LN_CFG n) v v
    let code := s1.fld (Reg.LN_CFG n) 27 24
    n < 96 ∧ s.hostOpen (Reg.LN_CFG n) ∧ (s.lane n).owner.mode = 2 ∧ s.fld (Reg.LN_CFG n) 27 24 = 0 ∧ code = 0) ∧
   (let n : Nat := 0
    let s_1 : State := booted.setFld (Reg.LN_CFG n) 27 24 0
    let s : State := s_1.setLane 0 { mode := .up, owner := .stitch 0 }
    let v : W32 := 0x1000000#32
    let s1 := s.writeContext (Reg.LN_CFG n) v v
    let code := s1.fld (Reg.LN_CFG n) 27 24
    n < 96 ∧ s.hostOpen (Reg.LN_CFG n) ∧ (s.lane n).owner.mode = 2 ∧ s.fld (Reg.LN_CFG n) 27 24 = 0 ∧ (code = 1 ∨ code = 2)) ∧
   (let n : Nat := 0
    let s_1 : State := booted.setFld (Reg.LN_CFG n) 27 24 0
    let s : State := s_1.setLane 0 { mode := .up, owner := .stitch 0 }
    let v : W32 := 0x3000000#32
    let s1 := s.writeContext (Reg.LN_CFG n) v v
    let code := s1.fld (Reg.LN_CFG n) 27 24
    n < 96 ∧ s.hostOpen (Reg.LN_CFG n) ∧ (s.lane n).owner.mode = 2 ∧ s.fld (Reg.LN_CFG n) 27 24 = 0 ∧ (code = 3 ∨
      code = 4) ∧ ((s.lane n).mode = LnMode.ready ∨ (s.lane n).mode = LnMode.up)) ∧
   (let n : Nat := 0
    let s : State := booted.setBit (Reg.LN_CFG n) 31 false
    n < 96 ∧ s.hostOpen (Reg.LN_TX_TAPS n) ∧ s.bit (Reg.LN_CFG n) 31 = false ∧ (s.lane n).mode ≠ LnMode.loopback ∧
      (s.lane n).mode ≠ LnMode.test) ∧
   (let n : Nat := 0
    let s_1 : State := booted.setLane n { booted.lane n with mode := LnMode.loopback }
    let s : State := s_1.setLane 0 { mode := .loopback, rate := 1 }
    n < 96 ∧ s.hostOpen (Reg.LN_TX_TAPS n) ∧ (s.lane n).mode = LnMode.loopback ∧ pam4 (s.lane n).rate = true) ∧
   (let s : State := booted
    let q : Nat := 0
    let v : W32 := 1#32
    let s1 := s.writeTable (Reg.LN_QUAD_CFG q) v
    q < 24 ∧ s.hostOpen (Reg.LN_QUAD_CFG q) ∧ s1.bit (Reg.LN_QUAD_CFG q) 0 = true ∧ s1.tb.synceInPresent = false) ∧
   (let s : State := booted
    let q : Nat := 0
    let v : W32 := 0#32
    let s1 := s.writeTable (Reg.LN_QUAD_CFG q) v
    q < 24 ∧ s.hostOpen (Reg.LN_QUAD_CFG q) ∧ (s1.bit (Reg.LN_QUAD_CFG q) 0 = false ∨ s1.tb.synceInPresent = true)) ∧
   (let q : Nat := 0
    let s : State := booted.setBit (Reg.LN_QUAD_CFG q) 0 true
    s.clocked = true ∧ q < 24 ∧ s.bit (Reg.LN_QUAD_CFG q) 0 = true ∧ s.ln.qrefLost.contains q = false) ∧
   (let s : State := booted.setFld Reg.LN_RECAL_MIN 10 0 1
    let q : Nat := 0
    s.clocked = true ∧ q < 24 ∧ s.fld Reg.LN_RECAL_MIN 10 0 ≠ 0 ∧ (∀ (p : Nat), ¬Activity.recal p ∈ s.mm.running) ∧
      s.activityWaits (Activity.recal q) = false ∧ s.activityFree (Activity.recal q) s.readyFirst = true) ∧
   (let n : Nat := 0
    let s : State := booted.setLane n { booted.lane n with owner := LnOwner.none }
    let v : W32 := 0xC0000000#32
    let s1 := s.writeContext (Reg.LN_TEST_CFG n) v v
    let a := Reg.LN_TEST_CFG n
    let s2 := s1.setLane n { owner := LnOwner.test, rate := s1.fld a 23 21 }
    n < 96 ∧ s.hostOpen (Reg.LN_TEST_CFG n) ∧ (s.lane n).owner = LnOwner.none ∧ s1.bit a 31 = true ∧ s1.bit a 28 = false ∧
      bitOf (s.rd a) 28 = false ∧ s2.bit a 30 = true) ∧
   (let n : Nat := 0
    let s : State := booted.setLane n { booted.lane n with owner := LnOwner.none }
    let v : W32 := 0x80000000#32
    let s1 := s.writeContext (Reg.LN_TEST_CFG n) v v
    let a := Reg.LN_TEST_CFG n
    let s2 := s1.setLane n { owner := LnOwner.test, rate := s1.fld a 23 21 }
    n < 96 ∧ s.hostOpen (Reg.LN_TEST_CFG n) ∧ (s.lane n).owner = LnOwner.none ∧ s1.bit a 31 = true ∧ s1.bit a 28 = false ∧
      bitOf (s.rd a) 28 = false ∧ s2.bit a 30 = false) ∧
   (let n : Nat := 0
    let s : State := booted.setLane n { booted.lane n with owner := LnOwner.test }
    let v : W32 := 0#32
    let s1 := s.writeContext (Reg.LN_TEST_CFG n) v v
    let a := Reg.LN_TEST_CFG n
    n < 96 ∧ s.hostOpen (Reg.LN_TEST_CFG n) ∧ (s.lane n).owner = LnOwner.test ∧ s1.bit a 31 = false) ∧
   (let n : Nat := 0
    let v : W32 := BitVec.ofNat _ (0 * 2 ^ 31)
    let p : Nat := 0
    let s : State := booted.setLane n { booted.lane n with owner := LnOwner.port p }
    n < 96 ∧ s.hostOpen (Reg.LN_TEST_CFG n) ∧ (s.lane n).owner = LnOwner.port p ∧ bitOf v 31 = false) ∧
   (let s_1 : State := booted.setLane 0 { mode := .test, owner := .test, sync := true }
    let s : State := s_1.setBit (Reg.LN_TEST_CFG 0) 29 true
    let n : Nat := 0
    let v : W32 := BitVec.ofNat _ (1 * 2 ^ 31)
    let s1 := s.writeTable (Reg.LN_INJ n) (setBitsOf v 31 31 0)
    let s2 := if (s1.lane n).gen = 0 then s1 else s1.setLane n ({ s1.lane n with  })
    n < 96 ∧ s.hostOpen (Reg.LN_INJ n) ∧ bitOf v 31 = true ∧ s2.generating n = true) ∧
   (let s : State := booted
    let n : Nat := 0
    let v : W32 := BitVec.ofNat _ (0 * 2 ^ 31)
    let s1 := s.writeTable (Reg.LN_INJ n) (setBitsOf v 31 31 0)
    let s2 := if (s1.lane n).gen = 0 then s1 else s1.setLane n ({ s1.lane n with  })
    n < 96 ∧ s.hostOpen (Reg.LN_INJ n) ∧ (bitOf v 31 = false ∨ s2.generating n = false)) ∧
   (let n : Nat := 0
    let s_1 : State := booted.setFld (Reg.LN_INJ n) 4 0 1
    let s_2 : State := s_1.setLane 0 { mode := .test, owner := .test, sync := true }
    let s : State := s_2.setBit (Reg.LN_TEST_CFG 0) 29 true
    s.clocked = true ∧ s.generating n = true ∧ s.fld (Reg.LN_INJ n) 4 0 ≠ 0) ∧
   (let n : Nat := 0
    let s_1 : State := booted.setLane n { booted.lane n with sync := true }
    let s_2 : State := s_1.setLane 0 { mode := .test, owner := .test, sync := true }
    let s : State := s_2.setBit (Reg.LN_TEST_CFG 0) 28 true
    s.clocked = true ∧ s.checking n = true ∧ (s.lane n).sync = true) ∧
   (let n : Nat := 0
    let s : State := booted.setLane n { booted.lane n with mode := LnMode.loopback, loop := 3 }
    s.clocked = true ∧ (s.lane n).mode = LnMode.loopback ∧ (s.lane n).loop = 3) := by
  refine ⟨?_, ?_, ?_, ?_, ?_, ?_, ?_, ?_, ?_, ?_, ?_, ?_, ?_, ?_, ?_, ?_, ?_, ?_⟩
  all_goals try intros
  all_goals and_intros
  all_goals first
    | decide +kernel +zetaReduce
    | exact hostOpen_of (by decide +kernel +zetaReduce)
    | exact leafReady_of (by decide +kernel +zetaReduce)
    | exact canonical_of (by decide +kernel +zetaReduce)
    | exact rateLegal_of (by decide +kernel +zetaReduce)
    | exact fetchInstr_of (by decide +kernel +zetaReduce)
    | exact onlyMoves_of _ rfl
    | exact Prod.ext rfl (some_of (by decide +kernel +zetaReduce))
    | exact Prod.ext rfl (by decide +kernel +zetaReduce)
    | exact ⟨_, rfl, by decide +kernel +zetaReduce⟩
    | exact some_of (by decide +kernel +zetaReduce)
    | exact peak_of (by decide +kernel +zetaReduce) (by decide +kernel +zetaReduce)
    | exact ok_of (by decide +kernel +zetaReduce)
    | exact error_of (by decide +kernel +zetaReduce)
    | exact pend_of (by decide +kernel +zetaReduce)
    | exact Or.inl ⟨rfl, rfl, rfl, rfl⟩
    | (intros; decide +kernel +zetaReduce)
    | (intro p; exact List.not_mem_nil)
    | exact List.Mem.head _
    | (intros; rfl)

theorem witness_StitchLinks :
   (let k : Nat := 0
    let s : State := booted.setBit (Reg.STF_PORT_CFG k) 31 true
    let i : Nat := 0
    let f : StfFrame := { type := 2, cls := 2, op := 0x36 }
    let ok : Bool := true
    let o := s.offerStitch 3 k f !ok
    let m := (o.stfLanes k).fst + i
    s.clocked = true ∧ k < 12 ∧ s.bit (Reg.STF_PORT_CFG k) 31 = true ∧ f.op = 54 ∧ f.type = 2 ∧ ok = true ∧
      i < (o.stfLanes k).snd ∧ bitsOf f.arg2 2 0 < (o.stfLanes k).snd ∧ (o.stfPort k).active.contains i = false ∧
      ((o.lane m).mode ≠ LnMode.ready ∨ (o.lane m).owner ≠ LnOwner.stitch k ∨ (o.stfPort k).pairs.contains (i,
      bitsOf f.arg2 2 0) = true)) ∧
   (let k : Nat := 0
    let s_1 : State := booted.setBit (Reg.STF_PORT_CFG k) 31 true
    let s : State := s_1.setLane (s_1.stfLanes 0).1 { mode := .ready, owner := .stitch 0 }
    let i : Nat := 0
    let f : StfFrame := { type := 2, cls := 2, op := 0x36 }
    let ok : Bool := true
    let o := s.offerStitch 3 k f !ok
    let m := (o.stfLanes k).fst + i
    s.clocked = true ∧ k < 12 ∧ s.bit (Reg.STF_PORT_CFG k) 31 = true ∧ f.op = 54 ∧ f.type = 2 ∧ ok = true ∧
      i < (o.stfLanes k).snd ∧ bitsOf f.arg2 2 0 < (o.stfLanes k).snd ∧ (o.stfPort k).active.contains i = false ∧
      (o.lane m).mode = LnMode.ready ∧ (o.lane m).owner = LnOwner.stitch k ∧ (o.stfPort k).pairs.contains (i,
      bitsOf f.arg2 2 0) = false) ∧
   (let k : Nat := 0
    let s_1 : State := booted.setBit (Reg.STF_PORT_CFG k) 31 true
    let s : State := s_1.setStfPort 0 { s_1.stfPort 0 with active := [0] }
    let f : StfFrame := { type := 1, cls := 0, op := 0 }
    let ok : Bool := false
    let o := s.offerStitch 3 k f !ok
    let s1 := (o.setLinkEnd (StfChan.port k) ({ o.linkEnd (StfChan.port k) with nak := true })).bumpFld (Reg.STF_PORT_RETRY k) 31 16 1
    s.clocked = true ∧ k < 12 ∧ s.bit (Reg.STF_PORT_CFG k) 31 = true ∧ f.op ≠ 54 ∧ (o.stfPort k).isUp = true ∧ ok = false ∧
      s1.stf.dupId = false) ∧
   (let k : Nat := 0
    let s_1 : State := booted.setBit (Reg.STF_PORT_CFG k) 31 true
    let s_2 : State := s_1.setStfPort 0 { s_1.stfPort 0 with active := [0] }
    let s : State := { s_2 with stf.dupId := true }
    let f : StfFrame := { type := 1, cls := 0, op := 0 }
    let ok : Bool := false
    let o := s.offerStitch 3 k f !ok
    let s1 := (o.setLinkEnd (StfChan.port k) ({ o.linkEnd (StfChan.port k) with nak := true })).bumpFld (Reg.STF_PORT_RETRY k) 31 16 1
    s.clocked = true ∧ k < 12 ∧ s.bit (Reg.STF_PORT_CFG k) 31 = true ∧ f.op ≠ 54 ∧ (o.stfPort k).isUp = true ∧ ok = false ∧
      s1.stf.dupId = true) ∧
   (let k : Nat := 0
    let s_1 : State := booted.setStfPort k { booted.stfPort k with active := [0] }
    let s : State := s_1.setStfPort 0 { s_1.stfPort 0 with link := { held := [{ type := 1, cls := 0, op := 0 }] } }
    s.clocked = true ∧ k < 12 ∧ (s.stfPort k).isUp = true ∧ (s.stfPort k).link.held ≠ [] ∧
      ((s.resend (StfChan.port k)).stfPort k).link.resends < 8) ∧
   (let k : Nat := 0
    let s_1 : State := booted.setStfPort k { booted.stfPort k with active := [0] }
    let s : State := s_1.setStfPort 0 { s_1.stfPort 0 with link := { held := [{ type := 1, cls := 0, op := 0 }], resends := 8 } }
    s.clocked = true ∧ k < 12 ∧ (s.stfPort k).isUp = true ∧ (s.stfPort k).link.held ≠ [] ∧
      8 ≤ ((s.resend (StfChan.port k)).stfPort k).link.resends) ∧
   (let k : Nat := 0
    let s_1 : State := booted.setStfPort k { booted.stfPort k with active := [0] }
    let s_2 : State := s_1.setBit Reg.STF_CTRL 31 true
    let s : State := s_2.setBit Reg.STF_ID 31 true
    s.clocked = true ∧ k < 12 ∧ (s.stfPort k).isUp = true ∧ s.greets = true) ∧
   (let k : Nat := 0
    let s : State := booted.setStfPort k { booted.stfPort k with active := [0] }
    s.clocked = true ∧ k < 12 ∧ (s.stfPort k).isUp = true ∧ s.greets = false) ∧
   (let k : Nat := 0
    let i : Nat := 0
    let s_1 : State := booted.setLane ((booted.stfLanes k).fst + i) { booted.lane ((booted.stfLanes k).fst + i) with mode := LnMode.ready, owner := LnOwner.stitch k }
    let s_2 : State := s_1.setStfPort k { s_1.stfPort k with dropping := [] }
    let s : State := s_2.setStfPort 0 { s_2.stfPort 0 with pairs := [(0, 0)], active := [1] }
    let j : Nat := 0
    let x := s.stfPort k
    let n := (s.stfLanes k).fst + i
    s.clocked = true ∧ k < 12 ∧ List.find? (fun x => x.fst == i) x.pairs = some (i, j) ∧ (s.lane n).mode = LnMode.ready ∧
      (s.lane n).owner = LnOwner.stitch k ∧ x.dropping = [] ∧ x.active.contains i = false ∧
      x.agrees (s.stfLanes k).snd i j = true ∧ x.active ≠ []) ∧
   (let k : Nat := 0
    let i : Nat := 0
    let s_1 : State := booted.setLane ((booted.stfLanes k).fst + i) { booted.lane ((booted.stfLanes k).fst + i) with mode := LnMode.ready, owner := LnOwner.stitch k }
    let s_2 : State := s_1.setStfPort k { s_1.stfPort k with dropping := [], active := [] }
    let s : State := s_2.setStfPort 0 { s_2.stfPort 0 with pairs := [(0, 0)] }
    let j : Nat := 0
    let x := s.stfPort k
    let n := (s.stfLanes k).fst + i
    s.clocked = true ∧ k < 12 ∧ List.find? (fun x => x.fst == i) x.pairs = some (i, j) ∧ (s.lane n).mode = LnMode.ready ∧
      (s.lane n).owner = LnOwner.stitch k ∧ x.dropping = [] ∧ x.active.contains i = false ∧
      x.agrees (s.stfLanes k).snd i j = true ∧ x.active = []) ∧
   (let s : State := booted.setStfPort 0 { booted.stfPort 0 with dropping := [0], active := [0] }
    let k : Nat := 0
    let x := s.stfPort k
    let a := List.filter (fun i => !x.dropping.contains i) x.active
    s.clocked = true ∧ (s.stfPort k).dropping ≠ [] ∧ a = []) ∧
   (let s : State := booted.setStfPort 0 { booted.stfPort 0 with dropping := [0], active := [0, 1] }
    let k : Nat := 0
    let x := s.stfPort k
    let a := List.filter (fun i => !x.dropping.contains i) x.active
    s.clocked = true ∧ (s.stfPort k).dropping ≠ [] ∧ a ≠ []) ∧
   (let s : State := booted
    let k : Nat := 0
    s.stf.bestPort ≠ some k) := by
  refine ⟨?_, ?_, ?_, ?_, ?_, ?_, ?_, ?_, ?_, ?_, ?_, ?_, ?_⟩
  all_goals try intros
  all_goals and_intros
  all_goals first
    | decide +kernel +zetaReduce
    | exact hostOpen_of (by decide +kernel +zetaReduce)
    | exact leafReady_of (by decide +kernel +zetaReduce)
    | exact canonical_of (by decide +kernel +zetaReduce)
    | exact rateLegal_of (by decide +kernel +zetaReduce)
    | exact fetchInstr_of (by decide +kernel +zetaReduce)
    | exact onlyMoves_of _ rfl
    | exact Prod.ext rfl (some_of (by decide +kernel +zetaReduce))
    | exact Prod.ext rfl (by decide +kernel +zetaReduce)
    | exact ⟨_, rfl, by decide +kernel +zetaReduce⟩
    | exact some_of (by decide +kernel +zetaReduce)
    | exact peak_of (by decide +kernel +zetaReduce) (by decide +kernel +zetaReduce)
    | exact ok_of (by decide +kernel +zetaReduce)
    | exact error_of (by decide +kernel +zetaReduce)
    | exact pend_of (by decide +kernel +zetaReduce)
    | exact Or.inl ⟨rfl, rfl, rfl, rfl⟩
    | (intros; decide +kernel +zetaReduce)
    | (intro p; exact List.not_mem_nil)
    | exact List.Mem.head _
    | (intros; rfl)

theorem witness_LinkEndsKeepOrder :
   (let l : LinkEnd := {}
    let f : StfFrame := { type := 1, cls := 0, op := 0 }
    let ok : Bool := true
    (l.receive f ok).deliver = true) ∧
   (let l : LinkEnd := {}
    let f : StfFrame := { type := 1, cls := 0, op := 0 }
    let ok : Bool := false
    (l.receive f ok).deliver = false) ∧
   (let l : LinkEnd := {}
    let f : StfFrame := { type := 1, cls := 0, op := 0, seq := 1 }
    (f.type = 1 ∨ f.type = 2) ∧ f.seq ≠ l.expect ∧ f.payload.length ≤ 8) ∧
   (let l : LinkEnd := {}
    l.held.length ≤ 1024) := by
  refine ⟨?_, ?_, ?_, ?_⟩
  all_goals try intros
  all_goals and_intros
  all_goals first
    | decide +kernel +zetaReduce
    | exact hostOpen_of (by decide +kernel +zetaReduce)
    | exact leafReady_of (by decide +kernel +zetaReduce)
    | exact canonical_of (by decide +kernel +zetaReduce)
    | exact rateLegal_of (by decide +kernel +zetaReduce)
    | exact fetchInstr_of (by decide +kernel +zetaReduce)
    | exact onlyMoves_of _ rfl
    | exact Prod.ext rfl (some_of (by decide +kernel +zetaReduce))
    | exact Prod.ext rfl (by decide +kernel +zetaReduce)
    | exact ⟨_, rfl, by decide +kernel +zetaReduce⟩
    | exact some_of (by decide +kernel +zetaReduce)
    | exact peak_of (by decide +kernel +zetaReduce) (by decide +kernel +zetaReduce)
    | exact ok_of (by decide +kernel +zetaReduce)
    | exact error_of (by decide +kernel +zetaReduce)
    | exact pend_of (by decide +kernel +zetaReduce)
    | exact Or.inl ⟨rfl, rfl, rfl, rfl⟩
    | (intros; decide +kernel +zetaReduce)
    | (intro p; exact List.not_mem_nil)
    | exact List.Mem.head _
    | (intros; rfl)

theorem witness_StitchServices :
   (let d : Desc := oneDesc 0 0 false [BitVec.ofNat 32 (1 * 2 ^ 30)]
    let s_1 : State := booted.setQueue (d.fld 20 15 0) { booted.queue (d.fld 20 15 0) with kind := 3 }
    let s : State := s_1.setBinding (d.fld 16 11 0) { s_1.binding (d.fld 16 11 0) with kind := 0 }
    let b := d.fld 16 11 0
    let src := d.fld 20 15 0
    s.clocked = true ∧ (d.fld 16 31 30 = 1 ∨ d.fld 16 31 30 = 2) ∧ (s.queue src).storable = true ∧ (s.binding b).kind = 0) ∧
   (let d : Desc := oneDesc 0 0 false [BitVec.ofNat 32 (1 * 2 ^ 30)]
    let s : State := booted.setBinding (d.fld 16 11 0) { booted.binding (d.fld 16 11 0) with kind := 1 }
    let b := d.fld 16 11 0
    s.clocked = true ∧ (d.fld 16 31 30 = 1 ∨ d.fld 16 31 30 = 2) ∧ (s.binding b).kind ≠ 0) ∧
   (let s : State := booted
    let d : Desc := oneDesc 0 0 false []
    let src := d.fld 20 15 0
    s.clocked = true ∧ d.fld 16 31 30 ≠ 3 ∧ (s.queue src).storable = false) ∧
   (let d : Desc := oneDesc 0 0 false [BitVec.ofNat 32 (0 * 2 ^ 30)]
    let s_1 : State := booted.setQueue (d.fld 20 15 0) { booted.queue (d.fld 20 15 0) with kind := 3 }
    let s : State := s_1.setBinding (d.fld 16 11 0) { s_1.binding (d.fld 16 11 0) with kind := 0 }
    let b := d.fld 16 11 0
    let src := d.fld 20 15 0
    s.clocked = true ∧ d.fld 16 31 30 = 0 ∧ (s.queue src).storable = true ∧ (s.binding b).kind = 0) ∧
   (let b : Nat := 0
    let s_1 : State := booted.setBinding b { booted.binding b with kind := 1 }
    let s_2 : State := s_1.setBit Reg.STF_CTRL 31 true
    let s_3 : State := s_2.setBit Reg.STF_ID 31 true
    let s_4 : State := s_3.setBinding 0 { s_3.binding 0 with dst := 1 }
    let s : State := s_4.setQueue 0 oneItemQueue
    let s1 : State := (s.readQueue (s.binding b).src (Consumer.stitch b)).1
    let i : QItem := gotItem (s.readQueue (s.binding b).src (Consumer.stitch b)).2
    let x := s.binding b
    s.clocked = true ∧ (s.binding b).kind = 1 ∧ (s.binding b).inFlight < 64 ∧ s.fabricOn = true ∧
      s.readQueue (s.binding b).src (Consumer.stitch b) = (s1, ReadResult.item i) ∧ (s.inMap (s.binding b).dst = false ∨
      s.reachable (s.binding b).dst = true) ∧ s1.inMap x.dst = false) ∧
   (let b : Nat := 0
    let s_1 : State := booted.setBinding b { booted.binding b with kind := 1 }
    let s_2 : State := s_1.setBit Reg.STF_CTRL 31 true
    let s_3 : State := s_2.setBit Reg.STF_ID 31 true
    let s_4 : State := s_3.setBinding 0 { s_3.binding 0 with dst := 1 }
    let s_5 : State := s_4.setQueue 0 oneItemQueue
    let s_6 : State := s_5.setStfPort 0 { s_5.stfPort 0 with active := [0], peer := some { id := 1, serial := 5#64, hellos := 3, mapped := true } }
    let s : State := { s_6 with stf.root := some 0, stf.mapped := true, stf.members := [(0, some { parent := 0 }), (1, some { parent := 0, hops := 1, port := 0 })] }
    let s1 : State := (s.readQueue (s.binding b).src (Consumer.stitch b)).1
    let i : QItem := gotItem (s.readQueue (s.binding b).src (Consumer.stitch b)).2
    let x := s.binding b
    let s2 := s1.bump (Reg.STF_BIND_SENT b)
    s.clocked = true ∧ (s.binding b).kind = 1 ∧ (s.binding b).inFlight < 64 ∧ s.fabricOn = true ∧
      s.readQueue (s.binding b).src (Consumer.stitch b) = (s1, ReadResult.item i) ∧ (s.inMap (s.binding b).dst = false ∨
      s.reachable (s.binding b).dst = true) ∧ s1.inMap x.dst = true ∧ x.dst ≠ s2.selfId) ∧
   (let b : Nat := 0
    let s_1 : State := booted.setBinding b { booted.binding b with kind := 1 }
    let s_2 : State := s_1.setBit Reg.STF_CTRL 31 true
    let s_3 : State := s_2.setBit Reg.STF_ID 31 true
    let s_4 : State := s_3.setBinding 0 { s_3.binding 0 with dst := 0, dstQid := 1 }
    let s_5 : State := s_4.setQueue 0 oneItemQueue
    let s : State := s_5.setQueue 1 { kind := 3, enable := true }
    let s1 : State := (s.readQueue (s.binding b).src (Consumer.stitch b)).1
    let i : QItem := gotItem (s.readQueue (s.binding b).src (Consumer.stitch b)).2
    let x := s.binding b
    let s2 := s1.bump (Reg.STF_BIND_SENT b)
    let y := s2.pushItem x.dstQid (remoteProducer s2.selfId b) i.prio i.tag i.words
    s.clocked = true ∧ (s.binding b).kind = 1 ∧ (s.binding b).inFlight < 64 ∧ s.fabricOn = true ∧
      s.readQueue (s.binding b).src (Consumer.stitch b) = (s1, ReadResult.item i) ∧ (s.inMap (s.binding b).dst = false ∨
      s.reachable (s.binding b).dst = true) ∧ s1.inMap x.dst = true ∧ x.dst = s2.selfId ∧ y.snd = stOK) ∧
   (let b : Nat := 0
    let s_1 : State := booted.setBinding b { booted.binding b with kind := 1 }
    let s_2 : State := s_1.setBit Reg.STF_CTRL 31 true
    let s_3 : State := s_2.setBit Reg.STF_ID 31 true
    let s_4 : State := s_3.setBinding 0 { s_3.binding 0 with dst := 0, dstQid := 2 }
    let s_5 : State := s_4.setQueue 0 oneItemQueue
    let s : State := s_5.setQueue 1 { kind := 3, enable := true }
    let s1 : State := (s.readQueue (s.binding b).src (Consumer.stitch b)).1
    let i : QItem := gotItem (s.readQueue (s.binding b).src (Consumer.stitch b)).2
    let x := s.binding b
    let s2 := s1.bump (Reg.STF_BIND_SENT b)
    let y := s2.pushItem x.dstQid (remoteProducer s2.selfId b) i.prio i.tag i.words
    s.clocked = true ∧ (s.binding b).kind = 1 ∧ (s.binding b).inFlight < 64 ∧ s.fabricOn = true ∧
      s.readQueue (s.binding b).src (Consumer.stitch b) = (s1, ReadResult.item i) ∧ (s.inMap (s.binding b).dst = false ∨
      s.reachable (s.binding b).dst = true) ∧ s1.inMap x.dst = true ∧ x.dst = s2.selfId ∧ y.snd ≠ stOK) ∧
   (let b : Nat := 0
    let w : QWord := 0
    let r : List QWord := []
    let s_1 : State := booted.setBinding b { booted.binding b with words := w :: r }
    let s_2 : State := s_1.setBit Reg.STF_CTRL 31 true
    let s : State := s_2.setBit Reg.STF_ID 31 true
    s.clocked = true ∧ s.fabricOn = true ∧ (s.binding b).words = w :: r) ∧
   (let s : State := booted
    let w : QWord := 0
    bitsOf (qwWord w 0) 17 0 = s.selfId) ∧
   (let s : State := booted
    let w : QWord := 1
    bitsOf (qwWord w 0) 17 0 ≠ s.selfId) ∧
   (let k : Nat := 0
    let s_1 : State := booted.setStfPort k { booted.stfPort k with active := [0], foreign := false }
    let s_2 : State := s_1.setBit Reg.STF_CTRL 31 true
    let s : State := s_2.setBit Reg.STF_ID 31 true
    let t1 : Int := 0
    let t2 : Int := 0
    let t3 : Int := 0
    let t4 : Int := 0
    let s1 := (s.stfSend (StfChan.port k) (tsyncFrame s.selfId false (shortStampOf t1))).wr (Reg.STF_PORT_DELAY k) (BitVec.ofNat 32 (unsignedOf 32 ((t2 - t1 + (t4 - t3)) / 2)))
    s.clocked = true ∧ k < 12 ∧ (s.stfPort k).isUp = true ∧ (s.stfPort k).foreign = false ∧ s.fabricOn = true ∧
      s1.parentPort ≠ some k) ∧
   (let k : Nat := 0
    let s_1 : State := booted.setStfPort k { booted.stfPort k with active := [0], foreign := false }
    let s_2 : State := s_1.setBit Reg.STF_CTRL 31 true
    let s_3 : State := s_2.setBit Reg.STF_ID 31 true
    let s : State := { s_3 with stf.bestPort := some 0 }
    let t1 : Int := 0
    let t2 : Int := 0
    let t3 : Int := 0
    let t4 : Int := 0
    let s1 := (s.stfSend (StfChan.port k) (tsyncFrame s.selfId false (shortStampOf t1))).wr (Reg.STF_PORT_DELAY k) (BitVec.ofNat 32 (unsignedOf 32 ((t2 - t1 + (t4 - t3)) / 2)))
    s.clocked = true ∧ k < 12 ∧ (s.stfPort k).isUp = true ∧ (s.stfPort k).foreign = false ∧ s.fabricOn = true ∧
      s1.parentPort = some k) ∧
   (let s : State := booted
    let d : Desc := oneDesc 0 0 false [BitVec.ofNat 32 (20)]
    s.clocked = true ∧ 20 ≤ d.fld 16 16 0 ∧ d.fld 16 16 0 ≤ 100000) ∧
   (let b : Broadcast := { trigger := false, line := 0, t := 0, stamp := 0#64, origin := 0, seq := 0 }
    let r : List Broadcast := []
    let s : State := { booted with stf.pending := b :: r }
    s.clocked = true ∧ s.stf.pending = b :: r ∧ b.t ≤ s.tb.time16) ∧
   (let m : Nat := 0
    let s_1 : State := { booted with stf.best := some m, stf.root := some (m % 512) }
    let s_2 : State := s_1.setBit Reg.STF_CTRL 31 true
    let s : State := s_2.setBit Reg.STF_ID 31 true
    s.clocked = true ∧ s.fabricOn = true ∧ s.stf.best = some m ∧ s.stf.root = some (m % 512)) ∧
   (let k : Nat := 0
    let m : Nat := 1
    let s_1 : State := { booted with stf.bestPort := some k, stf.settled := true, stf.root := some m }
    let s_2 : State := s_1.setBit Reg.STF_CTRL 31 true
    let s : State := s_2.setBit Reg.STF_ID 31 true
    s.clocked = true ∧ s.fabricOn = true ∧ s.stf.bestPort = some k ∧ s.stf.settled = true ∧ s.stf.root = some m ∧
      m ≠ s.selfMember) ∧
   (let s_1 : State := { booted with stf.settled := true, stf.root := some booted.selfMember }
    let s_2 : State := s_1.setBit Reg.STF_CTRL 31 true
    let s : State := s_2.setBit Reg.STF_ID 31 true
    s.clocked = true ∧ s.fabricOn = true ∧ s.stf.settled = true ∧ s.stf.root = some s.selfMember) ∧
   (let s_1 : State := booted.setBit Reg.STF_CTRL 31 true
    let s_2 : State := s_1.setBit Reg.STF_ID 31 true
    let s_3 : State := { s_2 with stf.root := some 0 }
    let s_4 : State := s_3.setBit Reg.STF_CTRL 30 true
    let s_5 : State := s_4.setPort 0 { up := true }
    let s : State := s_5.wr (Reg.FH_PORT_CFG 0) 0x84202580#32
    let p : Nat := (s.gatewayPort).getD 0
    s.clocked = true ∧ s.fabricOn = true ∧ s.isRoot = true ∧ s.gatewayPort = some p) ∧
   (let g : Nat := 0
    let e : GroupEntry := { root := 0, locked := false, mac := 0 }
    let r : List (Nat × Option GroupEntry) := []
    let s_1 : State := { booted with stf.registered := true, stf.heard := (g, some e) :: r }
    let s_2 : State := s_1.setBit Reg.STF_CTRL 31 true
    let s_3 : State := s_2.setBit Reg.STF_ID 31 true
    let s : State := { s_3 with stf.root := some 0 }
    s.clocked = true ∧ s.fabricOn = true ∧ s.isRoot = true ∧ s.stf.registered = true ∧ s.stf.heard = (g, some e) :: r) ∧
   (let s_1 : State := booted.setBit Reg.STF_CTRL 31 true
    let s_2 : State := s_1.setBit Reg.STF_ID 31 true
    let s : State := { s_2 with stf.root := some 0, stf.sysRoot := some 0 }
    s.clocked = true ∧ s.fabricOn = true ∧ s.isSystemRoot = true) ∧
   (let s_1 : State := booted.setBit Reg.STF_CTRL 31 true
    let s : State := s_1.setBit Reg.STF_ID 31 true
    let g : Nat := 1
    s.clocked = true ∧ s.fabricOn = true ∧ g ≠ s.selfGroup) ∧
   (let t : Int := 0
    let s : State := { booted with stf.tcc := some (t, true), stf.common := false }
    s.clocked = true ∧ s.stf.tcc = some (t, true) ∧ t ≤ s.tb.time16 ∧ s.stf.common = false) ∧
   (let s_1 : State := { booted with stf.common := true }
    let s : State := { s_1 with slt.carriers := [(0, { mode := .disabled })] }
    let d : Desc := oneDesc 0 0 true []
    let cid := carrierField d.carrier
    s.clocked = true ∧ s.stf.common = true ∧ carrierClamped d.carrier = false ∧ cid ≠ 65535 ∧ d.fld 32 8 0 ≤ 256 ∧
      BitVec.toNat (d.w64 24) % 64 = 0 ∧ d.immediate = true ∧ (s.carrier cid).refusesWork = true) ∧
   (let d : Desc := oneDesc 0 0 true [1#32]
    let s_1 : State := { booted with stf.common := true }
    let s_2 : State := s_1.setCarrier (carrierField d.carrier) { s_1.carrier (carrierField d.carrier) with mode := CarrierMode.running }
    let s_3 : State := s_2.setBit Reg.STF_CTRL 31 true
    let s_4 : State := s_3.setBit Reg.STF_ID 31 true
    let s_5 : State := s_4.setStfPort 0 { s_4.stfPort 0 with active := [0], peer := some { id := 1, serial := 5#64, hellos := 3, mapped := true } }
    let s : State := { s_5 with stf.root := some 0, stf.mapped := true, stf.members := [(0, some { parent := 0 }), (1, some { parent := 0, hops := 1, port := 0 })] }
    let ok : Bool := false
    let cid := carrierField d.carrier
    let dst := d.fld 16 17 0
    s.clocked = true ∧ s.stf.common = true ∧ carrierClamped d.carrier = false ∧ cid ≠ 65535 ∧ d.fld 32 8 0 ≤ 256 ∧
      BitVec.toNat (d.w64 24) % 64 = 0 ∧ d.immediate = true ∧ (s.carrier cid).refusesWork = false ∧
      (s.carrier cid).mode = CarrierMode.running ∧ ok = false ∧ dst ≠ s.selfId) ∧
   (let d : Desc := oneDesc 0 0 true [1#32]
    let s_1 : State := { booted with stf.common := true }
    let s_2 : State := s_1.setCarrier (carrierField d.carrier) { s_1.carrier (carrierField d.carrier) with mode := CarrierMode.running }
    let s_3 : State := s_2.setBit Reg.STF_CTRL 31 true
    let s_4 : State := s_3.setBit Reg.STF_ID 31 true
    let s_5 : State := s_4.setStfPort 0 { s_4.stfPort 0 with active := [0], peer := some { id := 1, serial := 5#64, hellos := 3, mapped := true } }
    let s : State := { s_5 with stf.root := some 0, stf.mapped := true, stf.members := [(0, some { parent := 0 }), (1, some { parent := 0, hops := 1, port := 0 })] }
    let s1 : State := (s.readList (d.fld 32 8 0) (BitVec.toNat (d.w64 24)) [] false).1
    let ok : Bool := true
    let rs : List MigRegion := []
    let cid := carrierField d.carrier
    let dst := d.fld 16 17 0
    let dcar := d.fld 20 8 0
    s.clocked = true ∧ s.stf.common = true ∧ carrierClamped d.carrier = false ∧ cid ≠ 65535 ∧ d.fld 32 8 0 ≤ 256 ∧
      BitVec.toNat (d.w64 24) % 64 = 0 ∧ d.immediate = true ∧ (s.carrier cid).mode = CarrierMode.running ∧
      s.reachable dst = true ∧ s.readList (d.fld 32 8 0) (BitVec.toNat (d.w64 24)) [] false = (s1, some (rs, false)) ∧
      (ok = true ∧ dst ≠ s.selfId ∨ dst = s.selfId ∧ (s.carrier dcar).mode = CarrierMode.stopped)) ∧
   (let cid : Nat := 0
    let n : Int := 0
    let m : Migration := { ({ ref := ⟨0, 0#32, false, false⟩, carrier := 0, dst := 1, dstCarrier := 0, slot := some 0, maxDefer := 0, regions := [] } : Migration) with slot := some n }
    let s_1 : State := { booted with stf.migrations := [m] }
    let s_2 : State := s_1.setCarrier cid { s_1.carrier cid with mode := CarrierMode.running }
    let s : State := { s_2 with tb.offsetU := 2 ^ 90 }
    let put : State → Migration → State := fun s m' => { s with stf := { s.stf with migrations := List.map (fun x => if x = m then m' else x) s.stf.migrations } }
    let s1 := (put s { m with switched := true }).armFabric cid n false true
    s.clocked = true ∧ List.find? (fun m => m.carrier == cid && !m.switched && !m.completed) s.stf.migrations = some m ∧
      m.slot = some n ∧
      ((s.carrier cid).cfg.boundaryNs s.slt.originNs Half.dl n - (s.carrier cid).cfg.deckleNs) * uPerNs ≤ s.tb.timeU ∧
      m.inStep = true ∧ (s.carrier cid).ul.armedElsewhere n = false ∧ (s.carrier cid).dl.armedElsewhere n = false ∧
      (s.carrier cid).mode = CarrierMode.running ∧ m.dst ≠ s1.selfId) ∧
   (let cid : Nat := 0
    let n : Int := 0
    let m : Migration := { ref := ⟨0, 0#32, false, false⟩, carrier := 0, dst := 1, dstCarrier := 0, slot := some n, maxDefer := 1, regions := [{ src := 0, dst := 0, len := 1, unitLog2 := 0 }] }
    let s_1 : State := { booted with stf.migrations := [m] }
    let s : State := { s_1 with tb.offsetU := 2 ^ 90 }
    s.clocked = true ∧ List.find? (fun m => m.carrier == cid && !m.switched && !m.completed) s.stf.migrations = some m ∧
      m.slot = some n ∧
      ((s.carrier cid).cfg.boundaryNs s.slt.originNs Half.dl n - (s.carrier cid).cfg.deckleNs) * uPerNs ≤ s.tb.timeU ∧
      m.inStep = false ∧ m.deferred < m.maxDefer) ∧
   (let cid : Nat := 0
    let n : Int := 0
    let m : Migration := { ref := ⟨0, 0#32, false, false⟩, carrier := 0, dst := 1, dstCarrier := 0, slot := some n, maxDefer := 0, regions := [{ src := 0, dst := 0, len := 1, unitLog2 := 0 }] }
    let s_1 : State := { booted with stf.migrations := [m] }
    let s : State := { s_1 with tb.offsetU := 2 ^ 90 }
    s.clocked = true ∧ List.find? (fun m => m.carrier == cid && !m.switched && !m.completed) s.stf.migrations = some m ∧
      m.slot = some n ∧
      ((s.carrier cid).cfg.boundaryNs s.slt.originNs Half.dl n - (s.carrier cid).cfg.deckleNs) * uPerNs ≤ s.tb.timeU ∧
      m.inStep = false ∧ m.maxDefer ≤ m.deferred) ∧
   (let s : State := booted
    let m : Migration := { ref := ⟨0, 0#32, false, false⟩, carrier := 0, dst := 1, dstCarrier := 0, slot := some 0, maxDefer := 0, regions := [] }
    m.dst ≠ (s.dropMigration m).selfId) := by
  refine ⟨?_, ?_, ?_, ?_, ?_, ?_, ?_, ?_, ?_, ?_, ?_, ?_, ?_, ?_, ?_, ?_, ?_, ?_, ?_, ?_, ?_, ?_, ?_, ?_, ?_, ?_, ?_, ?_, ?_, ?_⟩
  all_goals try intros
  all_goals and_intros
  all_goals first
    | decide +kernel +zetaReduce
    | exact hostOpen_of (by decide +kernel +zetaReduce)
    | exact leafReady_of (by decide +kernel +zetaReduce)
    | exact canonical_of (by decide +kernel +zetaReduce)
    | exact rateLegal_of (by decide +kernel +zetaReduce)
    | exact fetchInstr_of (by decide +kernel +zetaReduce)
    | exact onlyMoves_of _ rfl
    | exact Prod.ext rfl (some_of (by decide +kernel +zetaReduce))
    | exact Prod.ext rfl (by decide +kernel +zetaReduce)
    | exact ⟨_, rfl, by decide +kernel +zetaReduce⟩
    | exact some_of (by decide +kernel +zetaReduce)
    | exact peak_of (by decide +kernel +zetaReduce) (by decide +kernel +zetaReduce)
    | exact ok_of (by decide +kernel +zetaReduce)
    | exact error_of (by decide +kernel +zetaReduce)
    | exact pend_of (by decide +kernel +zetaReduce)
    | exact Or.inl ⟨rfl, rfl, rfl, rfl⟩
    | (intros; decide +kernel +zetaReduce)
    | (intro p; exact List.not_mem_nil)
    | exact List.Mem.head _
    | (intros; rfl)

theorem witness_CaptureAndReplay :
   (let s : State := booted
    let d : Desc := oneDesc 0 0 false [BitVec.ofNat 32 (1)]
    let u := s.settleOffers
    s.clocked = true ∧ d.fld 16 1 0 ≠ 0 ∧ (∀ (h : Nat), h ∈ (vatHalves d).fst → u.vatFree h = true)) ∧
   (let s : State := booted.setVat 0 { booted.vat 0 with mode := .armed }
    let d : Desc := oneDesc 0 0 false [BitVec.ofNat 32 (1)]
    let u := s.settleOffers
    let h : Nat := 0
    s.clocked = true ∧ d.fld 16 1 0 ≠ 0 ∧ h ∈ (vatHalves d).fst ∧ u.vatFree h = false) ∧
   (let s : State := booted
    let t : State := booted
    (∀ (h : Nat), h < 2 → (t.vat h).mode = (s.vat h).mode ∧ (t.vat h).waitHost = (s.vat h).waitHost)) ∧
   (let s : State := booted.setVat 0 { booted.vat 0 with mode := VatMode.armed }
    let t_1 : State := booted.setVat 0 { booted.vat 0 with mode := VatMode.triggered, waitHost := (s.vat 0).waitHost }
    let t : State := t_1.setVat 1 { t_1.vat 1 with mode := (s.vat 1).mode, waitHost := (s.vat 1).waitHost }
    (s.vat 0).mode = VatMode.armed ∧ (t.vat 0).mode = VatMode.triggered ∧ (t.vat 0).waitHost = (s.vat 0).waitHost ∧
      (t.vat 1).mode = (s.vat 1).mode ∧ (t.vat 1).waitHost = (s.vat 1).waitHost) ∧
   (let h : Nat := 0
    let s_1 : State := booted.setVat h { booted.vat h with mode := VatMode.stream }
    let s : State := s_1.setVat 0 { s_1.vat 0 with mode := .stream }
    let x : TrigSeen := { time := 0, lines := 0, cause := 0, source := 0, seq := 0 }
    h < 2 ∧ (s.vat h).mode = VatMode.stream ∧ s.trigMerge h x = none ∧ s.vatRoom h 48 = true) ∧
   (let s : State := { booted with cap.offers := [] }
    s.cap.offers = []) ∧
   (let c : CapRec := { kind := 1, index := 0, type := 0, time := 0, payload := [] }
    let s_1 : State := { booted with slt.modSet := { felt := [(128, 1#32)] } }
    let s_2 : State := s_1.setVat 0 { s_1.vat 0 with mode := .stream }
    let s : State := { s_2 with cap.offers := [c] }
    let s0 : State := { s with cap := { s.cap with  } }
    let ch := s0.capRoute c
    s.cap.offers = [c] ∧ ch.capture = true ∧ (s0.vat ch.half).mode.capturing = true ∧ ch.line = none) ∧
   (let c : CapRec := { kind := 1, index := 0, type := 0, time := 0, payload := [] }
    let s_1 : State := { booted with slt.modSet := { felt := [(128, 1#32), (160, 0xC0000000#32)] } }
    let s_2 : State := s_1.setVat 0 { s_1.vat 0 with mode := .stream }
    let s : State := { s_2 with cap.offers := [c] }
    let s0 : State := { s with cap := { s.cap with  } }
    let ch := s0.capRoute c
    let n : Nat := 0
    s.cap.offers = [c] ∧ ch.capture = true ∧ (s0.vat ch.half).mode.capturing = true ∧ ch.line = some n) ∧
   (let c : CapRec := { kind := 1, index := 0, type := 0, time := 0, payload := [] }
    let s_1 : State := { booted with slt.modSet := { felt := [(128, 1#32), (160, 0xE0000000#32)] } }
    let s : State := { s_1 with cap.offers := [c] }
    let s0 : State := { s with cap := { s.cap with  } }
    let ch := s0.capRoute c
    let n : Nat := 0
    s.cap.offers = [c] ∧ ch.capture = false ∧ ch.line = some n) ∧
   (let c : CapRec := { kind := 0, index := 0, type := 0, time := 0, payload := [] }
    let h : Nat := 0
    let s_1 : State := booted.setVat h { booted.vat h with mode := VatMode.stream, gap := none }
    let s : State := s_1.setVat 0 { s_1.vat 0 with mode := .stream, wpos := 2 ^ 39 }
    let q := (s.vat h).nextSeq (capSource c)
    let s1 := s.setVat h q.snd
    let d := oljBytes (capSource c) (2 * b2n c.bad + 4 * b2n c.window + 8 * b2n c.replayed + if c.kind = 5 then c.prio % 8 * 2 ^ 5 else 0) c.type c.time q.fst c.slot c.carrier c.aux c.payload
    h < 2 ∧ (s.vat h).mode = VatMode.stream ∧ (s.vat h).gap = none ∧ (s1.vatRoom h d.length = false ∨
      s.fld Reg.CAP_VAT_BW 12 0 = 0)) ∧
   (let c : CapRec := { kind := 0, index := 0, type := 0, time := 0, payload := [] }
    let h : Nat := 0
    let s_1 : State := booted.setVat h { booted.vat h with mode := VatMode.stream, gap := none }
    let s_2 : State := s_1.setFld Reg.CAP_VAT_BW 12 0 1
    let s : State := s_2.setVat 0 { s_2.vat 0 with mode := .stream }
    let q := (s.vat h).nextSeq (capSource c)
    let s1 := s.setVat h q.snd
    let d := oljBytes (capSource c) (2 * b2n c.bad + 4 * b2n c.window + 8 * b2n c.replayed + if c.kind = 5 then c.prio % 8 * 2 ^ 5 else 0) c.type c.time q.fst c.slot c.carrier c.aux c.payload
    h < 2 ∧ (s.vat h).mode = VatMode.stream ∧ (s.vat h).gap = none ∧ s1.vatRoom h d.length = true ∧
      s.fld Reg.CAP_VAT_BW 12 0 ≠ 0) ∧
   (let h : Nat := 0
    let n : Nat := 0
    let bytes : Nat := 0
    let first : W64 := 0#64
    let s_1 : State := booted.setFld Reg.CAP_VAT_BW 12 0 1
    let s : State := s_1.setVat 0 { s_1.vat 0 with mode := .stream, gap := some (n, bytes, first) }
    s.clocked = true ∧ (s.vat h).gap = some (n, bytes, first) ∧ (s.vat h).mode.capturing = true ∧
      s.fld Reg.CAP_VAT_BW 12 0 ≠ 0 ∧ s.ringRoom h reserveBytes = true ∧ (s.vat h).stageRoom reserveBytes = true) ∧
   (let n : Nat := 0
    let rising : Bool := false
    let s_1 : State := booted.setBit (Reg.CAP_TRIG_CFG n) 31 false
    let s : State := s_1.setBit (Reg.CAP_TRIG_CFG n) 30 (!rising)
    s.clocked = true ∧ n < 4 ∧ s.bit (Reg.CAP_TRIG_CFG n) 31 = false ∧ s.bit (Reg.CAP_TRIG_CFG n) 30 = !rising) ∧
   (let n : Nat := 0
    let s : State := booted.setBit (Reg.CAP_TRIG_CFG n) 0 false
    s.clocked = true ∧ n < 4 ∧ s.bit (Reg.CAP_TRIG_CFG n) 0 = false) ∧
   (let n : Nat := 0
    let s_1 : State := booted.setBit (Reg.CAP_TRIG_CFG n) 0 true
    let s_2 : State := s_1.setBit (Reg.CAP_TRIG_CFG n) 1 false
    let s : State := s_2.setBit (Reg.CAP_TRIG_CFG n) 3 false
    s.clocked = true ∧ n < 4 ∧ s.bit (Reg.CAP_TRIG_CFG n) 0 = true ∧ s.bit (Reg.CAP_TRIG_CFG n) 1 = false ∧
      s.bit (Reg.CAP_TRIG_CFG n) 3 = false) ∧
   (let s : State := booted
    let n : Nat := 0
    let s1 := (s.wr (Reg.CAP_TRIG_STAMP_LO n) (BitVec.setWidth 32 s.stampNow)).wr (Reg.CAP_TRIG_STAMP_HI n) (BitVec.setWidth 32 (s.stampNow >>> 32))
    s.clocked = true ∧ n < 4 ∧ s1.bit (Reg.CAP_TRIG_CFG n) 31 = false ∧ s1.bit (Reg.CAP_TRIG_CFG n) 4 = false ∧
      (s1.pressLine n).bit (Reg.CAP_TRIG_CFG n) 2 = false) ∧
   (let s_1 : State := { booted with cap.spillUp := [0], mm.running := [.spill 0] }
    let s_2 : State := s_1.setBit (Reg.CAP_SPILL_CFG 0) 31 true
    let s_3 : State := s_2.wr (Reg.CAP_VAT_CFG 0) 0x57800000#32
    let s : State := s_3.setVat 0 { s_3.vat 0 with mode := .stream, wpos := 100000 }
    let h : Nat := 0
    let k : Nat := 0
    let u := s.refill
    let room := u.fld (Reg.CAP_SPILL_CFG k) 13 0 - 34
    let n := min room (u.spillReady h)
    s.clocked = true ∧ h < 2 ∧ s.refill.nextSpillPort h = some k ∧ (s.refill.vat h).mode = VatMode.stream ∧
      s.refill.vatSpill h = 1 ∧ 0 < n ∧ n ≤ u.tokenBytes ∧ n = room) ∧
   (let s_1 : State := { booted with cap.spillUp := [0], mm.running := [.spill 0] }
    let s_2 : State := s_1.setBit (Reg.CAP_SPILL_CFG 0) 31 true
    let s_3 : State := s_2.wr (Reg.CAP_VAT_CFG 0) 0x57800000#32
    let s : State := s_3.setVat 0 { s_3.vat 0 with mode := .stream, wpos := 1 }
    let h : Nat := 0
    let k : Nat := 0
    let u := s.refill
    let room := u.fld (Reg.CAP_SPILL_CFG k) 13 0 - 34
    let n := min room (u.spillReady h)
    s.clocked = true ∧ h < 2 ∧ s.refill.nextSpillPort h = some k ∧ (s.refill.vat h).mode = VatMode.stream ∧
      s.refill.vatSpill h = 1 ∧ n < room) ∧
   (let s_1 : State := { booted with cap.spillUp := [0], mm.running := [.spill 0] }
    let s_2 : State := s_1.setBit (Reg.CAP_SPILL_CFG 0) 31 true
    let s_3 : State := s_2.wr (Reg.CAP_VAT_CFG 0) 0x57800000#32
    let s_4 : State := s_3.setVat 0 { s_3.vat 0 with mode := .stream, wpos := 100000 }
    let s : State := { s_4 with cap.tokens := 0 }
    let h : Nat := 0
    let k : Nat := 0
    let u := s.refill
    let room := u.fld (Reg.CAP_SPILL_CFG k) 13 0 - 34
    let n := min room (u.spillReady h)
    s.clocked = true ∧ h < 2 ∧ s.refill.nextSpillPort h = some k ∧ (s.refill.vat h).mode = VatMode.stream ∧
      s.refill.vatSpill h = 1 ∧ u.tokenBytes < n) ∧
   (let s : State := booted.setVat 0 { booted.vat 0 with mode := .armed }
    let k : Nat := 0
    k < 24 ∧ s.hostOpen (Reg.CAP_SPILL_CFG k) ∧ s.vatFree (k / 12) = false) ∧
   (let s : State := booted
    let k : Nat := 0
    k < 24 ∧ s.hostOpen (Reg.CAP_SPILL_CFG k) ∧ s.vatFree (k / 12) = true) ∧
   (let s : State := booted
    let d : Desc := oneDesc 0 0 false [0#32, 65536#32]
    let h := d.fld 16 31 31
    let l := d.fld 20 31 0
    s.clocked = true ∧ l % 4096 = 0 ∧ 65536 ≤ l ∧ l ≤ 2 ^ 28 ∧ BitVec.toNat (d.w64 24) % 4096 = 0 ∧
      (s.vat h).bufs.length < 1024) ∧
   (let s : State := booted.setVat 0 { booted.vat 0 with bufs := List.replicate 1024 { ref := ⟨0, 0#32, false, false⟩, fn := 0, len := 65536, addr := 0#64 } }
    let d : Desc := oneDesc 0 0 false [0#32, 65536#32]
    let h := d.fld 16 31 31
    let l := d.fld 20 31 0
    s.clocked = true ∧ l % 4096 = 0 ∧ 65536 ≤ l ∧ l ≤ 2 ^ 28 ∧ BitVec.toNat (d.w64 24) % 4096 = 0 ∧
      1024 ≤ (s.vat h).bufs.length) ∧
   (let h : Nat := 0
    let idle : Bool := true
    let b : SpillBuf := { ref := ⟨0, 0#32, false, false⟩, fn := 0, len := 65536, addr := 0#64, fill := 16 }
    let s : State := booted.setVat 0 { booted.vat 0 with bufs := [b] }
    let r : List SpillBuf := []
    let u := s.hostFill h
    s.clocked = true ∧ h < 2 ∧ ((s.hostFill h).vat h).bufs = b :: r ∧ 0 < b.fill ∧ (b.fill = b.len - 16 ∨ idle = true ∨
      (u.vat h).mode = VatMode.done ∧ (u.vat h).spilled = (u.vat h).wpos)) ∧
   (let h : Nat := 0
    let idle : Bool := false
    let b : SpillBuf := { ref := ⟨0, 0#32, false, false⟩, fn := 0, len := 65536, addr := 0#64, fill := 16 }
    let s : State := booted.setVat 0 { booted.vat 0 with bufs := [b] }
    let r : List SpillBuf := []
    let u := s.hostFill h
    s.clocked = true ∧ h < 2 ∧ ((s.hostFill h).vat h).bufs = b :: r ∧ 0 < b.fill ∧ b.fill ≠ b.len - 16 ∧ idle = false ∧
      (u.vat h).mode ≠ VatMode.done) ∧
   (let s : State := { booted with cap.press := [(0, { mode := .wait })] }
    let d : Desc := oneDesc 65535 0 false [BitVec.ofNat 32 (0 * 2 ^ 4), 0#32, 0#32, 0#32, 0#32, 0#32, BitVec.ofNat 32 (1)]
    let c := d.fld 16 3 0
    s.clocked = true ∧ d.carrier = 65535 ∧ d.fld 16 4 4 = 0 ∧ BitVec.toNat (d.w64 24) % 8 = 0 ∧
      BitVec.toNat (d.w64 24) + BitVec.toNat (d.w64 32) ≤ memSize ∧ 0 < d.fld 40 23 0 ∧ carrierClamped d.carrier = false ∧
      (s.chanP c).mode ≠ PressMode.idle) ∧
   (let d : Desc := oneDesc 65535 0 true [BitVec.ofNat 32 (0 * 2 ^ 4 + 0 * 2 ^ 7), 0#32, 0#32, 0#32, 0#32, 0#32,
      BitVec.ofNat 32 (1)]
    let s : State := booted.setChanP (d.fld 16 3 0) { booted.chanP (d.fld 16 3 0) with mode := PressMode.idle }
    let c := d.fld 16 3 0
    s.clocked = true ∧ d.carrier = 65535 ∧ d.fld 16 4 4 = 0 ∧ BitVec.toNat (d.w64 24) % 8 = 0 ∧
      BitVec.toNat (d.w64 24) + BitVec.toNat (d.w64 32) ≤ memSize ∧ 0 < d.fld 40 23 0 ∧ carrierClamped d.carrier = false ∧
      (s.chanP c).mode = PressMode.idle ∧ d.immediate = true ∧ d.fld 16 7 7 = 0) ∧
   (let d : Desc := oneDesc 0 0 false []
    let s : State := booted.setChanP (d.fld 16 3 0) { booted.chanP (d.fld 16 3 0) with mode := PressMode.idle }
    s.clocked = true ∧ (s.chanP (d.fld 16 3 0)).mode = PressMode.idle) ∧
   (let s : State := { booted with cap.press := [(0, { mode := .wait })] }
    let d : Desc := oneDesc 0 0 false []
    s.clocked = true ∧ (s.chanP (d.fld 16 3 0)).mode ≠ PressMode.idle) ∧
   (let s : State := { booted with cap.press := [(0, { mode := .run, anchor := some (0, 0) })] }
    let c : Nat := 0
    let a : Int := 0
    let n : Int := 0
    s.clocked = true ∧ (s.chanP c).anchor = some (a, n) ∧ (s.chanP c).mode ≠ PressMode.idle ∧
      a + (((s.chanP c).iter : Nat) : Int) * s.pressPeriod (s.chanP c) ≤ s.tb.time16) ∧
   (let c : Nat := 0
    let s : State := booted.setChanP c { booted.chanP c with pos := (booted.chanP c).length }
    (s.chanP c).pos = (s.chanP c).length) ∧
   (let s : State := booted
    let c : Nat := 0
    ((s.chanP c).loops = 0 ∨ (s.chanP c).iter + 1 < (s.chanP c).loops)) ∧
   (let c : Nat := 0
    let s_1 : State := { booted with cap.press := [(0, { loops := 1 })] }
    let s : State := { s_1 with cap.outq := [⟨0, c, 0, []⟩] }
    (s.chanP c).loops ≠ 0 ∧ (s.chanP c).loops ≤ (s.chanP c).iter + 1 ∧ (s.cap.outq.any fun x => x.chan == c) = true) ∧
   (let s : State := { booted with cap.press := [(0, { loops := 1 })] }
    let c : Nat := 0
    (s.chanP c).loops ≠ 0 ∧ (s.chanP c).loops ≤ (s.chanP c).iter + 1 ∧ (s.cap.outq.any fun x => x.chan == c) = false) := by
  refine ⟨?_, ?_, ?_, ?_, ?_, ?_, ?_, ?_, ?_, ?_, ?_, ?_, ?_, ?_, ?_, ?_, ?_, ?_, ?_, ?_, ?_, ?_, ?_, ?_, ?_, ?_, ?_, ?_, ?_, ?_, ?_, ?_, ?_, ?_⟩
  all_goals try intros
  all_goals and_intros
  all_goals first
    | decide +kernel +zetaReduce
    | exact hostOpen_of (by decide +kernel +zetaReduce)
    | exact leafReady_of (by decide +kernel +zetaReduce)
    | exact canonical_of (by decide +kernel +zetaReduce)
    | exact rateLegal_of (by decide +kernel +zetaReduce)
    | exact fetchInstr_of (by decide +kernel +zetaReduce)
    | exact onlyMoves_of _ rfl
    | exact Prod.ext rfl (some_of (by decide +kernel +zetaReduce))
    | exact Prod.ext rfl (by decide +kernel +zetaReduce)
    | exact ⟨_, rfl, by decide +kernel +zetaReduce⟩
    | exact some_of (by decide +kernel +zetaReduce)
    | exact peak_of (by decide +kernel +zetaReduce) (by decide +kernel +zetaReduce)
    | exact ok_of (by decide +kernel +zetaReduce)
    | exact error_of (by decide +kernel +zetaReduce)
    | exact pend_of (by decide +kernel +zetaReduce)
    | exact Or.inl ⟨rfl, rfl, rfl, rfl⟩
    | (intros; decide +kernel +zetaReduce)
    | (intro p; exact List.not_mem_nil)
    | exact List.Mem.head _
    | (intros; rfl)

theorem witness_ModuleMemoryCommands :
   (let s : State := booted
    let d : Desc := oneDesc 0 0 false []
    s.clocked = true ∧ (fillFields d).snd.snd = false ∧ (fillFields d).snd.fst = 0) ∧
   (let s : State := { booted with glb.memReady := false }
    let d : Desc := oneDesc 0 0 false [0#32, 0#32, 64#32]
    s.clocked = true ∧ (fillFields d).snd.snd = false ∧ (fillFields d).snd.fst ≠ 0 ∧ s.glb.memReady = false) ∧
   (let s : State := { booted with glb.memReady := true }
    let d : Desc := oneDesc 0 0 false [0#32, 0#32, 64#32]
    s.clocked = true ∧ (fillFields d).snd.snd = false ∧ (fillFields d).snd.fst ≠ 0 ∧ s.glb.memReady = true) ∧
   (let ring : Nat := 0
    let tag : W32 := 0#32
    let f : Fill := { ref := ⟨0, 0#32, false, false⟩, addr := 0, words := 1, pattern := 0#64 }
    let s : State := { booted with mm.fills := [f] }
    s.clocked = true ∧ List.find? (fun f => f.ref.ring == ring && f.ref.tag == tag) s.mm.fills = some f) ∧
   (let s : State := booted
    let a : Nat := 0
    s.clocked = true ∧ a < memSize) ∧
   (let s : State := booted
    let a : Nat := quireBase
    s.clocked = true ∧ quireBase ≤ a ∧ a < quireBase + 402653184) ∧
   (let s_1 : State := { booted with glb.frozen := false, glb.coreReady := true }
    let s : State := s_1.setFn 0 { s_1.fnOf 0 with flr := false }
    let o : Nat := 0
    let data : List Byte := []
    s.clocked = true ∧ o < 2 ^ 32 ∧ s.glb.frozen = false ∧ (s.fnOf 0).flr = false ∧ s.glb.coreReady = true ∧
      data.length ≤ 512) ∧
   (let s_1 : State := { booted with glb.frozen := false, glb.coreReady := true }
    let s : State := s_1.setFn 0 { s_1.fnOf 0 with flr := false }
    let o : Nat := 0
    let n : Nat := 0
    s.clocked = true ∧ o < 2 ^ 32 ∧ s.glb.frozen = false ∧ (s.fnOf 0).flr = false ∧ s.glb.coreReady = true ∧ n ≤ 4096) ∧
   (let s : State := booted.setFn 0 { booted.fnOf 0 with flr := true }
    let o : Nat := 0
    let n : Nat := 0
    s.clocked = true ∧ o < 2 ^ 32 ∧ n ≤ 4096 ∧ (s.fnOf 0).flr = true) ∧
   (let s : State := { booted with glb.frozen := true, rst.power := PowerMode.on, pwr.asleep := false, rst.warmHeld := false }
    let o : Nat := 0
    let n : Nat := 0
    s.glb.frozen = true ∧ s.rst.power = PowerMode.on ∧ s.pwr.asleep = false ∧ s.rst.warmHeld = false ∧ o < 2 ^ 32 ∧ n ≤ 4096) ∧
   (let s : State := booted
    let a : Nat := 0
    let p := devicePlace s.mm.mapActive a
    s.errorMarks p = 0) ∧
   (let s : State := { booted with mm.marks := [(devicePlace 0 0 / 64, 1)] }
    let a : Nat := 0
    let p := devicePlace s.mm.mapActive a
    s.errorMarks p = 1) ∧
   (let s_1 : State := { booted with mm.marks := [(devicePlace 0 0 / 64, 2)] }
    let s : State := s_1.setBit Reg.MEM_UE_ADDR_HI 31 true
    let a : Nat := 0
    let l := locate s.mm.mapActive a
    let p := devicePlace s.mm.mapActive a
    let t := (s.bump (Reg.MEM_CH_UE l.fst)).raise Reg.MEM_EVENT 0
    2 ≤ s.errorMarks p ∧ t.bit Reg.MEM_UE_ADDR_HI 31 = true) ∧
   (let s : State := { booted with mm.marks := [(devicePlace 0 0 / 64, 2)] }
    let a : Nat := 0
    let l := locate s.mm.mapActive a
    let p := devicePlace s.mm.mapActive a
    let t := (s.bump (Reg.MEM_CH_UE l.fst)).raise Reg.MEM_EVENT 0
    2 ≤ s.errorMarks p ∧ t.bit Reg.MEM_UE_ADDR_HI 31 = false) ∧
   (let s_1 : State := { booted with glb.memReady := true }
    let s : State := s_1.setFld Reg.MEM_CFG 23 16 1
    let c : Nat := 0
    let s1 : State := (s.requestActivity (Activity.scrub c)).1
    s.clocked = true ∧ c < 16 ∧ s.glb.memReady = true ∧ s.fld Reg.MEM_CFG 23 16 ≠ 0 ∧
      s.requestActivity (Activity.scrub c) = (s1, true) ∧
      s1.errorMarks (c * 2 ^ 35 + s1.fld (Reg.MEM_CH_SCRUB c) 28 0 * 64) = 0) ∧
   (let s_1 : State := { booted with glb.memReady := true }
    let s_2 : State := s_1.setFld Reg.MEM_CFG 23 16 1
    let s : State := { s_2 with mm.running := [.retrain 0] }
    let c : Nat := 0
    let s1 : State := (s.requestActivity (Activity.scrub c)).1
    s.clocked = true ∧ c < 16 ∧ s.glb.memReady = true ∧ s.fld Reg.MEM_CFG 23 16 ≠ 0 ∧
      s.requestActivity (Activity.scrub c) = (s1, false)) ∧
   (let s_1 : State := { booted with glb.memReady := true }
    let s : State := s_1.setFld Reg.MEM_CFG 15 8 1
    let c : Nat := 0
    s.clocked = true ∧ c < 16 ∧ s.glb.memReady = true ∧ s.fld Reg.MEM_CFG 15 8 ≠ 0) ∧
   (let s_1 : State := { booted with glb.memReady := true }
    let s : State := s_1.setFld Reg.MEM_CFG 15 8 0
    let c : Nat := 0
    s.clocked = true ∧ c < 16 ∧ s.glb.memReady = true ∧ s.fld Reg.MEM_CFG 15 8 = 0) ∧
   (let s_1 : State := { booted with glb.memReady := true }
    let s : State := { s_1 with mm.running := [.retrain 0] }
    let c : Nat := 0
    s.clocked = true ∧ c < 16 ∧ s.glb.memReady = true ∧ s.activityRuns (Activity.retrain c) = true) ∧
   (let c : Nat := 0
    let s_1 : State := { booted with glb.memReady := true }
    let s : State := s_1.setMemChan c { s_1.memChan c with retryDue := true }
    s.clocked = true ∧ c < 16 ∧ s.glb.memReady = true ∧ (s.memChan c).retryDue = true) ∧
   (let c : Nat := 0
    let temp : Nat := 0
    let s_1 : State := { booted with glb.memReady := true }
    let s : State := s_1.setMemChan c { s_1.memChan c with temp := temp }
    s.clocked = true ∧ c < 16 ∧ s.glb.memReady = true ∧ temp ≤ 4 ∧ (s.memChan c).temp = temp) ∧
   (let s : State := { booted with glb.memReady := true }
    let c : Nat := 0
    let temp : Nat := 1
    s.clocked = true ∧ c < 16 ∧ s.glb.memReady = true ∧ temp ≤ 4 ∧ (s.memChan c).temp ≠ temp) ∧
   (let s : State := { booted with glb.memReady := false }
    let c : Nat := 0
    s.clocked = true ∧ c < 16 ∧ s.glb.memReady = false) ∧
   (let s : State := booted
    let v : W32 := BitVec.ofNat _ (0)
    s.hostOpen Reg.MEM_INJ_CMD ∧ bitsOf v 1 0 = 0) ∧
   (let s : State := booted
    let v : W32 := BitVec.ofNat _ (1)
    s.hostOpen Reg.MEM_INJ_CMD ∧ bitsOf v 1 0 = 1) ∧
   (let s : State := booted
    let v : W32 := BitVec.ofNat _ (2)
    s.hostOpen Reg.MEM_INJ_CMD ∧ 2 ≤ bitsOf v 1 0) ∧
   (let s : State := booted
    s.hostOpen Reg.MEM_UE_ADDR_HI) ∧
   (let s : State := { booted with glb.coreReady := true, glb.memReady := false, rst.coldMem := true }
    s.clocked = true ∧ s.glb.coreReady = true ∧ s.glb.memReady = false ∧ s.rst.coldMem = true) := by
  refine ⟨?_, ?_, ?_, ?_, ?_, ?_, ?_, ?_, ?_, ?_, ?_, ?_, ?_, ?_, ?_, ?_, ?_, ?_, ?_, ?_, ?_, ?_, ?_, ?_, ?_, ?_, ?_, ?_⟩
  all_goals try intros
  all_goals and_intros
  all_goals first
    | decide +kernel +zetaReduce
    | exact hostOpen_of (by decide +kernel +zetaReduce)
    | exact leafReady_of (by decide +kernel +zetaReduce)
    | exact canonical_of (by decide +kernel +zetaReduce)
    | exact rateLegal_of (by decide +kernel +zetaReduce)
    | exact fetchInstr_of (by decide +kernel +zetaReduce)
    | exact onlyMoves_of _ rfl
    | exact Prod.ext rfl (some_of (by decide +kernel +zetaReduce))
    | exact Prod.ext rfl (by decide +kernel +zetaReduce)
    | exact ⟨_, rfl, by decide +kernel +zetaReduce⟩
    | exact some_of (by decide +kernel +zetaReduce)
    | exact peak_of (by decide +kernel +zetaReduce) (by decide +kernel +zetaReduce)
    | exact ok_of (by decide +kernel +zetaReduce)
    | exact error_of (by decide +kernel +zetaReduce)
    | exact pend_of (by decide +kernel +zetaReduce)
    | exact Or.inl ⟨rfl, rfl, rfl, rfl⟩
    | (intros; decide +kernel +zetaReduce)
    | (intro p; exact List.not_mem_nil)
    | exact List.Mem.head _
    | (intros; rfl)

theorem witness_AddressMapsAreOneToOne :
   (let map : Nat := 0
    let a : Nat := 0
    let b : Nat := 0
    map < 3 ∧ a < memSize ∧ b < memSize ∧ devicePlace map a = devicePlace map b) := by
  all_goals try intros
  all_goals and_intros
  all_goals first
    | decide +kernel +zetaReduce
    | exact hostOpen_of (by decide +kernel +zetaReduce)
    | exact leafReady_of (by decide +kernel +zetaReduce)
    | exact canonical_of (by decide +kernel +zetaReduce)
    | exact rateLegal_of (by decide +kernel +zetaReduce)
    | exact fetchInstr_of (by decide +kernel +zetaReduce)
    | exact onlyMoves_of _ rfl
    | exact Prod.ext rfl (some_of (by decide +kernel +zetaReduce))
    | exact Prod.ext rfl (by decide +kernel +zetaReduce)
    | exact ⟨_, rfl, by decide +kernel +zetaReduce⟩
    | exact some_of (by decide +kernel +zetaReduce)
    | exact peak_of (by decide +kernel +zetaReduce) (by decide +kernel +zetaReduce)
    | exact ok_of (by decide +kernel +zetaReduce)
    | exact error_of (by decide +kernel +zetaReduce)
    | exact pend_of (by decide +kernel +zetaReduce)
    | exact Or.inl ⟨rfl, rfl, rfl, rfl⟩
    | (intros; decide +kernel +zetaReduce)
    | (intro p; exact List.not_mem_nil)
    | exact List.Mem.head _
    | (intros; rfl)

theorem witness_ClusterPower :
   (let s : State := booted.setCluster 0 { mode := .run }
    let d : Nat := 0
    let v : W32 := 0x40000000#32
    let w := if d < 24 then v else setBitsOf v 27 24 0
    let s1 := s.writeContext (Reg.PWR_CL_CTRL d) v w
    let req : Nat := 1
    let c : Instr := Instr.requestNap d v
    d < clusterCount ∧ s.hostOpen (Reg.PWR_CL_CTRL d) ∧ (req = 1 ∧ c = Instr.requestNap d v ∨ req = 2 ∧
      c = Instr.requestDoze d v ∨ req = 0 ∧ c = Instr.requestRun d v) ∧ reqOf v = req ∧
      s1.fld (Reg.PWR_CL_CTRL d) 31 30 = req ∧ (s1.cluster d).mode = PwrMode.run ∧ req ≠ 0) ∧
   (let s : State := booted.setCluster 0 { mode := .nap }
    let d : Nat := 0
    let v : W32 := 0x0#32
    let w := if d < 24 then v else setBitsOf v 27 24 0
    let s1 := s.writeContext (Reg.PWR_CL_CTRL d) v w
    let req : Nat := 0
    let c : Instr := Instr.requestRun d v
    d < clusterCount ∧ s.hostOpen (Reg.PWR_CL_CTRL d) ∧ (req = 1 ∧ c = Instr.requestNap d v ∨ req = 2 ∧
      c = Instr.requestDoze d v ∨ req = 0 ∧ c = Instr.requestRun d v) ∧ reqOf v = req ∧
      s1.fld (Reg.PWR_CL_CTRL d) 31 30 = req ∧ (s1.cluster d).mode = PwrMode.nap ∧ req = 0) ∧
   (let s : State := booted.setCluster 0 { mode := .doze }
    let d : Nat := 0
    let v : W32 := 0x0#32
    let w := if d < 24 then v else setBitsOf v 27 24 0
    let s1 := s.writeContext (Reg.PWR_CL_CTRL d) v w
    let req : Nat := 0
    let c : Instr := Instr.requestRun d v
    d < clusterCount ∧ s.hostOpen (Reg.PWR_CL_CTRL d) ∧ (req = 1 ∧ c = Instr.requestNap d v ∨ req = 2 ∧
      c = Instr.requestDoze d v ∨ req = 0 ∧ c = Instr.requestRun d v) ∧ reqOf v = req ∧
      s1.fld (Reg.PWR_CL_CTRL d) 31 30 = req ∧ (s1.cluster d).mode = PwrMode.doze ∧ req = 0) ∧
   (let s : State := booted.setCluster 0 { mode := .entering }
    let d : Nat := 0
    let v : W32 := 0x40000000#32
    let w := if d < 24 then v else setBitsOf v 27 24 0
    let s1 := s.writeContext (Reg.PWR_CL_CTRL d) v w
    let req : Nat := 1
    let c : Instr := Instr.requestNap d v
    d < clusterCount ∧ s.hostOpen (Reg.PWR_CL_CTRL d) ∧ (req = 1 ∧ c = Instr.requestNap d v ∨ req = 2 ∧
      c = Instr.requestDoze d v ∨ req = 0 ∧ c = Instr.requestRun d v) ∧ reqOf v = req ∧
      s1.fld (Reg.PWR_CL_CTRL d) 31 30 = req ∧ (s1.cluster d).mode = PwrMode.entering ∧ req ≠ 0) ∧
   (let s : State := booted.setCluster 0 { mode := .entering }
    let d : Nat := 0
    let v : W32 := 0x0#32
    let w := if d < 24 then v else setBitsOf v 27 24 0
    let s1 := s.writeContext (Reg.PWR_CL_CTRL d) v w
    let req : Nat := 0
    let c : Instr := Instr.requestRun d v
    d < clusterCount ∧ s.hostOpen (Reg.PWR_CL_CTRL d) ∧ (req = 1 ∧ c = Instr.requestNap d v ∨ req = 2 ∧
      c = Instr.requestDoze d v ∨ req = 0 ∧ c = Instr.requestRun d v) ∧ reqOf v = req ∧
      s1.fld (Reg.PWR_CL_CTRL d) 31 30 = req ∧ (s1.cluster d).mode = PwrMode.entering ∧ req = 0) ∧
   (let s : State := booted.setCluster 0 { mode := .exiting }
    let d : Nat := 0
    let v : W32 := 0x40000000#32
    let w := if d < 24 then v else setBitsOf v 27 24 0
    let s1 := s.writeContext (Reg.PWR_CL_CTRL d) v w
    let req : Nat := 1
    let c : Instr := Instr.requestNap d v
    d < clusterCount ∧ s.hostOpen (Reg.PWR_CL_CTRL d) ∧ (req = 1 ∧ c = Instr.requestNap d v ∨ req = 2 ∧
      c = Instr.requestDoze d v ∨ req = 0 ∧ c = Instr.requestRun d v) ∧ reqOf v = req ∧
      s1.fld (Reg.PWR_CL_CTRL d) 31 30 = req ∧ (s1.cluster d).mode = PwrMode.exiting) ∧
   (let s : State := booted.setCluster 0 { mode := .run }
    let d : Nat := 0
    let v : W32 := 0x0#32
    let w := if d < 24 then v else setBitsOf v 27 24 0
    let s1 := s.writeContext (Reg.PWR_CL_CTRL d) v w
    let req : Nat := 0
    let c : Instr := Instr.requestRun d v
    d < clusterCount ∧ s.hostOpen (Reg.PWR_CL_CTRL d) ∧ (req = 1 ∧ c = Instr.requestNap d v ∨ req = 2 ∧
      c = Instr.requestDoze d v ∨ req = 0 ∧ c = Instr.requestRun d v) ∧ reqOf v = req ∧
      s1.fld (Reg.PWR_CL_CTRL d) 31 30 = req ∧ ((s1.cluster d).mode = PwrMode.run ∧ req = 0 ∨
      (s1.cluster d).mode = PwrMode.nap ∧ req = 1)) ∧
   (let d : Nat := 0
    let s_1 : State := booted.setCluster d { booted.cluster d with mode := PwrMode.run }
    let s : State := s_1.setBit (Reg.PWR_CL_CTRL d) 29 true
    s.clocked = true ∧ d < clusterCount ∧ s.bit (Reg.PWR_CL_CTRL d) 29 = true ∧ (s.cluster d).mode = PwrMode.run) ∧
   (let d : Nat := 0
    let s : State := booted.setCluster d { booted.cluster d with mode := PwrMode.nap }
    s.clocked = true ∧ d < clusterCount ∧ (s.cluster d).mode = PwrMode.nap) ∧
   (let d : Nat := 0
    let s : State := booted.setCluster d { booted.cluster d with mode := PwrMode.entering, toDoze := false }
    s.clocked = true ∧ d < clusterCount ∧ (s.cluster d).mode = PwrMode.entering ∧ (s.cluster d).toDoze = false) ∧
   (let d : Nat := 36
    let s_1 : State := booted.setCluster d { booted.cluster d with mode := PwrMode.entering, isolated := false }
    let s : State := s_1.setLane 0 { mode := .up }
    let unit : Nat := 0
    s.clocked = true ∧ d < clusterCount ∧ (s.cluster d).mode = PwrMode.entering ∧ (s.cluster d).isolated = false ∧
      unit < clusterUnits d ∧ s.unitRefuses d unit = true) ∧
   (let d : Nat := 28
    let s_1 : State := booted.setCluster d { booted.cluster d with mode := PwrMode.entering, isolated := false }
    let s : State := s_1.setEngine 0 { jobs := [{ oneJob 1 [] with running := true }] }
    let unit : Nat := 0
    s.clocked = true ∧ d < clusterCount ∧ (s.cluster d).mode = PwrMode.entering ∧ (s.cluster d).isolated = false ∧
      unit < clusterUnits d ∧ s.unitDelays d unit = true) ∧
   (let d : Nat := 28
    let s_1 : State := booted.setCluster d { booted.cluster d with mode := PwrMode.entering, isolated := false }
    let s : State := s_1.setEngine 0 { jobs := [{ oneJob 1 [] with running := true }] }
    let unit : Nat := 0
    let u := s.askUnit d unit
    s.clocked = true ∧ d < clusterCount ∧ (s.cluster d).mode = PwrMode.entering ∧ (s.cluster d).isolated = false ∧
      unit < clusterUnits d ∧ s.unitRefuses d unit = false ∧ u.unitDelays d unit = true) ∧
   (let d : Nat := 0
    let s : State := booted.setCluster d { booted.cluster d with mode := PwrMode.entering, isolated := false }
    let unit : Nat := 0
    let u := s.askUnit d unit
    let c := s.cluster d
    let c := u.cluster d
    s.clocked = true ∧ d < clusterCount ∧ (s.cluster d).mode = PwrMode.entering ∧ (s.cluster d).isolated = false ∧
      unit < clusterUnits d ∧ s.unitRefuses d unit = false ∧ u.unitDelays d unit = false ∧ ¬unit ∈ c.accepted ∧
      c.accepted.length + 1 < clusterUnits d) ∧
   (let s : State := booted.setCluster 30 { mode := .entering, toDoze := true }
    let d : Nat := 30
    let unit : Nat := 0
    let u := s.askUnit d unit
    let c := s.cluster d
    let c := u.cluster d
    s.clocked = true ∧ d < clusterCount ∧ (s.cluster d).mode = PwrMode.entering ∧ (s.cluster d).isolated = false ∧
      unit < clusterUnits d ∧ s.unitRefuses d unit = false ∧ u.unitDelays d unit = false ∧ ¬unit ∈ c.accepted ∧
      clusterUnits d ≤ c.accepted.length + 1 ∧ c.toDoze = true) ∧
   (let d : Nat := 30
    let s : State := booted.setCluster d { booted.cluster d with mode := PwrMode.entering, isolated := false }
    let unit : Nat := 0
    let u := s.askUnit d unit
    let c := s.cluster d
    let c := u.cluster d
    s.clocked = true ∧ d < clusterCount ∧ (s.cluster d).mode = PwrMode.entering ∧ (s.cluster d).isolated = false ∧
      unit < clusterUnits d ∧ s.unitRefuses d unit = false ∧ u.unitDelays d unit = false ∧ ¬unit ∈ c.accepted ∧
      clusterUnits d ≤ c.accepted.length + 1 ∧ c.toDoze = false) ∧
   (let d : Nat := 0
    let s : State := booted.setCluster d { booted.cluster d with mode := PwrMode.entering, isolated := true, wakeSeen := false }
    d < clusterCount ∧ (s.cluster d).mode = PwrMode.entering ∧ (s.cluster d).isolated = true ∧
      (s.cluster d).wakeSeen = false) ∧
   (let d : Nat := 0
    let s : State := booted.setCluster d { booted.cluster d with mode := PwrMode.entering, isolated := true, wakeSeen := true }
    d < clusterCount ∧ (s.cluster d).mode = PwrMode.entering ∧ (s.cluster d).isolated = true ∧ (s.cluster d).wakeSeen = true) ∧
   (let d : Nat := 24
    let s : State := booted.setCluster d { booted.cluster d with mode := PwrMode.exiting, request := none }
    24 ≤ d ∧ d < clusterCount ∧ (s.cluster d).mode = PwrMode.exiting ∧ (s.cluster d).request = none) ∧
   (let q : Nat := 0
    let s : State := booted.setCluster q { booted.cluster q with mode := PwrMode.exiting }
    q < 24 ∧ (s.cluster q).mode = PwrMode.exiting) ∧
   (let s : State := booted
    let v : W32 := BitVec.ofNat _ (1 * 2 ^ 31 + 0)
    s.hostOpen Reg.PWR_HIB_CTRL ∧ bitOf v 31 = true ∧ bitsOf v 3 0 = 0) ∧
   (let s : State := booted.setRing 0 { enable := true }
    let v : W32 := BitVec.ofNat _ (1 * 2 ^ 31 + 1)
    let s1 := (s.writeContext Reg.PWR_HIB_CTRL v v).setBit Reg.PWR_HIB_CTRL 31 false
    s.hostOpen Reg.PWR_HIB_CTRL ∧ bitOf v 31 = true ∧ bitsOf v 3 0 ≠ 0 ∧ s1.pwr.hibBusy = false ∧ s1.pwr.asleep = false) ∧
   (let s_1 : State := { booted with pwr.hibBusy := true, pwr.asleep := false }
    let s : State := s_1.setRing 0 { enable := true }
    let b : Nat := 2
    s.clocked = true ∧ s.pwr.hibBusy = true ∧ s.pwr.asleep = false ∧ b ∈ hibBlocks ∧ s.hibRefuses b = true) ∧
   (let s_1 : State := { booted with pwr.hibBusy := true, pwr.asleep := false }
    let s : State := s_1.setEngine 0 { jobs := [{ oneJob 1 [] with running := true }] }
    let b : Nat := 44
    let u := if 16 ≤ b then s.askUnit (b - 16) 8 else s
    s.clocked = true ∧ s.pwr.hibBusy = true ∧ s.pwr.asleep = false ∧ b ∈ hibBlocks ∧ s.hibRefuses b = false ∧
      u.hibDelays b = true) ∧
   (let s : State := { booted with pwr.hibBusy := true, pwr.asleep := false }
    let b : Nat := 2
    let u := if 16 ≤ b then s.askUnit (b - 16) 8 else s
    s.clocked = true ∧ s.pwr.hibBusy = true ∧ s.pwr.asleep = false ∧ b ∈ hibBlocks ∧ s.hibRefuses b = false ∧
      u.hibDelays b = false ∧ ¬b ∈ u.pwr.hibAccepted ∧ u.pwr.hibAccepted.length + 1 < hibBlocks.length) ∧
   (let s_1 : State := { booted with pwr.hibBusy := true, pwr.asleep := false }
    let s : State := { s_1 with pwr.hibAccepted := List.replicate 100 1 }
    let b : Nat := 2
    let u := if 16 ≤ b then s.askUnit (b - 16) 8 else s
    s.clocked = true ∧ s.pwr.hibBusy = true ∧ s.pwr.asleep = false ∧ b ∈ hibBlocks ∧ s.hibRefuses b = false ∧
      u.hibDelays b = false ∧ ¬b ∈ u.pwr.hibAccepted ∧ hibBlocks.length ≤ u.pwr.hibAccepted.length + 1) ∧
   (let c : Nat := 0
    c < 16) := by
  refine ⟨?_, ?_, ?_, ?_, ?_, ?_, ?_, ?_, ?_, ?_, ?_, ?_, ?_, ?_, ?_, ?_, ?_, ?_, ?_, ?_, ?_, ?_, ?_, ?_, ?_, ?_, ?_⟩
  all_goals try intros
  all_goals and_intros
  all_goals first
    | decide +kernel +zetaReduce
    | exact hostOpen_of (by decide +kernel +zetaReduce)
    | exact leafReady_of (by decide +kernel +zetaReduce)
    | exact canonical_of (by decide +kernel +zetaReduce)
    | exact rateLegal_of (by decide +kernel +zetaReduce)
    | exact fetchInstr_of (by decide +kernel +zetaReduce)
    | exact onlyMoves_of _ rfl
    | exact Prod.ext rfl (some_of (by decide +kernel +zetaReduce))
    | exact Prod.ext rfl (by decide +kernel +zetaReduce)
    | exact ⟨_, rfl, by decide +kernel +zetaReduce⟩
    | exact some_of (by decide +kernel +zetaReduce)
    | exact peak_of (by decide +kernel +zetaReduce) (by decide +kernel +zetaReduce)
    | exact ok_of (by decide +kernel +zetaReduce)
    | exact error_of (by decide +kernel +zetaReduce)
    | exact pend_of (by decide +kernel +zetaReduce)
    | exact Or.inl ⟨rfl, rfl, rfl, rfl⟩
    | (intros; decide +kernel +zetaReduce)
    | (intro p; exact List.not_mem_nil)
    | exact List.Mem.head _
    | (intros; rfl)

theorem witness_SerhamMessages :
   (let s : State := booted
    let tr : Nat := 2
    let seq : Nat := 0
    s.msgDue tr seq 1 = true) ∧
   (let s : State := booted
    let tr : Nat := 2
    let seq : Nat := 0
    s.msgDue tr seq 2 = true) ∧
   (let s : State := booted
    let tr : Nat := 2
    let seq : Nat := 0
    let count : Nat := 1
    s.msgDue tr seq 3 = true ∧ 1 ≤ count ∧ count ≤ 7) ∧
   (let s : State := booted
    let tr : Nat := 2
    let seq : Nat := 0
    let op : Nat := 0
    ¬op ∈ knownOps ∧ op < 256 ∧ s.msgDue tr seq op = true) ∧
   (let s : State := { booted with glb.frozen := true }
    let tr : Nat := 2
    let seq : Nat := 0
    s.glb.frozen = true ∧ s.msgDue tr seq 16 = true) ∧
   (let s_1 : State := { booted with glb.frozen := false }
    let s : State := { s_1 with col.session := some { transport := 0, slot := 1, length := 0 } }
    let tr : Nat := 2
    let seq : Nat := 0
    s.glb.frozen = false ∧ s.msgDue tr seq 16 = true ∧ s.col.session.isSome = true) ∧
   (let s : State := { booted with glb.frozen := false, col.session := none }
    let tr : Nat := 2
    let seq : Nat := 0
    let slot : Nat := 1
    let length : Nat := 0
    s.glb.frozen = false ∧ s.msgDue tr seq 16 = true ∧ s.col.session = none ∧ slot ≤ 1 ∧ length ≤ imageMax ∧
      slot ≠ s.col.running) ∧
   (let s : State := { booted with glb.frozen := false, col.session := none, col.recovery := false }
    let tr : Nat := 2
    let seq : Nat := 0
    let slot : Nat := s.col.running
    s.glb.frozen = false ∧ s.msgDue tr seq 16 = true ∧ s.col.session = none ∧ s.col.recovery = false ∧ slot = s.col.running) ∧
   (let tr : Nat := 2
    let seq : Nat := 0
    let x : Session := { ({ transport := 0, slot := 1, length := 0 } : Session) with transport := tr }
    let s : State := { booted with glb.frozen := false, col.session := some x }
    let off : Nat := 0
    let data : List Byte := []
    let s1 : State := (s.requestActivity Activity.flashWrite).1
    s.glb.frozen = false ∧ s.msgDue tr seq 17 = true ∧ s.col.session = some x ∧ x.transport = tr ∧
      data.length ≤ payloadLimit tr - 4 ∧ off + data.length ≤ imageMax ∧ s.requestActivity Activity.flashWrite = (s1, true)) ∧
   (let tr : Nat := 2
    let seq : Nat := 0
    let x : Session := { ({ transport := 0, slot := 1, length := 0 } : Session) with transport := tr }
    let s : State := { booted with glb.frozen := false, col.session := some x }
    let genuine : Bool := true
    let svn : Nat := 0
    let good := genuine = true ∧ x.length ≤ coverage (s.slotOf x.slot).data
    s.glb.frozen = false ∧ s.msgDue tr seq 18 = true ∧ s.col.session = some x ∧ x.transport = tr ∧ good ∧
      s.col.fusedSvn ≤ svn ∧ svn ≤ 64) ∧
   (let tr : Nat := 2
    let seq : Nat := 0
    let x : Session := { ({ transport := 0, slot := 1, length := 0 } : Session) with transport := tr }
    let s_1 : State := { booted with glb.frozen := false, col.session := some x }
    let s : State := { s_1 with col.fusedSvn := 1 }
    let genuine : Bool := true
    let svn : Nat := 0
    let good := genuine = true ∧ x.length ≤ coverage (s.slotOf x.slot).data
    s.glb.frozen = false ∧ s.msgDue tr seq 18 = true ∧ s.col.session = some x ∧ x.transport = tr ∧ good ∧
      svn < s.col.fusedSvn) ∧
   (let tr : Nat := 2
    let seq : Nat := 0
    let x : Session := { ({ transport := 0, slot := 1, length := 0 } : Session) with transport := tr }
    let s : State := { booted with glb.frozen := false, col.session := some x }
    let genuine : Bool := false
    let good := genuine = true ∧ x.length ≤ coverage (s.slotOf x.slot).data
    s.glb.frozen = false ∧ s.msgDue tr seq 18 = true ∧ s.col.session = some x ∧ x.transport = tr ∧ ¬good) ∧
   (let s_1 : State := { booted with glb.frozen := false, col.session := none }
    let s : State := { s_1 with col.slotB := { mode := .valid } }
    let tr : Nat := 2
    let seq : Nat := 0
    let slot : Nat := 1
    s.glb.frozen = false ∧ s.msgDue tr seq 19 = true ∧ s.col.session = none ∧ slot ≤ 1 ∧
      (s.slotOf slot).mode = SlotMode.valid) ∧
   (let s : State := { booted with glb.frozen := false }
    let tr : Nat := 2
    let seq : Nat := 0
    s.glb.frozen = false ∧ s.msgDue tr seq 20 = true ∧ s.trialRuns = false) ∧
   (let s_1 : State := { booted with glb.frozen := false }
    let s : State := { s_1 with col.trialBooted := true, col.running := 1, col.slotB := { mode := .trial, genuine := true } }
    let tr : Nat := 2
    let seq : Nat := 0
    s.glb.frozen = false ∧ s.msgDue tr seq 20 = true ∧ s.trialRuns = true) ∧
   (let tr : Nat := 2
    let seq : Nat := 0
    let x : Session := { ({ transport := 0, slot := 1, length := 0 } : Session) with transport := tr }
    let s : State := { booted with glb.frozen := false, col.session := some x }
    s.glb.frozen = false ∧ s.msgDue tr seq 21 = true ∧ s.col.session = some x ∧ x.transport = tr) ∧
   (let s : State := { booted with glb.frozen := false }
    let tr : Nat := 2
    let seq : Nat := 0
    let n : Nat := 0
    let body : List Byte := List.replicate 4 0
    let s1 : State := (s.requestActivity Activity.flashWrite).1
    s.glb.frozen = false ∧ s.msgDue tr seq 22 = true ∧ n ≤ 3 ∧ body.length = recordLength n ∧
      s.requestActivity Activity.flashWrite = (s1, true)) ∧
   (let x : Session := { transport := 0, slot := 1, length := 0 }
    let s : State := { booted with col.session := some x, col.serhamUp := true }
    s.col.session = some x ∧ s.col.serhamUp = true) ∧
   (let s_1 : State := { booted with col.serhamUp := true }
    let s : State := { s_1 with col.net := [1, 2, 3, 4] }
    s.col.serhamUp = true ∧ s.ipv4 ≠ 0) := by
  refine ⟨?_, ?_, ?_, ?_, ?_, ?_, ?_, ?_, ?_, ?_, ?_, ?_, ?_, ?_, ?_, ?_, ?_, ?_, ?_⟩
  all_goals try intros
  all_goals and_intros
  all_goals first
    | decide +kernel +zetaReduce
    | exact hostOpen_of (by decide +kernel +zetaReduce)
    | exact leafReady_of (by decide +kernel +zetaReduce)
    | exact canonical_of (by decide +kernel +zetaReduce)
    | exact rateLegal_of (by decide +kernel +zetaReduce)
    | exact fetchInstr_of (by decide +kernel +zetaReduce)
    | exact onlyMoves_of _ rfl
    | exact Prod.ext rfl (some_of (by decide +kernel +zetaReduce))
    | exact Prod.ext rfl (by decide +kernel +zetaReduce)
    | exact ⟨_, rfl, by decide +kernel +zetaReduce⟩
    | exact some_of (by decide +kernel +zetaReduce)
    | exact peak_of (by decide +kernel +zetaReduce) (by decide +kernel +zetaReduce)
    | exact ok_of (by decide +kernel +zetaReduce)
    | exact error_of (by decide +kernel +zetaReduce)
    | exact pend_of (by decide +kernel +zetaReduce)
    | exact Or.inl ⟨rfl, rfl, rfl, rfl⟩
    | (intros; decide +kernel +zetaReduce)
    | (intro p; exact List.not_mem_nil)
    | exact List.Mem.head _
    | (intros; rfl)

theorem witness_FreezeAndProtection :
   (let s : State := { booted with glb.frozen := false, pwr.asleep := true }
    let tr : Nat := 2
    let seq : Nat := 0
    s.msgDue tr seq 32 = true ∧ s.glb.frozen = false ∧ s.pwr.asleep = true) ∧
   (let s_1 : State := { booted with glb.frozen := false, pwr.asleep := false }
    let s : State := s_1.setBit Reg.COL_FREEZE_CFG 2 false
    let tr : Nat := 2
    let seq : Nat := 0
    let leadUs : Nat := 0
    s.msgDue tr seq 32 = true ∧ s.glb.frozen = false ∧ s.pwr.asleep = false ∧ leadUs = 0 ∧
      s.bit Reg.COL_FREEZE_CFG 2 = false ∧ (s.answer tr seq 32 stOK false).glb.frozen = false ∧
      (s.answer tr seq 32 stOK false).bit Reg.COL_FREEZE_CFG 2 = false) ∧
   (let s_1 : State := { booted with glb.frozen := false }
    let s_2 : State := s_1.setBit Reg.COL_FREEZE_CFG 0 true
    let s : State := s_2.setBit Reg.COL_FREEZE_CFG 2 false
    s.bit Reg.COL_FREEZE_CFG 0 = true ∧ s.glb.frozen = false ∧ s.bit Reg.COL_FREEZE_CFG 2 = false) ∧
   (let s_1 : State := { booted with glb.frozen := false }
    let s_2 : State := s_1.setBit Reg.COL_FREEZE_CFG 0 true
    let s : State := s_2.setBit Reg.COL_FREEZE_CFG 2 true
    s.bit Reg.COL_FREEZE_CFG 0 = true ∧ s.glb.frozen = false ∧ s.bit Reg.COL_FREEZE_CFG 2 = true) ∧
   (let s : State := { booted with glb.frozen := false }
    let tr : Nat := 2
    let seq : Nat := 0
    s.msgDue tr seq 33 = true ∧ s.glb.frozen = false) ∧
   (let s : State := { booted with glb.frozen := true }
    let tr : Nat := 2
    let seq : Nat := 0
    let n : Nat := 0
    s.msgDue tr seq 33 = true ∧ s.glb.frozen = true ∧ n ≤ readoutLimit tr) ∧
   (let s : State := { booted with glb.frozen := false, pwr.asleep := false }
    let tr : Nat := 2
    let seq : Nat := 0
    let d : Nat := 0
    let banks : Nat := 0
    s.msgDue tr seq 48 = true ∧ s.glb.frozen = false ∧ s.pwr.asleep = false ∧ d < 24 ∧ banks < 16 ∧
      (s.cluster d).mode ≠ PwrMode.doze) ∧
   (let s_1 : State := { booted with glb.frozen := false, pwr.asleep := false }
    let s : State := s_1.setFld Reg.PWR_HIB_CTRL 3 0 0
    let tr : Nat := 2
    let seq : Nat := 0
    s.msgDue tr seq 48 = true ∧ s.glb.frozen = false ∧ s.pwr.asleep = false ∧ s.fld Reg.PWR_HIB_CTRL 3 0 = 0) ∧
   (let s_1 : State := { booted with glb.frozen := false, pwr.asleep := false }
    let s : State := s_1.setFld Reg.PWR_HIB_CTRL 3 0 1
    let tr : Nat := 2
    let seq : Nat := 0
    s.msgDue tr seq 48 = true ∧ s.glb.frozen = false ∧ s.pwr.asleep = false ∧ s.fld Reg.PWR_HIB_CTRL 3 0 ≠ 0) ∧
   (let tr : Nat := 2
    let seq : Nat := 0
    let d : Nat := 0
    let s_1 : State := { booted with glb.frozen := false, pwr.asleep := false }
    let s : State := s_1.setCluster d { s_1.cluster d with mode := PwrMode.run }
    s.msgDue tr seq 48 = true ∧ s.glb.frozen = false ∧ s.pwr.asleep = false ∧ d < clusterCount ∧
      (s.cluster d).mode = PwrMode.run ∧ ((s.setFld (Reg.PWR_CL_CTRL d) 31 30 0).cluster d).mode = PwrMode.run) ∧
   (let s : State := { booted with glb.frozen := false, pwr.asleep := false, pwr.hibBusy := false }
    let tr : Nat := 2
    let seq : Nat := 0
    s.msgDue tr seq 48 = true ∧ s.glb.frozen = false ∧ s.pwr.asleep = false ∧ s.pwr.hibBusy = false) ∧
   (let t : Int := 0
    t < 1840) ∧
   (let s : State := { booted with col.hot := true, col.throttle := 1 }
    s.col.hot = true ∧ 0 < s.col.throttle ∧ s.col.throttle < 4) ∧
   (let s : State := { booted with col.hot := false, col.throttle := 1 }
    s.col.hot = false ∧ 0 < s.col.throttle) ∧
   (let s : State := { booted with col.serhamUp := true, col.critical := false }
    s.col.serhamUp = true ∧ s.col.critical = false) ∧
   (let s : State := { booted with col.serhamUp := true, col.warn := false }
    s.col.serhamUp = true ∧ s.col.warn = false) ∧
   (let s_1 : State := { booted with col.serhamUp := true }
    let s : State := { s_1 with col.mram := List.replicate 8192 { type := 0, sev := 0, boot := 0, seq := 0, time := 0, data := 0 } }
    s.col.serhamUp = true ∧ mramSize / 2 ≤ s.col.mram.length) ∧
   (let s : State := { booted with mm.running := [.compaction] }
    s.activityRuns Activity.compaction = true ∧
      s.col.flashLog.length + (List.take (mramSize / 2) s.col.mram).length ≤ flashLogSize) ∧
   (let s : State := { booted with mm.waiting := [.flashWrite] }
    let a : Activity := (s.startable [] s.mm.waiting).getD .flashWrite
    s.startable [] s.mm.waiting = some a ∧ s.clocked = true) ∧
   (let s : State := { booted with rst.power := PowerMode.on, col.serhamUp := true, col.critical := true }
    s.rst.power = PowerMode.on ∧ s.col.serhamUp = true ∧ s.col.critical = true) := by
  refine ⟨?_, ?_, ?_, ?_, ?_, ?_, ?_, ?_, ?_, ?_, ?_, ?_, ?_, ?_, ?_, ?_, ?_, ?_, ?_, ?_⟩
  all_goals try intros
  all_goals and_intros
  all_goals first
    | decide +kernel +zetaReduce
    | exact hostOpen_of (by decide +kernel +zetaReduce)
    | exact leafReady_of (by decide +kernel +zetaReduce)
    | exact canonical_of (by decide +kernel +zetaReduce)
    | exact rateLegal_of (by decide +kernel +zetaReduce)
    | exact fetchInstr_of (by decide +kernel +zetaReduce)
    | exact onlyMoves_of _ rfl
    | exact Prod.ext rfl (some_of (by decide +kernel +zetaReduce))
    | exact Prod.ext rfl (by decide +kernel +zetaReduce)
    | exact ⟨_, rfl, by decide +kernel +zetaReduce⟩
    | exact some_of (by decide +kernel +zetaReduce)
    | exact peak_of (by decide +kernel +zetaReduce) (by decide +kernel +zetaReduce)
    | exact ok_of (by decide +kernel +zetaReduce)
    | exact error_of (by decide +kernel +zetaReduce)
    | exact pend_of (by decide +kernel +zetaReduce)
    | exact Or.inl ⟨rfl, rfl, rfl, rfl⟩
    | (intros; decide +kernel +zetaReduce)
    | (intro p; exact List.not_mem_nil)
    | exact List.Mem.head _
    | (intros; rfl)

theorem witness_ExcludedActivitiesNeverRunTogether :
   (let s : State := { booted with mm.waiting := [.flashWrite] }
    let a : Activity := (s.startable [] s.mm.waiting).getD .flashWrite
    let Apart : State → Prop := fun s => ∀ (a : Activity), a ∈ s.mm.running → ∀ (b : Activity),
      b ∈ s.mm.running → excludes a b = false
    Apart s ∧ s.startable [] s.mm.waiting = some a) := by
  all_goals try intros
  all_goals and_intros
  all_goals first
    | decide +kernel +zetaReduce
    | exact hostOpen_of (by decide +kernel +zetaReduce)
    | exact leafReady_of (by decide +kernel +zetaReduce)
    | exact canonical_of (by decide +kernel +zetaReduce)
    | exact rateLegal_of (by decide +kernel +zetaReduce)
    | exact fetchInstr_of (by decide +kernel +zetaReduce)
    | exact onlyMoves_of _ rfl
    | exact Prod.ext rfl (some_of (by decide +kernel +zetaReduce))
    | exact Prod.ext rfl (by decide +kernel +zetaReduce)
    | exact ⟨_, rfl, by decide +kernel +zetaReduce⟩
    | exact some_of (by decide +kernel +zetaReduce)
    | exact peak_of (by decide +kernel +zetaReduce) (by decide +kernel +zetaReduce)
    | exact ok_of (by decide +kernel +zetaReduce)
    | exact error_of (by decide +kernel +zetaReduce)
    | exact pend_of (by decide +kernel +zetaReduce)
    | exact Or.inl ⟨rfl, rfl, rfl, rfl⟩
    | (intros; decide +kernel +zetaReduce)
    | (intro p; exact List.not_mem_nil)
    | exact List.Mem.head _
    | (intros; rfl)

theorem witness_ResetsAndSupplies :
   (let s : State := { booted with rst.power := PowerMode.off }
    (s.rst.power = PowerMode.off ∨ s.rst.power = PowerMode.undervoltage)) ∧
   (let s : State := { booted with rst.power := PowerMode.on, col.serhamUp := false, col.recovery := false, rst.warmHeld := false }
    s.rst.power = PowerMode.on ∧ s.col.serhamUp = false ∧ s.col.recovery = false ∧ s.rst.warmHeld = false) ∧
   (let s : State := { booted with rst.power := PowerMode.on, rst.warmHeld := true }
    s.rst.power = PowerMode.on ∧ s.rst.warmHeld = true) ∧
   (let s : State := { booted with col.serhamUp := true, glb.coreReady := false, rst.power := PowerMode.on, rst.warmHeld := false, pwr.asleep := false, glb.frozen := false }
    s.col.serhamUp = true ∧ s.glb.coreReady = false ∧ s.rst.power = PowerMode.on ∧ s.rst.warmHeld = false ∧
      s.pwr.asleep = false ∧ s.glb.frozen = false) ∧
   (let s : State := { booted with rst.power := PowerMode.overvoltage }
    s.rst.power = PowerMode.overvoltage) ∧
   (let s : State := { booted with pwr.asleep := true }
    let source : Nat := 1
    let count : Nat := 0
    s.pwr.asleep = true ∧ s.wakeEnabled source = true ∧ (source ≠ 0 ∨ s.hibTicks ≤ count)) ∧
   (let s_1 : State := { booted with pwr.asleep := false, pwr.hibBusy := true }
    let s : State := s_1.setBit Reg.PWR_HIB_CTRL 0 true
    let source : Nat := 0
    s.pwr.asleep = false ∧ s.pwr.hibBusy = true ∧ s.wakeEnabled source = true) ∧
   (let s_1 : State := { booted with pwr.asleep := true }
    let s : State := s_1.setBit Reg.PWR_HIB_CTRL 0 true
    s.pwr.asleep = true ∧ s.wakeEnabled 0 = true) ∧
   (let s : State := { booted with col.slotA := { mode := .active } }
    s.col.boot.serhamUp = false) ∧
   (let c : Nat := 0
    c < 16) ∧
   (let s : State := { booted with pwr.wakeSeen := 0 }
    let mask : Nat := 0
    s.pwr.wakeSeen = 0 ∧ mask < 16) := by
  refine ⟨?_, ?_, ?_, ?_, ?_, ?_, ?_, ?_, ?_, ?_, ?_⟩
  all_goals try intros
  all_goals and_intros
  all_goals first
    | decide +kernel +zetaReduce
    | exact hostOpen_of (by decide +kernel +zetaReduce)
    | exact leafReady_of (by decide +kernel +zetaReduce)
    | exact canonical_of (by decide +kernel +zetaReduce)
    | exact rateLegal_of (by decide +kernel +zetaReduce)
    | exact fetchInstr_of (by decide +kernel +zetaReduce)
    | exact onlyMoves_of _ rfl
    | exact Prod.ext rfl (some_of (by decide +kernel +zetaReduce))
    | exact Prod.ext rfl (by decide +kernel +zetaReduce)
    | exact ⟨_, rfl, by decide +kernel +zetaReduce⟩
    | exact some_of (by decide +kernel +zetaReduce)
    | exact peak_of (by decide +kernel +zetaReduce) (by decide +kernel +zetaReduce)
    | exact ok_of (by decide +kernel +zetaReduce)
    | exact error_of (by decide +kernel +zetaReduce)
    | exact pend_of (by decide +kernel +zetaReduce)
    | exact Or.inl ⟨rfl, rfl, rfl, rfl⟩
    | (intros; decide +kernel +zetaReduce)
    | (intro p; exact List.not_mem_nil)
    | exact List.Mem.head _
    | (intros; rfl)

theorem witness_LandsAndPins :
   (let r : Nat := 9
    let c : Nat := 2
    let r' : Nat := 9
    let c' : Nat := 2
    1 ≤ r ∧ r ≤ 62 ∧ 1 ≤ c ∧ c ≤ 62 ∧ 1 ≤ r' ∧ r' ≤ 62 ∧ 1 ≤ c' ∧ c' ≤ 62 ∧ landAt r c = landAt r' c' ∧
      landAt r c ≠ Land.gnd ∧ landAt r c ≠ Land.vin) ∧
   (let n : Nat := 0
    n < 96) ∧
   (let n : Nat := 0
    let s : State := booted.setBit (Reg.CAP_TRIG_CFG n) 31 true
    s.bit (Reg.CAP_TRIG_CFG n) 31 = true) ∧
   (let n : Nat := 0
    let s : State := booted.setBit (Reg.CAP_TRIG_CFG n) 31 false
    s.bit (Reg.CAP_TRIG_CFG n) 31 = false) := by
  refine ⟨?_, ?_, ?_, ?_⟩
  all_goals try intros
  all_goals and_intros
  all_goals first
    | decide +kernel +zetaReduce
    | exact hostOpen_of (by decide +kernel +zetaReduce)
    | exact leafReady_of (by decide +kernel +zetaReduce)
    | exact canonical_of (by decide +kernel +zetaReduce)
    | exact rateLegal_of (by decide +kernel +zetaReduce)
    | exact fetchInstr_of (by decide +kernel +zetaReduce)
    | exact onlyMoves_of _ rfl
    | exact Prod.ext rfl (some_of (by decide +kernel +zetaReduce))
    | exact Prod.ext rfl (by decide +kernel +zetaReduce)
    | exact ⟨_, rfl, by decide +kernel +zetaReduce⟩
    | exact some_of (by decide +kernel +zetaReduce)
    | exact peak_of (by decide +kernel +zetaReduce) (by decide +kernel +zetaReduce)
    | exact ok_of (by decide +kernel +zetaReduce)
    | exact error_of (by decide +kernel +zetaReduce)
    | exact pend_of (by decide +kernel +zetaReduce)
    | exact Or.inl ⟨rfl, rfl, rfl, rfl⟩
    | (intros; decide +kernel +zetaReduce)
    | (intro p; exact List.not_mem_nil)
    | exact List.Mem.head _
    | (intros; rfl)

theorem witness_OnlyAllowedImagesBoot :
   (let c : ColState := {}
    c.boot.serhamUp = true) ∧
   (let c : ColState := { slotA := { mode := .active } }
    c.boot.serhamUp = false) ∧
   (let c : ColState := { slotB := { mode := .trial, genuine := true } }
    let k : Nat := 1
    k < 2 ∧ (c.boot.slot k).mode = SlotMode.trial) ∧
   (let c : ColState := { ({} : ColState) with trialBooted := true }
    c.trialBooted = true ∧ c.running < 2) := by
  refine ⟨?_, ?_, ?_, ?_⟩
  all_goals try intros
  all_goals and_intros
  all_goals first
    | decide +kernel +zetaReduce
    | exact hostOpen_of (by decide +kernel +zetaReduce)
    | exact leafReady_of (by decide +kernel +zetaReduce)
    | exact canonical_of (by decide +kernel +zetaReduce)
    | exact rateLegal_of (by decide +kernel +zetaReduce)
    | exact fetchInstr_of (by decide +kernel +zetaReduce)
    | exact onlyMoves_of _ rfl
    | exact Prod.ext rfl (some_of (by decide +kernel +zetaReduce))
    | exact Prod.ext rfl (by decide +kernel +zetaReduce)
    | exact ⟨_, rfl, by decide +kernel +zetaReduce⟩
    | exact some_of (by decide +kernel +zetaReduce)
    | exact peak_of (by decide +kernel +zetaReduce) (by decide +kernel +zetaReduce)
    | exact ok_of (by decide +kernel +zetaReduce)
    | exact error_of (by decide +kernel +zetaReduce)
    | exact pend_of (by decide +kernel +zetaReduce)
    | exact Or.inl ⟨rfl, rfl, rfl, rfl⟩
    | (intros; decide +kernel +zetaReduce)
    | (intro p; exact List.not_mem_nil)
    | exact List.Mem.head _
    | (intros; rfl)

/-! ## Well-formedness refuses an ill-formed command of each kind -/

/-- A descriptor of the given TYPE whose body has its twelve words. -/
def wholeDesc (type : Nat) : Desc :=
  { ring := 1, type := type, tag := 0#32, flags := 0, immediate := true, carrier := 0xFFFF, slot := 0#32, body := List.replicate 12 0#32 }

theorem test_wf_accepts : (Instr.arm (wholeDesc 0x302)).wf = true ∧ (Instr.registerWrite 63 0 4 0#64).wf = true := by decide
theorem test_wf_function_out_of_range : (Instr.registerWrite 64 0 4 0#64).wf = false := by decide
theorem test_wf_bus_width : (Instr.doorbell 0 0 3 0#64).wf = false := by decide
theorem test_wf_descriptor_type : (Instr.arm (wholeDesc 0x300)).wf = false := by decide
theorem test_wf_descriptor_body : (Instr.arm { wholeDesc 0x302 with body := [] }).wf = false := by decide
theorem test_wf_descriptor_field : (Instr.arm { wholeDesc 0x302 with flags := 65536 }).wf = false := by decide
theorem test_wf_landed_words : (Instr.batchLands 0 true [[0#32]]).wf = false := by decide
theorem test_wf_leaf_number : (Instr.vnop 192 true).wf = false := by decide
theorem test_wf_vector_register : (Instr.vadd 0 true 16 0 0).wf = false := by decide
theorem test_wf_priority : (Instr.startOfItem 0 (.leaf 0) 8 0).wf = false := by decide
theorem test_wf_sequence : (Instr.getInfo 0 256).wf = false := by decide

/-! ## The spec's worked examples -/

/-- 08, "the correlation kernel, encoded", bundle 0x100: `movi g5, 3072`. -/
theorem test_bundle_movi : decodeBundle 0xA028000000000C00 = [.imm false 5 3072#32] := by decide +kernel

/-- Bundle 0x104: `mulc.add a0, v1, v2[0], psh=1 || x.ld.32 v1, [p0]+ || y.ld.4 v2, [p1]+`, slots as the example lists them. -/
theorem test_bundle_mulc : decodeBundle 0x28825000001C0A12 =
    [.v (.mac 1 0) 4 1 2 16, .s .nop 0 0 0, .mem true 1 3 0 1, .mem false 1 0 1 2] := by decide +kernel

/-- Bundle 0x103: `rep g5`, SOP 0 with GD = 1 and GA = 5. -/
theorem test_bundle_rep : (decodeBundle 0x00000001281C0A12)[1]? = some (.s .rep 1 5 0) := by decide +kernel

/-- Bundle 0x105: `sac v3, a0, 24`. -/
theorem test_bundle_sac : (decodeBundle 0x4260180000000000)[0]? = some (.v .sac 3 0 0 24) := by decide +kernel

/-- 17, "one address under three maps". -/
theorem test_address_three_maps : locate 0 0x40103A40 = (9, 0x4010340) ∧ locate 1 0x40103A40 = (1, 0x8020740) ∧
    locate 2 0x40103A40 = (0, 0x40103A40) := by decide +kernel

/-- 03, "a refused arm and a late re-arm": EPOCH 3, FRAME 1,023, SLOT 19 at μ = 1, and the slot after it. -/
theorem test_slot_stamps : stampOf 20 ((3 * 1024 + 1023) * 20 + 19) = 0x000FFF13#32 ∧
    stampOf 20 ((3 * 1024 + 1023) * 20 + 20) = 0x00100000#32 := by decide +kernel

/-- 12: 176 + 13 × 144 + 14 × 2,048 samples in a slot at μ = 1 and N_FFT 2,048. -/
theorem test_samples_of_a_slot : symStart (carrierCfg [(0, 4#32)]) 2048 0 14 = 30720 := by decide +kernel

/-- 07: a 32-byte access at 0x0000_0134 uses 0x0000_0120 and is misaligned (R161). -/
theorem test_misaligned_access : leafAccess 0 true 0x134 32 = ((leafAccess 0 true 0x120 32).1, true) ∧
    (leafAccess 0 true 0x120 32).2 = false := by decide +kernel

/-- 07, step 3: LAOV_IDX of iteration 2,048, lane 5, real part, accumulator 0, under rep. -/
theorem test_overflow_index : laovWord true 0 10 2048 = 0xC2800800#32 := by decide +kernel

/-- 07, step 3: the 2,049th product overflows, the 2,048th does not. -/
theorem test_overflow_product : over40 (2048 * 268427264) = false ∧ over40 (2049 * 268427264) = true := by decide +kernel

/-- 11: segmentation of the transport block of 1,010,856 bits. -/
theorem test_ldpc_segments : ldpcSegs false 1010856 = { crc := 24, c := 120, k' := 8448, z := 384, n := 25344 } := by decide +kernel

/-- 11: code blocks 0 to 47 take 10,464 coded bits, 48 to 119 take 10,496; STRIDE is 12,736 bytes. -/
theorem test_ldpc_rate_matching :
    let j : EngJob := { oneJob 1 [0, 0, 0, 0, 0, 0, 0, 0, BitVec.ofNat 32 (3 * 2 ^ 28 + 4 * 2 ^ 22 + 1010856), 1257984#32]
                        with cod := { blocks := 120 } }
    j.eBits 47 = 10464 ∧ j.eBits 48 = 10496 ∧ j.stride (codPage []) = 12736 := by decide +kernel

/-- 09: the source cursor after symbol 1 is 0x0000_4011_3300. -/
theorem test_circular_cursor :
    let after := fun (cur : W64) => (moveSide 1 20 104832 0 0 cur).2
    after (after 0x401E0000#64) = 0x40113300#64 := by decide +kernel

/-- 04, "a wrapped batch against completion credit": 40 descriptors pending, the first batch of 16 stops at the ring's end, the
second, with 16 reserved, is held to the credit of 17. -/
theorem test_batches_of_the_example :
    let sub : Ring := { enable := true, log2Size := 8, batch := 32, cq := 201, devIdx := 240, fetchIdx := 240, hostIdx := 24 }
    let s := (booted.setRing 200 sub).setRing 201 { enable := true, completion := true, devIdx := 40, hostIdx := 10 }
    let t := (s.setRing 200 { sub with fetchIdx := 0 }).setRing 201 { s.ring 201 with openCount := 16 }
    sub.toFetch = 40 ∧ s.batchLength (s.ring 200) = 16 ∧ t.batchLength (t.ring 200) = 17 := by decide +kernel

/-- 02, "waking after 600 s": without STEP_PERMIT an adjustment of −87,500 ns is refused and read back from TB_REFUSED. -/
theorem test_step_refused :
    let t := nextOf (exec (.adjustment 0xFFFFFFFE#32) (booted.wr Reg.TB_ADJ_LO 0xAA340000#32)) booted
    t.tb.refused = -5734400000 ∧ t.tb.timeU = 0 ∧ t.bit Reg.TB_EVENT 0 = true := by decide +kernel

/-- The same with STEP_PERMIT set: the step is applied, and TB_EVENT.DISCONTINUITY is set. -/
theorem test_step_permitted :
    let s := (booted.wr Reg.TB_ADJ_LO 0xAA340000#32).setBit Reg.TB_CTRL 8 true
    let t := nextOf (exec (.adjustment 0xFFFFFFFE#32) s) booted
    t.tb.timeU = -87500 * uPerNs ∧ t.bit Reg.TB_EVENT 1 = true := by decide +kernel

/-- R9 and R49: a TB_STEP_LIMIT of 1,001 is taken as 1,000 and counted. -/
theorem test_clamped_write :
    let t := nextOf (exec (.registerWrite 0 Reg.TB_STEP_LIMIT 4 1001#64) booted) booted
    t.fld Reg.TB_STEP_LIMIT 9 0 = 1000 ∧ t.fld Reg.TB_CLAMP_COUNT 15 0 = 1 := by decide +kernel

/-- An empty queue of commands leaves the block as it is. -/
theorem test_idle : nextOf (step booted) State.reset = booted := by decide +kernel


/-- 01, "a test instrument with capture": the totals of the table, and the load at 2.6 Tbit/s, which is outside. -/
theorem test_load_of_the_example :
    let l : List (Nat × CarrierType) := [(16, .nr64), (64, .nr4), (96, .lte)]
    loadTotal l 2500 4440 0 0 = ⟨7456, 4256, 7168, 608, 5300, 8952⟩ ∧ loadWithin l 2500 4440 0 0 = true ∧
      loadWithin l 2500 5772 0 0 = false := by decide +kernel

/-- R19 and R21: the parts add up to 270 W, and each row's largest number of carriers is the largest within R20. -/
theorem test_load_table :
    powerBudget.sum = 270 ∧ ∀ t ∈ [CarrierType.nr64, .nr4, .lte, .fr2, .nbIot],
      loadWithin [(t.most, t)] 0 0 0 0 = true ∧ loadWithin [(t.most + 1, t)] 0 0 0 0 = false := by decide +kernel

/-- R239: a mean power of half full scale is 10 log10(1/2) in 1/256 dB, truncated. -/
theorem test_ratio_of_a_half : ratioDb (2 ^ 30) (2 ^ 31) = -771 ∧ ratioDb 0 1 = -32768 := by decide +kernel

/-- R239: QPSK points have no error vector; one part that is 10 % long has one of 3.26 %. -/
theorem test_evm_of_qpsk :
    evmOf 1 800 [(10, 10), (10, -10), (-10, 10), (-10, -10)] = some 0 ∧
      evmOf 1 821 [(11, 10), (10, -10), (-10, 10), (-10, -10)] = some 326 := by decide +kernel

/-- R245 and R252: the first bits of the Gold sequence of c_init 1, and interleaving by 4. -/
theorem test_scrambling_and_interleaving :
    scrBits 1 0 16 = [false, false, false, false, false, false, true, false, true, false, false, false, false, false, true, true] ∧
      interleaved 4 (List.range 12) = [0, 3, 6, 9, 1, 4, 7, 10, 2, 5, 8, 11] := by decide +kernel

/-- R251: the reset table's code of -20 is index 4 with the sign, and stands for -16. -/
theorem test_llr_code : codeOfLlr [0, 2, 4, 8, 16, 32, 64, 112] (-20) = 12 ∧ llrOfCode [0, 2, 4, 8, 16, 32, 64, 112] 12 = -16 := by
  decide +kernel

/-- R95 and R96: a doorbell that is not aligned to the 8 bytes of its QID is discarded and counted. -/
theorem test_doorbell_at_the_high_word :
    let s := (booted.setQueue 5 { kind := 1 }).setRing 5 { enable := true, log2Size := 6 }
    (nextOf (exec (.doorbell 0 40 4 3#64) s) s).ring 5 = { s.ring 5 with hostIdx := 3 } ∧
      (nextOf (exec (.doorbell 0 44 4 3#64) s) s).ring 5 = s.ring 5 := by decide +kernel
end Sys2Proof.Tests
end

section
/-! Host reads that latch (R8, R49): what a read that passes the gates of R3 and R15 latches and returns, and the registers of
TB_TIME. The obligation on latched reads is settled from these. -/

namespace Sys2Proof.Machine

/-! ## The commands as reads -/

theorem exec_lowHalfRead (r : HostRead) (s : State) : exec (.lowHalfRead r) s = .next (s.hostAccess r.fn r.what) := rfl

theorem exec_timeTripleRead (a : Nat) (s : State) : exec (.timeTripleRead a) s = .next (s.hostReadReg a 4) := rfl

/-! ## A read that passes the gates -/

/-- Latches word `k` above the register at `a` as it stands. -/
def State.latchWord (a : Nat) (s : State) (k : Nat) : State :=
  { s with glb.latch := mapSet (fun _ => 0) s.glb.latch (a + 4 * (k + 1)) (s.live (a + 4 * (k + 1))) }

/-- A read that nothing withholds latches the words above the register and returns the register. -/
theorem hostReadReg_open {s : State} {a : Nat} (hans : s.bar0Answers a = true) (h4 : a % 4 = 0)
    (hready : s.glb.coreReady = true ∨ blockOf a = some .glb) (hiso : s.regIsolated a = false) :
    s.hostReadReg a 4 =
      let t := (List.range (latchCount a)).foldl (State.latchWord a) (s.settleRead a)
      { t with hostRead := [t.readReg a] } := by
  have hgate : (!s.glb.coreReady && blockOf a != some .glb) = false := by
    rcases hready with h | h <;> simp [h]
  unfold State.hostReadReg
  rw [if_neg (by simp [hans]), if_neg (by simp [h4, hgate, hiso])]
  rfl

/-- A read of the PF's BAR0 outside its MSI-X structures is a read of the register. -/
theorem hostAccess_bar0_reg {s : State} {a : Nat} (ha : a < 0x4000000) (htable : inMsixTable 0 a = false)
    (hpba : inMsixPba 0 a = false) (w : Nat) : s.hostAccess 0 (.bar0 a w) = s.hostReadReg a w := by
  have hmsix : s.msixRead 0 a w = none := by simp [State.msixRead, htable, hpba]
  simp [State.hostAccess, hmsix, inBar_zero ha]

/-! ## Latched words -/

theorem isLatched_of_latchCount_below {a : Nat} (h : latchCount a = 1) : isLatched (a + 4) = true := by
  simp [isLatched, h]

theorem readReg_latched {s : State} {a : Nat} (h : isLatched a = true) :
    s.readReg a = mapGet (fun _ => 0) s.glb.latch a := if_pos h

theorem readReg_live {s : State} {a : Nat} (h : isLatched a = false) : s.readReg a = s.live a := by
  simp [State.readReg, h]

/-! ## TB_TIME -/

/-- A register that reports other state reads that report. -/
theorem live_of_report {s : State} {a : Nat} {d : RegDef} {ix : List Nat} {v : W32} (hf : findReg a = some (d, ix))
    (hr : s.regReport d.id (ix.getD 0 0) (ix.getD 1 0) = some v) : s.live a = v := by
  simp only [State.live, hf, hr]

theorem findReg_tbTime : findReg Reg.TB_TIME = some (⟨.TB_TIME, 0x00F00030, [], [⟨31, 0, .ro, 0, []⟩]⟩, []) := by
  decide +kernel

theorem findReg_tbTimeSecLo :
    findReg Reg.TB_TIME_SEC_LO = some (⟨.TB_TIME_SEC_LO, 0x00F00034, [], [⟨31, 0, .ro, 0, []⟩]⟩, []) := by
  decide +kernel

theorem findReg_tbTimeSecHi : findReg Reg.TB_TIME_SEC_HI =
    some (⟨.TB_TIME_SEC_HI, 0x00F00038, [], [⟨31, 16, .ro, 0, []⟩, ⟨15, 0, .ro, 0, []⟩]⟩, []) := by
  decide +kernel

theorem live_tbTime (s : State) : s.live Reg.TB_TIME = tripleWord s.tb.time16 0 := live_of_report findReg_tbTime rfl
theorem live_tbTimeSecLo (s : State) : s.live (Reg.TB_TIME + 4) = tripleWord s.tb.time16 1 :=
  live_of_report findReg_tbTimeSecLo rfl
theorem live_tbTimeSecHi (s : State) : s.live (Reg.TB_TIME + 8) = tripleWord s.tb.time16 2 :=
  live_of_report findReg_tbTimeSecHi rfl

theorem latchCount_tbTime : latchCount Reg.TB_TIME = 2 := by simp [latchCount, findReg_tbTime, latchesAbove]

theorem isLatched_tbTime : isLatched Reg.TB_TIME = false := by decide +kernel

theorem settleRead_tbTime (s : State) : s.settleRead Reg.TB_TIME = s := by simp [State.settleRead, findReg_tbTime]

/-! ## The reads of R8 and R49 -/

/-- A read of a low half latches the high half of the same instant. -/
theorem exec_lowHalfRead_latches {s : State} {a : Nat} (hcount : latchCount a = 1) (ha : a < 0x4000000) (h4 : a % 4 = 0)
    (htable : inMsixTable 0 a = false) (hpba : inMsixPba 0 a = false) (hans : s.bar0Answers a = true)
    (hready : s.glb.coreReady = true ∨ blockOf a = some .glb) (hiso : s.regIsolated a = false) :
    exec (.lowHalfRead ⟨0, .bar0 a 4⟩) s =
      let t := (s.settleRead a).latchWord a 0
      .next { t with hostRead := [t.readReg a] } := by
  rw [exec_lowHalfRead, hostAccess_bar0_reg ha htable hpba, hostReadReg_open hans h4 hready hiso, hcount]
  rfl

/-- A read of word 0 of TB_TIME latches words 1 and 2 of the same instant. -/
theorem exec_timeTripleRead_tbTime {s : State} (hans : s.bar0Answers Reg.TB_TIME = true) (hready : s.glb.coreReady = true)
    (hiso : s.regIsolated Reg.TB_TIME = false) :
    exec (.timeTripleRead Reg.TB_TIME) s =
      .next { s with glb.latch := mapSet (fun _ => 0) (mapSet (fun _ => 0) s.glb.latch (Reg.TB_TIME + 4) (tripleWord s.tb.time16 1))
                       (Reg.TB_TIME + 8) (tripleWord s.tb.time16 2),
                     hostRead := [tripleWord s.tb.time16 0] } := by
  rw [exec_timeTripleRead, hostReadReg_open hans rfl (.inl hready) hiso, latchCount_tbTime, settleRead_tbTime]
  simp [List.range_succ, State.latchWord, readReg_live isLatched_tbTime, live_tbTime, live_tbTimeSecLo, live_tbTimeSecHi]

/-- Settles O7: both reads pass the gates, so what they latch is the fold over the words above the register, one word for a
low half and two for TB_TIME. -/
theorem latchedReads : Obligations.LatchedReads := by
  unfold Obligations.LatchedReads
  refine ⟨?lowHalf, ?highHalf, ?triple, ?reset⟩
  case lowHalf => exact fun _ _ => exec_lowHalfRead_latches
  case highHalf => exact fun _ _ hcount => readReg_latched (isLatched_of_latchCount_below hcount)
  case triple => exact fun _ => exec_timeTripleRead_tbTime
  case reset => rfl

end Sys2Proof.Machine
end

section
/-! Accesses of the PF's BAR0 that reach no register (R3, R13): what each gate answers, and the CLAMP_COUNT that a discarded write
advances. The obligation on discarded accesses is settled from these. -/

namespace Sys2Proof.Machine

theorem exec_registerWrite_pf (a w : Nat) (v : W64) (s : State) :
    exec (.registerWrite 0 a w v) s = .next (s.bar0Write a w v) := rfl

/-! ## Reads -/

/-- A read of another width or alignment returns 0 (R3). -/
theorem hostReadReg_malformed {s : State} {a w : Nat} (hbad : w ≠ 4 ∨ a % 4 ≠ 0) (hans : s.bar0Answers a = true) :
    s.hostReadReg a w = { s with hostRead := [0] } := by
  have hgate : (w != 4 || a % 4 != 0) = true := by simpa using hbad
  simp [State.hostReadReg, hans, hgate]

theorem latchCount_of_noReg {a : Nat} (h : findReg a = none) : latchCount a = 0 := by simp [latchCount, h]
theorem settleRead_of_noReg {s : State} {a : Nat} (h : findReg a = none) : s.settleRead a = s := by
  simp [State.settleRead, h]
theorem live_of_noReg {s : State} {a : Nat} (h : findReg a = none) : s.live a = 0 := by simp [State.live, h]

/-- An aligned 32-bit read outside every register returns 0, before CORE_READY as after it (R13, R15). -/
theorem hostReadReg_noReg {s : State} {a : Nat} (hreg : findReg a = none) (hlatch : isLatched a = false) (h4 : a % 4 = 0)
    (hans : s.bar0Answers a = true) (hiso : s.regIsolated a = false) :
    s.hostReadReg a 4 = { s with hostRead := [0] } := by
  by_cases hready : s.glb.coreReady = true ∨ blockOf a = some .glb
  · simp [hostReadReg_open hans h4 hready hiso, latchCount_of_noReg hreg, settleRead_of_noReg hreg, readReg_live hlatch,
      live_of_noReg hreg]
  · have hgate : (!s.glb.coreReady && blockOf a != some .glb) = true := by simpa [not_or] using hready
    simp [State.hostReadReg, hans, hgate]

/-! ## Writes -/

/-- Past the gates, a write of another width or alignment is discarded and counted (R3). -/
theorem bar0Put_malformed {s : State} {a w : Nat} (htable : inMsixTable 0 a = false) (hpba : inMsixPba 0 a = false)
    (hbad : w ≠ 4 ∨ a % 4 ≠ 0) (v : W64) : s.bar0Put a w v = s.clampFor a := by
  unfold State.bar0Put
  rw [if_neg (by simp [htable]), if_neg (by simp [hpba]), if_pos hbad]

/-- Past the gates, an aligned 32-bit write outside every register is discarded and counted (R13). -/
theorem bar0Put_noReg {s : State} {a : Nat} (htable : inMsixTable 0 a = false) (hpba : inMsixPba 0 a = false)
    (h4 : a % 4 = 0) (hreg : findReg a = none) (v : W64) : s.bar0Put a 4 v = s.clampFor a := by
  unfold State.bar0Put
  rw [if_neg (by simp [htable]), if_neg (by simp [hpba]), if_neg (by omega), hreg]

/-- Before CORE_READY a write that reaches the module counts at GLB, except at GLB_SCRATCH (R15). -/
theorem hostWriteTo_beforeReady {s : State} {a : Nat} (hflr : (s.fnOf 0).flr = false) (hawake : s.pwr.asleep = false)
    (hwarm : s.rst.warmHeld = false) (hpower : s.rst.power = .on) (hthawed : s.glb.frozen = false)
    (hready : s.glb.coreReady = false) (ha : a ≠ Reg.GLB_SCRATCH) (f : State → State) :
    s.hostWriteTo a f = s.clampAt Reg.GLB_CLAMP_COUNT := by
  simp [State.hostWriteTo, hflr, hawake, hwarm, hpower, hthawed, hready, ha]

theorem exec_registerWrite_malformed {s : State} {a w : Nat} {v : W64} (ha : a < 0x4000000) (htable : inMsixTable 0 a = false)
    (hpba : inMsixPba 0 a = false) (hbad : w ≠ 4 ∨ a % 4 ≠ 0) (hopen : s.hostOpen a) :
    exec (.registerWrite 0 a w v) s = .next (s.clampFor a) := by
  rw [exec_registerWrite_pf, bar0Write_open hopen (inBar_zero ha), bar0Put_malformed htable hpba hbad]

theorem exec_registerWrite_noReg {s : State} {a : Nat} {v : W64} (ha : a < 0x4000000) (h4 : a % 4 = 0)
    (htable : inMsixTable 0 a = false) (hpba : inMsixPba 0 a = false) (hreg : findReg a = none) (hopen : s.hostOpen a) :
    exec (.registerWrite 0 a 4 v) s = .next (s.clampFor a) := by
  rw [exec_registerWrite_pf, bar0Write_open hopen (inBar_zero ha), bar0Put_noReg htable hpba h4 hreg]

/-- Before CORE_READY a malformed write counts at GLB: at GLB_SCRATCH the gate lets it through to the count of its block. -/
theorem exec_registerWrite_malformed_beforeReady {s : State} {a w : Nat} {v : W64} (ha : a < 0x4000000)
    (htable : inMsixTable 0 a = false) (hpba : inMsixPba 0 a = false) (hbad : w ≠ 4 ∨ a % 4 ≠ 0) (hflr : (s.fnOf 0).flr = false)
    (hawake : s.pwr.asleep = false) (hwarm : s.rst.warmHeld = false) (hpower : s.rst.power = .on)
    (hthawed : s.glb.frozen = false) (hiso : s.regIsolated a = false) (hready : s.glb.coreReady = false) :
    exec (.registerWrite 0 a w v) s = .next (s.clampAt Reg.GLB_CLAMP_COUNT) := by
  by_cases hscratch : a = Reg.GLB_SCRATCH
  · have hopen : s.hostOpen a := ⟨hflr, hawake, hwarm, hpower, .inl hthawed, .inr hscratch, hiso⟩
    rw [exec_registerWrite_malformed ha htable hpba hbad hopen, hscratch]
    rfl
  · rw [exec_registerWrite_pf, State.bar0Write, if_pos (inBar_zero ha),
      hostWriteTo_beforeReady hflr hawake hwarm hpower hthawed hready hscratch]

/-! ## The block addressed -/

/-- Bytes of BAR0 from a block's base to the next block's (R12). -/
def blockSpan : Block → Nat
  | .qmg | .qui => 0x200000
  | _ => 0x100000

theorem blockOf_of_mem_span {b : Block} {a : Nat} (hlo : blockBase b ≤ a) (hhi : a < blockBase b + blockSpan b) :
    blockOf a = some b := by
  cases b <;> simp only [blockBase, blockSpan] at hlo hhi <;> simp (disch := omega) only [blockOf, if_pos, if_neg]

theorem blockOf_above {a : Nat} (h : 0x1500000 ≤ a) : blockOf a = none := by
  simp (disch := omega) only [blockOf, if_neg]

theorem clampFor_of_mem_span {s : State} {b : Block} {a : Nat} (hlo : blockBase b ≤ a) (hhi : a < blockBase b + blockSpan b) :
    s.clampFor a = s.clampAt (clampReg b a) := by
  simp only [State.clampFor, blockOf_of_mem_span hlo hhi]

theorem clampFor_above {s : State} {a : Nat} (h : 0x1500000 ≤ a) : s.clampFor a = s.clampAt Reg.GLB_CLAMP_COUNT := by
  simp only [State.clampFor, blockOf_above h]

/-- Only the quires have a CLAMP_COUNT each. -/
theorem clampReg_of_ne_qui {b : Block} (h : b ≠ .qui) (a : Nat) : clampReg b a = clampReg b 0 := by
  cases b with
  | qui => exact absurd rfl h
  | _ => rfl

/-- The blocks with one CLAMP_COUNT. -/
def singleCountBlocks : List Block :=
  [.glb, .hp, .qmg, .spn, .gth, .dma, .spa, .cod, .spc, .fh, .ln, .stf, .tb, .cap, .mem, .pwr, .col, .slt]

/-- First address, end and CLAMP_COUNT of each of these blocks. -/
def clampRanges : List (Nat × Nat × Nat) :=
  singleCountBlocks.map fun b => (blockBase b, blockBase b + blockSpan b, clampReg b 0)

theorem clampFor_of_mem_clampRanges {s : State} {a : Nat} {p : Nat × Nat × Nat} (hp : p ∈ clampRanges) (hlo : p.1 ≤ a)
    (hhi : a < p.2.1) : s.clampFor a = s.clampAt p.2.2 := by
  obtain ⟨b, hb, rfl⟩ := List.mem_map.1 hp
  have hqui : b ≠ .qui := by
    rintro rfl
    exact absurd hb (by decide)
  rw [clampFor_of_mem_span hlo hhi, clampReg_of_ne_qui hqui]

/-- A write into the 64 KiB of a quire counts at that quire. -/
theorem clampFor_quire {s : State} {q a : Nat} (hq : q < 24) (hlo : 0x600000 + q * 0x10000 ≤ a)
    (hhi : a < 0x600000 + (q + 1) * 0x10000) : s.clampFor a = s.clampAt (Reg.QUI_CLAMP_COUNT q) := by
  have hspan : a < blockBase .qui + blockSpan .qui := by simp only [blockBase, blockSpan]; omega
  have hquire : (a - 0x600000) / 0x10000 = q := by omega
  rw [clampFor_of_mem_span (b := .qui) (by simp only [blockBase]; omega) hspan, clampReg, hquire]

/-- Settles O8: a malformed access stops at the gate of R3, one outside every register finds none, and the count such a write
advances is that of the block whose range holds the address. -/
theorem discardedAccesses : Obligations.DiscardedAccesses := by
  unfold Obligations.DiscardedAccesses
  refine ⟨⟨?readMalformed, ?writeMalformed, ?writeBeforeReady⟩, ?readNoReg, ?writeNoReg, ?above, ?blocks, ?quires⟩
  case readMalformed =>
    intro s a w ha htable hpba hbad hans
    rw [exec_lowHalfRead, hostAccess_bar0_reg ha htable hpba, hostReadReg_malformed hbad hans]
  case writeMalformed => exact fun _ _ _ _ ha htable hpba hbad hopen _ => exec_registerWrite_malformed ha htable hpba hbad hopen
  case writeBeforeReady => exact fun _ _ _ _ => exec_registerWrite_malformed_beforeReady
  case readNoReg =>
    intro s a ha h4 htable hpba hreg hlatch hans hiso
    rw [exec_lowHalfRead, hostAccess_bar0_reg ha htable hpba, hostReadReg_noReg hreg hlatch h4 hans hiso]
  case writeNoReg => exact fun _ _ _ => exec_registerWrite_noReg
  case above => exact fun _ _ => clampFor_above
  case blocks => exact fun _ _ _ => clampFor_of_mem_clampRanges
  case quires => exact fun _ _ _ => clampFor_quire

end Sys2Proof.Machine
end

section
/-! The order of the statuses (R27) as the order of their ranks, and where a completion carries CLAMPED (R92). -/

namespace Sys2Proof.Machine

/-! ## Ranks -/

/-- The statuses that R27 names before the block-specific ones, in its order. -/
def namedStatuses : List Nat := [stBAD, stABORTED, stDISABLED, stFLUSHED, stTIMEOUT, stREFUSED, stLATE]

/-- The rank of a named status is its place in the order. -/
theorem map_statusRank_namedStatuses : namedStatuses.map statusRank = List.range 7 := by decide

theorem statusRank_of_getElem? {i a : Nat} (h : namedStatuses[i]? = some a) : statusRank a = i := by
  have hrank : (List.range 7)[i]? = some (statusRank a) := by
    rw [← map_statusRank_namedStatuses, List.getElem?_map, h, Option.map_some]
  obtain ⟨_, hi⟩ := List.getElem?_eq_some_iff.1 hrank
  rw [← hi, List.getElem_range]

theorem statusRank_lt_of_mem {a : Nat} (h : a ∈ namedStatuses) : statusRank a < 7 := by
  have hrank : statusRank a ∈ namedStatuses.map statusRank := List.mem_map_of_mem h
  rwa [map_statusRank_namedStatuses, List.mem_range] at hrank

/-- A block-specific status ranks by its code. -/
theorem statusRank_specific {a : Nat} (h : 0x80 ≤ a) : statusRank a = a := by
  simp (disch := omega) only [statusRank, stBAD, stABORTED, stDISABLED, stFLUSHED, stTIMEOUT, stREFUSED, stLATE, stOK,
    if_neg]

theorem statusRank_ok : statusRank stOK = 1000 := rfl

/-! ## The status carried -/

theorem worseStatus_self (a : Nat) : worseStatus a a = a := ite_self a

/-- Of two statuses the one of lower rank is carried, whichever is named first. -/
theorem worseStatus_of_rank_lt {a b : Nat} (h : statusRank a < statusRank b) : worseStatus a b = a ∧ worseStatus b a = a :=
  ⟨if_pos (Nat.le_of_lt h), if_neg (Nat.not_le_of_gt h)⟩

/-- The same where both are one status. -/
theorem worseStatus_of_eq_or_rank_lt {a b : Nat} (h : a = b ∨ statusRank a < statusRank b) :
    worseStatus a b = a ∧ worseStatus b a = a := by
  rcases h with rfl | hlt
  · exact ⟨worseStatus_self a, worseStatus_self a⟩
  · exact worseStatus_of_rank_lt hlt

theorem completionWord_clamped (specific status : Nat) (late clamped phase : Bool) :
    (completionWord specific status late clamped phase).testBit 9 = clamped := by
  have hphase : b2n phase ≤ 1 := by cases phase <;> decide
  have hword : completionWord specific status late clamped phase / 2 ^ 9 % 2 = b2n clamped % 2 := by
    unfold completionWord
    omega
  rw [Nat.testBit_eq_decide_div_mod_eq, hword]
  cases clamped <;> rfl

/-- Settles O9: the named statuses rank by their place, the block-specific ones by code, and OK above them all. -/
theorem statusOrder : Obligations.StatusOrder := by
  unfold Obligations.StatusOrder
  refine ⟨?named, ?namedFirst, ?byCode, ?okLast, completionWord_clamped⟩
  case named =>
    intro i j a b ha hb hij
    rcases Nat.eq_or_lt_of_le hij with rfl | hlt
    · exact worseStatus_of_eq_or_rank_lt (.inl (Option.some.inj (ha.symm.trans hb)))
    · exact worseStatus_of_rank_lt (by rwa [statusRank_of_getElem? ha, statusRank_of_getElem? hb])
  case namedFirst =>
    intro a b ha hb
    have hlt := statusRank_lt_of_mem ha
    refine worseStatus_of_rank_lt ?_
    rcases hb with rfl | ⟨hb, -⟩
    · rw [statusRank_ok]; omega
    · rw [statusRank_specific hb]; omega
  case byCode =>
    intro a b ha hab _
    refine worseStatus_of_eq_or_rank_lt ?_
    rw [statusRank_specific ha, statusRank_specific (Nat.le_trans ha hab)]
    exact Nat.eq_or_lt_of_le hab
  case okLast =>
    intro a ha hle
    refine worseStatus_of_rank_lt ?_
    rw [statusRank_specific ha, statusRank_ok]
    omega

end Sys2Proof.Machine
end

section
/-! The proofs that follow are elaborated one after the other, within the memory the check grants. -/
set_option Elab.async false

section
/-! What every step keeps (R32, R426, R429), and that every command answers: the laws of the single meanings, gathered over the
dispatch and carried from `exec` to `step`. -/

namespace Sys2Proof.Machine

/-! ## Every command answers -/

/-- A meaning ends in a next state, neither in a fault nor in a refusal. -/
def Answers (r : Res) : Prop := ∃ t, r = .next t

theorem answers_next (s : State) : Answers (.next s) := ⟨s, rfl⟩

theorem answers_ite {a b : Res} {c : Prop} {_ : Decidable c} (ha : Answers a) (hb : Answers b) : Answers (if c then a else b) := by
  split
  · exact ha
  · exact hb

theorem whenClocked_answers {s : State} {f : State → Res} (hf : ∀ x, Answers (f x)) : Answers (s.whenClocked f) :=
  answers_ite (hf s) (answers_next s)

/-- A delivered descriptor goes to a meaning that answers; four types choose theirs by OP. -/
theorem accept_answers (d : Desc) (s : State) : Answers (accept d s) := by
  unfold accept queueOp carrierOp bcastCtrl vatCtrl
  repeat' split
  all_goals try exact answers_next _
  all_goals exact whenClocked_answers fun _ => answers_next _

/-- Most meanings are one next state, or one where the clocks run; the others choose between such. -/
theorem exec_answers (c : Instr) (s : State) : Answers (exec c s) := by
  cases c <;> simp only [exec]
  case rankWrite | grantHold | waitmaxClear | spillPortEnable => exact answers_ite (answers_next _) (answers_next _)
  case referenceDetection => exact answers_ite (answers_next _) (answers_ite (answers_next _) (answers_ite (answers_next _) (answers_next _)))
  case ppsOut | mouldCopyDone | ringCommitDone | idleNotice | qctxCommitDone | arbiterGrant | quireExternalAccess =>
    exact whenClocked_answers fun _ => answers_ite (answers_next _) (answers_next _)
  case flagSet | qpopComplete =>
    refine whenClocked_answers fun _ => ?_
    split <;> exact answers_next _
  case qcommitStatus =>
    refine whenClocked_answers fun _ => ?_
    dsimp only
    split <;> exact answers_next _
  case programStart =>
    refine whenClocked_answers fun _ => ?_
    dsimp only
    split
    · exact answers_ite (answers_next _) (answers_next _)
    · exact answers_next _
  case spaJobEnd | codJobEnd | spcJobEnd =>
    refine whenClocked_answers fun _ => ?_
    split
    · exact answers_ite (answers_next _) (answers_next _)
    · exact answers_next _
  case descriptorDelivery =>
    refine whenClocked_answers fun _ => ?_
    split
    · exact answers_next _
    · exact answers_ite (answers_next _) (accept_answers _ _)
  all_goals try exact answers_next _
  all_goals exact whenClocked_answers fun _ => answers_next _

/-! ## What every step keeps -/

/-- Every command keeps what the law of its meaning says. -/
theorem exec_keeps (c : Instr) (s : State) : KeepsRes s (exec c s) := by
  cases c <;> simp [exec]

/-- A step idles, or runs the front command on the state with the queue's rest. -/
theorem step_cases {s t : State} (h : step s = .next t) :
    (s.pending = [] ∧ t = s) ∨ ∃ c rest, s.pending = c :: rest ∧ exec c { s with pending := rest } = .next t := by
  unfold step at h
  split at h
  · next hp => exact .inl ⟨hp, (Host.Outcome.next.inj h).symm⟩
  · next c rest hp => exact .inr ⟨c, rest, hp, h⟩

theorem step_of_cons {s : State} {c : Instr} {rest : List Instr} (h : s.pending = c :: rest) :
    step s = exec c { s with pending := rest } := by
  unfold step
  rw [h]

theorem step_of_nil {s : State} (h : s.pending = []) : step s = .next s := by
  unfold step
  rw [h]

/-- A step keeps what `Keeps` says of the state without its queue. -/
theorem step_keeps {s t : State} (h : step s = .next t) : ∃ rest, Keeps { s with pending := rest } t := by
  obtain ⟨-, rfl⟩ | ⟨c, rest, -, hx⟩ := step_cases h
  · exact ⟨t.pending, keeps_refl t⟩
  · exact ⟨rest, exec_keeps c _ t hx⟩

/-! ## The statements about every step -/

/-- Settles O3: memory and the setup registers are changed by map writes alone, which keep the canonical form. -/
theorem stepKeepsTheCanonicalForm : Obligations.StepKeepsTheCanonicalForm := by
  intro s t ⟨hmem, hregs⟩ h
  obtain ⟨rest, -, keepsMem, keepsRegs, -⟩ := step_keeps h
  exact ⟨keepsMem hmem, keepsRegs hregs⟩

/-- Settles O5: the fuse is only ever raised, and the log only appended to. -/
theorem fusesAndLogNumbersNeverFall : Obligations.FusesAndLogNumbersNeverFall := by
  intro s t h
  obtain ⟨rest, -, -, -, hsvn, hseq⟩ := step_keeps h
  exact ⟨hsvn, hseq⟩

/-- Settles O10: the nominal rate is legal, and every write of a rate brings it within its bounds. -/
theorem rateStaysLegal : Obligations.RateStaysLegal := by
  refine ⟨⟨by decide, by decide, fun r hr => by cases hr⟩, fun s t hs h => ?_⟩
  obtain ⟨rest, ⟨-, keepsRate⟩, -⟩ := step_keeps h
  exact keepsRate hs

/-- Settles O2: a step gives the queue's rest to the front command, which leaves it. -/
theorem everyCommandAnswersANextState : Obligations.EveryCommandAnswersANextState := by
  refine ⟨exec_answers, fun c rest s t hp h => ?_⟩
  rw [step_of_cons hp] at h
  obtain ⟨⟨hpending, -⟩, -⟩ := exec_keeps c _ t h
  exact hpending

/-- Settles O1: both arms of `step`. -/
theorem stepRunsTheFrontCommand : Obligations.StepRunsTheFrontCommand :=
  ⟨fun _ _ _ hp => step_of_cons hp, fun _ hp => step_of_nil hp⟩

end Sys2Proof.Machine
end

section
/-! What raising an event leaves alone (R104, R110, R468): everything but the registers, the Host Port, what leaves the module and
the colophon's log. -/

namespace Sys2Proof.Machine

/-- `t` is `s` but for registers, the Host Port, what has left the module and the colophon. -/
def SameButEvents (s t : State) : Prop := t = { s with regs := t.regs, hp := t.hp, out := t.out, col := t.col }

theorem SameButEvents.refl (s : State) : SameButEvents s s := rfl

theorem SameButEvents.trans {a b c : State} (h : SameButEvents a b) (g : SameButEvents b c) : SameButEvents a c := by
  unfold SameButEvents at *
  rw [h] at g
  exact g

theorem sameButEvents_ite {s a b : State} {c : Prop} {_ : Decidable c} (ha : SameButEvents s a) (hb : SameButEvents s b) :
    SameButEvents s (if c then a else b) := by
  split
  · exact ha
  · exact hb

theorem State.setFn_sameButEvents (s : State) (f : Nat) (p : PcieFn) : SameButEvents s (s.setFn f p) := sameButEvents_ite rfl rfl

theorem State.dropWrite_sameButEvents (s : State) (w : HostWrite) : SameButEvents s (s.dropWrite w) := rfl

theorem State.deliverVector_sameButEvents (s : State) (q v : Nat) : SameButEvents s (s.deliverVector q v) :=
  sameButEvents_ite (s.dropWrite_sameButEvents _) (sameButEvents_ite rfl (sameButEvents_ite (sameButEvents_ite rfl rfl)
    (sameButEvents_ite (s.setFn_sameButEvents _ _) rfl)))

theorem State.dropEvent_sameButEvents (s : State) : SameButEvents s s.dropEvent :=
  sameButEvents_ite (SameButEvents.trans (b := s.setBit Reg.HP_EVENT 3 true) rfl (State.deliverVector_sameButEvents _ _ _)) rfl

theorem State.assertFor_sameButEvents (s : State) (q v : Nat) : SameButEvents s (s.assertFor q v) :=
  sameButEvents_ite ((s.deliverVector_sameButEvents q v).trans (State.dropEvent_sameButEvents _)) (s.deliverVector_sameButEvents q v)

theorem State.assertBlock_sameButEvents (s : State) (ev : Nat) : SameButEvents s (s.assertBlock ev) :=
  sameButEvents_ite rfl (s.assertFor_sameButEvents _ _)

theorem State.raise_sameButEvents (s : State) (ev b : Nat) : SameButEvents s (s.raise ev b) :=
  sameButEvents_ite rfl (SameButEvents.trans (b := s.wr ev _) rfl (State.assertBlock_sameButEvents _ _))

@[simp] theorem State.raise_tb (s : State) (ev b : Nat) : (s.raise ev b).tb = s.tb := by
  rw [s.raise_sameButEvents ev b]

@[simp] theorem State.raise_mem (s : State) (ev b : Nat) : (s.raise ev b).mem = s.mem := by
  rw [s.raise_sameButEvents ev b]

end Sys2Proof.Machine
end

section
/-! The tick of the timebase (R29, R32, R34, R37). -/

namespace Sys2Proof.Machine

/-! ## The slew part of a tick -/

theorem slewPart_zero (ppm : Nat) : slewPart ppm 0 = 0 := by
  unfold slewPart
  dsimp only
  rw [if_neg (by decide)]
  omega

theorem slewPart_lower (ppm : Nat) (remain : Int) : -((ppm : Int) * 2 ^ 40) ≤ slewPart ppm remain := by
  simp only [slewPart]
  split <;> omega

/-- A positive remainder above one tick's part is slewed by that part. -/
theorem slewPart_of_lt {ppm : Nat} {remain : Int} (h : ((ppm * 2 ^ 40 : Nat) : Int) < remain) :
    slewPart ppm remain = (ppm * 2 ^ 40 : Nat) := by
  simp only [slewPart]
  split <;> omega

/-- A remainder within one tick's part is slewed whole. -/
theorem slewPart_of_natAbs_le {ppm : Nat} {remain : Int} (h : remain.natAbs ≤ ppm * 2 ^ 40) : slewPart ppm remain = remain := by
  simp only [slewPart]
  split <;> omega

/-! ## What a tick does to the timebase -/

/-- Corrected time advances by the rate in force and the slew part; a committed rate re-bases the offset (R32). -/
theorem TbState.tick_timeU {t : TbState} (ppm : Nat) (source : Bool) (off : Int) (hraw : t.raw.toNat + 1 < 2 ^ 64) :
    (t.tick ppm source off).timeU = t.timeU + (t.rate * 1000000 : Nat) + slewPart ppm t.remainU := by
  have hnext : (t.raw + 1).toNat = t.raw.toNat + 1 := by
    rw [BitVec.toNat_add]
    exact Nat.mod_eq_of_lt hraw
  cases hp : t.pendingRate <;>
  · simp only [TbState.tick, TbState.timeU, hp, hnext]
    grind

theorem TbState.tick_rate (t : TbState) (ppm : Nat) (source : Bool) (off : Int) :
    (t.tick ppm source off).rate = t.pendingRate.getD t.rate ∧ (t.tick ppm source off).pendingRate = none := by
  cases hp : t.pendingRate <;> simp [TbState.tick, hp]

/-- Without a rate that waits a tick moves the raw counter, the slew, SOURCE and the crossing of a second. -/
theorem TbState.tick_of_no_rate {t : TbState} (ppm : Nat) (source : Bool) (off : Int) (h : t.pendingRate = none) :
    t.tick ppm source off = { t with
      raw := t.raw + 1, stitchSource := source, offsetU := t.offsetU + slewPart ppm t.remainU,
      remainU := t.remainU - slewPart ppm t.remainU, ppsDue := (t.tick ppm source off).ppsDue } := by
  simp only [TbState.tick, h]

/-! ## The command -/

theorem exec_tclkTick {s : State} (h : s.tclkRuns = true) : exec .tclkTick s = .next s.tclkTick :=
  congrArg Host.Outcome.next (if_pos h)

theorem State.tclkTick_tb (s : State) : s.tclkTick.tb = s.tb.tick s.slewPpm (s.bit Reg.TB_CTRL 0) s.ppsOffset := by
  simp only [State.tclkTick]
  split
  · rw [State.raise_tb]
  · rfl

/-- A tick that leaves something to slew, or had nothing to slew, raises no event. -/
theorem State.tclkTick_quiet {s : State} (h : s.tb.remainU = 0 ∨ s.tclkTick.tb.remainU ≠ 0) :
    s.tclkTick = { s with tb := s.tb.tick s.slewPpm (s.bit Reg.TB_CTRL 0) s.ppsOffset } := by
  rw [State.tclkTick_tb] at h
  refine if_neg ?_
  rcases h with h | h <;> simp [h]

/-- The tick that ends a slew sets SLEW_DONE. -/
theorem State.tclkTick_ends {s : State} (h : s.tb.remainU ≠ 0) (h0 : s.tclkTick.tb.remainU = 0) :
    s.tclkTick = { s with tb := s.tb.tick s.slewPpm (s.bit Reg.TB_CTRL 0) s.ppsOffset }.raise Reg.TB_EVENT 2 := by
  rw [State.tclkTick_tb] at h0
  exact if_pos (by simp [h, h0])

theorem exec_slewDone {s : State} (h : s.tclkRuns = true) (h0 : s.tb.remainU ≠ 0) (hle : s.tb.remainU.natAbs ≤ s.slewPpm * 2 ^ 40) :
    exec .slewDone s = .next s.tclkTick := by
  have hdue : s.slewDone = s.tclkTick := if_pos (by simp [h0, slewPart_of_natAbs_le hle])
  rw [← hdue]
  exact congrArg Host.Outcome.next (if_pos h)

/-- At a legal rate and a slew of at most 100 ppm the slew part never outweighs the rate (R37). -/
theorem timeU_lt_tick {t : TbState} {ppm : Nat} (source : Bool) (off : Int) (hraw : t.raw.toNat + 1 < 2 ^ 64) (hrate : t.rateLegal)
    (hppm : ppm ≤ 100) : t.timeU < (t.tick ppm source off).timeU := by
  obtain ⟨hmin, -, -⟩ := hrate
  have hpart := slewPart_lower ppm t.remainU
  rw [TbState.tick_timeU ppm source off hraw]
  unfold rateMin at hmin
  omega

/-- Settles O11: corrected time after a tick is the rate in force and the slew part above it before. -/
theorem tickMovesTimeForward : Obligations.TickMovesTimeForward := by
  unfold Obligations.TickMovesTimeForward
  refine ⟨?rises, ?noSlew, ?slews, ?ends⟩
  case rises =>
    intro s t hrun hrate hppm hraw h
    rw [exec_tclkTick hrun] at h
    obtain rfl := Host.Outcome.next.inj h
    rw [State.tclkTick_tb]
    refine ⟨timeU_lt_tick _ _ hraw hrate hppm, fun h0 => ?_, TbState.tick_rate ..⟩
    rw [TbState.tick_timeU _ _ _ hraw, h0, slewPart_zero, Int.add_zero]
  case noSlew =>
    intro s hrun h0 hp
    have htick := TbState.tick_of_no_rate s.slewPpm (s.bit Reg.TB_CTRL 0) s.ppsOffset hp
    rw [h0, slewPart_zero, Int.add_zero, Int.sub_zero, ← h0] at htick
    refine ⟨(s.tb.tick s.slewPpm (s.bit Reg.TB_CTRL 0) s.ppsOffset).ppsDue, ?_⟩
    rw [exec_tclkTick hrun, State.tclkTick_quiet (.inl h0)]
    exact congrArg (fun tb => Host.Outcome.next { s with tb := tb }) htick
  case slews =>
    intro s hrun hlt hp
    have htick := TbState.tick_of_no_rate s.slewPpm (s.bit Reg.TB_CTRL 0) s.ppsOffset hp
    rw [slewPart_of_lt hlt] at htick
    refine ⟨(s.tb.tick s.slewPpm (s.bit Reg.TB_CTRL 0) s.ppsOffset).ppsDue, ?_⟩
    rw [exec_tclkTick hrun, State.tclkTick_quiet (.inr ?_)]
    · exact congrArg (fun tb => Host.Outcome.next { s with tb := tb }) htick
    · rw [State.tclkTick_tb, htick]
      exact fun h => Int.ne_of_gt hlt (Int.sub_eq_zero.mp h)
  case ends =>
    intro s hrun h0 hle hp
    have htick := TbState.tick_of_no_rate s.slewPpm (s.bit Reg.TB_CTRL 0) s.ppsOffset hp
    rw [slewPart_of_natAbs_le hle, Int.sub_self] at htick
    refine ⟨(s.tb.tick s.slewPpm (s.bit Reg.TB_CTRL 0) s.ppsOffset).ppsDue, ?_⟩
    rw [exec_slewDone hrun h0 hle, State.tclkTick_ends h0 (by rw [State.tclkTick_tb, htick])]
    exact congrArg (fun tb => Host.Outcome.next ({ s with tb := tb }.raise Reg.TB_EVENT 2)) htick

end Sys2Proof.Machine
end

section
/-! A queue holds no more words than its size, and a producer has one open item at most (R115, R116, R118). What an operation
removes keeps both (`Queue.Shrinks`); a word, a start-of-item and a commit are the operations that add or change something. -/

namespace Sys2Proof.Machine

/-! ## Operations that only remove -/

/-- `q'` holds no item, open or visible, that `q` does not hold, and has the same size. -/
structure Queue.Shrinks (q q' : Queue) : Prop where
  visible : List.Sublist q'.visible q.visible
  opens : List.Sublist q'.opens q.opens
  size : q'.log2Words = q.log2Words

theorem Queue.Shrinks.refl (q : Queue) : q.Shrinks q := ⟨.refl _, .refl _, rfl⟩

theorem Queue.Shrinks.trans {a b c : Queue} (h : a.Shrinks b) (g : b.Shrinks c) : a.Shrinks c :=
  ⟨g.visible.trans h.visible, g.opens.trans h.opens, g.size.trans h.size⟩

theorem Queue.closeItem_shrinks (q : Queue) (p : Producer) : q.Shrinks (q.closeItem p) := ⟨.refl _, List.filter_sublist, rfl⟩

theorem Queue.rewindFor_shrinks (q : Queue) (p : Producer) (st : Nat) : q.Shrinks (q.rewindFor p st) :=
  ⟨.refl _, List.filter_sublist, rfl⟩

theorem Queue.closeSent_shrinks (q : Queue) (p : Producer) : q.Shrinks (q.closeSent p) := ⟨.refl _, List.eraseP_sublist, rfl⟩

theorem Queue.evictLast_shrinks (q : Queue) : q.Shrinks q.evictLast := by
  unfold Queue.evictLast
  split
  · exact .refl q
  · exact ⟨.refl _, List.filter_sublist, rfl⟩

theorem Queue.take_shrinks {q q' : Queue} {raw : Nat} {i : QItem} (h : q.take raw = some (i, q')) : q.Shrinks q' := by
  unfold Queue.take at h
  split at h
  · cases h
  · obtain ⟨-, rfl⟩ := Prod.mk.inj (Option.some.inj h)
    exact ⟨List.filter_sublist, .refl _, rfl⟩

theorem Queue.serve_shrinks (q : Queue) (raw : Nat) : q.Shrinks (q.serve raw) := by
  refine List.foldlRecOn q.stalled _ (.refl q) fun x hx c _ => ?_
  split
  · next i q' h => exact hx.trans ⟨(Queue.take_shrinks h).visible, (Queue.take_shrinks h).opens, (Queue.take_shrinks h).size⟩
  · exact hx

theorem Queue.read_shrinks (q : Queue) (c : Consumer) (raw : Nat) : q.Shrinks (q.read c raw).1 := by
  unfold Queue.read
  split
  · exact .refl q
  · split
    · exact ⟨.refl _, .refl _, rfl⟩
    · exact ⟨.refl _, .refl _, rfl⟩
    · split
      · split
        · next i q' h => exact ⟨(Queue.take_shrinks h).visible, (Queue.take_shrinks h).opens, (Queue.take_shrinks h).size⟩
        · exact .refl q
      · split
        · exact ⟨.refl _, .refl _, rfl⟩
        · dsimp only
          split
          · exact .refl q
          · exact ⟨.refl _, .refl _, rfl⟩

/-! ## The two bounds -/

/-- The producers of the items that are open and not committed. -/
def Queue.writers (q : Queue) : List Producer := (q.opens.filter (·.phase != .committed)).map (·.prod)

/-- The queue holds no more words than its size of `2 ^ n`, and no producer has two open items. -/
structure Queue.Fits (n : Nat) (q : Queue) : Prop where
  size : q.log2Words = n
  words : q.usedWords ≤ q.size
  one : q.writers.Nodup

theorem sum_le_of_sublist {l l' : List Nat} (h : l.Sublist l') : l.sum ≤ l'.sum := by
  induction h with
  | slnil => exact Nat.le_refl _
  | cons x _ ih =>
    rw [List.sum_cons]
    exact Nat.le_trans ih (Nat.le_add_left _ x)
  | cons_cons x _ ih =>
    rw [List.sum_cons, List.sum_cons]
    exact Nat.add_le_add_left ih x

theorem Queue.Shrinks.usedWords_le {q q' : Queue} (h : q.Shrinks q') : q'.usedWords ≤ q.usedWords :=
  Nat.add_le_add (sum_le_of_sublist (h.visible.map _)) (sum_le_of_sublist (h.opens.map _))

theorem Queue.Fits.of_shrinks {n : Nat} {q q' : Queue} (hq : q.Fits n) (h : q.Shrinks q') : q'.Fits n where
  size := h.size.trans hq.size
  words := by
    have hsize : q'.size = q.size := congrArg (2 ^ ·) h.size
    exact hsize ▸ Nat.le_trans h.usedWords_le hq.words
  one := hq.one.sublist ((h.opens.filter _).map _)

theorem openFor_iff {o : OpenItem} {p : Producer} : o.openFor p = true ↔ o.prod = p ∧ (o.phase != .committed) = true := by
  simp [OpenItem.openFor]

theorem Queue.not_mem_writers_closeItem (q : Queue) (p : Producer) : p ∉ (q.closeItem p).writers := by
  intro hp
  obtain ⟨o, ho, hprod⟩ := List.mem_map.mp hp
  obtain ⟨hin, hphase⟩ := List.mem_filter.mp ho
  obtain ⟨-, hclosed⟩ := List.mem_filter.mp hin
  rw [openFor_iff.mpr ⟨hprod, hphase⟩] at hclosed
  exact Bool.noConfusion hclosed

theorem Queue.not_mem_writers_of_openOf {q : Queue} {p : Producer} (h : q.openOf p = none) : p ∉ q.writers := by
  intro hp
  obtain ⟨o, ho, hprod⟩ := List.mem_map.mp hp
  obtain ⟨hin, hphase⟩ := List.mem_filter.mp ho
  exact List.find?_eq_none.mp h o hin (openFor_iff.mpr ⟨hprod, hphase⟩)

/-! ## Start-of-item, word and commit -/

/-- A fresh item of a producer without one holds no word. -/
theorem Queue.Fits.open {n : Nat} {q : Queue} (hq : q.Fits n) {p : Producer} (hp : p ∉ q.writers) (i : QItem) (hi : i.words = []) :
    ({ q with opens := q.opens ++ [⟨p, i, .writing⟩] } : Queue).Fits n where
  size := hq.size
  words := by
    have := hq.words
    simpa [Queue.usedWords, Queue.size, hi] using this
  one := by
    have hone := hq.one
    simp only [Queue.writers, List.filter_append, List.map_append]
    exact List.nodup_append.mpr ⟨hone, by simp, fun a ha b hb hab => hp (by simp at hb; exact (hab.trans hb) ▸ ha)⟩

/-- A start first ends the open item of its producer. -/
theorem Queue.Fits.beforeStart {n : Nat} {q : Queue} (hq : q.Fits n) (p : Producer) :
    let q1 := (if (q.openOf p).isSome then (q.closeItem p).countDrop else q).unmark p
    q1.Fits n ∧ p ∉ q1.writers := by
  dsimp only
  split
  · exact ⟨hq.of_shrinks ⟨.refl _, List.filter_sublist, rfl⟩, q.not_mem_writers_closeItem p⟩
  · next ho => exact ⟨hq.of_shrinks ⟨.refl _, .refl _, rfl⟩, Queue.not_mem_writers_of_openOf (Option.not_isSome_iff_eq_none.mp ho)⟩

theorem Queue.start_fits {n : Nat} {q : Queue} (hq : q.Fits n) (p : Producer) (prio : Nat) (tag : BitVec 16) :
    (q.start p prio tag).1.Fits n := by
  have hbefore := hq.beforeStart p
  unfold Queue.start
  dsimp only
  generalize (if (q.openOf p).isSome then (q.closeItem p).countDrop else q).unmark p = q1 at *
  obtain ⟨hfits, hp⟩ := hbefore
  split
  · exact hfits.of_shrinks ⟨.refl _, .refl _, rfl⟩
  · split
    · split
      · exact hfits.of_shrinks ⟨.refl _, .refl _, rfl⟩
      · exact hfits
    · exact hfits.open hp _ rfl

/-- An open item after a word of `p`: the word joins the item `p` is writing. -/
def OpenItem.withWord (p : Producer) (w : QWord) (o : OpenItem) : OpenItem :=
  if o.openFor p then { o with item := { o.item with words := o.item.words ++ [w] } } else o

theorem Queue.addWord_opens (q : Queue) (p : Producer) (w : QWord) : (q.addWord p w).opens = q.opens.map (OpenItem.withWord p w) := rfl

theorem OpenItem.withWord_of_not {o : OpenItem} {p : Producer} (h : ¬o.openFor p = true) (w : QWord) : o.withWord p w = o := if_neg h

theorem OpenItem.withWord_length {o : OpenItem} {p : Producer} (h : o.openFor p = true) (w : QWord) :
    (o.withWord p w).item.words.length = o.item.words.length + 1 := by
  rw [OpenItem.withWord, if_pos h, List.length_append, List.length_singleton]

/-- One word joins the one open item of its producer. -/
theorem withWord_words_le (p : Producer) (w : QWord) (l : List OpenItem)
    (h : ((l.filter (·.phase != .committed)).map (·.prod)).Nodup) :
    ((l.map (OpenItem.withWord p w)).map (·.item.words.length)).sum ≤ (l.map (·.item.words.length)).sum + 1 := by
  induction l with
  | nil => exact Nat.zero_le _
  | cons o r ih =>
    by_cases ho : o.openFor p = true
    · obtain ⟨hprod, hphase⟩ := openFor_iff.mp ho
      rw [List.filter_cons_of_pos (by exact hphase), List.map_cons, List.nodup_cons] at h
      have hrest : ∀ x ∈ r, x.withWord p w = x := fun x hx => OpenItem.withWord_of_not (fun hxo => by
        obtain ⟨hxp, hxphase⟩ := openFor_iff.mp hxo
        exact h.1 (List.mem_map.mpr ⟨x, List.mem_filter.mpr ⟨hx, hxphase⟩, hxp.trans hprod.symm⟩)) w
      simp only [List.map_cons, List.sum_cons, List.map_congr_left hrest, List.map_id', OpenItem.withWord_length ho]
      omega
    · have := ih (h.sublist (((List.sublist_cons_self o r).filter _).map _))
      simp only [List.map_cons, List.sum_cons, OpenItem.withWord_of_not ho]
      omega

theorem Queue.addWord_writers (q : Queue) (p : Producer) (w : QWord) : (q.addWord p w).writers = q.writers := by
  have hphase : ∀ o : OpenItem, (o.withWord p w).phase = o.phase ∧ (o.withWord p w).prod = o.prod := fun o => by
    unfold OpenItem.withWord
    split <;> exact ⟨rfl, rfl⟩
  simp only [Queue.writers, Queue.addWord_opens, List.filter_map, List.map_map, Function.comp_def, hphase]

theorem Queue.hasRoom_free {q : Queue} {prio : Nat} (h : q.hasRoom prio = true) : 0 < q.freeWords := by
  unfold Queue.hasRoom at h
  split at h
  · exact of_decide_eq_true h
  · exact Nat.zero_lt_of_lt (of_decide_eq_true h)

theorem Queue.addWord_fits {n : Nat} {q : Queue} (hq : q.Fits n) {prio : Nat} (hroom : q.hasRoom prio = true) (p : Producer) (w : QWord) :
    (q.addWord p w).Fits n where
  size := hq.size
  words := by
    have hfree := Queue.hasRoom_free hroom
    have hadd := withWord_words_le p w q.opens hq.one
    simp only [Queue.freeWords, Queue.usedWords, Queue.addWord_opens] at *
    show (q.visible.map (·.words.length)).sum + _ ≤ q.size
    omega
  one := by rw [Queue.addWord_writers]; exact hq.one

theorem Queue.word_fits {n : Nat} {q : Queue} (hq : q.Fits n) (m : Bool) (p : Producer) (w : QWord) : (q.word m p w).1.Fits n := by
  unfold Queue.word
  split
  · split
    · exact hq.of_shrinks ⟨.refl _, .refl _, rfl⟩
    · exact hq
  · exact hq
  · split
    · exact hq.of_shrinks (q.rewindFor_shrinks _ _)
    · split
      · exact hq.of_shrinks (q.rewindFor_shrinks _ _)
      · split
        · next hroom => exact Queue.addWord_fits hq hroom p w
        · split
          · exact hq.of_shrinks (q.rewindFor_shrinks _ _)
          · split
            · have hevicted := hq.of_shrinks q.evictLast_shrinks
              dsimp only
              split
              · exact hevicted
              · split
                · next hroom => exact Queue.addWord_fits hevicted hroom p w
                · exact hevicted
            · exact hq

theorem Queue.commit_fits {n : Nat} {q : Queue} (hq : q.Fits n) (p : Producer) (raw : Nat) : (q.commit p raw).1.Fits n := by
  unfold Queue.commit
  split
  · exact hq.of_shrinks ⟨.refl _, .refl _, rfl⟩
  · exact hq
  · split
    · exact hq.of_shrinks (q.closeItem_shrinks p)
    · refine ⟨hq.size, ?_, ?_⟩
      · have hwords : ∀ x : OpenItem, (if x.openFor p then
            { x with phase := .committed, item := { x.item with seq := q.nextSeq } } else x).item.words = x.item.words := by
          intro x; split <;> rfl
        have := hq.words
        simpa [Queue.usedWords, Queue.size, Function.comp_def, hwords] using this
      · refine hq.one.sublist ?_
        simp only [Queue.writers]
        induction q.opens with
        | nil => exact .refl _
        | cons o r ih =>
          by_cases ho : o.openFor p = true <;> by_cases hc : (o.phase != .committed) = true <;>
            simp_all

/-! ## Becoming visible -/

/-- The words of the item that becomes visible were counted as open before. -/
theorem sentBy_words {p : Producer} {o : OpenItem} (l : List OpenItem) (h : l.find? (·.sentBy p) = some o) :
    ((l.eraseP (·.sentBy p)).map (·.item.words.length)).sum + o.item.words.length = (l.map (·.item.words.length)).sum := by
  induction l with
  | nil => cases h
  | cons x r ih =>
    by_cases hx : x.sentBy p = true
    · rw [List.find?_cons_of_pos (by exact hx)] at h
      obtain rfl := Option.some.inj h
      rw [List.eraseP_cons_of_pos (by exact hx), List.map_cons, List.sum_cons, Nat.add_comm]
    · rw [List.find?_cons_of_neg (by exact hx)] at h
      have := ih h
      rw [List.eraseP_cons_of_neg (by exact hx), List.map_cons, List.sum_cons, List.map_cons, List.sum_cons]
      omega

theorem Queue.becomeVisible_fits {n : Nat} {q : Queue} (hq : q.Fits n) (p : Producer) (ok : Bool) : (q.becomeVisible p ok).1.Fits n := by
  unfold Queue.becomeVisible
  split
  · next o ho =>
    split
    · have hclosed := hq.of_shrinks (q.closeSent_shrinks p)
      refine ⟨hclosed.size, ?_, hclosed.one⟩
      have hsum := sentBy_words q.opens ho
      have hwords := hq.words
      simp only [Queue.usedWords, Queue.closeSent, List.map_append, List.sum_append, List.map_cons, List.map_nil, List.sum_cons,
        List.sum_nil] at *
      show _ ≤ q.size
      omega
    · exact hq.of_shrinks ⟨.refl _, List.eraseP_sublist, rfl⟩
  · exact hq

/-! ## Flush -/

theorem Queue.flush_stalled (q : Queue) : q.flush.1.stalled = q.stalled := by
  simp only [Queue.flush]
  exact List.foldlRecOn (motive := fun x : Queue => x.stalled = q.stalled) _ _ rfl fun _ hx _ _ => hx

/-- Settles O24: an operation that adds no item shrinks the queue; a start opens an empty item of a producer without one, a word
needs a free one, and a commit and its end move an item's words from one list to the other. -/
theorem queuesNeverOverfill : Obligations.QueuesNeverOverfill := by
  unfold Obligations.QueuesNeverOverfill
  intro one q hwords hone
  have hq : q.Fits q.log2Words := ⟨rfl, hwords, hone⟩
  have both : ∀ {x : Queue}, x.Fits q.log2Words → x.usedWords ≤ q.size ∧ one x := fun hx =>
    ⟨Nat.le_trans hx.words (Nat.le_of_eq (congrArg (2 ^ ·) hx.size)), hx.one⟩
  refine ⟨fun p prio tag => both (Queue.start_fits hq p prio tag), fun m p w => both (Queue.word_fits hq m p w),
    fun p raw => both (Queue.commit_fits hq p raw), fun p ok raw => ?visible, fun c raw => ?read, rfl, q.flush_stalled⟩
  case visible => exact both ((Queue.becomeVisible_fits hq p ok).of_shrinks (Queue.serve_shrinks _ raw))
  case read => exact (both (hq.of_shrinks (q.read_shrinks c raw))).1

end Sys2Proof.Machine
end

section
/-! Reads, arbiters and the dispatcher choose by folding over what waits (R121, R131, R144): a fold that keeps the better of two ends
with one that nothing beats. -/

namespace Sys2Proof.Machine

/-! ## Entries of a canonical map -/

theorem lt_key_of_mem {α : Type} {l : Nat} {m : SMap α} (h : mapSortedFrom (some l) m = true) : ∀ p ∈ m, l < p.1 := by
  induction m generalizing l with
  | nil => exact fun p hp => absurd hp List.not_mem_nil
  | cons q r ih =>
    simp only [mapSortedFrom, Bool.and_eq_true, decide_eq_true_eq] at h
    obtain ⟨hlt, hrest⟩ := h
    intro p hp
    rcases List.mem_cons.mp hp with rfl | hp
    · exact hlt
    · exact Nat.lt_trans hlt (ih hrest p hp)

/-- A listed entry is what its key reads. -/
theorem mapGet_of_mem {α : Type} (d : Nat → α) {lo : Option Nat} {m : SMap α} (h : mapSortedFrom lo m = true) :
    ∀ p ∈ m, mapGet d m p.1 = p.2 := by
  induction m generalizing lo with
  | nil => exact fun p hp => absurd hp List.not_mem_nil
  | cons q r ih =>
    simp only [mapSortedFrom, Bool.and_eq_true] at h
    obtain ⟨-, hrest⟩ := h
    intro p hp
    rcases List.mem_cons.mp hp with rfl | hp
    · exact if_pos rfl
    · rw [mapGet, if_neg (Nat.ne_of_lt (lt_key_of_mem hrest p hp))]
      exact ih hrest p hp

/-- A key that reads something else than its default is listed. -/
theorem mem_of_mapGet_ne {α : Type} {d : Nat → α} {m : SMap α} {k : Nat} (h : mapGet d m k ≠ d k) : (k, mapGet d m k) ∈ m := by
  induction m with
  | nil => exact absurd rfl h
  | cons q r ih =>
    obtain ⟨j, v⟩ := q
    rw [mapGet] at h ⊢
    split at h
    · next hj => rw [if_pos hj, ← hj]; exact List.mem_cons_self
    · next hj => rw [if_neg hj]; exact List.mem_cons_of_mem _ (ih h)

/-! ## Folds that keep the better of two -/

/-- `f` passes by what is not eligible, and keeps of two eligible ones that no worse than either; `R a b` says that `a` is no worse
than `b`, and `g` is what the fold keeps of an element. -/
structure KeepsBetter {α β : Type} (l : List α) (f : Option β → α → Option β) (P : α → Prop) (g : α → β) (R : β → β → Prop) : Prop where
  skip : ∀ a ∈ l, ¬P a → ∀ b, f b a = b
  first : ∀ a ∈ l, P a → f none a = some (g a)
  next : ∀ a ∈ l, P a → ∀ b, (f (some b) a = some b ∧ R b (g a)) ∨ (f (some b) a = some (g a) ∧ R (g a) b)

section
variable {α β : Type} {f : Option β → α → Option β} {P : α → Prop} {g : α → β} {R : β → β → Prop}

theorem KeepsBetter.tail {a : α} {l : List α} (h : KeepsBetter (a :: l) f P g R) : KeepsBetter l f P g R :=
  ⟨fun x hx => h.skip x (List.mem_cons_of_mem _ hx), fun x hx => h.first x (List.mem_cons_of_mem _ hx),
    fun x hx => h.next x (List.mem_cons_of_mem _ hx)⟩

/-- From a start the fold ends with something no worse than the start and than every eligible element. -/
theorem KeepsBetter.foldl_some {l : List α} (h : KeepsBetter l f P g R) (refl : ∀ b, R b b) (trans : ∀ {a b c}, R a b → R b c → R a c) (b : β) :
    ∃ r, l.foldl f (some b) = some r ∧ (r = b ∨ ∃ a ∈ l, P a ∧ g a = r) ∧ R r b ∧ ∀ a ∈ l, P a → R r (g a) := by
  induction l generalizing b with
  | nil => exact ⟨b, rfl, .inl rfl, refl b, fun a ha => absurd ha List.not_mem_nil⟩
  | cons x xs ih =>
    by_cases hx : P x
    · rcases h.next x List.mem_cons_self hx b with ⟨hf, hb⟩ | ⟨hf, hb⟩
      · obtain ⟨r, hr, hfrom, hrb, hall⟩ := ih h.tail b
        refine ⟨r, by rw [List.foldl_cons, hf, hr], hfrom.imp id fun ⟨a, ha, hp⟩ => ⟨a, List.mem_cons_of_mem _ ha, hp⟩, hrb, ?_⟩
        exact List.forall_mem_cons.mpr ⟨fun _ => trans hrb hb, hall⟩
      · obtain ⟨r, hr, hfrom, hrb, hall⟩ := ih h.tail (g x)
        refine ⟨r, by rw [List.foldl_cons, hf, hr], .inr ?_, trans hrb hb, List.forall_mem_cons.mpr ⟨fun _ => hrb, hall⟩⟩
        rcases hfrom with rfl | ⟨a, ha, hp⟩
        · exact ⟨x, List.mem_cons_self, hx, rfl⟩
        · exact ⟨a, List.mem_cons_of_mem _ ha, hp⟩
    · obtain ⟨r, hr, hfrom, hrb, hall⟩ := ih h.tail b
      refine ⟨r, by rw [List.foldl_cons, h.skip x List.mem_cons_self hx, hr],
        hfrom.imp id fun ⟨a, ha, hp⟩ => ⟨a, List.mem_cons_of_mem _ ha, hp⟩, hrb, ?_⟩
      exact List.forall_mem_cons.mpr ⟨fun hp => absurd hp hx, hall⟩

/-- From nothing the fold ends with an eligible element no worse than every other, or with nothing where none is eligible. -/
theorem KeepsBetter.foldl_none {l : List α} (h : KeepsBetter l f P g R) (refl : ∀ b, R b b) (trans : ∀ {a b c}, R a b → R b c → R a c) :
    (l.foldl f none = none ∧ ∀ a ∈ l, ¬P a) ∨
      ∃ r, l.foldl f none = some r ∧ (∃ a ∈ l, P a ∧ g a = r) ∧ ∀ a ∈ l, P a → R r (g a) := by
  induction l with
  | nil => exact .inl ⟨rfl, fun a ha => absurd ha List.not_mem_nil⟩
  | cons x xs ih =>
    by_cases hx : P x
    · obtain ⟨r, hr, hfrom, hrb, hall⟩ := h.tail.foldl_some refl trans (g x)
      refine .inr ⟨r, by rw [List.foldl_cons, h.first x List.mem_cons_self hx, hr], ?_, List.forall_mem_cons.mpr ⟨fun _ => hrb, hall⟩⟩
      rcases hfrom with rfl | ⟨a, ha, hp⟩
      · exact ⟨x, List.mem_cons_self, hx, rfl⟩
      · exact ⟨a, List.mem_cons_of_mem _ ha, hp⟩
    · rw [List.foldl_cons, h.skip x List.mem_cons_self hx]
      rcases ih h.tail with ⟨hnone, hall⟩ | ⟨r, hr, ⟨a, ha, hp⟩, hall⟩
      · exact .inl ⟨hnone, List.forall_mem_cons.mpr ⟨hx, hall⟩⟩
      · exact .inr ⟨r, hr, ⟨a, List.mem_cons_of_mem _ ha, hp⟩, List.forall_mem_cons.mpr ⟨fun hp => absurd hp hx, hall⟩⟩

end

/-! ## The three choices -/

/-- Of two items a read takes `i` first: by priority, then by commit order (R121). -/
def QItem.NoLater (i j : QItem) : Prop := j.prio < i.prio ∨ (j.prio = i.prio ∧ i.seq ≤ j.seq)

theorem bestItem_cases (l : List QItem) :
    (bestItem l = none ∧ l = []) ∨ ∃ i, bestItem l = some i ∧ i ∈ l ∧ ∀ j ∈ l, i.NoLater j := by
  have hbetter : KeepsBetter l (fun b i => match b with
      | none => some i
      | some j => if j.prio < i.prio || (j.prio == i.prio && i.seq < j.seq) then some i else b) (fun _ => True) id QItem.NoLater := by
    refine ⟨fun _ _ h => absurd trivial h, fun _ _ _ => rfl, fun i _ _ j => ?_⟩
    unfold QItem.NoLater
    dsimp only [id]
    split
    · next h => exact .inr ⟨rfl, by simp at h; omega⟩
    · next h => exact .inl ⟨rfl, by simp at h; omega⟩
  rcases hbetter.foldl_none (fun _ => .inr ⟨rfl, Nat.le_refl _⟩) (by unfold QItem.NoLater; omega) with ⟨hnone, hall⟩ | ⟨i, hi, ⟨a, ha, -, rfl⟩, hall⟩
  · exact .inl ⟨hnone, List.eq_nil_iff_forall_not_mem.mpr fun a ha => hall a ha trivial⟩
  · exact .inr ⟨_, hi, ha, fun j hj => hall j hj trivial⟩

/-- What a read takes leaves every other visible item, the open items and ENABLE. -/
theorem Queue.take_some {q q' : Queue} {raw : Nat} {i : QItem} (h : q.take raw = some (i, q')) :
    i ∈ q.visible ∧ (∀ j ∈ q.visible, i.NoLater j) ∧ (∀ j ∈ q.visible, ¬(j.prio = i.prio ∧ j.seq = i.seq) → j ∈ q'.visible) ∧
      q'.opens = q.opens ∧ q'.enable = q.enable := by
  unfold Queue.take at h
  rcases bestItem_cases q.visible with ⟨hnone, -⟩ | ⟨b, hb, hmem, hall⟩
  · rw [hnone] at h
    cases h
  · rw [hb] at h
    obtain ⟨rfl, rfl⟩ := Prod.mk.inj (Option.some.inj h)
    refine ⟨hmem, hall, fun j hj hne => List.mem_filter.mpr ⟨hj, ?_⟩, rfl, rfl⟩
    rw [Bool.or_eq_true, bne_iff_ne, bne_iff_ne]
    omega

theorem State.pickBurst_cases (s : State) (last : SMap Nat) (l : List Burst) :
    (s.pickBurst last l = none ∧ l = []) ∨
      ∃ b, s.pickBurst last l = some b ∧ b ∈ l ∧ ∀ x ∈ l, s.rankOf x.requester ≤ s.rankOf b.requester := by
  have hbetter : KeepsBetter l (fun best b =>
      match best with
      | none => some b
      | some x =>
        let rb := s.rankOf b.requester
        let rx := s.rankOf x.requester
        let d := fun (y : Burst) (rk : Nat) => roundDist (mapGet (fun _ => requesterCount - 1) last rk) y.requester
        if rx < rb || (rx == rb && d b rb < d x rx) then some b else some x) (fun _ => True) id
      (fun b x => s.rankOf x.requester ≤ s.rankOf b.requester) := by
    refine ⟨fun _ _ h => absurd trivial h, fun _ _ _ => rfl, fun b _ _ x => ?_⟩
    dsimp only [id]
    split
    · next h => exact .inr ⟨rfl, by simp at h; omega⟩
    · next h => exact .inl ⟨rfl, by simp at h; omega⟩
  rcases hbetter.foldl_none (fun _ => Nat.le_refl _) (fun h g => Nat.le_trans g h) with ⟨hnone, hall⟩ | ⟨b, hb, ⟨a, ha, -, rfl⟩, hall⟩
  · exact .inl ⟨hnone, List.eq_nil_iff_forall_not_mem.mpr fun a ha => hall a ha trivial⟩
  · exact .inr ⟨_, hb, ha, fun x hx => hall x hx trivial⟩

/-- Of two READY tasks the dispatcher takes `t` no later: by rank, then by order of readiness (R144). -/
def Task.NoLater (t u : Task) : Prop := u.rank < t.rank ∨ (u.rank = t.rank ∧ t.readyOrder ≤ u.readyOrder)

theorem State.firstReady_some {s : State} {c n : Nat} (hwf : mapWf (fun _ => ({} : Task)) s.gth.tasks = true) (h : s.firstReady c = some n) :
    (s.task n).mode = .ready ∧ (s.task n).cls = c ∧ ∀ m, (s.task m).mode = .ready → (s.task m).cls = c → (s.task n).NoLater (s.task m) := by
  simp only [mapWf, Bool.and_eq_true] at hwf
  obtain ⟨hsorted, -⟩ := hwf
  have hread : ∀ p ∈ s.gth.tasks, s.task p.1 = p.2 := mapGet_of_mem _ hsorted
  have hbetter : KeepsBetter s.gth.tasks (fun best (p : Nat × Task) =>
      if p.2.mode == .ready && p.2.cls == c then
        match best with
        | none => some p.1
        | some b =>
          let t := s.task b
          if t.rank < p.2.rank || (t.rank == p.2.rank && p.2.readyOrder < t.readyOrder) then some p.1 else some b
      else best) (fun p => p.2.mode = .ready ∧ p.2.cls = c) Prod.fst (fun a b => (s.task a).NoLater (s.task b)) := by
    refine ⟨fun p _ hp b => if_neg (by simpa using hp), fun p _ hp => if_pos (by simpa using hp), fun p hin hp b => ?_⟩
    dsimp only
    rw [if_pos (by simpa using hp), hread p hin]
    unfold Task.NoLater
    split
    · next h => exact .inr ⟨rfl, by simp at h; omega⟩
    · next h => exact .inl ⟨rfl, by simp at h; omega⟩
  rcases hbetter.foldl_none (fun _ => .inr ⟨rfl, Nat.le_refl _⟩) (by unfold Task.NoLater; omega) with ⟨hnone, -⟩ | ⟨r, hr, ⟨p, hin, ⟨hmode, hcls⟩, rfl⟩, hall⟩
  · cases hnone.symm.trans h
  · obtain rfl := Option.some.inj (hr.symm.trans h)
    refine ⟨by rw [hread p hin, hmode], by rw [hread p hin, hcls], fun m hm hc => ?_⟩
    have hlisted : (m, s.task m) ∈ s.gth.tasks := mem_of_mapGet_ne (fun h => by
      rw [State.task, h] at hm
      cases hm)
    exact hall _ hlisted ⟨hm, hc⟩

/-- Settles O25: each of the three choices is a fold that keeps the better of two. -/
theorem priorityIsStrict : Obligations.PriorityIsStrict := by
  unfold Obligations.PriorityIsStrict
  refine ⟨fun _ _ _ _ => Queue.take_some, fun s last l => ?_, fun _ _ _ => State.firstReady_some⟩
  rcases s.pickBurst_cases last l with ⟨hnone, hl⟩ | ⟨b, hb, hbest⟩
  · exact ⟨fun x hx => absurd (hnone.symm.trans hx) nofun, fun _ => hl⟩
  · exact ⟨fun x hx => Option.some.inj (hb.symm.trans hx) ▸ hbest, fun hx => absurd (hb.symm.trans hx) nofun⟩

end Sys2Proof.Machine
end

section
/-! The arithmetic of a leaf's datapath and of a MOVE's addresses (R172 to R178, R215): packed lanes read back part by part, and
pointers and blocks that wrap. -/

namespace Sys2Proof.Machine

/-! ## Two's complement -/

theorem unsignedOf_lt (w : Nat) (i : Int) : unsignedOf w i < 2 ^ w := by
  have hpos : (0 : Int) < (2 ^ w : Nat) := Int.natCast_pos.mpr (Nat.two_pow_pos w)
  have hlt := Int.emod_lt_of_pos i hpos
  have hnonneg := Int.emod_nonneg i (Int.ne_of_gt hpos)
  unfold unsignedOf
  omega

theorem unsignedOf_of_lt {w : Nat} {i : Int} (h0 : 0 ≤ i) (h : i < (2 ^ w : Nat)) : (unsignedOf w i : Int) = i := by
  rw [unsignedOf, Int.emod_eq_of_lt h0 h, Int.toNat_of_nonneg h0]

/-- 16 bits hold every number from -32768 to 32767. -/
theorem signedOf16_unsignedOf {i : Int} (h0 : -32768 ≤ i) (h : i ≤ 32767) : signedOf 16 (unsignedOf 16 i) = i := by
  have hlt := unsignedOf_lt 16 i
  have hmod : (unsignedOf 16 i : Int) = i % 65536 := Int.toNat_of_nonneg (Int.emod_nonneg i (by decide))
  rw [signedOf, Nat.mod_eq_of_lt hlt]
  split <;> omega

/-! ## Packed lanes -/

/-- Lanes of two `w`-bit parts as one number, lane 0 lowest. -/
def packLanes (w : Nat) (l : List (Int × Int)) : Nat :=
  match l with
  | [] => 0
  | (r, i) :: t => unsignedOf w r + unsignedOf w i * 2 ^ w + 2 ^ (2 * w) * packLanes w t

theorem packLanes_lane_lt (w : Nat) (r i : Int) : unsignedOf w r + unsignedOf w i * 2 ^ w < 2 ^ (2 * w) := by
  have hr := unsignedOf_lt w r
  have hi := Nat.mul_le_mul_right (2 ^ w) (Nat.succ_le_of_lt (unsignedOf_lt w i))
  rw [Nat.two_mul, Nat.pow_add]
  rw [Nat.succ_mul] at hi
  omega

theorem packLanes_lt (w : Nat) (l : List (Int × Int)) : packLanes w l < 2 ^ (2 * w * l.length) := by
  induction l with
  | nil => exact Nat.one_pos
  | cons p t ih =>
    have hlane := packLanes_lane_lt w p.1 p.2
    have hrest := Nat.mul_le_mul_left (2 ^ (2 * w)) (Nat.succ_le_of_lt ih)
    rw [List.length_cons, Nat.mul_succ, Nat.add_comm (2 * w * _), Nat.pow_add]
    rw [Nat.mul_succ] at hrest
    rw [packLanes]
    omega

/-- Packing by OR and shift does not carry from lane to lane. -/
theorem lane_or_shift {n w k : Nat} (hk : k = 2 * w) (r i : Int) {t : List (Int × Int)} (h : 2 * w * (t.length + 1) ≤ n) {x : BitVec n}
    (hx : x.toNat = packLanes w t) :
    (BitVec.ofNat n (unsignedOf w r + unsignedOf w i * 2 ^ w) ||| (x <<< k)).toNat = packLanes w ((r, i) :: t) := by
  subst hk
  have hlane := packLanes_lane_lt w r i
  have hwhole := packLanes_lt w ((r, i) :: t)
  have hn := Nat.pow_le_pow_right Nat.two_pos h
  have hfits : packLanes w ((r, i) :: t) < 2 ^ n := Nat.lt_of_lt_of_le hwhole hn
  rw [packLanes] at hfits ⊢
  rw [BitVec.toNat_or, BitVec.toNat_ofNat, BitVec.toNat_shiftLeft, hx, Nat.shiftLeft_eq, Nat.mul_comm (packLanes w t),
    Nat.mod_eq_of_lt (by omega), Nat.mod_eq_of_lt (by omega), Nat.or_comm, ← Nat.two_pow_add_eq_or_of_lt hlane, Nat.add_comm]

theorem vOfLanes_toNat {l : List (Int × Int)} (h : l.length ≤ 8) : (vOfLanes l).toNat = packLanes 16 l := by
  induction l with
  | nil => rfl
  | cons p t ih =>
    rw [List.length_cons] at h
    exact lane_or_shift rfl p.1 p.2 (by omega) (ih (by omega))

theorem aOfLanes_toNat {l : List (Int × Int)} (h : l.length ≤ 8) : (aOfLanes l).toNat = packLanes 40 l := by
  induction l with
  | nil => exact BitVec.toNat_zero
  | cons p t ih =>
    rw [List.length_cons] at h
    exact lane_or_shift rfl p.1 p.2 (by omega) (ih (by omega))

theorem laneAt_cons_succ (p : Int × Int) (t : List (Int × Int)) (k : Nat) : laneAt (p :: t) (k + 1) = laneAt t k := rfl

/-- Lane `k` of the packed number. -/
theorem packLanes_lane (w : Nat) (l : List (Int × Int)) (k : Nat) :
    packLanes w l / 2 ^ (2 * w * k) % 2 ^ (2 * w) = unsignedOf w (laneAt l k).1 + unsignedOf w (laneAt l k).2 * 2 ^ w := by
  induction l generalizing k with
  | nil => simp [packLanes, laneAt, unsignedOf]
  | cons p t ih =>
    have hlane := packLanes_lane_lt w p.1 p.2
    cases k with
    | zero =>
      rw [Nat.mul_zero, Nat.pow_zero, Nat.div_one, packLanes, Nat.add_mul_mod_self_left, Nat.mod_eq_of_lt hlane]
      rfl
    | succ k =>
      rw [Nat.mul_succ, Nat.add_comm (2 * w * k), Nat.pow_add, ← Nat.div_div_eq_div_mul, packLanes,
        Nat.add_mul_div_left _ _ (Nat.two_pow_pos _), Nat.div_eq_of_lt hlane, Nat.zero_add, ih, laneAt_cons_succ]

theorem packLanes_re (w : Nat) (l : List (Int × Int)) (k : Nat) :
    packLanes w l / 2 ^ (2 * w * k) % 2 ^ w = unsignedOf w (laneAt l k).1 := by
  rw [← Nat.mod_mod_of_dvd _ (Nat.pow_dvd_pow 2 (Nat.le_mul_of_pos_left w Nat.two_pos)), packLanes_lane, Nat.add_mul_mod_self_right,
    Nat.mod_eq_of_lt (unsignedOf_lt _ _)]

theorem packLanes_im (w : Nat) (l : List (Int × Int)) (k : Nat) :
    packLanes w l / 2 ^ (2 * w * k + w) % 2 ^ w = unsignedOf w (laneAt l k).2 := by
  rw [Nat.pow_add, ← Nat.div_div_eq_div_mul, ← Nat.mod_mul_right_div_self, ← Nat.pow_add, ← Nat.two_mul, packLanes_lane,
    Nat.add_mul_div_right _ _ (Nat.two_pow_pos _), Nat.div_eq_of_lt (unsignedOf_lt _ _), Nat.zero_add]

/-- An accumulator keeps each part modulo 2^40 (R175). -/
theorem aOfLanes_part {l : List (Int × Int)} (h : l.length = 8) (k : Nat) :
    aRe (aOfLanes l) k = signedOf 40 (unsignedOf 40 (laneAt l k).1) ∧ aIm (aOfLanes l) k = signedOf 40 (unsignedOf 40 (laneAt l k).2) := by
  rw [aRe, aIm, bitsOf, bitsOf, aOfLanes_toNat (Nat.le_of_eq h), show 80 * k + 39 + 1 - 80 * k = 40 by omega,
    show 80 * k + 79 + 1 - (80 * k + 40) = 40 by omega]
  exact ⟨congrArg _ (packLanes_re 40 l k), congrArg _ (packLanes_im 40 l k)⟩

theorem vOfLanes_part {l : List (Int × Int)} (h : l.length = 8) (k : Nat) :
    vRe (vOfLanes l) k = signedOf 16 (unsignedOf 16 (laneAt l k).1) ∧ vIm (vOfLanes l) k = signedOf 16 (unsignedOf 16 (laneAt l k).2) := by
  rw [vRe, vIm, bitsOf, bitsOf, vOfLanes_toNat (Nat.le_of_eq h), show 32 * k + 15 + 1 - 32 * k = 16 by omega,
    show 32 * k + 31 + 1 - (32 * k + 16) = 16 by omega]
  exact ⟨congrArg _ (packLanes_re 16 l k), congrArg _ (packLanes_im 16 l k)⟩

theorem laneAt_map {f : Int × Int → Int × Int} (h : f (0, 0) = (0, 0)) (l : List (Int × Int)) (k : Nat) :
    laneAt (l.map f) k = f (laneAt l k) := by
  rw [laneAt, laneAt, List.getD_eq_getElem?_getD, List.getD_eq_getElem?_getD, List.getElem?_map]
  cases l[k]? with
  | none => exact h.symm
  | some p => rfl

theorem laneAt_map_range (f : Nat → Int × Int) {k : Nat} (h : k < 8) : laneAt ((List.range 8).map f) k = f k := by
  simp [laneAt, List.getD_eq_getElem?_getD, h]

/-- A saturated part is held as it is (R177, R178). -/
theorem vOfLanes_sat {l : List (Int × Int)} (h : l.length = 8) (k : Nat) :
    vRe (vOfLanes (l.map satPair)) k = max (-32768) (min 32767 (laneAt l k).1) ∧
      vIm (vOfLanes (l.map satPair)) k = max (-32768) (min 32767 (laneAt l k).2) := by
  obtain ⟨hre, him⟩ := vOfLanes_part (l := l.map satPair) (by rw [List.length_map, h]) k
  rw [hre, him, laneAt_map rfl]
  exact ⟨signedOf16_unsignedOf (by simp only [satPair, sat16]; omega) (by simp only [satPair, sat16]; omega),
    signedOf16_unsignedOf (by simp only [satPair, sat16]; omega) (by simp only [satPair, sat16]; omega)⟩

/-! ## Multiply-accumulate -/

theorem macLanes_lane (form upd psh j : Nat) (acc va vb : List (Int × Int)) (bc : Bool) {k : Nat} (h : k < 8) :
    laneAt (macLanes form upd psh acc va vb bc j) k =
      updateAcc upd (laneAt acc k) (preShift psh (product form (laneAt va k) (if bc then laneAt vb j else laneAt vb k))) :=
  laneAt_map_range _ h

theorem storeLanes_lane (s : Nat) (l : List (Int × Int)) (k : Nat) : laneAt (storeLanes s l) k = preShift (min s 24) (laneAt l k) :=
  laneAt_map (by simp [preShift]) l k

/-- SAT is sticky, and set where some part saturates (R178, R180). -/
theorem vecRes_lstat (l : Leaf) (vd : Nat) (lanes : List (Int × Int)) :
    (l.vecRes vd lanes).lstat = if anySat lanes then l.lstat ||| 0x10#32 else l.lstat := by
  unfold Leaf.vecRes Leaf.setStat
  split <;> rfl

theorem or_bit4_eq_self_iff (x : W32) : x = x ||| 0x10#32 ↔ bitOf x 4 = true := by
  unfold bitOf
  constructor
  · intro h
    rw [h]
    simp
  · intro h
    refine BitVec.eq_of_getLsbD_eq fun i hi => ?_
    by_cases h4 : i = 4
    · simp [h4, h]
    · have hbit : (0x10#32).getLsbD i = false := by
        rw [show (0x10#32 : W32) = BitVec.twoPow 32 4 by rfl, BitVec.getLsbD_twoPow]
        simp [Ne.symm h4]
      rw [BitVec.getLsbD_or, hbit, Bool.or_false]

/-! ## 255 products do not overflow (R175) -/

/-- Both parts lie within `n` products. -/
def WithinProducts (n : Nat) (p : Int × Int) : Prop := (-(2 ^ 31 * n : Int) ≤ p.1 ∧ p.1 ≤ 2 ^ 31 * n) ∧ (-(2 ^ 31 * n : Int) ≤ p.2 ∧ p.2 ≤ 2 ^ 31 * n)

/-- The product of two 16-bit parts. -/
theorem mul_within {a b : Int} (ha : -32768 ≤ a ∧ a ≤ 32767) (hb : -32768 ≤ b ∧ b ≤ 32767) : -(2 ^ 30) ≤ a * b ∧ a * b ≤ 2 ^ 30 := by
  obtain ⟨ha0, ha1⟩ := ha
  obtain ⟨hb0, hb1⟩ := hb
  have habs : (a * b).natAbs ≤ 32768 * 32768 := by
    rw [Int.natAbs_mul]
    exact Nat.mul_le_mul (by omega) (by omega)
  omega

theorem product_within {form : Nat} (hf : form ≤ 1) {x y : Int × Int} (hx1 : -32768 ≤ x.1 ∧ x.1 ≤ 32767) (hx2 : -32768 ≤ x.2 ∧ x.2 ≤ 32767)
    (hy1 : -32768 ≤ y.1 ∧ y.1 ≤ 32767) (hy2 : -32768 ≤ y.2 ∧ y.2 ≤ 32767) : WithinProducts 1 (product form x y) := by
  have h11 := mul_within hx1 hy1
  have h22 := mul_within hx2 hy2
  have h12 := mul_within hx1 hy2
  have h21 := mul_within hx2 hy1
  have hform : form = 0 ∨ form = 1 := by omega
  rcases hform with rfl | rfl
  · show WithinProducts 1 (x.1 * y.1 - x.2 * y.2, x.1 * y.2 + x.2 * y.1)
    unfold WithinProducts
    omega
  · show WithinProducts 1 (x.1 * y.1 + x.2 * y.2, x.2 * y.1 - x.1 * y.2)
    unfold WithinProducts
    omega

theorem updateAcc_add (a p : Int × Int) : updateAcc 0 a (preShift 0 p) = (a.1 + p.1, a.2 + p.2) := by
  simp [updateAcc, preShift]

theorem sum_within {n : Nat} (f : (Int × Int) × (Int × Int) → Int × Int) (l : List ((Int × Int) × (Int × Int)))
    (hf : ∀ x ∈ l, WithinProducts 1 (f x)) (a : Int × Int) (ha : WithinProducts n a) :
    WithinProducts (n + l.length) (l.foldl (fun a x => updateAcc 0 a (preShift 0 (f x))) a) := by
  induction l generalizing n a with
  | nil => exact ha
  | cons x t ih =>
    have hx := hf x List.mem_cons_self
    rw [List.length_cons, Nat.add_comm t.length, ← Nat.add_assoc]
    refine ih (fun y hy => hf y (List.mem_cons_of_mem _ hy)) _ ?_
    dsimp only
    rw [updateAcc_add]
    unfold WithinProducts at *
    omega

theorem not_over40_of_within {n : Nat} (hn : n ≤ 255) {p : Int × Int} (h : WithinProducts n p) :
    over40 p.1 = false ∧ over40 p.2 = false := by
  unfold WithinProducts at h
  simp only [over40, decide_eq_false_iff_not]
  omega

/-! ## Pointers and blocks that wrap -/

theorem stepPointer_linear (p b : W32) (step : Int) : (stepPointer p b 0 step).toNat = unsignedOf 32 (p.toNat + step) := by
  rw [stepPointer, if_pos rfl, BitVec.toNat_ofNat, Nat.mod_eq_of_lt (unsignedOf_lt _ _)]

/-- The updated pointer of a circular buffer as a number. -/
theorem stepPointer_circular {p b len : W32} {step : Int} (hlen : len ≠ 0) (hfit : b.toNat + len.toNat ≤ 2 ^ 32) :
    ((stepPointer p b len step).toNat : Int) = b.toNat + (p.toNat + step - b.toNat) % (len.toNat : Int) := by
  have hpos : 0 < len.toNat := Nat.pos_of_ne_zero fun h => hlen (BitVec.eq_of_toNat_eq h)
  have hlo := Int.emod_nonneg (p.toNat + step - b.toNat) (Int.natCast_ne_zero.mpr (Nat.ne_of_gt hpos))
  have hhi := Int.emod_lt_of_pos (p.toNat + step - b.toNat) (Int.natCast_pos.mpr hpos)
  rw [stepPointer, if_neg hlen, BitVec.toNat_ofNat, Nat.mod_eq_of_lt (unsignedOf_lt _ _), unsignedOf_of_lt (by omega) (by omega)]

theorem stepPointer_wraps {p b len : W32} {step : Int} (hlen : len ≠ 0) (hfit : b.toNat + len.toNat ≤ 2 ^ 32) :
    b.toNat ≤ (stepPointer p b len step).toNat ∧ (stepPointer p b len step).toNat < b.toNat + len.toNat ∧
      (((stepPointer p b len step).toNat : Int) - (p.toNat + step)) % (len.toNat : Int) = 0 := by
  have heq := stepPointer_circular (p := p) (step := step) hlen hfit
  have hpos : 0 < len.toNat := Nat.pos_of_ne_zero fun h => hlen (BitVec.eq_of_toNat_eq h)
  have hlo := Int.emod_nonneg (p.toNat + step - b.toNat) (Int.natCast_ne_zero.mpr (Nat.ne_of_gt hpos))
  have hhi := Int.emod_lt_of_pos (p.toNat + step - b.toNat) (Int.natCast_pos.mpr hpos)
  refine ⟨by omega, by omega, Int.emod_eq_zero_of_dvd ⟨-((p.toNat + step - b.toNat) / (len.toNat : Int)), ?_⟩⟩
  rw [heq, Int.emod_def]
  grind

theorem wrapAddr_circular {w : Nat} (h : w ≠ 0) (a n : Nat) :
    a / 2 ^ w * 2 ^ w ≤ wrapAddr a n w ∧ wrapAddr a n w < a / 2 ^ w * 2 ^ w + 2 ^ w ∧ wrapAddr a n w % 2 ^ w = (a + n) % 2 ^ w := by
  have hlt := Nat.mod_lt (a + n) (Nat.two_pow_pos w)
  rw [wrapAddr, if_neg h]
  exact ⟨Nat.le_add_right _ _, Nat.add_lt_add_left hlt _, by rw [Nat.add_comm, Nat.add_mul_mod_self_right, Nat.mod_mod]⟩

/-- Settles O31: lanes by their place in the packed word, sums of products by their bound, pointers and blocks by their remainder. -/
theorem leafArithmetic : Obligations.LeafArithmetic := by
  unfold Obligations.LeafArithmetic
  refine ⟨⟨fun _ _ _ _ => ⟨rfl, rfl, rfl⟩, ?mac, fun _ k hl _ => aOfLanes_part hl k, fun _ k hl _ => vOfLanes_sat hl k, ?sat, ?store⟩,
    ?products, ?pointer, ?linear, fun a n w hw => wrapAddr_circular hw a n, fun _ _ _ _ _ => ⟨rfl, rfl, rfl, rfl⟩⟩
  case mac =>
    intro form upd psh j k acc va vb bc hk
    exact macLanes_lane form upd psh j acc va vb bc hk
  case sat =>
    intro l vd lanes _
    rw [vecRes_lstat]
    cases anySat lanes
    · exact ⟨.inl rfl, (or_bit4_eq_self_iff _).trans (by simp)⟩
    · exact ⟨.inr rfl, by simp⟩
  case store =>
    intro s l k _ _
    exact storeLanes_lane s l k
  case products =>
    intro form l hform hlen hl
    refine not_over40_of_within hlen (Nat.zero_add l.length ▸ sum_within (fun x => product form x.1 x.2) l (fun x hx => ?_) (0, 0) (by simp [WithinProducts]))
    obtain ⟨h11, h12, h21, h22⟩ := hl x hx
    exact product_within hform h11 h12 h21 h22
  case pointer =>
    intro p b len step
    exact ⟨fun h => by rw [h, stepPointer_linear], stepPointer_wraps⟩
  case linear =>
    intro a n
    exact if_pos rfl

end Sys2Proof.Machine
end

section
/-! Bytes written to memory read back, and every other byte reads as before (R3, R160, R161). -/

namespace Sys2Proof.Machine

theorem length_bytesOfNat (n v : Nat) : (bytesOfNat n v).length = n := by
  induction n generalizing v with
  | zero => rfl
  | succ n ih => exact congrArg (· + 1) (ih _)

/-- Byte `i` of a number. -/
theorem getElem?_bytesOfNat {n i : Nat} (v : Nat) (h : i < n) : (bytesOfNat n v)[i]? = some (BitVec.ofNat 8 (v / 2 ^ (8 * i))) := by
  induction i generalizing n v with
  | zero =>
    obtain ⟨m, rfl⟩ := Nat.exists_eq_succ_of_ne_zero (Nat.ne_of_gt h)
    refine congrArg some (BitVec.eq_of_toNat_eq ?_)
    simp
  | succ i ih =>
    obtain ⟨m, rfl⟩ := Nat.exists_eq_succ_of_ne_zero (Nat.ne_of_gt (Nat.zero_lt_of_lt h))
    rw [bytesOfNat, List.getElem?_cons_succ, ih _ (Nat.lt_of_succ_lt_succ h), Nat.div_div_eq_div_mul, Nat.mul_succ, Nat.pow_add,
      Nat.mul_comm (2 ^ (8 * i))]

/-- A byte within the bytes written is the one written, every other byte is as it was. -/
theorem State.byte_setBytes {s : State} (h : Memory.wf s.mem = true) (a : Nat) (l : List Byte) (b : Nat) :
    (s.setBytes a l).byte b = if a ≤ b then (l[b - a]?).getD (s.byte b) else s.byte b := by
  induction l generalizing s a with
  | nil => simp [State.setBytes]
  | cons x r ih =>
    have hwf : Memory.wf (s.setByte a x).mem = true := mapSet_wf _ _ _ _ h
    rw [State.setBytes, ih hwf, State.byte_setByte _ _ _ _ h]
    by_cases hlt : b < a
    · rw [if_neg (by omega), if_neg (by omega), if_neg (by omega)]
    · by_cases heq : b = a
      · subst heq
        rw [if_neg (Nat.not_succ_le_self b), if_pos rfl, if_pos (Nat.le_refl b), Nat.sub_self]
        rfl
      · rw [if_pos (by omega), if_neg heq, if_pos (by omega), show b - a = b - (a + 1) + 1 by omega, List.getElem?_cons_succ]

theorem State.byte_setBytes_outside {s : State} (h : Memory.wf s.mem = true) {a b : Nat} {l : List Byte} (hb : b < a ∨ a + l.length ≤ b) :
    (s.setBytes a l).byte b = s.byte b := by
  rw [State.byte_setBytes h]
  split
  · rw [List.getElem?_eq_none (by omega), Option.getD_none]
  · rfl

/-- The effect of a leaf store on memory: the bytes where the slot reaches them. -/
theorem State.leafStore_byte (s : State) (n : Nat) (x : Bool) {addr bytes a : Nat} (v : Nat) (h : (leafAccess n x addr bytes).1 = some a)
    (b : Nat) : (s.leafStore n x addr bytes v).1.byte b = (s.setBytes a (bytesOfNat bytes v)).byte b := by
  have hacc : leafAccess n x addr bytes = (some a, (leafAccess n x addr bytes).2) := Prod.ext h rfl
  rw [State.leafStore, hacc]
  exact congrArg (mapGet memDefault · b) (State.setLeaf_mem _ _ _)

theorem State.leafStore_unreached (s : State) (n : Nat) (x : Bool) {addr bytes : Nat} (v : Nat) (h : (leafAccess n x addr bytes).1 = none) :
    (s.leafStore n x addr bytes v).1 = s := by
  have hacc : leafAccess n x addr bytes = (none, (leafAccess n x addr bytes).2) := Prod.ext h rfl
  rw [State.leafStore, hacc]

/-- Settles O34: a store is the bytes of its value written at the one address its slot reaches. -/
theorem leafStoresChangeTheirBytesOnly : Obligations.LeafStoresChangeTheirBytesOnly := by
  intro s n addr bytes v x ⟨hmem, _⟩
  refine ⟨fun a ha => ⟨fun i hi => ?written, fun b hb => ?other⟩, fun hnone => by rw [s.leafStore_unreached n x v hnone]⟩
  case written =>
    rw [s.leafStore_byte n x v ha, State.byte_setBytes hmem, if_pos (Nat.le_add_right a i), Nat.add_sub_cancel_left,
      getElem?_bytesOfNat v hi, Option.getD_some]
  case other =>
    rw [s.leafStore_byte n x v ha, State.byte_setBytes_outside hmem (by rwa [length_bytesOfNat])]

end Sys2Proof.Machine
end

section
/-! The places of module memory under its three maps (R388, R389). -/

namespace Sys2Proof.Machine

/-- XOR with a number twice gives back the first; below a power of two it stays there. -/
theorem xor_fold {k x y : Nat} (hx : x < 2 ^ k) (hy : y < 2 ^ k) : x ^^^ y < 2 ^ k ∧ (x ^^^ y) ^^^ y = x :=
  ⟨Nat.xor_lt_two_pow hx hy, by rw [Nat.xor_assoc, Nat.xor_self, Nat.xor_zero]⟩

/-- Two addresses in one 64-byte word differ in the offset alone. -/
theorem word_quotients (a : Nat) : a / 64 * 64 / 2 ^ 8 = a / 2 ^ 8 ∧ a / 64 * 64 / 2 ^ 11 = a / 2 ^ 11 ∧ a / 64 * 64 / 2 ^ 12 = a / 2 ^ 12 ∧
    a / 64 * 64 / 2 ^ 35 = a / 2 ^ 35 ∧ a / 64 * 64 / 2 ^ 38 = a / 2 ^ 38 ∧ a / 64 * 64 % 2 ^ 8 + a % 64 = a % 2 ^ 8 ∧
    a / 64 * 64 % 2 ^ 35 + a % 64 = a % 2 ^ 35 := by
  refine ⟨?_, ?_, ?_, ?_, ?_, ?_, ?_⟩ <;> omega

theorem locate_global (a : Nat) :
    locate 0 a = ((a / 2 ^ 8 % 16) ^^^ (a / 2 ^ 12 % 16), a / 2 ^ 12 % 2 ^ 27 * 2 ^ 8 + a % 2 ^ 8) := rfl

theorem locate_die (a : Nat) :
    locate 1 a = (8 * (a / 2 ^ 38 % 2) + ((a / 2 ^ 8 % 8) ^^^ (a / 2 ^ 12 % 8)), a / 2 ^ 11 % 2 ^ 27 * 2 ^ 8 + a % 2 ^ 8) := rfl

theorem locate_linear (a : Nat) : locate 2 a = (a / 2 ^ 35 % 16, a % 2 ^ 35) := rfl

/-- Channel and offset lie in the devices, and the address is what lies there. -/
theorem spineOf_locate {map a : Nat} (hmap : map < 3) (ha : a < memSize) :
    (locate map a).1 < 16 ∧ (locate map a).2 < 2 ^ 35 ∧ spineOf map (locate map a).1 (locate map a).2 = a := by
  unfold memSize at ha
  obtain rfl | rfl | rfl : map = 0 ∨ map = 1 ∨ map = 2 := by omega
  · obtain ⟨hlt, hfold⟩ := xor_fold (k := 4) (x := a / 2 ^ 8 % 16) (y := a / 2 ^ 12 % 16) (by omega) (by omega)
    rw [locate_global]
    dsimp only
    refine ⟨hlt, by omega, ?_⟩
    rw [spineOf, if_pos rfl, show (a / 2 ^ 12 % 2 ^ 27 * 2 ^ 8 + a % 2 ^ 8) / 2 ^ 8 % 16 = a / 2 ^ 12 % 16 by omega, hfold]
    omega
  · obtain ⟨hlt, hfold⟩ := xor_fold (k := 3) (x := a / 2 ^ 8 % 8) (y := a / 2 ^ 12 % 8) (by omega) (by omega)
    rw [locate_die]
    dsimp only
    generalize (a / 2 ^ 8 % 8) ^^^ (a / 2 ^ 12 % 8) = x at hlt hfold
    have hhalf : (a / 2 ^ 11 % 2 ^ 27 * 2 ^ 8 + a % 2 ^ 8) / 2 ^ 9 = a / 2 ^ 11 % 2 ^ 27 / 2 := by omega
    have hbits : a / 2 ^ 11 % 2 ^ 27 / 2 % 8 = a / 2 ^ 12 % 8 := by
      rw [show a / 2 ^ 12 = a / 2 ^ 11 / 2 by omega]
      generalize a / 2 ^ 11 = y
      omega
    refine ⟨by omega, by omega, ?_⟩
    rw [spineOf, if_neg (by decide), if_pos rfl, show (8 * (a / 2 ^ 38 % 2) + x) % 8 = x by omega, hhalf, hbits, hfold,
      show (8 * (a / 2 ^ 38 % 2) + x) / 8 = a / 2 ^ 38 % 2 by omega,
      show (a / 2 ^ 11 % 2 ^ 27 * 2 ^ 8 + a % 2 ^ 8) / 2 ^ 8 = a / 2 ^ 11 % 2 ^ 27 by omega,
      show (a / 2 ^ 11 % 2 ^ 27 * 2 ^ 8 + a % 2 ^ 8) % 2 ^ 8 = a % 2 ^ 8 by omega,
      show a / 2 ^ 38 % 2 = a / 2 ^ 11 / 2 ^ 27 by rw [Nat.div_div_eq_div_mul]; omega]
    have hhigh := Nat.div_add_mod (a / 2 ^ 11) (2 ^ 27)
    have hlow : a = a / 2 ^ 11 * 2 ^ 11 + a / 2 ^ 8 % 8 * 2 ^ 8 + a % 2 ^ 8 := by omega
    omega
  · rw [locate_linear]
    refine ⟨by omega, by omega, ?_⟩
    show a / 2 ^ 35 % 16 * 2 ^ 35 + a % 2 ^ 35 = a
    omega

/-- The bytes of a 64-byte word lie side by side in one channel. -/
theorem devicePlace_word {map : Nat} (hmap : map < 3) (a : Nat) : devicePlace map a = devicePlace map (a / 64 * 64) + a % 64 := by
  obtain ⟨h8, h11, h12, h35, h38, hlow8, hlow35⟩ := word_quotients a
  obtain rfl | rfl | rfl : map = 0 ∨ map = 1 ∨ map = 2 := by omega
  · simp only [devicePlace, locate_global, h8, h12]
    omega
  · simp only [devicePlace, locate_die, h8, h11, h12, h38]
    omega
  · simp only [devicePlace, locate_linear, h35]
    omega

/-- Settles O53: `spineOf` undoes `locate`, so that no place has two addresses. -/
theorem addressMapsAreOneToOne : Obligations.AddressMapsAreOneToOne := by
  intro map a hmap ha
  obtain ⟨hchan, hoff, hback⟩ := spineOf_locate hmap ha
  refine ⟨hchan, hoff, ?below, hback, ?inj, devicePlace_word hmap a⟩
  case below =>
    simp only [devicePlace, memSize]
    omega
  case inj =>
    intro b hb hplace
    obtain ⟨hchanB, hoffB, hbackB⟩ := spineOf_locate hmap hb
    simp only [devicePlace] at hplace
    rw [← hback, ← hbackB, show (locate map a).1 = (locate map b).1 by omega, show (locate map a).2 = (locate map b).2 by omega]

end Sys2Proof.Machine
end

section
/-! The exclusion table of maintenance (R324, R397): what excludes what, and that what runs stays apart. -/

namespace Sys2Proof.Machine

theorem excludes_symm (a b : Activity) : excludes a b = excludes b a := by
  cases a <;> cases b <;> simp only [excludes] <;> grind

theorem excludes_self (a : Activity) : excludes a a = false := by
  cases a <;> simp [excludes]

/-- The running activities exclude each other nowhere. -/
def State.RunApart (s : State) : Prop := ∀ a ∈ s.mm.running, ∀ b ∈ s.mm.running, excludes a b = false

/-- An activity that nothing holds back is excluded by none that runs. -/
theorem not_excludes_of_free {s : State} {a : Activity} {before : List Activity} (h : s.activityFree a before = true) :
    ∀ b ∈ s.mm.running, excludes a b = false := by
  unfold State.activityFree at h
  rw [Bool.not_eq_true', List.any_eq_false] at h
  exact fun b hb => eq_false_of_ne_true (h b (List.mem_append_left _ hb))

/-- One more activity that is excluded by none that runs. -/
theorem apart_append {l : List Activity} {a : Activity} (hl : ∀ x ∈ l, ∀ y ∈ l, excludes x y = false) (ha : ∀ b ∈ l, excludes a b = false) :
    ∀ x ∈ l ++ [a], ∀ y ∈ l ++ [a], excludes x y = false := by
  intro x hx y hy
  rcases List.mem_append.mp hx with hx | hx <;> rcases List.mem_append.mp hy with hy | hy
  · exact hl x hx y hy
  · rw [List.mem_singleton.mp hy, excludes_symm]
    exact ha x hx
  · rw [List.mem_singleton.mp hx]
    exact ha y hy
  · obtain rfl := List.mem_singleton.mp hx
    obtain rfl := List.mem_singleton.mp hy
    exact excludes_self _

theorem startable_free {s : State} {before l : List Activity} {a : Activity} (h : s.startable before l = some a) :
    ∃ held, s.activityFree a held = true := by
  induction l generalizing before with
  | nil => cases h
  | cons x r ih =>
    rw [State.startable] at h
    split at h
    · next hx => exact ⟨before, Option.some.inj h ▸ hx⟩
    · exact ih h

theorem requestActivity_apart {s : State} (h : s.RunApart) (a : Activity) : (s.requestActivity a).1.RunApart := by
  unfold State.requestActivity
  split
  · exact h
  · split
    · exact h
    · split
      · next hfree => exact apart_append h (not_excludes_of_free hfree)
      · exact h

/-- Settles O57: an activity starts only where none that runs excludes it, and the table is symmetric. -/
theorem excludedActivitiesNeverRunTogether : Obligations.ExcludedActivitiesNeverRunTogether := by
  refine ⟨excludes_symm, excludes_self, fun s a h => ⟨requestActivity_apart h a, fun x hx y hy => ?ended⟩, fun s a h hs => ?started⟩
  case ended => exact h x (List.mem_of_mem_erase hx) y (List.mem_of_mem_erase hy)
  case started =>
    obtain ⟨_, hfree⟩ := startable_free hs
    exact apart_append h (not_excludes_of_free hfree)

end Sys2Proof.Machine
end

section
/-! The taps of a transmitter (R321, R330): what a request and a fit leave. -/

namespace Sys2Proof.Machine

/-- The magnitudes of a lane's taps lie within their ranges, with C0 at 32 or more. -/
def Lane.TapsLegal (l : Lane) : Prop := l.cm3 ≤ 6 ∧ l.cm2 ≤ 12 ∧ l.cm1 ≤ 24 ∧ l.cp1 ≤ 16 ∧ 32 ≤ l.c0

theorem Lane.preset_legal (l : Lane) (k : Nat) : (l.preset k).TapsLegal := by
  unfold Lane.preset
  split
  · simp [Lane.TapsLegal, Lane.c0]
  · split
    · by_cases h : pam4 l.rate = true <;> simp [Lane.TapsLegal, Lane.c0, h]
    · simp [Lane.TapsLegal, Lane.c0]

/-- One tap within its range and C0 at 32 or more keep the rest as it was. -/
theorem Lane.setTap_legal {l : Lane} (h : l.TapsLegal) {t : Fin 4} {v : Nat} (hv : v ≤ tapMax t) (hc : 32 ≤ (l.setTap t v).c0) :
    (l.setTap t v).TapsLegal := by
  obtain ⟨h3, h2, h1, hp, -⟩ := h
  match t with
  | 0 => exact ⟨hv, h2, h1, hp, hc⟩
  | 1 => exact ⟨h3, hv, h1, hp, hc⟩
  | 2 => exact ⟨h3, h2, hv, hp, hc⟩
  | 3 => exact ⟨h3, h2, h1, hv, hc⟩

theorem Lane.tap_le {l : Lane} (h : l.TapsLegal) (t : Fin 4) : l.tap t ≤ tapMax t := by
  obtain ⟨h3, h2, h1, hp, -⟩ := h
  match t with
  | 0 => exact h3
  | 1 => exact h2
  | 2 => exact h1
  | 3 => exact hp

theorem Lane.tap_setTap_ne (l : Lane) {t u : Fin 4} (v : Nat) (h : u ≠ t) : (l.setTap t v).tap u = l.tap u := by
  match t, u with
  | 0, 0 | 1, 1 | 2, 2 | 3, 3 => exact absurd rfl h
  | 0, 1 | 0, 2 | 0, 3 | 1, 0 | 1, 2 | 1, 3 | 2, 0 | 2, 1 | 2, 3 | 3, 0 | 3, 1 | 3, 2 => rfl

/-- C0 and one tap share what the other taps leave of 64. -/
theorem Lane.c0_setTap (l : Lane) (t : Fin 4) (v : Nat) (h : 32 ≤ l.c0) : (l.setTap t v).c0 = l.c0 + l.tap t - v := by
  match t with
  | 0 | 1 | 2 | 3 => simp only [Lane.setTap, Lane.tap, Lane.c0] at *; omega

/-- What a request comes to: a preset, a refusal that changes nothing, or one unit of one tap within the ranges. -/
theorem Lane.request_cases (l : Lane) (preset : Nat) (t : Fin 4) (up : Bool) :
    (0 < preset ∧ l.request preset t up = (l.preset preset, ansUpdated)) ∨
    (∃ a, a ≠ ansUpdated ∧ l.request preset t up = (l, a)) ∨
    ∃ v, l.request preset t up = (l.setTap t v, ansUpdated) ∧
      ((v = l.tap t + 1 ∧ v ≤ tapMax t ∧ 32 ≤ (l.setTap t v).c0) ∨ v + 1 = l.tap t) := by
  unfold Lane.request
  split
  · next h => exact .inl ⟨h, rfl⟩
  · split
    · exact .inr (.inl ⟨_, by decide, rfl⟩)
    · dsimp only
      generalize (if t == 0 || t == 1 then up else !up) = grows
      split
      · split
        · exact .inr (.inl ⟨_, by decide, rfl⟩)
        · next h => exact .inr (.inr ⟨_, rfl, .inl ⟨rfl, by simp at h; omega, by simp at h; omega⟩⟩)
      · split
        · exact .inr (.inl ⟨_, by decide, rfl⟩)
        · next h => exact .inr (.inr ⟨_, rfl, .inr (by omega)⟩)

theorem Lane.request_legal {l : Lane} (h : l.TapsLegal) (preset : Nat) (t : Fin 4) (up : Bool) : (l.request preset t up).1.TapsLegal := by
  obtain ⟨-, -, -, -, hc⟩ := id h
  rcases l.request_cases preset t up with ⟨-, hr⟩ | ⟨a, -, hr⟩ | ⟨v, hr, ⟨-, hmax, hv⟩ | hv⟩ <;> rw [hr]
  · exact l.preset_legal preset
  · exact h
  · exact Lane.setTap_legal h hmax hv
  · have htap := Lane.tap_le h t
    have hc0 := l.c0_setTap t v hc
    exact Lane.setTap_legal h (by omega) (by omega)

/-! ## Taps written by the host -/

/-- Taking from one tap what the four have above 32 in all. -/
theorem fitTaps_taps (l : Lane) :
    let e := l.cm3 + l.cm2 + l.cm1 + l.cp1 - 32
    (fitTaps l).cm3 = l.cm3 - e ∧ (fitTaps l).cm2 = l.cm2 - (e - l.cm3) ∧ (fitTaps l).cp1 = l.cp1 - (e - l.cm3 - l.cm2) ∧
      (fitTaps l).cm1 = l.cm1 - (e - l.cm3 - l.cm2 - l.cp1) := by
  intro e
  simp only [fitTaps]
  refine ⟨rfl, ?_, ?_, ?_⟩ <;> omega

/-- Settles O46: a request is a preset, a refusal, or one unit of one tap that was tested against the ranges. -/
theorem tapsStayInRange : Obligations.TapsStayInRange := by
  unfold Obligations.TapsStayInRange
  refine ⟨fun l preset t up h3 h2 h1 hp hc => ?request, fun l h3 h2 h1 hp => ?fit⟩
  case request =>
    obtain ⟨k3, k2, k1, kp, kc⟩ := Lane.request_legal ⟨h3, h2, h1, hp, hc⟩ preset t up
    refine ⟨k3, k2, k1, kp, kc, ?_, ?_⟩
    · rcases l.request_cases preset t up with ⟨-, hr⟩ | ⟨a, -, hr⟩ | ⟨v, hr, -⟩ <;> rw [hr]
      · exact fun hne => absurd rfl hne
      · exact fun _ => rfl
      · exact fun hne => absurd rfl hne
    · intro hpreset
      rcases l.request_cases preset t up with ⟨hpos, -⟩ | ⟨a, ha, hr⟩ | ⟨v, hr, hv⟩
      · omega
      · rw [hr]
        exact fun h => absurd h ha
      · rw [hr]
        have hc0 := l.c0_setTap t v hc
        exact fun _ => ⟨by dsimp only; omega, fun u hu => l.tap_setTap_ne v hu⟩
  case fit =>
    obtain ⟨f3, f2, fp, f1⟩ := fitTaps_taps l
    refine ⟨by rw [Lane.c0]; omega, fun hc hsum => ?_, by omega, by omega⟩
    simp only [fitTaps, show l.cm3 + l.cm2 + l.cm1 + l.cp1 - 32 = 0 by omega, Nat.sub_zero]

end Sys2Proof.Machine
end

section
/-! The two ends of a link (R338, R339): what a receipt delivers, and what a pump sends. -/

namespace Sys2Proof.Machine

/-! ## Receipt -/

@[simp] theorem LinkEnd.acknowledge_expect (l : LinkEnd) (f : StfFrame) : (l.acknowledge f).expect = l.expect := by
  unfold LinkEnd.acknowledge
  dsimp only
  split <;> rfl

/-- A frame is discarded unread, taken as IDLE, delivered in order, or discarded out of order. -/
theorem LinkEnd.receive_cases (l : LinkEnd) (f : StfFrame) (ok : Bool) :
    ((ok = false ∨ 2 < f.type ∨ 8 < f.payload.length) ∧ l.receive f ok = { link := { l with nak := true }, discarded := true }) ∨
    ((ok = true ∧ f.type ≤ 2 ∧ f.payload.length ≤ 8) ∧ ∃ m re, m.expect = l.expect ∧
      ((f.type = 0 ∧ l.receive f ok = { link := m, resend := re }) ∨
       (f.type ≠ 0 ∧ f.seq = l.expect ∧
          l.receive f ok = { link := { m with expect := (l.expect + 1) % 4096, nak := false }, deliver := true, resend := re }) ∨
       (f.type ≠ 0 ∧ f.seq ≠ l.expect ∧ l.receive f ok = { link := { m with nak := true }, discarded := true, resend := re }))) := by
  unfold LinkEnd.receive
  split
  · next h =>
    rw [Bool.or_eq_true, Bool.or_eq_true, Bool.not_eq_true', decide_eq_true_eq, decide_eq_true_eq, or_assoc] at h
    exact .inl ⟨h, rfl⟩
  · next h =>
    rw [Bool.or_eq_true, Bool.or_eq_true, Bool.not_eq_true', decide_eq_true_eq, decide_eq_true_eq, or_assoc] at h
    obtain ⟨hok, hrest⟩ := not_or.mp h
    obtain ⟨htype, hlen⟩ := not_or.mp hrest
    refine .inr ⟨⟨eq_true_of_ne_false hok, Nat.not_lt.mp htype, Nat.not_lt.mp hlen⟩, l.acknowledge f, f.nak && !(l.acknowledge f).held.isEmpty, l.acknowledge_expect f, ?_⟩
    simp only [LinkEnd.acknowledge_expect]
    by_cases h0 : f.type = 0
    · exact .inl ⟨h0, if_pos h0⟩
    · rw [if_neg h0]
      by_cases hseq : f.seq = l.expect
      · exact .inr (.inl ⟨h0, hseq, if_pos hseq⟩)
      · exact .inr (.inr ⟨h0, hseq, if_neg hseq⟩)

/-! ## Sending -/

theorem takeFrame_some {p : StfFrame → Bool} {l rest : List StfFrame} {f : StfFrame} (h : takeFrame p l = some (f, rest)) : p f = true := by
  induction l generalizing rest with
  | nil => cases h
  | cons x r ih =>
    rw [takeFrame] at h
    split at h
    · next hp => exact (Prod.mk.inj (Option.some.inj h)).1 ▸ hp
    · obtain ⟨q, hq, heq⟩ := Option.map_eq_some_iff.mp h
      obtain ⟨rfl, -⟩ := Prod.mk.inj heq
      exact ih hq

theorem orElse_some {α : Type} {x y : Option α} {a : α} (h : (x <|> y) = some a) : x = some a ∨ x = none ∧ y = some a := by
  cases x with
  | none => exact .inr ⟨rfl, h⟩
  | some b => exact .inl h

theorem takeClass_cls {cls : Nat} {l rest : List StfFrame} {f : StfFrame} (h : takeClass cls l = some (f, rest)) : f.cls = cls := by
  unfold takeClass at h
  rcases orElse_some h with h | ⟨-, h⟩
  · have := takeFrame_some h
    simp at this
    exact this.1
  · simpa using takeFrame_some h

theorem LinkEnd.credit_setCredit (l : LinkEnd) {cls k : Nat} (hc : cls < 3) (hk : k < 3) (n : Nat) :
    (l.setCredit cls n).credit k = if k = cls then n else l.credit k := by
  obtain rfl | rfl | rfl : cls = 0 ∨ cls = 1 ∨ cls = 2 := by omega
  all_goals obtain rfl | rfl | rfl : k = 0 ∨ k = 1 ∨ k = 2 := by omega
  all_goals rfl

/-- One frame sent: it takes the next number and the credit of its class, and is held. -/
structure LinkEnd.Sends (l l' : LinkEnd) (f : StfFrame) : Prop where
  seq : f.seq = l.nextSeq
  next : l'.nextSeq = (l.nextSeq + 1) % 4096
  held : l'.held = l.held ++ [f]
  room : l.held.length < 1024
  credit : ∀ k, k < 3 → l'.credit k + (if f.cls = k then stfUnits f else 0) = l.credit k

theorem LinkEnd.sendClass_some {l l' : LinkEnd} {cls : Nat} {f : StfFrame} (hc : cls < 3) (h : l.sendClass cls = some (l', f)) :
    l.Sends l' f := by
  unfold LinkEnd.sendClass at h
  split at h
  · cases h
  · next g rest hg =>
    split at h
    · cases h
    · next hroom =>
      obtain ⟨rfl, rfl⟩ := Prod.mk.inj (Option.some.inj h)
      have hcls := takeClass_cls hg
      refine ⟨rfl, rfl, rfl, by omega, fun k hk => ?_⟩
      show (l.setCredit cls (l.credit cls - stfUnits g)).credit k + (if g.cls = k then stfUnits g else 0) = l.credit k
      rw [l.credit_setCredit hc hk, hcls]
      by_cases hkc : k = cls
      · subst hkc
        rw [if_pos rfl, if_pos rfl]
        omega
      · rw [if_neg hkc, if_neg (Ne.symm hkc), Nat.add_zero]

theorem LinkEnd.sendNext_some {l l' : LinkEnd} {f : StfFrame} (h : l.sendNext = some (l', f)) : l.Sends l' f := by
  unfold LinkEnd.sendNext at h
  rcases orElse_some h with h | ⟨-, h⟩
  · exact LinkEnd.sendClass_some (by decide) h
  · rcases orElse_some h with h | ⟨-, h⟩ <;> exact LinkEnd.sendClass_some (by decide) h

/-- What a pump sends is held, numbered on from the next number, and paid from the credit of its class. -/
theorem LinkEnd.pump_sends (fuel : Nat) (l : LinkEnd) (acc : List StfFrame) (h : l.held.length ≤ 1024) :
    ∃ sent, (l.pump fuel acc).2 = acc ++ sent ∧ (l.pump fuel acc).1.held = l.held ++ sent ∧ (l.pump fuel acc).1.held.length ≤ 1024 ∧
      (∀ i, i < sent.length → (sent.map (·.seq))[i]? = some (if i = 0 then l.nextSeq else (l.nextSeq + i) % 4096)) ∧
      ∀ cls, cls < 3 → (l.pump fuel acc).1.credit cls + ((sent.filter (fun f => f.cls == cls)).map stfUnits).sum = l.credit cls := by
  induction fuel generalizing l acc with
  | zero => exact ⟨[], by simp [LinkEnd.pump], by simp [LinkEnd.pump], h, by simp, by simp [LinkEnd.pump]⟩
  | succ n ih =>
    rw [LinkEnd.pump]
    split
    · exact ⟨[], by simp, by simp, h, by simp, by simp⟩
    · next l' f hsend =>
      obtain ⟨hseq, hnext, hheld, hroom, hcredit⟩ := LinkEnd.sendNext_some hsend
      obtain ⟨sent, hacc, hheld', hlen, hnum, hpaid⟩ := ih l' (acc ++ [f]) (by rw [hheld, List.length_append, List.length_singleton]; omega)
      refine ⟨f :: sent, by rw [hacc, List.append_assoc, List.singleton_append], by rw [hheld', hheld, List.append_assoc, List.singleton_append],
        hlen, fun i hi => ?_, fun cls hcls => ?_⟩
      · cases i with
        | zero => rw [List.map_cons, List.getElem?_cons_zero, hseq, if_pos rfl]
        | succ i =>
          rw [List.map_cons, List.getElem?_cons_succ, hnum i (Nat.lt_of_succ_lt_succ hi), hnext, if_neg (Nat.succ_ne_zero i)]
          split <;> (congr 1; omega)
      · have hf := hcredit cls hcls
        have hrest := hpaid cls hcls
        rw [List.filter_cons]
        by_cases hc : f.cls = cls
        · rw [if_pos (by simpa using hc), List.map_cons, List.sum_cons]
          rw [if_pos hc] at hf
          omega
        · rw [if_neg (by simpa using hc)]
          rw [if_neg hc] at hf
          omega

/-- Settles O49: the four ends of a receipt, and an induction over the frames a pump sends. -/
theorem linkEndsKeepOrder : Obligations.LinkEndsKeepOrder := by
  unfold Obligations.LinkEndsKeepOrder
  refine ⟨fun l f ok h => ?delivered, fun l f ok h => ?kept, fun l f htype hseq hlen => ?resend, fun l fuel acc h => ?pump⟩
  case delivered =>
    rcases l.receive_cases f ok with ⟨-, hr⟩ | ⟨⟨hok, htype, hlen⟩, m, re, -, ⟨-, hr⟩ | ⟨h0, hseq, hr⟩ | ⟨-, -, hr⟩⟩ <;> rw [hr] at h ⊢
    · cases h
    · cases h
    · exact ⟨hok, by omega, hlen, hseq, rfl, rfl⟩
    · cases h
  case kept =>
    rcases l.receive_cases f ok with ⟨-, hr⟩ | ⟨-, m, re, hm, ⟨-, hr⟩ | ⟨-, -, hr⟩ | ⟨-, -, hr⟩⟩ <;> rw [hr] at h ⊢
    · exact hm
    · cases h
    · exact hm
  case resend =>
    rcases l.receive_cases f true with ⟨hbad, -⟩ | ⟨-, m, re, -, ⟨h0, -⟩ | ⟨-, heq, -⟩ | ⟨-, -, hr⟩⟩
    · rcases hbad with hbad | hbad | hbad
      · cases hbad
      · omega
      · omega
    · omega
    · exact absurd heq hseq
    · rw [hr]
      exact ⟨rfl, rfl⟩
  case pump =>
    obtain ⟨sent, hacc, hheld, hlen, hnum, hpaid⟩ := l.pump_sends fuel acc h
    refine ⟨sent, hacc, hheld, hlen, fun i hi => ?_, hpaid⟩
    rw [hnum i hi]
    split
    · next h0 => exact .inr ⟨h0, rfl⟩
    · exact .inl rfl

end Sys2Proof.Machine
end

section
/-! The lands of the module (R452 to R455): each land of a signal has one place. -/

namespace Sys2Proof.Machine

/-- The place of a management, control or timing signal. -/
def Pin.place : Pin → Nat × Nat
  | .rgmiiTxc => (58, 2) | .rgmiiTxctl => (58, 3) | .rgmiiTxd i => (58, 4 + i)
  | .rgmiiRxc => (58, 9) | .rgmiiRxctl => (58, 10) | .rgmiiRxd i => (58, 11 + i)
  | .mdc => (58, 16) | .mdio => (58, 17)
  | .pwrEn => (60, 2) | .pgood => (60, 3) | .alertN => (60, 4) | .thermN => (60, 5) | .resetN => (60, 7)
  | .wrstN => (60, 8) | .freezeN => (60, 10) | .trig line => (60, 12 + line) | .perstN => (60, 17) | .peWakeN => (60, 18)
  | .tck => (62, 2) | .tms => (62, 3) | .tdi => (62, 4) | .tdo => (62, 5) | .trstN => (62, 6)
  | .smbScl => (62, 8) | .smbSda => (62, 9) | .uartTx => (62, 11) | .uartRx => (62, 12)
  | .ppsOut => (5, 61) | .synceOut neg => (7, 52 + b2n neg) | .synceIn neg => (7, 56 + b2n neg)
  | .trefIn => (7, 59) | .ppsIn => (7, 61)

/-- The place of what a land carries, by the tables; GND and VIN have none. -/
def Land.place : Land → Option (Nat × Nat)
  | .gnd | .vin => none
  | .laneTx n neg => some (if n < 48 then (n + 9, 2 + b2n neg) else (n - 39, 61 - b2n neg))
  | .laneRx n neg => some (if n < 48 then (n + 9, 6 + b2n neg) else (n - 39, 57 - b2n neg))
  | .peTx m neg => some (1, 3 + 3 * m + b2n neg)
  | .peRx m neg => some (4, 3 + 3 * m + b2n neg)
  | .peRefclk neg => some (1, 52 + b2n neg)
  | .signal p => some p.place

theorem controlLand_place {r c : Nat} {p : Pin} (h : controlLand r c = some p) : p.place = (r, c) := by
  unfold controlLand at h
  split at h
  case h_25 =>
    split at h
    · cases h
      exact Prod.ext rfl (by simp only [Pin.place]; omega)
    · split at h
      · cases h
        exact Prod.ext rfl (by simp only [Pin.place]; omega)
      · cases h
  case h_26 =>
    split at h
    · cases h
      exact Prod.ext rfl (by simp only [Pin.place]; omega)
    · cases h
  all_goals
    cases h
    try rfl

theorem timingLand_place {r c : Nat} {p : Pin} (h : timingLand r c = some p) : p.place = (r, c) := by
  unfold timingLand at h
  split at h
  all_goals
    cases h
    try rfl

theorem laneLand_place {r c : Nat} {x : Land} (h : laneLand r c = some x) : x.place = some (r, c) := by
  unfold laneLand at h
  split at h
  · cases h
  · next hr =>
    split at h
    case h_1 | h_2 | h_3 | h_4 =>
      cases h
      rw [Land.place, if_pos (by omega), show r - 9 + 9 = r by omega]
      rfl
    case h_5 | h_6 | h_7 | h_8 =>
      cases h
      rw [Land.place, if_neg (by omega), Nat.add_sub_cancel]
      rfl
    case h_9 => cases h

/-- A pair of PCIe lands: every third column from 3 on has none. -/
theorem pcie_column {c : Nat} (h : (decide (3 ≤ c) && decide (c ≤ 49) && (c - 3) % 3 != 2) = true) :
    3 + 3 * ((c - 3) / 3) + b2n ((c - 3) % 3 == 1) = c := by
  simp only [Bool.and_eq_true, decide_eq_true_eq, bne_iff_ne] at h
  by_cases h1 : (c - 3) % 3 = 1
  · simp only [h1, beq_self_eq_true, b2n, if_true]
    omega
  · simp only [beq_eq_false_iff_ne.mpr h1, b2n, Bool.false_eq_true, if_false]
    omega

theorem pcieLand_place {r c : Nat} {x : Land} (h : pcieLand r c = some x) : x.place = some (r, c) := by
  unfold pcieLand at h
  dsimp only at h
  split at h
  · split at h
    · next hc => cases h; rw [hc]; rfl
    · split at h
      · next hc => cases h; rw [hc]; rfl
      · split at h
        · next hpair => cases h; rw [Land.place, pcie_column hpair]
        · cases h
  · split at h
    · next hpair => cases h; rw [Land.place, pcie_column hpair]
    · cases h
  · cases h

/-- A land that is neither GND nor VIN lies where its signal has its place. -/
theorem landAt_place {r c : Nat} (hg : landAt r c ≠ .gnd) (hv : landAt r c ≠ .vin) : (landAt r c).place = some (r, c) := by
  unfold landAt at *
  split at hg
  · next h => exact absurd (if_pos h) hv
  · next h =>
    rw [if_neg h]
    split
    · next l hl =>
      rcases Option.or_eq_some_iff.mp hl with hl | ⟨-, hl⟩
      · exact laneLand_place hl
      · exact pcieLand_place hl
    · split
      · next p hp =>
        rcases Option.or_eq_some_iff.mp hp with hp | ⟨-, hp⟩
        · exact congrArg some (controlLand_place hp)
        · exact congrArg some (timingLand_place hp)
      · next hp hl => simp_all

theorem landAt_of_laneLand {r c : Nat} {x : Land} (hcol : c < 28 ∨ 35 < c) (h : laneLand r c = some x) : landAt r c = x := by
  rw [landAt, if_neg (by omega), h]
  rfl

theorem laneLand_west {n : Nat} (h : n < 48) (neg : Bool) :
    laneLand (n + 9) (2 + b2n neg) = some (.laneTx n neg) ∧ laneLand (n + 9) (6 + b2n neg) = some (.laneRx n neg) := by
  have hrow : ¬(n + 9 < 9 ∨ 56 < n + 9) := by omega
  cases neg <;> exact ⟨if_neg hrow, if_neg hrow⟩

theorem laneLand_east {n : Nat} (h : 48 ≤ n) (hn : n < 96) (neg : Bool) :
    laneLand (n - 39) (61 - b2n neg) = some (.laneTx n neg) ∧ laneLand (n - 39) (57 - b2n neg) = some (.laneRx n neg) := by
  obtain ⟨m, rfl⟩ := Nat.exists_eq_add_of_le' (show 39 ≤ n by omega)
  have hrow : ¬(m + 39 - 39 < 9 ∨ 56 < m + 39 - 39) := by omega
  cases neg <;> exact ⟨if_neg hrow, if_neg hrow⟩

/-- Settles O59: by the place of each signal, and a lane's row on its side of the module. -/
theorem landsAndPins : Obligations.LandsAndPins := by
  unfold Obligations.LandsAndPins
  refine ⟨?unique, ?lanes, ⟨rfl, rfl, rfl, rfl, rfl⟩, ?levels⟩
  case unique =>
    intro r c r' c' _ _ _ _ _ _ _ _ heq hg hv
    have hplace := landAt_place hg hv
    rw [heq] at hplace hg hv
    exact Prod.mk.inj (Option.some.inj (hplace.symm.trans (landAt_place hg hv)))
  case lanes =>
    intro n neg hn
    have hneg : b2n neg ≤ 1 := by cases neg <;> decide
    by_cases hwest : n < 48
    · obtain ⟨htx, hrx⟩ := laneLand_west hwest neg
      exact ⟨n + 9, 2 + b2n neg, by omega, by omega, by omega, by omega, landAt_of_laneLand (by omega) htx,
        6 + b2n neg, by omega, by omega, landAt_of_laneLand (by omega) hrx⟩
    · obtain ⟨htx, hrx⟩ := laneLand_east (Nat.le_of_not_lt hwest) hn neg
      exact ⟨n - 39, 61 - b2n neg, by omega, by omega, by omega, by omega, landAt_of_laneLand (by omega) htx,
        57 - b2n neg, by omega, by omega, landAt_of_laneLand (by omega) hrx⟩
  case levels =>
    intro s
    refine ⟨?_, rfl, rfl, rfl, rfl, rfl, fun n h => if_pos h, fun n h => if_neg (by simp [h])⟩
    simp only [State.pinLevel]
    cases s.railsGood <;> rfl

end Sys2Proof.Machine
end

section
/-! The choice of the image (R428 to R430): what ends a trial, and what the boot ROM's tries leave. -/

namespace Sys2Proof.Machine

/-! ## Slots -/

/-- Every number but 0 names slot B. -/
theorem ColState.slot_setSlot (c : ColState) (k j : Nat) (x : ImageSlot) :
    (c.setSlot k x).slot j = if j = 0 ↔ k = 0 then x else c.slot j := by
  unfold ColState.setSlot ColState.slot
  by_cases hk : k = 0 <;> by_cases hj : j = 0 <;> simp [hk, hj]

theorem ColState.slot_congr (c : ColState) {k j : Nat} (h : j = 0 ↔ k = 0) : c.slot j = c.slot k := by
  unfold ColState.slot
  simp only [h]

/-- `d` is `c` but that trials may have ended, or another slot runs. -/
structure ColState.EndsTrials (c d : ColState) : Prop where
  fusedSvn : d.fusedSvn = c.fusedSvn
  records : d.records = c.records
  bootCount : d.bootCount = c.bootCount
  genuine : ∀ k, (d.slot k).genuine = (c.slot k).genuine
  svn : ∀ k, (d.slot k).svn = (c.slot k).svn
  empty : ∀ k, (d.slot k).mode = .empty ↔ (c.slot k).mode = .empty
  trial : ∀ k, (d.slot k).mode = .trial → (c.slot k).mode = .trial

theorem ColState.EndsTrials.refl (c : ColState) : c.EndsTrials c :=
  ⟨rfl, rfl, rfl, fun _ => rfl, fun _ => rfl, fun _ => .rfl, fun _ => id⟩

theorem ColState.EndsTrials.trans {a b c : ColState} (h : a.EndsTrials b) (g : b.EndsTrials c) : a.EndsTrials c where
  fusedSvn := g.fusedSvn.trans h.fusedSvn
  records := g.records.trans h.records
  bootCount := g.bootCount.trans h.bootCount
  genuine k := (g.genuine k).trans (h.genuine k)
  svn k := (g.svn k).trans (h.svn k)
  empty k := (g.empty k).trans (h.empty k)
  trial k := h.trial k ∘ g.trial k

/-- A slot on trial that reads VALID instead. -/
theorem ColState.setValid_endsTrials {c : ColState} {k : Nat} (h : (c.slot k).mode = .trial) :
    c.EndsTrials (c.setSlot k { c.slot k with mode := .valid }) := by
  have hslot : ∀ j, (c.setSlot k { c.slot k with mode := .valid }).slot j = { c.slot j with mode := .valid } ∧ (c.slot j).mode = .trial ∨
      (c.setSlot k { c.slot k with mode := .valid }).slot j = c.slot j := fun j => by
    rw [ColState.slot_setSlot]
    split
    · next hjk => exact .inl ⟨by rw [c.slot_congr hjk], c.slot_congr hjk ▸ h⟩
    · exact .inr rfl
  refine ⟨?_, ?_, ?_, fun j => ?_, fun j => ?_, fun j => ?_, fun j => ?_⟩
  all_goals try (unfold ColState.setSlot; split <;> rfl)
  all_goals rcases hslot j with ⟨hj, hmode⟩ | hj <;> rw [hj]
  · simp [hmode]
  · exact fun _ => hmode
  · exact id

theorem ColState.endTrial_endsTrials (c : ColState) (k : Nat) : c.EndsTrials (c.endTrial k) := by
  unfold ColState.endTrial
  split
  · next h => exact ColState.setValid_endsTrials (by simpa using h)
  · exact .refl c

theorem ColState.endTrial_ne_trial (c : ColState) (k : Nat) : ((c.endTrial k).slot k).mode ≠ .trial := by
  unfold ColState.endTrial
  split
  · rw [ColState.slot_setSlot, if_pos .rfl]
    exact nofun
  · next h => simpa using h

theorem ColState.EndsTrials.bootable {c d : ColState} (h : c.EndsTrials d) (k : Nat) : d.bootable k = c.bootable k := by
  have hmode : ((d.slot k).mode != .empty) = ((c.slot k).mode != .empty) := by
    rw [bne, bne, Bool.not_inj_iff, Bool.eq_iff_iff, beq_iff_eq, beq_iff_eq]
    exact h.empty k
  simp only [ColState.bootable, hmode, h.genuine k, h.svn k, h.fusedSvn]

theorem ColState.bootable_iff (c : ColState) (k : Nat) :
    c.bootable k = true ↔ (c.slot k).mode ≠ .empty ∧ (c.slot k).genuine = true ∧ c.fusedSvn ≤ (c.slot k).svn ∧ (c.slot k).svn ≤ 64 := by
  simp [ColState.bootable, and_assoc]

/-! ## The tries -/

/-- The colophon with slot `k` booted. -/
def ColState.bootedFrom (d : ColState) (k : Nat) : ColState :=
  { d with
    running := k, trialBooted := (d.slot k).mode == .trial, serhamUp := true, recovery := false, bootCount := d.bootCount + 1,
    alertLow := false, thermLow := false }

/-- The tries boot a bootable slot of the list, or leave Serham in recovery with none bootable. -/
theorem ColState.tryBoot_cases (c : ColState) (l : List Nat) :
    ∃ d : ColState, c.EndsTrials d ∧ ((∃ k ∈ l, d.bootable k = true ∧ c.tryBoot l = d.bootedFrom k) ∨
      ((∀ k ∈ l, c.bootable k = false) ∧ c.tryBoot l = { d with recovery := true, serhamUp := false })) := by
  induction l generalizing c with
  | nil => exact ⟨c, .refl c, .inr ⟨fun k hk => absurd hk List.not_mem_nil, rfl⟩⟩
  | cons k r ih =>
    rw [ColState.tryBoot]
    split
    · next hboot => exact ⟨c, .refl c, .inl ⟨k, List.mem_cons_self, hboot, rfl⟩⟩
    · next hboot =>
      have hends := c.endTrial_endsTrials k
      obtain ⟨d, hd, hcases⟩ := ih (c.endTrial k)
      refine ⟨d, hends.trans hd, hcases.imp (fun ⟨j, hj, hrest⟩ => ⟨j, List.mem_cons_of_mem _ hj, hrest⟩) fun ⟨hnone, heq⟩ => ⟨?_, heq⟩⟩
      exact List.forall_mem_cons.mpr ⟨eq_false_of_ne_true hboot, fun j hj => hends.bootable j ▸ hnone j hj⟩

/-- The slots are tried once each. -/
theorem ColState.mem_bootOrder (c : ColState) (k : Nat) : k ∈ c.bootOrder ↔ k < 2 := by
  have h01 : k ∈ ([0, 1] : List Nat) ↔ k < 2 := by
    simp
    omega
  rw [← h01]
  simp only [ColState.bootOrder, List.mem_append, List.mem_filter, Bool.not_eq_true', ← Bool.not_eq_true, List.contains_iff_mem]
  exact ⟨fun h => h.elim (fun h => h.elim And.left And.left) And.left, fun h => (Classical.em _).imp_right fun hn => ⟨h, hn⟩⟩

/-- The colophon as the slots are tried: a trial that was booted once and not confirmed is over. -/
def ColState.beforeTries (c : ColState) : ColState := if c.trialBooted then { c.endTrial c.running with trialBooted := false } else c

theorem ColState.boot_eq (c : ColState) : c.boot = c.beforeTries.tryBoot c.beforeTries.bootOrder := rfl

theorem ColState.beforeTries_endsTrials (c : ColState) : c.EndsTrials c.beforeTries := by
  unfold ColState.beforeTries
  split
  · have h := c.endTrial_endsTrials c.running
    exact ⟨h.fusedSvn, h.records, h.bootCount, h.genuine, h.svn, h.empty, h.trial⟩
  · exact .refl c

theorem ColState.beforeTries_ne_trial {c : ColState} (h : c.trialBooted = true) : (c.beforeTries.slot c.running).mode ≠ .trial := by
  rw [ColState.beforeTries, if_pos h]
  exact c.endTrial_ne_trial c.running

/-- A boot ends trials, and boots a slot that its test passes, or none where none passes. -/
theorem ColState.boot_cases (c : ColState) :
    ∃ d : ColState, c.beforeTries.EndsTrials d ∧ ((∃ k < 2, d.bootable k = true ∧ c.boot = d.bootedFrom k) ∨
      ((∀ k < 2, c.bootable k = false) ∧ c.boot = { d with recovery := true, serhamUp := false })) := by
  rw [ColState.boot_eq]
  obtain ⟨d, hd, ⟨k, hk, hboot, heq⟩ | ⟨hnone, heq⟩⟩ := c.beforeTries.tryBoot_cases c.beforeTries.bootOrder
  · exact ⟨d, hd, .inl ⟨k, (ColState.mem_bootOrder _ k).mp hk, hboot, heq⟩⟩
  · refine ⟨d, hd, .inr ⟨fun k hk => ?_, heq⟩⟩
    rw [← c.beforeTries_endsTrials.bootable k]
    exact hnone k ((ColState.mem_bootOrder _ k).mpr hk)

/-- Settles O60: a boot ends trials and changes no slot besides, and boots a slot that it tested. -/
theorem onlyAllowedImagesBoot : Obligations.OnlyAllowedImagesBoot := by
  intro c
  obtain ⟨d, hd, hcases⟩ := c.boot_cases
  have hends := c.beforeTries_endsTrials.trans hd
  have hunconfirmed : c.trialBooted = true → (d.slot c.running).mode ≠ .trial := fun h =>
    ColState.beforeTries_ne_trial h ∘ hd.trial c.running
  rcases hcases with ⟨k, hk, hboot, heq⟩ | ⟨hnone, heq⟩ <;> rw [heq]
  · obtain ⟨hmode, hgenuine, hsvn, -⟩ := (d.bootable_iff k).mp hboot
    exact ⟨fun _ => ⟨hk, hboot, hgenuine, hmode, hends.fusedSvn ▸ hsvn, rfl, congrArg (· + 1) hends.bootCount⟩, nofun,
      hends.fusedSvn, hends.records, fun j _ => hends.trial j, fun h _ => hunconfirmed h⟩
  · exact ⟨nofun, fun _ => ⟨rfl, hnone 0 (by decide), hnone 1 (by decide)⟩, hends.fusedSvn, hends.records,
      fun j _ => hends.trial j, fun h _ => hunconfirmed h⟩

end Sys2Proof.Machine
end

section
/-! A MOVE on a state whose record of clusters lists one cluster twice. -/

namespace Sys2Proof.Machine

/-- A MOVE of one byte within quire 0, from 0x10000200000 to the byte behind it. -/
def oneByteMove : DmaMove :=
  { src := 0x10000200000, sw := 0, dst := 0x10000200001, dw := 0, host := [], parts := [(0, 1)], srcCur := 0, dstCur := 0 }

/-- A program that stands in the MOVE of one byte. -/
def oneByteProg : DmaProg :=
  { origin := .item false 0 0 0xFFFF, tag := 0, prog := 0, carrier := 0xFFFF, half := .ul, slotNum := 0, started := true,
    move := some oneByteMove }

/-- Cluster 0 naps by its first entry; a second entry of the same key, isolated, lies behind it. -/
def twiceListed : State :=
  { mem := [(0x10000200000, 1)], pwr.clusters := [(0, { mode := .nap }), (0, { isolated := true })],
    dma.chans := [(0, { list := [oneByteProg] })] }

theorem twiceListed_move_copies_nothing :
    (twiceListed.serveBursts 0 (twiceListed.burstsLeft 0)).byte 0x10000200001 ≠ twiceListed.byte 0x10000200000 := by
  decide +kernel

theorem twiceListed_other_channels_idle (k : Nat) (h : k ≠ 0) : (twiceListed.chan k).moving = none := by
  have hchan : twiceListed.chan k = {} := by
    show mapGet _ [(0, _)] k = _
    rw [mapGet, if_neg (Ne.symm h), mapGet]
  rw [hchan]
  rfl

/-- Refutes O39: the canonical form covers memory and registers, not the record of clusters. In `twiceListed` the read of the MOVE wakes
cluster 0, its entry becomes the default and is taken out of the record, and the entry behind it, isolated, answers the write with
a bus error: the program ends BAD and its byte is not copied. -/
theorem not_moveSemantics : ¬ Obligations.MoveSemantics := by
  intro h
  obtain ⟨-, hcopied, -⟩ := h twiceListed 0 0 1 oneByteProg oneByteMove ⟨by decide, by decide⟩ (by decide) (by decide) (by decide) rfl
    rfl rfl Nat.one_pos (by decide) (fun k _ hk => twiceListed_other_channels_idle k hk) (by decide) (by decide) (by decide) (by decide)
  exact twiceListed_move_copies_nothing (hcopied 0 Nat.one_pos)

end Sys2Proof.Machine
end

section
/-! Fields of words, and writes of registers that hold a value (R3 to R9). -/

namespace Sys2Proof.Machine

/-- A command of the clocked module is what its body does while the clocks run. -/
theorem exec_of_clocked {s : State} (h : s.clocked = true) {c : Instr} {r : Res} (hc : exec c s = if s.clocked then r else .next s) :
    exec c s = r := by
  rw [hc, if_pos h]

/-! ## Fields of words -/

theorem bitsOf_lt {w : Nat} (x : BitVec w) (hi lo : Nat) : bitsOf x hi lo < 2 ^ (hi + 1 - lo) := Nat.mod_lt _ (Nat.two_pow_pos _)

/-- A narrower word has the fields that lie within it. -/
theorem bitsOf_setWidth {w m hi : Nat} (x : BitVec w) (lo : Nat) (hm : hi < m) : bitsOf (x.setWidth m) hi lo = bitsOf x hi lo := by
  refine Nat.eq_of_testBit_eq fun i => ?_
  simp only [bitsOf, BitVec.toNat_setWidth, Nat.testBit_mod_two_pow, Nat.testBit_div_two_pow]
  by_cases hin : i < hi + 1 - lo
  · rw [decide_eq_true (show i + lo < m by omega), Bool.true_and]
  · rw [decide_eq_false hin, Bool.false_and, Bool.false_and]

/-- A word split at a field: what lies above, the field, what lies below. -/
theorem toNat_split {w : Nat} (x : BitVec w) {hi lo : Nat} (h : lo ≤ hi) :
    x.toNat = x.toNat / 2 ^ (hi + 1) * 2 ^ (hi + 1) + bitsOf x hi lo * 2 ^ lo + x.toNat % 2 ^ lo := by
  have hpow : 2 ^ (hi + 1) = 2 ^ lo * 2 ^ (hi + 1 - lo) := by rw [← Nat.pow_add]; congr 1; omega
  have hlow := Nat.div_add_mod x.toNat (2 ^ lo)
  have hhigh := Nat.div_add_mod (x.toNat / 2 ^ lo) (2 ^ (hi + 1 - lo))
  rw [Nat.div_div_eq_div_mul, ← hpow] at hhigh
  unfold bitsOf
  calc x.toNat = 2 ^ lo * (2 ^ (hi + 1 - lo) * (x.toNat / 2 ^ (hi + 1)) + x.toNat / 2 ^ lo % 2 ^ (hi + 1 - lo)) + x.toNat % 2 ^ lo := by
        rw [hhigh, hlow]
    _ = _ := by rw [hpow]; grind

/-- Replacing a field keeps what lies above and below it. -/
theorem toNat_setBitsOf {w : Nat} (x : BitVec w) {hi lo : Nat} (v : Nat) (h : lo ≤ hi) (hw : hi < w) :
    (setBitsOf x hi lo v).toNat =
      x.toNat / 2 ^ (hi + 1) * 2 ^ (hi + 1) + v % 2 ^ (hi + 1 - lo) * 2 ^ lo + x.toNat % 2 ^ lo := by
  have hsplit := toNat_split x h
  have hpow : 2 ^ (hi + 1) = 2 ^ (hi + 1 - lo) * 2 ^ lo := by rw [← Nat.pow_add]; congr 1; omega
  have hfield : v % 2 ^ (hi + 1 - lo) * 2 ^ lo + x.toNat % 2 ^ lo < 2 ^ (hi + 1) := by
    have hv : v % 2 ^ (hi + 1 - lo) + 1 ≤ 2 ^ (hi + 1 - lo) := Nat.mod_lt _ (Nat.two_pow_pos _)
    have hmul := Nat.mul_le_mul_right (2 ^ lo) hv
    have hlo := Nat.mod_lt x.toNat (Nat.two_pow_pos lo)
    rw [Nat.succ_mul, ← hpow] at hmul
    omega
  have habove : x.toNat / 2 ^ (hi + 1) + 1 ≤ 2 ^ (w - (hi + 1)) := by
    refine Nat.div_lt_of_lt_mul ?_
    rw [← Nat.pow_add, show hi + 1 + (w - (hi + 1)) = w by omega]
    exact x.isLt
  have hmul := Nat.mul_le_mul_right (2 ^ (hi + 1)) habove
  rw [Nat.succ_mul, ← Nat.pow_add, show w - (hi + 1) + (hi + 1) = w by omega] at hmul
  unfold setBitsOf
  rw [BitVec.toNat_ofNat]
  generalize x.toNat / 2 ^ (hi + 1) * 2 ^ (hi + 1) = above at *
  generalize bitsOf x hi lo * 2 ^ lo = field at *
  generalize v % 2 ^ (hi + 1 - lo) * 2 ^ lo = new at *
  rw [Nat.mod_eq_of_lt (by omega)]
  omega

theorem field_of_split {m l : Nat} (a f n : Nat) (hm : 0 < m) (hl : l < m) : (a * (m * n) + f * m + l) / m % n = f % n := by
  have heq : a * (m * n) + f * m + l = m * (n * a + f) + l := by grind
  rw [heq, Nat.mul_add_div hm, Nat.div_eq_of_lt hl, Nat.add_zero, Nat.mul_add_mod]

/-- A field reads back what it was set to. -/
theorem bitsOf_setBitsOf {w : Nat} (x : BitVec w) {hi lo : Nat} (v : Nat) (h : lo ≤ hi) (hw : hi < w) :
    bitsOf (setBitsOf x hi lo v) hi lo = v % 2 ^ (hi + 1 - lo) := by
  have hpow : 2 ^ (hi + 1) = 2 ^ lo * 2 ^ (hi + 1 - lo) := by rw [← Nat.pow_add]; congr 1; omega
  have hlo := Nat.two_pow_pos lo
  unfold bitsOf
  rw [toNat_setBitsOf x v h hw, hpow, field_of_split _ _ _ hlo (Nat.mod_lt _ hlo), Nat.mod_mod]

/-- The whole word as a field. -/
theorem setBitsOf_full (x : W32) (v : Nat) : setBitsOf x 31 0 v = BitVec.ofNat 32 v := by
  refine BitVec.eq_of_toNat_eq ?_
  rw [toNat_setBitsOf x v (by decide) (by decide), Nat.div_eq_of_lt x.isLt, BitVec.toNat_ofNat]
  simp [Nat.mod_one]

theorem bitsOf_full (x : W32) : bitsOf x 31 0 = x.toNat := by
  unfold bitsOf
  rw [Nat.pow_zero, Nat.div_one]
  exact Nat.mod_eq_of_lt x.isLt

/-! ## Writes of registers -/

/-- A write that reaches an aligned register of BAR0 is the register's own. -/
theorem bar0Write_reg {s : State} {a : Nat} {d : RegDef} {ix : List Nat} (hopen : s.hostOpen a) (hf : findReg a = some (d, ix))
    (h4 : a % 4 = 0) (ha : a < 0x4000000) (htable : inMsixTable 0 a = false) (hpba : inMsixPba 0 a = false) (v : W64) :
    s.bar0Write a 4 v = s.regWrite d (ix.getD 0 0) (ix.getD 1 0) a (v.setWidth 32) := by
  rw [bar0Write_open hopen (inBar_zero ha), bar0Put_reg hf h4 htable hpba]

theorem findReg_glbScratch : findReg Reg.GLB_SCRATCH = some (⟨.GLB_SCRATCH, 0x00000010, [], [⟨31, 0, .rw, 0, []⟩]⟩, []) := by
  decide +kernel

theorem findReg_tbStepLimit :
    findReg Reg.TB_STEP_LIMIT = some (⟨.TB_STEP_LIMIT, 0x00F00074, [], [⟨9, 0, .rw, 50, [⟨1001, 1023, 1000⟩]⟩]⟩, []) := by
  decide +kernel

theorem findReg_glbSetupLock : findReg Reg.GLB_SETUP_LOCK = some (⟨.GLB_SETUP_LOCK, 0x00000004, [], [⟨0, 0, .w1s, 0, []⟩]⟩, []) := by
  decide +kernel

theorem findReg_fhStfEtype : findReg Reg.FH_STF_ETYPE = some (⟨.FH_STF_ETYPE, 0x00C00014, [], [⟨15, 0, .rwl, 34997, []⟩]⟩, []) := by
  decide +kernel

/-- A register that only holds one field stores it as its clamps take it. -/
theorem writeFields_one {d : RegDef} {f : RegField} (hfields : d.fields = [f]) (hclear : isCleared d.id = false)
    (henable : isEventEn d.id = false) (s : State) (a : Nat) (v : W32) :
    s.writeFields d a v =
      let p := writeField s.setupLocked f (s.rd a) v
      if p.2 then (s.wr a p.1).clampFor a else s.wr a p.1 := by
  simp [State.writeFields, hfields, hclear, henable, writeFieldsOf]

/-- CLEAR is what a write of a count does. -/
theorem regWrite_of_isCleared {d : RegDef} (h : isCleared d.id = true) (s : State) (i j a : Nat) (v : W32) :
    s.regWrite d i j a v = if bitOf v 31 then s.wr a 0 else s := by
  have hfields : s.regWrite d i j a v = s.writeFields d a v := by
    obtain ⟨id, base, dims, fields⟩ := d
    cases id <;> first | exact absurd h Bool.false_ne_true | rfl
  rw [hfields, State.writeFields, if_pos h]

/-- The CLAMP_COUNTs of the blocks that have one each. -/
def clampCounts : List Nat :=
  [Reg.GLB_CLAMP_COUNT, Reg.TB_CLAMP_COUNT, Reg.SLT_CLAMP_COUNT, Reg.HP_CLAMP_COUNT, Reg.QMG_CLAMP_COUNT, Reg.SPN_CLAMP_COUNT,
   Reg.GTH_CLAMP_COUNT, Reg.DMA_CLAMP_COUNT, Reg.SPA_CLAMP_COUNT, Reg.COD_CLAMP_COUNT, Reg.SPC_CLAMP_COUNT, Reg.FH_CLAMP_COUNT,
   Reg.LN_CLAMP_COUNT, Reg.STF_CLAMP_COUNT, Reg.CAP_CLAMP_COUNT, Reg.MEM_CLAMP_COUNT, Reg.PWR_CLAMP_COUNT, Reg.COL_CLAMP_COUNT]

/-- `a` is an aligned register of BAR0 outside the PF's MSI-X structures whose CLEAR bit sets it to 0. -/
def isPlainCount (a : Nat) : Bool :=
  decide (a < 0x4000000) && a % 4 == 0 && !inMsixTable 0 a && !inMsixPba 0 a && (findReg a).any (isCleared ·.1.id)

theorem clampCounts_plain : clampCounts.all isPlainCount = true := by decide +kernel

theorem exec_clampCountClear {s : State} {a : Nat} (ha : isPlainCount a = true) (hopen : s.hostOpen a) (v : W32) :
    exec (.clampCountClear a v) s = .next (if bitOf v 31 then s.wr a 0 else s) := by
  simp only [isPlainCount, Bool.and_eq_true, decide_eq_true_eq, beq_iff_eq, Bool.not_eq_true', Option.any_eq_true] at ha
  obtain ⟨⟨⟨⟨hlt, h4⟩, htable⟩, hpba⟩, ⟨d, ix⟩, hf, hclear⟩ := ha
  have hwrite := bar0Write_reg hopen hf h4 hlt htable hpba (v.setWidth 64)
  rw [regWrite_of_isCleared hclear, BitVec.setWidth_setWidth_of_le v (by decide), BitVec.setWidth_eq] at hwrite
  show Host.Outcome.next (match findReg a with
    | some (d, _) => if isCleared d.id || d.id == RegId.HP_RCTX_CLAMP then s.bar0Write a 4 (v.setWidth 64) else s
    | none => s) = _
  rw [hf]
  simp only [hclear, Bool.true_or, if_true, hwrite]

/-- A count at its highest value stays there. -/
theorem clampAt_saturated {s : State} (hregs : Registers.wf s.regs = true) {cc : Nat} (h : s.fld cc 15 0 = 65535) :
    (s.clampAt cc).fld cc 15 0 = 65535 := by
  show bitsOf ((s.wr cc _).rd cc) 15 0 = _
  rw [State.rd_wr _ _ _ _ hregs, if_pos rfl, bitsOf_setBitsOf _ _ (by decide) (by decide), h]
  rfl

theorem exec_registerWrite_scratch {s : State} (hopen : s.hostOpen Reg.GLB_SCRATCH) (v : W64) :
    exec (.registerWrite 0 Reg.GLB_SCRATCH 4 v) s = .next (s.wr Reg.GLB_SCRATCH (v.setWidth 32)) := by
  rw [exec_registerWrite_pf, bar0Write_reg hopen findReg_glbScratch rfl (by decide) rfl rfl]
  refine congrArg _ ((writeFields_one rfl rfl rfl _ _ _).trans ?_)
  simp only [writeField, clampVal, setBitsOf_full, bitsOf_full, BitVec.ofNat_toNat, BitVec.setWidth_eq]
  rfl

/-- A write of TB_STEP_LIMIT stores LIMIT as its clamp takes it. -/
theorem exec_registerWrite_stepLimit {s : State} (hopen : s.hostOpen Reg.TB_STEP_LIMIT) (v : W64) :
    exec (.registerWrite 0 Reg.TB_STEP_LIMIT 4 v) s =
      let p := clampVal [⟨1001, 1023, 1000⟩] (bitsOf v 9 0)
      let t := s.wr Reg.TB_STEP_LIMIT (setBitsOf (s.rd Reg.TB_STEP_LIMIT) 9 0 p.1)
      .next (if p.2 then t.clampAt Reg.TB_CLAMP_COUNT else t) := by
  rw [exec_registerWrite_pf, bar0Write_reg hopen findReg_tbStepLimit rfl (by decide) rfl rfl]
  refine congrArg _ ((writeFields_one rfl rfl rfl _ _ _).trans ?_)
  simp only [writeField, bitsOf_setWidth v 0 (show 9 < 32 by decide)]
  rfl

theorem exec_setupLock {s : State} (hopen : s.hostOpen Reg.GLB_SETUP_LOCK) (v : W32) :
    exec (.setupLock v) s = .next (s.wr Reg.GLB_SETUP_LOCK
      (setBitsOf (s.rd Reg.GLB_SETUP_LOCK) 0 0 (bitsOf (s.rd Reg.GLB_SETUP_LOCK ||| v) 0 0))) := by
  have hwrite := bar0Write_reg hopen findReg_glbSetupLock rfl (by decide) rfl rfl (v.setWidth 64)
  rw [BitVec.setWidth_setWidth_of_le v (by decide), BitVec.setWidth_eq] at hwrite
  exact congrArg _ (hwrite.trans ((writeFields_one rfl rfl rfl _ _ _).trans rfl))

theorem bitOf_zero_eq {w : Nat} (x : BitVec w) : bitOf x 0 = decide (bitsOf x 0 0 = 1) := by
  simp [bitOf, bitsOf, BitVec.getLsbD, Nat.testBit_zero]

theorem exec_registerWrite_beforeReady {s : State} {a w : Nat} {v : W64} (ha : a < 0x4000000) (hscratch : a ≠ Reg.GLB_SCRATCH)
    (hflr : (s.fnOf 0).flr = false) (hawake : s.pwr.asleep = false) (hwarm : s.rst.warmHeld = false) (hpower : s.rst.power = .on)
    (hthawed : s.glb.frozen = false) (hready : s.glb.coreReady = false) :
    exec (.registerWrite 0 a w v) s = .next (s.clampAt Reg.GLB_CLAMP_COUNT) := by
  rw [exec_registerWrite_pf, State.bar0Write, if_pos (inBar_zero ha),
    hostWriteTo_beforeReady hflr hawake hwarm hpower hthawed hready hscratch]

/-- Before CORE_READY a read outside GLB returns 0 (R15). -/
theorem hostReadReg_beforeReady {s : State} {a w : Nat} (hans : s.bar0Answers a = true) (hready : s.glb.coreReady = false)
    (hblock : blockOf a ≠ some .glb) : s.hostReadReg a w = { s with hostRead := [0] } := by
  simp [State.hostReadReg, hans, hready, hblock]

/-- A register of one RWL field while the setup lock is set keeps its word, and the write counts (R4). -/
theorem exec_registerWrite_locked {s : State} (hopen : s.hostOpen Reg.FH_STF_ETYPE) (hlock : s.setupLocked = true) (v : W64) :
    exec (.registerWrite 0 Reg.FH_STF_ETYPE 4 v) s =
      .next ((s.wr Reg.FH_STF_ETYPE (s.rd Reg.FH_STF_ETYPE)).clampAt Reg.FH_CLAMP_COUNT) := by
  rw [exec_registerWrite_pf, bar0Write_reg hopen findReg_fhStfEtype rfl (by decide) rfl rfl]
  refine congrArg _ ((writeFields_one rfl rfl rfl _ _ _).trans ?_)
  simp only [writeField, hlock]
  rfl

theorem lock_after_write (old v : W32) : bitOf (setBitsOf old 0 0 (bitsOf (old ||| v) 0 0)) 0 = (bitOf old 0 || bitOf v 0) := by
  have hfield : bitsOf (setBitsOf old 0 0 (bitsOf (old ||| v) 0 0)) 0 0 = bitsOf (old ||| v) 0 0 := by
    rw [bitsOf_setBitsOf _ _ (by decide) (by decide), Nat.mod_eq_of_lt (bitsOf_lt _ 0 0)]
  rw [bitOf_zero_eq, hfield, ← bitOf_zero_eq]
  exact BitVec.getLsbD_or

/-- Settles O6: each write passes its gates and is the write of the one field of its register. -/
theorem registerWrites : Obligations.RegisterWrites := by
  unfold Obligations.RegisterWrites
  refine ⟨⟨fun _ v h => exec_registerWrite_scratch h v, ?inLimit, ?aboveLimit⟩, ⟨?writeBeforeReady, ?readBeforeReady⟩,
    ?lock, fun _ v h hl => exec_registerWrite_locked h hl v, ?clear, fun _ _ hs h => clampAt_saturated hs.2 h⟩
  case inLimit =>
    intro s v hopen hle
    rw [exec_registerWrite_stepLimit hopen, clampVal, if_neg (by dsimp only; omega)]
    rfl
  case aboveLimit =>
    intro s v hopen hgt
    have hlt := bitsOf_lt v 9 0
    rw [exec_registerWrite_stepLimit hopen, clampVal, if_pos (by dsimp only; omega)]
    rfl
  case writeBeforeReady => exact fun _ _ _ _ => exec_registerWrite_beforeReady
  case readBeforeReady =>
    intro s a w ha htable hpba hans hready hblock
    rw [exec_lowHalfRead, hostAccess_bar0_reg ha htable hpba, hostReadReg_beforeReady hans hready hblock]
  case lock => exact fun s v hopen => ⟨_, exec_setupLock hopen v, lock_after_write _ v⟩
  case clear => exact fun s a v ha hopen => exec_clampCountClear (List.all_eq_true.mp clampCounts_plain a ha) hopen v

/-- Settles O4: the reset state lists nothing, so every field reads its default. -/
theorem resetValues : Obligations.ResetValues := by
  refine ⟨⟨rfl, rfl⟩, rfl, rfl, rfl, rfl, rfl, rfl, rfl, rfl, rfl, ?_, ?_, ?_, fun _ => rfl, fun _ => rfl⟩ <;> decide +kernel

end Sys2Proof.Machine
end

section
/-! Rate commits, adjustments and steps (R32 to R36, R39). -/

namespace Sys2Proof.Machine

/-! ## Rates -/

theorem clampRate_of_legal {r : Nat} (hlo : rateMin ≤ r) (hhi : r ≤ rateMax) : clampRate r = r := by
  rw [clampRate, if_neg (Nat.not_lt.mpr hlo), if_neg (Nat.not_lt.mpr hhi)]

/-- A rate outside the legal range is taken as the nearer bound. -/
theorem clampRate_bound {r b : Nat} (h : r < rateMin ∧ b = rateMin ∨ rateMax < r ∧ b = rateMax) : clampRate r = b ∧ b ≠ r := by
  rcases h with ⟨hlt, rfl⟩ | ⟨hgt, rfl⟩
  · exact ⟨if_pos hlt, Nat.ne_of_gt hlt⟩
  · have hlo : ¬ r < rateMin := Nat.not_lt.mpr (Nat.le_trans (by decide) (Nat.le_of_lt hgt))
    exact ⟨by rw [clampRate, if_neg hlo, if_pos hgt], Nat.ne_of_lt hgt⟩

/-- The state a rate commit leaves, but for the count of a clamp. -/
theorem exec_tbRateCommit_host {s : State} {v : W32} {r b : Nat} (hopen : s.hostOpen Reg.TB_RATE_HI) (hhost : s.tb.stitchSource = false)
    (hr : r = (s.rd Reg.TB_RATE_LO).toNat + bitsOf v 15 0 * 2 ^ 32) (hb : clampRate r = b) :
    exec (.tbRateCommit v) s = .next (((({ s with tb.pendingRate := some b }).wr Reg.TB_RATE_LO (BitVec.ofNat 32 b)).wr
      Reg.TB_RATE_HI (BitVec.ofNat 32 (b / 2 ^ 32))).clampIf (b != r) Reg.TB_CLAMP_COUNT) := by
  show Host.Outcome.next (s.hostWriteTo _ (·.writeRateHi v)) = _
  rw [hostWriteTo_open hopen, State.writeRateHi, if_neg (by simp [hhost]), ← hr, ← hb]
  rfl

theorem writes_discarded_under_stitch {s : State} (v : W32) (h : s.tb.stitchSource = true) :
    s.writeRateHi v = s.clampAt Reg.TB_CLAMP_COUNT ∧ s.writeAdjHi v = s.clampAt Reg.TB_CLAMP_COUNT ∧
      s.writeSetSecHi v = s.clampAt Reg.TB_CLAMP_COUNT :=
  ⟨if_pos h, if_pos h, if_pos h⟩

/-! ## The time source -/

theorem findReg_tbCtrl : findReg Reg.TB_CTRL = some (⟨.TB_CTRL, 0x00F00004, [], [⟨8, 8, .rw, 0, []⟩, ⟨0, 0, .rw, 0, []⟩]⟩, []) := by
  decide +kernel

theorem State.writeTable_tbCtrl (s : State) (v : W32) : s.writeTable Reg.TB_CTRL v =
    s.wr Reg.TB_CTRL (setBitsOf (setBitsOf (s.rd Reg.TB_CTRL) 8 8 (bitsOf v 8 8)) 0 0 (bitsOf v 0 0)) := by
  simp only [State.writeTable, findReg_tbCtrl]
  rfl

/-! ## Adjustments and steps -/

theorem State.stepLimitU_eq (s : State) : s.stepLimitU = ((s.fld Reg.TB_STEP_LIMIT 9 0 * (2 ^ 40 * 1000000) : Nat) : Int) := by
  rw [State.stepLimitU, show uPerNs = ((2 ^ 40 * 1000000 : Nat) : Int) by decide]
  exact (Int.natCast_mul _ _).symm

theorem State.adjust_slews {s : State} {adj : Int}
    (hle : (s.tb.remainU + adj * uPer16).natAbs ≤ s.fld Reg.TB_STEP_LIMIT 9 0 * (2 ^ 40 * 1000000))
    (hne : s.tb.remainU + adj * uPer16 ≠ 0) : s.adjust adj = { s with tb.remainU := s.tb.remainU + adj * uPer16 } := by
  unfold State.adjust
  dsimp only
  rw [if_pos (by rw [s.stepLimitU_eq]; exact Int.ofNat_le.mpr hle), if_neg (by simp [hne])]

theorem State.adjust_steps {s : State} {adj : Int}
    (hlt : s.fld Reg.TB_STEP_LIMIT 9 0 * (2 ^ 40 * 1000000) < (s.tb.remainU + adj * uPer16).natAbs) :
    s.adjust adj = s.applyStep (adj * uPer16) := by
  refine if_neg ?_
  rw [s.stepLimitU_eq]
  exact fun h => absurd (Int.ofNat_le.mp h) (Nat.not_le.mpr hlt)

theorem State.applyStep_permitted {s : State} (hpermit : s.bit Reg.TB_CTRL 8 = true) (hstopped : s.allStopped = true) (d : Int) :
    s.applyStep d = ({ s with tb := { s.tb with offsetU := s.tb.offsetU + d, remainU := 0, ppsDue := false } }).resumeGrid.raise
      Reg.TB_EVENT 1 :=
  if_pos (by rw [hpermit, hstopped]; rfl)

theorem signedOf64_range (n : Nat) : -(2 ^ 63) ≤ signedOf 64 n ∧ signedOf 64 n ≤ 2 ^ 63 - 1 := by
  unfold signedOf
  split <;> omega

/-- An adjustment is within the range of TB_REFUSED, so a refused one is recorded as it is. -/
theorem satSigned64_adjustment {adj : Int} {n : Nat} (h : adj = signedOf 64 n) : satSigned64 (adj * uPer16 / uPer16) = adj := by
  have hrange := signedOf64_range n
  rw [Int.mul_ediv_cancel _ (by decide), satSigned64]
  omega

theorem State.applyStep_refused {s : State} {adj : Int} {n : Nat} (hnot : (s.bit Reg.TB_CTRL 8 && s.allStopped) = false)
    (hadj : adj = signedOf 64 n) :
    s.applyStep (adj * uPer16) = ((({ s with tb.refused := adj }).wr Reg.TB_REFUSED_LO (BitVec.ofNat 32 (unsignedOf 64 adj))).wr
      Reg.TB_REFUSED_HI (BitVec.ofNat 32 (unsignedOf 64 adj / 2 ^ 32))).raise Reg.TB_EVENT 0 := by
  rw [State.applyStep, if_neg (by simp [hnot]), satSigned64_adjustment hadj]

theorem exec_adjustment_host {s : State} {v : W32} {adj : Int} (hopen : s.hostOpen Reg.TB_ADJ_HI) (hhost : s.tb.stitchSource = false)
    (hadj : adj = signedOf 64 ((s.rd Reg.TB_ADJ_LO).toNat + v.toNat * 2 ^ 32)) :
    exec (.adjustment v) s = .next ((s.wr Reg.TB_ADJ_HI v).adjust adj) := by
  show Host.Outcome.next (s.hostWriteTo _ (·.writeAdjHi v)) = _
  rw [hostWriteTo_open hopen, State.writeAdjHi, if_neg (by simp [hhost]), ← hadj]

/-- A write of another register leaves a bit as it is. -/
theorem State.bit_wr_ne {s : State} (hregs : Registers.wf s.regs = true) {a b : Nat} (hne : b ≠ a) (v : W32) (i : Nat) :
    (s.wr a v).bit b i = s.bit b i := by
  rw [State.bit, State.rd_wr _ _ _ _ hregs, if_neg hne]
  rfl

/-- A permitted step to a time makes corrected time that time. -/
theorem TbState.timeU_step (t : TbState) (time : Int) :
    ({ t with offsetU := t.offsetU + (time - t.timeU), remainU := 0, ppsDue := false } : TbState).timeU = time := by
  unfold TbState.timeU
  dsimp only
  omega

theorem exec_timeSet_permitted {s : State} {v : W32} (hcanon : s.canonical) (hopen : s.hostOpen Reg.TB_SET_SEC_HI)
    (hhost : s.tb.stitchSource = false) (hpermit : s.bit Reg.TB_CTRL 8 = true) (hstopped : s.allStopped = true) :
    let s1 := s.wr Reg.TB_SET_SEC_HI (BitVec.ofNat 32 (bitsOf v 15 0))
    let ns : Nat := ((s1.rd Reg.TB_SET_SEC_LO).toNat + bitsOf v 15 0 * 2 ^ 32) * 1000000000 + (s1.rd Reg.TB_SET_NS).toNat
    exec (.timeSet v) s = .next (({ s1 with tb := { s.tb with
      offsetU := s.tb.offsetU + (ns * uPerNs - s.tb.timeU), remainU := 0, ppsDue := false } }).resumeGrid.raise Reg.TB_EVENT 1) := by
  intro s1 ns
  have hbit : s1.bit Reg.TB_CTRL 8 = true := (State.bit_wr_ne hcanon.2 (by decide) _ _).trans hpermit
  show Host.Outcome.next (s.hostWriteTo _ (·.writeSetSecHi v)) = _
  rw [hostWriteTo_open hopen, State.writeSetSecHi, if_neg (by simp [hhost])]
  exact congrArg _ (State.applyStep_permitted (s := s1) hbit hstopped _)

/-- Settles O12: a commit stores the clamped rate, and an adjustment or a time set comes down to a slew, a permitted step or a
refused one. -/
theorem rateAndSteps : Obligations.RateAndSteps := by
  unfold Obligations.RateAndSteps
  refine ⟨⟨?legal, ?clamped, ?stitch, ?source⟩, ?adjustment, ?timeSet⟩
  case legal =>
    intro s v r hopen hhost hr hlo hhi
    rw [exec_tbRateCommit_host hopen hhost hr (clampRate_of_legal hlo hhi), bne_self_eq_false]
    rfl
  case clamped =>
    intro s v r b hopen hhost hr hb
    obtain ⟨hclamp, hne⟩ := clampRate_bound hb
    rw [exec_tbRateCommit_host hopen hhost hr hclamp, bne_iff_ne.mpr hne]
    rfl
  case stitch =>
    intro s v h
    obtain ⟨hrate, hadj, hset⟩ := writes_discarded_under_stitch v h
    exact ⟨fun hopen => congrArg _ ((hostWriteTo_open hopen _).trans hrate),
      fun hopen => congrArg _ ((hostWriteTo_open hopen _).trans hadj),
      fun hopen => congrArg _ ((hostWriteTo_open hopen _).trans hset)⟩
  case source => exact fun s v hopen => congrArg _ ((hostWriteTo_open hopen _).trans (s.writeTable_tbCtrl v))
  case adjustment =>
    intro s v adj hopen hhost hadj s1
    rw [exec_adjustment_host hopen hhost hadj]
    exact ⟨fun hle hne => congrArg _ (State.adjust_slews hle hne),
      fun hlt hpermit hstopped => congrArg _ ((State.adjust_steps hlt).trans (State.applyStep_permitted hpermit hstopped _)),
      fun hlt hnot => congrArg _ ((State.adjust_steps hlt).trans (State.applyStep_refused hnot hadj))⟩
  case timeSet =>
    intro s v hcanon hopen hhost hpermit hstopped s1 ns
    exact ⟨_, exec_timeSet_permitted hcanon hopen hhost hpermit hstopped, TbState.timeU_step _ _, rfl, rfl, rfl, rfl⟩

end Sys2Proof.Machine
end

section
/-! References and the second pulse (R40, R43, R47, R48, R462). -/

namespace Sys2Proof.Machine

/-! ## The register of the reference -/

/-- A register without a CLEAR bit that enables no event stores its fields by their codes. -/
theorem writeFields_plain {d : RegDef} (hclear : isCleared d.id = false) (henable : isEventEn d.id = false) (s : State) (a : Nat)
    (v : W32) : s.writeFields d a v =
      let p := writeFieldsOf s.setupLocked d.fields (s.rd a) v
      if p.2 then (s.wr a p.1).clampFor a else s.wr a p.1 := by
  simp [State.writeFields, hclear, henable]

/-- The fields of TB_REF_CTRL. -/
def refCtrlFields : List RegField := [⟨15, 15, .rw, 0, []⟩, ⟨14, 8, .rw, 0, [⟨96, 127, 95⟩]⟩, ⟨1, 0, .rwl, 0, [⟨3, 3, 0⟩]⟩]

theorem findReg_tbRefCtrl : findReg Reg.TB_REF_CTRL = some (⟨.TB_REF_CTRL, 0x00F00000, [], refCtrlFields⟩, []) := by
  decide +kernel

/-- REF_SEL of the word stored is the one written, where it names a reference. -/
theorem refSel_written (old v : W32) (h : bitsOf v 1 0 ≤ 2) : bitsOf (writeFieldsOf false refCtrlFields old v).1 1 0 = bitsOf v 1 0 := by
  have hclamp : clampVal [⟨3, 3, 0⟩] (bitsOf v 1 0) = (bitsOf v 1 0, false) := if_neg (by dsimp only; omega)
  simp only [refCtrlFields, writeFieldsOf, writeField, hclamp]
  rw [if_neg Bool.false_ne_true, bitsOf_setBitsOf _ _ (by decide) (by decide), Nat.mod_eq_of_lt (bitsOf_lt v 1 0)]

/-- What a write of TB_REF_CTRL leaves of the register, the timebase and memory. -/
theorem State.writeTable_refCtrl {s : State} {v : W32} (hregs : Registers.wf s.regs = true) (hlock : s.setupLocked = false)
    (hv : bitsOf v 1 0 ≤ 2) :
    (s.writeTable Reg.TB_REF_CTRL v).fld Reg.TB_REF_CTRL 1 0 = bitsOf v 1 0 ∧ (s.writeTable Reg.TB_REF_CTRL v).tb = s.tb ∧
      (s.writeTable Reg.TB_REF_CTRL v).mem = s.mem := by
  have hwritten := refSel_written (s.rd Reg.TB_REF_CTRL) v hv
  have hwrite : s.writeTable Reg.TB_REF_CTRL v = _ :=
    Eq.trans (by rw [State.writeTable, findReg_tbRefCtrl]) (writeFields_plain rfl rfl s Reg.TB_REF_CTRL v)
  rw [hwrite, hlock]
  generalize writeFieldsOf false refCtrlFields (s.rd Reg.TB_REF_CTRL) v = p at hwritten
  have hstored : (s.wr Reg.TB_REF_CTRL p.1).fld Reg.TB_REF_CTRL 1 0 = bitsOf v 1 0 := by
    rw [State.fld, State.rd_wr _ _ _ _ hregs, if_pos rfl, hwritten]
  dsimp only
  split
  · refine ⟨?_, rfl, rfl⟩
    show bitsOf (((s.wr Reg.TB_REF_CTRL p.1).wr Reg.TB_CLAMP_COUNT _).rd Reg.TB_REF_CTRL) 1 0 = _
    rw [State.rd_wr _ _ _ _ (mapSet_wf _ _ _ _ hregs), if_neg (by decide)]
    exact hstored
  · exact ⟨hstored, rfl, rfl⟩

/-- SYNCE_LOS apart, SYNCE_OUT leaves the timebase and memory alone. -/
theorem State.settleSynce_tb (s : State) : (∃ los, s.settleSynce.tb = { s.tb with synceLos := los }) ∧ s.settleSynce.mem = s.mem := by
  simp only [State.settleSynce, State.synceLos]
  split
  · exact ⟨⟨true, State.raise_tb _ _ _⟩, State.raise_mem _ _ _⟩
  · exact ⟨⟨_, rfl⟩, rfl⟩

theorem exec_refSelect {s : State} (hopen : s.hostOpen Reg.TB_REF_CTRL) (v : W32) :
    exec (.refSelect v) s = .next (s.writeRefCtrl v).settleSynce := by
  have hwrite := bar0Write_reg hopen findReg_tbRefCtrl rfl (by decide) rfl rfl (v.setWidth 64)
  rw [BitVec.setWidth_setWidth_of_le v (by decide), BitVec.setWidth_eq] at hwrite
  exact congrArg _ hwrite

/-! ## Loss and return -/

theorem exec_refLost {s : State} (hrun : s.tclkRuns = true) (hpresent : s.tb.refPresent = true) (hext : s.tb.refInUse ≠ 0) :
    exec .refLost s = .next ({ s with tb :=
      let t := { s.tb with refPresent := false, timeLocked := false }
      if s.tb.refInUse = 1 then { t with synceInPresent := false } else { t with trefInPresent := false } }.tbEvent 3) := by
  show Host.Outcome.next (if s.tclkRuns then s.refLost else s) = _
  rw [if_pos hrun, State.refLost, if_neg (by simp [hpresent, hext])]

theorem exec_refReturn {s : State} (hrun : s.tclkRuns = true) (hext : s.tb.refInUse ≠ 0) (locked : Bool) :
    exec (.refReturn locked) s = .next { s with tb :=
      let t := { s.tb with refPresent := true, timeLocked := s.tb.timeLocked || locked }
      if s.tb.refInUse = 1 then { t with synceInPresent := true } else { t with trefInPresent := true } } := by
  show Host.Outcome.next (if s.tclkRuns then s.refReturn locked else s) = _
  rw [if_pos hrun, State.refReturn, if_neg hext]

theorem exec_referenceDetection_other {s : State} (hrun : s.tclkRuns = true) (hin : s.tb.refInUse = 0) {input : Nat} (h0 : input ≠ 0)
    (present : Bool) : exec (.referenceDetection input present) s = .next (s.referenceDetection input present) := by
  show (if !s.tclkRuns then Host.Outcome.next s else _) = _
  rw [if_neg (by simp [hrun]), if_pos (.inr (hin ▸ h0))]

/-- Settles O13: a write of TB_REF_CTRL moves the PLL to the reference it names, and the other commands are their one update once
their gate is open. -/
theorem referencesAndPulses : Obligations.ReferencesAndPulses := by
  unfold Obligations.ReferencesAndPulses
  refine ⟨⟨?select, ?lost, ?returns, ?detection⟩, ?ppsIn, ?ppsOut, ?ppsOutEnd, ?holdover⟩
  case select =>
    intro s v hopen hlock hv hne hcanon
    obtain ⟨hsel, htb, hmem⟩ := State.writeTable_refCtrl hcanon.2 hlock hv
    have hmoved : s.writeRefCtrl v =
        { s.writeTable Reg.TB_REF_CTRL v with tb := (s.writeTable Reg.TB_REF_CTRL v).tb.selectRef (bitsOf v 1 0) } := by
      rw [State.writeRefCtrl, hsel, htb, if_neg hne]
    obtain ⟨⟨los, hlos⟩, hkept⟩ := (s.writeRefCtrl v).settleSynce_tb
    refine ⟨_, exec_refSelect hopen v, ?_⟩
    rw [hlos, hkept, hmoved, htb, hmem]
    exact ⟨rfl, rfl, rfl, rfl, rfl, rfl, rfl⟩
  case lost =>
    intro s hrun hpresent
    refine ⟨fun h => ?_, fun h => ?_⟩ <;> rw [exec_refLost hrun hpresent (by omega), h] <;> rfl
  case returns =>
    intro s locked hrun
    refine ⟨fun h => ?_, fun h => ?_⟩ <;> rw [exec_refReturn hrun (by omega), h] <;> rfl
  case detection =>
    exact fun s p hrun hin => ⟨exec_referenceDetection_other hrun hin (by decide) p, exec_referenceDetection_other hrun hin (by decide) p⟩
  case ppsIn => exact fun s hc => exec_of_clocked hc rfl
  case ppsOut => exact fun s hc hdue => (exec_of_clocked hc rfl).trans (if_pos hdue)
  case ppsOutEnd => exact fun s hc => exec_of_clocked hc rfl
  case holdover => exact fun s hopen => congrArg _ (hostWriteTo_open hopen _)

end Sys2Proof.Machine
end

section
/-! Mould writes and arms (R54 to R56, R64 to R68). -/

namespace Sys2Proof.Machine

/-! ## Fields of a descriptor -/

theorem carrierField_of_lt {c : Nat} (h : c < 512) : carrierField c = c := if_neg (by omega)
theorem carrierClamped_of_lt {c : Nat} (h : c < 512) : carrierClamped c = false := decide_eq_false (by omega)
theorem carrier_ne_module {c : Nat} (h : c < 512) : c ≠ 0xFFFF := by omega

@[simp] theorem State.clampDesc_false (s : State) (d : Desc) (cc : Nat) : s.clampDesc d false cc = s := rfl

/-- A mould descriptor of the UL half of a carrier. -/
theorem mouldPlace_ul {d : Desc} (hc : d.carrier < 512) (hhalf : d.fld 0x10 15 14 = 1) :
    mouldPlace d = (d.carrier, 1, d.fld 0x10 13 11, false) := by
  simp [mouldPlace, carrierField_of_lt hc, carrierClamped_of_lt hc, carrier_ne_module hc, hhalf]

/-- An address of whole 64-byte words is taken as it is. -/
theorem and_not_of_and_eq_zero {w : Nat} {a m : BitVec w} (h : a &&& m = 0#w) : a &&& ~~~m = a := by
  have hsplit : a &&& m ||| a &&& ~~~m = a := by
    rw [← BitVec.and_or_distrib_left, BitVec.or_not_self, BitVec.and_allOnes]
  rwa [h, BitVec.zero_or] at hsplit

/-! ## One word of the slot page -/

/-- SLOT_TAG takes every value as it is. -/
theorem clampPageWord_slotTag (v : W32) : clampPageWord slotPageFields 5 v = (v, false) := by
  simp [clampPageWord, slotPageFields, setBitsOf_full, bitsOf_full]

theorem State.crossPage_slotPage (s : State) (c : Nat) (p : Nat → W32) : s.crossPage c (.half .ul 0) p = p := rfl

/-- A write of one word that nothing clamps changes that word of the mould alone. -/
theorem State.writePage_slotTag (s : State) {c : Nat} (hc : c < 512) (v : W32) :
    s.writePage c 1 0 5 [v] = (s.storePageWord c 1 0 5 v, []) := by
  have hsel : pageSel c 1 0 = .half .ul 0 := by simp [pageSel, carrier_ne_module hc]
  have hfields : pageFields (.half .ul 0) = slotPageFields := rfl
  simp only [State.writePage, hsel, hfields, State.crossPage_slotPage]
  simp [List.range_succ, clampPageWord_slotTag]

theorem State.storePageWord_ul (s : State) {c : Nat} (hc : c < 512) (word : Nat) (v : W32) :
    s.storePageWord c 1 0 word v = s.setCarrier c { s.carrier c with ul := (s.carrier c).ul.write word v } := by
  simp [State.storePageWord, carrier_ne_module hc, Carrier.setHalf, Carrier.half]

theorem State.mouldGen16_ul (s : State) {c : Nat} (hc : c < 512) : s.mouldGen16 c 1 = (s.carrier c).ul.gen % 65536 := by
  simp [State.mouldGen16, carrier_ne_module hc]

/-- A MOULD_WRITE of SLOT_TAG of a UL half. -/
theorem State.mouldWrite_slotTag {s : State} {d : Desc} (hc : d.carrier < 512) (hhalf : d.fld 0x10 15 14 = 1)
    (hpage : d.fld 0x10 13 11 = 0) (hlen : d.fld 0x10 10 6 = 1) (hword : d.fld 0x10 5 0 = 5) (htakes : s.carrierRefuses d.carrier = false) :
    s.mouldWrite d = (s.setCarrier d.carrier { s.carrier d.carrier with ul := (s.carrier d.carrier).ul.write 5 (d.w 0x20) }).complete
      (d.ref false) stOK ((s.carrier d.carrier).ul.gen % 65536) := by
  simp only [State.mouldWrite, mouldPlace_ul hc hhalf, hpage, hlen, hword, htakes]
  rw [if_neg Bool.false_ne_true]
  show (((s.writePage d.carrier 1 0 5 [d.w 0x20]).1.clampMould d.ring false (s.writePage d.carrier 1 0 5 [d.w 0x20]).2).complete
    (d.ref (false || !(s.writePage d.carrier 1 0 5 [d.w 0x20]).2.isEmpty)) stOK (s.mouldGen16 d.carrier 1)) = _
  rw [s.writePage_slotTag hc, s.storePageWord_ul hc, s.mouldGen16_ul hc]
  rfl

theorem HalfState.write_kept (h : HalfState) (key : Nat) (v : W32) :
    (h.write key v).armed = h.armed ∧ (h.write key v).felt = h.felt ∧ (h.write key v).gen = h.gen := by
  unfold HalfState.write
  split <;> exact ⟨rfl, rfl, rfl⟩

/-! ## Loads -/

/-- A MOULD_LOAD of pages of a UL half that are all there. -/
theorem State.mouldLoad_ul {s : State} {d : Desc} (hc : d.carrier < 512) (hhalf : d.fld 0x10 15 14 = 1) (hone : 1 ≤ d.fld 0x10 10 7)
    (hfit : d.fld 0x10 10 7 + d.fld 0x10 13 11 ≤ 8) (halign : d.w64 0x18 &&& 0x3F#64 = 0) (htakes : s.carrierRefuses d.carrier = false) :
    s.mouldLoad d = { s with slt.loads := s.slt.loads ++ [({
      ref := d.ref false, carrier := d.carrier, half := 1, page := d.fld 0x10 13 11, pages := d.fld 0x10 10 7, addr := d.w64 0x18 } : MouldLoad)] }.emit
        (.hostRead (s.descFn d) (d.w64 0x18) (d.fld 0x10 10 7 * 128)) := by
  have hpages : min (max 1 (d.fld 0x10 10 7)) (8 - d.fld 0x10 13 11) = d.fld 0x10 10 7 := by omega
  simp only [State.mouldLoad, mouldPlace_ul hc hhalf, if_neg (show ¬ 1 = 0 by decide), hpages, and_not_of_and_eq_zero halign,
    bne_self_eq_false, Bool.or_false, State.clampDesc_false, htakes]
  rfl

/-- The data of a load of one page. -/
theorem State.mouldLoadData_onePage {s : State} {ring : Nat} {tag : W32} {data : List W32} {l : MouldLoad}
    (hfind : s.slt.loads.find? (fun l => l.ref.ring == ring && l.ref.tag == tag) = some l) (hone : l.pages = 1) :
    let s1 : State := { s with slt.loads := s.slt.loads.erase l }
    let y := s1.writePage l.carrier l.half l.page 0 ((List.range 32).map (fun w => data.getD w 0))
    y.2 = [] → s.mouldLoadData ring tag true data = y.1.complete l.ref stOK (s1.mouldGen16 l.carrier l.half) := by
  intro s1 y hclean
  have hpage : s.mouldLoadData ring tag true data =
      (if (false || !y.2.isEmpty) && !l.ref.clamped then (y.2.foldl State.clampAt y.1).clampRing ring else y.2.foldl State.clampAt y.1).complete
        { l.ref with clamped := l.ref.clamped || (false || !y.2.isEmpty) } stOK (s1.mouldGen16 l.carrier l.half) := by
    simp only [State.mouldLoadData, hfind, hone, List.range_one, List.foldl_cons, List.foldl_nil, Nat.mul_zero, Nat.zero_add,
      Nat.add_zero]
    rfl
  rw [hpage, hclean]
  simp

/-- Data that fails leaves the mould as it is. -/
theorem State.mouldLoadData_failed {s : State} {ring : Nat} {tag : W32} (data : List W32) {l : MouldLoad}
    (hfind : s.slt.loads.find? (fun l => l.ref.ring == ring && l.ref.tag == tag) = some l) :
    s.mouldLoadData ring tag false data = State.complete { s with slt.loads := s.slt.loads.erase l } l.ref stBAD 0 := by
  simp only [State.mouldLoadData, hfind]
  rfl

theorem exec_mouldCopyDone {s : State} (hclk : s.clocked = true) {c : Nat} (hc : c < 512) (h : Half) :
    exec (.mouldCopyDone c h) s = .next (s.setCarrier c ((s.carrier c).setHalf h ((s.carrier c).half h).finishCopy)) :=
  (exec_of_clocked hclk rfl).trans (if_neg (carrier_ne_module hc))

/-! ## Arms -/

/-- An IMMEDIATE arm of the UL half of a carrier is decided by its UL half. -/
theorem State.arm_ul {s : State} {d : Desc} (hc : d.carrier < 512) (hstop : (d.w 0x10).getLsbD 3 = false)
    (hstart : (d.w 0x10).getLsbD 2 = false) (hhalf : d.fld 0x10 1 0 = 1) : s.arm d = s.armCarrier d d.carrier false false 1 false := by
  simp only [State.arm, carrierField_of_lt hc, carrierClamped_of_lt hc, hstop, hstart, hhalf, if_neg (carrier_ne_module hc)]
  rfl

theorem resolveArm_near {d : Nat} (h : d < 8192) (period : Nat) (e : Int) : resolveArm d period e = (e + d, false, false) := if_pos h

/-- An arm of a running UL half for the earliest slot it can reach. -/
theorem State.armCarrier_running {s : State} {d : Desc} {c : Nat} (himm : d.immediate = true) (hsync : s.tb.holdover = false)
    (hrun : (s.carrier c).mode = .running)
    (hfree : (s.carrier c).ul.armedElsewhere ((s.carrier c).cfg.earliest s.slt.originNs .ul s.tb.timeU) = false) :
    s.armCarrier d c false false 1 false = s.setCarrier c { s.carrier c with
      ul := (s.carrier c).ul.arm ((s.carrier c).cfg.earliest s.slt.originNs .ul s.tb.timeU) false false false (some (d.ref false)) } := by
  have hworks : (s.carrier c).refusesWork = false := by simp [Carrier.refusesWork, hrun]
  simp [State.armCarrier, hsync, hworks, hrun, himm, resolveArm_near (show 0 < 8192 by decide), hfree]

theorem State.armCarrier_holdover {s : State} {d : Desc} {c : Nat} (hhold : s.tb.holdover = true) :
    s.armCarrier d c false false 1 false = s.complete (d.ref false) stREFUSED 0 := if_pos hhold

theorem State.armCarrier_disabled {s : State} {d : Desc} {c : Nat} (hsync : s.tb.holdover = false) (hmode : (s.carrier c).mode = .disabled) :
    s.armCarrier d c false false 1 false = s.complete (d.ref false) stDISABLED 0 := by
  simp [State.armCarrier, hsync, Carrier.refusesWork, hmode]

theorem State.armCarrier_stopped {s : State} {d : Desc} {c : Nat} (hsync : s.tb.holdover = false) (hmode : (s.carrier c).mode = .stopped) :
    s.armCarrier d c false false 1 false = s.complete (d.ref false) stREFUSED 0 := by
  simp [State.armCarrier, hsync, Carrier.refusesWork, hmode]

/-- Settles O14: each command is brought to its one case by the fields of its descriptor, and the page clamps leave a plain word. -/
theorem mouldAndArm : Obligations.MouldAndArm := by
  unfold Obligations.MouldAndArm
  refine ⟨⟨?write, HalfState.write_kept, ?load, ?loadData, fun _ _ h hclk hc => exec_mouldCopyDone hclk hc h⟩, ⟨?arm, ?armed⟩, ?resolve⟩
  case write =>
    intro s d hclk hc hhalf hpage hlen hword htakes x
    exact (exec_of_clocked hclk rfl).trans (congrArg _ (State.mouldWrite_slotTag hc hhalf hpage hlen hword htakes))
  case load =>
    intro s d hclk hc hhalf hone hfit halign htakes
    exact (exec_of_clocked hclk rfl).trans (congrArg _ (State.mouldLoad_ul hc hhalf hone hfit halign htakes))
  case loadData =>
    intro s ring tag data l hclk hfind s1
    exact ⟨(exec_of_clocked hclk rfl).trans (congrArg _ (State.mouldLoadData_failed data hfind)),
      fun hone hclean => (exec_of_clocked hclk rfl).trans (congrArg _ (State.mouldLoadData_onePage hfind hone hclean))⟩
  case arm =>
    intro s d hclk hc hstop hstart hhalf himm x e
    have harm : exec (.arm d) s = .next (s.armCarrier d d.carrier false false 1 false) :=
      (exec_of_clocked hclk rfl).trans (congrArg _ (State.arm_ul hc hstop hstart hhalf))
    rw [harm]
    exact ⟨fun hsync hrun hfree => congrArg _ (State.armCarrier_running himm hsync hrun hfree),
      fun hhold => congrArg _ (State.armCarrier_holdover hhold),
      fun hsync hmode => congrArg _ (State.armCarrier_disabled hsync hmode),
      fun hsync hmode => congrArg _ (State.armCarrier_stopped hsync hmode)⟩
  case armed => exact fun h slot start stop late r => ⟨rfl, rfl, rfl, rfl, _, rfl, rfl, rfl, rfl, rfl⟩
  case resolve =>
    exact fun d period e => ⟨fun h => resolveArm_near h period e,
      fun h hpast => by rw [resolveArm, if_neg (Nat.not_lt.mpr h), if_pos hpast],
      fun h hahead => by rw [resolveArm, if_neg (Nat.not_lt.mpr h), if_neg (Nat.not_le.mpr hahead)]⟩

end Sys2Proof.Machine
end

section
/-! Carrier control, slot aborts and the grid origin (R50, R67, R74, R77). -/

namespace Sys2Proof.Machine

/-- A CARRIER_CTRL of a carrier acts on it and completes OK. -/
theorem State.carrierCtrl_carrier {s : State} {d : Desc} (hc : d.carrier < 512) (f : State → Nat → State) :
    s.carrierCtrl d false f = (f s d.carrier).complete (d.ref false) stOK 0 := by
  simp [State.carrierCtrl, carrierField_of_lt hc, carrierClamped_of_lt hc, carrier_ne_module hc]

/-- A stopped carrier is disabled at once. -/
theorem State.disableCarrier_stopped {s : State} {c : Nat} (hc : c < 512) (hmode : (s.carrier c).mode = .stopped)
    (hwf : mapWf (fun _ => ({} : Carrier)) s.slt.carriers = true) :
    s.disableCarrier c = ((s.setCarrier c { s.carrier c with mode := .disabled }).returnCarrier c).migDisable c := by
  have hset : s.carrierDisable c = s.setCarrier c { s.carrier c with mode := .disabled } := by
    simp only [State.carrierDisable, hmode]
  have hnow : ((s.setCarrier c { s.carrier c with mode := .disabled }).carrier c).mode = .disabled := by
    rw [State.carrier_setCarrier _ _ _ _ hc hwf, if_pos rfl]
  rw [State.disableCarrier, hset, hnow, hmode]
  rfl

/-- A SLOT_ABORT of the UL half of a carrier, IMMEDIATE. -/
theorem State.slotAbortDesc_ul {s : State} {d : Desc} (hc : d.carrier < 512) (hhalf : d.fld 0x10 1 0 = 1) (himm : d.immediate = true)
    (hworks : (s.carrier d.carrier).refusesWork = false) :
    s.slotAbortDesc d =
      let t := match s.abortTarget d d.carrier .ul with | some n => s.slotAbort d.carrier .ul n | none => s
      t.completeAt (d.ref false) stOK 0 (s.abortTarget d d.carrier .ul).isNone t.stampNow := by
  cases htarget : s.abortTarget d d.carrier .ul <;>
  simp only [State.slotAbortDesc, htarget, carrierField_of_lt hc, carrierClamped_of_lt hc, hhalf, himm, if_neg (carrier_ne_module hc),
    if_neg (show ¬ 1 = 0 by decide), if_neg (show ¬ 1 = 2 by decide), if_pos, hworks, Bool.not_true, Bool.and_false, Bool.false_and,
    bne_self_eq_false, Bool.or_false, State.clampDesc_false, if_neg Bool.false_ne_true, Option.isNone_none, Bool.true_and]

/-- Settles O15: the fields of the descriptor name one carrier and half, whose state chooses the case. -/
theorem carrierControl : Obligations.CarrierControl := by
  unfold Obligations.CarrierControl
  refine ⟨?control, ?abort, ?origin⟩
  case control =>
    intro s d hclk hc x
    refine ⟨fun hmode hwf => (exec_of_clocked hclk rfl).trans (congrArg _ ?_), fun hmode => (exec_of_clocked hclk rfl).trans (congrArg _ ?_)⟩
    · exact (State.carrierCtrl_carrier hc _).trans (congrArg (State.complete · _ _ _) (State.disableCarrier_stopped hc hmode hwf))
    · exact (State.carrierCtrl_carrier hc _).trans (congrArg (State.complete · _ _ _) (if_pos (beq_iff_eq.mpr hmode)))
  case abort =>
    intro s d hclk hc hhalf himm hworks
    have habort : exec (.slotAbort d) s = _ :=
      (exec_of_clocked hclk rfl).trans (congrArg Host.Outcome.next (State.slotAbortDesc_ul hc hhalf himm hworks))
    exact ⟨fun n htarget => by rw [habort, htarget]; rfl, fun htarget => by rw [habort, htarget]; rfl⟩
  case origin =>
    intro s v hopen
    have horigin : exec (.gridOriginSet v) s = .next (s.writeGridSecHi v) := congrArg _ (hostWriteTo_open hopen _)
    rw [horigin]
    exact ⟨fun h => congrArg _ (if_pos h), fun h => congrArg _ (if_neg (Bool.eq_false_iff.mp h))⟩

end Sys2Proof.Machine
end

section
/-! Slot boundaries and expiries (R53 to R58, R72, R77, R78). -/

namespace Sys2Proof.Machine

theorem State.fireFrame_due {s : State} (h : (s.slt.originNs + s.slt.nextFrame * frameNs) * uPerNs ≤ s.tb.timeU) :
    s.fireFrame = (({ s with slt.nextFrame := s.slt.nextFrame + 1 }.moduleCouch s.slt.nextFrame).sendTick s.slt.nextFrame).vatMark :=
  if_pos h

theorem State.fireFrame_early {s : State} (h : s.tb.timeU < (s.slt.originNs + s.slt.nextFrame * frameNs) * uPerNs) : s.fireFrame = s :=
  if_neg (Int.not_le.mpr h)

theorem State.expireDue_none {s : State} {c : Nat} {h : Half} (hdue : s.expiryDue c h = none) (fuel : Nat) : s.expireDue c h fuel = s := by
  cases fuel <;> simp only [State.expireDue, hdue]

theorem State.fireDue_none {s : State} {c : Nat} {h : Half} (hnone : ((s.carrier c).half h).awaits = none) : s.fireDue c h = s := by
  simp only [State.fireDue, hnone]

/-- A half whose boundary has come fires. -/
theorem State.fireDue_come {s : State} {c : Nat} {h : Half} {n : Int} (hsome : ((s.carrier c).half h).awaits = some n)
    (hcome : (s.carrier c).cfg.boundaryNs s.slt.originNs h n * uPerNs ≤ s.tb.timeU) : s.fireDue c h = s.fireHalf c h n := by
  simp only [State.fireDue, hsome, if_pos hcome]

/-- With one carrier listed, what is due is its expiries, the frame and its halves. -/
theorem State.boundaryFire_single {s : State} {c : Nat} {x : Carrier} (h : s.slt.carriers = [(c, x)]) :
    s.boundaryFire = ((((s.expireDue c .dl 8).expireDue c .ul 8).fireFrame.fireDue c .dl).fireDue c .ul) := by
  simp only [State.boundaryFire, h, mapKeys, List.map_cons, List.map_nil, List.foldl_cons, List.foldl_nil]

theorem State.carrier_single {s : State} {c : Nat} {x : Carrier} (h : s.slt.carriers = [(c, x)]) : s.carrier c = x := by
  rw [State.carrier, h]
  exact if_pos rfl

/-- A half that runs and holds a set armed for the slot makes it its felt set (R57). -/
theorem State.fireHalf_armed {s : State} {c : Nat} {h : Half} {n : Int} {a : ArmedSet} (hdis : ((s.carrier c).half h).disableNext = false)
    (harmed : ((s.carrier c).half h).armed = some a) (hrun : ((s.carrier c).half h).running = true) (hslot : a.slot = n)
    (hstart : a.start = false) (hstop : a.stop = false) :
    let x := s.carrier c
    let time := shortStampOf (x.cfg.boundaryNs s.slt.originNs h n * 65536)
    s.fireHalf c h n = ((s.setCarrier c (x.setHalf h { x.half h with felt := a.words, feltGen := a.gen, armed := none })).beginSlot c h n
      false (b2n a.late * 8) time).completeArms a.gen time a.refs := by
  simp [State.fireHalf, hdis, harmed, hrun, hslot, hstart, hstop, b2n]

/-- A half that runs without an armed set keeps its felt set and counts UNARMED (R58). -/
theorem State.fireHalf_unarmed {s : State} {c : Nat} {h : Half} {n : Int} (hdis : ((s.carrier c).half h).disableNext = false)
    (harmed : ((s.carrier c).half h).armed = none) :
    s.fireHalf c h n = (s.bumpFld (Reg.SLT_CCOUNT c) 15 0 1).beginSlot c h n false 4
      (shortStampOf ((s.carrier c).cfg.boundaryNs s.slt.originNs h n * 65536)) := by
  simp [State.fireHalf, hdis, harmed]

/-- A slot that expires leaves the live slots, aborted first where work of it is open (R78). -/
theorem State.expireSlot_eq (s : State) (c : Nat) (h : Half) (n : Int) :
    s.expireSlot c h n =
      let t := s.fhCloseAll c h n
      let u := if t.slotOpen c h n then ((t.slotAbort c h n).bump (Reg.SLT_CEXPIRED c)).raise Reg.SLT_EVENT 1 else t
      (((u.setCarrier c ((u.carrier c).setHalf h { (u.carrier c).half h with
        live := ((u.carrier c).half h).live.filter (·.slot != n) })).streamExpire c h (stampOf (u.carrier c).cfg.spf n)).fhExpire c h
          n).settleCarrier c := rfl

theorem exec_slotExpiry {s : State} (hclk : s.clocked = true) {c : Nat} {h : Half} {n : Int} (hdue : s.expiryDue c h = some n) :
    exec (.slotExpiry c h) s = .next (s.expireSlot c h n) := by
  refine (exec_of_clocked hclk (r := .next (s.slotExpiry c h)) rfl).trans (congrArg _ ?_)
  simp only [State.slotExpiry, hdue]

/-- Settles O16: what is due in a tick is found carrier by carrier, and a half's boundary is one case of its armed set. -/
theorem boundariesAndExpiry : Obligations.BoundariesAndExpiry := by
  unfold Obligations.BoundariesAndExpiry
  refine ⟨?frame, ?half, fun _ _ _ _ _ hdis harmed hrun hslot hstart hstop => State.fireHalf_armed hdis harmed hrun hslot hstart hstop,
    fun _ _ _ _ hdis harmed _ => State.fireHalf_unarmed hdis harmed, ?expiry⟩
  case frame =>
    intro s hclk hnone
    have hfire : exec .boundaryFire s = .next s.fireFrame :=
      (exec_of_clocked hclk (r := .next s.boundaryFire) rfl).trans (congrArg _ (by rw [State.boundaryFire, hnone]; rfl))
    rw [hfire]
    exact ⟨fun h => congrArg _ (State.fireFrame_due h), fun h => congrArg _ (State.fireFrame_early h)⟩
  case half =>
    intro s c x n hclk hone hearly hdl hul hdlNone hulSome hcome
    have hx := State.carrier_single hone
    refine (exec_of_clocked hclk (r := .next s.boundaryFire) rfl).trans (congrArg _ ?_)
    rw [State.boundaryFire_single hone, State.expireDue_none hdl, State.expireDue_none hul, State.fireFrame_early hearly,
      State.fireDue_none (h := .dl) (by rw [hx]; exact hdlNone), State.fireDue_come (h := .ul) (by rw [hx]; exact hulSome)
      (by rw [hx]; exact hcome)]
  case expiry =>
    intro s c h n hclk hdue t gone
    rw [exec_slotExpiry hclk hdue, s.expireSlot_eq c h n]
    exact ⟨fun hclosed => congrArg (fun u => Host.Outcome.next (gone u)) (if_neg (Bool.eq_false_iff.mp hclosed)),
      fun hopen => congrArg (fun u => Host.Outcome.next (gone u)) (if_pos hopen)⟩

end Sys2Proof.Machine
end

section
/-! Doorbells and host reads (R14, R81, R83, R84, R95, R96, R102, R104). -/

namespace Sys2Proof.Machine

/-! ## Doorbells -/

theorem thawed_of_clocked {s : State} (h : s.clocked = true) : s.glb.frozen = false := by
  simp only [State.clocked, Bool.and_eq_true] at h
  simpa using h.2

theorem inBar_two {fn offset : Nat} (h : offset < 0x80000) : inBar fn 2 offset = true := decide_eq_true h

/-- A doorbell within BAR2 of a function that is there. -/
theorem exec_doorbell {s : State} {fn offset : Nat} (hclk : s.clocked = true) (hflr : (s.fnOf fn).flr = false) (hfn : s.fnExists fn = true)
    (hin : offset < 0x80000) (width : Nat) (v : W64) :
    exec (.doorbell fn offset width v) s = .next (
      let r := s.ring (offset / 8)
      if (width != 4 && width != 8) || offset % 8 != 0 || (s.queue (offset / 8)).kind != 1 || !r.enable || r.owner != fn then
        s.clampAt Reg.HP_CLAMP_COUNT
      else (s.setRing (offset / 8) { r with hostIdx := (r.doorbellIndex (bitsOf v 15 0)).1 }).clampIf
        (r.doorbellIndex (bitsOf v 15 0)).2 Reg.HP_CLAMP_COUNT) :=
  (exec_of_clocked hclk (r := .next (s.doorbell fn offset width v)) rfl).trans
    (congrArg _ (if_neg (by simp [hflr, thawed_of_clocked hclk, hfn, inBar_two hin])))

/-- The doorbell of an enabled host ring of the writing function. -/
theorem exec_doorbell_ring {s : State} {fn qid width : Nat} (hclk : s.clocked = true) (hflr : (s.fnOf fn).flr = false)
    (hfn : s.fnExists fn = true) (hqid : qid < 65536) (hwidth : width = 4 ∨ width = 8) (hkind : (s.queue qid).kind = 1)
    (hon : (s.ring qid).enable = true) (howner : (s.ring qid).owner = fn) (v : W64) :
    exec (.doorbell fn (8 * qid) width v) s =
      .next ((s.setRing qid { s.ring qid with hostIdx := ((s.ring qid).doorbellIndex (bitsOf v 15 0)).1 }).clampIf
        ((s.ring qid).doorbellIndex (bitsOf v 15 0)).2 Reg.HP_CLAMP_COUNT) := by
  rw [exec_doorbell hclk hflr hfn (by omega), Nat.mul_div_cancel_left qid (by decide)]
  exact congrArg _ (if_neg (by rcases hwidth with rfl | rfl <;> simp [hkind, hon, howner]))

theorem Ring.doorbellIndex_inside {r : Ring} {i : Nat} (hdir : r.completion = false) (hi : i < r.size) : r.doorbellIndex i = (i, false) := by
  simp [Ring.doorbellIndex, hdir, Nat.mod_eq_of_lt hi]

theorem Ring.doorbellIndex_beyond {r : Ring} {i : Nat} (hdir : r.completion = false) (hi : r.size ≤ i) :
    r.doorbellIndex i = (i % r.size, true) := by
  have hne : i % r.size ≠ i := Nat.ne_of_lt (Nat.lt_of_lt_of_le (Nat.mod_lt i (Nat.two_pow_pos _)) hi)
  simp [Ring.doorbellIndex, hdir, hne]

/-- An INDEX of a completion ring that passes DEV_IDX is taken as DEV_IDX (R95). -/
theorem Ring.doorbellIndex_passes {r : Ring} {i : Nat} (hdir : r.completion = true) (hhost : r.hostIdx < r.size) (hi : i < r.size)
    (hpass : (r.devIdx + r.size - r.hostIdx) % r.size < (i + r.size - r.hostIdx) % r.size) : r.doorbellIndex i = (r.devIdx, true) := by
  simp [Ring.doorbellIndex, hdir, Nat.mod_eq_of_lt hi, Nat.mod_eq_of_lt hhost, hpass]

/-! ## Host reads -/

theorem cfgAnswers_of_vfAnswers {s : State} {fn : Nat} (h : s.vfAnswers fn = true) : s.cfgAnswers fn = true :=
  (Bool.and_eq_true_iff.mp h).1

theorem exec_lowHalfRead_config {s : State} {fn : Nat} (h : s.vfAnswers fn = true) (f : CfgField) :
    exec (.lowHalfRead ⟨fn, .config f⟩) s = .next { s with hostRead := s.configField fn f } := by
  rw [exec_lowHalfRead, State.hostAccess, if_pos (cfgAnswers_of_vfAnswers h)]

theorem inBar_vf {fn a : Nat} (hfn : 1 ≤ fn) (ha : a < 0x4000) : inBar fn 0 a = true := by
  have hne : fn ≠ 0 := by omega
  simp [inBar, barOf, hne, ha]

/-- A read of a virtual function's BAR0. -/
theorem exec_lowHalfRead_vf {s : State} {fn a : Nat} (h : s.vfAnswers fn = true) (hfn : 1 ≤ fn) (ha : a < 0x4000) (w : Nat) :
    exec (.lowHalfRead ⟨fn, .bar0 a w⟩) s = .next { s with hostRead := (s.msixRead fn a w).getD [0] } := by
  rw [exec_lowHalfRead, State.hostAccess, if_neg (Nat.ne_of_gt hfn), h, inBar_vf hfn ha]
  rfl

theorem msixRead_table {s : State} {fn v k : Nat} (hfn : 1 ≤ fn) (hv : v < 32) (hk : k < 4) :
    s.msixRead fn (16 * v + 4 * k) 4 = some [(s.msixOf (32 * fn + v)).word k] := by
  have hbase : msixTable fn = 0 := if_neg (by omega)
  have hin : inMsixTable fn (16 * v + 4 * k) = true := by simp [inMsixTable, hbase]; omega
  have hword : s.msixTableWord fn (16 * v + 4 * k) = (s.msixOf (32 * fn + v)).word k := by
    rw [State.msixTableWord, if_neg (by omega), show (16 * v + 4 * k) / 16 = v by omega, show (16 * v + 4 * k) % 16 / 4 = k by omega]
  rw [State.msixRead, if_pos hin, hbase, Nat.sub_zero, wordsAt, if_pos ⟨rfl, by omega⟩, hword]

theorem msixRead_pba {s : State} {fn : Nat} (hfn : 1 ≤ fn) : s.msixRead fn 0x2000 4 = some [s.pbaWord fn 0] := by
  have hne : fn ≠ 0 := by omega
  simp [State.msixRead, inMsixTable, inMsixPba, msixTable, msixPba, hne, wordsAt]

theorem msixRead_elsewhere {s : State} {fn a : Nat} (hfn : 1 ≤ fn) (hlo : 512 ≤ a) (hpba : a < 0x2000 ∨ 0x2008 ≤ a) (w : Nat) :
    s.msixRead fn a w = none := by
  have hne : fn ≠ 0 := by omega
  have htable : inMsixTable fn a = false := by simp [inMsixTable, msixTable, hne, hlo]
  have hno : inMsixPba fn a = false := by
    simp only [inMsixPba, msixPba, if_neg hne, decide_eq_false_iff_not]
    omega
  simp [State.msixRead, htable, hno]

/-- A read of a register that latches nothing. -/
theorem exec_lowHalfRead_plain {s : State} {a : Nat} (ha : a < 0x4000000) (h4 : a % 4 = 0) (htable : inMsixTable 0 a = false)
    (hpba : inMsixPba 0 a = false) (hcount : latchCount a = 0) (hans : s.bar0Answers a = true)
    (hready : s.glb.coreReady = true ∨ blockOf a = some .glb) (hiso : s.regIsolated a = false) (hsettled : s.settleRead a = s) :
    exec (.lowHalfRead ⟨0, .bar0 a 4⟩) s = .next { s with hostRead := [s.readReg a] } := by
  rw [exec_lowHalfRead, hostAccess_bar0_reg ha htable hpba, hostReadReg_open hans h4 hready hiso, hcount, hsettled]
  rfl

/-- Configuration space of every function (R81, R83, R84). -/
theorem configField_table (s : State) (fn : Nat) :
    ∀ p ∈ [(CfgField.deviceId, [if fn = 0 then 0x9616#32 else 0x9617#32]), (.revisionId, [0xB0#32]), (.classCode, [0x0B4000#32]),
        (.bar 0, if fn = 0 then [0xFC000004#32, 0xFFFFFFFF#32] else [0xFFFFC004#32, 0xFFFFFFFF#32]),
        (.bar 2, [0xFFF80004#32, 0xFFFFFFFF#32]), (.bar 4, if fn = 0 then [0xC#32, 0xFFFFFFFF#32] else [0#32, 0#32]),
        (.msixTableSize, [31#32])], s.configField fn p.1 = p.2 := by
  by_cases h : fn = 0
  · subst h
    simp [State.configField, barOf, lo32, hi32, b2n]
  · simp [State.configField, barOf, lo32, hi32, b2n, h]

/-- Settles O17: a doorbell is the index it sets in the ring it names, and a host read is what the region it falls in holds. -/
theorem doorbells : Obligations.Doorbells := by
  unfold Obligations.Doorbells
  refine ⟨⟨?ring, ?discarded⟩, ?bar2, fun _ _ => exec_lowHalfRead_plain, ?msix, ?elsewhere, ?config, ?sriov⟩
  case ring =>
    intro s fn qid width v hclk hflr hfn hqid hwidth hkind hon howner r
    rw [exec_doorbell_ring hclk hflr hfn hqid hwidth hkind hon howner]
    refine ⟨fun hdir hi => ?_, fun hdir hi => ?_, fun hdir _ hhost hi hpass => ?_⟩
    · rw [Ring.doorbellIndex_inside hdir hi]
      rfl
    · rw [Ring.doorbellIndex_beyond hdir hi]
      rfl
    · rw [Ring.doorbellIndex_passes hdir hhost hi hpass]
      rfl
  case discarded =>
    intro s fn offset width v hclk hflr hfn hin hbad
    rw [exec_doorbell hclk hflr hfn hin]
    refine congrArg _ (if_pos ?_)
    rcases hbad with ⟨h4, h8⟩ | h | h | h | h <;> simp [*]
  case bar2 =>
    intro s fn o w h ho
    rw [exec_lowHalfRead, State.hostAccess, h, inBar_two ho]
    rfl
  case msix =>
    intro s fn v k h hfn hv hk
    rw [exec_lowHalfRead_vf h hfn (by omega), exec_lowHalfRead_vf h hfn (by decide), msixRead_table hfn hv hk, msixRead_pba hfn]
    exact ⟨rfl, rfl⟩
  case elsewhere =>
    intro s fn a w h hfn hlo hhi hpba
    rw [exec_lowHalfRead_vf h hfn hhi, msixRead_elsewhere hfn hlo hpba]
    rfl
  case config =>
    intro s fn h p hp
    rw [exec_lowHalfRead_config h, configField_table s fn p hp]
  case sriov =>
    intro s h p hp
    have hfield : s.configField 0 p.1 = p.2 := by
      revert p
      simp [State.configField, w32]
    rw [exec_lowHalfRead_config h, hfield]

end Sys2Proof.Machine
end

section
/-! Descriptor batches: their fetch, their landing and the delivery of what they bring (R87 to R91, R98, R99, R101). -/

namespace Sys2Proof.Machine

/-! ## Batches -/

theorem exec_fetchBatch {s : State} {q : Nat} (hclk : s.clocked = true)
    (hnext : nextInRound s.hp.rrLast ((s.hp.rings.filter (fun p => s.fetchable p.2)).map Prod.fst) = some q)
    (hroom : s.hp.inFlight.length < maxBatches) (hfew : s.undelivered + s.batchLength (s.ring q) ≤ maxUndelivered) :
    let r := s.ring q
    let n := s.batchLength r
    let s1 := (s.setRing q { r with fetchIdx := (r.fetchIdx + n) % r.size, openCount := r.openCount + n }).setRing r.cq
      { s.ring r.cq with openCount := (s.ring r.cq).openCount + n }
    exec .fetchBatch s = .next ({ s1 with hp.inFlight := s1.hp.inFlight ++ [(⟨q, r.fetchIdx, n⟩ : Batch)], hp.rrLast := q }.emit
      (.hostRead r.owner (r.base + BitVec.ofNat 64 (r.fetchIdx * 64)) (n * 64))) := by
  have hgo : ¬ (maxBatches ≤ s.hp.inFlight.length ∨ maxUndelivered < s.undelivered + s.batchLength (s.ring q)) := by omega
  refine (exec_of_clocked hclk (r := .next s.fetchBatch) rfl).trans (congrArg _ ?_)
  simp only [State.fetchBatch, hnext, if_neg hgo]

theorem exec_fetchBatch_none {s : State} (hclk : s.clocked = true)
    (hnext : nextInRound s.hp.rrLast ((s.hp.rings.filter (fun p => s.fetchable p.2)).map Prod.fst) = none) :
    exec .fetchBatch s = .next s := by
  refine (exec_of_clocked hclk (r := .next s.fetchBatch) rfl).trans (congrArg _ ?_)
  simp only [State.fetchBatch, hnext]

/-- What a batch that lands leaves: DEV_IDX behind it and written back, then its descriptors or what tells their failure. -/
theorem State.batchLands_some {s : State} {q : Nat} {b : Batch} {rest : List Batch} (htake : takeBatch q s.hp.inFlight = some (b, rest))
    (descs : List (List W32)) :
    let r := s.ring q
    let s1 := ({ s with hp.inFlight := rest }.setRing q { r with devIdx := (b.slot + b.count) % r.size }).writeBack q
    (r.enable = true → s.batchLands q true descs = { s1 with
      hp.fetched := s1.hp.fetched ++ ((List.range b.count).map (fun i => parseDesc q (descs.getD i []))).mapIdx (fun i d => (⟨s1.hp.nextSeq + i, d⟩ : Fetched)),
      hp.nextSeq := s1.hp.nextSeq + b.count }) ∧
    s.batchLands q false descs = (List.range b.count).foldl (fun s i =>
      s.complete { ring := q, tag := 0xFFFFFFFF#32 } stBAD ((b.slot + i) % r.size)) s1 := by
  intro r s1
  refine ⟨fun hon => ?_, ?_⟩
  · rw [State.batchLands, htake]
    exact if_neg (show ¬ (!r.enable) = true by rw [hon]; decide)
  · rw [State.batchLands, htake]
    rfl

/-! ## Delivery -/

/-- The types a block takes by one command (R89). -/
noncomputable def plainTypes : List (Nat × (Desc → Instr)) :=
  [(0x0101, .queueWrite), (0x0200, .taskDefine), (0x0201, .taskArm), (0x0202, .eventSet), (0x0203, .taskCancel),
   (0x0204, .sigDefine), (0x0300, .mouldWrite), (0x0301, .mouldLoad), (0x0302, .arm), (0x0303, .slotAbort), (0x0400, .dmaRun),
   (0x0402, .dmaAbort), (0x0501, .spaAbort), (0x0601, .codAbort), (0x0701, .spcAbort), (0x0703, .spcTxq), (0x0801, .fhRxbuf),
   (0x0900, .stfBind), (0x0A01, .capHostbuf), (0x0A02, .capPressStart), (0x0A03, .capPressStop), (0x0B00, .memFill)]

/-- The job types, with the engine each is for. -/
noncomputable def jobTypes : List (Nat × Nat × (Desc → Instr)) := [(0x0500, 0, .spaJob), (0x0600, 1, .codJob), (0x0700, 2, .spcJob)]

theorem typeOf_of_known {d : Desc} {t : Nat} (ht : knownTypes.contains t = true) (h : d.type = t) : typeOf d = t := by
  rw [typeOf, h, if_pos ht]

theorem accept_plainTypes {d : Desc} {p : Nat × (Desc → Instr)} (hp : p ∈ plainTypes) (h : d.type = p.1) (u : State) :
    accept d u = exec (p.2 d) u := by
  have hknown : knownTypes.contains p.1 = true :=
    List.all_eq_true.mp (show plainTypes.all (knownTypes.contains ·.1) = true by decide) p hp
  have ht := typeOf_of_known hknown h
  revert p
  simp only [plainTypes, List.forall_mem_cons]
  refine ⟨?_, ?_, ?_, ?_, ?_, ?_, ?_, ?_, ?_, ?_, ?_, ?_, ?_, ?_, ?_, ?_, ?_, ?_, ?_, ?_, ?_, ?_, by simp⟩ <;>
  · intro _ _ ht
    rw [accept, ht]
    rfl

theorem accept_jobTypes {d : Desc} {p : Nat × Nat × (Desc → Instr)} (hp : p ∈ jobTypes) (h : d.type = p.1) (u : State) :
    accept d u = exec (p.2.2 d) (u.served p.2.1 8) := by
  have hknown : knownTypes.contains p.1 = true :=
    List.all_eq_true.mp (show jobTypes.all (knownTypes.contains ·.1) = true by decide) p hp
  have ht := typeOf_of_known hknown h
  revert p
  simp only [jobTypes, List.forall_mem_cons]
  refine ⟨?_, ?_, ?_, by simp⟩ <;>
  · intro _ _ ht
    rw [accept, ht]
    rfl

/-- A type that is 0 or that no chapter defines is taken as NOP. -/
theorem accept_nop {d : Desc} (h : typeOf d = 0) (u : State) : accept d u = exec (.nop d) u := by
  rw [accept, h]
  rfl

/-- The oldest descriptor of a ring for a block is accepted where nothing holds it. -/
theorem exec_descriptorDelivery {s : State} {ring block : Nat} {f : Fetched} (hclk : s.clocked = true)
    (hfind : s.hp.fetched.find? (fun f => f.desc.ring == ring && blockOfDesc f.desc == block) = some f) (hfence : s.fenceHolds f = false)
    (hroom : s.jobHeld f.desc = false) :
    exec (.descriptorDelivery ring block) s = accept f.desc { s with hp.fetched := s.hp.fetched.erase f } := by
  have hgo : ¬ (s.fenceHolds f || s.jobHeld f.desc) = true := by simp [hfence, hroom]
  show execDescriptorDelivery ring block s = _
  rw [execDescriptorDelivery, whenClocked_true hclk, hfind]
  exact if_neg hgo

theorem exec_nop {s : State} (hclk : s.clocked = true) (d : Desc) :
    exec (.nop d) s = .next ((s.clampDesc d (d.type != 0) Reg.HP_CLAMP_COUNT).complete (d.ref (d.type != 0)) stOK 0) :=
  exec_of_clocked hclk rfl

theorem exec_nop_zero {s : State} (hclk : s.clocked = true) {d : Desc} (h : d.type = 0) :
    exec (.nop d) s = .next (s.complete (d.ref false) stOK 0) := by
  rw [exec_nop hclk, h]
  rfl

/-- Settles O18: a batch's fetch and landing are one case each, and a delivery is the command that the type names. -/
theorem fetchAndDelivery : Obligations.FetchAndDelivery := by
  unfold Obligations.FetchAndDelivery
  refine ⟨?fetch, ?lands, fun _ => exec_fetchBatch_none, ?delivery, ?nop⟩
  case fetch =>
    rintro s q n hclk hnext rfl hroom hfew
    exact exec_fetchBatch hclk hnext hroom hfew
  case lands =>
    intro s q descs b rest hclk htake r s1
    have hlands := State.batchLands_some htake descs
    exact ⟨fun hon => (exec_of_clocked hclk rfl).trans (congrArg _ (hlands.1 hon)), (exec_of_clocked hclk rfl).trans (congrArg _ hlands.2)⟩
  case delivery =>
    intro s ring block f hclk hfind hfence hroom u
    have hdeliver := exec_descriptorDelivery hclk hfind hfence hroom
    refine ⟨fun p hp h => hdeliver.trans (accept_plainTypes hp h u), fun p hp h => hdeliver.trans (accept_jobTypes hp h u),
      fun h => hdeliver.trans (accept_nop (if_neg h) u), fun h => ?_, exec_answers _ _⟩
    rw [hdeliver, accept_nop (typeOf_of_known (by decide) h), exec_nop_zero (s := u) hclk h]
  case nop =>
    intro s d hclk
    refine ⟨exec_nop_zero hclk, fun h => ?_⟩
    rw [exec_nop hclk, bne_iff_ne.mpr h]
    rfl

end Sys2Proof.Machine
end

section
/-! The ring context window (R106, R107, R109). -/

namespace Sys2Proof.Machine

theorem rctxGate_free {s : State} (h : s.hp.busy = false) (f : State → State) : s.rctxGate f = f s :=
  if_neg (Bool.eq_false_iff.mp h)

theorem rctxGate_busy {s : State} (h : s.hp.busy = true) (f : State → State) : s.rctxGate f = s.clampAt Reg.HP_CLAMP_COUNT := if_pos h

theorem exec_ringCommit {s : State} {v : W32} (hopen : s.hostOpen Reg.HP_RCTX_CMD) (hfree : s.hp.busy = false) (hgo : bitOf v 0 = true) :
    exec (.ringCommit v) s = .next { s.applyRctx with hp.busy := true } :=
  congrArg _ ((hostWriteTo_open hopen _).trans ((rctxGate_free hfree _).trans (if_pos hgo)))

/-- What a commit makes of the selected host ring, by the ENABLE transition and the conditions it names. -/
theorem State.applyRctx_cases {s : State} (hkind : (s.queue (s.fld Reg.HP_RCTX_SEL 15 0)).kind = 1) :
    let q := s.fld Reg.HP_RCTX_SEL 15 0
    let new := s.stagedRing (s.ring q)
    ((s.ring q).enable = false → new.enable = false → s.applyRctx = s.setRing q new) ∧
    ((s.ring q).enable = false → new.enable = true → s.ringEnableOk new = true → (s.ring q).openCount = 0 →
      s.applyRctx = s.setRing q new.started) ∧
    ((s.ring q).enable = false → new.enable = true → s.ringEnableOk new = true → (s.ring q).openCount ≠ 0 →
      s.applyRctx = s.setRing q { new with enable := false, enablePending := true }) ∧
    ((s.ring q).enable = false → new.enable = true → s.ringEnableOk new = false →
      s.applyRctx = (s.setRing q { new with enable := false }).clampAt Reg.HP_CLAMP_COUNT) ∧
    ((s.ring q).enable = true → new.enable = false → (s.ring q).completion = true → s.cqInUse q = true →
      s.applyRctx = s.clampAt Reg.HP_CLAMP_COUNT) := by
  intro q new
  have hcases : s.applyRctx = match (s.ring q).enable, new.enable with
      | false, false => s.setRing q new
      | false, true =>
        if !s.ringEnableOk new then (s.setRing q { new with enable := false }).clampAt Reg.HP_CLAMP_COUNT
        else if (s.ring q).openCount != 0 then s.setRing q { new with enable := false, enablePending := true }
        else s.setRing q new.started
      | true, true => (s.setRing q ((s.ring q).withSoft new)).clampIf ((s.ring q).hardDiffers new) Reg.HP_CLAMP_COUNT
      | true, false =>
        if (s.ring q).completion then
          (if s.cqInUse q then s.clampAt Reg.HP_CLAMP_COUNT else s.setRing q { s.ring q with enable := false })
        else s.disableRing q := if_neg (by simp [hkind])
  refine ⟨fun hold hnew => ?_, fun hold hnew hok hopen => ?_, fun hold hnew hok hopen => ?_, fun hold hnew hok => ?_,
    fun hold hnew hdir huse => ?_⟩ <;> rw [hcases, hold, hnew] <;> dsimp only
  · rw [if_neg (by rw [hok]; decide), if_neg (by simp [hopen])]
  · rw [if_neg (by rw [hok]; decide), if_pos (by simpa using hopen)]
  · rw [if_pos (by rw [hok]; decide)]
  · rw [if_pos hdir, if_pos huse]

/-- Settles O19: past its gates a write of the window selects, or commits by the case of its ENABLE transition. -/
theorem ringContextWindow : Obligations.RingContextWindow := by
  unfold Obligations.RingContextWindow
  refine ⟨?select, ?commit, ?done, ?busy⟩
  case select => exact fun s v hopen hfree => congrArg _ ((hostWriteTo_open hopen _).trans (rctxGate_free hfree _))
  case commit =>
    intro s v hopen hfree hgo q new hkind
    obtain ⟨hoff, hon, hheld, hrefused, hused⟩ := State.applyRctx_cases hkind
    rw [exec_ringCommit hopen hfree hgo]
    exact ⟨fun h1 h2 => by rw [hoff h1 h2], fun h1 h2 h3 h4 => by rw [hon h1 h2 h3 h4], fun h1 h2 h3 h4 => by rw [hheld h1 h2 h3 h4],
      fun h1 h2 h3 => by rw [hrefused h1 h2 h3], fun h1 h2 h3 h4 => by rw [hused h1 h2 h3 h4]⟩
  case done => exact fun s hclk hbusy => (exec_of_clocked hclk rfl).trans (if_pos hbusy)
  case busy =>
    exact fun s v hbusy => ⟨fun hopen => congrArg _ ((hostWriteTo_open hopen _).trans (rctxGate_busy hbusy _)),
      fun hopen => congrArg _ ((hostWriteTo_open hopen _).trans (rctxGate_busy hbusy _))⟩

end Sys2Proof.Machine
end

section
/-! Completion entries, moderation and interrupts (R92 to R94, R103, R104). -/

namespace Sys2Proof.Machine

/-- A host write of a function that is bus master and not in reset leaves at once. -/
theorem State.hostWrite_sent {s : State} {w : HostWrite} (hflr : (s.fnOf w.fn).flr = false) (hmaster : (s.fnOf w.fn).busMaster = true) :
    s.hostWrite w = s.emit (.hostWrite w) := by
  simp [State.hostWrite, hflr, hmaster]

/-- The entry of a ring without an interrupt, that no reset waits to disable and no enable waits for. -/
theorem State.postEntry_quiet {s : State} {cq fn : Nat} (hflr : (s.fnOf fn).flr = false) (hmaster : (s.fnOf fn).busMaster = true)
    (hirq : (s.ring cq).irqEn = false) (hzero : (s.ring cq).disableAtZero = false) (hpend : (s.ring cq).enablePending = false)
    (tag : W32) (specific status : Nat) (late clamped : Bool) (time : W64) :
    let r := s.ring cq
    let dev := (r.devIdx + 1) % r.size
    s.postEntry cq fn tag false specific status late clamped time =
      (s.emit (.hostWrite ⟨fn, 2, cq, tag, r.base + BitVec.ofNat 64 (r.devIdx * 16), bytesOfNat 4 tag.toNat
        ++ bytesOfNat 4 (completionWord specific status late clamped r.phase) ++ bytesOfNat 8 time.toNat, 0⟩)).setRing cq
          { r with devIdx := dev, phase := if dev = 0 then !r.phase else r.phase, openCount := r.openCount - 1,
                   unsignalled := r.unsignalled + 1 } := by
  unfold State.postEntry
  dsimp only
  rw [State.hostWrite_sent hflr hmaster, hirq, hzero, hpend]
  simp

theorem State.moderationTimer_due {s : State} {q : Nat} (hdir : (s.ring q).completion = true) (hirq : (s.ring q).irqEn = true)
    (htime : (s.ring q).modTime ≠ 0) (hnew : (s.ring q).unsignalled ≠ 0) :
    s.moderationTimer q = (s.setRing q { s.ring q with unsignalled := 0 }).assertFor q ((s.ring q).owner * 32 + (s.ring q).vec) := by
  simp [State.moderationTimer, hdir, hirq, htime, hnew, State.signalRing]

/-- Settles O20: each command meets the gate its hypotheses open, and is the one effect behind it. -/
theorem completionsAndInterrupts : Obligations.CompletionsAndInterrupts := by
  unfold Obligations.CompletionsAndInterrupts
  refine ⟨?entry, ?moderation, ?unmask, ?pending, ?master, ?vfs⟩
  case entry =>
    exact fun s cq fn specific status tag late clamped time hflr hmaster hirq hzero hpend =>
      State.postEntry_quiet hflr hmaster hirq hzero hpend tag specific status late clamped time
  case moderation =>
    exact fun s q hclk hdir hirq htime hnew => (exec_of_clocked hclk rfl).trans (congrArg _ (State.moderationTimer_due hdir hirq htime hnew))
  case unmask =>
    intro s v hv hans
    show execMsixUnmask v false s = _
    rw [execMsixUnmask, if_neg Bool.false_ne_true, if_pos hv, if_pos hans]
    rfl
  case pending => exact fun s v hpba hen hmask hfrozen => if_pos (by rw [hpba, hen, hmask, hfrozen]; rfl)
  case master => exact fun s f hclk hfn hflr => (exec_of_clocked hclk rfl).trans (congrArg _ (if_pos (by simp [hfn, hflr])))
  case vfs =>
    intro s e n hclk hflr
    have hmin : min n 63 = if 63 < n then 63 else n := by split <;> omega
    rw [← hmin]
    exact (exec_of_clocked hclk rfl).trans (congrArg _ (if_neg (Bool.eq_false_iff.mp hflr)))

end Sys2Proof.Machine
end

section
/-! Items: their messages at the queue's port, their becoming visible and their reads (R114 to R122, R126). -/

namespace Sys2Proof.Machine

/-! ## Messages of producers -/

theorem exec_startOfItem {s : State} (hclk : s.clocked = true) (qid prio : Nat) (p : Producer) (tag : BitVec 16) :
    exec (.startOfItem qid p prio tag) s = .next (s.sendPort ⟨qid, p, .start prio tag⟩) := exec_of_clocked hclk rfl
theorem exec_queueWord {s : State} (hclk : s.clocked = true) (qid : Nat) (p : Producer) (w : QWord) :
    exec (.queueWord qid p w) s = .next (s.sendPort ⟨qid, p, .word w⟩) := exec_of_clocked hclk rfl
theorem exec_itemCommit {s : State} (hclk : s.clocked = true) (qid : Nat) (p : Producer) :
    exec (.itemCommit qid p) s = .next (s.sendPort ⟨qid, p, .commit⟩) := exec_of_clocked hclk rfl

/-- A message behind one of its producer that waits at the port waits too. -/
theorem State.sendPort_waits {s : State} {m : PortMsg} (h : s.qm.ports.any (fun x => x.qid == m.qid && x.prod == m.prod) = true) :
    s.sendPort m = { s with qm.ports := s.qm.ports ++ [m] } := if_pos h

theorem State.sendPort_takes {s t : State} {m : PortMsg} (h : s.qm.ports.any (fun x => x.qid == m.qid && x.prod == m.prod) = false)
    (hop : s.portOp m = (t, true)) : s.sendPort m = t.retryWrites := by
  rw [State.sendPort, h, if_neg Bool.false_ne_true, hop]
  rfl

theorem State.sendPort_held {s t : State} {m : PortMsg} (h : s.qm.ports.any (fun x => x.qid == m.qid && x.prod == m.prod) = false)
    (hop : s.portOp m = (t, false)) : s.sendPort m = State.retryWrites { t with qm.ports := t.qm.ports ++ [m] } := by
  rw [State.sendPort, h, if_neg Bool.false_ne_true, hop]
  rfl

/-- An enabled queue is put back as it is. -/
theorem State.putQueue_enabled {q : Queue} (h : q.enable = true) (s : State) (qid : Nat) : s.putQueue qid q = s.setQueue qid q := by
  simp [State.putQueue, h]

/-! ## Start of an item -/

theorem State.portOp_start {s : State} {qid : Nat} (hkind : (s.queue qid).storable = true) (p : Producer) (prio : Nat) (tag : BitVec 16) :
    s.portOp ⟨qid, p, .start prio tag⟩ =
      (s.putQueue qid ((s.queue qid).start p prio tag).1, ((s.queue qid).start p prio tag).2) := if_pos hkind

/-- A producer without an open item opens one. -/
theorem Queue.start_opens {q : Queue} {p : Producer} (hon : q.enable = true) (hnone : (q.openOf p).isSome = false)
    (hroom : q.opens.length < maxOpen) (prio : Nat) (tag : BitVec 16) :
    q.start p prio tag = ({ q.unmark p with opens := q.opens ++ [⟨p, ⟨prio % 8, tag, [], 0⟩, .writing⟩] }, true) := by
  have hroom' : ¬ maxOpen ≤ (q.unmark p).opens.length := Nat.not_le.mpr hroom
  have hon' : (q.unmark p).enable = true := hon
  simp only [Queue.start, hnone, Bool.false_eq_true, if_false, hon', Bool.not_true, if_neg hroom']
  rfl

/-- One that has an item open rewinds and counts it first. -/
theorem Queue.start_reopens {q : Queue} {p : Producer} (hon : q.enable = true) (hsome : (q.openOf p).isSome = true)
    (hroom : (q.closeItem p).opens.length < maxOpen) (prio : Nat) (tag : BitVec 16) :
    q.start p prio tag = ({ (q.closeItem p).countDrop.unmark p with
      opens := (q.closeItem p).opens ++ [⟨p, ⟨prio % 8, tag, [], 0⟩, .writing⟩] }, true) := by
  have hroom' : ¬ maxOpen ≤ ((q.closeItem p).countDrop.unmark p).opens.length := Nat.not_le.mpr hroom
  have hon' : ((q.closeItem p).countDrop.unmark p).enable = true := hon
  simp only [Queue.start, hsome, if_true, hon', Bool.not_true, Bool.false_eq_true, if_false, if_neg hroom']
  rfl

/-! ## Words -/

theorem State.portOp_word_takes {s : State} {qid : Nat} {p : Producer} {w : QWord} {q : Queue}
    (h : (s.queue qid).word s.glb.memReady p w = (q, true)) : s.portOp ⟨qid, p, .word w⟩ = (s.putQueue qid q, true) := by
  simp [State.portOp, State.putWords, h]

theorem State.portOp_word_held {s : State} {qid : Nat} {p : Producer} {w : QWord} {q : Queue}
    (h : (s.queue qid).word s.glb.memReady p w = (q, false)) : s.portOp ⟨qid, p, .word w⟩ = (s.setQueue qid q, false) := by
  simp [State.portOp, State.putWords, h]

/-- What becomes of a word of a producer with an open item (R117, R118). -/
theorem Queue.word_cases {q : Queue} {p : Producer} {o : OpenItem} (hmark : q.dropMark p = none) (hopen : q.openOf p = some o)
    (ready : Bool) (w : QWord) :
    (o.item.words.length < q.itemMax → (q.kind = 2 → ready = true) → q.hasRoom o.item.prio = true → q.word ready p w = (q.addWord p w, true)) ∧
    (q.itemMax ≤ o.item.words.length → q.word ready p w = (q.rewindFor p stREFUSED, true)) ∧
    (o.item.words.length < q.itemMax → q.kind = 2 → ready = false → q.word ready p w = (q.rewindFor p stBAD, true)) ∧
    (o.item.words.length < q.itemMax → q.kind ≠ 2 → q.hasRoom o.item.prio = false → q.dropsFor p = true →
      q.word ready p w = (q.rewindFor p stREFUSED, true)) ∧
    (o.item.words.length < q.itemMax → q.kind ≠ 2 → q.hasRoom o.item.prio = false → q.dropsFor p = false → q.stuck = false →
      q.word ready p w = (q, false)) := by
  simp only [Queue.word, hmark, hopen]
  refine ⟨fun hlen hready hroom => ?_, fun hlen => if_pos hlen, fun hlen hkind hready => ?_, fun hlen hkind hroom hdrop => ?_,
    fun hlen hkind hroom hdrop hstuck => ?_⟩
  · have hmem : ¬ (q.kind == 2 && !ready) = true := by simpa using hready
    rw [if_neg (Nat.not_le.mpr hlen), if_neg hmem, if_pos hroom]
  · rw [if_neg (Nat.not_le.mpr hlen), if_pos (by simp [hkind, hready])]
  · rw [if_neg (Nat.not_le.mpr hlen), if_neg (by simp [hkind]), if_neg (Bool.eq_false_iff.mp hroom), if_pos hdrop]
  · rw [if_neg (Nat.not_le.mpr hlen), if_neg (by simp [hkind]), if_neg (Bool.eq_false_iff.mp hroom), if_neg (Bool.eq_false_iff.mp hdrop),
      if_neg (Bool.eq_false_iff.mp hstuck)]

/-! ## Commit and visibility -/

/-- The commit of an open item that has a word marks it and puts it in order behind the others (R120). -/
theorem State.portOp_commit {s : State} {qid : Nat} {p : Producer} {o : OpenItem} (hkind : (s.queue qid).storable = true)
    (hmark : (s.queue qid).dropMark p = none) (hopen : (s.queue qid).openOf p = some o) (hwords : o.item.words ≠ []) :
    s.portOp ⟨qid, p, .commit⟩ = (s.putQueue qid { s.queue qid with
      nextSeq := (s.queue qid).nextSeq + 1, spellStart := some s.tb.raw.toNat, spellNotified := false,
      opens := (s.queue qid).opens.map (fun x =>
        if x.openFor p then { x with phase := .committed, item := { x.item with seq := (s.queue qid).nextSeq } } else x) }, true) := by
  have hne : ¬ o.item.words.isEmpty = true := by simpa using hwords
  have hcommit : s.commitItem qid p = (s.putQueue qid ((s.queue qid).commit p s.tb.raw.toNat).1, ((s.queue qid).commit p s.tb.raw.toNat).2) :=
    if_neg (by simp [hkind])
  simp only [State.portOp, hcommit, Queue.commit, hmark, hopen, if_neg hne]
  rfl

theorem exec_itemVisible {s t : State} {qid : Nat} {p : Producer} {ok : Bool} {st : Option Nat} (hclk : s.clocked = true)
    (h : s.makeVisible qid p (ok || (s.queue qid).kind != 2) = (t, st)) :
    exec (.itemVisible qid p ok) s = .next (t.retryWrites.noteCommit qid p st) := by
  rw [exec_of_clocked hclk (r := .next ((s.makeVisible qid p (ok || (s.queue qid).kind != 2)).1.retryWrites.noteCommit qid p
    (s.makeVisible qid p (ok || (s.queue qid).kind != 2)).2)) rfl, h]

/-- A committed item becomes visible behind those that are, and the consumers that stalled are served. -/
theorem State.makeVisible_ok {s : State} {qid : Nat} {p : Producer} {o : OpenItem} (hsent : (s.queue qid).sentOf p = some o) :
    let q := s.queue qid
    let s0 := s.tapItem qid o.item
    let s1 := s0.putQueue qid ({ q.closeSent p with visible := q.visible ++ [o.item] }.serve s0.tb.raw.toNat)
    s.makeVisible qid p true = (if q.commitEn then s1.notify .queue q.commitTask q.commitFlag else s1, some stOK) := by
  intro q s0 s1
  have hvisible : q.becomeVisible p true = ({ q.closeSent p with visible := q.visible ++ [o.item] }, some (stOK, q.commitEn)) := by
    rw [Queue.becomeVisible, hsent]
    rfl
  rw [State.makeVisible, hvisible]
  dsimp only
  rw [List.getLast?_concat]
  rfl

/-- A committed item that meets a bus error is dropped and counted (R120). -/
theorem State.makeVisible_bad {s : State} {qid : Nat} {p : Producer} {o : OpenItem} (hsent : (s.queue qid).sentOf p = some o) :
    s.makeVisible qid p false =
      (s.putQueue qid (((s.queue qid).closeSent p).countDrop.serve s.tb.raw.toNat), some stBAD) := by
  have hvisible : (s.queue qid).becomeVisible p false = (((s.queue qid).closeSent p).countDrop, some (stBAD, false)) := by
    rw [Queue.becomeVisible, hsent]
    rfl
  rw [State.makeVisible, hvisible]
  dsimp only
  cases ((s.queue qid).closeSent p).countDrop.visible.getLast? <;> rfl

theorem State.rewindItem_writing {s : State} {qid : Nat} {p : Producer} {o : OpenItem} (hopen : (s.queue qid).openOf p = some o)
    (hphase : o.phase = .writing) (asked : Bool) :
    let s1 : State := { s with qm.ports := s.qm.ports.filter (fun m => m.qid != qid || m.prod != p) }
    s.rewindItem qid p asked =
      (s1.putQueue qid (if asked then (s.queue qid).closeItem p else ((s.queue qid).closeItem p).countDrop)).retryWrites := by
  intro s1
  have hopen1 : (s1.queue qid).openOf p = some o := hopen
  simp only [State.rewindItem]
  rw [show (State.queue _ qid).openOf p = some o from hopen1]
  exact if_pos (by rw [hphase]; rfl)

/-- Settles O22: each message meets the one case of its queue that its hypotheses name. -/
theorem itemLifecycle : Obligations.ItemLifecycle := by
  unfold Obligations.ItemLifecycle
  refine ⟨?start, ?word, ?waits, ?commit, ?visible, ?rewind⟩
  case start =>
    intro s qid prio p tag hclk hkind hon hfree q
    rw [exec_startOfItem hclk]
    refine ⟨fun hnone hroom => congrArg _ (State.sendPort_takes hfree ?_), fun hsome hroom => congrArg _ (State.sendPort_takes hfree ?_)⟩
    · rw [State.portOp_start hkind, Queue.start_opens hon hnone hroom, State.putQueue_enabled (by exact hon)]
    · rw [State.portOp_start hkind, Queue.start_reopens hon hsome hroom, State.putQueue_enabled (by exact hon)]
  case word =>
    intro s qid p w o hclk hmark hopen hfree q
    obtain ⟨hadd, hlong, hbad, hdrop, hwait⟩ := Queue.word_cases hmark hopen s.glb.memReady w
    rw [exec_queueWord hclk]
    exact ⟨fun hlen hready hroom => congrArg _ (State.sendPort_takes hfree (State.portOp_word_takes (hadd hlen hready hroom))),
      fun hlen => congrArg _ (State.sendPort_takes hfree (State.portOp_word_takes (hlong hlen))),
      fun hlen hkind hready => congrArg _ (State.sendPort_takes hfree (State.portOp_word_takes (hbad hlen hkind hready))),
      fun hlen hkind hroom hd => congrArg _ (State.sendPort_takes hfree (State.portOp_word_takes (hdrop hlen hkind hroom hd))),
      fun hlen hkind hroom hd hs => congrArg _ (State.sendPort_held hfree (State.portOp_word_held (hwait hlen hkind hroom hd hs)))⟩
  case waits =>
    intro s qid prio p tag w hclk hwait
    rw [exec_startOfItem hclk, exec_queueWord hclk, exec_itemCommit hclk]
    exact ⟨congrArg _ (State.sendPort_waits hwait), congrArg _ (State.sendPort_waits hwait), congrArg _ (State.sendPort_waits hwait)⟩
  case commit =>
    intro s qid p o hclk hkind hmark hopen hwords hfree
    rw [exec_itemCommit hclk]
    exact congrArg _ (State.sendPort_takes hfree (State.portOp_commit hkind hmark hopen hwords))
  case visible =>
    intro s qid p o hclk hsent q s0 s1
    have hok := exec_itemVisible (ok := true) hclk (State.makeVisible_ok hsent)
    refine ⟨fun hnote => hok.trans ?_, fun hnote => hok.trans ?_, fun hkind => exec_itemVisible hclk ?_⟩
    · rw [if_pos hnote]
    · rw [if_neg (Bool.eq_false_iff.mp hnote)]
    · rw [show (false || (s.queue qid).kind != 2) = false by simpa using hkind]
      exact State.makeVisible_bad hsent
  case rewind =>
    intro s qid p o hclk hopen hphase s1
    exact ⟨(exec_of_clocked hclk rfl).trans (congrArg _ (State.rewindItem_writing hopen hphase true)),
      (exec_of_clocked hclk rfl).trans (congrArg _ (State.rewindItem_writing hopen hphase false))⟩

end Sys2Proof.Machine
end

section
/-! Reads of a queue, the queue descriptors and the context window (R114, R115, R121 to R128, R136, R342). -/

namespace Sys2Proof.Machine

/-! ## Reads -/

/-- What the Queue Manager keeps of a read's outcome. -/
def readRecord (qid : Nat) (c : Consumer) : ReadResult → Option (Nat × Consumer × Nat × Option QItem)
  | .item i => some (qid, c, stOK, some i)
  | .ended st => some (qid, c, st, none)
  | .stalls => none

theorem exec_itemRead {s t : State} {qid : Nat} {c : Consumer} {r : ReadResult} (hclk : s.clocked = true) (h : s.readQueue qid c = (t, r)) :
    exec (.itemRead qid c) s = .next { t with qm.lastRead := readRecord qid c r } := by
  have hread : exec (.itemRead qid c) s =
      .next { (s.readQueue qid c).1 with qm.lastRead := readRecord qid c (s.readQueue qid c).2 } := exec_of_clocked hclk rfl
  rw [hread, h]

theorem State.readQueue_bound {s : State} {qid : Nat} {c : Consumer} (h : s.boundElsewhere qid c = true) :
    s.readQueue qid c = (s, .ended stREFUSED) := if_pos h

theorem State.readQueue_own {s : State} {qid : Nat} {c : Consumer} {q : Queue} {r : ReadResult} (hown : s.boundElsewhere qid c = false)
    (h : (s.queue qid).read c s.tb.raw.toNat = (q, r)) : s.readQueue qid c = ((s.putQueue qid q).retryWrites, r) := by
  rw [State.readQueue, if_neg (Bool.eq_false_iff.mp hown), h]

/-- The outcomes of a read (R121, R122, R126). -/
theorem Queue.read_cases (q : Queue) (c : Consumer) (raw : Nat) :
    (q.storable = false → q.read c raw = (q, .ended stREFUSED)) ∧
    (∀ i, q.storable = true → q.served.find? (·.1 == c) = some i →
      q.read c raw = ({ q with served := q.served.filter (·.1 != c) }, .item i.2)) ∧
    (q.storable = true → q.served.find? (·.1 == c) = none → q.released.find? (·.1 == c) = none →
      (∀ i q', stallPos q.stalled c < q.visible.length → q.take raw = some (i, q') →
        q.read c raw = ({ q' with stalled := q'.stalled.filter (· != c) }, .item i)) ∧
      (q.visible = [] → q.enable = true → q.stalled.contains c = false →
        q.read c raw = ({ q with stalled := q.stalled ++ [c] }, .stalls)) ∧
      (q.visible = [] → q.enable = false →
        q.read c raw = ({ q with stalled := q.stalled.filter (· != c) }, .ended stDISABLED))) := by
  refine ⟨fun hkind => if_pos (by rw [hkind]; rfl), fun i hkind hserved => ?_, fun hkind hserved hreleased => ⟨fun i q' hpos htake => ?_,
    fun hempty hon hnew => ?_, fun hempty hoff => ?_⟩⟩
  · rw [Queue.read, if_neg (by simp [hkind]), hserved]
  · rw [Queue.read, if_neg (by simp [hkind]), hserved, hreleased]
    dsimp only
    rw [if_pos hpos, htake]
  · rw [Queue.read, if_neg (by simp [hkind]), hserved, hreleased]
    dsimp only
    rw [if_neg (by simp [hempty]), if_neg (by simp [hon]), if_neg (Bool.eq_false_iff.mp hnew)]
  · rw [Queue.read, if_neg (by simp [hkind]), hserved, hreleased]
    dsimp only
    rw [if_neg (by simp [hempty]), if_pos (by simp [hoff])]

/-- Settles O23: a read is the outcome of its queue, put back and recorded. -/
theorem itemReads : Obligations.ItemReads := by
  unfold Obligations.ItemReads
  refine ⟨fun s qid c hclk hbound => exec_itemRead hclk (State.readQueue_bound hbound), ?_⟩
  intro s qid c hclk hown q
  obtain ⟨hrefused, hserved, hfresh⟩ := Queue.read_cases (s.queue qid) c s.tb.raw.toNat
  refine ⟨fun i q' hkind hs hr hpos htake => ?_, fun i hkind hs => exec_itemRead hclk (State.readQueue_own hown (hserved i hkind hs)),
    fun hkind hs hr hempty hon hnew => ?_, fun hkind hs hr hempty hoff => ?_,
    fun hkind => exec_itemRead hclk (State.readQueue_own hown (hrefused hkind))⟩
  all_goals obtain ⟨htakes, hstalls, hended⟩ := hfresh hkind hs hr
  · exact exec_itemRead hclk (State.readQueue_own hown (htakes i q' hpos htake))
  · exact exec_itemRead hclk (State.readQueue_own hown (hstalls hempty hon hnew))
  · exact exec_itemRead hclk (State.readQueue_own hown (hended hempty hoff))

/-! ## Queue descriptors -/

theorem queueCtrl_refused {s : State} {d : Desc} (h : (s.queue (d.fld 0x10 15 0)).storable = false) (f : Nat → Queue → State) :
    queueCtrl s d f = s.complete (d.ref false) stREFUSED 0 := if_neg (Bool.eq_false_iff.mp h)

theorem queueCtrl_storable {s : State} {d : Desc} (h : (s.queue (d.fld 0x10 15 0)).storable = true) (f : Nat → Queue → State) :
    queueCtrl s d f = f (d.fld 0x10 15 0) (s.queue (d.fld 0x10 15 0)) := if_pos h

theorem Queue.noticeDue_spell {q : Queue} {t raw : Nat} (hspell : q.spellStart = some t) (hidle : q.idleTicks ≠ 0)
    (hnotice : q.noticeEn = true) (hfirst : q.spellNotified = false) (hitems : q.visible ≠ []) (hquiet : t + q.idleTicks * 64 ≤ raw / 64 * 64) :
    q.noticeDue raw = true := by
  simp [Queue.noticeDue, hspell, hidle, hnotice, hfirst, hitems, hquiet]

theorem Queue.disable_visible {q : Queue} (h : q.visible ≠ []) : q.disable = { q with enable := false } := if_neg (by simpa using h)

theorem Queue.disable_empty {q : Queue} (h : q.visible = []) :
    q.disable = { q with enable := false, released := q.released ++ q.stalled.map (·, stDISABLED), stalled := [] } :=
  if_pos (show List.isEmpty q.visible = true by rw [h]; rfl)

/-- An enable asked of a queue that is disabled and empty takes effect at once, or is refused by its region. -/
theorem State.putQueue_enable {s : State} {qid : Nat} {q : Queue} (hoff : q.enable = false) (hvisible : q.visible = []) (hopens : q.opens = [])
    (hstalled : q.stalled = []) (r : DRef) :
    s.putQueue qid { q with enablePending := true, enableRefs := [r] } =
      if s.regionFails qid q then
        ((s.setQueue qid { q with enablePending := false, enableRefs := [] }).clampAt Reg.QMG_CLAMP_COUNT).complete r stREFUSED 0
      else (s.setQueue qid q.enabled).complete r stOK 0 := by
  simp [State.putQueue, hoff, hvisible, hopens, hstalled, Queue.draining, State.completeAll]
  rfl

theorem State.queueWrite_plain {s : State} {d : Desc} (hkind : (s.queue (d.fld 0x10 15 0)).storable = true) (hlen : d.fld 0x14 12 0 ≠ 0)
    (hmax : d.fld 0x14 12 0 ≤ (s.queue (d.fld 0x10 15 0)).itemMax) (halign : (d.w64 0x18).toNat % 32 = 0) :
    s.queueWrite d = { s with qm.writes := s.qm.writes ++ [({
        ref := d.ref false, qid := d.fld 0x10 15 0, prio := d.fld 0x14 15 13, tag := BitVec.ofNat 16 (d.fld 0x10 31 16),
        length := d.fld 0x14 12 0, addr := d.w64 0x18 } : QWrite)] }.emit
      (.hostRead (s.descFn d) (d.w64 0x18) (d.fld 0x14 12 0 * 32)) := by
  have haddr : BitVec.ofNat 64 ((d.w64 0x18).toNat / 32 * 32) = d.w64 0x18 := by
    rw [Nat.div_mul_cancel (Nat.dvd_of_mod_eq_zero halign), BitVec.ofNat_toNat, BitVec.setWidth_eq]
  simp only [State.queueWrite, if_neg hlen, if_neg (Nat.not_lt.mpr hmax), bne_self_eq_false, halign, Bool.or_false, hkind, Bool.not_true,
    Bool.false_eq_true, if_false, haddr]
  rfl

/-- Settles O26: each descriptor acts on the queue its QID names, by the queue's kind and state. -/
theorem queueDescriptors : Obligations.QueueDescriptors := by
  unfold Obligations.QueueDescriptors
  refine ⟨?notice, ?refused, ?control, ?write, ?data⟩
  case notice =>
    exact fun s qid t hclk hspell hidle hnotice hfirst hitems hquiet =>
      (exec_of_clocked hclk rfl).trans (if_pos (Queue.noticeDue_spell hspell hidle hnotice hfirst hitems hquiet))
  case refused =>
    exact fun s d hclk hkind => ⟨(exec_of_clocked hclk rfl).trans (congrArg _ (queueCtrl_refused hkind _)),
      (exec_of_clocked hclk rfl).trans (congrArg _ (queueCtrl_refused hkind _)),
      (exec_of_clocked hclk rfl).trans (congrArg _ (queueCtrl_refused hkind _))⟩
  case control =>
    intro s d hclk hkind qid q
    have hdisable : q.enable = true → exec (.queueDisable d) s = .next ((s.putQueue qid q.disable).retryWrites.complete (d.ref false) stOK 0) := by
      intro hon
      refine (exec_of_clocked hclk rfl).trans (congrArg _ ((queueCtrl_storable hkind _).trans ?_))
      exact congrArg (fun x => (s.putQueue qid x).retryWrites.complete (d.ref false) stOK 0) (if_pos hon)
    have henable : exec (.queueEnable d) s = .next (if q.enable then s.complete (d.ref false) stOK 0
        else (s.putQueue qid { q with enablePending := true, enableRefs := q.enableRefs ++ [d.ref false] }).retryWrites) :=
      (exec_of_clocked hclk rfl).trans (congrArg _ (queueCtrl_storable hkind _))
    refine ⟨fun hon hitems => ?_, fun hon hempty => ?_, fun hon => ?_, fun hoff hv ho hst href hregion => ?_,
      fun hoff hv ho hst href hregion => ?_, (exec_of_clocked hclk rfl).trans (congrArg _ (queueCtrl_storable hkind _))⟩
    · rw [hdisable hon, Queue.disable_visible hitems]
    · rw [hdisable hon, Queue.disable_empty hempty]
    · rw [henable, if_pos hon]
    · rw [henable, if_neg (Bool.eq_false_iff.mp hoff), href, List.nil_append, State.putQueue_enable hoff hv ho hst,
        if_neg (Bool.eq_false_iff.mp hregion)]
    · rw [henable, if_neg (Bool.eq_false_iff.mp hoff), href, List.nil_append, State.putQueue_enable hoff hv ho hst, if_pos hregion, ← href]
  case write =>
    exact fun s d hclk hkind hlen hmax halign => (exec_of_clocked hclk rfl).trans (congrArg _ (State.queueWrite_plain hkind hlen hmax halign))
  case data =>
    intro s ring tag words hclk
    refine ⟨fun l hl => (exec_of_clocked hclk (r := .next (s.queueWriteData ring tag true words)) rfl).trans (congrArg _ ?_),
      fun w l hl => (exec_of_clocked hclk (r := .next (s.queueWriteData ring tag false words)) rfl).trans (congrArg _ ?_)⟩
    · rw [State.queueWriteData, if_pos rfl, hl]
    · rw [State.queueWriteData, if_neg Bool.false_ne_true, hl]

/-! ## The context window -/

theorem qctxGate_free {s : State} (h : s.qm.busy = false) (f : State → State) : s.qctxGate f = f s :=
  if_neg (Bool.eq_false_iff.mp h)

theorem qctxGate_busy {s : State} (h : s.qm.busy = true) (f : State → State) : s.qctxGate f = s.clampAt Reg.QMG_CLAMP_COUNT := if_pos h

theorem exec_qctxCommit {s : State} {v : W32} (hopen : s.hostOpen Reg.QMG_QCTX_CMD) (hfree : s.qm.busy = false) (hgo : bitOf v 0 = true) :
    exec (.qctxCommit v) s = .next { s.applyQctx.retryWrites with qm.busy := true } :=
  congrArg _ ((hostWriteTo_open hopen _).trans ((qctxGate_free hfree _).trans (if_pos hgo)))

/-- What a commit makes of the selected queue, by the ENABLE transition, where its kind may change. -/
theorem State.applyQctx_cases (s : State) :
    let qid := s.fld Reg.QMG_QCTX_SEL 15 0
    let q := s.queue qid
    let new := (s.stagedQueue q).1
    let clamped := (s.stagedQueue q).2
    (q.kind = new.kind ∨ (s.ring qid).enable = false) →
    (q.enable = false → q.draining = false → new.enable = false →
      s.applyQctx = (s.setQueue qid new).clampIf clamped Reg.QMG_CLAMP_COUNT) ∧
    (q.enable = false → q.draining = false → new.enable = true → s.regionFails qid new = false →
      s.applyQctx = (s.setQueue qid new.enabled).clampIf clamped Reg.QMG_CLAMP_COUNT) ∧
    (q.enable = false → q.draining = false → new.enable = true → s.regionFails qid new = true →
      s.applyQctx = (s.setQueue qid { new with enable := false }).clampAt Reg.QMG_CLAMP_COUNT) ∧
    (q.enable = true → new.enable = true →
      s.applyQctx = (s.putQueue qid (q.withSoft new)).clampIf (clamped || q.hardDiffers new) Reg.QMG_CLAMP_COUNT) ∧
    (q.enable = true → new.enable = false → s.applyQctx = s.putQueue qid q.disable) := by
  intro qid q new clamped hkind
  have hfixed : ¬ (q.kind != new.kind && (s.ring qid).enable) = true := by
    rcases hkind with h | h
    · rw [h, bne_self_eq_false]
      exact Bool.false_ne_true
    · rw [h, Bool.and_false]
      exact Bool.false_ne_true
  have hcases : s.applyQctx =
      if q.enable then
        if new.enable then (s.putQueue qid (q.withSoft new)).clampIf (clamped || q.hardDiffers new) Reg.QMG_CLAMP_COUNT
        else s.putQueue qid q.disable
      else if q.draining then
        (s.putQueue qid (if new.enable then { q.withSoft new with enablePending := true } else q.withSoft new)).clampIf
          (clamped || q.hardDiffers new) Reg.QMG_CLAMP_COUNT
      else if new.enable then
        if s.regionFails qid new then (s.setQueue qid { new with enable := false }).clampAt Reg.QMG_CLAMP_COUNT
        else (s.setQueue qid new.enabled).clampIf clamped Reg.QMG_CLAMP_COUNT
      else (s.setQueue qid new).clampIf clamped Reg.QMG_CLAMP_COUNT := if_neg hfixed
  refine ⟨fun hoff hidle hnew => ?_, fun hoff hidle hnew hregion => ?_, fun hoff hidle hnew hregion => ?_, fun hon hnew => ?_,
    fun hon hnew => ?_⟩
  · rw [hcases, if_neg (Bool.eq_false_iff.mp hoff), if_neg (Bool.eq_false_iff.mp hidle), if_neg (Bool.eq_false_iff.mp hnew)]
  · rw [hcases, if_neg (Bool.eq_false_iff.mp hoff), if_neg (Bool.eq_false_iff.mp hidle), if_pos hnew, if_neg (Bool.eq_false_iff.mp hregion)]
  · rw [hcases, if_neg (Bool.eq_false_iff.mp hoff), if_neg (Bool.eq_false_iff.mp hidle), if_pos hnew, if_pos hregion]
  · rw [hcases, if_pos hon, if_pos hnew]
  · rw [hcases, if_pos hon, if_neg (Bool.eq_false_iff.mp hnew)]

/-- Settles O27: past its gates a write of the window selects, or commits by the case of its ENABLE transition. -/
theorem queueContextWindow : Obligations.QueueContextWindow := by
  unfold Obligations.QueueContextWindow
  refine ⟨?select, ?commit, ?done, ?busy⟩
  case select => exact fun s v hopen hfree => congrArg _ ((hostWriteTo_open hopen _).trans (qctxGate_free hfree _))
  case commit =>
    intro s v hopen hfree hgo qid q new clamped hkind
    obtain ⟨hstore, henable, hrefuse, hsoft, hdisable⟩ := s.applyQctx_cases hkind
    rw [exec_qctxCommit hopen hfree hgo]
    exact ⟨fun h1 h2 h3 => by rw [hstore h1 h2 h3], fun h1 h2 h3 h4 => by rw [henable h1 h2 h3 h4],
      fun h1 h2 h3 h4 => by rw [hrefuse h1 h2 h3 h4], fun h1 h2 => by rw [hsoft h1 h2], fun h1 h2 => by rw [hdisable h1 h2]⟩
  case done => exact fun s hclk hbusy => (exec_of_clocked hclk rfl).trans (if_pos hbusy)
  case busy =>
    exact fun s v hbusy => ⟨fun hopen => congrArg _ ((hostWriteTo_open hopen _).trans (qctxGate_busy hbusy _)),
      fun hopen => congrArg _ ((hostWriteTo_open hopen _).trans (qctxGate_busy hbusy _))⟩

end Sys2Proof.Machine
end

section
/-! The arbiters of the Spine: what a grant leaves, and the writes of the three registers. -/

namespace Sys2Proof.Machine

theorem State.writeTable_of_findReg {a : Nat} {d : RegDef} {ix : List Nat} (hf : findReg a = some (d, ix)) (s : State) (v : W32) :
    s.writeTable a v = s.writeFields d a v := by
  rw [State.writeTable, hf]

/-- The registers of the arbiters: a rank, a hold and the longest wait. -/
def rankDef : RegDef := ⟨.SPN_RANK, 0x00400100, [(145, 0x4)], [⟨2, 0, .rw, 0, []⟩]⟩
def holdDef : RegDef := ⟨.SPN_ARB_CTRL, 0x00401000, [(49, 0x10)], [⟨0, 0, .rw, 0, []⟩]⟩
def waitmaxDef : RegDef :=
  ⟨.SPN_ARB_WAITMAX, 0x00401008, [(49, 0x10)], [⟨31, 31, .wo, 0, []⟩, ⟨26, 24, .ro, 0, []⟩, ⟨23, 0, .ro, 0, []⟩]⟩

theorem findReg_spnRank : ∀ r < requesterCount, findReg (Reg.SPN_RANK r) = some (rankDef, [r]) := by decide +kernel

theorem findReg_spnArbCtrl : ∀ a < arbiterCount, findReg (Reg.SPN_ARB_CTRL a) = some (holdDef, [a]) := by decide +kernel

theorem findReg_spnArbWaitmax : ∀ a < arbiterCount, findReg (Reg.SPN_ARB_WAITMAX a) = some (waitmaxDef, [a]) := by decide +kernel

/-- A register that is one field with no clamp takes the field's bits of the word written. -/
theorem State.writeTable_field {a hi lo rst : Nat} {d : RegDef} {ix : List Nat} (hf : findReg a = some (d, ix))
    (hfields : d.fields = [⟨hi, lo, .rw, rst, []⟩]) (hclear : isCleared d.id = false) (henable : isEventEn d.id = false) (s : State)
    (v : W32) : s.writeTable a v = s.wr a (setBitsOf (s.rd a) hi lo (bitsOf v hi lo)) := by
  rw [State.writeTable_of_findReg hf, writeFields_one hfields hclear henable]
  rfl

theorem exec_rankWrite {s : State} {r : Nat} (hr : r < requesterCount) (hopen : s.hostOpen (Reg.SPN_RANK r)) (v : W32) :
    exec (.rankWrite r v) s = .next (s.wr (Reg.SPN_RANK r) (setBitsOf (s.rd (Reg.SPN_RANK r)) 2 0 (bitsOf v 2 0))) :=
  (if_pos hr).trans (congrArg _ ((hostWriteTo_open hopen _).trans (State.writeTable_field (findReg_spnRank r hr) rfl rfl rfl s v)))

theorem exec_grantHold {s : State} {a : Nat} (ha : a < arbiterCount) (hopen : s.hostOpen (Reg.SPN_ARB_CTRL a)) (v : W32) :
    exec (.grantHold a v) s =
      .next (s.wr (Reg.SPN_ARB_CTRL a) (setBitsOf (s.rd (Reg.SPN_ARB_CTRL a)) 0 0 (bitsOf v 0 0))) :=
  (if_pos ha).trans (congrArg _ ((hostWriteTo_open hopen _).trans (State.writeTable_field (findReg_spnArbCtrl a ha) rfl rfl rfl s v)))

theorem exec_waitmaxClear {s : State} {a : Nat} (ha : a < arbiterCount) (hopen : s.hostOpen (Reg.SPN_ARB_WAITMAX a)) {v : W32}
    (hv : bitOf v 31 = true) : exec (.waitmaxClear a v) s = .next (s.wr (Reg.SPN_ARB_WAITMAX a) 0) := by
  refine (if_pos ha).trans (congrArg _ ((hostWriteTo_open hopen _).trans ?_))
  rw [State.writeTable_of_findReg (findReg_spnArbWaitmax a ha), State.writeFields, if_pos (show isCleared waitmaxDef.id = true from rfl),
    if_pos hv]

theorem exec_arbiterGrant {s : State} {a : Nat} (hclk : s.clocked = true) (ha : a < arbiterCount) (cycles : Nat)
    (arrived : List (Nat × Nat)) : exec (.arbiterGrant a cycles arrived) s = .next (s.arbiterGrant a cycles arrived) :=
  (exec_of_clocked hclk rfl).trans (if_pos ha)

/-- Settles O28: a grant by the hold and by the burst picked, then the three writes. -/
theorem arbiters : Obligations.Arbiters := by
  unfold Obligations.Arbiters
  refine ⟨fun s0 a cycles arrived hclk ha => ?_, fun s r v hr hopen => exec_rankWrite hr hopen v,
    fun s a v ha hopen => exec_grantHold ha hopen v, fun s a v ha hopen hv => exec_waitmaxClear ha hopen hv⟩
  rw [exec_arbiterGrant hclk ha]
  refine ⟨fun hheld => congrArg _ (if_pos hheld), fun b hfree hpick hwait => congrArg _ ?_⟩
  rw [State.arbiterGrant]
  refine (if_neg (Bool.eq_false_iff.mp hfree)).trans ?_
  rw [hpick]
  exact if_neg (Nat.not_lt.mpr hwait)

end Sys2Proof.Machine
end

section
/-! The Gatherer: tasks, flags, dispatch and signatures (R139 to R157). -/

namespace Sys2Proof.Machine

/-! ## Records -/

/-- A definition whose fields are in range replaces a record that no number of the task depends on. -/
theorem State.taskDefine_inRange {s : State} {d : Desc} (hc : d.fld 0x1C 15 0 < 512)
    (hhalf : d.fld 0x1C 17 16 = 1 ∨ d.fld 0x1C 17 16 = 2) (hdl : d.fld 0x24 19 0 ≤ 1000000) :
    let n := d.fld 0x10 16 0
    s.taskDefine d =
      if (s.task n).mode == .undef || (s.task n).mode == .idle then (s.setTask n {
        mode := .idle, waitMask := d.w 0x14, armMask := d.w 0x18, any := (d.w 0x1C).getLsbD 31, latchEn := (d.w 0x1C).getLsbD 30,
        rank := d.fld 0x1C 29 27, cls := d.fld 0x1C 26 21, carrier := d.fld 0x1C 15 0, half := d.fld 0x1C 17 16,
        sigEn := (d.w 0x20).getLsbD 31, sig := d.fld 0x20 13 0, dlUs := d.fld 0x24 19 0,
        arg0 := d.w 0x28, arg1 := d.w 0x2C, arg2 := d.w 0x30 }).complete (d.ref false) stOK 0
      else s.complete (d.ref false) stREFUSED 0 := by
  have hnamed : ¬ (d.fld 0x1C 17 16 = 0 ∨ d.fld 0x1C 17 16 = 3) := by omega
  have hunclamped : (carrierClamped (d.fld 0x1C 15 0) || (d.fld 0x1C 15 0 != 0xFFFF && (d.fld 0x1C 17 16 == 0 || d.fld 0x1C 17 16 == 3)) ||
      decide (1000000 < d.fld 0x24 19 0)) = false := by
    have hhalf' : (d.fld 0x1C 17 16 == 0 || d.fld 0x1C 17 16 == 3) = false := by
      simpa only [Bool.or_eq_false_iff, beq_eq_false_iff_ne, ne_eq, not_or] using hnamed
    rw [carrierClamped_of_lt hc, hhalf', decide_eq_false (Nat.not_lt.mpr hdl), Bool.and_false]
    rfl
  dsimp only
  rw [State.taskDefine]
  simp only [carrierField_of_lt hc, hunclamped, State.clampDesc_false, if_neg (carrier_ne_module hc), if_neg hnamed,
    Nat.min_eq_left hdl]

theorem Task.mode_undef_or_idle {m : TaskMode} (h : m = .undef ∨ m = .idle) : (m == .undef || m == .idle) = true := by
  rcases h with rfl | rfl <;> rfl

theorem Task.mode_inUse {m : TaskMode} (hundef : m ≠ .undef) (hidle : m ≠ .idle) : ¬ (m == .undef || m == .idle) = true := by
  rw [Bool.or_eq_true, beq_iff_eq, beq_iff_eq]
  exact not_or.mpr ⟨hundef, hidle⟩

theorem State.taskArm_unbound {s : State} {d : Desc} (hmode : (s.task (d.fld 0x10 16 0)).mode = .idle)
    (hbound : (s.task (d.fld 0x10 16 0)).bound = false) (hsig : (s.task (d.fld 0x10 16 0)).sigEn = false) :
    s.taskArm d = (s.armTask (d.fld 0x10 16 0) (d.w 0x14) s.refStamp 0).complete (d.ref false) stOK 0 := by
  simp only [State.taskArm, hmode, hbound, hsig, Bool.and_false, Bool.false_and, bne_self_eq_false, Bool.false_eq_true, if_false,
    Bool.not_false, if_true]

theorem State.taskArm_disabled {s : State} {d : Desc} (hmode : (s.task (d.fld 0x10 16 0)).mode = .idle)
    (hbound : (s.task (d.fld 0x10 16 0)).bound = true) (hoff : (s.carrier (s.task (d.fld 0x10 16 0)).carrier).refusesWork = true) :
    s.taskArm d = s.complete (d.ref false) stDISABLED 0 := by
  rw [State.taskArm]
  exact if_pos (by rw [hmode, hbound, hoff]; rfl)

theorem State.taskArm_undef {s : State} {d : Desc} (hmode : (s.task (d.fld 0x10 16 0)).mode = .undef) :
    s.taskArm d = s.complete (d.ref false) stREFUSED 0 := by
  rw [State.taskArm]
  exact (if_neg (by rw [hmode]; exact Bool.false_ne_true)).trans (if_pos (by rw [hmode]; rfl))

/-! ## Flags -/

theorem exec_flagSet_early {s : State} (hclk : s.clocked = true) {n : Nat} {f : W32} (h : takeNotify n f [] s.notifies = none) :
    exec (.flagSet n f) s = .next s := by
  refine (exec_of_clocked hclk rfl).trans ?_
  rw [h]

theorem exec_flagSet {s : State} (hclk : s.clocked = true) {n : Nat} {f : W32} {l : List FlagNotify}
    (h : takeNotify n f [] s.notifies = some l) : exec (.flagSet n f) s = .next ({ s with notifies := l }.flagSet n f) := by
  refine (exec_of_clocked hclk rfl).trans ?_
  rw [h]

section
variable {s : State} {n : Nat} {f : W32}

/-- How a flag set that reaches its event port ends, by the mode of the task (R139 to R142). -/
theorem State.flagSet_waiting (hf : f ≠ 0) (h : (s.task n).mode = .waiting) :
    s.flagSet n f = (s.setTask n { s.task n with pending := (s.task n).pending ||| f }).evaluate n := by
  simp only [State.flagSet, if_neg hf, h]

theorem State.flagSet_atWork (hf : f ≠ 0) (h : (s.task n).mode = .ready ∨ (s.task n).mode = .running) :
    s.flagSet n f = s.latchFlags n f := by
  rcases h with h | h <;> simp only [State.flagSet, if_neg hf, h]

theorem State.flagSet_gone (hf : f ≠ 0) (h : (s.task n).mode = .undef ∨ (s.task n).mode = .cancelledRunning) :
    s.flagSet n f = s.stray := by
  rcases h with h | h <;> simp only [State.flagSet, if_neg hf, h]

theorem State.flagSet_armsUnbound (hf : f ≠ 0) (h : (s.task n).mode = .idle) (harm : f &&& (s.task n).armMask ≠ 0)
    (hbound : (s.task n).bound = false) : s.flagSet n f = s.armTask n f s.refStamp 0 := by
  simp only [State.flagSet, if_neg hf, h, if_neg harm, hbound, Bool.false_eq_true, if_false]

theorem State.flagSet_armsBound {k : Int} (hf : f ≠ 0) (h : (s.task n).mode = .idle) (harm : f &&& (s.task n).armMask ≠ 0)
    (hbound : (s.task n).bound = true) (hslot : s.currentSlot (s.task n).carrier (s.task n).boundHalf = some k) :
    s.flagSet n f = s.armTask n f (stampOf (s.carrier (s.task n).carrier).cfg.spf k) k := by
  simp only [State.flagSet, if_neg hf, h, if_neg harm, hbound, if_true, hslot]

end

/-! ## Readiness and deadlines -/

theorem State.evaluate_ready {s : State} {n : Nat} (h : (s.task n).mode = .waiting) (hready : (s.task n).isReady = true) :
    s.evaluate n = { s with gth.readyCount := s.gth.readyCount + 1 }.setTask n
      { s.task n with mode := .ready, readyOrder := s.gth.readyCount, readyPending := (s.task n).pending } :=
  if_pos (by rw [h, hready]; rfl)

theorem State.evaluate_notReady {s : State} {n : Nat} (hready : (s.task n).isReady = false) : s.evaluate n = s :=
  if_neg (by rw [hready, Bool.and_false]; exact Bool.false_ne_true)

theorem State.taskDeadline_passed {s : State} {n : Nat} (h : (s.task n).mode = .waiting) (hdue : (s.task n).deadlineU ≤ s.tb.timeU)
    (hlive : s.taskExpires (s.task n) = false) :
    s.taskDeadline n = (({ s with gth.readyCount := s.gth.readyCount + 1 }.setTask n { s.task n with
      mode := .ready, timeout := true, readyOrder := s.gth.readyCount, readyPending := (s.task n).pending }).bump
        Reg.GTH_TIMEOUTS).raise Reg.GTH_EVENT 0 :=
  if_pos (by rw [h, hlive, decide_eq_true hdue]; rfl)

/-! ## Cancel and definition of a signature -/

theorem State.cancelTask_waits {s : State} {n : Nat} (h : (s.task n).mode = .waiting ∨ (s.task n).mode = .ready)
    (hsig : (s.task n).sigEn = false) :
    s.cancelTask n = ((s.setTask n { s.task n with mode := .idle, pending := 0, latch := 0 }).capCredits, true) := by
  have hvoid (t : State) : t.voidSeq (s.task n) = t := if_neg (Bool.eq_false_iff.mp hsig)
  rcases h with h | h <;> simp only [State.cancelTask, h, hvoid]

theorem State.cancelTask_late {s : State} {n : Nat}
    (h : (s.task n).mode = .undef ∨ (s.task n).mode = .idle ∨ (s.task n).mode = .cancelledRunning) : s.cancelTask n = (s, false) := by
  rcases h with h | h | h <;> simp only [State.cancelTask, h]

/-! ## Dispatch -/

theorem State.dispatch_pair {s : State} {c n f : Nat} (hcredits : s.gth.credits ≠ 0) (hclass : s.dispatchClass = some c)
    (hfetch : s.firstFetch c = some f) (hready : s.firstReady c = some n) :
    s.dispatch = (((s.wakeCluster (f / 8)).takeTask c f n).deliverTask f n).capCredits := by
  simp only [State.dispatch, if_neg hcredits, hclass, hfetch, hready]

theorem State.setTask_dispatcher (s : State) (n : Nat) (x : Task) :
    (s.setTask n x).gth.credits = s.gth.credits ∧ (s.setTask n x).gth.fetches = s.gth.fetches := by
  unfold State.setTask
  split <;> exact ⟨rfl, rfl⟩

theorem State.takeTask_gth (s : State) (c leaf n : Nat) :
    (s.takeTask c leaf n).gth.credits = s.gth.credits - 1 ∧
      (s.takeTask c leaf n).gth.fetches = s.gth.fetches.filter (·.leaf != leaf) ∧ (s.takeTask c leaf n).gth.lastClass = c := by
  obtain ⟨hcredits, hfetches⟩ := s.setTask_dispatcher n { s.task n with mode := .running, leaf := leaf }
  exact ⟨congrArg (· - 1) hcredits, congrArg (List.filter (fun (f : FetchWait) => f.leaf != leaf)) hfetches, rfl⟩

theorem State.capCredits_idle {s : State} (h : s.dispatchClass = none) :
    s.capCredits = { s with gth.credits := min 8 s.gth.credits } := if_pos (by rw [h]; rfl)

theorem State.capCredits_pair {s : State} {c : Nat} (h : s.dispatchClass = some c) : s.capCredits = s :=
  if_neg (by rw [h]; exact Bool.false_ne_true)

/-! ## Publishing -/

/-- The signature after its NEXT entry has left. -/
def Signature.advance (g : Signature) : Signature :=
  { g with entries := g.entries.filter (·.seq != g.next), next := (g.next + 1) % 2 ^ 32 }

/-- The signature at the head of the order has advanced, and keeps its place where the entry after has ended too. -/
def State.advanceSig (s : State) (sg : Nat) (rest : List Nat) : State :=
  { s with gth.publish := if (s.sig sg).advance.nextEnded then rest ++ [sg] else rest }.setSig sg (s.sig sg).advance

section
variable {s : State} {sg : Nat} {rest : List Nat} {e : SigEntry} (horder : s.gth.publish = sg :: rest)
  (hentry : (s.sig sg).entries.find? (·.seq == (s.sig sg).next) = some e)
include horder hentry

theorem State.signaturePublish_void (h : e.void = true) :
    s.signaturePublish = ((s.advanceSig sg rest).bump Reg.GTH_VOIDS).releaseAccept := by
  simp only [State.signaturePublish, horder, hentry, h, if_true]
  rfl

theorem State.signaturePublish_noItem (hvoid : e.void = false) (hheld : e.held = false) :
    s.signaturePublish = (if (s.sig sg).outEn then
      (s.advanceSig sg rest).notify .signature (s.sig sg).outTask (s.sig sg).outFlag else s.advanceSig sg rest).releaseAccept := by
  simp only [State.signaturePublish, horder, hentry, hvoid, hheld, Bool.false_eq_true, if_false, if_true]
  rfl

end

/-- Settles O29: each command by the mode of its task, the dispatcher's pair, and the entry at the head of the order. -/
theorem tasksAndSignatures : Obligations.TasksAndSignatures := by
  unfold Obligations.TasksAndSignatures
  refine ⟨⟨?define, ?arm, ?early, ?flag, ?evaluate, ?deadline, ?cancel, ?sigDefine⟩, ?dispatch, ?take, ?credit, ?cap, ?publish⟩
  case define =>
    intro s d hclk hc hhalf hdl
    have hdefine := (exec_of_clocked hclk rfl : exec (.taskDefine d) s = _).trans (congrArg _ (State.taskDefine_inRange hc hhalf hdl))
    exact ⟨fun hfree => hdefine.trans (congrArg _ (if_pos (Task.mode_undef_or_idle hfree))),
      fun hundef hidle => hdefine.trans (congrArg _ (if_neg (Task.mode_inUse hundef hidle)))⟩
  case arm =>
    intro s d hclk
    exact ⟨fun hmode hbound hsig => (exec_of_clocked hclk rfl).trans (congrArg _ (State.taskArm_unbound hmode hbound hsig)),
      fun hmode hbound hoff => (exec_of_clocked hclk rfl).trans (congrArg _ (State.taskArm_disabled hmode hbound hoff)),
      fun hmode => (exec_of_clocked hclk rfl).trans (congrArg _ (State.taskArm_undef hmode)),
      fun _ => exec_of_clocked hclk rfl⟩
  case early => exact fun s n f hclk hnone => exec_flagSet_early hclk hnone
  case flag =>
    intro s n f l hclk hf htake
    have hset := exec_flagSet hclk htake
    exact ⟨fun h => hset.trans (congrArg _ (State.flagSet_waiting hf h)),
      fun h hlatch => hset.trans (congrArg _ ((State.flagSet_atWork (s := { s with notifies := l }) hf h).trans (if_pos hlatch))),
      fun h hlatch => hset.trans (congrArg _ ((State.flagSet_atWork (s := { s with notifies := l }) hf h).trans (if_neg (Bool.eq_false_iff.mp hlatch)))),
      fun h => hset.trans (congrArg _ (State.flagSet_gone hf h)),
      fun h harm hbound => hset.trans (congrArg _ (State.flagSet_armsUnbound hf h harm hbound)),
      fun h harm hbound k hk => hset.trans (congrArg _ (State.flagSet_armsBound hf h harm hbound hk))⟩
  case evaluate => exact fun s n h => ⟨State.evaluate_ready h, State.evaluate_notReady⟩
  case deadline =>
    exact fun s n hclk h hdue hlive => (exec_of_clocked hclk rfl).trans (congrArg _ (State.taskDeadline_passed h hdue hlive))
  case cancel =>
    intro s d hclk
    refine ⟨fun h hsig => (exec_of_clocked hclk rfl).trans (congrArg _ ?_), fun h => (exec_of_clocked hclk rfl).trans (congrArg _ ?_)⟩
    · rw [State.taskCancel, State.cancelTask_waits h hsig]
      rfl
    · rw [State.taskCancel, State.cancelTask_late h]
      rfl
  case sigDefine =>
    intro s d hclk
    exact ⟨fun h => (exec_of_clocked hclk rfl).trans (congrArg _ (if_neg (by rw [h, bne_self_eq_false]; exact Bool.false_ne_true))),
      fun h => (exec_of_clocked hclk rfl).trans (congrArg _ (if_pos (bne_iff_ne.mpr h)))⟩
  case dispatch =>
    exact fun s c n f hclk hcredits hclass hfetch hready =>
      (exec_of_clocked hclk rfl).trans (congrArg _ (State.dispatch_pair hcredits hclass hfetch hready))
  case take => exact State.takeTask_gth
  case credit => exact fun s hclk => exec_of_clocked hclk rfl
  case cap => exact fun s => ⟨State.capCredits_idle, fun c => State.capCredits_pair⟩
  case publish =>
    intro s sg rest e hclk horder hentry
    have hpublish : exec .signaturePublish s = .next s.signaturePublish := exec_of_clocked hclk rfl
    exact ⟨fun h => hpublish.trans (congrArg _ (State.signaturePublish_void horder hentry h)),
      fun hvoid hheld hout => hpublish.trans (congrArg _
        ((State.signaturePublish_noItem horder hentry hvoid hheld).trans (congrArg State.releaseAccept (if_pos hout)))),
      fun hvoid hheld hout => hpublish.trans (congrArg _
        ((State.signaturePublish_noItem horder hentry hvoid hheld).trans
          (congrArg State.releaseAccept (if_neg (Bool.eq_false_iff.mp hout)))))⟩

end Sys2Proof.Machine
end

section
/-! A leaf that is ready issues a bundle of one operation (R173 to R178, R184 to R191, R195, R196). -/

namespace Sys2Proof.Machine

/-! ## Bundles of one operation -/

theorem inSlotOrder_single (op : LeafOp) : inSlotOrder [op] = [op] := by
  cases op with
  | v => rfl
  | s => rfl
  | c o => cases o <;> rfl
  | imm => rfl
  | mem x => cases x <;> rfl
  | wide x => cases x <;> rfl

theorem State.dataOps_single (s : State) (n : Nat) (op : LeafOp) : s.dataOps n false 0 [op] = State.dataOp s n false 0 op s := by
  rw [State.dataOps, inSlotOrder_single]
  rfl

section
variable {s : State} {n : Nat} (hready : s.leafReady n)
include hready

theorem State.leafReady.canIssue : s.canIssue n = true := by
  rw [State.canIssue, hready.released, hready.running, hready.unblocked]
  rfl

theorem State.leafReady.needsNoStatus (ops : List LeafOp) : (s.leaf n).needsStatus ops = false := by
  rw [Leaf.needsStatus, hready.settled]
  rfl

/-- The bundle of a ready leaf is no REP's, meets no breakpoint and no halt, and so issues once. -/
theorem State.leafReady.issueBundle (ops : List LeafOp) : s.issueBundle n ops = s.issueOnce n ops false := by
  simp only [State.issueBundle, hready.single, hready.noBreak, hready.noRequest, Bool.and_false, Bool.false_eq_true, if_false]

theorem State.leafReady.leafRes (op : LeafOp) : leafRes n true op s = .next (s.issueOnce n [op] false) := by
  refine (if_pos hready.clocked).trans (congrArg _ ((if_pos hready.exists_).trans ?_))
  refine (if_pos hready.canIssue).trans ((if_pos rfl).trans ?_)
  rw [hready.fresh]
  exact hready.issueBundle [op]

/-- A bundle of one operation that is no control operation. -/
theorem State.leafReady.issueOnce_data {op : LeafOp} (hcontrol : controlOf [op] = none) :
    s.issueOnce n [op] false = (State.dataOp (s.issued n op) n false 0 op (s.issued n op)).retire n (((s.issued n op).leaf n).pc + 1)
      (repCount ((s.issued n op).leaf n) [op]) := by
  rw [State.issueOnce, if_neg (Bool.eq_false_iff.mp (hready.needsNoStatus [op])), hcontrol, ← State.dataOps_single]
  rfl

theorem State.leafReady.vector (o : VOp) (vd va vb vx : Nat) : Machine.leafRes n true (.v o vd va vb vx) s =
    .next (s.ran n (.v o vd va vb vx) (fun l => vexec l l false 0 o vd va vb vx)) :=
  (hready.leafRes _).trans (congrArg _ (hready.issueOnce_data rfl))

theorem State.leafReady.scalar {o : SOp} (hrep : o ≠ .rep) (gd ga gb : Nat) : Machine.leafRes n true (.s o gd ga gb) s =
    .next (s.ran n (.s o gd ga gb) (fun l => sexec l l false o gd ga gb)) := by
  have hcount (l : Leaf) : repCount l [.s o gd ga gb] = none := by
    cases o with
    | rep => exact absurd rfl hrep
    | _ => rfl
  refine (hready.leafRes _).trans (congrArg _ ((hready.issueOnce_data rfl).trans ?_))
  rw [hcount]
  rfl

theorem State.leafReady.immediate (add : Bool) (rd : Nat) (value : W32) : Machine.leafRes n true (.imm add rd value) s =
    .next (s.ran n (.imm add rd value) (fun l => l.resGpr rd (if add then l.rdGpr false rd + value else value) 1)) :=
  (hready.leafRes _).trans (congrArg _ (hready.issueOnce_data rfl))

theorem State.leafReady.repScalar (ga : Nat) : Machine.leafRes n true (.s .rep 1 ga 0) s =
    let s1 := s.issued n (.s .rep 1 ga 0)
    let c := ((s1.leaf n).g ga).toNat
    .next ((s1.setLeaf n (s1.leaf n)).retire n ((s1.leaf n).pc + 1) (some (if c % 65536 = 0 then 65536 else c % 65536))) :=
  (hready.leafRes _).trans (congrArg _ (hready.issueOnce_data rfl))

end

/-! ## Control operations -/

/-- Control operations that are neither a branch nor a link, and that neither halt nor repeat. -/
def COp.isPlain : COp → Bool
  | .nop | .addi | .mov | .mulg | .shr | .slt | .sltu | .min | .max | .statw | .statr => true
  | _ => false

/-- The branches that keep no return address. -/
def COp.isBranch : COp → Bool
  | .br | .beqz | .bnez | .bltz | .bgez | .jr | .babt => true
  | _ => false

section
variable {s : State} {n : Nat} (hready : s.leafReady n)
include hready

theorem State.leafReady.control {o : COp} (hplain : o.isPlain = true) (rd ra rb imm : Nat) :
    Machine.leafRes n true (.c o rd ra rb imm) s =
      .next (s.ran n (.c o rd ra rb imm) (fun l => cexec l l o rd ra rb imm)) := by
  refine (hready.leafRes _).trans (congrArg _ ?_)
  rw [State.issueOnce, if_neg (Bool.eq_false_iff.mp (hready.needsNoStatus _))]
  cases o <;> first | exact absurd hplain Bool.false_ne_true | rfl

/-- A branch that is taken leaves its bundle without results and goes to its target. -/
theorem State.leafReady.branch {o : COp} (hbranch : o.isBranch = true) {rd ra rb imm pc : Nat}
    (htaken : branchTarget ((s.issued n (.c o rd ra rb imm)).leaf n) o ra imm = some pc) :
    Machine.leafRes n true (.c o rd ra rb imm) s = .next ((s.passed n (.c o rd ra rb imm)).branchTo n pc) := by
  refine (hready.leafRes _).trans (congrArg _ ?_)
  rw [State.issueOnce, if_neg (Bool.eq_false_iff.mp (hready.needsNoStatus _))]
  rw [State.issued] at htaken
  cases o <;> first | exact absurd hbranch Bool.false_ne_true | (simp only [controlOf, htaken]; rfl)

theorem State.leafReady.noBranch {o : COp} (hbranch : o.isBranch = true) {rd ra rb imm : Nat}
    (hpassed : branchTarget ((s.issued n (.c o rd ra rb imm)).leaf n) o ra imm = none) :
    Machine.leafRes n true (.c o rd ra rb imm) s = .next (s.ran n (.c o rd ra rb imm) id) := by
  refine (hready.leafRes _).trans (congrArg _ ?_)
  rw [State.issueOnce, if_neg (Bool.eq_false_iff.mp (hready.needsNoStatus _))]
  rw [State.issued] at hpassed
  cases o <;> first | exact absurd hbranch Bool.false_ne_true | (simp only [controlOf, hpassed]; rfl)

theorem State.leafReady.jal (rd imm : Nat) : Machine.leafRes n true (.c .jal rd 0 0 imm) s = .next (
    let t := s.passed n (.c .jal rd 0 0 imm)
    (t.setLeaf n ((t.leaf n).resGpr (rd % 32) (BitVec.ofNat 32 ((((s.issued n (.c .jal rd 0 0 imm)).leaf n).pc + 1) % 8192)) 1)).branchTo n
      (imm % 8192)) := by
  refine (hready.leafRes _).trans (congrArg _ ?_)
  rw [State.issueOnce, if_neg (Bool.eq_false_iff.mp (hready.needsNoStatus _))]
  rfl

theorem State.leafReady.rep (count : Nat) : Machine.leafRes n true (.c .rep 0 0 0 count) s =
    let s1 := s.issued n (.c .rep 0 0 0 count)
    .next ((s1.setLeaf n (s1.leaf n)).retire n ((s1.leaf n).pc + 1)
      (some (if count % 65536 = 0 then 65536 else count % 65536))) := by
  refine (hready.leafRes _).trans (congrArg _ ?_)
  rw [State.issueOnce, if_neg (Bool.eq_false_iff.mp (hready.needsNoStatus _))]
  rfl

theorem State.leafReady.halt : Machine.leafRes n true (.c .halt 0 0 0 0) s = .next ((s.ran n (.c .halt 0 0 0 0) id).haltLeaf n 2 none) := by
  refine (hready.leafRes _).trans (congrArg _ ?_)
  rw [State.issueOnce, if_neg (Bool.eq_false_iff.mp (hready.needsNoStatus _))]
  rfl

end

/-- Settles O30: a vector operation alone in its bundle is `vexec` on the leaf as it issues. -/
theorem vectorOperations : Obligations.VectorOperations := by
  unfold Obligations.VectorOperations
  intro s n h
  exact ⟨h.vector _ _ _ _ _, fun _ _ _ => h.vector _ _ _ _ _, fun _ _ _ => h.vector _ _ _ _ _, fun _ _ => h.vector _ _ _ _ _,
    fun _ _ _ => h.vector _ _ _ _ _, fun _ _ _ => h.vector _ _ _ _ _, fun _ _ => h.vector _ _ _ _ _, fun _ _ => h.vector _ _ _ _ _,
    fun _ _ _ => h.vector _ _ _ _ _, fun _ _ _ => h.vector _ _ _ _ _, fun _ _ _ => h.vector _ _ _ _ _, fun _ _ => h.vector _ _ _ _ _,
    fun _ _ _ => h.vector _ _ _ _ _, fun _ => h.vector _ _ _ _ _, fun _ _ _ => h.vector _ _ _ _ _, fun _ _ => h.vector _ _ _ _ _,
    fun _ _ => h.vector _ _ _ _ _, fun _ _ => h.vector _ _ _ _ _,
    fun vd va vb vx =>
      have hmac (form upd : Nat) := h.vector (.mac form upd) vd va vb vx
      ⟨hmac 0 0, hmac 0 1, hmac 0 2, hmac 0 3, hmac 1 0, hmac 1 1, hmac 1 2, hmac 1 3, hmac 2 0, hmac 2 1, hmac 2 2, hmac 2 3⟩⟩

/-- Settles O32: each operation alone in its bundle, branches by whether they are taken. -/
theorem scalarAndControlOperations : Obligations.ScalarAndControlOperations := by
  unfold Obligations.ScalarAndControlOperations
  intro s n h
  have hs {o : SOp} (ho : o ≠ .rep) (gd ga gb : Nat) := h.scalar ho gd ga gb
  have hc {o : COp} (ho : o.isPlain = true) (rd ra rb imm : Nat) := h.control ho rd ra rb imm
  refine ⟨hs (by decide), hs (by decide), hs (by decide), hs (by decide), hs (by decide), hs (by decide), hs (by decide),
    hc rfl 0 0 0 0, fun rd ra imm => hc rfl rd ra 0 imm, fun rd ra => hc rfl rd ra 0 0, fun rd ra rb => hc rfl rd ra rb 0,
    fun rd ra rb => hc rfl rd ra rb 0, fun rd ra rb => hc rfl rd ra rb 0, fun rd ra rb => hc rfl rd ra rb 0,
    fun rd ra rb => hc rfl rd ra rb 0, fun rd ra rb => hc rfl rd ra rb 0, fun imm => hc rfl 0 0 0 imm, fun rd imm => hc rfl rd 0 0 imm,
    h.immediate false, h.immediate true, fun imm => h.branch rfl rfl, h.jal, fun ra => h.branch rfl rfl,
    ?beqz, ?bnez, ?bltz, ?bgez, ?babt, h.rep, h.repScalar, h.halt⟩
  case beqz => exact fun ra imm => ⟨fun hg => h.branch rfl (if_pos hg), fun hg => h.noBranch rfl (if_neg hg)⟩
  case bnez => exact fun ra imm => ⟨fun hg => h.branch rfl (if_neg hg), fun hg => h.noBranch rfl (if_pos (Classical.not_not.mp hg))⟩
  case bltz => exact fun ra imm => ⟨fun hg => h.branch rfl (if_pos hg), fun hg => h.noBranch rfl (if_neg (Bool.eq_false_iff.mp hg))⟩
  case bgez => exact fun ra imm => ⟨fun hg => h.branch rfl (if_neg (Bool.eq_false_iff.mp hg)), fun hg => h.noBranch rfl (if_pos hg)⟩
  case babt => exact fun imm => ⟨fun hg => h.branch rfl (if_pos hg), fun hg => h.noBranch rfl (if_neg (Bool.eq_false_iff.mp hg))⟩

end Sys2Proof.Machine
end

section
/-! Loads, stores and links of a leaf that is ready (R144, R160 to R163, R172, R192 to R194, R199 to R202). -/

namespace Sys2Proof.Machine

/-! ## The port of a memory -/

section
variable (s : State) (n : Nat) {addr : Nat}

theorem State.portWait_outside (hlo : 0x30000 ≤ addr) (hout : addr < 0x200000 ∨ 0x400000 ≤ addr) : s.portWait n false addr = s := by
  have hstore : ¬ (0x200000 ≤ addr ∧ addr < 0x400000) := by omega
  rw [State.portWait, if_neg Bool.false_ne_true, if_neg hstore, if_neg (Nat.not_lt.mpr hlo)]

theorem State.portWait_own (h : addr < 0x30000) :
    s.portWait n false addr = s.setLeaf n ((s.leaf n).servePort (decide (addr < 0x20000))) := by
  have hstore : ¬ (0x200000 ≤ addr ∧ addr < 0x400000) := by omega
  rw [State.portWait, if_neg Bool.false_ne_true, if_neg hstore, if_pos h]

theorem State.portWait_xm (h : addr < 0x20000) : s.portWait n false addr = s.setLeaf n ((s.leaf n).servePort true) := by
  rw [s.portWait_own n (by omega), decide_eq_true h]

theorem State.portWait_ym (hlo : 0x20000 ≤ addr) (hhi : addr < 0x30000) :
    s.portWait n false addr = s.setLeaf n ((s.leaf n).servePort false) := by
  rw [s.portWait_own n hhi, decide_eq_false (Nat.not_lt.mpr hlo)]

end

/-- The leaf waits where an external access that has waited 7 cycles takes the port, and only there. -/
theorem ExtPort.busy_free {p : ExtPort} (h : p.count = 0 ∨ p.age < 7) : p.busy.2 = 0 := by
  rcases h with h | h
  · rw [ExtPort.busy, if_pos h]
  · rw [ExtPort.busy]
    simp only [if_pos h]
    split <;> rfl

theorem ExtPort.busy_taken {p : ExtPort} (hcount : p.count ≠ 0) (hage : 7 ≤ p.age) : p.busy.2 = 1 := by
  rw [ExtPort.busy, if_neg hcount, if_neg (Nat.not_lt.mpr hage)]

theorem Leaf.servePort_stall (l : Leaf) (xm : Bool) :
    (l.servePort xm).stall = satTo 0xFFFFFFFF (l.stall + (if xm then l.ext else l.extY).busy.2) := by
  cases xm <;> rfl

/-! ## What a slot reaches -/

section
variable (s : State) (n : Nat) {x : Bool} {addr bytes : Nat}

theorem State.leafLoad_reached {a : Nat} (h : (leafAccess n x addr bytes).1 = some a) :
    s.leafLoad n false x addr bytes = (s.readNat a bytes, (leafAccess n x addr bytes).2, false) := by
  have hpair : leafAccess n x addr bytes = (some a, (leafAccess n x addr bytes).2) := Prod.ext h rfl
  rw [State.leafLoad, hpair]
  rfl

theorem State.leafLoad_missed (h : (leafAccess n x addr bytes).1 = none) :
    s.leafLoad n false x addr bytes = (0, (leafAccess n x addr bytes).2, true) := by
  have hpair : leafAccess n x addr bytes = (none, (leafAccess n x addr bytes).2) := Prod.ext h rfl
  rw [State.leafLoad, hpair]

theorem State.leafStore_missed (v : Nat) (h : (leafAccess n x addr bytes).1 = none) :
    s.leafStore n x addr bytes v = (s, (leafAccess n x addr bytes).2, true) := by
  have hpair : leafAccess n x addr bytes = (none, (leafAccess n x addr bytes).2) := Prod.ext h rfl
  rw [State.leafStore, hpair]

end

section
variable {n addr bytes : Nat}

theorem leafAccess_xm (x : Bool) (h : addr / bytes * bytes < 0x20000) :
    (leafAccess n x addr bytes).1 = some (quireBase + n / 8 * 0x01000000 + n % 8 * 0x40000 + addr / bytes * bytes) := if_pos h

theorem leafAccess_ym (hlo : 0x20000 ≤ addr / bytes * bytes) (hhi : addr / bytes * bytes < 0x30000) :
    (leafAccess n false addr bytes).1 = some (quireBase + n / 8 * 0x01000000 + n % 8 * 0x40000 + addr / bytes * bytes) :=
  (if_neg (by omega)).trans ((if_neg Bool.false_ne_true).trans (if_pos hhi))

theorem leafAccess_store (hlo : 0x200000 ≤ addr / bytes * bytes) (hhi : addr / bytes * bytes < 0x400000) :
    (leafAccess n false addr bytes).1 = some (quireBase + n / 8 * 0x01000000 + addr / bytes * bytes) :=
  (if_neg (by omega)).trans ((if_neg Bool.false_ne_true).trans ((if_neg (by omega)).trans (if_pos ⟨hlo, hhi⟩)))

theorem leafAccess_xSlot (h : 0x20000 ≤ addr / bytes * bytes) : (leafAccess n true addr bytes).1 = none :=
  (if_neg (by omega)).trans (if_pos rfl)

theorem leafAccess_nothing (hlo : 0x30000 ≤ addr / bytes * bytes)
    (hout : addr / bytes * bytes < 0x200000 ∨ 0x400000 ≤ addr / bytes * bytes) : (leafAccess n false addr bytes).1 = none :=
  (if_neg (by omega)).trans ((if_neg Bool.false_ne_true).trans ((if_neg (by omega)).trans (if_neg (by omega))))

end

/-- A memory operation alone in its bundle. -/
theorem State.leafReady.memory {s : State} {n : Nat} (h : s.leafReady n) {op : LeafOp} (hcontrol : controlOf [op] = none)
    (hrep : ∀ l : Leaf, repCount l [op] = none) : Machine.leafRes n true op s =
    .next ((State.dataOp (s.issued n op) n false 0 op (s.issued n op)).retire n (((s.issued n op).leaf n).pc + 1) none) := by
  refine (h.leafRes _).trans (congrArg _ ((h.issueOnce_data hcontrol).trans ?_))
  rw [hrep]

/-- Settles O33: each memory operation alone in its bundle, the ports, and what an address reaches. -/
theorem leafMemoryOperations : Obligations.LeafMemoryOperations := by
  unfold Obligations.LeafMemoryOperations
  refine ⟨?slots, ?wide, ?ports, ?stalls, ?reach⟩
  case slots =>
    intro s n x w pn reg h
    exact ⟨h.memory rfl fun _ => rfl, h.memory rfl fun _ => rfl, h.memory rfl fun _ => rfl⟩
  case wide =>
    intro s n x w pn reg sh off h
    exact ⟨h.memory rfl fun _ => rfl, h.memory rfl fun _ => rfl, h.memory rfl fun _ => rfl, h.memory rfl fun _ => rfl,
      h.memory rfl fun _ => rfl⟩
  case ports =>
    exact fun s n addr => ⟨rfl, s.portWait_outside n, s.portWait_xm n, s.portWait_ym n⟩
  case stalls =>
    intro l xm
    refine ⟨fun hfree => ?_, fun hcount hage => ?_⟩
    · rw [l.servePort_stall, ExtPort.busy_free hfree, Nat.add_zero]
    · rw [l.servePort_stall, ExtPort.busy_taken hcount hage]
  case reach =>
    intro s n addr bytes v x _
    exact ⟨fun ha => s.leafLoad_reached n (leafAccess_xm x ha), fun hlo hhi => s.leafLoad_reached n (leafAccess_ym hlo hhi),
      fun hlo hhi => s.leafLoad_reached n (leafAccess_store hlo hhi),
      fun ha => ⟨s.leafLoad_missed n (leafAccess_xSlot ha), s.leafStore_missed n v (leafAccess_xSlot ha)⟩,
      fun hlo hout => ⟨s.leafLoad_missed n (leafAccess_nothing hlo hout), s.leafStore_missed n v (leafAccess_nothing hlo hout)⟩⟩

/-! ## Links -/

/-- A status is still to come for a register of the bundle: the leaf keeps the bundle until then. -/
theorem State.issueOnce_waits {s : State} {n : Nat} {ops : List LeafOp} (rep : Bool) (h : (s.leaf n).needsStatus ops = true) :
    s.issueOnce n ops rep = s.setLeaf n { s.leaf n with staged := ops, wait := .status } := if_pos h

section
variable {s : State} {n : Nat} (h : s.leafReady n)
include h

theorem State.leafReady.fetch (imm : Nat) (htask : ((s.issued n (.c .fetch 0 0 0 imm)).leaf n).task = none) :
    Machine.leafRes n true (.c .fetch 0 0 0 imm) s = .next (((s.issued n (.c .fetch 0 0 0 imm)).blockOn n
      [.c .fetch 0 0 0 imm] (.fetch (imm % 64))).addFetch n (imm % 64)) := by
  refine (h.leafRes _).trans (congrArg _ ?_)
  rw [State.issueOnce, if_neg (Bool.eq_false_iff.mp (h.needsNoStatus _))]
  show State.fetchOp (s.issued n _) n _ _ = _
  rw [State.fetchOp, htask]

theorem State.leafReady.release (rd imm : Nat) : Machine.leafRes n true (.c .release rd 0 0 imm) s =
    .next ((s.issued n (.c .release rd 0 0 imm)).releaseOp n rd (imm.testBit 0) [.c .release rd 0 0 imm]) := by
  refine (h.leafRes _).trans (congrArg _ ?_)
  rw [State.issueOnce, if_neg (Bool.eq_false_iff.mp (h.needsNoStatus _))]
  rfl

theorem State.leafReady.qpop (rd ra imm : Nat) : Machine.leafRes n true (.c .qpop rd ra 0 imm) s =
    .next ((s.issued n (.c .qpop rd ra 0 imm)).qpopOp n ((((s.issued n (.c .qpop rd ra 0 imm)).leaf n).g ra).toNat % 65536) rd (imm % 8)
      [.c .qpop rd ra 0 imm]) := by
  refine (h.leafRes _).trans (congrArg _ ?_)
  rw [State.issueOnce, if_neg (Bool.eq_false_iff.mp (h.needsNoStatus _))]
  rfl

theorem State.leafReady.qpush (ra rb imm : Nat) : Machine.leafRes n true (.c .qpush 0 ra rb imm) s =
    .next (((s.issued n (.c .qpush 0 ra rb imm)).blockOn n [.c .qpush 0 ra rb imm] .qpush).linkOp
      ((s.issued n (.c .qpush 0 ra rb imm)).leaf n) n .qpush 0 ra rb imm) := by
  refine (h.leafRes _).trans (congrArg _ ?_)
  rw [State.issueOnce, if_neg (Bool.eq_false_iff.mp (h.needsNoStatus _))]
  rfl

/-- The links that let their bundle go on: qcommit, qrewind and signal. -/
def COp.isLink : COp → Bool
  | .qcommit | .qrewind | .signal => true
  | _ => false

theorem State.leafReady.link {o : COp} (hlink : o.isLink = true) (rd ra rb imm : Nat) :
    Machine.leafRes n true (.c o rd ra rb imm) s = .next (((s.passed n (.c o rd ra rb imm)).linkOp
      ((s.issued n (.c o rd ra rb imm)).leaf n) n o rd ra rb imm).retire n (((s.issued n (.c o rd ra rb imm)).leaf n).pc + 1) none) := by
  refine (h.leafRes _).trans (congrArg _ ?_)
  rw [State.issueOnce, if_neg (Bool.eq_false_iff.mp (h.needsNoStatus _))]
  cases o <;> first | exact absurd hlink Bool.false_ne_true | rfl

end

/-- What a leaf keeps buffered is read back, canonical form or not: a leaf with a full buffer is no fresh leaf. -/
theorem State.buffer_setLeaf (s : State) {n : Nat} (hn : n < 192) (l : Leaf) (hne : l.buffer ≠ []) : (s.setLeaf n l).leaf n = l := by
  have hfresh : l ≠ {} := fun h => hne (congrArg Leaf.buffer h)
  rw [State.setLeaf, if_pos hn]
  show mapGet (fun _ => {}) (mapSet (fun _ => {}) s.qui.leaves n l) n = l
  rw [mapSet, if_neg hfresh, mapGet_insert, if_pos rfl]

/-- The messages of a leaf go out until one finds no room. -/
theorem State.drainLeaf_sent {s u : State} {n : Nat} (hne : (s.leaf n).buffer ≠ [])
    (hdrain : s.drainBuffer n (s.leaf n).buffer = (u, [])) (hwait : (((u.setLeaf n { u.leaf n with buffer := [] }).portServed n).leaf n).wait = .qpush) :
    s.drainLeaf n true = ((u.setLeaf n { u.leaf n with buffer := [] }).portServed n).finishBlocked n := by
  rw [State.drainLeaf, if_neg (by rwa [List.isEmpty_iff]), hdrain]
  have hdone : ((((u.setLeaf n { u.leaf n with buffer := [] }).portServed n).leaf n).wait == LeafWait.qpush) = true := beq_iff_eq.mpr hwait
  exact if_pos hdone

theorem State.drainLeaf_kept {s u : State} {n : Nat} {rest : List LinkMsg} (hne : (s.leaf n).buffer ≠ [])
    (hdrain : s.drainBuffer n (s.leaf n).buffer = (u, rest)) (hrest : rest ≠ []) :
    s.drainLeaf n true = u.setLeaf n { u.leaf n with buffer := rest } := by
  have hkept : rest.isEmpty = false := by rwa [List.isEmpty_eq_false_iff]
  rw [State.drainLeaf, if_neg (by rwa [List.isEmpty_iff]), hdrain]
  simp only [hkept, Bool.false_and, Bool.false_eq_true, if_false]

theorem exec_qcommitStatus {s : State} (hclk : s.clocked = true) {n rd st : Nat} {rest : List CommitWait}
    (htake : takeStatus (s.leaf n).commits = some (rd, st, rest)) : exec (.qcommitStatus n) s =
    .next ((s.setLeaf n ({ s.leaf n with commits := rest }.resGpr (rd % 32) (BitVec.ofNat 32 st) 1)).wakeStatus n) := by
  refine (exec_of_clocked hclk rfl).trans ?_
  rw [htake]

theorem State.wakeStatus_elsewhere {s : State} {n : Nat} (h : (s.leaf n).wait ≠ .status) : s.wakeStatus n = s := by
  have hne : ((s.leaf n).wait == LeafWait.status) = false := beq_eq_false_iff_ne.mpr h
  exact if_neg (by rw [hne]; exact Bool.false_ne_true)

theorem State.wakeStatus_settled {s : State} {n : Nat} (h : (s.leaf n).wait = .status)
    (hneeds : (s.leaf n).needsStatus (s.leaf n).staged = false) : s.wakeStatus n =
    ((s.stalledFor n).setLeaf n { (s.stalledFor n).leaf n with wait := .none, staged := [] }).issueBundle n (s.leaf n).staged :=
  if_pos (by rw [h, hneeds]; rfl)

theorem State.qpopTry_item {s s1 s2 : State} {n qid rd pn : Nat} {i : QItem} (hread : s.readQueue qid (.leaf n) = (s1, .item i))
    (hwords : ((s1.blockedFor n false).setLeaf n (((s1.blockedFor n false).leaf n).awaitWrites [32 + pn % 8])).deliverWords n pn i.words = (s2, true)) :
    s.qpopTry n qid rd pn = s2.qpopEnd n rd stOK i.words.length i.prio i.tag.toNat := by
  simp only [State.qpopTry, hread, hwords, if_true]

/-- Settles O35: each link operation alone in its bundle, and what wakes a leaf that waits. -/
theorem leafLinks : Obligations.LeafLinks := by
  unfold Obligations.LeafLinks
  refine ⟨?fetch, ?release, ?tryRelease, ?qpop, ?qpopComplete, ?qpush, ?qcommit, ?status, ?waits, ?qrewind, ?signal⟩
  case fetch => exact fun s n imm h htask => h.fetch imm htask
  case release =>
    intro s n rd imm h
    refine ⟨fun htask => (h.release rd imm).trans (congrArg _ ?_), fun t htask => (h.release rd imm).trans (congrArg _ ?_)⟩ <;>
      (simp only [State.releaseOp, State.blockOn]; rw [htask])
  case tryRelease =>
    intro s n t hand
    refine ⟨fun hmode hroom => (if_pos (beq_iff_eq.mpr hmode)).trans (if_pos hroom), fun hmode => if_neg (mt beq_iff_eq.mp hmode)⟩
  case qpop =>
    intro s n rd ra imm h
    exact ⟨fun hkind => (h.qpop rd ra imm).trans (congrArg _ (if_pos hkind)),
      fun hkind => (h.qpop rd ra imm).trans (congrArg _ (if_neg (Bool.eq_false_iff.mp hkind)))⟩
  case qpopComplete =>
    intro s s1 s2 n qid rd pn i hclk hwait hread w hwords
    refine (exec_of_clocked hclk rfl).trans ?_
    rw [hwait]
    exact congrArg _ (State.qpopTry_item hread hwords)
  case qpush =>
    intro s n ra rb imm h op s1 l b m s2 s3 u rest hdrain
    have hne : (s3.leaf n).buffer ≠ [] := by
      have hfull : (s2.leaf n).buffer ++ [m] ≠ [] := List.append_ne_nil_of_right_ne_nil _ (List.cons_ne_nil _ _)
      rw [State.buffer_setLeaf s2 h.exists_ _ hfull]
      exact hfull
    refine ⟨fun hnone hwait => (h.qpush ra rb imm).trans (congrArg _ ?_), fun hrest => (h.qpush ra rb imm).trans (congrArg _ ?_)⟩
    · subst hnone
      exact congrArg State.retryWrites (State.drainLeaf_sent hne hdrain hwait)
    · exact congrArg State.retryWrites (State.drainLeaf_kept hne hdrain hrest)
  case qcommit => exact fun s n rd ra h => h.link rfl rd ra 0 0
  case status =>
    intro s n rd st rest hclk htake
    exact ⟨fun hwait => (exec_qcommitStatus hclk htake).trans (congrArg _ (State.wakeStatus_elsewhere hwait)),
      fun hwait hneeds => (exec_qcommitStatus hclk htake).trans (congrArg _ (State.wakeStatus_settled hwait hneeds))⟩
  case waits => exact fun s n ops rep hneeds => State.issueOnce_waits rep hneeds
  case qrewind => exact fun s n ra h => h.link rfl 0 ra 0 0
  case signal =>
    intro s n ra rb h
    refine ⟨fun hmask => (h.link rfl 0 ra rb 0).trans (congrArg _ (congrArg (fun t : State => t.retire n _ none) (if_neg hmask))),
      fun hmask => (h.link rfl 0 ra rb 0).trans (congrArg _ (congrArg (fun t : State => t.retire n _ none) (if_pos hmask)))⟩

end Sys2Proof.Machine
end

section
/-! Halt, resume, single step, debug writes and reset of a leaf, and accesses from outside (R162 to R166, R171, R182, R203 to R207). -/

namespace Sys2Proof.Machine

/-! ## Completions leave the quires as they are -/

theorem State.setRing_sameButEvents (s : State) (q : Nat) (r : Ring) : SameButEvents s (s.setRing q r) := sameButEvents_ite rfl rfl

theorem State.hostWrite_sameButEvents (s : State) (w : HostWrite) : SameButEvents s (s.hostWrite w) :=
  sameButEvents_ite (SameButEvents.trans (b := s.dropWrite w) rfl (State.dropEvent_sameButEvents _))
    (sameButEvents_ite (s.setFn_sameButEvents _ _) rfl)

theorem State.signalRing_sameButEvents (s : State) (cq : Nat) : SameButEvents s (s.signalRing cq) :=
  sameButEvents_ite ((s.setRing_sameButEvents _ _).trans (State.assertFor_sameButEvents _ _ _)) rfl

theorem State.postEntry_sameButEvents (s : State) (cq fn : Nat) (tag : W32) (irq : Bool) (specific status : Nat) (late clamped : Bool)
    (time : W64) : SameButEvents s (s.postEntry cq fn tag irq specific status late clamped time) := by
  have hsent (w : HostWrite) (r : Ring) : SameButEvents s ((s.hostWrite w).setRing cq r) :=
    (s.hostWrite_sameButEvents w).trans (State.setRing_sameButEvents _ _ _)
  exact sameButEvents_ite ((hsent _ _).trans (State.signalRing_sameButEvents _ _)) (hsent _ _)

theorem State.complete_sameButEvents (s : State) (d : DRef) (status specific : Nat) : SameButEvents s (s.complete d status specific) :=
  (s.setRing_sameButEvents _ _).trans (State.postEntry_sameButEvents _ _ _ _ _ _ _ _ _ _)

theorem State.completeAll_sameButEvents (s : State) (l : List DRef) (status : Nat) : SameButEvents s (s.completeAll l status) := by
  induction l generalizing s with
  | nil => rfl
  | cons d r ih => exact (s.complete_sameButEvents d status 0).trans (ih _)

theorem SameButEvents.qui {s t : State} (h : SameButEvents s t) : t.qui = s.qui := by
  rw [h]

theorem State.putQueue_qui (s : State) (qid : Nat) (q : Queue) : (s.putQueue qid q).qui = s.qui := by
  unfold State.putQueue
  dsimp only
  generalize (if !q.enable && q.visible.isEmpty && !q.stalled.isEmpty then q.releaseAll stDISABLED else q) = x
  split
  · split
    · exact (State.completeAll_sameButEvents _ _ _).qui.trans (State.setQueue_qui s qid _)
    · exact (State.completeAll_sameButEvents _ _ _).qui.trans (State.setQueue_qui s qid _)
  · exact State.setQueue_qui s qid _

/-! ## Reset of a leaf -/

theorem State.withdrawFetch_qui (s : State) (n : Nat) : (s.withdrawFetch n).qui = s.qui := by
  rw [State.withdrawFetch, State.capCredits]
  split <;> rfl

theorem State.rewindLeaf_qui (s : State) (n : Nat) : (s.rewindLeaf n).qui = s.qui := by
  rw [State.rewindLeaf]
  generalize mapKeys s.qm.queues = l
  induction l generalizing s with
  | nil => rfl
  | cons q r ih =>
    refine (ih _).trans ?_
    dsimp only
    split
    · exact s.putQueue_qui q _
    · rfl

theorem State.voidSeq_qui (s : State) (t : Task) : (s.voidSeq t).qui = s.qui := by
  unfold State.voidSeq
  split
  · refine (State.raise_sameButEvents _ _ _).qui.trans ?_
    unfold State.endSeq
    dsimp only
    split <;> exact State.setSig_qui s _ _
  · rfl

theorem State.wrEach_qui (s : State) (f : Nat → Nat) (l : List Nat) : (l.foldl (fun t k => t.wr (f k) 0) s).qui = s.qui := by
  induction l generalizing s with
  | nil => rfl
  | cons k r ih => exact ih (s.wr (f k) 0)

/-- The task of a leaf ends with its reset. -/
theorem State.endTask_qui (s : State) (t : Nat) (x y : Task) (k : Task) :
    (if k.mode == .running then (s.setTask t x).voidSeq k else if k.mode == .cancelledRunning then s.setTask t y else s).qui = s.qui := by
  split
  · rw [State.voidSeq_qui, State.setTask_qui]
  · split
    · exact State.setTask_qui s t y
    · rfl

theorem State.leaf_of_qui {s t : State} {n : Nat} (hn : n < 192) (hwf : mapWf (fun _ => ({} : Leaf)) s.qui.leaves = true)
    (h : t.qui = s.qui) (l : Leaf) : (t.setLeaf n l).leaf n = l := by
  rw [State.leaf_setLeaf t n n l hn (by rwa [h]), if_pos rfl]

/-- A reset leaves the leaf fresh, then what waited for its words is tried again. -/
theorem State.resetLeaf_fresh {s : State} {n : Nat} (hn : n < 192) (hwf : mapWf (fun _ => ({} : Leaf)) s.qui.leaves = true) :
    ∃ t : State, s.resetLeaf n = t.retryWrites ∧ t.leaf n = {} := by
  unfold State.resetLeaf
  dsimp only
  refine ⟨_, rfl, ?_⟩
  rw [State.leaf, State.wrEach_qui, State.wr_qui, ← State.leaf]
  apply State.leaf_of_qui hn hwf
  have hstart : ({ (s.withdrawFetch n).rewindLeaf n with
      gth.waitingReleases := ((s.withdrawFetch n).rewindLeaf n).gth.waitingReleases.filter (·.leaf != n) }).qui = s.qui :=
    (State.rewindLeaf_qui _ n).trans (s.withdrawFetch_qui n)
  split
  · refine (State.endTask_qui _ _ _ _ _).trans ?_
    split
    · exact (State.endTask_qui _ _ _ _ _).trans hstart
    · exact hstart
  · split
    · exact (State.endTask_qui _ _ _ _ _).trans hstart
    · exact hstart

/-! ## The reset bits of a quire -/

section
variable {α : Type} {p : Nat → Bool} (f : α → Nat → α)

theorem foldl_noneOf {l : List Nat} (h : ∀ i ∈ l, p i = false) (s : α) : l.foldl (fun s i => if p i then f s i else s) s = s := by
  induction l generalizing s with
  | nil => rfl
  | cons i r ih =>
    have hi : p i = false := h i (List.mem_cons_self ..)
    simp only [List.foldl_cons, hi, Bool.false_eq_true, if_false]
    exact ih (fun j hj => h j (List.mem_cons_of_mem i hj)) s

theorem foldl_oneOf {l : List Nat} {k : Nat} (hnodup : l.Nodup) (hk : k ∈ l) (hp : p k = true) (h : ∀ i ∈ l, i ≠ k → p i = false) (s : α) :
    l.foldl (fun s i => if p i then f s i else s) s = f s k := by
  induction l generalizing s with
  | nil => exact absurd hk (List.not_mem_nil)
  | cons i r ih =>
    obtain ⟨hfirst, hrest⟩ := List.nodup_cons.mp hnodup
    by_cases hik : i = k
    · subst hik
      simp only [List.foldl_cons, hp, if_true]
      exact foldl_noneOf f (fun j hj => h j (List.mem_cons_of_mem i hj) (fun he => hfirst (he ▸ hj))) _
    · have hi : p i = false := h i (List.mem_cons_self ..) hik
      simp only [List.foldl_cons, hi, Bool.false_eq_true, if_false]
      exact ih hrest ((List.mem_cons.mp hk).resolve_left (Ne.symm hik)) (fun j hj => h j (List.mem_cons_of_mem i hj)) s

end

theorem State.writeLeafCtrl_one (s : State) (q : Nat) {v : W32} (iso : Bool) {l : Nat} (hl : l < 8) (hset : bitOf v l = true)
    (hold : bitOf (s.rd (Reg.QUI_LEAF_CTRL q)) l = false)
    (hsame : ∀ i, i < 8 → i ≠ l → bitOf v i = bitOf (s.rd (Reg.QUI_LEAF_CTRL q)) i) :
    s.writeLeafCtrl q v iso = ((s.writeTable (Reg.QUI_LEAF_CTRL q) v).resetLeaf (8 * q + l)).quirePresent q iso := by
  have hrises : (bitOf v l && !bitOf (s.rd (Reg.QUI_LEAF_CTRL q)) l) = true := by
    rw [hset, hold]
    rfl
  have hothers : ∀ i ∈ List.range 8, i ≠ l → (bitOf v i && !bitOf (s.rd (Reg.QUI_LEAF_CTRL q)) i) = false := fun i hi hne => by
    rw [hsame i (List.mem_range.mp hi) hne, Bool.and_not_self]
  exact congrArg (fun t : State => t.quirePresent q iso) (foldl_oneOf (p := fun i => bitOf v i && !bitOf (s.rd (Reg.QUI_LEAF_CTRL q)) i)
    (fun (t : State) i => t.resetLeaf (8 * q + i)) List.nodup_range (List.mem_range.mpr hl) hrises hothers _)

theorem State.writeLeafCtrl_none (s : State) (q : Nat) {v : W32} (iso : Bool)
    (hnone : ∀ i, i < 8 → bitOf v i = true → bitOf (s.rd (Reg.QUI_LEAF_CTRL q)) i = true) :
    s.writeLeafCtrl q v iso = (s.writeTable (Reg.QUI_LEAF_CTRL q) v).quirePresent q iso := by
  have hnoRise : ∀ i ∈ List.range 8, (bitOf v i && !bitOf (s.rd (Reg.QUI_LEAF_CTRL q)) i) = false := fun i hi => by
    cases hv : bitOf v i with
    | false => rfl
    | true => rw [hnone i (List.mem_range.mp hi) hv]; rfl
  exact congrArg (fun t : State => t.quirePresent q iso) (foldl_noneOf (p := fun i => bitOf v i && !bitOf (s.rd (Reg.QUI_LEAF_CTRL q)) i)
    (fun (t : State) i => t.resetLeaf (8 * q + i)) hnoRise _)

/-- QUI_LEAF_CTRL: a reset bit for each leaf of the quire. -/
def leafCtrlDef : RegDef := ⟨.QUI_LEAF_CTRL, 0x00600000, [(24, 0x10000)], [⟨7, 0, .rw, 255, []⟩]⟩

theorem findReg_quiLeafCtrl : ∀ q < 24, findReg (Reg.QUI_LEAF_CTRL q) = some (leafCtrlDef, [q]) ∧ Reg.QUI_LEAF_CTRL q % 4 = 0 ∧
    Reg.QUI_LEAF_CTRL q < 0x4000000 ∧ inMsixTable 0 (Reg.QUI_LEAF_CTRL q) = false ∧ inMsixPba 0 (Reg.QUI_LEAF_CTRL q) = false := by
  decide +kernel

theorem bar0Write_leafCtrl {s : State} {q : Nat} (hq : q < 24) (hopen : s.hostOpen (Reg.QUI_LEAF_CTRL q)) (v : W32) :
    s.bar0Write (Reg.QUI_LEAF_CTRL q) 4 (v.setWidth 64) = s.writeLeafCtrl q v (s.cluster q).isolated := by
  obtain ⟨hreg, haligned, hbar, htable, hpba⟩ := findReg_quiLeafCtrl q hq
  have hwrite := bar0Write_reg hopen hreg haligned hbar htable hpba (v.setWidth 64)
  rwa [BitVec.setWidth_setWidth_of_le v (by decide), BitVec.setWidth_eq] at hwrite

/-! ## Accesses from outside -/

/-- An access that stays in one 64-byte word is one piece. -/
theorem piecesOf_oneWord {a n : Nat} (ha : a < 2 ^ 64) (hn : 0 < n) (hword : n ≤ 64 - a % 64) : piecesOf a n = [(a, n)] := by
  have hend (fuel b : Nat) : pieces fuel b 0 = [] := by
    cases fuel <;> rfl
  rw [piecesOf, Nat.mod_eq_of_lt ha, pieces, if_neg (Nat.ne_of_gt hn)]
  simp only [Nat.min_eq_left hword, Nat.sub_self, hend]

section
variable {s : State} {a : Nat} (hwin : quireBase ≤ a ∧ a < quireBase + 0x18000000)
include hwin

theorem noHost_of_window (n : Nat) : ¬ ([(a, n)].any fun p : Nat × Nat => decide (2 ^ 63 ≤ p.1)) = true := by
  obtain ⟨_, hhi⟩ := hwin
  have hlow : ¬ 2 ^ 63 ≤ a := by
    have hsize : quireBase + 0x18000000 ≤ 2 ^ 63 := by decide
    omega
  rw [List.any_cons, decide_eq_false hlow]
  exact Bool.false_ne_true

theorem State.readModule_oneWord {n : Nat} (requester : Nat) (hn : 0 < n) (hword : n ≤ 64 - a % 64) :
    s.readModule requester a n = s.readPiece requester 0 a n [] := by
  have hpieces := piecesOf_oneWord (Nat.lt_trans hwin.2 (by decide)) hn hword
  have hnoHost := noHost_of_window hwin n
  rw [State.readModule, hpieces, if_neg hnoHost, State.readSpine, hpieces, State.readPieces]
  obtain ⟨t, b⟩ := s.readPiece requester 0 a n []
  cases b <;> rfl

theorem State.writeModule_oneWord {data : List Byte} (requester : Nat) (hdata : data ≠ []) (hword : data.length ≤ 64 - a % 64) :
    s.writeModule requester a data = s.writePiece requester {} a data := by
  have hpieces := piecesOf_oneWord (Nat.lt_trans hwin.2 (by decide)) (List.length_pos_iff.mpr hdata) hword
  have hnoHost := noHost_of_window hwin data.length
  rw [State.writeModule, hpieces, if_neg hnoHost, State.writeSpine, hpieces, State.writePieces, List.take_length]
  obtain ⟨t, b⟩ := s.writePiece requester {} a data
  cases b <;> rfl

end

theorem State.readPiece_quire {s : State} {a q n : Nat} (requester fn : Nat) (htarget : spineTarget a = .quire q)
    (hopen : (s.cluster q).isolated = false) (host : List Byte) :
    s.readPiece requester fn a n host = ((s.wakeTarget a).noteExternal a n, some (s.bytes a n)) := by
  have hallowed : s.refusal fn a = none := by
    rw [State.refusal, htarget]
    exact if_neg (Bool.eq_false_iff.mp hopen)
  simp only [State.readPiece, hallowed, htarget]

theorem State.writePiece_quire {s : State} {a q : Nat} (requester : Nat) (w : OnBehalf) (htarget : spineTarget a = .quire q)
    (hopen : (s.cluster q).isolated = false) (data : List Byte) :
    s.writePiece requester w a data = (((s.wakeTarget a).noteExternal a data.length).setBytes a data, true) := by
  have hallowed : s.refusal w.fn a = none := by
    rw [State.refusal, htarget]
    exact if_neg (Bool.eq_false_iff.mp hopen)
  simp only [State.writePiece, hallowed, htarget]

theorem State.readPiece_im {s : State} {a n k : Nat} (requester fn : Nat) (htarget : spineTarget a = .im n)
    (hopen : (s.cluster (n / 8)).isolated = false) (hruns : s.imOpen n = false) (host : List Byte) :
    s.readPiece requester fn a k host = (s.imReject n, none) := by
  have hrefused : s.refusal fn a = some (s.imReject n) := by
    rw [State.refusal, htarget]
    exact (if_neg (Bool.eq_false_iff.mp hopen)).trans (if_neg (Bool.eq_false_iff.mp hruns))
  simp only [State.readPiece, hrefused]

theorem exec_quireRead {s : State} (hclk : s.clocked = true) {a n : Nat} (hwin : quireBase ≤ a ∧ a < quireBase + 0x18000000)
    (data : List Byte) (hn : 0 < n) (hword : n ≤ 64 - a % 64) {t : State} {b : Option (List Byte)}
    (hpiece : s.readPiece 143 0 a n [] = (t, b)) :
    exec (.quireExternalAccess a false data n) s = .next { t with bus := (b.isSome, b.getD []) } := by
  refine (exec_of_clocked hclk rfl).trans ((if_pos hwin).trans (congrArg _ ?_))
  rw [State.busAccess, if_neg Bool.false_ne_true, State.readModule_oneWord hwin 143 hn hword, hpiece]

theorem exec_quireWrite {s : State} (hclk : s.clocked = true) {a : Nat} (hwin : quireBase ≤ a ∧ a < quireBase + 0x18000000)
    {data : List Byte} (n : Nat) (hdata : data ≠ []) (hword : data.length ≤ 64 - a % 64) {t : State} {b : Bool}
    (hpiece : s.writePiece 143 {} a data = (t, b)) :
    exec (.quireExternalAccess a true data n) s = .next { t with bus := (b, []) } := by
  refine (exec_of_clocked hclk rfl).trans ((if_pos hwin).trans (congrArg _ ?_))
  rw [State.busAccess, if_pos rfl, State.writeModule_oneWord hwin 143 hdata hword, hpiece]

/-! ## Halts and debug writes -/

section
variable {s : State} {n : Nat} (hn : n < 192) (hopen : s.hostOpen (Reg.QUI_DBG_CTRL (n / 8) (n % 8)))
include hn hopen

theorem exec_haltRequest : exec (.haltRequest n) s = .next (s.haltRequest n) :=
  congrArg _ ((if_pos hn).trans (hostWriteTo_open hopen _))

theorem exec_resume : exec (.resume n) s = .next (s.resume n) := congrArg _ ((if_pos hn).trans (hostWriteTo_open hopen _))

theorem exec_debugStep : exec (.debugStep n) s = .next (s.debugStep n) := congrArg _ ((if_pos hn).trans (hostWriteTo_open hopen _))

end

section
variable {s : State} {n : Nat}

theorem State.haltRequest_running (hreset : s.leafInReset n = false) (hrun : (s.leaf n).halted = false) :
    s.haltRequest n = s.setLeaf n { s.leaf n with haltReq := true } :=
  (if_neg (Bool.eq_false_iff.mp hreset)).trans (if_neg (Bool.eq_false_iff.mp hrun))

/-- A halted leaf that holds nothing back goes on at its program counter. -/
theorem State.goOn_plain (stepping : Bool) (hheld : (s.leaf n).heldDispatch = none) (hwith : (s.leaf n).withdrawn = 0) :
    s.goOn n stepping = s.setLeaf n { s.leaf n with
      halted := false, cause := 0, withdrawn := 0, heldDispatch := none, skipBreak := true, stepping := stepping } := by
  simp only [State.goOn, hheld, hwith, ne_eq, not_true_eq_false, if_false]

theorem State.resume_halted (hreset : s.leafInReset n = false) (hhalted : (s.leaf n).halted = true)
    (hheld : (s.leaf n).heldDispatch = none) (hwith : (s.leaf n).withdrawn = 0) :
    s.resume n = s.setLeaf n { s.leaf n with
      halted := false, cause := 0, withdrawn := 0, heldDispatch := none, skipBreak := true, stepping := false } :=
  (if_neg (Bool.eq_false_iff.mp hreset)).trans ((if_pos hhalted).trans (State.goOn_plain false hheld hwith))

theorem State.debugStep_halted (hreset : s.leafInReset n = false) (hhalted : (s.leaf n).halted = true)
    (hheld : (s.leaf n).heldDispatch = none) (hwith : (s.leaf n).withdrawn = 0) :
    let s1 := s.setLeaf n { s.leaf n with
      halted := false, cause := 0, withdrawn := 0, heldDispatch := none, skipBreak := true, stepping := true }
    let s2 := s1.issueBundle n (decodeBundle (s1.bundleAt n (s.leaf n).pc))
    (s2.leaf n).rep = none → s.debugStep n = s2 := by
  intro s1 s2 hrep
  have hnothing : ¬ ((s.leaf n).withdrawn ≠ 0 ∨ (s.leaf n).heldDispatch.isSome = true) := by
    rw [hheld, hwith]
    simp
  have hnotHalted : ¬ (!(s.leaf n).halted) = true := by
    rw [hhalted]
    exact Bool.false_ne_true
  have honce : ¬ (s2.leaf n).rep.isSome = true := by
    rw [hrep]
    exact Bool.false_ne_true
  rw [State.debugStep, if_neg (Bool.eq_false_iff.mp hreset), if_neg hnotHalted]
  dsimp only
  rw [if_neg hnothing, State.goOn_plain true hheld hwith]
  exact if_neg honce

theorem State.debugHalt_boundary (hreq : (s.leaf n).haltReq = true) (hrun : (s.leaf n).halted = false) (hrep : (s.leaf n).rep = none)
    (hreset : s.leafInReset n = false) (hwait : (s.leaf n).wait = .none) (hfresh : (s.leaf n).staged = []) :
    s.debugHalt n false = s.setLeaf n { s.leaf n with
      halted := true, haltReq := false, cause := 1, withdrawn := 0, wait := .none, heldDispatch := none, staged := [],
      buffer := [], recent := [], stores := [], stepping := false, ext := {}, extY := {} } := by
  simp only [State.debugHalt, hreq, hrun, hrep, hreset, hwait, hfresh, State.haltLeaf, Bool.not_true, Option.isSome_none, List.isEmpty_nil,
    Bool.and_false, Bool.or_false, Bool.false_eq_true, if_false, if_true]

theorem State.dbgRegWrite_running (v : W32) (hrun : (s.leaf n).halted = false) :
    s.dbgRegWrite n v = s.clampAt (Reg.QUI_CLAMP_COUNT (n / 8)) := if_neg (Bool.eq_false_iff.mp hrun)

theorem State.dbgRegWrite_halted {v : W32} (hhalted : (s.leaf n).halted = true)
    (hfits : s.fld (Reg.QUI_DBG_REG_SEL (n / 8) (n % 8)) 14 8 = 86 → v.toNat < 8192) :
    s.dbgRegWrite n v = s.setLeaf n ((s.leaf n).dbgWrite (s.fld (Reg.QUI_DBG_REG_SEL (n / 8) (n % 8)) 14 8)
      (s.fld (Reg.QUI_DBG_REG_SEL (n / 8) (n % 8)) 4 0) v) := by
  have hunclamped : ¬ (s.fld (Reg.QUI_DBG_REG_SEL (n / 8) (n % 8)) 14 8 == 86 && decide (8191 < v.toNat)) = true := by
    rw [Bool.and_eq_true, beq_iff_eq, decide_eq_true_eq]
    exact fun ⟨hpc, hbig⟩ => absurd (hfits hpc) (by omega)
  exact (if_pos hhalted).trans (if_neg hunclamped)

end

theorem exec_dbgRegWrite {s : State} {n : Nat} (hn : n < 192) (hopen : s.hostOpen (Reg.QUI_DBG_REG_DATA (n / 8) (n % 8))) (v : W32) :
    exec (.dbgRegWrite n v) s = .next (s.dbgRegWrite n v) := congrArg _ ((if_pos hn).trans (hostWriteTo_open hopen _))

/-- Settles O36: each host write by the leaf's state, the reset bits, and the one piece of an outside access. -/
theorem leafDebugAndReset : Obligations.LeafDebugAndReset := by
  unfold Obligations.LeafDebugAndReset
  refine ⟨?control, ?halt, ?debugWrite, ?resetBits, fun s n => State.resetLeaf_fresh, ?outside⟩
  case control =>
    intro s n hn hopen
    refine ⟨fun hreset hrun => (exec_haltRequest hn hopen).trans (congrArg _ (State.haltRequest_running hreset hrun)),
      fun hreset => ⟨(exec_haltRequest hn hopen).trans (congrArg _ (if_pos hreset)),
        (exec_resume hn hopen).trans (congrArg _ (if_pos hreset)), (exec_debugStep hn hopen).trans (congrArg _ (if_pos hreset))⟩,
      fun hreset hhalted hheld hwith => ⟨(exec_resume hn hopen).trans (congrArg _ (State.resume_halted hreset hhalted hheld hwith)), ?_⟩⟩
    intro s1 s2 hrep
    exact (exec_debugStep hn hopen).trans (congrArg _ (State.debugStep_halted hreset hhalted hheld hwith hrep))
  case halt =>
    exact fun s n hclk hreq hrun hrep hreset hwait hfresh =>
      (exec_of_clocked hclk rfl).trans (congrArg _ (State.debugHalt_boundary hreq hrun hrep hreset hwait hfresh))
  case debugWrite =>
    intro s n v hn hopen sel
    have hwrite (hhalted : (s.leaf n).halted = true) (hfits : sel = 86 → v.toNat < 8192) :
        exec (.dbgRegWrite n v) s = .next (s.setLeaf n ((s.leaf n).dbgWrite sel (s.fld (Reg.QUI_DBG_REG_SEL (n / 8) (n % 8)) 4 0) v)) :=
      (exec_dbgRegWrite hn hopen v).trans (congrArg _ (State.dbgRegWrite_halted hhalted hfits))
    refine ⟨fun hhalted hsel => ?_, fun hhalted hsel => ?_, fun hhalted hsel hv => ?_,
      fun hrun => (exec_dbgRegWrite hn hopen v).trans (congrArg _ (State.dbgRegWrite_running v hrun))⟩
    · exact (hwrite hhalted (fun h => by omega)).trans (congrArg (fun l => Host.Outcome.next (s.setLeaf n l)) (if_pos hsel))
    · rw [hwrite hhalted (fun h => by omega), hsel]
      rfl
    · rw [hwrite hhalted (fun _ => hv), hsel]
      show Host.Outcome.next (s.setLeaf n { s.leaf n with pc := v.toNat % 8192 }) = _
      rw [Nat.mod_eq_of_lt hv]
  case resetBits =>
    intro s q v hq hopen
    have hwrite : exec (.leafReset q v) s = .next (s.writeLeafCtrl q v (s.cluster q).isolated) :=
      congrArg _ ((if_pos hq).trans (bar0Write_leafCtrl hq hopen v))
    exact ⟨fun l hl hset hold hsame => hwrite.trans (congrArg _ (s.writeLeafCtrl_one q _ hl hset hold hsame)),
      fun hnone => (show exec (.leafResetRelease q v) s = _ from hwrite).trans (congrArg _ (s.writeLeafCtrl_none q _ hnone))⟩
  case outside =>
    intro s a bytes data hclk hlo hhi
    exact ⟨fun q htarget hopen hn hword => exec_quireRead hclk ⟨hlo, hhi⟩ data hn hword (State.readPiece_quire 143 0 htarget hopen []),
      fun q htarget hopen hdata hword => exec_quireWrite hclk ⟨hlo, hhi⟩ bytes hdata hword (State.writePiece_quire 143 {} htarget hopen data),
      fun n htarget hopen hruns hn hword => exec_quireRead hclk ⟨hlo, hhi⟩ data hn hword (State.readPiece_im 143 0 htarget hopen hruns [])⟩

end Sys2Proof.Machine
end

section
/-! DMA channels (R210 to R212, R222, R223). -/

namespace Sys2Proof.Machine

/-! ## Acceptance -/

section
variable {s : State} {c : Nat} {p : DmaProg} (hunbound : p.carrier = 0xFFFF) (immediate : Bool) (stamp : W32)
include hunbound

theorem State.acceptProg_room (hon : (s.chan c).enable = true) (hroom : (s.chan c).list.length < 16) :
    s.acceptProg c p immediate stamp = (s.addProg c { p with slotNum := s.slt.nextFrame - 1 }, none) := by
  simp only [State.acceptProg, if_pos hunbound, hon, Bool.not_true, Bool.false_eq_true, if_false, if_neg (Nat.not_le.mpr hroom)]

theorem State.acceptProg_full (hon : (s.chan c).enable = true) (hfull : 16 ≤ (s.chan c).list.length) :
    s.acceptProg c p immediate stamp = (s, some stREFUSED) := by
  simp only [State.acceptProg, if_pos hunbound, hon, Bool.not_true, Bool.false_eq_true, if_false, if_pos hfull]

theorem State.acceptProg_off (hoff : (s.chan c).enable = false) : s.acceptProg c p immediate stamp = (s, some stDISABLED) := by
  simp only [State.acceptProg, if_pos hunbound, hoff, Bool.not_false, if_true]

end

/-- The program of a DMA_RUN that is bound to no carrier. -/
def unboundRun (d : Desc) : DmaProg :=
  { origin := .host (d.ref false), tag := d.tag, prog := d.w64 0x18, carrier := 0xFFFF, half := halfField (d.fld 0x10 31 30), slotNum := 0 }

section
variable {s : State} {d : Desc} (hcarrier : d.carrier = 0xFFFF) (haligned : progAddr (d.w64 0x18) = d.w64 0x18)
include hcarrier haligned

/-- Nothing of an unbound DMA_RUN with an aligned program is clamped. -/
theorem State.dmaRun_host (hhost : (s.bit (Reg.DMA_CH_CFG (d.fld 0x10 9 0)) 31 && (s.chan (d.fld 0x10 9 0)).enable) = false)
    {t : State} {st : Option Nat} (haccept : s.acceptProg (d.fld 0x10 9 0) (unboundRun d) d.immediate d.slot = (t, st)) :
    s.dmaRun d = st.elim t (fun st => t.complete (d.ref false) st 0) := by
  have hunclamped : carrierClamped 0xFFFF = false := rfl
  have hfield : carrierField 0xFFFF = 0xFFFF := rfl
  simp only [State.dmaRun, hcarrier, haligned, hunclamped, hfield, Bool.false_and, Bool.or_self, bne_self_eq_false, State.clampDesc_false, hhost,
    Bool.false_eq_true, if_false]
  rw [unboundRun] at haccept
  rw [haccept]
  cases st <;> rfl

theorem State.dmaRun_queue (hqueue : s.bit (Reg.DMA_CH_CFG (d.fld 0x10 9 0)) 31 = true) (hon : (s.chan (d.fld 0x10 9 0)).enable = true) :
    s.dmaRun d = s.complete (d.ref false) stREFUSED 0 := by
  have hunclamped : carrierClamped 0xFFFF = false := rfl
  have hfield : carrierField 0xFFFF = 0xFFFF := rfl
  simp only [State.dmaRun, hcarrier, haligned, hunclamped, hfield, Bool.false_and, Bool.or_self, bne_self_eq_false, State.clampDesc_false, hqueue, hon,
    Bool.and_self, if_true]
  by_cases hfull : 16 ≤ (s.chan (d.fld 0x10 9 0)).list.length
  · rw [State.acceptProg_full rfl _ _ hon hfull]
    rfl
  · rw [State.acceptProg_room rfl _ _ hon (Nat.not_le.mp hfull)]

end

/-- A run item whose program is not clamped is accepted, or its origin is told why not. -/
theorem State.runItem_of_accept {s t : State} {c : Nat} {w : QWord} {st : Option Nat} (hplain : (runItemProg w).1.clamped = false)
    (haccept : s.acceptProg c (runItemProg w).1 (runItemProg w).2.1 (runItemProg w).2.2 = (t, st)) :
    s.runItem c w = st.elim t (fun st => t.reportProg c (runItemProg w).1 st 0) := by
  have hnoClamp : s.clampIf (runItemProg w).1.clamped Reg.DMA_CLAMP_COUNT = s := by
    rw [hplain]
    rfl
  simp only [State.runItem, hnoClamp, haccept]
  cases st <;> rfl

/-! ## Reads of the run-item queue -/

theorem State.runItemRead_of_read {s s1 : State} {c : Nat} {r : ReadResult} (hqueue : s.bit (Reg.DMA_CH_CFG c) 31 = true)
    (hon : (s.chan c).enable = true) (hrun : (s.chan c).pqStopped = false) (hroom : (s.chan c).list.length < 16)
    (hread : s.readQueue (s.fld (Reg.DMA_CH_CFG c) 15 0) (runReader c) = (s1, r)) (hstay : r ≠ .ended stABORTED) :
    s.runItemRead c = s1.runRead c r := by
  simp only [State.runItemRead, hqueue, hon, hrun, hroom, hread, hstay, Bool.not_false, Bool.and_self, decide_true, if_true, if_false]

theorem State.finishRead_idle {s : State} {c : Nat}
    (hidle : (s.queue (s.fld (Reg.DMA_CH_CFG c) 15 0)).served.any (·.1 == runReader c) = false) : s.finishRead c = s :=
  if_neg (Bool.eq_false_iff.mp hidle)

/-! ## Start, abort and disable -/

theorem exec_programStart {s : State} (hclk : s.clocked = true) {c : Nat} {p : DmaProg} {rest : List DmaProg}
    (hlist : (s.chan c).list = p :: rest) (hon : (s.chan c).enable = true) (hwaits : p.started = false) :
    exec (.programStart c) s = .next (s.setChan c { s.chan c with list := { p with started := true } :: rest }) := by
  have hdue : ((s.chan c).enable && !p.started) = true := by
    rw [hon, hwaits]
    rfl
  refine (exec_of_clocked hclk rfl).trans ?_
  dsimp only
  rw [hlist]
  refine (if_pos hdue).trans (congrArg _ ?_)
  rw [State.setProg, DmaChan.setHead, hlist]
  rfl

/-- An abort of a channel that lists nothing changes nothing but the form of the channel. -/
theorem State.abortProgs_none {s : State} {c : Nat} (hit : DmaProg → Bool) (hnone : ((s.finishRead c).chan c).list = []) :
    s.abortProgs c hit = (s.finishRead c).setChan c ((s.finishRead c).chan c) := by
  have hsame : { (s.finishRead c).chan c with list := [] } = (s.finishRead c).chan c := by
    rw [← hnone]
  simp only [State.abortProgs, DmaChan.current, hnone, List.filter_nil, List.foldl_nil, hsame]

theorem State.dmaAbort_eq (s : State) (d : Desc) : s.dmaAbort d =
    (s.abortProgs (d.fld 0x10 9 0) (fun p => p.tag == d.w 0x14)).completeAt (d.ref false) stOK 0
      (!((s.finishRead (d.fld 0x10 9 0)).chan (d.fld 0x10 9 0)).list.any (fun p => p.tag == d.w 0x14)) s.stampNow := rfl

theorem State.chanDisable_idle {s : State} {c : Nat}
    (hidle : (s.queue (s.fld (Reg.DMA_CH_CFG c) 15 0)).served.any (·.1 == runReader c) = false) (hon : (s.chan c).enable = true)
    (hnone : (s.chan c).list.filter (!·.started) = []) :
    s.chanDisable c = (s.unstall (s.fld (Reg.DMA_CH_CFG c) 15 0) (runReader c)).setChan c
      { s.chan c with enable := false, list := (s.chan c).list.filter (·.started) } := by
  simp only [State.chanDisable, State.finishRead_idle hidle, hon, if_true, hnone, List.foldl_nil]

theorem State.chanDisable_again {s : State} {c : Nat}
    (hidle : (s.queue (s.fld (Reg.DMA_CH_CFG c) 15 0)).served.any (·.1 == runReader c) = false) (hoff : (s.chan c).enable = false) :
    s.chanDisable c = s := by
  simp only [State.chanDisable, State.finishRead_idle hidle, hoff, Bool.false_eq_true, if_false]

theorem State.settleChan_due {s : State} {c : Nat} (hpend : (s.chan c).enablePending = true) (hidle : (s.chan c).current = none) :
    s.settleChan c =
      (s.setChan c { s.chan c with enable := true, pqStopped := false, enablePending := false, enableRefs := [] }).completeAll
        (s.chan c).enableRefs stOK :=
  if_pos (by rw [hpend, hidle]; rfl)

/-- Settles O37: acceptance by the channel's state and room, then each control descriptor. -/
theorem dmaChannels : Obligations.DmaChannels := by
  unfold Obligations.DmaChannels
  refine ⟨?run, ?read, ?item, fun s c p rest hclk hlist hon hwaits => exec_programStart hclk hlist hon hwaits, ?abort, ?control,
    fun s c hpend hidle => State.settleChan_due hpend hidle⟩
  case run =>
    intro s d hclk hcarrier haligned c x
    have hrun : exec (.dmaRun d) s = .next (s.dmaRun d) := exec_of_clocked hclk rfl
    have hnoQueue (h : s.bit (Reg.DMA_CH_CFG c) 31 = false) : (s.bit (Reg.DMA_CH_CFG c) 31 && (s.chan c).enable) = false := by
      rw [h, Bool.false_and]
    refine ⟨fun hon hhost hroom => hrun.trans (congrArg _ ?_), fun hon hhost hfull => hrun.trans (congrArg _ ?_),
      fun hon hqueue => hrun.trans (congrArg _ (State.dmaRun_queue hcarrier haligned hqueue hon)), fun hoff => hrun.trans (congrArg _ ?_)⟩
    · exact State.dmaRun_host hcarrier haligned (hnoQueue hhost) (State.acceptProg_room rfl _ _ hon hroom)
    · exact State.dmaRun_host hcarrier haligned (hnoQueue hhost) (State.acceptProg_full rfl _ _ hon hfull)
    · have hnone : (s.bit (Reg.DMA_CH_CFG c) 31 && (s.chan c).enable) = false := by
        rw [show (s.chan c).enable = false from hoff, Bool.and_false]
      exact State.dmaRun_host hcarrier haligned hnone (State.acceptProg_off rfl _ _ hoff)
  case read =>
    intro s s1 c i hclk hqueue hon hrun hroom
    have hread : exec (.runItemRead c) s = .next (s.runItemRead c) := exec_of_clocked hclk rfl
    exact ⟨fun hr => hread.trans (congrArg _ (State.runItemRead_of_read hqueue hon hrun hroom hr ReadResult.noConfusion)),
      fun hr => hread.trans (congrArg _ (State.runItemRead_of_read hqueue hon hrun hroom hr (by decide)))⟩
  case item =>
    intro s c w hplain hunbound
    exact ⟨fun hon hroom => State.runItem_of_accept hplain (State.acceptProg_room hunbound _ _ hon hroom),
      fun hoff => State.runItem_of_accept hplain (State.acceptProg_off hunbound _ _ hoff)⟩
  case abort =>
    intro s d hclk c t
    have habort := (exec_of_clocked hclk rfl : exec (.dmaAbort d) s = _).trans (congrArg _ (s.dmaAbort_eq d))
    refine ⟨fun hsome => habort.trans (congrArg _ ?_), fun hnone => habort.trans (congrArg _ ?_)⟩
    · rw [show ((s.finishRead c).chan c).list.any (fun p => p.tag == d.w 0x14) = true from hsome]
      rfl
    · rw [State.abortProgs_none _ hnone, show ((s.finishRead c).chan c).list = [] from hnone]
      rfl
  case control =>
    intro s d hclk c x
    exact ⟨fun hidle hon hnone => (exec_of_clocked hclk rfl).trans
        (congrArg (fun t : State => Host.Outcome.next (t.complete (d.ref false) stOK 0)) (State.chanDisable_idle hidle hon hnone)),
      fun hidle hoff => (exec_of_clocked hclk rfl).trans
        (congrArg (fun t : State => Host.Outcome.next (t.complete (d.ref false) stOK 0)) (State.chanDisable_again hidle hoff)),
      fun hon => (exec_of_clocked hclk rfl).trans (congrArg _ (if_pos hon)),
      fun hoff => (exec_of_clocked hclk rfl).trans (congrArg _ (if_neg (Bool.eq_false_iff.mp hoff)))⟩

end Sys2Proof.Machine
end

section
/-! Instructions of a DMA program (R208, R213 to R221). -/

namespace Sys2Proof.Machine

/-! ## The instruction a program has reached -/

theorem instrOp_of_op {i : List W32} {o : Nat} (h : bitsOf (instrW i 0) 31 28 = o) (ho : o ≤ 4) : instrOp i = o := by
  have hhead : i.headD 0 = instrW i 0 := by
    cases i <;> rfl
  rw [instrOp, hhead, h]
  exact if_neg (Nat.not_lt.mpr ho)

theorem State.clampInstr_false (s : State) (p : DmaProg) : s.clampInstr p false = (s, p) := by
  rw [State.clampInstr, Bool.or_false]
  rfl

section
variable {s s1 : State} {c : Nat} {p p1 : DmaProg} {inst : List W32} (hcur : (s.chan c).current = some p) (hwait : p.wait = none)
  (hmove : p.move = none)
include hcur hwait hmove

theorem State.atInstr_fetched {i : List W32} (hfetch : s.fetchInstr c p inst = (s1, p1, some i)) {due : List W32 → Bool}
    (hdue : due i = true) (f : State → DmaProg → List W32 → State) : s.atInstr c inst due f = f s1 p1 i := by
  simp only [State.atInstr, hcur, hwait, hmove, Option.isSome_none, Bool.or_self, Bool.false_eq_true, if_false, hfetch, hdue, if_true]

theorem State.atInstr_failed (hfetch : s.fetchInstr c p inst = (s1, p1, none)) (due : List W32 → Bool)
    (f : State → DmaProg → List W32 → State) : s.atInstr c inst due f = s1.badProg c p p.pc p.pc := by
  simp only [State.atInstr, hcur, hwait, hmove, Option.isSome_none, Bool.or_self, Bool.false_eq_true, if_false, hfetch]

omit hwait in
theorem DmaChan.moving_of_noMove : ¬ (s.chan c).moving.isSome = true := by
  rw [DmaChan.moving, hcur, Option.bind_some, hmove]
  exact Bool.false_ne_true

end

theorem DmaChan.moving_of_idle {x : DmaChan} (h : x.current = none) : ¬ x.moving.isSome = true := by
  rw [DmaChan.moving, h]
  exact Bool.false_ne_true

/-! ## END and MOVE -/

theorem State.dmaEnd_code {s : State} {c : Nat} {p : DmaProg} {i : List W32} (h : bitsOf (instrW i 0) 31 28 = 0) :
    s.dmaEnd c p i = s.endProg c p p.status (bitsOf (instrW i 0) 15 0) := by
  have heven : decide (4 < bitsOf (instrW i 0) 31 28) = false := by
    rw [h]
    rfl
  simp only [State.dmaEnd, heven, State.clampInstr_false, Bool.false_eq_true, if_false]

/-- A MOVE whose fields are in range begins with its bursts in order. -/
theorem State.beginMove_inRange {s : State} {c : Nat} {p : DmaProg} {i : List W32} {host : List Byte}
    (hsm : bitsOf (instrW i 0) 27 26 < 3) (hdm : bitsOf (instrW i 0) 25 24 < 3)
    (hsw : wrapField (bitsOf (instrW i 0) 23 18) = bitsOf (instrW i 0) 23 18)
    (hdw : wrapField (bitsOf (instrW i 0) 17 12) = bitsOf (instrW i 0) 17 12) (hlen : 0 < (instrW i 1).toNat) :
    let len := (instrW i 1).toNat
    let a := moveSide (bitsOf (instrW i 0) 27 26) (bitsOf (instrW i 0) 23 18) len (signedOf 32 (instrW i 6).toNat) (instrW64 i 2) p.srcCur
    let b := moveSide (bitsOf (instrW i 0) 25 24) (bitsOf (instrW i 0) 17 12) len (signedOf 32 (instrW i 7).toNat) (instrW64 i 4) p.dstCur
    s.beginMove c p i host = s.setProg c { p with move := some ⟨a.1, bitsOf (instrW i 0) 23 18, b.1, bitsOf (instrW i 0) 17 12, host,
      moveOrder a.1 (bitsOf (instrW i 0) 23 18) b.1 (bitsOf (instrW i 0) 17 12) len, a.2, b.2, []⟩ } := by
  have hsm3 : (bitsOf (instrW i 0) 27 26 == 3) = false := beq_eq_false_iff_ne.mpr (Nat.ne_of_lt hsm)
  have hdm3 : (bitsOf (instrW i 0) 25 24 == 3) = false := beq_eq_false_iff_ne.mpr (Nat.ne_of_lt hdm)
  simp only [State.beginMove, hsw, hdw, hsm3, hdm3, bne_self_eq_false, Bool.or_self, State.clampInstr_false,
    Nat.min_eq_left (Nat.le_of_lt_succ hsm), Nat.min_eq_left (Nat.le_of_lt_succ hdm), if_neg (Nat.ne_of_gt hlen)]

/-! ## LOOP -/

section
variable {s : State} {c : Nat} {p : DmaProg} {i : List W32} (hlevel : bitOf (instrW i 0) 16 = false)
  (hback : bitsOf (instrW i 0) 11 0 < p.index) (hcount : instrW i 1 ≠ 0)
include hlevel hback hcount

theorem State.dmaLoopStep_inRange : s.dmaLoopStep c p i =
    if 0 < p.loop0.getD ((instrW i 1).toNat - 1) then
      s.setProg c { p with loop0 := some (p.loop0.getD ((instrW i 1).toNat - 1) - 1), index := bitsOf (instrW i 0) 11 0, fetched := [] }
    else s.nextInstr c { p with loop0 := none } := by
  have hnonzero : (instrW i 1).toNat ≠ 0 := fun h => hcount (BitVec.eq_of_toNat_eq h)
  have hzero : ((instrW i 1).toNat == 0) = false := beq_eq_false_iff_ne.mpr hnonzero
  simp only [State.dmaLoopStep, hlevel, if_neg (Nat.not_le.mpr hback), if_neg hnonzero, hzero, decide_eq_false (Nat.not_le.mpr hback),
    Bool.or_self, State.clampInstr_false, Bool.false_eq_true, if_false]

end

/-! ## WAIT -/

theorem waitLimit_of_le {v : Nat} (h : v ≤ 1000000) : waitLimit v = v := if_neg (Nat.not_lt.mpr h)

section
variable {s : State} {c : Nat} {p : DmaProg} {w : DmaWait} (go : State → DmaProg → State)

theorem State.beginWait_early (h : s.tb.timeU ≤ w.deadlineU) : s.beginWait c p w go = go s { p with wait := some w } :=
  if_neg (Int.not_lt.mpr h)

theorem State.beginWait_late (h : w.deadlineU < s.tb.timeU) :
    s.beginWait c p w go = (s.endWait c p true stTIMEOUT).raise Reg.DMA_EVENT 1 := if_pos h

end

section
variable {s : State} {c : Nat} {p : DmaProg} {i : List W32} (hdl : bitsOf (instrW i 2) 19 0 ≤ 1000000)
include hdl

theorem State.waitQueue_stored (hkind : (s.queue (bitsOf (instrW i 0) 15 0)).storable = true) :
    s.waitQueue c p i = s.beginWait c p ⟨some (bitsOf (instrW i 0) 15 0), 0, s.waitDeadlineU p (bitsOf (instrW i 2) 19 0)⟩
      (fun s p => s.waitRead c p (bitsOf (instrW i 0) 15 0)) := by
  simp only [State.waitQueue, decide_eq_false (Nat.not_lt.mpr hdl), State.clampInstr_false, hkind, Bool.not_true, Bool.false_eq_true,
    if_false, waitLimit_of_le hdl]

theorem State.waitQueue_refused (hkind : (s.queue (bitsOf (instrW i 0) 15 0)).storable = false) :
    s.waitQueue c p i = s.endProg c p (worseStatus p.status stREFUSED) 0 := by
  simp only [State.waitQueue, decide_eq_false (Nat.not_lt.mpr hdl), State.clampInstr_false, hkind, Bool.not_false, if_true]

theorem State.waitTime_begins :
    s.waitTime c p i = s.beginWait c p
      ⟨none, (s.progBoundary p 0 + signedOf 32 (instrW i 1).toNat) * uPerNs, s.waitDeadlineU p (bitsOf (instrW i 2) 19 0)⟩
      (fun t p' => if (s.progBoundary p 0 + signedOf 32 (instrW i 1).toNat) * uPerNs ≤ t.tb.timeU then t.endWait c p' false stOK
        else t.setProg c p') := by
  simp only [State.waitTime, decide_eq_false (Nat.not_lt.mpr hdl), State.clampInstr_false, waitLimit_of_le hdl]

end

section
variable {s : State} {c : Nat} {p : DmaProg} {w : DmaWait}

theorem State.tryWait_time (hq : w.qid = none) (hmet : w.timeU ≤ s.tb.timeU) (hin : w.timeU ≤ w.deadlineU) :
    s.tryWait c p w = s.endWait c p false stOK := by
  simp only [State.tryWait, hq, if_neg (Int.not_lt.mpr hmet), if_neg (Int.not_lt.mpr hin)]

theorem State.tryWait_timeLate (hq : w.qid = none) (hmet : w.timeU ≤ s.tb.timeU) (hout : w.deadlineU < w.timeU) :
    s.tryWait c p w = (s.endWait c p true stTIMEOUT).raise Reg.DMA_EVENT 1 := by
  simp only [State.tryWait, hq, if_neg (Int.not_lt.mpr hmet), if_pos hout, State.timeOutWait]

theorem State.tryWait_queue {q : Nat} (hq : w.qid = some q) (hdue : s.tb.timeU ≤ w.deadlineU ∨ s.waitServed c q = true) :
    s.tryWait c p w = s.waitRead c p q := by
  have hcounts : (decide (w.deadlineU < s.tb.timeU) && !s.waitServed c q) = false := by
    rcases hdue with h | h
    · rw [decide_eq_false (Int.not_lt.mpr h), Bool.false_and]
    · rw [h, Bool.not_true, Bool.and_false]
  simp only [State.tryWait, hq, hcounts, Bool.false_eq_true, if_false]

theorem State.tryWait_queueLate {q : Nat} (hq : w.qid = some q) (hlate : w.deadlineU < s.tb.timeU) (hnone : s.waitServed c q = false) :
    s.tryWait c p w = ((s.unstall q (waitReader c)).endWait c p true stTIMEOUT).raise Reg.DMA_EVENT 1 := by
  simp only [State.tryWait, hq, decide_eq_true hlate, hnone, Bool.not_false, Bool.and_self, if_true, State.timeOutWait]

theorem State.waitConditionMet_waiting (hcur : (s.chan c).current = some p) (hwait : p.wait = some w) :
    s.waitConditionMet c = s.tryWait c p w := by
  simp only [State.waitConditionMet, hcur, hwait]

/-- A WAIT for a time behind its deadline times out when the deadline has come. -/
theorem State.waitDeadline_time (hcur : (s.chan c).current = some p) (hwait : p.wait = some w) (hq : w.qid = none)
    (hdue : w.deadlineU ≤ s.tb.timeU) (hout : w.deadlineU < w.timeU) :
    s.waitDeadline c = (s.endWait c p true stTIMEOUT).raise Reg.DMA_EVENT 1 := by
  have hstill : s.inWait c = true := by
    rw [State.inWait, hcur]
    simp only [hwait, Option.isSome_some]
  simp only [State.waitDeadline, hcur, hwait, if_neg (Int.not_lt.mpr hdue), hq, Option.isNone_none, decide_eq_true hout, Bool.and_self,
    if_true, hstill, beq_self_eq_true, State.timeOutWait]

end

section
variable {s s1 : State} {c qid : Nat} {p : DmaProg}

theorem State.waitRead_item {i : QItem} (h : s.readQueue qid (waitReader c) = (s1, .item i)) :
    s.waitRead c p qid = s1.endWait c p false stOK := by
  simp only [State.waitRead, h]

theorem State.waitRead_stalls (h : s.readQueue qid (waitReader c) = (s1, .stalls)) : s.waitRead c p qid = s1.setProg c p := by
  simp only [State.waitRead, h]

theorem State.waitRead_disabled (h : s.readQueue qid (waitReader c) = (s1, .ended stDISABLED)) :
    s.waitRead c p qid = s1.endWait c p false stDISABLED := by
  simp only [State.waitRead, h, if_true]

theorem State.waitRead_aborted (h : s.readQueue qid (waitReader c) = (s1, .ended stABORTED)) :
    s.waitRead c p qid = s1.endProg c { p with wait := none } (worseStatus p.status stABORTED) 0 := by
  have hne : ¬ stABORTED = stDISABLED := by decide
  simp only [State.waitRead, h, if_neg hne]

end

/-! ## SIGNAL -/

/-- Where nothing waits for Bus Master Enable, a SIGNAL of its kind is due. -/
theorem signalDue {s : State} {c : Nat} {i : List W32} (hop : bitsOf (instrW i 0) 31 28 = 4) (hfree : s.writesHeld c = false) :
    (!s.writesHeld c && instrOp i == 4) = true := by
  rw [hfree, instrOp_of_op hop (Nat.le_refl 4)]
  rfl

/-! ## Bursts -/

theorem State.afterBurst_more (s : State) (c : Nat) (p : DmaProg) (m : DmaMove) {rest : List (Nat × Nat)} (h : rest ≠ []) :
    s.afterBurst c p m rest = s.setProg c { p with move := some { m with parts := rest } } :=
  if_neg (by rwa [List.isEmpty_iff])

/-- What a burst does with the bytes it has read, or the address that failed. -/
def State.burstWrite (s0 : State) (c : Nat) (p : DmaProg) (m : DmaMove) (off n : Nat) (rest : List (Nat × Nat))
    (x : State × Except Nat (List Byte)) : State :=
  match x.2 with
  | .error a => x.1.badProg c p p.pc a
  | .ok b =>
    let y := x.1.writePieces (dmaRequester c) (s0.behalf c p) (b.take n) none (sidePieces m.dst m.dw off n)
    match y.2 with
    | some a => y.1.badProg c p p.pc a
    | none => y.1.afterBurst c p { m with unit := b.drop n } rest

section
variable {s : State} {c off n : Nat} {p : DmaProg} {m : DmaMove} {rest : List (Nat × Nat)}
  (hmoving : (s.chan c).moving = some (p, m)) (hparts : m.parts = (off, n) :: rest)
include hmoving hparts

/-- The state in which an engine reads a burst: its turn has come. -/
def State.turnOf (s : State) (c : Nat) : State := { s with dma.turn := mapSet (fun _ => 15) s.dma.turn (c / 16) (c % 16) }

theorem State.burst_reads {o k : Nat} (hread : m.readOf off n = some (o, k)) : s.burst c =
    (s.turnOf c).burstWrite c p m off n rest ((s.turnOf c).readPieces (dmaRequester c) ((s.turnOf c).chanFn c) ((m.host.drop o).take k) []
      (sidePieces m.src m.sw o k)) := by
  rw [State.burst, hmoving]
  simp only [hparts, hread]
  rfl

theorem State.burst_rest (hread : m.readOf off n = none) :
    s.burst c = (s.turnOf c).burstWrite c p m off n rest (s.turnOf c, .ok m.unit) := by
  rw [State.burst, hmoving]
  simp only [hparts, hread]
  rfl

end

/-- How the bytes of a burst end up: the access that fails ends the program, else the MOVE goes on or is over. -/
theorem State.burstWrite_cases (s0 : State) (c : Nat) (p : DmaProg) (m : DmaMove) (off n : Nat) (rest : List (Nat × Nat))
    (x : State × Except Nat (List Byte)) :
    (∀ a, x.2 = .error a → s0.burstWrite c p m off n rest x = x.1.badProg c p p.pc a) ∧
    (∀ b, x.2 = .ok b →
      let y := x.1.writePieces (dmaRequester c) (s0.behalf c p) (b.take n) none (sidePieces m.dst m.dw off n)
      (∀ a, y.2 = some a → s0.burstWrite c p m off n rest x = y.1.badProg c p p.pc a) ∧
      (y.2 = none → rest ≠ [] →
        s0.burstWrite c p m off n rest x = y.1.setProg c { p with move := some { m with unit := b.drop n, parts := rest } }) ∧
      (y.2 = none → rest = [] → s0.burstWrite c p m off n rest x =
        y.1.nextInstr c { p with move := none, srcCur := m.srcCur, dstCur := m.dstCur })) := by
  refine ⟨fun a ha => ?_, fun b hb => ⟨fun a ha => ?_, fun hnone hrest => ?_, fun hnone hrest => ?_⟩⟩
  · rw [State.burstWrite, ha]
  · rw [State.burstWrite, hb]
    dsimp only
    rw [ha]
  · rw [State.burstWrite, hb]
    dsimp only
    rw [hnone]
    exact State.afterBurst_more _ c p _ hrest
  · subst hrest
    rw [State.burstWrite, hb]
    dsimp only
    rw [hnone]
    rfl

theorem State.serveBursts_next {s : State} {c n k : Nat} (h : s.nextBurst (c / 16) = some k) : s.serveBursts c (n + 1) =
    if ((s.burst k).chan c).moving.isSome then (s.burst k).serveBursts c n else s.burst k := by
  rw [State.serveBursts, h]

/-- Settles O38: each instruction as the one a program has reached, then the bursts and the WAITs. -/
theorem dmaInstructions : Obligations.DmaInstructions := by
  unfold Obligations.DmaInstructions
  refine ⟨?instr, ?failed, ?burst, fun s c n k h => State.serveBursts_next h, ?waits, ?read, ?ends⟩
  case instr =>
    intro s s1 c p p1 inst i hclk hcur hwait hmove hfetch
    have hat {due : List W32 → Bool} (hdue : due i = true) (f : State → DmaProg → List W32 → State) :
        s.atInstr c inst due f = f s1 p1 i := State.atInstr_fetched hcur hwait hmove hfetch hdue f
    refine ⟨?op0, ?op1, ?op2, ?queue, ?time, ?flags, ?item⟩
    case op0 =>
      intro hop
      have hdue : (instrOp i == 0) = true := beq_iff_eq.mpr (instrOp_of_op hop (Nat.zero_le 4))
      exact (exec_of_clocked hclk rfl).trans (congrArg _ ((hat hdue _).trans (State.dmaEnd_code hop)))
    case op1 =>
      intro host served _ hop hsm hdm hsw hdw len a b t hlen hmoving
      have hdue : (instrOp i == 1) = true := beq_iff_eq.mpr (instrOp_of_op hop (by decide))
      have hbegins : (if (s.chan c).moving.isSome then s
          else s.atInstr c inst (fun i => instrOp i == 1) (fun s p i => s.beginMove c p i host)) = t :=
        (if_neg (DmaChan.moving_of_noMove hcur hmove)).trans ((hat hdue _).trans (State.beginMove_inRange hsm hdm hsw hdw hlen))
      refine (exec_of_clocked hclk rfl).trans (congrArg _ ?_)
      rw [State.dmaMove, hbegins]
      exact if_pos hmoving
    case op2 =>
      intro hop hlevel hback hcount left
      have hdue : (instrOp i == 2) = true := beq_iff_eq.mpr (instrOp_of_op hop (by decide))
      have hloop := (hat (due := fun i => instrOp i == 2) hdue (fun s p i => s.dmaLoopStep c p i)).trans (State.dmaLoopStep_inRange hlevel hback hcount)
      exact ⟨fun hleft => (exec_of_clocked hclk rfl).trans (congrArg _ (hloop.trans (if_pos hleft))),
        fun hleft => (exec_of_clocked hclk rfl).trans (congrArg _ (hloop.trans (if_neg (Nat.not_lt.mpr (Nat.le_of_eq hleft)))))⟩
    case queue =>
      intro hop hkind hdl dl
      have hdue : (instrOp i == 3 && !bitOf (instrW i 0) 27) = true := by
        rw [instrOp_of_op hop (by decide), hkind]
        rfl
      have hqueue : exec (.waitQueue c inst) s = .next (s1.waitQueue c p1 i) := (exec_of_clocked hclk rfl).trans (congrArg _ (hat hdue _))
      exact ⟨fun hstored hearly => hqueue.trans (congrArg _ ((State.waitQueue_stored hdl hstored).trans (State.beginWait_early _ hearly))),
        fun hstored hlate => hqueue.trans (congrArg _ ((State.waitQueue_stored hdl hstored).trans (State.beginWait_late _ hlate))),
        fun hnone => hqueue.trans (congrArg _ (State.waitQueue_refused hdl hnone))⟩
    case time =>
      intro hop hkind hdl dl t
      have hdue : (instrOp i == 3 && bitOf (instrW i 0) 27) = true := by
        rw [instrOp_of_op hop (by decide), hkind]
        rfl
      have htime : exec (.waitTime c inst) s = .next (s1.waitTime c p1 i) := (exec_of_clocked hclk rfl).trans (congrArg _ (hat hdue _))
      exact ⟨fun hearly hmet => htime.trans (congrArg _ ((State.waitTime_begins hdl).trans
          ((State.beginWait_early _ hearly).trans (if_pos hmet)))),
        fun hearly hahead => htime.trans (congrArg _ ((State.waitTime_begins hdl).trans
          ((State.beginWait_early _ hearly).trans (if_neg (Int.not_le.mpr hahead))))),
        fun hlate => htime.trans (congrArg _ ((State.waitTime_begins hdl).trans (State.beginWait_late _ hlate)))⟩
    case flags =>
      intro hop hkind hfree mask
      have hdue : (!s.writesHeld c && instrOp i == 4 && !bitOf (instrW i 0) 27) = true := by
        rw [signalDue hop hfree, hkind]
        rfl
      have hflags : exec (.signalFlags c inst) s = .next (s1.signalFlags c p1 i) := (exec_of_clocked hclk rfl).trans (congrArg _ (hat hdue _))
      exact ⟨fun hmask => hflags.trans (congrArg (fun t : State => Host.Outcome.next (t.nextInstr c p1)) (if_neg hmask)),
        fun hmask => hflags.trans (congrArg (fun t : State => Host.Outcome.next (t.nextInstr c p1)) (if_pos hmask))⟩
    case item =>
      intro hop hkind hfree x
      have hdue : (!s.writesHeld c && instrOp i == 4 && bitOf (instrW i 0) 27) = true := by
        rw [signalDue hop hfree, hkind]
        rfl
      have hitem : exec (.signalItem c inst) s = .next (s1.signalItem c p1 i) := (exec_of_clocked hclk rfl).trans (congrArg _ (hat hdue _))
      exact ⟨fun hok => hitem.trans (congrArg (fun t : State => Host.Outcome.next (t.nextInstr c p1)) (if_pos hok)),
        fun hbad => hitem.trans (congrArg (fun t : State => Host.Outcome.next (t.nextInstr c p1)) (if_neg hbad))⟩
  case failed =>
    intro s s1 c p p1 inst host hclk hcur hwait hmove hfetch
    have hat (due : List W32 → Bool) (f : State → DmaProg → List W32 → State) : s.atInstr c inst due f = s1.badProg c p p.pc p.pc :=
      State.atInstr_failed hcur hwait hmove hfetch due f
    refine ⟨(exec_of_clocked hclk rfl).trans (congrArg _ (hat _ _)), fun hended => (exec_of_clocked hclk rfl).trans (congrArg _ ?_)⟩
    have hmoved : s.dmaMove c inst host 0 = s1.badProg c p p.pc p.pc := by
      have hbegins : (if (s.chan c).moving.isSome then s
          else s.atInstr c inst (fun i => instrOp i == 1) (fun s p i => s.beginMove c p i host)) = s1.badProg c p p.pc p.pc :=
        (if_neg (DmaChan.moving_of_noMove hcur hmove)).trans (hat _ _)
      rw [State.dmaMove, hbegins]
      exact if_neg (DmaChan.moving_of_idle hended)
    rw [State.dmaBusError, hmoved]
    exact if_neg (by rw [hended]; exact Bool.false_ne_true)
  case burst =>
    intro s c off n p m rest hmoving hparts s0 x
    cases hread : m.readOf off n with
    | none =>
      rw [State.burst_rest hmoving hparts hread]
      have hx : x = (s.turnOf c, .ok m.unit) := by
        simp only [x, hread]
        rfl
      rw [hx]
      exact State.burstWrite_cases _ c p m off n rest _
    | some ok =>
      obtain ⟨o, k⟩ := ok
      rw [State.burst_reads hmoving hparts hread]
      have hx : x = (s.turnOf c).readPieces (dmaRequester c) ((s.turnOf c).chanFn c) ((m.host.drop o).take k) [] (sidePieces m.src m.sw o k) := by
        simp only [x, hread]
        rfl
      rw [hx]
      exact State.burstWrite_cases _ c p m off n rest _
  case waits =>
    intro s c p w hclk hcur hwait
    have hmet := (exec_of_clocked hclk rfl : exec (.waitConditionMet c) s = _).trans (congrArg _ (State.waitConditionMet_waiting hcur hwait))
    exact ⟨fun hq ht hin => hmet.trans (congrArg _ (State.tryWait_time hq ht hin)),
      fun hq ht hout => hmet.trans (congrArg _ (State.tryWait_timeLate hq ht hout)),
      fun q hq hdue => hmet.trans (congrArg _ (State.tryWait_queue hq hdue)),
      fun q hq hlate hnone => hmet.trans (congrArg _ (State.tryWait_queueLate hq hlate hnone)),
      fun hq hdue hout => (exec_of_clocked hclk rfl).trans (congrArg _ (State.waitDeadline_time hcur hwait hq hdue hout))⟩
  case read =>
    exact fun s s1 c qid p => ⟨fun i => State.waitRead_item, State.waitRead_stalls, State.waitRead_disabled, State.waitRead_aborted⟩
  case ends => exact fun s c st sp p => ⟨fun h => if_neg (Bool.eq_false_iff.mp h), fun h => if_pos h⟩

end Sys2Proof.Machine
end

section
/-! An abort of a job that has not started and already carries a status. -/

namespace Sys2Proof.Machine

/-- A job that no unit has taken up, with status BAD. -/
def badWaitingJob : EngJob :=
  { seq := 0, origin := .host ⟨0, 0, false, false⟩, kind := 2, carrier := 0, half := .ul, slotNum := 0, slot := 0, tag := 0, words := [],
    clamped := false, status := stBAD }

/-- The Spatial engine holds that job alone. -/
def badWaiting : State := { col.serhamUp := true, engines := [(0, { jobs := [badWaitingJob] })] }

/-- The SPA_ABORT that names its tag. -/
def abortTagZero : Desc :=
  { ring := 0, type := 0x0501, tag := 0, flags := 0, immediate := false, carrier := 0, slot := 0, body := [] }

/-- STATUS of the first completion entry that waits for the PF to become bus master. -/
def firstStatus (r : Res) : Option Byte :=
  match r with
  | .next t => ((t.fnOf 0).waiting.head?).bind (fun w => w.data[4]?)
  | .fault _ => none
  | .refused _ => none

theorem abort_of_badWaiting : firstStatus (exec (.spaAbort abortTagZero) badWaiting) = some (BitVec.ofNat 8 stBAD) := by
  decide +kernel

/-- Refutes O40: an abort ends a job with the worse of ABORTED and the status the job carries, and BAD is worse (R27). The clause for a
job that has not started leaves its status open: in `badWaiting` it is BAD, and the completion carries BAD instead of ABORTED. -/
theorem not_engineJobs : ¬ Obligations.EngineJobs := by
  intro h
  obtain ⟨-, -, -, -, -, hcontrol⟩ := h
  obtain ⟨-, habort, -⟩ := hcontrol badWaiting abortTagZero 0 .spaAbort .spaDisable .spaEnable (by decide) (.inl ⟨rfl, rfl, rfl, rfl⟩)
  have hended := congrArg firstStatus (habort badWaitingJob (by decide) rfl)
  rw [abort_of_badWaiting] at hended
  revert hended
  decide +kernel

end Sys2Proof.Machine
end

section
/-! Spatial and Coding jobs (R232 to R236, R244, R247, R249, R252, R255, R256, R259). -/

namespace Sys2Proof.Machine

/-! ## Weight estimation -/

/-- An estimation ends with its singular pivots counted. -/
def State.endEstimation (y : State × Bool × Nat) (j : EngJob) : State :=
  (if y.2.2 = 0 then y.1.bumpFld Reg.SPA_SINGULAR 31 0 y.2.2
    else (y.1.bumpFld Reg.SPA_SINGULAR 31 0 y.2.2).raise Reg.SPA_EVENT 1).finishJob 0 j (if y.2.1 then stOK else stBAD) y.2.2

theorem State.endEstimation_regular {y : State × Bool × Nat} (j : EngJob) (h : y.2.2 = 0) :
    State.endEstimation y j = (y.1.bumpFld Reg.SPA_SINGULAR 31 0 0).finishJob 0 j (if y.2.1 then stOK else stBAD) 0 := by
  rw [State.endEstimation, h]
  rfl

theorem State.endEstimation_singular {y : State × Bool × Nat} (j : EngJob) (h : y.2.2 ≠ 0) : State.endEstimation y j =
    ((y.1.bumpFld Reg.SPA_SINGULAR 31 0 y.2.2).raise Reg.SPA_EVENT 1).finishJob 0 j (if y.2.1 then stOK else stBAD) y.2.2 := by
  rw [State.endEstimation, if_neg h]

section
variable {s : State} {j0 : EngJob} {t : Nat} (hnext : s.spaNext = some (j0, t))
include hnext

theorem State.estw_eq (hkind : j0.kind = 1) :
    let s2 := (s.runJob 0 j0 t).setWbuf j0.wkey ⟨2, j0.slot⟩
    let j := { j0 with running := true, place := t }
    let p := spaPage (s2.jobLatch j)
    let x := (s2.tileBusy t (estwCycles p j)).readModule (tileRequester t) (j.w64 4) (p.nsym * p.l * p.n * (j.prbCount * p.dens) * 4)
    (x.2 = none → s.estw = x.1.finishJob 0 j stBAD 0) ∧
    (∀ b, x.2 = some b →
      s.estw = State.endEstimation (x.1.storeGroups (tileRequester t) p j (estIn p j b) 0 (j.prbGroups p.g)) j) := by
  have hthis : ¬ (j0.kind != 1) = true := by
    rw [hkind]
    exact Bool.false_ne_true
  refine ⟨fun hx => ?_, fun b hx => ?_⟩
  · rw [State.estw, hnext]
    dsimp only
    rw [if_neg hthis, hx]
  · rw [State.estw, hnext]
    dsimp only
    rw [if_neg hthis, hx]
    rfl

/-! ## Combining and precoding -/

/-- A job without REPORT_EN reads no UE table: what is left depends on its symbols and on its buffer. -/
theorem State.spaApply_eq (hreport : (j0.w 0).getLsbD 25 = false) :
    let s1 := s.runJob 0 j0 t
    let j := { j0 with running := true, place := t }
    let p := spaPage (s1.jobLatch j0)
    s.spaApply j0.kind =
      if j.symbols.isEmpty then (s1.tileBusy t (applyCycles p j false)).finishJob 0 j stOK 0
      else if !((s1.wbuf j.wkey).state == 1) then s1.finishJob 0 j stNOWGT 0
      else (s1.tileBusy t (applyCycles p j false)).applyWeights j0.kind (tileRequester t) p j [] := by
  simp only [State.spaApply, hnext, bne_self_eq_false, hreport, Bool.and_false, Bool.false_eq_true, if_false, List.any_nil, Bool.or_false,
    Bool.not_true]
  rfl

end

theorem State.applyWeights_loaded {s s2 : State} {kind req : Nat} {p : SpaPage} {j : EngJob} {ws : List (Nat × GroupWeights)}
    (hreport : (j.w 0).getLsbD 25 = false) (hload : s.loadGroups req p j.wbuf [] (j.prbGroups p.g) = (s2, some ws)) :
    let acc := if kind = 2 then
        spaSymbols req p j ws p.n (blockBytes p.inFmt j.prbCount) (blockDecode p.inFmt) p.l (blockEncode 0)
          (fun l gw xs => combineSample gw p.outShift l xs) ⟨s2, stOK, 0, []⟩ 0 j.symbols
      else
        spaSymbols req p j ws p.l (blockBytes 0 j.prbCount) (blockDecode 0) p.n (blockEncode p.outFmt)
          (fun n gw ys => precodeSample gw p.outShift n ys) ⟨s2, stOK, 0, []⟩ 0 j.symbols
    s.applyWeights kind req p j [] = (acc.s.countSat (acc.sat.map Prod.snd).sum).finishJob 0 j acc.status (acc.sat.map Prod.snd).sum := by
  simp only [State.applyWeights, hload, hreport, Bool.and_false, Bool.false_and, Bool.false_eq_true, if_false]

theorem exec_spaApply {s : State} (hclk : s.clocked = true) {k : Nat} (h : k = 2 ∨ k = 3) :
    exec (if k = 2 then .combine else .precode) s = .next (s.spaApply k) := by
  rcases h with rfl | rfl
  · exact exec_of_clocked hclk rfl
  · exact exec_of_clocked hclk rfl

/-! ## Code blocks -/

theorem exec_codeBlockStart {s : State} (hclk : s.clocked = true) {g u : Nat} {j : EngJob} (hg : g < 4)
    (hfree : s.codPlace.unitFree g u = true)
    (hnext : s.codPlace.nextJob 1 (fun j => j.place == g && unitOf j.kind == u && !j.finished && decide (j.cod.begun < j.cod.blocks)
        && s.codPlace.slotFired j.carrier j.half j.slotNum && (j.running || (s.codPlace.groupInService 1 g && s.codPlace.bufferFree j)))
      = some j) :
    let x := if j.running then (s.codPlace, j) else if codDecodes j.kind then s.codPlace.openBuffer j else s.codPlace.openEncode j
    exec (.codeBlockStart g u) s = .next ((x.1.wakeCluster (engCluster 1 g)).setJob 1
      { x.2 with running := true, cod := { x.2.cod with begun := x.2.cod.begun + 1 } }) := by
  have hunit : (decide (g < 4) && s.codPlace.unitFree g u) = true := by
    rw [decide_eq_true hg, hfree]
    rfl
  refine (exec_of_clocked hclk rfl).trans (congrArg _ ?_)
  rw [State.codeBlockStart]
  dsimp only
  rw [hnext]
  exact if_pos hunit

theorem State.decodeStep_plain {s s1 : State} {g kind : Nat} {j : EngJob} {llrs : List Int} (hj : s.blockEnding g kind = some j)
    (hbuf : s.hqAddr j (s.codPageOf j) = none) (hread : s.readLlrs j (s.codPageOf j).llr4 j.cod.ended = (s1, some llrs)) :
    let p := s.codPageOf j
    let r := j.cod.ended
    let y := j.decodeBlock p r ((j.block p r).soft (j.received r llrs) [])
    s.decodeStep g kind =
      (s1.unitBusy j.place (decodeCycles j p r y.iterations (j.highNew p r))).blockEnded (j.tally r y false false) false := by
  simp only [State.decodeStep, hj, hbuf, State.runDecoder, hread, List.length_nil, Nat.max_zero]

theorem State.encodeStep_ldpc {s : State} {g : Nat} {j : EngJob} (hj : s.blockEnding g 2 = some j) : s.encodeStep g 2 =
    (s.unitBusy g (ceilDiv (min (j.eBits j.cod.ended) (j.ncb (s.codPageOf j))) 384 + 26)).blockEnded j false := by
  simp only [State.encodeStep, hj, if_true]

theorem State.encodeStep_turbo {s : State} {g : Nat} {j : EngJob} (hj : s.blockEnding g 4 = some j) :
    s.encodeStep g 4 = (s.unitBusy g (ceilDiv (j.eBits j.cod.ended) 64 + 32)).blockEnded j false := by
  have hother : ¬ (4 : Nat) = 2 := by decide
  simp only [State.encodeStep, hj, if_neg hother]

theorem State.polarEnc_next {s : State} {g : Nat} {j : EngJob} (hj : s.blockEnding g 6 = some j) :
    s.polarEnc g = (s.unitBusy g (2 ^ polarLog j / 8 + 32)).blockEnded j false := by
  simp only [State.polarEnc, hj]

theorem State.polarDec_next {s s1 : State} {g : Nat} {j : EngJob} {llrs : List Int} (hj : s.blockEnding g 5 = some j)
    (hread : s.readLlrs j (s.codPageOf j).llr4 j.cod.ended = (s1, some llrs)) :
    let r := j.cod.ended
    let d := j.polarDecode (j.descrambled r llrs)
    s.polarDec g = (s1.unitBusy g (2 ^ polarLog j * polarLog j / 4 + 128)).blockEnded { j with cod := { j.cod with
      bits := j.cod.bits ++ [(r, packBits d.1)], tbOk := d.2.1 && (r == 0 || j.cod.tbOk),
      metric := BitVec.ofNat 32 (j.cod.metric.toNat + d.2.2), cbFail := j.cod.cbFail + b2n (!d.2.1) } } false := by
  simp only [State.polarDec, hj, hread]

/-! ## The HARQ region and one output sample -/

theorem findReg_codHarqBase : findReg Reg.COD_HARQ_BASE = some (⟨.COD_HARQ_BASE, 0x00A00040, [], [⟨8, 0, .rw, 0, []⟩]⟩, []) := by
  decide +kernel

theorem exec_harqBase {s : State} (hopen : s.hostOpen Reg.COD_HARQ_BASE) (v : W32) : exec (.harqRegionWrite false v) s =
    .next (if s.anyCarrierLive then s.clampAt Reg.COD_CLAMP_COUNT else s.writeTable Reg.COD_HARQ_BASE v) :=
  congrArg _ (hostWriteTo_open hopen _)

theorem satPart_eq_sat16 (x : Int) : (satPart 16 x).1 = sat16 x := by
  unfold satPart sat16
  dsimp only
  split
  · omega
  · split <;> omega

theorem outSample_eq {sh : Nat} {k : Int} (sum : Cplx) (h : 0 ≤ 15 + k + (sh : Int)) :
    (outSample k sh sum).1 = (sat16 (sum.1 / 2 ^ (15 + k + (sh : Int)).toNat), sat16 (sum.2 / 2 ^ (15 + k + (sh : Int)).toNat)) := by
  simp only [outSample, if_neg (Int.not_lt.mpr h), satCplx, satPart_eq_sat16, floorShift, Int.natCast_pow]
  rfl

/-- Settles O41: the engine's next job or code block, by what its reads bring. -/
theorem spatialAndCodingJobs : Obligations.SpatialAndCodingJobs := by
  unfold Obligations.SpatialAndCodingJobs
  refine ⟨?spatial, ?start, ?blocks, ?harq, fun sh k sum h => outSample_eq sum h⟩
  case spatial =>
    intro s j0 t hclk hnext s1 j
    refine ⟨?estw, ?noWeights, ?noSymbols, ?valid⟩
    case estw =>
      intro hkind s2 p x
      obtain ⟨hbad, hgood⟩ := State.estw_eq hnext hkind
      have hexec : exec .estw s = .next s.estw := exec_of_clocked hclk rfl
      exact ⟨fun hx => hexec.trans (congrArg _ (hbad hx)),
        fun b hx => ⟨fun hzero => hexec.trans (congrArg _ ((hgood b hx).trans (State.endEstimation_regular j hzero))),
          fun hsing => hexec.trans (congrArg _ ((hgood b hx).trans (State.endEstimation_singular j hsing)))⟩⟩
    case noWeights =>
      intro hkind hreport hsome hinvalid
      have hbuf : (!((s1.wbuf j.wkey).state == 1)) = true := by
        rw [beq_eq_false_iff_ne.mpr hinvalid]
        rfl
      exact (exec_spaApply hclk hkind).trans (congrArg _ ((State.spaApply_eq hnext hreport).trans
        ((if_neg (by rwa [List.isEmpty_iff])).trans (if_pos hbuf))))
    case noSymbols =>
      intro hkind hreport hnone
      exact (exec_spaApply hclk hkind).trans (congrArg _ ((State.spaApply_eq hnext hreport).trans (if_pos (List.isEmpty_iff.mpr hnone))))
    case valid =>
      intro hvalid hreport hsome p req s2 ws hload
      have hbuf : ¬ (!((s1.wbuf j.wkey).state == 1)) = true := by
        rw [hvalid]
        exact Bool.false_ne_true
      have happly : s.spaApply j0.kind = (s1.tileBusy t (applyCycles p j false)).applyWeights j0.kind req p j [] :=
        (State.spaApply_eq hnext hreport).trans ((if_neg (by rwa [List.isEmpty_iff])).trans (if_neg hbuf))
      have hweights := State.applyWeights_loaded (kind := j0.kind) (j := j) hreport hload
      refine ⟨fun hkind => ?_, fun hkind => ?_⟩
      · have hexec : exec .combine s = .next (s.spaApply j0.kind) := by
          rw [hkind]
          exact exec_of_clocked hclk rfl
        refine hexec.trans (congrArg _ (happly.trans (hweights.trans ?_)))
        rw [if_pos hkind]
      · have hexec : exec .precode s = .next (s.spaApply j0.kind) := by
          rw [hkind]
          exact exec_of_clocked hclk rfl
        have hother : ¬ j0.kind = 2 := by omega
        refine hexec.trans (congrArg _ (happly.trans (hweights.trans ?_)))
        rw [if_neg hother]
  case start =>
    intro s g u j hclk hg hfree hnext
    have hstart := exec_codeBlockStart hclk hg hfree hnext
    refine ⟨fun hrun => ?_, fun x hrun hx => ?_⟩
    · rw [hstart, if_pos hrun]
    · rw [hstart, if_neg (Bool.eq_false_iff.mp hrun), hx]
  case blocks =>
    intro s s1 g j llrs hclk p r
    have hldpcDec : exec (.ldpcDec g) s = .next (s.decodeStep g 1) := exec_of_clocked hclk rfl
    have hturboDec : exec (.turboDec g) s = .next (s.decodeStep g 3) := exec_of_clocked hclk rfl
    have hldpcEnc : exec (.ldpcEnc g) s = .next (s.encodeStep g 2) := exec_of_clocked hclk rfl
    have hturboEnc : exec (.turboEnc g) s = .next (s.encodeStep g 4) := exec_of_clocked hclk rfl
    have hpolarEnc : exec (.polarEnc g) s = .next (s.polarEnc g) := exec_of_clocked hclk rfl
    have hpolarDec : exec (.polarDec g) s = .next (s.polarDec g) := exec_of_clocked hclk rfl
    refine ⟨fun kind c hc hj hbuf hread => ?_, fun hj => ?_, fun hj => ?_, fun hj => ?_, fun hj hread => ?_⟩
    · rcases hc with ⟨rfl, rfl⟩ | ⟨rfl, rfl⟩
      · rw [hldpcDec, State.decodeStep_plain hj hbuf hread]
      · rw [hturboDec, State.decodeStep_plain hj hbuf hread]
    · rw [hldpcEnc, State.encodeStep_ldpc hj]
    · rw [hturboEnc, State.encodeStep_turbo hj]
    · rw [hpolarEnc, State.polarEnc_next hj]
    · rw [hpolarDec, State.polarDec_next hj hread]
  case harq =>
    intro s v hopen
    exact ⟨fun hnone => (exec_harqBase hopen v).trans (congrArg _ ((if_neg (Bool.eq_false_iff.mp hnone)).trans
        (State.writeTable_field findReg_codHarqBase rfl rfl rfl s v))),
      fun hlive => (exec_harqBase hopen v).trans (congrArg _ (if_pos hlive))⟩

end Sys2Proof.Machine
end

section
/-! Spectral streams and detectors (R266, R271 to R277, R280 to R282, R285, R286, R288). -/

namespace Sys2Proof.Machine

/-! ## Transform jobs -/

theorem State.transform_eq {s : State} {g kind : Nat} {j0 : EngJob} (hfree : s.freePipeline = some g)
    (hnext : s.nextJob 2 (fun j => !j.running && s.slotFired j.carrier j.half j.slotNum) = some j0) (hkind : j0.kind = kind) :
    let j := { j0 with running := true, place := g }
    let n := fftSize (j.fld 8 31 28)
    let cnt := j.fld 8 27 16
    let y := ((s.runJob 2 j0 g).pipeRun g n (cnt * (n / 4))).transforms g j 0 cnt 0
    s.transform kind = (y.1.countSpcSat y.2.1).finishJob 2 j (if y.2.2 then stOK else stBAD) (satTo 65535 y.2.1) := by
  have hthis : ¬ (j0.kind != kind) = true := by
    rw [hkind, bne_self_eq_false]
    exact Bool.false_ne_true
  unfold State.transform
  rw [hfree, hnext]
  exact if_neg hthis

theorem State.transforms_succ (s : State) (g i left sat : Nat) (j : EngJob) (b : List Byte) :
    let n := fftSize (j.fld 8 31 28)
    let x := s.readModule (engRequester 2 g) (j.w64 4 + 4 * n * i) (4 * n)
    x.2 = some b →
    let y := pipeline (j.kind == 2) (j.fld 8 15 12) ((samplesOfInt16 b).map (fun c => rotated c 0 1)) (jobBins (j.fld 8 11 11 == 1) n)
    let z := x.1.writeModule (engRequester 2 g) (j.w64 6 + 4 * n * i) (y.1.flatMap int16Bytes)
    z.2 = true → s.transforms g j i (left + 1) sat = z.1.transforms g j (i + 1) left (sat + y.2) := by
  intro n x hx y z hz
  rw [State.transforms]
  simp only [show (s.readModule (engRequester 2 g) (j.w64 4 + 4 * fftSize (j.fld 8 31 28) * i) (4 * fftSize (j.fld 8 31 28))).2 = some b
    from hx]
  exact if_pos hz

theorem exec_transform {s : State} {g kind : Nat} {j0 : EngJob} (hclk : s.clocked = true) (hfree : s.freePipeline = some g)
    (hnext : s.nextJob 2 (fun j => !j.running && s.slotFired j.carrier j.half j.slotNum) = some j0) (hkind : j0.kind = kind)
    (hk : kind = 1 ∨ kind = 2) :
    let j := { j0 with running := true, place := g }
    let n := fftSize (j.fld 8 31 28)
    let cnt := j.fld 8 27 16
    let y := ((s.runJob 2 j0 g).pipeRun g n (cnt * (n / 4))).transforms g j 0 cnt 0
    exec (if kind = 1 then .fft else .ifft) s =
      .next ((y.1.countSpcSat y.2.1).finishJob 2 j (if y.2.2 then stOK else stBAD) (satTo 65535 y.2.1)) := by
  obtain rfl | rfl := hk
  · exact (exec_of_clocked hclk rfl).trans (congrArg _ (State.transform_eq hfree hnext hkind))
  · exact (exec_of_clocked hclk rfl).trans (congrArg _ (State.transform_eq hfree hnext hkind))

/-! ## Receive streams -/

section
variable {s : State} {c ant k : Nat} {slot : W32} {l : SlotLatch} (hpending : s.rxPending c ant k slot = some l)
include hpending

theorem State.rxSymbol_eq : s.rxSymbol c ant k slot =
    if (s.rxPull c (spcPage l.words)).spcServes && covered ((s.rxPull c (spcPage l.words)).stream c).parts ant slot
        (rxWindow (s.carrier c).cfg l.words (spcPage l.words).fft l.slot k) (spcPage l.words).fft
    then (s.rxPull c (spcPage l.words)).rxProcess c ant k slot l false else s.rxPull c (spcPage l.words) := by
  unfold State.rxSymbol
  rw [hpending]

theorem State.rxGap_eq
    (hpast : s.pastSample (s.carrier c).cfg (spcPage l.words).fft l.slot (symStart (s.carrier c).cfg (spcPage l.words).fft l.slot (k + 1))
      (waitUs (Machine.setFld l.words 3 2 9 0)) = true) : s.rxGap c ant k slot =
    if (s.rxPull c (spcPage l.words)).spcServes then (s.rxPull c (spcPage l.words)).rxProcess c ant k slot l
      (!covered ((s.rxPull c (spcPage l.words)).stream c).parts ant slot
        (rxWindow (s.carrier c).cfg l.words (spcPage l.words).fft l.slot k) (spcPage l.words).fft) else s.rxPull c (spcPage l.words) := by
  unfold State.rxGap
  rw [hpending]
  exact if_pos hpast

end

theorem exec_rxSymbol {s : State} {c ant k : Nat} {slot : W32} {l : SlotLatch} (hclk : s.clocked = true)
    (hpending : s.rxPending c ant k slot = some l) :
    let p := spcPage l.words
    let cfg := (s.carrier c).cfg
    let t := s.rxPull c p
    let full := covered (t.stream c).parts ant slot (rxWindow cfg l.words p.fft l.slot k) p.fft
    (full = true → t.spcServes = true → exec (.rxSymbol c ant k slot) s = .next (t.rxProcess c ant k slot l false)) ∧
    ((full = false ∨ t.spcServes = false) → exec (.rxSymbol c ant k slot) s = .next t) ∧
    (s.pastSample cfg p.fft l.slot (symStart cfg p.fft l.slot (k + 1)) (waitUs (Machine.setFld l.words 3 2 9 0)) = true →
      (t.spcServes = true → exec (.rxGapDeadline c ant k slot) s = .next (t.rxProcess c ant k slot l (!full))) ∧
      (t.spcServes = false → exec (.rxGapDeadline c ant k slot) s = .next t)) := by
  intro p cfg t full
  have hsymbol : exec (.rxSymbol c ant k slot) s = .next (s.rxSymbol c ant k slot) := exec_of_clocked hclk rfl
  have hgap : exec (.rxGapDeadline c ant k slot) s = .next (s.rxGap c ant k slot) := exec_of_clocked hclk rfl
  refine ⟨fun hfull hserves => ?whole, fun hnot => ?waits, fun hpast => ⟨fun hserves => ?gap, fun hserves => ?unserved⟩⟩
  case whole =>
    rw [hsymbol, State.rxSymbol_eq hpending]
    exact congrArg _ (if_pos (Bool.and_eq_true_iff.mpr ⟨hserves, hfull⟩))
  case waits =>
    rw [hsymbol, State.rxSymbol_eq hpending]
    exact congrArg _ (if_neg (Bool.eq_false_iff.mp (Bool.and_eq_false_iff.mpr hnot.symm)))
  case gap =>
    rw [hgap, State.rxGap_eq hpending hpast]
    exact congrArg _ (if_pos hserves)
  case unserved =>
    rw [hgap, State.rxGap_eq hpending hpast]
    exact congrArg _ (if_neg (Bool.eq_false_iff.mp hserves))

/-! ## Transmit streams -/

section
variable {s : State} {c ant k : Nat} {slot : W32} {l : SlotLatch} (hlive : s.liveByStamp c .dl slot = some l)
  (hen : (spcPage l.words).en = true) (hant : ant < (spcPage l.words).nAnt) (hk : k < symsPerSlot (s.carrier c).cfg)
  (hnew : (s.stream c).txDone.all (fun d => d.1 != ⟨slot, ant, k⟩) = true) (hmask : inMask l.words k = true)
  (hkept : l.aborted = false)
  (hpast : s.pastSample (s.carrier c).cfg (spcPage l.words).fft l.slot (symStart (s.carrier c).cfg (spcPage l.words).fft l.slot k)
        (-((waitUs (Machine.setFld l.words 3 2 20 11) : Nat) : Int)) = true)
include hlive hen hant hk hnew hmask hkept hpast

/-- The symbol's item is there: it is sent, or its transform comes too late. -/
theorem State.txDecision_item {w : List QWord} {rest : List (Nat × List QWord)}
    (hitem : takeKey (k * 256 + ant) ((s.txPull c (spcPage l.words)).stream c).txItems = (some w, rest)) :
    let t := s.txPull c (spcPage l.words)
    let x := t.stream c
    let u := fun (sent : Bool) => t.drawn.setStream c { x with txItems := rest, txDone := x.txDone ++ [(⟨slot, ant, k⟩, sent)],
                                                               txMissing := x.txMissing.filter (fun m => m.tag != k * 256 + ant) }
    s.txDecision c ant k slot = if t.spcServes && t.freeBelow 2 == 0
      then (u true).txEmit c ant k l slot (t.drawn.onBefore c ant k slot l.slot) (some w)
      else (((u false).bump Reg.SPC_TX_UNDERRUN).raise Reg.SPC_EVENT 2).txEmit c ant k l slot (t.drawn.onBefore c ant k slot l.slot) none := by
  intro t x u
  have hdue : ((spcPage l.words).en && decide (ant < (spcPage l.words).nAnt) && decide (k < symsPerSlot (s.carrier c).cfg)
      && (s.stream c).txDone.all (fun d => d.1 != ⟨slot, ant, k⟩)
      && s.pastSample (s.carrier c).cfg (spcPage l.words).fft l.slot (symStart (s.carrier c).cfg (spcPage l.words).fft l.slot k)
        (-((waitUs (Machine.setFld l.words 3 2 20 11) : Nat) : Int))) = true := by
    rw [hen, hnew, hpast, decide_eq_true hant, decide_eq_true hk]
    rfl
  unfold State.txDecision
  rw [hlive]
  dsimp only
  rw [if_pos hdue]
  simp only [hmask, hkept, if_true, hitem, Option.isSome_some, Option.isNone_some, Bool.not_false, Bool.and_true, Bool.true_and, Bool.and_false,
    Bool.false_eq_true, if_false, List.append_nil]
  by_cases hready : ((s.txPull c (spcPage l.words)).spcServes && (s.txPull c (spcPage l.words)).freeBelow 2 == 0) = true
  · simp only [hready, if_true, Option.isSome_some, Option.isNone_some, Bool.false_eq_true, if_false]
    exact (if_pos hready).symm
  · simp only [hready, Bool.false_eq_true, if_false, Option.isSome_none, Option.isNone_none, if_true]
    exact (if_neg hready).symm

/-- The symbol's item is not there: an underrun. -/
theorem State.txDecision_noItem {rest : List (Nat × List QWord)}
    (hitem : takeKey (k * 256 + ant) ((s.txPull c (spcPage l.words)).stream c).txItems = (none, rest)) :
    let t := s.txPull c (spcPage l.words)
    let x := t.stream c
    s.txDecision c ant k slot = (((t.setStream c { x with
        txItems := rest, txDone := x.txDone ++ [(⟨slot, ant, k⟩, false)],
        txMissing := x.txMissing.filter (fun m => m.tag != k * 256 + ant) ++ [⟨slot, ant, k⟩] }).bump
          Reg.SPC_TX_UNDERRUN).raise Reg.SPC_EVENT 2).txEmit c ant k l slot (t.onBefore c ant k slot l.slot) none := by
  intro t x
  have hdue : ((spcPage l.words).en && decide (ant < (spcPage l.words).nAnt) && decide (k < symsPerSlot (s.carrier c).cfg)
      && (s.stream c).txDone.all (fun d => d.1 != ⟨slot, ant, k⟩)
      && s.pastSample (s.carrier c).cfg (spcPage l.words).fft l.slot (symStart (s.carrier c).cfg (spcPage l.words).fft l.slot k)
        (-((waitUs (Machine.setFld l.words 3 2 20 11) : Nat) : Int))) = true := by
    rw [hen, hnew, hpast, decide_eq_true hant, decide_eq_true hk]
    rfl
  unfold State.txDecision
  rw [hlive]
  dsimp only
  rw [if_pos hdue]
  simp only [hmask, hkept, if_true, hitem, Option.isSome_none, Option.isNone_none, Bool.not_false, Bool.and_true,
    Bool.false_eq_true, if_false, ite_self]
  rfl

end

theorem State.txItem_of_not_missed {s : State} {c : Nat} {i : QItem}
    (h : (s.stream c).txMissing.any (fun m => m.tag == i.tag.toNat) = false) :
    s.txItem c i = s.setStream c { s.stream c with txItems := (s.stream c).txItems ++ [(i.tag.toNat, i.words)] } := by
  unfold State.txItem
  simp only [h, Bool.false_and, Bool.false_eq_true, if_false]

/-! ## Qualification -/

/-- The margins of the checked segments of the first `n` antennas, as QUAL_SLOT_CHECK lists them. -/
theorem all_margins_iff {n : Nat} {l : List Nat} (f : Nat → Nat → Int) :
    (((List.range n).flatMap (fun a => l.map (fun i => (f a i, a, i)))).all (fun m => decide (0 ≤ m.1)) = true) ↔
      ∀ a i, a < n → i ∈ l → 0 ≤ f a i := by
  constructor
  · intro h a i ha hi
    exact of_decide_eq_true (List.all_eq_true.mp h (f a i, a, i)
      (List.mem_flatMap.mpr ⟨a, List.mem_range.mpr ha, List.mem_map.mpr ⟨i, hi, rfl⟩⟩))
  · intro h
    refine List.all_eq_true.mpr fun m hm => ?_
    obtain ⟨a, ha, hm⟩ := List.mem_flatMap.mp hm
    obtain ⟨i, hi, rfl⟩ := List.mem_map.mp hm
    exact decide_eq_true (h a i (List.mem_range.mp ha) hi)

theorem exec_qualSlotCheck {s : State} {c : Nat} {slot : W32} (hclk : s.clocked = true) :
    let x := s.path c
    let w := s.qualWords c slot
    let p := spcPage w
    let samples := fun (ant : Nat) => (x.filtered.filter (fun f => f.1 == slot && f.2.1 == ant)).flatMap (·.2.2)
    let len := symSamples (s.carrier c).cfg p.fft (s.slotOfStamp c .dl slot)
    s.spcServes = true → x.state = 1 → (s.stream c).txDone.any (fun d => d.1.slot == slot && d.2) = true →
      (∀ a, a < p.nAnt → (samples a).length = len) → x.checked ≠ some slot →
    let ok := ∀ a i, a < p.nAnt → i ∈ checkedSegments w → 0 ≤ s.aclrMargin w (binPowers p.fft (samples a)) i
    ∃ y : TxPath, exec (.qualSlotCheck c slot) s = .next ((s.drawn.pipeWork p.fft (p.nAnt * (len / p.fft) * (p.fft / 4))).setPath c y) ∧
      y.state = 1 ∧ y.checked = some slot ∧ y.slotsRun = satTo 255 (x.slotsRun + 1) ∧
      (ok → y.passRun = satTo 255 (x.passRun + 1)) ∧ (¬ ok → y.passRun = 0) := by
  intro x w p samples len hserves hstate hon hfull hnew ok
  have hall : (List.range p.nAnt).all (fun a => (samples a).length == len) = true :=
    List.all_eq_true.mpr fun a ha => beq_iff_eq.mpr (hfull a (List.mem_range.mp ha))
  have hdue : (s.spcServes && (x.state = 1) && (s.stream c).txDone.any (fun d => d.1.slot == slot && d.2)
      && (List.range p.nAnt).all (fun a => (samples a).length == len) && (x.checked != some slot)) = true := by
    rw [hserves, hon, hall, decide_eq_true hstate, bne_iff_ne.mpr hnew]
    rfl
  have hok := all_margins_iff (n := p.nAnt) (l := checkedSegments w) fun a i => s.aclrMargin w (binPowers p.fft (samples a)) i
  have hcheck : s.qualSlotCheck c slot = _ := if_pos hdue
  refine ⟨_, (exec_of_clocked hclk rfl).trans (congrArg _ hcheck), ?_⟩
  refine ⟨hstate, rfl, rfl, fun h => ?_, fun h => ?_⟩
  · exact if_pos (hok.mpr h)
  · exact if_neg fun hpass => h (hok.mp hpass)

theorem exec_spcTxq {s : State} {d : Desc} (hclk : s.clocked = true) (hd : d.carrier < 512) :
    ((s.carrier d.carrier).refusesWork = true → exec (.spcTxq d) s = .next (s.complete (d.ref false) stDISABLED 0)) ∧
    ((s.carrier d.carrier).refusesWork = false → (s.carrier d.carrier).dlGoesOn = true → exec (.spcTxq d) s =
      .next (s.setPath d.carrier { s.path d.carrier with requests := (s.path d.carrier).requests ++ [d.ref false] })) ∧
    ((s.carrier d.carrier).refusesWork = false → (s.carrier d.carrier).dlGoesOn = false →
      exec (.spcTxq d) s = .next (s.complete (d.ref false) stREFUSED 0)) := by
  have hexec : exec (.spcTxq d) s = .next (s.spcTxq d) := exec_of_clocked hclk rfl
  have hsome : d.carrier ≠ 0xFFFF := by omega
  rw [hexec]
  unfold State.spcTxq
  rw [carrierField_of_lt hd, carrierClamped_of_lt hd]
  dsimp only
  rw [State.clampDesc_false, if_neg hsome]
  refine ⟨fun hrefuses => ?_, fun hworks hgoes => ?_, fun hworks hstops => ?_⟩
  · rw [if_pos hrefuses]
  · rw [hworks, hgoes]
    rfl
  · rw [hworks, hstops]
    rfl

/-! ## The correlator and the contexts -/

theorem exec_peak {s s1 : State} {d power rho : Nat} {t : Int} {ref : List Cplx} (hclk : s.clocked = true)
    (hmode : recMode (s.det d).record = 1) (hclaimed : (s.det d).claimed.isSome = true) :
    let x := (s.detPull d).det d
    let c := x.claimed.getD 0
    let n := recRefLen x.record
    let fft := (s.detPull d).fftAt c x.record t
    (s.detPull d).spcServes = true → (∃ e, x.arrived x.record fft = some e ∧ t + ((lagsAwaited x.record n + n : Nat) : Int) ≤ e) →
    (s.detPull d).readSamples (recRef x.record) n = (s1, some ref) → (∀ l, x.lastPeak = some l → l < t) →
    (∀ p, x.peakAt (fsKhz ((s.detPull d).carrier c).cfg fft) fft ref t power rho = some p →
      exec (.peak d t power rho) s = .next ((s1.setDet d { x with lastPeak := some t }).applyPeak d p)) ∧
    (x.peakAt (fsKhz ((s.detPull d).carrier c).cfg fft) fft ref t power rho = none → exec (.peak d t power rho) s = .next s1) := by
  intro x c n fft hserves harrived hread hlast
  obtain ⟨e, he, hle⟩ := harrived
  have hexec : exec (.peak d t power rho) s = .next (s.peak d t power rho) := exec_of_clocked hclk rfl
  have hworks : ¬ (recMode (s.det d).record != 1 || (s.det d).claimed.isNone) = true := by
    rw [hmode, Option.isNone_eq_false_iff.mpr hclaimed]
    exact Bool.false_ne_true
  have hlater : x.lastPeak.any (fun l => decide (t ≤ l)) = false := by
    cases hl : x.lastPeak with
    | none => rfl
    | some l => exact decide_eq_false (Int.not_le.mpr (hlast l hl))
  have hdue : ¬ (!(s.detPull d).spcServes || !(x.arrived x.record fft).any (fun e => decide (t + ((lagsAwaited x.record n + n : Nat) : Int) ≤ e))
      || x.lastPeak.any (fun l => decide (t ≤ l))) = true := by
    rw [hserves, he, hlater, Option.any_some, decide_eq_true hle]
    exact Bool.false_ne_true
  have hpeak : s.peak d t power rho = ((x.peakAt (fsKhz ((s.detPull d).carrier c).cfg fft) fft ref t power rho).elim s1
      (fun p => (s1.setDet d { x with lastPeak := some t }).applyPeak d p)) := by
    unfold State.peak
    rw [if_neg hworks]
    dsimp only
    rw [show (s.detPull d).readSamples (recRef ((s.detPull d).det d).record) (recRefLen ((s.detPull d).det d).record) = (s1, some ref)
      from hread]
    refine (if_neg hdue).trans ?_
    cases hp : x.peakAt (fsKhz ((s.detPull d).carrier c).cfg fft) fft ref t power rho with
    | none => rfl
    | some p => rfl
  rw [hexec, hpeak]
  exact ⟨fun p hp => by rw [hp]; rfl, fun hp => by rw [hp]; rfl⟩

/-- What a peak is: at its own time, among the lags that have arrived, and of none less power than another of them. -/
theorem Detector.peakAt_some {x : Detector} {fsK fft power rho : Nat} {ref : List Cplx} {t : Int} {p : Peak}
    (h : x.peakAt fsK fft ref t power rho = some p) :
    p.time = t ∧ p.pw.1 = (x.atLag x.record fsK fft ref t).1 ∧ t ∈ x.lagsAround x.record fft t ref.length ∧
    ∀ u ∈ x.lagsAround x.record fft t ref.length, (x.atLag x.record fsK fft ref u).1 ≤ p.pw.1 := by
  unfold Detector.peakAt at h
  dsimp only at h
  obtain ⟨hmem, h⟩ := Option.ite_none_right_eq_some.mp h
  obtain ⟨hbest, h⟩ := Option.ite_none_right_eq_some.mp h
  obtain ⟨-, hall⟩ := Bool.and_eq_true_iff.mp hbest
  cases h
  exact ⟨rfl, rfl, List.contains_iff_mem.mp hmem, fun u hu => of_decide_eq_true (List.all_eq_true.mp hall u hu)⟩

/-- A peak that meets two free contexts starts the first. -/
theorem State.applyPeak_of_free {s : State} {d : Nat} {p : Peak} (h0 : (s.det d).ctx0.mode = 0) (h1 : (s.det d).ctx1.mode = 0) :
    s.applyPeak d p = (s.startCtx d 0 p).decideAtOnce d 0 := by
  have hctx0 : ((s.det d).ctx 0).mode = 0 := h0
  have hctx1 : ((s.det d).ctx 1).mode = 0 := h1
  have hsame : [0, 1].find? (fun i => ((s.det d).ctx i).mode != 0
      && decide ((p.time - ((s.det d).ctx i).t0).natAbs ≤ recFld ((s.det d).ctx i).record 6 31 16)) = none := by
    rw [List.find?_cons, List.find?_cons, hctx0, hctx1]
    rfl
  have hpreempts : (s.det d).preempts p.time p.pw = none := by
    simp only [Detector.preempts, List.filter_cons, hctx0, hctx1, bne_self_eq_false, Bool.false_and, Bool.false_eq_true, if_false,
      List.filter_nil]
  have hfirst : [0, 1].find? (fun i => ((s.det d).ctx i).mode == 0) = some 0 := by
    rw [List.find?_cons, hctx0]
    rfl
  unfold State.applyPeak
  simp only [hsame, hpreempts, hfirst]

theorem exec_validationDecision {s s1 : State} {d i rhoV : Nat} {ref : List Cplx} (hclk : s.clocked = true) :
    let x := (s.detPull d).det d
    let c := x.ctx i
    let val := recFld c.record 5 7 0
    let n := recRefLen c.record
    (s.detPull d).spcServes = true → c.mode = 1 → 0 < val → (∃ e, x.arrived c.record c.fft = some e ∧ c.t0 + (((val + 1) * n : Nat) : Int) ≤ e) →
      (s.detPull d).readSamples (recRef c.record) n = (s1, some ref) →
    let cfg := ((s.detPull d).carrier (x.claimed.getD 0)).cfg
    let mean := ((List.range val).map (fun v => x.rhoV c (fsKhz cfg c.fft) ref (rhoV % (2 ^ 32 + 1)) (v + 1))).sum / (val * 65536)
    exec (.validationDecision d i rhoV) s = .next ((s1.pipeWork (ncorr n) (val * n / 4)).decideCtx d i mean) := by
  intro x c val n hserves hmode hval harrived hread cfg mean
  obtain ⟨e, he, hle⟩ := harrived
  have hdue : ((s.detPull d).spcServes && c.mode = 1 && 0 < val
      && (x.arrived c.record c.fft).any (fun e => decide (c.t0 + (((val + 1) * n : Nat) : Int) ≤ e))) = true := by
    rw [hserves, he, Option.any_some, decide_eq_true hmode, decide_eq_true hval, decide_eq_true hle]
    rfl
  refine (exec_of_clocked hclk rfl).trans (congrArg _ ((if_pos hdue).trans ?_))
  rw [show (s.detPull d).readSamples (recRef (((s.detPull d).det d).ctx i).record) (recRefLen (((s.detPull d).det d).ctx i).record) =
    (s1, some ref) from hread]
  rfl

theorem State.decideCtx_false {s : State} {d i rhoV : Nat} (h : rhoV < recFld ((s.det d).ctx i).record 5 31 16) :
    s.decideCtx d i rhoV =
      ((s.setDet d ((s.det d).setCtx i { (s.det d).ctx i with rhoV := min 65535 rhoV })).bump Reg.SPC_DET_FALSE).freeCtx d i 2 true :=
  if_pos h

theorem State.decideCtx_valid {s : State} {d i rhoV : Nat} (h : recFld ((s.det d).ctx i).record 5 31 16 ≤ rhoV) :
    s.decideCtx d i rhoV = ((s.setDet d ((s.det d).setCtx i { (s.det d).ctx i with rhoV := min 65535 rhoV, mode := 2 })).detReport d i 1
      { (s.det d).ctx i with rhoV := min 65535 rhoV } ((s.det d).claimed.getD 0) true).advanceDet d :=
  if_neg (Nat.not_lt.mpr h)

theorem exec_burstDone {s : State} {d i : Nat} (hclk : s.clocked = true) :
    let t := s.detPull d
    let x := t.det d
    let y := x.ctx i
    y.mode = 2 → (∃ e, x.arrived y.record y.fft = some e ∧ y.t0 + ((recW y.record 8).toNat : Int) ≤ e) →
    (y.hasData = false → exec (.burstDone d i) s = .next (t.freeCtx d i 4 true)) ∧
    (y.hasData = true → exec (.burstDone d i) s =
      .next ((t.burstItems d (x.claimed.getD 0) y.total true y (y.total / 2040 + 2)).1.freeCtx d i 4 true)) := by
  intro t x y hmode harrived
  obtain ⟨e, he, hle⟩ := harrived
  have hdue : (y.mode = 2 && (x.arrived y.record y.fft).any (fun e => decide (y.t0 + ((recW y.record 8).toNat : Int) ≤ e))) = true := by
    rw [he, Option.any_some, decide_eq_true hmode, decide_eq_true hle]
    rfl
  have hexec : exec (.burstDone d i) s = .next
      ((if y.hasData then (t.burstItems d (x.claimed.getD 0) y.total true y (y.total / 2040 + 2)).1 else t).freeCtx d i 4 true) :=
    (exec_of_clocked hclk rfl).trans (congrArg _ (if_pos hdue))
  rw [hexec]
  refine ⟨fun hdata => ?_, fun hdata => ?_⟩
  · rw [hdata]
    rfl
  · rw [hdata]
    rfl

/-! ## Occasions -/

theorem exec_occasion {s s1 : State} {d c found : Nat} {slot : W32} {refs : List Cplx} (hclk : s.clocked = true) :
    let u := s.detPull d
    let x := u.det d
    let r := x.record
    let n := u.slotOfStamp c .ul slot
    let cfg := (u.carrier c).cfg
    let fft := u.slotFft c .ul n
    let len := recFld r 12 31 19
    let reps := recFld r 12 18 15
    let lra := recFld r 12 10 0
    let roots := recFld r 12 14 13 + 1
    let t := n * ((slotSamples fft / recDecim r : Nat) : Int) + (recFld r 11 15 0 : Int)
    x.claimed = some c → u.spcServes = true → recMode r = 2 → indexOf cfg.spf n % recFld r 11 31 24 = recFld r 11 23 16 → x.occasionDue fft t = true →
      (∀ o ∈ x.occs, o.1 < t) →
    (2 ≤ (x.occs.filter (fun o => decide (t < o.2))).length → exec (.occasion d slot found) s = .next (u.missDets 1)) ∧
    ((x.occs.filter (fun o => decide (t < o.2))).length < 2 → u.readSamples (recRef r) (roots * lra) = (s1, some refs) →
      let bins := x.occasionBins (fsKhz cfg fft) fft t
      let all := ((List.range roots).flatMap (fun q => foundIn q (recFld r 4 15 0) (recFld r 6 31 16) (found % 65537)
        (profile len bins ((refs.drop (q * lra)).take lra)))).foldl (fun l f => insertFound f l) []
      let v := (s1.pipeWork len (((if recSource r = 2 then 0 else reps * len) + roots * len) / 4)).missDets (all.length - 64)
      let w := v.setDet d { v.det d with occs := ((t, t + ((reps * len : Nat) : Int)) :: x.occs).take 2,
                                         sets := if recSource r = 2 then x.sets.drop reps else x.sets }
      exec (.occasion d slot found) s = .next (w.occasionReport d slot (w.detPlace c r fft t) (all.take 64))) := by
  intro u x r n cfg fft len reps lra roots t hclaimed hserves hmode hturn hsamples hlater
  have hexec : exec (.occasion d slot found) s = .next (s.occasion d slot found) := exec_of_clocked hclk rfl
  have hfresh : x.occs.any (fun o => decide (t ≤ o.1)) = false :=
    List.any_eq_false.mpr fun o ho hle => absurd (of_decide_eq_true hle) (Int.not_le.mpr (hlater o ho))
  have hdue : ¬ (!u.spcServes || recMode r != 2 || (indexOf cfg.spf n) % recFld r 11 31 24 != recFld r 11 23 16 || !x.occasionDue fft t
        || x.occs.any (fun o => decide (t ≤ o.1))) = true := by
    rw [hserves, hmode, hturn, hsamples, hfresh, bne_self_eq_false, bne_self_eq_false]
    exact Bool.false_ne_true
  rw [hexec]
  unfold State.occasion
  dsimp only
  rw [show ((s.detPull d).det d).claimed = some c from hclaimed]
  dsimp only
  rw [if_neg hdue]
  refine ⟨fun hbusy => ?skipped, fun hfree hread => ?found⟩
  case skipped => exact congrArg _ (if_pos (decide_eq_true hbusy))
  case found =>
    rw [if_neg fun h => absurd (of_decide_eq_true h) (Nat.not_le.mpr hfree)]
    rw [show (s.detPull d).readSamples (recRef ((s.detPull d).det d).record)
      ((recFld ((s.detPull d).det d).record 12 14 13 + 1) * recFld ((s.detPull d).det d).record 12 10 0) = (s1, some refs) from hread]
    rfl

/-! ## The obligation -/

/-- Settles O42: a lemma for each command, in the order of the statement. -/
theorem spectralStreamsAndDetectors : Obligations.SpectralStreamsAndDetectors := by
  unfold Obligations.SpectralStreamsAndDetectors
  refine ⟨⟨?transforms, ?transform, ?receive, ?transmit, ?item, ?check, ?request⟩,
    ?peak, ?peakAt, ?context, ?validation, ?decision, ?burst, ?occasion⟩
  case transforms => exact fun s g kind j0 hclk hfree hnext hkind hk => exec_transform hclk hfree hnext hkind hk
  case transform => exact State.transforms_succ
  case receive => exact fun s c ant k slot l hclk hpending => exec_rxSymbol hclk hpending
  case transmit =>
    intro s c ant k slot l hclk hlive hen hant hk hnew hmask hkept hpast
    have hexec : exec (.txDecision c ant k slot) s = .next (s.txDecision c ant k slot) := exec_of_clocked hclk rfl
    exact ⟨fun w rest hitem => hexec.trans (congrArg _ (State.txDecision_item hlive hen hant hk hnew hmask hkept hpast hitem)),
      fun rest hitem => hexec.trans (congrArg _ (State.txDecision_noItem hlive hen hant hk hnew hmask hkept hpast hitem))⟩
  case item => exact fun s c i => State.txItem_of_not_missed
  case check => exact fun s c slot hclk => exec_qualSlotCheck hclk
  case request => exact fun s d hclk hd => exec_spcTxq hclk hd
  case peak => exact fun s s1 d power rho t ref hclk hmode hclaimed => exec_peak hclk hmode hclaimed
  case peakAt => exact fun x fsK fft power rho ref t p => Detector.peakAt_some
  case context => exact fun s d p => State.applyPeak_of_free
  case validation => exact fun s s1 d i rhoV ref hclk => exec_validationDecision hclk
  case decision => exact fun s d i rhoV => ⟨State.decideCtx_false, State.decideCtx_valid⟩
  case burst => exact fun s d i hclk => exec_burstDone hclk
  case occasion => exact fun s s1 d c found slot refs hclk => exec_occasion hclk

end Sys2Proof.Machine
end

section
/-! What one write of a map, a register or a bit field leaves unchanged elsewhere. -/

namespace Sys2Proof.Machine

theorem mapGet_erase_ne {α : Type} (d : Nat → α) (m : SMap α) {k j : Nat} (hne : j ≠ k) : mapGet d (mapErase m k) j = mapGet d m j := by
  induction m with
  | nil => rfl
  | cons p r ih =>
    obtain ⟨i, w⟩ := p
    unfold mapErase
    by_cases hi : i = k
    · rw [if_pos hi, mapGet, if_neg (by omega)]
    · rw [if_neg hi, mapGet, mapGet, ih]

theorem mapGet_set_ne {α : Type} [DecidableEq α] (d : Nat → α) (m : SMap α) {k j : Nat} (v : α) (hne : j ≠ k) :
    mapGet d (mapSet d m k v) j = mapGet d m j := by
  unfold mapSet
  by_cases hv : v = d k
  · rw [if_pos hv, mapGet_erase_ne d m hne]
  · rw [if_neg hv, mapGet_insert, if_neg hne]

theorem State.rd_wr_ne (s : State) {a b : Nat} (v : W32) (hne : b ≠ a) : (s.wr a v).rd b = s.rd b := mapGet_set_ne _ _ _ hne

theorem State.rd_bumpFld_ne (s : State) {a b : Nat} (hi lo n : Nat) (hne : b ≠ a) : (s.bumpFld a hi lo n).rd b = s.rd b :=
  State.rd_wr_ne s _ hne

theorem State.rd_bump64_ne (s : State) {a b : Nat} (n : Nat) (hlo : b ≠ a) (hhi : b ≠ a + 4) : (s.bump64 a n).rd b = s.rd b :=
  (State.rd_wr_ne _ _ hhi).trans (State.rd_wr_ne _ _ hlo)

/-- Setting a field leaves what lies above it. -/
theorem setBitsOf_div_above {w : Nat} (x : BitVec w) {hi lo k : Nat} (v : Nat) (h : lo ≤ hi) (hw : hi < w) (hk : hi < k) :
    (setBitsOf x hi lo v).toNat / 2 ^ k = x.toNat / 2 ^ k := by
  obtain ⟨m, rfl⟩ : ∃ m, k = hi + 1 + m := ⟨k - (hi + 1), by omega⟩
  have hfield : v % 2 ^ (hi + 1 - lo) * 2 ^ lo + x.toNat % 2 ^ lo < 2 ^ (hi + 1) := by
    have hpow : 2 ^ (hi + 1) = 2 ^ (hi + 1 - lo) * 2 ^ lo := by rw [← Nat.pow_add]; congr 1; omega
    have hv := Nat.mod_lt v (Nat.two_pow_pos (hi + 1 - lo))
    have hx := Nat.mod_lt x.toNat (Nat.two_pow_pos lo)
    calc v % 2 ^ (hi + 1 - lo) * 2 ^ lo + x.toNat % 2 ^ lo < v % 2 ^ (hi + 1 - lo) * 2 ^ lo + 2 ^ lo := by omega
      _ = (v % 2 ^ (hi + 1 - lo) + 1) * 2 ^ lo := (Nat.succ_mul _ _).symm
      _ ≤ 2 ^ (hi + 1 - lo) * 2 ^ lo := Nat.mul_le_mul_right _ hv
      _ = 2 ^ (hi + 1) := hpow.symm
  rw [toNat_setBitsOf x v h hw, Nat.pow_add 2 (hi + 1) m, ← Nat.div_div_eq_div_mul, ← Nat.div_div_eq_div_mul]
  congr 1
  rw [Nat.add_assoc, Nat.mul_comm, Nat.mul_add_div (Nat.two_pow_pos _), Nat.div_eq_of_lt hfield, Nat.add_zero]

theorem bitOf_setBitsOf_above {w : Nat} (x : BitVec w) {hi lo i : Nat} (v : Nat) (h : lo ≤ hi) (hw : hi < w) (hi' : hi < i) :
    bitOf (setBitsOf x hi lo v) i = bitOf x i := by
  unfold bitOf
  rw [BitVec.getLsbD, BitVec.getLsbD, Nat.testBit_eq_decide_div_mod_eq, Nat.testBit_eq_decide_div_mod_eq, setBitsOf_div_above x v h hw hi']

end Sys2Proof.Machine
end

section
/-! Fronthaul: ports, received frames and symbol groups (R292, R294, R298, R299, R302, R303, R309, R311). -/

namespace Sys2Proof.Machine

/-! ## Ports -/

/-- FH_PORT_CFG is stored as `v'` for `v`, and the lanes follow ENABLE. -/
def State.storePortCfg (s : State) (p : Nat) (v v' : W32) : State :=
  let t := s.writeContext (Reg.FH_PORT_CFG p) v v'
  if bitOf v' 31 then
    (if s.portEnabled p && s.portShape p != bitsOf v 27 24 then (t.portDown p none).disownPortLanes p else t).ownPortLanes p (bitsOf v 27 24)
  else if s.portEnabled p then (t.portDown p none).disownPortLanes p
  else t

theorem State.storePortCfg_enables {s : State} {p : Nat} {v v' : W32} (hen : bitOf v' 31 = true) (hwas : s.portEnabled p = false) :
    s.storePortCfg p v v' = (s.writeContext (Reg.FH_PORT_CFG p) v v').ownPortLanes p (bitsOf v 27 24) := by
  rw [State.storePortCfg, hwas]
  exact if_pos hen

theorem State.storePortCfg_disables {s : State} {p : Nat} {v v' : W32} (hen : bitOf v' 31 = false) (hwas : s.portEnabled p = true) :
    s.storePortCfg p v v' = ((s.writeContext (Reg.FH_PORT_CFG p) v v').portDown p none).disownPortLanes p := by
  rw [State.storePortCfg, hwas]
  exact if_neg (Bool.eq_false_iff.mp hen)

/-- The word of FH_PORT_CFG as taken. -/
def State.portCfgTaken (s : State) (p : Nat) (v : W32) : W32 :=
  let v1 := if bitsOf v 27 24 != 6 then setBitsOf v 23 23 0 else v
  if !shapeAllowed (bitsOf v 27 24) p || s.lanesTaken (.port p) p (shapeLanes (bitsOf v 27 24)) then setBitsOf v1 31 31 0 else v1

theorem State.applyPortCfg_eq (s : State) (p : Nat) (v : W32) : s.applyPortCfg p v = s.storePortCfg p v (s.portCfgTaken p v) := rfl

section
variable {s : State} {p : Nat} {v : W32} (hshape : shapeAllowed (bitsOf v 27 24) p = true) (hrate : bitsOf v 27 24 ≠ 6)
  (hfree : s.lanesTaken (.port p) p (shapeLanes (bitsOf v 27 24)) = false)
include hshape hrate hfree

theorem State.portCfgTaken_allowed : s.portCfgTaken p v = setBitsOf v 23 23 0 := by
  rw [State.portCfgTaken, hshape, hfree]
  exact if_pos (bne_iff_ne.mpr hrate)

theorem State.applyPortCfg_enables (hen : bitOf v 31 = true) (hwas : s.portEnabled p = false) :
    s.applyPortCfg p v = (s.writeContext (Reg.FH_PORT_CFG p) v (setBitsOf v 23 23 0)).ownPortLanes p (bitsOf v 27 24) := by
  have hbit := (bitOf_setBitsOf_above v (hi := 23) (lo := 23) (i := 31) 0 (by decide) (by decide) (by decide)).trans hen
  rw [State.applyPortCfg_eq, State.portCfgTaken_allowed hshape hrate hfree, State.storePortCfg_enables hbit hwas]

theorem State.applyPortCfg_disables (hen : bitOf v 31 = false) (hwas : s.portEnabled p = true) :
    s.applyPortCfg p v = ((s.writeContext (Reg.FH_PORT_CFG p) v (setBitsOf v 23 23 0)).portDown p none).disownPortLanes p := by
  have hbit := (bitOf_setBitsOf_above v (hi := 23) (lo := 23) (i := 31) 0 (by decide) (by decide) (by decide)).trans hen
  rw [State.applyPortCfg_eq, State.portCfgTaken_allowed hshape hrate hfree, State.storePortCfg_disables hbit hwas]

end

theorem State.writePortCfg_named {s : State} {p : Nat} {v : W32} (h : s.portNamed p = true) :
    s.writePortCfg p v = s.clampAt Reg.FH_CLAMP_COUNT := if_pos h

theorem State.writePortCfg_unnamed {s : State} {p : Nat} {v : W32} (h : s.portNamed p = false) :
    s.writePortCfg p v = s.applyPortCfg p v := if_neg (Bool.eq_false_iff.mp h)

theorem exec_portEnable {s : State} {p : Nat} {v : W32} (hp : p < 96) (hopen : s.hostOpen (Reg.FH_PORT_CFG p)) :
    exec (.portEnable p v) s = .next (s.writePortCfg p v) :=
  congrArg _ ((if_pos hp).trans (hostWriteTo_open hopen _))

theorem State.portUp_eq {s : State} {p : Nat} (hen : s.portEnabled p = true)
    (hup : ∀ i, i < shapeLanes (s.portShape p) → (s.lane (p + i)).mode = .up) :
    s.portUp p = s.setPort p { up := true, cpriSync := s.isCpri p } := by
  have hall : (List.range (shapeLanes (s.portShape p))).all (fun i => (s.lane (p + i)).mode == .up) = true :=
    List.all_eq_true.mpr fun i hi => beq_iff_eq.mpr (hup i (List.mem_range.mp hi))
  exact if_pos (Bool.and_eq_true_iff.mpr ⟨hen, hall⟩)

theorem exec_portUp {s : State} {p : Nat} (hclk : s.clocked = true) :
    (s.portEnabled p = true → (∀ i, i < shapeLanes (s.portShape p) → (s.lane (p + i)).mode = .up) →
      let s1 := s.setPort p { up := true, cpriSync := s.isCpri p }
      (s1.gatewayPort ≠ some p → exec (.portUp p) s = .next s1) ∧
      (s1.gatewayPort = some p → s.gatewayPort ≠ some p → exec (.portUp p) s = .next s1.electSelf)) ∧
    ((s.port p).up = true →
      let s1 := (s.setPort p { up := false, fault := none, cpriSync := false }).raise Reg.FH_EVENT 0
      (s.gatewayPort ≠ some p → exec (.pcsAlignmentLost p) s = .next s1) ∧
      (s.gatewayPort = some p → exec (.pcsAlignmentLost p) s = .next s1.migPaths)) := by
  have hrises : exec (.portUp p) s = .next
      (if (s.portUp p).gatewayPort = some p ∧ s.gatewayPort ≠ some p then (s.portUp p).electSelf else s.portUp p) := exec_of_clocked hclk rfl
  have hfalls : exec (.pcsAlignmentLost p) s = .next (s.portDown p none) := exec_of_clocked hclk rfl
  refine ⟨fun hen hup => ?rises, fun hup => ?falls⟩
  case rises =>
    rw [hrises, State.portUp_eq hen hup]
    exact ⟨fun hother => congrArg _ (if_neg fun h => hother h.1), fun hnow hbefore => congrArg _ (if_pos ⟨hnow, hbefore⟩)⟩
  case falls =>
    rw [hfalls, State.portDown, if_pos hup]
    exact ⟨fun hother => congrArg _ (if_neg hother), fun hgateway => congrArg _ (if_pos hgateway)⟩

/-! ## The host path -/

theorem State.fhRxbuf_posted {s : State} {d : Desc} (hroom : s.fh.bufs.length < 4096) (hlen : 80 ≤ d.fld 0x10 13 0)
    (haligned : (d.w64 0x18).toNat % 16 = 0) :
    s.fhRxbuf d = { s with fh.bufs := s.fh.bufs ++ [(⟨d.ref false, s.descFn d, d.fld 0x10 13 0, d.w64 0x18⟩ : RxBuf)] } := by
  have hclamped : (decide (d.fld 0x10 13 0 < 80) || (d.w64 0x18).toNat % 16 != 0) = false := by
    rw [decide_eq_false (Nat.not_lt.mpr hlen), haligned]
    rfl
  have haddr : BitVec.ofNat 64 ((d.w64 0x18).toNat / 16 * 16) = d.w64 0x18 := by
    rw [Nat.div_mul_cancel (Nat.dvd_of_mod_eq_zero haligned), BitVec.ofNat_toNat, BitVec.setWidth_eq]
  unfold State.fhRxbuf
  dsimp only
  rw [hclamped, State.clampDesc_false, if_neg (Nat.not_le.mpr hroom), haddr, Nat.max_eq_right hlen]

theorem State.hostPath_taken {s : State} {p : Nat} {frame : List Byte} {t : Int} {b : RxBuf} {r : List RxBuf}
    (hrate : hostRate s.tb.raw s.fh.hostIn < hostMax) (hbuf : takeBuf (frame.length + 16) s.fh.bufs = some (b, r)) :
    s.hostPath p frame t = ({ s with fh.hostIn := hostPassed s.tb.raw s.fh.hostIn, fh.bufs := r }.hostWrite
      ⟨b.fn, 0, b.ref.ring, b.ref.tag, b.addr,
        bytesOfNat 4 (frame.length % 65536 * 2 ^ 16 + p % 128) ++ List.replicate 12 0 ++ frame, 0⟩).completeAt b.ref stOK
      frame.length false (shortStampOf t) := by
  unfold State.hostPath
  dsimp only
  rw [if_neg (Nat.not_le.mpr hrate), hbuf]

theorem State.hostPath_dropped {s : State} {p : Nat} {frame : List Byte} {t : Int}
    (h : takeBuf (frame.length + 16) s.fh.bufs = none ∨ hostMax ≤ hostRate s.tb.raw s.fh.hostIn) :
    s.hostPath p frame t = (s.bump Reg.FH_HOST_DROP).raise Reg.FH_EVENT 4 := by
  have hnone : (if hostMax ≤ hostRate s.tb.raw s.fh.hostIn then none else takeBuf (frame.length + 16) s.fh.bufs) = none := by
    by_cases hrate : hostMax ≤ hostRate s.tb.raw s.fh.hostIn
    · rw [if_pos hrate]
    · rw [if_neg hrate, h.resolve_right hrate]
  unfold State.hostPath
  dsimp only
  rw [hnone]

/-! ## Where a frame goes (R294) -/

section
variable {s : State} {stitch : State → Nat → Nat → List Byte → State} {p : Nat} {body : List Byte} {t : Int}

theorem State.routeFrame_other (hdst : (ethOf body).dst ≠ s.portMac p) (hone : groupAddress (ethOf body).dst = false) :
    s.routeFrame stitch p body t = s.bumpFld (Reg.FH_PORT_DROP0 p) 15 0 1 := by
  have hthis : ((ethOf body).dst != s.portMac p && !groupAddress (ethOf body).dst) = true := by
    rw [hone, bne_iff_ne.mpr hdst]
    rfl
  exact if_pos hthis

variable (hdst : (ethOf body).dst = s.portMac p)
include hdst

theorem State.routeFrame_own : s.routeFrame stitch p body t =
    if (ethOf body).etype = s.fld Reg.FH_STF_ETYPE 15 0 ∧ s.bit (Reg.FH_PORT_CFG p) 21 then stitch s p (ethOf body).src (ethOf body).payload
    else if (ethOf body).etype = 0xAEFE ∧ (beAt (ethOf body).payload 1 1 = 0 ∨ beAt (ethOf body).payload 1 1 = 2) then
      s.rxEcpri p (ethOf body).payload t
    else if (ethOf body).etype = 0xFC3D ∧ beAt (ethOf body).payload 0 1 = 0x10 then s.rx1914 p (ethOf body).payload t
    else s.hostPath p body t := by
  have hthis : ¬ ((ethOf body).dst != s.portMac p && !groupAddress (ethOf body).dst) = true := by
    rw [hdst, bne_self_eq_false]
    exact Bool.false_ne_true
  exact if_neg hthis

theorem State.routeFrame_stitch (htype : (ethOf body).etype = s.fld Reg.FH_STF_ETYPE 15 0) (hen : s.bit (Reg.FH_PORT_CFG p) 21 = true) :
    s.routeFrame stitch p body t = stitch s p (ethOf body).src (ethOf body).payload :=
  (State.routeFrame_own hdst).trans (if_pos ⟨htype, hen⟩)

variable (hstitch : (ethOf body).etype ≠ s.fld Reg.FH_STF_ETYPE 15 0)
include hstitch

theorem State.routeFrame_ecpri (htype : (ethOf body).etype = 0xAEFE)
    (hmsg : beAt (ethOf body).payload 1 1 = 0 ∨ beAt (ethOf body).payload 1 1 = 2) :
    s.routeFrame stitch p body t = s.rxEcpri p (ethOf body).payload t :=
  (State.routeFrame_own hdst).trans ((if_neg fun h => hstitch h.1).trans (if_pos ⟨htype, hmsg⟩))

theorem State.routeFrame_roe (htype : (ethOf body).etype = 0xFC3D) (hsub : beAt (ethOf body).payload 0 1 = 0x10) :
    s.routeFrame stitch p body t = s.rx1914 p (ethOf body).payload t := by
  have hother : ¬ (ethOf body).etype = 0xAEFE := by omega
  exact (State.routeFrame_own hdst).trans
    ((if_neg fun h => hstitch h.1).trans ((if_neg fun h => hother h.1).trans (if_pos ⟨htype, hsub⟩)))

theorem State.routeFrame_host (hecpri : (ethOf body).etype ≠ 0xAEFE) (hroe : (ethOf body).etype ≠ 0xFC3D) :
    s.routeFrame stitch p body t = s.hostPath p body t :=
  (State.routeFrame_own hdst).trans
    ((if_neg fun h => hstitch h.1).trans ((if_neg fun h => hecpri h.1).trans (if_neg fun h => hroe h.1)))

end

/-! ## Frames that arrive -/

/-- Counting the frame leaves the port's register. -/
theorem State.rd_portCfg_bump64 (s : State) (p n : Nat) : (s.bump64 (Reg.FH_PORT_RXFR_LO p) n).rd (Reg.FH_PORT_CFG p) = s.rd (Reg.FH_PORT_CFG p) :=
  State.rd_bump64_ne s n (by unfold Reg.FH_PORT_CFG Reg.FH_PORT_RXFR_LO; omega) (by unfold Reg.FH_PORT_CFG Reg.FH_PORT_RXFR_LO; omega)

theorem State.isCpri_bump64 (s : State) (p n : Nat) : (s.bump64 (Reg.FH_PORT_RXFR_LO p) n).isCpri p = s.isCpri p := by
  unfold State.isCpri State.portShape State.fld
  rw [State.rd_portCfg_bump64]

theorem exec_frameReceive {s : State} {p : Nat} {data : List Byte} (hclk : s.clocked = true) (hp : p < 96) (hup : (s.port p).up = true) :
    exec (.frameReceive p data) s = .next (s.receiveFrame State.stitchEth p data) := by
  have hthis : (decide (p < 96) && (s.port p).up) = true := by
    rw [hup, decide_eq_true hp]
    rfl
  exact (exec_of_clocked hclk rfl).trans (congrArg _ (if_pos hthis))

theorem State.receiveFrame_cpri {s : State} {stitch : State → Nat → Nat → List Byte → State} {p : Nat} {data : List Byte}
    (hcpri : s.isCpri p = true) :
    s.receiveFrame stitch p data = (s.bump64 (Reg.FH_PORT_RXFR_LO p) 1).rxCpri p data (s.rxStamp16 p) :=
  if_pos ((State.isCpri_bump64 s p 1).trans hcpri)

/-- The state a frame of an Ethernet port is handled in: counted and offered to the capture points. -/
def State.frameOffered (s : State) (p : Nat) (data : List Byte) (bad : Bool) : State :=
  let s0 := s.bump64 (Reg.FH_PORT_RXFR_LO p) 1
  s0.offerFrame 1 p data (s.rxStamp16 p) bad false
    { s0.rxFlow p (data.take (data.length - 4)) (s.rxStamp16 p) with
      window := !bad && (s0.rxFlow p (data.take (data.length - 4)) (s.rxStamp16 p)).window }

section
variable {s : State} {stitch : State → Nat → Nat → List Byte → State} {p : Nat} {data : List Byte} (hcpri : s.isCpri p = false)
include hcpri

theorem State.receiveFrame_eth : let bad := (checkFcs data).isNone || decide (data.length < 64 ∨ (s.bump64 (Reg.FH_PORT_RXFR_LO p) 1).maxFrame p < data.length)
    s.receiveFrame stitch p data = if bad then (s.frameOffered p data bad).brokenFrame p data (s.rxStamp16 p)
      else (s.frameOffered p data bad).routeFrame stitch p (data.take (data.length - 4)) (s.rxStamp16 p) :=
  if_neg (Bool.eq_false_iff.mp ((State.isCpri_bump64 s p 1).trans hcpri))

theorem State.receiveFrame_broken
    (hbad : checkFcs data = none ∨ data.length < 64 ∨ (s.bump64 (Reg.FH_PORT_RXFR_LO p) 1).maxFrame p < data.length) :
    s.receiveFrame stitch p data = (s.frameOffered p data true).brokenFrame p data (s.rxStamp16 p) := by
  have hthis : ((checkFcs data).isNone || decide (data.length < 64 ∨ (s.bump64 (Reg.FH_PORT_RXFR_LO p) 1).maxFrame p < data.length)) = true := by
    rcases hbad with h | h
    · rw [h]
      rfl
    · rw [decide_eq_true h, Bool.or_true]
  have h := State.receiveFrame_eth (stitch := stitch) (data := data) hcpri
  rw [hthis] at h
  exact h

theorem State.receiveFrame_whole (hfcs : (checkFcs data).isSome = true) (hmin : 64 ≤ data.length)
    (hmax : data.length ≤ (s.bump64 (Reg.FH_PORT_RXFR_LO p) 1).maxFrame p) :
    s.receiveFrame stitch p data =
      (s.frameOffered p data false).routeFrame stitch p (data.take (data.length - 4)) (s.rxStamp16 p) := by
  have hthis : ((checkFcs data).isNone || decide (data.length < 64 ∨ (s.bump64 (Reg.FH_PORT_RXFR_LO p) 1).maxFrame p < data.length)) = false := by
    rw [Option.isNone_eq_false_iff.mpr hfcs, decide_eq_false (by omega)]
    rfl
  have h := State.receiveFrame_eth (stitch := stitch) (data := data) hcpri
  rw [hthis] at h
  exact h

end

theorem exec_frameReceive_eth {s : State} {p : Nat} {data : List Byte} (hclk : s.clocked = true) (hp : p < 96) (hup : (s.port p).up = true)
    (hcpri : s.isCpri p = false) :
    let s0 := s.bump64 (Reg.FH_PORT_RXFR_LO p) 1
    let t := s.rxStamp16 p
    let body := data.take (data.length - 4)
    let f := ethOf body
    let u := s.frameOffered p data false
    (checkFcs data = none ∨ data.length < 64 ∨ s0.maxFrame p < data.length →
      exec (.frameReceive p data) s = .next ((s.frameOffered p data true).brokenFrame p data t)) ∧
    ((checkFcs data).isSome = true → 64 ≤ data.length → data.length ≤ s0.maxFrame p →
      (f.dst ≠ u.portMac p → groupAddress f.dst = false →
        exec (.frameReceive p data) s = .next (u.bumpFld (Reg.FH_PORT_DROP0 p) 15 0 1)) ∧
      (f.dst = u.portMac p →
        (f.etype = u.fld Reg.FH_STF_ETYPE 15 0 → u.bit (Reg.FH_PORT_CFG p) 21 = true →
          exec (.frameReceive p data) s = .next (u.stitchEth p f.src f.payload)) ∧
        (f.etype ≠ u.fld Reg.FH_STF_ETYPE 15 0 →
          (f.etype = 0xAEFE → beAt f.payload 1 1 = 0 ∨ beAt f.payload 1 1 = 2 →
            exec (.frameReceive p data) s = .next (u.rxEcpri p f.payload t)) ∧
          (f.etype = 0xFC3D → beAt f.payload 0 1 = 0x10 →
            exec (.frameReceive p data) s = .next (u.rx1914 p f.payload t)) ∧
          (f.etype ≠ 0xAEFE → f.etype ≠ 0xFC3D →
            (∀ b r, hostRate u.tb.raw u.fh.hostIn < hostMax → takeBuf (body.length + 16) u.fh.bufs = some (b, r) →
              exec (.frameReceive p data) s =
                .next (({ u with fh.hostIn := hostPassed u.tb.raw u.fh.hostIn, fh.bufs := r }.hostWrite
                  ⟨b.fn, 0, b.ref.ring, b.ref.tag, b.addr,
                    bytesOfNat 4 (body.length % 65536 * 2 ^ 16 + p % 128) ++ List.replicate 12 0 ++ body, 0⟩).completeAt b.ref stOK
                  body.length false (shortStampOf t))) ∧
            (takeBuf (body.length + 16) u.fh.bufs = none ∨ hostMax ≤ hostRate u.tb.raw u.fh.hostIn →
              exec (.frameReceive p data) s = .next ((u.bump Reg.FH_HOST_DROP).raise Reg.FH_EVENT 4)))))) := by
  intro s0 t body f u
  have hexec := exec_frameReceive (data := data) hclk hp hup
  refine ⟨fun hbad => hexec.trans (congrArg _ (State.receiveFrame_broken hcpri hbad)), fun hfcs hmin hmax => ?_⟩
  have hroute : exec (.frameReceive p data) s = .next (u.routeFrame State.stitchEth p body t) :=
    hexec.trans (congrArg _ (State.receiveFrame_whole hcpri hfcs hmin hmax))
  refine ⟨fun hdst hone => hroute.trans (congrArg _ (State.routeFrame_other hdst hone)), fun hdst => ⟨fun htype hen => ?stitch,
    fun hstitch => ⟨fun htype hmsg => ?ecpri, fun htype hsub => ?roe, fun hecpri hroe => ⟨fun b r hrate hbuf => ?taken, fun hnone => ?dropped⟩⟩⟩⟩
  case stitch => exact hroute.trans (congrArg _ (State.routeFrame_stitch hdst htype hen))
  case ecpri => exact hroute.trans (congrArg _ (State.routeFrame_ecpri hdst hstitch htype hmsg))
  case roe => exact hroute.trans (congrArg _ (State.routeFrame_roe hdst hstitch htype hsub))
  case taken =>
    exact hroute.trans (congrArg _ ((State.routeFrame_host hdst hstitch hecpri hroe).trans (State.hostPath_taken hrate hbuf)))
  case dropped =>
    exact hroute.trans (congrArg _ ((State.routeFrame_host hdst hstitch hecpri hroe).trans (State.hostPath_dropped hnone)))

/-- A broken frame for another address has put words into no item. -/
theorem State.brokenFrame_other {s : State} {p : Nat} {data : List Byte} {t : Int}
    (hdst : (ethOf (data.take (data.length - 4))).dst ≠ s.portMac p) (hone : groupAddress (ethOf (data.take (data.length - 4))).dst = false) :
    s.brokenFrame p data t = s.bumpFld (Reg.FH_PORT_DROP0 p) 31 16 1 := by
  have hnone : (mapKeys (s.bumpFld (Reg.FH_PORT_DROP0 p) 15 0 1).qm.queues).filter
      (fun q => decide ((s.queue q).nextSeq < ((s.bumpFld (Reg.FH_PORT_DROP0 p) 15 0 1).queue q).nextSeq)) = [] :=
    List.filter_eq_nil_iff.mpr fun q _ h => absurd (of_decide_eq_true h) (Nat.lt_irrefl _)
  unfold State.brokenFrame
  dsimp only
  rw [State.routeFrame_other hdst hone, hnone]
  rfl

/-! ## U-plane frames -/

theorem State.countLate_late (s : State) (c : Nat) (h : Half) :
    s.countLate c h false = (s.bump (Reg.FH_HALF_LATE c (halfIx h))).raise Reg.FH_EVENT 2 := rfl

theorem State.countLate_early (s : State) (c : Nat) (h : Half) :
    s.countLate c h true = (s.bump (Reg.FH_HALF_EARLY c (halfIx h))).raise Reg.FH_EVENT 2 := rfl

section
variable {s : State} {p c : Nat} {h : Half} {stream : Nat} {app : List Byte} {t n : Int} {l : List Section}
  (hslot : s.namedSlot (s.carrier c).cfg t (beAt app 1 1) (beAt app 2 2 / 4096) (beAt app 2 2 / 64 % 64) (beAt app 2 2 % 64) = some n)
  (hsections : sectionsOf (flowPage (s.slotWords c h n)) app.length (app.drop 4) = some l)
include hslot hsections

theorem State.rxUplane_missed {early : Bool} (hfate : s.windowFate c h n (beAt app 2 2 % 64) t = some early) :
    s.rxUplane p c h stream app t = s.countLate c h early := by
  unfold State.rxUplane
  simp only [hslot, hsections, hfate]

theorem State.rxUplane_onTime (hfate : s.windowFate c h n (beAt app 2 2 % 64) t = none) : s.rxUplane p c h stream app t =
    if beAt app 0 1 % 16 != 0 || decide ((flowPage (s.slotWords c h n)).nStream ≤ stream) then
      (s.bump (Reg.FH_HALF_ON_TIME c (halfIx h))).auxItem p c h (flowPage (s.slotWords c h n)) n (beAt app 2 2 % 64) stream l t
    else ((s.bump (Reg.FH_HALF_ON_TIME c (halfIx h))).rxSections p c h (flowPage (s.slotWords c h n)) n (beAt app 2 2 % 64) stream l).noteStamp c h n
      (groupOf (flowPage (s.slotWords c h n)) (symsPerSlot (s.carrier c).cfg) (beAt app 2 2 % 64)).2 t := by
  unfold State.rxUplane
  simp only [hslot, hsections, hfate]

theorem State.rxUplane_cases :
    let pg := flowPage (s.slotWords c h n)
    let fate := s.windowFate c h n (beAt app 2 2 % 64) t
    (fate = some false → s.rxUplane p c h stream app t = (s.bump (Reg.FH_HALF_LATE c (halfIx h))).raise Reg.FH_EVENT 2) ∧
    (fate = some true → s.rxUplane p c h stream app t = (s.bump (Reg.FH_HALF_EARLY c (halfIx h))).raise Reg.FH_EVENT 2) ∧
    (fate = none → beAt app 0 1 % 16 = 0 → stream < pg.nStream → s.rxUplane p c h stream app t =
      ((s.bump (Reg.FH_HALF_ON_TIME c (halfIx h))).rxSections p c h pg n (beAt app 2 2 % 64) stream l).noteStamp c h n
        (groupOf pg (symsPerSlot (s.carrier c).cfg) (beAt app 2 2 % 64)).2 t) ∧
    (fate = none → (beAt app 0 1 % 16 ≠ 0 ∨ pg.nStream ≤ stream) → s.rxUplane p c h stream app t =
      (s.bump (Reg.FH_HALF_ON_TIME c (halfIx h))).auxItem p c h pg n (beAt app 2 2 % 64) stream l t) := by
  refine ⟨fun hfate => (State.rxUplane_missed hslot hsections hfate).trans (State.countLate_late s c h),
    fun hfate => (State.rxUplane_missed hslot hsections hfate).trans (State.countLate_early s c h),
    fun hfate hzero hstream => ?main, fun hfate haux => ?aux⟩
  case main =>
    have hthis : ¬ (beAt app 0 1 % 16 != 0 || decide ((flowPage (s.slotWords c h n)).nStream ≤ stream)) = true := by
      rw [hzero, decide_eq_false (Nat.not_le.mpr hstream)]
      exact Bool.false_ne_true
    exact (State.rxUplane_onTime hslot hsections hfate).trans (if_neg hthis)
  case aux =>
    have hthis : (beAt app 0 1 % 16 != 0 || decide ((flowPage (s.slotWords c h n)).nStream ≤ stream)) = true :=
      Bool.or_eq_true_iff.mpr (haux.imp bne_iff_ne.mpr decide_eq_true)
    exact (State.rxUplane_onTime hslot hsections hfate).trans (if_pos hthis)

end

/-! ## Symbol groups -/

/-- A symbol group whose PRBs are all here, or whose window has closed, is committed. -/
theorem State.groupCommit_due {s : State} {c : Nat} {h : Half} {stamp : W32} {last m : Nat} {l : SlotLatch} :
    let x := s.carrier c
    let p := flowPage l.words
    let g := groupOf p (symsPerSlot x.cfg) last
    let ms := maskedSyms l.words g
    let r := rxSlotOf (s.fhHalf c h).rx l.slot
    let got := (r.got.filter (fun k => ms.contains (k / 2 ^ 20))).length
    let missing := ms.length * p.nStream * p.nRb - got
    let close := (s.window x.cfg h p l.slot m).2
    s.liveByStamp c h stamp = some l → x.receives h = true → x.fhMode = 0 → l.aborted = false → g.2 = last →
    last < symsPerSlot x.cfg → r.done.contains last = false → ms.getLast? = some m → missing = 0 ∨ close ≤ s.tb.time16 →
    let s1 := (s.setFhHalf c h { s.fhHalf c h with rx := putRxSlot (s.fhHalf c h).rx { r with done := r.done ++ [last] } }).fhCount
      (Reg.FH_HALF_MISSING c (halfIx h)) missing
    s.groupCommit c h stamp last = (s1.pushItem p.dataQid (fhProducer c h) p.prio (BitVec.ofNat 16 (g.1 * 256 + g.2))
      [groupHeader (missing != 0) c h stamp g.1 g.2 missing (p.buf + s1.rxOffset c p l.slot g.1 0 0)
        (if missing = 0 then mapGet (fun _ => 0) r.stamps last else close)]).1 := by
  intro x p g ms r got missing close hlive hreceives hmode hkept hlast hbound hnew hm hdue s1
  have hthis : ¬ (!x.receives h || x.fhMode != 0 || l.aborted || g.2 != last || decide (symsPerSlot x.cfg ≤ last) || r.done.contains last)
      = true := by
    rw [hreceives, hmode, hkept, hlast, hnew, decide_eq_false (Nat.not_le.mpr hbound), bne_self_eq_false, bne_self_eq_false]
    exact Bool.false_ne_true
  unfold State.groupCommit
  simp only [hlive]
  refine (if_neg hthis).trans ?_
  simp only [show (maskedSyms l.words (groupOf (flowPage l.words) (symsPerSlot (s.carrier c).cfg) last)).getLast? = some m from hm]
  exact if_pos hdue

/-! ## The obligation -/

/-- Settles O43: a lemma for each command, in the order of the statement. -/
theorem fronthaulReceive : Obligations.FronthaulReceive := by
  unfold Obligations.FronthaulReceive
  refine ⟨?enable, ?up, ?buffer, ?frame, ?broken, ?cpri, ?uplane, fun _ _ _ _ _ _ => rfl, ?group⟩
  case enable =>
    intro s p v hp hopen
    have hexec := exec_portEnable (v := v) hp hopen
    exact ⟨fun hnamed => hexec.trans (congrArg _ (State.writePortCfg_named hnamed)),
      fun hfree hen hshape hrate hlanes hwas =>
        hexec.trans (congrArg _ ((State.writePortCfg_unnamed hfree).trans (State.applyPortCfg_enables hshape hrate hlanes hen hwas))),
      fun hfree hen hshape hrate hlanes hwas =>
        hexec.trans (congrArg _ ((State.writePortCfg_unnamed hfree).trans (State.applyPortCfg_disables hshape hrate hlanes hen hwas)))⟩
  case up => exact fun s p hclk => exec_portUp hclk
  case buffer =>
    exact fun s d hclk hroom hlen haligned =>
      (exec_of_clocked hclk rfl).trans (congrArg _ (State.fhRxbuf_posted hroom hlen haligned))
  case frame => exact fun s p data hclk hp hup hcpri => exec_frameReceive_eth hclk hp hup hcpri
  case broken => exact fun s p data t hdst hone => State.brokenFrame_other hdst hone
  case cpri =>
    exact fun s p data hclk hp hup hcpri => (exec_frameReceive hclk hp hup).trans (congrArg _ (State.receiveFrame_cpri hcpri))
  case uplane => exact fun s p c h stream app t n l hslot hsections => State.rxUplane_cases hslot hsections
  case group =>
    intro s c h stamp last m l hclk x p g ms r got missing close hlive hreceives hmode hkept hlast hbound hnew hm hdue
    exact (exec_of_clocked hclk rfl).trans
      (congrArg _ (State.groupCommit_due hlive hreceives hmode hkept hlast hbound hnew hm hdue))

end Sys2Proof.Machine
end

section
/-! Fronthaul: transmission (R300, R301, R306, R310, R311, R341). -/

namespace Sys2Proof.Machine

/-! ## Items and their slots -/

section
variable {s s1 : State} {c qid : Nat} {h : Half} {i : QItem} (hsends : (s.carrier c).receives h = false)
  (hruns : (s.carrier c).isStopped = false) (hqueue : s.txQueue c h (fun p => some p.dataQid) = some qid)
  (hitem : s.headItem qid (fhConsumer c h) = (s1, some i))
include hsends hruns hqueue hitem

theorem State.txAssign_td (hmode : (s.carrier c).fhMode ≠ 0) : s.txAssign c h = s1.tdPush c h i := by
  have hthis : ¬ ((s.carrier c).receives h || (s.carrier c).isStopped || ((s.carrier c).fhMode == 0 && (s.fhHalf c h).head.isSome)) = true := by
    rw [hsends, hruns, beq_eq_false_iff_ne.mpr hmode]
    exact Bool.false_ne_true
  unfold State.txAssign
  dsimp only
  rw [if_neg hthis, hqueue]
  simp only [hitem]
  exact if_pos (bne_iff_ne.mpr hmode)

section
variable (hmode : (s.carrier c).fhMode = 0) (hhead : (s.fhHalf c h).head = none)
include hmode hhead

theorem State.txAssign_late (hnone : s1.assignSlot c h qid (i.tag.toNat / 256) = none) :
    s.txAssign c h = s1.bump (Reg.FH_HALF_TX_LATE c (halfIx h)) := by
  have hthis : ¬ ((s.carrier c).receives h || (s.carrier c).isStopped || ((s.carrier c).fhMode == 0 && (s.fhHalf c h).head.isSome)) = true := by
    rw [hsends, hruns, hhead, hmode]
    exact Bool.false_ne_true
  unfold State.txAssign
  dsimp only
  rw [if_neg hthis, hqueue]
  simp only [hitem, hnone, hmode]
  rfl

theorem State.txAssign_slot {l : SlotLatch} (hslot : s1.assignSlot c h qid (i.tag.toNat / 256) = some l) (hkept : l.aborted = false) :
    s.txAssign c h = if !inMask l.words (i.tag.toNat / 256) || decide (symsPerSlot (s.carrier c).cfg ≤ i.tag.toNat / 256)
        || decide ((flowPage l.words).nStream ≤ i.tag.toNat % 256) then s1.clampAt Reg.FH_CLAMP_COUNT
      else s1.setFhHalf c h { s1.fhHalf c h with
        head := some ({ slot := l.slot, sym := i.tag.toNat / 256, stream := i.tag.toNat % 256, data := bytesOfQWords i.words } : TxHead) } := by
  have hthis : ¬ ((s.carrier c).receives h || (s.carrier c).isStopped || ((s.carrier c).fhMode == 0 && (s.fhHalf c h).head.isSome)) = true := by
    rw [hsends, hruns, hhead, hmode]
    exact Bool.false_ne_true
  unfold State.txAssign
  dsimp only
  rw [if_neg hthis, hqueue]
  simp only [hitem, hslot, hmode, hkept]
  rfl

end

theorem exec_txItemAssign (hclk : s.clocked = true) :
    let sym := i.tag.toNat / 256
    let stream := i.tag.toNat % 256
    ((s.carrier c).fhMode ≠ 0 → exec (.txItemAssign c h) s = .next (s1.tdPush c h i)) ∧
    ((s.carrier c).fhMode = 0 → (s.fhHalf c h).head = none →
      (s1.assignSlot c h qid sym = none → exec (.txItemAssign c h) s = .next (s1.bump (Reg.FH_HALF_TX_LATE c (halfIx h)))) ∧
      (∀ l, s1.assignSlot c h qid sym = some l → l.aborted = false →
        (inMask l.words sym = false → exec (.txItemAssign c h) s = .next (s1.clampAt Reg.FH_CLAMP_COUNT)) ∧
        (inMask l.words sym = true → sym < symsPerSlot (s.carrier c).cfg → stream < (flowPage l.words).nStream →
          exec (.txItemAssign c h) s = .next (s1.setFhHalf c h { s1.fhHalf c h with
            head := some ({ slot := l.slot, sym := sym, stream := stream, data := bytesOfQWords i.words } : TxHead) })))) := by
  intro sym stream
  have hexec : exec (.txItemAssign c h) s = .next (s.txAssign c h) := exec_of_clocked hclk rfl
  rw [hexec]
  refine ⟨fun hmode => congrArg _ (State.txAssign_td hsends hruns hqueue hitem hmode), fun hmode hhead =>
    ⟨fun hnone => congrArg _ (State.txAssign_late hsends hruns hqueue hitem hmode hhead hnone), fun l hslot hkept =>
      ⟨fun hmask => ?discarded, fun hmask hsym hstream => ?assigned⟩⟩⟩
  case discarded =>
    rw [State.txAssign_slot hsends hruns hqueue hitem hmode hhead hslot hkept, hmask]
    rfl
  case assigned =>
    rw [State.txAssign_slot hsends hruns hqueue hitem hmode hhead hslot hkept, hmask, decide_eq_false (Nat.not_le.mpr hsym),
      decide_eq_false (Nat.not_le.mpr hstream)]
    rfl

end

/-! ## The order of a port -/

theorem Ready.close_le_of_before {a b : Ready} (h : a.before b = true) : a.close ≤ b.close := by
  rcases Bool.or_eq_true_iff.mp h with hlt | heq
  · exact Int.le_of_lt (of_decide_eq_true hlt)
  · exact Int.le_of_eq (beq_iff_eq.mp (Bool.and_eq_true_iff.mp heq).1)

theorem Ready.le_close_of_not_before {a b : Ready} (h : ¬ a.before b = true) : b.close ≤ a.close := by
  refine Int.not_lt.mp fun hlt => h ?_
  exact Bool.or_eq_true_iff.mpr (Or.inl (decide_eq_true hlt))

/-- The frame a port sends of two. -/
theorem foldl_earliest (l : List Ready) (a : Ready) :
    l.foldl (fun b x => if x.before b then x else b) a ∈ a :: l ∧
      ∀ x ∈ a :: l, (l.foldl (fun b x => if x.before b then x else b) a).close ≤ x.close := by
  induction l generalizing a with
  | nil => exact ⟨List.mem_singleton.mpr rfl, fun x hx => Int.le_of_eq (congrArg Ready.close (List.mem_singleton.mp hx).symm)⟩
  | cons y l ih =>
    rw [List.foldl_cons]
    by_cases hbefore : y.before a = true
    · rw [if_pos hbefore]
      obtain ⟨hmem, hle⟩ := ih y
      refine ⟨List.mem_cons_of_mem _ hmem, fun x hx => ?_⟩
      rcases List.mem_cons.mp hx with rfl | hx
      · exact Int.le_trans (hle y List.mem_cons_self) (Ready.close_le_of_before hbefore)
      · exact hle x hx
    · rw [if_neg hbefore]
      obtain ⟨hmem, hle⟩ := ih a
      refine ⟨?_, fun x hx => ?_⟩
      · rcases List.mem_cons.mp hmem with h | h
        · rw [h]
          exact List.mem_cons_self
        · exact List.mem_cons_of_mem _ (List.mem_cons_of_mem _ h)
      · rcases List.mem_cons.mp hx with rfl | hx
        · exact hle x List.mem_cons_self
        rcases List.mem_cons.mp hx with rfl | hx
        · exact Int.le_trans (hle a List.mem_cons_self) (Ready.le_close_of_not_before hbefore)
        · exact hle x (List.mem_cons_of_mem _ hx)

theorem earliestReady_some {l : List Ready} {r : Ready} (h : earliestReady l = some r) : r ∈ l ∧ ∀ x ∈ l, r.close ≤ x.close := by
  cases l with
  | nil => nomatch h
  | cons a l =>
    cases h
    exact foldl_earliest l a

section
variable {s : State} {port : Nat} (hup : (s.port port).up = true)
include hup

theorem State.frameSend_press {x : PressOut} (hx : s.cap.outq.find? (·.port == port) = some x) : s.frameSend port = s.sendPress x := by
  unfold State.frameSend
  rw [hup, hx]
  rfl

variable (hpress : s.cap.outq.find? (·.port == port) = none)
include hpress

theorem State.frameSend_ready {r : Ready} (hr : earliestReady ((s.pullPort port).portReady port) = some r) :
    s.frameSend port = (s.pullPort port).sendReady port r := by
  unfold State.frameSend
  rw [hup, hpress]
  simp only [hr]
  rfl

section
variable (hr : (s.pullPort port).portReady port = [])
include hr

theorem State.frameSend_stitch {x : Nat × List Byte} (hx : (s.pullPort port).fh.stitchTx.find? (·.1 == port) = some x) :
    s.frameSend port =
      { s.pullPort port with fh.stitchTx := (s.pullPort port).fh.stitchTx.erase x }.sendFrame port x.2 {} := by
  unfold State.frameSend
  rw [hup, hpress]
  simp only [hr, earliestReady, hx]
  rfl

theorem State.frameSend_host {x : HostFrame} (hnone : (s.pullPort port).fh.stitchTx.find? (·.1 == port) = none)
    (hx : (s.pullPort port).fh.hostTx.find? (·.port == port) = some x) :
    s.frameSend port = if (s.pullPort port).hostRoom then
      { s.pullPort port with fh.hostTx := (s.pullPort port).fh.hostTx.erase x }.sendHost x else s.pullPort port := by
  unfold State.frameSend
  rw [hup, hpress]
  simp only [hr, earliestReady, hnone, hx]
  rfl

end

end

theorem exec_frameSend {s : State} {port : Nat} (hclk : s.clocked = true) (hup : (s.port port).up = true) :
    (∀ x, s.cap.outq.find? (·.port == port) = some x → exec (.frameSend port) s = .next (s.sendPress x)) ∧
    (s.cap.outq.find? (·.port == port) = none →
      let s1 := s.pullPort port
      (∀ r, earliestReady (s1.portReady port) = some r → exec (.frameSend port) s = .next (s1.sendReady port r)) ∧
      (∀ x, s1.portReady port = [] → s1.fh.stitchTx.find? (·.1 == port) = some x →
        exec (.frameSend port) s = .next ({ s1 with fh.stitchTx := s1.fh.stitchTx.erase x }.sendFrame port x.2 {})) ∧
      (∀ x, s1.portReady port = [] → s1.fh.stitchTx.find? (·.1 == port) = none → s1.fh.hostTx.find? (·.port == port) = some x →
        (s1.hostRoom = true → exec (.frameSend port) s = .next ({ s1 with fh.hostTx := s1.fh.hostTx.erase x }.sendHost x)) ∧
        (s1.hostRoom = false → exec (.frameSend port) s = .next s1))) := by
  have hexec : exec (.frameSend port) s = .next (s.frameSend port) := exec_of_clocked hclk rfl
  rw [hexec]
  refine ⟨fun x hx => congrArg _ (State.frameSend_press hup hx), fun hpress => ⟨fun r hr => congrArg _ (State.frameSend_ready hup hpress hr),
    fun x hr hx => congrArg _ (State.frameSend_stitch hup hpress hr hx), fun x hr hnone hx => ⟨fun hroom => ?room, fun hfull => ?full⟩⟩⟩
  case room => exact congrArg _ ((State.frameSend_host hup hpress hr hnone hx).trans (if_pos hroom))
  case full => exact congrArg _ ((State.frameSend_host hup hpress hr hnone hx).trans (if_neg (Bool.eq_false_iff.mp hfull)))

/-! ## U-plane frames -/

/-- The application layer of a U-plane frame of `n` PRBs. -/
def State.uplaneApp (s : State) (c : Nat) (h : Half) (d : TxHead) (p : FlowPage) (n : Nat) : List Byte :=
  appHeader (s.carrier c).cfg h d.slot d.sym
    ++ beBytes 4 (p.sectionId * 2 ^ 20 + d.nextPrb * 2 ^ 8 + (if n = p.nRb then 0 else n))
    ++ (if p.staticHdr then [] else beBytes 1 (p.width % 16 * 16 + p.meth) ++ [0])
    ++ (List.range n).flatMap (fun i => wirePrb p d.data (d.nextPrb + i))

/-- The frame that carries it. -/
def State.uplaneBody (s : State) (c : Nat) (h : Half) (d : TxHead) : List Byte :=
  let p := flowPage (s.slotWords c h d.slot)
  let app := s.uplaneApp c h d p (s.prbsThatFit c p d)
  s.carrierHeader c 0xAEFE ++ ecpriHeader 0 (p.key d.stream) (s.nextSeqOut c h d.stream).2 app.length ++ app

/-- The half after a frame that carries the head item's PRBs up to `next`. -/
def FhHalf.advanced (f : FhHalf) (d : TxHead) (nRb next : Nat) : FhHalf :=
  if nRb ≤ next then { f with head := none, whole := f.whole ++ [(d.slot, d.sym, d.stream)] }
  else { f with head := some { d with nextPrb := next } }

theorem State.sendUplane_eq {s : State} {port c : Nat} {h : Half} {d : TxHead} (hhead : (s.fhHalf c h).head = some d) :
    let p := flowPage (s.slotWords c h d.slot)
    let n := s.prbsThatFit c p d
    let q := s.nextSeqOut c h d.stream
    s.sendUplane port c h =
      if n = 0 ∨ (s.window (s.carrier c).cfg h p d.slot d.sym).2
          < s.txStamp16 port + s.frameTime16 port (max 64 ((s.uplaneBody c h d).length + 4)) then
        s.setFhHalf c h { s.fhHalf c h with head := none }
      else (q.1.setFhHalf c h ((q.1.fhHalf c h).advanced d p.nRb (d.nextPrb + n))).sendFrame port (s.uplaneBody c h d)
        { carrier := c, slot := q.1.stampOfSlot c d.slot } := by
  intro p n q
  unfold State.sendUplane
  simp only [hhead]
  rfl

theorem State.sendUplane_cases {s : State} {port c : Nat} {h : Half} {d : TxHead} (hhead : (s.fhHalf c h).head = some d) :
    let p := flowPage (s.slotWords c h d.slot)
    let n := s.prbsThatFit c p d
    let q := s.nextSeqOut c h d.stream
    let body := s.uplaneBody c h d
    let flow : FrameFlow := { carrier := c, slot := q.1.stampOfSlot c d.slot }
    let late := (s.window (s.carrier c).cfg h p d.slot d.sym).2 < s.txStamp16 port + s.frameTime16 port (max 64 (body.length + 4))
    (late → s.sendUplane port c h = s.setFhHalf c h { s.fhHalf c h with head := none }) ∧
    (¬ late → n ≠ 0 → d.nextPrb + n < p.nRb → s.sendUplane port c h =
      (q.1.setFhHalf c h { q.1.fhHalf c h with head := some { d with nextPrb := d.nextPrb + n } }).sendFrame port body flow) ∧
    (¬ late → n ≠ 0 → p.nRb ≤ d.nextPrb + n → s.sendUplane port c h =
      (q.1.setFhHalf c h { q.1.fhHalf c h with
        head := none, whole := (q.1.fhHalf c h).whole ++ [(d.slot, d.sym, d.stream)] }).sendFrame port body flow) := by
  intro p n q body flow late
  have hsend := State.sendUplane_eq (port := port) hhead
  refine ⟨fun hlate => hsend.trans (if_pos (Or.inr hlate)), fun htime hsome hmore => ?more, fun htime hsome hlast => ?last⟩
  case more =>
    have hadvanced : (q.1.fhHalf c h).advanced d p.nRb (d.nextPrb + n) =
        { q.1.fhHalf c h with head := some { d with nextPrb := d.nextPrb + n } } := if_neg (Nat.not_le.mpr hmore)
    exact hadvanced ▸ hsend.trans (if_neg (not_or.mpr ⟨hsome, htime⟩))
  case last =>
    have hadvanced : (q.1.fhHalf c h).advanced d p.nRb (d.nextPrb + n) =
        { q.1.fhHalf c h with head := none, whole := (q.1.fhHalf c h).whole ++ [(d.slot, d.sym, d.stream)] } := if_pos hlast
    exact hadvanced ▸ hsend.trans (if_neg (not_or.mpr ⟨hsome, htime⟩))

/-! ## Windows that close -/

theorem State.txWindowClose_due {s : State} {c : Nat} {h : Half} {stamp : W32} {sym : Nat} {l : SlotLatch}
    (hsends : (s.carrier c).receives h = false) (hruns : (s.carrier c).isStopped = false) (hmode : (s.carrier c).fhMode = 0)
    (hlive : s.liveByStamp c h stamp = some l) (hmask : inMask l.words sym = true) (hsym : sym < symsPerSlot (s.carrier c).cfg)
    (hopen : (s.fhHalf c h).closed.contains (l.slot, sym) = false)
    (hdue : (s.window (s.carrier c).cfg h (flowPage l.words) l.slot sym).2 ≤ s.tb.time16) :
    let f := s.fhHalf c h
    let n := ((List.range (flowPage l.words).nStream).filter (fun k => !f.whole.contains (l.slot, sym, k))).length
    let s1 := s.setFhHalf c h { f with closed := f.closed ++ [(l.slot, sym)], head := f.head.filter (fun d => d.slot != l.slot || d.sym != sym) }
    s.txWindowClose c h stamp sym = if n = 0 then s1 else (s1.fhCount (Reg.FH_HALF_TX_MISS c (halfIx h)) n).raise Reg.FH_EVENT 3 := by
  intro f n s1
  have hworks : ¬ ((s.carrier c).receives h || (s.carrier c).isStopped) = true := by
    rw [hsends, hruns]
    exact Bool.false_ne_true
  have hfreq : ¬ ((s.carrier c).fhMode != 0) = true := by
    rw [hmode]
    exact Bool.false_ne_true
  have hcloses : ¬ (!inMask l.words sym || decide (symsPerSlot (s.carrier c).cfg ≤ sym) || (s.fhHalf c h).closed.contains (l.slot, sym)
        || decide (s.tb.time16 < (s.window (s.carrier c).cfg h (flowPage l.words) l.slot sym).2)) = true := by
    rw [hmask, hopen, decide_eq_false (Nat.not_le.mpr hsym), decide_eq_false (Int.not_lt.mpr hdue)]
    exact Bool.false_ne_true
  unfold State.txWindowClose
  dsimp only
  rw [if_neg hworks, if_neg hfreq, hlive]
  exact if_neg hcloses

theorem exec_txWindowClose {s : State} {c : Nat} {h : Half} {stamp : W32} {sym : Nat} {l : SlotLatch} (hclk : s.clocked = true)
    (hsends : (s.carrier c).receives h = false) (hruns : (s.carrier c).isStopped = false) (hmode : (s.carrier c).fhMode = 0)
    (hlive : s.liveByStamp c h stamp = some l) (hmask : inMask l.words sym = true) (hsym : sym < symsPerSlot (s.carrier c).cfg)
    (hopen : (s.fhHalf c h).closed.contains (l.slot, sym) = false)
    (hdue : (s.window (s.carrier c).cfg h (flowPage l.words) l.slot sym).2 ≤ s.tb.time16) :
    let f := s.fhHalf c h
    let n := ((List.range (flowPage l.words).nStream).filter (fun k => !f.whole.contains (l.slot, sym, k))).length
    let s1 := s.setFhHalf c h { f with closed := f.closed ++ [(l.slot, sym)], head := f.head.filter (fun d => d.slot != l.slot || d.sym != sym) }
    (n = 0 → exec (.txWindowClose c h stamp sym) s = .next s1) ∧
    (0 < n → exec (.txWindowClose c h stamp sym) s = .next ((s1.fhCount (Reg.FH_HALF_TX_MISS c (halfIx h)) n).raise Reg.FH_EVENT 3)) := by
  intro f n s1
  have hexec : exec (.txWindowClose c h stamp sym) s = .next (s.txWindowClose c h stamp sym) := exec_of_clocked hclk rfl
  have hclose := State.txWindowClose_due hsends hruns hmode hlive hmask hsym hopen hdue
  exact ⟨fun hnone => hexec.trans (congrArg _ (hclose.trans (if_pos hnone))),
    fun hsome => hexec.trans (congrArg _ (hclose.trans (if_neg (Nat.ne_of_gt hsome))))⟩

/-! ## C-plane messages -/

section
variable {s : State} {c : Nat} {h : Half} {r : Ready}
  (hr : earliestReady ((s.pullPort (s.carrier c).port).portReady (s.carrier c).port) = some r) (hc : r.carrier = c) (hh : r.half = h)
  (hup : ((s.pullPort (s.carrier c).port).port (s.carrier c).port).up = true)
include hr hc hh hup

theorem State.cpAutoCommand_first {stamp : W32} {stream : Nat} {l : SlotLatch} (hkind : r.kind = .cpAuto l) (hstream : r.stream = stream)
    (hstamp : (s.pullPort (s.carrier c).port).stampOfSlot c l.slot = stamp) :
    s.cpAutoCommand c h stamp stream = (s.pullPort (s.carrier c).port).cpAutoSend c h l stream r.close := by
  unfold State.cpAutoCommand
  simp only [hr, hkind]
  exact if_pos ⟨hc, hh, hstream, hstamp, hup⟩

theorem State.cpQueueCommand_first {i : QItem} (hkind : r.kind = .cpQueue)
    (hitem : ((s.pullPort (s.carrier c).port).fhHalf c h).cpHead = some i) :
    s.cpQueueCommand c h = (s.pullPort (s.carrier c).port).cpQueueSend c h i := by
  unfold State.cpQueueCommand
  simp only [hr, hitem]
  exact if_pos ⟨hc, hh, hkind, hup⟩

end

section
variable {s : State} {c : Nat} (hr : earliestReady ((s.pullPort (s.carrier c).port).portReady (s.carrier c).port) = none)
include hr

theorem State.cpAutoCommand_idle (h : Half) (stamp : W32) (stream : Nat) :
    s.cpAutoCommand c h stamp stream = s.pullPort (s.carrier c).port := by
  unfold State.cpAutoCommand
  simp only [hr]

theorem State.cpQueueCommand_idle (h : Half) : s.cpQueueCommand c h = s.pullPort (s.carrier c).port := by
  unfold State.cpQueueCommand
  simp only [hr]

end

theorem State.sendCplane_cases (s : State) (port c : Nat) (h : Half) (n : Int) (p : FlowPage) (stream : Nat) (app : List Byte) (t : Int) :
    let q := s.nextSeqOut c h stream
    let s1 := q.1.sendFrame port (s.carrierHeader c 0xAEFE ++ ecpriHeader 2 (p.key stream) q.2 app.length ++ app)
      { carrier := c, slot := s.stampOfSlot c n }
    (s1.tb.time16 ≤ t + 10000 * 65536 → s.sendCplane port c h n p stream app t = s1) ∧
    (t + 10000 * 65536 < s1.tb.time16 →
      s.sendCplane port c h n p stream app t = (s1.bump (Reg.FH_HALF_CP_LATE c (halfIx h))).raise Reg.FH_EVENT 5) :=
  ⟨fun htime => if_neg (Int.not_lt.mpr htime), fun hlate => if_pos hlate⟩

/-! ## Host frames -/

theorem clampTo_of_le {lo hi v : Nat} (hlo : lo ≤ v) (hhi : v ≤ hi) : clampTo lo hi v = v := by
  rw [clampTo, if_neg (Nat.not_lt.mpr hlo), if_neg (Nat.not_lt.mpr hhi)]

/-- FH_SEND with PORT and LENGTH as taken. -/
def State.fhSendTaken (s : State) (d : Desc) (data : List Byte) (port len : Nat) : State :=
  if !(s.port port).up || !s.portEnabled port || s.isCpri port then s.complete (d.ref false) stREFUSED 0
  else
    let s0 := s.emit (.hostRead (s.descFn d) (d.w64 0x18) len)
    if data.length < len then s0.complete (d.ref false) stBAD 0
    else
      let x : HostFrame := ⟨d.ref false, port, data.take len⟩
      let s1 := s0.pullPort port
      if s1.hostRoom && (isPtpEvent (ethOf x.data) || (s1.portQuiet port && s1.fh.hostTx.all (·.port != port))) then s1.sendHost x
      else { s1 with fh.hostTx := s1.fh.hostTx ++ [x] }

section
variable {s : State} {d : Desc} {data : List Byte}

theorem State.fhSend_taken (hport : d.fld 0x10 22 16 ≤ 95) (hmin : 60 ≤ d.fld 0x10 13 0)
    (hmax : d.fld 0x10 13 0 ≤ s.maxFrame (d.fld 0x10 22 16) - 4) :
    s.fhSend d data = s.fhSendTaken d data (d.fld 0x10 22 16) (d.fld 0x10 13 0) := by
  unfold State.fhSend
  dsimp only
  rw [Nat.min_eq_right hport, clampTo_of_le hmin hmax, bne_self_eq_false, bne_self_eq_false]
  rfl

theorem State.fhSendTaken_down {port len : Nat} (hdown : (s.port port).up = false) :
    s.fhSendTaken d data port len = s.complete (d.ref false) stREFUSED 0 := by
  rw [State.fhSendTaken, hdown]
  rfl

section
variable {port len : Nat} (hup : (s.port port).up = true) (hen : s.portEnabled port = true) (heth : s.isCpri port = false)
include hup hen heth

theorem State.fhSendTaken_short (hshort : data.length < len) :
    s.fhSendTaken d data port len = (s.emit (.hostRead (s.descFn d) (d.w64 0x18) len)).complete (d.ref false) stBAD 0 := by
  rw [State.fhSendTaken, hup, hen, heth]
  exact if_pos hshort

theorem State.fhSendTaken_whole (hwhole : len ≤ data.length) :
    let s1 := (s.emit (.hostRead (s.descFn d) (d.w64 0x18) len)).pullPort port
    let x : HostFrame := ⟨d.ref false, port, data.take len⟩
    s.fhSendTaken d data port len =
      if s1.hostRoom && (isPtpEvent (ethOf x.data) || (s1.portQuiet port && s1.fh.hostTx.all (·.port != port))) then s1.sendHost x
      else { s1 with fh.hostTx := s1.fh.hostTx ++ [x] } := by
  rw [State.fhSendTaken, hup, hen, heth]
  exact if_neg (Nat.not_lt.mpr hwhole)

theorem State.fhSendTaken_cases :
    let s0 := s.emit (.hostRead (s.descFn d) (d.w64 0x18) len)
    let s1 := s0.pullPort port
    let x : HostFrame := ⟨d.ref false, port, data.take len⟩
    (data.length < len → s.fhSendTaken d data port len = s0.complete (d.ref false) stBAD 0) ∧
    (len ≤ data.length → s1.hostRoom = true → isPtpEvent (ethOf x.data) = true ∨ s1.portQuiet port = true ∧ (∀ y ∈ s1.fh.hostTx, y.port ≠ port) →
      s.fhSendTaken d data port len = s1.sendHost x) ∧
    (len ≤ data.length → s1.hostRoom = false ∨ isPtpEvent (ethOf x.data) = false ∧ s1.portQuiet port = false →
      s.fhSendTaken d data port len = { s1 with fh.hostTx := s1.fh.hostTx ++ [x] }) := by
  intro s0 s1 x
  refine ⟨State.fhSendTaken_short hup hen heth, fun hwhole hroom hgoes => ?goes, fun hwhole hwaits => ?waits⟩
  case goes =>
    have hall : (isPtpEvent (ethOf x.data) || (s1.portQuiet port && s1.fh.hostTx.all (·.port != port))) = true := by
      rcases hgoes with hptp | ⟨hquiet, hothers⟩
      · rw [hptp]
        rfl
      · rw [hquiet, List.all_eq_true.mpr fun y hy => bne_iff_ne.mpr (hothers y hy)]
        exact Bool.or_true _
    exact (State.fhSendTaken_whole hup hen heth hwhole).trans (if_pos (Bool.and_eq_true_iff.mpr ⟨hroom, hall⟩))
  case waits =>
    have hnot : (s1.hostRoom && (isPtpEvent (ethOf x.data) || (s1.portQuiet port && s1.fh.hostTx.all (·.port != port)))) = false := by
      rcases hwaits with hfull | ⟨hptp, hbusy⟩
      · rw [hfull]
        rfl
      · rw [hptp, hbusy]
        exact Bool.and_false _
    exact (State.fhSendTaken_whole hup hen heth hwhole).trans (if_neg (Bool.eq_false_iff.mp hnot))

end

end

/-! ## The obligation -/

/-- Settles O44: a lemma for each command, in the order of the statement. -/
theorem fronthaulTransmit : Obligations.FronthaulTransmit := by
  unfold Obligations.FronthaulTransmit
  refine ⟨?assign, ?send, fun l r => earliestReady_some, fun s port c h d => State.sendUplane_cases, ?close, ?cplane, ?idle,
    State.sendCplane_cases, ?host⟩
  case assign => exact fun s s1 c qid h i hclk hsends hruns hqueue hitem => exec_txItemAssign hsends hruns hqueue hitem hclk
  case send => exact fun s port hclk hup => exec_frameSend hclk hup
  case close =>
    exact fun s c h stamp sym l hclk hsends hruns hmode hlive hmask hsym hopen hdue =>
      exec_txWindowClose hclk hsends hruns hmode hlive hmask hsym hopen hdue
  case cplane =>
    intro s c h stamp stream r hclk port t hr hc hh hup
    exact ⟨fun l hkind hstream hstamp =>
        (exec_of_clocked hclk rfl).trans (congrArg _ (State.cpAutoCommand_first hr hc hh hup hkind hstream hstamp)),
      fun i hkind hitem => (exec_of_clocked hclk rfl).trans (congrArg _ (State.cpQueueCommand_first hr hc hh hup hkind hitem))⟩
  case idle =>
    intro s c h stamp stream hclk t hr
    exact ⟨(exec_of_clocked hclk rfl).trans (congrArg _ (State.cpAutoCommand_idle hr h stamp stream)),
      (exec_of_clocked hclk rfl).trans (congrArg _ (State.cpQueueCommand_idle hr h))⟩
  case host =>
    intro s d data hclk hport hmin hmax port len s0 s1 x
    have hexec : exec (.fhSend d data) s = .next (s.fhSendTaken d data port len) :=
      (exec_of_clocked hclk rfl).trans (congrArg _ (State.fhSend_taken hport hmin hmax))
    rw [hexec]
    refine ⟨fun hdown => congrArg _ (State.fhSendTaken_down hdown), fun hup hen heth => ?_⟩
    obtain ⟨hshort, hgoes, hwaits⟩ := State.fhSendTaken_cases (d := d) (data := data) (len := len) hup hen heth
    exact ⟨fun h => congrArg _ (hshort h), fun h hroom hwhich => congrArg _ (hgoes h hroom hwhich),
      fun h hwhich => congrArg _ (hwaits h hwhich)⟩

end Sys2Proof.Machine
end

section
/-! Lane training (R314, R318 to R324). -/

namespace Sys2Proof.Machine

/-! ## Bring-up -/

theorem State.trainingFrame_hears {s : State} {n : Nat} (hmode : (s.lane n).mode = .send ∨ (s.lane n).mode = .silentWait)
    (htrains : (s.lane n).adapts = false) : s.trainingFrame n =
      s.setLane n { s.lane n with mode := .train, noPartner := false, backoff := 1, sigDet := true, cdrLock := true } := by
  have hthis : (((s.lane n).mode == .send || (s.lane n).mode == .silentWait) && !(s.lane n).adapts) = true := by
    rw [htrains, Bool.or_eq_true_iff.mpr (hmode.imp beq_iff_eq.mpr beq_iff_eq.mpr)]
    rfl
  exact if_pos hthis

theorem exec_waitEnds {s : State} {n : Nat} (hclk : s.clocked = true) {c : Instr}
    (h : (s.lane n).mode = .send ∧ c = .partnerWaitExpiry n ∨ (s.lane n).mode = .adapt ∧ c = .adaptTimeout n) :
    exec c s = .next (s.silentWait n) := by
  rcases h with ⟨hmode, rfl⟩ | ⟨hmode, rfl⟩
  · exact (exec_of_clocked hclk rfl).trans (congrArg _ (if_pos hmode))
  · exact (exec_of_clocked hclk rfl).trans (congrArg _ (if_pos hmode))

section
variable {s : State} {n : Nat} (hmode : (s.lane n).mode = .train)
include hmode

theorem State.receiversReady_up {p : Nat} (howner : (s.lane n).owner = .port p ∨ (s.lane n).owner = .spill p) :
    s.receiversReady n = (((s.sendRequests n).reportRx n).setLane n { s.lane n with mode := .ready }).laneUp n := by
  unfold State.receiversReady
  rw [if_pos hmode]
  rcases howner with h | h <;> simp only [h]

theorem State.receiversReady_stitch {k : Nat} (howner : (s.lane n).owner = .stitch k) :
    let s1 := ((s.sendRequests n).reportRx n).setLane n { s.lane n with mode := .ready }
    s.receiversReady n = if (s.lane n).loop = 3 ∨ (s.lane n).loop = 4 then s1.enterLoopback n (s.lane n).loop
      else s1.sendLaneAdd k (n - (s1.stfLanes k).1) := by
  unfold State.receiversReady
  rw [if_pos hmode]
  simp only [howner]

theorem State.receiversReady_test (howner : (s.lane n).owner = .test) :
    s.receiversReady n =
      (((s.sendRequests n).reportRx n).setLane n { s.lane n with mode := .ready }).setLane n { s.lane n with mode := .test } := by
  unfold State.receiversReady
  rw [if_pos hmode]
  simp only [howner]

end

/-- What a lane in each state answers to the commands of its training. -/
theorem exec_laneTraining {s : State} {n : Nat} (hclk : s.clocked = true) :
    let l := s.lane n
    (l.mode = .send ∨ l.mode = .silentWait → l.adapts = false →
      exec (.trainingFrame n) s = .next (s.setLane n { l with mode := .train, noPartner := false, backoff := 1, sigDet := true, cdrLock := true })) ∧
    (∀ c : Instr, (l.mode = .send ∧ c = .partnerWaitExpiry n ∨ l.mode = .adapt ∧ c = .adaptTimeout n) →
      exec c s = .next ((s.setLane n { l with mode := .silentWait, noPartner := true, sigDet := false, cdrLock := false }).laneEvent n 2)) ∧
    (l.mode = .silentWait → exec (.backoffExpiry n) s =
      .next (((s.setLane n { l with backoff := min 8 (2 * l.backoff) }).bumpFld (Reg.LN_COUNT n) 7 0 1).enterSend n)) ∧
    (∀ preset tap up, l.mode = .train → exec (.coefficientRequest n preset tap up) s =
      .next ((s.setLane n (l.request preset tap up).1).emit (.laneCtl n (l.request preset tap up).2))) ∧
    (l.mode = .train →
      let s1 := ((s.sendRequests n).reportRx n).setLane n { l with mode := .ready }
      (∀ p, l.owner = .port p ∨ l.owner = .spill p → exec (.receiversReady n) s = .next (s1.laneUp n)) ∧
      (∀ k, l.owner = .stitch k → (l.loop ≠ 3 ∧ l.loop ≠ 4 → exec (.receiversReady n) s = .next (s1.sendLaneAdd k (n - (s1.stfLanes k).1))) ∧
        (l.loop = 3 ∨ l.loop = 4 → exec (.receiversReady n) s = .next (s1.enterLoopback n l.loop))) ∧
      (l.owner = .test → exec (.receiversReady n) s = .next (s1.setLane n { l with mode := .test }))) ∧
    (l.mode = .train → exec (.partnerLost n) s = .next ((((s.sendSomeRequests n).bumpFld (Reg.LN_COUNT n) 23 16 1).laneEvent n 4).enterSend n)) ∧
    (l.mode = .train → exec (.trainLimitExpiry n) s = .next ((((s.sendSomeRequests n).bumpFld (Reg.LN_COUNT n) 15 8 1).laneEvent n 3).enterSend n)) ∧
    (l.mode = .adapt → exec (.cdrLock n) s = .next ((s.reportRx n).laneUp n)) ∧
    (l.mode = .ready ∨ l.mode = .up →
      exec (.lockLoss n) s = .next (((((s.bumpFld (Reg.LN_COUNT n) 31 24 1).laneEvent n 1).ownerLosesLane n)).enterSend n)) := by
  intro l
  have hready : exec (.receiversReady n) s = .next (s.receiversReady n) := exec_of_clocked hclk rfl
  refine ⟨fun hmode htrains => (exec_of_clocked hclk rfl).trans (congrArg _ (State.trainingFrame_hears hmode htrains)),
    fun c h => exec_waitEnds hclk h, fun hmode => ?backoff, fun preset tap up hmode => ?request, fun hmode => ?ready, fun hmode => ?lost,
    fun hmode => ?limit, fun hmode => ?lock, fun hmode => ?loss⟩
  case backoff => exact (exec_of_clocked hclk rfl).trans (congrArg _ (if_pos hmode))
  case request => exact (exec_of_clocked hclk rfl).trans (congrArg _ (if_pos hmode))
  case ready =>
    rw [hready]
    refine ⟨fun p howner => congrArg _ (State.receiversReady_up hmode howner), fun k howner => ⟨fun hloop => ?_, fun hloop => ?_⟩,
      fun howner => congrArg _ (State.receiversReady_test hmode howner)⟩
    · exact congrArg _ ((State.receiversReady_stitch hmode howner).trans (if_neg (not_or.mpr hloop)))
    · exact congrArg _ ((State.receiversReady_stitch hmode howner).trans (if_pos hloop))
  case lost => exact (exec_of_clocked hclk rfl).trans (congrArg _ (if_pos hmode))
  case limit => exact (exec_of_clocked hclk rfl).trans (congrArg _ (if_pos hmode))
  case lock => exact (exec_of_clocked hclk rfl).trans (congrArg _ (if_pos hmode))
  case loss => exact (exec_of_clocked hclk rfl).trans (congrArg _ (if_pos hmode))

/-! ## Retraining -/

section
variable {s : State} {n : Nat} {v : W32}

theorem State.retrain_idle (hv : bitOf v 0 = true) (hready : (s.lane n).mode ≠ .ready) (hup : (s.lane n).mode ≠ .up) :
    s.retrain n v = s.clampAt Reg.LN_CLAMP_COUNT := by
  rw [State.retrain, hv]
  exact if_neg (not_or.mpr ⟨hready, hup⟩)

section
variable (hv : bitOf v 0 = true) (hmode : (s.lane n).mode = .ready ∨ (s.lane n).mode = .up)
include hv hmode

theorem State.retrain_now {p : Nat} (howner : (s.lane n).owner = .port p ∨ (s.lane n).owner = .stitch p) :
    s.retrain n v = (s.ownerLosesLane n).enterSend n := by
  rw [State.retrain, hv]
  refine (if_pos hmode).trans ?_
  rcases howner with h | h <;> rw [h] <;> rfl

theorem State.retrain_waits {k : Nat} (howner : (s.lane n).owner = .spill k) (hidle : s.activityRuns (.laneRetrain k n) = false)
    (hnew : s.activityWaits (.laneRetrain k n) = false) (hheld : s.activityFree (.laneRetrain k n) s.readyFirst = false) :
    s.retrain n v = { s with mm.waiting := s.mm.waiting ++ [Activity.laneRetrain k n] }.setLane n { s.lane n with retrainPending := true } := by
  have hrequest : s.requestActivity (.laneRetrain k n) = ({ s with mm.waiting := s.mm.waiting ++ [Activity.laneRetrain k n] }, false) := by
    rw [State.requestActivity, hidle, hnew, hheld]
    rfl
  rw [State.retrain, hv]
  refine (if_pos hmode).trans ?_
  simp only [howner, hrequest]
  rfl

end

end

/-! ## Entering SEND -/

theorem State.raise_ln (s : State) (ev b : Nat) : (s.raise ev b).ln = s.ln := by
  rw [s.raise_sameButEvents ev b]

theorem State.raise_mm (s : State) (ev b : Nat) : (s.raise ev b).mm = s.mm := by
  rw [s.raise_sameButEvents ev b]

theorem State.settleSynce_ln (s : State) : s.settleSynce.ln = s.ln := by
  unfold State.settleSynce
  dsimp only
  split
  · exact State.raise_ln _ _ _
  · rfl

theorem State.settleSynce_lane (s : State) (n : Nat) : s.settleSynce.lane n = s.lane n := by
  unfold State.lane
  rw [State.settleSynce_ln]

theorem State.settleSynce_mm (s : State) : s.settleSynce.mm = s.mm := by
  unfold State.settleSynce
  dsimp only
  split
  · exact State.raise_mm _ _ _
  · rfl

/-- A lane that is not OFF reads back as it was set. -/
theorem State.lane_setLane_on (s : State) {n : Nat} {l : Lane} (hn : n < 96) (hon : l.mode ≠ .off) : (s.setLane n l).lane n = l := by
  have hlisted : l ≠ {} := fun h => hon (h ▸ rfl)
  unfold State.setLane State.lane
  rw [if_pos hn]
  dsimp only
  rw [mapSet, if_neg hlisted, mapGet_insert, if_pos rfl]

/-- The lane as it enters SEND or ADAPT. -/
def State.laneRestarted (s : State) (n : Nat) : Lane :=
  { s.lane n with mode := if s.laneAdapts n then .adapt else .send, adapts := s.laneAdapts n, sigDet := false, cdrLock := false, sync := false,
                  retrainPending := false }

/-- The state whose LN_TX_TAPS an adapting lane loads. -/
def State.rxCleared (s : State) (n : Nat) : State := (s.wr (Reg.LN_RX_EQ n) 0).wr (Reg.LN_RX_SNR n) 0

theorem Lane.atRate_keeps (l : Lane) (r : Nat) :
    (l.atRate r).mode = l.mode ∧ (l.atRate r).sigDet = l.sigDet ∧ (l.atRate r).cdrLock = l.cdrLock ∧ (l.atRate r).owner = l.owner ∧
      (l.atRate r).backoff = l.backoff := by
  unfold Lane.atRate
  split
  · exact ⟨rfl, rfl, rfl, rfl, rfl⟩
  · exact ⟨rfl, rfl, rfl, rfl, rfl⟩

theorem State.lane_enterSend (s : State) {n : Nat} (hn : n < 96) : (s.enterSend n).lane n =
    if s.laneAdapts n then (s.rxCleared n).loadTaps n (s.laneRestarted n) else (s.laneRestarted n).preset 1 := by
  have hmode : (if s.laneAdapts n then (s.rxCleared n).loadTaps n (s.laneRestarted n) else (s.laneRestarted n).preset 1).mode =
      if s.laneAdapts n then .adapt else .send := by
    cases ha : s.laneAdapts n with
    | true => exact (Lane.atRate_keeps _ _).1.trans (if_pos ha)
    | false => exact if_neg (Bool.eq_false_iff.mp ha)
  have hon : (if s.laneAdapts n then (s.rxCleared n).loadTaps n (s.laneRestarted n) else (s.laneRestarted n).preset 1).mode ≠ .off := by
    rw [hmode]
    split <;> decide
  exact (State.settleSynce_lane _ n).trans (State.lane_setLane_on (s.rxCleared n) hn hon)

theorem State.enterSend_lane (s : State) {n : Nat} (hn : n < 96) :
    let t := s.enterSend n
    ((t.lane n).mode = if s.laneAdapts n then .adapt else .send) ∧
    (t.lane n).sigDet = false ∧ (t.lane n).cdrLock = false ∧ (t.lane n).owner = (s.lane n).owner ∧ (t.lane n).backoff = (s.lane n).backoff ∧
    (s.laneAdapts n = false → (t.lane n).cm3 = 0 ∧ (t.lane n).cm2 = 0 ∧ (t.lane n).cm1 = 0 ∧ (t.lane n).cp1 = 0 ∧ (t.lane n).c0 = 64) := by
  dsimp only
  rw [State.lane_enterSend s hn]
  cases ha : s.laneAdapts n with
  | true =>
    obtain ⟨hmode, hsig, hcdr, howner, hbackoff⟩ := Lane.atRate_keeps { s.laneRestarted n with
      cm3 := (s.rxCleared n).fld (Reg.LN_TX_TAPS n) 10 8, cm2 := (s.rxCleared n).fld (Reg.LN_TX_TAPS n) 14 11,
      cm1 := (s.rxCleared n).fld (Reg.LN_TX_TAPS n) 19 15, cp1 := (s.rxCleared n).fld (Reg.LN_TX_TAPS n) 24 20 } (s.laneRestarted n).rate
    exact ⟨hmode.trans (if_pos ha), hsig, hcdr, howner, hbackoff, fun h => nomatch h⟩
  | false => exact ⟨if_neg (Bool.eq_false_iff.mp ha), rfl, rfl, rfl, rfl, fun _ => ⟨rfl, rfl, rfl, rfl, rfl⟩⟩

theorem State.ownerLosesLane_port {s : State} {n p : Nat} (howner : (s.lane n).owner = .port p) (hup : (s.port p).up = true) :
    let t := (s.setPort p { up := false, fault := some n, cpriSync := false }).raise Reg.FH_EVENT 0
    s.ownerLosesLane n = if s.gatewayPort = some p then t.migPaths else t := by
  unfold State.ownerLosesLane
  simp only [howner]
  exact if_pos hup

/-- A lane given up has no retraining that waits. -/
theorem State.disownLane_noRetrain (s : State) (n k m : Nat) (h : .laneRetrain k m ∈ (s.disownLane n).mm.waiting) : m ≠ n := by
  unfold State.disownLane at h
  rw [State.settleSynce_mm] at h
  have hkeeps : ∀ (t : State) (l : Lane), (t.setLane n l).mm = t.mm := by
    intro t l
    unfold State.setLane
    split <;> rfl
  rw [hkeeps] at h
  exact bne_iff_ne.mp (List.mem_filter.mp h).2

/-! ## The obligation -/

/-- Settles O45: a lemma for each command, in the order of the statement. -/
theorem laneTraining : Obligations.LaneTraining := by
  unfold Obligations.LaneTraining
  refine ⟨fun s n hclk => exec_laneTraining hclk, ?retrain, fun s n => State.enterSend_lane s, fun s n p => State.ownerLosesLane_port,
    fun s n k m => State.disownLane_noRetrain s n k m⟩
  intro s n v hn hopen
  have hexec : exec (.retrain n v) s = .next (s.retrain n v) := congrArg _ ((if_pos hn).trans (hostWriteTo_open hopen _))
  rw [hexec]
  refine ⟨fun hv => ?none, fun hv hready hup => congrArg _ (State.retrain_idle hv hready hup), fun hv hmode =>
    ⟨fun p howner => congrArg _ (State.retrain_now hv hmode howner), fun k howner hidle hnew hheld =>
      congrArg _ (State.retrain_waits hv hmode howner hidle hnew hheld)⟩⟩
  rw [State.retrain, hv]
  rfl

end Sys2Proof.Machine
end

section
/-! A loopback on a lane that a stitch link uses (R329). -/

namespace Sys2Proof.Machine

/-- Lane 0 is UP for stitch port 0, whose link has admitted it. -/
def linkedLane : State :=
  { glb.coreReady := true, ln.lanes := [(0, { owner := .stitch 0, mode := .up })], stf.ports := [(0, { active := [0] })] }

/-- The lanes of stitch port 0's link. -/
def linkLanes (r : Res) : List Nat :=
  match r with
  | .next t => (t.stfPort 0).active
  | .fault _ => []
  | .refused _ => []

theorem linkedLane_open : linkedLane.hostOpen (Reg.LN_CFG 0) :=
  ⟨by decide +kernel, rfl, rfl, rfl, .inl rfl, .inl rfl, by decide +kernel⟩

/-- LOOPBACK 1 in LN_CFG. -/
def nearLoopback : W32 := 0x01000000#32

theorem linkLanes_loopbackWrite : linkLanes (exec (.loopbackWrite 0 nearLoopback) linkedLane) = [] := by decide +kernel

/-- Refutes O47: a lane in a link that goes into loopback leaves the link at once (R329). The clause for codes 1 and 2 has the lane enter
the loopback and leaves the link as it was; in `linkedLane` the lane is the link's only one, and the link is lost with it. -/
theorem not_laneTests : ¬ Obligations.LaneTests := by
  intro h
  obtain ⟨hloopback, -⟩ := h
  obtain ⟨-, hnear, -⟩ := hloopback linkedLane 0 nearLoopback (by decide) linkedLane_open rfl (by decide +kernel)
  have hlanes := congrArg linkLanes (hnear (.inl (by decide +kernel)))
  rw [linkLanes_loopbackWrite] at hlanes
  revert hlanes
  decide +kernel

end Sys2Proof.Machine
end

section
/-! Stitch links: frames, lanes and replay (R335, R336, R338 to R340, R349). -/

namespace Sys2Proof.Machine

/-! ## Frames that arrive -/

section
variable {s : State} {k i : Nat} {f : StfFrame} {ok : Bool}

/-- What a frame on an enabled port comes to once its record is offered. -/
theorem exec_stitchFrame (hclk : s.clocked = true) (hk : k < 12) (hen : s.bit (Reg.STF_PORT_CFG k) 31 = true) :
    exec (.stitchFrameReceive k i f ok) s = .next
      (if f.op = 0x36 ∧ f.type = 2 ∧ ok then (s.offerStitch 3 k f (!ok)).laneAdd k i (bitsOf f.arg2 2 0)
      else if ((s.offerStitch 3 k f (!ok)).stfPort k).isUp then (s.offerStitch 3 k f (!ok)).receiveOn (.port k) f ok
      else s.offerStitch 3 k f (!ok)) := by
  have hthis : ¬ (decide (12 ≤ k) || !s.bit (Reg.STF_PORT_CFG k) 31) = true := by
    rw [hen, decide_eq_false (Nat.not_le.mpr hk)]
    exact Bool.false_ne_true
  exact (exec_of_clocked hclk rfl).trans (congrArg _ (if_neg hthis))

/-- A LANE_ADD that its port can take. -/
theorem State.laneAdd_pair {o : State} {j : Nat} (hi : i < (o.stfLanes k).2) (hj : j < (o.stfLanes k).2)
    (hnew : (o.stfPort k).active.contains i = false) :
    let o1 := o.setStfPort k { o.stfPort k with pairs := (o.stfPort k).pairs.filter (fun p => p.1 != i) ++ [(i, j)] }
    o.laneAdd k i j = if (o.lane ((o.stfLanes k).1 + i)).mode == .ready && (o.lane ((o.stfLanes k).1 + i)).owner == .stitch k
        && !(o.stfPort k).pairs.contains (i, j) then o1.sendLaneAdd k i else o1 := by
  have hthis : i < (o.stfLanes k).2 ∧ j < (o.stfLanes k).2 ∧ (!(o.stfPort k).active.contains i) = true := ⟨hi, hj, by rw [hnew]; rfl⟩
  exact if_pos hthis

/-- A frame that failed its CRC is discarded, counted and answered with NAK. -/
theorem State.receiveOn_bad (o : State) (k : Nat) (f : StfFrame) :
    let s1 := (o.setLinkEnd (.port k) { o.linkEnd (.port k) with nak := true }).bumpFld (Reg.STF_PORT_RETRY k) 31 16 1
    o.receiveOn (.port k) f false = ((if s1.stf.dupId then s1
      else s1.transmit (.port k) ((s1.linkEnd (.port k)).answer s1.selfId none)).pumpChan (.port k)).flushMirror := by
  intro s1
  have hiff : ((f.type = 0 ∧ (!true) = true) ∨ s1.stf.dupId = true) = (s1.stf.dupId = true) :=
    propext ⟨fun h => h.elim (fun h => nomatch h.2) id, .inr⟩
  have hreceive : o.receiveOn (.port k) f false = ((if (f.type = 0 ∧ (!true) = true) ∨ s1.stf.dupId = true then s1
      else s1.transmit (.port k) ((s1.linkEnd (.port k)).answer s1.selfId none)).pumpChan (.port k)).flushMirror := rfl
  rw [hreceive]
  by_cases hdup : s1.stf.dupId = true
  · rw [if_pos (Or.inr hdup), if_pos hdup]
  · rw [if_neg fun h => hdup (hiff ▸ h), if_neg hdup]

theorem exec_stitchFrameReceive (hclk : s.clocked = true) (hk : k < 12) (hen : s.bit (Reg.STF_PORT_CFG k) 31 = true) :
    let o := s.offerStitch 3 k f (!ok)
    let m := (o.stfLanes k).1 + i
    (f.op = 0x36 → f.type = 2 → ok = true → i < (o.stfLanes k).2 → bitsOf f.arg2 2 0 < (o.stfLanes k).2 →
        (o.stfPort k).active.contains i = false →
      let o1 := o.setStfPort k { o.stfPort k with pairs := (o.stfPort k).pairs.filter (fun p => p.1 != i) ++ [(i, bitsOf f.arg2 2 0)] }
      ((o.lane m).mode ≠ .ready ∨ (o.lane m).owner ≠ .stitch k ∨ (o.stfPort k).pairs.contains (i, bitsOf f.arg2 2 0) = true →
        exec (.stitchFrameReceive k i f ok) s = .next o1) ∧
      ((o.lane m).mode = .ready → (o.lane m).owner = .stitch k → (o.stfPort k).pairs.contains (i, bitsOf f.arg2 2 0) = false →
        exec (.stitchFrameReceive k i f ok) s = .next (o1.sendLaneAdd k i))) ∧
    (f.op ≠ 0x36 → (o.stfPort k).isUp = true → exec (.stitchFrameReceive k i f ok) s = .next (o.receiveOn (.port k) f ok)) ∧
    (f.op ≠ 0x36 → (o.stfPort k).isUp = true → ok = false →
      let s1 := (o.setLinkEnd (.port k) { o.linkEnd (.port k) with nak := true }).bumpFld (Reg.STF_PORT_RETRY k) 31 16 1
      (s1.stf.dupId = false → exec (.stitchFrameReceive k i f ok) s =
        .next (((s1.transmit (.port k) ((s1.linkEnd (.port k)).answer s1.selfId none)).pumpChan (.port k)).flushMirror)) ∧
      (s1.stf.dupId = true → exec (.stitchFrameReceive k i f ok) s = .next (s1.pumpChan (.port k)).flushMirror)) := by
  intro o m
  have hexec := exec_stitchFrame (i := i) (f := f) (ok := ok) hclk hk hen
  have hother : f.op ≠ 0x36 → (o.stfPort k).isUp = true →
      exec (.stitchFrameReceive k i f ok) s = .next (o.receiveOn (.port k) f ok) :=
    fun hop hup => hexec.trans (congrArg _ ((if_neg fun h => hop h.1).trans (if_pos hup)))
  refine ⟨fun hop htype hok hi hj hnew => ?add, hother, fun hop hup hok => ?bad⟩
  case add =>
    have hadd : exec (.stitchFrameReceive k i f ok) s = .next (o.laneAdd k i (bitsOf f.arg2 2 0)) :=
      hexec.trans (congrArg _ (if_pos ⟨hop, htype, hok⟩))
    rw [hadd, State.laneAdd_pair hi hj hnew]
    refine ⟨fun hquiet => congrArg _ (if_neg ?_), fun hready howner hpair => congrArg _ (if_pos ?_)⟩
    · intro h
      obtain ⟨h, hpair⟩ := Bool.and_eq_true_iff.mp h
      obtain ⟨hready, howner⟩ := Bool.and_eq_true_iff.mp h
      rcases hquiet with hq | hq | hq
      · exact hq (beq_iff_eq.mp hready)
      · exact hq (beq_iff_eq.mp howner)
      · exact absurd hpair (by rw [hq]; exact Bool.false_ne_true)
    · rw [show (o.lane ((o.stfLanes k).1 + i)).mode = .ready from hready, show (o.lane ((o.stfLanes k).1 + i)).owner = .stitch k from howner,
        hpair, beq_self_eq_true, beq_self_eq_true]
      rfl
  case bad =>
    have hbad := hother hop hup
    rw [hok] at hbad ⊢
    intro s1
    have hanswer : exec (.stitchFrameReceive k i f false) s = .next (((if s1.stf.dupId then s1
        else s1.transmit (.port k) ((s1.linkEnd (.port k)).answer s1.selfId none)).pumpChan (.port k)).flushMirror) := by
      subst hok
      exact hbad.trans (congrArg _ (State.receiveOn_bad o k f))
    rw [hanswer]
    exact ⟨fun hdup => by rw [hdup]; rfl, fun hdup => by rw [hdup]; rfl⟩

end

/-! ## Replay and HELLO -/

theorem exec_replayTimeout {s : State} {k : Nat} (hclk : s.clocked = true) (hk : k < 12) (hup : (s.stfPort k).isUp = true)
    (hheld : (s.stfPort k).link.held ≠ []) :
    exec (.replayTimeout k) s = .next
      (if 8 ≤ ((s.resend (.port k)).stfPort k).link.resends then (s.resend (.port k)).stfLinkDown k else s.resend (.port k)) := by
  have hthis : ((s.stfPort k).isUp && !(s.stfPort k).link.held.isEmpty) = true := by
    rw [hup, List.isEmpty_eq_false_iff.mpr hheld]
    rfl
  exact (exec_of_clocked hclk rfl).trans (congrArg _ ((if_pos hk).trans (if_pos hthis)))

theorem State.hello_up {s : State} {k : Nat} (hk : k < 12) (hup : (s.stfPort k).isUp = true) : s.hello k =
    if !s.greets then s.transmit (.port k) ((s.stfPort k).link.answer s.selfId none)
    else s.stfSend (.port k) { type := 2, cls := 2, op := 0x30, src := s.selfId, arg := Config.serial,
                               arg2 := BitVec.ofNat 32 (b2n s.stf.mapped + 2 * b2n s.stf.dupId) } := by
  have hthis : ¬ (12 ≤ k ∨ (!(s.stfPort k).isUp) = true) := by
    rw [hup]
    exact fun h => h.elim (Nat.not_le.mpr hk) Bool.false_ne_true
  exact if_neg hthis

theorem exec_replay {s : State} {k : Nat} (hclk : s.clocked = true) (hk : k < 12) (hup : (s.stfPort k).isUp = true) :
    ((s.stfPort k).link.held ≠ [] →
      ((s.resend (.port k)).stfPort k).link.resends < 8 → exec (.replayTimeout k) s = .next (s.resend (.port k))) ∧
    ((s.stfPort k).link.held ≠ [] →
      8 ≤ ((s.resend (.port k)).stfPort k).link.resends → exec (.replayTimeout k) s = .next ((s.resend (.port k)).stfLinkDown k)) ∧
    (s.greets = true → exec (.hello k) s = .next (s.stfSend (.port k)
      { type := 2, cls := 2, op := 0x30, src := s.selfId, arg := Config.serial, arg2 := BitVec.ofNat 32 (b2n s.stf.mapped + 2 * b2n s.stf.dupId) })) ∧
    (s.greets = false →
      exec (.hello k) s = .next (s.transmit (.port k) ((s.stfPort k).link.answer s.selfId none))) := by
  have hhello : exec (.hello k) s = .next (s.hello k) := exec_of_clocked hclk rfl
  rw [hhello, State.hello_up hk hup]
  refine ⟨fun hheld hfew => (exec_replayTimeout hclk hk hup hheld).trans (congrArg _ (if_neg (Nat.not_le.mpr hfew))),
    fun hheld hmany => (exec_replayTimeout hclk hk hup hheld).trans (congrArg _ (if_pos hmany)), fun hgreets => ?_, fun hgreets => ?_⟩
  · rw [hgreets]
    rfl
  · rw [hgreets]
    rfl

/-! ## The lanes of a link -/

theorem exec_laneAdmit {s : State} {k i j : Nat} (hclk : s.clocked = true) (hk : k < 12) :
    let x := s.stfPort k
    let n := (s.stfLanes k).1 + i
    x.pairs.find? (·.1 == i) = some (i, j) → (s.lane n).mode = .ready → (s.lane n).owner = .stitch k → x.dropping = [] →
      x.active.contains i = false → x.agrees (s.stfLanes k).2 i j = true →
    (x.active ≠ [] → exec (.laneAdmit k i) s = .next ((s.setStfPort k { x with active := insertNat i x.active }).laneUp n)) ∧
    (x.active = [] →
      let s1 := (s.setStfPort k { x with active := [i], reversed := j != i }).laneUp n
      exec (.laneAdmit k i) s = .next ((s1.sendHeld (.port k)).pumpChan (.port k))) := by
  intro x n hpair hready howner hstays hnew hagrees
  have hexec : exec (.laneAdmit k i) s = .next (s.laneAdmit k i) := exec_of_clocked hclk rfl
  have hthis : ¬ (decide (12 ≤ k) || (s.lane n).mode != .ready || (s.lane n).owner != .stitch k || !x.dropping.isEmpty || x.active.contains i
        || !x.agrees (s.stfLanes k).2 i j) = true := by
    rw [decide_eq_false (Nat.not_le.mpr hk), hready, howner, hstays, hnew, hagrees, bne_self_eq_false, bne_self_eq_false]
    exact Bool.false_ne_true
  have hadmit : s.laneAdmit k i =
      (if x.active.isEmpty then
        (((s.setStfPort k { x with active := insertNat i x.active, reversed := if x.active.isEmpty then j != i else x.reversed }).laneUp n).sendHeld
          (.port k)).pumpChan (.port k)
      else (s.setStfPort k { x with active := insertNat i x.active, reversed := if x.active.isEmpty then j != i else x.reversed }).laneUp n) := by
    unfold State.laneAdmit
    simp only [show (s.stfPort k).pairs.find? (·.1 == i) = some (i, j) from hpair]
    exact if_neg hthis
  rw [hexec, hadmit]
  refine ⟨fun hsome => ?further, fun hnone => ?first⟩
  case further =>
    have hlisted : ¬ x.active.isEmpty = true := by rwa [List.isEmpty_iff]
    rw [if_neg hlisted, if_neg hlisted]
  case first =>
    have hempty : x.active.isEmpty = true := List.isEmpty_iff.mpr hnone
    have hinsert : insertNat i x.active = [i] := by
      rw [hnone]
      rfl
    rw [if_pos hempty, if_pos hempty, hinsert]

theorem exec_laneDrop {s : State} {k : Nat} (hclk : s.clocked = true) (hdrops : (s.stfPort k).dropping ≠ []) :
    let x := s.stfPort k
    let a := x.active.filter (fun i => !x.dropping.contains i)
    let s1 := (s.setStfPort k { x with active := a, dropping := x.dropping.filter (fun i => !x.dropping.contains i), peer := if a.isEmpty then none else x.peer }).raise Reg.STF_EVENT 1
    (a = [] → exec (.laneDrop k) s = .next (s1.linkLost k)) ∧ (a ≠ [] → exec (.laneDrop k) s = .next s1) := by
  intro x a s1
  have hdrop : exec (.laneDrop k) s = .next (s.laneDrop k) := exec_of_clocked hclk rfl
  have hexec : exec (.laneDrop k) s = .next (s.dropLanes k x.dropping) :=
    hdrop.trans (congrArg _ (if_neg (by rwa [List.isEmpty_iff])))
  exact ⟨fun hnone => hexec.trans (congrArg _ (if_pos (List.isEmpty_iff.mpr hnone))),
    fun hsome => hexec.trans (congrArg _ (if_neg (by rwa [List.isEmpty_iff])))⟩

theorem State.linkLost_member {s : State} {k : Nat} (hbest : s.stf.bestPort ≠ some k) : s.linkLost k =
    (if s.sendJoin.parentPort.isNone && s.sendJoin.stf.root != some s.sendJoin.selfMember then s.sendJoin.timeUnlock else s.sendJoin).migPaths := by
  unfold State.linkLost
  rw [if_neg hbest]

/-! ## The obligation -/

/-- Settles O48: a lemma for each command, in the order of the statement. -/
theorem stitchLinks : Obligations.StitchLinks := by
  unfold Obligations.StitchLinks
  exact ⟨fun s k i f ok hclk hk hen => exec_stitchFrameReceive hclk hk hen, fun s k hclk hk hup => exec_replay hclk hk hup,
    fun s k i j hclk hk => exec_laneAdmit hclk hk, fun _ _ => rfl, fun s k hclk hdrops => exec_laneDrop hclk hdrops,
    fun s k hbest => State.linkLost_member hbest⟩

end Sys2Proof.Machine
end

section
/-! What leaves the module's ID as it is: reading module memory, and sending and taking frames of the stitch fabric. -/

namespace Sys2Proof.Machine

/-- STF_ID holds the same word in both states. -/
def SameId (s t : State) : Prop := t.rd Reg.STF_ID = s.rd Reg.STF_ID

theorem SameId.selfId_eq {s t : State} (h : SameId s t) : t.selfId = s.selfId := by
  unfold State.selfId State.fld
  rw [h]

theorem SameId.of_regs_eq {s t : State} (h : t.regs = s.regs) : SameId s t := by
  unfold SameId State.rd
  rw [h]

theorem SameId.trans {s t u : State} (h : SameId s t) (h' : SameId t u) : SameId s u := Eq.trans h' h

theorem SameId.ite {s a b : State} {p : Prop} [Decidable p] (ha : SameId s a) (hb : SameId s b) : SameId s (if p then a else b) := by
  split
  · exact ha
  · exact hb

theorem SameId.foldl {α : Type} {f : State → α → State} (h : ∀ s a, SameId s (f s a)) (l : List α) : ∀ s, SameId s (l.foldl f s) := by
  induction l with
  | nil => exact fun _ => rfl
  | cons a r ih => exact fun s => (h s a).trans (ih (f s a))

theorem sameId_wr (s : State) {a : Nat} (v : W32) (h : Reg.STF_ID ≠ a) : SameId s (s.wr a v) := State.rd_wr_ne s v h

theorem sameId_bump (s : State) {a : Nat} (h : Reg.STF_ID ≠ a) : SameId s (s.bump a) := State.rd_bumpFld_ne s _ _ _ h

/-! ## Interrupts and the log -/

theorem sameId_irqStamp (s : State) (v : Nat) : SameId s (s.irqStamp v) := by
  have haddr : Reg.TB_IRQ_STAMP v = 0xF01000 + v * 0x10 := rfl
  have hcount : Reg.TB_IRQ_STAMP_COUNT v = 0xF0100C + v * 0x10 := rfl
  have hid : Reg.STF_ID = 0xE00004 := rfl
  have htriple : SameId s (s.wrTriple (Reg.TB_IRQ_STAMP v) s.tb.time16) :=
    ((sameId_wr s _ (by omega)).trans (sameId_wr _ _ (by omega))).trans (sameId_wr _ _ (by omega))
  exact htriple.trans (sameId_wr _ _ (by omega))

theorem sameId_log (s : State) (type sev : Nat) (x : BitVec 128) : SameId s (s.log type sev x) := rfl

theorem sameId_deliverVector (s : State) (q v : Nat) : SameId s (s.deliverVector q v) := by
  have hdrop : Reg.STF_ID ≠ Reg.HP_DROP_COUNT := by decide
  unfold State.deliverVector
  refine SameId.ite ((sameId_bump s hdrop).trans (sameId_log _ _ _ _)) (SameId.ite (sameId_bump s hdrop)
    (SameId.ite (SameId.ite rfl rfl) (SameId.ite ?_ (sameId_irqStamp s v))))
  exact SameId.ite rfl rfl

theorem sameId_dropEvent (s : State) : SameId s s.dropEvent := by
  have hset : SameId s (s.setBit Reg.HP_EVENT 3 true) := sameId_wr s _ (by decide)
  exact SameId.ite (hset.trans (sameId_deliverVector _ _ _)) hset

theorem sameId_assertVector (s : State) (v : Nat) : SameId s (s.assertVector v) :=
  SameId.ite ((sameId_deliverVector s _ _).trans (sameId_dropEvent _)) (sameId_deliverVector s _ _)

theorem sameId_raise (s : State) {ev : Nat} (b : Nat) (h : Reg.STF_ID ≠ ev) : SameId s (s.raise ev b) := by
  have hset := sameId_wr s (s.rd ev ||| BitVec.ofNat 32 (2 ^ b)) h
  exact SameId.ite hset (hset.trans (SameId.ite rfl (sameId_assertVector _ _)))

/-! ## Reading module memory -/

theorem sameId_corrected (s : State) (c p : Nat) : SameId s (s.corrected c p) := by
  have haddr : Reg.MEM_CH_CE c = 0x1101004 + c * 0x20 := rfl
  have hid : Reg.STF_ID = 0xE00004 := rfl
  have hcount : SameId s ((s.setMarks p 0).bump (Reg.MEM_CH_CE c)) := sameId_bump (s.setMarks p 0) (by omega)
  exact SameId.ite (hcount.trans (sameId_raise _ _ (by decide))) hcount

theorem sameId_uncorrectable (s : State) (requester c o a : Nat) : SameId s (s.uncorrectable requester c o a) := by
  have haddr : Reg.MEM_CH_UE c = 0x1101008 + c * 0x20 := rfl
  have hid : Reg.STF_ID = 0xE00004 := rfl
  have hlatch : ∀ (t : State) (lo hi : W32), SameId t ((t.wr Reg.MEM_UE_ADDR_LO lo).wr Reg.MEM_UE_ADDR_HI hi) := fun t lo hi =>
    (sameId_wr t lo (by decide)).trans (sameId_wr _ hi (by decide))
  have hcount := (sameId_bump s (a := Reg.MEM_CH_UE c) (by omega)).trans (sameId_raise _ 0 (show Reg.STF_ID ≠ Reg.MEM_EVENT by decide))
  unfold State.uncorrectable
  exact hcount.trans (SameId.trans (SameId.ite rfl (hlatch _ _ _)) (sameId_log _ _ _ _))

theorem sameId_checkWord (s : State) (requester a : Nat) : SameId s (s.checkWord requester a).1 := by
  unfold State.checkWord
  dsimp only
  split
  · rfl
  · split
    · exact sameId_corrected s _ _
    · exact sameId_uncorrectable s _ _ _ _

theorem setBytes_regs (l : List Byte) : ∀ (s : State) (a : Nat), (s.setBytes a l).regs = s.regs := by
  induction l with
  | nil => exact fun _ _ => rfl
  | cons b r ih => exact fun s a => ih (s.setByte a b) (a + 1)

theorem sameId_fillWord (s : State) (pattern : W64) (a : Nat) : SameId s (s.fillWord pattern a) :=
  SameId.of_regs_eq (setBytes_regs _ s _)

theorem sameId_fillThrough (s : State) (f : Fill) (c o : Nat) : SameId s (s.fillThrough f c o).1 := by
  unfold State.fillThrough
  exact SameId.foldl (fun t _ => SameId.ite (sameId_fillWord t _ _) rfl) _ s

theorem sameId_meetFills (a : Nat) (l : List Fill) : ∀ (s : State) (done : List Fill), SameId s (s.meetFills a done l) := by
  induction l with
  | nil => exact fun _ _ => rfl
  | cons f r ih =>
    intro s done
    unfold State.meetFills
    refine SameId.ite (SameId.ite ?_ (ih _ _)) (ih _ _)
    exact SameId.trans (sameId_fillThrough s.drawn f _ _) (ih _ _)

theorem sameId_setLeaf (s : State) (n : Nat) (l : Leaf) : SameId s (s.setLeaf n l) := SameId.ite rfl rfl

theorem sameId_noteExternal (s : State) (a n : Nat) : SameId s (s.noteExternal a n) := by
  unfold State.noteExternal
  split
  · exact SameId.ite (sameId_setLeaf s _ _) rfl
  · rfl

theorem sameId_setCluster (s : State) (d : Nat) (c : Cluster) : SameId s (s.setCluster d c) := SameId.ite rfl rfl

theorem sameId_wakeTarget (s : State) (a : Nat) : SameId s (s.wakeTarget a) := by
  unfold State.wakeTarget
  split
  · exact SameId.ite (sameId_setCluster s _ _) (SameId.ite (sameId_setCluster s _ _) rfl)
  · rfl

theorem sameId_refusal {s t : State} {fn a : Nat} (h : s.refusal fn a = some t) : SameId s t := by
  have hreject : ∀ n, SameId s (s.imReject n) := fun n =>
    have haddr : Reg.QUI_EXT_REJECT (n / 8) = 0x600008 + n / 8 * 0x10000 := rfl
    have hid : Reg.STF_ID = 0xE00004 := rfl
    sameId_bump s (by omega)
  have hself : ∀ {u : State}, some s = some u → SameId s u := fun h => Option.some.inj h ▸ rfl
  unfold State.refusal at h
  split at h
  case h_1 =>
    split at h
    · cases h
    · exact hself h
  case h_2 =>
    split at h
    · exact hself h
    · cases h
  case h_3 n _ =>
    split at h
    · exact hself h
    · split at h
      · cases h
      · exact Option.some.inj h ▸ hreject n
  case h_4 => cases h
  case h_5 =>
    split at h
    · exact hself h
    · cases h
  case h_6 => exact hself h

theorem sameId_readPiece (s : State) (requester fn a n : Nat) (host : List Byte) : SameId s (s.readPiece requester fn a n host).1 := by
  unfold State.readPiece
  split
  case h_1 _ hrefused => exact sameId_refusal hrefused
  case h_2 =>
    split
    · exact (sameId_meetFills a _ s []).trans (sameId_checkWord _ requester a)
    · rfl
    · exact (sameId_wakeTarget s a).trans (sameId_noteExternal _ a n)

theorem sameId_readPieces (requester fn : Nat) (l : List (Nat × Nat)) : ∀ (s : State) (host acc : List Byte),
    SameId s (s.readPieces requester fn host acc l).1 := by
  induction l with
  | nil => exact fun _ _ _ => rfl
  | cons p r ih =>
    intro s host acc
    obtain ⟨a, n⟩ := p
    have hpiece := sameId_readPiece s requester fn a n host
    unfold State.readPieces
    dsimp only
    split
    · exact hpiece
    · exact hpiece.trans (ih _ _ _)

theorem sameId_readModule (s : State) (requester a n : Nat) : SameId s (s.readModule requester a n).1 := by
  unfold State.readModule
  split
  · rfl
  · exact sameId_readPieces requester 0 _ s [] []

theorem sameId_readList (n : Nat) : ∀ (s : State) (a : Nat) (acc : List MigRegion) (cl : Bool), SameId s (s.readList n a acc cl).1 := by
  induction n with
  | zero => exact fun _ _ _ _ => rfl
  | succ k ih =>
    intro s a acc cl
    have hentry := sameId_readModule s stitchRequester a 32
    unfold State.readList
    dsimp only
    split
    · exact hentry
    · exact hentry.trans (ih _ _ _ _)

/-! ## Frames of the stitch fabric -/

theorem sameId_offer (s : State) (c : CapRec) : SameId s (s.offer c) := SameId.ite rfl rfl

theorem sameId_emit (s : State) (o : Out) : SameId s (s.emit o) := rfl

theorem sameId_setPort (s : State) (p : Nat) (x : FhPort) : SameId s (s.setPort p x) := SameId.ite rfl rfl

theorem sameId_sendFrame (s : State) (p : Nat) (body : List Byte) (f : FrameFlow) : SameId s (s.sendFrame p body f) := by
  have haddr : Reg.FH_PORT_TXFR_LO p = 0xC10020 + p * 0x40 := rfl
  have hid : Reg.STF_ID = 0xE00004 := rfl
  have hcount : SameId s (s.bump64 (Reg.FH_PORT_TXFR_LO p) 1) := State.rd_bump64_ne s 1 (by omega) (by omega)
  unfold State.sendFrame State.sendRaw State.offerFrame
  dsimp only
  generalize s.bump64 (Reg.FH_PORT_TXFR_LO p) 1 = t at hcount ⊢
  exact hcount.trans ((sameId_emit t _).trans ((sameId_setPort _ p _).trans (sameId_offer _ _)))

theorem sameId_sendEth (s : State) (mac : Nat) (f : StfFrame) : SameId s (s.sendEth mac f) := by
  unfold State.sendEth
  split
  · exact SameId.ite (sameId_sendFrame s _ _ _) rfl
  · rfl

theorem sameId_transmit (s : State) (c : StfChan) (f : StfFrame) : SameId s (s.transmit c f) := by
  cases c with
  | port k => exact sameId_offer _ _
  | gateway m => exact sameId_sendEth s m f

theorem sameId_setLinkEnd (s : State) (c : StfChan) (l : LinkEnd) : SameId s (s.setLinkEnd c l) := by
  cases c with
  | port k => exact SameId.ite rfl rfl
  | gateway m => rfl

theorem sameId_pumpChan (s : State) (c : StfChan) : SameId s (s.pumpChan c) :=
  SameId.ite ((sameId_setLinkEnd s c _).trans (SameId.foldl (fun t f => sameId_transmit t c f) _ _)) rfl

theorem sameId_stfSend (s : State) (c : StfChan) (f : StfFrame) : SameId s (s.stfSend c f) :=
  SameId.ite ((sameId_setLinkEnd s c _).trans (sameId_pumpChan _ c)) rfl

theorem sameId_stfSendTo (s : State) (f : StfFrame) : SameId s (s.stfSendTo f) := by
  unfold State.stfSendTo
  split
  · exact sameId_stfSend s _ _
  · exact sameId_bump s (by decide)

theorem sameId_setCarrier (s : State) (c : Nat) (x : Carrier) : SameId s (s.setCarrier c x) := SameId.ite rfl rfl

theorem sameId_takeSetup (s : State) (f : StfFrame) : SameId s (s.takeSetup f) :=
  SameId.ite (sameId_setCarrier s _ _) (SameId.ite (sameId_setCarrier s _ _) rfl)

theorem sameId_sendMoulds (s : State) (dst dcar : Nat) (c : Carrier) (rs : List MigRegion) : SameId s (s.sendMoulds dst dcar c rs) :=
  SameId.ite (SameId.foldl sameId_takeSetup _ s) (SameId.foldl sameId_stfSendTo _ s)

end Sys2Proof.Machine
end

section
/-! Stitch services: bindings, time, broadcasts, discovery and migration (R342 to R357). -/

namespace Sys2Proof.Machine

/-! ## Bindings -/

section
variable {s : State} {d : Desc}

theorem State.stfBind_makes (hkind : d.fld 0x10 31 30 = 1 ∨ d.fld 0x10 31 30 = 2) (hqueue : (s.queue (d.fld 0x14 15 0)).storable = true)
    (hoff : (s.binding (d.fld 0x10 11 0)).kind = 0) :
    s.stfBind d = ((((s.wr (Reg.STF_BIND_SENT (d.fld 0x10 11 0)) 0).wr (Reg.STF_BIND_DROP (d.fld 0x10 11 0)) 0).setQueue (d.fld 0x14 15 0)
      ((s.queue (d.fld 0x14 15 0)).releaseAll stREFUSED)).setBinding (d.fld 0x10 11 0)
      { kind := d.fld 0x10 31 30, src := d.fld 0x14 15 0, dst := d.fld 0x18 17 0, dstQid := d.fld 0x1C 15 0,
        inFlight := (s.binding (d.fld 0x10 11 0)).inFlight, words := (s.binding (d.fld 0x10 11 0)).words }).complete (d.ref false) stOK 0 := by
  have hknown : ¬ d.fld 0x10 31 30 = 3 := by omega
  have hsome : ¬ d.fld 0x10 31 30 = 0 := by omega
  unfold State.stfBind
  dsimp only
  rw [decide_eq_false hknown, State.clampDesc_false, if_neg hknown, hqueue, if_neg hsome, hoff]
  rfl

theorem State.stfBind_bound (hkind : d.fld 0x10 31 30 = 1 ∨ d.fld 0x10 31 30 = 2) (hon : (s.binding (d.fld 0x10 11 0)).kind ≠ 0) :
    s.stfBind d = s.complete (d.ref false) stREFUSED 0 := by
  have hknown : ¬ d.fld 0x10 31 30 = 3 := by omega
  have hsome : ¬ d.fld 0x10 31 30 = 0 := by omega
  unfold State.stfBind
  dsimp only
  rw [decide_eq_false hknown, State.clampDesc_false, if_neg hknown, if_neg hsome, if_pos (bne_iff_ne.mpr hon)]
  exact ite_self _

theorem State.stfBind_noQueue (hkind : d.fld 0x10 31 30 ≠ 3) (hqueue : (s.queue (d.fld 0x14 15 0)).storable = false) :
    s.stfBind d = s.complete (d.ref false) stREFUSED 0 := by
  unfold State.stfBind
  dsimp only
  rw [decide_eq_false hkind, State.clampDesc_false, hqueue]
  rfl

theorem State.stfBind_off (hkind : d.fld 0x10 31 30 = 0) (hqueue : (s.queue (d.fld 0x14 15 0)).storable = true)
    (hoff : (s.binding (d.fld 0x10 11 0)).kind = 0) :
    s.stfBind d = (s.setBinding (d.fld 0x10 11 0) ({ s.binding (d.fld 0x10 11 0) with kind := 0 } : Binding).settle).complete
      (d.ref false) stOK 0 := by
  unfold State.stfBind
  dsimp only
  rw [hkind, decide_eq_false (show ¬ (0 : Nat) = 3 by decide), State.clampDesc_false, hqueue, hoff]
  rfl

end

section
variable {s s1 : State} {b : Nat} {i : QItem} (hkind : (s.binding b).kind = 1) (hflight : (s.binding b).inFlight < 64)
  (hfabric : s.fabricOn = true) (hread : s.readQueue (s.binding b).src (.stitch b) = (s1, .item i))
  (hway : s.inMap (s.binding b).dst = false ∨ s.reachable (s.binding b).dst = true)
include hkind hflight hfabric hread hway

/-- A QUEUE binding that may send takes one item of its queue. -/
theorem State.bindItemSend_takes : s.bindItemSend b =
    if !s1.inMap (s.binding b).dst then s1.unreachable
    else if (s.binding b).dst = (s1.bump (Reg.STF_BIND_SENT b)).selfId then
      (if ((s1.bump (Reg.STF_BIND_SENT b)).pushItem (s.binding b).dstQid
          (remoteProducer (s1.bump (Reg.STF_BIND_SENT b)).selfId b) i.prio i.tag i.words).2 = stOK then
        ((s1.bump (Reg.STF_BIND_SENT b)).pushItem (s.binding b).dstQid
          (remoteProducer (s1.bump (Reg.STF_BIND_SENT b)).selfId b) i.prio i.tag i.words).1
      else (((s1.bump (Reg.STF_BIND_SENT b)).pushItem (s.binding b).dstQid
          (remoteProducer (s1.bump (Reg.STF_BIND_SENT b)).selfId b) i.prio i.tag i.words).1.bump (Reg.STF_BIND_DROP b)).raise Reg.STF_EVENT 9)
    else (qitemFrames b (s.binding b) i).foldl State.stfSendTo
      ((s1.bump (Reg.STF_BIND_SENT b)).setBinding b { s.binding b with inFlight := (s.binding b).inFlight + 1 }) := by
  have hlost : (s.inMap (s.binding b).dst && !s.reachable (s.binding b).dst) = false := by
    rcases hway with h | h <;> rw [h]
    · rfl
    · exact Bool.and_false _
  have hthis : ¬ ((s.binding b).kind != 1 || decide (64 ≤ (s.binding b).inFlight) || !s.fabricOn
      || (s.inMap (s.binding b).dst && !s.reachable (s.binding b).dst)) = true := by
    rw [hkind, hfabric, hlost, decide_eq_false (Nat.not_le.mpr hflight)]
    exact Bool.false_ne_true
  unfold State.bindItemSend
  dsimp only
  rw [if_neg hthis, hread]

theorem exec_bindItemSend (hclk : s.clocked = true) :
    let x := s.binding b
    (s1.inMap x.dst = false → exec (.bindItemSend b) s = .next (s1.bump Reg.STF_UNREACHABLE)) ∧
    (s1.inMap x.dst = true →
      let s2 := s1.bump (Reg.STF_BIND_SENT b)
      (x.dst ≠ s2.selfId → exec (.bindItemSend b) s =
        .next ((qitemFrames b x i).foldl State.stfSendTo (s2.setBinding b { x with inFlight := x.inFlight + 1 }))) ∧
      (x.dst = s2.selfId →
        let y := s2.pushItem x.dstQid (remoteProducer s2.selfId b) i.prio i.tag i.words
        (y.2 = stOK → exec (.bindItemSend b) s = .next y.1) ∧
        (y.2 ≠ stOK → exec (.bindItemSend b) s = .next ((y.1.bump (Reg.STF_BIND_DROP b)).raise Reg.STF_EVENT 9)))) := by
  intro x
  have hexec : exec (.bindItemSend b) s = .next (s.bindItemSend b) := exec_of_clocked hclk rfl
  rw [hexec, State.bindItemSend_takes hkind hflight hfabric hread hway]
  refine ⟨fun hmap => ?unknown, fun hmap => ⟨fun hdst => ?away, fun hdst => ⟨fun hok => ?taken, fun hbad => ?dropped⟩⟩⟩
  case unknown =>
    rw [hmap]
    rfl
  case away =>
    rw [hmap]
    exact congrArg _ (if_neg hdst)
  case taken =>
    rw [hmap]
    exact congrArg _ ((if_pos hdst).trans (if_pos hok))
  case dropped =>
    rw [hmap]
    exact congrArg _ ((if_pos hdst).trans (if_neg hbad))

end

theorem State.bindEventSend_next {s : State} {b : Nat} {w : QWord} {r : List QWord} (hfabric : s.fabricOn = true)
    (hwords : (s.binding b).words = w :: r) : s.bindEventSend b =
      ((s.setBinding b ({ s.binding b with words := r } : Binding).settle).bump (Reg.STF_BIND_SENT b)).sendEvent w := by
  unfold State.bindEventSend
  simp only [hfabric, hwords]
  rfl

/-! ## Time -/

theorem State.tsyncExchange_up {s : State} {k : Nat} (t1 t2 t3 t4 : Int) (hk : k < 12) (hup : (s.stfPort k).isUp = true)
    (hown : (s.stfPort k).foreign = false) (hfabric : s.fabricOn = true) :
    let s1 := (s.stfSend (.port k) (tsyncFrame s.selfId false (shortStampOf t1))).wr (Reg.STF_PORT_DELAY k) (BitVec.ofNat 32 (unsignedOf 32 (((t2 - t1) + (t4 - t3)) / 2)))
    s.tsyncExchange k t1 t2 t3 t4 = if s1.parentPort = some k then s1.steer (((t2 - t1) - (t4 - t3)) / 2) else s1 := by
  have hthis : ¬ (decide (12 ≤ k) || !(s.stfPort k).isUp || (s.stfPort k).foreign || !s.fabricOn) = true := by
    rw [decide_eq_false (Nat.not_le.mpr hk), hup, hown, hfabric]
    exact Bool.false_ne_true
  exact if_neg hthis

/-! ## Broadcasts -/

theorem State.bcastLead_legal (s : State) {v : Nat} (hmin : 20 ≤ v) (hmax : v ≤ 100000) : s.bcastLead v = (v, false) := by
  unfold State.bcastLead
  rw [if_neg (by omega), if_neg (by omega), if_neg (by omega)]

theorem State.stfBcast_eq {s : State} {d : Desc} (trigger : Bool) (hmin : 20 ≤ d.fld 0x10 16 0) (hmax : d.fld 0x10 16 0 ≤ 100000) :
    let t := s.tb.time16 + (d.fld 0x10 16 0 * 65536000 : Nat)
    let b : Broadcast := ⟨trigger, d.fld 0x10 18 17, t, shortStampOf t, s.selfId, if trigger then s.stf.trigSeq else s.stf.bcastSeq⟩
    let s1 : State := if trigger then { s with stf.trigSeq := (s.stf.trigSeq + 1) % 65536 }
      else { s with stf.bcastSeq := (s.stf.bcastSeq + 1) % 2 ^ 32 }
    let s2 := ({ s1 with stf.seen := s.stf.seen.filter (fun h => decide (s.tb.time16 < h.t + 65536000000000)) ++ [⟨trigger, s.selfId, b.seq, t⟩] }
      : State).takeBroadcast b
    s.stfBcast d trigger = ((s2.flood none b.frame).floodGateways b.frame).completeAt (d.ref false) stOK 0 false (shortStampOf t) := by
  unfold State.stfBcast
  rw [State.bcastLead_legal s hmin hmax]
  dsimp only
  rw [State.clampDesc_false]
  cases trigger <;> rfl

theorem exec_stfBcast {s : State} {d : Desc} (trigger : Bool) (hclk : s.clocked = true) :
    exec (if trigger then .stfBcastTrigger d else .stfBcastFreeze d) s = .next (s.stfBcast d trigger) := by
  cases trigger
  · exact exec_of_clocked hclk rfl
  · exact exec_of_clocked hclk rfl

theorem State.broadcastTime_due {s : State} {b : Broadcast} {r : List Broadcast} (hp : s.stf.pending = b :: r) (ht : b.t ≤ s.tb.time16) :
    s.broadcastTime = if b.trigger then ({ s with stf.pending := r } : State).settleOffers.fireLines [b.line] 3 0 0
      else ({ s with stf.pending := r } : State).freezeNow 3 0 := by
  unfold State.broadcastTime
  rw [hp]
  exact if_pos ht

/-! ## Discovery -/

section
variable {s : State} (hfabric : s.fabricOn = true)
include hfabric

theorem State.electSettle_same {m : Nat} (hbest : s.stf.best = some m) (hroot : s.stf.root = some (m % 512)) :
    s.electSettle = ({ s with stf.settled := true } : State).sendJoin := by
  have hold : (s.stf.root != some (m % 512)) = false := by rw [hroot, bne_self_eq_false]
  have hsame : ({ s with stf := { s.stf with root := some (m % 512), settled := true } } : State) = { s with stf.settled := true } := by
    rw [← hroot]
  unfold State.electSettle
  rw [hfabric, hbest]
  dsimp only
  rw [hold, hsame]
  rfl

theorem State.mapFlood_root (hsettled : s.stf.settled = true) (hroot : s.stf.root = some s.selfMember) :
    let l := s.treeEntries
    let gen := (s.stf.mapGen + 1) % 65536
    let t := s.installMap gen l
    s.mapFlood = ((payloads (l.length + 1) (mapEntryWords l)).foldl (fun t p => t.flood none
      { type := 2, cls := 2, op := 0x33, src := t.selfId, arg2 := BitVec.ofNat 32 (b2n t.stf.split * 2 ^ 16 + gen), payload := p }) t).repeatCommon := by
  have hthis : (s.fabricOn && s.stf.settled && s.stf.root == some s.selfMember) = true := by
    rw [hfabric, hsettled, beq_iff_eq.mpr hroot]
    rfl
  exact if_pos hthis

theorem State.register_root {p : Nat} (hroot : s.isRoot = true) (hgateway : s.gatewayPort = some p) :
    let e : GroupEntry := ⟨s.selfMember, s.tb.timeLocked, s.portMac p⟩
    s.register = { s with stf := { s.stf with
        registered := true, heard := mapSet (fun _ => none) s.stf.heard s.selfGroup (some e) } }.sendEth
      (s.fld Reg.STF_ETH_GROUP_HI 15 0 * 2 ^ 32 + (s.rd Reg.STF_ETH_GROUP_LO).toNat)
      { type := 2, cls := 2, op := 0x34, src := s.selfId, arg := BitVec.ofNat 64 e.mac, arg2 := BitVec.ofNat 32 (b2n e.locked) } := by
  have hthis : (s.fabricOn && s.isRoot && s.gatewayPort.isSome) = true := by
    rw [hfabric, hroot, hgateway]
    rfl
  have hown : s.ownEntry = ⟨s.selfMember, s.tb.timeLocked, s.portMac p⟩ := by
    unfold State.ownEntry
    rw [hgateway]
    rfl
  rw [← hown]
  exact if_pos hthis

theorem State.systemRootChoice_lowest {g : Nat} {e : GroupEntry} {r : SMap (Option GroupEntry)} (hroot : s.isRoot = true)
    (hregistered : s.stf.registered = true) (hheard : s.stf.heard = (g, some e) :: r) :
    s.systemRootChoice = { s with stf := { s.stf with sysRoot := some (g * 512 + e.root) } } := by
  have hthis : (s.fabricOn && s.isRoot && s.stf.registered) = true := by
    rw [hfabric, hroot, hregistered]
    rfl
  unfold State.systemRootChoice
  rw [if_pos hthis, hheard]

theorem State.sysmap_root (hroot : s.isSystemRoot = true) :
    let m := mapSet (fun _ => none) s.stf.heard s.selfGroup (some s.ownEntry)
    let s1 := { s with stf := { s.stf with
      sysMap := m, sysGen := if m != s.stf.sysMap then (s.stf.sysGen + 1) % 65536 else s.stf.sysGen,
      commonSent := s.stf.commonSent && m == s.stf.sysMap } }
    let s2 := if m != s.stf.sysMap then s1.raise Reg.STF_EVENT 4 else s1
    s.sysmap = (s2.sysmapFrames.foldl (fun s f => (s.flood none f).floodGateways f) s2).chooseCommon := by
  have hthis : (s.fabricOn && s.isSystemRoot) = true := by
    rw [hfabric, hroot]
    rfl
  have hnew : ∀ m : SMap (Option GroupEntry), (!(m != s.stf.sysMap)) = (m == s.stf.sysMap) := fun m => Bool.not_not _
  unfold State.sysmap
  rw [if_pos hthis]
  dsimp only
  rw [hnew]

end

theorem State.sendJoin_member {s : State} {k m : Nat} (hbest : s.stf.bestPort = some k) (hsettled : s.stf.settled = true)
    (hroot : s.stf.root = some m) (hother : m ≠ s.selfMember) : s.sendJoin = s.stfSend (.port k) s.joinFrame := by
  have hthis : (s.stf.settled && s.stf.root != some s.selfMember) = true := by
    rw [hsettled, hroot, bne_iff_ne.mpr fun h => hother (Option.some.inj h)]
    rfl
  unfold State.sendJoin
  rw [hbest]
  exact if_pos hthis

theorem State.commonTime_reached {s : State} {t : Int} (htcc : s.stf.tcc = some (t, true)) (ht : t ≤ s.tb.time16)
    (hnew : s.stf.common = false) : s.commonTime = ({ s with stf := { s.stf with common := true } } : State).raise Reg.STF_EVENT 8 := by
  have hthis : t ≤ s.tb.time16 ∧ (!s.stf.common) = true := ⟨ht, by rw [hnew]; rfl⟩
  unfold State.commonTime
  rw [htcc]
  exact if_pos hthis

/-! ## Migration -/

theorem refusesWork_of_running {c : Carrier} (h : c.mode = .running) : c.refusesWork = false := by
  rw [Carrier.refusesWork, h]
  rfl

/-- The migration that an immediate STF_MIGRATE begins. -/
def migrationOf (d : Desc) (cl : Bool) (regions : List MigRegion) : Migration :=
  { ref := d.ref cl, carrier := carrierField d.carrier, dst := d.fld 0x10 17 0, dstCarrier := d.fld 0x14 8 0, slot := none,
    maxDefer := d.fld 0x20 31 24, regions := regions }

/-- An immediate STF_MIGRATE whose descriptor needs no clamp, once its list is read. -/
def State.migrateWith (s : State) (d : Desc) (x : State × Option (List MigRegion × Bool)) : State :=
  match x.2 with
  | none => x.1.complete (d.ref false) stBAD 0
  | some (rs, cl) =>
    let s1 := (x.1.clampDesc d cl Reg.STF_CLAMP_COUNT).sendMoulds (d.fld 0x10 17 0) (d.fld 0x14 8 0) (s.carrier (carrierField d.carrier)) rs
    let y := if d.fld 0x10 17 0 = s1.selfId then s1.copyLocal ((rs.map (·.len)).sum / 64 + 1) (d.fld 0x10 17 0) rs
      else s1.copyRegions (d.fld 0x10 17 0) [] rs
    { y.1 with stf.migrations := y.1.stf.migrations ++ [y.1.settleSlot (migrationOf d cl y.2)] }

section
variable {s s1 : State} {d : Desc} {ok : Bool} (hcommon : s.stf.common = true) (hclamped : carrierClamped d.carrier = false)
  (hmodule : carrierField d.carrier ≠ 0xFFFF) (hcount : d.fld 0x20 8 0 ≤ 256) (haligned : (d.w64 0x18).toNat % 64 = 0)
  (himmediate : d.immediate = true)
include hcommon hclamped hmodule hcount haligned himmediate

theorem State.stfMigrate_eq : s.stfMigrate d ok =
    if (s.carrier (carrierField d.carrier)).refusesWork = true then s.complete (d.ref false) stDISABLED 0
    else if (!s.reachable (d.fld 0x10 17 0) || (s.carrier (carrierField d.carrier)).mode != .running
      || !(if d.fld 0x10 17 0 = s.selfId then (s.carrier (d.fld 0x14 8 0)).mode == .stopped else ok)) = true
      then s.complete (d.ref false) stREFUSED 0
    else s.migrateWith d (s.readList (d.fld 0x20 8 0) (d.w64 0x18).toNat [] false) := by
  have haddr : (d.w64 0x18).toNat / 64 * 64 = (d.w64 0x18).toNat := Nat.div_mul_cancel (Nat.dvd_of_mod_eq_zero haligned)
  have hcl : (carrierClamped d.carrier || decide (256 < d.fld 0x20 8 0) || (d.w64 0x18).toNat % 64 != 0) = false := by
    rw [hclamped, decide_eq_false (Nat.not_lt.mpr hcount), haligned]
    rfl
  have hcarrier : (carrierField d.carrier == 0xFFFF) = false := beq_false_of_ne hmodule
  have hcarrier' : (carrierField d.carrier != 0xFFFF) = true := bne_iff_ne.mpr hmodule
  unfold State.stfMigrate
  dsimp only
  rw [hcl, hcommon, himmediate, hcarrier, hcarrier', Nat.min_eq_right hcount, haddr]
  simp only [Bool.not_true, Bool.false_and, Bool.or_false, Bool.false_or, Bool.true_and, State.clampDesc_false]
  rfl

theorem State.stfMigrate_disabled (hrefuses : (s.carrier (carrierField d.carrier)).refusesWork = true) :
    s.stfMigrate d ok = s.complete (d.ref false) stDISABLED 0 := by
  rw [State.stfMigrate_eq hcommon hclamped hmodule hcount haligned himmediate]
  exact if_pos hrefuses

theorem State.stfMigrate_notThere (hrefuses : (s.carrier (carrierField d.carrier)).refusesWork = false)
    (haway : d.fld 0x10 17 0 ≠ s.selfId) : s.stfMigrate d false = s.complete (d.ref false) stREFUSED 0 := by
  rw [State.stfMigrate_eq hcommon hclamped hmodule hcount haligned himmediate, hrefuses, if_neg haway, Bool.not_false, Bool.or_true]
  rfl

theorem State.stfMigrate_accepted {rs : List MigRegion} (hrun : (s.carrier (carrierField d.carrier)).mode = .running)
    (hreach : s.reachable (d.fld 0x10 17 0) = true)
    (hread : s.readList (d.fld 0x20 8 0) (d.w64 0x18).toNat [] false = (s1, some (rs, false)))
    (hthere : ok = true ∧ d.fld 0x10 17 0 ≠ s.selfId ∨ d.fld 0x10 17 0 = s.selfId ∧ (s.carrier (d.fld 0x14 8 0)).mode = .stopped) :
    let s2 := s1.sendMoulds (d.fld 0x10 17 0) (d.fld 0x14 8 0) (s.carrier (carrierField d.carrier)) rs
    let y := if d.fld 0x10 17 0 = s.selfId then s2.copyLocal ((rs.map (·.len)).sum / 64 + 1) (d.fld 0x10 17 0) rs
      else s2.copyRegions (d.fld 0x10 17 0) [] rs
    s.stfMigrate d ok = { y.1 with stf.migrations := y.1.stf.migrations ++ [y.1.settleSlot (migrationOf d false y.2)] } := by
  have htaken : (if d.fld 0x10 17 0 = s.selfId then (s.carrier (d.fld 0x14 8 0)).mode == .stopped else ok) = true := by
    rcases hthere with ⟨hok, haway⟩ | ⟨hhere, hstopped⟩
    · exact (if_neg haway).trans hok
    · exact (if_pos hhere).trans (beq_iff_eq.mpr hstopped)
  have hsame : SameId s s1 := by
    have hlist := sameId_readList (d.fld 0x20 8 0) s (d.w64 0x18).toNat [] false
    rwa [hread] at hlist
  have hid := (hsame.trans (sameId_sendMoulds s1 (d.fld 0x10 17 0) (d.fld 0x14 8 0) (s.carrier (carrierField d.carrier)) rs)).selfId_eq
  rw [State.stfMigrate_eq hcommon hclamped hmodule hcount haligned himmediate, refusesWork_of_running hrun, htaken, hreach, hrun, hread]
  unfold State.migrateWith
  dsimp only
  rw [State.clampDesc_false, hid]
  rfl

end

/-- The record of migration `m` is now `m'`. -/
def State.putMigration (s : State) (m m' : Migration) : State :=
  { s with stf.migrations := s.stf.migrations.map (fun x => if x = m then m' else x) }

section
variable {s : State} {cid : Nat} {m : Migration} {n : Int}
  (hfind : s.stf.migrations.find? (fun m => m.carrier == cid && !m.switched && !m.completed) = some m) (hslot : m.slot = some n)
  (hdue : ((s.carrier cid).cfg.boundaryNs s.slt.originNs .dl n - (s.carrier cid).cfg.deckleNs) * uPerNs ≤ s.tb.timeU)
include hfind hslot hdue

theorem State.migrationSwitch_inStep (hstep : m.inStep = true) (hul : (s.carrier cid).ul.armedElsewhere n = false)
    (hdl : (s.carrier cid).dl.armedElsewhere n = false) (hrun : (s.carrier cid).mode = .running) :
    let s1 := (s.putMigration m { m with switched := true }).armFabric cid n false true
    m.dst ≠ s1.selfId → s.migrationSwitch cid = s1.stfSendTo
      { type := 1, cls := 2, dst := m.dst, op := 0x40, arg := BitVec.ofNat 64 m.dstCarrier, arg2 := stampOf (s.carrier cid).cfg.spf n } := by
  obtain ⟨_, _, _, _, slot, _, _, _, _, _⟩ := m
  obtain rfl : slot = some n := hslot
  intro s1 haway
  have hfree : ¬ ((s.carrier cid).ul.armedElsewhere n || (s.carrier cid).dl.armedElsewhere n || (s.carrier cid).mode != .running) = true := by
    rw [hul, hdl, hrun]
    exact Bool.false_ne_true
  unfold State.migrationSwitch
  simp only [hfind]
  rw [if_neg (Int.not_lt.mpr hdue), if_pos hstep, if_neg hfree]
  exact if_neg haway

theorem State.migrationSwitch_deferred (hstep : m.inStep = false) (hleft : m.deferred < m.maxDefer) : s.migrationSwitch cid =
    s.putMigration m { m with slot := some (n + 1), deferred := m.deferred + 1 } := by
  unfold State.migrationSwitch
  simp only [hfind, hslot]
  exact (if_neg (Int.not_lt.mpr hdue)).trans ((if_neg (by rw [hstep]; exact Bool.false_ne_true)).trans (if_neg (Nat.not_le.mpr hleft)))

theorem State.migrationSwitch_givenUp (hstep : m.inStep = false) (hnone : m.maxDefer ≤ m.deferred) :
    s.migrationSwitch cid = s.giveUp m stREFUSED := by
  unfold State.migrationSwitch
  simp only [hfind, hslot]
  exact (if_neg (Int.not_lt.mpr hdue)).trans ((if_neg (by rw [hstep]; exact Bool.false_ne_true)).trans (if_pos hnone))

end

theorem State.giveUp_away {s : State} {m : Migration} (st : Nat) (haway : m.dst ≠ (s.dropMigration m).selfId) :
    s.giveUp m st = ((s.dropMigration m).stfSendTo
      { type := 1, cls := 2, dst := m.dst, op := 0x41, arg2 := BitVec.ofNat 32 m.dstCarrier }).complete m.ref st 0 := by
  unfold State.giveUp
  dsimp only
  rw [if_neg haway]

/-- Settles O50: a lemma for each command, in the order of the statement. -/
theorem stitchServices : Obligations.StitchServices := by
  unfold Obligations.StitchServices
  refine ⟨?bind, ?itemSend, ?eventSend, ?event, ?exchange, ?broadcast, ?time, ?tree, ?common, ?migrate, ?switch, ?giveUp⟩
  case bind =>
    intro s d hclk b src
    have hexec : exec (.stfBind d) s = .next (s.stfBind d) := exec_of_clocked hclk rfl
    rw [hexec]
    exact ⟨fun hkind hqueue hoff => congrArg _ (State.stfBind_makes hkind hqueue hoff),
      fun hkind hon => congrArg _ (State.stfBind_bound hkind hon),
      fun hkind hqueue => congrArg _ (State.stfBind_noQueue hkind hqueue),
      fun hkind hqueue hoff => congrArg _ (State.stfBind_off hkind hqueue hoff)⟩
  case itemSend =>
    intro s s1 b i hclk hkind hflight hfabric hread hway
    exact exec_bindItemSend hkind hflight hfabric hread hway hclk
  case eventSend =>
    intro s b w r hclk hfabric hwords
    exact (exec_of_clocked hclk rfl).trans (congrArg _ (State.bindEventSend_next hfabric hwords))
  case event =>
    exact fun s w => ⟨fun hhere => if_pos hhere, fun haway => if_neg haway⟩
  case exchange =>
    intro s k t1 t2 t3 t4 hclk hk hup hown hfabric s1
    have hexec : exec (.tsyncExchange k t1 t2 t3 t4) s = .next (s.tsyncExchange k t1 t2 t3 t4) := exec_of_clocked hclk rfl
    rw [hexec, State.tsyncExchange_up t1 t2 t3 t4 hk hup hown hfabric]
    exact ⟨fun hother => congrArg _ (if_neg hother), fun hparent => congrArg _ (if_pos hparent)⟩
  case broadcast =>
    intro s d trigger hclk hmin hmax t b s1 s2
    exact (exec_stfBcast trigger hclk).trans (congrArg _ (State.stfBcast_eq trigger hmin hmax))
  case time =>
    intro s b r hclk hp ht
    exact (exec_of_clocked hclk rfl).trans (congrArg _ (State.broadcastTime_due hp ht))
  case tree =>
    intro s hclk hfabric
    refine ⟨?settle, ?join, ?flood, ?register, ?choice, ?map, ?silent⟩
    case settle => exact fun m hbest hroot => (exec_of_clocked hclk rfl).trans (congrArg _ (State.electSettle_same hfabric hbest hroot))
    case join => exact fun k m hbest hsettled hroot hother => State.sendJoin_member hbest hsettled hroot hother
    case flood => exact fun hsettled hroot => (exec_of_clocked hclk rfl).trans (congrArg _ (State.mapFlood_root hfabric hsettled hroot))
    case register => exact fun p hroot hgateway => (exec_of_clocked hclk rfl).trans (congrArg _ (State.register_root hfabric hroot hgateway))
    case choice =>
      exact fun g e r hroot hregistered hheard =>
        (exec_of_clocked hclk rfl).trans (congrArg _ (State.systemRootChoice_lowest hfabric hroot hregistered hheard))
    case map => exact fun hroot => (exec_of_clocked hclk rfl).trans (congrArg _ (State.sysmap_root hfabric hroot))
    case silent => exact fun g hother => (exec_of_clocked hclk rfl).trans (congrArg _ (if_neg hother))
  case common =>
    intro s t hclk htcc ht hnew
    exact (exec_of_clocked hclk rfl).trans (congrArg _ (State.commonTime_reached htcc ht hnew))
  case migrate =>
    intro s s1 d ok rs hclk hcommon cid dst dcar hclamped hmodule hcount haligned himmediate
    have hexec : exec (.stfMigrate d ok) s = .next (s.stfMigrate d ok) := exec_of_clocked hclk rfl
    rw [hexec]
    refine ⟨fun hrefuses => congrArg _ ?_, fun hrefuses _ hok haway => congrArg _ ?_, fun hrun hreach hread hthere => congrArg _ ?_⟩
    · exact State.stfMigrate_disabled hcommon hclamped hmodule hcount haligned himmediate hrefuses
    · subst hok
      exact State.stfMigrate_notThere hcommon hclamped hmodule hcount haligned himmediate hrefuses haway
    · exact State.stfMigrate_accepted hcommon hclamped hmodule hcount haligned himmediate hrun hreach hread hthere
  case switch =>
    intro s cid m n hclk hfind hslot hdue put
    have hexec : exec (.migrationSwitch cid) s = .next (s.migrationSwitch cid).flushMirror := exec_of_clocked hclk rfl
    rw [hexec]
    refine ⟨fun hstep hul hdl hrun haway => congrArg (fun t : State => Host.Outcome.next t.flushMirror) ?_,
      fun hstep hleft => congrArg (fun t : State => Host.Outcome.next t.flushMirror) ?_,
      fun hstep hnone => congrArg (fun t : State => Host.Outcome.next t.flushMirror) ?_⟩
    · exact State.migrationSwitch_inStep hfind hslot hdue hstep hul hdl hrun haway
    · exact State.migrationSwitch_deferred hfind hslot hdue hstep hleft
    · exact State.migrationSwitch_givenUp hfind hslot hdue hstep hnone
  case giveUp => exact fun s m st haway => State.giveUp_away st haway

end Sys2Proof.Machine
end

section
/-! Module memory: fills, accesses, errors, scrub, retraining and initialisation (R165, R391 to R400). -/

namespace Sys2Proof.Machine

/-! ## Fills -/

section
variable {s : State} {d : Desc} (hclear : (fillFields d).2.2 = false)
include hclear

theorem State.memFill_empty (hnone : (fillFields d).2.1 = 0) : s.memFill d = s.complete (d.ref false) stOK 0 := by
  unfold State.memFill
  dsimp only
  rw [hclear, State.clampDesc_false]
  exact if_pos hnone

theorem State.memFill_notReady (hsome : (fillFields d).2.1 ≠ 0) (hready : s.glb.memReady = false) :
    s.memFill d = s.complete (d.ref false) stBAD 0 := by
  unfold State.memFill
  dsimp only
  rw [hclear, State.clampDesc_false, hready]
  exact if_neg hsome

theorem State.memFill_waits (hsome : (fillFields d).2.1 ≠ 0) (hready : s.glb.memReady = true) : s.memFill d =
    { s with mm.fills := s.mm.fills ++
      [({ ref := d.ref false, addr := (fillFields d).1, words := (fillFields d).2.1 / 64, pattern := d.w64 0x20 } : Fill)] } := by
  unfold State.memFill
  dsimp only
  rw [hclear, State.clampDesc_false, hready]
  exact if_neg hsome

end

theorem State.fillDone_found {s : State} {ring : Nat} {tag : W32} {f : Fill}
    (hfind : s.mm.fills.find? (fun f => f.ref.ring == ring && f.ref.tag == tag) = some f) :
    s.fillDone ring tag = ({ s with mm.fills := s.mm.fills.erase f }.fillAll f).complete f.ref stOK 0 := by
  unfold State.fillDone
  rw [hfind]

/-! ## The BAR4 window -/

section
variable {s : State} {o : Nat} (ho : o < 2 ^ 32)
include ho

theorem State.bar4Access_stopped {n : Nat} (data : List Byte) (hn : n ≤ 4096)
    (hstop : (s.glb.frozen || (s.fnOf 0).flr || !s.glb.coreReady) = true) :
    s.bar4Access o false data n = { s with bus := (false, []), mm := { s.mm with poisoned := false } } := by
  have hfits : ¬ (2 ^ 32 ≤ o ∨ (if false = true then 512 < data.length else 4096 < n)) := not_or.mpr ⟨Nat.not_le.mpr ho, Nat.not_lt.mpr hn⟩
  exact (if_neg hfits).trans (if_pos hstop)

section
variable (hfrozen : s.glb.frozen = false) (hflr : (s.fnOf 0).flr = false) (hcore : s.glb.coreReady = true)
include hfrozen hflr hcore

theorem State.bar4Access_write {data : List Byte} (n : Nat) (hlen : data.length ≤ 512) :
    let x := s.writeModule hostRequester (s.fld Reg.MEM_WIN_BASE 18 0 * 2 ^ 20 + o) data
    s.bar4Access o true data n = { x.1 with bus := (x.2, []), mm := { x.1.mm with poisoned := false } } := by
  have hfits : ¬ (2 ^ 32 ≤ o ∨ (if true = true then 512 < data.length else 4096 < n)) := not_or.mpr ⟨Nat.not_le.mpr ho, Nat.not_lt.mpr hlen⟩
  have hgoes : ¬ (s.glb.frozen || (s.fnOf 0).flr || !s.glb.coreReady) = true := by
    rw [hfrozen, hflr, hcore]
    exact Bool.false_ne_true
  exact (if_neg hfits).trans (if_neg hgoes)

theorem State.bar4Access_read {n : Nat} (data : List Byte) (hn : n ≤ 4096) :
    let x := s.readModule hostRequester (s.fld Reg.MEM_WIN_BASE 18 0 * 2 ^ 20 + o) n
    s.bar4Access o false data n =
      ({ x.1 with bus := (x.2.isSome, x.2.getD []) } : State).notePoison (s.fld Reg.MEM_WIN_BASE 18 0 * 2 ^ 20 + o) n := by
  have hfits : ¬ (2 ^ 32 ≤ o ∨ (if false = true then 512 < data.length else 4096 < n)) := not_or.mpr ⟨Nat.not_le.mpr ho, Nat.not_lt.mpr hn⟩
  have hgoes : ¬ (s.glb.frozen || (s.fnOf 0).flr || !s.glb.coreReady) = true := by
    rw [hfrozen, hflr, hcore]
    exact Bool.false_ne_true
  exact (if_neg hfits).trans (if_neg hgoes)

end

end

theorem exec_bar4Access {s : State} (o : Nat) (write : Bool) (data : List Byte) (n : Nat) (hclk : s.clocked = true) :
    exec (.bar4Access o write data n) s = .next (s.bar4Access o write data n) :=
  congrArg _ (if_pos ((Bool.or_eq_true_iff).mpr (Or.inl hclk)))

/-- A frozen module still answers, with an error. -/
theorem exec_bar4Access_frozen {s : State} (o : Nat) (write : Bool) (data : List Byte) (n : Nat) (hfrozen : s.glb.frozen = true)
    (hpower : s.rst.power = .on) (hawake : s.pwr.asleep = false) (hwarm : s.rst.warmHeld = false) :
    exec (.bar4Access o write data n) s = .next (s.bar4Access o write data n) := by
  have hheard : (s.clocked || (s.glb.frozen && s.rst.power == .on && !s.pwr.asleep && !s.rst.warmHeld)) = true := by
    rw [hfrozen, hpower, hawake, hwarm]
    exact Bool.or_true _
  exact congrArg _ (if_pos hheard)

/-! ## Errors -/

section
variable {s : State} {a : Nat} (requester : Nat)

theorem State.checkWord_clean (hnone : s.errorMarks (devicePlace s.mm.mapActive a) = 0) : s.checkWord requester a = (s, true) := if_pos hnone

theorem State.checkWord_corrected (hone : s.errorMarks (devicePlace s.mm.mapActive a) = 1) :
    let t := (s.setMarks (devicePlace s.mm.mapActive a) 0).bump (Reg.MEM_CH_CE (locate s.mm.mapActive a).1)
    s.checkWord requester a = (if (t.rd (Reg.MEM_CH_CE (locate s.mm.mapActive a).1)).toNat % 2 ^ t.fld Reg.MEM_CFG 7 4 = 0
      then t.raise Reg.MEM_EVENT 1 else t, true) := by
  have hsome : ¬ s.errorMarks (devicePlace s.mm.mapActive a) = 0 := by rw [hone]; decide
  exact (if_neg hsome).trans (if_pos hone)

theorem State.checkWord_uncorrectable (htwo : 2 ≤ s.errorMarks (devicePlace s.mm.mapActive a)) : s.checkWord requester a =
    (s.uncorrectable requester (locate s.mm.mapActive a).1 (locate s.mm.mapActive a).2 a, false) :=
  (if_neg (by omega)).trans (if_neg (by omega))

theorem State.uncorrectable_latched {c : Nat} (o : Nat)
    (hlatched : ((s.bump (Reg.MEM_CH_UE c)).raise Reg.MEM_EVENT 0).bit Reg.MEM_UE_ADDR_HI 31 = true) :
    s.uncorrectable requester c o a =
      ((s.bump (Reg.MEM_CH_UE c)).raise Reg.MEM_EVENT 0).log 0x05 2 (BitVec.ofNat 128 (c + o * 2 ^ 8 + requester * 2 ^ 48)) := by
  unfold State.uncorrectable
  dsimp only
  rw [hlatched]
  rfl

theorem State.uncorrectable_latches {c : Nat} (o : Nat)
    (hfree : ((s.bump (Reg.MEM_CH_UE c)).raise Reg.MEM_EVENT 0).bit Reg.MEM_UE_ADDR_HI 31 = false) :
    s.uncorrectable requester c o a =
      ((((s.bump (Reg.MEM_CH_UE c)).raise Reg.MEM_EVENT 0).wr Reg.MEM_UE_ADDR_LO (BitVec.ofNat 32 (a / 64 * 64))).wr Reg.MEM_UE_ADDR_HI
        (BitVec.ofNat 32 (2 ^ 31 + a / 64 * 64 / 2 ^ 32))).log 0x05 2 (BitVec.ofNat 128 (c + o * 2 ^ 8 + requester * 2 ^ 48)) := by
  unfold State.uncorrectable
  dsimp only
  rw [hfree]
  rfl

end

/-! ## Scrub and retraining -/

section
variable {s s1 : State} {c : Nat} (hc : c < 16)
include hc

section
variable (hready : s.glb.memReady = true)
include hready

theorem State.patrolScrub_eq (hon : s.fld Reg.MEM_CFG 23 16 ≠ 0) : s.patrolScrub c =
    if (s.requestActivity (.scrub c)).2 = true then ((s.requestActivity (.scrub c)).1.scrubWord c).endActivity (.scrub c)
    else (s.requestActivity (.scrub c)).1 := by
  have hgoes : ¬ (16 ≤ c ∨ s.fld Reg.MEM_CFG 23 16 = 0 ∨ (!s.glb.memReady) = true) := by
    rw [hready]
    rintro (h | h | h)
    · omega
    · exact hon h
    · cases h
  exact if_neg hgoes

theorem State.patrolScrub_clean (hon : s.fld Reg.MEM_CFG 23 16 ≠ 0) (hstart : s.requestActivity (.scrub c) = (s1, true))
    (hnone : s1.errorMarks (c * 2 ^ 35 + s1.fld (Reg.MEM_CH_SCRUB c) 28 0 * 64) = 0) : s.patrolScrub c =
      (s1.setFld (Reg.MEM_CH_SCRUB c) 28 0 ((s1.fld (Reg.MEM_CH_SCRUB c) 28 0 + 1) % 2 ^ 29)).endActivity (.scrub c) := by
  have hword : s1.scrubWord c = s1.setFld (Reg.MEM_CH_SCRUB c) 28 0 ((s1.fld (Reg.MEM_CH_SCRUB c) 28 0 + 1) % 2 ^ 29) := by
    unfold State.scrubWord
    dsimp only
    rw [if_pos hnone]
  rw [State.patrolScrub_eq hc hready hon, hstart, ← hword]
  rfl

theorem State.patrolScrub_waits (hon : s.fld Reg.MEM_CFG 23 16 ≠ 0) (hwait : s.requestActivity (.scrub c) = (s1, false)) :
    s.patrolScrub c = s1 := by
  rw [State.patrolScrub_eq hc hready hon, hwait]
  rfl

theorem State.channelRetrain_ready (ends : Option Bool) : s.channelRetrain c ends = match ends with
    | none => if s.fld Reg.MEM_CFG 15 8 = 0 then s else (s.requestActivity (.retrain c)).1
    | some ok => if s.activityRuns (.retrain c) then s.retrainEnds c ok else s := by
  unfold State.channelRetrain
  rw [if_neg (Nat.not_le.mpr hc), hready]
  rfl

theorem State.mr4Read_eq {temp : Nat} (htemp : temp ≤ 4) :
    let s1 := s.setMemChan c { s.memChan c with temp := temp }
    let s2 := if temp = 4 then s1.raise Reg.MEM_EVENT 2 else s1
    s.mr4Read c temp = if ((s.memChan c).temp != temp) = true then (s2.requestActivity (.retrain c)).1 else s2 := by
  have hgoes : ¬ (16 ≤ c ∨ (!s.glb.memReady) = true) := by
    rw [hready]
    rintro (h | h)
    · omega
    · cases h
  unfold State.mr4Read
  dsimp only
  rw [if_neg hgoes, Nat.min_eq_left htemp]

end

theorem State.channelRetrain_notReady (hready : s.glb.memReady = false) (ends : Option Bool) :
    s.channelRetrain c ends = match ends with | some ok => s.resetTrain c ok | none => s := by
  unfold State.channelRetrain
  rw [if_neg (Nat.not_le.mpr hc), hready]
  rfl

end

/-! ## Injection and initialisation -/

section
variable {s : State} {v : W32} (hopen : s.hostOpen Reg.MEM_INJ_CMD)
include hopen

/-- A write of MEM_INJ_CMD marks as many symbols as its kind says, at most two. -/
theorem exec_eccInject :
    let s1 := (s.writeTable Reg.MEM_INJ_CMD v).wr Reg.MEM_INJ_CMD 0
    let p := devicePlace s1.mm.mapActive (s1.fld Reg.MEM_INJ_HI 6 0 * 2 ^ 32 + (s1.rd Reg.MEM_INJ_LO).toNat)
    exec (.eccInject v) s = .next (if min (bitsOf v 1 0) 2 = 0 then s1 else s1.setMarks p (min 80 (s1.errorMarks p + min (bitsOf v 1 0) 2))) :=
  congrArg _ (hostWriteTo_open hopen _)

end

theorem State.memInitDone_cold {s : State} (hcore : s.glb.coreReady = true) (hready : s.glb.memReady = false) (hcold : s.rst.coldMem = true) :
    s.memInitDone = { s with
      glb.memReady := true, mem := s.mem.filter (fun p => decide (memSize ≤ p.1)), rst.coldMem := false,
      mm := { s.mm with initBusy := false, marks := [], chans := (List.range 16).foldl (fun m c => mapSet (fun _ => {}) m c
        { mapGet (fun _ => ({} : MemChan)) m c with trained := true, selfRefresh := false }) s.mm.chans } } := by
  have hgoes : ¬ (!s.glb.coreReady || s.glb.memReady) = true := by
    rw [hcore, hready]
    exact Bool.false_ne_true
  unfold State.memInitDone
  dsimp only
  rw [if_neg hgoes, if_pos hcold]

/-- Settles O52: a lemma for each command, in the order of the statement. -/
theorem moduleMemoryCommands : Obligations.ModuleMemoryCommands := by
  unfold Obligations.ModuleMemoryCommands
  refine ⟨?fill, ?done, ?access, ?bar4, ?frozen, ?check, ?channels, ?unready, ?inject, ?rearm, ?init⟩
  case fill =>
    intro s d hclk hclear
    have hexec : exec (.memFill d) s = .next (s.memFill d) := exec_of_clocked hclk rfl
    rw [hexec]
    exact ⟨fun hnone => congrArg _ (State.memFill_empty hclear hnone), fun hsome hready => congrArg _ (State.memFill_notReady hclear hsome hready),
      fun hsome hready => congrArg _ (State.memFill_waits hclear hsome hready)⟩
  case done =>
    intro s ring tag f hclk hfind
    exact (exec_of_clocked hclk rfl).trans (congrArg _ (State.fillDone_found hfind))
  case access =>
    intro s a data n req hclk
    refine ⟨fun ha => ⟨?_, ?_⟩, fun hlo hhi => ⟨?_, ?_⟩⟩
    · exact (exec_of_clocked hclk rfl).trans (congrArg _ (if_pos ha))
    · exact (exec_of_clocked hclk rfl).trans (congrArg _ (if_pos ha))
    · exact (exec_of_clocked hclk rfl).trans (if_pos ⟨hlo, hhi⟩)
    · exact (exec_of_clocked hclk rfl).trans (if_pos ⟨hlo, hhi⟩)
  case bar4 =>
    intro s o n data hclk ho a
    rw [exec_bar4Access o true data n hclk, exec_bar4Access o false data n hclk]
    refine ⟨fun hfrozen hflr hcore => ⟨fun hlen => congrArg _ ?_, fun hn => congrArg _ ?_⟩, fun hn hflr => congrArg _ ?_⟩
    · exact State.bar4Access_write ho hfrozen hflr hcore n hlen
    · exact State.bar4Access_read ho hfrozen hflr hcore data hn
    · exact State.bar4Access_stopped ho data hn (by rw [hflr, Bool.or_true]; rfl)
  case frozen =>
    intro s o n data hfrozen hpower hawake hwarm ho hn
    rw [exec_bar4Access_frozen o false data n hfrozen hpower hawake hwarm]
    exact congrArg _ (State.bar4Access_stopped ho data hn (by rw [hfrozen]; rfl))
  case check =>
    intro s requester a l p
    refine ⟨State.checkWord_clean requester, State.checkWord_corrected requester, fun htwo => ?_⟩
    rw [State.checkWord_uncorrectable requester htwo]
    exact ⟨fun hlatched => congrArg (fun t => (t, false)) (State.uncorrectable_latched requester _ hlatched),
      fun hfree => congrArg (fun t => (t, false)) (State.uncorrectable_latches requester _ hfree)⟩
  case channels =>
    intro s c hclk hc hready
    refine ⟨fun s1 hon hstart hnone => ?_, fun s1 hon hwait => ?_, fun hon => ?_, fun hoff => ?_, fun hruns => ⟨?_, ?_⟩, fun hdue => ?_,
      fun temp htemp => ⟨fun hsame => ?_, fun hnew => ?_⟩, fun b => exec_of_clocked hclk rfl⟩
    · exact (exec_of_clocked hclk rfl).trans (congrArg _ (State.patrolScrub_clean hc hready hon hstart hnone))
    · exact (exec_of_clocked hclk rfl).trans (congrArg _ (State.patrolScrub_waits hc hready hon hwait))
    · exact (exec_of_clocked hclk rfl).trans (congrArg _ ((State.channelRetrain_ready hc hready none).trans (if_neg hon)))
    · exact (exec_of_clocked hclk rfl).trans (congrArg _ ((State.channelRetrain_ready hc hready none).trans (if_pos hoff)))
    · exact (exec_of_clocked hclk rfl).trans (congrArg _ ((State.channelRetrain_ready hc hready (some true)).trans (if_pos hruns)))
    · exact (exec_of_clocked hclk rfl).trans (congrArg _ ((State.channelRetrain_ready hc hready (some false)).trans (if_pos hruns)))
    · exact (exec_of_clocked hclk rfl).trans (congrArg _ (if_pos hdue))
    · exact (exec_of_clocked hclk rfl).trans (congrArg _ ((State.mr4Read_eq hc hready htemp).trans
        (if_neg (by rw [hsame, bne_self_eq_false]; exact Bool.false_ne_true))))
    · exact (exec_of_clocked hclk rfl).trans (congrArg _ ((State.mr4Read_eq hc hready htemp).trans (if_pos (bne_iff_ne.mpr hnew))))
  case unready =>
    intro s c ok hclk hc hready
    exact ⟨(exec_of_clocked hclk rfl).trans (congrArg _ (State.channelRetrain_notReady hc hready none)),
      (exec_of_clocked hclk rfl).trans (congrArg _ (State.channelRetrain_notReady hc hready (some ok)))⟩
  case inject =>
    intro s v hopen s1 p
    have hexec := exec_eccInject (v := v) hopen
    refine ⟨fun hnone => hexec.trans (congrArg _ ?_), fun hone => hexec.trans (congrArg _ ?_), fun htwo => hexec.trans (congrArg _ ?_)⟩
    · rw [hnone]
      rfl
    · rw [hone]
      rfl
    · rw [Nat.min_eq_right htwo]
      rfl
  case rearm => exact fun s v hopen => congrArg _ (hostWriteTo_open hopen _)
  case init =>
    intro s hclk hcore hready hcold
    exact (exec_of_clocked hclk rfl).trans (congrArg _ (State.memInitDone_cold hcore hready hcold))

end Sys2Proof.Machine
end

section
/-! Power states of the clusters: requests, the entry handshake, Doze, Hibernate (R401 to R418). -/

namespace Sys2Proof.Machine

/-! ## Requests -/

/-- A request as the mode of its cluster takes it. -/
def State.requestIn (s : State) (d req : Nat) (c : Cluster) : PwrMode → State
  | .run => if req = 0 then s else s.startEntry d (req == 2)
  | .nap => if req = 0 then s.setCluster d { c with mode := .run } else if req = 2 then s.startEntry d true else s
  | .doze => if req = 0 then s.setCluster d { c with mode := .exiting, request := none } else s
  | .entering =>
    if req = 0 then s.setCluster d { c with wakeSeen := true, request := none } else s.setCluster d { c with request := some req }
  | .exiting => s.setCluster d { c with request := if req = 0 then none else some req }

theorem State.clusterRequest_eq (s : State) (d req : Nat) : s.clusterRequest d req = s.requestIn d req (s.cluster d) (s.cluster d).mode := by
  unfold State.clusterRequest State.requestIn
  rfl

section
variable {s : State} {d : Nat} {v : W32} (hd : d < clusterCount) (hopen : s.hostOpen (Reg.PWR_CL_CTRL d))
include hd hopen

theorem exec_request {req : Nat} {c : Instr} (hc : req = 1 ∧ c = Instr.requestNap d v ∨ req = 2 ∧ c = Instr.requestDoze d v
    ∨ req = 0 ∧ c = Instr.requestRun d v) (hreq : reqOf v = req) : exec c s = .next (s.writeClCtrl d v) := by
  have hrow : requestRow req d v s = .next (s.writeClCtrl d v) :=
    congrArg _ ((if_pos ⟨hd, hreq⟩).trans (hostWriteTo_open hopen _))
  rcases hc with ⟨rfl, rfl⟩ | ⟨rfl, rfl⟩ | ⟨rfl, rfl⟩
  · exact hrow
  · exact hrow
  · exact hrow

end

/-! ## The entry handshake -/

section
variable {s : State} {d unit : Nat} (hmode : (s.cluster d).mode = .entering)
include hmode

theorem State.wakeCluster_entering (hnap : (s.cluster d).toDoze = false) :
    s.wakeCluster d = s.setCluster d { s.cluster d with wakeSeen := true } := by
  have hawake : ¬ (s.cluster d).mode = .nap := by rw [hmode]; exact fun h => by cases h
  exact (if_neg hawake).trans (if_pos ⟨hmode, by rw [hnap]; rfl⟩)

section
variable (hd : d < clusterCount) (hclamps : (s.cluster d).isolated = false) (hunit : unit < clusterUnits d)
include hd hclamps

theorem State.inHandshake_true : s.inHandshake d = true := by
  unfold State.inHandshake
  rw [decide_eq_true hd, hmode, hclamps]
  rfl

include hunit

theorem State.clusterAnswer_eq : s.clusterAnswer d unit =
    if s.unitRefuses d unit = true then s.refuseEntry d unit
    else if (s.askUnit d unit).unitDelays d unit = true then s.askUnit d unit else (s.askUnit d unit).acceptEntry d unit := by
  have hasked : ¬ (!s.inHandshake d || decide (clusterUnits d ≤ unit)) = true := by
    rw [State.inHandshake_true hmode hd hclamps, decide_eq_false (Nat.not_le.mpr hunit)]
    exact Bool.false_ne_true
  exact if_neg hasked

theorem State.handshakeDelayLimit_refuses (hdelays : s.unitDelays d unit = true) :
    (if s.inHandshake d && decide (unit < clusterUnits d) && s.unitDelays d unit then s.refuseEntry d unit else s) = s.refuseEntry d unit := by
  rw [State.inHandshake_true hmode hd hclamps, decide_eq_true hunit, hdelays]
  rfl

end

end

section
variable {s : State} {d unit : Nat} (hnew : unit ∉ (s.cluster d).accepted)
include hnew

theorem State.acceptEntry_new : s.acceptEntry d unit =
    if (s.cluster d).accepted.length + 1 < clusterUnits d
      then s.setCluster d { s.cluster d with accepted := (s.cluster d).accepted ++ [unit] }
    else if (s.cluster d).toDoze = true
      then (s.setCluster d { s.cluster d with accepted := (s.cluster d).accepted ++ [unit] }).setClamps d
    else (s.setCluster d { s.cluster d with accepted := (s.cluster d).accepted ++ [unit] }).napDone d := by
  have hfirst : ¬ (s.cluster d).accepted.contains unit = true := by
    rw [List.contains_iff_mem]
    exact hnew
  exact if_neg hfirst

end

/-! ## Doze -/

section
variable {s : State} {d : Nat} (hd : d < clusterCount)
include hd

theorem State.dozeDone_eq (hmode : (s.cluster d).mode = .entering) (hclamps : (s.cluster d).isolated = true) :
    let s1 := s.setCluster d { s.cluster d with mode := if (s.cluster d).wakeSeen then .exiting else .doze, accepted := [],
                                                last := if (s.cluster d).wakeSeen then 3 else 1, wakeSeen := false }
    let s2 := (s1.bumpFld (Reg.PWR_CL_COUNT d) 31 16 1).clusterAnswered d 1 stOK
    s.dozeDone d = if (s.cluster d).wakeSeen = true then s2.noteWakeInEntry d else s2.applyRequest d := by
  have hgoes : ¬ (clusterCount ≤ d ∨ (s.cluster d).mode ≠ .entering ∨ (!(s.cluster d).isolated) = true) := by
    rw [hclamps]
    rintro (h | h | h)
    · exact Nat.not_lt.mpr h hd
    · exact h hmode
    · cases h
  exact if_neg hgoes

end

/-- The cluster runs again, with what retention kept. -/
def State.clusterBack (s : State) (d : Nat) : State :=
  let s1 := s.restoreCluster d (s.cluster d).retSave (s.cluster d).retBanks
  s1.setCluster d { s1.cluster d with mode := .run, isolated := false }

/-- The units of a cluster that runs again are present, and do what they owe. -/
def State.unitsBack (s : State) (d : Nat) : State :=
  if d < 24 then (s.quirePresent d false).refetch d else (s.setPresent (clusterRequester d) true).trainOwned d

/-- The exit of a cluster is told. -/
def State.exitTold (s : State) (d : Nat) : State := (s.raise Reg.PWR_EVENT 1).clusterAnswered d 3 stOK

/-- What waited for the exit of the cluster. -/
def State.afterExit (s : State) (d : Nat) : State :=
  if (s.cluster d).request.isNone then s.clusterAnswered d 1 stABORTED else s.applyRequest d

theorem State.exitDone_eq {s : State} {d : Nat} (hd : d < clusterCount) (hmode : (s.cluster d).mode = .exiting) :
    s.exitDone d = (((s.clusterBack d).unitsBack d).exitTold d).afterExit d := by
  have hgoes : ¬ (clusterCount ≤ d ∨ (s.cluster d).mode ≠ .exiting) := by
    rintro (h | h)
    · exact Nat.not_lt.mpr h hd
    · exact h hmode
  unfold State.exitDone
  rw [if_neg hgoes]
  rfl

/-! ## Hibernate -/

theorem State.writeHibCtrl_noSource {s : State} {v : W32} (hnone : bitsOf v 3 0 = 0) :
    s.writeHibCtrl v = (s.writeContext Reg.PWR_HIB_CTRL v (setBitsOf v 31 31 0)).setBit Reg.PWR_HIB_CTRL 31 false := by
  unfold State.writeHibCtrl
  rw [hnone, bne_self_eq_false, Bool.and_false]
  rfl

theorem State.writeHibCtrl_enters {s : State} {v : W32} (henter : bitOf v 31 = true) (hsome : bitsOf v 3 0 ≠ 0) :
    s.writeHibCtrl v = ((s.writeContext Reg.PWR_HIB_CTRL v v).setBit Reg.PWR_HIB_CTRL 31 false).requestHibernate := by
  have hgo : (bitOf v 31 && bitsOf v 3 0 != 0) = true := by rw [henter, bne_iff_ne.mpr hsome, Bool.and_true]
  unfold State.writeHibCtrl
  dsimp only
  rw [if_neg hsome, if_pos hgo]

theorem State.requestHibernate_idle {s : State} (hbusy : s.pwr.hibBusy = false) (hawake : s.pwr.asleep = false) :
    s.requestHibernate = { s with pwr := { s.pwr with hibBusy := true, hibAccepted := [], wakeSeen := 0 } } := by
  unfold State.requestHibernate
  rw [hbusy, hawake]
  rfl

/-- The state after block `b` has been asked for Hibernate. -/
def State.hibAsked (s : State) (b : Nat) : State := if 16 ≤ b then s.askUnit (b - 16) 8 else s

section
variable {s : State} {b : Nat} (hbusy : s.pwr.hibBusy = true) (hawake : s.pwr.asleep = false) (hb : b ∈ hibBlocks)
include hbusy hawake hb

theorem State.hibAnswer_eq : s.hibAnswer b =
    if s.hibRefuses b = true then s.refuseHibernate b
    else if ((s.hibAsked b).hibDelays b || (s.hibAsked b).pwr.hibAccepted.contains b) = true then s.hibAsked b
    else if ((s.hibAsked b).pwr.hibAccepted ++ [b]).length < hibBlocks.length
      then { s.hibAsked b with pwr.hibAccepted := (s.hibAsked b).pwr.hibAccepted ++ [b] }
    else ({ s.hibAsked b with pwr.hibAccepted := (s.hibAsked b).pwr.hibAccepted ++ [b] } : State).enterHibernate := by
  have hgoes : ¬ (!s.pwr.hibBusy || s.pwr.asleep || !hibBlocks.contains b) = true := by
    rw [hbusy, hawake, List.contains_iff_mem.mpr hb]
    exact Bool.false_ne_true
  exact if_neg hgoes

section
variable {u : State} (haccepts : s.hibRefuses b = false) (hu : u = s.hibAsked b)
include haccepts hu

theorem State.hibAnswer_delays (hdelays : u.hibDelays b = true) : s.hibAnswer b = u := by
  rw [State.hibAnswer_eq hbusy hawake hb, haccepts, ← hu, hdelays]
  rfl

theorem State.hibAnswer_accepts (hready : u.hibDelays b = false) (hnew : b ∉ u.pwr.hibAccepted) :
    s.hibAnswer b = if u.pwr.hibAccepted.length + 1 < hibBlocks.length then { u with pwr.hibAccepted := u.pwr.hibAccepted ++ [b] }
    else ({ u with pwr.hibAccepted := u.pwr.hibAccepted ++ [b] } : State).enterHibernate := by
  have hfirst : u.pwr.hibAccepted.contains b = false := Bool.eq_false_iff.mpr (fun h => hnew (List.contains_iff_mem.mp h))
  rw [State.hibAnswer_eq hbusy hawake hb, haccepts, ← hu, hready, hfirst, List.length_append]
  rfl

end

end

/-- A channel of module memory goes into self-refresh. -/
def sleepChan (m : SMap MemChan) (c : Nat) : SMap MemChan :=
  mapSet (fun _ => {}) m c { mapGet (fun _ => ({} : MemChan)) m c with selfRefresh := true, trained := false }

theorem sleepChan_eq (m : SMap MemChan) (c : Nat) :
    sleepChan m c = mapInsert m c { mapGet (fun _ => ({} : MemChan)) m c with selfRefresh := true, trained := false } := by
  have hawake : ¬ ({ mapGet (fun _ => ({} : MemChan)) m c with selfRefresh := true, trained := false } : MemChan) = {} := fun heq =>
    Bool.noConfusion (show true = false from congrArg MemChan.selfRefresh heq)
  unfold sleepChan mapSet
  rw [if_neg hawake]

/-- The channels of a list end in self-refresh once each is put there. -/
theorem selfRefresh_of_mem (l : List Nat) {c : Nat} : ∀ {m : SMap MemChan},
    (c ∈ l ∨ ((mapGet (fun _ => {}) m c).selfRefresh = true ∧ (mapGet (fun _ => {}) m c).trained = false)) →
    (mapGet (fun _ => {}) (l.foldl sleepChan m) c).selfRefresh = true ∧ (mapGet (fun _ => {}) (l.foldl sleepChan m) c).trained = false := by
  induction l with
  | nil => exact fun h => h.resolve_left (List.not_mem_nil)
  | cons a r ih =>
    intro m h
    refine ih ?_
    rw [sleepChan_eq, mapGet_insert]
    by_cases hca : c = a
    · rw [if_pos hca]
      exact .inr ⟨rfl, rfl⟩
    · rw [if_neg hca]
      exact h.imp_left fun hmem => (List.mem_cons.mp hmem).resolve_left hca

theorem State.enterHibernate_clocked (s : State) : s.enterHibernate.clocked = false := by
  have hasleep : s.enterHibernate.pwr.asleep = true := rfl
  unfold State.clocked
  rw [hasleep, Bool.not_true, Bool.and_false, Bool.false_and]

theorem State.enterHibernate_memChan (s : State) {c : Nat} (hc : c < 16) :
    (s.enterHibernate.memChan c).selfRefresh = true ∧ (s.enterHibernate.memChan c).trained = false := by
  have hsleep : (fun (m : SMap MemChan) c => mapSet (fun _ => {}) m c
      { mapGet (fun _ => ({} : MemChan)) m c with selfRefresh := true, trained := false }) = sleepChan := rfl
  unfold State.memChan State.enterHibernate
  dsimp only
  rw [hsleep]
  exact selfRefresh_of_mem _ (.inl (List.mem_range.mpr hc))

/-- Settles O54: a lemma for each command, in the order of the statement. -/
theorem clusterPower : Obligations.ClusterPower := by
  unfold Obligations.ClusterPower
  refine ⟨?request, ?nap, ?handshake, ?dozed, ?exit, ?quireExit, ?hibernate, ?hibHandshake, ?asleep⟩
  case request =>
    intro s d v hd hopen w s1 req c hc hreq hfld
    have hexec : exec c s = .next (s1.requestIn d req (s1.cluster d) (s1.cluster d).mode) := by
      rw [exec_request hd hopen hc hreq, ← State.clusterRequest_eq, ← hfld]
      rfl
    refine ⟨fun hmode hsome => ?_, fun hmode hrun => ?_, fun hmode hrun => ?_, fun hmode hsome => ?_, fun hmode hrun => ?_,
      fun hmode => ?_, fun hmode => ?_⟩
    · rw [hexec, hmode]
      exact congrArg _ (if_neg hsome)
    · rw [hexec, hmode]
      exact congrArg _ (if_pos hrun)
    · rw [hexec, hmode]
      exact congrArg _ (if_pos hrun)
    · rw [hexec, hmode]
      exact congrArg _ (if_neg hsome)
    · rw [hexec, hmode]
      exact congrArg _ (if_pos hrun)
    · rw [hexec, hmode]
      rfl
    · rcases hmode with ⟨hmode, rfl⟩ | ⟨hmode, rfl⟩
      · rw [hexec, hmode]
        rfl
      · rw [hexec, hmode]
        rfl
  case nap =>
    intro s d hclk hd
    have hwake : exec (.napWake d) s = .next (s.wakeCluster d) := (exec_of_clocked hclk rfl).trans (congrArg _ (if_neg (Nat.not_le.mpr hd)))
    refine ⟨fun hauto hmode => ?_, fun hmode => hwake.trans (congrArg _ (if_pos hmode)), fun hmode hnap => ?_⟩
    · exact (exec_of_clocked hclk rfl).trans (congrArg _ (if_pos ⟨hd, hauto, hmode⟩))
    · exact hwake.trans (congrArg _ (State.wakeCluster_entering hmode hnap))
  case handshake =>
    intro s d unit hclk hd hmode hclamps hunit c refused
    have hanswer : exec (.handshakeAnswer false d unit) s = .next (s.clusterAnswer d unit) := exec_of_clocked hclk rfl
    have hcases := State.clusterAnswer_eq hmode hd hclamps hunit
    refine ⟨fun hrefuses => hanswer.trans (congrArg _ (hcases.trans (if_pos hrefuses))), fun hdelays => ?_, fun haccepts => ?_⟩
    · exact (exec_of_clocked hclk rfl).trans (congrArg _ (State.handshakeDelayLimit_refuses hmode hd hclamps hunit hdelays))
    · intro u c s1
      rw [haccepts] at hcases
      rw [hanswer, hcases]
      refine ⟨fun hdelays => congrArg _ (if_pos hdelays), fun hready hnew => ?_⟩
      rw [if_neg Bool.false_ne_true, if_neg (ne_true_of_eq_false hready), State.acceptEntry_new hnew]
      refine ⟨fun hmore => congrArg _ (if_pos hmore), fun hlast hdoze => congrArg _ ?_, fun hlast hnap => congrArg _ ?_⟩
      · exact (if_neg (Nat.not_lt.mpr hlast)).trans (if_pos hdoze)
      · exact (if_neg (Nat.not_lt.mpr hlast)).trans (if_neg (ne_true_of_eq_false hnap))
  case dozed =>
    intro s d hd hmode hclamps
    refine ⟨fun hwake => congrArg _ ((State.dozeDone_eq hd hmode hclamps).trans ?_),
      fun hwake => congrArg _ ((State.dozeDone_eq hd hmode hclamps).trans ?_)⟩
    · rw [hwake]
      rfl
    · rw [hwake]
      rfl
  case exit =>
    intro s d hlo hd hmode _ s1 s2
    have hunits : (s.clusterBack d).unitsBack d = ((s.clusterBack d).setPresent (clusterRequester d) true).trainOwned d :=
      if_neg (Nat.not_lt.mpr hlo)
    exact congrArg _ ((State.exitDone_eq hd hmode).trans (congrArg (fun t : State => (t.exitTold d).afterExit d) hunits))
  case quireExit =>
    intro s q hq hmode s1 s2
    have hd : q < clusterCount := Nat.lt_trans hq (by decide)
    have hunits : (s.clusterBack q).unitsBack q = ((s.clusterBack q).quirePresent q false).refetch q := if_pos hq
    exact congrArg _ ((State.exitDone_eq hd hmode).trans (congrArg (fun t : State => (t.exitTold q).afterExit q) hunits))
  case hibernate =>
    intro s v hopen henter
    have hexec : exec (.hibernateEnter v) s = .next (s.writeHibCtrl v) := congrArg _ ((if_pos henter).trans (hostWriteTo_open hopen _))
    rw [hexec]
    refine ⟨fun hnone => congrArg _ (State.writeHibCtrl_noSource hnone), fun hsome hbusy hawake => congrArg _ ?_⟩
    exact (State.writeHibCtrl_enters henter hsome).trans (State.requestHibernate_idle hbusy hawake)
  case hibHandshake =>
    intro s b n hclk hbusy hawake hb
    have hexec : exec (.handshakeAnswer true n b) s = .next (s.hibAnswer b) := exec_of_clocked hclk rfl
    rw [hexec]
    refine ⟨fun hrefuses => congrArg _ ((State.hibAnswer_eq hbusy hawake hb).trans (if_pos hrefuses)), fun haccepts => ?_⟩
    intro u
    have hu : u = s.hibAsked b := rfl
    clear_value u
    refine ⟨fun hdelays => congrArg _ (State.hibAnswer_delays hbusy hawake hb haccepts hu hdelays), fun hready hnew hmore => congrArg _ ?_,
      fun hready hnew hlast => congrArg _ ?_⟩
    · rw [State.hibAnswer_accepts hbusy hawake hb haccepts hu hready hnew, if_pos hmore]
    · rw [State.hibAnswer_accepts hbusy hawake hb haccepts hu hready hnew, if_neg (Nat.not_lt.mpr hlast)]
  case asleep =>
    exact fun s => ⟨rfl, rfl, rfl, rfl, s.enterHibernate_clocked, fun _ hc => s.enterHibernate_memChan hc⟩

end Sys2Proof.Machine
end

section
/-! Serham's messages, updates and records (R419 to R422, R428 to R430). -/

namespace Sys2Proof.Machine

/-! ## Messages that are due -/

section
variable {s : State} {tr seq op : Nat} (hdue : s.msgDue tr seq op = true)
include hdue

/-- A message that a freeze does not refuse has its own effect. -/
theorem State.message_always (f : State → State) : s.message tr seq op true f = f s := by
  unfold State.message
  rw [hdue, Bool.not_true, Bool.and_false]
  rfl

theorem State.message_thawed (hthawed : s.glb.frozen = false) (f : State → State) : s.message tr seq op false f = f s := by
  unfold State.message
  rw [hdue, hthawed]
  rfl

theorem State.message_frozen (hfrozen : s.glb.frozen = true) (f : State → State) :
    s.message tr seq op false f = s.respond tr seq op stREFUSED (s.lengthClamped tr) [] := by
  unfold State.message
  rw [hdue, hfrozen]
  rfl

end

theorem State.getLog_counted (s : State) (tr seq : Nat) (first : W32) {count : Nat} (hlo : 1 ≤ count) (hhi : count ≤ 7) :
    s.getLog tr seq first count = s.respond tr seq 0x03 stOK (s.lengthClamped tr)
      ((((s.col.flashLog ++ s.col.mram).filter (fun e => decide (first.toNat ≤ e.seq))).take count).flatMap LogEntry.bytes) := by
  have hn : max 1 (min 7 count) = count := by omega
  unfold State.getLog
  dsimp only
  rw [hn, bne_self_eq_false, Bool.false_or]

/-! ## Updates -/

section
variable {s : State} {tr seq : Nat} {x : Session} (hsession : s.col.session = some x) (htr : x.transport = tr)
include hsession htr

theorem State.inSession_own (op : Nat) (f : Session → State) : s.inSession tr seq op f = f x := by
  unfold State.inSession
  rw [hsession]
  exact if_pos htr

theorem State.updateData_fits {s1 : State} {off : Nat} {data : List Byte} (hlen : data.length ≤ payloadLimit tr - 4)
    (hsize : off + data.length ≤ imageMax) (hstart : s.requestActivity .flashWrite = (s1, true)) : s.updateData tr seq off data =
      (((s1.setSlot x.slot { s1.slotOf x.slot with data := insertChunk (s1.slotOf x.slot).data off data }).answer tr seq 0x11 stOK
        false).endActivity .flashWrite).releaseMsg (tr, seq, 0x11) := by
  unfold State.updateData
  rw [State.inSession_own hsession htr]
  dsimp only
  rw [List.take_of_length_le hlen, decide_eq_false (Nat.not_lt.mpr hlen), if_neg (Nat.not_lt.mpr hsize)]
  unfold State.flashWrite
  rw [hstart]
  rfl

end

/-- The status of a commit. -/
def commitStatus (y : ImageSlot) (x : Session) (fused : Nat) (genuine : Bool) (svn : Nat) : Nat :=
  if !genuine || decide (coverage y.data < x.length) then stBAD_SIG
  else if svn < fused then stROLLBACK else if 64 < svn then stSVN_RANGE else stOK

section
variable {y : ImageSlot} {x : Session} {fused svn : Nat} {genuine : Bool}

theorem commitStatus_good (hgood : genuine = true ∧ x.length ≤ coverage y.data) : commitStatus y x fused genuine svn =
    if svn < fused then stROLLBACK else if 64 < svn then stSVN_RANGE else stOK := by
  obtain ⟨hgenuine, hwhole⟩ := hgood
  unfold commitStatus
  rw [hgenuine, decide_eq_false (Nat.not_lt.mpr hwhole)]
  rfl

theorem commitStatus_bad (hbad : ¬ (genuine = true ∧ x.length ≤ coverage y.data)) : commitStatus y x fused genuine svn = stBAD_SIG := by
  refine if_pos ?_
  rw [Bool.or_eq_true_iff, Bool.not_eq_true', decide_eq_true_iff]
  by_cases hgenuine : genuine = true
  · exact .inr (Nat.not_le.mp fun h => hbad ⟨hgenuine, h⟩)
  · exact .inl (Bool.eq_false_iff.mpr hgenuine)

end

section
variable {s : State} {tr seq : Nat} {x : Session} (hsession : s.col.session = some x) (htr : x.transport = tr)
include hsession htr

theorem State.updateCommit_eq (genuine : Bool) (version : W32) (svn : Nat) :
    let st := commitStatus (s.slotOf x.slot) x s.col.fusedSvn genuine svn
    let s1 := if st = stOK then (s.setSlot x.slot { s.slotOf x.slot with
        mode := .valid, version := version, svn := svn % 256, genuine := true }).setSession none
      else s.setSlot x.slot {}
    s.updateCommit tr seq genuine version svn = (s1.logUpdate 0x12 x.slot st).answer tr seq 0x12 st false := by
  unfold State.updateCommit
  exact State.inSession_own hsession htr _ _

theorem State.updateCommit_failed {st : Nat} {genuine : Bool} (version : W32) {svn : Nat}
    (hst : commitStatus (s.slotOf x.slot) x s.col.fusedSvn genuine svn = st) (hfailed : st ≠ stOK) :
    s.updateCommit tr seq genuine version svn = ((s.setSlot x.slot {}).logUpdate 0x12 x.slot st).answer tr seq 0x12 st false := by
  rw [State.updateCommit_eq hsession htr, hst]
  dsimp only
  rw [if_neg hfailed]

theorem State.updateCommit_ok {genuine : Bool} (version : W32) {svn : Nat}
    (hst : commitStatus (s.slotOf x.slot) x s.col.fusedSvn genuine svn = stOK) (hsvn : svn ≤ 64) :
    s.updateCommit tr seq genuine version svn = (((s.setSlot x.slot { s.slotOf x.slot with
      mode := .valid, version := version, svn := svn, genuine := true }).setSession none).logUpdate 0x12 x.slot stOK).answer tr seq 0x12 stOK false := by
  rw [State.updateCommit_eq hsession htr, hst, Nat.mod_eq_of_lt (show svn < 256 by omega)]
  rfl

end

theorem State.updateConfirm_none {s : State} {tr seq : Nat} (hnone : s.trialRuns = false) :
    s.updateConfirm tr seq = s.answer tr seq 0x14 stREFUSED false := by
  unfold State.updateConfirm
  rw [hnone]
  rfl

theorem State.updateConfirm_trial {s : State} {tr seq : Nat} (htrial : s.trialRuns = true) :
    let r := s.col.running
    let c := (s.col.setSlot r { s.slotOf r with mode := .active }).setSlot (1 - r)
      { s.slotOf (1 - r) with mode := if (s.slotOf (1 - r)).mode == .empty then .empty else .valid }
    s.updateConfirm tr seq = (({ s with col := { c with trialBooted := false, fusedSvn := max c.fusedSvn (s.slotOf r).svn } } : State).logUpdate
      0x14 r stOK).answer tr seq 0x14 stOK false := by
  unfold State.updateConfirm
  rw [htrial]
  rfl

theorem State.updateActivate_valid {s : State} {tr seq slot : Nat} (hsession : s.col.session = none) (hslot : slot ≤ 1)
    (hvalid : (s.slotOf slot).mode = .valid) :
    let o := s.slotOf (1 - slot)
    let s1 := (s.setSlot (1 - slot) { o with mode := if o.mode == .trial then .valid else o.mode }).setSlot slot
      { s.slotOf slot with mode := .trial }
    s.updateActivate tr seq slot = (({ s1 with col.trialBooted := false } : State).logUpdate 0x13 slot stOK).answer tr seq 0x13 stOK false := by
  have htaken : ¬ (1 < slot ∨ (s.slotOf slot).mode ≠ .valid) := not_or.mpr ⟨Nat.not_lt.mpr hslot, Classical.not_not.mpr hvalid⟩
  unfold State.updateActivate State.activateSlot
  rw [hsession]
  exact if_neg htaken

theorem State.writeRecord_fits {s s1 : State} {tr seq n : Nat} {body : List Byte} (hn : n ≤ 3) (hbody : body.length = recordLength n)
    (hstart : s.requestActivity .flashWrite = (s1, true)) : s.writeRecord tr seq n body =
      (((({ s1 with col.records := mapSet (fun _ => []) s1.col.records n body } : State).answer tr seq 0x16 stOK false).endActivity
        .flashWrite).releaseMsg (tr, seq, 0x16)) := by
  unfold State.writeRecord State.flashWrite
  rw [if_neg (not_or.mpr ⟨Nat.not_lt.mpr hn, Classical.not_not.mpr hbody⟩), hstart]
  rfl

theorem execSessionTimeout_closes {s : State} {x : Session} (hsession : s.col.session = some x) (hup : s.col.serhamUp = true) :
    execSessionTimeout s = .next (s.closeSession x) := by
  unfold execSessionTimeout
  rw [hsession, hup]
  rfl

/-- Settles O55: a lemma for each message, in the order of the statement. -/
theorem serhamMessages : Obligations.SerhamMessages := by
  unfold Obligations.SerhamMessages
  refine ⟨?any, ?frozen, ?thawed, ?timeout, ?echo⟩
  case any =>
    intro s tr seq
    refine ⟨fun hdue => congrArg _ (State.message_always hdue _), fun hdue => congrArg _ (State.message_always hdue _),
      fun first count hdue hlo hhi => ?log, fun op hunknown hop hdue => ?unknown⟩
    case log => exact congrArg _ ((State.message_always hdue _).trans (s.getLog_counted tr seq first hlo hhi))
    case unknown =>
      have hnew : ¬ (knownOps.contains op || decide (256 ≤ op)) = true := by
        rw [decide_eq_false (Nat.not_le.mpr hop), Bool.or_false, List.contains_iff_mem]
        exact hunknown
      exact congrArg _ ((if_neg hnew).trans (if_pos hdue))
  case frozen => exact fun s tr seq hfrozen hdue slot length => congrArg _ (State.message_frozen hdue hfrozen _)
  case thawed =>
    intro s tr seq hthawed
    refine ⟨fun slot length hdue => ?begin, fun x off data s1 hdue hsession htr hlen hsize hstart => ?data,
      fun x genuine version svn hdue hsession htr => ?commit, fun slot hdue hsession hslot hvalid => ?activate, fun hdue => ?confirm,
      fun x hdue hsession htr => ?abort, fun n body s1 hdue hn hbody hstart => ?record⟩
    case begin =>
      have hexec : exec (.updateBegin tr seq slot length) s = .next (s.updateBegin tr seq slot length) :=
        congrArg _ (State.message_thawed hdue hthawed _)
      rw [hexec]
      refine ⟨fun hopen => congrArg _ (if_pos hopen), fun hnone hslot hsize hother => congrArg _ ?_, fun hnone hnormal hrunning => congrArg _ ?_⟩
      · have hfree : ¬ (1 < slot ∨ imageMax < length ∨ (slot = s.col.running ∧ (!s.col.recovery) = true)) := by
          rintro (h | h | ⟨h, -⟩)
          · omega
          · exact Nat.not_lt.mpr hsize h
          · exact hother h
        unfold State.updateBegin
        rw [hnone]
        exact if_neg hfree
      · have hown : 1 < slot ∨ imageMax < length ∨ (slot = s.col.running ∧ (!s.col.recovery) = true) :=
          .inr (.inr ⟨hrunning, by rw [hnormal]; rfl⟩)
        unfold State.updateBegin
        rw [hnone]
        exact if_pos hown
    case data =>
      exact congrArg _ ((State.message_thawed hdue hthawed _).trans (State.updateData_fits hsession htr hlen hsize hstart))
    case commit =>
      have hexec : exec (.updateCommit tr seq genuine version svn) s = .next (s.updateCommit tr seq genuine version svn) :=
        congrArg _ (State.message_thawed hdue hthawed _)
      rw [hexec]
      refine ⟨fun hgood hfused hsvn => congrArg _ ?_, fun hgood hold => congrArg _ ?_, fun hbad => congrArg _ ?_⟩
      · refine State.updateCommit_ok hsession htr version ((commitStatus_good hgood).trans ?_) hsvn
        rw [if_neg (Nat.not_lt.mpr hfused), if_neg (Nat.not_lt.mpr hsvn)]
      · exact State.updateCommit_failed hsession htr version ((commitStatus_good hgood).trans (if_pos hold)) (by decide)
      · exact State.updateCommit_failed hsession htr version (commitStatus_bad hbad) (by decide)
    case activate => exact congrArg _ ((State.message_thawed hdue hthawed _).trans (State.updateActivate_valid hsession hslot hvalid))
    case confirm =>
      have hexec : exec (.updateConfirm tr seq) s = .next (s.updateConfirm tr seq) := congrArg _ (State.message_thawed hdue hthawed _)
      rw [hexec]
      exact ⟨fun hnone => congrArg _ (State.updateConfirm_none hnone), fun htrial => congrArg _ (State.updateConfirm_trial htrial)⟩
    case abort =>
      exact congrArg _ ((State.message_thawed hdue hthawed _).trans (State.inSession_own hsession htr _ _))
    case record => exact congrArg _ ((State.message_thawed hdue hthawed _).trans (State.writeRecord_fits hn hbody hstart))
  case timeout => exact fun s x hsession hup => execSessionTimeout_closes hsession hup
  case echo =>
    intro s data hup haddr
    have hheard : (s.col.serhamUp && s.ipv4 != 0) = true := by rw [hup, bne_iff_ne.mpr haddr, Bool.and_true]
    exact ⟨congrArg _ (if_pos hheard), congrArg _ (if_pos hheard)⟩

end Sys2Proof.Machine
end

section
/-! Freeze, read-out, power messages, protection and maintenance (R397, R421, R423 to R427, R432 to R435). -/

namespace Sys2Proof.Machine

/-! ## The freeze instant -/

/-- Two states have the same GLB and the same Colophon. -/
def SameColophon (s t : State) : Prop := t.glb = s.glb ∧ t.col = s.col

theorem SameColophon.trans {s t u : State} (h : SameColophon s t) (h' : SameColophon t u) : SameColophon s u :=
  ⟨h'.1.trans h.1, h'.2.trans h.2⟩

theorem sameColophon_wr (s : State) (a : Nat) (v : W32) : SameColophon s (s.wr a v) := ⟨rfl, rfl⟩

theorem sameColophon_putRsp (l : List W32) : ∀ (s : State) (i : Nat), SameColophon s (s.putRsp i l) := by
  induction l with
  | nil => exact fun _ _ => ⟨rfl, rfl⟩
  | cons w r ih =>
    intro s i
    unfold State.putRsp
    split
    · exact (sameColophon_wr s _ w).trans (ih _ _)
    · exact ⟨rfl, rfl⟩

/-- In a frozen module an event only sets its bit: no vector is asserted. -/
theorem sameColophon_raise {s : State} (hfrozen : s.glb.frozen = true) (ev b : Nat) : SameColophon s (s.raise ev b) := by
  have hset := sameColophon_wr s ev (s.rd ev ||| BitVec.ofNat 32 (2 ^ b))
  have hassert : ∀ t : State, t.glb.frozen = true → t.assertBlock ev = t := fun t h => if_pos (by rw [h]; rfl)
  unfold State.raise State.raiseMask
  dsimp only
  split
  · exact hset
  · rw [hassert _ (by rw [hset.1]; exact hfrozen)]
    exact hset

theorem sameColophon_respond {s : State} (hfrozen : s.glb.frozen = true) (tr seq op status : Nat) (clamped : Bool) (payload : List Byte) :
    SameColophon s (s.respond tr seq op status clamped payload) := by
  have hclamp : SameColophon s (s.clampIf clamped Reg.COL_CLAMP_COUNT) := by
    cases clamped
    · exact ⟨rfl, rfl⟩
    · exact sameColophon_wr s _ _
  unfold State.respond
  dsimp only
  split
  · have hput : ∀ l, SameColophon s (((s.clampIf clamped Reg.COL_CLAMP_COUNT).putRsp 0 l).wr Reg.COL_MB_CTRL 2) := fun l =>
      (hclamp.trans (sameColophon_putRsp l _ 0)).trans (sameColophon_wr _ _ 2)
    exact (hput _).trans (sameColophon_raise (by rw [(hput _).1]; exact hfrozen) _ _)
  · exact hclamp

theorem glb_answerPower {s : State} (hfrozen : s.glb.frozen = true) (p : PowerReply → Bool) (status : Nat) :
    (s.answerPower p status).glb = s.glb ∧
      (s.answerPower p status).col = { s.col with replies := (s.answerPower p status).col.replies } := by
  have hfold : ∀ (l : List PowerReply) (t : State), t.glb.frozen = true →
      SameColophon t (l.foldl (fun s r => s.respond r.transport r.seq 0x30 status false []) t) := by
    intro l
    induction l with
    | nil => exact fun _ _ => ⟨rfl, rfl⟩
    | cons r l ih =>
      intro t ht
      have hfirst := sameColophon_respond ht r.transport r.seq 0x30 status false []
      exact hfirst.trans (ih _ (by rw [hfirst.1]; exact ht))
  unfold State.answerPower
  dsimp only
  split
  · exact ⟨rfl, rfl⟩
  · obtain ⟨hglb, hcol⟩ := hfold (s.col.replies.filter p) { s with col.replies := s.col.replies.filter (fun r => !p r) } hfrozen
    exact ⟨hglb, by rw [hcol]⟩

/-- What a freeze records in the Colophon is not in the log. -/
theorem ColState.append_freeze (c : ColState) (time : W64) (type sev : Nat) (x : BitVec 128) :
    (c.append time type sev x).frozenRaw = c.frozenRaw ∧ (c.append time type sev x).freezeCause = c.freezeCause ∧
      (c.append time type sev x).freezeLine = c.freezeLine := by
  unfold ColState.append
  dsimp only
  repeat' split
  all_goals exact ⟨rfl, rfl, rfl⟩

/-- What a freeze latches and stops at once, before it answers and logs. -/
def State.frozenNow (s : State) (cause line : Nat) : State :=
  { s with
    glb.frozen := true
    col := { s.col with frozenRaw := s.tb.raw, freezeCause := cause, freezeLine := line, freezeLow := s.bit Reg.COL_FREEZE_CFG 1 }
    pwr := { s.pwr with clusters := mapMapSet (fun _ => {}) (fun _ c => c.abortEntry) s.pwr.clusters,
                        hibBusy := s.pwr.hibBusy && s.pwr.asleep }
    mm.chans := (List.range 16).foldl (fun m c =>
      mapSet (fun _ => {}) m c { mapGet (fun _ => ({} : MemChan)) m c with selfRefresh := true }) s.mm.chans }

theorem State.freezeNow_first {s : State} {cause line : Nat} (hthawed : s.glb.frozen = false) :
    let u := s.frozenNow cause line
    ∃ p time x, s.freezeNow cause line =
      { u.answerPower p stABORTED with col := (u.answerPower p stABORTED).col.append time 0x07 1 x } := by
  have hfirst : ¬ s.glb.frozen = true := by rw [hthawed]; exact Bool.false_ne_true
  exact ⟨_, _, _, if_neg hfirst⟩

theorem State.freezeNow_latches {s : State} (cause line : Nat) (hthawed : s.glb.frozen = false) :
    (s.freezeNow cause line).glb.frozen = true ∧ (s.freezeNow cause line).col.frozenRaw = s.tb.raw ∧
      (s.freezeNow cause line).col.freezeCause = cause ∧ (s.freezeNow cause line).col.freezeLine = line ∧
      (s.freezeNow cause line).clocked = false := by
  obtain ⟨p, time, x, hfreeze⟩ := State.freezeNow_first (cause := cause) (line := line) hthawed
  obtain ⟨hglb, hcol⟩ := glb_answerPower (s := s.frozenNow cause line) rfl p stABORTED
  obtain ⟨hraw, hcause, hline⟩ := ColState.append_freeze ((s.frozenNow cause line).answerPower p stABORTED).col time 0x07 1 x
  have hfrozen : (s.freezeNow cause line).glb.frozen = true := by
    rw [hfreeze]
    exact congrArg GlbState.frozen hglb
  refine ⟨hfrozen, ?_, ?_, ?_, ?_⟩
  · rw [hfreeze]
    exact hraw.trans (congrArg ColState.frozenRaw hcol)
  · rw [hfreeze]
    exact hcause.trans (congrArg ColState.freezeCause hcol)
  · rw [hfreeze]
    exact hline.trans (congrArg ColState.freezeLine hcol)
  · unfold State.clocked
    rw [hfrozen, Bool.not_true, Bool.and_false]

/-! ## Freeze, read-out and power messages -/

/-- A freeze that nothing sends on freezes this module. -/
theorem State.requestFreeze_here {s : State} (cause line lead : Nat) (hthawed : s.glb.frozen = false)
    (hcast : s.bit Reg.COL_FREEZE_CFG 2 = false) : s.requestFreeze cause line false lead = s.freezeNow cause line := by
  unfold State.requestFreeze
  rw [hthawed, hcast]
  rfl

theorem State.requestFreeze_casts {s : State} (cause line lead : Nat) (hthawed : s.glb.frozen = false)
    (hcast : s.bit Reg.COL_FREEZE_CFG 2 = true) : s.requestFreeze cause line false lead = (s.startBroadcast false 0 lead).1 := by
  unfold State.requestFreeze
  rw [hthawed, hcast]
  rfl

theorem State.thawed_of_tclkRuns {s : State} (h : s.tclkRuns = true) : s.glb.frozen = false := by
  unfold State.tclkRuns at h
  rw [Bool.and_eq_true_iff, Bool.and_eq_true_iff, Bool.not_eq_true'] at h
  exact h.1.2

theorem State.freezeMessage_default {s : State} {tr seq : Nat} (hawake : s.pwr.asleep = false)
    (hthawed : (s.answer tr seq 0x20 stOK false).glb.frozen = false)
    (hcast : (s.answer tr seq 0x20 stOK false).bit Reg.COL_FREEZE_CFG 2 = false) :
    s.freezeMessage tr seq false 0 = (s.answer tr seq 0x20 stOK false).freezeNow 4 0 := by
  unfold State.freezeMessage
  rw [hawake]
  exact State.requestFreeze_here 4 0 _ hthawed hcast

theorem State.readout_frozen {s : State} {tr seq space addr sub n : Nat} (hfrozen : s.glb.frozen = true) (hn : n ≤ readoutLimit tr) :
    s.readout tr seq space addr sub n = s.drawn.respond tr seq 0x21 stOK ((s.readoutData space addr sub n).2 || s.lengthClamped tr)
      (s.readoutData space addr sub n).1 := by
  unfold State.readout
  rw [hfrozen, Nat.min_eq_right hn]
  dsimp only
  rw [bne_self_eq_false, Bool.false_or]
  rfl

section
variable {s : State} (tr seq : Nat) (hawake : s.pwr.asleep = false)
include hawake

theorem State.powerDoze_quire {d : Nat} (save : Bool) {banks : Nat} (hd : d < 24) (hbanks : banks < 16) (hmode : (s.cluster d).mode ≠ .doze) :
    s.powerDoze tr seq d save banks = ((((s.setFld (Reg.PWR_CL_CTRL d) 31 30 2).setBit (Reg.PWR_CL_CTRL d) 28 save).setFld
      (Reg.PWR_CL_CTRL d) 27 24 banks).awaitPower tr seq 1 (some d)).clusterRequest d 2 := by
  have htaken : ¬ (clusterCount ≤ d ∨ s.pwr.asleep = true) :=
    not_or.mpr ⟨Nat.not_le.mpr (Nat.lt_trans hd (by decide)), by rw [hawake]; exact Bool.false_ne_true⟩
  unfold State.powerDoze
  rw [if_neg htaken, if_neg hmode, if_pos hd, Nat.mod_eq_of_lt hbanks]
  dsimp only
  rw [bne_self_eq_false]
  rfl

theorem State.powerWake_running {d : Nat} (hd : d < clusterCount) (hmode : ((s.setFld (Reg.PWR_CL_CTRL d) 31 30 0).cluster d).mode = .run) :
    s.powerWake tr seq (some d) = ((s.setFld (Reg.PWR_CL_CTRL d) 31 30 0).clusterRequest d 0).answer tr seq 0x30 stOK false := by
  have htaken : ¬ (clusterCount ≤ d ∨ s.pwr.asleep = true) :=
    not_or.mpr ⟨Nat.not_le.mpr hd, by rw [hawake]; exact Bool.false_ne_true⟩
  unfold State.powerWake
  simp only [hmode]
  exact if_neg htaken

theorem State.powerWake_module (hbusy : s.pwr.hibBusy = false) : s.powerWake tr seq none = s.answer tr seq 0x30 stOK false := by
  unfold State.powerWake
  rw [hawake, hbusy]
  rfl

end

theorem execPowerHibernate_awake {s : State} {tr seq : Nat} (hdue : s.msgDue tr seq 0x30 = true) (hthawed : s.glb.frozen = false)
    (hawake : s.pwr.asleep = false) : execPowerHibernate tr seq s =
      .next (if s.fld Reg.PWR_HIB_CTRL 3 0 = 0 then s.answer tr seq 0x30 stREFUSED false else (s.awaitPower tr seq 2 none).requestHibernate) := by
  unfold execPowerHibernate
  rw [State.message_thawed hdue hthawed, hawake]
  rfl

/-! ## Protection and maintenance -/

theorem State.protectCritical_cool (s : State) (n : Nat) {t : Int} (ht : t < 1840) :
    s.protectCritical n t = { s with col := { s.col with critical := false, thermLow := s.col.thermLow } } := by
  unfold State.protectCritical
  rw [decide_eq_false (Int.not_le.mpr ht)]
  dsimp only
  rw [Bool.or_false]
  rfl

theorem makeRoom_fits (fuel : Nat) {l : List LogEntry} {n : Nat} (h : l.length + n ≤ flashLogSize) : makeRoom fuel l n = l := by
  cases fuel with
  | zero => rfl
  | succ f => exact if_pos h

theorem execCompactionDone_fits {s : State} (hruns : s.activityRuns .compaction = true)
    (hfits : s.col.flashLog.length + (s.col.mram.take (mramSize / 2)).length ≤ flashLogSize) : execCompactionDone s =
      .next { s.endActivity .compaction with col := { s.col with
        flashLog := s.col.flashLog ++ s.col.mram.take (mramSize / 2), mram := s.col.mram.drop (mramSize / 2) } } := by
  unfold execCompactionDone
  dsimp only
  rw [hruns, makeRoom_fits 8 hfits]
  rfl

theorem execMaintStart_starts {s : State} {a : Activity} (hfirst : s.startable [] s.mm.waiting = some a) (hclk : s.clocked = true) :
    execMaintStart s = .next (s.startActivity a) := by
  unfold execMaintStart
  rw [hfirst, hclk]
  rfl

theorem State.thermalShutdown_critical {s : State} (hpower : s.rst.power = .on) (hup : s.col.serhamUp = true)
    (hcritical : s.col.critical = true) : s.thermalShutdown =
      (s.logThermal (hottest s.col.sensors.junction).1 (hottest s.col.sensors.junction).2 4 3).unpowered .thermal true := by
  unfold State.thermalShutdown
  rw [hpower, hup, hcritical]
  rfl

/-- Settles O56: a lemma for each command, in the order of the statement. -/
theorem freezeAndProtection : Obligations.FreezeAndProtection := by
  unfold Obligations.FreezeAndProtection
  refine ⟨?freeze, ?message, ?pin, ?readout, ?power, ?sample, ?cool, ?rest⟩
  case freeze => exact fun s cause line => ⟨fun hfrozen => if_pos hfrozen, fun hthawed => State.freezeNow_latches cause line hthawed⟩
  case message =>
    intro s tr seq leadUs hdue hthawed
    refine ⟨fun hasleep b => ?_, fun hawake hlead _ hthawed' hcast => ?_⟩
    · have hexec : exec (.freeze tr seq b leadUs) s = .next (s.freezeMessage tr seq b leadUs) :=
        congrArg _ (State.message_thawed hdue hthawed _)
      exact hexec.trans (congrArg _ (if_pos hasleep))
    · subst hlead
      exact congrArg _ ((State.message_thawed hdue hthawed _).trans (State.freezeMessage_default hawake hthawed' hcast))
  case pin =>
    intro s hruns hpin
    have hheard : (s.tclkRuns && s.bit Reg.COL_FREEZE_CFG 0) = true := by rw [hruns, hpin]; rfl
    have hthawed := State.thawed_of_tclkRuns hruns
    exact ⟨fun hcast => congrArg _ ((if_pos hheard).trans (State.requestFreeze_here 1 0 _ hthawed hcast)),
      fun hcast => congrArg _ ((if_pos hheard).trans (State.requestFreeze_casts 1 0 _ hthawed hcast))⟩
  case readout =>
    intro s tr seq space addr sub n hdue
    have hexec : exec (.readout tr seq space addr sub n) s = .next (s.readout tr seq space addr sub n) :=
      congrArg _ (State.message_always hdue _)
    rw [hexec]
    exact ⟨fun hthawed => congrArg _ (if_pos (by rw [hthawed]; rfl)), fun hfrozen hn => congrArg _ (State.readout_frozen hfrozen hn)⟩
  case power =>
    intro s tr seq hdue hthawed hawake
    refine ⟨fun d save banks hd hbanks hmode => ?doze, fun hnone => ?noSource, fun hsome => ?hibernate, fun d hd _ hmode => ?wake,
      fun hbusy => ?wakeModule⟩
    case doze => exact congrArg _ ((State.message_thawed hdue hthawed _).trans (State.powerDoze_quire tr seq hawake save hd hbanks hmode))
    case noSource => exact (execPowerHibernate_awake hdue hthawed hawake).trans (congrArg _ (if_pos hnone))
    case hibernate => exact (execPowerHibernate_awake hdue hthawed hawake).trans (congrArg _ (if_neg hsome))
    case wake => exact congrArg _ ((State.message_thawed hdue hthawed _).trans (State.powerWake_running tr seq hawake hd hmode))
    case wakeModule => exact congrArg _ ((State.message_thawed hdue hthawed _).trans (State.powerWake_module tr seq hawake hbusy))
  case sample => exact fun s junction lid vin iin power rails hup => congrArg _ (if_pos hup)
  case cool => exact fun s n t ht => s.protectCritical_cool n ht
  case rest =>
    intro s
    refine ⟨fun hhot hlo hhi => ?step, fun hcool hlo => ?restore, fun hup hcool => ?therm, fun hup hcool => ?alert, fun hup hhalf => ?log,
      fun hruns hfits => execCompactionDone_fits hruns hfits, fun a hfirst hclk => execMaintStart_starts hfirst hclk,
      fun hpower hup hcritical => congrArg _ (State.thermalShutdown_critical hpower hup hcritical)⟩
    case step => exact congrArg _ (if_pos (by rw [hhot, decide_eq_true hlo, decide_eq_true hhi]; rfl))
    case restore => exact congrArg _ (if_pos (by rw [hcool, decide_eq_true hlo]; rfl))
    case therm => exact congrArg _ ((if_neg (by rw [hup]; exact Bool.false_ne_true)).trans (if_neg (ne_true_of_eq_false hcool)))
    case alert => exact congrArg _ ((if_neg (by rw [hup]; exact Bool.false_ne_true)).trans (if_neg (ne_true_of_eq_false hcool)))
    case log => exact congrArg _ (if_pos (by rw [hup, decide_eq_true hhalf]; rfl))

end Sys2Proof.Machine
end

section
/-! A message that waits for a flash write when a rail fails (R424, R451). -/

namespace Sys2Proof.Machine

/-- The module is on, and a WRITE_RECORD of the UART waits for a flash write. -/
def waitingRecord : State := { rst.power := .on, col := { serhamUp := true, stalled := [(viaUart, 0, 0x16)] } }

/-- The messages that wait for a flash write. -/
def stalledMessages (r : Res) : List (Nat × Nat × Nat) :=
  match r with
  | .next t => t.col.stalled
  | .fault _ => []
  | .refused _ => []

theorem stalledMessages_railFault : stalledMessages (exec .railFault waitingRecord) = [] := by decide +kernel

/-- Refutes O58: after a rail fault no message waits any more, neither a POWER message for its transition nor another for a flash write.
The clause for RAIL_FAULT empties the list of the POWER messages alone; in `waitingRecord` a message of the other kind waits. -/
theorem not_resetsAndSupplies : ¬ Obligations.ResetsAndSupplies := by
  intro h
  obtain ⟨hcommands, -⟩ := h
  obtain ⟨-, -, -, -, -, -, -, -, -, -, hfault, -⟩ := hcommands waitingRecord
  have hstalled := congrArg stalledMessages (hfault rfl rfl)
  rw [stalledMessages_railFault] at hstalled
  revert hstalled
  decide +kernel

end Sys2Proof.Machine
end

section
/-! The Vat and the Press: capture, triggers, spill and replay (R364 to R385). -/

namespace Sys2Proof.Machine

/-! ## The halves a descriptor names -/

theorem vatHalves_named {d : Desc} (h : d.fld 0x10 1 0 ≠ 0) : (vatHalves d).2 = false := beq_false_of_ne h

section
variable {s : State} {d : Desc} (hnamed : d.fld 0x10 1 0 ≠ 0)
include hnamed

theorem State.vatArmDesc_named : s.vatArmDesc d =
    if (vatHalves d).1.all s.settleOffers.vatFree
      then (s.settleOffers.vatEvents ((vatHalves d).1.foldl State.vatArm s.settleOffers)).complete (d.ref false) stOK 0
    else s.settleOffers.complete (d.ref false) stREFUSED 0 := by
  unfold State.vatArmDesc
  dsimp only
  rw [vatHalves_named hnamed, State.clampDesc_false]

theorem State.vatArmDesc_free (hfree : ∀ h ∈ (vatHalves d).1, s.settleOffers.vatFree h = true) : s.vatArmDesc d =
    (s.settleOffers.vatEvents ((vatHalves d).1.foldl State.vatArm s.settleOffers)).complete (d.ref false) stOK 0 :=
  (State.vatArmDesc_named hnamed).trans (if_pos (List.all_eq_true.mpr hfree))

theorem State.vatArmDesc_refused {h : Nat} (hmem : h ∈ (vatHalves d).1) (hbusy : s.settleOffers.vatFree h = false) :
    s.vatArmDesc d = s.settleOffers.complete (d.ref false) stREFUSED 0 := by
  have hnot : ¬ (vatHalves d).1.all s.settleOffers.vatFree = true := fun hall =>
    Bool.false_ne_true (hbusy.symm.trans (List.all_eq_true.mp hall h hmem))
  exact (State.vatArmDesc_named hnamed).trans (if_neg hnot)

theorem State.vatTriggerDesc_named : s.vatTriggerDesc d =
    (s.settleOffers.vatSettle ((vatHalves d).1.foldl (fun s h => s.vatTrigger h ⟨s.tb.time16, 0, 4, 0, 0⟩) s.settleOffers)).complete
      (d.ref false) stOK ((vatHalves d).1.map (fun h => if (s.settleOffers.vat h).mode = .armed then 2 ^ h else 0)).sum := by
  unfold State.vatTriggerDesc
  dsimp only
  rw [vatHalves_named hnamed, State.clampDesc_false]

theorem State.vatStopDesc_named :
    let v := s.settleOffers.vatSettle ((vatHalves d).1.foldl (fun s h => if (s.vat h).mode.capturing then s.vatDone h else s) s.settleOffers)
    let left := fun h => if (vatHalves d).1.contains h then (v.vat h).stagedBytes else 0
    s.vatStopDesc d = ({ v with cap.stops := v.cap.stops ++ [(d.ref false, left 0, left 1)] } : State).endStops 0 0 := by
  intro v left
  unfold State.vatStopDesc
  dsimp only
  rw [vatHalves_named hnamed, State.clampDesc_false]

end

/-! ## Events of an act -/

/-- Where no half changed its state and none began to wait, there is no event. -/
theorem State.vatEvents_same {s t : State} (hsame : ∀ h, h < 2 → (t.vat h).mode = (s.vat h).mode ∧ (t.vat h).waitHost = (s.vat h).waitHost) :
    s.vatEvents t = t := by
  obtain ⟨hmode0, hwait0⟩ := hsame 0 (by decide)
  obtain ⟨hmode1, hwait1⟩ := hsame 1 (by decide)
  have hleft : ∀ m : VatMode, (m == .armed && m != .armed) = false := fun m => Bool.and_not_self _
  have hdone : ∀ m : VatMode, (m != .done && m == .done) = false := fun m => Bool.not_and_self _
  have hwait : ∀ b : Bool, (!b && b) = false := Bool.not_and_self
  unfold State.vatEvents
  simp only [hmode0, hwait0, hmode1, hwait1, hleft, hdone, hwait]
  rfl

/-- A trigger takes half 0 out of ARMED, and nothing else happens. -/
theorem State.vatEvents_triggered {s t : State} (harmed : (s.vat 0).mode = .armed) (htriggered : (t.vat 0).mode = .triggered)
    (hwait0 : (t.vat 0).waitHost = (s.vat 0).waitHost) (hmode1 : (t.vat 1).mode = (s.vat 1).mode)
    (hwait1 : (t.vat 1).waitHost = (s.vat 1).waitHost) : s.vatEvents t = t.raiseMask Reg.CAP_EVENT 2 := by
  have hleft : ∀ m : VatMode, (m == .armed && m != .armed) = false := fun m => Bool.and_not_self _
  have hdone : ∀ m : VatMode, (m != .done && m == .done) = false := fun m => Bool.not_and_self _
  have hwait : ∀ b : Bool, (!b && b) = false := Bool.not_and_self
  unfold State.vatEvents
  simp only [harmed, htriggered, hwait0, hmode1, hwait1, hleft, hdone, hwait]
  rfl

/-- A trigger of a half that streams adds a TRIGGER record. -/
theorem State.vatTrigger_stream {s : State} {h : Nat} {x : TrigSeen} (hstream : (s.vat h).mode = .stream) (hmerge : s.trigMerge h x = none)
    (hroom : s.vatRoom h 48 = true) : s.vatTrigger h x =
      ((s.setVat h { s.vat h with trigSeen := some x }).vatRecord h 0x10 (trigAux x) reserveBytes (trigPayload x)).vatPost h := by
  have hcaptures : ¬ (!(s.vat h).mode.capturing) = true := by rw [hstream]; decide
  have hunarmed : ¬ (s.vat h).mode = .armed := by rw [hstream]; decide
  unfold State.vatTrigger
  rw [if_neg hcaptures, hmerge]
  dsimp only
  rw [if_neg hunarmed, if_pos hroom]

/-! ## The offers of a cycle -/

theorem State.settleCycle_none {s : State} (h : s.cap.offers = []) : s.settleCycle = s := by
  unfold State.settleCycle
  rw [h]

section
variable {s : State} {c : CapRec} (hoffers : s.cap.offers = [c])
include hoffers

theorem State.settleCycle_noLine {t : State} (htake : ({ s with cap.offers := [] } : State).takeOffer c = (t, none)) :
    s.settleCycle = ({ s with cap.offers := [] } : State).vatSettle t := by
  have hcycle : [c].takeWhile (fun y => y.came == c.came) = [c] := by rw [List.takeWhile_cons, if_pos (beq_self_eq_true _), List.takeWhile_nil]
  unfold State.settleCycle
  rw [hoffers]
  dsimp only
  rw [hcycle]
  simp only [List.length_singleton, List.drop_one, List.tail_cons, List.foldl_cons, List.foldl_nil, htake]
  rfl

/-- A line that the offer fires follows. -/
theorem State.settleCycle_line {t : State} {n source seq : Nat}
    (htake : ({ s with cap.offers := [] } : State).takeOffer c = (t, some (n, source, seq))) :
    s.settleCycle = (({ s with cap.offers := [] } : State).vatSettle t).fireLines [n] 1 source seq := by
  have hcycle : [c].takeWhile (fun y => y.came == c.came) = [c] := by rw [List.takeWhile_cons, if_pos (beq_self_eq_true _), List.takeWhile_nil]
  unfold State.settleCycle
  rw [hoffers]
  dsimp only
  rw [hcycle]
  simp only [List.length_singleton, List.drop_one, List.tail_cons, List.foldl_cons, List.foldl_nil, htake]
  rfl

end

section
variable {s : State} {c : CapRec}

theorem State.takeOffer_captured (hcapture : (s.capRoute c).capture = true) (hmode : (s.vat (s.capRoute c).half).mode.capturing = true) :
    s.takeOffer c = ((s.placeRecord c (s.capRoute c).half (s.capRoute c).snap).1,
      (s.capRoute c).line.map (fun n => (n, capSource c, (s.placeRecord c (s.capRoute c).half (s.capRoute c).snap).2))) := by
  unfold State.takeOffer
  dsimp only
  rw [hcapture, hmode]
  rfl

theorem State.takeOffer_passed (hcapture : (s.capRoute c).capture = false) :
    s.takeOffer c = (s, (s.capRoute c).line.map (fun n => (n, capSource c, 0))) := by
  unfold State.takeOffer
  dsimp only
  rw [hcapture]
  rfl

end

/-! ## Records -/

/-- What is written to a half that is not at its reset value is what it holds. -/
theorem State.vat_setVat_of_ne {s : State} {h : Nat} {x : VatHalf} (hh : h < 2) (hx : x ≠ {}) : (s.setVat h x).vat h = x := by
  unfold State.setVat State.vat mapSet
  rw [if_pos hh]
  dsimp only
  rw [if_neg hx, mapGet_insert, if_pos rfl]

theorem VatHalf.ne_default_of_stream {x : VatHalf} (h : x.mode = .stream) : x ≠ {} := fun heq => by
  rw [heq] at h
  cases h

theorem State.fld_setVat (s : State) (h : Nat) (x : VatHalf) (a hi lo : Nat) : (s.setVat h x).fld a hi lo = s.fld a hi lo := by
  unfold State.fld State.rd
  rw [State.setVat_regs]

/-- A half that is not triggered ends nothing by a record. -/
theorem State.vatPost_of_ne {s : State} {h : Nat} (hmode : (s.vat h).mode ≠ .triggered) : s.vatPost h = s := if_neg fun hpost => hmode hpost.1

theorem State.writeGap_none {s : State} {h : Nat} (hgap : (s.vat h).gap = none) : s.writeGap h = s := by
  unfold State.writeGap
  rw [hgap]

theorem State.vatWrite_mode {s : State} {h : Nat} {d : List Byte} (hh : h < 2) (hstream : (s.vat h).mode = .stream) :
    ((s.vatWrite h d).vat h).mode = .stream := by
  have hset : ∀ x : VatHalf, x.mode = .stream → ((s.setVat h x).vat h).mode = .stream := fun x hx => by
    rw [State.vat_setVat_of_ne hh (VatHalf.ne_default_of_stream hx)]
    exact hx
  exact hset _ hstream

/-- The record of an offer that is kept whole. -/
def offerBytes (c : CapRec) (seq : Nat) : List Byte :=
  oljBytes (capSource c) (2 * b2n c.bad + 4 * b2n c.window + 8 * b2n c.replayed + (if c.kind = 5 then c.prio % 8 * 2 ^ 5 else 0))
    c.type c.time seq c.slot c.carrier c.aux c.payload

section
variable {s : State} {c : CapRec} {h : Nat} (hh : h < 2) (hstream : (s.vat h).mode = .stream)
include hh hstream

theorem State.vat_nextSeq : (s.setVat h ((s.vat h).nextSeq (capSource c)).2).vat h = ((s.vat h).nextSeq (capSource c)).2 :=
  State.vat_setVat_of_ne hh (VatHalf.ne_default_of_stream hstream)

/-- In a half that streams a record is lost, or put behind the last one once the GAP that is due stands there. -/
theorem State.placeRecord_stream :
    let q := (s.vat h).nextSeq (capSource c)
    let s1 := s.setVat h q.2
    let d := offerBytes c q.1
    let s2 := (s1.writeGap h).vatPost h
    s.placeRecord c h 0 = if (s.fld Reg.CAP_VAT_BW 12 0 = 0 || !s1.vatRoom h d.length) then (s1.loseRecord h d.length c.time, q.1)
      else if !(s2.vat h).mode.capturing then (s2, q.1)
      else if !s2.vatRoom h d.length then (s2.loseRecord h d.length c.time, q.1)
      else ((s2.vatPut h reserveBytes d).vatPost h, q.1) := by
  intro q s1 d s2
  have hvat : (s1.vat h).mode = .stream := (congrArg VatHalf.mode (State.vat_nextSeq (c := c) hh hstream)).trans hstream
  have hnot : ∀ p : Prop, ¬ ((s1.vat h).mode = .triggered ∧ p) := fun p hp => by rw [hvat] at hp; cases hp.1
  have hflags : b2n (decide (c.payload.length < c.payload.length)) + 2 * b2n c.bad = 2 * b2n c.bad := by
    rw [decide_eq_false (Nat.lt_irrefl _)]
    exact Nat.zero_add _
  unfold State.placeRecord
  dsimp only
  rw [if_pos rfl, hflags, if_neg (hnot _), State.fld_setVat]
  rfl

theorem State.placeRecord_lost :
    let q := (s.vat h).nextSeq (capSource c)
    let s1 := s.setVat h q.2
    let d := offerBytes c q.1
    (s1.vatRoom h d.length = false ∨ s.fld Reg.CAP_VAT_BW 12 0 = 0 → s.placeRecord c h 0 = (s1.loseRecord h d.length c.time, q.1)) := by
  intro q s1 d hlost
  have hlose : (decide (s.fld Reg.CAP_VAT_BW 12 0 = 0) || !s1.vatRoom h d.length) = true := by
    rcases hlost with hroom | hbw
    · rw [hroom]
      exact Bool.or_true _
    · rw [decide_eq_true hbw]
      rfl
  exact (State.placeRecord_stream hh hstream).trans (if_pos hlose)

section
variable (hgap : (s.vat h).gap = none)
include hgap

theorem State.writeGap_nextSeq : let s1 := s.setVat h ((s.vat h).nextSeq (capSource c)).2
    (s1.writeGap h).vatPost h = s1 := by
  intro s1
  have hvat : s1.vat h = ((s.vat h).nextSeq (capSource c)).2 := State.vat_nextSeq hh hstream
  have hmode : (s1.vat h).mode ≠ .triggered := by
    rw [hvat]
    exact fun heq => by cases hstream.symm.trans heq
  rw [State.writeGap_none (by rw [hvat]; exact hgap), State.vatPost_of_ne hmode]

theorem State.placeRecord_stored :
    let q := (s.vat h).nextSeq (capSource c)
    let s1 := s.setVat h q.2
    let d := offerBytes c q.1
    (s1.vatRoom h d.length = true → s.fld Reg.CAP_VAT_BW 12 0 ≠ 0 → s.placeRecord c h 0 = (s1.vatWrite h d, q.1)) := by
  intro q s1 d hroom hbw
  have hvat : s1.vat h = q.2 := State.vat_nextSeq hh hstream
  have hmode : (s1.vat h).mode = .stream := (congrArg VatHalf.mode hvat).trans hstream
  have hkept : ¬ (decide (s.fld Reg.CAP_VAT_BW 12 0 = 0) || !s1.vatRoom h d.length) = true := by
    rw [hroom, decide_eq_false hbw]
    exact Bool.false_ne_true
  have hput : s1.vatPut h reserveBytes d = s1.vatWrite h d := by
    unfold State.vatPut
    rw [if_neg (by rw [hmode]; decide)]
  have hwritten : ((s1.vatWrite h d).vat h).mode ≠ .triggered := by
    rw [State.vatWrite_mode hh hmode]
    decide
  rw [State.placeRecord_stream hh hstream, State.writeGap_nextSeq hh hstream hgap, if_neg hkept, hmode, hroom, hput,
    State.vatPost_of_ne hwritten]
  rfl

end

end

theorem State.writeGap_room {s : State} {h n bytes : Nat} {first : W64} (hgap : (s.vat h).gap = some (n, bytes, first))
    (hcaptures : (s.vat h).mode.capturing = true) (hbw : s.fld Reg.CAP_VAT_BW 12 0 ≠ 0) (hring : s.ringRoom h reserveBytes = true)
    (hstage : (s.vat h).stageRoom reserveBytes = true) : s.writeGap h =
      ((s.setVat h { s.vat h with gap := none }).vatRecord h 0x11 0 48
        (bytesOfNat 4 n ++ bytesOfNat 4 0 ++ bytesOfNat 8 bytes ++ bytesOfNat 8 first.toNat)).raise Reg.CAP_EVENT 0 := by
  have hroom : ((s.vat h).mode.capturing && s.fld Reg.CAP_VAT_BW 12 0 != 0 && s.ringRoom h reserveBytes && (s.vat h).stageRoom reserveBytes)
      = true := by
    rw [hcaptures, bne_iff_ne.mpr hbw, hring, hstage]
    rfl
  unfold State.writeGap
  simp only [hgap]
  exact if_pos hroom

/-! ## Trigger lines -/

/-- The lines of a set of one that are enabled. -/
theorem enabledLines_off {n : Nat} {p : Nat → Bool} (hoff : p n = false) : (List.range 4).filter (fun m => [n].contains m && p m) = [] := by
  refine List.filter_eq_nil_iff.mpr fun m _ hm => ?_
  obtain ⟨hmem, hp⟩ := Bool.and_eq_true_iff.mp hm
  rw [List.mem_singleton.mp (List.contains_iff_mem.mp hmem), hoff] at hp
  exact Bool.false_ne_true hp

theorem enabledLines_on {n : Nat} (hn : n < 4) {p : Nat → Bool} (hon : p n = true) : (List.range 4).filter (fun m => [n].contains m && p m) = [n] := by
  match n, hn with
  | 0, _ => simp [List.range, List.range.loop, hon]
  | 1, _ => simp [List.range, List.range.loop, hon]
  | 2, _ => simp [List.range, List.range.loop, hon]
  | 3, _ => simp [List.range, List.range.loop, hon]

theorem State.fireLines_off {s : State} {n : Nat} (cause source seq : Nat) (hoff : s.bit (Reg.CAP_TRIG_CFG n) 0 = false) :
    s.fireLines [n] cause source seq = s.freezeAtDone := by
  unfold State.fireLines
  rw [enabledLines_off (p := fun m => s.bit (Reg.CAP_TRIG_CFG m) 0) hoff]
  rfl

/-- What the enabled lines do: those of `vat` trigger both halves, and `hold` has its freeze wait for them. -/
def State.fireOn (s : State) (on vat : List Nat) (hold : Option Nat) (cause source seq : Nat) : State :=
  let t : TrigSeen := ⟨s.tb.time16, (vat.map (fun n => 2 ^ n)).sum, cause, source, seq⟩
  let s := match hold with
    | some n => s.holdFreeze n (!vat.isEmpty)
    | none => s
  let s := if vat.isEmpty then s else s.vatEvents ([0, 1].foldl (fun s h => s.vatTrigger h t) s)
  (on.foldl (fun s n => s.lineActs n cause) s).freezeAtDone

theorem State.fireLines_eq {s : State} {l on : List Nat} (cause source seq : Nat)
    (hon : (List.range 4).filter (fun m => l.contains m && s.bit (Reg.CAP_TRIG_CFG m) 0) = on) : s.fireLines l cause source seq =
      s.fireOn on (on.filter (fun m => s.bit (Reg.CAP_TRIG_CFG m) 1)) (on.find? (fun m => s.bit (Reg.CAP_TRIG_CFG m) 3)) cause source seq := by
  subst hon
  rfl

theorem State.fireOn_alone (s : State) (n cause source seq : Nat) :
    s.fireOn [n] [] none cause source seq = (s.lineActs n cause).freezeAtDone := by
  unfold State.fireOn
  dsimp only
  rw [List.isEmpty_nil, if_pos rfl, List.foldl_cons, List.foldl_nil]

/-- An enabled line that triggers no half acts alone. -/
theorem State.fireLines_acts {s : State} {n : Nat} (hn : n < 4) (cause source seq : Nat) (hon : s.bit (Reg.CAP_TRIG_CFG n) 0 = true)
    (hvat : s.bit (Reg.CAP_TRIG_CFG n) 1 = false) (hhold : s.bit (Reg.CAP_TRIG_CFG n) 3 = false) :
    s.fireLines [n] cause source seq = (s.lineActs n cause).freezeAtDone := by
  have hnone : [n].filter (fun m => s.bit (Reg.CAP_TRIG_CFG m) 1) = [] := List.filter_cons_of_neg (ne_true_of_eq_false hvat)
  have hfree : [n].find? (fun m => s.bit (Reg.CAP_TRIG_CFG m) 3) = none := by rw [List.find?_cons, hhold]; rfl
  rw [State.fireLines_eq cause source seq (enabledLines_on hn (p := fun m => s.bit (Reg.CAP_TRIG_CFG m) 0) hon), hnone, hfree,
    State.fireOn_alone]

theorem State.lineActs_press {s : State} {n : Nat} (cause : Nat) :
    let s1 := (s.wr (Reg.CAP_TRIG_STAMP_LO n) (s.stampNow.setWidth 32)).wr (Reg.CAP_TRIG_STAMP_HI n) ((s.stampNow >>> 32).setWidth 32)
    s1.bit (Reg.CAP_TRIG_CFG n) 31 = false → s1.bit (Reg.CAP_TRIG_CFG n) 4 = false → (s1.pressLine n).bit (Reg.CAP_TRIG_CFG n) 2 = false →
    s.lineActs n cause = s1.pressLine n := by
  intro s1 hpulse hcast hfreeze
  unfold State.lineActs
  dsimp only
  rw [hpulse, Bool.false_and, if_neg Bool.false_ne_true, hcast, Bool.false_and, if_neg Bool.false_ne_true, hfreeze]
  rfl

/-! ## Spill -/

/-- The frame of `n` bytes that spill port `k` of half `h` sends, and what follows it. -/
def State.spillSent (s : State) (h k n : Nat) : State :=
  let y := s.spillTake h n
  let z := y.1.nextFrameSeq h
  let f := withFcs (padTo 60 (ethHeader ((s.rd Reg.CAP_SPILL_DST_LO).toNat + s.fld Reg.CAP_SPILL_DST_HI 15 0 * 2 ^ 32) (s.portMac (4 * k)) none
    (s.fld Reg.CAP_SPILL_ETYPE 15 0) ++ spillHeader h (s.vat h).frameSeq y.2.2 n ++ y.2.1))
  (((z.setVat h { z.vat h with lastPort := k }).bump64 (Reg.CAP_SPILL_FRAMES_LO k) 1).emit (.spill k f)).spillDrained h

section
variable {s : State} {h k : Nat} (hh : h < 2) (hport : s.refill.nextSpillPort h = some k) (hstream : (s.refill.vat h).mode = .stream)
  (hports : s.refill.vatSpill h = 1)
include hport

theorem State.spillFrame_port (short : Bool) :
    let u := s.refill
    let room := u.fld (Reg.CAP_SPILL_CFG k) 13 0 - 34
    let n := min room (u.spillReady h)
    s.spillFrame h short = if h < 2 ∧ ((u.vat h).mode == .stream || (u.vat h).mode == .spilling || (u.vat h).mode == .done) = true ∧ u.vatSpill h = 1
        ∧ 0 < n ∧ n ≤ u.tokenBytes ∧ (n = room ∨ short = true ∨ ((u.vat h).mode = .done ∧ (u.vat h).stagedBytes = 0))
      then u.spillSent h k n else u := by
  unfold State.spillFrame
  simp only [hport]
  rfl

include hh hstream hports in
theorem State.spillFrame_sends {short : Bool} {n : Nat}
    (hn : n = min (s.refill.fld (Reg.CAP_SPILL_CFG k) 13 0 - 34) (s.refill.spillReady h)) (hsome : 0 < n) (htokens : n ≤ s.refill.tokenBytes)
    (hgoes : n = s.refill.fld (Reg.CAP_SPILL_CFG k) 13 0 - 34 ∨ short = true) : s.spillFrame h short = s.refill.spillSent h k n := by
  subst hn
  refine (State.spillFrame_port hport short).trans (if_pos ⟨hh, ?_, hports, hsome, htokens, hgoes.imp_right .inl⟩)
  rw [hstream]
  rfl

include hstream in
/-- A full frame waits until there is a frame's worth. -/
theorem State.spillFrame_waits
    (hless : min (s.refill.fld (Reg.CAP_SPILL_CFG k) 13 0 - 34) (s.refill.spillReady h) < s.refill.fld (Reg.CAP_SPILL_CFG k) 13 0 - 34) :
    s.spillFrame h false = s.refill := by
  refine (State.spillFrame_port hport false).trans (if_neg ?_)
  rintro ⟨-, -, -, -, -, hfull | hshort | ⟨hdone, -⟩⟩
  · omega
  · cases hshort
  · cases hstream.symm.trans hdone

theorem State.spillFrame_unpaid (short : Bool)
    (hunpaid : s.refill.tokenBytes < min (s.refill.fld (Reg.CAP_SPILL_CFG k) 13 0 - 34) (s.refill.spillReady h)) :
    s.spillFrame h short = s.refill := by
  refine (State.spillFrame_port hport short).trans (if_neg ?_)
  rintro ⟨-, -, -, -, hpaid, -⟩
  exact Nat.not_lt.mpr hpaid hunpaid

end

theorem State.writeSpillCfg_busy {s : State} {k : Nat} (v : W32) (hbusy : s.vatFree (k / 12) = false) :
    s.writeSpillCfg k v = s.clampAt Reg.CAP_CLAMP_COUNT := by
  unfold State.writeSpillCfg
  dsimp only
  rw [hbusy]
  rfl

section
variable {s : State} {d : Desc} (hpage : d.fld 0x14 31 0 % 4096 = 0) (hmin : 65536 ≤ d.fld 0x14 31 0) (hmax : d.fld 0x14 31 0 ≤ 2 ^ 28)
  (haddr : (d.w64 0x18).toNat % 4096 = 0)
include hpage hmin hmax haddr

/-- A CAP_HOSTBUF that needs no clamp. -/
theorem State.capHostbuf_eq : s.capHostbuf d =
    if 1024 ≤ (s.vat (d.fld 0x10 31 31)).bufs.length then s.complete (d.ref false) stREFUSED 0
    else ((s.setVat (d.fld 0x10 31 31) { s.vat (d.fld 0x10 31 31) with bufs := (s.vat (d.fld 0x10 31 31)).bufs ++
      [({ ref := d.ref false, fn := s.descFn d, len := d.fld 0x14 31 0, addr := d.w64 0x18 } : SpillBuf)] }).settleSpill
        (d.fld 0x10 31 31)).hostFill (d.fld 0x10 31 31) := by
  have hlen : max 65536 (min (2 ^ 28) (d.fld 0x14 31 0)) / 4096 * 4096 = d.fld 0x14 31 0 := by
    rw [Nat.min_eq_right hmax, Nat.max_eq_right hmin]
    exact Nat.div_mul_cancel (Nat.dvd_of_mod_eq_zero hpage)
  have hbase : BitVec.ofNat 64 ((d.w64 0x18).toNat / 4096 * 4096) = d.w64 0x18 := by
    rw [Nat.div_mul_cancel (Nat.dvd_of_mod_eq_zero haddr)]
    exact BitVec.ofNat_toNat _ _ |>.trans (BitVec.setWidth_eq _)
  unfold State.capHostbuf
  dsimp only
  rw [hlen, hbase, haddr, bne_self_eq_false, bne_self_eq_false, Bool.or_false, State.clampDesc_false]

end

section
variable {s : State} {h : Nat} {b : SpillBuf} {r : List SpillBuf} (hbufs : ((s.hostFill h).vat h).bufs = b :: r)
include hbufs

theorem State.hostbufClose_eq (idle : Bool) : s.hostbufClose h idle =
    if h < 2 ∧ 0 < b.fill ∧ (b.fill = b.len - 16 ∨ idle = true ∨
      (((s.hostFill h).vat h).mode = .done ∧ ((s.hostFill h).vat h).spilled = ((s.hostFill h).vat h).wpos))
      then ((s.hostFill h).closeBuf h b).hostFill h else s.hostFill h := by
  unfold State.hostbufClose
  simp only [hbufs]

theorem State.closeBuf_first :
    let u := s.hostFill h
    let w := u.hostWrite ⟨b.fn, 0, b.ref.ring, b.ref.tag, b.addr, spillHeader h (u.vat h).frameSeq b.first b.fill, 0⟩
    u.closeBuf h b =
      ((((w.setVat h { w.vat h with bufs := r }).nextFrameSeq h).complete b.ref stOK ((u.vat h).frameSeq % 65536)).spillDrained h) := by
  intro u w
  unfold State.closeBuf
  dsimp only
  rw [hbufs]
  rfl

end

/-! ## The Press -/

/-- A Press START on the reference grid whose descriptor needs no clamp. -/
structure PlainPress (d : Desc) : Prop where
  reference : d.carrier = 0xFFFF
  module : d.fld 0x10 4 4 = 0
  aligned : (d.w64 0x18).toNat % 8 = 0
  fits : (d.w64 0x18).toNat + (d.w64 0x20).toNat ≤ memSize
  period : 0 < d.fld 0x28 23 0
  clamped : carrierClamped d.carrier = false

/-- The channel that an immediate START without a line sets up. -/
def State.pressImmediate (s : State) (d : Desc) : PressChan :=
  { mode := .wait, ref := some (d.ref false), carrier := none, anchor := some (s.firstAnchor none (s.tb.time16 + s.pressLead16)), line := none,
    rewrite := d.fld 0x10 6 6 = 1, timeFirst := d.fld 0x10 5 5 = 1, buffer := false, loops := d.fld 0x14 31 0, addr := (d.w64 0x18).toNat,
    length := (d.w64 0x20).toNat, period := d.fld 0x28 23 0, shifted := false }

section
variable {s : State} {d : Desc} (hplain : PlainPress d)
include hplain

theorem PlainPress.length_fits : min (d.w64 0x20).toNat (memSize - (d.w64 0x18).toNat) = (d.w64 0x20).toNat :=
  Nat.min_eq_left (Nat.le_sub_of_add_le (by rw [Nat.add_comm]; exact hplain.fits))

theorem PlainPress.unclamped : (carrierClamped d.carrier || (d.w64 0x18).toNat % 8 != 0 || (d.w64 0x20).toNat != (d.w64 0x20).toNat
    || d.fld 0x28 23 0 == 0) = false := by
  rw [hplain.clamped, hplain.aligned, bne_self_eq_false, bne_self_eq_false, beq_false_of_ne (Nat.ne_of_gt hplain.period)]
  rfl

theorem PlainPress.start : (d.w64 0x18).toNat / 8 * 8 = (d.w64 0x18).toNat := Nat.div_mul_cancel (Nat.dvd_of_mod_eq_zero hplain.aligned)

theorem State.pressStart_refused (hmode : (s.chanP (d.fld 0x10 3 0)).mode ≠ .idle) :
    s.pressStart d = s.complete (d.ref false) stREFUSED 0 := by
  have hlimit : (if (0 : Nat) = 1 then 0x02000000 else memSize) = memSize := if_neg (by decide)
  unfold State.pressStart
  dsimp only
  rw [hplain.module, hplain.start, hlimit, hplain.length_fits, hplain.unclamped, decide_eq_true hplain.reference]
  simp only [Bool.not_true, Bool.false_and, Bool.or_false, State.clampDesc_false, bne_iff_ne.mpr hmode, Bool.true_or, if_true]

theorem State.pressStart_immediate (hmode : (s.chanP (d.fld 0x10 3 0)).mode = .idle) (himmediate : d.immediate = true)
    (hline : d.fld 0x10 7 7 = 0) : s.pressStart d = s.setChanP (d.fld 0x10 3 0) (s.pressImmediate d) := by
  have hlimit : (if (0 : Nat) = 1 then 0x02000000 else memSize) = memSize := if_neg (by decide)
  have hnoLine : (if (0 : Nat) = 1 then some (d.fld 0x10 9 8) else none) = none := if_neg (by decide)
  have hcarrier : (if d.carrier = 0xFFFF then none else some (carrierField d.carrier)) = none := if_pos hplain.reference
  have hperiod : (if d.fld 0x28 23 0 = 0 then 1 else d.fld 0x28 23 0) = d.fld 0x28 23 0 := if_neg (Nat.ne_of_gt hplain.period)
  unfold State.pressStart
  dsimp only
  rw [hplain.module, hplain.start, hlimit, hplain.length_fits, hplain.unclamped, decide_eq_true hplain.reference, hline, hnoLine, himmediate,
    hcarrier, hperiod]
  simp only [Bool.not_true, Bool.false_and, Bool.and_false, Bool.or_false, State.clampDesc_false, hmode, bne_self_eq_false, Bool.true_or]
  rfl

end

theorem State.pressRecord_due {s : State} {c : Nat} {a n : Int} (hanchor : (s.chanP c).anchor = some (a, n)) (hmode : (s.chanP c).mode ≠ .idle)
    (hdue : a + (s.chanP c).iter * s.pressPeriod (s.chanP c) ≤ s.tb.time16) : s.pressRecord c =
      (s.setChanP c { s.chanP c with mode := .run }).pressWalk c a ((s.chanP c).length / 32 + 3) := by
  unfold State.pressRecord
  simp only [hanchor]
  exact if_neg (not_or.mpr ⟨hmode, Int.not_lt.mpr hdue⟩)

section
variable {s : State} {c : Nat}

/-- Iterations are left. -/
theorem State.pressIteration_next (hmore : (s.chanP c).loops = 0 ∨ (s.chanP c).iter + 1 < (s.chanP c).loops) :
    s.pressIteration c = s.setChanP c { s.chanP c with iter := (s.chanP c).iter + 1, pos := 0 } := by
  have hlast : ((s.chanP c).loops != 0 && decide ((s.chanP c).loops ≤ (s.chanP c).iter + 1)) = false := by
    rcases hmore with h | h
    · rw [h]
      rfl
    · rw [decide_eq_false (Nat.not_le.mpr h), Bool.and_false]
  unfold State.pressIteration
  dsimp only
  rw [hlast]
  rfl

section
variable (hloops : (s.chanP c).loops ≠ 0) (hlast : (s.chanP c).loops ≤ (s.chanP c).iter + 1)
include hloops hlast

theorem State.pressIteration_last : s.pressIteration c = if s.cap.outq.any (·.chan == c) then s
    else (s.setChanP c { s.chanP c with iter := (s.chanP c).iter + 1 }).pressEnd c stOK := by
  unfold State.pressIteration
  dsimp only
  rw [bne_iff_ne.mpr hloops, decide_eq_true hlast]
  rfl

end

end

/-- Settles O51: a lemma for each command, in the order of the statement. -/
theorem captureAndReplay : Obligations.CaptureAndReplay := by
  unfold Obligations.CaptureAndReplay
  refine ⟨?halves, ?quiet, ?triggered, ?trigger, ?record, ?noOffer, ?offer, ?place, ?drain, ?gap, ?lines, ?spill, ?spillPort, ?hostbuf, ?close,
    ?pressStart, ?pressStop, ?pressRecord, ?pressEnd, ?iteration⟩
  case halves =>
    intro s d hclk hnamed u
    refine ⟨fun hfree => ?_, fun h hmem hbusy => ?_, ?_, ?_⟩
    · exact (exec_of_clocked hclk rfl).trans (congrArg _ (State.vatArmDesc_free hnamed hfree))
    · exact (exec_of_clocked hclk rfl).trans (congrArg _ (State.vatArmDesc_refused hnamed hmem hbusy))
    · exact (exec_of_clocked hclk rfl).trans (congrArg _ (State.vatTriggerDesc_named hnamed))
    · exact (exec_of_clocked hclk rfl).trans (congrArg _ (State.vatStopDesc_named hnamed))
  case quiet => exact fun s t hsame => State.vatEvents_same hsame
  case triggered =>
    exact fun s t harmed htriggered hwait0 hmode1 hwait1 => State.vatEvents_triggered harmed htriggered hwait0 hmode1 hwait1
  case trigger => exact fun s h x _ hstream hmerge hroom => State.vatTrigger_stream hstream hmerge hroom
  case record => exact fun s h grant hclk hh => (exec_of_clocked hclk rfl).trans (congrArg _ (if_pos hh))
  case noOffer => exact fun s hnone => State.settleCycle_none hnone
  case offer =>
    intro s c hoffers s0 ch
    refine ⟨fun hcapture hmode hline => ?_, fun n hcapture hmode hline => ?_, fun n hcapture hline => ?_⟩
    · refine State.settleCycle_noLine hoffers ((State.takeOffer_captured hcapture hmode).trans ?_)
      rw [hline]
      rfl
    · refine State.settleCycle_line hoffers ((State.takeOffer_captured hcapture hmode).trans ?_)
      rw [hline]
      rfl
    · refine State.settleCycle_line hoffers ((State.takeOffer_passed hcapture).trans ?_)
      rw [hline]
      rfl
  case place =>
    exact fun s c h hh hstream hgap => ⟨State.placeRecord_lost hh hstream, State.placeRecord_stored hh hstream hgap⟩
  case drain => exact fun s h grant => rfl
  case gap =>
    intro s h n bytes first hclk hgap hcaptures hbw hring hstage
    have hexec : exec (.gapRecord h) s = .next (s.vatSettle ((s.writeGap h).vatPost h)) := exec_of_clocked hclk rfl
    rw [hexec, State.writeGap_room hgap hcaptures hbw hring hstage]
  case lines =>
    intro s n hclk hn
    refine ⟨fun hinput rising hedge => ?_, exec_of_clocked hclk rfl, fun cause source seq hoff => State.fireLines_off cause source seq hoff,
      fun cause source seq hon hvat hhold => State.fireLines_acts hn cause source seq hon hvat hhold, fun cause => State.lineActs_press cause⟩
    have hfires : (decide (n < 4) && !s.bit (Reg.CAP_TRIG_CFG n) 31 && s.bit (Reg.CAP_TRIG_CFG n) 30 == !rising) = true := by
      rw [decide_eq_true hn, hinput, hedge, beq_self_eq_true]
      rfl
    exact (exec_of_clocked hclk rfl).trans (congrArg _ (if_pos hfires))
  case spill =>
    intro s h k hclk hh hport hstream hports u room n y z f out
    have hframe : exec (.spillFrame h) s = .next (s.spillFrame h false) := exec_of_clocked hclk rfl
    have hidle : exec (.spillIdle h) s = .next (s.spillFrame h true) := exec_of_clocked hclk rfl
    rw [hframe, hidle]
    refine ⟨fun hsome htokens hfull => congrArg _ ?_, fun hsome htokens => congrArg _ ?_, fun hless => congrArg _ ?_,
      fun hunpaid => ⟨congrArg _ ?_, congrArg _ ?_⟩⟩
    · exact State.spillFrame_sends hh hport hstream hports rfl hsome htokens (.inl hfull)
    · exact State.spillFrame_sends hh hport hstream hports rfl hsome htokens (.inr rfl)
    · exact State.spillFrame_waits hport hstream hless
    · exact State.spillFrame_unpaid hport false hunpaid
    · exact State.spillFrame_unpaid hport true hunpaid
  case spillPort =>
    intro s k v hk hopen
    have hexec : exec (.spillPortEnable k v) s = .next (s.writeSpillCfg k v) := (if_pos hk).trans (congrArg _ (hostWriteTo_open hopen _))
    exact ⟨fun hbusy => hexec.trans (congrArg _ (State.writeSpillCfg_busy v hbusy)), fun _ => hexec⟩
  case hostbuf =>
    intro s d hclk h l hpage hmin hmax haddr
    have hexec : exec (.capHostbuf d) s = .next (s.capHostbuf d) := exec_of_clocked hclk rfl
    rw [hexec, State.capHostbuf_eq hpage hmin hmax haddr]
    exact ⟨fun hroom => congrArg _ (if_neg (Nat.not_le.mpr hroom)), fun hfull => congrArg _ (if_pos hfull)⟩
  case close =>
    intro s h idle b r hclk hh hbufs hfill u w closed
    have hexec : exec (.hostbufClose h idle) s = .next (s.hostbufClose h idle) := exec_of_clocked hclk rfl
    rw [hexec, State.hostbufClose_eq hbufs]
    refine ⟨fun hend => congrArg _ ?_, fun hroom hbusy hmode => congrArg _ (if_neg ?_)⟩
    · rw [if_pos ⟨hh, hfill, hend⟩, State.closeBuf_first hbufs]
    · rintro ⟨-, -, hfull | hidle | ⟨hdone, -⟩⟩
      · exact hroom hfull
      · exact Bool.false_ne_true (hbusy.symm.trans hidle)
      · exact hmode hdone
  case pressStart =>
    intro s d hclk c href hmodule haligned hfits hperiod hclamped
    have hplain : PlainPress d := ⟨href, hmodule, haligned, hfits, hperiod, hclamped⟩
    have hexec : exec (.capPressStart d) s = .next (s.pressStart d) := exec_of_clocked hclk rfl
    rw [hexec]
    exact ⟨fun hmode => congrArg _ (State.pressStart_refused hplain hmode),
      fun hmode himmediate hline => congrArg _ (State.pressStart_immediate hplain hmode himmediate hline)⟩
  case pressStop =>
    intro s d hclk
    exact ⟨fun hmode => (exec_of_clocked hclk rfl).trans (congrArg _ (if_pos hmode)),
      fun hmode => (exec_of_clocked hclk rfl).trans (congrArg _ (if_neg hmode))⟩
  case pressRecord =>
    intro s c a n hclk hanchor hmode hdue
    exact (exec_of_clocked hclk rfl).trans (congrArg _ (State.pressRecord_due hanchor hmode hdue))
  case pressEnd => exact fun s c anchor hend => if_pos hend
  case iteration =>
    intro s c
    exact ⟨State.pressIteration_next, fun hloops hlast hwaits => (State.pressIteration_last hloops hlast).trans (if_pos hwaits),
      fun hloops hlast hnone => (State.pressIteration_last hloops hlast).trans (if_neg (ne_true_of_eq_false hnone))⟩

end Sys2Proof.Machine
end

end
